-- ==== Sys2Proof/Word.lean ====
section
/-! DEFINITION. The word types of the block: 32-bit registers and bytes (00_scope.md, Registers and access codes). -/

namespace Sys2Proof

/-- A 32-bit register or record word. -/
abbrev Word := BitVec 32

/-- A byte of an addressed memory. -/
abbrev Byte := BitVec 8

end Sys2Proof
end

