-- ==== Sys2Proof/Syntax.lean ====
section
/-! DEFINITION. The commands of the block: one constructor per row of spec/opcode_table.json, in its order. The table
gives no row an operand; the operands are what the row's rule lets the command carry (log entry 6). -/

namespace Sys2Proof

/-- The state copy of 16_redundant_pair.md R402, in the active device's counters: frame F; sources of the video and audio
destinations that carry one; mix entries; contents of the mirrored registers, leg contexts, layers as committed and as in
force, slot masks in force, TLUTs, LUTs and coefficients; sequence numbers of transmit flows by kind and flow; counts of both
rings with the count up to which salvos are committed; their records; execution points by first count and plane, with 2^48
where a part has executed; records between journalled salvos that were refused, by count and number. -/
structure StateCopy where
  f : Nat := 0
  routes : List (Nat × Nat) := []
  audio : List (Nat × Nat) := []
  mix : List (Nat × Nat) := []
  regs : List (Nat × Nat) := []
  legs : List (Nat × List Nat) := []
  layers : List (Nat × List Nat) := []
  force : List (Nat × List Nat) := []
  masks : List (Nat × Nat) := []
  tlut : List (Nat × Nat) := []
  lut : List (Nat × Nat) := []
  coef : List (Nat × Nat) := []
  seqs : List (Nat × Nat × Nat) := []
  xpCi : Nat := 0
  xpPi : Nat := 0
  xpDone : Nat := 0
  audCi : Nat := 0
  audPi : Nat := 0
  audDone : Nat := 0
  xpRecs : List (Nat × Nat) := []
  audRecs : List (Nat × Nat) := []
  due : List (Nat × Nat × Nat) := []
  audDue : List (Nat × Nat) := []
  gaps : List (Nat × Nat) := []
  audGaps : List (Nat × Nat) := []
  deriving DecidableEq, Repr

/-- A command that reaches the device: a register access, an event at a pin or a line, a timer's expiry, or a step of
one of the device's own engines. -/
inductive Instr where
  /-- R52. VHOLD appears and the always-on domain starts, holding the device in RESET until it is released. -/
  | aonPowerOn (addr : BitVec 3) (bad : List (Fin 4194304 × Fin 3))
  /-- R504. The monitor judges a supply outside its range after 2 µs and holds the device in RESET. -/
  | supplyOutOfLimits (i : Fin 9)
  /-- R504. The monitor judges a supply back within its range after 100 µs without a break. -/
  | supplyWithinLimits (i : Fin 9)
  /-- R30. A filtered low on RESET_N puts the device in RESET from any mode. -/
  | resetNLow
  /-- R30. The device leaves RESET on the first aon edge that sees RESET_N high with all supplies within limits, and enters cold-form BOOT. -/
  | resetRelease (sel : Fin 4) (addr : BitVec 3)
  /-- R33. The ctl and eng synthesisers lock, the fabric and PCIe leave reset, and boot moves on to step 3. -/
  | bootClocksLocked
  /-- R34. The ctl synthesiser has not locked 10 ms after step 1, so the device stays at step 1 with FAIL_CODE 0x01. -/
  | ctlLockTimeout
  /-- R41. In the heat phase the sequencer reads Tj every 10 ms and ends the phase on the first reading at or above −20 °C. -/
  | heatTjRead
  /-- R41. The heat phase reaches 900 s, so HEAT_SLOW is set and MGMT_ALERT_N goes low. -/
  | heatSlowTimeout
  /-- R33. HBM training and SerDes calibration complete or fail in boot step 6. -/
  | hbmTrainDone (hbm : Bool) (serdes : Bool)
  /-- R33. The last byte of the image is hashed into the staging area, and the signature and identity checks follow. -/
  | imageStreamDone (ok : Bool)
  /-- R37. A GO write to GLOBAL_HOST_BOOT ends the wait for a host image, and the sequencer hashes the staged image. -/
  | hostBootGo (m : Fin 9) (len : BitVec 14)
  /-- R224. The host writes image bytes, or surface bytes through the aperture, into a BAR2 memory window. -/
  | stagingAreaWrite (addr : BitVec 30) (bytes : List Byte)
  /-- R46. A keyed GLOBAL_RESET_CTRL write with SAFE = 1 enters SAFE. -/
  | hostSafeRequest (m : Fin 9) (soft : Bool)
  /-- R49. A keyed GLOBAL_RESET_CTRL write with SOFT = 1 restarts the cold form of BOOT. -/
  | softReset (m : Fin 9) (sel : Fin 4)
  /-- R521. The on-die sensors update GLOBAL_TJ every 1 ms. -/
  | tjSensorReading (tmin : Int) (tmax : Int)
  /-- R18. A synthesiser loses lock, so its GLOBAL_CLK_LOCK bit clears and CLK_UNLOCK is raised. -/
  | synthLossOfLock (i : Fin 9)
  /-- R12. A die-bridge transfer arrives and its CRC is checked. -/
  | bridgeTransfer (d : Fin 2) (bad : Bool)
  /-- R6. A host or master write to a register that has no row of its own is decoded, checked and applied or refused. -/
  | registerWrite (m : Fin 9) (a : BitVec 26) (len : Fin 257) (data : BitVec 64)
  /-- R6. A read of an RC register returns the value and then clears it. -/
  | readClearCounter (m : Fin 9) (a : BitVec 26) (n : Fin 513)
  /-- R6. A write of 1 clears a W1C bit, unless its condition is still present. -/
  | w1cStatusClear (m : Fin 9) (a : BitVec 26) (q : Option (BitVec 20)) (w : Word)
  /-- R473. A read of the low word of a 64-bit pair latches the high word for the reading master. -/
  | read64Low (m : Fin 9) (a : BitVec 26) (wide : Bool)
  /-- R78. A read of IMG_RB_DATA returns the selected image word and advances WORD. -/
  | imgRbDataRead (m : Fin 9)
  /-- R94. The host writes a word of a take-ring slot, and a write to an occupied slot is ignored with OVERRUN set. -/
  | takeRecordWrite (m : Fin 9) (w : Fin 16384) (v : Word)
  /-- R94. A write to XP_TAKE_PI advances the producer count, or is ignored whole with TAKE_OVERRUN. -/
  | takePiWrite (m : Fin 9) (pi : BitVec 13)
  /-- R96. Validation of a salvo covered by PI ends, and the salvo is committed or refused as a unit. -/
  | salvoCommit (since0 : Nat) (since1 : Nat)
  /-- R96. An ABANDON write turns the open tail into a refused salvo with code 0x08. -/
  | takeAbandon (m : Fin 9)
  /-- R99. At 8,192 plane cycles before the switch point, the take loader forms the batch and loads the pending sources. -/
  | planeCutoff (p : Fin 2)
  /-- R83. The plane reaches its switch point: PLANE_FC advances, the frame pulse starts, and frame-synchroniser and insertion settings take effect. -/
  | planeSwitchPoint (p : Fin 2)
  /-- R104. At P + T_line, each destination of the batch reads the switching line from its new source. -/
  | destSwitchLineRead (p : Fin 2)
  /-- R84. A destination reads line L at P_L + T_line from its ring, FIFO or synchroniser. -/
  | destLineRead (d : Fin 4096) (line : Nat) (errs : Fin 3)
  /-- R103. At P + T_line + 1 µs, the executed parts are freed, the status is written, MSI-X is sent and the routes are marked for Keep. -/
  | batchRecord (p : Fin 2)
  /-- R85. The EAV of a source's switching line arrives and the source is judged timed or untimed for each plane. -/
  | sourceSwitchLineArrival (x : Fin 2048) (d0 : Int) (d1 : Int)
  /-- R89. A delivered frame updates the source's measured rate, and the off-rate state may change. -/
  | sourceFrameMeasured (x : Fin 2048) (ps : Nat)
  /-- R108. The write side of a frame synchroniser completes storing a whole frame. -/
  | fsyncFrameComplete (d : Fin 4096)
  /-- R110. The hold timer expires, so SYNC_LOST is set and FSYNC_LOSS is raised. -/
  | fsyncHoldExpire (d : Fin 4096)
  /-- R120. After 1 ms without CDR lock, the receiver tries the next rate. -/
  | vlaneRateSearchTimeout (v : Fin 512)
  /-- R120. The CDR locks and the receiver searches for TRS words. -/
  | vlaneCdrLock (v : Fin 512)
  /-- R120. The first consistent whole frame puts the receiver in LOCKED and compares rate and structure. -/
  | vlaneFrameAligned (v : Fin 512) (streams : List (Nat × Nat × Bool)) (levelB : Bool)
  /-- R120. No consistent frame arrives within 3 × T_f, so the search moves to the next rate. -/
  | vlaneAlignTimeout (v : Fin 512)
  /-- R120. The CDR loses lock, so the receiver leaves LOCKED and SDI_LOCK_LOSS is raised. -/
  | vlaneCdrLoss (v : Fin 512)
  /-- R120. Eight consecutive lines arrive without a valid EAV, so the receiver leaves LOCKED. -/
  | vlaneEavMissing (v : Fin 512)
  /-- R122. A received line's CRC words are checked, and errored lines and frames are counted. -/
  | vlaneLineReceived (v : Fin 512) (line : Nat) (words : List Nat)
  /-- R123. A valid ST 352 packet updates VLANE_RX_PID and sets PID_VALID. -/
  | vlanePidPacket (v : Fin 512) (pid : Word) (csOk : Bool)
  /-- R123. After 3 frames without a valid payload ID, PID_VALID clears. -/
  | vlanePidTimeout (v : Fin 512)
  /-- R133. An embedded audio data packet is de-embedded, corrected, repeated or zeroed. -/
  | sdiAudioPacket (v : Fin 512) (g : Fin 8) (second : Bool) (outcome : Fin 3) (sync : Bool) (phase : BitVec 13) (samples : List Nat)
  /-- R136. A received ANC packet is matched against the filters and captured whole, or dropped for want of room. -/
  | ancPacketCapture (v : Fin 512) (line : Nat) (hanc : Bool) (stream : Bool) (ok : Bool) (did : BitVec 8) (sdid : BitVec 8) (pos : Nat) (udw : List (BitVec 10))
  /-- R142. The filtered HPD returns high, ending a glitch or an IRQ_HPD, or starting training. -/
  | dpHpdRise (k : Fin 4) (ns : Nat)
  /-- R142. The filtered HPD goes low and the HPD timers start. -/
  | dpHpdFall (k : Fin 4)
  /-- R142. HPD has been low for 2 ms, so an unplug is declared and the link goes to WAIT_HPD. -/
  | dpUnplugTimeout (k : Fin 4)
  /-- R143. Link training ends and the link enters ACTIVE with the depth of R144, or enters FAIL. -/
  | dpTrainDone (k : Fin 4) (answered : Bool) (sinkRate : Nat) (lanes : Nat) (ok : Bool) (okLow : Bool)
  /-- R143. A RETRAIN write sends the link to TRAIN. -/
  | dpRetrain (m : Fin 9) (k : Fin 4)
  /-- R143. A write of DP_CTRL.EN moves the link to OFF or to WAIT_HPD. -/
  | dpLinkEnableWrite (m : Fin 9) (k : Fin 4) (en : Bool)
  /-- R145. The host starts a native AUX read of 1 to 16 bytes. -/
  | dpAuxNativeRead (m : Fin 9) (k : Fin 4) (addr : BitVec 20) (len1 : Fin 16)
  /-- R145. The host starts a native AUX write, refused for DPCD 0x00100–0x001FF. -/
  | dpAuxNativeWrite (m : Fin 9) (k : Fin 4) (addr : BitVec 20) (len1 : Fin 16)
  /-- R145. The host starts an I²C-over-AUX read. -/
  | dpAuxI2cRead (m : Fin 9) (k : Fin 4) (addr : BitVec 20) (len1 : Fin 16)
  /-- R145. The host starts an I²C-over-AUX write. -/
  | dpAuxI2cWrite (m : Fin 9) (k : Fin 4) (addr : BitVec 20) (len1 : Fin 16)
  /-- R145. A sink reply completes an AUX transaction, or a DEFER causes a retry. -/
  | dpAuxReply (k : Fin 4) (reply : Fin 3) (data : List Byte)
  /-- R145. No AUX reply arrives within 400 µs. -/
  | dpAuxTimeout (k : Fin 4)
  /-- R150. Every lane's CDR of a port locks, so the port enters ALIGNING. -/
  | macCdrLock (m : Fin 64)
  /-- R150. A lane's CDR unlocks, so the port enters NO_SIGNAL. -/
  | macCdrLoss (m : Fin 64)
  /-- R150. After 1 ms of quiet in ALIGNING, the port enters UP. -/
  | macAlignTimerExpire (m : Fin 64)
  /-- R150. Loss of FEC or alignment lock, or a local fault, takes an UP port to ALIGNING. -/
  | macAlignLoss (m : Fin 64) (localFault : Bool)
  /-- R150. A received fault ordered set restarts the ALIGNING timer or sets RF. -/
  | macFaultSequence (m : Fin 64) (kind : Fin 3)
  /-- R154. At the end of a received frame, the MAC gives it one outcome from Table 6.5. -/
  | macRxFrame (m : Fin 64) (bytes : List Byte) (drained : Nat) (pcsErr : Bool) (fecCorr fecUncorr : Nat)
  /-- R159. The PAUSE timer expires and the transmitter may start its next frame. -/
  | macPauseExpire (m : Fin 64)
  /-- R157. A transmitted frame ends and the next frame is taken from the highest non-empty queue. -/
  | macTxFrameEnd (m : Fin 64)
  /-- R152. A port that is not UP, or is receiving remote fault, takes a frame from its queues and discards it whole. -/
  | macTxDiscard (m : Fin 64)
  /-- R164. The injection reader takes a closed record and places its frame, or releases it as bad. -/
  | macInjectRecord (m : Fin 64)
  /-- R151. A change of MAC_CTRL.EN takes effect at the next frame boundary of each direction. -/
  | macEnChange (m : Fin 64) (rx : Bool)
  /-- R172. A write to word 0 of a leg context commits it with the staged words, or is refused. -/
  | legContextCommit (m : Fin 9) (l : BitVec 16) (w : Word)
  /-- R187. A write of ARX_CFG or ATX_CFG is checked against the position and channel limits. -/
  | flowAudioCfgCommit (m : Fin 9) (tx : Bool) (f : Fin 4096) (w : Word)
  /-- R181. The flow engine reads a line from the dejitter buffer and fills missing data or underruns the frame. -/
  | flowLineRead (i : Fin 1024) (ts : Word) (line : Nat) (errs : Fin 3)
  /-- R182. Each 100 ms, the path skew is measured and a path is excluded or readmitted. -/
  | flowSkewWindow (audio : Bool) (f : Fin 4096)
  /-- R182. A path that delivers nothing for 100 ms raises FLOW_PATH_LOSS. -/
  | flowPathSilentTimeout (audio : Bool) (f : Fin 4096) (r : Fin 2)
  /-- R184. A paced video packet's departure time arrives and the packet is placed, or discarded as late. -/
  | flowTxPacketDue (j : Fin 1024)
  /-- R188. A received audio sample is delivered at T + DELAY, or the last sample is repeated. -/
  | flowAudioDelivery (f : Fin 4096) (ts : Word)
  /-- R188. An audio transmit packet leaves 10 µs after its last sample was taken. -/
  | flowAudioTxPacket (f : Fin 4096)
  /-- R189. The ANC records of a frame are closed in their queue at the frame's read point. -/
  | flowAncRxClose (f : Fin 1024) (ts : Word)
  /-- R190. An ANC transmit flow sends its frame's packets from P + T_line + 10 µs. -/
  | flowAncTxSend (f : Fin 1024)
  /-- R206. A narrow write is appended to the open record, or ignored at capacity with OVERRUN and TRUNC set. -/
  | queueWrite (q : BitVec 20) (off : Fin 32) (bytes : List Byte)
  /-- R207. CLOSE pads and tags the last word and closes the record. -/
  | queueClose (q : BitVec 20)
  /-- R212. MARK sets the mark at RD. -/
  | queueMark (q : BitVec 20)
  /-- R212. REWIND sets RD to the mark or to HEAD. -/
  | queueRewind (q : BitVec 20)
  /-- R212. RELEASE moves HEAD to RD and frees the cells before it. -/
  | queueRelease (q : BitVec 20)
  /-- R212. RESET frees every cell and clears the open record and the mark. -/
  | queueReset (q : BitVec 20)
  /-- R211. A wide read returns the word at RD with its tag and advances RD, or returns EMPTY. -/
  | queueRead (a : BitVec 30) (n : Fin 513) (errs : Fin 3)
  /-- R210. A write of QM_Q_CAP sets the capacity, or is refused. -/
  | queueCapWrite (q : BitVec 20) (cap : BitVec 27)
  /-- R197. A request held at the bound of 8,192 is admitted when room frees, by class and round robin. -/
  | hbmRequestAdmit (stack : Fin 4) (arrivals : List (Nat × Nat)) (fin : Nat)
  /-- R220. The scrubber reads its next word and writes back any correction. -/
  | scrubRead (errs : Fin 3) (q : Option (BitVec 20))
  /-- R245. A sequencer pushes a task at its home deque's tail once the deque and quadrant bounds allow. -/
  | taskPush (q : Fin 4)
  /-- R245. A slot issues the K0 task of a band once the input lines it needs are held. -/
  | slotBandIssue (n : Fin 256) (b : Nat) (old : Bool)
  /-- R247. An idle engine looks through the deques in the order of Table 9.5 and takes the task granted to it. -/
  | engineTakeTask (engines : List (Fin 1024)) (since0 : Nat) (since1 : Nat)
  /-- R245. A task completes, and the next kernel's task or the tile's COMPOSE is issued. -/
  | taskComplete (e : Fin 1024) (cycles : Nat) (errs : Fin 3) (k : Nat)
  /-- R249. At a band's deadline, its unfinished tasks are removed or aborted and late bands are replaced. -/
  | slotBandDeadline (n : Fin 256) (b : Nat)
  /-- R243. A slot input frame begins, so new settings take effect and the line-buffer decision is made. -/
  | slotInputFrameStart (n : Fin 256)
  /-- R251. An uncorrectable engine or cluster memory word aborts the task, or quarantines an engine or cluster. -/
  | engineMemoryError (cluster : Bool) (c : Fin 64) (gr : Fin 64) (e : Fin 1024) (errs : Fin 3)
  /-- R252. An engine not idle 1,024 cycles after an abort is quarantined and ENG_HANG is raised. -/
  | engineAbortTimeout (e : Fin 1024)
  /-- R253. The host quarantines one engine through ENG_QUAR_CMD. -/
  | engQuarantineEngine (m : Fin 9) (e : Fin 1024)
  /-- R253. The host quarantines the engines of a cluster. -/
  | engQuarantineCluster (m : Fin 9) (c : Fin 64)
  /-- R253. The host releases an engine or cluster, obeyed only in FACTORY. -/
  | engQuarantineRelease (m : Fin 9) (cluster : Bool) (i : Fin 1024)
  /-- R250. Each second, ENG_QUADq_LOAD takes the engine cycles used. -/
  | quadLoadSecond (q : Fin 4)
  /-- R235. A write of ENG_TLUT_DATA loads a shadow entry and advances INDEX. -/
  | tlutDataWrite (m : Fin 9) (w : Word)
  /-- R235. A read of ENG_TLUT_DATA returns a shadow entry and advances INDEX. -/
  | tlutDataRead (m : Fin 9)
  /-- R243. COMMIT copies a TLUT shadow set into use from the next input frame. -/
  | tlutCommit (m : Fin 9) (set : Fin 8) (index : BitVec 14)
  /-- R257. At C_k, committed settings take effect, layer frames are selected, the colour path is chosen and tasks are issued. -/
  | compCutoff (h : Fin 64)
  /-- R271. At D_k, late tiles are replaced from frame k − 1 or filled with the background. -/
  | compDeadline (h : Fin 64)
  /-- R260. COMP_L_COMMIT copies the shadow descriptor into use, or is refused. -/
  | layerDescriptorCommit (m : Fin 9) (l : Fin 1024)
  /-- R267. A write of COMP_LUT_DATA loads a shadow entry and advances INDEX. -/
  | compLutDataWrite (m : Fin 9) (w : Word)
  /-- R267. A read of COMP_LUT_DATA returns a shadow entry and advances INDEX. -/
  | compLutDataRead (m : Fin 9)
  /-- R259. COMMIT copies a head's LUT shadow into use at the next cut-off. -/
  | compLutCommit (m : Fin 9) (head : Fin 64) (table : Fin 16) (index : BitVec 14)
  /-- R294. A write of COMP_SCL_DATA loads a coefficient shadow entry and advances INDEX. -/
  | scalerCoefDataWrite (m : Fin 9) (w : Word)
  /-- R294. A read of COMP_SCL_DATA returns a shadow entry and advances INDEX. -/
  | scalerCoefDataRead (m : Fin 9)
  /-- R294. COMMIT copies a coefficient set of a bank into use. -/
  | scalerCoefCommit (m : Fin 9) (bank : BitVec 7) (set : Fin 8) (index : BitVec 10)
  /-- R299. An active FS edge ends a SAP frame, which is checked for length, and may start a waiting member. -/
  | sapFrameSync (c : Fin 32) (cycles : Nat) (din : List (Nat × List Nat))
  /-- R305. No FS edge for 250 µs puts the port in CLK_LOST. -/
  | sapClkLossTimeout (c : Fin 32)
  /-- R304. A commit of a port's mask shadow takes effect at its next FS. -/
  | sapMaskCommit (m : Fin 9) (p : Fin 32) (rx : Bool) (tx : Bool)
  /-- R304. MASK_COMMIT commits both masks of every member of a start group. -/
  | sapGroupMaskCommit (m : Fin 9) (k : Fin 16)
  /-- R306. ARM = 1 in IDLE makes the start group ARMED. -/
  | sapGroupArm (m : Fin 9) (k : Fin 16)
  /-- R306. ARM = 0 returns the start group to IDLE. -/
  | sapGroupDisarm (m : Fin 9) (k : Fin 16)
  /-- R306. START_NOW triggers an armed start group. -/
  | sapGroupStartNow (m : Fin 9) (k : Fin 16)
  /-- R306. A rising edge of AUD_START triggers armed groups with PIN_EN. -/
  | audStartEdge
  /-- R308. AT_EN written to 1 arms a timed start, and a target in the past triggers at once with LATE. -/
  | sapGroupAtEnable (m : Fin 9) (k : Fin 16) (tk : Fin 4)
  /-- R308. The selected time reaches SAP_GRP_AT and triggers the group. -/
  | sapGroupAtReached (k : Fin 16)
  /-- R311. A window of 256 external samples measures RATIO and steers the block's state. -/
  | asrcWindowEnd (b : Fin 256) (t : Nat) (phase : Int)
  /-- R311. The external clock is absent for 250 µs, so the block enters UNLOCKED. -/
  | asrcClockLossTimeout (b : Fin 256)
  /-- R311. The phase error has stayed within ±0.25 samples for 100 ms, so the block enters LOCKED. -/
  | asrcAcquireTimer (b : Fin 256)
  /-- R315. A complete 192-sample block updates CS_NA. -/
  | naCsBlock (a : Fin 25600)
  /-- R315. An ST 337 preamble sets PRE_NA. -/
  | naPreambleDetect (a : Fin 25600)
  /-- R315. After 8,192 samples without a preamble, PRE_NA clears. -/
  | naPreambleTimeout (a : Fin 25600)
  /-- R319. Sample edge E_n advances AUD_SC and computes the sample: paths, buses, tones, crossfades and take execution. -/
  | audSample
  /-- R329. The host writes a word of an audio take-ring slot. -/
  | audTakeRecordWrite (m : Fin 9) (w : Fin 8192) (v : Word)
  /-- R329. A write to AUD_TAKE_PI advances the count, or is ignored with AUD_TAKE_OVERRUN. -/
  | audTakePiWrite (m : Fin 9) (pi : BitVec 12)
  /-- R330. Validation of an audio salvo ends, and it is committed or refused. -/
  | audSalvoCommit
  /-- R329. ABANDON refuses the open tail of the audio take ring with code 0x06. -/
  | audTakeAbandon (m : Fin 9)
  /-- R335. A write of a mix bus entry takes effect from the next sample, or is refused. -/
  | mixEntryWrite (m : Fin 9) (b : Fin 2048) (i : Fin 64) (hi : Bool) (w : Word)
  /-- R337. A MODE write sets a tone generator on or off and resets its phase. -/
  | toneModeWrite (m : Fin 9) (t : Fin 256) (on : Bool)
  /-- R338. A 3 ms meter block ends and RMS and hold are updated. -/
  | meterBlockEnd (m : Fin 8192)
  /-- R341. CLR sets the hold and its timer to 0 at the next block end. -/
  | meterClear (m : Fin 9) (k : Fin 8192)
  /-- R347. A filtered REFFP pulse is judged on or off its plane's grid. -/
  | refFramePulse (x : Fin 4) (since : Nat) (ph0 : Int) (ph1 : Int)
  /-- R350. An activity window expires without an edge or pulse, so the candidate becomes inactive and may be rejected. -/
  | refActivityExpire (x : Fin 4) (fp : Bool) (p : Fin 2)
  /-- R351. A 1 s window ends, so candidate offsets are measured and candidates qualify, are rejected or disagree. -/
  | refMeasureWindowEnd (xo : Int) (f0 : Int) (f1 : Int) (y0 : List Int) (y1 : List Int)
  /-- R354. XO_HOLD has no edge for 1 µs and fails. -/
  | xoHoldActivityExpire
  /-- R356. A PLANE_LOCKOUT write changes which candidates are selectable and triggers a decision. -/
  | planeLockoutWrite (m : Fin 9) (p : Fin 2) (bits : BitVec 16)
  /-- R360. A write of PLANE_CTRL.BW changes the loop bandwidth at once without a step. -/
  | planeBwWrite (m : Fin 9) (p : Fin 2) (bw : Fin 8)
  /-- R361. At the chosen instant, a first acquisition places the switch point on the target phase. -/
  | planeJump (p : Fin 2)
  /-- R361. The phase error has stayed within ±100 ns for 1 s with residual 0, so the plane enters LOCKED. -/
  | planeLockTimer (p : Fin 2)
  /-- R362. The build-out residual reaches 0 and the switch completes. -/
  | switchResidualZero (p : Fin 2)
  /-- R366. Holdover reaches HOLD_MAX_S, so the plane enters FREE when allowed. -/
  | holdoverLimitExpire (p : Fin 2)
  /-- R373. SET_GO sets the timekeeper's time, makes it VALID, advances GEN and clears LOCKED. -/
  | tkSet (m : Fin 9) (k : Fin 2)
  /-- R373. ADJ_GO adds ADJ_NS to the timekeeper and advances GEN. -/
  | tkAdj (m : Fin 9) (k : Fin 2)
  /-- R372. A write of TIME_TK_INCR_HI applies the staged increment, or is refused. -/
  | tkIncrWrite (m : Fin 9) (k : Fin 2) (w : Word)
  /-- R376. LOCK_SET asserts or refreshes LOCKED and restarts the lock timer. -/
  | tkLockSet (m : Fin 9) (k : Fin 2)
  /-- R376. LOCK_CLR clears LOCKED. -/
  | tkLockClr (m : Fin 9) (k : Fin 2)
  /-- R376. The lock timer expires, so LOCKED clears and TK_UNLOCK is raised. -/
  | tkLockTimeout (k : Fin 2)
  /-- R381. A write of SEL or AUTO changes how the output time chooses its timekeeper. -/
  | otSelectWrite (m : Fin 9) (sel : Bool) (auto : Bool)
  /-- R382. SNAP sets the output-time residual to 0 at the next tick. -/
  | otSnap (m : Fin 9)
  /-- R384. EN = 1 commits and arms a pulse program, or a past single pulse goes to DONE with LATE. -/
  | tpoCommit (m : Fin 9) (n : Fin 8)
  /-- R385. EN = 0 turns the program off and drives the pin low. -/
  | tpoDisable (m : Fin 9) (n : Fin 8)
  /-- R384. The owning timekeeper reaches the next target and the pin rises. -/
  | tpoTargetReached (n : Fin 8)
  /-- R384. WIDTH after the rising edge, the pin falls. -/
  | tpoPulseEnd (n : Fin 8)
  /-- R386. A filtered capture edge produces a time-stamp in the FIFO, or overflows. -/
  | tciEdge (n : Fin 4) (rising : Bool)
  /-- R386. A read of TIME_TCI_TS0 removes the oldest entry and latches its words. -/
  | tciTsRead (m : Fin 9) (n : Fin 4)
  /-- R387. TIME_SNAP.GO latches TK_A, TK_B and OT from one tick. -/
  | timeSnapshot (m : Fin 9)
  /-- R392. A change of the filtered ARB_ROLE moves the device between STANDBY and ACTIVE. -/
  | arbRoleChange (high : Bool)
  /-- R390. A write of PAIR_CTRL.EN puts the pair in use or out of use. -/
  | pairEnableWrite (m : Fin 9) (en : Bool)
  /-- R394. Every 500 µs, the supervisor checks the interval and toggles ARB_BEAT or withholds it. -/
  | arbBeatInterval (quads : BitVec 4) (take : Bool) (plane0 : Bool) (plane1 : Bool) (probe : Bool)
  /-- R396. SWITCH_WIN rises or falls at its offset from the switch point. -/
  | switchWinEdge (up : Bool)
  /-- R399. Every 100 µs, a Health message is sent to the peer. -/
  | mirrorHealthSend
  /-- R399. A received Health message updates the peer's mode, role and link state and drives link transitions. -/
  | mirrorHealthMsg (ack : Nat) (peer : Fin 8) (link : Fin 8) (digest : List Word) (arb : Word)
  /-- R401. A received marker pairs switch points and updates the skews and offsets. -/
  | mirrorMarkerMsg (ack : Nat) (p : Fin 2) (fc : BitVec 48) (sc : BitVec 64) (d : Option Int) (rtt : Nat)
  /-- R403. A journalled salvo or mirrored write is written into the standby at the same counts. -/
  | mirrorJournalMsg (ack : Nat) (kind : Fin 3) (head : List Nat) (parts : List (Nat × Nat)) (recs : List Nat)
  /-- R405. A Done message reports the active's execution frame, and late execution on the standby is counted. -/
  | mirrorDoneMsg (ack : Nat) (p : Fin 2) (fc : BitVec 48) (firsts : List Nat)
  /-- R404. A standby acknowledgement marks a salvo as committed in its ring. -/
  | mirrorAckMsg (ack : Nat) (first : Nat)
  /-- R409. Received frame signatures are compared with the standby's own. -/
  | mirrorSignaturesMsg (ack : Nat) (p : Fin 2) (fc : BitVec 48) (l : List (Nat × Nat × Bool))
  /-- R402. The standby receives the state copy for application. -/
  | mirrorCopyMsg (ack : Nat) (c : StateCopy)
  /-- R398. A message not acknowledged within 20 µs is resent. -/
  | mirrorAckTimeout (n : Nat)
  /-- R399. No valid message for 1 ms takes the link to DOWN. -/
  | mirrorSilenceTimeout
  /-- R399. Every mirror lane's CDR locks and the link enters TRAIN. -/
  | mirrorLanesLocked
  /-- R399. All 8 lanes are aligned and deskewed, so the link enters IDENT. -/
  | mirrorAlignDone
  /-- R407. A host write to a mirrored register is stamped and journalled, or ignored on a standby. -/
  | mirroredWrite (m : Fin 9) (a : BitVec 26) (w : Word)
  /-- R407. At its execution sample, a mirrored write is presented to its block on both devices. -/
  | mirroredWritePresent
  /-- R410. After 10 ms on a lane, the margin scan records its eye opening and moves on. -/
  | marginScanDwell (h : Nat) (v : Nat)
  /-- R411. A standby sees no ACTIVE peer for 40 ms and sets NO_ACTIVE. -/
  | pairNoActiveTimeout
  /-- R421. A W1C write to FAULT_STAT clears status bits, except those of present conditions. -/
  | faultStatusClear (m : Fin 9) (g : Fin 48) (w : Word)
  /-- R420. A FAULT_SEV write changes a source's severity, or is refused. -/
  | faultSevWrite (m : Fin 9) (n : Fin 1536) (w : Word)
  /-- R425. The writer takes a pending record and writes it into its slot, with the commit word last. -/
  | patinaRecordWrite (upto : Fin 17)
  /-- R427. Every 1,562,500 aon cycles a token is added, and a RECORDS_DROPPED record may follow. -/
  | patinaTokenTick
  /-- R429. A GO write of PAT_HOST_EVT queues a host record, or is refused. -/
  | patinaHostRecord (m : Fin 9) (event : BitVec 16)
  /-- R431. POWER_FAIL_N observed low discards pending records and takes the final Keep boundary. -/
  | powerFail
  /-- R436. After the record in flight and POWER_FAIL are committed, the final flush is written unpaced. -/
  | keepFinalFlush
  /-- R432. POWER_FAIL_N high for 1 ms lifts the write protection and writes POWER_RESTORE. -/
  | powerRestore (us : Word)
  /-- R434. Every 10 ms, the Keep writer takes the dirty items as one flush. -/
  | keepBoundary
  /-- R438. A keyed CLEAR writes a cleared snapshot into the bank not in use. -/
  | keepClear (m : Fin 9)
  /-- R439. Every 60 s, the aon domain writes all three copies of the lifetime counters. -/
  | lifetimeCounterUpdate (adds : List (Nat × Nat))
  /-- R444. The host erases a 64 KiB flash sector, unless refused. -/
  | flashErase (m : Fin 9)
  /-- R444. The host programs the page buffer at a page address, unless refused. -/
  | flashProgram (m : Fin 9)
  /-- R444. The host reads a flash page into the buffer. -/
  | flashRead (m : Fin 9)
  /-- R444. A flash operation completes, setting DONE, or ERR with FLASH_ERR. -/
  | flashOpDone (ok : Bool)
  /-- R445. OP VERIFY starts streaming and checking a slot. -/
  | maqVerify (m : Fin 9) (slotB : Bool)
  /-- R445. The verify ends, setting VERIFIED or FAIL_CODE, and writes MAQ_VERIFIED. -/
  | maqVerifyDone (ok : Bool)
  /-- R446. OP CAST starts a cast of a slot when Table 18.2 allows it. -/
  | cast (m : Fin 9) (slotB : Bool) (force : Bool) (nocarry : Bool)
  /-- R447. The preload of a cast completes or fails. -/
  | castPreloadDone (ok : Bool)
  /-- R448. At P0, the device enters cast-form BOOT: takes are refused, Keep is flushed and carried values are captured. -/
  | castPauseStart
  /-- R448. Outputs resume at the first switch point after 75 ms, and the confirm window opens. -/
  | castResume (us : BitVec 18)
  /-- R455. OP CONFIRM closes the window and writes BOOT_PTR, ARB_COUNT and the CONFIRMED marker. -/
  | confirm (m : Fin 9)
  /-- R456. The 300 s window expires and the device falls back to the previous slot. -/
  | confirmWindowExpire
  /-- R460. The host writes a settings record, compacting the store if needed. -/
  | settingsWrite (m : Fin 9) (key : BitVec 16)
  /-- R460. The host reads the newest settings record of a KEY and FMT. -/
  | settingsRead (m : Fin 9) (key : BitVec 16)
  /-- R460. The host writes a tombstone for a KEY. -/
  | settingsDelete (m : Fin 9) (key : BitVec 16)
  /-- R460. An access to IMG_SET_DATA moves one word and advances the word pointer. -/
  | settingsDataAccess (m : Fin 9) (w : Option Word)
  /-- R469. A hot reset, link-down or FLR resets the PCIe interface and master M0. -/
  | pcieReset (flr : Bool) (burst : Option (BitVec 30 × List Byte))
  /-- R468. The function enters or leaves D3hot. -/
  | pciePowerStateChange (d3 : Bool)
  /-- R471. Unmasking a vector sends the message its PBA bit holds. -/
  | msixUnmask (v : Fin 64)
  /-- R476. A request held at a master or matrix bound is admitted when room frees. -/
  | fabricRequestAdmit (done : List (Fin 9 × Bool × Fin 30)) (arrivals : List (Fin 9 × Bool × Fin 30 × BitVec 26 × Word))
  /-- R483. 65,536 cycles after a decode error, CTL_DECODE_HANG is raised and the hang is captured. -/
  | decodeHangExpire (m : Fin 9)
  /-- R485. A keyed FABRIC_MRESET write resets M8 and releases its hung access. -/
  | fabricMasterReset (m : Fin 9) (w : Word)
  /-- R487. The I²C command MRAM_READ returns MRAM bytes from the aon domain. -/
  | i2cMramRead (params : List Byte) (n : Fin 257)
  /-- R487. The I²C command REG_READ makes M8 read a BAR0 register. -/
  | i2cRegRead (params : List Byte)
  /-- R487. The I²C command REG_RESULT returns the status and data of the last register command. -/
  | i2cRegResult (params : List Byte)
  /-- R487. The I²C command REG_WRITE makes M8 write a BAR0 register. -/
  | i2cRegWrite (params : List Byte)
  /-- R488. The I²C command STATUS returns the mode, boot status, reset cause and supply bits. -/
  | i2cStatus (code : Byte) (params : List Byte)
  /-- R487. The I²C command RESET_M8 resets master M8. -/
  | i2cResetM8 (params : List Byte)
  /-- R486. SCL held low for 25 ms makes the target release SDA and go idle. -/
  | i2cSclTimeout
  /-- R493. ARM = 1 arms a fault injection on a named checker, or is ignored. -/
  | testInjectArm (m : Fin 9) (cnt : BitVec 16) (mask : BitVec 8)
  /-- R495. DISARM = 1 ends the armed injection. -/
  | testInjectDisarm (m : Fin 9)
  /-- R496. A write to a perturbation control changes its setting and writes PERTURB_SET. -/
  | testPertWrite (m : Fin 9) (k : Fin 5) (w : Word)
  /-- R496. GO = 1 stops transmission on a MAC for STALL_US. -/
  | testMacStall (m : Fin 9) (mac : Fin 64) (us : BitVec 16)
  /-- R496. The MAC stall timer expires and transmission may resume. -/
  | testMacStallExpire (mac : Fin 64)
  /-- R498. An instruction loaded through the TAP takes the pins, or acts as BYPASS. -/
  | jtagInstruction (code : BitVec 8) (dr : List Bool)
  /-- R498. TRST_N low resets the test logic. -/
  | jtagTrst
  /-- R510. A filtered input's count completes and its new level is passed on. -/
  | glitchFilterExpire (i : Fin 15) (level : Bool)
  /-- R18. A synthesiser other than ctl and eng achieves or regains lock, so its GLOBAL_CLK_LOCK bit sets and the CLK_UNLOCK condition can end. -/
  | synthesiserLock (i : Fin 7)
  /-- R12. A direction of the die bridge completes training and starts carrying traffic, setting N2S_UP or S2N_UP. -/
  | bridgeDirectionTrained (d : Fin 2)
  /-- R350. An edge arrives on an inactive REFCLK input, making its candidate active again and triggering a selector decision. -/
  | refclkEdgeReturn (x : Fin 4)
  /-- R399. A mirror lane loses lock and the mirror link enters DOWN. -/
  | mirrorLaneLockLoss (lane : Fin 8)
  /-- R401. Every 1 ms a marker carrying TK_A and TK_B time is sent, from which the standby derives the timekeeper skew. -/
  | mirrorTimeMarker (ack : Nat) (a : BitVec 64) (b : BitVec 64) (lockA : Bool) (lockB : Bool)
  /-- R469. The PCIe link finishes training and the configuration space answers, setting FABRIC_PCIE_STAT.UP. -/
  | pcieLinkUp (speed : Fin 6) (width : Fin 5) (bar0 : BitVec 64) (bar2 : BitVec 64) (msixEn : Bool) (msixMask : Bool)
  /-- R460. A settings WRITE, READ or DELETE, with any compaction, finishes, clearing BUSY and setting RESULT. -/
  | settingsOpDone
  /-- R382. The output-time residual O slews to 0 and SLEWING clears. -/
  | otResidualZero
  deriving DecidableEq, Repr

end Sys2Proof
end

