-- ==== Sys2Proof/Decode.lean ====
section
/-! DEFINITION. The command a word spells: spec/opcode_table.json gives its rows no bits, so no word spells one. -/

namespace Sys2Proof

/-- The command that a word of the table's bits spells. -/
def decodeTableWord (_nbits _w : Nat) : Option Instr := none

end Sys2Proof
end

