-- ==== Sys2Proof/Config.lean ====
section
/-! DEFINITION. What an implementation fixes and the spec leaves open: free values, constants with no body. Each is named
in an entry of the assumption log. -/

namespace Sys2Proof.Config

/-- A free value per use: the result of a choice that the spec leaves open, numbered by `State.fresh`. -/
opaque choice : Nat → Nat

/-- What the device makes of a register value outside the range its field states (07_media_flows.md Table 7.9; 13_audio_matrix.md R337). -/
opaque outOfRange : Nat → Nat

/-- Does a Horizontal_Offset of RFC 8331 below 0xFFC place a packet in horizontal ancillary space: by the flow and the
offset. The format of an ANC flow, which decides it, is not stated (07_media_flows.md R189). -/
opaque hancOffset : Nat → Nat → Bool

/-- A byte of HBM whose content has become undefined, by occasion and place (02_modes_boot.md Table 2.7). -/
opaque lostByte : Nat → Nat → Nat

/-- Does a kernel library, by its bytes, hold a kernel: the form of the library is internal (03_admet_image.md R64). -/
opaque klibHolds : List Nat → Nat → Bool

/-- The register writes that a TABLES section stands for, by its bytes: offset in BAR0 and value. Its layout is not stated
(03_admet_image.md R65). -/
opaque tables : List Nat → List (Nat × Nat)

/-- Bytes that a settings record of so many data bytes takes in its bank: the layout is not stated (18_image_update.md R459). -/
opaque setRecBytes : Nat → Nat

/-- Cells to which Brodlia sizes a queue of a slot or a head, by the bytes of its section's entry and the queue: the spec does
not state it (09_chisel_engines.md R241, 10_composition.md R255). -/
opaque blockCap : List Nat → Nat → Nat

/-- Which of its values the jitter of a monitor window takes, by the state of the LFSR and J: the map is not stated
(20_test_perturbation.md R496). -/
opaque monJitter : Nat → Nat → Nat

end Sys2Proof.Config
end

