-- ==== Sys2Proof/Machine/Regs.lean ====
section
/-! DEFINITION. The register map: every register of BAR0 with its address, its fields, their access codes and
their reset values, as the register sections of the spec's files give them (the rule is named beside each).
`Reg` names addresses (block base of 19_host_fabric.md Table 19.2 plus the chapter's offset), `Fld` names fields,
`rows` is the table of the whole map. -/

namespace Sys2Proof.Machine

/-- Access codes of a register field, 00_scope.md R6 Table 0.5. -/
inductive Acc where
  | ro | rw | w1c | wo | rc | rws
  deriving DecidableEq, Repr

/-- One field of a register: bits [hi:lo], its access code and its reset value. -/
structure FieldRow where
  hi : Nat
  lo : Nat
  acc : Acc
  rst : Nat := 0
  deriving DecidableEq, Repr

/-- One register of the map: its address, the (stride, count) of each index it repeats over, and its fields. -/
structure RegRow where
  name : String
  base : Nat
  dims : List (Nat × Nat)
  fields : List FieldRow
  /-- the low word of a 64-bit pair whose high word lies at + 4 -/
  lo : Bool := false
  deriving Repr

/-! Block bases, 19_host_fabric.md R475 Table 19.2 (the MSI-X region last). -/
namespace Base
def globalBase : Nat := 0x00000000
def faultBase : Nat := 0x00100000
def xpBase : Nat := 0x00200000
def vlaneBase : Nat := 0x00400000
def planeBase : Nat := 0x00800000
def timeBase : Nat := 0x00A00000
def macBase : Nat := 0x00C00000
def flowBase : Nat := 0x01000000
def qmBase : Nat := 0x01400000
def engBase : Nat := 0x01800000
def compBase : Nat := 0x01C00000
def audBase : Nat := 0x02200000
def sapBase : Nat := 0x02600000
def pairBase : Nat := 0x02800000
def patinaBase : Nat := 0x02A00000
def imgBase : Nat := 0x02C00000
def fabricBase : Nat := 0x02E00000
def testBase : Nat := 0x03000000
def pinctlBase : Nat := 0x03100000
def msixBase : Nat := 0x03F00000
end Base

namespace Fld
def GLOBAL_ID_ID : FieldRow := ⟨31, 0, .ro, 0x56460400⟩
def GLOBAL_STEP_LETTER : FieldRow := ⟨7, 4, .ro, 1⟩
def GLOBAL_STEP_DIGIT : FieldRow := ⟨3, 0, .ro, 0⟩
def GLOBAL_BRIDGE_STAT_FAILED : FieldRow := ⟨2, 2, .w1c, 0⟩
def GLOBAL_BRIDGE_STAT_S2N_UP : FieldRow := ⟨1, 1, .ro, 0⟩
def GLOBAL_BRIDGE_STAT_N2S_UP : FieldRow := ⟨0, 0, .ro, 0⟩
def GLOBAL_BRIDGE_RETRY_COUNT : FieldRow := ⟨31, 0, .rc, 0⟩
def GLOBAL_CLK_LOCK_MIRROR : FieldRow := ⟨8, 8, .ro, 0⟩
def GLOBAL_CLK_LOCK_TIME : FieldRow := ⟨7, 7, .ro, 0⟩
def GLOBAL_CLK_LOCK_AUD : FieldRow := ⟨6, 6, .ro, 0⟩
def GLOBAL_CLK_LOCK_PLANE1 : FieldRow := ⟨5, 5, .ro, 0⟩
def GLOBAL_CLK_LOCK_PLANE0 : FieldRow := ⟨4, 4, .ro, 0⟩
def GLOBAL_CLK_LOCK_PCIE : FieldRow := ⟨3, 3, .ro, 0⟩
def GLOBAL_CLK_LOCK_HBM : FieldRow := ⟨2, 2, .ro, 0⟩
def GLOBAL_CLK_LOCK_ENG : FieldRow := ⟨1, 1, .ro, 0⟩
def GLOBAL_CLK_LOCK_CTL : FieldRow := ⟨0, 0, .ro, 0⟩
def GLOBAL_MODE_HEAT : FieldRow := ⟨12, 12, .ro, 0⟩
def GLOBAL_MODE_SLOT : FieldRow := ⟨9, 8, .ro, 0⟩
def GLOBAL_MODE_NOIMG : FieldRow := ⟨7, 7, .ro, 0⟩
def GLOBAL_MODE_CASTFORM : FieldRow := ⟨6, 6, .ro, 0⟩
def GLOBAL_MODE_BOOT_SRC : FieldRow := ⟨5, 4, .ro, 0⟩
def GLOBAL_MODE_MODE : FieldRow := ⟨2, 0, .ro, 1⟩
def GLOBAL_BOOT_STAT_ATTEMPTS : FieldRow := ⟨23, 16, .ro, 0⟩
def GLOBAL_BOOT_STAT_FAIL_CODE : FieldRow := ⟨15, 8, .ro, 0⟩
def GLOBAL_BOOT_STAT_HEAT_SLOW : FieldRow := ⟨5, 5, .w1c, 0⟩
def GLOBAL_BOOT_STAT_WAIT_HOST : FieldRow := ⟨4, 4, .ro, 0⟩
def GLOBAL_BOOT_STAT_STEP : FieldRow := ⟨3, 0, .ro, 1⟩
def GLOBAL_RESET_CTRL_KEY : FieldRow := ⟨31, 16, .wo, 0⟩
def GLOBAL_RESET_CTRL_SAFE : FieldRow := ⟨1, 1, .wo, 0⟩
def GLOBAL_RESET_CTRL_SOFT : FieldRow := ⟨0, 0, .wo, 0⟩
def GLOBAL_RESET_CAUSE_FALLBACK : FieldRow := ⟨5, 5, .ro, 0⟩
def GLOBAL_RESET_CAUSE_CAST : FieldRow := ⟨4, 4, .ro, 0⟩
def GLOBAL_RESET_CAUSE_SOFT : FieldRow := ⟨3, 3, .ro, 0⟩
def GLOBAL_RESET_CAUSE_SUPPLY : FieldRow := ⟨2, 2, .ro, 0⟩
def GLOBAL_RESET_CAUSE_PIN : FieldRow := ⟨1, 1, .ro, 0⟩
def GLOBAL_RESET_CAUSE_POR : FieldRow := ⟨0, 0, .ro, 0⟩
def GLOBAL_HOST_BOOT_LEN_4K : FieldRow := ⟨29, 16, .wo, 0⟩
def GLOBAL_HOST_BOOT_GO : FieldRow := ⟨0, 0, .wo, 0⟩
def GLOBAL_TJ_TJ_MIN : FieldRow := ⟨31, 16, .ro, 0⟩
def GLOBAL_TJ_TJ_MAX : FieldRow := ⟨15, 0, .ro, 0⟩
def IMG_ACT_INFO_VALID : FieldRow := ⟨31, 31, .ro, 0⟩
def IMG_ACT_INFO_SECT_COUNT : FieldRow := ⟨23, 16, .ro, 0⟩
def IMG_ACT_INFO_STEP_CODE : FieldRow := ⟨15, 8, .ro, 0⟩
def IMG_ACT_INFO_FORMAT : FieldRow := ⟨7, 2, .ro, 0⟩
def IMG_ACT_INFO_PURPOSE : FieldRow := ⟨1, 0, .ro, 0⟩
def IMG_ACT_ARB_ARB : FieldRow := ⟨31, 0, .ro, 0⟩
def IMG_ACT_BUILD_LO_V : FieldRow := ⟨31, 0, .ro, 0⟩
def IMG_ACT_BUILD_HI_V : FieldRow := ⟨31, 0, .ro, 0⟩
def IMG_ACT_DIGEST_V : FieldRow := ⟨31, 0, .ro, 0⟩
def IMG_ARM_STAT_FAIL_TYPE : FieldRow := ⟨31, 16, .ro, 0⟩
def IMG_ARM_STAT_FAIL_REASON : FieldRow := ⟨15, 8, .ro, 0⟩
def IMG_ARM_STAT_APPLIED : FieldRow := ⟨0, 0, .ro, 0⟩
def IMG_ARM_LEN_LEN : FieldRow := ⟨21, 0, .ro, 0⟩
def IMG_RB_ADDR_SEL : FieldRow := ⟨31, 24, .rw, 0⟩
def IMG_RB_ADDR_WORD : FieldRow := ⟨20, 2, .rw, 0⟩
def IMG_RB_DATA_V : FieldRow := ⟨31, 0, .ro, 0⟩
def IMG_OWN_QUERY_ID : FieldRow := ⟨31, 0, .rw, 0⟩
def IMG_OWN_RESULT_OWNER : FieldRow := ⟨31, 0, .ro, 0⟩
def IMG_REFUSE_INFO_MASTER : FieldRow := ⟨31, 28, .ro, 0⟩
def IMG_REFUSE_INFO_REASON : FieldRow := ⟨27, 26, .ro, 0⟩
def IMG_REFUSE_INFO_VALID : FieldRow := ⟨0, 0, .w1c, 0⟩
def IMG_REFUSE_RES_V : FieldRow := ⟨31, 0, .ro, 0⟩
def IMG_REFUSE_ADDR_V : FieldRow := ⟨31, 0, .ro, 0⟩
def IMG_REFUSE_COUNT_COUNT : FieldRow := ⟨31, 0, .rc, 0⟩
def XP_TAKE_CTRL_DONE_VEC : FieldRow := ⟨15, 8, .rw, 0⟩
def XP_TAKE_CTRL_DONE_MSI_EN : FieldRow := ⟨1, 1, .rw, 0⟩
def XP_TAKE_CTRL_ABANDON : FieldRow := ⟨0, 0, .wo, 0⟩
def XP_TAKE_PI_PI : FieldRow := ⟨12, 0, .rw, 0⟩
def XP_TAKE_CI_CI : FieldRow := ⟨12, 0, .ro, 0⟩
def XP_TAKE_STAT_REF_INDEX : FieldRow := ⟨28, 16, .ro, 0⟩
def XP_TAKE_STAT_REF_CODE : FieldRow := ⟨15, 8, .ro, 0⟩
def XP_TAKE_STAT_IGNORED : FieldRow := ⟨2, 2, .w1c, 0⟩
def XP_TAKE_STAT_REFUSED : FieldRow := ⟨1, 1, .w1c, 0⟩
def XP_TAKE_STAT_OVERRUN : FieldRow := ⟨0, 0, .w1c, 0⟩
def XP_TAKE_REFUSE_COUNT_COUNT : FieldRow := ⟨31, 0, .rc, 0⟩
def XP_PLANE_EXEC_FULL_LAST : FieldRow := ⟨31, 31, .ro, 0⟩
def XP_PLANE_EXEC_HELD : FieldRow := ⟨28, 16, .ro, 0⟩
def XP_PLANE_EXEC_TAKES_LAST : FieldRow := ⟨11, 0, .ro, 0⟩
def XP_PLANE_DONE_TAG_TAG : FieldRow := ⟨15, 0, .ro, 0⟩
def XP_PLANE_DONE_FC_LO_V : FieldRow := ⟨31, 0, .ro, 0⟩
def XP_PLANE_DONE_FC_HI_V : FieldRow := ⟨15, 0, .ro, 0⟩
def XP_PLANE_AT_LATE_COUNT : FieldRow := ⟨31, 0, .rc, 0⟩
def XP_TAKE_RING_W : FieldRow := ⟨31, 0, .rw, 0⟩
def XP_DEST_SRC_PEND_VALID : FieldRow := ⟨31, 31, .ro, 0⟩
def XP_DEST_SRC_PEND_BLACK : FieldRow := ⟨27, 27, .ro, 0⟩
def XP_DEST_SRC_PEND_SRC : FieldRow := ⟨26, 16, .ro, 0⟩
def XP_DEST_SRC_CUR_BLACK : FieldRow := ⟨11, 11, .ro, 1⟩
def XP_DEST_SRC_CUR_SRC : FieldRow := ⟨10, 0, .ro, 0⟩
def XP_DEST_STAT_SYNC_LOST : FieldRow := ⟨4, 4, .ro, 0⟩
def XP_DEST_STAT_SYNC_HOLD : FieldRow := ⟨3, 3, .ro, 0⟩
def XP_DEST_STAT_SYNC_ON : FieldRow := ⟨2, 2, .ro, 0⟩
def XP_DEST_STAT_OFF_RATE : FieldRow := ⟨1, 1, .ro, 0⟩
def XP_DEST_STAT_UNTIMED : FieldRow := ⟨0, 0, .ro, 0⟩
def XP_DEST_FSYNC_HOLD_MS : FieldRow := ⟨29, 16, .rw, 0⟩
def XP_DEST_FSYNC_LOSS_ACT : FieldRow := ⟨1, 1, .rw, 0⟩
def XP_DEST_FSYNC_EN : FieldRow := ⟨0, 0, .rw, 0⟩
def XP_DEST_FSYNC_STAT_DROPS : FieldRow := ⟨31, 24, .rc, 0⟩
def XP_DEST_FSYNC_STAT_REPEATS : FieldRow := ⟨23, 16, .rc, 0⟩
def XP_DEST_FSYNC_STAT_NONE : FieldRow := ⟨10, 10, .ro, 0⟩
def XP_DEST_FSYNC_STAT_INDEX : FieldRow := ⟨9, 0, .ro, 0⟩
def XP_SRC_STAT_SLIP_LANES : FieldRow := ⟨11, 8, .ro, 0⟩
def XP_SRC_STAT_GROUP_SLIP : FieldRow := ⟨4, 4, .w1c, 0⟩
def XP_SRC_STAT_OFF_RATE : FieldRow := ⟨3, 3, .ro, 0⟩
def XP_SRC_STAT_TIMED1 : FieldRow := ⟨2, 2, .ro, 0⟩
def XP_SRC_STAT_TIMED0 : FieldRow := ⟨1, 1, .ro, 0⟩
def XP_SRC_STAT_PRESENT : FieldRow := ⟨0, 0, .ro, 0⟩
def XP_SRC_PHASE_P1 : FieldRow := ⟨31, 16, .ro, 0⟩
def XP_SRC_PHASE_P0 : FieldRow := ⟨15, 0, .ro, 0⟩
def XP_TPG_CTRL_PATTERN : FieldRow := ⟨3, 0, .rw, 0⟩
def XP_TPG_COLOR_Y : FieldRow := ⟨29, 20, .rw, 0x040⟩
def XP_TPG_COLOR_CB : FieldRow := ⟨19, 10, .rw, 0x200⟩
def XP_TPG_COLOR_CR : FieldRow := ⟨9, 0, .rw, 0x200⟩
def VLANE_RX_STAT_RATE_DET : FieldRow := ⟨23, 20, .ro, 0⟩
def VLANE_RX_STAT_AUD_ASYNC : FieldRow := ⟨13, 13, .ro, 0⟩
def VLANE_RX_STAT_PID_VALID : FieldRow := ⟨12, 12, .ro, 0⟩
def VLANE_RX_STAT_LEVEL_B : FieldRow := ⟨11, 11, .ro, 0⟩
def VLANE_RX_STAT_NOPROC : FieldRow := ⟨10, 10, .ro, 0⟩
def VLANE_RX_STAT_STRUCT_MISMATCH : FieldRow := ⟨9, 9, .ro, 0⟩
def VLANE_RX_STAT_RATE_MISMATCH : FieldRow := ⟨8, 8, .ro, 0⟩
def VLANE_RX_STAT_STATE : FieldRow := ⟨2, 0, .ro, 0⟩
def VLANE_RX_PID_PID : FieldRow := ⟨31, 0, .ro, 0⟩
def VLANE_RX_CRC_LINES_COUNT : FieldRow := ⟨31, 0, .rc, 0⟩
def VLANE_RX_CRC_FRAMES_COUNT : FieldRow := ⟨31, 0, .rc, 0⟩
def VLANE_RX_LOCK_LOSS_COUNT : FieldRow := ⟨31, 0, .rc, 0⟩
def VLANE_RX_AUD_ERR_COUNT : FieldRow := ⟨31, 0, .rc, 0⟩
def VLANE_ANC_CAP_DROP_COUNT : FieldRow := ⟨31, 0, .rc, 0⟩
def VLANE_ANC_CAP_FILT_EN : FieldRow := ⟨31, 31, .rw, 0⟩
def VLANE_ANC_CAP_FILT_MODE : FieldRow := ⟨30, 30, .rw, 0⟩
def VLANE_ANC_CAP_FILT_ALL : FieldRow := ⟨29, 29, .rw, 0⟩
def VLANE_ANC_CAP_FILT_SDID_MASK : FieldRow := ⟨23, 16, .rw, 0xFF⟩
def VLANE_ANC_CAP_FILT_SDID : FieldRow := ⟨15, 8, .rw, 0⟩
def VLANE_ANC_CAP_FILT_DID : FieldRow := ⟨7, 0, .rw, 0⟩
def VLANE_ANC_CAP_Q_Q : FieldRow := ⟨19, 0, .rw, 0⟩
def VLANE_TX_CTRL_AMP : FieldRow := ⟨13, 12, .rw, 2⟩
def VLANE_TX_CTRL_PREEMPH : FieldRow := ⟨11, 10, .rw, 0⟩
def VLANE_TX_CTRL_PID_MODE : FieldRow := ⟨9, 8, .rw, 0⟩
def VLANE_TX_CTRL_EMB : FieldRow := ⟨7, 4, .rw, 0⟩
def VLANE_TX_CTRL_EN : FieldRow := ⟨0, 0, .rw, 1⟩
def VLANE_TX_PID_PID : FieldRow := ⟨31, 0, .rw, 0⟩
def VLANE_TX_STAT_IDLE : FieldRow := ⟨0, 0, .ro, 1⟩
def VLANE_ANC_INS_NOROOM_COUNT : FieldRow := ⟨31, 0, .rc, 0⟩
def VLANE_ANC_INS_BADREC_COUNT : FieldRow := ⟨31, 0, .rc, 0⟩
def VLANE_ANC_INS_CTRL_EN : FieldRow := ⟨31, 31, .rw, 0⟩
def VLANE_ANC_INS_CTRL_REPEAT : FieldRow := ⟨30, 30, .rw, 0⟩
def VLANE_ANC_INS_Q_Q : FieldRow := ⟨19, 0, .rw, 0⟩
def VLANE_DP_CTRL_RETRAIN : FieldRow := ⟨1, 1, .wo, 0⟩
def VLANE_DP_CTRL_EN : FieldRow := ⟨0, 0, .rw, 1⟩
def VLANE_DP_STAT_BPC : FieldRow := ⟨19, 16, .ro, 0⟩
def VLANE_DP_STAT_RATE : FieldRow := ⟨15, 8, .ro, 0⟩
def VLANE_DP_STAT_HPD : FieldRow := ⟨7, 7, .ro, 0⟩
def VLANE_DP_STAT_NOVIDEO : FieldRow := ⟨6, 6, .ro, 0⟩
def VLANE_DP_STAT_FAIL_REASON : FieldRow := ⟨5, 3, .ro, 0⟩
def VLANE_DP_STAT_STATE : FieldRow := ⟨2, 0, .ro, 0⟩
def VLANE_DP_AUX_CMD_GO : FieldRow := ⟨31, 31, .wo, 0⟩
def VLANE_DP_AUX_CMD_OP : FieldRow := ⟨29, 28, .wo, 0⟩
def VLANE_DP_AUX_CMD_LEN1 : FieldRow := ⟨27, 24, .wo, 0⟩
def VLANE_DP_AUX_CMD_ADDR : FieldRow := ⟨19, 0, .wo, 0⟩
def VLANE_DP_AUX_STAT_REPLY : FieldRow := ⟨3, 2, .ro, 0⟩
def VLANE_DP_AUX_STAT_DONE : FieldRow := ⟨1, 1, .w1c, 0⟩
def VLANE_DP_AUX_STAT_BUSY : FieldRow := ⟨0, 0, .ro, 0⟩
def VLANE_DP_AUX_DATA_D : FieldRow := ⟨31, 0, .rw, 0⟩
def VLANE_DP_RETRAINS_COUNT : FieldRow := ⟨31, 0, .rc, 0⟩
def MAC_CTRL_PROMISC : FieldRow := ⟨2, 2, .rw, 0⟩
def MAC_CTRL_PAUSE_EN : FieldRow := ⟨1, 1, .rw, 0⟩
def MAC_CTRL_EN : FieldRow := ⟨0, 0, .rw, 1⟩
def MAC_STAT_SPEED : FieldRow := ⟨11, 8, .ro, 0⟩
def MAC_STAT_PAUSED : FieldRow := ⟨6, 6, .ro, 0⟩
def MAC_STAT_RF : FieldRow := ⟨5, 5, .ro, 0⟩
def MAC_STAT_LF : FieldRow := ⟨4, 4, .ro, 0⟩
def MAC_STAT_STATE : FieldRow := ⟨2, 0, .ro, 0⟩
def MAC_ADDR_LO_V : FieldRow := ⟨31, 0, .rw, 0⟩
def MAC_ADDR_HI_V : FieldRow := ⟨15, 0, .rw, 0⟩
def MAC_TXQ_MAP_HOST : FieldRow := ⟨18, 16, .rw, 0⟩
def MAC_TXQ_MAP_ANC : FieldRow := ⟨14, 12, .rw, 4⟩
def MAC_TXQ_MAP_VIDEO : FieldRow := ⟨10, 8, .rw, 5⟩
def MAC_TXQ_MAP_AUDIO : FieldRow := ⟨6, 4, .rw, 6⟩
def MAC_TXQ_MAP_PTP : FieldRow := ⟨2, 0, .rw, 7⟩
def MAC_EXC_Q_PTP_EN : FieldRow := ⟨31, 31, .rw, 0⟩
def MAC_EXC_Q_PTP_Q : FieldRow := ⟨19, 0, .rw, 0⟩
def MAC_EXC_Q_GEN_EN : FieldRow := ⟨31, 31, .rw, 0⟩
def MAC_EXC_Q_GEN_Q : FieldRow := ⟨19, 0, .rw, 0⟩
def MAC_INJ_Q_EN : FieldRow := ⟨31, 31, .rw, 0⟩
def MAC_INJ_Q_Q : FieldRow := ⟨19, 0, .rw, 0⟩
def MAC_TSC_Q_EN : FieldRow := ⟨31, 31, .rw, 0⟩
def MAC_TSC_Q_Q : FieldRow := ⟨19, 0, .rw, 0⟩
def MAC_TS_RX_ADJ_ADJ : FieldRow := ⟨15, 0, .rw, 0⟩
def MAC_TS_TX_ADJ_ADJ : FieldRow := ⟨15, 0, .rw, 0⟩
def MAC_PAUSE_STAT_PAUSED : FieldRow := ⟨16, 16, .ro, 0⟩
def MAC_PAUSE_STAT_REMAIN : FieldRow := ⟨15, 0, .ro, 0⟩
def MAC_LANE_TXEQ_AMP : FieldRow := ⟨17, 16, .rw, 1⟩
def MAC_LANE_TXEQ_POST : FieldRow := ⟨11, 8, .rw, 0⟩
def MAC_LANE_TXEQ_PRE : FieldRow := ⟨3, 0, .rw, 0⟩
def MAC_RX_FRAMES_LO_V : FieldRow := ⟨31, 0, .ro, 0⟩
def MAC_RX_FRAMES_HI_V : FieldRow := ⟨31, 0, .ro, 0⟩
def MAC_RX_BYTES_LO_V : FieldRow := ⟨31, 0, .ro, 0⟩
def MAC_RX_BYTES_HI_V : FieldRow := ⟨31, 0, .ro, 0⟩
def MAC_TX_FRAMES_LO_V : FieldRow := ⟨31, 0, .ro, 0⟩
def MAC_TX_FRAMES_HI_V : FieldRow := ⟨31, 0, .ro, 0⟩
def MAC_TX_BYTES_LO_V : FieldRow := ⟨31, 0, .ro, 0⟩
def MAC_TX_BYTES_HI_V : FieldRow := ⟨31, 0, .ro, 0⟩
def MAC_RX_FCS_ERR_COUNT : FieldRow := ⟨31, 0, .rc, 0⟩
def MAC_RX_OVERFLOW_COUNT : FieldRow := ⟨31, 0, .rc, 0⟩
def MAC_RX_RUNT_COUNT : FieldRow := ⟨31, 0, .rc, 0⟩
def MAC_RX_OVERSIZE_COUNT : FieldRow := ⟨31, 0, .rc, 0⟩
def MAC_RX_DA_DROP_COUNT : FieldRow := ⟨31, 0, .rc, 0⟩
def MAC_RX_EXC_DROP_COUNT : FieldRow := ⟨31, 0, .rc, 0⟩
def MAC_RX_PAUSE_COUNT : FieldRow := ⟨31, 0, .rc, 0⟩
def MAC_RX_CTRL_OTHER_COUNT : FieldRow := ⟨31, 0, .rc, 0⟩
def MAC_TX_DISCARD_COUNT : FieldRow := ⟨31, 0, .rc, 0⟩
def MAC_FEC_CORR_COUNT : FieldRow := ⟨31, 0, .rc, 0⟩
def MAC_FEC_UNCORR_COUNT : FieldRow := ⟨31, 0, .rc, 0⟩
def MAC_LINK_DOWN_COUNT : FieldRow := ⟨31, 0, .rc, 0⟩
def MAC_INJ_BAD_COUNT : FieldRow := ⟨31, 0, .rc, 0⟩
def MAC_TS_DROP_COUNT : FieldRow := ⟨31, 0, .rc, 0⟩
def FLOW_VRX_CFG_MERGE : FieldRow := ⟨6, 6, .rw, 0⟩
def FLOW_VRX_CFG_TK : FieldRow := ⟨5, 4, .rw, 0⟩
def FLOW_VRX_CFG_SAMPLING : FieldRow := ⟨3, 2, .rw, 0⟩
def FLOW_VRX_CFG_TRANSPORT : FieldRow := ⟨1, 0, .rw, 0⟩
def FLOW_VRX_DELAY_DELAY_NS : FieldRow := ⟨31, 0, .rw, 0⟩
def FLOW_VRX_STAT_P1_EXCL : FieldRow := ⟨3, 3, .ro, 0⟩
def FLOW_VRX_STAT_P0_EXCL : FieldRow := ⟨2, 2, .ro, 0⟩
def FLOW_VRX_STAT_UNDERRUN : FieldRow := ⟨1, 1, .ro, 0⟩
def FLOW_VRX_STAT_PRESENT : FieldRow := ⟨0, 0, .ro, 0⟩
def FLOW_VRX_UNDERRUN_COUNT : FieldRow := ⟨31, 0, .rc, 0⟩
def FLOW_VRX_LOST_COUNT : FieldRow := ⟨31, 0, .rc, 0⟩
def FLOW_VRX_SKEW_SKEW : FieldRow := ⟨31, 0, .ro, 0⟩
def FLOW_VTX_CFG_PGROUPS : FieldRow := ⟨26, 16, .rw, 240⟩
def FLOW_VTX_CFG_TRO : FieldRow := ⟨13, 8, .rw, 0⟩
def FLOW_VTX_CFG_TK : FieldRow := ⟨5, 4, .rw, 0⟩
def FLOW_VTX_CFG_SAMPLING : FieldRow := ⟨3, 2, .rw, 0⟩
def FLOW_VTX_CFG_TRANSPORT : FieldRow := ⟨1, 0, .rw, 0⟩
def FLOW_VTX_SSRC_V : FieldRow := ⟨31, 0, .rw, 0⟩
def FLOW_VTX_LATE_DROP_COUNT : FieldRow := ⟨31, 0, .rc, 0⟩
def FLOW_ARX_CFG_TK : FieldRow := ⟨31, 30, .rw, 0⟩
def FLOW_ARX_CFG_POS_BASE : FieldRow := ⟨29, 16, .rw, 0⟩
def FLOW_ARX_CFG_CHANNELS : FieldRow := ⟨14, 8, .rw, 2⟩
def FLOW_ARX_CFG_MERGE : FieldRow := ⟨3, 3, .rw, 0⟩
def FLOW_ARX_CFG_PTIME : FieldRow := ⟨2, 2, .rw, 0⟩
def FLOW_ARX_CFG_FORMAT : FieldRow := ⟨1, 0, .rw, 0⟩
def FLOW_ARX_DELAY_DELAY_NS : FieldRow := ⟨31, 0, .rw, 0⟩
def FLOW_ARX_UNDERRUN_COUNT : FieldRow := ⟨31, 0, .rc, 0⟩
def FLOW_ATX_CFG_TK : FieldRow := ⟨31, 30, .rw, 0⟩
def FLOW_ATX_CFG_POS_BASE : FieldRow := ⟨29, 16, .rw, 0⟩
def FLOW_ATX_CFG_CHANNELS : FieldRow := ⟨14, 8, .rw, 2⟩
def FLOW_ATX_CFG_MERGE : FieldRow := ⟨3, 3, .rw, 0⟩
def FLOW_ATX_CFG_PTIME : FieldRow := ⟨2, 2, .rw, 0⟩
def FLOW_ATX_CFG_FORMAT : FieldRow := ⟨1, 0, .rw, 0⟩
def FLOW_ATX_SSRC_V : FieldRow := ⟨31, 0, .rw, 0⟩
def FLOW_ATX_LATE_DROP_COUNT : FieldRow := ⟨31, 0, .rc, 0⟩
def FLOW_NRX_CFG_TK : FieldRow := ⟨21, 20, .rw, 0⟩
def FLOW_NRX_CFG_Q : FieldRow := ⟨19, 0, .rw, 0⟩
def FLOW_NRX_DELAY_DELAY_NS : FieldRow := ⟨31, 0, .rw, 0⟩
def FLOW_NRX_DROP_COUNT : FieldRow := ⟨31, 0, .rc, 0⟩
def FLOW_NTX_CFG_REPEAT : FieldRow := ⟨30, 30, .rw, 0⟩
def FLOW_NTX_CFG_TK : FieldRow := ⟨21, 20, .rw, 0⟩
def FLOW_NTX_CFG_Q : FieldRow := ⟨19, 0, .rw, 0⟩
def FLOW_NTX_SSRC_V : FieldRow := ⟨31, 0, .rw, 0⟩
def FLOW_NTX_LATE_DROP_COUNT : FieldRow := ⟨31, 0, .rc, 0⟩
def FLOW_GRP_DELAY_DELAY_NS : FieldRow := ⟨31, 0, .rw, 0⟩
def FLOW_GRP_STAT_SLIP : FieldRow := ⟨0, 0, .w1c, 0⟩
def FLOW_GRP_SLIP_ID_KIND : FieldRow := ⟨18, 16, .ro, 0⟩
def FLOW_GRP_SLIP_ID_FLOW : FieldRow := ⟨11, 0, .ro, 0⟩
def FLOW_LEG_CTX_W : FieldRow := ⟨31, 0, .rw, 0⟩
def FLOW_LEG_PKTS_COUNT : FieldRow := ⟨31, 0, .rc, 0⟩
def FLOW_LEG_GAP_COUNT : FieldRow := ⟨31, 0, .rc, 0⟩
def FLOW_LEG_LATE_COUNT : FieldRow := ⟨31, 0, .rc, 0⟩
def FLOW_LEG_BAD_COUNT : FieldRow := ⟨31, 0, .rc, 0⟩
def QM_HBM_STAT_UP : FieldRow := ⟨3, 0, .ro, 0⟩
def QM_HBM_OUTST_N : FieldRow := ⟨13, 0, .ro, 0⟩
def QM_HBM_HELD_COUNT : FieldRow := ⟨31, 0, .rc, 0⟩
def QM_ECC_CORR_COUNT : FieldRow := ⟨31, 0, .rc, 0⟩
def QM_ECC_UNCORR_COUNT : FieldRow := ⟨31, 0, .rc, 0⟩
def QM_ECC_LAST_LO_V : FieldRow := ⟨31, 0, .ro, 0⟩
def QM_ECC_LAST_HI_SRAM : FieldRow := ⟨8, 8, .ro, 0⟩
def QM_ECC_LAST_HI_STACK : FieldRow := ⟨5, 4, .ro, 0⟩
def QM_ECC_LAST_HI_OFF : FieldRow := ⟨2, 0, .ro, 0⟩
def QM_DCACHE_MISS_COUNT : FieldRow := ⟨31, 0, .rc, 0⟩
def QM_SCRUB_CTRL_PASSES : FieldRow := ⟨31, 24, .ro, 0⟩
def QM_SCRUB_CTRL_PERIOD_H : FieldRow := ⟨15, 8, .rw, 24⟩
def QM_SCRUB_CTRL_EN : FieldRow := ⟨0, 0, .rw, 1⟩
def QM_SURF_WIN_BASE : FieldRow := ⟨7, 0, .rw, 0⟩
def QM_HOST_BADACC_COUNT : FieldRow := ⟨31, 0, .rc, 0⟩
def QM_GRP_CORR_COUNT : FieldRow := ⟨31, 0, .rc, 0⟩
def ENG_STAT_CLUSTERS : FieldRow := ⟨22, 16, .ro, 0⟩
def ENG_STAT_ENGINES : FieldRow := ⟨10, 0, .ro, 0⟩
def ENG_QUAR_CMD_KEY : FieldRow := ⟨31, 16, .wo, 0⟩
def ENG_QUAR_CMD_OP : FieldRow := ⟨15, 14, .wo, 0⟩
def ENG_QUAR_CMD_CLU : FieldRow := ⟨13, 13, .wo, 0⟩
def ENG_QUAR_CMD_INDEX : FieldRow := ⟨9, 0, .wo, 0⟩
def ENG_QUAD_INFLIGHT_N : FieldRow := ⟨12, 0, .ro, 0⟩
def ENG_QUAD_HELD_COUNT : FieldRow := ⟨31, 0, .rc, 0⟩
def ENG_QUAD_LOAD_MCYC : FieldRow := ⟨19, 0, .ro, 0⟩
def ENG_QUAD_LATE_COUNT : FieldRow := ⟨31, 0, .rc, 0⟩
def ENG_QUAR_MAP_MAP : FieldRow := ⟨31, 0, .ro, 0⟩
def ENG_CLU_STAT_KLIB_BAD : FieldRow := ⟨17, 17, .ro, 0⟩
def ENG_CLU_STAT_QUAR : FieldRow := ⟨16, 16, .ro, 0⟩
def ENG_CLU_STAT_DEQUE : FieldRow := ⟨8, 0, .ro, 0⟩
def ENG_CLU_STEAL_IN_COUNT : FieldRow := ⟨31, 0, .rc, 0⟩
def ENG_CLU_STEAL_XQ_COUNT : FieldRow := ⟨31, 0, .rc, 0⟩
def ENG_CLU_MEM_CORR_COUNT : FieldRow := ⟨31, 0, .rc, 0⟩
def ENG_E_STAT_KERNEL : FieldRow := ⟨15, 8, .ro, 0⟩
def ENG_E_STAT_CAUSE : FieldRow := ⟨5, 4, .ro, 0⟩
def ENG_E_STAT_UNCORR : FieldRow := ⟨3, 2, .ro, 0⟩
def ENG_E_STAT_STATE : FieldRow := ⟨1, 0, .ro, 0⟩
def ENG_E_TASKS_COUNT : FieldRow := ⟨31, 0, .rc, 0⟩
def ENG_E_CORR_COUNT : FieldRow := ⟨31, 0, .rc, 0⟩
def ENG_SLOT_CTRL_YC_MATRIX : FieldRow := ⟨7, 7, .rw, 0⟩
def ENG_SLOT_CTRL_OUT_RGB : FieldRow := ⟨6, 6, .rw, 0⟩
def ENG_SLOT_CTRL_OUT_444 : FieldRow := ⟨5, 5, .rw, 0⟩
def ENG_SLOT_CTRL_DEINT_FIELD : FieldRow := ⟨4, 4, .rw, 0⟩
def ENG_SLOT_CTRL_TLUT_SET : FieldRow := ⟨2, 0, .rw, 0⟩
def ENG_SLOT_STAT_LATE_LAST : FieldRow := ⟨1, 1, .ro, 0⟩
def ENG_SLOT_STAT_ACTIVE : FieldRow := ⟨0, 0, .ro, 0⟩
def ENG_SLOT_LATE_COUNT : FieldRow := ⟨31, 0, .rc, 0⟩
def ENG_SLOT_CM_C_C : FieldRow := ⟨15, 0, .rw, 0⟩
def ENG_SLOT_CM_OFFIN_O2 : FieldRow := ⟨29, 20, .rw, 0⟩
def ENG_SLOT_CM_OFFIN_O1 : FieldRow := ⟨19, 10, .rw, 0⟩
def ENG_SLOT_CM_OFFIN_O0 : FieldRow := ⟨9, 0, .rw, 0⟩
def ENG_SLOT_CM_OFFOUT_O2 : FieldRow := ⟨29, 20, .rw, 0⟩
def ENG_SLOT_CM_OFFOUT_O1 : FieldRow := ⟨19, 10, .rw, 0⟩
def ENG_SLOT_CM_OFFOUT_O0 : FieldRow := ⟨9, 0, .rw, 0⟩
def ENG_TLUT_CTRL_COMMIT : FieldRow := ⟨31, 31, .wo, 0⟩
def ENG_TLUT_CTRL_SET : FieldRow := ⟨16, 14, .rw, 0⟩
def ENG_TLUT_CTRL_INDEX : FieldRow := ⟨13, 0, .rw, 0⟩
def ENG_TLUT_DATA_D : FieldRow := ⟨15, 0, .rw, 0⟩
def COMP_H_CTRL_BG_A : FieldRow := ⟨31, 22, .rw, 1023⟩
def COMP_H_CTRL_BG_LUT : FieldRow := ⟨6, 4, .rw, 0⟩
def COMP_H_CTRL_FORCE_LIN : FieldRow := ⟨1, 1, .rw, 0⟩
def COMP_H_CTRL_DROT : FieldRow := ⟨0, 0, .rw, 0⟩
def COMP_H_BG_C0 : FieldRow := ⟨29, 20, .rw, 0x040⟩
def COMP_H_BG_C1 : FieldRow := ⟨19, 10, .rw, 0x200⟩
def COMP_H_BG_C2 : FieldRow := ⟨9, 0, .rw, 0x200⟩
def COMP_H_STAT_LATE_TILES : FieldRow := ⟨27, 16, .ro, 0⟩
def COMP_H_STAT_LIN_LAST : FieldRow := ⟨0, 0, .ro, 0⟩
def COMP_H_TILE_LATE_COUNT : FieldRow := ⟨31, 0, .rc, 0⟩
def COMP_H_CUT_FC_LO_V : FieldRow := ⟨31, 0, .ro, 0⟩
def COMP_H_CUT_FC_HI_V : FieldRow := ⟨15, 0, .ro, 0⟩
def COMP_LUT_CTRL_COMMIT : FieldRow := ⟨31, 31, .wo, 0⟩
def COMP_LUT_CTRL_HEAD : FieldRow := ⟨29, 24, .rw, 0⟩
def COMP_LUT_CTRL_TABLE : FieldRow := ⟨19, 16, .rw, 0⟩
def COMP_LUT_CTRL_INDEX : FieldRow := ⟨13, 0, .rw, 0⟩
def COMP_LUT_DATA_D : FieldRow := ⟨15, 0, .rw, 0⟩
def COMP_L_W0_G_ALPHA : FieldRow := ⟨31, 22, .rw, 1023⟩
def COMP_L_W0_Z : FieldRow := ⟨21, 16, .rw, 0⟩
def COMP_L_W0_LOW : FieldRow := ⟨15, 0, .rw, 0⟩
def COMP_L_W_W : FieldRow := ⟨31, 0, .rw, 0⟩
def COMP_L_COMMIT_COMMIT : FieldRow := ⟨0, 0, .wo, 0⟩
def COMP_L_STAT_SURF_ERR : FieldRow := ⟨4, 4, .w1c, 0⟩
def COMP_L_STAT_SCALED : FieldRow := ⟨3, 3, .ro, 0⟩
def COMP_L_STAT_NOFRAME : FieldRow := ⟨2, 2, .ro, 0⟩
def COMP_L_STAT_LATE_LAST : FieldRow := ⟨1, 1, .ro, 0⟩
def COMP_L_STAT_PEND : FieldRow := ⟨0, 0, .ro, 0⟩
def COMP_L_LATE_COUNT : FieldRow := ⟨31, 0, .rc, 0⟩
def COMP_L_SURF_ERR_COUNT : FieldRow := ⟨31, 0, .rc, 0⟩
def COMP_SCL_CTRL_COMMIT : FieldRow := ⟨31, 31, .wo, 0⟩
def COMP_SCL_CTRL_BANK : FieldRow := ⟨30, 24, .rw, 0⟩
def COMP_SCL_CTRL_SET : FieldRow := ⟨18, 16, .rw, 0⟩
def COMP_SCL_CTRL_INDEX : FieldRow := ⟨9, 0, .rw, 0⟩
def COMP_SCL_DATA_D : FieldRow := ⟨10, 0, .rw, 0⟩
def COMP_SCL_L_CTRL_FIELD : FieldRow := ⟨0, 0, .rw, 0⟩
def COMP_SCL_L_STAT_NEED : FieldRow := ⟨25, 16, .ro, 0⟩
def COMP_SCL_L_STAT_HELD : FieldRow := ⟨15, 6, .ro, 0⟩
def COMP_SCL_L_STAT_RANGE : FieldRow := ⟨3, 3, .ro, 0⟩
def COMP_SCL_L_STAT_BLANK : FieldRow := ⟨2, 2, .ro, 0⟩
def COMP_SCL_L_STAT_FALLBACK : FieldRow := ⟨1, 1, .ro, 0⟩
def COMP_SCL_L_STAT_LB : FieldRow := ⟨0, 0, .ro, 0⟩
def COMP_SCL_L_SHORT_COUNT : FieldRow := ⟨31, 0, .rc, 0⟩
def COMP_SCL_S_CTRL_MODE : FieldRow := ⟨7, 7, .rw, 0⟩
def COMP_SCL_S_CTRL_COEF_SET : FieldRow := ⟨2, 0, .rw, 0⟩
def COMP_SCL_S_STAT_NEED : FieldRow := ⟨25, 16, .ro, 0⟩
def COMP_SCL_S_STAT_HELD : FieldRow := ⟨15, 6, .ro, 0⟩
def COMP_SCL_S_STAT_RANGE : FieldRow := ⟨3, 3, .ro, 0⟩
def COMP_SCL_S_STAT_BLANK : FieldRow := ⟨2, 2, .ro, 0⟩
def COMP_SCL_S_STAT_FALLBACK : FieldRow := ⟨1, 1, .ro, 0⟩
def COMP_SCL_S_STAT_LB : FieldRow := ⟨0, 0, .ro, 0⟩
def COMP_SCL_S_SHORT_COUNT : FieldRow := ⟨31, 0, .rc, 0⟩
def SAP_CTRL_EN : FieldRow := ⟨0, 0, .rw, 1⟩
def SAP_STAT_REALIGN : FieldRow := ⟨3, 3, .ro, 0⟩
def SAP_STAT_STATE : FieldRow := ⟨2, 0, .ro, 0⟩
def SAP_RX_MASK_SH_M : FieldRow := ⟨31, 0, .rw, 0⟩
def SAP_TX_MASK_SH_M : FieldRow := ⟨31, 0, .rw, 0⟩
def SAP_RX_MASK_M : FieldRow := ⟨31, 0, .ro, 0⟩
def SAP_TX_MASK_M : FieldRow := ⟨31, 0, .ro, 0⟩
def SAP_MASK_COMMIT_TX : FieldRow := ⟨1, 1, .wo, 0⟩
def SAP_MASK_COMMIT_RX : FieldRow := ⟨0, 0, .wo, 0⟩
def SAP_FRAME_LEN_LEN : FieldRow := ⟨15, 0, .ro, 0⟩
def SAP_START_SC_LO_V : FieldRow := ⟨31, 0, .ro, 0⟩
def SAP_START_SC_HI_V : FieldRow := ⟨31, 0, .ro, 0⟩
def SAP_RX_UNDERRUN_COUNT : FieldRow := ⟨31, 0, .rc, 0⟩
def SAP_RX_OVERRUN_COUNT : FieldRow := ⟨31, 0, .rc, 0⟩
def SAP_TX_UNDERRUN_COUNT : FieldRow := ⟨31, 0, .rc, 0⟩
def SAP_TX_OVERRUN_COUNT : FieldRow := ⟨31, 0, .rc, 0⟩
def SAP_FRAME_ERR_COUNT : FieldRow := ⟨31, 0, .rc, 0⟩
def SAP_CLK_LOSS_COUNT : FieldRow := ⟨31, 0, .rc, 0⟩
def SAP_GRP_CTRL_TK : FieldRow := ⟨5, 4, .rw, 0⟩
def SAP_GRP_CTRL_MASK_COMMIT : FieldRow := ⟨3, 3, .wo, 0⟩
def SAP_GRP_CTRL_AT_EN : FieldRow := ⟨2, 2, .rw, 0⟩
def SAP_GRP_CTRL_START_NOW : FieldRow := ⟨1, 1, .wo, 0⟩
def SAP_GRP_CTRL_ARM : FieldRow := ⟨0, 0, .rw, 0⟩
def SAP_GRP_STAT_SLIP_PORT : FieldRow := ⟨12, 8, .ro, 0⟩
def SAP_GRP_STAT_STATE : FieldRow := ⟨3, 2, .ro, 0⟩
def SAP_GRP_STAT_LATE : FieldRow := ⟨1, 1, .w1c, 0⟩
def SAP_GRP_STAT_SLIP : FieldRow := ⟨0, 0, .w1c, 0⟩
def SAP_GRP_AT_LO_V : FieldRow := ⟨31, 0, .rw, 0⟩
def SAP_GRP_AT_HI_V : FieldRow := ⟨31, 0, .rw, 0⟩
def SAP_GRP_START_SC_LO_V : FieldRow := ⟨31, 0, .ro, 0⟩
def SAP_GRP_START_SC_HI_V : FieldRow := ⟨31, 0, .ro, 0⟩
def ASRC_STAT_FILL : FieldRow := ⟨10, 8, .ro, 0⟩
def ASRC_STAT_STATE : FieldRow := ⟨1, 0, .ro, 0⟩
def ASRC_RATIO_RATIO : FieldRow := ⟨31, 0, .ro, 0⟩
def ASRC_UNLOCKS_COUNT : FieldRow := ⟨31, 0, .rc, 0⟩
def SAP_NA_CH_ALIGN : FieldRow := ⟨13, 12, .ro, 0⟩
def SAP_NA_CH_PRE_NA : FieldRow := ⟨10, 10, .ro, 0⟩
def SAP_NA_CH_CS_NA : FieldRow := ⟨9, 9, .ro, 0⟩
def SAP_NA_CH_NA : FieldRow := ⟨8, 8, .ro, 0⟩
def SAP_NA_CH_MODE : FieldRow := ⟨1, 0, .rw, 0⟩
def AUD_TAKE_CTRL_DONE_VEC : FieldRow := ⟨15, 8, .rw, 0⟩
def AUD_TAKE_CTRL_DONE_MSI_EN : FieldRow := ⟨1, 1, .rw, 0⟩
def AUD_TAKE_CTRL_ABANDON : FieldRow := ⟨0, 0, .wo, 0⟩
def AUD_TAKE_PI_PI : FieldRow := ⟨11, 0, .rw, 0⟩
def AUD_TAKE_CI_CI : FieldRow := ⟨11, 0, .ro, 0⟩
def AUD_TAKE_STAT_REF_INDEX : FieldRow := ⟨27, 16, .ro, 0⟩
def AUD_TAKE_STAT_REF_CODE : FieldRow := ⟨15, 8, .ro, 0⟩
def AUD_TAKE_STAT_IGNORED : FieldRow := ⟨2, 2, .w1c, 0⟩
def AUD_TAKE_STAT_REFUSED : FieldRow := ⟨1, 1, .w1c, 0⟩
def AUD_TAKE_STAT_OVERRUN : FieldRow := ⟨0, 0, .w1c, 0⟩
def AUD_TAKE_REFUSE_COUNT_COUNT : FieldRow := ⟨31, 0, .rc, 0⟩
def AUD_DONE_TAG_TAG : FieldRow := ⟨15, 0, .ro, 0⟩
def AUD_DONE_SC_LO_V : FieldRow := ⟨31, 0, .ro, 0⟩
def AUD_DONE_SC_HI_V : FieldRow := ⟨31, 0, .ro, 0⟩
def AUD_XF_ACTIVE_N : FieldRow := ⟨12, 0, .ro, 0⟩
def AUD_AT_LATE_COUNT : FieldRow := ⟨31, 0, .rc, 0⟩
def AUD_SC_LO_V : FieldRow := ⟨31, 0, .ro, 0⟩
def AUD_SC_HI_V : FieldRow := ⟨31, 0, .ro, 0⟩
def AUD_CS_V : FieldRow := ⟨31, 0, .rw, 0⟩
def AUD_DEEMB_SLIP_COUNT : FieldRow := ⟨31, 0, .rc, 0⟩
def AUD_TAKE_RING_W : FieldRow := ⟨31, 0, .rw, 0⟩
def AUD_B_STAT_XF : FieldRow := ⟨31, 31, .ro, 0⟩
def AUD_B_STAT_NOASRC : FieldRow := ⟨30, 30, .ro, 0⟩
def AUD_B_STAT_CLASS : FieldRow := ⟨29, 27, .ro, 0⟩
def AUD_B_STAT_ZERO : FieldRow := ⟨15, 15, .ro, 1⟩
def AUD_B_STAT_CUR_SRC : FieldRow := ⟨14, 0, .ro, 0⟩
def AUD_MIX_W_W : FieldRow := ⟨31, 0, .rw, 0⟩
def AUD_BUS_STAT_SAT : FieldRow := ⟨0, 0, .w1c, 0⟩
def AUD_MTR_CFG_HOLD_MS : FieldRow := ⟨29, 16, .rw, 1500⟩
def AUD_MTR_CFG_SIDE : FieldRow := ⟨15, 15, .rw, 0⟩
def AUD_MTR_CFG_CH : FieldRow := ⟨14, 0, .rw, 0⟩
def AUD_MTR_PEAK_PEAK : FieldRow := ⟨31, 0, .rc, 0⟩
def AUD_MTR_RMS_RMS : FieldRow := ⟨23, 0, .ro, 0⟩
def AUD_MTR_HOLD_H : FieldRow := ⟨23, 0, .ro, 0⟩
def AUD_MTR_DECAY_CLR : FieldRow := ⟨31, 31, .wo, 0⟩
def AUD_MTR_DECAY_DECAY : FieldRow := ⟨15, 0, .rw, 65085⟩
def AUD_TONE_CTRL_MODE : FieldRow := ⟨0, 0, .rw, 0⟩
def AUD_TONE_FREQ_FREQ : FieldRow := ⟨31, 0, .rw, 0x02AAAAAB⟩
def AUD_TONE_LEVEL_LEVEL : FieldRow := ⟨23, 0, .rw, 0x800000⟩
def PLANE_CTRL_BW : FieldRow := ⟨2, 0, .rw, 0⟩
def PLANE_STAT_CUR_VALID : FieldRow := ⟨20, 20, .ro, 0⟩
def PLANE_STAT_CUR : FieldRow := ⟨19, 16, .ro, 0⟩
def PLANE_STAT_HOLD_AVAIL : FieldRow := ⟨4, 4, .ro, 0⟩
def PLANE_STAT_STATE : FieldRow := ⟨2, 0, .ro, 0⟩
def PLANE_LOCKOUT_LOCK : FieldRow := ⟨15, 0, .rw, 0⟩
def PLANE_EVENT_JUMP : FieldRow := ⟨5, 5, .w1c, 0⟩
def PLANE_EVENT_DISAGREE : FieldRow := ⟨4, 4, .w1c, 0⟩
def PLANE_EVENT_ABANDON : FieldRow := ⟨3, 3, .w1c, 0⟩
def PLANE_EVENT_REJECT : FieldRow := ⟨2, 2, .w1c, 0⟩
def PLANE_EVENT_HOLDOVER : FieldRow := ⟨1, 1, .w1c, 0⟩
def PLANE_EVENT_SWITCH : FieldRow := ⟨0, 0, .w1c, 0⟩
def PLANE_FC_LO_V : FieldRow := ⟨31, 0, .ro, 0⟩
def PLANE_FC_HI_V : FieldRow := ⟨15, 0, .ro, 0⟩
def PLANE_RESID_V : FieldRow := ⟨31, 0, .ro, 0⟩
def PLANE_FREQ_V : FieldRow := ⟨31, 0, .ro, 0⟩
def PLANE_HOLD_FREQ_V : FieldRow := ⟨31, 0, .ro, 0⟩
def PLANE_HOLD_SEC_V : FieldRow := ⟨31, 0, .ro, 0⟩
def PLANE_SWITCHES_COUNT : FieldRow := ⟨31, 0, .rc, 0⟩
def PLANE_ABANDONS_COUNT : FieldRow := ⟨31, 0, .rc, 0⟩
def PLANE_REJECTS_COUNT : FieldRow := ⟨31, 0, .rc, 0⟩
def PLANE_ENT_STAT_QUAL_CNT : FieldRow := ⟨25, 16, .ro, 0⟩
def PLANE_ENT_STAT_KIND : FieldRow := ⟨15, 8, .ro, 0⟩
def PLANE_ENT_STAT_DISAGREE : FieldRow := ⟨2, 2, .ro, 0⟩
def PLANE_ENT_STAT_QUAL : FieldRow := ⟨1, 1, .ro, 0⟩
def PLANE_ENT_STAT_ACTIVE : FieldRow := ⟨0, 0, .ro, 0⟩
def PLANE_ENT_FREQ_V : FieldRow := ⟨31, 0, .ro, 0⟩
def PLANE_ENT_PHASE_V : FieldRow := ⟨31, 0, .ro, 0⟩
def PLANE_GSTAT_ALM : FieldRow := ⟨1, 1, .ro, 0⟩
def PLANE_GSTAT_XO_FAIL : FieldRow := ⟨0, 0, .ro, 0⟩
def TIME_TK_CTRL_ADJ_GO : FieldRow := ⟨3, 3, .wo, 0⟩
def TIME_TK_CTRL_SET_GO : FieldRow := ⟨2, 2, .wo, 0⟩
def TIME_TK_CTRL_LOCK_CLR : FieldRow := ⟨1, 1, .wo, 0⟩
def TIME_TK_CTRL_LOCK_SET : FieldRow := ⟨0, 0, .wo, 0⟩
def TIME_TK_STAT_GEN : FieldRow := ⟨23, 16, .ro, 0⟩
def TIME_TK_STAT_DOMAIN : FieldRow := ⟨15, 8, .ro, 0⟩
def TIME_TK_STAT_LOCKED : FieldRow := ⟨1, 1, .ro, 0⟩
def TIME_TK_STAT_VALID : FieldRow := ⟨0, 0, .ro, 0⟩
def TIME_TK_INCR_LO_V : FieldRow := ⟨31, 0, .rw, 0x40000000⟩
def TIME_TK_INCR_HI_V : FieldRow := ⟨7, 0, .rw, 1⟩
def TIME_TK_SET_LO_V : FieldRow := ⟨31, 0, .rw, 0⟩
def TIME_TK_SET_HI_V : FieldRow := ⟨31, 0, .rw, 0⟩
def TIME_TK_ADJ_LO_V : FieldRow := ⟨31, 0, .rw, 0⟩
def TIME_TK_ADJ_HI_V : FieldRow := ⟨31, 0, .rw, 0⟩
def TIME_TK_NS_LO_V : FieldRow := ⟨31, 0, .ro, 0⟩
def TIME_TK_NS_HI_V : FieldRow := ⟨31, 0, .ro, 0⟩
def TIME_TK_FRAC_V : FieldRow := ⟨31, 0, .ro, 0⟩
def TIME_TK_SEC_LO_V : FieldRow := ⟨31, 0, .ro, 0⟩
def TIME_TK_SEC_HI_V : FieldRow := ⟨15, 0, .ro, 0⟩
def TIME_TK_NSEC_V : FieldRow := ⟨29, 0, .ro, 0⟩
def TIME_TK_UNLOCKS_COUNT : FieldRow := ⟨31, 0, .rc, 0⟩
def TIME_OT_CTRL_SNAP : FieldRow := ⟨2, 2, .wo, 0⟩
def TIME_OT_CTRL_AUTO : FieldRow := ⟨1, 1, .rw, 0⟩
def TIME_OT_CTRL_SEL : FieldRow := ⟨0, 0, .rw, 0⟩
def TIME_OT_STAT_SLEWING : FieldRow := ⟨2, 2, .ro, 0⟩
def TIME_OT_STAT_VALID : FieldRow := ⟨1, 1, .ro, 0⟩
def TIME_OT_STAT_CUR : FieldRow := ⟨0, 0, .ro, 0⟩
def TIME_OT_NS_LO_V : FieldRow := ⟨31, 0, .ro, 0⟩
def TIME_OT_NS_HI_V : FieldRow := ⟨31, 0, .ro, 0⟩
def TIME_OT_RESID_LO_V : FieldRow := ⟨31, 0, .ro, 0⟩
def TIME_OT_RESID_HI_V : FieldRow := ⟨31, 0, .ro, 0⟩
def TIME_OT_SWITCHES_COUNT : FieldRow := ⟨31, 0, .rc, 0⟩
def TIME_SNAP_GO : FieldRow := ⟨0, 0, .wo, 0⟩
def TIME_SNAP_W_V : FieldRow := ⟨31, 0, .ro, 0⟩
def TIME_TPO_CTRL_LEVEL : FieldRow := ⟨2, 2, .rw, 0⟩
def TIME_TPO_CTRL_MODE : FieldRow := ⟨1, 1, .rw, 0⟩
def TIME_TPO_CTRL_EN : FieldRow := ⟨0, 0, .rw, 0⟩
def TIME_TPO_STAT_LATE : FieldRow := ⟨4, 4, .w1c, 0⟩
def TIME_TPO_STAT_STATE : FieldRow := ⟨1, 0, .ro, 0⟩
def TIME_TPO_START_LO_V : FieldRow := ⟨31, 0, .rw, 0⟩
def TIME_TPO_START_HI_V : FieldRow := ⟨31, 0, .rw, 0⟩
def TIME_TPO_PERIOD_V : FieldRow := ⟨31, 0, .rw, 0⟩
def TIME_TPO_WIDTH_V : FieldRow := ⟨31, 0, .rw, 0⟩
def TIME_TPO_FIRED_COUNT : FieldRow := ⟨31, 0, .rc, 0⟩
def TIME_TPO_MISSED_COUNT : FieldRow := ⟨31, 0, .rc, 0⟩
def TIME_TCI_CTRL_EDGE : FieldRow := ⟨2, 1, .rw, 1⟩
def TIME_TCI_CTRL_EN : FieldRow := ⟨0, 0, .rw, 0⟩
def TIME_TCI_STAT_OVF : FieldRow := ⟨8, 8, .w1c, 0⟩
def TIME_TCI_STAT_COUNT : FieldRow := ⟨4, 0, .ro, 0⟩
def TIME_TCI_TS_V : FieldRow := ⟨31, 0, .ro, 0⟩
def TIME_TCI_DROP_COUNT : FieldRow := ⟨31, 0, .rc, 0⟩
def PAIR_CTRL_SCRUB_H : FieldRow := ⟨31, 24, .rw, 1⟩
def PAIR_CTRL_SIG_LIMIT : FieldRow := ⟨23, 16, .rw, 3⟩
def PAIR_CTRL_MARGIN_EN : FieldRow := ⟨7, 7, .rw, 1⟩
def PAIR_CTRL_AUD_SIG : FieldRow := ⟨6, 6, .rw, 1⟩
def PAIR_CTRL_SIG_EN : FieldRow := ⟨5, 5, .rw, 1⟩
def PAIR_CTRL_ALLOW_XIMG : FieldRow := ⟨4, 4, .rw, 0⟩
def PAIR_CTRL_WIN_PLANE : FieldRow := ⟨1, 1, .rw, 0⟩
def PAIR_CTRL_EN : FieldRow := ⟨0, 0, .rw, 0⟩
def PAIR_STAT_INSTEP : FieldRow := ⟨15, 15, .ro, 0⟩
def PAIR_STAT_NO_ACTIVE : FieldRow := ⟨14, 14, .ro, 0⟩
def PAIR_STAT_DUAL : FieldRow := ⟨13, 13, .ro, 0⟩
def PAIR_STAT_XIMG : FieldRow := ⟨12, 12, .ro, 0⟩
def PAIR_STAT_SOLO : FieldRow := ⟨11, 11, .ro, 0⟩
def PAIR_STAT_LINK : FieldRow := ⟨10, 8, .ro, 0⟩
def PAIR_STAT_PEER_ROLE : FieldRow := ⟨5, 4, .ro, 0⟩
def PAIR_STAT_ROLE_PIN : FieldRow := ⟨3, 3, .ro, 0⟩
def PAIR_STAT_BEAT_HOLD : FieldRow := ⟨2, 2, .ro, 0⟩
def PAIR_STAT_HEALTH : FieldRow := ⟨1, 0, .ro, 0⟩
def PAIR_LEAD_EXTRA_US : FieldRow := ⟨15, 0, .rw, 0⟩
def PAIR_MIRROR_LAT_NS : FieldRow := ⟨15, 0, .ro, 0⟩
def PAIR_SKEW_V : FieldRow := ⟨31, 0, .ro, 0⟩
def PAIR_SKEW_LIM_NS : FieldRow := ⟨15, 0, .rw, 500⟩
def PAIR_TK_SKEW_V : FieldRow := ⟨31, 0, .ro, 0⟩
def PAIR_TK_SKEW_LIM_NS : FieldRow := ⟨15, 0, .rw, 1000⟩
def PAIR_FC_OFS_V : FieldRow := ⟨31, 0, .ro, 0⟩
def PAIR_SC_OFS_V : FieldRow := ⟨31, 0, .ro, 0⟩
def PAIR_SIG_LAST_AUD : FieldRow := ⟨15, 15, .ro, 0⟩
def PAIR_SIG_LAST_OUT : FieldRow := ⟨11, 0, .ro, 0⟩
def PAIR_MARGIN_LIM_V : FieldRow := ⟨15, 8, .rw, 8⟩
def PAIR_MARGIN_LIM_H : FieldRow := ⟨7, 0, .rw, 16⟩
def PAIR_ROLE_CHANGES_COUNT : FieldRow := ⟨31, 0, .rc, 0⟩
def PAIR_LINK_DOWN_COUNT : FieldRow := ⟨31, 0, .rc, 0⟩
def PAIR_MIRROR_RETRY_COUNT : FieldRow := ⟨31, 0, .rc, 0⟩
def PAIR_ACK_MISS_COUNT : FieldRow := ⟨31, 0, .rc, 0⟩
def PAIR_TAKE_LATE_COUNT : FieldRow := ⟨31, 0, .rc, 0⟩
def PAIR_AT_MOVED_COUNT : FieldRow := ⟨31, 0, .rc, 0⟩
def PAIR_SIG_DIFF_COUNT : FieldRow := ⟨31, 0, .rc, 0⟩
def PAIR_SIG_MISSING_COUNT : FieldRow := ⟨31, 0, .rc, 0⟩
def PAIR_HOST_IGN_COUNT : FieldRow := ⟨31, 0, .rc, 0⟩
def PAIR_SIG_EXCL_V : FieldRow := ⟨31, 0, .rw, 0⟩
def PAIR_MARGIN_VALID : FieldRow := ⟨31, 31, .ro, 0⟩
def PAIR_MARGIN_V : FieldRow := ⟨15, 8, .ro, 0⟩
def PAIR_MARGIN_H : FieldRow := ⟨7, 0, .ro, 0⟩
def FAULT_SUMMARY_LO_V : FieldRow := ⟨31, 0, .ro, 0⟩
def FAULT_SUMMARY_HI_V : FieldRow := ⟨15, 0, .ro, 0⟩
def FAULT_ANY_FAIL : FieldRow := ⟨2, 2, .ro, 0⟩
def FAULT_ANY_DEGRADE : FieldRow := ⟨1, 1, .ro, 0⟩
def FAULT_ANY_ALERT : FieldRow := ⟨0, 0, .ro, 0⟩
def FAULT_LAST_SEV : FieldRow := ⟨18, 16, .ro, 0⟩
def FAULT_LAST_SRC : FieldRow := ⟨10, 0, .ro, 0⟩
def FAULT_RAISES_COUNT : FieldRow := ⟨31, 0, .rc, 0⟩
def FAULT_STAT_V : FieldRow := ⟨31, 0, .w1c, 0⟩
def FAULT_VEC_EN : FieldRow := ⟨8, 8, .rw, 0⟩
def FAULT_VEC_VEC : FieldRow := ⟨5, 0, .rw, 0⟩
def FAULT_SEV_LOCK : FieldRow := ⟨7, 7, .ro, 0⟩
def FAULT_SEV_SEV : FieldRow := ⟨2, 0, .rw, 2⟩
def FAULT_CNT_COUNT : FieldRow := ⟨31, 0, .rc, 0⟩
def PAT_STAT_SEALED : FieldRow := ⟨5, 5, .ro, 0⟩
def PAT_STAT_PF : FieldRow := ⟨4, 4, .ro, 0⟩
def PAT_STAT_TORN_LAST : FieldRow := ⟨3, 3, .ro, 0⟩
def PAT_STAT_FINAL : FieldRow := ⟨2, 2, .ro, 0⟩
def PAT_STAT_KEEP_OK : FieldRow := ⟨1, 1, .ro, 0⟩
def PAT_STAT_READY : FieldRow := ⟨0, 0, .ro, 0⟩
def PAT_SEQ_LO_V : FieldRow := ⟨31, 0, .ro, 0⟩
def PAT_SEQ_HI_V : FieldRow := ⟨15, 0, .ro, 0⟩
def PAT_TOKENS_TOKENS : FieldRow := ⟨12, 0, .ro, 4096⟩
def PAT_DROPPED_COUNT : FieldRow := ⟨31, 0, .rc, 0⟩
def PAT_MRAM_CORR_COUNT : FieldRow := ⟨31, 0, .rc, 0⟩
def PAT_MRAM_UNCORR_COUNT : FieldRow := ⟨31, 0, .rc, 0⟩
def PAT_KEEP_FLUSH_V : FieldRow := ⟨31, 0, .ro, 0⟩
def PAT_KEEP_REFUSED_V : FieldRow := ⟨31, 0, .ro, 0⟩
def PAT_KEEP_BACKLOG_V : FieldRow := ⟨17, 0, .ro, 0⟩
def PAT_KEEP_CTRL_KEY : FieldRow := ⟨31, 16, .wo, 0⟩
def PAT_KEEP_CTRL_CLEAR : FieldRow := ⟨0, 0, .wo, 0⟩
def PAT_HOST_EVT_GO : FieldRow := ⟨31, 31, .wo, 0⟩
def PAT_HOST_EVT_EVENT : FieldRow := ⟨15, 0, .rw, 0x8000⟩
def PAT_HOST_DATA_V : FieldRow := ⟨31, 0, .rw, 0⟩
def IMG_FL_CTRL_KEY : FieldRow := ⟨31, 16, .wo, 0⟩
def IMG_FL_CTRL_OP : FieldRow := ⟨1, 0, .wo, 0⟩
def IMG_FL_ADDR_ADDR : FieldRow := ⟨26, 0, .rw, 0⟩
def IMG_FL_STAT_IGNORED : FieldRow := ⟨3, 3, .w1c, 0⟩
def IMG_FL_STAT_ERR : FieldRow := ⟨2, 2, .w1c, 0⟩
def IMG_FL_STAT_DONE : FieldRow := ⟨1, 1, .w1c, 0⟩
def IMG_FL_STAT_BUSY : FieldRow := ⟨0, 0, .ro, 0⟩
def IMG_UPD_CTRL_KEY : FieldRow := ⟨31, 16, .wo, 0⟩
def IMG_UPD_CTRL_NOCARRY : FieldRow := ⟨9, 9, .wo, 0⟩
def IMG_UPD_CTRL_FORCE : FieldRow := ⟨8, 8, .wo, 0⟩
def IMG_UPD_CTRL_SLOT : FieldRow := ⟨4, 4, .wo, 0⟩
def IMG_UPD_CTRL_OP : FieldRow := ⟨3, 0, .wo, 0⟩
def IMG_UPD_STAT_FAIL_CODE : FieldRow := ⟨23, 16, .ro, 0⟩
def IMG_UPD_STAT_RESULT : FieldRow := ⟨11, 8, .ro, 0⟩
def IMG_UPD_STAT_VERIFIED_B : FieldRow := ⟨5, 5, .ro, 0⟩
def IMG_UPD_STAT_VERIFIED_A : FieldRow := ⟨4, 4, .ro, 0⟩
def IMG_UPD_STAT_STATE : FieldRow := ⟨2, 0, .ro, 0⟩
def IMG_UPD_WIN_S_V : FieldRow := ⟨31, 0, .ro, 0⟩
def IMG_UPD_PAUSE_US_V : FieldRow := ⟨31, 0, .ro, 0⟩
def IMG_BOOT_PTR_PTR : FieldRow := ⟨1, 0, .ro, 0⟩
def IMG_ARB_COUNT_V : FieldRow := ⟨31, 0, .ro, 0⟩
def IMG_MAQ_ARB_V : FieldRow := ⟨31, 0, .ro, 0⟩
def IMG_CARRY_REFUSED_COUNT : FieldRow := ⟨31, 0, .rc, 0⟩
def IMG_SET_CTRL_KEY : FieldRow := ⟨31, 16, .wo, 0⟩
def IMG_SET_CTRL_OP : FieldRow := ⟨1, 0, .wo, 0⟩
def IMG_SET_FMT_V : FieldRow := ⟨31, 0, .rw, 0⟩
def IMG_SET_LEN_LEN : FieldRow := ⟨11, 0, .rw, 0⟩
def IMG_SET_STAT_RESULT : FieldRow := ⟨7, 4, .ro, 0⟩
def IMG_SET_STAT_BUSY : FieldRow := ⟨0, 0, .ro, 0⟩
def IMG_SET_DATA_V : FieldRow := ⟨31, 0, .rw, 0⟩
def IMG_SET_FREE_V : FieldRow := ⟨31, 0, .ro, 0⟩
def IMG_FL_BUF_V : FieldRow := ⟨31, 0, .rw, 0⟩
def FABRIC_STAT_HUNG : FieldRow := ⟨8, 0, .ro, 0⟩
def FABRIC_HANG_INFO_MASTER : FieldRow := ⟨31, 28, .ro, 0⟩
def FABRIC_HANG_INFO_WRITE : FieldRow := ⟨27, 27, .ro, 0⟩
def FABRIC_HANG_INFO_BAR2 : FieldRow := ⟨26, 26, .ro, 0⟩
def FABRIC_HANG_INFO_VALID : FieldRow := ⟨0, 0, .w1c, 0⟩
def FABRIC_HANG_ADDR_V : FieldRow := ⟨31, 0, .ro, 0⟩
def FABRIC_MRESET_KEY : FieldRow := ⟨31, 16, .wo, 0⟩
def FABRIC_MRESET_M8 : FieldRow := ⟨8, 8, .wo, 0⟩
def FABRIC_OUTST_WRITES : FieldRow := ⟨12, 8, .ro, 0⟩
def FABRIC_OUTST_READS : FieldRow := ⟨4, 0, .ro, 0⟩
def FABRIC_MATRIX_OUTST_V : FieldRow := ⟨7, 0, .ro, 0⟩
def FABRIC_HOLD_ORDER_COUNT : FieldRow := ⟨31, 0, .rc, 0⟩
def FABRIC_HOLD_DEADLOCK_COUNT : FieldRow := ⟨31, 0, .rc, 0⟩
def FABRIC_BADSIZE_COUNT : FieldRow := ⟨31, 0, .rc, 0⟩
def FABRIC_HANGS_COUNT : FieldRow := ⟨31, 0, .rc, 0⟩
def FABRIC_PCIE_STAT_D3HOT : FieldRow := ⟨8, 8, .ro, 0⟩
def FABRIC_PCIE_STAT_WIDTH : FieldRow := ⟨7, 4, .ro, 0⟩
def FABRIC_PCIE_STAT_SPEED : FieldRow := ⟨3, 1, .ro, 0⟩
def FABRIC_PCIE_STAT_UP : FieldRow := ⟨0, 0, .ro, 0⟩
def FABRIC_PCIE_RESETS_COUNT : FieldRow := ⟨31, 0, .rc, 0⟩
def TEST_STAT_INJ_LEFT : FieldRow := ⟨31, 16, .ro, 0⟩
def TEST_STAT_IGNORED : FieldRow := ⟨4, 4, .w1c, 0⟩
def TEST_STAT_PERT_ANY : FieldRow := ⟨3, 3, .ro, 0⟩
def TEST_STAT_INJ_ARMED : FieldRow := ⟨2, 2, .ro, 0⟩
def TEST_STAT_PERT_OK : FieldRow := ⟨1, 1, .ro, 0⟩
def TEST_STAT_INJ_OK : FieldRow := ⟨0, 0, .ro, 0⟩
def TEST_INJ_TARGET_CLASS : FieldRow := ⟨27, 24, .rw, 0⟩
def TEST_INJ_TARGET_INDEX : FieldRow := ⟨11, 0, .rw, 0⟩
def TEST_INJ_CTRL_ARM : FieldRow := ⟨31, 31, .wo, 0⟩
def TEST_INJ_CTRL_DISARM : FieldRow := ⟨30, 30, .wo, 0⟩
def TEST_INJ_CTRL_COUNT : FieldRow := ⟨23, 8, .rw, 0⟩
def TEST_INJ_CTRL_MASK : FieldRow := ⟨7, 0, .rw, 0⟩
def TEST_INJ_DONE_COUNT : FieldRow := ⟨31, 0, .rc, 0⟩
def TEST_IGNORED_COUNT : FieldRow := ⟨31, 0, .rc, 0⟩
def TEST_PERT_QDELAY_ALL : FieldRow := ⟨31, 31, .rw, 0⟩
def TEST_PERT_QDELAY_GROUP : FieldRow := ⟨25, 16, .rw, 0⟩
def TEST_PERT_QDELAY_CYCLES : FieldRow := ⟨11, 0, .rw, 0⟩
def TEST_PERT_ENG_QMASK : FieldRow := ⟨11, 8, .rw, 0⟩
def TEST_PERT_ENG_DENY : FieldRow := ⟨3, 0, .rw, 0⟩
def TEST_PERT_MAC_GO : FieldRow := ⟨31, 31, .wo, 0⟩
def TEST_PERT_MAC_STALL_US : FieldRow := ⟨23, 8, .rw, 0⟩
def TEST_PERT_MAC_MAC : FieldRow := ⟨5, 0, .rw, 0⟩
def TEST_PERT_FAB_TMASK : FieldRow := ⟨31, 8, .rw, 0⟩
def TEST_PERT_FAB_HOLD : FieldRow := ⟨7, 0, .rw, 0⟩
def TEST_PERT_MON_SEED : FieldRow := ⟨31, 16, .rw, 0⟩
def TEST_PERT_MON_PLANE : FieldRow := ⟨8, 8, .rw, 0⟩
def TEST_PERT_MON_J : FieldRow := ⟨7, 0, .rw, 0⟩
def PINCTL_SSC_DEPTH : FieldRow := ⟨3, 0, .ro, 0⟩
def PINCTL_SLEW_JTAG : FieldRow := ⟨9, 8, .ro, 2⟩
def PINCTL_SLEW_AON : FieldRow := ⟨7, 6, .ro, 2⟩
def PINCTL_SLEW_STATUS : FieldRow := ⟨5, 4, .ro, 2⟩
def PINCTL_SLEW_TIMING : FieldRow := ⟨3, 2, .ro, 2⟩
def PINCTL_SLEW_SAP : FieldRow := ⟨1, 0, .ro, 2⟩
def PINCTL_FILT_COUNT : FieldRow := ⟨7, 0, .ro, 32⟩
def PINCTL_IN_LVL_DP_HPD : FieldRow := ⟨14, 11, .ro, 0⟩
def PINCTL_IN_LVL_POWER_FAIL_N : FieldRow := ⟨10, 10, .ro, 0⟩
def PINCTL_IN_LVL_ARB_ROLE : FieldRow := ⟨9, 9, .ro, 0⟩
def PINCTL_IN_LVL_TCI : FieldRow := ⟨8, 5, .ro, 0⟩
def PINCTL_IN_LVL_AUD_START : FieldRow := ⟨4, 4, .ro, 0⟩
def PINCTL_IN_LVL_REFFP : FieldRow := ⟨3, 0, .ro, 0⟩
def MSIX_ADDR_LO_V : FieldRow := ⟨31, 0, .rw, 0⟩
def MSIX_ADDR_HI_V : FieldRow := ⟨31, 0, .rw, 0⟩
def MSIX_DATA_V : FieldRow := ⟨31, 0, .rw, 0⟩
def MSIX_CTRL_MASK : FieldRow := ⟨0, 0, .rw, 1⟩
def MSIX_PBA_V : FieldRow := ⟨31, 0, .ro, 0⟩
end Fld

namespace Reg
/-- 00 R2 -/
def GLOBAL_ID : Nat := 0x00000000
/-- 00 R3 -/
def GLOBAL_STEP : Nat := 0x00000004
/-- 01 R12 T1.3 -/
def GLOBAL_BRIDGE_STAT : Nat := 0x00000010
/-- 01 R12 -/
def GLOBAL_BRIDGE_RETRY : Nat := 0x00000014
/-- 01 R18 T1.6 -/
def GLOBAL_CLK_LOCK : Nat := 0x00000018
/-- 02 R25 T2.8 -/
def GLOBAL_MODE : Nat := 0x00000020
/-- 02 R33 T2.9 -/
def GLOBAL_BOOT_STAT : Nat := 0x00000024
/-- 02 R46 T2.11 -/
def GLOBAL_RESET_CTRL : Nat := 0x00000028
/-- 02 R52 T2.12 -/
def GLOBAL_RESET_CAUSE : Nat := 0x0000002C
/-- 02 R37 T2.13 -/
def GLOBAL_HOST_BOOT : Nat := 0x00000030
/-- 02 R41 T2.14 -/
def GLOBAL_TJ : Nat := 0x00000034
/-- 03 T3.9 -/
def IMG_ACT_INFO : Nat := 0x02C00000
/-- 03 Registers -/
def IMG_ACT_ARB : Nat := 0x02C00004
/-- 03 Registers -/
def IMG_ACT_BUILD_LO : Nat := 0x02C00008
/-- 03 Registers -/
def IMG_ACT_BUILD_HI : Nat := 0x02C0000C
/-- 03 R58 -/
def IMG_ACT_DIGEST (n : Nat) : Nat := 0x02C00010 + 4 * n
/-- 03 R63 T3.10 -/
def IMG_ARM_STAT : Nat := 0x02C00040
/-- 03 Registers -/
def IMG_ARM_LEN : Nat := 0x02C00044
/-- 03 R78 T3.12 (per master) -/
def IMG_RB_ADDR : Nat := 0x02C00050
/-- 03 R78 (per master) -/
def IMG_RB_DATA : Nat := 0x02C00054
/-- 03 Registers (per master) -/
def IMG_OWN_QUERY : Nat := 0x02C00060
/-- 03 Registers (per master) -/
def IMG_OWN_RESULT : Nat := 0x02C00064
/-- 03 R76 T3.13 -/
def IMG_REFUSE_INFO : Nat := 0x02C00068
/-- 03 R523 -/
def IMG_REFUSE_RES : Nat := 0x02C0006C
/-- 03 R74 -/
def IMG_REFUSE_ADDR : Nat := 0x02C00070
/-- 03 R74 -/
def IMG_REFUSE_COUNT : Nat := 0x02C00074
/-- 04 R96 T4.12 -/
def XP_TAKE_CTRL : Nat := 0x00200000
/-- 04 R93 -/
def XP_TAKE_PI : Nat := 0x00200004
/-- 04 R93 -/
def XP_TAKE_CI : Nat := 0x00200008
/-- 04 T4.13 -/
def XP_TAKE_STAT : Nat := 0x0020000C
/-- 04 R97 -/
def XP_TAKE_REFUSE_COUNT : Nat := 0x00200010
/-- 04 T4.14 -/
def XP_PLANE_EXEC (n : Nat) : Nat := 0x00200020 + 0x20 * n
/-- 04 Registers -/
def XP_PLANE_DONE_TAG (n : Nat) : Nat := 0x00200024 + 0x20 * n
/-- 04 Registers -/
def XP_PLANE_DONE_FC_LO (n : Nat) : Nat := 0x00200028 + 0x20 * n
/-- 04 Registers -/
def XP_PLANE_DONE_FC_HI (n : Nat) : Nat := 0x0020002C + 0x20 * n
/-- 04 R101 -/
def XP_PLANE_AT_LATE (n : Nat) : Nat := 0x00200030 + 0x20 * n
/-- 04 R92 R93 -/
def XP_TAKE_RING (w : Nat) : Nat := 0x00210000 + 4 * w
/-- 04 T4.15 -/
def XP_DEST_SRC (d : Nat) : Nat := 0x00220000 + 16 * d
/-- 04 T4.16 -/
def XP_DEST_STAT (d : Nat) : Nat := 0x00220004 + 16 * d
/-- 04 R107 T4.17 -/
def XP_DEST_FSYNC (d : Nat) : Nat := 0x00220008 + 16 * d
/-- 04 T4.18 -/
def XP_DEST_FSYNC_STAT (d : Nat) : Nat := 0x0022000C + 16 * d
/-- 04 T4.19 -/
def XP_SRC_STAT (s : Nat) : Nat := 0x00230000 + 8 * s
/-- 04 Registers -/
def XP_SRC_PHASE (s : Nat) : Nat := 0x00230004 + 8 * s
/-- 04 R91 -/
def XP_TPG_CTRL (n : Nat) : Nat := 0x00238000 + 8 * n
/-- 04 T4.20 -/
def XP_TPG_COLOR (n : Nat) : Nat := 0x00238004 + 8 * n
/-- 05 T5.8 -/
def VLANE_RX_STAT (v : Nat) : Nat := 0x00400000 + 0x100 * v
/-- 05 R123 -/
def VLANE_RX_PID (v : Nat) : Nat := 0x00400004 + 0x100 * v
/-- 05 R122 -/
def VLANE_RX_CRC_LINES (v : Nat) : Nat := 0x00400008 + 0x100 * v
/-- 05 R122 -/
def VLANE_RX_CRC_FRAMES (v : Nat) : Nat := 0x0040000C + 0x100 * v
/-- 05 R120 -/
def VLANE_RX_LOCK_LOSS (v : Nat) : Nat := 0x00400010 + 0x100 * v
/-- 05 R133 -/
def VLANE_RX_AUD_ERR (v : Nat) : Nat := 0x00400014 + 0x100 * v
/-- 05 R137 -/
def VLANE_ANC_CAP_DROP (v : Nat) : Nat := 0x00400018 + 0x100 * v
/-- 05 R136 T5.10 -/
def VLANE_ANC_CAP_FILT (v n : Nat) : Nat := 0x00400020 + 0x100 * v + 8 * n
/-- 05 R137 -/
def VLANE_ANC_CAP_Q (v n : Nat) : Nat := 0x00400024 + 0x100 * v + 8 * n
/-- 05 R126 T5.9 -/
def VLANE_TX_CTRL (v : Nat) : Nat := 0x00400040 + 0x100 * v
/-- 05 R129 -/
def VLANE_TX_PID (v : Nat) : Nat := 0x00400044 + 0x100 * v
/-- 05 Registers -/
def VLANE_TX_STAT (v : Nat) : Nat := 0x00400048 + 0x100 * v
/-- 05 R139 -/
def VLANE_ANC_INS_NOROOM (v : Nat) : Nat := 0x0040004C + 0x100 * v
/-- 05 R139 -/
def VLANE_ANC_INS_BADREC (v : Nat) : Nat := 0x00400050 + 0x100 * v
/-- 05 R138 -/
def VLANE_ANC_INS_CTRL (v n : Nat) : Nat := 0x00400060 + 0x100 * v + 8 * n
/-- 05 R138 -/
def VLANE_ANC_INS_Q (v n : Nat) : Nat := 0x00400064 + 0x100 * v + 8 * n
/-- 05 R143 -/
def VLANE_DP_CTRL (k : Nat) : Nat := 0x00420000 + 0x40 * k
/-- 05 T5.11 -/
def VLANE_DP_STAT (k : Nat) : Nat := 0x00420004 + 0x40 * k
/-- 05 R145 -/
def VLANE_DP_AUX_CMD (k : Nat) : Nat := 0x00420008 + 0x40 * k
/-- 05 R145 -/
def VLANE_DP_AUX_STAT (k : Nat) : Nat := 0x0042000C + 0x40 * k
/-- 05 R145 -/
def VLANE_DP_AUX_DATA (k n : Nat) : Nat := 0x00420010 + 0x40 * k + 4 * n
/-- 05 R143 -/
def VLANE_DP_RETRAINS (k : Nat) : Nat := 0x00420020 + 0x40 * k
/-- 06 T6.10 -/
def MAC_CTRL (m : Nat) : Nat := 0x00C00000 + 0x1000 * m
/-- 06 T6.11 -/
def MAC_STAT (m : Nat) : Nat := 0x00C00004 + 0x1000 * m
/-- 06 Registers -/
def MAC_ADDR_LO (m : Nat) : Nat := 0x00C00008 + 0x1000 * m
/-- 06 Registers -/
def MAC_ADDR_HI (m : Nat) : Nat := 0x00C0000C + 0x1000 * m
/-- 06 T6.12 -/
def MAC_TXQ_MAP (m : Nat) : Nat := 0x00C00010 + 0x1000 * m
/-- 06 R162 -/
def MAC_EXC_Q_PTP (m : Nat) : Nat := 0x00C00014 + 0x1000 * m
/-- 06 R162 -/
def MAC_EXC_Q_GEN (m : Nat) : Nat := 0x00C00018 + 0x1000 * m
/-- 06 R162 -/
def MAC_INJ_Q (m : Nat) : Nat := 0x00C0001C + 0x1000 * m
/-- 06 R162 -/
def MAC_TSC_Q (m : Nat) : Nat := 0x00C00020 + 0x1000 * m
/-- 06 R160 -/
def MAC_TS_RX_ADJ (m : Nat) : Nat := 0x00C00024 + 0x1000 * m
/-- 06 R160 -/
def MAC_TS_TX_ADJ (m : Nat) : Nat := 0x00C00028 + 0x1000 * m
/-- 06 R159 -/
def MAC_PAUSE_STAT (m : Nat) : Nat := 0x00C0002C + 0x1000 * m
/-- 06 R147 -/
def MAC_LANE_TXEQ (g i : Nat) : Nat := 0x00C00040 + 0x4000 * g + 4 * i
/-- 06 R154 -/
def MAC_RX_FRAMES_LO (m : Nat) : Nat := 0x00C00100 + 0x1000 * m
/-- 06 R154 -/
def MAC_RX_FRAMES_HI (m : Nat) : Nat := 0x00C00104 + 0x1000 * m
/-- 06 Registers -/
def MAC_RX_BYTES_LO (m : Nat) : Nat := 0x00C00108 + 0x1000 * m
/-- 06 Registers -/
def MAC_RX_BYTES_HI (m : Nat) : Nat := 0x00C0010C + 0x1000 * m
/-- 06 Registers -/
def MAC_TX_FRAMES_LO (m : Nat) : Nat := 0x00C00110 + 0x1000 * m
/-- 06 Registers -/
def MAC_TX_FRAMES_HI (m : Nat) : Nat := 0x00C00114 + 0x1000 * m
/-- 06 Registers -/
def MAC_TX_BYTES_LO (m : Nat) : Nat := 0x00C00118 + 0x1000 * m
/-- 06 Registers -/
def MAC_TX_BYTES_HI (m : Nat) : Nat := 0x00C0011C + 0x1000 * m
/-- 06 R154 -/
def MAC_RX_FCS_ERR (m : Nat) : Nat := 0x00C00120 + 0x1000 * m
/-- 06 R154 -/
def MAC_RX_OVERFLOW (m : Nat) : Nat := 0x00C00124 + 0x1000 * m
/-- 06 R154 -/
def MAC_RX_RUNT (m : Nat) : Nat := 0x00C00128 + 0x1000 * m
/-- 06 R154 -/
def MAC_RX_OVERSIZE (m : Nat) : Nat := 0x00C0012C + 0x1000 * m
/-- 06 R154 -/
def MAC_RX_DA_DROP (m : Nat) : Nat := 0x00C00130 + 0x1000 * m
/-- 06 R163 -/
def MAC_RX_EXC_DROP (m : Nat) : Nat := 0x00C00134 + 0x1000 * m
/-- 06 R154 -/
def MAC_RX_PAUSE (m : Nat) : Nat := 0x00C00138 + 0x1000 * m
/-- 06 R154 -/
def MAC_RX_CTRL_OTHER (m : Nat) : Nat := 0x00C0013C + 0x1000 * m
/-- 06 R152 -/
def MAC_TX_DISCARD (m : Nat) : Nat := 0x00C00140 + 0x1000 * m
/-- 06 Registers -/
def MAC_FEC_CORR (m : Nat) : Nat := 0x00C00144 + 0x1000 * m
/-- 06 R166 -/
def MAC_FEC_UNCORR (m : Nat) : Nat := 0x00C00148 + 0x1000 * m
/-- 06 R150 -/
def MAC_LINK_DOWN (m : Nat) : Nat := 0x00C0014C + 0x1000 * m
/-- 06 R164 -/
def MAC_INJ_BAD (m : Nat) : Nat := 0x00C00150 + 0x1000 * m
/-- 06 R165 -/
def MAC_TS_DROP (m : Nat) : Nat := 0x00C00154 + 0x1000 * m
/-- 07 T7.7 -/
def FLOW_VRX_CFG (i : Nat) : Nat := 0x01010000 + 0x20 * i
/-- 07 R179 -/
def FLOW_VRX_DELAY (i : Nat) : Nat := 0x01010004 + 0x20 * i
/-- 07 T7.8 -/
def FLOW_VRX_STAT (i : Nat) : Nat := 0x01010008 + 0x20 * i
/-- 07 R181 -/
def FLOW_VRX_UNDERRUN (i : Nat) : Nat := 0x0101000C + 0x20 * i
/-- 07 R181 -/
def FLOW_VRX_LOST (i : Nat) : Nat := 0x01010010 + 0x20 * i
/-- 07 R182 -/
def FLOW_VRX_SKEW (i : Nat) : Nat := 0x01010014 + 0x20 * i
/-- 07 T7.9 -/
def FLOW_VTX_CFG (j : Nat) : Nat := 0x01020000 + 0x20 * j
/-- 07 Registers -/
def FLOW_VTX_SSRC (j : Nat) : Nat := 0x01020004 + 0x20 * j
/-- 07 R186 -/
def FLOW_VTX_LATE_DROP (j : Nat) : Nat := 0x01020008 + 0x20 * j
/-- 07 T7.10 -/
def FLOW_ARX_CFG (a : Nat) : Nat := 0x01030000 + 0x10 * a
/-- 07 R188 -/
def FLOW_ARX_DELAY (a : Nat) : Nat := 0x01030004 + 0x10 * a
/-- 07 R188 -/
def FLOW_ARX_UNDERRUN (a : Nat) : Nat := 0x01030008 + 0x10 * a
/-- 07 T7.10 -/
def FLOW_ATX_CFG (a : Nat) : Nat := 0x01040000 + 0x10 * a
/-- 07 Registers -/
def FLOW_ATX_SSRC (a : Nat) : Nat := 0x01040004 + 0x10 * a
/-- 07 R186 -/
def FLOW_ATX_LATE_DROP (a : Nat) : Nat := 0x01040008 + 0x10 * a
/-- 07 R189 -/
def FLOW_NRX_CFG (n : Nat) : Nat := 0x01050000 + 0x10 * n
/-- 07 R189 -/
def FLOW_NRX_DELAY (n : Nat) : Nat := 0x01050004 + 0x10 * n
/-- 07 R189 -/
def FLOW_NRX_DROP (n : Nat) : Nat := 0x01050008 + 0x10 * n
/-- 07 R190 -/
def FLOW_NTX_CFG (n : Nat) : Nat := 0x01054000 + 0x10 * n
/-- 07 Registers -/
def FLOW_NTX_SSRC (n : Nat) : Nat := 0x01054004 + 0x10 * n
/-- 07 R186 -/
def FLOW_NTX_LATE_DROP (n : Nat) : Nat := 0x01054008 + 0x10 * n
/-- 07 R191 -/
def FLOW_GRP_DELAY (g : Nat) : Nat := 0x01060000 + 0x10 * g
/-- 07 R191 -/
def FLOW_GRP_STAT (g : Nat) : Nat := 0x01060004 + 0x10 * g
/-- 07 R191 -/
def FLOW_GRP_SLIP_ID (g : Nat) : Nat := 0x01060008 + 0x10 * g
/-- 07 R171 T7.3 -/
def FLOW_LEG_CTX (l w : Nat) : Nat := 0x01100000 + 32 * l + 4 * w
/-- 07 Registers -/
def FLOW_LEG_PKTS (l : Nat) : Nat := 0x01300000 + 0x10 * l
/-- 07 Registers -/
def FLOW_LEG_GAP (l : Nat) : Nat := 0x01300004 + 0x10 * l
/-- 07 R180 -/
def FLOW_LEG_LATE (l : Nat) : Nat := 0x01300008 + 0x10 * l
/-- 07 R177 -/
def FLOW_LEG_BAD (l : Nat) : Nat := 0x0130000C + 0x10 * l
/-- 08 Registers -/
def QM_HBM_STAT : Nat := 0x01400000
/-- 08 R197 -/
def QM_HBM_OUTST (s : Nat) : Nat := 0x01400010 + 4 * s
/-- 08 R199 -/
def QM_HBM_HELD (s : Nat) : Nat := 0x01400020 + 4 * s
/-- 08 R217 -/
def QM_ECC_CORR : Nat := 0x01400030
/-- 08 R218 -/
def QM_ECC_UNCORR : Nat := 0x01400034
/-- 08 R218 -/
def QM_ECC_LAST_LO : Nat := 0x01400038
/-- 08 R218 -/
def QM_ECC_LAST_HI : Nat := 0x0140003C
/-- 08 R204 -/
def QM_DCACHE_MISS : Nat := 0x01400040
/-- 08 R220 T8.12 -/
def QM_SCRUB_CTRL : Nat := 0x01400044
/-- 08 R224 -/
def QM_SURF_WIN : Nat := 0x01400048
/-- 08 R225 -/
def QM_HOST_BADACC : Nat := 0x0140004C
/-- 08 R217 -/
def QM_GRP_CORR (g : Nat) : Nat := 0x01401000 + 4 * g
/-- 09 Registers -/
def ENG_STAT : Nat := 0x01800000
/-- 09 R253 T9.7 -/
def ENG_QUAR_CMD : Nat := 0x01800004
/-- 09 R245 -/
def ENG_QUAD_INFLIGHT (q : Nat) : Nat := 0x01800010 + 0x10 * q
/-- 09 R245 -/
def ENG_QUAD_HELD (q : Nat) : Nat := 0x01800014 + 0x10 * q
/-- 09 R250 -/
def ENG_QUAD_LOAD (q : Nat) : Nat := 0x01800018 + 0x10 * q
/-- 09 R249 -/
def ENG_QUAD_LATE (q : Nat) : Nat := 0x0180001C + 0x10 * q
/-- 09 R253 -/
def ENG_QUAR_MAP (k : Nat) : Nat := 0x01800100 + 4 * k
/-- 09 T9.8 -/
def ENG_CLU_STAT (c : Nat) : Nat := 0x01801000 + 0x10 * c
/-- 09 Registers -/
def ENG_CLU_STEAL_IN (c : Nat) : Nat := 0x01801004 + 0x10 * c
/-- 09 Registers -/
def ENG_CLU_STEAL_XQ (c : Nat) : Nat := 0x01801008 + 0x10 * c
/-- 09 R251 -/
def ENG_CLU_MEM_CORR (c : Nat) : Nat := 0x0180100C + 0x10 * c
/-- 09 T9.9 -/
def ENG_E_STAT (e : Nat) : Nat := 0x01802000 + 0x10 * e
/-- 09 Registers -/
def ENG_E_TASKS (e : Nat) : Nat := 0x01802004 + 0x10 * e
/-- 09 R251 -/
def ENG_E_CORR (e : Nat) : Nat := 0x01802008 + 0x10 * e
/-- 09 T9.10 -/
def ENG_SLOT_CTRL (n : Nat) : Nat := 0x01808000 + 0x40 * n
/-- 09 Registers -/
def ENG_SLOT_STAT (n : Nat) : Nat := 0x01808004 + 0x40 * n
/-- 09 R250 -/
def ENG_SLOT_LATE (n : Nat) : Nat := 0x01808008 + 0x40 * n
/-- 09 R234 -/
def ENG_SLOT_CM_C (n i : Nat) : Nat := 0x01808010 + 0x40 * n + 4 * i
/-- 09 R234 -/
def ENG_SLOT_CM_OFFIN (n : Nat) : Nat := 0x01808034 + 0x40 * n
/-- 09 R234 -/
def ENG_SLOT_CM_OFFOUT (n : Nat) : Nat := 0x01808038 + 0x40 * n
/-- 09 T9.11 -/
def ENG_TLUT_CTRL : Nat := 0x0180C000
/-- 09 R235 -/
def ENG_TLUT_DATA : Nat := 0x0180C004
/-- 10 T10.7 -/
def COMP_H_CTRL (h : Nat) : Nat := 0x01C00000 + 0x40 * h
/-- 10 T10.8 -/
def COMP_H_BG (h : Nat) : Nat := 0x01C00004 + 0x40 * h
/-- 10 T10.9 -/
def COMP_H_STAT (h : Nat) : Nat := 0x01C00008 + 0x40 * h
/-- 10 R271 -/
def COMP_H_TILE_LATE (h : Nat) : Nat := 0x01C0000C + 0x40 * h
/-- 10 R257 -/
def COMP_H_CUT_FC_LO (h : Nat) : Nat := 0x01C00010 + 0x40 * h
/-- 10 R257 -/
def COMP_H_CUT_FC_HI (h : Nat) : Nat := 0x01C00014 + 0x40 * h
/-- 10 T10.10 -/
def COMP_LUT_CTRL : Nat := 0x01C02000
/-- 10 R267 -/
def COMP_LUT_DATA : Nat := 0x01C02004
/-- 10 R260 T10.3 -/
def COMP_L_W0 (l : Nat) : Nat := 0x01C10000 + 0x40 * l
/-- 10 R260 T10.3 (words 1-7) -/
def COMP_L_W (l w : Nat) : Nat := 0x01C10004 + 0x40 * l + 4 * w
/-- 10 R260 -/
def COMP_L_COMMIT (l : Nat) : Nat := 0x01C10020 + 0x40 * l
/-- 10 T10.11 -/
def COMP_L_STAT (l : Nat) : Nat := 0x01C10024 + 0x40 * l
/-- 10 R258 -/
def COMP_L_LATE (l : Nat) : Nat := 0x01C10028 + 0x40 * l
/-- 10 R275 -/
def COMP_L_SURF_ERR (l : Nat) : Nat := 0x01C1002C + 0x40 * l
/-- 11 R294 T11.4 -/
def COMP_SCL_CTRL : Nat := 0x01C40000
/-- 11 R294 -/
def COMP_SCL_DATA : Nat := 0x01C40004
/-- 11 R291 -/
def COMP_SCL_L_CTRL (l : Nat) : Nat := 0x01C41000 + 0x10 * l
/-- 11 R289 T11.5 -/
def COMP_SCL_L_STAT (l : Nat) : Nat := 0x01C41004 + 0x10 * l
/-- 11 R290 -/
def COMP_SCL_L_SHORT (l : Nat) : Nat := 0x01C41008 + 0x10 * l
/-- 11 R293 T11.6 -/
def COMP_SCL_S_CTRL (n : Nat) : Nat := 0x01C46000 + 0x10 * n
/-- 11 R289 T11.5 -/
def COMP_SCL_S_STAT (n : Nat) : Nat := 0x01C46004 + 0x10 * n
/-- 11 R290 -/
def COMP_SCL_S_SHORT (n : Nat) : Nat := 0x01C46008 + 0x10 * n
/-- 12 R305 -/
def SAP_CTRL (n : Nat) : Nat := 0x02600000 + 0x100 * n
/-- 12 T12.9 -/
def SAP_STAT (n : Nat) : Nat := 0x02600004 + 0x100 * n
/-- 12 R304 -/
def SAP_RX_MASK_SH (n : Nat) : Nat := 0x02600008 + 0x100 * n
/-- 12 R304 -/
def SAP_TX_MASK_SH (n : Nat) : Nat := 0x0260000C + 0x100 * n
/-- 12 R304 -/
def SAP_RX_MASK (n : Nat) : Nat := 0x02600010 + 0x100 * n
/-- 12 R304 -/
def SAP_TX_MASK (n : Nat) : Nat := 0x02600014 + 0x100 * n
/-- 12 R304 -/
def SAP_MASK_COMMIT (n : Nat) : Nat := 0x02600018 + 0x100 * n
/-- 12 R299 -/
def SAP_FRAME_LEN (n : Nat) : Nat := 0x0260001C + 0x100 * n
/-- 12 R309 -/
def SAP_START_SC_LO (n : Nat) : Nat := 0x02600020 + 0x100 * n
/-- 12 R309 -/
def SAP_START_SC_HI (n : Nat) : Nat := 0x02600024 + 0x100 * n
/-- 12 R309 -/
def SAP_RX_UNDERRUN (n : Nat) : Nat := 0x02600028 + 0x100 * n
/-- 12 R309 -/
def SAP_RX_OVERRUN (n : Nat) : Nat := 0x0260002C + 0x100 * n
/-- 12 R309 -/
def SAP_TX_UNDERRUN (n : Nat) : Nat := 0x02600030 + 0x100 * n
/-- 12 R309 -/
def SAP_TX_OVERRUN (n : Nat) : Nat := 0x02600034 + 0x100 * n
/-- 12 R299 -/
def SAP_FRAME_ERR (n : Nat) : Nat := 0x02600038 + 0x100 * n
/-- 12 R305 -/
def SAP_CLK_LOSS (n : Nat) : Nat := 0x0260003C + 0x100 * n
/-- 12 R306 T12.10 -/
def SAP_GRP_CTRL (g : Nat) : Nat := 0x02604000 + 0x20 * g
/-- 12 T12.11 -/
def SAP_GRP_STAT (g : Nat) : Nat := 0x02604004 + 0x20 * g
/-- 12 R308 -/
def SAP_GRP_AT_LO (g : Nat) : Nat := 0x02604008 + 0x20 * g
/-- 12 R308 -/
def SAP_GRP_AT_HI (g : Nat) : Nat := 0x0260400C + 0x20 * g
/-- 12 R307 -/
def SAP_GRP_START_SC_LO (g : Nat) : Nat := 0x02604010 + 0x20 * g
/-- 12 R307 -/
def SAP_GRP_START_SC_HI (g : Nat) : Nat := 0x02604014 + 0x20 * g
/-- 12 R311 -/
def ASRC_STAT (b : Nat) : Nat := 0x02608000 + 0x10 * b
/-- 12 R311 -/
def ASRC_RATIO (b : Nat) : Nat := 0x02608004 + 0x10 * b
/-- 12 R311 -/
def ASRC_UNLOCKS (b : Nat) : Nat := 0x02608008 + 0x10 * b
/-- 12 R315 T12.12 -/
def SAP_NA_CH (a : Nat) : Nat := 0x02700000 + 4 * a
/-- 13 R329 -/
def AUD_TAKE_CTRL : Nat := 0x02200000
/-- 13 R329 -/
def AUD_TAKE_PI : Nat := 0x02200004
/-- 13 R329 -/
def AUD_TAKE_CI : Nat := 0x02200008
/-- 13 T13.9 -/
def AUD_TAKE_STAT : Nat := 0x0220000C
/-- 13 R330 -/
def AUD_TAKE_REFUSE_COUNT : Nat := 0x02200010
/-- 13 R334 -/
def AUD_DONE_TAG : Nat := 0x02200014
/-- 13 R334 -/
def AUD_DONE_SC_LO : Nat := 0x02200018
/-- 13 R334 -/
def AUD_DONE_SC_HI : Nat := 0x0220001C
/-- 13 R331 -/
def AUD_XF_ACTIVE : Nat := 0x02200020
/-- 13 R331 -/
def AUD_AT_LATE : Nat := 0x02200024
/-- 13 R319 -/
def AUD_SC_LO : Nat := 0x02200028
/-- 13 R319 -/
def AUD_SC_HI : Nat := 0x0220002C
/-- 13 R343 -/
def AUD_CS (k : Nat) : Nat := 0x02200030 + 4 * k
/-- 13 R326 -/
def AUD_DEEMB_SLIP : Nat := 0x02200048
/-- 13 R328 R329 -/
def AUD_TAKE_RING (w : Nat) : Nat := 0x02210000 + 4 * w
/-- 13 T13.10 -/
def AUD_B_STAT (b : Nat) : Nat := 0x02240000 + 4 * b
/-- 13 R335 T13.7 (even w W0: 15 EN, 12:0 FEED; odd w W1: 23:0 GAIN) -/
def AUD_MIX_W (b w : Nat) : Nat := 0x02280000 + 0x200 * b + 4 * w
/-- 13 R336 -/
def AUD_BUS_STAT (b : Nat) : Nat := 0x02380000 + 4 * b
/-- 13 T13.11 -/
def AUD_MTR_CFG (m : Nat) : Nat := 0x023A0000 + 0x20 * m
/-- 13 R339 -/
def AUD_MTR_PEAK (m : Nat) : Nat := 0x023A0004 + 0x20 * m
/-- 13 R340 -/
def AUD_MTR_RMS (m : Nat) : Nat := 0x023A0008 + 0x20 * m
/-- 13 R341 -/
def AUD_MTR_HOLD (m : Nat) : Nat := 0x023A000C + 0x20 * m
/-- 13 R341 -/
def AUD_MTR_DECAY (m : Nat) : Nat := 0x023A0010 + 0x20 * m
/-- 13 R337 -/
def AUD_TONE_CTRL (t : Nat) : Nat := 0x023E0000 + 0x10 * t
/-- 13 R337 -/
def AUD_TONE_FREQ (t : Nat) : Nat := 0x023E0004 + 0x10 * t
/-- 13 R337 -/
def AUD_TONE_LEVEL (t : Nat) : Nat := 0x023E0008 + 0x10 * t
/-- 14 R360 -/
def PLANE_CTRL (n : Nat) : Nat := 0x00800000 + 0x1000 * n
/-- 14 T14.11 -/
def PLANE_STAT (n : Nat) : Nat := 0x00800004 + 0x1000 * n
/-- 14 R355 -/
def PLANE_LOCKOUT (n : Nat) : Nat := 0x00800008 + 0x1000 * n
/-- 14 T14.12 -/
def PLANE_EVENT (n : Nat) : Nat := 0x0080000C + 0x1000 * n
/-- 14 R4 -/
def PLANE_FC_LO (n : Nat) : Nat := 0x00800010 + 0x1000 * n
/-- 14 R4 -/
def PLANE_FC_HI (n : Nat) : Nat := 0x00800014 + 0x1000 * n
/-- 14 R362 -/
def PLANE_RESID (n : Nat) : Nat := 0x00800018 + 0x1000 * n
/-- 14 Registers -/
def PLANE_FREQ (n : Nat) : Nat := 0x0080001C + 0x1000 * n
/-- 14 R365 -/
def PLANE_HOLD_FREQ (n : Nat) : Nat := 0x00800020 + 0x1000 * n
/-- 14 R365 -/
def PLANE_HOLD_SEC (n : Nat) : Nat := 0x00800024 + 0x1000 * n
/-- 14 R362 -/
def PLANE_SWITCHES (n : Nat) : Nat := 0x00800028 + 0x1000 * n
/-- 14 R363 -/
def PLANE_ABANDONS (n : Nat) : Nat := 0x0080002C + 0x1000 * n
/-- 14 R353 -/
def PLANE_REJECTS (n : Nat) : Nat := 0x00800030 + 0x1000 * n
/-- 14 T14.13 -/
def PLANE_ENT_STAT (n e : Nat) : Nat := 0x00800100 + 0x1000 * n + 0x10 * e
/-- 14 R351 -/
def PLANE_ENT_FREQ (n e : Nat) : Nat := 0x00800104 + 0x1000 * n + 0x10 * e
/-- 14 R345 -/
def PLANE_ENT_PHASE (n e : Nat) : Nat := 0x00800108 + 0x1000 * n + 0x10 * e
/-- 14 R354 R359 -/
def PLANE_GSTAT : Nat := 0x00802000
/-- 15 T15.5 -/
def TIME_TK_CTRL (k : Nat) : Nat := 0x00A00000 + 0x100 * k
/-- 15 T15.6 -/
def TIME_TK_STAT (k : Nat) : Nat := 0x00A00004 + 0x100 * k
/-- 15 R372 -/
def TIME_TK_INCR_LO (k : Nat) : Nat := 0x00A00008 + 0x100 * k
/-- 15 R372 -/
def TIME_TK_INCR_HI (k : Nat) : Nat := 0x00A0000C + 0x100 * k
/-- 15 R373 -/
def TIME_TK_SET_LO (k : Nat) : Nat := 0x00A00010 + 0x100 * k
/-- 15 R373 -/
def TIME_TK_SET_HI (k : Nat) : Nat := 0x00A00014 + 0x100 * k
/-- 15 R373 -/
def TIME_TK_ADJ_LO (k : Nat) : Nat := 0x00A00018 + 0x100 * k
/-- 15 R373 -/
def TIME_TK_ADJ_HI (k : Nat) : Nat := 0x00A0001C + 0x100 * k
/-- 15 R371 -/
def TIME_TK_NS_LO (k : Nat) : Nat := 0x00A00020 + 0x100 * k
/-- 15 R371 -/
def TIME_TK_NS_HI (k : Nat) : Nat := 0x00A00024 + 0x100 * k
/-- 15 R371 -/
def TIME_TK_FRAC (k : Nat) : Nat := 0x00A00028 + 0x100 * k
/-- 15 R375 -/
def TIME_TK_SEC_LO (k : Nat) : Nat := 0x00A0002C + 0x100 * k
/-- 15 R375 -/
def TIME_TK_SEC_HI (k : Nat) : Nat := 0x00A00030 + 0x100 * k
/-- 15 R375 -/
def TIME_TK_NSEC (k : Nat) : Nat := 0x00A00034 + 0x100 * k
/-- 15 R376 -/
def TIME_TK_UNLOCKS (k : Nat) : Nat := 0x00A00038 + 0x100 * k
/-- 15 R381 T15.7 -/
def TIME_OT_CTRL : Nat := 0x00A00200
/-- 15 R380 -/
def TIME_OT_STAT : Nat := 0x00A00204
/-- 15 R380 -/
def TIME_OT_NS_LO : Nat := 0x00A00208
/-- 15 R380 -/
def TIME_OT_NS_HI : Nat := 0x00A0020C
/-- 15 R382 -/
def TIME_OT_RESID_LO : Nat := 0x00A00210
/-- 15 R382 -/
def TIME_OT_RESID_HI : Nat := 0x00A00214
/-- 15 R382 -/
def TIME_OT_SWITCHES : Nat := 0x00A00218
/-- 15 R387 -/
def TIME_SNAP : Nat := 0x00A00300
/-- 15 R387 (A_LO A_HI B_LO B_HI OT_LO OT_HI) -/
def TIME_SNAP_W (w : Nat) : Nat := 0x00A00308 + 4 * w
/-- 15 T15.8 -/
def TIME_TPO_CTRL (n : Nat) : Nat := 0x00A00400 + 0x20 * n
/-- 15 R384 -/
def TIME_TPO_STAT (n : Nat) : Nat := 0x00A00404 + 0x20 * n
/-- 15 R384 -/
def TIME_TPO_START_LO (n : Nat) : Nat := 0x00A00408 + 0x20 * n
/-- 15 R384 -/
def TIME_TPO_START_HI (n : Nat) : Nat := 0x00A0040C + 0x20 * n
/-- 15 R384 -/
def TIME_TPO_PERIOD (n : Nat) : Nat := 0x00A00410 + 0x20 * n
/-- 15 R384 -/
def TIME_TPO_WIDTH (n : Nat) : Nat := 0x00A00414 + 0x20 * n
/-- 15 R384 -/
def TIME_TPO_FIRED (n : Nat) : Nat := 0x00A00418 + 0x20 * n
/-- 15 R385 -/
def TIME_TPO_MISSED (n : Nat) : Nat := 0x00A0041C + 0x20 * n
/-- 15 R386 -/
def TIME_TCI_CTRL (n : Nat) : Nat := 0x00A00600 + 0x20 * n
/-- 15 R386 -/
def TIME_TCI_STAT (n : Nat) : Nat := 0x00A00604 + 0x20 * n
/-- 15 R386 T15.3 -/
def TIME_TCI_TS (n w : Nat) : Nat := 0x00A00608 + 0x20 * n + 4 * w
/-- 15 R386 -/
def TIME_TCI_DROP (n : Nat) : Nat := 0x00A00618 + 0x20 * n
/-- 16 R390 T16.8 -/
def PAIR_CTRL : Nat := 0x02800000
/-- 16 T16.9 -/
def PAIR_STAT : Nat := 0x02800004
/-- 16 R403 -/
def PAIR_LEAD_EXTRA : Nat := 0x02800008
/-- 16 R398 -/
def PAIR_MIRROR_LAT : Nat := 0x0280000C
/-- 16 R401 -/
def PAIR_SKEW (n : Nat) : Nat := 0x02800010 + 4 * n
/-- 16 R401 -/
def PAIR_SKEW_LIM : Nat := 0x02800018
/-- 16 R401 -/
def PAIR_TK_SKEW (k : Nat) : Nat := 0x0280001C + 4 * k
/-- 16 R401 -/
def PAIR_TK_SKEW_LIM : Nat := 0x02800024
/-- 16 R401 (0LO 0HI 1LO 1HI) -/
def PAIR_FC_OFS (w : Nat) : Nat := 0x02800028 + 4 * w
/-- 16 R401 -/
def PAIR_SC_OFS (w : Nat) : Nat := 0x02800038 + 4 * w
/-- 16 R409 -/
def PAIR_SIG_LAST : Nat := 0x02800040
/-- 16 R410 -/
def PAIR_MARGIN_LIM : Nat := 0x02800044
/-- 16 Registers -/
def PAIR_ROLE_CHANGES : Nat := 0x02800080
/-- 16 R399 -/
def PAIR_LINK_DOWN : Nat := 0x02800084
/-- 16 R398 -/
def PAIR_MIRROR_RETRY : Nat := 0x02800088
/-- 16 R404 -/
def PAIR_ACK_MISS : Nat := 0x0280008C
/-- 16 R405 -/
def PAIR_TAKE_LATE : Nat := 0x02800090
/-- 16 R403 -/
def PAIR_AT_MOVED : Nat := 0x02800094
/-- 16 R409 -/
def PAIR_SIG_DIFF : Nat := 0x02800098
/-- 16 R409 -/
def PAIR_SIG_MISSING : Nat := 0x0280009C
/-- 16 R407 -/
def PAIR_HOST_IGN : Nat := 0x028000A0
/-- 16 R409 -/
def PAIR_SIG_EXCL (k : Nat) : Nat := 0x02800100 + 4 * k
/-- 16 R410 -/
def PAIR_MARGIN (i : Nat) : Nat := 0x02801000 + 4 * i
/-- 17 R422 -/
def FAULT_SUMMARY_LO : Nat := 0x00100000
/-- 17 R422 -/
def FAULT_SUMMARY_HI : Nat := 0x00100004
/-- 17 Registers -/
def FAULT_ANY : Nat := 0x00100008
/-- 17 Registers -/
def FAULT_LAST : Nat := 0x0010000C
/-- 17 Registers -/
def FAULT_RAISES : Nat := 0x00100010
/-- 17 R421 -/
def FAULT_STAT (g : Nat) : Nat := 0x00100100 + 4 * g
/-- 17 Registers -/
def FAULT_VEC (g : Nat) : Nat := 0x00100200 + 4 * g
/-- 17 R420 R422 -/
def FAULT_SEV (s : Nat) : Nat := 0x00101000 + 4 * s
/-- 17 R416 -/
def FAULT_CNT (s : Nat) : Nat := 0x00103000 + 4 * s
/-- 17 Registers -/
def PAT_STAT : Nat := 0x02A00000
/-- 17 Registers -/
def PAT_SEQ_LO : Nat := 0x02A00008
/-- 17 Registers -/
def PAT_SEQ_HI : Nat := 0x02A0000C
/-- 17 R427 -/
def PAT_TOKENS : Nat := 0x02A00010
/-- 17 R427 -/
def PAT_DROPPED : Nat := 0x02A00014
/-- 17 Registers -/
def PAT_MRAM_CORR : Nat := 0x02A00018
/-- 17 Registers -/
def PAT_MRAM_UNCORR : Nat := 0x02A0001C
/-- 17 Registers -/
def PAT_KEEP_FLUSH : Nat := 0x02A00020
/-- 17 Registers -/
def PAT_KEEP_REFUSED : Nat := 0x02A00024
/-- 17 Registers -/
def PAT_KEEP_BACKLOG : Nat := 0x02A00028
/-- 17 R438 -/
def PAT_KEEP_CTRL : Nat := 0x02A0002C
/-- 17 R429 -/
def PAT_HOST_EVT : Nat := 0x02A00040
/-- 17 R429 -/
def PAT_HOST_DATA (n : Nat) : Nat := 0x02A00044 + 4 * n
/-- 18 R444 -/
def IMG_FL_CTRL : Nat := 0x02C00100
/-- 18 R444 -/
def IMG_FL_ADDR : Nat := 0x02C00104
/-- 18 R444 -/
def IMG_FL_STAT : Nat := 0x02C00108
/-- 18 R445 R446 R455 -/
def IMG_UPD_CTRL : Nat := 0x02C00110
/-- 18 Registers -/
def IMG_UPD_STAT : Nat := 0x02C00114
/-- 18 Registers -/
def IMG_UPD_WIN_S : Nat := 0x02C00118
/-- 18 Registers -/
def IMG_UPD_PAUSE_US : Nat := 0x02C0011C
/-- 18 Registers (MRAM) -/
def IMG_BOOT_PTR : Nat := 0x02C00120
/-- 18 Registers (MRAM) -/
def IMG_ARB_COUNT : Nat := 0x02C00124
/-- 18 Registers -/
def IMG_MAQ_ARB : Nat := 0x02C00128
/-- 18 R451 -/
def IMG_CARRY_REFUSED : Nat := 0x02C0012C
/-- 18 R460 -/
def IMG_SET_CTRL : Nat := 0x02C00180
/-- 18 R460 -/
def IMG_SET_FMT : Nat := 0x02C00184
/-- 18 R460 -/
def IMG_SET_LEN : Nat := 0x02C00188
/-- 18 R460 -/
def IMG_SET_STAT : Nat := 0x02C0018C
/-- 18 R460 -/
def IMG_SET_DATA : Nat := 0x02C00190
/-- 18 R460 -/
def IMG_SET_FREE : Nat := 0x02C00194
/-- 18 R444 -/
def IMG_FL_BUF (n : Nat) : Nat := 0x02C00200 + 4 * n
/-- 19 Registers -/
def FABRIC_STAT : Nat := 0x02E00000
/-- 19 R483 -/
def FABRIC_HANG_INFO : Nat := 0x02E00004
/-- 19 R483 -/
def FABRIC_HANG_ADDR : Nat := 0x02E00008
/-- 19 R485 -/
def FABRIC_MRESET : Nat := 0x02E0000C
/-- 19 R476 -/
def FABRIC_OUTST (m : Nat) : Nat := 0x02E00010 + 4 * m
/-- 19 R476 -/
def FABRIC_MATRIX_OUTST : Nat := 0x02E00040
/-- 19 Registers -/
def FABRIC_HOLD_ORDER : Nat := 0x02E00044
/-- 19 Registers -/
def FABRIC_HOLD_DEADLOCK : Nat := 0x02E00048
/-- 19 Registers -/
def FABRIC_BADSIZE : Nat := 0x02E0004C
/-- 19 Registers -/
def FABRIC_HANGS : Nat := 0x02E00050
/-- 19 Registers -/
def FABRIC_PCIE_STAT : Nat := 0x02E00060
/-- 19 Registers -/
def FABRIC_PCIE_RESETS : Nat := 0x02E00064
/-- 20 Registers -/
def TEST_STAT : Nat := 0x03000000
/-- 20 R493 -/
def TEST_INJ_TARGET : Nat := 0x03000004
/-- 20 R493 R495 -/
def TEST_INJ_CTRL : Nat := 0x03000008
/-- 20 Registers -/
def TEST_INJ_DONE : Nat := 0x0300000C
/-- 20 Registers -/
def TEST_IGNORED : Nat := 0x03000010
/-- 20 R496 -/
def TEST_PERT_QDELAY : Nat := 0x03000020
/-- 20 R496 -/
def TEST_PERT_ENG : Nat := 0x03000024
/-- 20 R496 -/
def TEST_PERT_MAC : Nat := 0x03000028
/-- 20 R496 -/
def TEST_PERT_FAB : Nat := 0x0300002C
/-- 20 R496 -/
def TEST_PERT_MON : Nat := 0x03000030
/-- 21 Registers -/
def PINCTL_SSC : Nat := 0x03100000
/-- 21 Registers -/
def PINCTL_SLEW : Nat := 0x03100004
/-- 21 Registers -/
def PINCTL_FILT (i : Nat) : Nat := 0x03100010 + 4 * i
/-- 21 Registers -/
def PINCTL_IN_LVL : Nat := 0x03100040
/-- 19 R470 -/
def MSIX_ADDR_LO (v : Nat) : Nat := 0x03F00000 + 16 * v
/-- 19 R470 -/
def MSIX_ADDR_HI (v : Nat) : Nat := 0x03F00004 + 16 * v
/-- 19 R470 -/
def MSIX_DATA (v : Nat) : Nat := 0x03F00008 + 16 * v
/-- 19 R470 R471 -/
def MSIX_CTRL (v : Nat) : Nat := 0x03F0000C + 16 * v
/-- 19 R470 R471 -/
def MSIX_PBA (w : Nat) : Nat := 0x03F01000 + 4 * w
end Reg

/-- Registers of the GLOBAL block. -/
def rowsGLOBAL0 : List RegRow := [
  ⟨"GLOBAL_ID", 0x00000000, [], [Fld.GLOBAL_ID_ID], false⟩,
  ⟨"GLOBAL_STEP", 0x00000004, [], [Fld.GLOBAL_STEP_LETTER, Fld.GLOBAL_STEP_DIGIT], false⟩,
  ⟨"GLOBAL_BRIDGE_STAT", 0x00000010, [], [Fld.GLOBAL_BRIDGE_STAT_FAILED, Fld.GLOBAL_BRIDGE_STAT_S2N_UP, Fld.GLOBAL_BRIDGE_STAT_N2S_UP], false⟩,
  ⟨"GLOBAL_BRIDGE_RETRY", 0x00000014, [], [Fld.GLOBAL_BRIDGE_RETRY_COUNT], false⟩,
  ⟨"GLOBAL_CLK_LOCK", 0x00000018, [], [Fld.GLOBAL_CLK_LOCK_MIRROR, Fld.GLOBAL_CLK_LOCK_TIME, Fld.GLOBAL_CLK_LOCK_AUD, Fld.GLOBAL_CLK_LOCK_PLANE1, Fld.GLOBAL_CLK_LOCK_PLANE0, Fld.GLOBAL_CLK_LOCK_PCIE, Fld.GLOBAL_CLK_LOCK_HBM, Fld.GLOBAL_CLK_LOCK_ENG, Fld.GLOBAL_CLK_LOCK_CTL], false⟩,
  ⟨"GLOBAL_MODE", 0x00000020, [], [Fld.GLOBAL_MODE_HEAT, Fld.GLOBAL_MODE_SLOT, Fld.GLOBAL_MODE_NOIMG, Fld.GLOBAL_MODE_CASTFORM, Fld.GLOBAL_MODE_BOOT_SRC, Fld.GLOBAL_MODE_MODE], false⟩,
  ⟨"GLOBAL_BOOT_STAT", 0x00000024, [], [Fld.GLOBAL_BOOT_STAT_ATTEMPTS, Fld.GLOBAL_BOOT_STAT_FAIL_CODE, Fld.GLOBAL_BOOT_STAT_HEAT_SLOW, Fld.GLOBAL_BOOT_STAT_WAIT_HOST, Fld.GLOBAL_BOOT_STAT_STEP], false⟩,
  ⟨"GLOBAL_RESET_CTRL", 0x00000028, [], [Fld.GLOBAL_RESET_CTRL_KEY, Fld.GLOBAL_RESET_CTRL_SAFE, Fld.GLOBAL_RESET_CTRL_SOFT], false⟩,
  ⟨"GLOBAL_RESET_CAUSE", 0x0000002C, [], [Fld.GLOBAL_RESET_CAUSE_FALLBACK, Fld.GLOBAL_RESET_CAUSE_CAST, Fld.GLOBAL_RESET_CAUSE_SOFT, Fld.GLOBAL_RESET_CAUSE_SUPPLY, Fld.GLOBAL_RESET_CAUSE_PIN, Fld.GLOBAL_RESET_CAUSE_POR], false⟩,
  ⟨"GLOBAL_HOST_BOOT", 0x00000030, [], [Fld.GLOBAL_HOST_BOOT_LEN_4K, Fld.GLOBAL_HOST_BOOT_GO], false⟩,
  ⟨"GLOBAL_TJ", 0x00000034, [], [Fld.GLOBAL_TJ_TJ_MIN, Fld.GLOBAL_TJ_TJ_MAX], false⟩]
def rowsGLOBAL : List RegRow := rowsGLOBAL0

/-- Registers of the IMG block. -/
def rowsIMG0 : List RegRow := [
  ⟨"IMG_ACT_INFO", 0x02C00000, [], [Fld.IMG_ACT_INFO_VALID, Fld.IMG_ACT_INFO_SECT_COUNT, Fld.IMG_ACT_INFO_STEP_CODE, Fld.IMG_ACT_INFO_FORMAT, Fld.IMG_ACT_INFO_PURPOSE], false⟩,
  ⟨"IMG_ACT_ARB", 0x02C00004, [], [Fld.IMG_ACT_ARB_ARB], false⟩,
  ⟨"IMG_ACT_BUILD_LO", 0x02C00008, [], [Fld.IMG_ACT_BUILD_LO_V], true⟩,
  ⟨"IMG_ACT_BUILD_HI", 0x02C0000C, [], [Fld.IMG_ACT_BUILD_HI_V], false⟩,
  ⟨"IMG_ACT_DIGEST", 0x02C00010, [(4, 12)], [Fld.IMG_ACT_DIGEST_V], false⟩,
  ⟨"IMG_ARM_STAT", 0x02C00040, [], [Fld.IMG_ARM_STAT_FAIL_TYPE, Fld.IMG_ARM_STAT_FAIL_REASON, Fld.IMG_ARM_STAT_APPLIED], false⟩,
  ⟨"IMG_ARM_LEN", 0x02C00044, [], [Fld.IMG_ARM_LEN_LEN], false⟩,
  ⟨"IMG_RB_ADDR", 0x02C00050, [], [Fld.IMG_RB_ADDR_SEL, Fld.IMG_RB_ADDR_WORD], false⟩,
  ⟨"IMG_RB_DATA", 0x02C00054, [], [Fld.IMG_RB_DATA_V], false⟩,
  ⟨"IMG_OWN_QUERY", 0x02C00060, [], [Fld.IMG_OWN_QUERY_ID], false⟩,
  ⟨"IMG_OWN_RESULT", 0x02C00064, [], [Fld.IMG_OWN_RESULT_OWNER], false⟩,
  ⟨"IMG_REFUSE_INFO", 0x02C00068, [], [Fld.IMG_REFUSE_INFO_MASTER, Fld.IMG_REFUSE_INFO_REASON, Fld.IMG_REFUSE_INFO_VALID], false⟩,
  ⟨"IMG_REFUSE_RES", 0x02C0006C, [], [Fld.IMG_REFUSE_RES_V], false⟩,
  ⟨"IMG_REFUSE_ADDR", 0x02C00070, [], [Fld.IMG_REFUSE_ADDR_V], false⟩,
  ⟨"IMG_REFUSE_COUNT", 0x02C00074, [], [Fld.IMG_REFUSE_COUNT_COUNT], false⟩,
  ⟨"IMG_FL_CTRL", 0x02C00100, [], [Fld.IMG_FL_CTRL_KEY, Fld.IMG_FL_CTRL_OP], false⟩,
  ⟨"IMG_FL_ADDR", 0x02C00104, [], [Fld.IMG_FL_ADDR_ADDR], false⟩,
  ⟨"IMG_FL_STAT", 0x02C00108, [], [Fld.IMG_FL_STAT_IGNORED, Fld.IMG_FL_STAT_ERR, Fld.IMG_FL_STAT_DONE, Fld.IMG_FL_STAT_BUSY], false⟩,
  ⟨"IMG_UPD_CTRL", 0x02C00110, [], [Fld.IMG_UPD_CTRL_KEY, Fld.IMG_UPD_CTRL_NOCARRY, Fld.IMG_UPD_CTRL_FORCE, Fld.IMG_UPD_CTRL_SLOT, Fld.IMG_UPD_CTRL_OP], false⟩,
  ⟨"IMG_UPD_STAT", 0x02C00114, [], [Fld.IMG_UPD_STAT_FAIL_CODE, Fld.IMG_UPD_STAT_RESULT, Fld.IMG_UPD_STAT_VERIFIED_B, Fld.IMG_UPD_STAT_VERIFIED_A, Fld.IMG_UPD_STAT_STATE], false⟩]
def rowsIMG1 : List RegRow := [
  ⟨"IMG_UPD_WIN_S", 0x02C00118, [], [Fld.IMG_UPD_WIN_S_V], false⟩,
  ⟨"IMG_UPD_PAUSE_US", 0x02C0011C, [], [Fld.IMG_UPD_PAUSE_US_V], false⟩,
  ⟨"IMG_BOOT_PTR", 0x02C00120, [], [Fld.IMG_BOOT_PTR_PTR], false⟩,
  ⟨"IMG_ARB_COUNT", 0x02C00124, [], [Fld.IMG_ARB_COUNT_V], false⟩,
  ⟨"IMG_MAQ_ARB", 0x02C00128, [], [Fld.IMG_MAQ_ARB_V], false⟩,
  ⟨"IMG_CARRY_REFUSED", 0x02C0012C, [], [Fld.IMG_CARRY_REFUSED_COUNT], false⟩,
  ⟨"IMG_SET_CTRL", 0x02C00180, [], [Fld.IMG_SET_CTRL_KEY, Fld.IMG_SET_CTRL_OP], false⟩,
  ⟨"IMG_SET_FMT", 0x02C00184, [], [Fld.IMG_SET_FMT_V], false⟩,
  ⟨"IMG_SET_LEN", 0x02C00188, [], [Fld.IMG_SET_LEN_LEN], false⟩,
  ⟨"IMG_SET_STAT", 0x02C0018C, [], [Fld.IMG_SET_STAT_RESULT, Fld.IMG_SET_STAT_BUSY], false⟩,
  ⟨"IMG_SET_DATA", 0x02C00190, [], [Fld.IMG_SET_DATA_V], false⟩,
  ⟨"IMG_SET_FREE", 0x02C00194, [], [Fld.IMG_SET_FREE_V], false⟩,
  ⟨"IMG_FL_BUF", 0x02C00200, [(4, 64)], [Fld.IMG_FL_BUF_V], false⟩]
def rowsIMG : List RegRow := rowsIMG0 ++ rowsIMG1

/-- Registers of the XP block. -/
def rowsXP0 : List RegRow := [
  ⟨"XP_TAKE_CTRL", 0x00200000, [], [Fld.XP_TAKE_CTRL_DONE_VEC, Fld.XP_TAKE_CTRL_DONE_MSI_EN, Fld.XP_TAKE_CTRL_ABANDON], false⟩,
  ⟨"XP_TAKE_PI", 0x00200004, [], [Fld.XP_TAKE_PI_PI], false⟩,
  ⟨"XP_TAKE_CI", 0x00200008, [], [Fld.XP_TAKE_CI_CI], false⟩,
  ⟨"XP_TAKE_STAT", 0x0020000C, [], [Fld.XP_TAKE_STAT_REF_INDEX, Fld.XP_TAKE_STAT_REF_CODE, Fld.XP_TAKE_STAT_IGNORED, Fld.XP_TAKE_STAT_REFUSED, Fld.XP_TAKE_STAT_OVERRUN], false⟩,
  ⟨"XP_TAKE_REFUSE_COUNT", 0x00200010, [], [Fld.XP_TAKE_REFUSE_COUNT_COUNT], false⟩,
  ⟨"XP_PLANE_EXEC", 0x00200020, [(0x20, 2)], [Fld.XP_PLANE_EXEC_FULL_LAST, Fld.XP_PLANE_EXEC_HELD, Fld.XP_PLANE_EXEC_TAKES_LAST], false⟩,
  ⟨"XP_PLANE_DONE_TAG", 0x00200024, [(0x20, 2)], [Fld.XP_PLANE_DONE_TAG_TAG], false⟩,
  ⟨"XP_PLANE_DONE_FC_LO", 0x00200028, [(0x20, 2)], [Fld.XP_PLANE_DONE_FC_LO_V], true⟩,
  ⟨"XP_PLANE_DONE_FC_HI", 0x0020002C, [(0x20, 2)], [Fld.XP_PLANE_DONE_FC_HI_V], false⟩,
  ⟨"XP_PLANE_AT_LATE", 0x00200030, [(0x20, 2)], [Fld.XP_PLANE_AT_LATE_COUNT], false⟩,
  ⟨"XP_TAKE_RING", 0x00210000, [(4, 16384)], [Fld.XP_TAKE_RING_W], false⟩,
  ⟨"XP_DEST_SRC", 0x00220000, [(16, 4096)], [Fld.XP_DEST_SRC_PEND_VALID, Fld.XP_DEST_SRC_PEND_BLACK, Fld.XP_DEST_SRC_PEND_SRC, Fld.XP_DEST_SRC_CUR_BLACK, Fld.XP_DEST_SRC_CUR_SRC], false⟩,
  ⟨"XP_DEST_STAT", 0x00220004, [(16, 4096)], [Fld.XP_DEST_STAT_SYNC_LOST, Fld.XP_DEST_STAT_SYNC_HOLD, Fld.XP_DEST_STAT_SYNC_ON, Fld.XP_DEST_STAT_OFF_RATE, Fld.XP_DEST_STAT_UNTIMED], false⟩,
  ⟨"XP_DEST_FSYNC", 0x00220008, [(16, 4096)], [Fld.XP_DEST_FSYNC_HOLD_MS, Fld.XP_DEST_FSYNC_LOSS_ACT, Fld.XP_DEST_FSYNC_EN], false⟩,
  ⟨"XP_DEST_FSYNC_STAT", 0x0022000C, [(16, 4096)], [Fld.XP_DEST_FSYNC_STAT_DROPS, Fld.XP_DEST_FSYNC_STAT_REPEATS, Fld.XP_DEST_FSYNC_STAT_NONE, Fld.XP_DEST_FSYNC_STAT_INDEX], false⟩,
  ⟨"XP_SRC_STAT", 0x00230000, [(8, 2048)], [Fld.XP_SRC_STAT_SLIP_LANES, Fld.XP_SRC_STAT_GROUP_SLIP, Fld.XP_SRC_STAT_OFF_RATE, Fld.XP_SRC_STAT_TIMED1, Fld.XP_SRC_STAT_TIMED0, Fld.XP_SRC_STAT_PRESENT], false⟩,
  ⟨"XP_SRC_PHASE", 0x00230004, [(8, 2048)], [Fld.XP_SRC_PHASE_P1, Fld.XP_SRC_PHASE_P0], false⟩,
  ⟨"XP_TPG_CTRL", 0x00238000, [(8, 64)], [Fld.XP_TPG_CTRL_PATTERN], false⟩,
  ⟨"XP_TPG_COLOR", 0x00238004, [(8, 64)], [Fld.XP_TPG_COLOR_Y, Fld.XP_TPG_COLOR_CB, Fld.XP_TPG_COLOR_CR], false⟩]
def rowsXP : List RegRow := rowsXP0

/-- Registers of the VLANE block. -/
def rowsVLANE0 : List RegRow := [
  ⟨"VLANE_RX_STAT", 0x00400000, [(0x100, 512)], [Fld.VLANE_RX_STAT_RATE_DET, Fld.VLANE_RX_STAT_AUD_ASYNC, Fld.VLANE_RX_STAT_PID_VALID, Fld.VLANE_RX_STAT_LEVEL_B, Fld.VLANE_RX_STAT_NOPROC, Fld.VLANE_RX_STAT_STRUCT_MISMATCH, Fld.VLANE_RX_STAT_RATE_MISMATCH, Fld.VLANE_RX_STAT_STATE], false⟩,
  ⟨"VLANE_RX_PID", 0x00400004, [(0x100, 512)], [Fld.VLANE_RX_PID_PID], false⟩,
  ⟨"VLANE_RX_CRC_LINES", 0x00400008, [(0x100, 512)], [Fld.VLANE_RX_CRC_LINES_COUNT], false⟩,
  ⟨"VLANE_RX_CRC_FRAMES", 0x0040000C, [(0x100, 512)], [Fld.VLANE_RX_CRC_FRAMES_COUNT], false⟩,
  ⟨"VLANE_RX_LOCK_LOSS", 0x00400010, [(0x100, 512)], [Fld.VLANE_RX_LOCK_LOSS_COUNT], false⟩,
  ⟨"VLANE_RX_AUD_ERR", 0x00400014, [(0x100, 512)], [Fld.VLANE_RX_AUD_ERR_COUNT], false⟩,
  ⟨"VLANE_ANC_CAP_DROP", 0x00400018, [(0x100, 512)], [Fld.VLANE_ANC_CAP_DROP_COUNT], false⟩,
  ⟨"VLANE_ANC_CAP_FILT", 0x00400020, [(0x100, 512), (8, 4)], [Fld.VLANE_ANC_CAP_FILT_EN, Fld.VLANE_ANC_CAP_FILT_MODE, Fld.VLANE_ANC_CAP_FILT_ALL, Fld.VLANE_ANC_CAP_FILT_SDID_MASK, Fld.VLANE_ANC_CAP_FILT_SDID, Fld.VLANE_ANC_CAP_FILT_DID], false⟩,
  ⟨"VLANE_ANC_CAP_Q", 0x00400024, [(0x100, 512), (8, 4)], [Fld.VLANE_ANC_CAP_Q_Q], false⟩,
  ⟨"VLANE_TX_CTRL", 0x00400040, [(0x100, 512)], [Fld.VLANE_TX_CTRL_AMP, Fld.VLANE_TX_CTRL_PREEMPH, Fld.VLANE_TX_CTRL_PID_MODE, Fld.VLANE_TX_CTRL_EMB, Fld.VLANE_TX_CTRL_EN], false⟩,
  ⟨"VLANE_TX_PID", 0x00400044, [(0x100, 512)], [Fld.VLANE_TX_PID_PID], false⟩,
  ⟨"VLANE_TX_STAT", 0x00400048, [(0x100, 512)], [Fld.VLANE_TX_STAT_IDLE], false⟩,
  ⟨"VLANE_ANC_INS_NOROOM", 0x0040004C, [(0x100, 512)], [Fld.VLANE_ANC_INS_NOROOM_COUNT], false⟩,
  ⟨"VLANE_ANC_INS_BADREC", 0x00400050, [(0x100, 512)], [Fld.VLANE_ANC_INS_BADREC_COUNT], false⟩,
  ⟨"VLANE_ANC_INS_CTRL", 0x00400060, [(0x100, 512), (8, 8)], [Fld.VLANE_ANC_INS_CTRL_EN, Fld.VLANE_ANC_INS_CTRL_REPEAT], false⟩,
  ⟨"VLANE_ANC_INS_Q", 0x00400064, [(0x100, 512), (8, 8)], [Fld.VLANE_ANC_INS_Q_Q], false⟩,
  ⟨"VLANE_DP_CTRL", 0x00420000, [(0x40, 4)], [Fld.VLANE_DP_CTRL_RETRAIN, Fld.VLANE_DP_CTRL_EN], false⟩,
  ⟨"VLANE_DP_STAT", 0x00420004, [(0x40, 4)], [Fld.VLANE_DP_STAT_BPC, Fld.VLANE_DP_STAT_RATE, Fld.VLANE_DP_STAT_HPD, Fld.VLANE_DP_STAT_NOVIDEO, Fld.VLANE_DP_STAT_FAIL_REASON, Fld.VLANE_DP_STAT_STATE], false⟩,
  ⟨"VLANE_DP_AUX_CMD", 0x00420008, [(0x40, 4)], [Fld.VLANE_DP_AUX_CMD_GO, Fld.VLANE_DP_AUX_CMD_OP, Fld.VLANE_DP_AUX_CMD_LEN1, Fld.VLANE_DP_AUX_CMD_ADDR], false⟩,
  ⟨"VLANE_DP_AUX_STAT", 0x0042000C, [(0x40, 4)], [Fld.VLANE_DP_AUX_STAT_REPLY, Fld.VLANE_DP_AUX_STAT_DONE, Fld.VLANE_DP_AUX_STAT_BUSY], false⟩]
def rowsVLANE1 : List RegRow := [
  ⟨"VLANE_DP_AUX_DATA", 0x00420010, [(0x40, 4), (4, 4)], [Fld.VLANE_DP_AUX_DATA_D], false⟩,
  ⟨"VLANE_DP_RETRAINS", 0x00420020, [(0x40, 4)], [Fld.VLANE_DP_RETRAINS_COUNT], false⟩]
def rowsVLANE : List RegRow := rowsVLANE0 ++ rowsVLANE1

/-- Registers of the MAC block. -/
def rowsMAC0 : List RegRow := [
  ⟨"MAC_CTRL", 0x00C00000, [(0x1000, 64)], [Fld.MAC_CTRL_PROMISC, Fld.MAC_CTRL_PAUSE_EN, Fld.MAC_CTRL_EN], false⟩,
  ⟨"MAC_STAT", 0x00C00004, [(0x1000, 64)], [Fld.MAC_STAT_SPEED, Fld.MAC_STAT_PAUSED, Fld.MAC_STAT_RF, Fld.MAC_STAT_LF, Fld.MAC_STAT_STATE], false⟩,
  ⟨"MAC_ADDR_LO", 0x00C00008, [(0x1000, 64)], [Fld.MAC_ADDR_LO_V], true⟩,
  ⟨"MAC_ADDR_HI", 0x00C0000C, [(0x1000, 64)], [Fld.MAC_ADDR_HI_V], false⟩,
  ⟨"MAC_TXQ_MAP", 0x00C00010, [(0x1000, 64)], [Fld.MAC_TXQ_MAP_HOST, Fld.MAC_TXQ_MAP_ANC, Fld.MAC_TXQ_MAP_VIDEO, Fld.MAC_TXQ_MAP_AUDIO, Fld.MAC_TXQ_MAP_PTP], false⟩,
  ⟨"MAC_EXC_Q_PTP", 0x00C00014, [(0x1000, 64)], [Fld.MAC_EXC_Q_PTP_EN, Fld.MAC_EXC_Q_PTP_Q], false⟩,
  ⟨"MAC_EXC_Q_GEN", 0x00C00018, [(0x1000, 64)], [Fld.MAC_EXC_Q_GEN_EN, Fld.MAC_EXC_Q_GEN_Q], false⟩,
  ⟨"MAC_INJ_Q", 0x00C0001C, [(0x1000, 64)], [Fld.MAC_INJ_Q_EN, Fld.MAC_INJ_Q_Q], false⟩,
  ⟨"MAC_TSC_Q", 0x00C00020, [(0x1000, 64)], [Fld.MAC_TSC_Q_EN, Fld.MAC_TSC_Q_Q], false⟩,
  ⟨"MAC_TS_RX_ADJ", 0x00C00024, [(0x1000, 64)], [Fld.MAC_TS_RX_ADJ_ADJ], false⟩,
  ⟨"MAC_TS_TX_ADJ", 0x00C00028, [(0x1000, 64)], [Fld.MAC_TS_TX_ADJ_ADJ], false⟩,
  ⟨"MAC_PAUSE_STAT", 0x00C0002C, [(0x1000, 64)], [Fld.MAC_PAUSE_STAT_PAUSED, Fld.MAC_PAUSE_STAT_REMAIN], false⟩,
  ⟨"MAC_LANE_TXEQ", 0x00C00040, [(0x4000, 16), (4, 4)], [Fld.MAC_LANE_TXEQ_AMP, Fld.MAC_LANE_TXEQ_POST, Fld.MAC_LANE_TXEQ_PRE], false⟩,
  ⟨"MAC_RX_FRAMES_LO", 0x00C00100, [(0x1000, 64)], [Fld.MAC_RX_FRAMES_LO_V], true⟩,
  ⟨"MAC_RX_FRAMES_HI", 0x00C00104, [(0x1000, 64)], [Fld.MAC_RX_FRAMES_HI_V], false⟩,
  ⟨"MAC_RX_BYTES_LO", 0x00C00108, [(0x1000, 64)], [Fld.MAC_RX_BYTES_LO_V], true⟩,
  ⟨"MAC_RX_BYTES_HI", 0x00C0010C, [(0x1000, 64)], [Fld.MAC_RX_BYTES_HI_V], false⟩,
  ⟨"MAC_TX_FRAMES_LO", 0x00C00110, [(0x1000, 64)], [Fld.MAC_TX_FRAMES_LO_V], true⟩,
  ⟨"MAC_TX_FRAMES_HI", 0x00C00114, [(0x1000, 64)], [Fld.MAC_TX_FRAMES_HI_V], false⟩,
  ⟨"MAC_TX_BYTES_LO", 0x00C00118, [(0x1000, 64)], [Fld.MAC_TX_BYTES_LO_V], true⟩]
def rowsMAC1 : List RegRow := [
  ⟨"MAC_TX_BYTES_HI", 0x00C0011C, [(0x1000, 64)], [Fld.MAC_TX_BYTES_HI_V], false⟩,
  ⟨"MAC_RX_FCS_ERR", 0x00C00120, [(0x1000, 64)], [Fld.MAC_RX_FCS_ERR_COUNT], false⟩,
  ⟨"MAC_RX_OVERFLOW", 0x00C00124, [(0x1000, 64)], [Fld.MAC_RX_OVERFLOW_COUNT], false⟩,
  ⟨"MAC_RX_RUNT", 0x00C00128, [(0x1000, 64)], [Fld.MAC_RX_RUNT_COUNT], false⟩,
  ⟨"MAC_RX_OVERSIZE", 0x00C0012C, [(0x1000, 64)], [Fld.MAC_RX_OVERSIZE_COUNT], false⟩,
  ⟨"MAC_RX_DA_DROP", 0x00C00130, [(0x1000, 64)], [Fld.MAC_RX_DA_DROP_COUNT], false⟩,
  ⟨"MAC_RX_EXC_DROP", 0x00C00134, [(0x1000, 64)], [Fld.MAC_RX_EXC_DROP_COUNT], false⟩,
  ⟨"MAC_RX_PAUSE", 0x00C00138, [(0x1000, 64)], [Fld.MAC_RX_PAUSE_COUNT], false⟩,
  ⟨"MAC_RX_CTRL_OTHER", 0x00C0013C, [(0x1000, 64)], [Fld.MAC_RX_CTRL_OTHER_COUNT], false⟩,
  ⟨"MAC_TX_DISCARD", 0x00C00140, [(0x1000, 64)], [Fld.MAC_TX_DISCARD_COUNT], false⟩,
  ⟨"MAC_FEC_CORR", 0x00C00144, [(0x1000, 64)], [Fld.MAC_FEC_CORR_COUNT], false⟩,
  ⟨"MAC_FEC_UNCORR", 0x00C00148, [(0x1000, 64)], [Fld.MAC_FEC_UNCORR_COUNT], false⟩,
  ⟨"MAC_LINK_DOWN", 0x00C0014C, [(0x1000, 64)], [Fld.MAC_LINK_DOWN_COUNT], false⟩,
  ⟨"MAC_INJ_BAD", 0x00C00150, [(0x1000, 64)], [Fld.MAC_INJ_BAD_COUNT], false⟩,
  ⟨"MAC_TS_DROP", 0x00C00154, [(0x1000, 64)], [Fld.MAC_TS_DROP_COUNT], false⟩]
def rowsMAC : List RegRow := rowsMAC0 ++ rowsMAC1

/-- Registers of the FLOW block. -/
def rowsFLOW0 : List RegRow := [
  ⟨"FLOW_VRX_CFG", 0x01010000, [(0x20, 1024)], [Fld.FLOW_VRX_CFG_MERGE, Fld.FLOW_VRX_CFG_TK, Fld.FLOW_VRX_CFG_SAMPLING, Fld.FLOW_VRX_CFG_TRANSPORT], false⟩,
  ⟨"FLOW_VRX_DELAY", 0x01010004, [(0x20, 1024)], [Fld.FLOW_VRX_DELAY_DELAY_NS], false⟩,
  ⟨"FLOW_VRX_STAT", 0x01010008, [(0x20, 1024)], [Fld.FLOW_VRX_STAT_P1_EXCL, Fld.FLOW_VRX_STAT_P0_EXCL, Fld.FLOW_VRX_STAT_UNDERRUN, Fld.FLOW_VRX_STAT_PRESENT], false⟩,
  ⟨"FLOW_VRX_UNDERRUN", 0x0101000C, [(0x20, 1024)], [Fld.FLOW_VRX_UNDERRUN_COUNT], false⟩,
  ⟨"FLOW_VRX_LOST", 0x01010010, [(0x20, 1024)], [Fld.FLOW_VRX_LOST_COUNT], false⟩,
  ⟨"FLOW_VRX_SKEW", 0x01010014, [(0x20, 1024)], [Fld.FLOW_VRX_SKEW_SKEW], false⟩,
  ⟨"FLOW_VTX_CFG", 0x01020000, [(0x20, 1024)], [Fld.FLOW_VTX_CFG_PGROUPS, Fld.FLOW_VTX_CFG_TRO, Fld.FLOW_VTX_CFG_TK, Fld.FLOW_VTX_CFG_SAMPLING, Fld.FLOW_VTX_CFG_TRANSPORT], false⟩,
  ⟨"FLOW_VTX_SSRC", 0x01020004, [(0x20, 1024)], [Fld.FLOW_VTX_SSRC_V], false⟩,
  ⟨"FLOW_VTX_LATE_DROP", 0x01020008, [(0x20, 1024)], [Fld.FLOW_VTX_LATE_DROP_COUNT], false⟩,
  ⟨"FLOW_ARX_CFG", 0x01030000, [(0x10, 4096)], [Fld.FLOW_ARX_CFG_TK, Fld.FLOW_ARX_CFG_POS_BASE, Fld.FLOW_ARX_CFG_CHANNELS, Fld.FLOW_ARX_CFG_MERGE, Fld.FLOW_ARX_CFG_PTIME, Fld.FLOW_ARX_CFG_FORMAT], false⟩,
  ⟨"FLOW_ARX_DELAY", 0x01030004, [(0x10, 4096)], [Fld.FLOW_ARX_DELAY_DELAY_NS], false⟩,
  ⟨"FLOW_ARX_UNDERRUN", 0x01030008, [(0x10, 4096)], [Fld.FLOW_ARX_UNDERRUN_COUNT], false⟩,
  ⟨"FLOW_ATX_CFG", 0x01040000, [(0x10, 4096)], [Fld.FLOW_ATX_CFG_TK, Fld.FLOW_ATX_CFG_POS_BASE, Fld.FLOW_ATX_CFG_CHANNELS, Fld.FLOW_ATX_CFG_MERGE, Fld.FLOW_ATX_CFG_PTIME, Fld.FLOW_ATX_CFG_FORMAT], false⟩,
  ⟨"FLOW_ATX_SSRC", 0x01040004, [(0x10, 4096)], [Fld.FLOW_ATX_SSRC_V], false⟩,
  ⟨"FLOW_ATX_LATE_DROP", 0x01040008, [(0x10, 4096)], [Fld.FLOW_ATX_LATE_DROP_COUNT], false⟩,
  ⟨"FLOW_NRX_CFG", 0x01050000, [(0x10, 1024)], [Fld.FLOW_NRX_CFG_TK, Fld.FLOW_NRX_CFG_Q], false⟩,
  ⟨"FLOW_NRX_DELAY", 0x01050004, [(0x10, 1024)], [Fld.FLOW_NRX_DELAY_DELAY_NS], false⟩,
  ⟨"FLOW_NRX_DROP", 0x01050008, [(0x10, 1024)], [Fld.FLOW_NRX_DROP_COUNT], false⟩,
  ⟨"FLOW_NTX_CFG", 0x01054000, [(0x10, 1024)], [Fld.FLOW_NTX_CFG_REPEAT, Fld.FLOW_NTX_CFG_TK, Fld.FLOW_NTX_CFG_Q], false⟩,
  ⟨"FLOW_NTX_SSRC", 0x01054004, [(0x10, 1024)], [Fld.FLOW_NTX_SSRC_V], false⟩]
def rowsFLOW1 : List RegRow := [
  ⟨"FLOW_NTX_LATE_DROP", 0x01054008, [(0x10, 1024)], [Fld.FLOW_NTX_LATE_DROP_COUNT], false⟩,
  ⟨"FLOW_GRP_DELAY", 0x01060000, [(0x10, 1024)], [Fld.FLOW_GRP_DELAY_DELAY_NS], false⟩,
  ⟨"FLOW_GRP_STAT", 0x01060004, [(0x10, 1024)], [Fld.FLOW_GRP_STAT_SLIP], false⟩,
  ⟨"FLOW_GRP_SLIP_ID", 0x01060008, [(0x10, 1024)], [Fld.FLOW_GRP_SLIP_ID_KIND, Fld.FLOW_GRP_SLIP_ID_FLOW], false⟩,
  ⟨"FLOW_LEG_CTX", 0x01100000, [(32, 65536), (4, 8)], [Fld.FLOW_LEG_CTX_W], false⟩,
  ⟨"FLOW_LEG_PKTS", 0x01300000, [(0x10, 65536)], [Fld.FLOW_LEG_PKTS_COUNT], false⟩,
  ⟨"FLOW_LEG_GAP", 0x01300004, [(0x10, 65536)], [Fld.FLOW_LEG_GAP_COUNT], false⟩,
  ⟨"FLOW_LEG_LATE", 0x01300008, [(0x10, 65536)], [Fld.FLOW_LEG_LATE_COUNT], false⟩,
  ⟨"FLOW_LEG_BAD", 0x0130000C, [(0x10, 65536)], [Fld.FLOW_LEG_BAD_COUNT], false⟩]
def rowsFLOW : List RegRow := rowsFLOW0 ++ rowsFLOW1

/-- Registers of the QM block. -/
def rowsQM0 : List RegRow := [
  ⟨"QM_HBM_STAT", 0x01400000, [], [Fld.QM_HBM_STAT_UP], false⟩,
  ⟨"QM_HBM_OUTST", 0x01400010, [(4, 4)], [Fld.QM_HBM_OUTST_N], false⟩,
  ⟨"QM_HBM_HELD", 0x01400020, [(4, 4)], [Fld.QM_HBM_HELD_COUNT], false⟩,
  ⟨"QM_ECC_CORR", 0x01400030, [], [Fld.QM_ECC_CORR_COUNT], false⟩,
  ⟨"QM_ECC_UNCORR", 0x01400034, [], [Fld.QM_ECC_UNCORR_COUNT], false⟩,
  ⟨"QM_ECC_LAST_LO", 0x01400038, [], [Fld.QM_ECC_LAST_LO_V], true⟩,
  ⟨"QM_ECC_LAST_HI", 0x0140003C, [], [Fld.QM_ECC_LAST_HI_SRAM, Fld.QM_ECC_LAST_HI_STACK, Fld.QM_ECC_LAST_HI_OFF], false⟩,
  ⟨"QM_DCACHE_MISS", 0x01400040, [], [Fld.QM_DCACHE_MISS_COUNT], false⟩,
  ⟨"QM_SCRUB_CTRL", 0x01400044, [], [Fld.QM_SCRUB_CTRL_PASSES, Fld.QM_SCRUB_CTRL_PERIOD_H, Fld.QM_SCRUB_CTRL_EN], false⟩,
  ⟨"QM_SURF_WIN", 0x01400048, [], [Fld.QM_SURF_WIN_BASE], false⟩,
  ⟨"QM_HOST_BADACC", 0x0140004C, [], [Fld.QM_HOST_BADACC_COUNT], false⟩,
  ⟨"QM_GRP_CORR", 0x01401000, [(4, 1024)], [Fld.QM_GRP_CORR_COUNT], false⟩]
def rowsQM : List RegRow := rowsQM0

/-- Registers of the ENG block. -/
def rowsENG0 : List RegRow := [
  ⟨"ENG_STAT", 0x01800000, [], [Fld.ENG_STAT_CLUSTERS, Fld.ENG_STAT_ENGINES], false⟩,
  ⟨"ENG_QUAR_CMD", 0x01800004, [], [Fld.ENG_QUAR_CMD_KEY, Fld.ENG_QUAR_CMD_OP, Fld.ENG_QUAR_CMD_CLU, Fld.ENG_QUAR_CMD_INDEX], false⟩,
  ⟨"ENG_QUAD_INFLIGHT", 0x01800010, [(0x10, 4)], [Fld.ENG_QUAD_INFLIGHT_N], false⟩,
  ⟨"ENG_QUAD_HELD", 0x01800014, [(0x10, 4)], [Fld.ENG_QUAD_HELD_COUNT], false⟩,
  ⟨"ENG_QUAD_LOAD", 0x01800018, [(0x10, 4)], [Fld.ENG_QUAD_LOAD_MCYC], false⟩,
  ⟨"ENG_QUAD_LATE", 0x0180001C, [(0x10, 4)], [Fld.ENG_QUAD_LATE_COUNT], false⟩,
  ⟨"ENG_QUAR_MAP", 0x01800100, [(4, 32)], [Fld.ENG_QUAR_MAP_MAP], false⟩,
  ⟨"ENG_CLU_STAT", 0x01801000, [(0x10, 64)], [Fld.ENG_CLU_STAT_KLIB_BAD, Fld.ENG_CLU_STAT_QUAR, Fld.ENG_CLU_STAT_DEQUE], false⟩,
  ⟨"ENG_CLU_STEAL_IN", 0x01801004, [(0x10, 64)], [Fld.ENG_CLU_STEAL_IN_COUNT], false⟩,
  ⟨"ENG_CLU_STEAL_XQ", 0x01801008, [(0x10, 64)], [Fld.ENG_CLU_STEAL_XQ_COUNT], false⟩,
  ⟨"ENG_CLU_MEM_CORR", 0x0180100C, [(0x10, 64)], [Fld.ENG_CLU_MEM_CORR_COUNT], false⟩,
  ⟨"ENG_E_STAT", 0x01802000, [(0x10, 1024)], [Fld.ENG_E_STAT_KERNEL, Fld.ENG_E_STAT_CAUSE, Fld.ENG_E_STAT_UNCORR, Fld.ENG_E_STAT_STATE], false⟩,
  ⟨"ENG_E_TASKS", 0x01802004, [(0x10, 1024)], [Fld.ENG_E_TASKS_COUNT], false⟩,
  ⟨"ENG_E_CORR", 0x01802008, [(0x10, 1024)], [Fld.ENG_E_CORR_COUNT], false⟩,
  ⟨"ENG_SLOT_CTRL", 0x01808000, [(0x40, 256)], [Fld.ENG_SLOT_CTRL_YC_MATRIX, Fld.ENG_SLOT_CTRL_OUT_RGB, Fld.ENG_SLOT_CTRL_OUT_444, Fld.ENG_SLOT_CTRL_DEINT_FIELD, Fld.ENG_SLOT_CTRL_TLUT_SET], false⟩,
  ⟨"ENG_SLOT_STAT", 0x01808004, [(0x40, 256)], [Fld.ENG_SLOT_STAT_LATE_LAST, Fld.ENG_SLOT_STAT_ACTIVE], false⟩,
  ⟨"ENG_SLOT_LATE", 0x01808008, [(0x40, 256)], [Fld.ENG_SLOT_LATE_COUNT], false⟩,
  ⟨"ENG_SLOT_CM_C", 0x01808010, [(0x40, 256), (4, 9)], [Fld.ENG_SLOT_CM_C_C], false⟩,
  ⟨"ENG_SLOT_CM_OFFIN", 0x01808034, [(0x40, 256)], [Fld.ENG_SLOT_CM_OFFIN_O2, Fld.ENG_SLOT_CM_OFFIN_O1, Fld.ENG_SLOT_CM_OFFIN_O0], false⟩,
  ⟨"ENG_SLOT_CM_OFFOUT", 0x01808038, [(0x40, 256)], [Fld.ENG_SLOT_CM_OFFOUT_O2, Fld.ENG_SLOT_CM_OFFOUT_O1, Fld.ENG_SLOT_CM_OFFOUT_O0], false⟩]
def rowsENG1 : List RegRow := [
  ⟨"ENG_TLUT_CTRL", 0x0180C000, [], [Fld.ENG_TLUT_CTRL_COMMIT, Fld.ENG_TLUT_CTRL_SET, Fld.ENG_TLUT_CTRL_INDEX], false⟩,
  ⟨"ENG_TLUT_DATA", 0x0180C004, [], [Fld.ENG_TLUT_DATA_D], false⟩]
def rowsENG : List RegRow := rowsENG0 ++ rowsENG1

/-- Registers of the COMP block. -/
def rowsCOMP0 : List RegRow := [
  ⟨"COMP_H_CTRL", 0x01C00000, [(0x40, 64)], [Fld.COMP_H_CTRL_BG_A, Fld.COMP_H_CTRL_BG_LUT, Fld.COMP_H_CTRL_FORCE_LIN, Fld.COMP_H_CTRL_DROT], false⟩,
  ⟨"COMP_H_BG", 0x01C00004, [(0x40, 64)], [Fld.COMP_H_BG_C0, Fld.COMP_H_BG_C1, Fld.COMP_H_BG_C2], false⟩,
  ⟨"COMP_H_STAT", 0x01C00008, [(0x40, 64)], [Fld.COMP_H_STAT_LATE_TILES, Fld.COMP_H_STAT_LIN_LAST], false⟩,
  ⟨"COMP_H_TILE_LATE", 0x01C0000C, [(0x40, 64)], [Fld.COMP_H_TILE_LATE_COUNT], false⟩,
  ⟨"COMP_H_CUT_FC_LO", 0x01C00010, [(0x40, 64)], [Fld.COMP_H_CUT_FC_LO_V], true⟩,
  ⟨"COMP_H_CUT_FC_HI", 0x01C00014, [(0x40, 64)], [Fld.COMP_H_CUT_FC_HI_V], false⟩,
  ⟨"COMP_LUT_CTRL", 0x01C02000, [], [Fld.COMP_LUT_CTRL_COMMIT, Fld.COMP_LUT_CTRL_HEAD, Fld.COMP_LUT_CTRL_TABLE, Fld.COMP_LUT_CTRL_INDEX], false⟩,
  ⟨"COMP_LUT_DATA", 0x01C02004, [], [Fld.COMP_LUT_DATA_D], false⟩,
  ⟨"COMP_L_W0", 0x01C10000, [(0x40, 1024)], [Fld.COMP_L_W0_G_ALPHA, Fld.COMP_L_W0_Z, Fld.COMP_L_W0_LOW], false⟩,
  ⟨"COMP_L_W", 0x01C10004, [(0x40, 1024), (4, 7)], [Fld.COMP_L_W_W], false⟩,
  ⟨"COMP_L_COMMIT", 0x01C10020, [(0x40, 1024)], [Fld.COMP_L_COMMIT_COMMIT], false⟩,
  ⟨"COMP_L_STAT", 0x01C10024, [(0x40, 1024)], [Fld.COMP_L_STAT_SURF_ERR, Fld.COMP_L_STAT_SCALED, Fld.COMP_L_STAT_NOFRAME, Fld.COMP_L_STAT_LATE_LAST, Fld.COMP_L_STAT_PEND], false⟩,
  ⟨"COMP_L_LATE", 0x01C10028, [(0x40, 1024)], [Fld.COMP_L_LATE_COUNT], false⟩,
  ⟨"COMP_L_SURF_ERR", 0x01C1002C, [(0x40, 1024)], [Fld.COMP_L_SURF_ERR_COUNT], false⟩,
  ⟨"COMP_SCL_CTRL", 0x01C40000, [], [Fld.COMP_SCL_CTRL_COMMIT, Fld.COMP_SCL_CTRL_BANK, Fld.COMP_SCL_CTRL_SET, Fld.COMP_SCL_CTRL_INDEX], false⟩,
  ⟨"COMP_SCL_DATA", 0x01C40004, [], [Fld.COMP_SCL_DATA_D], false⟩,
  ⟨"COMP_SCL_L_CTRL", 0x01C41000, [(0x10, 1024)], [Fld.COMP_SCL_L_CTRL_FIELD], false⟩,
  ⟨"COMP_SCL_L_STAT", 0x01C41004, [(0x10, 1024)], [Fld.COMP_SCL_L_STAT_NEED, Fld.COMP_SCL_L_STAT_HELD, Fld.COMP_SCL_L_STAT_RANGE, Fld.COMP_SCL_L_STAT_BLANK, Fld.COMP_SCL_L_STAT_FALLBACK, Fld.COMP_SCL_L_STAT_LB], false⟩,
  ⟨"COMP_SCL_L_SHORT", 0x01C41008, [(0x10, 1024)], [Fld.COMP_SCL_L_SHORT_COUNT], false⟩,
  ⟨"COMP_SCL_S_CTRL", 0x01C46000, [(0x10, 256)], [Fld.COMP_SCL_S_CTRL_MODE, Fld.COMP_SCL_S_CTRL_COEF_SET], false⟩]
def rowsCOMP1 : List RegRow := [
  ⟨"COMP_SCL_S_STAT", 0x01C46004, [(0x10, 256)], [Fld.COMP_SCL_S_STAT_NEED, Fld.COMP_SCL_S_STAT_HELD, Fld.COMP_SCL_S_STAT_RANGE, Fld.COMP_SCL_S_STAT_BLANK, Fld.COMP_SCL_S_STAT_FALLBACK, Fld.COMP_SCL_S_STAT_LB], false⟩,
  ⟨"COMP_SCL_S_SHORT", 0x01C46008, [(0x10, 256)], [Fld.COMP_SCL_S_SHORT_COUNT], false⟩]
def rowsCOMP : List RegRow := rowsCOMP0 ++ rowsCOMP1

/-- Registers of the SAP block. -/
def rowsSAP0 : List RegRow := [
  ⟨"SAP_CTRL", 0x02600000, [(0x100, 32)], [Fld.SAP_CTRL_EN], false⟩,
  ⟨"SAP_STAT", 0x02600004, [(0x100, 32)], [Fld.SAP_STAT_REALIGN, Fld.SAP_STAT_STATE], false⟩,
  ⟨"SAP_RX_MASK_SH", 0x02600008, [(0x100, 32)], [Fld.SAP_RX_MASK_SH_M], false⟩,
  ⟨"SAP_TX_MASK_SH", 0x0260000C, [(0x100, 32)], [Fld.SAP_TX_MASK_SH_M], false⟩,
  ⟨"SAP_RX_MASK", 0x02600010, [(0x100, 32)], [Fld.SAP_RX_MASK_M], false⟩,
  ⟨"SAP_TX_MASK", 0x02600014, [(0x100, 32)], [Fld.SAP_TX_MASK_M], false⟩,
  ⟨"SAP_MASK_COMMIT", 0x02600018, [(0x100, 32)], [Fld.SAP_MASK_COMMIT_TX, Fld.SAP_MASK_COMMIT_RX], false⟩,
  ⟨"SAP_FRAME_LEN", 0x0260001C, [(0x100, 32)], [Fld.SAP_FRAME_LEN_LEN], false⟩,
  ⟨"SAP_START_SC_LO", 0x02600020, [(0x100, 32)], [Fld.SAP_START_SC_LO_V], true⟩,
  ⟨"SAP_START_SC_HI", 0x02600024, [(0x100, 32)], [Fld.SAP_START_SC_HI_V], false⟩,
  ⟨"SAP_RX_UNDERRUN", 0x02600028, [(0x100, 32)], [Fld.SAP_RX_UNDERRUN_COUNT], false⟩,
  ⟨"SAP_RX_OVERRUN", 0x0260002C, [(0x100, 32)], [Fld.SAP_RX_OVERRUN_COUNT], false⟩,
  ⟨"SAP_TX_UNDERRUN", 0x02600030, [(0x100, 32)], [Fld.SAP_TX_UNDERRUN_COUNT], false⟩,
  ⟨"SAP_TX_OVERRUN", 0x02600034, [(0x100, 32)], [Fld.SAP_TX_OVERRUN_COUNT], false⟩,
  ⟨"SAP_FRAME_ERR", 0x02600038, [(0x100, 32)], [Fld.SAP_FRAME_ERR_COUNT], false⟩,
  ⟨"SAP_CLK_LOSS", 0x0260003C, [(0x100, 32)], [Fld.SAP_CLK_LOSS_COUNT], false⟩,
  ⟨"SAP_GRP_CTRL", 0x02604000, [(0x20, 16)], [Fld.SAP_GRP_CTRL_TK, Fld.SAP_GRP_CTRL_MASK_COMMIT, Fld.SAP_GRP_CTRL_AT_EN, Fld.SAP_GRP_CTRL_START_NOW, Fld.SAP_GRP_CTRL_ARM], false⟩,
  ⟨"SAP_GRP_STAT", 0x02604004, [(0x20, 16)], [Fld.SAP_GRP_STAT_SLIP_PORT, Fld.SAP_GRP_STAT_STATE, Fld.SAP_GRP_STAT_LATE, Fld.SAP_GRP_STAT_SLIP], false⟩,
  ⟨"SAP_GRP_AT_LO", 0x02604008, [(0x20, 16)], [Fld.SAP_GRP_AT_LO_V], true⟩,
  ⟨"SAP_GRP_AT_HI", 0x0260400C, [(0x20, 16)], [Fld.SAP_GRP_AT_HI_V], false⟩]
def rowsSAP1 : List RegRow := [
  ⟨"SAP_GRP_START_SC_LO", 0x02604010, [(0x20, 16)], [Fld.SAP_GRP_START_SC_LO_V], true⟩,
  ⟨"SAP_GRP_START_SC_HI", 0x02604014, [(0x20, 16)], [Fld.SAP_GRP_START_SC_HI_V], false⟩,
  ⟨"ASRC_STAT", 0x02608000, [(0x10, 256)], [Fld.ASRC_STAT_FILL, Fld.ASRC_STAT_STATE], false⟩,
  ⟨"ASRC_RATIO", 0x02608004, [(0x10, 256)], [Fld.ASRC_RATIO_RATIO], false⟩,
  ⟨"ASRC_UNLOCKS", 0x02608008, [(0x10, 256)], [Fld.ASRC_UNLOCKS_COUNT], false⟩,
  ⟨"SAP_NA_CH", 0x02700000, [(4, 32768)], [Fld.SAP_NA_CH_ALIGN, Fld.SAP_NA_CH_PRE_NA, Fld.SAP_NA_CH_CS_NA, Fld.SAP_NA_CH_NA, Fld.SAP_NA_CH_MODE], false⟩]
def rowsSAP : List RegRow := rowsSAP0 ++ rowsSAP1

/-- Registers of the AUD block. -/
def rowsAUD0 : List RegRow := [
  ⟨"AUD_TAKE_CTRL", 0x02200000, [], [Fld.AUD_TAKE_CTRL_DONE_VEC, Fld.AUD_TAKE_CTRL_DONE_MSI_EN, Fld.AUD_TAKE_CTRL_ABANDON], false⟩,
  ⟨"AUD_TAKE_PI", 0x02200004, [], [Fld.AUD_TAKE_PI_PI], false⟩,
  ⟨"AUD_TAKE_CI", 0x02200008, [], [Fld.AUD_TAKE_CI_CI], false⟩,
  ⟨"AUD_TAKE_STAT", 0x0220000C, [], [Fld.AUD_TAKE_STAT_REF_INDEX, Fld.AUD_TAKE_STAT_REF_CODE, Fld.AUD_TAKE_STAT_IGNORED, Fld.AUD_TAKE_STAT_REFUSED, Fld.AUD_TAKE_STAT_OVERRUN], false⟩,
  ⟨"AUD_TAKE_REFUSE_COUNT", 0x02200010, [], [Fld.AUD_TAKE_REFUSE_COUNT_COUNT], false⟩,
  ⟨"AUD_DONE_TAG", 0x02200014, [], [Fld.AUD_DONE_TAG_TAG], false⟩,
  ⟨"AUD_DONE_SC_LO", 0x02200018, [], [Fld.AUD_DONE_SC_LO_V], true⟩,
  ⟨"AUD_DONE_SC_HI", 0x0220001C, [], [Fld.AUD_DONE_SC_HI_V], false⟩,
  ⟨"AUD_XF_ACTIVE", 0x02200020, [], [Fld.AUD_XF_ACTIVE_N], false⟩,
  ⟨"AUD_AT_LATE", 0x02200024, [], [Fld.AUD_AT_LATE_COUNT], false⟩,
  ⟨"AUD_SC_LO", 0x02200028, [], [Fld.AUD_SC_LO_V], true⟩,
  ⟨"AUD_SC_HI", 0x0220002C, [], [Fld.AUD_SC_HI_V], false⟩,
  ⟨"AUD_CS", 0x02200030, [(4, 6)], [Fld.AUD_CS_V], false⟩,
  ⟨"AUD_DEEMB_SLIP", 0x02200048, [], [Fld.AUD_DEEMB_SLIP_COUNT], false⟩,
  ⟨"AUD_TAKE_RING", 0x02210000, [(4, 8192)], [Fld.AUD_TAKE_RING_W], false⟩,
  ⟨"AUD_B_STAT", 0x02240000, [(4, 32768)], [Fld.AUD_B_STAT_XF, Fld.AUD_B_STAT_NOASRC, Fld.AUD_B_STAT_CLASS, Fld.AUD_B_STAT_ZERO, Fld.AUD_B_STAT_CUR_SRC], false⟩,
  ⟨"AUD_MIX_W", 0x02280000, [(0x200, 2048), (4, 128)], [Fld.AUD_MIX_W_W], false⟩,
  ⟨"AUD_BUS_STAT", 0x02380000, [(4, 2048)], [Fld.AUD_BUS_STAT_SAT], false⟩,
  ⟨"AUD_MTR_CFG", 0x023A0000, [(0x20, 8192)], [Fld.AUD_MTR_CFG_HOLD_MS, Fld.AUD_MTR_CFG_SIDE, Fld.AUD_MTR_CFG_CH], false⟩,
  ⟨"AUD_MTR_PEAK", 0x023A0004, [(0x20, 8192)], [Fld.AUD_MTR_PEAK_PEAK], false⟩]
def rowsAUD1 : List RegRow := [
  ⟨"AUD_MTR_RMS", 0x023A0008, [(0x20, 8192)], [Fld.AUD_MTR_RMS_RMS], false⟩,
  ⟨"AUD_MTR_HOLD", 0x023A000C, [(0x20, 8192)], [Fld.AUD_MTR_HOLD_H], false⟩,
  ⟨"AUD_MTR_DECAY", 0x023A0010, [(0x20, 8192)], [Fld.AUD_MTR_DECAY_CLR, Fld.AUD_MTR_DECAY_DECAY], false⟩,
  ⟨"AUD_TONE_CTRL", 0x023E0000, [(0x10, 256)], [Fld.AUD_TONE_CTRL_MODE], false⟩,
  ⟨"AUD_TONE_FREQ", 0x023E0004, [(0x10, 256)], [Fld.AUD_TONE_FREQ_FREQ], false⟩,
  ⟨"AUD_TONE_LEVEL", 0x023E0008, [(0x10, 256)], [Fld.AUD_TONE_LEVEL_LEVEL], false⟩]
def rowsAUD : List RegRow := rowsAUD0 ++ rowsAUD1

/-- Registers of the PLANE block. -/
def rowsPLANE0 : List RegRow := [
  ⟨"PLANE_CTRL", 0x00800000, [(0x1000, 2)], [Fld.PLANE_CTRL_BW], false⟩,
  ⟨"PLANE_STAT", 0x00800004, [(0x1000, 2)], [Fld.PLANE_STAT_CUR_VALID, Fld.PLANE_STAT_CUR, Fld.PLANE_STAT_HOLD_AVAIL, Fld.PLANE_STAT_STATE], false⟩,
  ⟨"PLANE_LOCKOUT", 0x00800008, [(0x1000, 2)], [Fld.PLANE_LOCKOUT_LOCK], false⟩,
  ⟨"PLANE_EVENT", 0x0080000C, [(0x1000, 2)], [Fld.PLANE_EVENT_JUMP, Fld.PLANE_EVENT_DISAGREE, Fld.PLANE_EVENT_ABANDON, Fld.PLANE_EVENT_REJECT, Fld.PLANE_EVENT_HOLDOVER, Fld.PLANE_EVENT_SWITCH], false⟩,
  ⟨"PLANE_FC_LO", 0x00800010, [(0x1000, 2)], [Fld.PLANE_FC_LO_V], true⟩,
  ⟨"PLANE_FC_HI", 0x00800014, [(0x1000, 2)], [Fld.PLANE_FC_HI_V], false⟩,
  ⟨"PLANE_RESID", 0x00800018, [(0x1000, 2)], [Fld.PLANE_RESID_V], false⟩,
  ⟨"PLANE_FREQ", 0x0080001C, [(0x1000, 2)], [Fld.PLANE_FREQ_V], false⟩,
  ⟨"PLANE_HOLD_FREQ", 0x00800020, [(0x1000, 2)], [Fld.PLANE_HOLD_FREQ_V], false⟩,
  ⟨"PLANE_HOLD_SEC", 0x00800024, [(0x1000, 2)], [Fld.PLANE_HOLD_SEC_V], false⟩,
  ⟨"PLANE_SWITCHES", 0x00800028, [(0x1000, 2)], [Fld.PLANE_SWITCHES_COUNT], false⟩,
  ⟨"PLANE_ABANDONS", 0x0080002C, [(0x1000, 2)], [Fld.PLANE_ABANDONS_COUNT], false⟩,
  ⟨"PLANE_REJECTS", 0x00800030, [(0x1000, 2)], [Fld.PLANE_REJECTS_COUNT], false⟩,
  ⟨"PLANE_ENT_STAT", 0x00800100, [(0x1000, 2), (0x10, 16)], [Fld.PLANE_ENT_STAT_QUAL_CNT, Fld.PLANE_ENT_STAT_KIND, Fld.PLANE_ENT_STAT_DISAGREE, Fld.PLANE_ENT_STAT_QUAL, Fld.PLANE_ENT_STAT_ACTIVE], false⟩,
  ⟨"PLANE_ENT_FREQ", 0x00800104, [(0x1000, 2), (0x10, 16)], [Fld.PLANE_ENT_FREQ_V], false⟩,
  ⟨"PLANE_ENT_PHASE", 0x00800108, [(0x1000, 2), (0x10, 16)], [Fld.PLANE_ENT_PHASE_V], false⟩,
  ⟨"PLANE_ENT_RESERVED", 0x0080010C, [(0x1000, 2), (0x10, 16)], [], false⟩,
  ⟨"PLANE_GSTAT", 0x00802000, [], [Fld.PLANE_GSTAT_ALM, Fld.PLANE_GSTAT_XO_FAIL], false⟩]
def rowsPLANE : List RegRow := rowsPLANE0

/-- Registers of the TIME block. -/
def rowsTIME0 : List RegRow := [
  ⟨"TIME_TK_CTRL", 0x00A00000, [(0x100, 2)], [Fld.TIME_TK_CTRL_ADJ_GO, Fld.TIME_TK_CTRL_SET_GO, Fld.TIME_TK_CTRL_LOCK_CLR, Fld.TIME_TK_CTRL_LOCK_SET], false⟩,
  ⟨"TIME_TK_STAT", 0x00A00004, [(0x100, 2)], [Fld.TIME_TK_STAT_GEN, Fld.TIME_TK_STAT_DOMAIN, Fld.TIME_TK_STAT_LOCKED, Fld.TIME_TK_STAT_VALID], false⟩,
  ⟨"TIME_TK_INCR_LO", 0x00A00008, [(0x100, 2)], [Fld.TIME_TK_INCR_LO_V], true⟩,
  ⟨"TIME_TK_INCR_HI", 0x00A0000C, [(0x100, 2)], [Fld.TIME_TK_INCR_HI_V], false⟩,
  ⟨"TIME_TK_SET_LO", 0x00A00010, [(0x100, 2)], [Fld.TIME_TK_SET_LO_V], true⟩,
  ⟨"TIME_TK_SET_HI", 0x00A00014, [(0x100, 2)], [Fld.TIME_TK_SET_HI_V], false⟩,
  ⟨"TIME_TK_ADJ_LO", 0x00A00018, [(0x100, 2)], [Fld.TIME_TK_ADJ_LO_V], true⟩,
  ⟨"TIME_TK_ADJ_HI", 0x00A0001C, [(0x100, 2)], [Fld.TIME_TK_ADJ_HI_V], false⟩,
  ⟨"TIME_TK_NS_LO", 0x00A00020, [(0x100, 2)], [Fld.TIME_TK_NS_LO_V], true⟩,
  ⟨"TIME_TK_NS_HI", 0x00A00024, [(0x100, 2)], [Fld.TIME_TK_NS_HI_V], false⟩,
  ⟨"TIME_TK_FRAC", 0x00A00028, [(0x100, 2)], [Fld.TIME_TK_FRAC_V], false⟩,
  ⟨"TIME_TK_SEC_LO", 0x00A0002C, [(0x100, 2)], [Fld.TIME_TK_SEC_LO_V], true⟩,
  ⟨"TIME_TK_SEC_HI", 0x00A00030, [(0x100, 2)], [Fld.TIME_TK_SEC_HI_V], false⟩,
  ⟨"TIME_TK_NSEC", 0x00A00034, [(0x100, 2)], [Fld.TIME_TK_NSEC_V], false⟩,
  ⟨"TIME_TK_UNLOCKS", 0x00A00038, [(0x100, 2)], [Fld.TIME_TK_UNLOCKS_COUNT], false⟩,
  ⟨"TIME_OT_CTRL", 0x00A00200, [], [Fld.TIME_OT_CTRL_SNAP, Fld.TIME_OT_CTRL_AUTO, Fld.TIME_OT_CTRL_SEL], false⟩,
  ⟨"TIME_OT_STAT", 0x00A00204, [], [Fld.TIME_OT_STAT_SLEWING, Fld.TIME_OT_STAT_VALID, Fld.TIME_OT_STAT_CUR], false⟩,
  ⟨"TIME_OT_NS_LO", 0x00A00208, [], [Fld.TIME_OT_NS_LO_V], true⟩,
  ⟨"TIME_OT_NS_HI", 0x00A0020C, [], [Fld.TIME_OT_NS_HI_V], false⟩,
  ⟨"TIME_OT_RESID_LO", 0x00A00210, [], [Fld.TIME_OT_RESID_LO_V], true⟩]
def rowsTIME1 : List RegRow := [
  ⟨"TIME_OT_RESID_HI", 0x00A00214, [], [Fld.TIME_OT_RESID_HI_V], false⟩,
  ⟨"TIME_OT_SWITCHES", 0x00A00218, [], [Fld.TIME_OT_SWITCHES_COUNT], false⟩,
  ⟨"TIME_SNAP", 0x00A00300, [], [Fld.TIME_SNAP_GO], false⟩,
  ⟨"TIME_SNAP_W", 0x00A00308, [(4, 6)], [Fld.TIME_SNAP_W_V], false⟩,
  ⟨"TIME_TPO_CTRL", 0x00A00400, [(0x20, 8)], [Fld.TIME_TPO_CTRL_LEVEL, Fld.TIME_TPO_CTRL_MODE, Fld.TIME_TPO_CTRL_EN], false⟩,
  ⟨"TIME_TPO_STAT", 0x00A00404, [(0x20, 8)], [Fld.TIME_TPO_STAT_LATE, Fld.TIME_TPO_STAT_STATE], false⟩,
  ⟨"TIME_TPO_START_LO", 0x00A00408, [(0x20, 8)], [Fld.TIME_TPO_START_LO_V], true⟩,
  ⟨"TIME_TPO_START_HI", 0x00A0040C, [(0x20, 8)], [Fld.TIME_TPO_START_HI_V], false⟩,
  ⟨"TIME_TPO_PERIOD", 0x00A00410, [(0x20, 8)], [Fld.TIME_TPO_PERIOD_V], false⟩,
  ⟨"TIME_TPO_WIDTH", 0x00A00414, [(0x20, 8)], [Fld.TIME_TPO_WIDTH_V], false⟩,
  ⟨"TIME_TPO_FIRED", 0x00A00418, [(0x20, 8)], [Fld.TIME_TPO_FIRED_COUNT], false⟩,
  ⟨"TIME_TPO_MISSED", 0x00A0041C, [(0x20, 8)], [Fld.TIME_TPO_MISSED_COUNT], false⟩,
  ⟨"TIME_TCI_CTRL", 0x00A00600, [(0x20, 4)], [Fld.TIME_TCI_CTRL_EDGE, Fld.TIME_TCI_CTRL_EN], false⟩,
  ⟨"TIME_TCI_STAT", 0x00A00604, [(0x20, 4)], [Fld.TIME_TCI_STAT_OVF, Fld.TIME_TCI_STAT_COUNT], false⟩,
  ⟨"TIME_TCI_TS", 0x00A00608, [(0x20, 4), (4, 4)], [Fld.TIME_TCI_TS_V], false⟩,
  ⟨"TIME_TCI_DROP", 0x00A00618, [(0x20, 4)], [Fld.TIME_TCI_DROP_COUNT], false⟩]
def rowsTIME : List RegRow := rowsTIME0 ++ rowsTIME1

/-- Registers of the PAIR block. -/
def rowsPAIR0 : List RegRow := [
  ⟨"PAIR_CTRL", 0x02800000, [], [Fld.PAIR_CTRL_SCRUB_H, Fld.PAIR_CTRL_SIG_LIMIT, Fld.PAIR_CTRL_MARGIN_EN, Fld.PAIR_CTRL_AUD_SIG, Fld.PAIR_CTRL_SIG_EN, Fld.PAIR_CTRL_ALLOW_XIMG, Fld.PAIR_CTRL_WIN_PLANE, Fld.PAIR_CTRL_EN], false⟩,
  ⟨"PAIR_STAT", 0x02800004, [], [Fld.PAIR_STAT_INSTEP, Fld.PAIR_STAT_NO_ACTIVE, Fld.PAIR_STAT_DUAL, Fld.PAIR_STAT_XIMG, Fld.PAIR_STAT_SOLO, Fld.PAIR_STAT_LINK, Fld.PAIR_STAT_PEER_ROLE, Fld.PAIR_STAT_ROLE_PIN, Fld.PAIR_STAT_BEAT_HOLD, Fld.PAIR_STAT_HEALTH], false⟩,
  ⟨"PAIR_LEAD_EXTRA", 0x02800008, [], [Fld.PAIR_LEAD_EXTRA_US], false⟩,
  ⟨"PAIR_MIRROR_LAT", 0x0280000C, [], [Fld.PAIR_MIRROR_LAT_NS], false⟩,
  ⟨"PAIR_SKEW", 0x02800010, [(4, 2)], [Fld.PAIR_SKEW_V], false⟩,
  ⟨"PAIR_SKEW_LIM", 0x02800018, [], [Fld.PAIR_SKEW_LIM_NS], false⟩,
  ⟨"PAIR_TK_SKEW", 0x0280001C, [(4, 2)], [Fld.PAIR_TK_SKEW_V], false⟩,
  ⟨"PAIR_TK_SKEW_LIM", 0x02800024, [], [Fld.PAIR_TK_SKEW_LIM_NS], false⟩,
  ⟨"PAIR_FC_OFS", 0x02800028, [(4, 4)], [Fld.PAIR_FC_OFS_V], false⟩,
  ⟨"PAIR_SC_OFS", 0x02800038, [(4, 2)], [Fld.PAIR_SC_OFS_V], false⟩,
  ⟨"PAIR_SIG_LAST", 0x02800040, [], [Fld.PAIR_SIG_LAST_AUD, Fld.PAIR_SIG_LAST_OUT], false⟩,
  ⟨"PAIR_MARGIN_LIM", 0x02800044, [], [Fld.PAIR_MARGIN_LIM_V, Fld.PAIR_MARGIN_LIM_H], false⟩,
  ⟨"PAIR_ROLE_CHANGES", 0x02800080, [], [Fld.PAIR_ROLE_CHANGES_COUNT], false⟩,
  ⟨"PAIR_LINK_DOWN", 0x02800084, [], [Fld.PAIR_LINK_DOWN_COUNT], false⟩,
  ⟨"PAIR_MIRROR_RETRY", 0x02800088, [], [Fld.PAIR_MIRROR_RETRY_COUNT], false⟩,
  ⟨"PAIR_ACK_MISS", 0x0280008C, [], [Fld.PAIR_ACK_MISS_COUNT], false⟩,
  ⟨"PAIR_TAKE_LATE", 0x02800090, [], [Fld.PAIR_TAKE_LATE_COUNT], false⟩,
  ⟨"PAIR_AT_MOVED", 0x02800094, [], [Fld.PAIR_AT_MOVED_COUNT], false⟩,
  ⟨"PAIR_SIG_DIFF", 0x02800098, [], [Fld.PAIR_SIG_DIFF_COUNT], false⟩,
  ⟨"PAIR_SIG_MISSING", 0x0280009C, [], [Fld.PAIR_SIG_MISSING_COUNT], false⟩]
def rowsPAIR1 : List RegRow := [
  ⟨"PAIR_HOST_IGN", 0x028000A0, [], [Fld.PAIR_HOST_IGN_COUNT], false⟩,
  ⟨"PAIR_SIG_EXCL", 0x02800100, [(4, 48)], [Fld.PAIR_SIG_EXCL_V], false⟩,
  ⟨"PAIR_MARGIN", 0x02801000, [(4, 576)], [Fld.PAIR_MARGIN_VALID, Fld.PAIR_MARGIN_V, Fld.PAIR_MARGIN_H], false⟩]
def rowsPAIR : List RegRow := rowsPAIR0 ++ rowsPAIR1

/-- Registers of the FAULT block. -/
def rowsFAULT0 : List RegRow := [
  ⟨"FAULT_SUMMARY_LO", 0x00100000, [], [Fld.FAULT_SUMMARY_LO_V], true⟩,
  ⟨"FAULT_SUMMARY_HI", 0x00100004, [], [Fld.FAULT_SUMMARY_HI_V], false⟩,
  ⟨"FAULT_ANY", 0x00100008, [], [Fld.FAULT_ANY_FAIL, Fld.FAULT_ANY_DEGRADE, Fld.FAULT_ANY_ALERT], false⟩,
  ⟨"FAULT_LAST", 0x0010000C, [], [Fld.FAULT_LAST_SEV, Fld.FAULT_LAST_SRC], false⟩,
  ⟨"FAULT_RAISES", 0x00100010, [], [Fld.FAULT_RAISES_COUNT], false⟩,
  ⟨"FAULT_STAT", 0x00100100, [(4, 48)], [Fld.FAULT_STAT_V], false⟩,
  ⟨"FAULT_VEC", 0x00100200, [(4, 48)], [Fld.FAULT_VEC_EN, Fld.FAULT_VEC_VEC], false⟩,
  ⟨"FAULT_SEV", 0x00101000, [(4, 1536)], [Fld.FAULT_SEV_LOCK, Fld.FAULT_SEV_SEV], false⟩,
  ⟨"FAULT_CNT", 0x00103000, [(4, 1536)], [Fld.FAULT_CNT_COUNT], false⟩]
def rowsFAULT : List RegRow := rowsFAULT0

/-- Registers of the PATINA block. -/
def rowsPATINA0 : List RegRow := [
  ⟨"PAT_STAT", 0x02A00000, [], [Fld.PAT_STAT_SEALED, Fld.PAT_STAT_PF, Fld.PAT_STAT_TORN_LAST, Fld.PAT_STAT_FINAL, Fld.PAT_STAT_KEEP_OK, Fld.PAT_STAT_READY], false⟩,
  ⟨"PAT_SEQ_LO", 0x02A00008, [], [Fld.PAT_SEQ_LO_V], true⟩,
  ⟨"PAT_SEQ_HI", 0x02A0000C, [], [Fld.PAT_SEQ_HI_V], false⟩,
  ⟨"PAT_TOKENS", 0x02A00010, [], [Fld.PAT_TOKENS_TOKENS], false⟩,
  ⟨"PAT_DROPPED", 0x02A00014, [], [Fld.PAT_DROPPED_COUNT], false⟩,
  ⟨"PAT_MRAM_CORR", 0x02A00018, [], [Fld.PAT_MRAM_CORR_COUNT], false⟩,
  ⟨"PAT_MRAM_UNCORR", 0x02A0001C, [], [Fld.PAT_MRAM_UNCORR_COUNT], false⟩,
  ⟨"PAT_KEEP_FLUSH", 0x02A00020, [], [Fld.PAT_KEEP_FLUSH_V], false⟩,
  ⟨"PAT_KEEP_REFUSED", 0x02A00024, [], [Fld.PAT_KEEP_REFUSED_V], false⟩,
  ⟨"PAT_KEEP_BACKLOG", 0x02A00028, [], [Fld.PAT_KEEP_BACKLOG_V], false⟩,
  ⟨"PAT_KEEP_CTRL", 0x02A0002C, [], [Fld.PAT_KEEP_CTRL_KEY, Fld.PAT_KEEP_CTRL_CLEAR], false⟩,
  ⟨"PAT_HOST_EVT", 0x02A00040, [], [Fld.PAT_HOST_EVT_GO, Fld.PAT_HOST_EVT_EVENT], false⟩,
  ⟨"PAT_HOST_DATA", 0x02A00044, [(4, 8)], [Fld.PAT_HOST_DATA_V], false⟩]
def rowsPATINA : List RegRow := rowsPATINA0

/-- Registers of the FABRIC block. -/
def rowsFABRIC0 : List RegRow := [
  ⟨"FABRIC_STAT", 0x02E00000, [], [Fld.FABRIC_STAT_HUNG], false⟩,
  ⟨"FABRIC_HANG_INFO", 0x02E00004, [], [Fld.FABRIC_HANG_INFO_MASTER, Fld.FABRIC_HANG_INFO_WRITE, Fld.FABRIC_HANG_INFO_BAR2, Fld.FABRIC_HANG_INFO_VALID], false⟩,
  ⟨"FABRIC_HANG_ADDR", 0x02E00008, [], [Fld.FABRIC_HANG_ADDR_V], false⟩,
  ⟨"FABRIC_MRESET", 0x02E0000C, [], [Fld.FABRIC_MRESET_KEY, Fld.FABRIC_MRESET_M8], false⟩,
  ⟨"FABRIC_OUTST", 0x02E00010, [(4, 9)], [Fld.FABRIC_OUTST_WRITES, Fld.FABRIC_OUTST_READS], false⟩,
  ⟨"FABRIC_MATRIX_OUTST", 0x02E00040, [], [Fld.FABRIC_MATRIX_OUTST_V], false⟩,
  ⟨"FABRIC_HOLD_ORDER", 0x02E00044, [], [Fld.FABRIC_HOLD_ORDER_COUNT], false⟩,
  ⟨"FABRIC_HOLD_DEADLOCK", 0x02E00048, [], [Fld.FABRIC_HOLD_DEADLOCK_COUNT], false⟩,
  ⟨"FABRIC_BADSIZE", 0x02E0004C, [], [Fld.FABRIC_BADSIZE_COUNT], false⟩,
  ⟨"FABRIC_HANGS", 0x02E00050, [], [Fld.FABRIC_HANGS_COUNT], false⟩,
  ⟨"FABRIC_PCIE_STAT", 0x02E00060, [], [Fld.FABRIC_PCIE_STAT_D3HOT, Fld.FABRIC_PCIE_STAT_WIDTH, Fld.FABRIC_PCIE_STAT_SPEED, Fld.FABRIC_PCIE_STAT_UP], false⟩,
  ⟨"FABRIC_PCIE_RESETS", 0x02E00064, [], [Fld.FABRIC_PCIE_RESETS_COUNT], false⟩]
def rowsFABRIC : List RegRow := rowsFABRIC0

/-- Registers of the TEST block. -/
def rowsTEST0 : List RegRow := [
  ⟨"TEST_STAT", 0x03000000, [], [Fld.TEST_STAT_INJ_LEFT, Fld.TEST_STAT_IGNORED, Fld.TEST_STAT_PERT_ANY, Fld.TEST_STAT_INJ_ARMED, Fld.TEST_STAT_PERT_OK, Fld.TEST_STAT_INJ_OK], false⟩,
  ⟨"TEST_INJ_TARGET", 0x03000004, [], [Fld.TEST_INJ_TARGET_CLASS, Fld.TEST_INJ_TARGET_INDEX], false⟩,
  ⟨"TEST_INJ_CTRL", 0x03000008, [], [Fld.TEST_INJ_CTRL_ARM, Fld.TEST_INJ_CTRL_DISARM, Fld.TEST_INJ_CTRL_COUNT, Fld.TEST_INJ_CTRL_MASK], false⟩,
  ⟨"TEST_INJ_DONE", 0x0300000C, [], [Fld.TEST_INJ_DONE_COUNT], false⟩,
  ⟨"TEST_IGNORED", 0x03000010, [], [Fld.TEST_IGNORED_COUNT], false⟩,
  ⟨"TEST_PERT_QDELAY", 0x03000020, [], [Fld.TEST_PERT_QDELAY_ALL, Fld.TEST_PERT_QDELAY_GROUP, Fld.TEST_PERT_QDELAY_CYCLES], false⟩,
  ⟨"TEST_PERT_ENG", 0x03000024, [], [Fld.TEST_PERT_ENG_QMASK, Fld.TEST_PERT_ENG_DENY], false⟩,
  ⟨"TEST_PERT_MAC", 0x03000028, [], [Fld.TEST_PERT_MAC_GO, Fld.TEST_PERT_MAC_STALL_US, Fld.TEST_PERT_MAC_MAC], false⟩,
  ⟨"TEST_PERT_FAB", 0x0300002C, [], [Fld.TEST_PERT_FAB_TMASK, Fld.TEST_PERT_FAB_HOLD], false⟩,
  ⟨"TEST_PERT_MON", 0x03000030, [], [Fld.TEST_PERT_MON_SEED, Fld.TEST_PERT_MON_PLANE, Fld.TEST_PERT_MON_J], false⟩]
def rowsTEST : List RegRow := rowsTEST0

/-- Registers of the PINCTL block. -/
def rowsPINCTL0 : List RegRow := [
  ⟨"PINCTL_SSC", 0x03100000, [], [Fld.PINCTL_SSC_DEPTH], false⟩,
  ⟨"PINCTL_SLEW", 0x03100004, [], [Fld.PINCTL_SLEW_JTAG, Fld.PINCTL_SLEW_AON, Fld.PINCTL_SLEW_STATUS, Fld.PINCTL_SLEW_TIMING, Fld.PINCTL_SLEW_SAP], false⟩,
  ⟨"PINCTL_FILT", 0x03100010, [(4, 15)], [Fld.PINCTL_FILT_COUNT], false⟩,
  ⟨"PINCTL_IN_LVL", 0x03100040, [], [Fld.PINCTL_IN_LVL_DP_HPD, Fld.PINCTL_IN_LVL_POWER_FAIL_N, Fld.PINCTL_IN_LVL_ARB_ROLE, Fld.PINCTL_IN_LVL_TCI, Fld.PINCTL_IN_LVL_AUD_START, Fld.PINCTL_IN_LVL_REFFP], false⟩]
def rowsPINCTL : List RegRow := rowsPINCTL0

/-- Registers of the MSIX block. -/
def rowsMSIX0 : List RegRow := [
  ⟨"MSIX_ADDR_LO", 0x03F00000, [(16, 64)], [Fld.MSIX_ADDR_LO_V], false⟩,
  ⟨"MSIX_ADDR_HI", 0x03F00004, [(16, 64)], [Fld.MSIX_ADDR_HI_V], false⟩,
  ⟨"MSIX_DATA", 0x03F00008, [(16, 64)], [Fld.MSIX_DATA_V], false⟩,
  ⟨"MSIX_CTRL", 0x03F0000C, [(16, 64)], [Fld.MSIX_CTRL_MASK], false⟩,
  ⟨"MSIX_PBA", 0x03F01000, [(4, 2)], [Fld.MSIX_PBA_V], false⟩]
def rowsMSIX : List RegRow := rowsMSIX0

/-- Does an offset inside a repeated register lie on an instance of it? The dims stand with the largest stride
first, and the offset is used up from there. -/
def dimsHit : List (Nat × Nat) → Nat → Bool
  | [], off => off == 0
  | (stride, count) :: t, off =>
    if off / stride < count then dimsHit t (off % stride) else false

/-- Does a register row cover address a? -/
def rowHit (r : RegRow) (a : Nat) : Bool := decide (r.base ≤ a) && dimsHit r.dims (a - r.base)

/-- The blocks of BAR0, by address (R475). -/
inductive Block where
  | global | fault | xp | vlane | plane | time | mac | flow | qm | eng | comp | aud | sap | pair | patina | img
  | fabric | test | pinctl | gap | msix | beyond
  deriving DecidableEq, Repr

/-- 19_host_fabric.md R475 Table 19.2. -/
def blockOf (a : Nat) : Block :=
  if a < 0x00100000 then .global else if a < 0x00200000 then .fault else if a < 0x00400000 then .xp
  else if a < 0x00800000 then .vlane else if a < 0x00A00000 then .plane else if a < 0x00C00000 then .time
  else if a < 0x01000000 then .mac else if a < 0x01400000 then .flow else if a < 0x01800000 then .qm
  else if a < 0x01C00000 then .eng else if a < 0x02200000 then .comp else if a < 0x02600000 then .aud
  else if a < 0x02800000 then .sap else if a < 0x02A00000 then .pair else if a < 0x02C00000 then .patina
  else if a < 0x02E00000 then .img else if a < 0x03000000 then .fabric else if a < 0x03100000 then .test
  else if a < 0x03200000 then .pinctl else if a < 0x03F00000 then .gap else if a < 0x04000000 then .msix
  else .beyond

/-- The rows of one block. -/
def blockRows : Block → List RegRow
  | .global => rowsGLOBAL | .fault => rowsFAULT | .xp => rowsXP | .vlane => rowsVLANE | .plane => rowsPLANE
  | .time => rowsTIME | .mac => rowsMAC | .flow => rowsFLOW | .qm => rowsQM | .eng => rowsENG | .comp => rowsCOMP
  | .aud => rowsAUD | .sap => rowsSAP | .pair => rowsPAIR | .patina => rowsPATINA | .img => rowsIMG
  | .fabric => rowsFABRIC | .test => rowsTEST | .pinctl => rowsPINCTL | .msix => rowsMSIX
  | .gap => [] | .beyond => []

/-- The row that covers address a, if the map has one. -/
def findRow (a : Nat) : Option RegRow := (blockRows (blockOf a)).find? (fun r => rowHit r a)

/-- The reset value of a register from its fields. -/
def fieldsReset (fs : List FieldRow) : Nat := fs.foldl (fun n f => n + f.rst * 2 ^ f.lo) 0

/-- What an unlisted register reads: its reset value (00_scope.md R6 with the chapters' register tables); 0 where
the map has no register. The colour-matrix registers of 09_chisel_engines.md reset to the identity, AUD_CS0 to 1. -/
def regDefault (a : Nat) : Word :=
  match findRow a with
  | none => 0
  | some r =>
    if r.name == "ENG_SLOT_CM_C" then (if ((a - r.base) % 0x40) / 4 % 4 == 0 then 0x2000 else 0)
    else if r.name == "AUD_CS" then (if a == r.base then 1 else 0)
    else BitVec.ofNat 32 (fieldsReset r.fields)

end Sys2Proof.Machine
end

