-- ==== Sys2Proof/Machine/State.lean ====
section
/-! DEFINITION. The state of the block as plain data: every register (the register file `regs`), every buffer, queue,
counter, mode and pin the spec gives the device, grouped by chapter, and the queue of waiting commands.
`State.reset` is the device as it leaves RESET after power-on (02_modes_boot.md R30, R33, R52). -/

namespace Sys2Proof.Machine

/-- A level of an output pin: undriven, low or high (02_modes_boot.md R48, 21_pins_electrical.md R520). -/
inductive Pin where
  | hiz | low | high
  deriving DecidableEq, Repr

/-- What leaves the device, in order: messages, read completions, replies, frames and lines. The field `out` of
State records it; no rule reads it back. -/
inductive Output where
  /-- an MSI-X message: vector, address, data (19_host_fabric.md R470, R471) -/
  | msix (vec : Nat) (addr : Nat) (data : Word)
  /-- data returned to a fabric master by a register read -/
  | readData (master : Nat) (addr : Nat) (data : Word)
  /-- data returned by a wide read of a queue window (08_queues_memory.md R211) -/
  | queueWord (master : Nat) (q : Nat) (bytes : List Nat) (tag : Nat)
  /-- data returned by any other read of BAR2: offset, bytes (08_queues_memory.md R224, R225) -/
  | bar2Data (addr : Nat) (bytes : List Nat)
  /-- a memory request answered as Unsupported Request (19_host_fabric.md R468) -/
  | unsupported (master : Nat) (addr : Nat)
  /-- bytes the management I2C target returns, the status byte first (19_host_fabric.md R487) -/
  | i2c (bytes : List Nat)
  /-- the management I2C target does not acknowledge a byte (R487) -/
  | i2cNack
  /-- a frame of a MAC transmitter (06_ethernet_mac.md) -/
  | macFrame (mac : Nat) (bytes : List Nat)
  /-- a PAUSE-free idle, a fault ordered set or another link signal of a MAC -/
  | macSignal (mac : Nat) (code : Nat)
  /-- a line that leaves: the lane of an SDI output, or the destination from D512 on, line number, words
  (04_stream_crosspoint.md R84; 05_serial_video.md R125) -/
  | line (dest : Nat) (ln : Nat) (words : List Nat)
  /-- what an SDI output adds to the frame that begins: PID_MODE and payload ID, embedded groups, level B, inserted
  records (05_serial_video.md R127-R130, R138) -/
  | sdiFrame (lane : Nat) (pidMode : Nat) (pid : Nat) (emb : Nat) (levelB : Bool) (anc : List (List Nat))
  /-- the MSA of a frame on DisplayPort link k: Mvid, Nvid, horizontal and vertical total, width and height, MISC0
  (05_serial_video.md R141; 10_composition.md R276) -/
  | msa (k : Nat) (mvid nvid : Nat) (htotal vtotal : Nat) (w h : Nat) (misc0 : Nat)
  /-- DisplayPort link k starts to send the idle pattern (R141) -/
  | dpIdle (k : Nat)
  /-- an AUX transaction on DisplayPort link k: op, address, length or data -/
  | aux (k : Nat) (op : Nat) (addr : Nat) (len : Nat) (data : List Nat)
  /-- a message on the mirror link: kind and words (16_redundant_pair.md) -/
  | mirror (kind : Nat) (words : List Nat)
  /-- the acknowledgement of a message received on the mirror link, by its sequence number (R398) -/
  | mirrorAck (n : Nat)
  /-- a pulse or edge on a pin: pin name and level -/
  | pin (name : String) (level : Nat)
  /-- a frame that leaves on SAP_DOUT: port, slots, none where the pin is high-impedance (12_audio_ports.md R300) -/
  | dout (port : Nat) (slots : List (Option Nat))
  /-- what TDO shifts out of the data register in force, its first bit lowest (20_test_perturbation.md R497) -/
  | jtag (dr : Nat)
  /-- what the boundary register drives on the pins under EXTEST, its pulse and train forms and CLAMP (R497, R498) -/
  | boundary (cells : List Bool)
  /-- a tile or band composed for a head or slot -/
  | pixels (head : Nat) (tile : Nat) (words : List Nat)
  deriving DecidableEq, Repr

/-- Where a load attempt takes its image from (02_modes_boot.md R36, R37, Table 17.6 event 0x0003). -/
inductive LoadSrc where
  | plinth | slotA | slotB | host
  deriving DecidableEq, Repr

/-- Boot, reset and pin-level state of 02_modes_boot.md and 21_pins_electrical.md. -/
structure Core where
  /-- RESET_N after its filter, true = high (R30) -/
  resetN : Bool := true
  /-- MODE_SEL[1:0] straps (R32) -/
  modeSel : Nat := 0
  /-- supply monitors within limits, bit i in the order of Table 2.3, bit 0 VHOLD (R31, R504) -/
  supplyOk : BitVec 9 := 0x1FF
  /-- causes since the last entry to BOOT, bits as GLOBAL_RESET_CAUSE (R52) -/
  causes : BitVec 6 := 0
  /-- load attempt under way: its source, and whether it is the second one of that slot (R36) -/
  load : LoadSrc := .slotA
  second : Bool := false
  /-- the sources still to be tried after this one (R36) -/
  loadQueue : List LoadSrc := [.slotB]
  /-- the image has been streamed and hashed but step 6 has not ended, or the reverse (R33) -/
  streamDone : Bool := false
  hbmDone : Bool := false
  /-- a SAFE request waits for the end of the boot step (R46) -/
  safeReq : Bool := false
  /-- the image length of a host load in 4 KiB units (R37) -/
  hostLen : Nat := 0
  /-- the bytes of the image whose digest was computed last, the only ones that are applied (03_admet_image.md R59) -/
  hashed : List Nat := []
  /-- the heat phase under way has lasted 900 s (R41) -/
  heatPast : Bool := false
  /-- the fault groups whose vector has left in the cycle under way; none outside one (17 R421) -/
  vecs : Option (List Nat) := none
  /-- master and offset of the refusal that the captures hold, in a cycle of several (03 R76) -/
  refusal : Option (Nat × Nat) := none
  /-- every LVCMOS output is high-impedance and every CML output undriven, whatever its level below (R48) -/
  undriven : Bool := false
  /-- time-domain ticks since the device last left RESET (Table 17.5 TIME with TV = 0) -/
  sinceReset : Nat := 0
  /-- filtered levels of the fifteen filtered inputs in the order of PINCTL_IN_LVL: REFFP_A-D 0-3, AUD_START 4,
  TCI 5-8, ARB_ROLE 9, POWER_FAIL_N 10, DP_HPD 11-14 (R510, Table 21.16) -/
  filtered : BitVec 15 := 0x400
  /-- THERM_TRIP_N, FAULT_N, MGMT_ALERT_N (R47, R418, R419) -/
  thermTrip : Pin := .hiz
  faultN : Pin := .high
  mgmtAlertN : Pin := .high
  /-- ARB_HEALTH[1:0], ARB_BEAT, SWITCH_WIN (16_redundant_pair.md R393, R394, R396) -/
  arbHealth : Nat := 0
  arbBeat : Pin := .low
  switchWin : Pin := .low
  /-- REF_ST0, REF_ST1, REF_ALM_N, WCLK_OUT running and its level, TPO[7:0] (14_reference.md R358, R359, R368, R369) -/
  refSt0 : Nat := 0
  refSt1 : Nat := 0
  refAlmN : Pin := .high
  wclkRun : Bool := false
  wclk : Bool := false
  /-- PLANE0_FP and PLANE1_FP (R368) -/
  planeFp : BitVec 2 := 0
  tpo : BitVec 8 := 0
  /-- FLASH_WP_N; QSPI_CS_N[1:0], QSPI_IO[3:0], QSPI_CLK, TDO between transfers (21_pins_electrical.md Table 21.14) -/
  flashWpN : Pin := .low
  qspiCsN : Pin := .high
  qspiIo : Pin := .hiz
  qspiClk : Pin := .low
  tdo : Pin := .hiz
  /-- consecutive CRC failures of the transfer in flight on the die bridge, north to south and south to north
  (01_architecture.md R12) -/
  bridgeN2S : Nat := 0
  bridgeS2N : Nat := 0
  deriving DecidableEq, Repr

/-- One Patina record before it takes its SEQ and its slot (17_faults_patina.md R424 Table 17.5). -/
structure PatRec where
  event : Nat
  time : Nat
  boot : Nat
  source : Nat := 0x7FF
  master : Nat := 0
  sev : Nat := 0
  tv : Bool := false
  locked : Bool := false
  payload : List Nat := []
  deriving DecidableEq, Repr

/-- One item of the Keep state (17_faults_patina.md R433): a video destination, an audio destination, a mix entry
(64 * bus + input). -/
inductive KeepItem where
  | video (d : Nat) | audio (b : Nat) | mix (i : Nat)
  deriving DecidableEq, Repr

/-- A Keep item with its value: the 16-bit item, or the two words of a mix entry. -/
structure KeepVal where
  item : KeepItem
  v0 : Nat
  v1 : Nat := 0
  deriving DecidableEq, Repr

/-- A record of the settings store (18_image_update.md R459, R461): kind 0 data, 1 tombstone, 2 CAST marker, 3 CONFIRMED
marker, 4 FALLBACK marker; KEY; FMT; sequence number; data bytes, those of a CAST marker being the new FMT; the CRC-32; has
the commit word been programmed? -/
structure SetRec where
  kind : Nat
  key : Nat
  fmt : Nat
  seq : Nat
  data : List Nat := []
  crc : Nat := 0
  commit : Bool := true
  deriving DecidableEq, Repr

/-- The long-life state: MRAM, flash, and what the aon domain holds (17_faults_patina.md, 18_image_update.md). -/
structure Long where
  /-- MRAM bytes (R423 Table 17.4); an unlisted byte reads 0 -/
  mram : List Host.Cell := []
  /-- halves of 64-bit words of the MRAM that read as uncorrectable until they are written, by offset / 4; words with an
  error that the check bits correct, and words whose cells have failed for good, by offset / 8 (R423) -/
  mramBad : List Nat := []
  mramSoft : List Nat := []
  mramDead : List Nat := []
  /-- write protection of Table 17.7 step 7 -/
  protect : Bool := false
  /-- flash bytes (18 R443 Table 18.1); an unlisted byte reads 0xFF -/
  flash : List Host.Cell := []
  /-- the aon domain's lifetime counts by counter number (R439 Table 17.10) -/
  life : List (Nat × Nat) := []
  /-- the settings store: the bank in use, its records oldest first, the next sequence number (18 R459-R462) -/
  setBank : Nat := 0
  settings : List SetRec := []
  setSeq : Nat := 0
  deriving DecidableEq, Repr

/-- A flush of the Keep writer: its items with their values, and how many have their log entry (R434). -/
structure KeepFlush where
  items : List KeepVal := []
  done : Nat := 0
  deriving DecidableEq, Repr

/-- A snapshot being written: its bank, its GEN, the bytes still to write, the values (R435). -/
structure SnapJob where
  bank : Nat
  gen : Nat
  left : Nat
  vals : List KeepVal := []
  deriving DecidableEq, Repr

/-- The Patina writer and the Keep writer (17_faults_patina.md R425-R438). -/
structure Patina where
  /-- records waiting for the writer, oldest first (R427) -/
  pendingRecs : List PatRec := []
  /-- the record whose word 0 write has begun, with its SEQ, its slot and the words already written -/
  inFlight : Option (PatRec × Nat × Nat) := none
  /-- records lost since the last RECORDS_DROPPED record: count, first and last source -/
  lost : Nat := 0
  lostFirst : Nat := 0
  lostLast : Nat := 0
  /-- Keep writer: a bank is in use, which one, its GEN, the next log entry, the number of the last complete flush -/
  keepBank : Option Nat := none
  keepGen : Nat := 0
  keepPos : Nat := 0
  keepFlush : Nat := 0
  /-- values as of the last complete flush, by item -/
  keepSnap : List KeepVal := []
  /-- items changed and not yet taken by a flush -/
  dirty : List KeepItem := []
  /-- a held CLEAR of R438 -/
  clearHeld : Bool := false
  /-- the final flush was taken but did not end with its FLUSH entry (R432): its items -/
  finalOpen : List KeepVal := []
  /-- items of the final flush waiting for KEEP_FINAL_FLUSH -/
  finalItems : List KeepVal := []
  /-- no bank was usable at the restore, so the first boundary writes a snapshot (R437) -/
  needSnap : Bool := false
  /-- flushes taken and not yet complete, oldest first (R434) -/
  flushes : List KeepFlush := []
  /-- the snapshot being written, if any (R435, R437, R438) -/
  snapJob : Option SnapJob := none
  /-- a vote of R440 found copies that disagree: LIFE_VOTE is raised once the device has left RESET -/
  voteBad : Bool := false
  /-- uncorrectable and corrected words met in RESET: MRAM_UNCORR and MRAM_CORR are raised for each once the device has
  left it (R423) -/
  badSeen : Nat := 0
  corrSeen : Nat := 0
  /-- bands of Table 17.10, by counter number, that TJ_MAX has been in since the last update of the counters (R439) -/
  bands : List Nat := []
  /-- condition sources present now, by source number (R416 Table 17.3) -/
  conds : List Nat := []
  deriving DecidableEq, Repr

/-- A request held back by the fabric (19_host_fabric.md R476, R479, R480). -/
structure HeldReq where
  master : Nat
  write : Bool
  /-- a BAR0 offset; a BAR2 offset where `port` is not 0 -/
  addr : Nat
  /-- the word a write of BAR0 carries; the length of a read of BAR2, 0 for a request of which only its place is held -/
  data : Word := 0
  /-- the target, T20 to T29, of a request to no register of BAR0; 0 for a register -/
  port : Nat := 0
  /-- the bytes a write of BAR2 carries; what the memory word of a read of BAR2 holds -/
  bytes : List Nat := []
  /-- an access of BAR0 of another size or alignment than R472 allows -/
  bad : Bool := false
  deriving DecidableEq, Repr

/-- A request that the matrix has issued to target T20 to T29 and not yet seen answered (R476). -/
structure OutReq where
  master : Nat
  write : Bool
  port : Nat
  deriving DecidableEq, Repr

/-- A hung access (19_host_fabric.md R482). -/
structure Hung where
  master : Nat
  write : Bool
  bar : Nat
  addr : Nat
  /-- its detector has expired (R483) -/
  expired : Bool := false
  deriving DecidableEq, Repr

/-- The configuration space of the PCIe function (19_host_fabric.md R466 Table 19.1): what it identifies itself with and
offers, and the bases of BAR0 and BAR2 that the host has set. MSI-X Enable and the function mask stand in `Fabric`, the power
state in FABRIC_PCIE_STAT. -/
structure PcieConfig where
  vendor : Nat := 0x1F6E
  device : Nat := 0x1024
  revision : Nat := 0x10
  classCode : Nat := 0x048000
  subsystemVendor : Nat := 0x1F6E
  subsystem : Nat := 1
  maxPayload : Nat := 256
  maxReadRequest : Nat := 512
  bar0 : Nat := 0
  bar2 : Nat := 0
  deriving DecidableEq, Repr

/-- Host interface and control fabric (19_host_fabric.md). -/
structure Fabric where
  config : PcieConfig := {}
  msixEnable : Bool := false
  msixMask : Bool := false
  held : List HeldReq := []
  hung : List Hung := []
  /-- requests issued and not answered but for hung ones, oldest first -/
  issued : List OutReq := []
  /-- the master granted last at each target, by target number; M8, so that M0 comes first, where none was (R478) -/
  granted : List (Nat × Nat) := []
  /-- 64-bit read latches: (master * 2^26 + address of the high word, value) (R473) -/
  latches : List (Nat × Nat) := []
  /-- per-master copies of IMG_RB_ADDR, IMG_OWN_QUERY: (2 * master + which, value) -/
  perMaster : List (Nat × Nat) := []
  /-- MGMT_ADDR[2:0] as last sampled: the target's address is 0x58 plus it (R486) -/
  mgmtAddr : Nat := 0
  /-- management I2C: last status, data of the last REG_READ -/
  i2cStatus : Nat := 0
  i2cData : Option Word := none
  /-- the register command M8 holds and has not seen answered -/
  i2cPending : Option HeldReq := none
  deriving DecidableEq, Repr

/-- An armed fault injection (20_test_perturbation.md R493): checker, mask, observations left and corrupted. -/
structure Inj where
  cls : Nat
  idx : Nat
  mask : Nat
  left : Nat
  done : Nat
  deriving DecidableEq, Repr

/-- Test facilities (20_test_perturbation.md). -/
structure Test where
  inj : Option Inj := none
  /-- MACs stalled by TEST_PERT_MAC (R496) -/
  stalled : List Nat := []
  /-- LFSR of TEST_PERT_MON -/
  lfsr : Nat := 0
  /-- JTAG instruction register and whether the tester holds the pins (R497, R498); the bypass register, and what has
  last been loaded into the boundary register -/
  jtagIr : Nat := 1
  jtagPins : Bool := false
  jtagBypass : Bool := false
  boundary : List Bool := []
  deriving DecidableEq, Repr

/-- One section of the image in force (03_admet_image.md Table 3.3). -/
structure Section where
  type : Nat
  off : Nat
  len : Nat
  arm : Bool
  deriving DecidableEq, Repr

/-- The image in force (03_admet_image.md): its directory and the bytes of header and sections, image offset to
byte, zero bytes not listed. Everything the armature fixes is read from these bytes. -/
structure Img where
  sections : List Section := []
  bytes : List (Nat × Nat) := []
  /-- the OWN table (R67, R68): resource ID to owner code -/
  own : List (Nat × Nat) := []
  deriving DecidableEq, Repr

/-- Image update (18_image_update.md). -/
structure Update where
  /-- operation running in the flash block: OP, address (R444) -/
  flashOp : Option (Nat × Nat) := none
  /-- slot under verification, 0 A and 1 B (R445) -/
  verifying : Option Nat := none
  /-- cast under way: slot cast (1 A, 2 B), NOCARRY, whether it is a fall-back (R446, R456) -/
  cast : Option (Nat × Bool × Bool) := none
  /-- the preload of the cast has succeeded: its bytes stand in the staging area (R447) -/
  preloaded : Bool := false
  /-- slot that an unconfirmed window falls back to (R456) -/
  previous : Nat := 0
  /-- values in force captured at step 1 of a cast (R450) -/
  carried : Option StateCopy := none
  /-- tick of P0, and of the opening of the confirm window (R448, R454) -/
  pauseStart : Nat := 0
  /-- planes whose outputs carry the black of the pause; the violation for which a block rejects the new armature; step 3 of
  Table 18.3 has taken effect; the image before it (R448, R453) -/
  black : List Nat := []
  rej : Option (Nat × Nat) := none
  applied : Bool := false
  outgoing : Img := {}
  windowOpen : Bool := false
  windowAt : Nat := 0
  /-- settings operation running, and one that waits for the end of BOOT: OP, KEY (R460) -/
  setOp : Option (Nat × Nat) := none
  setWaiting : Option (Nat × Nat) := none
  /-- word pointer and data words of IMG_SET_DATA -/
  setPtr : Nat := 0
  setBuf : List (Nat × Nat) := []
  deriving DecidableEq, Repr

/-- One line of a stream: its line number and its words (04_stream_crosspoint.md R83). -/
structure Ln where
  ln : Nat
  words : List Nat
  deriving DecidableEq, Repr

/-- The lines a source (or one lane of a quad-link source) has delivered: the ring of two lines (R87), the frame being
built, the last whole frame. -/
structure SrcLines where
  ring : List Ln := []
  build : List Ln := []
  prev : List Ln := []
  deriving DecidableEq, Repr

/-- The 16-line FIFO of an untimed source and plane (R88): waiting lines oldest first, the line read last, the plane
line it was read for. -/
structure Fifo where
  lines : List Ln := []
  cur : Option Ln := none
  at_ : Option Nat := none
  deriving DecidableEq, Repr

/-- A whole frame in a synchroniser's store: the format and sampling of its source, whether its lines are those of SDI
lanes, blanking and all, and the lines of each lane (one list where the source has one). -/
structure SyncFrame where
  fmt : Nat := 0
  samp : Nat := 0
  square : Bool := false
  whole : Bool := false
  levelB : Bool := false
  lanes : List (List Ln) := []
  deriving DecidableEq, Repr

/-- A frame synchroniser (R107-R110): settings in force, the source of its write side, frames completed since the last
selection with the newest, the frame shown, missing frames counted, selections at which none is counted, whether the
hold timer runs, whether the black of a loss is shown. -/
structure Fsync where
  en : Bool := false
  lossAct : Bool := false
  holdMs : Nat := 0
  wsrc : Option Nat := none
  fresh : Nat := 0
  newest : Option SyncFrame := none
  shown : Option SyncFrame := none
  miss : Nat := 0
  skip : Nat := 0
  held : Bool := false
  lost : Bool := false
  timer : Bool := false
  lossBlack : Bool := false
  /-- a staging granule failed: the frame being written is not complete (09_chisel_engines.md R251) -/
  spoiled : Bool := false
  deriving DecidableEq, Repr

/-- The path a destination chose at its switch point (R90, R106). -/
inductive Path where
  | black | ring | fifo | sync
  deriving DecidableEq, Repr

/-- One destination: its path, the format, sampling and division of what it carries, its synchroniser, the line it
delivered last. -/
structure Dest where
  path : Path := .black
  fmt : Nat := 0
  samp : Nat := 0
  square : Bool := false
  levelB : Bool := false
  fs : Fsync := {}
  line : Option Ln := none
  deriving DecidableEq, Repr

/-- One take of a part: destination, and source or black. -/
structure Take where
  dest : Nat
  src : Option Nat
  deriving DecidableEq, Repr

/-- The part of a salvo in one plane (R98): its takes, its execution frame, whether R101 already calls it late, whether
it is in the batch of the coming switch point, whether it has executed. -/
structure Part where
  plane : Nat
  takes : List Take
  due : Option Nat := none
  late : Bool := false
  inBatch : Bool := false
  executed : Bool := false
  deriving DecidableEq, Repr

/-- A salvo the take engine has validated and not yet freed (R96, R97): count of its first record, records, TAG, refused,
parts; whether the mirror agent treats it, has forwarded it, and holds its acknowledgement (16 R403-R406). -/
structure Salvo where
  first : Nat
  n : Nat
  tag : Nat := 0
  refused : Bool := false
  parts : List Part := []
  agent : Bool := false
  fwd : Bool := false
  acked : Bool := false
  deriving DecidableEq, Repr

/-- Crosspoint (04_stream_crosspoint.md). -/
structure XpSt where
  /-- count up to which the ring has been validated -/
  validated : Nat := 0
  /-- tails abandoned behind salvos that still wait for validation: count of the first record, records (R96) -/
  abandoned : List (Nat × Nat) := []
  /-- count up to which the standby's journal has committed (16 R402) -/
  journalTo : Nat := 0
  /-- execution frames the journal gave, by count of first record: (first, plane, frame) -/
  journalDue : List (Nat × Nat × Nat) := []
  salvos : List Salvo := []
  /-- the batch of plane 0 and of plane 1 stopped at 2,048 -/
  full0 : Bool := false
  full1 : Bool := false
  /-- lines by source (quad-link members by lane) -/
  src : List (Nat × SrcLines) := []
  /-- FIFOs by 2 * source + plane -/
  fifo : List (Nat × Fifo) := []
  dests : List (Nat × Dest) := []
  /-- lines last read by each destination from D512 on, by line: what flows, slots and layers take -/
  destLines : List (Nat × List (Nat × List Nat)) := []
  /-- how each of those lines was read: 0 as black, else 1 + the sampling -/
  destMode : List (Nat × List (Nat × Nat)) := []
  /-- lines that heads and slots present now, by source and line (09 R242, 10 R257) -/
  made : List (Nat × List (Nat × List Nat)) := []
  /-- running CRC-32 of the words an SDI output has carried since the switching line (16 R408) -/
  sdiCrc : List (Nat × Nat) := []
  /-- pattern and colour in force by generator (R91) -/
  tpg : List (Nat × (Nat × Nat)) := []
  /-- last frame periods in ps by source, newest first (R89) -/
  periods : List (Nat × List Nat) := []
  /-- consecutive frames in the alignment window by 2 * source + plane (R85) -/
  inWin : List (Nat × Nat) := []
  /-- quad-link lanes that slip, as 2 * lane + plane (R111) -/
  slips : List Nat := []
  /-- last line delivered of a lane, by 2 * lane + plane (R111) -/
  laneLast : List (Nat × List Nat) := []
  /-- time-clock tick of the last switch point, by plane (R83, 07 R179) -/
  switchAt : List (Nat × Nat) := []
  /-- destinations whose source has changed since their batch was last recorded (Table 4.9 step 6, 17 R434) -/
  changed : List Nat := []
  deriving DecidableEq, Repr


/-- An insertion channel of an SDI output (05_serial_video.md R138): control and queue in force, records of its set. -/
structure AncIns where
  ctrl : Nat := 0
  q : Nat := 0
  set : List (List Nat × Bool) := []
  deriving DecidableEq, Repr

/-- One VID lane (05_serial_video.md): the rate code the search tries, transmitter settings in force (R126), frame count,
whether line 1 of the frame in hand is counted in it already, whether the frame holds an errored line (R122), the active
words of the line before by data stream, the DID positions marked for deletion in the line being received (R136), whether
a valid payload ID has been received (R129), capture filters in force by 2 n (FILT) and 2 n + 1 (Q), insertion channels;
of the transmitter: the payload ID mode, ID and records of the frame being sent, the active words of each stream of the
line sent last, by data stream, the parity of the frame being sent, embedded samples that wait for a line (by group, four
samples), the next data block number of each group. -/
structure Lane where
  rate : Nat := 0
  tx : Nat := 0x2001
  fc : Nat := 0
  fcDone : Bool := false
  frameErr : Bool := false
  tails : List (Nat × List (List Nat)) := []
  pidSeen : Bool := false
  pidOut : Nat × Nat := (3, 0)
  recs : List (List Nat) := []
  sent : List (Nat × List (List Nat)) := []
  parity : Bool := false
  emb : List (Nat × List Nat) := []
  dbn : List (Nat × Nat) := []
  marks : List Nat := []
  filt : List (Nat × Nat) := []
  ins : List (Nat × AncIns) := []
  deriving DecidableEq, Repr

/-- One DisplayPort link (05_serial_video.md R142-R145): HPD low and not yet an unplug, an IRQ_HPD waiting, the link's
read of the sink status under way, TRAIN's read of the sink's capabilities wanted, and under way, the retries of either, the
host's transaction (op, address, length, data) with the retries made, and whether it has been sent. -/
structure DpLink where
  low : Bool := false
  irq : Bool := false
  reading : Bool := false
  capWant : Bool := false
  capRead : Bool := false
  readRetries : Nat := 0
  host : Option (Nat × Nat × Nat × List Nat) := none
  sent : Bool := false
  retries : Nat := 0
  deriving DecidableEq, Repr

/-- Serial lanes and DisplayPort links. -/
structure VlaneSt where
  lanes : List (Nat × Lane) := []
  dp : List (Nat × DpLink) := []
  deriving DecidableEq, Repr


/-- A frame in a transmit queue of a port, from DA up to the FCS, with the host label of a TS_REQ frame
(06_ethernet_mac.md R156, R164). -/
structure TxFrame where
  bytes : List Nat
  tsTag : Option Nat := none
  deriving DecidableEq, Repr

/-- A packet that found its transmit queue full and holds back (06_ethernet_mac.md R156; 07_media_flows.md R186): the
traffic class, which chooses the queue when it is placed, the leg, the flow's kind and number, the frame. -/
structure HeldPkt where
  cls : Nat
  leg : Nat
  kind : Nat
  flow : Nat
  frame : TxFrame
  deriving DecidableEq, Repr

/-- One packet port (06_ethernet_mac.md). -/
structure MacPort where
  /-- every lane's CDR of the port is locked -/
  cdr : Bool := false
  /-- fault sequences are being received (R150) -/
  fault : Bool := false
  /-- a frame in reception when EN changed completes first; EN = 0 has closed the receive direction, and the transmit
  direction, which starts no frame more (R151) -/
  rxLast : Bool := false
  rxShut : Bool := false
  txShut : Bool := false
  /-- bytes of received frames that the port's share of its group's receive buffer holds (R153) -/
  rxBuf : Nat := 0
  /-- transmit queues 0 to 7, as (queue, frames oldest first) -/
  txq : List (Nat × List TxFrame) := []
  /-- the frame in transmission -/
  cur : Option TxFrame := none
  /-- packets of the flow engine that wait for room, oldest first -/
  waiting : List HeldPkt := []
  /-- frames the port has written to exception queues (Table 6.7 SEQ) -/
  excSeq : Nat := 0
  deriving DecidableEq, Repr


/-- A frame in a dejitter buffer (07_media_flows.md R180, R189): RTP timestamp, numbers of the packets stored with
whether each carries the marker, and what they hold: key (line, or packet number), offset, values. -/
structure RxFrame where
  ts : Nat
  seqs : List (Nat × Bool) := []
  segs : List (Nat × Nat × List Nat) := []
  recs : List (Nat × List Nat) := []
  deriving DecidableEq, Repr

/-- Both paths of a receive flow (R182): numbers seen this window and the last one with path and arrival in ns, the sum
and count of this window's skews, the excluded path, whether each path delivers. -/
structure Paths where
  seen : List (Nat × Nat × Nat) := []
  old : List (Nat × Nat × Nat) := []
  sum : Int := 0
  n : Nat := 0
  excl : Option Nat := none
  live0 : Bool := false
  live1 : Bool := false
  deriving DecidableEq, Repr

/-- A receive flow of any kind: settings in force, paths, buffered frames (video, ANC) or samples (audio: media tick,
samples by channel), the frame or sample read last, the previous frame as delivered, underruns in a row. -/
structure RxFlow where
  cfg : Nat := 0
  delay : Nat := 0
  paths : Paths := {}
  frames : List RxFrame := []
  samples : List (Nat × List Nat) := []
  nums : List Nat := []
  /-- RTP timestamp or media tick of the frame or sample being read; the last line read -/
  cur : Option Nat := none
  line : Nat := 0
  under : Bool := false
  unders : Nat := 0
  build : List (Nat × List Nat) := []
  prev : List (Nat × List Nat) := []
  havePrev : Bool := false
  /-- media time of the last frame in 90 kHz ticks, and the step to it in ps -/
  lastK : Nat := 0
  stepPs : Nat := 0
  /-- last packet number of the previous frame, where it is known -/
  lastNum : Option Nat := none
  /-- audio: first tick of a packet, first tick of the packet time last counted as underrun; ANC: frames closed -/
  grid : Nat := 0
  missed : Option Nat := none
  count : Nat := 0
  /-- packets discarded as duplicates (R182); an underrun's repetition goes on to the group's next frame boundary (R191) -/
  dups : Nat := 0
  slip : Bool := false
  deriving DecidableEq, Repr

/-- A transmit flow of any kind: next RTP sequence number (32 bits; the packet carries 16, the extension the rest), the
next packet of the frame, the frame's timestamp, the legs' contexts for the frame, settings in force, records to send. -/
structure TxFlow where
  seq : Nat := 0
  p : Nat := 0
  ts : Nat := 0
  frames : Nat := 0
  cfg : Nat := 240 * 65536
  ctx : List (Nat × List Nat) := []
  ins : AncIns := {}
  /-- running CRC-32 of the frame's payloads and that of the last whole frame (16_redundant_pair.md R408) -/
  crc : Nat := 0xFFFFFFFF
  sig : Nat := 0
  deriving DecidableEq, Repr

/-- The flow engine (07_media_flows.md). -/
structure FlowSt where
  /-- committed leg contexts of 8 words (R172); an unlisted leg holds zeros -/
  legs : List (Nat × List Nat) := []
  /-- next packet number expected on a receive leg, plus 1 (FLOW_LEG_GAP) -/
  legNext : List (Nat × Nat) := []
  vrx : List (Nat × RxFlow) := []
  arx : List (Nat × RxFlow) := []
  nrx : List (Nat × RxFlow) := []
  vtx : List (Nat × TxFlow) := []
  atx : List (Nat × TxFlow) := []
  ntx : List (Nat × TxFlow) := []
  /-- sample at each packet audio receive position, and the flow that delivered it plus 1 -/
  rxPos : List (Nat × (Nat × Nat)) := []
  /-- the last 48 samples, oldest first, at each packet audio transmit position -/
  txPos : List (Nat × List Nat) := []
  deriving DecidableEq, Repr

/-- One 32-byte word of a queue: its bytes as stored, and its tag bits (08_queues_memory.md R207, Table 8.6). -/
structure QWord where
  bytes : List Nat := []
  last : Bool := false
  trunc : Bool := false
  deriving DecidableEq, Repr

/-- One queue as its descriptor shows it (R203 Table 8.5): the words from HEAD on, the word of its cell at which HEAD
stands, RD and MARK as words from HEAD, the words of the open record at the tail, the cells held from the head cell to
the tail cell, by index. -/
structure Queue where
  words : List QWord := []
  cells : List Nat := []
  off : Nat := 0
  rd : Nat := 0
  mark : Option Nat := none
  opn : Bool := false
  openWords : Nat := 0
  trunc : Bool := false
  overrun : Bool := false
  poison : Bool := false
  frozen : Bool := false
  /-- the capacity the host has set; none = the group's DEF_CAP -/
  cap : Option Nat := none
  /-- the cell that a hot slot's head SRAM holds, and its words that were uncorrectable when fetched (08 R205) -/
  sram : Option Nat := none
  sramBad : List Nat := []
  deriving DecidableEq, Repr

/-- A request held at the bound of a stack: stack, class of R197 (0 line-paced, 1 queue manager, 2 others), requester. -/
structure HbmReq where
  stack : Nat
  cls : Nat
  who : Nat
  deriving DecidableEq, Repr

/-- Queue manager and HBM (08_queues_memory.md). -/
structure QueueSt where
  queues : List (Nat × Queue) := []
  /-- descriptors in the cache beside those of the hot queues, most recently used first (R204) -/
  dcache : List Nat := []
  held : List HbmReq := []
  /-- the requester served last, by 4 * stack + class -/
  served : List (Nat × Nat) := []
  /-- the scrubber's next word: stack and byte offset (R220) -/
  scrubStack : Nat := 0
  scrubOff : Nat := 0
  /-- the staging area (R196) and the SURF region (10_composition.md R264), bytes; how many times their content has
  become undefined (02 Table 2.7, 18 Table 18.4) -/
  staging : List Host.Cell := []
  surf : List Host.Cell := []
  lost : Nat := 0
  /-- frame stores whose reader holds the second buffer (R222) -/
  second : List Nat := []
  deriving DecidableEq, Repr


/-- A pixel in the internal form: three components and alpha (09_chisel_engines.md R233, 10_composition.md R263). -/
structure Px where
  c0 : Nat
  c1 : Nat
  c2 : Nat
  a : Nat := 1023
  deriving DecidableEq, Repr

/-- A task of the engines (09_chisel_engines.md R244-R246): slot or head, its number, the frame, the band or tile, the
kernel's code, its place in the chain or its layer, portable, aborted once already, counted as held back. -/
structure Task where
  head : Bool
  obj : Nat
  frame : Nat
  unit : Nat
  kernel : Nat
  idx : Nat
  portable : Bool
  again : Bool := false
  held : Bool := false
  deriving DecidableEq, Repr

/-- A frame as a destination read it: its format and sampling, its lines, whether they are those of a quad link in square
division (05_serial_video.md R124). -/
structure Frame where
  fmt : Nat
  samp : Nat
  lines : List (Nat × List Nat)
  square : Bool := false
  deriving DecidableEq, Repr

/-- One input frame of a process slot with the settings in force for it (R242, R243): PLANE_FC of its start, format and
sampling, registers, TLUT set and coefficient sets in use, the row of Table 11.2, bands issued, bands with the kernels
completed, bands that cannot be finished for want of their kernel data (08 R214, R219), the words read by line. -/
structure SlotFrame where
  fc : Nat := 0
  fmt : Nat := 0
  samp : Nat := 0
  square : Bool := false
  ctrl : Nat := 0
  cm : List Nat := []
  offIn : Nat := 0
  offOut : Nat := 0
  scl : Nat := 0
  tlut : List (Nat × Nat) := []
  coef : List (Nat × Nat) := []
  row : Nat := 0
  /-- the destination takes any format, so that DEINT passes a frame that does not need it (R240) -/
  anyFmt : Bool := false
  lines : List (Nat × List Nat) := []
  issued : List Nat := []
  done : List Nat := []
  lost : List Nat := []
  deriving DecidableEq, Repr

/-- A process slot: the frame being read and the one before, whether a previous output frame exists, whether the output
frame being presented holds a replaced band. -/
structure SlotSt where
  cur : Option SlotFrame := none
  old : Option SlotFrame := none
  hadOut : Bool := false
  lateNow : Bool := false
  deriving DecidableEq, Repr

/-- The engines (09_chisel_engines.md). -/
structure EngSt where
  /-- deques by cluster, head first (R245) -/
  deques : List (Nat × List Task) := []
  /-- tasks the sequencers of a quadrant have issued and not yet pushed -/
  waiting : List (Nat × List Task) := []
  /-- running tasks by engine -/
  running : List (Nat × Task) := []
  /-- engines told to abort that have not asked for work since (R252) -/
  aborting : List Nat := []
  /-- engine cycles used in the running second, by home quadrant -/
  cycles : List (Nat × Nat) := []
  /-- TLUT sets: shadow and committed contents, by 16,384 * set + entry (R235, R243) -/
  tlutSh : List (Nat × Nat) := []
  tlut : List (Nat × Nat) := []
  slots : List (Nat × SlotSt) := []
  /-- the copy of KLIB in granules 0 to 3 of every cluster (R228, 03 R64) -/
  klib : List Nat := []
  deriving DecidableEq, Repr

/-- A layer as the composition frame in hand uses it (10_composition.md R257-R263): descriptor in force, frame selected,
field, row of Table 11.2. -/
structure LayerIn where
  l : Nat
  w : List Nat
  frame : Option Frame
  field : Nat
  row : Nat
  deriving DecidableEq, Repr

/-- A layer between frames: committed descriptor and the one in force, newest closed frame not yet selected, held frame,
row of the last decision. -/
structure LayerSt where
  committed : List Nat := []
  force : List Nat := []
  closed : Option Frame := none
  shown : Option Frame := none
  row : Nat := 0
  deriving DecidableEq, Repr

/-- A composition head: PLANE_FC of the frame in hand (none before the first cut-off), settings in force, path, layers
lowest first, tiles written, tasks left by tile before its COMPOSE, the closed frame, the frame its reader holds; by 1,024 *
tile + layer, the blocks decoded into WORK_Q by block number, and the scaled samples in the ENG_POOL granules; words and
blocks of a layer's surface that failed in the frame in hand (R270, R275). -/
structure HeadSt where
  k : Option Nat := none
  ctrl : Nat := 0
  bg : Nat := 0
  lin : Bool := false
  layers : List LayerIn := []
  tiles : List (Nat × List (List Px)) := []
  left : List (Nat × Nat) := []
  closed : Option (Nat × List (Nat × List (List Px))) := none
  shown : Option (Nat × List (Nat × List (List Px))) := none
  work : List (Nat × List (Nat × List (List Nat))) := []
  pool : List (Nat × List (List (Option Px))) := []
  bad : List (Nat × Nat) := []
  deriving DecidableEq, Repr

/-- Composition and scaling (10_composition.md, 11_scaling.md). -/
structure CompSt where
  heads : List (Nat × HeadSt) := []
  layers : List (Nat × LayerSt) := []
  /-- head LUTs: shadow, committed, in force, by (9 * head + table) * 16,384 + entry (R267) -/
  lutSh : List (Nat × Nat) := []
  lutCom : List (Nat × Nat) := []
  lut : List (Nat × Nat) := []
  /-- coefficients as 11-bit values: shadow, committed, in force, by (8 * bank + set) * 1,024 + entry (11 R282, R294) -/
  coefSh : List (Nat × Nat) := []
  coefCom : List (Nat × Nat) := []
  coef : List (Nat × Nat) := []
  deriving DecidableEq, Repr


/-- A serial audio port (12_audio_ports.md R297-R310): committed masks that wait for an FS, whether an FS has been seen,
good frames in a row while the clock is lost, index of the frame that began at the last FS, the receive frames waiting
with their indexes, the index awaited by the next read and the values delivered, the transmit frames waiting, the index
awaited by the next FS, the frame on the wire, the position p(n) last acted on, whether the awaited frame is awaited
without an underrun after a realignment, in each direction, whether its group has returned to IDLE since its last FS. -/
structure SapPort where
  rxPend : Option Nat := none
  txPend : Option Nat := none
  seen : Bool := false
  good : Nat := 0
  k : Nat := 0
  rx : List (Nat × List Nat) := []
  rxNext : Nat := 0
  rxCur : List Nat := []
  tx : List (Nat × List Nat) := []
  txNext : Nat := 0
  txCur : List Nat := []
  p : Nat := 0
  rxAwait : Bool := false
  txAwait : Bool := false
  idle : Bool := false
  deriving DecidableEq, Repr

/-- An ASRC block (R311, R312): the last window's phase error lay within a quarter sample; a re-centring waits for the
frame boundary; the last inputs of its channels, newest first; the channels whose newest input was flagged NA. -/
structure AsrcBlk where
  steady : Bool := false
  recentre : Bool := false
  inputs : List (Nat × List Nat) := []
  na : List Nat := []
  deriving DecidableEq, Repr

/-- A non-audio detector (R315, R316): the last samples, newest first, with PRE_NA and CS_NA as they entered; place in
the channel status block and its bit 1 of byte 0; a complete block not yet judged; blocks in a row that show 0; samples
since the last preamble. -/
structure NaDet where
  line : List (Nat × Bool × Bool) := []
  pos : Option Nat := none
  bit1 : Bool := false
  block : Option Bool := none
  zeros : Nat := 0
  age : Nat := 0
  deriving DecidableEq, Repr

/-- De-embedding of a lane (05 R132, R133; 13 R326): the groups of the frame being collected, the groups the last frame
held, groups of asynchronous audio, the elastic store, whether it has filled to its centre, the frame delivered, the last
samples of every channel. -/
structure Deemb where
  acc : List (Nat × List Nat) := []
  groups : List Nat := []
  asyncG : List Nat := []
  store : List (List Nat) := []
  primed : Bool := false
  cur : List Nat := []
  last : List (Nat × List Nat) := []
  deriving DecidableEq, Repr

/-- An audio salvo validated and not yet freed (13 R330, R331). -/
structure AudSalvo where
  first : Nat
  n : Nat
  tag : Nat := 0
  refused : Bool := false
  executed : Bool := false
  takes : List Take := []
  due : Option Nat := none
  agent : Bool := false
  fwd : Bool := false
  deriving DecidableEq, Repr

/-- An audio destination (13 R323-R333): the crossfade running, as its old source and first sample; internal samples
before DOWN or the ASRC, newest first; the NA flag of its channel status block; the sample it carries. -/
structure AudDest where
  fade : Option (Option Nat × Nat) := none
  v : List Int := []
  cs : Bool := false
  now : Nat := 0
  deriving DecidableEq, Repr

/-- A meter point (13 R338-R341): samples, sum and peak of the block in hand, the last block sums, the hold's timer, a
CLR waiting. -/
structure Meter where
  n : Nat := 0
  sum : Nat := 0
  bp : Nat := 0
  sums : List Nat := []
  timer : Nat := 0
  clr : Bool := false
  deriving DecidableEq, Repr

/-- Audio ports, ASRC and matrix (12_audio_ports.md, 13_audio_matrix.md). A sample is a number: bits [31:0] the sample,
32 V, 33 U, 34 C, 35 Z (block start), 36 NA, 37 C bits present, [50:38] the clock phase of a de-embedded sample. -/
structure AudSt where
  ports : List (Nat × SapPort) := []
  asrc : List (Nat × AsrcBlk) := []
  na : List (Nat × NaDet) := []
  deemb : List (Nat × Deemb) := []
  /-- samples of a source channel at its own rate behind its detector, newest first (R325) -/
  hist : List (Nat × List Nat) := []
  dests : List (Nat × AudDest) := []
  salvos : List AudSalvo := []
  /-- count up to which the audio take ring has been validated; what the journal has committed, and its samples -/
  validated : Nat := 0
  /-- tails abandoned behind salvos that still wait for validation: count of the first record, records (R329) -/
  abandoned : List (Nat × Nat) := []
  journalTo : Nat := 0
  journalDue : List (Nat × Nat) := []
  /-- phase of a tone generator (R337) -/
  phase : List (Nat × Nat) := []
  meters : List (Nat × Meter) := []
  /-- parity that the next sample must have after a re-phase (14 R369): 0 even, 1 odd -/
  parity : Option Nat := none
  /-- running CRC-32 of each block of 16 destinations over the frame, without its last sample, and that of the frame before
  (16 R408) -/
  sig : List (Nat × Nat) := []
  sigPrev : List (Nat × Nat) := []
  sigDone : List (Nat × Nat) := []
  /-- lines read by an SDI output of plane 1, modulo the period of its sample clock (13 R327) -/
  p1lines : List (Nat × Nat) := []
  deriving DecidableEq, Repr


/-- The selector and DPLL of one plane (14_reference.md R347-R366). Times are time-clock ticks since the device left
RESET. -/
structure RefPl where
  /-- reference inputs whose frame pulse is active on this plane's grid; inputs with a pulse to judge the next one by -/
  fp : List Nat := []
  seen : List Nat := []
  /-- entries active since the measurement window began -/
  whole : List Nat := []
  /-- residual in ns and the tick from which it falls -/
  resid : Int := 0
  residAt : Nat := 0
  /-- the plane has made an acquisition since the last cold-form BOOT; a jump is still to come; tick of the entry to
  ACQUIRING -/
  acquired : Bool := false
  jump : Bool := false
  acqAt : Nat := 0
  /-- frequency values taken in LOCKED, newest first: windows since it ended, value -/
  freqs : List (Nat × Int) := []
  holdAt : Nat := 0
  /-- the disagree condition is present -/
  dis : Bool := false
  /-- the plane runs on XO_SYS, XO_HOLD having failed (R354) -/
  onSys : Bool := false
  deriving DecidableEq, Repr

/-- A measurement window of a plane: the tick at which it began, the timekeepers' counters there (R351). -/
structure RefWin where
  start : Nat := 0
  tkA : Nat := 0
  tkB : Nat := 0
  deriving DecidableEq, Repr

/-- Reference selection (14_reference.md). -/
structure RefSt where
  p0 : RefPl := {}
  p1 : RefPl := {}
  /-- reference inputs whose clock is active -/
  clk : List Nat := []
  /-- XO_HOLD has failed; good windows in a row since -/
  xoFail : Bool := false
  xoGood : Nat := 0
  /-- the measurement window in hand of each plane (R351) -/
  win0 : RefWin := {}
  win1 : RefWin := {}
  deriving DecidableEq, Repr

/-- One pulse program of a TPO pin (15_network_time.md R384). Times are whole nanoseconds. -/
structure TpoProg where
  armed : Bool := false
  start : Nat := 0
  period : Nat := 0
  width : Nat := 0
  /-- next target in whole nanoseconds -/
  next : Nat := 0
  /-- pulse high, and the tick at which it falls -/
  high : Bool := false
  fallAt : Nat := 0
  deriving DecidableEq, Repr

/-- A time-stamp of four words (15_network_time.md R379 Table 15.3). -/
structure Stamp where
  w0 : Nat := 0
  w1 : Nat := 0
  w2 : Nat := 0
  w3 : Nat := 0
  deriving DecidableEq, Repr

/-- What a timekeeper held just before a change: which it is, the tick of the change, its counter there, and TIME_TK_STAT. -/
structure TkMark where
  k : Nat
  tick : Nat
  raw : Nat
  stat : Nat
  deriving DecidableEq, Repr

/-- Timekeepers, output time, pulse programs, capture FIFOs (15_network_time.md). -/
structure TimeSt where
  /-- the 96-bit counters, in units of 2^-32 ns (R371) -/
  tkA : Nat := 0
  tkB : Nat := 0
  /-- INCR in force of each (R372) -/
  incrA : Nat := 0x0140000000
  incrB : Nat := 0x0140000000
  /-- the lock timers run (R376) -/
  lockRunA : Bool := false
  lockRunB : Bool := false
  /-- the ticks at which they expire -/
  lockEndA : Nat := 0
  lockEndB : Nat := 0
  /-- the changes of the last 16,384 ticks, newest first: the instant of a time-stamp may lie before them (R379) -/
  past : List TkMark := []
  /-- the timekeeper OT follows, 0 TK_A and 1 TK_B, and the residual O in units of 2^-32 ns (R380, R382) -/
  cur : Nat := 0
  resid : Int := 0
  /-- a SNAP waits for the next tick (R382) -/
  snapPending : Bool := false
  /-- pulse programs by TPO pin -/
  tpo : List (Nat × TpoProg) := []
  /-- capture FIFOs by TCI pin, oldest first; words 1-3 latched by the last read of TS0 -/
  tci : List (Nat × List Stamp) := []
  deriving DecidableEq, Repr


/-- A message sent on the mirror link and not yet acknowledged: its sequence number, kind and words
(16_redundant_pair.md R398). -/
structure MirrorTx where
  seq : Nat
  kind : Nat
  words : List Nat
  deriving DecidableEq, Repr

/-- A mirrored write that waits for its execution sample (R407): master, address, data, sample. -/
structure MirWrite where
  master : Nat
  addr : Nat
  data : Word
  sample : Nat
  deriving DecidableEq, Repr

/-- A frame signature held: output (0-4095 destination, 0x8000 + audio block), frame, CRC, whether the output carried a
route flagged UNTIMED (R408, R409). -/
structure Sig where
  output : Nat
  frame : Nat
  crc : Nat
  untimed : Bool := false
  deriving DecidableEq, Repr

/-- The redundant pair (16_redundant_pair.md). -/
structure PairSt where
  /-- lanes of the mirror link whose CDR is locked, by bit -/
  lanes : Nat := 0
  txSeq : Nat := 0
  /-- the sequence number that the peer's next message carries -/
  rxSeq : Nat := 0
  unacked : List MirrorTx := []
  /-- what the last Health message of the peer said: mode, link state -/
  peerMode : Nat := 0
  peerLink : Nat := 0
  /-- sum and number of the markers' round-trip times in ns (R398) -/
  rttSum : Nat := 0
  rttN : Nat := 0
  /-- planes for which an offset is held (R401) -/
  ofsHeld : List Nat := []
  /-- AUD_SC that begins at this device's last plane-0 switch point -/
  scAt : Nat := 0
  /-- the copy under way: F of R402 on the active device; on a standby, the copy received and whether plane 0 is done -/
  copyF : Option Nat := none
  copyIn : Option StateCopy := none
  copyP0 : Bool := false
  /-- the copy of this entry to COPY has left (R402) -/
  copySent : Bool := false
  mirWrites : List MirWrite := []
  /-- own and received signatures not yet compared, consecutive differing frames by output, compared
  frames still to match by plane -/
  sigs : List Sig := []
  peerSigs : List Sig := []
  sigRun : List (Nat × Nat) := []
  sigClean : List (Nat × Nat) := []
  marginPos : Nat := 0
  /-- parts a standby has executed and the active device has not yet reported: first count, plane, frame (R405); frames
  the active device reported for parts not yet executed here -/
  execLog : List (Nat × Nat × Nat) := []
  doneAt : List (Nat × Nat × Nat) := []
  deriving DecidableEq, Repr


/-- The whole machine. `pending` is the queue of waiting commands, first in first out. `regs` is the register file of
BAR0 in canonical form (address strictly rising, no entry equal to the register's reset value). `out` records what
leaves the device; `fresh` is the model's own counter, which numbers free values. -/
structure State where
  pending : List Instr := []
  regs : List (Nat × Word) := [(0x2C, 1), (0x02A00000, 1)]
  core : Core := {}
  long : Long := {}
  pat : Patina := {}
  fab : Fabric := {}
  test : Test := {}
  img : Img := {}
  upd : Update := {}
  xp : XpSt := {}
  vl : VlaneSt := {}
  q : QueueSt := {}
  eng : EngSt := {}
  comp : CompSt := {}
  flow : FlowSt := {}
  aud : AudSt := {}
  mac : List (Nat × MacPort) := []
  ref : RefSt := {}
  time : TimeSt := {}
  pair : PairSt := {}
  out : List Output := []
  fresh : Nat := 0
  deriving DecidableEq, Repr

/-- Why the machine stops with a fault: it never does. The spec gives every command of the table its effect, and where it
leaves a value open the command runs with a free value, so no meaning of this model ends in a fault. -/
inductive Fault
  deriving DecidableEq, Repr

/-- Why a command has no meaning. -/
inductive Refusal where
  /-- The command has no meaning in this model yet. Raised by exec's arms only. Safe. -/
  | notModelled (mnemonic : String)
  deriving DecidableEq, Repr

/-- The device right after power-on, as it leaves RESET: mode BOOT in the cold form, step 1, cause POR (02_modes_boot.md
R30, R33, R52), every register at its reset value but GLOBAL_RESET_CAUSE, whose value at reset is the bit of the cause,
and PAT_STAT.READY, since the head of the blank journal has been found (17 R426; log entry 1). What the spec does not
fix (pins, memories) is in the assumption log. -/
def State.reset : State := {}

end Sys2Proof.Machine
end

