-- ==== Sys2Proof/Machine/Ops.lean ====
section
/-! DEFINITION. Named operations over registers, sparse maps and byte memories, bit fields, CRC-32, rounding, the
modes of the device, and what leaves it. -/

namespace Sys2Proof.Machine

/-- The outcome type of every meaning. -/
abbrev Out := Host.Outcome State Fault Refusal

/-! ### Sparse maps in canonical form -/

/-- Value at key k of a sparse map whose unlisted keys read `d`. -/
def mapGet {α : Type} (d : Nat → α) : List (Nat × α) → Nat → α
  | [], k => d k
  | (j, v) :: t, k => if j = k then v else mapGet d t k

/-- Write key k, keeping the canonical form: keys strictly rising, no entry equal to what an unlisted key reads. What
lies below stays, then the entry where one is needed, then what lies above. -/
def mapSet {α : Type} [DecidableEq α] (d : Nat → α) (m : List (Nat × α)) (k : Nat) (v : α) : List (Nat × α) :=
  let above := m.filter (fun p => decide (k < p.1))
  m.filter (fun p => decide (p.1 < k)) ++ (if v = d k then above else (k, v) :: above)

/-- The canonical form: keys from `lo` strictly rising and no entry equal to its default. -/
def mapWfFrom {α : Type} [DecidableEq α] (d : Nat → α) : Nat → List (Nat × α) → Bool
  | _, [] => true
  | lo, (k, v) :: t => decide (lo ≤ k) && decide (v ≠ d k) && mapWfFrom d (k + 1) t

/-- A sparse map is in canonical form. -/
def mapWf {α : Type} [DecidableEq α] (d : Nat → α) (m : List (Nat × α)) : Bool := mapWfFrom d 0 m

/-- Sparse map with one constant default. -/
def cget {α : Type} (d : α) (m : List (Nat × α)) (k : Nat) : α := mapGet (fun _ => d) m k
def cset {α : Type} [DecidableEq α] (d : α) (m : List (Nat × α)) (k : Nat) (v : α) : List (Nat × α) :=
  mapSet (fun _ => d) m k v

/-- Write a run of consecutive keys. -/
def csetRun {α : Type} [DecidableEq α] (d : α) : List (Nat × α) → Nat → List α → List (Nat × α)
  | m, _, [] => m
  | m, k, v :: t => csetRun d (cset d m k v) (k + 1) t

/-- Drop the keys from lo up to, and not with, hi. -/
def cdropRange {α : Type} (m : List (Nat × α)) (lo hi : Nat) : List (Nat × α) :=
  m.filter (fun p => !(decide (lo ≤ p.1) && decide (p.1 < hi)))

/-! ### Bits and numbers -/

/-- Bits [hi:lo] of a number. -/
def bitsOf (hi lo n : Nat) : Nat := n / 2 ^ lo % 2 ^ (hi + 1 - lo)

/-- Bit i as a Bool. -/
def bitOf (i n : Nat) : Bool := n / 2 ^ i % 2 == 1

/-- A Bool as a bit. -/
def b2n (b : Bool) : Nat := if b then 1 else 0

/-- Number with bits [hi:lo] replaced by v. -/
def withBits (hi lo v n : Nat) : Nat :=
  n - bitsOf hi lo n * 2 ^ lo + v % 2 ^ (hi + 1 - lo) * 2 ^ lo

/-- A number as a 32-bit word. -/
def w32 (n : Nat) : Word := BitVec.ofNat 32 n

/-- Low and high words of a 64-bit value. -/
def lo32 (n : Nat) : Nat := n % 2 ^ 32
def hi32 (n : Nat) : Nat := n / 2 ^ 32 % 2 ^ 32

/-- Two's complement reading of a w-bit number, and the w-bit number of an integer. -/
def sext (w n : Nat) : Int := if n % 2 ^ w < 2 ^ (w - 1) then (n % 2 ^ w : Nat) else (n % 2 ^ w : Nat) - (2 ^ w : Nat)
def ofInt (w : Nat) (i : Int) : Nat := (i % (2 ^ w : Nat)).toNat

/-- `sat32` of 00_scope.md, Numbers, units and bits. -/
def sat32 (x : Int) : Int := if x > 2147483647 then 2147483647 else if x < -2147483648 then -2147483648 else x

/-- Clamp to a range. -/
def clampI (lo hi x : Int) : Int := if x < lo then lo else if x > hi then hi else x

/-- Round to nearest of a / b, ties to even, b positive. -/
def rne (a : Int) (b : Nat) : Int :=
  let q := a / (b : Int)
  let r := a % (b : Int)
  if 2 * r < b then q else if 2 * r > b then q + 1 else if q % 2 = 0 then q else q + 1

/-- ⌈a / b⌉. -/
def cdiv (a b : Nat) : Nat := (a + b - 1) / b

/-- Largest integer whose square does not exceed n, by bits from 2^k down. -/
def isqrtGo (n : Nat) : Nat → Nat → Nat
  | 0, r => r
  | k + 1, r => let c := r + 2 ^ k; if c * c ≤ n then isqrtGo n k c else isqrtGo n k r
def isqrt (n : Nat) : Nat := isqrtGo n 40 0

/-- Number of ones among the low `w` bits. -/
def popcount : Nat → Nat → Nat
  | 0, _ => 0
  | w + 1, n => n % 2 + popcount w (n / 2)

/-- CRC-32 of IEEE 802.3 over bytes. -/
def crcBit (c : Nat) : Nat := if c % 2 = 1 then (c / 2) ^^^ 0xEDB88320 else c / 2
def crcByte (c b : Nat) : Nat :=
  crcBit (crcBit (crcBit (crcBit (crcBit (crcBit (crcBit (crcBit (c ^^^ (b % 256)))))))))
def crc32 (bs : List Nat) : Nat := (bs.foldl crcByte 0xFFFFFFFF) ^^^ 0xFFFFFFFF

/-- The n bytes of a number, lowest first (00_scope.md: records are little-endian). -/
def leBytes : Nat → Nat → List Nat
  | 0, _ => []
  | n + 1, v => v % 256 :: leBytes n (v / 256)

/-- The number a byte list spells, lowest first. -/
def leNat : List Nat → Nat
  | [] => 0
  | b :: t => b + 256 * leNat t

/-- The bytes of a list of 32-bit words, each little-endian. -/
def wordBytes (ws : List Nat) : List Nat := ws.flatMap (leBytes 4)

/-! ### Registers -/

/-- Read and write the stored value of a register. -/
def rget (s : State) (a : Nat) : Word := mapGet regDefault s.regs a
def rgetN (s : State) (a : Nat) : Nat := (rget s a).toNat
def rset (s : State) (a : Nat) (w : Word) : State := { s with regs := mapSet regDefault s.regs a w }
def rsetN (s : State) (a : Nat) (n : Nat) : State := rset s a (w32 n)

/-- Read and write one field. -/
def fget (s : State) (a : Nat) (f : FieldRow) : Nat := bitsOf f.hi f.lo (rgetN s a)
def fset (s : State) (a : Nat) (f : FieldRow) (v : Nat) : State :=
  rsetN s a (withBits f.hi f.lo v (rgetN s a))
def fbit (s : State) (a : Nat) (f : FieldRow) : Bool := fget s a f == 1

/-- Set a 64-bit value held in two registers, and read it. -/
def rset64 (s : State) (lo hi v : Nat) : State := rsetN (rsetN s lo (lo32 v)) hi (hi32 v)
def rget64 (s : State) (lo hi : Nat) : Nat := rgetN s lo + 2 ^ 32 * rgetN s hi

/-- A counter that saturates at 0xFFFF_FFFF counts n more. -/
def countN (s : State) (a n : Nat) : State := rsetN s a (min 0xFFFFFFFF (rgetN s a + n))
def count (s : State) (a : Nat) : State := countN s a 1

/-- Does an output leave on pins that the boundary register can take: LVCMOS pins, and the CML pins of the VID, PKT and
mirror lanes (20_test_perturbation.md R497)? -/
@[simp] def Output.onPins : Output → Bool
  | .line d _ _ => decide (d < 512)
  | .macFrame _ _ | .macSignal _ _ | .sdiFrame _ _ _ _ _ _ | .mirror _ _ | .mirrorAck _ | .pin _ _ | .dout _ _ => true
  | .msix _ _ _ | .readData _ _ _ | .queueWord _ _ _ _ | .bar2Data _ _ | .unsupported _ _ | .i2c _ | .i2cNack | .msa _ _ _ _ _ _ _ _
  | .dpIdle _ | .aux _ _ _ _ _ | .jtag _ | .boundary _ | .pixels _ _ _ => false

/-- Something leaves the device. -/
def emit (s : State) (o : Output) : State :=
  if s.test.jtagPins && o.onPins then s else { s with out := s.out ++ [o] }

/-- WCLK_OUT falls; WCLK_OUT rises, ending a cycle in which it is still high (14_reference.md R369). -/
def wclkFall (s : State) : State :=
  if s.core.wclk then emit { s with core := { s.core with wclk := false } } (.pin "WCLK_OUT" 0) else s
def wclkRise (s : State) : State :=
  let s := wclkFall s
  emit { s with core := { s.core with wclk := true } } (.pin "WCLK_OUT" 1)

/-- The next free value and the state that has used it. -/
def freeValue (s : State) : Nat := Config.choice s.fresh
def spend (s : State) : State := { s with fresh := s.fresh + 1 }

/-! ### Modes -/

/-- The six modes, 02_modes_boot.md R25 Table 2.1. -/
inductive Mode where
  | reset | boot | safe | standby | active | factory
  deriving DecidableEq, Repr

def modeCode : Mode → Nat
  | .reset => 0 | .boot => 1 | .safe => 2 | .standby => 3 | .active => 4 | .factory => 5

def modeOf (n : Nat) : Mode :=
  if n = 0 then .reset else if n = 1 then .boot else if n = 2 then .safe else if n = 3 then .standby
  else if n = 4 then .active else .factory

/-- The mode that GLOBAL_MODE reports (R25). -/
def mode (s : State) : Mode := modeOf (fget s Reg.GLOBAL_MODE Fld.GLOBAL_MODE_MODE)

/-- The mode becomes m. Into one in which no instruction may drive the pins, they return to the device, and the JTAG
instruction register reads BYPASS (20 R498, Table 20.1). -/
def setMode (s : State) (m : Mode) : State :=
  let s := fset s Reg.GLOBAL_MODE Fld.GLOBAL_MODE_MODE (modeCode m)
  match m with
  | .factory | .safe => s
  | .reset | .boot | .standby | .active => { s with test := { s.test with jtagPins := false, jtagIr := 0xFF } }

/-- STANDBY, ACTIVE or FACTORY: the blocks run (Table 2.1). -/
def inService (s : State) : Bool := mode s == .standby || mode s == .active || mode s == .factory

/-- STANDBY or ACTIVE. -/
def inRole (s : State) : Bool := mode s == .standby || mode s == .active

/-- BOOT in the cast form (R27). -/
def inCast (s : State) : Bool := mode s == .boot && fbit s Reg.GLOBAL_MODE Fld.GLOBAL_MODE_CASTFORM

/-- BOOT in the cold form. -/
def inColdBoot (s : State) : Bool := mode s == .boot && !fbit s Reg.GLOBAL_MODE Fld.GLOBAL_MODE_CASTFORM

/-- Blocks that run while the image is in force and across the cast form: planes, timekeepers, links (R27, Table 18.4). -/
def running (s : State) : Bool := inService s || inCast s
/-- Do the outputs of plane p carry the black of a cast's pause (18_image_update.md R448)? -/
def planeBlack (s : State) (p : Nat) : Bool := s.upd.black.contains p

/-- The pair is in use (16_redundant_pair.md R390). -/
def pairInUse (s : State) : Bool := fbit s Reg.PAIR_CTRL Fld.PAIR_CTRL_EN

/-! ### Memories -/

/-- MRAM byte, 0 where nothing is listed. -/
def mramByte (s : State) (x : Nat) : Nat := (mapGet (fun _ => (0 : BitVec 8)) s.long.mram x).toNat
def mramBytes (s : State) (x n : Nat) : List Nat := (List.range n).map (fun i => mramByte s (x + i))
def mramWord (s : State) (x : Nat) : Nat := leNat (mramBytes s x 4)

/-- The cells of a byte run at x: every byte that differs from what an unlisted address reads as. -/
def runCells (d : Nat → BitVec 8) : Nat → List Nat → List Host.Cell
  | _, [] => []
  | x, b :: t => if BitVec.ofNat 8 b = d x then runCells d (x + 1) t else (x, BitVec.ofNat 8 b) :: runCells d (x + 1) t

/-- Write a byte run at x into a byte memory, keeping the canonical form: what lies below, the run, what lies above. -/
def cellsPut (d : Nat → BitVec 8) (m : List Host.Cell) (x : Nat) (bs : List Nat) : List Host.Cell :=
  m.filter (fun c => decide (c.1 < x)) ++ (runCells d x bs ++ m.filter (fun c => decide (x + bs.length ≤ c.1)))

/-- Write MRAM bytes, unless the write protection holds (17_faults_patina.md Table 17.7). A word written takes fresh
check bits (R423): both its halves, where they are written one after the other; cells that have failed stay so. -/
def mramWrite (s : State) (x : Nat) (bs : List Nat) : State :=
  if s.long.protect then s else
    { s with long := { s.long with
        mram := cellsPut (fun _ => 0) s.long.mram x bs
        mramBad := s.long.mramBad.filter (fun h =>
          !(decide (x ≤ 4 * h) && decide (4 * h + 4 ≤ x + bs.length)) || s.long.mramDead.contains (h / 2))
        mramSoft := s.long.mramSoft.filter (fun w => !(decide (x ≤ 8 * w) && decide (8 * w + 8 ≤ x + bs.length))) } }

/-- Does an MRAM byte range hold a word that reads as uncorrectable? -/
def mramBadIn (s : State) (x n : Nat) : Bool :=
  s.long.mramBad.any (fun h => decide (8 * (h / 2) < x + n) && decide (x < 8 * (h / 2) + 8))

/-- Corrected words of n bytes at offset x are written back. -/
def mramHeal (x n : Nat) (s : State) : State :=
  { s with long := { s.long with
    mramSoft := s.long.mramSoft.filter (fun w => !(decide (8 * w < x + n) && decide (x < 8 * w + 8))) } }

/-- Flash byte, 0xFF (erased) where nothing is listed. -/
def flashByte (s : State) (x : Nat) : Nat := (mapGet (fun _ => (0xFF : BitVec 8)) s.long.flash x).toNat
def flashBytes (s : State) (x n : Nat) : List Nat := (List.range n).map (fun i => flashByte s (x + i))
def flashWord (s : State) (x : Nat) : Nat := leNat (flashBytes s x 4)
def flashPut (s : State) (x : Nat) (bs : List Nat) : State :=
  { s with long := { s.long with flash := cellsPut (fun _ => 0xFF) s.long.flash x bs } }
/-- An erase sets every byte of a range to 0xFF, what an unlisted byte reads. -/
def flashClear (s : State) (x n : Nat) : State :=
  { s with long := { s.long with flash := cdropRange s.long.flash x (x + n) } }

/-- The aon domain's lifetime counts (17_faults_patina.md R439). -/
def lifeGet (s : State) (k : Nat) : Nat := cget 0 s.long.life k
def lifeAdd (s : State) (k n : Nat) : State :=
  { s with long := { s.long with life := cset 0 s.long.life k ((lifeGet s k + n) % 2 ^ 64) } }

/-- Nanoseconds of a number of time-domain ticks of 1.25 ns (01_architecture.md Table 1.5). -/
def ticksNs (t : Nat) : Nat := t * 5 / 4

end Sys2Proof.Machine
end

