-- ==== Sys2Proof/Machine/Arm.lean ====
section
/-! DEFINITION. What the armature in force fixes, read from the bytes of its sections: planes and formats, lanes, ports,
slots, heads, layers, flows, queues, audio, references, time, owners. Layouts: 03_admet_image.md Table 3.4 and the
chapter named at each definition. -/

namespace Sys2Proof.Machine

/-- Byte `off` of an image's header or body. -/
def imgByte (g : Img) (off : Nat) : Nat := cget 0 g.bytes off
/-- n bytes little-endian at an image offset. -/
def imgNat (g : Img) (off n : Nat) : Nat := leNat ((List.range n).map (fun i => imgByte g (off + i)))

/-- The section of a type in an image (03 R61: at most one of each type). -/
def imgSec (g : Img) (t : Nat) : Option Section := g.sections.find? (fun x => x.type == t)

/-- Byte and little-endian number inside a section; 0 outside it. -/
def secByteOf (g : Img) (t off : Nat) : Nat :=
  match imgSec g t with
  | none => 0
  | some x => if off < x.len then imgByte g (x.off + off) else 0
def secNatOf (g : Img) (t off n : Nat) : Nat := leNat ((List.range n).map (fun i => secByteOf g t (off + i)))
def hasSec (g : Img) (t : Nat) : Bool := (imgSec g t).isSome

def secByte (s : State) (t off : Nat) : Nat := secByteOf s.img t off
def secNat (s : State) (t off n : Nat) : Nat := secNatOf s.img t off n

/-! Section types, 03_admet_image.md Table 3.4. -/
namespace Sec
def lane : Nat := 1
def plane : Nat := 2
def hbm : Nat := 3
def place : Nat := 4
def slot : Nat := 5
def head : Nat := 6
def flow : Nat := 7
def queue : Nat := 8
def audio : Nat := 9
def ref : Nat := 10
def time : Nat := 11
def fault : Nat := 12
def own : Nat := 13
def pin : Nat := 14
def klib : Nat := 0x20
def tables : Nat := 0x21
end Sec

/-! ### PLANE section (04_stream_crosspoint.md R80, R81) -/

def planeFmt (g : Img) (p : Nat) : Nat := secByteOf g Sec.plane (4 * p)
def planeUsed (g : Img) (p : Nat) : Bool := planeFmt g p != 0
def tpgPlane (g : Img) (n : Nat) : Nat := b2n (bitOf (n % 8) (secByteOf g Sec.plane (8 + n / 8)))
def destPlane (g : Img) (d : Nat) : Nat := b2n (bitOf (d % 8) (secByteOf g Sec.plane (0x10 + d / 8)))
def destFmt (g : Img) (d : Nat) : Nat := secByteOf g Sec.plane (0x210 + d)
def srcFmt (g : Img) (x : Nat) : Nat := secByteOf g Sec.plane (0x1210 + x)

/-- Raster and rate of a format code (R81). -/
def rasterOf (f : Nat) : Nat := f / 16
def rateOf (f : Nat) : Nat := f % 16

/-- Lines of the line structure and the switching line of a raster (Table 4.4). -/
def rasterLines (r : Nat) : Nat := if r = 1 then 525 else if r = 2 then 625 else if r = 3 then 750 else 1125
def rasterSwitchLine (r : Nat) : Nat := if r = 1 then 10 else if r = 2 then 6 else 7

/-- Active width and height of a raster (Table 4.4). -/
def rasterW (r : Nat) : Nat :=
  if r = 1 then 720 else if r = 2 then 720 else if r = 3 then 1280 else if r ≤ 6 then 1920 else if r ≤ 8 then 3840
  else 7680
def rasterH (r : Nat) : Nat :=
  if r = 1 then 486 else if r = 2 then 576 else if r = 3 then 720 else if r ≤ 6 then 1080 else if r ≤ 8 then 2160
  else 4320

/-- Frames per second as numerator over 1,001 or 1,000 (Table 4.4): (frames × 1000 per 1000 or 1001 s). -/
def rateNum (r : Nat) : Nat :=
  if r = 1 then 24000 else if r = 2 then 24000 else if r = 3 then 25000 else if r = 4 then 30000
  else if r = 5 then 30000 else if r = 6 then 48000 else if r = 7 then 48000 else if r = 8 then 50000
  else if r = 9 then 60000 else 60000
def rateDen (r : Nat) : Nat := if r = 1 ∨ r = 4 ∨ r = 6 ∨ r = 9 then 1001 else 1000
/-- Frame period in picoseconds, rounded down. -/
def framePs (fmt : Nat) : Nat := rateDen (rateOf fmt) * 1000000000000 / rateNum (rateOf fmt)
/-- Line period in picoseconds. -/
def linePs (fmt : Nat) : Nat := framePs fmt / rasterLines (rasterOf fmt)
/-- A valid pair of Table 4.4. -/
def fmtValid (f : Nat) : Bool :=
  let r := rasterOf f; let q := rateOf f
  if r = 1 then q == 4 else if r = 2 then q == 3
  else if r = 3 then (1 ≤ q && q ≤ 5) || (8 ≤ q && q ≤ 10)
  else if r = 4 then 3 ≤ q && q ≤ 5
  else if r = 5 then 1 ≤ q && q ≤ 5
  else if 6 ≤ r && r ≤ 9 then 1 ≤ q && q ≤ 10 else false
/-- Interlaced or PsF raster. -/
def fmtFielded (f : Nat) : Bool := let r := rasterOf f; r == 1 || r == 2 || r == 4 || r == 5

/-! ### LANE section (05_serial_video.md R117, R119; 06_ethernet_mac.md R148) -/

def groupPers (g : Img) (k : Nat) : Nat := secByteOf g Sec.lane k
def laneCfg (g : Img) (v : Nat) : Nat := secByteOf g Sec.lane (0x20 + v)
def laneRxq (g : Img) (v : Nat) : Bool := bitOf 0 (laneCfg g v)
def laneTxq (g : Img) (v : Nat) : Bool := bitOf 1 (laneCfg g v)
def dpMaxRate (g : Img) (k : Nat) : Nat := secByteOf g Sec.lane (0x220 + 4 * k)
def dpBpc (g : Img) (k : Nat) : Nat := secByteOf g Sec.lane (0x221 + 4 * k)
/-- Lanes 496-511 serve DisplayPort (lane group 31). -/
def dpPers (g : Img) : Bool := groupPers g 31 == 1
/-- The receiver and the transmitter of lane v run (R119). -/
def rxRuns (g : Img) (v : Nat) : Bool :=
  !(dpPers g && decide (496 ≤ v)) && (srcFmt g v != 0 || (laneRxq g v && srcFmt g (4 * (v / 4)) != 0))
def txRuns (g : Img) (v : Nat) : Bool :=
  !(dpPers g && decide (496 ≤ v)) && (destFmt g v != 0 || (laneTxq g v && destFmt g (4 * (v / 4)) != 0))
/-- Expected format of a receiver (R119). -/
def rxExpect (g : Img) (v : Nat) : Nat := if laneRxq g v then srcFmt g (4 * (v / 4)) else srcFmt g v
def groupSplit (g : Img) (k : Nat) : Nat := secByteOf g Sec.lane (0x400 + k)
def portSpeedByte (g : Img) (m : Nat) : Nat := secByteOf g Sec.lane (0x410 + m)
/-- Speed code of MAC port m as MAC_STAT.SPEED has it, 0 where the split forms no port (06 R147 Table 6.1). -/
def portSpeed (g : Img) (m : Nat) : Nat :=
  let c := groupSplit g (m / 4)
  if c = 1 then (if m % 4 = 0 then 5 else 0)
  else if c = 2 then (if m % 2 = 0 then 4 else 0)
  else if c = 3 then portSpeedByte g m else 0
def portFormed (g : Img) (m : Nat) : Bool := portSpeed g m != 0

/-! ### PLACE, SLOT, HEAD (09_chisel_engines.md R230, R239; 10_composition.md R254) -/

def slotHome (g : Img) (n : Nat) : Nat := secByteOf g Sec.place n
def fsyncHome (g : Img) (n : Nat) : Nat := secByteOf g Sec.place (0x100 + n)
def headHome (g : Img) (h : Nat) : Nat := secByteOf g Sec.place (0x500 + h)
def slotKernel (g : Img) (n i : Nat) : Nat := secByteOf g Sec.slot (16 * n + i)
def slotKernels (g : Img) (n : Nat) : List Nat := ((List.range 4).map (slotKernel g n)).takeWhile (· != 0)
def slotUsed (g : Img) (n : Nat) : Bool := slotKernel g n 0 != 0
def slotOutQ (g : Img) (n : Nat) : Nat := secNatOf g Sec.slot (16 * n + 8) 3 % 2 ^ 20
def slotMidQ (g : Img) (n : Nat) : Nat := secNatOf g Sec.slot (16 * n + 12) 3 % 2 ^ 20
def headByte (g : Img) (h i : Nat) : Nat := secByteOf g Sec.head (16 * h + i)
def headUsed (g : Img) (h : Nat) : Bool := headByte g h 0 == 1
def headSampling (g : Img) (h : Nat) : Nat := headByte g h 1
def headColorimetry (g : Img) (h : Nat) : Nat := headByte g h 2
def headTransfer (g : Img) (h : Nat) : Nat := headByte g h 3
def headWorkQ (g : Img) (h : Nat) : Nat := secNatOf g Sec.head (16 * h + 4) 3 % 2 ^ 20
def headPlane (g : Img) (h : Nat) : Nat := headByte g h 7
def layerHead (g : Img) (l : Nat) : Nat := if hasSec g Sec.head then secByteOf g Sec.head (0x400 + 8 * l) else 0xFF
def layerUsed (g : Img) (l : Nat) : Bool := layerHead g l != 0xFF
def layerMaxW (g : Img) (l : Nat) : Nat := secNatOf g Sec.head (0x400 + 8 * l + 2) 2
def layerMaxH (g : Img) (l : Nat) : Nat := secNatOf g Sec.head (0x400 + 8 * l + 4) 2

/-! ### FLOW section (07_media_flows.md R168, R169) -/

def kindFlows (g : Img) (k : Nat) : Nat := secNatOf g Sec.flow (8 * k) 2
def kindLegs (g : Img) (k : Nat) : Nat := secByteOf g Sec.flow (8 * k + 2)
def kindBase (g : Img) (k : Nat) : Nat := secNatOf g Sec.flow (8 * k + 4) 4
def vrxDepth (g : Img) (i : Nat) : Nat := secByteOf g Sec.flow (0x40 + i)
def grpVrx (g : Img) (i : Nat) : Nat := secNatOf g Sec.flow (0x440 + 2 * i) 2
def grpArx (g : Img) (i : Nat) : Nat := secNatOf g Sec.flow (0xC40 + 2 * i) 2
def grpNrx (g : Img) (i : Nat) : Nat := secNatOf g Sec.flow (0x2C40 + 2 * i) 2
def grpPlane (g : Img) (k : Nat) : Nat := secByteOf g Sec.flow (0x3440 + k)
def ntxPlane (g : Img) (n : Nat) : Nat := secByteOf g Sec.flow (0x3840 + n)

/-! ### HBM and QUEUE (08_queues_memory.md R194, R200) -/

def stackMib (g : Img) (st i : Nat) : Nat := secNatOf g Sec.hbm (32 * st + 4 * i) 4
def frameStack (g : Img) (n : Nat) : Nat := secByteOf g Sec.hbm (0x80 + n)
def qgFirst (g : Img) (k : Nat) : Nat := secNatOf g Sec.queue (16 * k) 3
def qgKind (g : Img) (k : Nat) : Nat := secByteOf g Sec.queue (16 * k + 3)
def qgCount (g : Img) (k : Nat) : Nat := secNatOf g Sec.queue (16 * k + 4) 3
def qgStack (g : Img) (k : Nat) : Nat := secByteOf g Sec.queue (16 * k + 7)
def qgQuota (g : Img) (k : Nat) : Nat := secNatOf g Sec.queue (16 * k + 8) 4
def qgDefCap (g : Img) (k : Nat) : Nat := secNatOf g Sec.queue (16 * k + 12) 4
def hotEntry (g : Img) (k : Nat) : Nat := secNatOf g Sec.queue (0x4000 + 4 * k) 4
/-- The group that holds queue q, by search over the 1,024 groups. -/
def qGroupGo (g : Img) (q : Nat) : Nat → Nat → Option Nat
  | 0, _ => none
  | n + 1, k =>
    if qgCount g k ≠ 0 ∧ qgFirst g k ≤ q ∧ q < qgFirst g k + qgCount g k then some k else qGroupGo g q n (k + 1)
def qGroup (g : Img) (q : Nat) : Option Nat := if hasSec g Sec.queue then qGroupGo g q 1024 0 else none

/-! ### AUDIO (12_audio_ports.md R301, 13_audio_matrix.md R322) -/

def sapByte (g : Img) (n i : Nat) : Nat := secByteOf g Sec.audio (16 * n + i)
def sapUsed (g : Img) (n : Nat) : Bool := bitOf 0 (sapByte g n 0)
def sapSlots (g : Img) (n : Nat) : Nat := sapByte g n 1 % 64
def sap96 (g : Img) (n : Nat) : Bool := bitOf 0 (sapByte g n 2)
def sapClkSrc (g : Img) (n : Nat) : Nat := sapByte g n 3 % 32
def sapFmtByte (g : Img) (n : Nat) : Nat := sapByte g n 4
def sapAsrc (g : Img) (n : Nat) : Bool := bitOf 0 (sapByte g n 5)
def sapGroup (g : Img) (n : Nat) : Nat := sapByte g n 6
def grpPinEn (g : Img) (k : Nat) : Bool := bitOf 0 (secByteOf g Sec.audio (0x200 + k))
def audBuses (g : Img) : Nat := secNatOf g Sec.audio 0x400 4
def audMeters (g : Img) : Nat := secNatOf g Sec.audio 0x404 4
def audTones (g : Img) : Nat := secNatOf g Sec.audio 0x408 4

/-! ### REF and TIME (14_reference.md R348, 15_network_time.md R378) -/

def refNat (g : Img) (p off n : Nat) : Nat := secNatOf g Sec.ref (0x120 * p + off) n
def refRevertive (g : Img) (p : Nat) : Bool := bitOf 0 (refNat g p 0 1)
def refJumpEn (g : Img) (p : Nat) : Bool := bitOf 1 (refNat g p 0 1)
def refBwInit (g : Img) (p : Nat) : Nat := refNat g p 1 1
def refAcceptS (g : Img) (p : Nat) : Nat := refNat g p 2 2
def refAcceptPpb (g : Img) (p : Nat) : Nat := refNat g p 4 4
def refRejectPpb (g : Img) (p : Nat) : Nat := refNat g p 8 4
def refDisagreePpb (g : Img) (p : Nat) : Nat := refNat g p 0xC 4
def refSlewPpb (g : Img) (p : Nat) : Nat := refNat g p 0x10 4
def refHoldAvg (g : Img) (p : Nat) : Nat := refNat g p 0x14 2
def refHoldMax (g : Img) (p : Nat) : Nat := refNat g p 0x18 4
def entKind (g : Img) (p e : Nat) : Nat := refNat g p (0x20 + 16 * e) 1
def entRank (g : Img) (p e : Nat) : Nat := refNat g p (0x21 + 16 * e) 1
def entIndex (g : Img) (p e : Nat) : Nat := refNat g p (0x22 + 16 * e) 2
def entOffset (g : Img) (p e : Nat) : Int := sext 32 (refNat g p (0x24 + 16 * e) 4)
def inFreq (g : Img) (x : Nat) : Nat := secByteOf g Sec.ref (0x240 + 8 * x)
def inFlags (g : Img) (x : Nat) : Nat := secByteOf g Sec.ref (0x241 + 8 * x)
def tkDomain (g : Img) (k : Nat) : Nat := if hasSec g Sec.time then secByteOf g Sec.time (16 * k) else 127
def tkLockHoldMs (g : Img) (k : Nat) : Nat := if hasSec g Sec.time then secNatOf g Sec.time (16 * k + 2) 2 else 2000
def otFlags (g : Img) : Nat := if hasSec g Sec.time then secByteOf g Sec.time 0x20 else 2

/-! ### Ownership (03_admet_image.md R67, R68) -/

/-- Owner code of a resource of the OWN table, if the ID names one. -/
def ownEntry (g : Img) (rid : Nat) : Option Nat := (g.own.find? (fun p => p.1 == rid)).map (·.2)
/-- Owner class: bits [31:16] of the owner code; NONE where no entry stands. -/
def ownClass (g : Img) (rid : Nat) : Nat := ((ownEntry g rid).getD 0) / 65536
def ownInst (g : Img) (rid : Nat) : Nat := ((ownEntry g rid).getD 0) % 65536
def resId (cls idx : Nat) : Nat := cls * 0x1000000 + idx
/-- The synchroniser that OWN gives to destination d, by search. -/
def destSync (g : Img) (d : Nat) : Option Nat :=
  (g.own.find? (fun p => p.1 / 0x1000000 == 7 && p.2 == 0x000D0000 + d)).map (fun p => p.1 % 0x1000000)
/-- The head that OWN gives a DisplayPort monitor output. -/
def dpHead (g : Img) (k : Nat) : Option Nat :=
  if ownClass g (resId 8 k) = 0x11 then some (ownInst g (resId 8 k)) else none
/-- A number into its place in an ascending list; the ASRC blocks with a given owner code, ascending (12 R314). -/
def insertAsc (x : Nat) : List Nat → List Nat
  | [] => [x]
  | y :: t => if x ≤ y then x :: y :: t else y :: insertAsc x t
def asrcBlocks (g : Img) (code : Nat) : List Nat :=
  (g.own.filter (fun p => p.1 / 0x1000000 == 6 && p.2 == code)).foldr (fun p l => insertAsc (p.1 % 0x1000000) l) []

end Sys2Proof.Machine
end

