-- ==== Sys2Proof/Machine/Sdi.lean ====
section
/-! DEFINITION. Lines of a raster and the words of a serial video link: link rates, interleaved streams, TRS, line numbers,
CRC, ancillary packets, payload IDs, embedded audio packets, the divisions of a quad link (04_stream_crosspoint.md R83,
R91; 05_serial_video.md R114-R116, R122-R139). The layouts of the SMPTE documents the chapter names are taken from those
documents (PRESUMED, log entries 31 and 128). -/

namespace Sys2Proof.Machine

/-! ### Lines of a format (04 R83, 07 Table 7.5) -/

/-- The last n elements of a list. -/
def lastN {α : Type} (n : Nat) (l : List α) : List α := l.drop (l.length - n)
/-- First active line of field 0 (Table 7.5 less one) and of field 1. -/
def firstActive (r f : Nat) : Nat :=
  if f = 1 then (if r = 1 then 283 else if r = 2 then 336 else 584)
  else if r = 1 then 21 else if r = 2 then 23 else if r = 3 then 26 else if r = 4 ∨ r = 5 then 21 else 42
/-- Fields of a raster, active picture lines of each, and picture lines in a timing line: two for rasters 0x7 and 0x8;
for raster 0x9 two of each of four sub-images, as many pixels as four picture lines. -/
def rasterFields (r : Nat) : Nat := if r = 1 ∨ r = 2 ∨ r = 4 ∨ r = 5 then 2 else 1
def linesPer (r : Nat) : Nat := if r = 9 then 4 else if r = 7 ∨ r = 8 then 2 else 1
def fieldRows (r : Nat) : Nat := rasterH r / rasterFields r
/-- The timing line of row y of field f. -/
def rowLine (r f y : Nat) : Nat := firstActive r f + y / linesPer r
/-- Rows (field * 65536 + y) that timing line L carries. -/
def lineRows (r L : Nat) : List Nat :=
  (List.range (rasterFields r)).flatMap (fun f =>
    let a := firstActive r f
    if a ≤ L ∧ L < a + fieldRows r / linesPer r then (List.range (linesPer r)).map (fun i => f * 65536 + (L - a) * linesPer r + i)
    else [])
/-- Does timing line L carry active picture? -/
def activeLine (r L : Nat) : Bool := !(lineRows r L).isEmpty
/-- Values per pixel of a sampling: 0 is Y'CbCr 4:2:2, 1 Y'CbCr 4:4:4, 2 R'G'B'. -/
def sampValues (samp : Nat) : Nat := if samp = 0 then 2 else 3
/-- Values of a picture line, and of all picture lines of a timing line. -/
def rowValues (fmt samp : Nat) : Nat := sampValues samp * rasterW (rasterOf fmt)
def lineValues (fmt samp : Nat) : Nat := linesPer (rasterOf fmt) * rowValues fmt samp

/-! ### Black (04 R89) -/

/-- n values of black in a sampling: Y' 0x040 and Cb, Cr 0x200, or 0x040 in each component of R'G'B'. -/
def blackValues (samp n : Nat) : List Nat :=
  if samp = 0 then (List.range n).map (fun i => if i % 2 = 0 then 0x200 else 0x040)
  else if samp = 1 then (List.range n).map (fun i => if i % 3 = 1 then 0x040 else 0x200)
  else List.replicate n 0x040
/-- The active values of a black timing line. -/
def blackWords (fmt samp : Nat) : List Nat := blackValues samp (lineValues fmt samp)

/-! ### Link rate and streams (R116) -/

/-- Link rate of a declared format in Mb/s before division (Table 5.1), and its RATE_DET code. -/
def linkMbps (fmt : Nat) : Nat :=
  let r := rasterOf fmt; let q := rateOf fmt
  if r ≤ 5 then 1485 else if r = 6 then (if q ≤ 5 then 1485 else 2970)
  else if r = 7 then (if q ≤ 5 then 5940 else 11880) else if r = 8 then 2970 else 11880
def linkCode (fmt : Nat) : Nat :=
  let m := linkMbps fmt
  let c := if m = 1485 then 1 else if m = 2970 then 3 else if m = 5940 then 5 else 7
  if rateDen (rateOf fmt) = 1001 then c + 1 else c
/-- 10-bit words per line on one lane: link rate / 10 / (frames per second * lines); the 1.001 division cancels. -/
def laneWords (fmt : Nat) : Nat :=
  let fps := (rateNum (rateOf fmt)) / 1000
  linkMbps fmt * 100000 / (fps * rasterLines (rasterOf fmt))
/-- A link of a quad link at up to 30 frames/s carries its sub-image at 4:4:4, every other lane at 4:2:2 (ST 425-1,
ST 425-5; R116). -/
def lane444 (fmt : Nat) : Bool := rasterOf fmt == 8 && decide (rateOf fmt ≤ 5)
def laneCarries (fmt samp : Nat) : Bool := lane444 fmt == (samp != 0)
/-- The sampling of black on a lane: the one its source reports where the lane carries that, else one it carries (R89,
R116). -/
def laneSamp (fmt samp : Nat) : Nat := if laneCarries fmt samp then samp else b2n (lane444 fmt)
/-- Level B of ST 425-1 on a 3 Gb/s lane, `lb`: two 1.5 Gb/s signals at once. They carry the picture lines of a 4:2:2 image
at above 30 frames/s in turn (dualB), or one 4:4:4 line between them (quadB). The model gives a dualB lane one line of one
data stream for each picture line (log entry 149). -/
def dualB (fmt : Nat) (lb : Bool) : Bool := lb && linkMbps fmt == 2970 && !lane444 fmt
def quadB (fmt : Nat) (lb : Bool) : Bool := lb && lane444 fmt
/-- Streams of 10-bit words, each with its own TRS, line number and CRC words, that a lane's line interleaves: C and Y of
one image on 1.5 and 3 Gb/s links, C and Y of four sub-images on 6G and 12G links; of a 4:4:4 line at level B the C of
links B and A, then the Y of B and A. -/
def laneStreams (fmt : Nat) (lb : Bool) : Nat := if 2970 < linkMbps fmt then 8 else if quadB fmt lb then 4 else 2
/-- Is stream j one of C; the C stream and the Y stream that carry audio and captured or inserted packets. -/
def isChroma (fmt : Nat) (lb : Bool) (j : Nat) : Bool := if quadB fmt lb then decide (j < 2) else j % 2 == 0
def chromaAt (fmt : Nat) (lb : Bool) : Nat := if quadB fmt lb then 1 else 0
def lumaAt (fmt : Nat) (lb : Bool) : Nat := if quadB fmt lb then 3 else 1
/-- Words of a stream in a line, and its active ones. -/
def streamWords (fmt : Nat) (lb : Bool) : Nat := laneWords fmt / laneStreams fmt lb
def streamActive (fmt : Nat) (lb : Bool) : Nat :=
  if rasterOf fmt = 3 then 1280 else if rasterOf fmt ≤ 2 then 720 else if lane444 fmt && !lb then 3840 else 1920
/-- Stream j of the n that words interleave. -/
def streamOf (n j : Nat) (ws : List Nat) : List Nat := ((ws.zipIdx).filter (fun e => e.2 % n == j)).map (·.1)
def splitStreams (n : Nat) (ws : List Nat) : List (List Nat) := (List.range n).map (fun j => streamOf n j ws)
/-- Interleave streams of one length word by word. -/
def joinStreams (l : List (List Nat)) : List Nat :=
  (List.range ((l.headD []).length)).flatMap (fun i => l.map (fun x => (x[i]?).getD 0))

/-! ### Frame stores (08 R195, R221) -/

/-- Bits of one frame of a format at its link rate, as a fraction (R221); 11.88 Gb/s for 0xFF at the plane's rate. -/
def frameBits (f planeF : Nat) : Nat × Nat :=
  let r := rasterOf f
  let q := if f = 0xFF then rateOf planeF else rateOf f
  if f = 0xFF then (11880000000000, rateNum q)
  else if r = 1 ∨ r = 2 then (270000000 * rateDen q, rateNum q)
  else (linkMbps f * (if r = 8 ∨ r = 9 then 4 else 1) * 1000000000, rateNum q)
/-- A frame store is in use (R195). -/
def storeUsed (g : Img) (n : Nat) : Bool :=
  if n < 1024 then ownClass g (resId 7 n) == 0xD
  else if n < 2048 then layerUsed g (n - 1024) else headUsed g (n - 2048)
/-- Cells of one buffer of a frame store (R221). -/
def storeCells (g : Img) (n : Nat) : Nat :=
  if 2048 ≤ n then let r := rasterOf (srcFmt g (1536 + (n - 2048))); cdiv (rasterW r * rasterH r * 5) 256
  else
    let d := if n < 1024 then ownInst g (resId 7 n) else 1792 + (n - 1024)
    let fb := frameBits (destFmt g d) (planeFmt g (destPlane g d))
    cdiv fb.1 (fb.2 * 2048)

/-- Bytes of a line of a format at its link rate (R221). -/
def lineBytes (fmt : Nat) : Nat := let fb := frameBits fmt fmt; cdiv fb.1 (fb.2 * 8 * rasterLines (rasterOf fmt))
/-- Bytes of a frame in store n. -/
def storeBytes (g : Img) (n : Nat) : Nat :=
  if 2048 ≤ n then let r := rasterOf (srcFmt g (1536 + (n - 2048))); rasterW r * rasterH r * 5
  else
    let d := if n < 1024 then ownInst g (resId 7 n) else 1792 + (n - 1024)
    let fb := frameBits (destFmt g d) (planeFmt g (destPlane g d))
    cdiv fb.1 (fb.2 * 8)
/-- A multiple of 2 MiB at or above. -/
def up2m (x : Nat) : Nat := cdiv x 0x200000 * 0x200000
/-- End of the frame stores below n in the FRAME region of a stack, in bytes; each buffer starts on a 2 MiB boundary. -/
def storesEnd (g : Img) (st n : Nat) : Nat :=
  (List.range n).foldl (fun e n => if frameStack g n = st then let c := 256 * storeCells g n; up2m (up2m e + c) + c else e) 0
/-- First byte of the first or second buffer of frame store n in its FRAME region. -/
def storeAt (g : Img) (n : Nat) (second : Bool) : Nat :=
  let a := up2m (storesEnd g (frameStack g n) n)
  if second then up2m (a + 256 * storeCells g n) else a
def planesUsed (g : Img) : List Nat := (List.range 2).filter (planeUsed g)
/-- Cells of the untimed FIFO of a source and plane: 16 lines. -/
def fifoCells (g : Img) (x : Nat) : Nat :=
  let fb := frameBits (srcFmt g x) 0
  16 * cdiv fb.1 (fb.2 * rasterLines (rasterOf (srcFmt g x)) * 2048)
/-- End of the FIFOs of the sources below n in the FRAME region of a stack, behind the stores: one for each plane in use. -/
def fifosEnd (g : Img) (st n : Nat) : Nat :=
  (List.range n).foldl (fun e x => if x % 4 = st ∧ srcFmt g x ≠ 0 then e + (planesUsed g).length * 256 * fifoCells g x else e)
    (storesEnd g st 2112)

/-! ### Divisions (R114, R124, R127) -/

/-- Pairs of samples of a picture row, `n` values each, of even or odd place: the two sub-images of a row in two-sample
interleave. -/
def pairsOf (n par : Nat) (ws : List Nat) : List Nat := ((ws.zipIdx).filter (fun e => e.2 / n % 2 == par)).map (·.1)
/-- A picture row of its two sub-images' rows. -/
def joinPairs (n : Nat) (a b : List Nat) : List Nat :=
  (List.range ((a.length + b.length) / n)).flatMap (fun i =>
    ((if i % 2 = 0 then a else b).drop (i / 2 * n)).take n)
/-- Four sub-image rows of the two picture rows of a timing line, in two-sample interleave. -/
def dividePairs (samp : Nat) (ws : List Nat) : List (List Nat) :=
  let n := 2 * sampValues samp
  let h := ws.length / 2
  let top := ws.take h
  let bot := ws.drop h
  [pairsOf n 0 top, pairsOf n 1 top, pairsOf n 0 bot, pairsOf n 1 bot]
/-- And back: the two picture rows. -/
def gatherPairs (samp : Nat) (l : List (List Nat)) : List Nat :=
  let n := 2 * sampValues samp
  let g (i : Nat) : List Nat := (l[i]?).getD []
  joinPairs n (g 0) (g 1) ++ joinPairs n (g 2) (g 3)
/-- The values of sub-image row y of quadrant q in square division, from the picture rows `row`. -/
def squareRow (row : Nat → List Nat) (half q y : Nat) : List Nat :=
  let ws := row (y + q / 2 * half)
  if q % 2 = 0 then ws.take (ws.length / 2) else ws.drop (ws.length / 2)

/-- The two streams of a 4:4:4 lane from its values: Cb or B' with alpha, and Y' with Cr or G' with R'; and back. -/
def divide444 (samp : Nat) (ws : List Nat) : List (List Nat) :=
  let at_ (i : Nat) : Nat := (ws[i]?).getD 0
  let px := List.range (ws.length / 3)
  if samp = 1 then [px.flatMap (fun i => [at_ (3 * i), 0x040]), px.flatMap (fun i => [at_ (3 * i + 1), at_ (3 * i + 2)])]
  else [px.flatMap (fun i => [at_ (3 * i + 2), 0x040]), px.flatMap (fun i => [at_ (3 * i + 1), at_ (3 * i)])]
def gather444 (samp : Nat) (a b : List Nat) : List Nat :=
  let x (l : List Nat) (i : Nat) : Nat := (l[i]?).getD 0
  (List.range (a.length / 2)).flatMap (fun i =>
    if samp = 1 then [x a (2 * i), x b (2 * i), x b (2 * i + 1)] else [x b (2 * i + 1), x b (2 * i), x a (2 * i)])
/-- The four streams of a 4:4:4 line at level B: C of link B (B' and R' of odd pixels) and of link A (of even ones), Y of
link B (alpha) and of link A (G'), Cb, Cr and Y' in their places; and back (ST 372, log entry 128). -/
def divideB (samp : Nat) (ws : List Nat) : List (List Nat) :=
  let at_ (i c : Nat) : Nat := (ws[3 * i + (if samp = 1 then c else 2 - c)]?).getD 0
  let px := List.range (ws.length / 3)
  let c (par : Nat) : List Nat := (px.filter (fun i => i % 2 == par)).flatMap (fun i => [at_ i 0, at_ i 2])
  [c 1, c 0, px.map (fun _ => 0x040), px.map (fun i => at_ i 1)]
def gatherB (samp : Nat) (l : List (List Nat)) : List Nat :=
  let x (j i : Nat) : Nat := (((l[j]?).getD [])[i]?).getD 0
  (List.range ((l[3]?).getD []).length).flatMap (fun i =>
    let j := 1 - i % 2
    let b := x j (i / 2 * 2)
    let r := x j (i / 2 * 2 + 1)
    if samp = 1 then [b, x 3 i, r] else [r, x 3 i, b])
/-- Active values that a lane's line carries, in picture order: the last words of a two-stream lane; the sub-images of a
6G or 12G lane put together. -/
def laneActive (fmt samp : Nat) (lb : Bool) (ws : List Nat) : List Nat :=
  let a := streamActive fmt lb
  if quadB fmt lb && samp != 0 then gatherB samp ((splitStreams 4 ws).map (lastN a))
  else if laneStreams fmt lb ≤ 4 then
    let act := lastN (2 * a) ws
    if lane444 fmt && samp != 0 then gather444 samp (streamOf 2 0 act) (streamOf 2 1 act) else act
  else
    let st := splitStreams 8 ws
    let img (i : Nat) : List Nat := joinStreams ((st.drop (2 * i)).take 2 |>.map (lastN a))
    gatherPairs samp [img 0, img 1, img 2, img 3]
/-- Values of a timing line as a processing destination takes them, at the end of a list: of a single-lane source its own
words (6G and 12G rearranged); of a quad link of raster 0x8 two picture rows in two-sample interleave, and in square
division row y of the upper and of the lower half. -/
def pictureWords (fmt samp : Nat) (square lb : Bool) (lanes : List (List Nat)) : List Nat :=
  match lanes with
  | [ws] => if linkMbps fmt ≤ 2970 then ws else laneActive fmt samp lb ws
  | _ =>
    let l := lanes.map (laneActive fmt samp lb)
    if rasterOf fmt = 9 then l.flatten
    else if square then ((l[0]?).getD [] ++ (l[1]?).getD []) ++ ((l[2]?).getD [] ++ (l[3]?).getD [])
    else gatherPairs samp l
/-- Active words of each lane of an SDI output at timing line L, from a source whose picture values at a timing line are
`act`: by the declared division where the output is quad-link. -/
def laneValues (fmt samp : Nat) (square : Bool) (act : Nat → List Nat) (L : Nat) : List (List Nat) :=
  let r := rasterOf fmt
  let n := rowValues fmt samp
  let ws := lastN (lineValues fmt samp) (act L)
  if r = 9 then (List.range 4).map (fun i => (ws.drop (i * n)).take n)
  else if r ≠ 8 then [ws]
  else if square && activeLine r L then
    let row (y : Nat) : List Nat := ((lastN (2 * n) (act (42 + y / 2))).drop (y % 2 * n)).take n
    (List.range 4).map (fun q => squareRow row 1080 q (L - 42))
  else dividePairs samp ws
/-- The active words of each stream of a lane, from its active values. -/
def streamValues (fmt samp : Nat) (lb : Bool) (ws : List Nat) : List (List Nat) :=
  if 2970 < linkMbps fmt then (dividePairs samp ws).flatMap (splitStreams 2)
  else if quadB fmt lb then divideB samp ws else if lane444 fmt then divide444 samp ws else splitStreams 2 ws

/-! ### TRS, line number, CRC (R122, R128; ST 292-1) -/

/-- F and V of a line: the second field of a fielded raster; outside the active picture. -/
def trsField (r L : Nat) : Bool :=
  rasterFields r == 2 && (if r = 1 then decide (266 ≤ L) || decide (L < 4) else if r = 2 then decide (313 ≤ L) else decide (564 ≤ L))
/-- The fourth word of a TRS: F, V, H and their protection bits. -/
def trsWord (f v h : Bool) : Nat :=
  let x (a b : Bool) : Bool := xor a b
  512 + b2n f * 256 + b2n v * 128 + b2n h * 64 + b2n (x v h) * 32 + b2n (x f h) * 16 + b2n (x f v) * 8 + b2n (x f (x v h)) * 4
/-- The two line number words. -/
def lineNumberWords (L : Nat) : List Nat :=
  let a := L % 128 * 4
  [a + (if a < 256 then 512 else 0), 512 + L / 128 % 16 * 4]
/-- The number that two line number words carry. -/
def lineNumber (a b : Nat) : Nat := a % 512 / 4 + b / 4 % 16 * 128
/-- A line of a lane in its data stream: line number, F, V, and which of two data streams in turn carries it. -/
structure LineHead where
  num : Nat
  field : Bool
  blank : Bool
  stream : Nat
  deriving DecidableEq, Repr
/-- Picture line L of a lane; at level B in turn (dualB), of the frame of parity k: the streams take the lines of two frames
one by one, stream 0 its line n from line 2n of the pair, stream 1 from line 2n + 1 (ST 372, log entry 149). -/
def lineHead (fmt : Nat) (lb k : Bool) (L : Nat) : LineHead :=
  let r := rasterOf fmt
  if dualB fmt lb then
    let g := b2n k * 1125 + L
    let n := if g / 2 = 0 then 1125 else g / 2
    ⟨n, decide (564 ≤ n), !activeLine r L, g % 2⟩
  else ⟨L, trsField r L, !activeLine r L, 0⟩
/-- The head of picture line L that a stream's own words name. -/
def headOf (fmt : Nat) (lb : Bool) (L : Nat) (st : List Nat) : LineHead :=
  let n := lineNumber ((st[4]?).getD 0) ((st[5]?).getD 0)
  if dualB fmt lb then ⟨n, decide (564 ≤ n), !activeLine (rasterOf fmt) L, b2n (2 * n % 1125 != L % 1125)⟩ else lineHead fmt lb false L
/-- CRC with the polynomial x^18 + x^5 + x^4 + 1 over 10-bit words, lowest bit first. -/
def crc18Bit (c b : Nat) : Nat := if (c + b) % 2 = 1 then (c / 2) ^^^ 0x23000 else c / 2
def crc18Word (c w : Nat) : Nat := (List.range 10).foldl (fun c i => crc18Bit c (w / 2 ^ i % 2)) c
/-- The two CRC words of a line of a stream: over the active words of the line before, EAV and line number. -/
def crcWords (before head : List Nat) : List Nat :=
  let c := (before ++ head).foldl crc18Word 0
  let w (n : Nat) : Nat := n % 512 + (if n % 512 < 256 then 512 else 0)
  [w c, w (c / 512)]
/-- Does a line of a stream carry the CRC words that its words ask for? -/
def crcGood (mask : Nat) (before line : List Nat) : Bool :=
  crcWords before (line.take 6) == (match (line.drop 6).take 2 with | [] => [] | w :: r => (w ^^^ mask) :: r)
/-- A line of a stream: EAV, line number, CRC, horizontal ancillary space of `hanc` words, SAV, active words; `blank` is its
blanking word. -/
def streamLine (h : LineHead) (hanc blank : Nat) (active : List Nat) : List Nat :=
  [0x3FF, 0, 0, trsWord h.field h.blank true] ++ lineNumberWords h.num ++ [0, 0]
    ++ List.replicate hanc blank ++ [0x3FF, 0, 0, trsWord h.field h.blank false] ++ active
/-- The words behind the first TRS of a list. -/
def afterTrs : List Nat → List Nat
  | [] => []
  | w :: t => if w = 0x3FF ∧ t.take 2 = [0, 0] then t.drop 3 else afterTrs t
/-- The active words of a line of a stream: what follows its SAV. -/
def lineTail (line : List Nat) : List Nat := afterTrs (line.drop 4)
/-- Blanking word of a stream: chroma in the streams of C, but 0x040 for R'G'B'. -/
def blankWord (samp : Nat) (chroma : Bool) : Nat := if chroma && samp != 2 then 0x200 else 0x040
/-- Length of the horizontal ancillary space of a stream, which begins behind the CRC words. -/
def hancLen (fmt : Nat) (lb : Bool) : Nat := streamWords fmt lb - streamActive fmt lb - 12
/-- The streams of a lane's line made from its active values (R127). -/
def makeStreams (fmt samp : Nat) (lb : Bool) (h : LineHead) (ws : List Nat) : List (List Nat) :=
  ((streamValues fmt samp lb ws).zipIdx).map (fun e => streamLine h (hancLen fmt lb) (blankWord samp (isChroma fmt lb e.2)) e.1)
/-- A stream's line as another data stream of the same timing carries it: its TRS words. -/
def withTrs (fmt : Nat) (lb : Bool) (h : LineHead) (line : List Nat) : List Nat :=
  (line.set 3 (trsWord h.field h.blank true)).set (11 + hancLen fmt lb) (trsWord h.field h.blank false)
/-- Line number and CRC words written afresh on the words emitted. -/
def sealLine (h : LineHead) (before line : List Nat) : List Nat :=
  let head := line.take 4 ++ lineNumberWords h.num
  head ++ crcWords before head ++ line.drop 8

/-! ### Ancillary packets (ST 291-1) -/

/-- An 8-bit word with its parity bits. -/
def parityWord (b : Nat) : Nat :=
  let p := popcount 8 b % 2
  b % 256 + p * 256 + (1 - p) * 512
/-- A packet: ADF, DID, SDID, data count, user words, checksum. -/
def ancPacket (did sdid : Nat) (udw : List Nat) : List Nat :=
  let body := [parityWord did, parityWord sdid, parityWord udw.length] ++ udw.map (· % 1024)
  let c := body.foldl (fun a w => (a + w % 512) % 512) 0
  [0, 0x3FF, 0x3FF] ++ body ++ [c + (if c < 256 then 512 else 0)]
/-- The packets in a space: place, length, DID, second word, in order. -/
def ancScan : Nat → Nat → List Nat → List (Nat × Nat × Nat × Nat)
  | 0, _, _ => []
  | _ + 1, _, [] => []
  | n + 1, i, w :: t =>
    if w = 0 ∧ t.take 2 = [0x3FF, 0x3FF] then
      let len := 7 + ((t.drop 4).headD 0) % 256
      (i, len, ((t.drop 2).headD 0) % 256, ((t.drop 3).headD 0) % 256) :: ancScan n (i + len) (t.drop (len - 1))
    else ancScan n (i + 1) t
def spacePackets (ws : List Nat) : List (Nat × Nat × Nat × Nat) := ancScan (ws.length + 1) 0 ws
/-- Words lo up to lo + n replaced. -/
def overwrite (ws : List Nat) (lo : Nat) (new : List Nat) : List Nat := ws.take lo ++ new ++ ws.drop (lo + new.length)
/-- Packets that `p` picks by DID and second word give way to blanking. -/
def dropPackets (p : Nat → Nat → Bool) (blank : Nat) (ws : List Nat) : List Nat :=
  ((spacePackets ws).filter (fun e => p e.2.2.1 e.2.2.2)).foldl (fun ws e =>
    overwrite ws e.1 (List.replicate (min e.2.1 (ws.length - e.1)) blank)) ws
/-- The first free position: behind the packets already there (R139). -/
def freePlace (ws : List Nat) : Nat := (spacePackets ws).foldl (fun a e => max a (e.1 + e.2.1)) 0
/-- Place a packet at the first free position of a space; none where it does not fit. -/
def placePacket (pk ws : List Nat) : Option (List Nat) :=
  if ws.length < freePlace ws + pk.length then none else some (overwrite ws (freePlace ws) pk)

/-! ### Payload ID (R124, R129; ST 352) -/

/-- Byte 1 to byte 4 that the documents assign to a format, lowest byte first; `levelB` a 3G signal of level B. -/
def synthPid (fmt samp : Nat) (levelB : Bool) : Nat :=
  let r := rasterOf fmt; let q := rateOf fmt
  let m := linkMbps fmt
  let b1 := if r = 3 then 0x84 else if m = 1485 then 0x85
    else if r = 8 then (if levelB then 0x98 else 0x97) else if m = 2970 then (if levelB then 0x8A else 0x89)
    else if m = 5940 then 0xC0 else if r = 9 then 0xD2 else 0xCE
  let rate := [0, 2, 3, 5, 6, 7, 4, 8, 9, 10, 11].getD q 0
  let picture := !(r == 1 || r == 2 || r == 4)
  let transport := picture && r != 5 && !(m == 2970 && levelB)
  b1 + (b2n transport * 128 + b2n picture * 64 + rate) * 2 ^ 8 + (128 + samp) * 2 ^ 16 + 2 ^ 24
/-- A payload ID with the link number of its byte 4. -/
def pidLink (pid i : Nat) : Nat := withBits 31 30 i pid
/-- The structure a payload ID reports can be processed: Y'CbCr or R'G'B' at 4:2:2 or 4:4:4 with 10-bit components
(R124). -/
def pidProcessable (pid : Nat) : Bool := decide (bitsOf 19 16 pid ≤ 2) && bitsOf 25 24 pid == 1
/-- Sampling that a payload ID reports. -/
def pidSamp (pid : Nat) : Nat := let b := bitsOf 19 16 pid; if b ≤ 2 then b else 0
/-- The packet: DID 0x41, SDID 0x01, four bytes. -/
def pidPacketWords (pid : Nat) : List Nat := ancPacket 0x41 0x01 ((leBytes 4 pid).map parityWord)
def isPidPacket (did sdid : Nat) : Bool := did == 0x41 && sdid == 0x01
/-- Is the line structure of a lane's data streams fielded? -/
def twoFields (fmt : Nat) (lb : Bool) : Bool := rasterFields (rasterOf fmt) == 2 || dualB fmt lb
/-- The lines of a data stream that carry it. -/
def pidLine (fmt : Nat) (lb : Bool) (n : Nat) : Bool := n == 10 || (twoFields fmt lb && n == 572)
/-- The streams that carry it: Y of each image, both streams of a 3 Gb/s lane at level A. -/
def pidStream (fmt : Nat) (lb : Bool) (j : Nat) : Bool := !isChroma fmt lb j || (linkMbps fmt == 2970 && !lb)

/-! ### Embedded audio packets (R134; ST 299-1) -/

/-- DID of the audio data packet and of the audio control packet of group g, 0 to 3. -/
def audioDid (g : Nat) : Nat := 0xE7 - g
def audioCtlDid (g : Nat) : Nat := 0xE3 - g
/-- The four words of a channel: Z, 24 bits of audio, V, U, C and their parity. -/
def audioWords (x : Nat) : List Nat :=
  let a := x / 256 % 2 ^ 24
  let b3 := a / 2 ^ 20 + b2n (bitOf 32 x) * 16 + b2n (bitOf 33 x) * 32 + b2n (bitOf 34 x) * 64
  let p := (popcount 24 a + popcount 3 (b3 / 16)) % 2
  [a % 16 * 16 + b2n (bitOf 35 x) * 8, a / 16 % 256, a / 2 ^ 12 % 256, b3 + p * 128]
/-- The six ECC words: BCH (31, 25) with (x + 1)(x^5 + x^2 + 1) over each of the eight low bit planes of 24 words. -/
def eccWords (ws : List Nat) : List Nat :=
  let plane (i : Nat) : Nat := (ws.map (fun w => w / 2 ^ i % 2)).foldl (fun (r b : Nat) =>
    if (r / 32 + b) % 2 = 1 then ((r * 2) % 64) ^^^ 0x2F else r * 2 % 64) 0
  (List.range 6).map (fun j => (List.range 8).foldl (fun a i => a + plane i / 2 ^ j % 2 * 2 ^ i) 0)
/-- An audio data packet: clock phase, four channels, ECC. -/
def audioPacketWords (g dbn clk : Nat) (xs : List Nat) : List Nat :=
  let udw := [clk % 256, clk / 256 % 16 + clk / 4096 % 2 * 32] ++ (List.range 4).flatMap (fun i => audioWords ((xs[i]?).getD 0))
  let front := [0, 0x3FF, 0x3FF, parityWord (audioDid g), parityWord dbn, parityWord 24] ++ udw.map parityWord
  ancPacket (audioDid g) dbn ((udw ++ eccWords front).map parityWord)
/-- An audio control packet: 48 kHz, synchronous, four active channels, no delays; `af` its frame number. -/
def audioCtlWords (g af : Nat) : List Nat :=
  ancPacket (audioCtlDid g) 0 (([af, 0, 15] ++ List.replicate 8 0).map parityWord)
/-- The lines of data stream 1 that carry audio control packets, and those that carry audio data packets. -/
def audioCtlLine (fmt : Nat) (lb : Bool) (h : LineHead) : Bool :=
  h.stream == 0 && (h.num == 9 || (twoFields fmt lb && h.num == 571))
def audioDataLine (fmt : Nat) (lb : Bool) (h : LineHead) : Bool :=
  h.stream == 0 && !(h.num == 8 || (twoFields fmt lb && h.num == 570))

end Sys2Proof.Machine
end

