-- ==== Sys2Proof/Machine/Raise.lean ====
section
/-! DEFINITION. Raising a fault, the Patina record, FAULT_N and MGMT_ALERT_N, MSI-X and ARB_HEALTH, said once and
shared by every command (17_faults_patina.md R413-R428; 19_host_fabric.md R470, R471; 16_redundant_pair.md R393, R395). -/

namespace Sys2Proof.Machine

/-! Fault source numbers 32 * group + index (17_faults_patina.md R413 Table 17.1). -/
namespace Src
def bridgeFail : Nat := 0
def clkUnlock : Nat := 1
def resourceConflict : Nat := 2
def ctlDecodeHang : Nat := 3
def patDrop : Nat := 4
def mramCorr : Nat := 5
def mramUncorr : Nat := 6
def lifeVote : Nat := 7
def keepRestoreErr : Nat := 8
def takeRefused : Nat := 32
def takeOverrun : Nat := 33
def untimedRoute : Nat := 34
def fsyncLoss : Nat := 35
def groupSlip : Nat := 36
def audTakeRefused : Nat := 37
def audTakeOverrun : Nat := 38
def audDeembSlip : Nat := 39
def sdiLockLoss : Nat := 64
def sdiRateMismatch : Nat := 65
def sdiCrc : Nat := 66
def sdiAudErr : Nat := 67
def ancCapDrop : Nat := 68
def dpLinkFail : Nat := 69
def macLinkDown : Nat := 96
def macRxOverflow : Nat := 97
def macExcDrop : Nat := 98
def macFecUncorr : Nat := 99
def flowLoss : Nat := 100
def flowPathLoss : Nat := 101
def flowSkew : Nat := 102
def flowGroupSlip : Nat := 103
def flowTxLate : Nat := 104
def qmCorr : Nat := 128
def qmUncorr : Nat := 129
def qmDescUncorr : Nat := 130
def engCorr : Nat := 131
def engUncorr : Nat := 132
def cluKlibBad : Nat := 133
def engHang : Nat := 134
def engQuarantine : Nat := 135
def engSlotLate : Nat := 136
def compLayerLate : Nat := 160
def compTileLate : Nat := 161
def compSurfErr : Nat := 162
def linebufShort : Nat := 163
def scaleRange : Nat := 164
def sapFrameErr : Nat := 192
def sapClkLoss : Nat := 193
def sapSlip : Nat := 194
def sapGroupSlip : Nat := 195
def sapStartLate : Nat := 196
def asrcUnlock : Nat := 197
def refReject : Nat := 224
def refSwitch : Nat := 225
def refAbandon : Nat := 226
def refHoldover : Nat := 227
def refFree : Nat := 228
def refDisagree : Nat := 229
def refXoFail : Nat := 230
def tkUnlock : Nat := 231
def otSwitch : Nat := 232
def tpoLate : Nat := 233
def tciOverflow : Nat := 234
def pairBeatHold : Nat := 256
def pairMirrorLossS : Nat := 257
def pairMirrorLossA : Nat := 258
def pairImageMismatch : Nat := 259
def pairPlaneSkew : Nat := 260
def pairTimeSkew : Nat := 261
def pairAckMiss : Nat := 262
def pairTakeLate : Nat := 263
def pairSigMismatch : Nat := 264
def pairMarginLow : Nat := 265
def pairDualActive : Nat := 266
def pairNoActive : Nat := 267
def maqVerifyFail : Nat := 288
def castFail : Nat := 289
def fallback : Nat := 290
def fallbackFail : Nat := 291
def flashErr : Nat := 292
def settingsFull : Nat := 293
def testInjected : Nat := 320
def testPerturb : Nat := 321
end Src

/-- How many sources each group holds (Table 17.1; group 9 in the order of 18 Table 18.5, group 10 of 20 R499). -/
def groupSize (g : Nat) : Nat :=
  if g = 0 then 9 else if g = 1 then 8 else if g = 2 then 6 else if g = 3 then 9 else if g = 4 then 9
  else if g = 5 then 5 else if g = 6 then 6 else if g = 7 then 11 else if g = 8 then 12 else if g = 9 then 6
  else if g = 10 then 2 else 0
/-- A reserved source is never raised (R413). -/
def srcReserved (n : Nat) : Bool := decide (groupSize (n / 32) ≤ n % 32)
/-- The condition sources of Table 17.1 and 20 R499. -/
def srcCondition (n : Nat) : Bool :=
  n ∈ [Src.bridgeFail, Src.clkUnlock, Src.qmDescUncorr, Src.cluKlibBad, Src.refXoFail, Src.pairBeatHold,
    Src.pairImageMismatch, Src.pairDualActive, Src.pairNoActive, Src.testPerturb]
/-- Every assigned source, ascending. -/
def allSources : List Nat := (List.range 11).flatMap (fun g => (List.range (groupSize g)).map (fun i => 32 * g + i))

def faultSev (s : State) (n : Nat) : Nat := fget s (Reg.FAULT_SEV n) Fld.FAULT_SEV_SEV
def faultStatus (s : State) (n : Nat) : Bool := bitOf (n % 32) (rgetN s (Reg.FAULT_STAT (n / 32)))

/-! ### Time of a record -/

/-- VALID and LOCKED of a timekeeper; the raw counter. -/
def tkValid (s : State) (k : Nat) : Bool := fbit s (Reg.TIME_TK_STAT k) Fld.TIME_TK_STAT_VALID
def tkLocked (s : State) (k : Nat) : Bool := fbit s (Reg.TIME_TK_STAT k) Fld.TIME_TK_STAT_LOCKED
def tkRaw (s : State) (k : Nat) : Nat := if k = 0 then s.time.tkA else s.time.tkB
/-- The output time, OT = TK_cur + O (15_network_time.md R380), modulo 2^96. -/
def otRaw (s : State) : Nat := ofInt 96 ((tkRaw s s.time.cur : Int) + s.time.resid)
def otNs (s : State) : Nat := otRaw s / 2 ^ 32
def tkNs (s : State) (k : Nat) : Nat := tkRaw s k / 2 ^ 32

/-! ### MSI-X -/

/-- A cause sends its vector (19 R470, R471): nothing while MSI-X Enable is 0 or the function mask is 1; a masked
vector sets its PBA bit; otherwise the message leaves. -/
def sendMsix (v : Nat) (s : State) : State :=
  if !s.fab.msixEnable || s.fab.msixMask then s
  else if fbit s (Reg.MSIX_CTRL v) Fld.MSIX_CTRL_MASK then
    let a := Reg.MSIX_PBA (v / 32)
    rsetN s a (withBits (v % 32) (v % 32) 1 (rgetN s a))
  else emit s (.msix v (rget64 s (Reg.MSIX_ADDR_LO v) (Reg.MSIX_ADDR_HI v)) (rget s (Reg.MSIX_DATA v)))

/-- A done message of a take ring (04 R103, 13 R334). A DONE_VEC above its stated range, 0 to 63, names a vector of its own
that the spec does not state (log entry 29). -/
def sendDone (v : Nat) (s : State) : State := sendMsix (if v < 64 then v else Config.outOfRange v % 64) s

/-! ### Health and the alarm pins -/

/-- In step, 16 R395: every plane in use LOCKED or SWITCHING; on a standby of a pair the link SYNCED, no signature
difference in the last 16 compared frames, the plane skews within the limit. -/
def planeState (s : State) (p : Nat) : Nat := fget s (Reg.PLANE_STAT p) Fld.PLANE_STAT_STATE
def planeInStep (s : State) (p : Nat) : Bool :=
  !planeUsed s.img p || planeState s p == 3 || planeState s p == 4
def skewOk (s : State) (p : Nat) : Bool :=
  !planeUsed s.img p ||
    decide ((sext 32 (rgetN s (Reg.PAIR_SKEW p))).natAbs ≤ fget s Reg.PAIR_SKEW_LIM Fld.PAIR_SKEW_LIM_NS)
def inStep (s : State) : Bool :=
  planeInStep s 0 && planeInStep s 1 &&
  (!(pairInUse s && mode s == .standby) ||
    (fget s Reg.PAIR_STAT Fld.PAIR_STAT_LINK == 5 && s.pair.sigClean.isEmpty && skewOk s 0 && skewOk s 1))

/-- Is a source of at least the given severity set, or exactly it? -/
def anyAtLeast (s : State) (sev : Nat) : Bool :=
  allSources.any (fun n => faultStatus s n && decide (sev ≤ faultSev s n))
def anyExactly (s : State) (sev : Nat) : Bool := allSources.any (fun n => faultStatus s n && faultSev s n == sev)

/-- ARB_HEALTH, 16 R393 Table 16.2; 00 outside STANDBY and ACTIVE. -/
def healthCode (s : State) : Nat :=
  if !inRole s then 0
  else if anyExactly s 5 || fbit s Reg.PAIR_STAT Fld.PAIR_STAT_BEAT_HOLD then 0
  else if anyExactly s 4 then 1
  else if !inStep s then 2 else 3

/-- Update INSTEP, HEALTH and the ARB_HEALTH pins. -/
def refreshHealth (s : State) : State :=
  let h := healthCode s
  let s := fset s Reg.PAIR_STAT Fld.PAIR_STAT_HEALTH h
  let s := fset s Reg.PAIR_STAT Fld.PAIR_STAT_INSTEP (b2n (inRole s && inStep s))
  { s with core := { s.core with arbHealth := h } }

/-- Bits of FAULT_SUMMARY for groups lo to lo + 31. -/
def summaryBits (s : State) (lo : Nat) : Nat :=
  (List.range 32).foldl (fun acc i =>
    if (List.range (groupSize (lo + i))).any (fun j =>
        faultStatus s (32 * (lo + i) + j) && decide (3 ≤ faultSev s (32 * (lo + i) + j)))
      then acc + 2 ^ i else acc) 0

/-- FAULT_N, MGMT_ALERT_N, FAULT_SUMMARY, FAULT_ANY and health follow status and severity (R418, R419, R422, Table 2.6).
In RESET the pins are high-impedance; in BOOT, FAULT_N stays high. -/
def refreshPins (s : State) : State :=
  let s := rsetN s Reg.FAULT_SUMMARY_LO (summaryBits s 0)
  let alert := anyAtLeast s 3
  let acts := !(mode s == .reset) && !inColdBoot s && !inCast s
  let low := acts && alert
  let s := fset s Reg.FAULT_ANY Fld.FAULT_ANY_ALERT (b2n low)
  let s := fset s Reg.FAULT_ANY Fld.FAULT_ANY_DEGRADE (b2n (anyExactly s 4))
  let s := fset s Reg.FAULT_ANY Fld.FAULT_ANY_FAIL (b2n (anyExactly s 5))
  let fn : Pin := if mode s == .reset then .hiz else if low then .low else .high
  let slow := fbit s Reg.GLOBAL_BOOT_STAT Fld.GLOBAL_BOOT_STAT_HEAT_SLOW
  let ma : Pin := if mode s == .reset then .hiz else if low || slow then .low else .high
  refreshHealth { s with core := { s.core with faultN := fn, mgmtAlertN := ma } }

/-! ### Raising -/

/-- Raises from here to the matching `cycleEnd` are observed in one cycle (R421); cycles nest. -/
def cycleBegin (s : State) : State := { s with core := { s.core with vecs := some (s.core.vecs.getD []) } }
/-- The cycle that began at s ends, at t. -/
def cycleEnd (s t : State) : State :=
  if s.core.vecs.isNone then { t with core := { t.core with vecs := none, refusal := none } } else t
/-- The vector of group g leaves, once a cycle (R421). -/
def groupVector (g : Nat) (s : State) : State :=
  match s.core.vecs with
  | none => sendMsix (fget s (Reg.FAULT_VEC g) Fld.FAULT_VEC_VEC) s
  | some l => if g ∈ l then s
    else sendMsix (fget s (Reg.FAULT_VEC g) Fld.FAULT_VEC_VEC) { s with core := { s.core with vecs := some (g :: l) } }

/-- Record `n` counted and its status set, with no Patina record: the part of a raise every severity from COUNT up
performs, and the MSI-X message of R421 (sent when the bit goes from 0 to 1, not in BOOT, R422). -/
def raiseCounted (n : Nat) (s : State) : State :=
  let sev := faultSev s n
  let was := faultStatus s n
  let a := Reg.FAULT_STAT (n / 32)
  let s := rsetN s a (withBits (n % 32) (n % 32) 1 (rgetN s a))
  let s := count (count s (Reg.FAULT_CNT n)) Reg.FAULT_RAISES
  let s := fset (fset s Reg.FAULT_LAST Fld.FAULT_LAST_SRC n) Reg.FAULT_LAST Fld.FAULT_LAST_SEV sev
  let s := refreshPins s
  if decide (3 ≤ sev) && !was && !(mode s == .boot) && fbit s (Reg.FAULT_VEC (n / 32)) Fld.FAULT_VEC_EN then
    groupVector (n / 32) s
  else s

/-- A raise that writes no record: PAT_DROP (R427). -/
def raiseNoRecord (n : Nat) (s : State) : State := if faultSev s n = 0 then s else raiseCounted n s

/-- Events that take no token and are never dropped (R427). -/
def tokenFree (ev : Nat) : Bool := ev ∈ [2, 3, 4, 5, 6, 7]

/-- Stamp an event with the time, BOOTS and the state of the output time, as R424 Table 17.5 lays a record out. -/
def makeRec (ev : Nat) (source master sev : Nat) (payload : List Nat) (s : State) : PatRec :=
  let tv := tkValid s s.time.cur && running s
  { event := ev, time := (if tv then otNs s else ticksNs s.core.sinceReset) % 2 ^ 64, boot := lifeGet s 1 % 2 ^ 32,
    source := source, master := master, sev := sev, tv := tv, locked := tv && tkLocked s s.time.cur,
    payload := (payload.map (· % 2 ^ 32)).take 8 }

/-- Offer a record to the writer (R427): it takes a token and joins the queue of 64, or it is dropped, counted, and
PAT_DROP is raised. From POWER_FAIL on, every record but POWER_FAIL and POWER_RESTORE is discarded (R431). -/
def queueRec (r : PatRec) (s : State) : State :=
  if fbit s Reg.PAT_STAT Fld.PAT_STAT_PF && !(r.event == 5) && !(r.event == 6) then s
  else if tokenFree r.event then { s with pat := { s.pat with pendingRecs := s.pat.pendingRecs ++ [r] } }
  else
    let tok := fget s Reg.PAT_TOKENS Fld.PAT_TOKENS_TOKENS
    if tok = 0 ∨ 64 ≤ s.pat.pendingRecs.length then
      let s := count s Reg.PAT_DROPPED
      let s := { s with pat := { s.pat with
        lost := s.pat.lost + 1
        lostFirst := if s.pat.lost = 0 then r.source else s.pat.lostFirst
        lostLast := r.source } }
      raiseNoRecord Src.patDrop s
    else
      let s := fset s Reg.PAT_TOKENS Fld.PAT_TOKENS_TOKENS (tok - 1)
      { s with pat := { s.pat with pendingRecs := s.pat.pendingRecs ++ [r] } }

/-- Write an event of Table 17.6 that is no fault. -/
def logEvent (ev : Nat) (payload : List Nat) (s : State) : State := queueRec (makeRec ev 0x7FF 0 0 payload s) s

/-- Raise fault source n with its payload (R415-R417): nothing at severity IGNORE; status and counts; a record at LOG
and above; FAULT_N, MSI-X and health at ALERT and above. -/
def raise (n : Nat) (payload : List Nat) (s : State) : State :=
  let sev := faultSev s n
  if sev = 0 then s
  else
    let t := raiseCounted n (cycleBegin s)
    cycleEnd s (if 2 ≤ sev then queueRec (makeRec 1 n 0 sev payload t) t else t)

/-- An uncorrectable word of the MRAM is met: counted and reported (R423). -/
def mramUncorr (s : State) : State := raise Src.mramUncorr [0] (count s Reg.PAT_MRAM_UNCORR)

/-- A corrected word of the MRAM is met: counted and reported (R423). -/
def mramCorrected (s : State) : State := raise Src.mramCorr [0] (count s Reg.PAT_MRAM_CORR)

/-- A condition source begins: it is raised once and stays present (R416). -/
def condBegin (n : Nat) (payload : List Nat) (s : State) : State :=
  if n ∈ s.pat.conds then s
  else raise n payload { s with pat := { s.pat with conds := s.pat.conds ++ [n] } }

/-- A condition ends. Its status stays until the host clears it (R416). -/
def condEnd (n : Nat) (s : State) : State :=
  { s with pat := { s.pat with conds := s.pat.conds.filter (· != n) } }

/-- A condition follows a truth value. -/
def condSet (n : Nat) (on : Bool) (payload : List Nat) (s : State) : State :=
  if on then condBegin n payload s else condEnd n s

/-- A W1C write to FAULT_STAT_g (R421): bits written 1 clear, but for conditions that are present (R416). -/
def clearFaults (g : Nat) (w : Nat) (s : State) : State :=
  let held := (List.range 32).foldl (fun acc i => if 32 * g + i ∈ s.pat.conds then acc + 2 ^ i else acc) 0
  let old := rgetN s (Reg.FAULT_STAT g)
  let cleared := (List.range 32).foldl
    (fun acc i => if bitOf i old && (!(bitOf i w) || bitOf i held) then acc + 2 ^ i else acc) 0
  refreshPins (rsetN s (Reg.FAULT_STAT g) cleared)

/-- PAT_KEEP_BACKLOG: the items waiting, changed or of a flush and not yet written (R434). -/
def setBacklog (s : State) : State :=
  rsetN s Reg.PAT_KEEP_BACKLOG
    (s.pat.dirty.length + s.pat.finalItems.length + (s.pat.flushes.map (fun f => f.items.length - f.done)).sum)

/-- Mark a Keep item as changed (R434): in STANDBY and ACTIVE only. -/
def markDirty (k : KeepItem) (s : State) : State :=
  if inRole s && !(k ∈ s.pat.dirty) then
    setBacklog { s with pat := { s.pat with dirty := s.pat.dirty ++ [k] } }
  else s

end Sys2Proof.Machine
end

