-- ==== Sys2Proof/Machine/Access.lean ====
section
/-! DEFINITION. How an access reaches a register: which blocks answer in which mode, hung and held masters, decode
errors, refusals, mirrored writes, plain fields, reads with their side effects (00_scope.md R6; 02 R26; 03 R73-R76,
R523; 16 R407; 19 R468-R485). -/

namespace Sys2Proof.Machine

/-- A filtered level of one of the fifteen filtered inputs changes (21 R510, Table 21.16). -/
def setFiltered (i : Nat) (b : Bool) (s : State) : State :=
  { s with core := { s.core with filtered := BitVec.ofNat 15 (withBits i i (b2n b) s.core.filtered.toNat) } }

/-! ### Refusals (03_admet_image.md R73, R74, R523) -/

/-- Resource ID of a register that no other class names: class 0x00, offset // 4 (R523). -/
def ridReg (a : Nat) : Nat := a / 4

/-- A block refuses a write of master m at offset a: capture, count, RESOURCE_CONFLICT with resource, owner, master,
reason and offset (R74). The write changes nothing. The owner of a flash sector is the one that R444 of chapter 18
names, where R523 would give 0 for every resource outside the OWN table (DESIGN CHOICE, log entry 127). Of refusals in
one cycle the captures hold that of the lower-numbered master, and of one master that at the lower offset (R76). -/
def refuse (m reason rid a : Nat) (s : State) : State :=
  let owner := (ownEntry s.img rid).getD 0
  let owner := if rid / 0x1000000 = 0x14 then
      (let i := rid % 0x1000000
       if i < 0x100 then 0x00120000 else if i < 0x400 then 0x00130001 else if i < 0x700 then 0x00130002 else 0x00140000)
    else owner
  let i := Reg.IMG_REFUSE_INFO
  let s := if s.core.vecs.isSome && s.core.refusal.any (fun k => decide (k.1 < m) || (k.1 == m && decide (k.2 ≤ a))) then s
    else
      let s := fset (fset (fset s i Fld.IMG_REFUSE_INFO_MASTER m) i Fld.IMG_REFUSE_INFO_REASON reason)
        i Fld.IMG_REFUSE_INFO_VALID 1
      let s := rsetN (rsetN s Reg.IMG_REFUSE_RES rid) Reg.IMG_REFUSE_ADDR a
      if s.core.vecs.isSome then { s with core := { s.core with refusal := some (m, a) } } else s
  let s := count s Reg.IMG_REFUSE_COUNT
  raise Src.resourceConflict [0, rid, owner, m, reason, a] s

/-! ### Which blocks answer (02 Table 2.1, R26) -/

/-- A block that Table 2.1 lists for BOOT and SAFE; the MSI-X region answers in every mode (R475). -/
def bootBlock : Block → Bool
  | .global | .fault | .patina | .img | .fabric | .pinctl | .msix => true
  | _ => false

/-- Does the block of address a answer in the present mode? -/
def answers (s : State) (a : Nat) : Bool := inService s || bootBlock (blockOf a)

/-- Offsets a chapter lists as reserved decode too (R475): the gaps inside repeated instances. Here: every offset of
an instance that the register map strides over. -/
def decodes (a : Nat) : Bool := (findRow a).isSome

/-! ### Hung and held requests (19 R476, R479, R482) -/

def isHung (s : State) (m : Nat) : Bool := s.fab.hung.any (fun h => h.master == m)

/-- The target that serves a register of BAR0 (Table 19.2); 30 for an offset that no target serves. -/
def blockPort (a : Nat) : Nat :=
  match blockOf a with
  | .global => 0 | .fault => 1 | .xp => 2 | .vlane => 3 | .plane => 4 | .time => 5 | .mac => 6 | .flow => 7 | .qm => 8
  | .eng => 9 | .comp => 10 | .aud => 11 | .sap => 12 | .pair => 13 | .patina => 14 | .img => 15 | .fabric => 16
  | .test => 17 | .pinctl => 18 | .msix => 19 | .gap | .beyond => 30
def targetOf (r : HeldReq) : Nat := if r.port = 0 then blockPort r.addr else r.port
/-- The target of a hung access. -/
def hungTarget (h : Hung) : Nat := if h.bar = 0 then blockPort h.addr else 30
/-- The targets a master reaches (Table 19.3). M0 and M8 can address what no target serves; the others issue only fixed
addresses (R484). M2 reaches the blocks of Table 16.5 for the mirrored writes it presents. -/
def reaches (m t : Nat) : Bool :=
  if m = 0 then decide (t ≤ 23) || t == 30
  else if m = 8 then decide (t ≤ 19) || t == 30
  else if m = 1 then decide (t ≤ 18) || t == 23
  else if m = 2 then [2, 3, 4, 7, 9, 10, 11, 12, 13, 28].contains t
  else if m = 7 then t == 14 || t == 21
  else [8, 9, 20, 24, 25, 26, 27].contains t

/-- Why a request is held back: an order of R479, a deadlock of R480, a bound of R476. -/
inductive Hold where
  | order | deadlock | bound
  deriving DecidableEq, Repr

/-- Reads or writes that master m has outstanding, a hung access among them (R476, R482). -/
def outstanding (s : State) (m : Nat) (w : Bool) : Nat :=
  (s.fab.issued.filter (fun r => r.master == m && r.write == w)).length
    + (s.fab.hung.filter (fun r => r.master == m && r.write == w)).length
/-- The target of a block that is both master and target: M2 and T28, M3 to M6 and T24 to T27 (R480). -/
def ownPort (m : Nat) : Option Nat := if m = 2 then some 28 else if 3 ≤ m ∧ m ≤ 6 then some (21 + m) else none
/-- Must a request of master m to target t, a write where `w` is set, follow an earlier one of it, of direction `w'` and to
target `t'`, that has not been issued or is never answered (R479)? A request behind a write to the same target; a read of M0
behind a write; a read behind a read, whose data returns first. -/
def mustFollow (m : Nat) (w : Bool) (t : Nat) (w' : Bool) (t' : Nat) : Bool :=
  (w' && t' == t) || (!w && (!w' || m == 0))
/-- What holds back a request of master m to target t now, where `before` are the held requests that came earlier. Order: a
hung access that it must follow, for M0 every one (R482); a held request that it must follow; a read of M0 behind its
writes; a read behind an unanswered read of another target, whose data must return first (R479). Deadlock: the target's
block waits on m's own target (R480). Bound: 16 reads, 16 writes of the master, which stalls there, 128 of the matrix
(R476). -/
def holdCause (s : State) (before : List HeldReq) (m : Nat) (w : Bool) (t : Nat) : Option Hold :=
  let mine := s.fab.issued.filter (fun r => r.master == m)
  let earlier := before.filter (fun r => r.master == m)
  if s.fab.hung.any (fun h => h.master == m && (m == 0 || mustFollow m w t h.write (hungTarget h)))
      || earlier.any (fun r => mustFollow m w t r.write (targetOf r))
      || (!w && mine.any (fun r => if r.write then m == 0 else r.port != t)) then some .order
  else if (ownPort m).isSome && s.fab.issued.any (fun r => r.master != m && ownPort r.master == some t
      && some r.port == ownPort m) then some .deadlock
  else if 16 ≤ outstanding s m w || 128 ≤ s.fab.issued.length + s.fab.hung.length
      || earlier.any (fun r => decide (16 ≤ outstanding s m r.write)) then some .bound
  else none

/-- A request must wait; FABRIC_HOLD_ORDER or FABRIC_HOLD_DEADLOCK counts it (R479, R480). -/
def holdReq (r : HeldReq) (s : State) : State :=
  let t := { s with fab := { s.fab with held := s.fab.held ++ [r] } }
  match holdCause s s.fab.held r.master r.write (targetOf r) with
  | some .order => count t Reg.FABRIC_HOLD_ORDER
  | some .deadlock => count t Reg.FABRIC_HOLD_DEADLOCK
  | _ => t

/-- FABRIC_MATRIX_OUTST and FABRIC_STAT follow the masters' counts. -/
def refreshOutst (s : State) : State :=
  let tot := (List.range 9).foldl (fun acc m => acc + fget s (Reg.FABRIC_OUTST m) Fld.FABRIC_OUTST_READS
    + fget s (Reg.FABRIC_OUTST m) Fld.FABRIC_OUTST_WRITES) 0
  let hung := (List.range 9).foldl (fun acc m => if isHung s m then acc + 2 ^ m else acc) 0
  fset (fset s Reg.FABRIC_MATRIX_OUTST Fld.FABRIC_MATRIX_OUTST_V tot) Reg.FABRIC_STAT Fld.FABRIC_STAT_HUNG hung

/-- One more or one less of a master's reads or writes is outstanding. -/
def outstStep (m : Nat) (w : Bool) (more : Bool) (s : State) : State :=
  let o := Reg.FABRIC_OUTST m
  let f := if w then Fld.FABRIC_OUTST_WRITES else Fld.FABRIC_OUTST_READS
  fset s o f (if more then fget s o f + 1 else fget s o f - 1)
/-- The matrix issues a request of master m to target T20 to T29. -/
def issueReq (m : Nat) (w : Bool) (port : Nat) (s : State) : State :=
  refreshOutst (outstStep m w true { s with fab := { s.fab with issued := s.fab.issued ++ [⟨m, w, port⟩] } })
/-- The oldest such request is answered. -/
def answerReq (m : Nat) (w : Bool) (port : Nat) (s : State) : State :=
  if s.fab.issued.contains ⟨m, w, port⟩ then
    refreshOutst (outstStep m w false { s with fab := { s.fab with issued := s.fab.issued.erase ⟨m, w, port⟩ } })
  else s

/-- A decode error: the matrix takes the access and never answers it (R482). -/
def hangOn (m : Nat) (write : Bool) (bar a : Nat) (s : State) : State :=
  let s := { s with fab := { s.fab with hung := s.fab.hung ++ [{ master := m, write := write, bar := bar, addr := a }] } }
  refreshOutst (outstStep m write true s)

/-- What stands between a master and a register. -/
inductive Gate where
  /-- the access reaches its block -/
  | pass
  /-- the device is in RESET, the ctl synthesiser has no lock, the link of M0 is down, or the master does not reach the
  target: no access is made -/
  | absent
  /-- the function is in D3hot: Unsupported Request (R468) -/
  | unsupported
  /-- held back by the matrix (R476, R479, R480, R482) -/
  | held
  /-- a block that does not answer in BOOT or SAFE: reads 0, writes ignored (R26) -/
  | silent
  /-- decode error (R475) -/
  | error
  deriving DecidableEq, Repr

/-- An access of master m that does not reach the matrix, or whose master has no path to target t; else none. -/
def linkGate (s : State) (m t : Nat) : Option Gate :=
  if mode s == .reset || !fbit s Reg.GLOBAL_CLK_LOCK Fld.GLOBAL_CLK_LOCK_CTL || !reaches m t then some .absent
  else if m = 0 && !fbit s Reg.FABRIC_PCIE_STAT Fld.FABRIC_PCIE_STAT_UP then some .absent
  else if m = 0 && fbit s Reg.FABRIC_PCIE_STAT Fld.FABRIC_PCIE_STAT_D3HOT then some .unsupported
  else none
/-- Judge a write or a read of master m to BAR0 offset a. -/
def gate (s : State) (m : Nat) (w : Bool) (a : Nat) : Gate :=
  if (linkGate s m (blockPort a)).isSome then (linkGate s m (blockPort a)).getD .absent
  else if (holdCause s s.fab.held m w (blockPort a)).isSome then .held
  else if blockOf a == .gap || blockOf a == .beyond then .error
  else if !answers s a then .silent
  else if !decodes a then .error
  else .pass

/-! ### Mirrored registers (16 R407 Table 16.5) -/

/-- Offsets of the mirrored registers. -/
def mirroredReg (a : Nat) : Bool :=
  match blockOf a, findRow a with
  | .xp, some r => r.name == "XP_DEST_FSYNC" || r.name == "XP_TPG_CTRL" || r.name == "XP_TPG_COLOR"
  | .vlane, some r => r.name == "VLANE_TX_CTRL" || r.name == "VLANE_TX_PID" || r.name == "VLANE_ANC_CAP_FILT"
      || r.name == "VLANE_ANC_CAP_Q" || r.name == "VLANE_ANC_INS_CTRL" || r.name == "VLANE_ANC_INS_Q"
  | .flow, some r => r.fields.any (fun f => f.acc == .rw)
  | .comp, some r => r.fields.any (fun f => f.acc == .rw || f.acc == .wo)
  | .eng, some r => r.name == "ENG_SLOT_CTRL" || r.name == "ENG_SLOT_CM_C" || r.name == "ENG_SLOT_CM_OFFIN"
      || r.name == "ENG_SLOT_CM_OFFOUT" || r.name == "ENG_TLUT_CTRL" || r.name == "ENG_TLUT_DATA"
  | .aud, some r => r.fields.any (fun f => f.acc == .rw || f.acc == .wo)
      && !(r.name == "AUD_TAKE_CTRL" || r.name == "AUD_TAKE_PI" || r.name == "AUD_TAKE_RING")
  | .sap, some r => r.name == "SAP_CTRL" || r.name == "SAP_RX_MASK_SH" || r.name == "SAP_TX_MASK_SH"
      || r.name == "SAP_MASK_COMMIT" || r.name == "SAP_GRP_CTRL" || r.name == "SAP_GRP_AT_LO"
      || r.name == "SAP_GRP_AT_HI"
  | .plane, some r => r.name == "PLANE_CTRL" || r.name == "PLANE_LOCKOUT"
  | _, _ => false

/-- The sample counter of the audio matrix (13 R319). -/
def audSc (s : State) : Nat := rget64 s Reg.AUD_SC_LO Reg.AUD_SC_HI

/-- The mirror link state (16 Table 16.4). -/
def linkState (s : State) : Nat := fget s Reg.PAIR_STAT Fld.PAIR_STAT_LINK

/-- Send a message on the mirror link: it takes the next sequence number and waits for its acknowledgement (16 R398). -/
def mirrorSend (kind : Nat) (words : List Nat) (s : State) : State :=
  let n := s.pair.txSeq
  emit { s with pair := { s.pair with txSeq := (n + 1) % 2 ^ 32, unacked := s.pair.unacked ++ [⟨n, kind, words⟩] } }
    (.mirror kind words)

/-- Message kinds of Table 16.3, in its order. -/
def mkHealth : Nat := 0
def mkMarker : Nat := 1
def mkJournal : Nat := 2
def mkDone : Nat := 3
def mkAck : Nat := 4
def mkSigs : Nat := 5
def mkCopy : Nat := 6

/-- What a host write to a mirrored register does in a pair (R407): on a standby it is ignored and counted; on an active
device with the link SYNCED it is stamped AUD_SC + 6, journalled, and waits to be presented; otherwise it is presented
at once by `eff`. Writes of the mirror agent (M2) are presented as they come. -/
def mirroredWrite (m a : Nat) (w : Word) (eff : State → State) (s : State) : State :=
  if m = 2 || !pairInUse s || !mirroredReg a then eff s
  else if mode s == .standby then count s Reg.PAIR_HOST_IGN
  else if mode s == .active && linkState s == 5 then
    let n := (audSc s + 6) % 2 ^ 64
    let s := mirrorSend mkJournal [2, a, w.toNat, lo32 n, hi32 n, m] s
    { s with pair := { s.pair with mirWrites := s.pair.mirWrites ++ [⟨m, a, w, n⟩] } }
  else eff s

/-- The port of target t has granted a request of master m last (R478). -/
def grantTo (t m : Nat) (s : State) : State := { s with fab := { s.fab with granted := cset 8 s.fab.granted t m } }
/-- Take a write of master m at offset a through the gate to its block's own effect `eff`. -/
def hostWrite (m a : Nat) (w : Word) (eff : State → State) (s : State) : State :=
  match gate s m true a with
  | .pass => mirroredWrite m a w eff (grantTo (blockPort a) m s)
  | .absent => s
  | .unsupported => emit s (.unsupported m a)
  | .held => holdReq { master := m, write := true, addr := a, data := w } s
  | .silent => s
  | .error => hangOn m true 0 a s

/-! ### Plain fields (00 R6 Table 0.5) -/

/-- One field of a plain write: RW and RWS take the bits written, W1C clears the bits written 1, the rest ignore it. -/
def writeField (old w : Nat) (f : FieldRow) (acc : Nat) : Nat :=
  match f.acc with
  | .rw | .rws => withBits f.hi f.lo (bitsOf f.hi f.lo w) acc
  | .w1c =>
    let o := bitsOf f.hi f.lo old
    let v := bitsOf f.hi f.lo w
    withBits f.hi f.lo (o - (o &&& v)) acc
  | .ro | .wo | .rc => acc

/-- The value a plain write leaves. Reserved bits stay 0 (R474). -/
def plainValue (a : Nat) (old w : Nat) : Nat :=
  match findRow a with
  | none => old
  | some r => r.fields.foldl (fun acc f => writeField old w f acc) old

/-- A plain write. -/
def plainWrite (a : Nat) (w : Word) (s : State) : State := rsetN s a (plainValue a (rgetN s a) w.toNat)

/-- What reading clears: the RC fields (R6). -/
def readCleared (a : Nat) (old : Nat) : Nat :=
  match findRow a with
  | none => old
  | some r => r.fields.foldl (fun acc f => if f.acc == .rc then withBits f.hi f.lo 0 acc else acc) old

/-! ### Values computed at the read -/

/-- STATE of IMG_UPD_STAT (18 Table 18.9). -/
def updState (s : State) : Nat :=
  if inCast s then 3 else if s.upd.cast.isSome then 2 else if s.upd.verifying.isSome then 1 else if s.upd.windowOpen then 4 else 0
/-- The confirm window lasts 300 s (18 R454). -/
def windowTicks : Nat := 240000000000
/-- Bytes the records of the settings store take in the bank in use (18 R459). -/
def setUsed (l : List SetRec) : Nat := l.foldl (fun a r => a + Config.setRecBytes r.data.length) 0
/-- Registers whose value is the present state of a counter or pin: the timekeepers' and output time's read-outs
(15, Registers), the filtered pin levels (21 Table 21.16), the per-master copies of IMG (03, Registers), the update
block's state, window and free bytes (18, Registers). With no image in SAFE, what describes the image reads 0 (03). -/
def liveValue (s : State) (m a : Nat) : Nat :=
  let tk (k : Nat) : Nat :=
    if a = Reg.TIME_TK_NS_LO k then lo32 (tkNs s k)
    else if a = Reg.TIME_TK_NS_HI k then hi32 (tkNs s k)
    else if a = Reg.TIME_TK_FRAC k then tkRaw s k % 2 ^ 32
    else if a = Reg.TIME_TK_SEC_LO k then lo32 (tkNs s k / 1000000000)
    else if a = Reg.TIME_TK_SEC_HI k then tkNs s k / 1000000000 / 2 ^ 32 % 2 ^ 16
    else if a = Reg.TIME_TK_NSEC k then tkNs s k % 1000000000
    else rgetN s a
  let ot : Nat :=
    let o := ofInt 64 (s.time.resid.tdiv (2 ^ 32))
    if a = Reg.TIME_OT_NS_LO then lo32 (otNs s)
    else if a = Reg.TIME_OT_NS_HI then hi32 (otNs s)
    else if a = Reg.TIME_OT_RESID_LO then lo32 o
    else if a = Reg.TIME_OT_RESID_HI then hi32 o
    else if a = Reg.TIME_OT_STAT then
      s.time.cur + 2 * b2n (tkValid s s.time.cur) + 4 * b2n (decide (s.time.resid ≠ 0))
    else rgetN s a
  if 0x02C00000 ≤ a ∧ a < 0x02C00078 ∧ mode s = .safe ∧ fbit s Reg.GLOBAL_MODE Fld.GLOBAL_MODE_NOIMG then 0
  else if a = Reg.IMG_UPD_STAT then withBits 2 0 (updState s) (rgetN s a)
  else if a = Reg.IMG_UPD_WIN_S then
    (if s.upd.windowOpen then cdiv (windowTicks - (s.core.sinceReset - s.upd.windowAt)) 800000000 else 0)
  else if a = Reg.IMG_SET_FREE then 2 ^ 23 - setUsed s.long.settings
  else if a = Reg.IMG_RB_ADDR then cget 0 s.fab.perMaster (2 * m)
  else if a = Reg.IMG_OWN_QUERY then cget 0 s.fab.perMaster (2 * m + 1)
  else if a = Reg.IMG_OWN_RESULT then (ownEntry s.img (cget 0 s.fab.perMaster (2 * m + 1))).getD 0xFFFFFFFF
  else if a = Reg.PINCTL_IN_LVL then s.core.filtered.toNat
  else if 0x00A00000 ≤ a ∧ a < 0x00A00100 then tk 0
  else if 0x00A00100 ≤ a ∧ a < 0x00A00200 then tk 1
  else if 0x00A00200 ≤ a ∧ a < 0x00A00300 then ot
  else rgetN s a

/-! ### 64-bit pairs (19 R473) -/

/-- The registers that a read of a low word latches with it: its high word, or the read-outs of a timekeeper. -/
def latchedWith (a : Nat) : List Nat :=
  if a = Reg.TIME_TK_NS_LO 0 ∨ a = Reg.TIME_TK_NS_LO 1 then [a + 4, a + 8, a + 12, a + 16, a + 20]
  else if a = Reg.TIME_TK_SEC_LO 0 ∨ a = Reg.TIME_TK_SEC_LO 1 then [a + 4, a + 8]
  else match findRow a with
    | none => []
    | some r =>
      if r.lo then [a + 4]
      else if (r.name == "TIME_SNAP_W" || r.name == "PAIR_FC_OFS" || r.name == "PAIR_SC_OFS")
          && (a - r.base) % 8 == 0 then [a + 4]
      else []

/-- A latch is kept for each reading master (R473). -/
def latchKey (m a : Nat) : Nat := m * 2 ^ 26 + a

/-- A read of a low word latches the rest of its pair or group for the reading master, from the same tick (15, Registers); a
low word that is itself latched leaves the rest as it was latched with it. -/
def latchPairs (m a : Nat) (s : State) : State :=
  if s.fab.latches.any (fun p => p.1 == latchKey m a) then s
  else (latchedWith a).foldl (fun s b =>
    { s with fab := { s.fab with latches :=
      ((latchKey m b, liveValue s m b) :: s.fab.latches.filter (fun p => p.1 != latchKey m b)) } }) s

/-- The value a read returns: the master's latch where it holds one, else the live value. WO fields read 0. -/
def readValue (s : State) (m a : Nat) : Nat :=
  match s.fab.latches.find? (fun p => p.1 == latchKey m a) with
  | some p => p.2
  | none => liveValue s m a

/-- A plain read of master m: the value, latches, and RC fields cleared after it. -/
def plainRead (m a : Nat) (s : State) : Nat × State :=
  let v := readValue s m a
  let s := latchPairs m a s
  (v, rsetN s a (readCleared a (rgetN s a)))

/-- Take a read of master m at offset a through the gate; `eff` gives the block's value and effect. -/
def hostRead (m a : Nat) (eff : State → Nat × State) (s : State) : State :=
  match gate s m false a with
  | .pass => let r := eff (grantTo (blockPort a) m s); emit r.2 (.readData m a (w32 r.1))
  | .absent => s
  | .unsupported => emit s (.unsupported m a)
  | .held => holdReq { master := m, write := false, addr := a } s
  | .silent => emit s (.readData m a 0)
  | .error => hangOn m false 0 a s

end Sys2Proof.Machine
end

