-- ==== Sys2Proof/Machine/TestFamily.lean ====
section
/-! DEFINITION. Factory test: fault injection on a checker, perturbation controls, boundary scan
(20_test_perturbation.md R489-R500). -/

namespace Sys2Proof.Machine

/-! ### Availability (R489 Table 20.1) -/

def injOk (s : State) : Bool := mode s == .factory || (mode s == .standby && pairInUse s)
def pertOk (s : State) : Bool := mode s == .factory || mode s == .standby
def scanOk (s : State) : Bool := mode s == .factory || mode s == .safe

/-- A TEST write whose facility is not available, or an ARM that R494 turns away (R490). -/
def testIgnored (s : State) : State := count (fset s Reg.TEST_STAT Fld.TEST_STAT_IGNORED 1) Reg.TEST_IGNORED

/-! ### Injection (R493-R495) -/

/-- TEST_STAT.INJ_ARMED and INJ_LEFT follow the armed injection. -/
def refreshInj (s : State) : State :=
  let st := Reg.TEST_STAT
  match s.test.inj with
  | none => fset (fset s st Fld.TEST_STAT_INJ_ARMED 0) st Fld.TEST_STAT_INJ_LEFT 0
  | some j => fset (fset s st Fld.TEST_STAT_INJ_ARMED 1) st Fld.TEST_STAT_INJ_LEFT j.left

/-- End the injection with cause 0, 1 or 2 of R500: INJECT_END. -/
def injEnd (cause : Nat) (s : State) : State :=
  match s.test.inj with
  | none => s
  | some j => logEvent 0x21 [j.done, cause] (refreshInj { s with test := { s.test with inj := none } })

/-- One observation by the checker of a class and instance: the MASK it sees inverted, 0 where none (R493). -/
def observe (cls idx : Nat) (s : State) : Nat × State :=
  match s.test.inj with
  | none => (0, s)
  | some j =>
    if j.cls = cls ∧ j.idx = idx then
      let j' := { j with left := j.left - 1, done := j.done + 1 }
      let s := count (refreshInj { s with test := { s.test with inj := some j' } }) Reg.TEST_INJ_DONE
      (j.mask, if j'.left = 0 then injEnd 0 s else s)
    else (0, s)

/-- A SECDED checker: the errors the word holds, 0 to 2, and those the mask adds; 1 is corrected, 2 is not. -/
def secded (cls idx errs : Nat) (s : State) : Nat × State :=
  let r := observe cls idx s
  (min 2 (errs + popcount 8 r.1), r.2)

/-- A CRC or parity checker: does the check fail? -/
def checkFails (cls idx : Nat) (bad : Bool) (s : State) : Bool × State :=
  let r := observe cls idx s
  (bad || r.1 != 0, r.2)

/-- A CRC checker that compares a received value: `ok` judges the value with the bits of MASK inverted in it. -/
def crcObserved (cls idx : Nat) (ok : Nat → Bool) (s : State) : Bool × State :=
  let r := observe cls idx s
  (!ok r.1, r.2)

/-- Does a class and instance name a checker of the image in force (R494)? A port of a MAC is formed as 06 R147 says. -/
def injNames (g : Img) (cls idx : Nat) : Bool :=
  if cls = 1 then decide (idx < 4)
  else if cls = 2 ∨ cls = 5 ∨ cls = 7 then idx == 0
  else if cls = 3 then decide (idx < 1024)
  else if cls = 4 then decide (idx < 64)
  else if cls = 6 then decide (idx < 2)
  else if cls = 8 ∨ cls = 10 then decide (idx < 512) && rxRuns g idx
  else if cls = 9 then decide (idx < 64) && portFormed g idx
  else false

/-- What R494 asks of an ARM. -/
def armAllowed (s : State) (cls idx mask cnt : Nat) : Bool :=
  s.test.inj.isNone && mask != 0 && cnt != 0 && injNames s.img cls idx
    && !(decide (1 ≤ cls ∧ cls ≤ 5) && decide (2 < popcount 8 mask)) && !(cls == 10 && mask != 1)

/-- A write of TEST_INJ_CTRL (R490, R493-R495). -/
def injCtrlWrite (w : Nat) (s : State) : State :=
  if !injOk s then testIgnored s
  else
    let c := Reg.TEST_INJ_CTRL
    let cls := fget s Reg.TEST_INJ_TARGET Fld.TEST_INJ_TARGET_CLASS
    let idx := fget s Reg.TEST_INJ_TARGET Fld.TEST_INJ_TARGET_INDEX
    let mask := bitsOf 7 0 w
    let cnt := bitsOf 23 8 w
    let ok := armAllowed s cls idx mask cnt
    let s := if bitOf 30 w then injEnd 1 s else s
    if bitOf 31 w then
      if ok then
        let n := if cls = 6 then min 15 cnt else cnt
        let s := fset (fset s c Fld.TEST_INJ_CTRL_COUNT cnt) c Fld.TEST_INJ_CTRL_MASK mask
        let s := refreshInj { s with test := { s.test with inj := some ⟨cls, idx, mask, n, 0⟩ } }
        logEvent 0x20 [cls, idx, mask, n] (raise Src.testInjected [idx] s)
      else testIgnored s
    else fset (fset s c Fld.TEST_INJ_CTRL_COUNT cnt) c Fld.TEST_INJ_CTRL_MASK mask

/-! ### Perturbation (R496) -/

/-- The five controls. -/
def pertRegs : List Nat :=
  [Reg.TEST_PERT_QDELAY, Reg.TEST_PERT_ENG, Reg.TEST_PERT_MAC, Reg.TEST_PERT_FAB, Reg.TEST_PERT_MON]
def pertAny (s : State) : Bool := pertRegs.any (fun a => rgetN s a != 0)
/-- TEST_PERTURB is present while a control is not 0. -/
def refreshPert (s : State) : State :=
  condSet Src.testPerturb (pertAny s) [0] (fset s Reg.TEST_STAT Fld.TEST_STAT_PERT_ANY (b2n (pertAny s)))

/-- A write of a perturbation control: the value, the LFSR seed, the MAC stall, the record of a change. -/
def pertWrite (a : Nat) (w : Nat) (s : State) : State :=
  if !pertOk s then testIgnored s
  else
    let old := rgetN s a
    let go := a == Reg.TEST_PERT_MAC && bitOf 31 w
    let s := plainWrite a (w32 w) s
    let seed := bitsOf 31 16 w
    let s := if a = Reg.TEST_PERT_MON then
        { s with test := { s.test with lfsr := if seed = 0 then 0xACE1 else seed } } else s
    let m := bitsOf 5 0 w
    let s := if go && bitsOf 23 8 w != 0 && !(m ∈ s.test.stalled) then
        { s with test := { s.test with stalled := s.test.stalled ++ [m] } } else s
    let s := if rgetN s a ≠ old ∨ go then logEvent 0x22 [a, rgetN s a] s else s
    refreshPert s

/-- One step of the 16-bit LFSR x^16 + x^14 + x^13 + x^11 + 1. -/
def lfsrStep (n : Nat) : Nat :=
  let b := (n + n / 4 + n / 8 + n / 32) % 2
  n / 2 + b * 32768

/-- The jitter in ticks of a monitor window of plane p under TEST_PERT_MON: -J to +J, from the LFSR, which steps. How a
value of the LFSR becomes one of the range is not stated: a free value (log entry 154). -/
def monDraw (p : Nat) (s : State) : Int × State :=
  let a := Reg.TEST_PERT_MON
  let j := fget s a Fld.TEST_PERT_MON_J
  if j ≠ 0 ∧ fget s a Fld.TEST_PERT_MON_PLANE = p ∧ planeUsed s.img p then
    let l := lfsrStep s.test.lfsr
    ((Config.monJitter l j % (2 * j + 1) : Nat) - (j : Int), { s with test := { s.test with lfsr := l } })
  else (0, s)
/-- Do the deques of quadrant q grant no task in this cycle? In DENY of every 16 cycles; which of them a cycle is, is a
free value (log entry 154). -/
def engDenied (s : State) (q : Nat) : Bool :=
  bitOf q (fget s Reg.TEST_PERT_ENG Fld.TEST_PERT_ENG_QMASK) &&
    decide (freeValue s % 16 < fget s Reg.TEST_PERT_ENG Fld.TEST_PERT_ENG_DENY)

/-! ### Leaving a mode (R491, R498) -/

/-- Every perturbation register returns to its reset value. -/
def clearPert (s : State) : State :=
  refreshPert { (pertRegs.foldl (fun s a => rset s a (regDefault a)) s) with test := { s.test with stalled := [], lfsr := 0 } }
/-- What follows a change of mode or of the pair: an injection that is no longer available is disarmed, controls return
to their reset values. -/
def leaveTest (s : State) : State :=
  let s := if injOk s then s else injEnd 2 s
  let s := if pertOk s then s else clearPert s
  fset (fset s Reg.TEST_STAT Fld.TEST_STAT_INJ_OK (b2n (injOk s))) Reg.TEST_STAT Fld.TEST_STAT_PERT_OK (b2n (pertOk s))

/-- A write of a TEST register at offset a. -/
def testWrite (a : Nat) (w : Word) (s : State) : State :=
  if a = Reg.TEST_INJ_CTRL then injCtrlWrite w.toNat s
  else if a = Reg.TEST_INJ_TARGET then (if injOk s then plainWrite a w s else testIgnored s)
  else if a ∈ pertRegs then pertWrite a w.toNat s
  else plainWrite a w s

/-! ### Boundary scan (R497, R498) -/

/-- Codes that take the pins: EXTEST, EXTEST_PULSE, EXTEST_TRAIN, CLAMP, HIGHZ. -/
def jtagDrives (c : Nat) : Bool := c == 0 || (decide (3 ≤ c) && decide (c ≤ 6))
/-- IDCODE; bits [31:28] hold the stepping digit of GLOBAL_STEP (R497). -/
def jtagIdcode : Nat := 0x05646A5B
/-- An instruction is loaded: one that drives pins takes them where Table 20.1 allows, and acts as BYPASS elsewhere;
IDCODE reads its value. -/
def jtagLoad (c : Nat) (s : State) : State :=
  let s := { s with test := { s.test with
    jtagIr := if jtagDrives c && !scanOk s then 0xFF else if c ≤ 6 then c else 0xFF
    jtagPins := jtagDrives c && scanOk s } }
  if c = 1 then emit s (.jtag jtagIdcode) else s
/-- The number of a list of bits, the first one lowest. -/
def bitsNat (l : List Bool) : Nat := l.foldr (fun b n => b2n b + 2 * n) 0
/-- The levels that the boundary register captures. Its cells and their order are not stated: here the pins that State holds
(PRESUMED, log entry 155). -/
def boundaryPins (s : State) : List Bool :=
  let c := s.core
  let bits (n v : Nat) : List Bool := (List.range n).map (fun i => bitOf i v)
  bits 15 c.filtered.toNat ++ [c.thermTrip, c.faultN, c.mgmtAlertN, c.arbBeat, c.switchWin, c.refAlmN].map (· == .high)
    ++ bits 2 c.arbHealth ++ bits 3 c.refSt0 ++ bits 3 c.refSt1 ++ [c.wclk] ++ bits 2 c.planeFp.toNat ++ bits 8 c.tpo.toNat
/-- `dr` is shifted through the data register that the instruction in force selects: the boundary register captures the
pins and then holds `dr`, the bypass register captures 0 and delays by one bit (R497). -/
def jtagScan (dr : List Bool) (s : State) : State :=
  let c := s.test.jtagIr
  if dr.isEmpty || c == 1 then s
  else if c = 0 ∨ (2 ≤ c ∧ c ≤ 4) then
    emit { s with test := { s.test with boundary := dr } } (.jtag (bitsNat (boundaryPins s)))
  else emit { s with test := { s.test with jtagBypass := dr.getLastD false } } (.jtag (bitsNat (false :: dr.dropLast)))
/-- Under EXTEST, EXTEST_PULSE, EXTEST_TRAIN and CLAMP the pins carry what the boundary register holds; under HIGHZ nothing
drives them. -/
def jtagDrive (s : State) : State :=
  if s.test.jtagPins && s.test.jtagIr != 6 then emit s (.boundary s.test.boundary) else s
/-- Test-logic reset: the pins go back, and IDCODE is in force as IEEE 1149.1 has it. -/
def jtagReset (s : State) : State := { s with test := { s.test with jtagIr := 1, jtagPins := false } }

/-! ### Reading the MRAM through its checker (17_faults_patina.md R423, class 0x5) -/

/-- One 64-bit word is read: a corrected word is written back and counted, an uncorrectable one counted and
reported. In RESET, where the PATINA and FAULT blocks are held in reset, nothing is. -/
def mramCheck (i : Nat) (s : State) : State :=
  let r := secded 5 0 (if mramBadIn s (8 * i) 8 then 2 else if i ∈ s.long.mramSoft then 1 else 0) s
  if mode s == .reset then s
  else if r.1 = 0 then r.2
  else if r.1 = 1 then mramCorrected (mramHeal (8 * i) 8 r.2)
  else mramUncorr r.2

/-- n bytes from offset x; 0 from 32 MiB on. -/
def mramRead (x n : Nat) (s : State) : List Nat × State :=
  let s := (List.range ((x + n + 7) / 8 - x / 8)).foldl
    (fun s i => if x / 8 + i < 0x400000 then mramCheck (x / 8 + i) s else s) s
  ((List.range n).map (fun i => if x + i < 0x2000000 then mramByte s (x + i) else 0), s)

/-! ### Meanings -/

/-- TEST_INJECT_ARM: a write of TEST_INJ_CTRL with ARM = 1 (R493, R494). -/
def execTestInjectArm (m : Fin 9) (cnt : BitVec 16) (mask : BitVec 8) (s : State) : Out :=
  let w := 2 ^ 31 + cnt.toNat * 256 + mask.toNat
  .next (hostWrite m Reg.TEST_INJ_CTRL (w32 w) (injCtrlWrite w) s)
/-- TEST_INJECT_DISARM: a write of TEST_INJ_CTRL with DISARM = 1 (R495). COUNT and MASK keep their values. -/
def execTestInjectDisarm (m : Fin 9) (s : State) : Out :=
  let w := 2 ^ 30 + rgetN s Reg.TEST_INJ_CTRL % 2 ^ 24
  .next (hostWrite m Reg.TEST_INJ_CTRL (w32 w) (injCtrlWrite w) s)
/-- TEST_PERT_WRITE: a write of one of the five perturbation controls (R496). -/
def execTestPertWrite (m : Fin 9) (k : Fin 5) (w : Word) (s : State) : Out :=
  let a := Reg.TEST_PERT_QDELAY + 4 * k
  .next (hostWrite m a w (pertWrite a w.toNat) s)
/-- TEST_MAC_STALL: a write of TEST_PERT_MAC with GO = 1 (R496). -/
def execTestMacStall (m : Fin 9) (mac : Fin 64) (us : BitVec 16) (s : State) : Out :=
  let w := 2 ^ 31 + us.toNat * 256 + mac.val
  .next (hostWrite m Reg.TEST_PERT_MAC (w32 w) (pertWrite Reg.TEST_PERT_MAC w) s)
/-- JTAG_INSTRUCTION: a code is loaded through the TAP, and `dr` shifted through its data register (R497, R498). -/
def execJtagInstruction (code : BitVec 8) (dr : List Bool) (s : State) : Out :=
  .next (jtagDrive (jtagScan dr (jtagLoad code.toNat s)))
/-- JTAG_TRST: TRST_N low (R498). -/
def execJtagTrst (s : State) : Out := .next (jtagReset s)

end Sys2Proof.Machine
end

