-- ==== Sys2Proof/Machine/QueueFamily.lean ====
section
/-! DEFINITION. Queues, the descriptor cache, HBM requests, the scrubber, the host windows of BAR2
(08_queues_memory.md R193-R226). -/

namespace Sys2Proof.Machine

/-! ### One queue as data (R203-R212) -/

/-- Words of closed records. -/
def qClosed (q : Queue) : Nat := q.words.length - q.openWords
/-- Bytes of the last word of the open record; 32 where it is full, and where no record is open. -/
def qLastUsed (q : Queue) : Nat :=
  if q.opn && q.openWords != 0 then (match q.words.getLast? with | some w => w.bytes.length | none => 32) else 32
/-- Bytes in use from the start of the head cell. -/
def qUsed (q : Queue) : Nat := if q.words.isEmpty then 0 else 32 * (q.off + q.words.length) - (32 - qLastUsed q)
/-- CELLS and TAIL_USED (R203, R208). -/
def qCells (q : Queue) : Nat := cdiv (qUsed q) 256
def qTailUsed (q : Queue) : Nat := if qCells q = 0 then 0 else qUsed q - 256 * (qCells q - 1)
/-- RECORDS: closed records whose last word lies at or after HEAD. -/
def qRecords (q : Queue) : Nat := (q.words.filter (·.last)).length
/-- FULL (R208). -/
def qFull (cap : Nat) (q : Queue) : Bool := decide (cap ≤ qCells q) && (qTailUsed q == 256 || qTailUsed q == 0)

/-- The position `k` words from HEAD as a descriptor stores it: cell and word, or word 0 of cell 0x7FF_FFFF at the end of
the last cell held (R203). -/
def qPos (q : Queue) (k : Nat) : Nat × Nat :=
  match q.cells[(q.off + k) / 8]? with
  | some c => (c, (q.off + k) % 8)
  | none => (0x7FFFFFF, 0)
/-- Append bytes to the open record, filling its last word first. -/
def qAppend : List Nat → Queue → Queue
  | [], q => q
  | b :: t, q =>
    let fresh : Queue := { q with words := q.words ++ [{ bytes := [b] }], openWords := q.openWords + 1, opn := true }
    qAppend t (if q.opn && q.openWords != 0 then
      (match q.words.getLast? with
       | some w => if w.bytes.length < 32 then
           { q with words := q.words.dropLast ++ [{ w with bytes := w.bytes ++ [b] }] } else fresh
       | none => fresh)
      else fresh)

/-- A narrow word is stored whole or ignored whole (R206, R208). -/
def qWrite (cap : Nat) (bs : List Nat) (q : Queue) : Queue :=
  if q.frozen then { q with overrun := true }
  else if q.opn && q.trunc then { q with overrun := true }
  else
    let n := qAppend bs q
    if qCells q < qCells n ∧ cap ≤ qCells q then { q with overrun := true, trunc := true, opn := true } else n

/-- CLOSE (R207): the last word of the open record takes END and its TRUNC. With no open record, or one that holds no
byte, it has no effect. -/
def qClose (q : Queue) : Queue :=
  if q.frozen || !q.opn || q.openWords == 0 then q
  else
    let q' : Queue := { q with opn := false, openWords := 0, trunc := false }
    match q.words.getLast? with
      | some w => { q' with words := q.words.dropLast ++ [{ w with last := true, trunc := q.trunc }] }
      | none => q'

/-- MARK, REWIND, RELEASE, RESET (R212 Table 8.7). -/
def qMark (q : Queue) : Queue := if q.frozen then q else { q with mark := some q.rd }
def qRewind (q : Queue) : Queue := if q.frozen then q else { q with rd := q.mark.getD 0 }
def qRelease (q : Queue) : Queue :=
  if q.frozen then q
  else
    let ws := q.words.drop q.rd
    { q with words := ws, rd := 0, off := if ws.isEmpty then 0 else (q.off + q.rd) % 8
             mark := match q.mark with | some k => if k < q.rd then none else some (k - q.rd) | none => none }
def qReset (q : Queue) : Queue :=
  if q.frozen then q
  else { q with words := [], off := 0, rd := 0, mark := none, opn := false, openWords := 0, trunc := false }

/-- A wide read (R211): the bytes padded to 32, the tag, and the queue with RD advanced; EMPTY at the end. -/
def qRead (poison : Bool) (q : Queue) : (List Nat × Nat) × Queue :=
  if q.frozen then ((List.replicate 32 0, 256), q)
  else if qClosed q ≤ q.rd then ((List.replicate 32 0, 0), q)
  else match q.words[q.rd]? with
    | none => ((List.replicate 32 0, 0), q)
    | some w =>
      (((w.bytes ++ List.replicate 32 0).take 32,
        w.bytes.length + 64 * b2n w.last + 128 * b2n w.trunc + 256 * b2n poison),
       { q with rd := q.rd + 1, poison := q.poison || poison })

/-! ### Queues in the state -/

/-- Frame store IDs (Table 8.4): the store number. -/
def frameStoreOf (q : Nat) : Option Nat :=
  if 0xFF800 ≤ q ∧ q < 0xFFC00 then some (q - 0xFF800)
  else if 0xFFC00 ≤ q ∧ q < 0x100000 then some (q - 0xFFC00 + 1024)
  else if 0xFF7C0 ≤ q ∧ q < 0xFF800 then some (q - 0xFF7C0 + 2048) else none
def isFrameStore (q : Nat) : Bool := (frameStoreOf q).isSome

def getQ (s : State) (q : Nat) : Queue := cget {} s.q.queues q
def putQ (q : Nat) (v : Queue) (s : State) : State := { s with q := { s.q with queues := cset {} s.q.queues q v } }
/-- Does the ID name a queue of a group (R201)? -/
def qNamed (s : State) (q : Nat) : Bool := (qGroup s.img q).isSome
/-- Kind of a queue (Table 8.2): its group's, FRAME for a frame store, 0 for none. -/
def qKind (s : State) (q : Nat) : Nat :=
  match qGroup s.img q with | some k => qgKind s.img k | none => if isFrameStore q then 5 else 0
/-- A queue of a slot or head, which the host reaches no more than a frame store (09 R241, 10 R255): the bytes of the
section's entry that names it. -/
def blockEntry (g : Img) (q : Nat) : Option (List Nat) :=
  match (List.range 256).find? (fun n => slotUsed g n && (slotOutQ g n == q || slotMidQ g n == q)) with
  | some n => some ((List.range 16).map (fun i => secByteOf g Sec.slot (16 * n + i)))
  | none => ((List.range 64).find? (fun h => headUsed g h && headWorkQ g h == q)).map (fun h =>
      (List.range 16).map (fun i => secByteOf g Sec.head (16 * h + i)))
def blockQueue (g : Img) (q : Nat) : Bool := (blockEntry g q).isSome
def hostBarred (s : State) (q : Nat) : Bool := isFrameStore q || blockQueue s.img q
/-- CAP: what the host has set, else DEF_CAP (R202); twice the buffer for a frame store in use (R221); for a queue of a
slot or head what its section is sized to at step 8, which the spec does not state (09 R241, 10 R255). -/
def qCap (s : State) (q : Nat) : Nat :=
  match frameStoreOf q with
  | some n => if storeUsed s.img n then 2 * storeCells s.img n else 0
  | none => match blockEntry s.img q with
    | some b => Config.blockCap b q
    | none => match (getQ s q).cap with
      | some c => c
      | none => match qGroup s.img q with | some k => qgDefCap s.img k | none => 0
/-- Stack of a queue's cells. -/
def qStack (s : State) (q : Nat) : Nat :=
  match qGroup s.img q with
  | some k => qgStack s.img k
  | none => match frameStoreOf q with | some n => frameStack s.img n | none => q % 4
/-- Frames that a frame store holds: the reader's, and closed ones it has not taken (R222, R223). -/
def storeFrames (s : State) (n : Nat) : Nat × Nat :=
  let two (a b : Bool) : Nat × Nat := (b2n a, b2n b)
  if n < 1024 then
    let f := (cget {} s.xp.dests (ownInst s.img (resId 7 n)) : Dest).fs
    if storeUsed s.img n then two f.shown.isSome f.newest.isSome else (0, 0)
  else if n < 2048 then
    let l : LayerSt := cget {} s.comp.layers (n - 1024)
    two l.shown.isSome l.closed.isSome
  else
    let h : HeadSt := cget {} s.comp.heads (n - 2048)
    two h.shown.isSome h.closed.isSome
/-- Tasks not yet complete, with the kernel data they read in the queues of their slots. -/
def liveTasks (s : State) : List Task :=
  s.eng.waiting.flatMap (·.2) ++ s.eng.deques.flatMap (·.2) ++ s.eng.running.map (·.2)
/-- Does a queue of a slot or head hold nothing: no finished band, no band between kernels, no decoded block? -/
def blockEmpty (s : State) (q : Nat) : Bool :=
  s.eng.slots.all (fun e => slotOutQ s.img e.1 != q || (e.2.cur.all (·.done.isEmpty) && e.2.old.all (·.done.isEmpty)))
    && (liveTasks s).all (fun t => t.head || slotMidQ s.img t.obj != q || t.kernel == 2)
    && s.comp.heads.all (fun e => headWorkQ s.img e.1 != q || e.2.work.isEmpty)
/-- CELLS and RECORDS of any queue. How a slot or head divides its bands and blocks into records is not stated: while
its queue holds any, both are free values (log entry 137). -/
def qCellsOf (s : State) (q : Nat) : Nat :=
  match frameStoreOf q with
  | some n => let f := storeFrames s n; (f.1 + f.2) * storeCells s.img n
  | none => if blockQueue s.img q then (if blockEmpty s q then 0 else 1 + freeValue s % max 1 (qCap s q)) else qCells (getQ s q)
def qRecordsOf (s : State) (q : Nat) : Nat :=
  match frameStoreOf q with
  | some n => let f := storeFrames s n; f.1 + f.2
  | none => if blockQueue s.img q then (if blockEmpty s q then 0 else 1 + freeValue s % max 1 (8 * qCap s q)) else qRecords (getQ s q)
/-- Does the queue hold a hot slot (R205)? -/
def qHot (s : State) (q : Nat) : Bool :=
  hasSec s.img Sec.queue && (List.range 16384).any (fun k => hotEntry s.img k == q)

/-! ### Regions of a stack (R194, R196) -/

/-- Start of region i of a stack in bytes: SYS 0, FRAME 1, CELL 2, DEJIT 3, SURF 4, each where the one before ends. -/
def regionBase (g : Img) (st i : Nat) : Nat := ((List.range i).foldl (fun a j => a + stackMib g st j) 0) * 2 ^ 20
/-- The region that holds an offset of a stack, 5 past the last. -/
def regionOf (g : Img) (st off : Nat) : Nat :=
  ((List.range 5).find? (fun i => decide (off < regionBase g st (i + 1)))).getD 5
/-- Address of the descriptor of Qq within stack q mod 4 (R196). -/
def descOff (q : Nat) : Nat := 32 * (q / 4)
/-- Stack and offset of a byte of the staging area; of byte x of the DEJIT (3) or SURF (4) region, striped over the
stacks by 4 KiB. -/
def stagingWhere (x : Nat) : Nat × Nat := (0, 0x800000 + x)
def stripedWhere (g : Img) (i x : Nat) : Nat × Nat :=
  let st := x / 4096 % 4
  (st, regionBase g st i + x / 16384 * 4096 + x % 4096)
/-- Stack and offset of the word `k` words from HEAD of a queue of a group. -/
def qWhere (s : State) (q k : Nat) : Nat × Nat :=
  let p := qPos (getQ s q) k
  let st := qStack s q
  (st, regionBase s.img st 2 + 256 * p.1 + 32 * p.2)

/-! ### Check bits (R216-R219) -/

/-- A corrected word of a queue, or of no queue (R217). -/
def eccCorr (q : Option Nat) (s : State) : State :=
  let s := count s Reg.QM_ECC_CORR
  let s := match q.bind (fun q => qGroup s.img q) with | some g => count s (Reg.QM_GRP_CORR g) | none => s
  raise Src.qmCorr [q.getD 0] s
/-- An uncorrectable word (R218): counted, captured, QM_UNCORR with stack, offset and queue. -/
def eccUncorr (stack off : Nat) (sram : Bool) (q : Option Nat) (s : State) : State :=
  let s := count s Reg.QM_ECC_UNCORR
  let s := rsetN s Reg.QM_ECC_LAST_LO (lo32 off)
  let s := rsetN s Reg.QM_ECC_LAST_HI (off / 2 ^ 32 % 8 + stack * 16 + b2n sram * 256)
  raise Src.qmUncorr [q.getD 0, stack, lo32 off, hi32 off, q.getD 0] s
/-- The descriptor of queue q fails its check: FROZEN, QM_DESC_UNCORR (R219). -/
def freezeQ (q : Nat) (s : State) : State :=
  condBegin Src.qmDescUncorr [q] (putQ q { getQ s q with frozen := true } s)

/-- The four 64-bit words of a wide word at an offset of a stack are checked, by the checker of class `cls`, instance
`idx`; the first holds `errs` errors. Each corrected and each uncorrectable word counts; is one uncorrectable? -/
def wideCheck (cls idx stack off errs : Nat) (sram : Bool) (q : Option Nat) (s : State) : Bool × State :=
  (List.range 4).foldl (fun r i =>
    let c := secded cls idx (if i = 0 then errs else 0) r.2
    if c.1 = 0 then (r.1, c.2)
    else if c.1 = 1 then (r.1, eccCorr q c.2)
    else (true, eccUncorr stack (off + 8 * i) sram q c.2)) (false, s)
/-- A wide word of HBM at stack and offset is read. -/
def hbmCheck (w : Nat × Nat) (errs : Nat) (q : Option Nat) (s : State) : Bool × State :=
  wideCheck 1 w.1 w.1 w.2 errs false q s

/-- An operation reads n bytes of HBM from an address on, word by word; `errs` errors stand in its first word. -/
def hbmRead (w : Nat × Nat) (n errs : Nat) (q : Option Nat) (s : State) : Bool × State :=
  if s.test.inj.isNone then hbmCheck w errs q s
  else (List.range (max 1 (cdiv n 32))).foldl (fun r i =>
    let c := hbmCheck (w.1, w.2 + 32 * i) (if i = 0 then errs else 0) q r.2
    (r.1 || c.1, c.2)) (false, s)
/-- The side-band word of a cell, its tags and its next-cell index, is checked with the cell (R203, R216). Its place in the
stack is not stated: QM_ECC_LAST shows the cell's (DESIGN CHOICE, log entry 151). -/
def sideCheck (w : Nat × Nat) (q : Option Nat) (s : State) : Bool × State :=
  let c := secded 1 w.1 0 s
  if c.1 = 0 then (false, c.2)
  else if c.1 = 1 then (false, eccCorr q c.2)
  else (true, eccUncorr w.1 w.2 false q c.2)
/-- An operation uses the descriptor of queue q: from the cache, or by a counted miss (R204); either way it is checked. -/
def touchQ (q : Nat) (s : State) : State :=
  let hot := qHot s q
  let hit := hot || q ∈ s.q.dcache
  let s := if hot then s else
    { s with q := { s.q with dcache := (q :: s.q.dcache.filter (· != q)).take 49152 } }
  let r := if hit then wideCheck 2 0 (q % 4) (descOff q) 0 true (some q) (cycleBegin s)
    else hbmCheck (q % 4, descOff q) 0 (some q) (count (cycleBegin s) Reg.QM_DCACHE_MISS)
  cycleEnd s (if r.1 then freezeQ q r.2 else r.2)

/-- A hot slot fetches the cell in which RD stands, word `j` of it being read: one operation, whose eight words and side-band
are checked. -/
def fetchCell (q j errs : Nat) (w : Nat × Nat) (cell : Option Nat) (s : State) : State :=
  let base := w.2 - 32 * j
  let r := (List.range 8).foldl (fun (acc : List Nat × State) i =>
    let c := hbmCheck (w.1, base + 32 * i) (if i = j then errs else 0) (some q) acc.2
    (if c.1 then acc.1 ++ [i] else acc.1, c.2)) ([], s)
  let d := sideCheck (w.1, base) (some q) r.2
  putQ q { getQ d.2 q with sram := cell, sramBad := if d.1 then List.range 8 else r.1 } d.2
/-- The word of queue q `k` words from HEAD is read and checked: is it poisoned? A hot slot holds the head cell on die, and
fetches another from HBM when RD enters it, but for the tail cell, which is on die too (R205). -/
def dataCheck (q k errs : Nat) (s : State) : Bool × State :=
  let w := qWhere s q k
  let v := getQ s q
  if qHot s q then
    let i := (v.off + k) / 8
    let j := (v.off + k) % 8
    let tail := decide (v.cells.length ≤ i + 1)
    let fetched := !tail && v.sram != v.cells[i]?
    let s := if fetched then fetchCell q j errs w (v.cells[i]?) s
      else if tail then putQ q { v with sram := v.cells[i]?, sramBad := [] } s else s
    let c := wideCheck 2 0 w.1 w.2 (if fetched then 0 else errs) true (some q) s
    (c.1 || (getQ s q).sramBad.contains j, c.2)
  else
    let r := hbmCheck w errs (some q) s
    let d := sideCheck w (some q) r.2
    (r.1 || d.1, d.2)

/-! ### Operations of any agent -/

/-- n cells to allocate: which ones is not stated, each is a free value (log entry 77). -/
def freeCells (size : Nat) : Nat → State → List Nat × State
  | 0, s => ([], s)
  | n + 1, s => let r := freeCells size n (spend s); (freeValue s % max 1 size :: r.1, r.2)
/-- The cells a queue holds follow its CELLS: new ones at the tail, freed ones from the head (R208, R212). -/
def syncCells (q : Nat) (s : State) : State :=
  let v := getQ s q
  let n := qCells v
  let r := freeCells (stackMib s.img (qStack s q) 2 * 4096) (n - v.cells.length) s
  putQ q { v with cells := v.cells.drop (v.cells.length - n) ++ r.1 } r.2
/-- Apply an operation to a queue of a group; anything else is ignored. -/
def qOp (q : Nat) (f : Queue → Queue) (s : State) : State :=
  if qNamed s q then (let s := touchQ q s; syncCells q (putQ q (f (getQ s q)) s)) else s
/-- A narrow write. Without a hot slot, one that does not start a fresh wide word reads that word first (R205). -/
def queueWrite (q : Nat) (bs : List Nat) (s : State) : State :=
  let v := getQ s q
  let partial_ := v.opn && v.openWords != 0 && qLastUsed v != 32
  let s := if qNamed s q && !qHot s q && partial_ then (hbmCheck (qWhere s q (v.words.length - 1)) 0 (some q) s).2 else s
  qOp q (qWrite (qCap s q) bs) s
/-- A wide read: bytes, tag. -/
def queueRead (q errs : Nat) (s : State) : (List Nat × Nat) × State :=
  if !qNamed s q then ((List.replicate 32 0, 0), s)
  else
    let s := touchQ q s
    let v := getQ s q
    if v.frozen || decide (qClosed v ≤ v.rd) then ((qRead false v).1, s)
    else
      let c := dataCheck q v.rd errs s
      let r := qRead c.1 (getQ c.2 q)
      (r.1, putQ q r.2 c.2)

/-- Room for a whole record of n bytes (R209). -/
def hasRoom (s : State) (q n : Nat) : Bool :=
  let v := getQ s q
  let u : Int := if qCells v = 0 then 0 else 256 - (qTailUsed v : Int)
  qNamed s q && !v.frozen && decide ((32 * cdiv n 32 : Nat) ≤ u + 256 * ((qCap s q : Int) - qCells v))
/-- A device block looks for room in a queue of its kind, which uses the descriptor (R204). -/
def roomFor (kind q n : Nat) (s : State) : Bool × State :=
  if qNamed s q && qKind s q == kind then (let s := touchQ q s; (hasRoom s q n, s)) else (false, s)
/-- A record in narrow words of eight bytes, the last one shorter. -/
def narrowWords : Nat → List Nat → List (List Nat)
  | 0, _ => []
  | n + 1, bs => if bs.isEmpty then [] else bs.take 8 :: narrowWords n (bs.drop 8)
/-- A device block writes one whole record, where it has room; a queue that is frozen takes none (R205, R219). -/
def putRecord (q : Nat) (bs : List Nat) (s : State) : State :=
  qOp q qClose ((narrowWords bs.length bs).foldl (fun s p => queueWrite q p s) s)
/-- Descriptor of frame store n (Table 8.5): the reader's frame, marked at its start, then the closed one. Where in its
frame the reader stands is a free value, as the spec does not state how a frame's words lie in the buffer. -/
def storeWords (s : State) (q n : Nat) : List Nat :=
  let f := storeFrames s n
  let mine := s.q.second.contains n
  let cell (b : Bool) : Nat := storeAt s.img n b / 256
  let head := if f.1 = 1 then cell mine else if f.2 = 1 then cell !mine else 0x7FFFFFF
  let k := freeValue s % max 1 (8 * storeCells s.img n)
  let last := if f.2 = 1 then cell !mine else cell mine
  let size := storeBytes s.img n
  let cells := storeCells s.img n
  [head, if f.1 = 1 then head + k / 8 + k % 8 * 2 ^ 27 else head, head + f.1 * 2 ^ 30,
   if f.1 + f.2 = 0 then 0x7FFFFFF else last + cells - 1,
   (if f.1 + f.2 = 0 then 0 else size - 256 * (cells - 1)) + b2n (getQ s q).frozen * 2 ^ 21,
   qCellsOf s q, qCap s q + qKind s q * 2 ^ 27, qRecordsOf s q]
/-- The eight words of a descriptor (Table 8.5). -/
def descWords (s : State) (q : Nat) : List Nat :=
  let v := getQ s q
  match frameStoreOf q with
  | some n => storeWords s q n
  | none =>
  let at_ (k : Nat) : Nat := let p := qPos v k; p.1 + p.2 * 2 ^ 27
  [at_ 0, at_ v.rd, at_ (v.mark.getD 0) + b2n v.mark.isSome * 2 ^ 30, v.cells.getLast?.getD 0x7FFFFFF,
   qTailUsed v + b2n v.opn * 2 ^ 16 + b2n v.trunc * 2 ^ 17 + b2n (qFull (qCap s q) v) * 2 ^ 18 + b2n v.overrun * 2 ^ 19
     + b2n v.poison * 2 ^ 20 + b2n v.frozen * 2 ^ 21 + b2n (qHot s q) * 2 ^ 22,
   qCellsOf s q, qCap s q + qKind s q * 2 ^ 27, qRecordsOf s q]
/-- A frame store's own operation on its descriptor (R204, R219, R223): false where it is frozen. -/
def storeOp (n : Nat) (s : State) : Bool × State :=
  let q := if n < 1024 then 0xFF800 + n else if n < 2048 then 0xFFC00 + (n - 1024) else 0xFF7C0 + (n - 2048)
  let s := touchQ q s
  (!(getQ s q).frozen, s)
/-- The reader of frame store n takes the closed frame, which lies in the other buffer (R222, R223). -/
def storeTake (n : Nat) (s : State) : State :=
  { s with q := { s.q with second := if n ∈ s.q.second then s.q.second.filter (· != n) else n :: s.q.second } }
/-- A word of the frame that the reader of store i holds: stack and offset. Which word of its buffer is a free value. -/
def storeWhere (s : State) (i : Nat) : Nat × Nat :=
  let g := s.img
  let st := frameStack g i
  (st, regionBase g st 1 + storeAt g i (s.q.second.contains i) + 32 * (freeValue s % max 1 (storeCells g i * 8)))
/-- A block's work in a queue of its own, whose contents are the block's state, uses the descriptor (R204). -/
def touchBlock (q : Nat) (s : State) : State := if qNamed s q then touchQ q s else s

/-- Words up to and with the first END from RD on. -/
def recordSpan : List QWord → Nat
  | [] => 0
  | w :: t => if w.last then 1 else recordSpan t + 1
/-- A device consumer reads one whole closed record: none where there is none; its bytes and whether a word of it has
TRUNC or POISON (R214). RD stands after it. -/
def takeRecord (q : Nat) (s : State) : Option (List Nat × Bool) × State :=
  if !qNamed s q then (none, s)
  else
    let s := touchQ q s
    let v := getQ s q
    if v.frozen || decide (qClosed v ≤ v.rd) then (none, s)
    else
      let n := recordSpan ((v.words.take (qClosed v)).drop v.rd)
      let r := (List.range n).foldl (fun (acc : (List Nat × Bool) × State) _ =>
        let x := queueRead q 0 acc.2
        ((acc.1.1 ++ x.1.1.take (x.1.2 % 64), acc.1.2 || bitOf 7 x.1.2 || bitOf 8 x.1.2), x.2)) (([], false), s)
      (some r.1, r.2)
def queueMark (q : Nat) (s : State) : State := qOp q qMark s
def queueRewind (q : Nat) (s : State) : State := qOp q qRewind s
def queueRelease (q : Nat) (s : State) : State := qOp q qRelease s

/-! ### Host windows (R224, R225) -/

/-- The fabric target that serves BAR2 offset a: T23 in BOOT, else T20, T21, T22 (19 Table 19.4). -/
def bar2Port (s : State) (a : Nat) : Nat :=
  if a < 0x10000000 then (if mode s == .boot then 23 else 20) else if a < 0x20000000 then 21 else 22
/-- Judge a write or a read of the PCIe host at BAR2 offset a. `mapped` says whether the window is mapped now. -/
def bar2Gate (s : State) (w : Bool) (a : Nat) (mapped : Bool) : Gate :=
  if mode s == .reset then .absent
  else if !fbit s Reg.FABRIC_PCIE_STAT Fld.FABRIC_PCIE_STAT_UP then .absent
  else if fbit s Reg.FABRIC_PCIE_STAT Fld.FABRIC_PCIE_STAT_D3HOT then .unsupported
  else if (holdCause s s.fab.held 0 w (bar2Port s a)).isSome then .held
  else if mapped then .pass else .silent
/-- A write of bytes `bs` by the host to BAR2 offset a. -/
def bar2Write (mapped : Bool) (a : Nat) (bs : List Nat) (eff : State → State) (s : State) : State :=
  match bar2Gate s true a mapped with
  | .pass => eff (grantTo (bar2Port s a) 0 s)
  | .unsupported => emit s (.unsupported 0 a)
  | .held => holdReq { master := 0, write := true, addr := a, port := bar2Port s a, bytes := bs } s
  | _ => s

/-- The eight-byte pieces of a wide host write. -/
def pieces8 : Nat → List Nat → List (List Nat)
  | 0, _ => []
  | n + 1, bs => if bs.isEmpty then [] else bs.take 8 :: pieces8 n (bs.drop 8)
/-- A host write of bytes at an offset of the write port. -/
def portWrite (q off : Nat) (bs : List Nat) (s : State) : State :=
  let n := bs.length
  if hostBarred s q || !qNamed s q then count s Reg.QM_HOST_BADACC
  else if (n = 1 ∨ n = 2 ∨ n = 4 ∨ n = 8) ∧ off % n = 0 ∧ off + n ≤ 32 then queueWrite q bs s
  else if (n = 16 ∨ n = 32) ∧ off % 8 = 0 ∧ off + n ≤ 32 then
    (pieces8 4 bs).foldl (fun s p => queueWrite q p s) s
  else count s Reg.QM_HOST_BADACC
/-- A host read of the read port: all 64 bytes in one request, or a bad access that reads 0. -/
def portRead (q errs : Nat) (whole : Bool) (s : State) : State :=
  if !whole || hostBarred s q || !qNamed s q then
    emit (count s Reg.QM_HOST_BADACC) (.queueWord 0 q (List.replicate 32 0) 0)
  else
    let r := queueRead q errs s
    emit r.2 (.queueWord 0 q r.1.1 r.1.2)
/-- QM_Q_STAT (Table 8.11). -/
def qStatWord (s : State) (q : Nat) : Nat :=
  let v := getQ s q
  let full := !isFrameStore q && qNamed s q && qFull (qCap s q) v
  b2n (qNamed s q || isFrameStore q) + 2 * b2n full + 4 * b2n v.opn + 8 * b2n v.trunc + 16 * b2n v.overrun
    + 32 * b2n v.poison + 64 * b2n (qHot s q) + 128 * b2n v.frozen
/-- The window register of Qq at offset 0x20 to 0x3F (Table 8.9). -/
def windowReg (s : State) (q off : Nat) : Nat :=
  if off = 0x24 then qRecordsOf s q else if off = 0x28 then qCellsOf s q else if off = 0x2C then qCap s q
  else if off = 0x30 then qStatWord s q else 0

/-- A write of QM_Q_CAP (R210). The refused register has no BAR0 offset, so the resource index and the offset that the
refusal reports are free values. -/
def capWrite (q c : Nat) (s : State) : State :=
  let no (reason : Nat) (s : State) : State :=
    let v := freeValue s % 2 ^ 24
    refuse 0 reason v (4 * v) (spend s)
  if hostBarred s q then no 3 s
  else match qGroup s.img q with
    | none => s
    | some g =>
      let others := (List.range (qgCount s.img g)).foldl (fun acc i =>
        if qgFirst s.img g + i = q then acc else acc + qCap s (qgFirst s.img g + i)) 0
      if qgQuota s.img g < c + others then no 2 s
      else (let s := touchQ q s; putQ q { getQ s q with cap := some c } s)

/-- RESET of a queue that a slot or head keeps its own data in frees that data: finished bands, bands between kernels,
decoded blocks (09 R241, 10 R255; R215). -/
def blockReset (q : Nat) (s : State) : State :=
  let g := s.img
  let slot (n : Nat) (v : SlotSt) : SlotSt :=
    let gone (f : SlotFrame) : SlotFrame :=
      if slotOutQ g n = q then { f with done := [], lost := f.lost ++ f.done }
      else { f with lost := f.lost ++ f.issued.filter (fun b => !(b ∈ f.done)) }
    if slotOutQ g n = q ∨ slotMidQ g n = q then
      { v with cur := v.cur.map gone, old := v.old.map gone, hadOut := v.hadOut && slotOutQ g n != q } else v
  { s with eng := { s.eng with slots := s.eng.slots.map (fun e => (e.1, slot e.1 e.2)) }
           comp := { s.comp with heads := s.comp.heads.map (fun e =>
             (e.1, if headWorkQ g e.1 = q then { e.2 with work := [] } else e.2)) } }
/-- The operation of a QM_Q_OP code (Table 8.7); others are ignored. -/
def qOpCode (code : Nat) : Queue → Queue :=
  if code = 1 then qClose else if code = 2 then qMark else if code = 3 then qRewind
  else if code = 4 then qRelease else if code = 5 then qReset else id
/-- The host's operation on a queue. MARK, REWIND and RELEASE of a queue of a slot or head, whose effect on the block's
records R215 leaves undefined, do not touch its data (DESIGN CHOICE, log entry 137). -/
def hostOp (q code : Nat) (s : State) : State :=
  let s := qOp q (qOpCode code) s
  if code = 5 && blockQueue s.img q && !(getQ s q).frozen then blockReset q s else s
/-- A write of QM_Q_OP by the host. -/
def qOpWrite (q code : Nat) (s : State) : State :=
  bar2Write (inService s) (128 * q + 0x20) [code] (hostOp q code) s
/-- A write of QM_Q_STAT: POISON and OVERRUN clear where it is 1 (Table 8.11). -/
def qStatClear (q : Nat) (w : Nat) (s : State) : State :=
  if qNamed s q then
    let s := touchQ q s
    let v := getQ s q
    putQ q { v with poison := v.poison && !bitOf 5 w, overrun := v.overrun && !bitOf 4 w } s
  else s
/-- The effect of a write of bytes at offset o of the window of Qq (R225). -/
def windowPut (q o : Nat) (bs : List Nat) (s : State) : State :=
  if o < 0x20 then portWrite q o bs s
  else if 0x40 ≤ o then count s Reg.QM_HOST_BADACC
  else if o = 0x20 then hostOp q (leNat bs % 16) s
  else if o = 0x2C then capWrite q (leNat bs % 2 ^ 27) s
  else if o = 0x30 then qStatClear q (leNat bs) s
  else s

/-! ### HBM requests (R197) -/

/-- The request a stack admits next: lowest class, then round robin over requesters, oldest first. Where the round robin of a
class starts is not stated: before the first request served, requester 0 counts as the one served last (DESIGN CHOICE, log
entry 79). -/
def nextHbm (s : State) (st : Nat) : Option HbmReq :=
  let mine := s.q.held.filter (fun r => r.stack == st)
  let pick (c : Nat) : Option HbmReq :=
    let l := mine.filter (fun r => r.cls == c)
    let last := cget 0 s.q.served (4 * st + c)
    let best (l : List HbmReq) : Option HbmReq := l.foldl (fun acc r =>
      match acc with | none => some r | some b => if r.who < b.who then some r else some b) none
    match best (l.filter (fun r => decide (last < r.who))) with
    | some r => some r
    | none => best l
  match pick 0 with
  | some r => some r
  | none => match pick 1 with | some r => some r | none => pick 2

/-- Admit one held request while the stack has room. -/
def admitOne (st : Nat) (s : State) : State :=
  let n := fget s (Reg.QM_HBM_OUTST st) Fld.QM_HBM_OUTST_N
  if 8192 ≤ n then s
  else match nextHbm s st with
    | none => s
    | some r =>
      fset { s with q := { s.q with
        held := s.q.held.erase r, served := cset 0 s.q.served (4 * st + r.cls) r.who } }
        (Reg.QM_HBM_OUTST st) Fld.QM_HBM_OUTST_N (n + 1)
def admitAll (st : Nat) : Nat → State → State
  | 0, s => s
  | n + 1, s => admitAll st n (admitOne st s)
/-- New requests reach stack st, `fin` operations complete, and held requests are admitted; a request still held waited
at the bound and is counted. -/
def hbmAdmit (st : Nat) (arrivals : List (Nat × Nat)) (fin : Nat) (s : State) : State :=
  let a := Reg.QM_HBM_OUTST st
  let n := fget s a Fld.QM_HBM_OUTST_N
  let s := fset s a Fld.QM_HBM_OUTST_N (n - fin)
  let before := (s.q.held.filter (fun r => r.stack == st)).length
  let s := admitAll st before s
  let s := { s with q := { s.q with held := s.q.held ++ arrivals.map (fun p => ⟨st, min 2 p.1, p.2⟩) } }
  let waiting := before + arrivals.length
  let s := admitAll st waiting s
  let left := (s.q.held.filter (fun r => r.stack == st)).length
  countN s (Reg.QM_HBM_HELD st) (min left arrivals.length)

/-! ### The scrubber (R220) -/

/-- Bytes of the five regions of a stack. -/
def stackBytes (g : Img) (st : Nat) : Nat := ((List.range 5).foldl (fun a i => a + stackMib g st i) 0) * 2 ^ 20
/-- The scrubber moves on; a full pass counts in PASSES. -/
def scrubNext (s : State) : State :=
  if s.q.scrubOff + 8 < stackBytes s.img s.q.scrubStack then
    { s with q := { s.q with scrubOff := s.q.scrubOff + 8 } }
  else if s.q.scrubStack < 3 then
    { s with q := { s.q with scrubOff := 0, scrubStack := s.q.scrubStack + 1 } }
  else
    let s := { s with q := { s.q with scrubOff := 0, scrubStack := 0 } }
    let a := Reg.QM_SCRUB_CTRL
    fset s a Fld.QM_SCRUB_CTRL_PASSES (fget s a Fld.QM_SCRUB_CTRL_PASSES + 1)
/-- The scrubber reads its next word, which holds `errs` errors and, in the CELL or FRAME region, belongs to queue q or to
none. -/
def scrubRead (errs : Nat) (q : Option Nat) (s : State) : State :=
  if !running s || !fbit s Reg.QM_SCRUB_CTRL Fld.QM_SCRUB_CTRL_EN then s
  else
    let st := s.q.scrubStack
    let off := s.q.scrubOff
    let desc : Option Nat := if off < 0x800000 then some (off / 32 * 4 + st) else none
    let q := match desc with | some d => some d | none => q
    let rg := regionOf s.img st off
    let q := if desc.isSome then q else if rg = 2 then q.filter (qNamed s) else if rg = 1 then q.filter isFrameStore else none
    let r := secded 1 st errs (cycleBegin s)
    let t := if r.1 = 0 then r.2
      else if r.1 = 1 then eccCorr q r.2
      else
        let t := eccUncorr st off false q r.2
        match desc with | some d => if qNamed t d then freezeQ d t else t | none => t
    scrubNext (cycleEnd s t)

/-! ### The staging area and the surface aperture (R224) -/

/-- The staging area is mapped in BOOT under MODE_SEL 01 or 10. -/
def stagingMapped (s : State) : Bool := mode s == .boot && (s.core.modeSel == 1 || s.core.modeSel == 2)
/-- What an unwritten byte of the staging area (k = 0) or the SURF region (1) reads: 0 after power-on and hard reset (log
entry 4), a free value once a soft reset or a cast has left the content undefined (02 Table 2.7, 18 Table 18.4). -/
def hbmDefault (s : State) (k x : Nat) : BitVec 8 :=
  if s.q.lost = 0 then 0 else BitVec.ofNat 8 (Config.lostByte (2 * s.q.lost + k) x)
def surfByte (s : State) (x : Nat) : Nat := (mapGet (hbmDefault s 1) s.q.surf x).toNat
def surfBytes (s : State) (x n : Nat) : List Nat := (List.range n).map (fun i => surfByte s (x + i))
def stagingByte (s : State) (x : Nat) : Nat := (mapGet (hbmDefault s 0) s.q.staging x).toNat
/-- Bytes of the SURF region: its size in each stack, striped over the four (R196). -/
def surfSize (g : Img) : Nat := 4 * stackMib g 0 4 * 2 ^ 20
/-- A burst of a host write at BAR2 offset a: staging area, queue window, or surface aperture; past the end of each it is
ignored. -/
def burstWrite (a : Nat) (bs : List Nat) (s : State) : State :=
  if inService s && decide (a < 0x8000000) then bar2Write true a bs (windowPut (a / 128) (a % 128) bs) s
  else if a < 0x20000000 then
    let n := 0x3000000 - a
    bar2Write (stagingMapped s && decide (a < 0x3000000)) a bs
      (fun s => { s with q := { s.q with staging := cellsPut (hbmDefault s 0) s.q.staging a (bs.take n) } }) s
  else
    let x := a - 0x20000000 + fget s Reg.QM_SURF_WIN Fld.QM_SURF_WIN_BASE * 0x20000000
    let n := min (surfSize s.img - x) (0x40000000 - a)
    bar2Write (inService s && decide (a < 0x40000000)) a bs
      (fun s => { s with q := { s.q with surf := cellsPut (hbmDefault s 1) s.q.surf x (bs.take n) } }) s

/-- The pieces of n bytes from a that cross no boundary of k bytes: offset and length of each. -/
def pieces (k : Nat) : Nat → Nat → Nat → List (Nat × Nat)
  | 0, _, _ => []
  | f + 1, a, n => if n = 0 then [] else let t := min n (k - a % k); (a, t) :: pieces k f (a + t) (n - t)
/-- Write the pieces of `bs` from a that cross no boundary of k bytes, in ascending order. -/
def piecesWrite (k a : Nat) (bs : List Nat) (s : State) : State :=
  (pieces k (bs.length + 1) a bs.length).foldl (fun s p => burstWrite p.1 ((bs.drop (p.1 - a)).take p.2) s) s
/-- A host write at BAR2 offset a: the bridge splits it at 64-byte boundaries (19 R477). -/
def windowWrite (a : Nat) (bs : List Nat) (s : State) : State :=
  if bar2Gate s true a true == .unsupported then emit s (.unsupported 0 a) else piecesWrite 64 a bs s

/-- The bytes a host read of n bytes at BAR2 offset a returns where it reaches no data port. An uncorrectable word is
delivered as it is read (R218). -/
def windowRead (a n errs : Nat) (s : State) : List Nat × State :=
  let zeros := List.replicate n 0
  if mode s == .boot && decide (a < 0x3000000) && stagingMapped s then
    let r := hbmRead (stagingWhere (a / 32 * 32)) (a % 32 + n) errs none s
    ((List.range n).map (fun i => if a + i < 0x3000000 then stagingByte s (a + i) else 0), r.2)
  else if inService s && decide (a < 0x8000000) then
    let q := a / 128
    let s := if decide (a % 128 < 0x34) && decide (0x24 < a % 128 + n) && (qNamed s q || isFrameStore q) then touchQ q s else s
    ((List.range n).map (fun i =>
      let o := a % 128 + i
      if 0x20 ≤ o ∧ o < 0x40 then windowReg s q (o / 4 * 4) / 256 ^ (o % 4) % 256 else 0), s)
  else if 0x10000000 ≤ a ∧ a < 0x12000000 then mramRead (a - 0x10000000) n s
  else if inService s && decide (0x20000000 ≤ a) then
    let x := a - 0x20000000 + fget s Reg.QM_SURF_WIN Fld.QM_SURF_WIN_BASE * 0x20000000
    let size := surfSize s.img
    if size ≤ x then (zeros, s)
    else
      let r := hbmRead (stripedWhere s.img 4 (x / 32 * 32)) (x % 32 + n) errs none s
      ((List.range n).map (fun i => if x + i < size then surfByte s (x + i) else 0), r.2)
  else (zeros, s)
/-- A burst of a host read: n bytes at BAR2 offset a, a memory word of it with `errs` errors (R211, R224, R225). -/
def burstRead (a n errs : Nat) (s : State) : State :=
  match bar2Gate s false a true with
  | .pass =>
    let s := grantTo (bar2Port s a) 0 s
    let q := a / 128
    let o := a % 128
    if inService s && decide (a < 0x8000000) && (decide (o < 0x20) || decide (0x40 < o + n)) then
      (if 0x40 ≤ o then portRead q errs (o == 0x40 && n == 64) s
       else
         let r := windowRead a n errs s
         emit (count r.2 Reg.QM_HOST_BADACC) (.bar2Data a r.1))
    else
      let r := windowRead a n errs s
      emit r.2 (.bar2Data a r.1)
  | .unsupported => emit s (.unsupported 0 a)
  | .held => holdReq { master := 0, write := false, addr := a, data := w32 n, port := bar2Port s a, bytes := [errs] } s
  | _ => s

/-- A host read of n bytes at BAR2 offset a: the bridge splits it at 64-byte boundaries (19 R477); `errs` errors stand in a
memory word of its first piece. -/
def bar2Read (a n errs : Nat) (s : State) : State :=
  if bar2Gate s false a true == .unsupported then emit s (.unsupported 0 a)
  else (pieces 64 (n + 1) a n).foldl (fun s p => burstRead p.1 p.2 (if p.1 = a then errs else 0) s) s

/-! ### Registers that name a queue -/

/-- A queue register takes only a queue of a group of the given kind (R162, 05 R137), else reason 2. -/
def queueRegWrite (m kind a : Nat) (w : Word) (s : State) : State :=
  if qKind s (w.toNat % 2 ^ 20) = kind then plainWrite a w s else refuse m 2 (ridReg a) a s

/-! ### Meanings -/

/-- QUEUE_WRITE: a host write of bytes at the write port of Qq (R206, R208, R225). -/
def execQueueWrite (q : BitVec 20) (off : Fin 32) (bytes : List Byte) (s : State) : Out :=
  .next (bar2Write (inService s) (128 * q.toNat + off) (bytes.map (·.toNat)) (portWrite q.toNat off (bytes.map (·.toNat))) s)
/-- QUEUE_CLOSE (R207). -/
def execQueueClose (q : BitVec 20) (s : State) : Out := .next (qOpWrite q.toNat 1 s)
/-- QUEUE_MARK (R212). -/
def execQueueMark (q : BitVec 20) (s : State) : Out := .next (qOpWrite q.toNat 2 s)
/-- QUEUE_REWIND (R212). -/
def execQueueRewind (q : BitVec 20) (s : State) : Out := .next (qOpWrite q.toNat 3 s)
/-- QUEUE_RELEASE (R212). -/
def execQueueRelease (q : BitVec 20) (s : State) : Out := .next (qOpWrite q.toNat 4 s)
/-- QUEUE_RESET (R212, R215). -/
def execQueueReset (q : BitVec 20) (s : State) : Out := .next (qOpWrite q.toNat 5 s)
/-- QUEUE_READ: a host read of n bytes of BAR2, of the read port of a queue where it covers it whole; `errs` is what a
memory word holds (R211, R218, R224, R225). -/
def execQueueRead (a : BitVec 30) (n : Fin 513) (errs : Fin 3) (s : State) : Out := .next (bar2Read a.toNat n errs s)
/-- QUEUE_CAP_WRITE: a host write of QM_Q_CAP (R210). -/
def execQueueCapWrite (q : BitVec 20) (cap : BitVec 27) (s : State) : Out :=
  .next (bar2Write (inService s) (128 * q.toNat + 0x2C) (leBytes 4 cap.toNat) (capWrite q.toNat cap.toNat) s)
/-- HBM_REQUEST_ADMIT: requests arrive at a stack, operations complete, room is given by class and round robin (R197). -/
def execHbmRequestAdmit (stack : Fin 4) (arrivals : List (Nat × Nat)) (fin : Nat) (s : State) : Out :=
  .next (hbmAdmit stack arrivals fin s)
/-- SCRUB_READ (R220). -/
def execScrubRead (errs : Fin 3) (q : Option (BitVec 20)) (s : State) : Out :=
  .next (scrubRead errs (q.map (·.toNat)) s)
/-- STAGING_AREA_WRITE: a host write into a memory window of BAR2 (R224). -/
def execStagingAreaWrite (addr : BitVec 30) (bytes : List Byte) (s : State) : Out :=
  .next (windowWrite addr.toNat (bytes.map (·.toNat)) s)

end Sys2Proof.Machine
end

