-- ==== Sys2Proof/Machine/Reference.lean ====
section
/-! DEFINITION. Reference candidates, activity, qualification, the selector of a plane, residual and holdover
(14_reference.md R345-R366). -/

namespace Sys2Proof.Machine

def nowTicks (s : State) : Nat := s.core.sinceReset
def refPl (s : State) (p : Nat) : RefPl := if p = 0 then s.ref.p0 else s.ref.p1
def setRefPl (p : Nat) (v : RefPl) (s : State) : State :=
  if p = 0 then { s with ref := { s.ref with p0 := v } } else { s with ref := { s.ref with p1 := v } }

/-! ### Pins and status (R358, R359) -/

/-- REF_ALM_N and PLANE_GSTAT.ALM. -/
def refreshAlm (s : State) : State :=
  if !running s then s
  else
    let bad (p : Nat) : Bool := planeUsed s.img p && (planeState s p == 1 || planeState s p == 2 || planeState s p == 5
      || fbit s (Reg.PLANE_EVENT p) Fld.PLANE_EVENT_DISAGREE)
    let alm := bad 0 || bad 1 || s.ref.xoFail
    let s := fset (fset s Reg.PLANE_GSTAT Fld.PLANE_GSTAT_ALM (b2n alm)) Reg.PLANE_GSTAT Fld.PLANE_GSTAT_XO_FAIL
      (b2n s.ref.xoFail)
    { s with core := { s.core with refAlmN := if alm then .low else .high } }
/-- A plane in HOLDOVER or FREE runs on XO_SYS while XO_HOLD has failed (R354). -/
def planeClock (p : Nat) (s : State) : State :=
  setRefPl p { refPl s p with onSys := s.ref.xoFail && (planeState s p == 1 || planeState s p == 5) } s
/-- A plane enters a state: STATE, CUR_VALID, REF_ST pins, clock, alarm, health. -/
def setPlaneState (p st : Nat) (s : State) : State :=
  let a := Reg.PLANE_STAT p
  let s := fset (fset s a Fld.PLANE_STAT_STATE st) a Fld.PLANE_STAT_CUR_VALID (b2n (st == 2 || st == 3 || st == 4))
  let s := if p = 0 then { s with core := { s.core with refSt0 := st } } else { s with core := { s.core with refSt1 := st } }
  refreshHealth (refreshAlm (planeClock p s))
def planeEvent (p : Nat) (f : FieldRow) (s : State) : State := refreshAlm (fset s (Reg.PLANE_EVENT p) f 1)

/-! ### Residual (R362) -/

/-- How far the residual has fallen by now: SLEW_PPB ns in each second of 800,000,000 ticks. -/
def residFall (s : State) (p : Nat) : Nat :=
  refSlewPpb s.img p * (nowTicks s - (refPl s p).residAt) / 800000000
def residNow (s : State) (p : Nat) : Int :=
  let r := (refPl s p).resid
  if r.natAbs ≤ residFall s p then 0 else if 0 < r then r - (residFall s p : Nat) else r + (residFall s p : Nat)
def setResid (p : Nat) (r : Int) (s : State) : State :=
  rsetN (setRefPl p { refPl s p with resid := r, residAt := nowTicks s } s) (Reg.PLANE_RESID p) (ofInt 32 r)
/-- PLANE_RESID and PLANE_HOLD_SEC as of now. -/
def refRefresh (s : State) : State :=
  (List.range 2).foldl (fun s p =>
    if !planeUsed s.img p then s
    else
      let s := if planeState s p = 2 ∨ planeState s p = 4 then rsetN s (Reg.PLANE_RESID p) (ofInt 32 (residNow s p)) else s
      if planeState s p = 5 then
        rsetN s (Reg.PLANE_HOLD_SEC p) (min 0xFFFFFFFF ((nowTicks s - (refPl s p).holdAt) / 800000000)) else s) s

/-! ### Candidates (R345) -/

def entUsed (g : Img) (p e : Nat) : Bool := entKind g p e != 0
/-- A candidate with a phase. -/
def entPhased (g : Img) (p e : Nat) : Bool :=
  let k := entKind g p e
  (decide (1 ≤ k) && decide (k ≤ 4) && bitOf 0 (inFlags g (k - 1))) || k == 5 || k == 6 || k == 7
def entStat (p e : Nat) (f : FieldRow) (v : Nat) (s : State) : State := fset s (Reg.PLANE_ENT_STAT p e) f v
def entActive (s : State) (p e : Nat) : Bool := fbit s (Reg.PLANE_ENT_STAT p e) Fld.PLANE_ENT_STAT_ACTIVE
def entQual (s : State) (p e : Nat) : Bool := fbit s (Reg.PLANE_ENT_STAT p e) Fld.PLANE_ENT_STAT_QUAL
def entFreq (s : State) (p e : Nat) : Int := sext 32 (rgetN s (Reg.PLANE_ENT_FREQ p e))
def lockedOut (s : State) (p e : Nat) : Bool := bitOf e (rgetN s (Reg.PLANE_LOCKOUT p))
/-- Selectable (R355). -/
def selectable (s : State) (p e : Nat) : Bool :=
  entUsed s.img p e && entKind s.img p e != 8 && entQual s p e && !lockedOut s p e
def planeCur (s : State) (p : Nat) : Nat := fget s (Reg.PLANE_STAT p) Fld.PLANE_STAT_CUR
/-- The entry the plane follows or moves toward. -/
def curRef (s : State) (p : Nat) : Option Nat :=
  if planeState s p = 2 ∨ planeState s p = 3 ∨ planeState s p = 4 then some (planeCur s p) else none
/-- The best candidate: lowest rank; then the current one; then the lowest index. -/
def bestRef (s : State) (p : Nat) : Option Nat :=
  (List.range 16).foldl (fun acc e =>
    if !selectable s p e then acc
    else match acc with
      | none => some e
      | some b =>
        if entRank s.img p e < entRank s.img p b then some e
        else if entRank s.img p e = entRank s.img p b ∧ curRef s p = some e then some e else some b) none
/-- P - tau of an entry at its last tau. -/
def entPhase (s : State) (p e : Nat) : Int :=
  if entPhased s.img p e then sext 32 (rgetN s (Reg.PLANE_ENT_PHASE p e)) else 0

/-! ### Moves (R361-R365) -/

def setCur (p e : Nat) (s : State) : State := fset s (Reg.PLANE_STAT p) Fld.PLANE_STAT_CUR e
/-- ACQUIRING toward e: a jump is to come, or the residual is taken (R361). -/
def acquire (p e : Nat) (s : State) : State :=
  let v := refPl s p
  let jump := refJumpEn s.img p && entPhased s.img p e && !v.acquired
  let s := setRefPl p { v with acquired := true, jump, acqAt := nowTicks s } s
  setPlaneState p 2 (setCur p e (setResid p (if jump then 0 else entPhase s p e) s))
/-- SWITCHING toward e (R362). -/
def beginSwitch (p e : Nat) (s : State) : State :=
  let s := setRefPl p { refPl s p with jump := false } s
  let s := setResid p (entPhase s p e) s
  let s := setPlaneState p 4 (setCur p e s)
  raise Src.refSwitch [p] (planeEvent p Fld.PLANE_EVENT_SWITCH (count s (Reg.PLANE_SWITCHES p)))
/-- A retarget (R363). -/
def retarget (p e : Nat) (s : State) : State :=
  let v := refPl s p
  let jump := v.jump && entPhased s.img p e
  let s := setResid p (if jump then 0 else entPhase s p e) (setRefPl p { v with jump } s)
  let s := setCur p e s
  raise Src.refAbandon [p] (planeEvent p Fld.PLANE_EVENT_ABANDON (count s (Reg.PLANE_ABANDONS p)))
/-- The mean of a list, ties to even. -/
def meanOf (l : List Int) : Int := rne (l.foldl (· + ·) 0) l.length
/-- HOLDOVER (R364, R365). Where no LOCKED value exists, the frequency at entry is that of the last window, PLANE_FREQ, the
newest that the device has measured (DEDUCED, log entry 146). -/
def holdover (p : Nat) (s : State) : State :=
  let v := refPl s p
  let l := ((v.freqs.filter (fun x => decide (2 ≤ x.1))).map (·.2)).take (refHoldAvg s.img p)
  let s := setRefPl p { v with jump := false, holdAt := nowTicks s } s
  let s := rsetN s (Reg.PLANE_HOLD_FREQ p) (if l.isEmpty then rgetN s (Reg.PLANE_FREQ p) else ofInt 32 (meanOf l))
  let s := setPlaneState p 5 (rsetN s (Reg.PLANE_HOLD_SEC p) 0)
  raise Src.refHoldover [p] (planeEvent p Fld.PLANE_EVENT_HOLDOVER s)
/-- The selector's decision, Table 14.6. -/
def refDecide (p : Nat) (s : State) : State :=
  if !planeUsed s.img p || !running s then s
  else
    let st := planeState s p
    let lost := match curRef s p with | some c => !selectable s p c | none => false
    let better (b : Nat) : Bool := refRevertive s.img p && decide (entRank s.img p b < entRank s.img p (planeCur s p))
    match bestRef s p with
    | none => if st = 2 ∨ st = 3 ∨ st = 4 then holdover p s else s
    | some b =>
      if st = 1 then acquire p b s
      else if st = 5 then beginSwitch p b (refRefresh s)
      else if st = 2 then (if lost then beginSwitch p b s else if better b then retarget p b s else s)
      else if st = 3 then (if lost || better b then beginSwitch p b s else s)
      else if st = 4 then (if lost || better b then retarget p b s else s)
      else s

/-! ### Activity and rejection (R350, R353) -/

/-- A qualified candidate is rejected. -/
def refReject (p e : Nat) (s : State) : State :=
  let s := entStat p e Fld.PLANE_ENT_STAT_QUAL_CNT 0 (entStat p e Fld.PLANE_ENT_STAT_QUAL 0 s)
  raise Src.refReject [p] (planeEvent p Fld.PLANE_EVENT_REJECT (count s (Reg.PLANE_REJECTS p)))
/-- The activity of an entry changes. -/
def setActive (p e : Nat) (on : Bool) (s : State) : State :=
  if entActive s p e = on then s
  else
    let s := entStat p e Fld.PLANE_ENT_STAT_ACTIVE (b2n on) s
    let v := refPl s p
    let s := if on then s else setRefPl p { v with whole := v.whole.filter (· != e) } s
    if !on && entQual s p e then refReject p e s else s
/-- PRESENT and not off-rate. -/
def sdiGood (s : State) (x : Nat) : Bool :=
  fbit s (Reg.XP_SRC_STAT x) Fld.XP_SRC_STAT_PRESENT && !fbit s (Reg.XP_SRC_STAT x) Fld.XP_SRC_STAT_OFF_RATE
/-- Is the candidate of entry e active (Table 14.5)? -/
def activeNow (s : State) (p e : Nat) : Bool :=
  let k := entKind s.img p e
  if k = 0 then false
  else if k ≤ 4 then s.ref.clk.contains (k - 1) && (!bitOf 0 (inFlags s.img (k - 1)) || (refPl s p).fp.contains (k - 1))
  else if k = 5 ∨ k = 6 then tkLocked s (k - 5)
  else if k = 7 then sdiGood s (entIndex s.img p e)
  else k == 8
/-- Every entry's activity follows its signal, and the selectors decide on all that changed together, in one cycle (R353,
R356). -/
def refFollow (s : State) : State :=
  if !running s || !hasSec s.img Sec.ref then s
  else cycleEnd s ((List.range 2).foldl (fun s p =>
    if !planeUsed s.img p then s
    else
      let t := (List.range 16).foldl (fun t e => if entUsed t.img p e then setActive p e (activeNow t p e) t else t) s
      if t.regs = s.regs then s else refDecide p t) (cycleBegin s))

/-! ### XO_HOLD (R354) -/

/-- XO_HOLD fails or recovers. -/
def setXoFail (b : Bool) (s : State) : State :=
  if s.ref.xoFail = b then s
  else
    let s := { s with ref := { s.ref with xoFail := b, xoGood := 0 } }
    let s := (List.range 2).foldl (fun s p => (List.range 16).foldl (fun s e =>
      if planeUsed s.img p && entKind s.img p e == 8 then entStat p e Fld.PLANE_ENT_STAT_QUAL (b2n (!b)) s else s) s) s
    condSet Src.refXoFail b [0] (refreshAlm (planeClock 1 (planeClock 0 s)))

/-! ### The measurement window (R351-R353, R357) -/

/-- The window of entry e of plane p ends with offset y in 10^-12. While XO_HOLD has failed no result is valid, and the last
valid one stays (R354). -/
def entWindow (p e : Nat) (y : Int) (s : State) : State :=
  if !entUsed s.img p e || entKind s.img p e == 8 then s
  else
    let valid := !s.ref.xoFail
    let s := if valid then rsetN s (Reg.PLANE_ENT_FREQ p e) (ofInt 32 y) else s
    let good := valid && (refPl s p).whole.contains e && entActive s p e && decide (y.natAbs ≤ refAcceptPpb s.img p * 1000)
    let n := if good then min 1023 (fget s (Reg.PLANE_ENT_STAT p e) Fld.PLANE_ENT_STAT_QUAL_CNT + 1) else 0
    let s := entStat p e Fld.PLANE_ENT_STAT_QUAL_CNT n s
    let s := if refAcceptS s.img p ≤ n then entStat p e Fld.PLANE_ENT_STAT_QUAL 1 s else s
    if valid && entQual s p e && decide (refRejectPpb s.img p * 1000 < y.natAbs) then refReject p e s else s
/-- Entries in a disagreeing pair: two selectable candidates of equal rank. -/
def disagreeing (s : State) (p : Nat) : List Nat :=
  let l := (List.range 16).filter (fun e => selectable s p e && !s.ref.xoFail)
  l.filter (fun e => l.any (fun f => f != e && entRank s.img p e == entRank s.img p f
    && decide (refDisagreePpb s.img p * 1000 < (entFreq s p e - entFreq s p f).natAbs)))
/-- The window of plane p ends: y by entry, DPLL frequency f. -/
def planeWindow (p : Nat) (f : Int) (ys : List Int) (s : State) : State :=
  if !planeUsed s.img p then s
  else
    let s := if s.ref.xoFail then s else rsetN s (Reg.PLANE_FREQ p) (ofInt 32 f)
    let s := (List.range 16).foldl (fun s e => entWindow p e ((ys[e]?).getD 0) s) s
    let v := refPl s p
    let aged := v.freqs.map (fun x => (x.1 + 1, x.2))
    let lockedNow := planeState s p == 3 && !s.ref.xoFail
    let s := setRefPl p { v with
      whole := (List.range 16).filter (entActive s p)
      freqs := (if lockedNow then (0, f) :: aged else aged).take (refHoldAvg s.img p + 2) } s
    let s := if lockedNow then fset s (Reg.PLANE_STAT p) Fld.PLANE_STAT_HOLD_AVAIL 1 else s
    let d := disagreeing s p
    let s := (List.range 16).foldl (fun s e =>
      if entUsed s.img p e then entStat p e Fld.PLANE_ENT_STAT_DISAGREE (b2n (d.contains e)) s else s) s
    let was := (refPl s p).dis
    let s := setRefPl p { refPl s p with dis := !d.isEmpty } s
    let s := if !d.isEmpty then planeEvent p Fld.PLANE_EVENT_DISAGREE s else s
    if !d.isEmpty && !was then raise Src.refDisagree [p] s else s

end Sys2Proof.Machine
end

