-- ==== Sys2Proof/Machine/Time.lean ====
section
/-! DEFINITION. Timekeepers, output time, pulse outputs and capture inputs (15_network_time.md R371-R389). -/

namespace Sys2Proof.Machine

/-! ### The counters -/

/-- Move the residual O by n ticks toward 0, 53,687 units a tick (R382). -/
def slewBy (o : Int) (n : Nat) : Int :=
  let k : Int := 53687 * n
  if o > 0 then (if o ≤ k then 0 else o - k) else (if -o ≤ k then 0 else o + k)

/-- n ticks of the time clock: both timekeepers add INCR, O slews, a pending SNAP sets O to 0 (R371, R373, R382);
timekeepers run in STANDBY, ACTIVE, FACTORY and across the cast form (R388). -/
def advanceTicks (n : Nat) (s : State) : State :=
  let s := { s with core := { s.core with
    sinceReset := if mode s == .reset then s.core.sinceReset else s.core.sinceReset + n } }
  if n = 0 || !running s then s
  else { s with time := { s.time with
    tkA := (s.time.tkA + n * s.time.incrA) % 2 ^ 96
    tkB := (s.time.tkB + n * s.time.incrB) % 2 ^ 96
    resid := if s.time.snapPending then 0 else slewBy s.time.resid n
    snapPending := false } }

/-- Ticks until timekeeper k reaches a target in whole nanoseconds (0 when it has). -/
def ticksTo (s : State) (k target : Nat) : Nat :=
  let i := if k = 0 then s.time.incrA else s.time.incrB
  if tkRaw s k ≥ target * 2 ^ 32 then 0 else if i = 0 then 0 else cdiv (target * 2 ^ 32 - tkRaw s k) i

/-- Ticks until the output time reaches a target in whole nanoseconds, O slewing on the way (R380, R382). -/
def ticksToOt (s : State) (target : Nat) : Nat :=
  let i := if s.time.cur = 0 then s.time.incrA else s.time.incrB
  let t := target * 2 ^ 32
  let flat := if i = 0 then 0 else cdiv (t - tkRaw s s.time.cur) i
  let o := s.time.resid
  if otRaw s ≥ t then 0
  else if s.time.snapPending || o == 0 then max 1 flat
  else
    let n := cdiv (t - otRaw s) (if o > 0 then i - 53687 else i + 53687)
    let slewing := o.natAbs / 53687
    if n ≤ slewing then n else max (slewing + 1) flat

def setTkRaw (k v : Nat) (s : State) : State :=
  if k = 0 then { s with time := { s.time with tkA := v % 2 ^ 96 } }
  else { s with time := { s.time with tkB := v % 2 ^ 96 } }

/-- GEN advances by 1 and wraps at 256 (R374). -/
def bumpGen (k : Nat) (s : State) : State :=
  fset s (Reg.TIME_TK_STAT k) Fld.TIME_TK_STAT_GEN (fget s (Reg.TIME_TK_STAT k) Fld.TIME_TK_STAT_GEN + 1)

def setLockRun (k : Nat) (b : Bool) (s : State) : State :=
  if k = 0 then { s with time := { s.time with lockRunA := b } } else { s with time := { s.time with lockRunB := b } }
def setLockEnd (k n : Nat) (s : State) : State :=
  if k = 0 then { s with time := { s.time with lockEndA := n } } else { s with time := { s.time with lockEndB := n } }
def lockEnd (s : State) (k : Nat) : Nat := if k = 0 then s.time.lockEndA else s.time.lockEndB
/-- Timekeeper k is about to change at this tick (R379). -/
def tkMark (k : Nat) (s : State) : State :=
  let m : TkMark := { k := k, tick := nowTicks s, raw := tkRaw s k, stat := rgetN s (Reg.TIME_TK_STAT k) }
  { s with time := { s.time with past := m :: s.time.past.filter (fun x => decide (nowTicks s < x.tick + 16384)) } }
def lockRun (s : State) (k : Nat) : Bool := if k = 0 then s.time.lockRunA else s.time.lockRunB

/-! ### Output time (R380-R382) -/

/-- The timekeeper OT should follow: R381's first rule that holds. -/
def otTarget (s : State) : Nat :=
  let sel := fget s Reg.TIME_OT_CTRL Fld.TIME_OT_CTRL_SEL
  if !fbit s Reg.TIME_OT_CTRL Fld.TIME_OT_CTRL_AUTO then sel
  else if tkLocked s sel then sel
  else if tkLocked s (1 - sel) then 1 - sel
  else s.time.cur

/-- Choose TK_cur; on a switch O becomes OT − N, the switch is counted and OT_SWITCH raised (R382). -/
def otChoose (s : State) : State :=
  let n := otTarget s
  if n = s.time.cur then s
  else
    let d := sext 96 (ofInt 96 ((otRaw s : Int) - (tkRaw s n : Int)))
    let s := { s with time := { s.time with cur := n, resid := d } }
    raise Src.otSwitch [n] (count s Reg.TIME_OT_SWITCHES)

/-- LOCKED clears: TK_UNLOCK and the count (R376); the output time chooses again, and so do the planes that follow the
timekeeper (14 R350). -/
def tkUnlockNow (k : Nat) (s : State) : State :=
  if tkLocked s k then
    let t := setLockRun k false (fset (tkMark k (cycleBegin s)) (Reg.TIME_TK_STAT k) Fld.TIME_TK_STAT_LOCKED 0)
    cycleEnd s (refFollow (otChoose (raise Src.tkUnlock [k] (count t (Reg.TIME_TK_UNLOCKS k)))))
  else s

/-! ### Targets skipped by a step (R385) -/

/-- Owner of a TPO pin as a timekeeper number. -/
def tpoTk (g : Img) (n : Nat) : Option Nat :=
  let c := ownClass g (resId 2 n)
  if c = 3 then some 0 else if c = 4 then some 1 else none
def tpoProg (s : State) (n : Nat) : TpoProg := cget {} s.time.tpo n
def setTpo (n : Nat) (p : TpoProg) (s : State) : State :=
  { s with time := { s.time with tpo := cset {} s.time.tpo n p } }
def setTpoState (n v : Nat) (s : State) : State := fset s (Reg.TIME_TPO_STAT n) Fld.TIME_TPO_STAT_STATE v
def setTpoPin (n : Nat) (b : Bool) (s : State) : State :=
  let v := BitVec.ofNat 8 (withBits n n (b2n b) s.core.tpo.toNat)
  if v = s.core.tpo then s else emit { s with core := { s.core with tpo := v } } (.pin "TPO" v.toNat)

/-- After a step of timekeeper k: targets of pin n that lie before the new time are skipped and counted. -/
def skipTargets (k n : Nat) (s : State) : State :=
  let p := tpoProg s n
  if tpoTk s.img n = some k ∧ p.armed then
    let now := cdiv (tkRaw s k) (2 ^ 32)
    if now ≤ p.next then s
    else if p.period = 0 then
      setTpoState n 3 (setTpo n { p with armed := false } (count s (Reg.TIME_TPO_MISSED n)))
    else
      let c := cdiv (now - p.next) p.period
      setTpo n { p with next := p.next + c * p.period } (countN s (Reg.TIME_TPO_MISSED n) c)
  else s

def skipAll (k : Nat) (s : State) : State := (List.range 8).foldl (fun s n => skipTargets k n s) s

/-! ### SET, ADJ, INCR, lock (R372-R376) -/

/-- A SET is observed at a tick: the time becomes SET_NS, VALID, GEN advances, LOCKED clears; the other timekeeper takes its
INCR and O its slew (R373, R382). -/
def tkSetNow (k : Nat) (s : State) : State :=
  if !running s then s else
  let v := rget64 s (Reg.TIME_TK_SET_LO k) (Reg.TIME_TK_SET_HI k)
  let s := setTkRaw k (v * 2 ^ 32) (tkMark k (advanceTicks 1 s))
  let s := bumpGen k (fset s (Reg.TIME_TK_STAT k) Fld.TIME_TK_STAT_VALID 1)
  tkUnlockNow k (skipAll k s)

/-- ADJ_NS, signed. -/
def tkAdjNs (s : State) (k : Nat) : Int := sext 64 (rget64 s (Reg.TIME_TK_ADJ_LO k) (Reg.TIME_TK_ADJ_HI k))

/-- An ADJ is observed at a tick: every timekeeper takes its INCR and O its slew, and this one moves by ADJ_NS; GEN advances,
and a step above 1,000 ns clears LOCKED (R373, R376, R382). -/
def tkAdjNow (k : Nat) (s : State) : State :=
  if !running s then s else
  let d := tkAdjNs s k
  let s := tkMark k (advanceTicks 1 s)
  let s := bumpGen k (setTkRaw k (ofInt 96 ((tkRaw s k : Int) + d * (2 ^ 32 : Int))) s)
  let s := skipAll k s
  if 1000 < d.natAbs then tkUnlockNow k s else s

/-- LOCK_SET: asserts LOCKED and restarts the timer while VALID; ignored otherwise. -/
def tkLockSetNow (k : Nat) (s : State) : State :=
  if tkValid s k then
    let s := setLockEnd k (nowTicks s + 800000 * tkLockHoldMs s.img k) (tkMark k s)
    refFollow (otChoose (setLockRun k true (fset s (Reg.TIME_TK_STAT k) Fld.TIME_TK_STAT_LOCKED 1))) else s

/-- A write of TIME_TK_CTRL (R373, R376): a SET wins over an ADJ; a SET, a large ADJ and LOCK_CLR win over LOCK_SET, which
then asserts nothing. The output time chooses by what the tick of the step leaves (R382). -/
def tkCtrlWrite (k : Nat) (w : Nat) (s : State) : State :=
  let clears := bitOf 1 w || bitOf 2 w || (bitOf 3 w && decide (1000 < (tkAdjNs s k).natAbs))
  let s := if bitOf 2 w then tkSetNow k s else if bitOf 3 w then tkAdjNow k s else s
  let s := if bitOf 0 w && !clears then tkLockSetNow k s else s
  if bitOf 1 w then tkUnlockNow k s else s

/-- A write of TIME_TK_INCR_HI applies both halves, or is refused with reason 2 outside ±1,000 ppm (R372). -/
def tkIncrWrite (m k : Nat) (w : Nat) (s : State) : State :=
  let v := w % 256 * 2 ^ 32 + rgetN s (Reg.TIME_TK_INCR_LO k)
  if 0x013FAE147B ≤ v ∧ v ≤ 0x014051EB85 then
    let s := fset s (Reg.TIME_TK_INCR_HI k) Fld.TIME_TK_INCR_HI_V (w % 256)
    if k = 0 then { s with time := { s.time with incrA := v } } else { s with time := { s.time with incrB := v } }
  else refuse m 2 (ridReg (Reg.TIME_TK_INCR_HI k)) (Reg.TIME_TK_INCR_HI k) s

/-- A write of TIME_OT_CTRL: SEL and AUTO, then the choice; SNAP waits for the next tick (R381, R382). -/
def otCtrlWrite (w : Nat) (s : State) : State :=
  let s := fset (fset s Reg.TIME_OT_CTRL Fld.TIME_OT_CTRL_SEL (bitsOf 0 0 w)) Reg.TIME_OT_CTRL
    Fld.TIME_OT_CTRL_AUTO (bitsOf 1 1 w)
  let s := if bitOf 2 w then { s with time := { s.time with snapPending := true } } else s
  if running s then otChoose s else s

/-! ### Pulse outputs (R383-R385) -/

/-- The staged program of pin n breaks a limit of R384. -/
def tpoBad (n : Nat) (s : State) : Bool :=
  let period := rgetN s (Reg.TIME_TPO_PERIOD n)
  let width := rgetN s (Reg.TIME_TPO_WIDTH n)
  decide ((period ≠ 0 ∧ period < 100) ∨ width < 10 ∨ (period ≠ 0 ∧ period < width + 10))
/-- Commit the staged program of pin n on timekeeper k at the present time. A pulse in progress keeps its WIDTH. -/
def tpoCommitNow (m n k : Nat) (s : State) : State :=
  let a := Reg.TIME_TPO_CTRL n
  let period := rgetN s (Reg.TIME_TPO_PERIOD n)
  let width := rgetN s (Reg.TIME_TPO_WIDTH n)
  let start := rget64 s (Reg.TIME_TPO_START_LO n) (Reg.TIME_TPO_START_HI n)
  if tpoBad n s then refuse m 2 (resId 2 n) a s
  else
    let s := fset s a Fld.TIME_TPO_CTRL_EN 1
    let now := cdiv (tkRaw s k) (2 ^ 32)
    let high := (tpoProg s n).high
    let fallAt := (tpoProg s n).fallAt
    let armed := if high then 2 else 1
    if period = 0 then
      if start < now then
        let s := setTpoState n (if high then 2 else 3) (setTpo n { start, period, width, high, fallAt } s)
        raise Src.tpoLate [n] (fset s (Reg.TIME_TPO_STAT n) Fld.TIME_TPO_STAT_LATE 1)
      else setTpoState n armed (setTpo n { armed := true, start, period, width, next := start, high, fallAt } s)
    else
      let next := if now ≤ start then start else start + cdiv (now - start) period * period
      setTpoState n armed (setTpo n { armed := true, start, period, width, next, high, fallAt } s)

/-- EN = 0: the program is off and the pin low (R385). -/
def tpoOff (n : Nat) (s : State) : State :=
  let s := fset s (Reg.TIME_TPO_CTRL n) Fld.TIME_TPO_CTRL_EN 0
  setTpoPin n false (setTpoState n 0 (setTpo n {} s))

/-- A write of TIME_TPO_CTRL by the pin's owner (R383): a timekeeper pin takes EN and MODE, a HOST pin takes LEVEL. -/
def tpoCtrlWrite (m n : Nat) (w : Nat) (s : State) : State :=
  let a := Reg.TIME_TPO_CTRL n
  let c := ownClass s.img (resId 2 n)
  if c = 7 then
    if bitOf 0 w || bitOf 1 w then refuse m 1 (resId 2 n) a s
    else setTpoPin n (bitOf 2 w) (fset s a Fld.TIME_TPO_CTRL_LEVEL (bitsOf 2 2 w))
  else match tpoTk s.img n with
    | some k =>
      if bitOf 2 w then refuse m 1 (resId 2 n) a s
      else
        let t := if bitOf 0 w then tpoCommitNow m n k s else tpoOff n s
        if bitOf 0 w && tpoBad n s then t else fset t a Fld.TIME_TPO_CTRL_MODE (bitsOf 1 1 w)
    | none => refuse m 1 (resId 2 n) a s

/-- A staged program word of a pin that no timekeeper owns is refused with reason 1 (R383). -/
def tpoStagedWrite (m n a : Nat) (w : Word) (s : State) : State :=
  if (tpoTk s.img n).isSome then plainWrite a w s else refuse m 1 (resId 2 n) a s

/-- The owning timekeeper reaches the next target: the pin rises (R384). The time clock runs until it does. -/
def tpoFire (n : Nat) (s : State) : State :=
  match tpoTk s.img n with
  | none => s
  | some k =>
    let p := tpoProg s n
    if !p.armed || !running s then s
    else
      let s := advanceTicks (ticksTo s k p.next) s
      let s := count s (Reg.TIME_TPO_FIRED n)
      let fallAt := nowTicks s + cdiv (4 * p.width) 5
      let p' := if p.period = 0 then { p with armed := false, high := true, fallAt }
        else { p with high := true, next := p.next + p.period, fallAt }
      setTpoPin n true (setTpoState n 2 (setTpo n p' s))

/-- WIDTH after the rising edge, in cycles of the time clock, the pin falls; a single pulse ends in DONE (R17, R384). -/
def tpoFall (n : Nat) (s : State) : State :=
  let p := tpoProg s n
  if !p.high then s
  else
    let s := setTpo n { p with high := false } (advanceTicks (p.fallAt - nowTicks s) s)
    setTpoPin n false (setTpoState n (if p.armed then 1 else 3) s)

/-! ### Time-stamps and capture (R379, R386) -/

/-- A time-stamp of a counter value and the TIME_TK_STAT of the same tick (Table 15.3). -/
def stampOf (raw st edge : Nat) : Stamp :=
  let ns := raw / 2 ^ 32
  let sec := ns / 1000000000 % 2 ^ 48
  { w0 := ns % 1000000000, w1 := sec % 2 ^ 32,
    w2 := sec / 2 ^ 32 + bitsOf 31 16 raw * 65536,
    w3 := bitsOf 0 0 st + 2 * bitsOf 1 1 st + 4 * edge + bitsOf 23 16 st * 256 }
/-- The time-stamp of timekeeper k now. -/
def stampNow (s : State) (k : Nat) (edge : Nat) : Stamp := stampOf (tkRaw s k) (rgetN s (Reg.TIME_TK_STAT k)) edge
/-- The counter of timekeeper k and its status an interval ago, in units of 2^-32 ns: what it held before the first change
since then, moved back by what of the interval lies before that change (R379). -/
def tkBefore (s : State) (k : Nat) (back : Int) : Nat × Nat :=
  let age (m : TkMark) : Int := (nowTicks s - m.tick) * (5 * 2 ^ 30 : Nat)
  match (s.time.past.filter (fun m => m.k == k && decide (age m < back))).getLast? with
  | some m => (ofInt 96 ((m.raw : Int) - (back - age m)), m.stat)
  | none => (ofInt 96 ((tkRaw s k : Int) - back), rgetN s (Reg.TIME_TK_STAT k))
def stampWords (t : Stamp) : List Nat := [t.w0, t.w1, t.w2, t.w3]

/-- Owner of a TCI pin as a timekeeper number. -/
def tciTk (g : Img) (n : Nat) : Option Nat :=
  let c := ownClass g (resId 3 n)
  if c = 3 then some 0 else if c = 4 then some 1 else none
def tciFifo (s : State) (n : Nat) : List Stamp := cget [] s.time.tci n
def setTci (n : Nat) (l : List Stamp) (s : State) : State :=
  fset { s with time := { s.time with tci := cset [] s.time.tci n l } } (Reg.TIME_TCI_STAT n)
    Fld.TIME_TCI_STAT_COUNT l.length

/-- A filtered capture edge (R386): a stamp of the edge at the pin, or an overflow. -/
def tciEdgeNow (n : Nat) (rising : Bool) (s : State) : State :=
  let s := setFiltered (5 + n) rising s
  match tciTk s.img n with
  | none => s
  | some k =>
    let e := fget s (Reg.TIME_TCI_CTRL n) Fld.TIME_TCI_CTRL_EDGE
    let want := if rising then !(e == 2) else (e == 2 || e == 3)
    if !fbit s (Reg.TIME_TCI_CTRL n) Fld.TIME_TCI_CTRL_EN || !want || !running s then s
    else if 16 ≤ (tciFifo s n).length then
      let s := fset s (Reg.TIME_TCI_STAT n) Fld.TIME_TCI_STAT_OVF 1
      raise Src.tciOverflow [n] (count s (Reg.TIME_TCI_DROP n))
    else setTci n (tciFifo s n ++ [stampNow s k (if rising then 0 else 1)]) s

/-- A read of TIME_TCI_TS0: word 0 of the oldest entry, words 1-3 latched, the entry removed; 0 when empty. -/
def tciReadNow (n : Nat) (s : State) : Nat × State :=
  let put (t : Stamp) (s : State) : State :=
    rsetN (rsetN (rsetN (rsetN s (Reg.TIME_TCI_TS n 0) t.w0) (Reg.TIME_TCI_TS n 1) t.w1) (Reg.TIME_TCI_TS n 2) t.w2)
      (Reg.TIME_TCI_TS n 3) t.w3
  match tciFifo s n with
  | [] => (0, put {} s)
  | t :: r => (t.w0, setTci n r (put t s))

/-- TIME_SNAP.GO (R387). -/
def snapshotNow (s : State) : State :=
  rset64 (rset64 (rset64 s (Reg.TIME_SNAP_W 0) (Reg.TIME_SNAP_W 1) (tkNs s 0))
    (Reg.TIME_SNAP_W 2) (Reg.TIME_SNAP_W 3) (tkNs s 1)) (Reg.TIME_SNAP_W 4) (Reg.TIME_SNAP_W 5) (otNs s)

/-- A write to a TIME register at offset a: the effect its rule gives it. -/
def timeWrite (m a : Nat) (w : Word) (s : State) : State :=
  let n := w.toNat
  if a < 0x00A00200 then
    let k := (a - Base.timeBase) / 0x100
    if a = Reg.TIME_TK_CTRL k then tkCtrlWrite k n s
    else if a = Reg.TIME_TK_INCR_HI k then tkIncrWrite m k n s
    else plainWrite a w s
  else if a = Reg.TIME_OT_CTRL then otCtrlWrite n s
  else if a = Reg.TIME_SNAP then (if bitOf 0 n then snapshotNow s else s)
  else if 0x00A00400 ≤ a ∧ a < 0x00A00500 then
    let p := (a - 0x00A00400) / 0x20
    if a = Reg.TIME_TPO_CTRL p then tpoCtrlWrite m p n s
    else if a = Reg.TIME_TPO_STAT p ∨ a = Reg.TIME_TPO_FIRED p ∨ a = Reg.TIME_TPO_MISSED p then plainWrite a w s
    else tpoStagedWrite m p a w s
  else if 0x00A00600 ≤ a ∧ a < 0x00A00680 then
    let p := (a - 0x00A00600) / 0x20
    if (tciTk s.img p).isSome then plainWrite a w s else refuse m 1 (resId 3 p) a s
  else plainWrite a w s

/-! ### Meanings -/

/-- TK_SET: a write of TIME_TK_CTRL with SET_GO (R373, R374, R376). -/
def execTkSet (m : Fin 9) (k : Fin 2) (s : State) : Out :=
  .next (hostWrite m (Reg.TIME_TK_CTRL k) 4 (tkCtrlWrite k 4) s)
/-- TK_ADJ: a write of TIME_TK_CTRL with ADJ_GO (R373, R374, R376). -/
def execTkAdj (m : Fin 9) (k : Fin 2) (s : State) : Out :=
  .next (hostWrite m (Reg.TIME_TK_CTRL k) 8 (tkCtrlWrite k 8) s)
/-- TK_INCR_WRITE: a write of TIME_TK_INCR_HI (R372). -/
def execTkIncrWrite (m : Fin 9) (k : Fin 2) (w : Word) (s : State) : Out :=
  .next (hostWrite m (Reg.TIME_TK_INCR_HI k) w (tkIncrWrite m k w.toNat) s)
/-- TK_LOCK_SET: a write of TIME_TK_CTRL with LOCK_SET (R376). -/
def execTkLockSet (m : Fin 9) (k : Fin 2) (s : State) : Out :=
  .next (hostWrite m (Reg.TIME_TK_CTRL k) 1 (tkCtrlWrite k 1) s)
/-- TK_LOCK_CLR: a write of TIME_TK_CTRL with LOCK_CLR (R376). -/
def execTkLockClr (m : Fin 9) (k : Fin 2) (s : State) : Out :=
  .next (hostWrite m (Reg.TIME_TK_CTRL k) 2 (tkCtrlWrite k 2) s)
/-- TK_LOCK_TIMEOUT: the time clock runs until the running lock timer of a timekeeper expires (R376). -/
def execTkLockTimeout (k : Fin 2) (s : State) : Out :=
  .next (if lockRun s k && running s then tkUnlockNow k (advanceTicks (lockEnd s k - nowTicks s) s) else s)
/-- OT_SELECT_WRITE: a write of SEL and AUTO (R381). -/
def execOtSelectWrite (m : Fin 9) (sel auto : Bool) (s : State) : Out :=
  .next (hostWrite m Reg.TIME_OT_CTRL (w32 (b2n sel + 2 * b2n auto)) (otCtrlWrite (b2n sel + 2 * b2n auto)) s)
/-- OT_SNAP: a write of SNAP; O becomes 0 at the next tick (R382). SEL and AUTO keep their values. -/
def execOtSnap (m : Fin 9) (s : State) : Out :=
  let w := rgetN s Reg.TIME_OT_CTRL % 4 + 4
  .next (hostWrite m Reg.TIME_OT_CTRL (w32 w) (otCtrlWrite w) s)
/-- OT_RESIDUAL_ZERO: the time clock runs until O has slewed to 0 (R382). -/
def execOtResidualZero (s : State) : Out := .next (advanceTicks (cdiv s.time.resid.natAbs 53687) s)
/-- TPO_COMMIT: a write of TIME_TPO_CTRL with EN = 1 (R384, R385). -/
def execTpoCommit (m : Fin 9) (n : Fin 8) (s : State) : Out :=
  .next (hostWrite m (Reg.TIME_TPO_CTRL n) 1 (tpoCtrlWrite m n 1) s)
/-- TPO_DISABLE: a write of TIME_TPO_CTRL with EN = 0 (R385). -/
def execTpoDisable (m : Fin 9) (n : Fin 8) (s : State) : Out :=
  .next (hostWrite m (Reg.TIME_TPO_CTRL n) 0 (tpoCtrlWrite m n 0) s)
/-- TPO_TARGET_REACHED: the pin's timekeeper reaches the next target (R384). -/
def execTpoTargetReached (n : Fin 8) (s : State) : Out := .next (tpoFire n s)
/-- TPO_PULSE_END: WIDTH after the rising edge (R384). -/
def execTpoPulseEnd (n : Fin 8) (s : State) : Out := .next (tpoFall n s)
/-- TCI_EDGE: a filtered edge of a capture input (R386). -/
def execTciEdge (n : Fin 4) (rising : Bool) (s : State) : Out := .next (tciEdgeNow n rising s)
/-- TCI_TS_READ: a read of TIME_TCI_TS0 (R386). -/
def execTciTsRead (m : Fin 9) (n : Fin 4) (s : State) : Out :=
  .next (hostRead m (Reg.TIME_TCI_TS n 0) (tciReadNow n) s)
/-- TIME_SNAPSHOT: a write of TIME_SNAP.GO (R387). -/
def execTimeSnapshot (m : Fin 9) (s : State) : Out := .next (hostWrite m Reg.TIME_SNAP 1 snapshotNow s)

end Sys2Proof.Machine
end

