-- ==== Sys2Proof/Machine/MacFamily.lean ====
section
/-! DEFINITION. Packet ports and the frame MAC: link state, transmit queues, PAUSE, time-stamps, exception and injection
queues (06_ethernet_mac.md R147-R166). The receive decision that asks the flow engine stands with the flows. -/

namespace Sys2Proof.Machine

def macPort (s : State) (m : Nat) : MacPort := cget {} s.mac m
def setMac (m : Nat) (p : MacPort) (s : State) : State := { s with mac := cset {} s.mac m p }
def macState (s : State) (m : Nat) : Nat := fget s (Reg.MAC_STAT m) Fld.MAC_STAT_STATE
def macStat (m : Nat) (f : FieldRow) (v : Nat) (s : State) : State := fset s (Reg.MAC_STAT m) f v
def macEn (s : State) (m : Nat) : Bool := fbit s (Reg.MAC_CTRL m) Fld.MAC_CTRL_EN

/-! ### Link state (R150) -/

/-- The PAUSE timer clears. -/
def pauseClear (m : Nat) (s : State) : State :=
  rsetN (macStat m Fld.MAC_STAT_PAUSED 0 s) (Reg.MAC_PAUSE_STAT m) 0
/-- Enter a link state; an exit from UP is counted and raised, clears RF and the PAUSE timer. -/
def macEnter (m st : Nat) (s : State) : State :=
  let was := macState s m
  let s := macStat m Fld.MAC_STAT_STATE st s
  if was = 3 ∧ st ≠ 3 then
    let s := pauseClear m (macStat m Fld.MAC_STAT_RF 0 s)
    raise Src.macLinkDown [m] (count s (Reg.MAC_LINK_DOWN m))
  else s
/-- EN in force once each direction has reached a frame boundary (R151): the port enters or leaves OFF. A port that a cast
keeps stays as it is in the pause (18 Table 18.4). -/
def macApplyEn (m : Nat) (s : State) : State :=
  let p := macPort s m
  if !portFormed s.img m || p.cur.isSome || p.rxLast then s
  else if macEn s m && inService s then
    let s := setMac m { p with rxShut := false, txShut := false } s
    if macState s m = 0 then macEnter m (if p.cdr then 2 else 1) s else s
  else if macState s m = 0 || (macEn s m && inCast s) then s else macEnter m 0 s
/-- A change of EN is observed: `rx` says that a frame is being received, which completes first, as a frame in transmission
does; the transmitter starts no other. -/
def macEnChange (m : Nat) (rx : Bool) (s : State) : State :=
  macApplyEn m (setMac m { macPort s m with rxLast := rx, rxShut := !rx && !macEn s m, txShut := !macEn s m } s)
/-- The receive direction reaches the end of a frame. -/
def rxBoundary (m : Nat) (s : State) : State :=
  if !(macPort s m).rxLast then s
  else macApplyEn m (setMac m { macPort s m with rxLast := false, rxShut := !macEn s m } s)

/-! ### Transmitting (R156, R157, R165) -/

def txQueue (s : State) (m i : Nat) : List TxFrame := cget [] (macPort s m).txq i
/-- The highest-numbered non-empty queue. -/
def txTop (s : State) (m : Nat) : Option Nat :=
  (List.range 8).foldl (fun acc i => if (txQueue s m i).isEmpty then acc else some i) none
/-- The queue of MAC_TXQ_MAP for a traffic class: 0 HOST, 1 PTP, 2 AUDIO, 3 VIDEO, 4 ANC (Table 6.12). -/
def txClass (s : State) (m c : Nat) : Nat :=
  let a := Reg.MAC_TXQ_MAP m
  if c = 0 then fget s a Fld.MAC_TXQ_MAP_HOST else if c = 1 then fget s a Fld.MAC_TXQ_MAP_PTP
  else if c = 2 then fget s a Fld.MAC_TXQ_MAP_AUDIO else if c = 3 then fget s a Fld.MAC_TXQ_MAP_VIDEO
  else fget s a Fld.MAC_TXQ_MAP_ANC

/-- Room in queue i goes to the packet of the flow engine that has waited longest for it, by the map of now (R156; 07
R186). -/
def txRefill (m i : Nat) (s : State) : State :=
  let p := macPort s m
  match p.waiting.find? (fun w => txClass s m w.cls == i) with
  | none => s
  | some w =>
    if 16 ≤ (txQueue s m i).length then s
    else count (setMac m { p with waiting := p.waiting.erase w, txq := cset [] p.txq i (cget [] p.txq i ++ [w.frame]) } s)
      (Reg.FLOW_LEG_PKTS w.leg)
/-- Take the frame at the head of queue i. -/
def txPop (m i : Nat) (s : State) : Option TxFrame × State :=
  match txQueue s m i with
  | [] => (none, s)
  | f :: t => (some f, txRefill m i (setMac m { macPort s m with txq := cset [] (macPort s m).txq i t } s))

/-- Rate of a port in Gb/s. -/
def portGbps (g : Img) (m : Nat) : Nat := [0, 25, 50, 100, 200, 400].getD (portSpeed g m) 0
/-- Time-stamp words on timekeeper k at the port's pins, `octets` octets of line time ago, with a signed adjustment in
1/16 ns; VALID, LOCKED and GEN are those of that instant (R160; 15 R379). -/
def macStamp (s : State) (m k octets : Nat) (adj : Nat) : List Nat :=
  let back : Int := octets * 8 * 2 ^ 32 / max 1 (portGbps s.img m)
  let v := tkBefore s k back
  stampWords (stampOf (ofInt 96 ((v.1 : Int) + sext 16 adj * (2 ^ 28 : Int))) v.2 0)
def bothStamps (s : State) (m octets adj : Nat) : List Nat := macStamp s m 0 octets adj ++ macStamp s m 1 octets adj

/-- May the transmitter start a frame: UP and not closed by EN = 0, no remote fault, neither timer running (R151, R152,
R159, 20 R496)? -/
def txReady (s : State) (m : Nat) : Bool :=
  !inCast s && !(macPort s m).txShut && macState s m == 3 && !fbit s (Reg.MAC_STAT m) Fld.MAC_STAT_RF && !fbit s (Reg.MAC_STAT m) Fld.MAC_STAT_PAUSED
    && !(m ∈ s.test.stalled) && (macPort s m).cur.isNone
/-- At a frame boundary the transmitter starts the frame at the head of the highest non-empty queue (R157). -/
def txStart (m : Nat) (s : State) : State :=
  if !txReady s m then s
  else match txTop s m with
    | none => s
    | some i => match txPop m i s with
      | (none, s) => s
      | (some f, s) => setMac m { macPort s m with cur := some f } s
/-- Is there room in transmit queue i (R156)? -/
def txRoom (s : State) (m i : Nat) : Bool := decide ((txQueue s m i).length < 16)
/-- A producer places a frame in transmit queue i. -/
def txPlace (m i : Nat) (f : TxFrame) (s : State) : State :=
  txStart m (setMac m { macPort s m with txq := cset [] (macPort s m).txq i (txQueue s m i ++ [f]) } s)

/-- The frame on the line: padded to 60 bytes, with its FCS (R157). -/
def wireFrame (bs : List Nat) : List Nat :=
  let p := bs ++ List.replicate (60 - bs.length) 0
  p ++ leBytes 4 (crc32 p)
/-- Add to a free-running 64-bit counter. -/
def count64 (lo hi n : Nat) (s : State) : State := rset64 s lo hi ((rget64 s lo hi + n) % 2 ^ 64)

/-- A completion record, or MAC_TS_DROP (R165). -/
def tsComplete (m tag : Nat) (ts : List Nat) (s : State) : State :=
  let r := Reg.MAC_TSC_Q m
  let q := fget s r Fld.MAC_TSC_Q_Q
  let c := if fbit s r Fld.MAC_TSC_Q_EN then roomFor 2 q 48 s else (false, s)
  if c.1 then putRecord q (wordBytes ([tag % 65536 + m * 65536, 0] ++ ts ++ [0, 0])) c.2 else count c.2 (Reg.MAC_TS_DROP m)
/-- The frame in transmission ends: counted, completed with the time-stamps of its first octet, which crossed the pins as
many octets of line time ago (R160), and the next one starts. -/
def txEnd (m : Nat) (s : State) : State :=
  match (macPort s m).cur with
  | none => txStart m s
  | some f =>
    let w := wireFrame f.bytes
    let ts := bothStamps s m w.length (fget s (Reg.MAC_TS_TX_ADJ m) Fld.MAC_TS_TX_ADJ_ADJ)
    let s := setMac m { macPort s m with cur := none } s
    let s := emit s (.macFrame m w)
    let s := count64 (Reg.MAC_TX_FRAMES_LO m) (Reg.MAC_TX_FRAMES_HI m) 1 s
    let s := count64 (Reg.MAC_TX_BYTES_LO m) (Reg.MAC_TX_BYTES_HI m) w.length s
    let s := match f.tsTag with | some t => tsComplete m t ts s | none => s
    txStart m (macApplyEn m s)
/-- A frame is taken from the transmit queues and discarded whole. -/
def dropTop (m : Nat) (s : State) : State :=
  match txTop s m with
  | none => s
  | some i => match txPop m i s with
    | (none, s) => s
    | (some _, s) => count s (Reg.MAC_TX_DISCARD m)
/-- A port that cannot send takes a frame and discards it whole (R152). -/
def txDiscard (m : Nat) (s : State) : State :=
  if macState s m = 3 ∧ !fbit s (Reg.MAC_STAT m) Fld.MAC_STAT_RF then s else dropTop m s
/-- The port can send again: frames still queued from the time when it could not are stale, and go the same way before the
transmitter starts (R152). -/
def txReturn (m : Nat) (s : State) : State :=
  let p := macPort s m
  let n := (p.txq.map (fun e => e.2.length)).foldl (· + ·) p.waiting.length
  txStart m ((List.range n).foldl (fun s _ => dropTop m s) s)

/-! ### Receive helpers (R154, R155, R158, R163) -/

def be16 (bs : List Nat) (i : Nat) : Nat := (bs.drop i).headD 0 * 256 + (bs.drop (i + 1)).headD 0
def isTag (bs : List Nat) (i : Nat) : Bool := be16 bs i == 0x8100 || be16 bs i == 0x88A8
def frameTagged (bs : List Nat) : Bool := isTag bs 12
/-- Offset and value of the EtherType behind at most one tag. -/
def typeOff (bs : List Nat) : Nat := if frameTagged bs then 16 else 12
def etherType (bs : List Nat) : Nat := be16 bs (typeOff bs)
/-- Is the FCS at the end of the frame right, with the bits of `mask` inverted in it? -/
def fcsOk (mask : Nat) (bs : List Nat) : Bool :=
  let n := bs.length - 4
  decide (4 ≤ bs.length) && (leNat (bs.drop n) ^^^ mask) == crc32 (bs.take n)
def macAddr (s : State) (m : Nat) : List Nat :=
  leBytes 4 (rgetN s (Reg.MAC_ADDR_LO m)) ++ leBytes 2 (rgetN s (Reg.MAC_ADDR_HI m))
def daUnicast (bs : List Nat) : Bool := bs.headD 0 % 2 == 0
/-- A PAUSE of R158, judged once the FCS is known to be good. -/
def isPause (s : State) (m : Nat) (bs : List Nat) : Bool :=
  (bs.take 6 == [1, 0x80, 0xC2, 0, 0, 1] || bs.take 6 == macAddr s m) && !frameTagged bs
    && etherType bs == 0x8808 && be16 bs 14 == 1
/-- Row 8: PTP over Ethernet, or UDP port 319 or 320 in an unfragmented IPv4 packet. -/
def isPtp (bs : List Nat) : Bool :=
  etherType bs == 0x88F7 ||
    (let ip := typeOff bs + 2
     let ihl := (bs.drop ip).headD 0 % 16 * 4
     let port := be16 bs (ip + ihl + 2)
     etherType bs == 0x0800 && (bs.drop ip).headD 0 / 16 == 4 && be16 bs (ip + 6) % 16384 == 0
       && (bs.drop (ip + 9)).headD 0 == 17 && (port == 319 || port == 320))
/-- A PAUSE is verified (Table 6.6). -/
def pauseSeen (m q : Nat) (s : State) : State :=
  let s := count s (Reg.MAC_RX_PAUSE m)
  if !fbit s (Reg.MAC_CTRL m) Fld.MAC_CTRL_PAUSE_EN then s
  else if q = 0 then txStart m (pauseClear m s)
  else
    let a := Reg.MAC_PAUSE_STAT m
    fset (fset (macStat m Fld.MAC_STAT_PAUSED 1 s) a Fld.MAC_PAUSE_STAT_PAUSED 1) a Fld.MAC_PAUSE_STAT_REMAIN q
/-- A frame for the host: an exception record, or MAC_RX_EXC_DROP (R163). Its time-stamp is that of its first octet: the
frame has just ended, so as many octets of line time ago (DEDUCED, log entry 133). SEQ counts the records written before
this one, so the first has 0, and TAGGED is 1 for either TPID (DESIGN CHOICE, log entry 145). -/
def excRecord (m : Nat) (ptp : Bool) (bs : List Nat) (s : State) : State :=
  let r := if ptp then Reg.MAC_EXC_Q_PTP m else Reg.MAC_EXC_Q_GEN m
  let q := rgetN s r % 2 ^ 20
  let body := bs.take (bs.length - 4)
  let c := if bitOf 31 (rgetN s r) then roomFor 2 q (48 + body.length) s else (false, s)
  let s := c.2
  if c.1 then
    let p := macPort s m
    let w0 := body.length % 2 ^ 14 + b2n (frameTagged bs) * 2 ^ 14 + b2n ptp * 2 ^ 15 + m * 65536
    let ts := bothStamps s m bs.length (fget s (Reg.MAC_TS_RX_ADJ m) Fld.MAC_TS_RX_ADJ_ADJ)
    let s := setMac m { p with excSeq := (p.excSeq + 1) % 2 ^ 32 } s
    putRecord q (wordBytes ([w0, p.excSeq] ++ ts ++ [0, 0]) ++ body) s
  else raise Src.macExcDrop [m] (count s (Reg.MAC_RX_EXC_DROP m))
/-- A frame is handed on whole: its consumer drains its n bytes from the receive buffer later, where a frame removed leaves
it at once (R153, R154). -/
def rxHanded (m n : Nat) (s : State) : State :=
  let s := setMac m { macPort s m with rxBuf := (macPort s m).rxBuf + n } s
  count64 (Reg.MAC_RX_BYTES_LO m) (Reg.MAC_RX_BYTES_HI m) n
    (count64 (Reg.MAC_RX_FRAMES_LO m) (Reg.MAC_RX_FRAMES_HI m) 1 s)

/-- Bytes of its group's receive buffer that port m holds (R153). -/
def rxShare (g : Img) (m : Nat) : Nat :=
  (if portSpeed g m = 5 then 256 else if portSpeed g m = 4 then 128 else 64) * 1024
/-- Codewords: corrected and uncorrectable ones count, in a frame or between frames; each uncorrectable one raises the
fault (R166). -/
def fecCount (m corr uncorr : Nat) (s : State) : State :=
  (List.range uncorr).foldl (fun s _ => raise Src.macFecUncorr [m] (count s (Reg.MAC_FEC_UNCORR m)))
    (countN s (Reg.MAC_FEC_CORR m) corr)
/-- The outcome of a received frame (Table 6.5); `claim` is the flow engine's row 9: the frame's effect where it claims
it. `lost`: a byte found no room in the port's share of the buffer; `bad`: an uncorrectable codeword, a PCS error, or the
port left UP while it arrived. -/
def rxOutcome (claim : List Nat → State → Option State) (m : Nat) (bs : List Nat) (lost bad : Bool) (s : State) : State :=
  let f := crcObserved 9 m (fun mask => !bad && fcsOk mask bs) s
  let s := f.2
  if lost then raise Src.macRxOverflow [m] (count s (Reg.MAC_RX_OVERFLOW m))
  else if f.1 then count s (Reg.MAC_RX_FCS_ERR m)
  else if bs.length < 64 then count s (Reg.MAC_RX_RUNT m)
  else if 9600 < bs.length ∨ (frameTagged bs && isTag bs 16) then count s (Reg.MAC_RX_OVERSIZE m)
  else if daUnicast bs && bs.take 6 != macAddr s m && !fbit s (Reg.MAC_CTRL m) Fld.MAC_CTRL_PROMISC then
    count s (Reg.MAC_RX_DA_DROP m)
  else if isPause s m bs then pauseSeen m (be16 bs 16) s
  else if etherType bs = 0x8808 then count s (Reg.MAC_RX_CTRL_OTHER m)
  else
    let s := rxHanded m bs.length s
    if isPtp bs then excRecord m true bs s
    else match claim bs s with
      | some s => s
      | none => excRecord m false bs s
/-- The consumers have drained n bytes of port m's receive buffer, in frame order. -/
def rxDrain (m n : Nat) (s : State) : State := setMac m { macPort s m with rxBuf := (macPort s m).rxBuf - n } s
/-- A frame ends at port m, or, with no byte, a stretch between frames; `drained` bytes of the receive buffer have been
drained since the last one. A frame for which the port's share has no room is lost (R153, Table 6.5 row 1). A port not UP
takes none but the frame that was being received when it left UP; nor does a receive direction that EN = 0 has closed.
Frames received during the pause of a cast are dropped uncounted (18 Table 18.4). -/
def rxFrame (claim : List Nat → State → Option State) (m : Nat) (bs : List Nat) (drained : Nat) (pcsErr : Bool)
    (corr uncorr : Nat) (s : State) : State :=
  if !portFormed s.img m then s
  else
    let s := rxDrain m drained s
    if macState s m = 0 || (macPort s m).rxShut then s
    else
      let up := macState s m == 3
      let s := fecCount m corr uncorr s
      if bs.isEmpty || (!up && !pcsErr) then s
      else if inCast s then rxBoundary m s
      else
        let lost := decide (rxShare s.img m < (macPort s m).rxBuf + bs.length)
        rxBoundary m (rxOutcome claim m bs lost (pcsErr || uncorr != 0) s)

/-! ### Injection (R164) -/

/-- The injection reader of port m takes one closed record and places its frame, or releases it as bad; a full transmit
queue holds it back. -/
def injectRecord (m : Nat) (s : State) : State :=
  let r := Reg.MAC_INJ_Q m
  let q := fget s r Fld.MAC_INJ_Q_Q
  if !portFormed s.img m || !inService s || !fbit s r Fld.MAC_INJ_Q_EN then s
  else match takeRecord q s with
    | (none, _) => s
    | (some (bs, bad), s1) =>
      let w0 := leNat (bs.take 4)
      let len := w0 % 2 ^ 14
      let i := txClass s m (b2n (bitOf 14 w0))
      if bad || len < 14 || 9596 < len || bs.length ≠ 16 + len then
        count (queueRelease q s1) (Reg.MAC_INJ_BAD m)
      else if !txRoom s m i then s
      else txPlace m i ⟨bs.drop 16, if bitOf 15 w0 then some (w0 / 65536) else none⟩ (queueRelease q s1)

/-! ### Register writes -/

/-- Registers of a port that the split does not form: they read 0, and writes are refused. MAC_LANE_TXEQ of the group stays
(R147). -/
def macAbsent (g : Img) (a : Nat) : Bool :=
  let o := a - Base.macBase
  let r := o % 0x1000
  !portFormed g (o / 0x1000) && !(decide (0x40 ≤ r) && decide (r < 0x50) && o / 0x1000 % 4 == 0)
/-- A write to a MAC register at offset a. A new map may give a packet that waits room in another queue (R156). -/
def macWrite (mm a : Nat) (w : Word) (s : State) : State :=
  let o := a - Base.macBase
  let m := o / 0x1000
  let r := o % 0x1000
  if macAbsent s.img a then refuse mm 3 (ridReg a) a s
  else if r = 0x10 then
    let s := plainWrite a w s
    let n := (macPort s m).waiting.length
    txStart m ((List.range 8).foldl (fun s i => (List.range n).foldl (fun s _ => txRefill m i s) s) s)
  else if r = 0x14 ∨ r = 0x18 ∨ r = 0x1C ∨ r = 0x20 then queueRegWrite mm 2 a w s
  else if r = 0 then
    let s := plainWrite a w s
    if fbit s a Fld.MAC_CTRL_PAUSE_EN then s else txStart m (pauseClear m s)
  else plainWrite a w s

/-! ### Meanings -/

/-- MAC_CDR_LOCK (R150). -/
def execMacCdrLock (m : Fin 64) (s : State) : Out :=
  let s := setMac m { macPort s m with cdr := true } s
  .next (if portFormed s.img m && macState s m == 1 then macEnter m 2 s else s)
/-- MAC_CDR_LOSS (R150). -/
def execMacCdrLoss (m : Fin 64) (s : State) : Out :=
  let s := setMac m { macPort s m with cdr := false } s
  .next (if portFormed s.img m && 2 ≤ macState s m then macEnter m 1 s else s)
/-- MAC_ALIGN_TIMER_EXPIRE: 1 ms of quiet in ALIGNING; a fault sequence that is being received ends the quiet (R150). -/
def execMacAlignTimerExpire (m : Fin 64) (s : State) : Out :=
  .next (if portFormed s.img m && macState s m == 2 && !(macPort s m).fault then
    txReturn m (macStat m Fld.MAC_STAT_LF 0 (macEnter m 3 s)) else s)
/-- MAC_ALIGN_LOSS: loss of FEC or alignment lock, or a local fault detected (R150). -/
def execMacAlignLoss (m : Fin 64) (localFault : Bool) (s : State) : Out :=
  .next (if portFormed s.img m && 2 ≤ macState s m then
    macStat m Fld.MAC_STAT_LF (b2n localFault) (if macState s m = 3 then macEnter m 2 s else s) else s)
/-- MAC_FAULT_SEQUENCE: fault ordered sets are received, of local (0) or remote (1) fault, or have stopped (2) (R150). RF is
set in UP alone, so that a remote fault received in ALIGNING leaves it 0 (DESIGN CHOICE, log entry 145). -/
def execMacFaultSequence (m : Fin 64) (kind : Fin 3) (s : State) : Out :=
  let s := setMac m { macPort s m with fault := kind.val != 2 } s
  .next (if !portFormed s.img m || macState s m < 2 then s
    else if kind.val = 0 then macStat m Fld.MAC_STAT_LF 1 (if macState s m = 3 then macEnter m 2 s else s)
    else if kind.val = 1 then (if macState s m = 3 then macStat m Fld.MAC_STAT_RF 1 s else s)
    else
      let rf := fbit s (Reg.MAC_STAT m) Fld.MAC_STAT_RF
      let s := macStat m Fld.MAC_STAT_LF 0 (macStat m Fld.MAC_STAT_RF 0 s)
      if rf && macState s m == 3 then txReturn m s else s)
/-- MAC_PAUSE_EXPIRE: the PAUSE timer expires (R159). -/
def execMacPauseExpire (m : Fin 64) (s : State) : Out := .next (txStart m (pauseClear m s))
/-- MAC_TX_FRAME_END (R157, R165). -/
def execMacTxFrameEnd (m : Fin 64) (s : State) : Out := .next (txEnd m s)
/-- MAC_TX_DISCARD (R152). -/
def execMacTxDiscard (m : Fin 64) (s : State) : Out := .next (txDiscard m s)
/-- MAC_INJECT_RECORD (R164). -/
def execMacInjectRecord (m : Fin 64) (s : State) : Out := .next (injectRecord m s)
/-- MAC_EN_CHANGE: a change of EN is observed, a frame being received where `rx` says so; it takes effect at the next frame
boundary of each direction (R151). -/
def execMacEnChange (m : Fin 64) (rx : Bool) (s : State) : Out := .next (macEnChange m rx s)
/-- TEST_MAC_STALL_EXPIRE: the stall of a MAC ends, and transmission resumes unless paused (20 R496). -/
def execTestMacStallExpire (mac : Fin 64) (s : State) : Out :=
  .next (txStart mac { s with test := { s.test with stalled := s.test.stalled.filter (· != mac.val) } })

end Sys2Proof.Machine
end

