-- ==== Sys2Proof/Machine/Streams.lean ====
section
/-! DEFINITION. Sources: their lines, PRESENT, timed and off-rate states, sampling, test pattern
generators (04_stream_crosspoint.md R79-R91, R111, R112). -/

namespace Sys2Proof.Machine

/-! ### Names (R79) -/

def srcNames (g : Img) (x : Nat) : Bool := decide (x < 1920) && srcFmt g x != 0
def destNames (g : Img) (d : Nat) : Bool := decide (d < 2816) && destFmt g d != 0
/-- A quad-link source: S4k of raster 0x8 or 0x9 on the SDI lanes. -/
def isQuad (g : Img) (x : Nat) : Bool := decide (x < 512) && x % 4 == 0 && laneRxq g x && srcFmt g x != 0
/-- Lanes that carry a source's lines: four for a quad-link source. -/
def srcLanes (g : Img) (x : Nat) : List Nat := if isQuad g x then [x, x + 1, x + 2, x + 3] else [x]
/-- Plane in which a source is produced: heads, generators and slots (R85). -/
def madeIn (g : Img) (x : Nat) : Option Nat :=
  if 1536 ≤ x ∧ x < 1600 then some (headPlane g (x - 1536))
  else if 1600 ≤ x ∧ x < 1664 then some (tpgPlane g (x - 1600))
  else if 1664 ≤ x ∧ x < 1920 then some (destPlane g (1536 + (x - 1664)))
  else none
def planeRaster (g : Img) (p : Nat) : Nat := rasterOf (planeFmt g p)
def planeSwitchLine (g : Img) (p : Nat) : Nat := rasterSwitchLine (planeRaster g p)
def planeFc (s : State) (p : Nat) : Nat := rget64 s (Reg.PLANE_FC_LO p) (Reg.PLANE_FC_HI p) % 2 ^ 48
/-- a lies after b modulo 2^48 (R101). -/
def fcAfter (a b : Nat) : Bool :=
  let d := (a + 2 ^ 48 - b % 2 ^ 48) % 2 ^ 48
  decide (1 ≤ d) && decide (d ≤ 2 ^ 47)

/-! ### Status bits -/

def srcStat (x : Nat) (f : FieldRow) (v : Nat) (s : State) : State := fset s (Reg.XP_SRC_STAT x) f v
def srcPresent (s : State) (x : Nat) : Bool := fbit s (Reg.XP_SRC_STAT x) Fld.XP_SRC_STAT_PRESENT
def srcOffRate (s : State) (x : Nat) : Bool := fbit s (Reg.XP_SRC_STAT x) Fld.XP_SRC_STAT_OFF_RATE
def timedField (p : Nat) : FieldRow := if p = 0 then Fld.XP_SRC_STAT_TIMED0 else Fld.XP_SRC_STAT_TIMED1
def srcTimed (s : State) (x p : Nat) : Bool := fbit s (Reg.XP_SRC_STAT x) (timedField p)
def laneWin (s : State) (v p : Nat) : Nat := cget 0 s.xp.inWin (2 * v + p)
def setLaneWin (v p n : Nat) (s : State) : State :=
  { s with xp := { s.xp with inWin := cset 0 s.xp.inWin (2 * v + p) n } }
/-- TIMED of a source follows its lanes (R85, R112) and, where it is produced in the plane, is 1. -/
def refreshTimed (x : Nat) (s : State) : State :=
  (List.range 2).foldl (fun s p =>
    let t := madeIn s.img x == some p ||
      (srcPresent s x && (srcLanes s.img x).any (fun v => decide (2 ≤ laneWin s v p)))
    srcStat x (timedField p) (b2n t) s) s
/-- PRESENT of a source changes; a source that is not PRESENT stops being timed (R85). -/
def setPresent (x : Nat) (on : Bool) (s : State) : State :=
  let s := srcStat x Fld.XP_SRC_STAT_PRESENT (b2n on) s
  let s := if on then s else
    (srcLanes s.img x).foldl (fun s v => setLaneWin v 0 0 (setLaneWin v 1 0 s)) s
  refFollow (refreshTimed x s)

/-! ### What a source reports (R89; 05 R124; 09 R233) -/

/-- Sampling of the output a slot makes from an input frame: R'G'B' as CMAT says, or as the input is; else 4:4:4 or 4:2:2
by its setting. -/
def slotSamp (g : Img) (n : Nat) (f : SlotFrame) : Nat :=
  if (if (slotKernels g n).any (· == 3) then bitOf 6 f.ctrl else f.samp == 2) then 2 else if bitOf 5 f.ctrl then 1 else 0
/-- The input frame whose output slot n presents now: the one before the plane's frame in hand (R242). -/
def slotShown (s : State) (n : Nat) : Option SlotFrame :=
  let v : SlotSt := cget {} s.eng.slots n
  if v.cur.any (fun f => f.fc == planeFc s (destPlane s.img (1536 + n))) then v.old else v.cur
/-- The sampling a source reports: an SDI source by its payload ID, a flow by SAMPLING, heads and slots by their own
setting, else Y'CbCr 4:2:2. -/
def srcSamp (s : State) (x : Nat) : Nat :=
  if x < 512 then
    if fbit s (Reg.VLANE_RX_STAT x) Fld.VLANE_RX_STAT_PID_VALID then pidSamp (rgetN s (Reg.VLANE_RX_PID x)) else 0
  else if x < 1536 then
    let v := fget s (Reg.FLOW_VRX_CFG (x - 512)) Fld.FLOW_VRX_CFG_SAMPLING
    if v = 3 then 0 else v
  else if x < 1600 then headSampling s.img (x - 1536)
  else if 1664 ≤ x ∧ x < 1920 then
    (match slotShown s (x - 1664) with | some f => slotSamp s.img (x - 1664) f | none => 0)
  else 0
/-- The declared division of a quad-link source, square or not (05 R124). -/
def srcSquare (g : Img) (x : Nat) : Bool := isQuad g x && bitOf 2 (laneCfg g x)

/-! ### Timed and untimed (R85) -/

/-- The alignment window: |a - P_L| at most T_line - 512 ns; d in ns. -/
def inWindow (g : Img) (p : Nat) (d : Int) : Bool :=
  decide (d.natAbs * 1000 + 512000 ≤ linePs (planeFmt g p))
/-- a - P_L in units of 4 ns, saturating at 16 bits (XP_SRC_PHASE). The spec does not say how it is rounded: to nearest,
ties to even (DESIGN CHOICE, log entry 129). -/
def phaseUnits (d : Int) : Nat := ofInt 16 (clampI (-32768) 32767 (rne d 4))
/-- The first EAV word of the switching line arrives on source x (or on a lane of a quad-link source), d0 and d1 ns
after the reference instants of the planes. XP_SRC_PHASE of a quad-link source shows lane 4k's arrival (DESIGN CHOICE, log
entry 129). -/
def switchArrival (v : Nat) (d0 d1 : Int) (s : State) : State :=
  let x := if v < 512 ∧ isQuad s.img (4 * (v / 4)) then 4 * (v / 4) else v
  if !srcNames s.img x || !running s then s
  else
    let one (p : Nat) (d : Int) (s : State) : State :=
      if planeUsed s.img p then
        let n := if inWindow s.img p d && srcPresent s x then min 2 (laneWin s v p + 1) else 0
        let f := if p = 0 then Fld.XP_SRC_PHASE_P0 else Fld.XP_SRC_PHASE_P1
        setLaneWin v p n (if v = x then fset s (Reg.XP_SRC_PHASE x) f (phaseUnits d) else s)
      else s
    refreshTimed x (one 1 d1 (one 0 d0 s))

/-! ### Off-rate (R89) -/

/-- The mean of eight periods differs from the declared rate by more than 500 ppm: rate / declared - 1 =
(8 T_declared - sum) / sum, with T_declared = den * 10^12 / num ps. -/
def offRate (fmt : Nat) (ps : List Nat) : Bool :=
  let num := rateNum (rateOf fmt)
  let sum := ps.foldl (· + ·) 0
  let d : Int := (8 * rateDen (rateOf fmt) * 1000000000000 : Nat) - (sum * num : Nat)
  decide (8 ≤ ps.length) && decide (sum * num < d.natAbs * 2000)
def rxState (s : State) (v : Nat) : Nat := fget s (Reg.VLANE_RX_STAT v) Fld.VLANE_RX_STAT_STATE
/-- The rate of an SDI source is measured in LOCKED (05 R121). -/
def rateMeasured (s : State) (x : Nat) : Bool := decide (512 ≤ x) || (srcLanes s.img x).any (fun v => rxState s v == 3)
/-- A delivered frame of period `ps` updates the measured rate. -/
def frameMeasured (x ps : Nat) (s : State) : State :=
  if !srcNames s.img x || !running s || !rateMeasured s x then s
  else
    let l := (ps :: cget [] s.xp.periods x).take 8
    let s := { s with xp := { s.xp with periods := cset [] s.xp.periods x l } }
    refFollow (srcStat x Fld.XP_SRC_STAT_OFF_RATE (b2n (offRate (srcFmt s.img x) l)) s)

/-! ### Lines (R87, R88) -/

def srcLines (s : State) (v : Nat) : SrcLines := cget {} s.xp.src v
/-- A line of source or lane v is delivered to the crosspoint: the two-line ring, the frame, and the FIFO of each plane
for which the source is untimed; a full FIFO drops its oldest line. -/
def pushLine (v : Nat) (l : Ln) (s : State) : State :=
  let x := if v < 512 ∧ isQuad s.img (4 * (v / 4)) then 4 * (v / 4) else v
  let r := srcLines s v
  let b := if l.ln = 1 then [l] else r.build ++ [l]
  let r' : SrcLines := { ring := lastN 2 (r.ring ++ [l]), build := b,
                         prev := if rasterLines (rasterOf (srcFmt s.img x)) ≤ l.ln then b else r.prev }
  let s := { s with xp := { s.xp with src := cset {} s.xp.src v r' } }
  (planesUsed s.img).foldl (fun s p =>
    if srcTimed s x p then s
    else
      let f : Fifo := cget {} s.xp.fifo (2 * v + p)
      { s with xp := { s.xp with fifo := cset {} s.xp.fifo (2 * v + p) { f with lines := lastN 16 (f.lines ++ [l]) } } }) s
/-- A word of the FIFO of source x: stack and offset. Which word of the FIFO a line begins at is a free value. -/
def fifoWhere (s : State) (x p : Nat) : Nat × Nat :=
  let g := s.img
  let n := 256 * fifoCells g x
  (x % 4, regionBase g (x % 4) 1 + fifosEnd g (x % 4) x + (planesUsed g).idxOf p * n + 32 * (freeValue s % max 1 (n / 32)))
/-- The next line of a FIFO for line L of the plane: one line a plane line for every reader; the last line repeats when
the FIFO is empty. `errs` errors stand in its first word: a line that cannot be corrected counts as not arrived, and the
last one repeats (08 R218). A member of an aligned group reads the line `goal` at which the
group stands (R111). The spec does not say what a FIFO that has never held a line gives, nor what becomes of lines
that a timed spell leaves in it: here an empty line, which is blanking, and they stay (DESIGN CHOICE, log entry 129). -/
def fifoRead (v p L errs : Nat) (goal : Option Nat) (s : State) : Option Ln × State :=
  let due (l : List Ln) : List Ln := match goal with | none => l | some n => l.dropWhile (fun a => a.ln != n)
  let f : Fifo := cget {} s.xp.fifo (2 * v + p)
  let put (f : Fifo) (s : State) : State := { s with xp := { s.xp with fifo := cset {} s.xp.fifo (2 * v + p) f } }
  if f.at_ = some L then (f.cur, s)
  else match due f.lines with
    | [] => (f.cur, put { f with at_ := some L } s)
    | l :: t =>
      let x := if v < 512 ∧ isQuad s.img (4 * (v / 4)) then 4 * (v / 4) else v
      let c := hbmRead (fifoWhere s x p) (lineBytes (srcFmt s.img x)) errs none (spend s)
      let cur := if c.1 then f.cur else some l
      (cur, put { lines := t, cur, at_ := some L } c.2)
/-- The line number that the FIFO of a source made in the other plane gives for line L of plane p: such a source enters its
FIFO a line a line of its own plane, and both planes run at one rate (R97 code 3), so the lines leave in order, one a read.
Where in the source's frame the first one lies is a free value (log entry 32). -/
def madeFifoRead (x p L errs : Nat) (s : State) : Nat × State :=
  let n := rasterLines (rasterOf (srcFmt s.img x))
  let f : Fifo := cget {} s.xp.fifo (2 * x + p)
  if f.at_ = some L then ((f.cur.map (·.ln)).getD 1, s)
  else
    let next := match f.cur with | some l => l.ln % n + 1 | none => freeValue s % n + 1
    let c := hbmRead (fifoWhere s x p) (lineBytes (srcFmt s.img x)) errs none (spend s)
    let k := if c.1 then (f.cur.map (·.ln)).getD next else next
    (k, { c.2 with xp := { c.2.xp with fifo := cset {} c.2.xp.fifo (2 * x + p) { f with cur := some ⟨k, []⟩, at_ := some L } } })

/-! ### The test pattern generators (R91) -/

/-- A line of Y'CbCr 4:2:2 samples from its luma and its Cb and Cr by column: Cb Y Cr Y. -/
def line422 (w : Nat) (y : Nat → Nat) (cb cr : Nat → Nat) : List Nat :=
  (List.range (w / 2)).flatMap (fun i => [cb (2 * i), y (2 * i), cr (2 * i), y (2 * i + 1)])

/-- Round half up of a / b, b positive. -/
def roundHalfUp (a : Int) (b : Nat) : Int := (2 * a + b) / (2 * b : Nat)
/-- Components minus 64 of bar i: white, yellow, cyan, green, magenta, red, blue, black, each on at 876 or 657. -/
def barRgb (on i : Nat) : Nat × Nat × Nat :=
  if i = 0 then (on, on, on) else if i = 1 then (on, on, 0) else if i = 2 then (0, on, on) else if i = 3 then (0, on, 0)
  else if i = 4 then (on, 0, on) else if i = 5 then (on, 0, 0) else if i = 6 then (0, 0, on) else (0, 0, 0)
/-- Y', Cb, Cr of R'G'B' components (minus 64), each rounded half up. -/
def barYcc (c : Nat × Nat × Nat) : Nat × Nat × Nat :=
  let yy : Nat := 2126 * c.1 + 7152 * c.2.1 + 722 * c.2.2
  let diff (k den : Nat) : Nat :=
    (512 + roundHalfUp (8960000 * ((10000 * k : Nat) - (yy : Nat) : Int)) (den * 8760000)).toNat
  (64 + (roundHalfUp yy 10000).toNat, diff c.2.2 18556, diff c.1 15748)
/-- The bar at column x: bar i starts at 2 * ((i * W) // 16). -/
def barAt (w x : Nat) : Nat := (List.range 8).foldl (fun acc i => if 2 * (i * w / 16) ≤ x then i else acc) 0
/-- A picture line of pattern `pat` (Table 4.5) with colour word `col`, at frame `fc`. -/
def tpgRow (fmt pat col fc : Nat) : List Nat :=
  let w := rasterW (rasterOf fmt)
  let bars (on : Nat) : List Nat :=
    let t := (List.range 8).map (fun i => barYcc (barRgb on i))
    let at_ (x : Nat) : Nat × Nat × Nat := (t[barAt w x]?).getD (64, 512, 512)
    line422 w (fun x => (at_ x).1) (fun x => (at_ x).2.1) (fun x => (at_ x).2.2)
  if pat = 1 then bars 876
  else if pat = 2 then bars 657
  else if pat = 3 then line422 w (fun x => 64 + 876 * x / (w - 1)) (fun _ => 512) (fun _ => 512)
  else if pat = 4 then line422 w (fun _ => bitsOf 29 20 col) (fun _ => bitsOf 19 10 col) (fun _ => bitsOf 9 0 col)
  else if pat = 5 then line422 w (fun x => if x = fc % w then 940 else 0x040) (fun _ => 0x200) (fun _ => 0x200)
  else line422 w (fun _ => 0x040) (fun _ => 0x200) (fun _ => 0x200)
/-- The values of timing line L of a generator: every picture line of it carries the pattern; a line outside the active
picture is black. -/
def tpgWords (fmt pat col fc L : Nat) : List Nat :=
  if activeLine (rasterOf fmt) L then (List.range (linesPer (rasterOf fmt))).flatMap (fun _ => tpgRow fmt pat col fc)
  else blackWords fmt 0
/-- Pattern and colour in force of generator n. -/
def tpgInForce (s : State) (n : Nat) : Nat × Nat := cget (0, 0x04080200) s.xp.tpg n
/-- The generators of plane p take their settings at its switch point (R91). -/
def tpgApply (p : Nat) (s : State) : State :=
  (List.range 64).foldl (fun s n =>
    if srcFmt s.img (1600 + n) != 0 && tpgPlane s.img n == p then
      let v := (fget s (Reg.XP_TPG_CTRL n) Fld.XP_TPG_CTRL_PATTERN, rgetN s (Reg.XP_TPG_COLOR n))
      { s with xp := { s.xp with tpg := cset (0, 0x04080200) s.xp.tpg n v } }
    else s) s

/-! ### Sources the device makes (08 R221, 09 R242, 10 R257) -/

/-- The values of timing line L of a head, generator or slot; black before its first frame, in blanking, and where the queue
that holds its frames is frozen (08 R219). -/
def madeLine (s : State) (x L : Nat) : List Nat :=
  let fmt := srcFmt s.img x
  if 1600 ≤ x ∧ x < 1664 then
    let t := tpgInForce s (x - 1600)
    tpgWords fmt t.1 t.2 (planeFc s (tpgPlane s.img (x - 1600))) L
  else
    let ws := cget [] (cget [] s.xp.made x) L
    if ws.isEmpty || (decide (x < 1600) && (getQ s (0xFF7C0 + (x - 1536))).frozen)
        || (decide (1664 ≤ x) && (getQ s (slotOutQ s.img (x - 1664))).frozen) then blackWords fmt (srcSamp s x) else ws

/-! ### Meanings -/

/-- SOURCE_FRAME_MEASURED: a delivered frame of a period in ps (R89). A packet source is measured from the steps in the
media time of its frames (07 R179). -/
def execSourceFrameMeasured (x : Fin 2048) (ps : Nat) (s : State) : Out :=
  let step := (cget {} s.flow.vrx (x.val - 512) : RxFlow).stepPs
  .next (frameMeasured x (if 512 ≤ x.val ∧ x.val < 1536 ∧ step ≠ 0 then step else ps) s)

end Sys2Proof.Machine
end

