-- ==== Sys2Proof/Machine/Pixels.lean ====
section
/-! DEFINITION. Pixel arithmetic: chroma, colour conversion, CMAT, TLUT, DEINT, the scaler, dither, raw and Gesso
surfaces (09_chisel_engines.md R233-R236; 10_composition.md R261-R275; 11_scaling.md R278-R293). -/

namespace Sys2Proof.Machine

/-! ### Lines of a format (04 R83, 07 Table 7.5) -/

/-- Picture line of a row key, counted from 0 at the top, and the key of a picture line: line y of a fielded raster lies
in field y mod 2 (11 R291). -/
def pictureY (r key : Nat) : Nat :=
  if rasterFields r = 2 then 2 * (key % 65536) + key / 65536 else key % 65536
def pictureKey (r y : Nat) : Nat := if rasterFields r = 2 then y % 2 * 65536 + y / 2 else y
/-- Rows in the order a destination reads them: 16 of them are a band (09 R244). -/
def rowOrder (r : Nat) : List Nat := (List.range (rasterLines r)).flatMap (fun L => lineRows r (L + 1))

/-! ### A picture: size and samples -/

/-- Components of the sample at column x, picture line y. -/
structure Pic where
  w : Nat
  h : Nat
  raster : Nat
  rgb : Bool
  get : Nat → Nat → Px

/-- Black of a space. -/
def blackPx (rgb : Bool) : Px := if rgb then ⟨64, 64, 64, 1023⟩ else ⟨64, 512, 512, 1023⟩
/-- The timing line that carries a row and the row's place in it: of a quad link in square division, line y of the upper
and of the lower half of the picture come together. -/
def rowPlace (square : Bool) (r key : Nat) : Nat × Nat :=
  let y := key % 65536
  if square && r == 8 then (42 + y % 1080, y / 1080) else (rowLine r (key / 65536) y, y % linesPer r)
/-- Active values of picture line y of a frame. -/
def frameRow (fr : Frame) (y : Nat) : List Nat :=
  let r := rasterOf fr.fmt
  let pl := rowPlace fr.square r (pictureKey r y)
  let n := rowValues fr.fmt fr.samp
  let act := lastN (lineValues fr.fmt fr.samp) (cget [] fr.lines pl.1)
  (act.drop (pl.2 * n)).take n
/-- A sample of a frame at 4:4:4 (R233); a line that is not there is black. -/
def framePx (fr : Frame) (x y : Nat) : Px :=
  let row := frameRow fr y
  let at_ (i : Nat) : Nat := (row[i]?).getD 0
  if row.isEmpty then blackPx (fr.samp == 2)
  else if fr.samp = 0 then
    let k := x / 2
    let last := rasterW (rasterOf fr.fmt) / 2 - 1
    let up (o : Nat) : Nat := if x % 2 = 0 then at_ (4 * k + o) else (at_ (4 * k + o) + at_ (4 * min last (k + 1) + o) + 1) / 2
    ⟨at_ (2 * x + 1), up 0, up 2, 1023⟩
  else if fr.samp = 1 then ⟨at_ (3 * x + 1), at_ (3 * x), at_ (3 * x + 2), 1023⟩
  else ⟨at_ (3 * x), at_ (3 * x + 1), at_ (3 * x + 2), 1023⟩
def framePic (fr : Frame) : Pic :=
  let r := rasterOf fr.fmt
  ⟨rasterW r, rasterH r, r, fr.samp == 2, framePx fr⟩
/-- Words of a row of pixels in a sampling: 4:2:2 takes chroma by the 1-2-1 filter of R233. -/
def rowWords (samp w : Nat) (px : Nat → Px) : List Nat :=
  if samp = 0 then
    let f (u : Nat → Nat) (k : Nat) : Nat :=
      let c := u (2 * k)
      let l := if k = 0 then c else u (2 * k - 1)
      let r := if 2 * k + 1 < w then u (2 * k + 1) else c
      (l + 2 * c + r + 2) / 4
    (List.range (w / 2)).flatMap (fun k =>
      [f (fun x => (px x).c1) k, (px (2 * k)).c0, f (fun x => (px x).c2) k, (px (2 * k + 1)).c0])
  else if samp = 1 then (List.range w).flatMap (fun x => [(px x).c1, (px x).c0, (px x).c2])
  else (List.range w).flatMap (fun x => [(px x).c0, (px x).c1, (px x).c2])

/-! ### Colour (R234, R235) -/

/-- Luma weights in 1/10,000 of BT.709 and BT.2020. -/
def lumaR (bt2020 : Bool) : Int := if bt2020 then 2627 else 2126
def lumaB (bt2020 : Bool) : Int := if bt2020 then 593 else 722
def clampPx (v : Int) : Nat := (clampI 4 1019 v).toNat
/-- Narrow-range Y'CbCr to R'G'B', non-constant luminance, each rounded half up and clamped. -/
def toRgb (bt2020 : Bool) (p : Px) : Px :=
  let kr := lumaR bt2020
  let kb := lumaB bt2020
  let kg := 10000 - kr - kb
  let y : Int := (p.c0 : Int) - 64
  let cb : Int := (p.c1 : Int) - 512
  let cr : Int := (p.c2 : Int) - 512
  let d : Nat := 8960000
  let dg : Nat := d * kg.toNat
  { p with c0 := clampPx (64 + roundHalfUp (y * d + 2 * (10000 - kr) * 876 * cr) d)
           c1 := clampPx (64 + roundHalfUp (y * dg - 2 * kb * (10000 - kb) * 876 * cb - 2 * kr * (10000 - kr) * 876 * cr) dg)
           c2 := clampPx (64 + roundHalfUp (y * d + 2 * (10000 - kb) * 876 * cb) d) }
/-- And back. -/
def toYcc (bt2020 : Bool) (p : Px) : Px :=
  let kr := lumaR bt2020
  let kb := lumaB bt2020
  let r : Int := (p.c0 : Int) - 64
  let g : Int := (p.c1 : Int) - 64
  let b : Int := (p.c2 : Int) - 64
  let s : Int := kr * r + (10000 - kr - kb) * g + kb * b
  { p with c0 := clampPx (64 + roundHalfUp s 10000)
           c1 := clampPx (512 + roundHalfUp (896 * (10000 * b - s)) (876 * 2 * (10000 - kb)).toNat)
           c2 := clampPx (512 + roundHalfUp (896 * (10000 * r - s)) (876 * 2 * (10000 - kr)).toNat) }
/-- CMAT (R234): nine coefficients, offsets as the registers hold them. -/
def cmatPx (cm : List Nat) (offIn offOut : Nat) (p : Px) : Px :=
  let x (i : Nat) : Int := (if i = 0 then p.c0 else if i = 1 then p.c1 else p.c2 : Nat) - (offIn / 1024 ^ i % 1024 : Nat)
  let c (i j : Nat) : Int := sext 16 ((cm[3 * i + j]?).getD 0)
  let y (i : Nat) : Nat :=
    clampPx ((c i 0 * x 0 + c i 1 * x 1 + c i 2 * x 2 + 4096) / 8192 + (offOut / 1024 ^ i % 1024 : Nat))
  ⟨y 0, y 1, y 2, p.a⟩
/-- Reset contents of a TLUT entry. -/
def tlutDefault (k : Nat) : Nat :=
  let i := k % 16384
  if i < 3072 then i % 1024 * 64
  else if i < 3081 then (if (i - 3072) % 4 = 0 then 16384 else 0)
  else if i < 4096 then 0 else i % 4096 / 4
/-- TLUT on R'G'B' (R235): `t` gives the entries of the set. -/
def tlutPx (t : Nat → Nat) (p : Px) : Px :=
  let l (c : Nat) : Int := t (c * 1024 + (if c = 0 then p.c0 else if c = 1 then p.c1 else p.c2) % 1024)
  let m (i : Nat) : Nat := (clampI 0 65535 ((sext 16 (t (3072 + 3 * i)) * l 0 + sext 16 (t (3073 + 3 * i)) * l 1
    + sext 16 (t (3074 + 3 * i)) * l 2 + 8192) / 16384)).toNat
  ⟨t (4096 + m 0 / 16) % 1024, t (8192 + m 1 / 16) % 1024, t (12288 + m 2 / 16) % 1024, p.a⟩
/-- DEINT (R236). -/
def deintPic (field : Nat) (p : Pic) : Pic :=
  if p.raster = 1 ∨ p.raster = 2 ∨ p.raster = 4 then
    { p with raster := 6, get := fun x y =>
        if y % 2 = field then p.get x y
        else
          let a := p.get x (if y = 0 then y + 1 else y - 1)
          let b := p.get x (if y + 1 < p.h then y + 1 else y - 1)
          ⟨(a.c0 + b.c0 + 1) / 2, (a.c1 + b.c1 + 1) / 2, (a.c2 + b.c2 + 1) / 2, (a.a + b.a + 1) / 2⟩ }
  else p

/-! ### The scaler (11 R278-R293) -/

/-- Reset contents of a coefficient, 11 bits. -/
def coefDefault (k : Nat) : Nat :=
  let i := k % 1024
  if i < 512 then (if i % 8 = 3 then (512 - i / 8 * 8) % 2048 else if i % 8 = 4 then i / 8 * 8 else 0)
  else if i < 896 then
    (let p := (i - 512) / 6
     if (i - 512) % 6 = 2 then (512 - 8 * p) % 2048 else if (i - 512) % 6 = 3 then 8 * p else 0)
  else 0
/-- Step and position in Q16.16 (R279). -/
def sclStep (inN outN : Nat) : Nat := inN * 65536 / outN
def sclPos (inN outN i : Nat) : Int :=
  let st : Int := sclStep inN outN
  (st - 65536) / 2 + i * st
/-- What one scaled axis pair needs: sizes, whether an axis passes, line-buffer mode, and the position of output line j
among the input lines. `fld`: the field of an interlaced input with its first frame line and frame-line count. -/
structure Scl where
  inW : Nat
  inH : Nat
  outW : Nat
  outH : Nat
  lb : Bool
  fld : Option (Nat × Nat × Nat) := none
  co : Nat → Nat
/-- Sample n of an axis, clamped inside the input (R280). -/
def tapAt (n : Int) (size : Nat) : Nat := (clampI 0 ((size : Int) - 1) n).toNat
/-- Vertical position of output line j among the input lines, in Q16.16 (R279, R291). -/
def sclLinePos (c : Scl) (j : Nat) : Int :=
  match c.fld with
  | none => sclPos c.inH c.outH j
  | some (phi, cropY, cropH) => ((cropY * 65536 : Nat) + sclPos cropH c.outH j - (phi * 65536 : Nat)) / 2
      - (((cropY + 1 - phi) / 2 * 65536 : Nat) : Int)
/-- Lines that the window of output line j touches (R283). -/
def sclWindow (c : Scl) (j : Nat) : List Nat :=
  let st := sclStep c.inH c.outH
  (List.range (((j + 1) * st - 1) / 65536 + 1 - j * st / 65536)).map (fun i => j * st / 65536 + i)
/-- Input lines that output line j needs: itself on an axis that passes, its window, or its six taps. -/
def sclTaps (c : Scl) (j : Nat) : List Nat :=
  if c.fld.isNone && c.inH == c.outH then [j]
  else if c.lb && decide (c.outH < c.inH) then (sclWindow c j).map (fun m => min m (c.inH - 1))
  else (List.range 6).map (fun (k : Nat) => tapAt (sclLinePos c j / 65536 - 2 + k) c.inH)
/-- Vertical stage: a 12-bit sample from column values `s` (R281, R283). -/
def sclVert (c : Scl) (j : Nat) (s : Nat → Nat) : Int :=
  if c.fld.isNone && c.inH == c.outH then 4 * (s j : Nat)
  else if c.lb && decide (c.outH < c.inH) then
    let st := sclStep c.inH c.outH
    let lo := j * st
    let hi := (j + 1) * st
    let w (m : Nat) : Nat := min hi ((m + 1) * 65536) - max lo (m * 65536)
    ((4 * ((sclWindow c j).foldl (fun a m => a + w m * s (min m (c.inH - 1))) 0) + st / 2) / st : Nat)
  else
    let pos := sclLinePos c j
    let n := pos / 65536
    let p := (pos / 1024 % 64).toNat
    let sum := (List.range 6).foldl (fun (a : Int) k => a + sext 11 (c.co (512 + 6 * p + k)) * (s (tapAt (n - 2 + k) c.inH) : Nat)) 0
    clampI 0 4095 ((sum + 64) / 128)
/-- Output sample (i, j) of one component given by `src x y`. -/
def sclAt (c : Scl) (i j : Nat) (src : Nat → Nat → Nat) : Nat :=
  let t (x : Nat) : Int := sclVert c j (src x)
  if c.inW = c.outW then ((t i + 2) / 4).toNat
  else
    let pos := sclPos c.inW c.outW i
    let n := pos / 65536
    let p := (pos / 1024 % 64).toNat
    let sum := (List.range 8).foldl (fun (a : Int) k => a + sext 11 (c.co (8 * p + k)) * t (tapAt (n - 3 + k) c.inW)) 0
    (clampI 0 1023 ((sum + 1024) / 2048)).toNat
def sclPx (c : Scl) (i j : Nat) (src : Nat → Nat → Px) : Px :=
  ⟨sclAt c i j (fun x y => (src x y).c0), sclAt c i j (fun x y => (src x y).c1), sclAt c i j (fun x y => (src x y).c2),
   sclAt c i j (fun x y => (src x y).a)⟩
/-- Limits of Table 11.1. -/
def sclRange (inW inH outW outH : Nat) : Bool :=
  decide (inW ≤ 8 * outW) && decide (outW ≤ 16 * inW) && decide (inH ≤ 64 * outH) && decide (outH ≤ 16 * inH)
    && outW != 0 && outH != 0 && inW != 0 && inH != 0
/-- NEED (R288) and the row of Table 11.2 (R289). -/
def sclNeed (pass lb : Bool) (inH outH : Nat) : Nat :=
  if pass then 0 else if lb && decide (outH < inH) then cdiv inH outH + 1 else 6
def sclRow (range : Bool) (lb : Bool) (need held : Nat) : Nat :=
  if !range then 1 else if need ≤ held then 2 else if lb && decide (6 ≤ held) then 3 else 4
/-- Lines of field phi within frame lines [cropY, cropY + cropH): their count Hf, and the first frame line. -/
def fieldCount (phi cropY cropH : Nat) : Nat := (cropY + cropH + 1 - phi) / 2 - (cropY + 1 - phi) / 2

/-! ### Dither (R268) -/

def ditherM : List Nat :=
  [0, 32, 8, 40, 2, 34, 10, 42, 48, 16, 56, 24, 50, 18, 58, 26, 12, 44, 4, 36, 14, 46, 6, 38, 60, 28, 52, 20, 62, 30, 54, 22]
  ++ [3, 35, 11, 43, 1, 33, 9, 41, 51, 19, 59, 27, 49, 17, 57, 25, 15, 47, 7, 39, 13, 45, 5, 37, 63, 31, 55, 23, 61, 29, 53, 21]
/-- Reduce v by s bits to dout bits at (x, y) with phase p. -/
def dither (p s dout x y v : Nat) : Nat :=
  if s = 0 then v
  else
    let ox := if p = 1 ∨ p = 2 then 4 else 0
    let oy := if p = 1 ∨ p = 3 then 4 else 0
    let t := (ditherM[(y + oy) % 8 * 8 + (x + ox) % 8]?).getD 0 / 2 ^ (6 - s)
    min ((v + t) / 2 ^ s) (2 ^ dout - 1)

/-! ### Gesso (R272-R275) -/

/-- n bits from bit i on, lowest first. -/
def bitsFrom (byte : Nat → Nat) (i : Nat) : Nat → Nat
  | 0 => 0
  | n + 1 => byte (i / 8) / 2 ^ (i % 8) % 2 + 2 * bitsFrom byte (i + 1) n
/-- Rebuild the samples from s[0] and the differences (R273). -/
def gessoSamples (s0 : Nat) (d : Nat → Int) : List Nat :=
  (List.range 63).foldl (fun (acc : List Nat) (j : Nat) =>
    let i : Nat := j + 1
    let pred : Nat := if i % 16 = 0 then (acc[i - 16]?).getD 0 else (acc[i - 1]?).getD 0
    acc ++ [(((pred : Int) + d i) % 1024).toNat]) [s0]
/-- One component field from bit i: the 64 samples and the bit after it; none where it fails (R275). -/
def gessoField (byte : Nat → Nat) (limit i : Nat) (raw : Bool) : Option (List Nat × Nat) :=
  if raw then
    if limit < i + 640 then none else some ((List.range 64).map (fun j => bitsFrom byte (i + 10 * j) 10), i + 640)
  else
    let k := bitsFrom byte i 4
    if limit < i + 4 ∨ 10 < k ∨ limit < i + 14 + 63 * k then none
    else some (gessoSamples (bitsFrom byte (i + 4) 10)
      (fun j => if k = 0 then 0 else sext k (bitsFrom byte (i + 14 + k * (j - 1)) k)), i + 14 + 63 * k)
/-- A block of `size` bytes: its component planes, alpha last where there is one. -/
def gessoBlock (byte : Nat → Nat) (size : Nat) (alpha : Bool) : Option (List (List Nat)) :=
  let raw := bitsFrom byte 0 1 == 1
  if bitsFrom byte 1 3 ≠ 0 then none
  else (List.range (if alpha then 4 else 3)).foldl (fun (acc : Option (List (List Nat) × Nat)) _ =>
    acc.bind (fun a => (gessoField byte (8 * size) a.2 raw).map (fun f => (a.1 ++ [f.1], f.2)))) (some ([], 4))
    |>.map (·.1)
/-- Start and size of block (bx, by) of a surface, from the surface's own words (R272). -/
def gessoWhere (byte : Nat → Nat) (base w h stride bx by_ : Nat) : Nat × Nat :=
  let bw := cdiv w 16
  let code (i : Nat) : Nat := let b := byte (base + i / 2); if i % 2 = 0 then b % 16 else b / 16 % 16
  let size (i : Nat) : Nat := 32 * (code i + 1)
  let area := base + 4096 * cdiv (bw * cdiv h 4) 8192
  (area + by_ * stride + (List.range bx).foldl (fun a j => a + size (by_ * bw + j)) 0, size (by_ * bw + bx))

end Sys2Proof.Machine
end

