-- ==== Sys2Proof/Machine/Crosspoint.lean ====
section
/-! DEFINITION. Takes, clean switching, frame synchronisers, destinations (04_stream_crosspoint.md R92-R113; the mirror
agent's part of a commit, 16_redundant_pair.md R403-R406). -/

namespace Sys2Proof.Machine

/-! ### The take ring (R92-R95) -/

def takePi (s : State) : Nat := fget s Reg.XP_TAKE_PI Fld.XP_TAKE_PI_PI
def takeCi (s : State) : Nat := fget s Reg.XP_TAKE_CI Fld.XP_TAKE_CI_CI
/-- Distance from count a to count b modulo 8,192. -/
def cntDist (a b : Nat) : Nat := (b + 8192 - a % 8192) % 8192
def takeOcc (s : State) : Nat := cntDist (takeCi s) (takePi s)
/-- The four words of the record of a count. -/
def takeRec4 (s : State) (c : Nat) : Nat × Nat × Nat × Nat :=
  let i := 4 * (c % 4096)
  (rgetN s (Reg.XP_TAKE_RING i), rgetN s (Reg.XP_TAKE_RING (i + 1)), rgetN s (Reg.XP_TAKE_RING (i + 2)),
   rgetN s (Reg.XP_TAKE_RING (i + 3)))
/-- May master m feed the take rings now (Table 4.7)? -/
def mayFeed (s : State) (m : Nat) : Bool :=
  (mode s == .factory && m == 0) || (mode s == .active && m == 0)
    || (mode s == .standby && m == (if pairInUse s then 2 else 0))
def takeFlag (f : FieldRow) (s : State) : State := fset s Reg.XP_TAKE_STAT f 1
/-- A write of a word of the ring (R94, R95). -/
def ringWrite (m w : Nat) (v : Word) (s : State) : State :=
  if !mayFeed s m then takeFlag Fld.XP_TAKE_STAT_IGNORED s
  else if (w / 4 + 4096 - takeCi s % 4096) % 4096 < takeOcc s then takeFlag Fld.XP_TAKE_STAT_OVERRUN s
  else rset s (Reg.XP_TAKE_RING w) v
/-- A write of XP_TAKE_PI (R94, R95). -/
def piWrite (m new : Nat) (s : State) : State :=
  let adv := cntDist (takePi s) (new % 8192)
  if !mayFeed s m then takeFlag Fld.XP_TAKE_STAT_IGNORED s
  else if adv = 0 then s
  else if 4096 - takeOcc s < adv then raise Src.takeOverrun [0] (takeFlag Fld.XP_TAKE_STAT_OVERRUN s)
  else
    let s := fset s Reg.XP_TAKE_PI Fld.XP_TAKE_PI_PI new
    if m = 2 then { s with xp := { s.xp with journalTo := new % 8192 } } else s

/-! ### Freeing (R103) -/

def salvoDone (v : Salvo) : Bool := v.refused || v.parts.all (·.executed)
/-- Takes of plane p committed and not yet executed. -/
def heldTakes (s : State) (p : Nat) : Nat :=
  s.xp.salvos.foldl (fun acc v => v.parts.foldl (fun acc t =>
    if t.plane = p && !t.executed && !v.refused then acc + t.takes.length else acc) acc) 0
def refreshHeld (s : State) : State :=
  (List.range 2).foldl (fun s p => fset s (Reg.XP_PLANE_EXEC p) Fld.XP_PLANE_EXEC_HELD (heldTakes s p)) s
/-- CI passes every leading salvo that is finished. -/
def takeFree (s : State) : State :=
  let l := s.xp.salvos.dropWhile salvoDone
  let ci := match l with | v :: _ => v.first | [] => s.xp.validated
  refreshHeld (fset { s with xp := { s.xp with salvos := l } } Reg.XP_TAKE_CI Fld.XP_TAKE_CI_CI ci)

/-! ### Validation (R96, R97, Table 4.8) -/

/-- Length of the run of records from count c on that ends with LAST, within n records. -/
def takeRun (s : State) : Nat → Nat → Option Nat
  | 0, _ => none
  | n + 1, c => if bitOf 16 (takeRec4 s c).2.1 then some 1 else (takeRun s n (c + 1)).map (· + 1)

/-- Code 0x07: OP 11, a reserved bit, AT outside LAST, a DISCONNECT with a source. -/
def recMalformed (lastRec : Bool) (r : Nat × Nat × Nat × Nat) : Bool :=
  let op := bitsOf 29 28 r.1
  op == 3 || bitsOf 15 12 r.1 != 0 || bitOf 27 r.1 || bitsOf 31 30 r.1 != 0 || bitsOf 31 18 r.2.1 != 0
    || bitsOf 31 16 r.2.2.2 != 0 || (!lastRec && bitOf 17 r.2.1) || (op == 1 && bitsOf 26 16 r.1 != 0)
/-- Codes 0x01 to 0x04 of one ROUTE or DISCONNECT. -/
def routeCode (g : Img) (op d x : Nat) : Nat :=
  if !destNames g d then 1
  else if op ≠ 0 then 0
  else if !srcNames g x then 2
  else if rateOf (srcFmt g x) ≠ rateOf (planeFmt g (destPlane g d)) then 3
  else if 1536 ≤ d ∧ destFmt g d = 0xFF then (if rasterOf (srcFmt g x) = 9 then 4 else 0)
  else if srcFmt g x ≠ destFmt g d then 4 else 0

/-- Check the records of a salvo in ring order: the takes of plane 0 and of plane 1 so far, or a code and the place of
the failing record. -/
def checkRecs (s : State) (first n : Nat) : Nat → List Take → List Take → (Nat × Nat) ⊕ (List Take × List Take)
  | 0, t0, t1 => .inr (t0, t1)
  | k + 1, t0, t1 =>
    let i := n - (k + 1)
    let r := takeRec4 s (first + i)
    let op := bitsOf 29 28 r.1
    let d := bitsOf 11 0 r.1
    let x := bitsOf 26 16 r.1
    if recMalformed (i + 1 == n) r then .inl (7, i)
    else if op = 2 then checkRecs s first n k t0 t1
    else
      let c := routeCode s.img op d x
      if c ≠ 0 then .inl (c, i)
      else
        let t : Take := ⟨d, if op = 1 then none else some x⟩
        let t0' := if destPlane s.img d = 0 then t0 ++ [t] else t0
        let t1' := if destPlane s.img d = 1 then t1 ++ [t] else t1
        if 2048 < t0'.length ∨ 2048 < t1'.length then .inl (5, i) else checkRecs s first n k t0' t1'

/-- The report of a refused salvo (R97): status, count, TAKE_REFUSED with the failing record, at place i. -/
def refuseReport (first tag code i : Nat) (s : State) : State :=
  let s := takeFlag Fld.XP_TAKE_STAT_REFUSED s
  let s := fset (fset s Reg.XP_TAKE_STAT Fld.XP_TAKE_STAT_REF_CODE code) Reg.XP_TAKE_STAT
    Fld.XP_TAKE_STAT_REF_INDEX first
  let s := count s Reg.XP_TAKE_REFUSE_COUNT
  let c := (first + i) % 8192
  let w0 := (takeRec4 s c).1
  raise Src.takeRefused [0, code, c, bitsOf 11 0 w0, bitsOf 26 16 w0, tag] s
/-- Records that are refused wait for their turn to be freed. -/
def putRefused (first n tag : Nat) (s : State) : State :=
  { s with xp := { s.xp with salvos := s.xp.salvos ++ [{ first, n, tag, refused := true }] } }
/-- Refuse the salvo whose validation ends. -/
def refuseSalvo (first n tag code i : Nat) (s : State) : State := refuseReport first tag code i (putRefused first n tag s)

/-- d of R101 and what it makes of a host's AT_FC: on time, late, or refused. -/
def atJudge (s : State) (p at_ : Nat) : Option Nat × Bool × Bool :=
  let d := (at_ + 2 ^ 48 - planeFc s p) % 2 ^ 48
  if 1 ≤ d ∧ d ≤ 256 then (some at_, false, false)
  else if d = 0 ∨ 2 ^ 47 < d then (none, true, false)
  else (none, false, true)

/-! ### The mirror agent at a commit (16 R403) -/

/-- Time in ps from the cut-off of a plane to its switch point: 8,192 plane-clock cycles (R99). -/
def cutoffPs (fmt : Nat) : Nat := 8192 * rateDenClk fmt * 1000000 / 148500
  where rateDenClk (f : Nat) : Nat := if rateDen (rateOf f) = 1001 then 1001 else 1000
/-- Execution frame the agent gives a part of plane p at a commit `since` ns after the plane's last switch point: with
a synced link the first switch point at least LEAD ahead, else the first whose cut-off lies ahead. -/
def agentFrame (s : State) (p since : Nat) : Nat :=
  let fmt := planeFmt s.img p
  let tf := framePs fmt
  let t := since * 1000
  let k := if linkState s = 5 then
      let lead := tf + rgetN s Reg.PAIR_MIRROR_LAT % 65536 * 1000 + rgetN s Reg.PAIR_LEAD_EXTRA % 65536 * 1000000
      max 1 (cdiv (t + lead) tf)
    else if t < tf - cutoffPs fmt then 1 else 2
  (planeFc s p + k) % 2 ^ 48
/-- Give a part its execution frame; a host's later AT_FC is kept, an earlier one is replaced and, with a synced link,
counted. -/
def agentPart (since : Nat) (hostAt : Option Nat) (t : Part) (s : State) : Part × State :=
  let f := agentFrame s t.plane since
  match hostAt with
  | none => ({ t with due := some f, late := false }, s)
  | some a =>
    if fcAfter a f then ({ t with due := some a, late := false }, s)
    else ({ t with due := some f, late := false },
      if linkState s = 5 ∧ a ≠ f then count s Reg.PAIR_AT_MOVED else s)

/-- The words of a journalled salvo: first count, records, parts with their frames, then the records. -/
def journalWords (s : State) (v : Salvo) : List Nat :=
  [0, v.first, v.n, v.parts.length] ++ v.parts.flatMap (fun t => [t.plane, lo32 (t.due.getD 0), hi32 (t.due.getD 0)])
    ++ (List.range v.n).flatMap (fun i => let r := takeRec4 s (v.first + i); [r.1, r.2.1, r.2.2.1, r.2.2.2])

/-- A salvo that passed its checks is committed (R96, R98); `since p` is the time since plane p's switch point. -/
def commitSalvo (since0 since1 first n tag : Nat) (hostAt : Option Nat) (parts : List Part) (s : State) : State :=
  let put (v : Salvo) (s : State) : State := takeFree { s with xp := { s.xp with salvos := s.xp.salvos ++ [v] } }
  let jd := s.xp.journalDue.filter (fun e => e.1 == first)
  if mode s == .active && pairInUse s then
    let r := parts.foldl (fun (acc : List Part × State) t =>
      let x := agentPart (if t.plane = 0 then since0 else since1) hostAt t acc.2
      (acc.1 ++ [x.1], x.2)) ([], s)
    let send := linkState s == 5 || (linkState s == 4 && s.pair.copySent)
    let v : Salvo := { first, n, tag, parts := r.1, agent := true, fwd := send }
    put v (if send then mirrorSend mkJournal (journalWords r.2 v) r.2 else r.2)
  else if mode s == .standby && pairInUse s then
    let parts := parts.map (fun t =>
      match jd.find? (fun e => e.2.1 == t.plane) with
      | some e => if e.2.2 < 2 ^ 48 then { t with due := some e.2.2, late := false } else { t with executed := true }
      | none => t)
    let s := { s with xp := { s.xp with journalDue := s.xp.journalDue.filter (fun e => e.1 != first) } }
    put { first, n, tag, parts, agent := true, fwd := true, acked := true } (mirrorSend mkAck [0, first, n] s)
  else put { first, n, tag, parts } s

/-- Abandoned tails that validation has reached take their place in ring order. -/
def absorbAbandoned (s : State) : State :=
  s.xp.abandoned.foldl (fun s a =>
    if a.1 = s.xp.validated then
      let s := putRefused a.1 a.2 0 s
      { s with xp := { s.xp with validated := (a.1 + a.2) % 8192, abandoned := s.xp.abandoned.filter (· != a) } }
    else s) s
/-- The next salvo covered by PI ends its validation: committed, freed when it holds only NOP records, or refused. In a
standby's ring only what the journal has committed is validated (16 R402). -/
def salvoCommit (since0 since1 : Nat) (s : State) : State :=
  let first := s.xp.validated
  let bound := if mode s == .standby && pairInUse s then cntDist first s.xp.journalTo else cntDist first (takePi s)
  if !inService s then s
  else match takeRun s (min bound (cntDist first (takePi s))) first with
    | none => s
    | some n =>
      let l := takeRec4 s (first + n - 1)
      let tag := bitsOf 15 0 l.2.1
      let journal := mode s == .standby && pairInUse s
      let hostAt : Option Nat := if bitOf 17 l.2.1 then some (l.2.2.1 + l.2.2.2 % 65536 * 2 ^ 32) else none
      let s := { s with xp := { s.xp with validated := (first + n) % 8192 } }
      match checkRecs s first n n [] [] with
      | .inl (code, i) => takeFree (absorbAbandoned (refuseSalvo first n tag code i s))
      | .inr (t0, t1) =>
        let parts : List Part := (if t0.isEmpty then [] else [{ plane := 0, takes := t0 }])
          ++ (if t1.isEmpty then [] else [{ plane := 1, takes := t1 }])
        match hostAt, journal with
        | some a, false =>
          let js := parts.map (fun t => (t, atJudge s t.plane a))
          if 1 < parts.length ∨ js.any (fun j => j.2.2.2) then
            takeFree (absorbAbandoned (refuseSalvo first n tag 6 (n - 1) s))
          else takeFree (absorbAbandoned (commitSalvo since0 since1 first n tag hostAt
            (js.map (fun j => { j.1 with due := j.2.1, late := j.2.2.1 })) s))
        | _, _ => takeFree (absorbAbandoned (commitSalvo since0 since1 first n tag none parts s))

/-- Records from the validated count on that belong to complete salvos or to tails abandoned before. -/
def tailAhead (s : State) : Nat :=
  let first := s.xp.validated
  let n := cntDist first (takePi s)
  let whole := (List.range n).foldl (fun a i => if bitOf 16 (takeRec4 s (first + i)).2.1 then i + 1 else a) 0
  s.xp.abandoned.foldl (fun a x => max a (cntDist first (x.1 + x.2))) whole
/-- ABANDON: the open tail becomes a refused salvo with code 0x08, behind what still waits for its validation (R96);
without one, no effect. -/
def abandonTail (s : State) : State :=
  let k := tailAhead s
  let n := cntDist s.xp.validated (takePi s)
  if n ≤ k then s
  else
    let first := (s.xp.validated + k) % 8192
    let s := { s with xp := { s.xp with abandoned := s.xp.abandoned ++ [(first, n - k)] } }
    takeFree (absorbAbandoned (refuseReport first 0 8 0 s))
/-- A write of XP_TAKE_CTRL (R96): DONE_VEC and DONE_MSI_EN from every master, ABANDON from one that may feed. -/
def takeCtrlWrite (m : Nat) (w : Word) (s : State) : State :=
  let s := plainWrite Reg.XP_TAKE_CTRL w s
  if !bitOf 0 w.toNat then s
  else if mayFeed s m then abandonTail s else takeFlag Fld.XP_TAKE_STAT_IGNORED s

/-! ### Leaving ACTIVE (16 R406) -/

/-- Refuse every salvo under validation with code 0x08, then the open tail. -/
def refuseRest : Nat → State → State
  | 0, s => s
  | k + 1, s =>
    let first := s.xp.validated
    let n := cntDist first (takePi s)
    match takeRun s n first with
    | none => abandonTail s
    | some m =>
      let tag := bitsOf 15 0 (takeRec4 s (first + m - 1)).2.1
      let s := { s with xp := { s.xp with validated := (first + m) % 8192 } }
      refuseRest k (absorbAbandoned (refuseSalvo first m tag 8 0 s))
/-- Withdraw what a refused salvo had loaded (R97: it changes no destination). -/
def clearPend (d : Nat) (s : State) : State :=
  let a := Reg.XP_DEST_SRC d
  fset (fset (fset s a Fld.XP_DEST_SRC_PEND_VALID 0) a Fld.XP_DEST_SRC_PEND_BLACK 0) a Fld.XP_DEST_SRC_PEND_SRC 0
/-- Load a take into its destination (Table 4.9 step 2). -/
def loadPend (t : Take) (s : State) : State :=
  let a := Reg.XP_DEST_SRC t.dest
  fset (fset (fset s a Fld.XP_DEST_SRC_PEND_VALID 1) a Fld.XP_DEST_SRC_PEND_BLACK (b2n t.src.isNone)) a
    Fld.XP_DEST_SRC_PEND_SRC (t.src.getD 0)
/-- Salvos that are not executed and that `which` picks are refused with code 0x08, then those under validation and the
open tail (R97, 18 R452). -/
def refuseHeld (which : Salvo → Bool) (s : State) : State :=
  let gone := s.xp.salvos.filter (fun v => which v && !v.refused && v.parts.any (fun t => !t.executed))
  let s := gone.foldl (fun s v =>
    let s := v.parts.foldl (fun s t => if t.inBatch then t.takes.foldl (fun s k => clearPend k.dest s) s else s) s
    let s := { s with xp := { s.xp with salvos := s.xp.salvos.map (fun u =>
      if u.first = v.first then { u with refused := true, parts := [] } else u) } }
    let s := takeFlag Fld.XP_TAKE_STAT_REFUSED s
    let s := fset (fset s Reg.XP_TAKE_STAT Fld.XP_TAKE_STAT_REF_CODE 8) Reg.XP_TAKE_STAT Fld.XP_TAKE_STAT_REF_INDEX v.first
    let s := count s Reg.XP_TAKE_REFUSE_COUNT
    let w0 := (takeRec4 s v.first).1
    raise Src.takeRefused [0, 8, v.first, bitsOf 11 0 w0, bitsOf 26 16 w0, v.tag] s) s
  let s := s.xp.salvos.foldl (fun s v => v.parts.foldl (fun s t =>
    if t.inBatch && !t.executed then t.takes.foldl (fun s k => loadPend k s) s else s) s) s
  takeFree (refuseRest 4097 s)
/-- The device leaves ACTIVE with the pair in use: salvos the agent holds and has not forwarded (16 R406). -/
def refuseUnforwarded (s : State) : State := refuseHeld (fun v => v.agent && !v.fwd) s

/-! ### Cut-off and batch (R99-R102) -/

/-- Form the batch of plane p over the salvos in ring order: takes so far, stopped, stopped at the limit. -/
def formBatch (p fcNext : Nat) : List Salvo → Nat → List Salvo × Bool
  | [], _ => ([], false)
  | v :: rest, n =>
    match v.parts.find? (fun t => t.plane == p && !t.executed && !t.inBatch) with
    | none => let r := formBatch p fcNext rest n; (v :: r.1, r.2)
    | some t =>
      if 2048 < n + t.takes.length then (v :: rest, true)
      else if t.due.any (fun f => fcAfter f fcNext) then (v :: rest, false)
      else
        let v' := { v with parts := v.parts.map (fun u => if u.plane = p then { u with inBatch := true } else u) }
        let r := formBatch p fcNext rest (n + t.takes.length)
        (v' :: r.1, r.2)
/-- Salvos whose part of plane p is in the batch and not yet recorded. -/
def batchOf (s : State) (p : Nat) : List (Salvo × Part) :=
  s.xp.salvos.filterMap (fun v => (v.parts.find? (fun t => t.plane == p && t.inBatch && !t.executed)).map (fun t => (v, t)))
/-- The cut-off of plane p: the batch, the acknowledgements of 16 R404, the pending sources. -/
def planeCutoff (p : Nat) (s : State) : State :=
  if !planeUsed s.img p || !running s || !(batchOf s p).isEmpty then s
  else
    let r := formBatch p ((planeFc s p + 1) % 2 ^ 48) s.xp.salvos 0
    let s := { s with xp := { s.xp with salvos := r.1 } }
    let s := if p = 0 then { s with xp := { s.xp with full0 := r.2 } } else { s with xp := { s.xp with full1 := r.2 } }
    let b := batchOf s p
    let s := if mode s == .active && pairInUse s then
        b.foldl (fun s x => if x.1.fwd && !x.1.acked then raise Src.pairAckMiss [p] (count s Reg.PAIR_ACK_MISS) else s) s
      else s
    b.foldl (fun s x => x.2.takes.foldl (fun s t => loadPend t s) s) s

/-! ### Frame synchronisers (R107-R110) -/

def destOf (s : State) (d : Nat) : Dest := cget {} s.xp.dests d
def setDest (d : Nat) (v : Dest) (s : State) : State := { s with xp := { s.xp with dests := cset {} s.xp.dests d v } }
def destStat (d : Nat) (f : FieldRow) (v : Nat) (s : State) : State := fset s (Reg.XP_DEST_STAT d) f v
def curBlack (s : State) (d : Nat) : Bool := fbit s (Reg.XP_DEST_SRC d) Fld.XP_DEST_SRC_CUR_BLACK
def curSrc (s : State) (d : Nat) : Nat := fget s (Reg.XP_DEST_SRC d) Fld.XP_DEST_SRC_CUR_SRC
/-- The pending source of a destination: none where it has no take, `none` within for black. -/
def pendSrc (s : State) (d : Nat) : Option (Option Nat) :=
  let a := Reg.XP_DEST_SRC d
  if !fbit s a Fld.XP_DEST_SRC_PEND_VALID then none
  else some (if fbit s a Fld.XP_DEST_SRC_PEND_BLACK then none else some (fget s a Fld.XP_DEST_SRC_PEND_SRC))
/-- Store a synchroniser and show it in XP_DEST_STAT. -/
def setFsync (d : Nat) (f : Fsync) (s : State) : State :=
  let s := setDest d { destOf s d with fs := f } s
  let s := destStat d Fld.XP_DEST_STAT_SYNC_ON (b2n f.en) s
  destStat d Fld.XP_DEST_STAT_SYNC_LOST (b2n f.lost) (destStat d Fld.XP_DEST_STAT_SYNC_HOLD (b2n f.held) s)
/-- An 8-bit RC counter of XP_DEST_FSYNC_STAT, saturating at 255. -/
def countF (a : Nat) (f : FieldRow) (n : Nat) (s : State) : State := fset s a f (min 255 (fget s a f + n))

/-- Is the slot's FSYNC kernel in position 0, so that EN reads 1 (09 R238)? FSYNC is kernel code 0x01 (Table 9.6). -/
def slotFsync (g : Img) (d : Nat) : Bool := decide (1536 ≤ d) && decide (d < 1792) && slotKernel g (d - 1536) 0 == 1

/-- A write of XP_DEST_FSYNC (R107; 09 R238). -/
def fsyncWrite (m d : Nat) (w : Word) (s : State) : State :=
  let a := Reg.XP_DEST_FSYNC d
  match destSync s.img d with
  | none => refuse m 2 0x07000000 a s
  | some i =>
    if slotFsync s.img d && !bitOf 0 w.toNat then refuse m 3 (resId 7 i) a s
    else
      let s := plainWrite a w s
      if 10000 < fget s a Fld.XP_DEST_FSYNC_HOLD_MS then fset s a Fld.XP_DEST_FSYNC_HOLD_MS 10000 else s

/-- The source is declared lost at a switch point (R110): hold, and with HOLD_MS 0 the loss at once. -/
def fsyncLose (d : Nat) (f : Fsync) (s : State) : State :=
  if f.holdMs = 0 then
    raise Src.fsyncLoss [d] (setFsync d { f with held := true, lost := true, timer := false, lossBlack := !f.lossAct } s)
  else setFsync d { f with held := true, timer := true } s
/-- Settings written since the last switch point take effect (Table 4.9 step 3). An enable starts with no frame. -/
def fsyncSettings (d : Nat) (s : State) : State :=
  let f := (destOf s d).fs
  let a := Reg.XP_DEST_FSYNC d
  let en := fbit s a Fld.XP_DEST_FSYNC_EN
  let f := { f with lossAct := fbit s a Fld.XP_DEST_FSYNC_LOSS_ACT, holdMs := fget s a Fld.XP_DEST_FSYNC_HOLD_MS }
  if en && !f.en then
    setFsync d { lossAct := f.lossAct, holdMs := f.holdMs, en := true, skip := 1,
                 wsrc := if curBlack s d then none else some (curSrc s d) } s
  else if !en && f.en then setFsync d { lossAct := f.lossAct, holdMs := f.holdMs } s
  else setFsync d f s
/-- A switch point at which the frame shown is repeated counts while there is one. -/
def fsyncRepeat (d : Nat) (s : State) : State :=
  let f := (destOf s d).fs
  if f.shown.isSome && !f.lossBlack then countF (Reg.XP_DEST_FSYNC_STAT d) Fld.XP_DEST_FSYNC_STAT_REPEATS 1 s else s
/-- A take arrives at a destination with a synchroniser: the read side goes on with the old source's last complete frame, or
with the black it showed; the write side changes source, its unfinished frame abandoned, and the tests start afresh. -/
def fsyncTake (d : Nat) (new : Option Nat) (s : State) : State :=
  let f := (destOf s d).fs
  if !f.en then s
  else
    let o := storeOp ((destSync s.img d).getD 0) s
    let take := o.1 && f.newest.isSome
    let s := if take then storeTake ((destSync s.img d).getD 0) o.2 else o.2
    let shown := if take then f.newest else if curBlack s d || f.lossBlack then none else f.shown
    let s := setFsync d { f with
      wsrc := new, fresh := 0, newest := none, miss := 0, skip := 1, held := false, lost := false, timer := false
      spoiled := false, shown, lossBlack := false } s
    if take then s else fsyncRepeat d s
/-- The read side selects at a switch point: the newest complete frame, or a repeat; then the tests of R110. A repeat
counts while a frame is shown. -/
def fsyncSelect (d : Nat) (s : State) : State :=
  let f := (destOf s d).fs
  match f.en, f.wsrc with
  | true, some x =>
    let o := storeOp ((destSync s.img d).getD 0) s
    let s := o.2
    let gone := !srcPresent s x
    match o.1, f.newest with
    | true, some fr =>
      let s := storeTake ((destSync s.img d).getD 0) s
      let f := { f with shown := some fr, newest := none, fresh := 0, miss := 0, skip := 0, held := false, lost := false,
                        timer := false, lossBlack := false }
      if gone then fsyncLose d f s else setFsync d f s
    | _, _ =>
      let f := if f.skip ≠ 0 then { f with skip := f.skip - 1 } else { f with miss := f.miss + 1 }
      let f := if f.lost && !f.lossAct then { f with lossBlack := true } else f
      fsyncRepeat d (if !f.held && (gone || 2 ≤ f.miss) then fsyncLose d f s else setFsync d f s)
  | _, _ => s
/-- A destination's synchroniser at the switch point: settings, then the take that arrives there, else a selection
(R107-R110). -/
def fsyncSwitch (d : Nat) (s : State) : State :=
  let s := fsyncSettings d s
  match pendSrc s d with
  | some new => fsyncTake d new s
  | none => fsyncSelect d s

/-! ### Quad-link lanes (R111, R112) -/

/-- Lane v of quad-link source x underruns for plane p: GROUP_SLIP, SLIP_LANES and the fault, once until it realigns. -/
def slipLane (x p v : Nat) (s : State) : State :=
  let key := 2 * v + p
  if key ∈ s.xp.slips then s
  else
    let a := Reg.XP_SRC_STAT x
    let lanes := (fget s a Fld.XP_SRC_STAT_SLIP_LANES) * b2n (s.xp.slips.any (fun k => k / 8 == x / 4)) ||| 2 ^ (v - x)
    let s := fset (fset s a Fld.XP_SRC_STAT_GROUP_SLIP 1) a Fld.XP_SRC_STAT_SLIP_LANES lanes
    raise Src.groupSlip [x] { s with xp := { s.xp with slips := s.xp.slips ++ [key] } }
/-- A lane underruns on the HBM and synchroniser paths: unlocked, or outside the window in which the group stands. A
group with no lane in the window is untimed as a whole, and none of its lanes underruns for that (DEDUCED, log entry 129). -/
def laneOut (s : State) (x p v : Nat) : Bool :=
  rxState s v != 3 || (srcTimed s x p && laneWin s v p == 0)
/-- A lane on its HBM path: an underrun repeats its last frame. -/
def laneUnder (x p v : Nat) (s : State) : Bool × State :=
  if isQuad s.img x && (laneOut s x p v || (2 * v + p) ∈ s.xp.slips) then (true, slipLane x p v s) else (false, s)
/-- Lanes that slipped realign where they are within the window again (R111). -/
def realign (p : Nat) (s : State) : State :=
  let back (k : Nat) : Bool := k % 2 == p && !laneOut s (8 * (k / 8) / 2) p (k / 2)
  { s with xp := { s.xp with
    slips := s.xp.slips.filter (fun k => !back k)
    fifo := s.xp.fifo.map (fun e => if e.1 % 2 = p then (e.1, { e.2 with at_ := none }) else e) } }

/-! ### The write side of a synchroniser (R105, R108, 08 R222) -/

/-- An ST 2022-6 flow delivers the lines of an SDI lane (07 R174). -/
def flowWhole (s : State) (x : Nat) : Bool :=
  decide (512 ≤ x) && decide (x < 1536) && ((cget {} s.flow.vrx (x - 512) : RxFlow).cfg % 4 == 1)
def srcWhole (s : State) (x : Nat) : Bool := decide (x < 512) || flowWhole s x
/-- Does an SDI source's lane carry level B? -/
def srcLevelB (s : State) (x : Nat) : Bool := decide (x < 512) && fbit s (Reg.VLANE_RX_STAT x) Fld.VLANE_RX_STAT_LEVEL_B
/-- The frame of a source that has just ended: of a quad-link source the lanes' frames, a lane that underruns repeating
its last; of a source the device makes every line it presents. -/
def wholeFrame (x p : Nat) (s : State) : SyncFrame × State :=
  let fr : SyncFrame := { fmt := srcFmt s.img x, samp := srcSamp s x, square := srcSquare s.img x, whole := srcWhole s x,
                          levelB := srcLevelB s x }
  if 1536 ≤ x then
    ({ fr with lanes := [(List.range (rasterLines (rasterOf fr.fmt))).map (fun i => ⟨i + 1, madeLine s x (i + 1)⟩)] }, s)
  else
    ({ fr with lanes := (srcLanes s.img x).map (fun v => (srcLines s v).prev) },
     (srcLanes s.img x).foldl (fun s v => (laneUnder x p v s).2) s)
/-- A whole frame of the destination's source is stored. A closed frame that the reader has not taken is dropped: here
when the frame that takes its buffer is complete (log entry 130). A frame with a failed staging granule, or in a store
whose descriptor is frozen, is not complete. -/
def fsyncComplete (d : Nat) (s : State) : State :=
  let f := (destOf s d).fs
  match f.en, f.wsrc with
  | true, some x =>
    let o := storeOp ((destSync s.img d).getD 0) s
    if f.spoiled || !o.1 then setDest d { destOf o.2 d with fs := { f with spoiled := false } } o.2
    else
      let s := if f.newest.isSome then countF (Reg.XP_DEST_FSYNC_STAT d) Fld.XP_DEST_FSYNC_STAT_DROPS 1 o.2 else o.2
      let fr := wholeFrame x (destPlane s.img d) s
      setDest d { destOf fr.2 d with fs := { f with newest := some fr.1, fresh := f.fresh + 1 } } fr.2
  | _, _ => s
/-- The hold timer expires with no frame completed in time (R110). -/
def fsyncExpire (d : Nat) (s : State) : State :=
  let f := (destOf s d).fs
  if f.en && f.timer && f.held && f.fresh == 0 then
    raise Src.fsyncLoss [d] (setFsync d { f with lost := true, timer := false } s)
  else s

/-! ### The switching line is read (R84, R89, R90, R104, R109) -/

/-- The pending take of a destination becomes its source. -/
def applyPend (d : Nat) (s : State) : State :=
  let a := Reg.XP_DEST_SRC d
  if !fbit s a Fld.XP_DEST_SRC_PEND_VALID then s
  else
    let black := fbit s a Fld.XP_DEST_SRC_PEND_BLACK
    let x := fget s a Fld.XP_DEST_SRC_PEND_SRC
    let same := curBlack s d == black && fget s a Fld.XP_DEST_SRC_CUR_SRC == x
    let new := if black then none else some x
    let s := if (destOf s d).fs.wsrc = new then s else fsyncTake d new s
    let s := if same then s else { s with xp := { s.xp with changed := d :: s.xp.changed.filter (· != d) } }
    clearPend d (fset (fset s a Fld.XP_DEST_SRC_CUR_BLACK (b2n black)) a Fld.XP_DEST_SRC_CUR_SRC x)
/-- The path of a destination for the coming frame (R88-R90, R108), with the format, sampling and division of what it
carries: of a black its declared format, in the sampling its source reports (R89). -/
def choosePath (d p : Nat) (s : State) : State :=
  let x := curSrc s d
  let v := destOf s d
  let src : Nat × Nat × Bool × Bool := (srcFmt s.img x, srcSamp s x, srcSquare s.img x, srcLevelB s x)
  let put (path : Path) (unt off : Bool) (c : Nat × Nat × Bool × Bool) (s : State) : State :=
    destStat d Fld.XP_DEST_STAT_OFF_RATE (b2n off) (destStat d Fld.XP_DEST_STAT_UNTIMED (b2n unt)
      (setDest d { v with path, fmt := c.1, samp := c.2.1, square := c.2.2.1, levelB := c.2.2.2 } s))
  if curBlack s d then put .black false false (0, 0, false, false) s
  else if srcOffRate s x then put .black false true src s
  else if v.fs.en then
    put .sync false false (match v.fs.shown, v.fs.lossBlack with | some fr, false => (fr.fmt, fr.samp, fr.square, fr.levelB) | _, _ => src) s
  else if srcTimed s x p then put .ring false false src s
  else raise Src.untimedRoute [d] (put .fifo true false src s)
/-- Destinations of a plane in use. -/
def planeDests (g : Img) (p : Nat) : List Nat := (List.range 2816).filter (fun d => destNames g d && destPlane g d == p)
/-- Every destination of plane p reads the switching line, from its new source where its batch holds a take. -/
def destSwitchRead (p : Nat) (s : State) : State :=
  if !planeUsed s.img p || !running s then s
  else (planeDests s.img p).foldl (fun s d => choosePath d p (applyPend d s)) (realign p s)

/-! ### A line is read (R84, R87, R88, R111, R124) -/

/-- n words that one free value stands for. -/
def freeWords (n : Nat) (s : State) : List Nat := (List.range n).map (fun i => freeValue s / 1024 ^ i % 1024)
/-- The line a lane of a quad-link source gives for line L on the ring path, with its slips. -/
def quadLane (x p L v : Nat) (s : State) : List Nat × State :=
  let key := 2 * v + p
  let got := (srcLines s v).ring.find? (fun l => l.ln == L)
  match got, rxState s v == 3 && decide (1 ≤ laneWin s v p) && !(key ∈ s.xp.slips) with
  | some l, true => (l.words, { s with xp := { s.xp with laneLast := cset [] s.xp.laneLast key l.words } })
  | _, _ => (cget [] s.xp.laneLast key, slipLane x p v s)
/-- The lane of a source whose FIFO gives the position of its group: the first that does not underrun (R111). -/
def leadLane (s : State) (x p : Nat) : Option Nat :=
  (srcLanes s.img x).find? (fun v => !(isQuad s.img x && (2 * v + p) ∈ s.xp.slips))
/-- Words of several lanes. -/
def lanesRead (f : Nat → State → List Nat × State) (vs : List Nat) (s : State) : List (List Nat) × State :=
  vs.foldl (fun acc v => let r := f v acc.2; (acc.1 ++ [r.1], r.2)) ([], s)
/-- A head's line is read from its store, errors in its first word: a frame with a word that cannot be corrected is not
complete, and black stands for it from there on (08 R218). -/
def headRead (x L errs : Nat) (s : State) : List (List Nat) × State :=
  let n := 2048 + (x - 1536)
  let c := hbmRead (storeWhere s n) (storeBytes s.img n / rasterLines (rasterOf (srcFmt s.img x))) errs none (spend s)
  let s := if c.1 then { c.2 with xp := { c.2.xp with made := cset [] c.2.xp.made x [] } } else c.2
  ([madeLine s x L], s)
/-- Line L of source x as a destination of plane p reads it on the ring path, lane by lane. The words of a line that a
single-lane source failed to deliver are a free value. -/
def ringLine (x p L errs : Nat) (s : State) : List (List Nat) × State :=
  if 1536 ≤ x ∧ x < 1600 then headRead x L errs s
  else if 1536 ≤ x then ([madeLine s x L], s)
  else if isQuad s.img x then lanesRead (quadLane x p L) (srcLanes s.img x) s
  else match (srcLines s x).ring.find? (fun l => l.ln == L) with
    | some l => ([l.words], s)
    | none => ([freeWords (if srcWhole s x then laneWords (srcFmt s.img x) else lineValues (srcFmt s.img x) (srcSamp s x)) s],
        spend s)
/-- The words of line n of the last frame of lane v. -/
def lastFrameLine (s : State) (n v : Nat) : List Nat := (((srcLines s v).prev.find? (fun l => l.ln == n)).map (·.words)).getD []
/-- And on the FIFO path. The lanes of a group read the line at which its first lane stands: one that has realigned drops
what it holds ahead of that line (R111); one that underruns gives that line of its last frame. -/
def fifoLine (x p L errs : Nat) (s : State) : List (List Nat) × State :=
  if 1536 ≤ x then (let r := madeFifoRead x p L errs s; ([madeLine r.2 x r.1], r.2))
  else
    let s := (srcLanes s.img x).foldl (fun s v => (laneUnder x p v s).2) s
    match leadLane s x p with
    | none => lanesRead (fun v s => (lastFrameLine s L v, s)) (srcLanes s.img x) s
    | some lead =>
      let r := fifoRead lead p L errs none s
      let n := (r.1.map (·.ln)).getD L
      lanesRead (fun v s =>
        if v = lead then ((r.1.map (·.words)).getD [], s)
        else if (2 * v + p) ∈ s.xp.slips then (lastFrameLine s n v, s)
        else let t := fifoRead v p L 0 (some n) s; ((t.1.map (·.words)).getD [], t.2)) (srcLanes s.img x) r.2
/-- The number, in its source, of the line that destination d has read for line L: its own on the FIFO path. -/
def readNumber (d L : Nat) (s : State) : Nat :=
  let x := curSrc s d
  let p := destPlane s.img d
  if (destOf s d).path != .fifo then L
  else (((cget {} s.xp.fifo (2 * ((leadLane s x p).getD x) + p) : Fifo).cur).map (·.ln)).getD L
/-- The format of what a destination carries: its own, or its source's where it takes any, or its plane's. -/
def carriedFmt (s : State) (d : Nat) : Nat :=
  let f := destFmt s.img d
  let c := (destOf s d).fmt
  if f = 0xFF then (if c = 0 then planeFmt s.img (destPlane s.img d) else c) else f
def destSamp (s : State) (d : Nat) : Nat := (destOf s d).samp
/-- NOPROC of the source's lane (05 R124). -/
def srcNoproc (s : State) (x : Nat) : Bool :=
  decide (x < 512) && (srcLanes s.img x).any (fun v => fbit s (Reg.VLANE_RX_STAT v) Fld.VLANE_RX_STAT_NOPROC)
/-- Line L of destination d: whether its words are whole lines of SDI lanes, and the words of each lane. A frame of a
synchroniser with a word that cannot be corrected is not complete: black stands for it from there on (08 R218, R222; log
entry 130). -/
def destLine (d L errs : Nat) (s : State) : (Bool × List (List Nat)) × State :=
  let v := destOf s d
  let x := curSrc s d
  let p := destPlane s.img d
  let black : Bool × List (List Nat) := (false, [blackWords (carriedFmt s d) v.samp])
  if 1536 ≤ d ∧ !curBlack s d ∧ srcNoproc s x then (black, s)
  else match v.path with
    | .black => (black, s)
    | .ring => let r := ringLine x p L errs s; ((srcWhole s x, r.1), r.2)
    | .fifo => let r := fifoLine x p L errs s; ((srcWhole s x, r.1), r.2)
    | .sync => match v.fs.shown, v.fs.lossBlack with
      | some fr, false =>
        let i := (destSync s.img d).getD 0
        let c := hbmRead (storeWhere s i) (lineBytes fr.fmt) errs none (spend s)
        let ws := fr.lanes.map (fun l => ((l.find? (fun a => a.ln == L)).map (·.words)).getD [])
        if (getQ s (0xFF800 + i)).frozen then (black, s)
        else if c.1 then (black, setDest d { v with fs := { v.fs with shown := none } } c.2)
        else ((if ws.all (·.isEmpty) then black else (fr.whole, ws)), c.2)
      | _, _ => (black, s)
/-- Does destination d carry black, for a disconnect, an off-rate source or a synchroniser with no frame to show? -/
def destBlack (s : State) (d : Nat) : Bool :=
  let v := destOf s d
  v.path == .black || (v.path == .sync && (v.fs.shown.isNone || v.fs.lossBlack))
/-- The picture values of another timing line of what the destination carries now. -/
def destAct (s : State) (d : Nat) (M : Nat) : List Nat :=
  let v := destOf s d
  let x := curSrc s d
  let black := blackWords (carriedFmt s d) v.samp
  let at_ (l : List Ln) : List Nat := ((l.find? (fun a => a.ln == M)).map (·.words)).getD black
  match v.path with
  | .black => black
  | .sync => match v.fs.shown, v.fs.lossBlack with | some fr, false => at_ (fr.lanes.headD []) | _, _ => black
  | _ => if 1536 ≤ x then madeLine s x M else at_ ((srcLines s x).build ++ (srcLines s x).prev)

/-! ### The batch is recorded (Table 4.9 step 6, R103) -/

/-- Parts of the batch of plane p have executed: Keep for the destinations that changed, status, AT_LATE, MSI-X, the ring. -/
def batchRecord (p : Nat) (s : State) : State :=
  if !planeUsed s.img p || !running s then s
  else
    let b := batchOf s p
    let fc := planeFc s p
    let takes := b.foldl (fun n x => n + x.2.takes.length) 0
    let mine := s.xp.changed.filter (fun d => destPlane s.img d == p)
    let s := mine.foldl (fun s d => markDirty (.video d) s)
      { s with xp := { s.xp with changed := s.xp.changed.filter (fun d => destPlane s.img d != p) } }
    let late := (b.filter (fun x => x.2.late || x.2.due.any (fun f => fcAfter fc f))).length
    let e := Reg.XP_PLANE_EXEC p
    let s := fset (fset s e Fld.XP_PLANE_EXEC_TAKES_LAST takes) e Fld.XP_PLANE_EXEC_FULL_LAST
      (b2n (if p = 0 then s.xp.full0 else s.xp.full1))
    let s := match b.getLast? with
      | none => s
      | some x =>
        let s := fset s (Reg.XP_PLANE_DONE_TAG p) Fld.XP_PLANE_DONE_TAG_TAG x.1.tag
        let s := rset64 s (Reg.XP_PLANE_DONE_FC_LO p) (Reg.XP_PLANE_DONE_FC_HI p) fc
        let s := countN s (Reg.XP_PLANE_AT_LATE p) late
        let s := { s with xp := { s.xp with salvos := s.xp.salvos.map (fun v => { v with parts := v.parts.map (fun t =>
          if t.plane = p && t.inBatch then { t with executed := true } else t) }) } }
        let s := if fbit s Reg.XP_TAKE_CTRL Fld.XP_TAKE_CTRL_DONE_MSI_EN then
            sendDone (fget s Reg.XP_TAKE_CTRL Fld.XP_TAKE_CTRL_DONE_VEC) s else s
        if mode s == .active && pairInUse s && decide (3 ≤ linkState s) then
          mirrorSend mkDone ([0, p, lo32 fc, hi32 fc] ++ b.map (fun x => x.1.first)) s else s
    takeFree s

/-! ### Register writes -/

/-- A write to an XP register at offset a. -/
def xpWrite (m a : Nat) (w : Word) (s : State) : State :=
  if 0x00210000 ≤ a ∧ a < 0x00220000 then ringWrite m ((a - 0x00210000) / 4) w s
  else if a = Reg.XP_TAKE_PI then piWrite m w.toNat s
  else if a = Reg.XP_TAKE_CTRL then takeCtrlWrite m w s
  else if 0x00220000 ≤ a ∧ a < 0x00230000 ∧ a % 16 = 8 then fsyncWrite m ((a - 0x00220000) / 16) w s
  else plainWrite a w s

/-! ### Meanings -/

/-- TAKE_RECORD_WRITE: a write of word w of the ring window (R93-R95). -/
def execTakeRecordWrite (m : Fin 9) (w : Fin 16384) (v : Word) (s : State) : Out :=
  .next (hostWrite m (Reg.XP_TAKE_RING w) v (ringWrite m w v) s)
/-- TAKE_PI_WRITE (R94, R95). -/
def execTakePiWrite (m : Fin 9) (pi : BitVec 13) (s : State) : Out :=
  .next (hostWrite m Reg.XP_TAKE_PI (w32 pi.toNat) (piWrite m pi.toNat) s)
/-- SALVO_COMMIT: the validation of the next salvo ends, since0 and since1 ns after the last switch point of each plane
(R96-R101; 16 R403). -/
def execSalvoCommit (since0 since1 : Nat) (s : State) : Out := .next (salvoCommit since0 since1 s)
/-- TAKE_ABANDON: a write of XP_TAKE_CTRL with ABANDON; DONE_VEC and DONE_MSI_EN keep their values (R96). -/
def execTakeAbandon (m : Fin 9) (s : State) : Out :=
  let w := w32 (rgetN s Reg.XP_TAKE_CTRL / 2 * 2 + 1)
  .next (hostWrite m Reg.XP_TAKE_CTRL w (takeCtrlWrite m w) s)
/-- PLANE_CUTOFF (R99, R102). -/
def execPlaneCutoff (p : Fin 2) (s : State) : Out :=
  .next (cycleEnd s (planeCutoff p (cycleBegin s)))
/-- FSYNC_FRAME_COMPLETE (R108). -/
def execFsyncFrameComplete (d : Fin 4096) (s : State) : Out := .next (fsyncComplete d s)
/-- FSYNC_HOLD_EXPIRE (R110). -/
def execFsyncHoldExpire (d : Fin 4096) (s : State) : Out := .next (fsyncExpire d s)

end Sys2Proof.Machine
end

