-- ==== Sys2Proof/Machine/SdiOut.lean ====
section
/-! DEFINITION. A destination reads a line and passes it on: the words of each lane of an SDI output with what its
transmitter rewrites, the picture that a flow, slot or layer takes (04_stream_crosspoint.md R84, R87; 05_serial_video.md
R125-R130, R134, R139). -/

namespace Sys2Proof.Machine

def laneSt (s : State) (v : Nat) : Lane := cget {} s.vl.lanes v
def setLane (v : Nat) (l : Lane) (s : State) : State := { s with vl := { s.vl with lanes := cset {} s.vl.lanes v l } }

/-! ### The words before the transmitter's own (R127) -/

/-- The streams of lane i of output d at line L: the lane's own line of an SDI source, cut or padded to the output's
horizontal timing; of any other source, the lane's part of the picture by TXDIV. A picture in a sampling that the mapping
does not allow on the lane (R116) has no words the spec states: they are a free value. -/
def baseStreams (d i : Nat) (lb : Bool) (h : LineHead) (L : Nat) (got : Bool × List (List Nat)) (s : State) : List (List Nat) × State :=
  let fmt := carriedFmt s d
  let samp := destSamp s d
  let n := laneStreams fmt lb
  let made (samp : Nat) (act : Nat → List Nat) : List (List Nat) :=
    makeStreams fmt samp lb h (((laneValues fmt samp (bitOf 3 (laneCfg s.img d)) act L)[i]?).getD [])
  let ws := (got.2[i]?).getD []
  if destBlack s d || (got.1 && ws.isEmpty) then (made (laneSamp fmt samp) (fun _ => blackWords fmt (laneSamp fmt samp)), s)
  else if got.1 then (splitStreams n ((ws ++ List.replicate (laneWords fmt) 0x040).take (laneWords fmt)), s)
  else if laneCarries fmt samp then (made samp (fun M => if M = L then got.2.headD [] else destAct s d M), s)
  else (splitStreams n (freeWords (laneWords fmt) s), spend s)

/-! ### What the transmitter rewrites (R128) -/

/-- Rewrite `n` words from place `at_` on. -/
def onWords (at_ n : Nat) (f : List Nat → List Nat) (line : List Nat) : List Nat :=
  line.take at_ ++ f ((line.drop at_).take n) ++ line.drop (at_ + n)
/-- The payload ID packet of stream j (R129): the source's is removed, the output's stands first. -/
def withPid (fmt : Nat) (lb : Bool) (n mode_ pid j : Nat) (line : List Nat) : List Nat :=
  if !(pidLine fmt lb n && pidStream fmt lb j) then line
  else onWords 8 (hancLen fmt lb) (fun sp =>
    let sp := dropPackets isPidPacket (blankWord 0 (isChroma fmt lb j)) sp
    let pk := pidPacketWords pid
    if mode_ = 3 then sp
    else if (spacePackets sp).all (fun e => decide (pk.length ≤ e.1)) then overwrite sp 0 pk
    else (placePacket pk sp).getD sp) line
/-- Audio packets of the groups that `emb` enables leave the stream (R128). -/
def dropAudio (fmt : Nat) (lb : Bool) (emb j : Nat) (line : List Nat) : List Nat :=
  onWords 8 (hancLen fmt lb) (dropPackets (fun did _ =>
    (List.range 4).any (fun g => bitOf g emb && (did == audioDid g || did == audioCtlDid g))) (blankWord 0 (isChroma fmt lb j))) line
/-- Audio data packets of waiting samples into a space: the space, the samples that found no room, the block numbers. -/
def placeAudio (clk : Nat) : List (Nat × List Nat) → List (Nat × Nat) → List Nat → List Nat × List (Nat × List Nat) × List (Nat × Nat)
  | [], dbn, sp => (sp, [], dbn)
  | (g, xs) :: t, dbn, sp =>
    let k := cget 0 dbn g % 255 + 1
    match placePacket (audioPacketWords g k clk xs) sp with
    | some sp => placeAudio clk t (cset 0 dbn g k) sp
    | none => let r := placeAudio clk t dbn sp; (r.1, (g, xs) :: r.2.1, r.2.2)
/-- DID, second word and user words of a record (Table 5.5). -/
def recPacket (bs : List Nat) : List Nat :=
  let w1 := leNat ((bs.drop 4).take 4)
  ancPacket (bitsOf 7 0 w1) (bitsOf 15 8 w1)
    ((List.range (bitsOf 23 16 w1)).map (fun i => leNat ((bs.drop (8 + 2 * i)).take 2) % 1024))
/-- A record into the space that its LINE, HANC and STREAM name (R139), none where it does not fit; an active line has no
vertical ancillary space. -/
def placeRec (fmt : Nat) (lb : Bool) (L : Nat) (bs : List Nat) (sts : List (List Nat)) : Option (List (List Nat)) :=
  let w0 := leNat (bs.take 4)
  let j := if bitOf 17 w0 then chromaAt fmt lb else lumaAt fmt lb
  let line := (sts[j]?).getD []
  let at_ := if bitOf 16 w0 then 8 else line.length - streamActive fmt lb
  let n := if bitOf 16 w0 then hancLen fmt lb else if activeLine (rasterOf fmt) L then 0 else streamActive fmt lb
  (placePacket (recPacket bs) ((line.drop at_).take n)).map (fun sp => sts.set j (overwrite line at_ sp))
/-- Records in order, and how many found no room. -/
def placeRecs (fmt : Nat) (lb : Bool) (L : Nat) (recs : List (List Nat)) (sts : List (List Nat)) : List (List Nat) × Nat :=
  recs.foldl (fun r bs => match placeRec fmt lb L bs r.1 with | some x => (x, r.2) | none => (r.1, r.2 + 1)) (sts, 0)
/-- The output that lane v belongs to. -/
def laneDest (g : Img) (v : Nat) : Nat := if laneTxq g v then 4 * (v / 4) else v
/-- The groups that lane v embeds: none in a cast's pause (18 Table 18.3). -/
def embMask (s : State) (v : Nat) : Nat :=
  if planeBlack s (destPlane s.img (laneDest s.img v)) then 0 else bitsOf 7 4 (laneSt s v).tx

/-- The lane whose SDI signal lane v of output d carries, none for another source or black. -/
def sourceLane (s : State) (d v : Nat) : Option Nat :=
  let x := curSrc s d
  if (destOf s d).path == .black || 512 ≤ x then none else some (if isQuad s.img x then x + (v - d) else x)
/-- Level B of a 3 Gb/s output: the source's own mapping, else TXLVL (R127). -/
def outLevelB (s : State) (d v : Nat) : Bool :=
  match sourceLane s d v with
  | some x => fbit s (Reg.VLANE_RX_STAT x) Fld.VLANE_RX_STAT_LEVEL_B
  | none => bitOf 4 (laneCfg s.img v)
/-- The words that lane i of output d emits for line L of what it carries, and what waits for the next. At level B an
SDI source's lines keep the data stream they came in; the lines of any other take the two streams in turn, from a frame
whose parity the lane counts (log entry 149). The spec does not say what clock phase audio data packets carry: a free
value, one for the packets of a line (DESIGN CHOICE, log entry 150). -/
def laneLine (d i L : Nat) (got : Bool × List (List Nat)) (s : State) : List Nat × State :=
  let fmt := carriedFmt s d
  let v := d + i
  let lb := outLevelB s d v
  let own := (sourceLane s d v).isSome && got.1 && !destBlack s d && !((got.2[i]?).getD []).isEmpty
  let s := if L = 1 then setLane v { laneSt s v with parity := !(laneSt s v).parity } s else s
  let made := lineHead fmt lb (laneSt s v).parity L
  let b := baseStreams d i lb made L got s
  let s := b.2
  let l := laneSt s v
  let h := if own then headOf fmt lb L (b.1.headD []) else made
  let sts := if !own && dualB fmt lb then b.1.map (withTrs fmt lb h) else b.1
  let emb := embMask s v
  let sts := (sts.zipIdx).map (fun e => dropAudio fmt lb emb e.2 (withPid fmt lb h.num l.pidOut.1 l.pidOut.2 e.2 e.1))
  let ctl := if audioCtlLine fmt lb h then (List.range 4).filter (fun g => bitOf g emb) else []
  let sts := sts.modify (lumaAt fmt lb) (onWords 8 (hancLen fmt lb) (fun sp =>
    ctl.foldl (fun sp g => (placePacket (audioCtlWords g 0) sp).getD sp) sp))
  let due := l.emb.filter (fun e => bitOf e.1 emb)
  let c := chromaAt fmt lb
  let sp := (((sts[c]?).getD []).drop 8).take (hancLen fmt lb)
  let a := if audioDataLine fmt lb h then placeAudio (freeValue s % 8192) due l.dbn sp else (sp, due, l.dbn)
  let s := if audioDataLine fmt lb h && !due.isEmpty then spend s else s
  let sts := sts.modify c (fun line => overwrite line 8 a.1)
  let recs := (laneSt s d).recs.filter (fun bs =>
    leNat (bs.take 2) == L && (!laneTxq s.img d || bitsOf 19 18 (leNat (bs.take 4)) == i))
  let p := placeRecs fmt lb L recs sts
  let s := countN s (Reg.VLANE_ANC_INS_NOROOM d) p.2
  let sts := (p.1.zipIdx).map (fun e => sealLine h (((cget [] l.sent h.stream)[e.2]?).getD []) e.1)
  (joinStreams sts, setLane v { laneSt s v with emb := a.2.1, dbn := a.2.2, sent := cset [] l.sent h.stream (sts.map lineTail) } s)

/-! ### A line is read (R84, R105) -/

/-- An SDI output drives its pins unless it is idle (05 R126). -/
def sdiIdle (s : State) (v : Nat) : Bool := fbit s (Reg.VLANE_TX_STAT v) Fld.VLANE_TX_STAT_IDLE
/-- The lanes of an SDI output carry line `at_` of what it reads in line time L of the plane; the frame signature of
each takes its words (16 R408). -/
def sdiLine (d L at_ : Nat) (got : Bool × List (List Nat)) (s : State) : State :=
  if sdiIdle s d then s
  else
    let x := lanesRead (fun i s => laneLine d i at_ got s) (List.range (if laneTxq s.img d then 4 else 1)) s
    let s := if pairInUse s then
        (x.1.zipIdx).foldl (fun s e =>
          let c := (e.1.flatMap (leBytes 2)).foldl crcByte (cget 0 s.xp.sdiCrc (d + e.2) ^^^ 0xFFFFFFFF) ^^^ 0xFFFFFFFF
          { s with xp := { s.xp with sdiCrc := cset 0 s.xp.sdiCrc (d + e.2) c } }) x.2
      else x.2
    (x.1.zipIdx).foldl (fun s e => emit s (.line (d + e.2) L e.1)) s
/-- A flow, slot or layer takes line L. -/
def pictureLine (d L : Nat) (got : Bool × List (List Nat)) (s : State) : State :=
  let ws := if got.1 then pictureWords (carriedFmt s d) (destSamp s d) (destOf s d).square (destOf s d).levelB got.2 else got.2.headD []
  let kept := cset [] s.xp.destLines d (cset [] (cget [] s.xp.destLines d) L ws)
  let how := if (destOf s d).path == .black then 0 else 1 + destSamp s d
  let mode := cset [] s.xp.destMode d (cset 0 (cget [] s.xp.destMode d) L how)
  emit { s with xp := { s.xp with destLines := kept, destMode := mode } } (.line d L ws)
/-- A destination reads line L and passes it on. From a FIFO the line keeps the number it has in its source, which the
output's vertical timing follows (R88). -/
def destLineRead (d L errs : Nat) (s : State) : State :=
  if !destNames s.img d || !running s then s
  else
    let r := destLine d L errs s
    let at_ := readNumber d L r.2
    let s := setDest d { destOf r.2 d with line := some ⟨at_, r.1.2.flatten⟩ } r.2
    if d < 512 then sdiLine d L at_ r.1 s else pictureLine d at_ r.1 s

end Sys2Proof.Machine
end

