-- ==== Sys2Proof/Machine/VlaneFamily.lean ====
section
/-! DEFINITION. SDI receivers and transmitters, ANC capture and insertion, DisplayPort links
(05_serial_video.md R114-R146; embedded audio stands with the audio matrix). -/

namespace Sys2Proof.Machine

def rxStat (v : Nat) (f : FieldRow) (n : Nat) (s : State) : State := fset s (Reg.VLANE_RX_STAT v) f n

/-! ### Link rate and structure (R116, R121) -/

/-- The next rate of the search, wrapping round (Table 5.4 step 2). -/
def nextRate (c : Nat) : Nat := if c = 0 ∨ 8 ≤ c then 1 else c + 1
/-! ### Receiver lock (R119-R121) -/

/-- PRESENT of the source a lane belongs to (R121). -/
def lanePresent (s : State) (v : Nat) : Bool :=
  rxRuns s.img v && rxState s v == 3 && !fbit s (Reg.VLANE_RX_STAT v) Fld.VLANE_RX_STAT_RATE_MISMATCH
    && !fbit s (Reg.VLANE_RX_STAT v) Fld.VLANE_RX_STAT_STRUCT_MISMATCH
def laneSource (g : Img) (v : Nat) : Nat := if laneRxq g v then 4 * (v / 4) else v
def refreshPresent (v : Nat) (s : State) : State :=
  let x := laneSource s.img v
  let on := (srcLanes s.img x).any (lanePresent s)
  let s := if lanePresent s v then s else setLaneWin v 0 0 (setLaneWin v 1 0 s)
  if on = srcPresent s x then refreshTimed x s else setPresent x on s
/-- The receiver starts running, at the expected link rate (Table 5.4 step 1). -/
def rxStart (v : Nat) (s : State) : State :=
  if rxRuns s.img v then
    rxStat v Fld.VLANE_RX_STAT_STATE 1 (setLane v { laneSt s v with rate := linkCode (rxExpect s.img v) } s)
  else s
/-- Search at the next rate. -/
def rxNext (v : Nat) (s : State) : State :=
  let s := setLane v { laneSt s v with rate := nextRate (laneSt s v).rate } s
  rxStat v Fld.VLANE_RX_STAT_RATE_DET 0 (rxStat v Fld.VLANE_RX_STAT_STATE 1 s)
/-- Leave LOCKED (step 6): counted, raised; the search begins at the rate just lost. RATE_DET, which Table 5.4 clears only
at step 2, clears at once; RATE_MISMATCH, STRUCT_MISMATCH, LEVEL_B and NOPROC, which the spec sets at lock, keep their values
(DESIGN CHOICE, log entry 131). -/
def rxLose (v : Nat) (s : State) : State :=
  if rxRuns s.img v && rxState s v == 3 then
    let s := rxStat v Fld.VLANE_RX_STAT_RATE_DET 0 (rxStat v Fld.VLANE_RX_STAT_STATE 1 s)
    let s := rxStat v Fld.VLANE_RX_STAT_AUD_ASYNC 0 s
    let s := setLane v { laneSt s v with tails := [], marks := [], fcDone := false } s
    raise Src.sdiLockLoss [v] (count (refreshPresent v s) (Reg.VLANE_RX_LOCK_LOSS v))
  else s
/-- NOPROC (R124): PID_VALID with an ID of another structure, or an expected format of raster 0x9. -/
def refreshNoproc (v : Nat) (s : State) : State :=
  let bad := fbit s (Reg.VLANE_RX_STAT v) Fld.VLANE_RX_STAT_PID_VALID && !pidProcessable (rgetN s (Reg.VLANE_RX_PID v))
  rxStat v Fld.VLANE_RX_STAT_NOPROC (b2n (bad || rasterOf (rxExpect s.img v) == 9)) s
/-- The data streams that the expected format's mapping carries: words of a line, lines, fielded. A 3 Gb/s signal of level
B carries four, of two 1.5 Gb/s signals (ST 425-1). -/
def expectStreams (fmt : Nat) (levelB : Bool) : List (Nat × Nat × Bool) :=
  let lines := rasterLines (rasterOf fmt)
  if levelB && linkMbps fmt == 2970 then
    List.replicate 4 (laneWords fmt / (if lane444 fmt then 4 else 2), lines, !lane444 fmt)
  else List.replicate (laneStreams fmt false) (streamWords fmt false, lines, fmtFielded fmt)
/-- Filters written since the last EAV come into force (R136). -/
def latchFilt (v : Nat) (s : State) : State :=
  let filt := (List.range 4).foldl (fun m n =>
    cset 0 (cset 0 m (2 * n) (rgetN s (Reg.VLANE_ANC_CAP_FILT v n))) (2 * n + 1) (rgetN s (Reg.VLANE_ANC_CAP_Q v n))) []
  setLane v { laneSt s v with filt } s
/-- The first consistent frame, whose EAVs have passed: LOCKED, each data stream compared with the expected format (step
4, R121). -/
def rxAligned (v : Nat) (streams : List (Nat × Nat × Bool)) (levelB : Bool) (s : State) : State :=
  if !(rxRuns s.img v && rxState s v == 2) then s
  else
    let e := rxExpect s.img v
    let rateBad := fget s (Reg.VLANE_RX_STAT v) Fld.VLANE_RX_STAT_RATE_DET != linkCode e
    let strBad := streams != expectStreams e levelB
    let s := rxStat v Fld.VLANE_RX_STAT_STATE 3 s
    let s := rxStat v Fld.VLANE_RX_STAT_RATE_MISMATCH (b2n rateBad) s
    let s := rxStat v Fld.VLANE_RX_STAT_STRUCT_MISMATCH (b2n strBad) s
    let s := if fbit s (Reg.VLANE_RX_STAT v) Fld.VLANE_RX_STAT_LEVEL_B == levelB then s
      else setLane v { laneSt s v with tails := [] } s
    let s := rxStat v Fld.VLANE_RX_STAT_LEVEL_B (b2n levelB) s
    let s := refreshPresent v (refreshNoproc v (latchFilt v s))
    if rateBad || strBad then raise Src.sdiRateMismatch [v] s else s

/-! ### Lines and payload ID (R122-R124) -/

/-- Data streams that interleave on the lane at the rate detected. -/
def rxStreams (s : State) (v : Nat) : Nat :=
  if 5 ≤ fget s (Reg.VLANE_RX_STAT v) Fld.VLANE_RX_STAT_RATE_DET then 8
  else if quadB (rxExpect s.img v) (fbit s (Reg.VLANE_RX_STAT v) Fld.VLANE_RX_STAT_LEVEL_B) then 4 else 2
/-- Mark packets for deletion: DID 0x180 at each position, and the checksum over DID to the last user word made anew;
the words of a packet stand as far apart as its stream's words in the multiplex of n. -/
def markPacket (n : Nat) (ws : List Nat) (pos : Nat) : List Nat :=
  let at_ (ws : List Nat) (i : Nat) : Nat := (ws[pos + n * i]?).getD 0
  let len := 3 + at_ ws 2 % 256
  let ws := ws.set pos 0x180
  let sum := ((List.range len).foldl (fun a i => a + at_ ws i % 512) 0) % 512
  ws.set (pos + n * len) (sum + (if sum < 256 then 512 else 0))
/-- The frame count advances at line 1 (R135), before the first packet on it. -/
def fcStep (v ln : Nat) (s : State) : State :=
  let l := laneSt s v
  if ln = 1 ∧ !l.fcDone then setLane v { l with fc := (l.fc + 1) % 256, fcDone := true } s else s
/-- The data stream that carries picture line `ln`, of the two that level B takes in turn. -/
def rxStream (s : State) (v ln : Nat) (words : List Nat) : Nat :=
  (headOf (rxExpect s.img v) (fbit s (Reg.VLANE_RX_STAT v) Fld.VLANE_RX_STAT_LEVEL_B) ln ((splitStreams 2 words).headD [])).stream
/-- Is a CRC word of a line wrong, bits [7:0] of each received CRC taken with `mask` inverted (R122; 20 R493)? Of the
first line whose line before the lane has not seen, whose words the spec does not state, that is a free value (log entry
132). -/
def lineErrored (s : State) (v ln : Nat) (words : List Nat) (mask : Nat) : Bool :=
  match cget [] (laneSt s v).tails (rxStream s v ln words) with
  | [] => freeValue s % 2 == 1
  | t => ((splitStreams (rxStreams s v) words).zipIdx).any (fun e => !crcGood mask ((t[e.2]?).getD []) e.1)
/-- The active words of a line, by data stream: the next line's CRC words cover them. -/
def keepTails (v ln : Nat) (words : List Nat) (s : State) : State :=
  let l := laneSt s v
  setLane v { l with tails := cset [] l.tails (rxStream s v ln words) ((splitStreams (rxStreams s v) words).map lineTail) } s
/-- A line ends, filters written since in force. In LOCKED: CRC words judged and counted, the stream passed to the
crosspoint. -/
def lineReceived (v ln : Nat) (words : List Nat) (s : State) : State :=
  if !rxRuns s.img v then s
  else if rxState s v ≠ 3 then (if rxState s v = 2 then latchFilt v (keepTails v ln words s) else s)
  else
    let s := fcStep v ln s
    let c := crcObserved 8 v (fun mask => !lineErrored s v ln words mask) s
    let s := keepTails v ln words (spend c.2)
    let l := laneSt s v
    let l := if ln = 1 then { l with frameErr := false, fcDone := false } else l
    let s := if c.1 then count s (Reg.VLANE_RX_CRC_LINES v) else s
    let s := if c.1 && !l.frameErr then raise Src.sdiCrc [v] (count s (Reg.VLANE_RX_CRC_FRAMES v)) else s
    let s := latchFilt v (setLane v { l with frameErr := l.frameErr || c.1, marks := [] } s)
    pushLine v ⟨ln, l.marks.foldl (markPacket (rxStreams s v)) words⟩ s
/-- A payload ID packet (R123): only a valid checksum counts. -/
def pidPacket (v : Nat) (pid : Word) (csOk : Bool) (s : State) : State :=
  if !(rxRuns s.img v && rxState s v == 3) || !csOk then s
  else
    let s := setLane v { laneSt s v with pidSeen := true } s
    refreshNoproc v (rxStat v Fld.VLANE_RX_STAT_PID_VALID 1 (rset s (Reg.VLANE_RX_PID v) pid))

/-! ### ANC capture (R135-R137) -/

/-- A captured or inserted packet as a record (Table 5.5). -/
def ancRecord (line : Nat) (hanc stream : Bool) (link : Nat) (ok : Bool) (did sdid fc : Nat) (udw : List Nat) : List Nat :=
  let w0 := line % 65536 + b2n hanc * 2 ^ 16 + b2n stream * 2 ^ 17 + link % 4 * 2 ^ 18 + b2n ok * 2 ^ 20
  let w1 := did % 256 + sdid % 256 * 256 + udw.length % 256 * 65536 + fc % 256 * 2 ^ 24
  let pair (i : Nat) : Nat := (udw[2 * i]?).getD 0 % 1024 + (udw[2 * i + 1]?).getD 0 % 1024 * 65536
  wordBytes ([w0, w1] ++ (List.range (cdiv udw.length 2)).map pair)
/-- The lowest filter of lane v that a packet matches: its number, control and queue. -/
def ancMatch (l : Lane) (did sdid : Nat) : Option (Nat × Nat × Nat) :=
  ((List.range 4).map (fun n => (n, cget 0 l.filt (2 * n), cget 0 l.filt (2 * n + 1)))).find? (fun e =>
    let f := e.2.1
    bitOf 31 f && (bitOf 29 f ||
      (bitsOf 7 0 f == did && ((bitsOf 15 8 f ^^^ sdid) &&& bitsOf 23 16 f) == 0)))
/-- A received ANC packet at word `pos` of the line being received. A filter whose queue, the reset value 0 included, the
QUEUE section does not give to ANC has none with room: its packets are dropped and counted (R137; DESIGN CHOICE, log entry
131). -/
def ancCapture (v line : Nat) (hanc stream ok : Bool) (did sdid pos : Nat) (udw : List Nat) (s : State) : State :=
  if !(rxRuns s.img v && rxState s v == 3) then s
  else
    let c := checkFails 10 v (!ok) s
    let s := fcStep v line c.2
    let l := laneSt s v
    match ancMatch l did sdid with
    | none => s
    | some (_, f, q) =>
      let q := q % 2 ^ 20
      let bs := ancRecord line hanc stream (if laneRxq s.img v then v % 4 else 0) (!c.1) did sdid l.fc udw
      let r := roomFor 3 q bs.length s
      let s := r.2
      if r.1 then
        putRecord q bs (if bitOf 30 f then setLane v { l with marks := l.marks ++ [pos] } s else s)
      else raise Src.ancCapDrop [v] (count s (Reg.VLANE_ANC_CAP_DROP v))

/-! ### Transmitters at the switch point (R126, R138, R139) -/

/-- Read up to n closed records of a queue; RD stands after the last. -/
def readRecords (q : Nat) : Nat → State → List (List Nat × Bool) × State
  | 0, s => ([], s)
  | n + 1, s => match takeRecord q s with
    | (none, s) => ([], s)
    | (some r, s) => let t := readRecords q n s; (r :: t.1, t.2)
def hasClosed (s : State) (q : Nat) : Bool := decide ((getQ s q).rd < qClosed (getQ s q)) && !(getQ s q).frozen
/-- An insertion channel takes its settings and its set (R138). What becomes of a REPEAT channel's set when the channel is
disabled or given another queue is not stated: the set is dropped, its records staying in the old queue (DESIGN CHOICE, log
entry 131). -/
def insSwitch (v n : Nat) (s : State) : State :=
  let l := laneSt s v
  let o : AncIns := cget {} l.ins n
  let ctrl := rgetN s (Reg.VLANE_ANC_INS_CTRL v n)
  let q := rgetN s (Reg.VLANE_ANC_INS_Q v n) % 2 ^ 20
  let was := bitOf 31 o.ctrl && !o.set.isEmpty
  let s := if was && !bitOf 30 o.ctrl then queueRelease o.q s else s
  let put (set : List (List Nat × Bool)) (s : State) : State :=
    setLane v { laneSt s v with ins := cset {} (laneSt s v).ins n { ctrl, q, set } } s
  if !bitOf 31 ctrl then put [] s
  else if !bitOf 30 ctrl then (let r := readRecords q 32 s; put r.1 r.2)
  else if was && bitOf 30 o.ctrl && o.q == q then
    (if hasClosed s q then (let r := readRecords q 32 (queueMark q (queueRelease q s)); put r.1 r.2)
     else (let r := readRecords q o.set.length (queueRewind q s); put r.1 r.2))
  else (let r := readRecords q 32 (queueMark q s); put r.1 r.2)
/-- A record that cannot be inserted in a format: poisoned or truncated, on a line that does not exist, or shorter than its
DC asks for (R139; 08 R214). -/
def recBad (fmt : Nat) (e : List Nat × Bool) : Bool :=
  let line := leNat (e.1.take 2)
  e.2 || line == 0 || decide (rasterLines (rasterOf fmt) < line)
    || decide (e.1.length < 8 + 4 * cdiv (bitsOf 23 16 (leNat ((e.1.drop 4).take 4))) 2)
/-- The records of the frame that follows, in channel and queue order; those that are not inserted are counted (R139). -/
def laneRecords (v : Nat) (s : State) : State :=
  let fmt := destFmt s.img v
  let all := (List.range 8).flatMap (fun n => (cget {} (laneSt s v).ins n : AncIns).set)
  let good := (all.filter (fun e => !recBad fmt e)).map (·.1)
  setLane v { laneSt s v with recs := good } (countN s (Reg.VLANE_ANC_INS_BADREC v) (all.filter (recBad fmt)).length)
/-- Lane v at the switch point of its plane: EN, PID_MODE and EMB take effect; insertion channels read their sets. -/
def laneSwitch (v : Nat) (s : State) : State :=
  let l := laneSt s v
  let s := setLane v { l with tx := rgetN s (Reg.VLANE_TX_CTRL v) } s
  let en := bitOf 0 (laneSt s (laneDest s.img v)).tx
  let s := fset s (Reg.VLANE_TX_STAT v) Fld.VLANE_TX_STAT_IDLE (b2n (!en))
  if destFmt s.img v = 0 then s else laneRecords v ((List.range 8).foldl (fun s n => insSwitch v n s) s)
/-- Running transmitters of plane p, lane by lane. -/
def planeLanes (g : Img) (p : Nat) : List Nat :=
  (List.range 512).filter (fun v => txRuns g v && destPlane g (laneDest g v) == p)
def vlaneSwitch (p : Nat) (s : State) : State := (planeLanes s.img p).foldl (fun s v => laneSwitch v s) s
/-- PID_MODE and the payload ID of lane v for a frame (R129, R130): PASS without a payload ID ever received, and under
black, acts as SYNTH; PASS and SYNTH set the link number on a quad-link output. -/
def lanePid (s : State) (v mode_ : Nat) : Nat × Nat :=
  let d := laneDest s.img v
  let link (pid : Nat) : Nat := if laneTxq s.img v then pidLink pid (v - d) else pid
  let fmt := carriedFmt s d
  let samp := if destBlack s d then laneSamp fmt (destSamp s d) else destSamp s d
  let synth : Nat × Nat := (1, link (synthPid fmt samp (outLevelB s d v)))
  if mode_ = 2 then (2, rgetN s (Reg.VLANE_TX_PID v))
  else if mode_ = 3 then (3, 0)
  else if mode_ = 1 then synth
  else match sourceLane s d v with
    | some x => if (laneSt s x).pidSeen then (0, link (rgetN s (Reg.VLANE_RX_PID x))) else synth
    | none => synth
/-- What lane v adds to the frame that begins at the switching line (R127-R130). -/
def sdiFrame (v : Nat) (s : State) : State :=
  if sdiIdle s v then s
  else
    let d := laneDest s.img v
    let l := laneSt s v
    let pid := lanePid s v (bitsOf 9 8 l.tx)
    emit (setLane v { l with pidOut := pid } s) (.sdiFrame v pid.1 pid.2 (bitsOf 7 4 l.tx) (outLevelB s d v) l.recs)
def sdiFrames (p : Nat) (s : State) : State := (planeLanes s.img p).foldl (fun s v => sdiFrame v s) s

/-! ### DisplayPort (R140-R145) -/

def dpSt (s : State) (k : Nat) : DpLink := cget {} s.vl.dp k
def setDp (k : Nat) (l : DpLink) (s : State) : State := { s with vl := { s.vl with dp := cset {} s.vl.dp k l } }
def dpStat (k : Nat) (f : FieldRow) (v : Nat) (s : State) : State := fset s (Reg.VLANE_DP_STAT k) f v
def dpState (s : State) (k : Nat) : Nat := fget s (Reg.VLANE_DP_STAT k) Fld.VLANE_DP_STAT_STATE
def dpHpd (s : State) (k : Nat) : Bool := fbit s (Reg.VLANE_DP_STAT k) Fld.VLANE_DP_STAT_HPD
def dpEn (s : State) (k : Nat) : Bool := fbit s (Reg.VLANE_DP_CTRL k) Fld.VLANE_DP_CTRL_EN
/-- The host's waiting transaction leaves once the link's own work is done (R145); in OFF the AUX channel is idle. -/
def auxStart (k : Nat) (s : State) : State :=
  let l := dpSt s k
  match l.host with
  | some (op, addr, len, data) =>
    if l.sent || l.reading || dpState s k == 2 || dpState s k == 0 then s
    else emit (setDp k { l with sent := true } s) (.aux k op addr len data)
  | none => s
/-- The link's own reads: of DPCD 0x00000-0x0000F in TRAIN, of 0x00202-0x00207 on an IRQ_HPD. Each waits for a host
transaction that has been sent. -/
def ownStart (k : Nat) (s : State) : State :=
  let l := dpSt s k
  if l.sent then s
  else if l.capWant then emit (setDp k { l with capWant := false, capRead := true, readRetries := 0 } s) (.aux k 0 0 16 [])
  else if l.irq then emit (setDp k { l with irq := false, reading := true, readRetries := 0 } s) (.aux k 0 0x202 6 [])
  else s
/-- Enter a state; a link that is not ACTIVE shows no rate and no depth (Table 5.11). -/
def dpEnter (k st : Nat) (s : State) : State :=
  let s := dpStat k Fld.VLANE_DP_STAT_STATE st s
  let s := if st = 3 then s else dpStat k Fld.VLANE_DP_STAT_RATE 0 (dpStat k Fld.VLANE_DP_STAT_BPC 0 s)
  let s := if st = 4 then s else dpStat k Fld.VLANE_DP_STAT_FAIL_REASON 0 s
  let s := if st = 3 then s
    else setDp k { dpSt s k with irq := false, reading := false, capWant := false, capRead := false } s
  auxStart k s
/-- TRAIN: its entry from ACTIVE is counted; the link reads the sink's capabilities. -/
def dpTrain (k : Nat) (s : State) : State :=
  let s := dpEnter k 2 (if dpState s k = 3 then count s (Reg.VLANE_DP_RETRAINS k) else s)
  ownStart k (setDp k { dpSt s k with capWant := true } s)
def dpFail (k reason : Nat) (s : State) : State :=
  raise Src.dpLinkFail [k, reason] (dpStat k Fld.VLANE_DP_STAT_FAIL_REASON reason (dpEnter k 4 s))
/-- Out of OFF in service: WAIT_HPD, and TRAIN at once where HPD is high. -/
def dpEnable (k : Nat) (s : State) : State :=
  if !dpPers s.img || !inService s || dpState s k != 0 then s
  else
    let s := dpStat k Fld.VLANE_DP_STAT_NOVIDEO (b2n (dpHead s.img k).isNone) (dpEnter k 1 s)
    if dpHpd s k then dpTrain k s else s
/-- Pixel clock of a head's output format in kHz times 1,001 (R141), 0 with no head. -/
def dpPixel (g : Img) (k : Nat) : Nat := match dpHead g k with
  | none => 0
  | some h =>
    let f := srcFmt g (1536 + h)
    let base := if rasterOf f ≤ 5 ∨ (rasterOf f = 6 ∧ rateOf f ≤ 5) then 74250
      else if rasterOf f = 6 then 148500 else if rateOf f ≤ 5 then 297000 else 594000
    if rateDen (rateOf f) = 1001 then base * 1000 else base * 1001
/-- The depth of R144: 0 where none fits. -/
def dpDepth (g : Img) (k rate : Nat) : Nat :=
  let cap : Nat := (if rate = 0x1E then 25920000 else 17280000) * 1001
  let fits (b : Nat) : Bool := decide (b ≤ dpBpc g k) && decide (dpPixel g k * 3 * b ≤ cap)
  if fits 10 then 10 else if fits 8 then 8 else if fits 6 then 6 else 0
/-- Training ends. `answered`: the sink answered the capability read, with a highest rate and a lane count; `ok`: training
at the chosen rate succeeded; `okLow`: at HBR2, tried once where HBR3 failed. -/
def dpTrainDone (k : Nat) (answered : Bool) (sinkRate lanes : Nat) (ok okLow : Bool) (s : State) : State :=
  if !dpPers s.img || dpState s k != 2 then s
  else if !answered then dpFail k 4 s
  else if lanes < 4 then dpFail k 1 s
  else
    let r := min (dpMaxRate s.img k) sinkRate
    let r := if 0x1E ≤ r then 0x1E else if 0x14 ≤ r then 0x14 else 0
    let got := if r = 0 then 0 else if ok then r else if r = 0x1E && okLow then 0x14 else 0
    if got = 0 then dpFail k 2 s
    else
      let b := dpDepth s.img k got
      if b = 0 then dpFail k 3 s
      else
        let s := dpStat k Fld.VLANE_DP_STAT_RATE got (dpStat k Fld.VLANE_DP_STAT_BPC b (dpStat k Fld.VLANE_DP_STAT_STATE 3 s))
        let s := if (dpHead s.img k).isNone then emit s (.dpIdle k) else s
        auxStart k s
/-- HPD goes low: the timers start (R142). -/
def hpdFall (k : Nat) (s : State) : State :=
  if !dpPers s.img then s
  else setDp k { dpSt s k with low := true } (dpStat k Fld.VLANE_DP_STAT_HPD 0 (setFiltered (11 + k) false s))
/-- HPD returns high after `ns`: a glitch up to 250 us, an IRQ_HPD up to 2 ms; after an unplug, training. -/
def hpdRise (k ns : Nat) (s : State) : State :=
  if !dpPers s.img then s
  else
    let l := dpSt s k
    let s := dpStat k Fld.VLANE_DP_STAT_HPD 1 (setFiltered (11 + k) true s)
    let s := setDp k { l with low := false } s
    if dpState s k = 1 then dpTrain k s
    else if l.low && 250000 < ns then
      if dpState s k = 3 then ownStart k (setDp k { dpSt s k with irq := true } s)
      else if dpState s k = 4 then dpTrain k s else s
    else s
/-- HPD has been low for 2 ms: an unplug. -/
def hpdUnplug (k : Nat) (s : State) : State :=
  if !dpPers s.img || !(dpSt s k).low then s
  else
    let s := setDp k { dpSt s k with low := false } s
    if dpState s k = 0 then s else dpEnter k 1 s
/-- A write of VLANE_DP_CTRL: EN = 0 leads to OFF, EN = 1 out of it, RETRAIN to TRAIN from ACTIVE or FAIL (Table 5.6). -/
def dpCtrlWrite (k : Nat) (w : Word) (s : State) : State :=
  let s := plainWrite (Reg.VLANE_DP_CTRL k) w s
  if !dpEn s k then (if dpState s k = 0 then s else dpEnter k 0 s)
  else if dpState s k = 0 then dpEnable k s
  else if bitOf 1 w.toNat && (dpState s k = 3 || dpState s k = 4) then dpTrain k s else s
/-- A host transaction ends with a REPLY code. -/
def auxDone (k reply : Nat) (s : State) : State :=
  let a := Reg.VLANE_DP_AUX_STAT k
  let s := setDp k { dpSt s k with host := none, sent := false, retries := 0 } s
  ownStart k (fset (fset (fset s a Fld.VLANE_DP_AUX_STAT_BUSY 0) a Fld.VLANE_DP_AUX_STAT_DONE 1) a
    Fld.VLANE_DP_AUX_STAT_REPLY reply)
/-- A write of VLANE_DP_AUX_CMD (R145). While BUSY, or with the AUX channel idle in OFF, a GO starts nothing. -/
def auxCmdWrite (m k : Nat) (w : Nat) (s : State) : State :=
  let a := Reg.VLANE_DP_AUX_CMD k
  let op := bitsOf 29 28 w
  let len := bitsOf 27 24 w + 1
  let addr := bitsOf 19 0 w
  if !bitOf 31 w then s
  else if op = 1 ∧ addr ≤ 0x1FF ∧ 0x100 < addr + len then refuse m 1 0x0100001F a s
  else if (dpSt s k).host.isSome || dpState s k == 0 then s
  else
    let data := ((List.range 4).flatMap (fun i => leBytes 4 (rgetN s (Reg.VLANE_DP_AUX_DATA k i)))).take len
    let s := setDp k { dpSt s k with host := some (op, addr, len, if op % 2 = 1 then data else []), sent := false, retries := 0 } s
    auxStart k (fset s (Reg.VLANE_DP_AUX_STAT k) Fld.VLANE_DP_AUX_STAT_BUSY 1)
/-- Do the sink's status bytes report every lane locked and aligned? -/
def sinkAligned (d : List Nat) : Bool :=
  bitsOf 6 4 (d.headD 0) == 7 && bitsOf 2 0 (d.headD 0) == 7 && bitsOf 6 4 ((d.drop 1).headD 0) == 7
    && bitsOf 2 0 ((d.drop 1).headD 0) == 7 && bitOf 0 ((d.drop 2).headD 0)
/-- The sink replies: ACK (0) with data, NACK (1), DEFER (2). DEFER is answered by up to seven retries; a capability read
that is then still deferred, or refused, counts as unanswered. In OFF the AUX channel is idle: a transaction that was under
way ends with the reply that arrives, DEFER without a retry (R143). -/
def auxReply (k reply : Nat) (data : List Nat) (s : State) : State :=
  let l := dpSt s k
  if l.capRead then
    if reply = 2 ∧ l.readRetries < 7 then emit (setDp k { l with readRetries := l.readRetries + 1 } s) (.aux k 0 0 16 [])
    else if reply = 0 then setDp k { l with capRead := false } s
    else dpFail k 4 s
  else if l.reading then
    if reply = 2 ∧ l.readRetries < 7 then
      emit (setDp k { l with readRetries := l.readRetries + 1 } s) (.aux k 0 0x202 6 [])
    else
      let s := setDp k { l with reading := false } s
      if reply = 0 ∧ !sinkAligned data then dpTrain k s else auxStart k s
  else match l.host with
    | some (op, addr, len, d) =>
      if !l.sent then s
      else if reply = 2 then
        (if l.retries < 7 ∧ dpState s k ≠ 0 then emit (setDp k { l with retries := l.retries + 1 } s) (.aux k op addr len d)
         else auxDone k 2 s)
      else if reply = 1 then auxDone k 1 s
      else
        let s := if op % 2 = 0 then
            (List.range 4).foldl (fun s i =>
              if 4 * i < len then rsetN s (Reg.VLANE_DP_AUX_DATA k i) (leNat (((data.take len).drop (4 * i)).take 4)) else s) s
          else s
        auxDone k 0 s
    | none => s
/-- No reply within 400 us: a host transaction in flight ends with reply 11, whatever the link's state; the link's own
status read is given up; in TRAIN the sink counts as unanswered. -/
def auxTimeout (k : Nat) (s : State) : State :=
  let l := dpSt s k
  if l.sent then auxDone k 3 s
  else if l.reading then auxStart k (setDp k { l with reading := false } s)
  else if dpState s k = 2 then dpFail k 4 s
  else s

/-! ### Register writes -/

/-- Registers of the personality that lane group 31 does not have: they read 0, and writes are refused (R140). -/
def vlaneAbsent (g : Img) (a : Nat) : Bool :=
  let o := a - Base.vlaneBase
  if o < 0x20000 then dpPers g && decide (496 ≤ o / 0x100) else !dpPers g
/-- A write to a VLANE register at offset a (Registers; R137). -/
def vlaneWrite (m a : Nat) (w : Word) (s : State) : State :=
  let o := a - Base.vlaneBase
  if vlaneAbsent s.img a then refuse m 1 0x0100001F a s
  else if o < 0x20000 then
    let r := o % 0x100
    if 0x20 ≤ r ∧ r < 0x40 ∧ r % 8 = 4 then queueRegWrite m 3 a w s else plainWrite a w s
  else
    let k := (o - 0x20000) / 0x40
    let r := (o - 0x20000) % 0x40
    if r = 0 then dpCtrlWrite k w s
    else if r = 8 then auxCmdWrite m k w.toNat s
    else plainWrite a w s

/-! ### Meanings -/

/-- VLANE_RATE_SEARCH_TIMEOUT (R120 Table 5.4 step 2). -/
def execVlaneRateSearchTimeout (v : Fin 512) (s : State) : Out :=
  .next (if rxRuns s.img v && rxState s v == 1 then rxNext v s else s)
/-- VLANE_CDR_LOCK (step 3). -/
def execVlaneCdrLock (v : Fin 512) (s : State) : Out :=
  .next (if rxRuns s.img v && rxState s v == 1 then
    rxStat v Fld.VLANE_RX_STAT_RATE_DET (laneSt s v).rate (rxStat v Fld.VLANE_RX_STAT_STATE 2 s) else s)
/-- VLANE_FRAME_ALIGNED: of each data stream the words per line, lines, whether it is fielded; level B (step 4). -/
def execVlaneFrameAligned (v : Fin 512) (streams : List (Nat × Nat × Bool)) (levelB : Bool) (s : State) : Out :=
  .next (rxAligned v streams levelB s)
/-- VLANE_ALIGN_TIMEOUT (step 5). -/
def execVlaneAlignTimeout (v : Fin 512) (s : State) : Out :=
  .next (if rxRuns s.img v && rxState s v == 2 then rxNext v s else s)
/-- VLANE_CDR_LOSS (step 6). -/
def execVlaneCdrLoss (v : Fin 512) (s : State) : Out := .next (rxLose v s)
/-- VLANE_EAV_MISSING: eight lines without a valid EAV (step 6). -/
def execVlaneEavMissing (v : Fin 512) (s : State) : Out := .next (rxLose v s)
/-- VLANE_LINE_RECEIVED (R122). -/
def execVlaneLineReceived (v : Fin 512) (line : Nat) (words : List Nat) (s : State) : Out :=
  .next (lineReceived v line words s)
/-- VLANE_PID_PACKET (R123, R124). -/
def execVlanePidPacket (v : Fin 512) (pid : Word) (csOk : Bool) (s : State) : Out :=
  .next (pidPacket v pid csOk s)
/-- VLANE_PID_TIMEOUT: three frames without a valid payload ID (R123, R124). -/
def execVlanePidTimeout (v : Fin 512) (s : State) : Out :=
  .next (if rxRuns s.img v then refreshNoproc v (rxStat v Fld.VLANE_RX_STAT_PID_VALID 0 s) else s)
/-- ANC_PACKET_CAPTURE (R136, R137). -/
def execAncPacketCapture (v : Fin 512) (line : Nat) (hanc stream ok : Bool) (did sdid : BitVec 8) (pos : Nat)
    (udw : List (BitVec 10)) (s : State) : Out :=
  .next (ancCapture v line hanc stream ok did.toNat sdid.toNat pos ((udw.take 255).map (·.toNat)) s)
/-- DP_HPD_RISE: HPD returns high, `ns` after it fell (R142). -/
def execDpHpdRise (k : Fin 4) (ns : Nat) (s : State) : Out := .next (hpdRise k ns s)
/-- DP_HPD_FALL (R142). -/
def execDpHpdFall (k : Fin 4) (s : State) : Out := .next (hpdFall k s)
/-- DP_UNPLUG_TIMEOUT (R142). -/
def execDpUnplugTimeout (k : Fin 4) (s : State) : Out := .next (hpdUnplug k s)
/-- DP_TRAIN_DONE (R143, R144). -/
def execDpTrainDone (k : Fin 4) (answered : Bool) (sinkRate lanes : Nat) (ok okLow : Bool) (s : State) : Out :=
  .next (dpTrainDone k answered sinkRate lanes ok okLow s)
/-- DP_RETRAIN: a write of RETRAIN, EN keeping its value (R143). -/
def execDpRetrain (m : Fin 9) (k : Fin 4) (s : State) : Out :=
  let w := w32 (rgetN s (Reg.VLANE_DP_CTRL k) % 2 + 2)
  .next (hostWrite m (Reg.VLANE_DP_CTRL k) w (vlaneWrite m (Reg.VLANE_DP_CTRL k) w) s)
/-- DP_LINK_ENABLE_WRITE (R143). -/
def execDpLinkEnableWrite (m : Fin 9) (k : Fin 4) (en : Bool) (s : State) : Out :=
  .next (hostWrite m (Reg.VLANE_DP_CTRL k) (w32 (b2n en)) (vlaneWrite m (Reg.VLANE_DP_CTRL k) (w32 (b2n en))) s)
/-- The command word of an AUX transaction of `len1` + 1 bytes. -/
def auxWord (op : Nat) (addr : BitVec 20) (len1 : Fin 16) : Word :=
  w32 (2 ^ 31 + op * 2 ^ 28 + len1 * 2 ^ 24 + addr.toNat)
/-- DP_AUX_NATIVE_READ (R145). -/
def execDpAuxNativeRead (m : Fin 9) (k : Fin 4) (addr : BitVec 20) (len1 : Fin 16) (s : State) : Out :=
  .next (hostWrite m (Reg.VLANE_DP_AUX_CMD k) (auxWord 0 addr len1)
    (vlaneWrite m (Reg.VLANE_DP_AUX_CMD k) (auxWord 0 addr len1)) s)
/-- DP_AUX_NATIVE_WRITE (R145). -/
def execDpAuxNativeWrite (m : Fin 9) (k : Fin 4) (addr : BitVec 20) (len1 : Fin 16) (s : State) : Out :=
  .next (hostWrite m (Reg.VLANE_DP_AUX_CMD k) (auxWord 1 addr len1)
    (vlaneWrite m (Reg.VLANE_DP_AUX_CMD k) (auxWord 1 addr len1)) s)
/-- DP_AUX_I2C_READ (R145). -/
def execDpAuxI2cRead (m : Fin 9) (k : Fin 4) (addr : BitVec 20) (len1 : Fin 16) (s : State) : Out :=
  .next (hostWrite m (Reg.VLANE_DP_AUX_CMD k) (auxWord 2 addr len1)
    (vlaneWrite m (Reg.VLANE_DP_AUX_CMD k) (auxWord 2 addr len1)) s)
/-- DP_AUX_I2C_WRITE (R145). -/
def execDpAuxI2cWrite (m : Fin 9) (k : Fin 4) (addr : BitVec 20) (len1 : Fin 16) (s : State) : Out :=
  .next (hostWrite m (Reg.VLANE_DP_AUX_CMD k) (auxWord 3 addr len1)
    (vlaneWrite m (Reg.VLANE_DP_AUX_CMD k) (auxWord 3 addr len1)) s)
/-- DP_AUX_REPLY: ACK (0) with data, NACK (1) or DEFER (2) (R145). -/
def execDpAuxReply (k : Fin 4) (reply : Fin 3) (data : List Byte) (s : State) : Out :=
  .next (auxReply k reply (data.map (·.toNat)) s)
/-- DP_AUX_TIMEOUT (R145). -/
def execDpAuxTimeout (k : Fin 4) (s : State) : Out := .next (auxTimeout k s)

end Sys2Proof.Machine
end

