-- ==== Sys2Proof/Machine/FlowFamily.lean ====
section
/-! DEFINITION. The flow engine: leg contexts, claiming, dejitter, video, audio and ANC flows, essence groups
(07_media_flows.md R167-R192). The layouts of RTP, ST 2110, ST 2022-6 and RFC 8331 are those of the standards the
chapter names (log entry 20). -/

namespace Sys2Proof.Machine

/-! ### Legs (R167, R169, R171-R173) -/

def legCtx (s : State) (l : Nat) : List Nat := cget [] s.flow.legs l
def cw (ctx : List Nat) (i : Nat) : Nat := (ctx[i]?).getD 0
def ctxEn (c : List Nat) : Bool := bitOf 0 (cw c 0)
def ctxMac (c : List Nat) : Nat := bitsOf 6 1 (cw c 0)
def ctxTagged (c : List Nat) : Bool := bitOf 7 (cw c 0)
def ctxVid (c : List Nat) : Nat := bitsOf 11 0 (cw c 1)
def ctxDstPort (c : List Nat) : Nat := bitsOf 31 16 (cw c 4)
def ctxPt (c : List Nat) : Nat := bitsOf 22 16 (cw c 7)
/-- Leg r of flow f of kind k. -/
def legOf (g : Img) (k f r : Nat) : Nat := kindBase g k + kindLegs g k * f + r
/-- Kind, flow and path or replica of a leg. -/
def legIs (g : Img) (l : Nat) : Option (Nat × Nat × Nat) :=
  ((List.range 6).find? (fun k => decide (kindBase g k ≤ l) &&
    decide (l < kindBase g k + kindLegs g k * kindFlows g k))).map (fun k =>
      (k, (l - kindBase g k) / kindLegs g k, (l - kindBase g k) % kindLegs g k))
def kindRx (k : Nat) : Bool := k % 2 == 0
/-- The key no two enabled receive legs share (R173): MAC, DST_IP, DST_PORT, TAGGED, VID. -/
def sameKey (a b : List Nat) : Bool :=
  ctxMac a == ctxMac b && cw a 3 == cw b 3 && ctxDstPort a == ctxDstPort b && ctxTagged a == ctxTagged b
    && ctxVid a == ctxVid b
/-- The bits of word i of leg l's context that are not reserved (Table 7.3). -/
def legMask (g : Img) (l i : Nat) : Nat :=
  let rx := (legIs g l).map (fun e => kindRx e.1)
  if i = 0 then (if rx = some false then 0xFF else 0x1FF)
  else if i = 1 then 0xFF3F7FFF
  else if i = 5 then (if rx = some false then 0 else 0xFFFFFFFF)
  else if i = 6 then (if rx = some true then 0 else 0xFFFFFFFF)
  else if i = 7 then (if rx = some true then 0x7F0000 else 0x7FFFFF)
  else 0xFFFFFFFF
/-- A write of word 0 of a leg context (R172, R173). -/
def legCommit (m l : Nat) (w : Word) (s : State) : State :=
  let a := Reg.FLOW_LEG_CTX l 0
  let w0 := w.toNat &&& legMask s.img l 0
  let c := w0 :: (List.range 7).map (fun i => rgetN s (Reg.FLOW_LEG_CTX l (i + 1)))
  match legIs s.img l with
  | none => refuse m 2 (resId 0x11 l) a s
  | some (k, _, _) =>
    if !portFormed s.img (ctxMac c) then refuse m 3 (resId 0x11 l) a s
    else if ctxPt c < 96 then refuse m 2 (resId 0x11 l) a s
    else
      let clash := s.flow.legs.find? (fun e => e.1 != l && ctxEn e.2 && sameKey e.2 c &&
        (match legIs s.img e.1 with | some (k', _, _) => kindRx k' | none => false))
      match kindRx k && ctxEn c, clash with
      | true, some e => refuse m 1 (resId 0x11 e.1) a s
      | _, _ => rsetN { s with flow := { s.flow with legs := cset [] s.flow.legs l c } } a w0

/-! ### Flows in the state -/

def rxFlow (s : State) (k f : Nat) : RxFlow :=
  cget {} (if k = 0 then s.flow.vrx else if k = 2 then s.flow.arx else s.flow.nrx) f
def setRx (k f : Nat) (v : RxFlow) (s : State) : State :=
  { s with flow := if k = 0 then { s.flow with vrx := cset {} s.flow.vrx f v }
    else if k = 2 then { s.flow with arx := cset {} s.flow.arx f v }
    else { s.flow with nrx := cset {} s.flow.nrx f v } }
def txFlow (s : State) (k f : Nat) : TxFlow :=
  cget {} (if k = 1 then s.flow.vtx else if k = 3 then s.flow.atx else s.flow.ntx) f
def setTx (k f : Nat) (v : TxFlow) (s : State) : State :=
  { s with flow := if k = 1 then { s.flow with vtx := cset {} s.flow.vtx f v }
    else if k = 3 then { s.flow with atx := cset {} s.flow.atx f v }
    else { s.flow with ntx := cset {} s.flow.ntx f v } }
def flowExists (s : State) (k f : Nat) : Bool := decide (f < kindFlows s.img k)
/-- CFG, DELAY and the essence group of a receive flow. -/
def rxCfgReg (k f : Nat) : Nat :=
  if k = 0 then Reg.FLOW_VRX_CFG f else if k = 2 then Reg.FLOW_ARX_CFG f else Reg.FLOW_NRX_CFG f
def rxDelayReg (k f : Nat) : Nat :=
  if k = 0 then Reg.FLOW_VRX_DELAY f else if k = 2 then Reg.FLOW_ARX_DELAY f else Reg.FLOW_NRX_DELAY f
def rxGroup (g : Img) (k f : Nat) : Option Nat :=
  let v := if k = 0 then grpVrx g f else if k = 2 then grpArx g f else grpNrx g f
  if v = 0xFFFF then none else some v
/-- DELAY of a flow: its own, or its essence group's (R179, R191). -/
def delayOf (s : State) (k f : Nat) : Nat :=
  match rxGroup s.img k f with
  | some g => rgetN s (Reg.FLOW_GRP_DELAY g)
  | none => rgetN s (rxDelayReg k f)
/-- Settings written before take effect at the flow's next frame or packet time (Registers). -/
def rxLatch (k f : Nat) (s : State) : State :=
  setRx k f { rxFlow s k f with cfg := rgetN s (rxCfgReg k f), delay := delayOf s k f } s
/-- CFG in force: what the register holds until the flow has read its first frame or sample. -/
def rxCfg (s : State) (k f : Nat) : Nat :=
  if (rxFlow s k f).cur.isNone then rgetN s (rxCfgReg k f) else (rxFlow s k f).cfg
/-- TK field of a CFG: output time (0, and 3), TK_A, TK_B. -/
def tkField (k cfg : Nat) : Nat :=
  let v := if k = 0 ∨ k = 1 then bitsOf 5 4 cfg else if k = 2 ∨ k = 3 then bitsOf 31 30 cfg else bitsOf 21 20 cfg
  if v = 3 then 0 else v
def mergeOf (k cfg : Nat) : Bool :=
  if k = 0 then bitOf 6 cfg else if k = 2 then bitOf 3 cfg else false
/-- Time in ns on the timekeeper of a TK code. -/
def flowNow (s : State) (tk : Nat) : Nat := if tk = 0 then otNs s else tkNs s (tk - 1)
/-- The time clock runs until that time. -/
def advanceTo (tk ns : Nat) (s : State) : State :=
  advanceTicks (if tk = 0 then ticksToOt s ns else ticksTo s (tk - 1) ns) s
/-- The media clock at a time, its time in ns, and the extended count nearest the present that equals an RTP timestamp
modulo 2^32 (R178). -/
def mediaClock (rate ns : Nat) : Nat := ns * rate / 1000000000
def mediaNs (rate k : Nat) : Nat := k * 1000000000 / rate
/-- Media clock of a video flow: 90 kHz, 27 MHz under ST 2022-6. -/
def videoRate (cfg : Nat) : Nat := if cfg % 4 = 1 then 27000000 else 90000
def mediaExtend (rate ns ts : Nat) : Nat :=
  let k := mediaClock rate ns
  ((k : Int) + sext 32 ((ts + 2 ^ 32 - k % 2 ^ 32) % 2 ^ 32)).toNat

/-! ### Parsing (R174, R176, R177) -/

def beN : List Nat → Nat := fun bs => bs.foldl (fun a b => 256 * a + b) 0
def be (bs : List Nat) (off n : Nat) : Nat := beN ((bs.drop off).take n)
/-- n bytes of a number, highest first. -/
def beBytes (n v : Nat) : List Nat := (leBytes n v).reverse
/-- Ones' complement sum of 16-bit words. -/
def sum16 : List Nat → Nat
  | [] => 0
  | [a] => 256 * a
  | a :: b :: t => let x := 256 * a + b + sum16 t; if 65536 ≤ x then x - 65535 else x
/-- 10-bit values packed most significant bit first, and back. -/
def unpack10 : List Nat → List Nat
  | a :: b :: c :: d :: e :: t =>
    [a * 4 + b / 64, b % 64 * 16 + c / 16, c % 16 * 64 + d / 4, d % 4 * 256 + e] ++ unpack10 t
  | _ => []
def pack10 : List Nat → List Nat
  | a :: b :: c :: d :: t =>
    [a / 4, a % 4 * 64 + b / 16, b % 16 * 16 + c / 64, c % 64 * 4 + d / 256, d % 256] ++ pack10 t
  | _ => []

/-- Offset of the IPv4 header, of the RTP header. -/
def ipOff (bs : List Nat) : Nat := typeOff bs + 2
def rtpOff (bs : List Nat) : Nat := ipOff bs + 28
/-- The leg that claims a frame of MAC m (R176): IPv4, IHL 5, no fragment, UDP, no RTP header extension (R174). VID of a leg
with TAGGED = 0 is not compared, and of two legs that differ in it alone the lower-numbered one claims (DESIGN CHOICE, log
entry 148). -/
def claimLeg (m : Nat) (bs : List Nat) (s : State) : Option Nat :=
  let ip := ipOff bs
  let byte (i : Nat) : Nat := (bs.drop i).headD 0
  if etherType bs != 0x0800 || byte ip != 0x45 || be bs (ip + 6) 2 % 16384 != 0 || byte (ip + 9) != 17
      || bitOf 4 (byte (rtpOff bs)) then none
  else
    let tagged := frameTagged bs
    let vid := be bs 14 2 % 4096
    (s.flow.legs.find? (fun e =>
      let c := e.2
      ctxEn c && ctxMac c == m && cw c 3 == be bs (ip + 16) 4 && ctxDstPort c == be bs (ip + 22) 2
        && ctxTagged c == tagged && (!tagged || ctxVid c == vid)
        && (cw c 2 == 0 || cw c 2 == be bs (ip + 12) 4)
        && (bitsOf 15 0 (cw c 4) == 0 || bitsOf 15 0 (cw c 4) == be bs (ip + 20) 2)
        && (match legIs s.img e.1 with
            | some (k, f, r) => kindRx k && (r == 0 || mergeOf k (rxCfg s k f))
            | none => false))).map (·.1)

/-- RTP packet of a frame: marker, payload type, sequence number, timestamp, SSRC, payload without its padding. -/
structure Rtp where
  ok : Bool
  marker : Bool
  pt : Nat
  seq : Nat
  ts : Nat
  ssrc : Nat
  body : List Nat
/-- Read the headers, with the checks of R177 that need no flow. -/
def parseRtp (bs : List Nat) : Rtp :=
  let ip := ipOff bs
  let total := be bs (ip + 2) 2
  let udpLen := be bs (ip + 24) 2
  let r := (bs.drop (rtpOff bs)).take (udpLen - 8)
  let b0 := r.headD 0
  let body := r.drop (12 + 4 * (b0 % 16))
  let body := if bitOf 5 b0 then body.take (body.length - (body.getLast?).getD 0) else body
  let pseudo := (bs.drop (ip + 12)).take 8 ++ [0, 17] ++ beBytes 2 udpLen
  let udp := (bs.drop (ip + 20)).take udpLen
  { ok := sum16 ((bs.drop ip).take 20) == 0xFFFF && b0 / 64 == 2 && decide (28 ≤ udpLen + 8) && udpLen + 20 == total
      && (be bs (ip + 26) 2 == 0 || sum16 (pseudo ++ udp) == 0xFFFF) && decide (12 + 4 * (b0 % 16) ≤ r.length)
    marker := bitOf 7 ((r.drop 1).headD 0), pt := (r.drop 1).headD 0 % 128, seq := be r 2 2, ts := be r 4 4
    ssrc := be r 8 4, body }

/-! ### Sampling -/

/-- Values per pixel and pgroups: 4:2:2 has 2 pixels in 5 bytes, the others 4 pixels in 15 (Table 7.7, ST 2110-20). -/
def sampling (cfg : Nat) : Nat := if bitsOf 3 2 cfg = 3 then 0 else bitsOf 3 2 cfg
def hbrmt (cfg : Nat) : Bool := bitsOf 1 0 cfg == 1
/-- Rasters that ST 2022-6 carries here (Table 7.4). -/
def hbrmtFmt (fmt : Nat) : Bool := decide (3 ≤ rasterOf fmt) && decide (rasterOf fmt ≤ 6)
def pixValues (cfg : Nat) : Nat := if sampling cfg = 0 then 2 else 3
def pgPixels (cfg : Nat) : Nat := if sampling cfg = 0 then 2 else 4
def pgBytes (cfg : Nat) : Nat := if sampling cfg = 0 then 5 else 15
/-- Black values of a row. -/
def blackRow (cfg w : Nat) : List Nat :=
  if sampling cfg = 0 then line422 w (fun _ => 0x040) (fun _ => 0x200) (fun _ => 0x200)
  else if sampling cfg = 1 then (List.range w).flatMap (fun _ => [0x200, 0x040, 0x200])
  else List.replicate (3 * w) 0x040

/-! ### Video packets (R177, R180) -/

/-- The sample row data headers of ST 2110-20: (length, field, row, offset), at most three. -/
def srdHeads : Nat → List Nat → List (Nat × Nat × Nat × Nat)
  | 0, _ => []
  | n + 1, b =>
    let h := (be b 0 2, be b 2 2 / 32768, be b 2 2 % 32768, be b 4 2 % 32768)
    h :: (if 32768 ≤ be b 4 2 then srdHeads n (b.drop 6) else [])
/-- The data of the headers in order: key (field * 65536 + row), value offset, values. -/
def srdSegs (pv : Nat) : List (Nat × Nat × Nat × Nat) → List Nat → List (Nat × Nat × List Nat)
  | [], _ => []
  | (n, f, y, o) :: t, b => (f * 65536 + y, o * pv, unpack10 (b.take n)) :: srdSegs pv t (b.drop n)
/-- Number, timestamp key and contents of a video packet; none where it is malformed (R177). -/
def videoSegs (fmt cfg : Nat) (p : Rtp) : Option (Nat × List (Nat × Nat × List Nat)) :=
  if hbrmt cfg then
    if hbrmtFmt fmt && (p.body.length == 1384 || p.body.length == 1388) then
      some (p.seq, [(0, p.seq, p.body.drop (p.body.length - 1376))]) else none
  else
    let b := p.body.drop 2
    let hs := srdHeads 3 b
    let w := rasterW (rasterOf fmt)
    let ok := hs.all (fun h => h.1 % pgBytes cfg == 0 && h.1 != 0 && decide (h.2.1 < rasterFields (rasterOf fmt))
      && decide (h.2.2.1 < fieldRows (rasterOf fmt)) && decide (h.2.2.2 + h.1 / pgBytes cfg * pgPixels cfg ≤ w)
      && h.2.2.2 % pgPixels cfg == 0)
    let data := b.drop (6 * hs.length)
    let total := hs.foldl (fun a h => a + h.1) 0
    if ok && data.length == total && !(be b 4 2 ≥ 32768 && hs.length == 3 && be b 16 2 ≥ 32768) then
      some (be p.body 0 2 * 65536 + p.seq, srdSegs (pixValues cfg) hs data) else none

/-! ### Both paths (R182) -/

/-- Packets of path r count as arrived at `ns`: skew against the other path, and the path delivers. -/
def pathArrive (r num ns : Nat) (p : Paths) : Paths :=
  let other := (p.seen ++ p.old).find? (fun e => e.1 == num && e.2.1 != r)
  let p := if r = 0 then { p with live0 := true } else { p with live1 := true }
  match other with
  | some e =>
    let d : Int := if r = 1 then (ns : Int) - e.2.2 else (e.2.2 : Int) - ns
    { p with sum := p.sum + d, n := p.n + 1 }
  | none => { p with seen := p.seen ++ [(num, r, ns)] }
/-- A valid packet is observed on its leg: numbers missing from the leg's own sequence, the other path. -/
def legArrive (k f r l num bits ns : Nat) (s : State) : State :=
  let want := cget 0 s.flow.legNext l
  let gap := (num + 2 ^ bits + 1 - want) % 2 ^ bits
  let s := if want ≠ 0 ∧ gap < 2 ^ (bits - 1) then countN s (Reg.FLOW_LEG_GAP l) gap else s
  let s := if want = 0 ∨ gap < 2 ^ (bits - 1) then
      { s with flow := { s.flow with legNext := cset 0 s.flow.legNext l ((num + 1) % 2 ^ bits + 1) } } else s
  let v := rxFlow s k f
  if mergeOf k v.cfg then setRx k f { v with paths := pathArrive r num ns v.paths } s else s
/-- A 100 ms window of the skew measurement ends: the mean, and the path it excludes or readmits. Where no packet came on
both paths there is no mean, and nothing changes. -/
def skewWindow (k f : Nat) (s : State) : State :=
  let v := rxFlow s k f
  let p := v.paths
  if !flowExists s k f || !running s || !mergeOf k v.cfg then s
  else if p.n = 0 then setRx k f { v with paths := { p with old := p.seen, seen := [] } } s
  else
    let mean := rne p.sum p.n
    let excl : Option Nat := if mean > 4000000 then some 1 else if mean < -4000000 then some 0 else none
    let s := setRx k f { v with paths := { p with old := p.seen, seen := [], sum := 0, n := 0, excl } } s
    let s := if k = 0 then
        let a := Reg.FLOW_VRX_STAT f
        fset (fset (rsetN s (Reg.FLOW_VRX_SKEW f) (ofInt 32 mean)) a Fld.FLOW_VRX_STAT_P1_EXCL (b2n (excl == some 1))) a
          Fld.FLOW_VRX_STAT_P0_EXCL (b2n (excl == some 0)) else s
    if excl.isSome && excl != p.excl then raise Src.flowSkew [f] s else s
/-- Path r has delivered nothing for 100 ms. -/
def pathSilent (k f r : Nat) (s : State) : State :=
  let v := rxFlow s k f
  let p := v.paths
  if !flowExists s k f || !running s || !mergeOf k v.cfg then s
  else
    let other := if r = 0 then p.live1 else p.live0
    let p := if r = 0 then { p with live0 := false } else { p with live1 := false }
    let s := setRx k f { v with paths := p } s
    if other then raise Src.flowPathLoss [f] s else s

/-! ### Storing (R180, R182, R188, R189) -/

/-- Frames from frame a to frame b of a format, by their timestamps, to the nearest. -/
def frameSteps (fmt cfg a b : Nat) : Int :=
  rne (sext 32 ((b + 2 ^ 32 - a) % 2 ^ 32) * (rateNum (rateOf fmt) : Int)) (videoRate cfg * rateDen (rateOf fmt))
/-- Put a packet into its frame, frames in order of arrival. -/
def putFrame (ts num : Nat) (mk : Bool) (segs : List (Nat × Nat × List Nat)) (recs : List (Nat × List Nat)) :
    List RxFrame → List RxFrame
  | [] => [⟨ts, [(num, mk)], segs, recs⟩]
  | x :: t => if x.ts = ts then { x with seqs := x.seqs ++ [(num, mk)], segs := x.segs ++ segs, recs := x.recs ++ recs } :: t
    else x :: putFrame ts num mk segs recs t
def isDup (v : RxFlow) (num : Nat) : Bool := v.frames.any (fun x => x.seqs.any (fun e => e.1 == num)) || num ∈ v.nums
/-- Packet numbers of a video flow are counted modulo 2^16 or, with the extension of ST 2110-20, 2^32. -/
def numMod (cfg : Nat) : Nat := if hbrmt cfg then 2 ^ 16 else 2 ^ 32
/-- The lowest of some packet numbers in circular order. -/
def lowestNum (m : Nat) : List Nat → Nat
  | [] => 0
  | n :: t => t.foldl (fun a x => if m / 2 ≤ (x + m - a) % m then x else a) n
/-- Number of the first packet of a frame: behind the last one of the frame before, else the lowest stored. -/
def firstNum (v : RxFlow) (x : RxFrame) : Nat :=
  let m := numMod v.cfg
  match v.lastNum with | some n => (n + 1) % m | none => lowestNum m (x.seqs.map (·.1))
/-- The last line that packet `num` of an ST 2022-6 frame carries words of. -/
def hbrmtLast (fmt first num : Nat) : Nat :=
  ((((num + 65536 - first) % 65536 + 1) * 1376 * 8 - 1) / 10) / laneWords fmt + 1
/-- A video packet: early, late, a duplicate, or stored. -/
def videoStore (f l : Nat) (p : Rtp) (num : Nat) (segs : List (Nat × Nat × List Nat)) (s : State) : State :=
  let v := rxFlow s 0 f
  let fmt := srcFmt s.img (512 + f)
  let r := rasterOf fmt
  let depth : Int := vrxDepth s.img f
  let last := rasterLines r
  let done := v.line = last
  let base := match v.cur with | some c => some c | none => (v.frames.head?).map (·.ts)
  let d : Int := match base with | some c => frameSteps fmt v.cfg c p.ts | none => 0
  let early := if v.cur.isSome && done then depth + 1 ≤ d else depth ≤ d
  let read (k : Nat) : Bool := decide (rowLine r (k / 65536) (k % 65536) ≤ v.line)
  let lines := if hbrmt v.cfg then
      (match v.frames.find? (fun x => x.ts == p.ts) with
       | some x => decide (hbrmtLast fmt (firstNum v x) num ≤ v.line)
       | none => v.lastNum.any (fun n => decide (hbrmtLast fmt ((n + 1) % 65536) num ≤ v.line)))
    else segs.all (fun e => read e.1)
  let late := v.cur.isSome && (decide (d < 0) || (d == 0 && (done || lines)))
  if early || late then count s (Reg.FLOW_LEG_LATE l)
  else if isDup v num then setRx 0 f { v with dups := v.dups + 1 } s
  else count (setRx 0 f { v with frames := putFrame p.ts num p.marker segs [] v.frames } s) (Reg.FLOW_LEG_PKTS l)
/-- Bytes of an audio sample: L24 3, L16 2, AM824 4. -/
def audFmt (cfg : Nat) : Nat := if bitsOf 1 0 cfg = 3 then 0 else bitsOf 1 0 cfg
def audBytes (cfg : Nat) : Nat := if audFmt cfg = 1 then 2 else if audFmt cfg = 2 then 4 else 3
def audPtime (cfg : Nat) : Nat := if bitOf 2 cfg then 6 else 48
def audChannels (cfg : Nat) : Nat := bitsOf 14 8 cfg
/-- A sample as a channel carries it: 24 bits left-justified in 32, then V, U, C and block start in bits 32 to 35. -/
def audSample (cfg : Nat) (b : List Nat) : Nat :=
  if audFmt cfg = 1 then be b 0 2 * 65536
  else if audFmt cfg = 2 then
    let h := b.headD 0
    be b 1 3 * 256 + b2n (bitOf 0 h) * 2 ^ 32 + b2n (bitOf 1 h) * 2 ^ 33 + b2n (bitOf 2 h) * 2 ^ 34 + b2n (bitOf 5 h) * 2 ^ 35
  else be b 0 3 * 256
/-- An audio packet: late where every sample has been delivered, a duplicate, or stored. -/
def audioStore (f l : Nat) (p : Rtp) (s : State) : State :=
  let v := rxFlow s 2 f
  let n := audPtime v.cfg
  let c := audChannels v.cfg
  let z := audBytes v.cfg
  let k := mediaExtend 48000 (flowNow s (tkField 2 v.cfg)) p.ts
  let smp := (List.range n).map (fun i => (k + i, (List.range c).map (fun j => audSample v.cfg (p.body.drop ((i * c + j) * z)))))
  if v.cur.any (fun t => decide (k + n ≤ t + 1)) then count s (Reg.FLOW_LEG_LATE l)
  else if isDup v p.seq then setRx 2 f { v with dups := v.dups + 1 } s
  else count (setRx 2 f { v with samples := v.samples ++ smp, nums := lastN 1024 (v.nums ++ [p.seq]), grid := k } s)
    (Reg.FLOW_LEG_PKTS l)
/-- Even parity over b0 to b7 in b8, and its complement in b9. -/
def parity10 (v : Nat) : Bool :=
  let e := popcount 8 v % 2
  bitsOf 8 8 v == e && bitsOf 9 9 v == 1 - e
/-- The ANC packets of an RFC 8331 payload as records without FC, or none where they do not fit the payload. -/
def ancParse (f : Nat) : Nat → List Nat → Option (List (List Nat))
  | 0, _ => some []
  | n + 1, b =>
    let w := be b 0 4
    let bit10 (i : Nat) : Nat := be (b ++ [0, 0]) (4 + 10 * i / 8) 3 / 2 ^ (14 - 10 * i % 8) % 1024
    let dc := bit10 2 % 256
    let len := 4 * cdiv (10 * (4 + dc)) 32 + 4
    if b.length < len then none
    else
      let ws := (List.range (3 + dc)).map bit10
      let sum := (ws.foldl (fun a x => a + x % 512) 0) % 512
      let cs := bit10 (3 + dc)
      let ok := cs == sum + (if sum < 256 then 512 else 0) && (ws.take 3).all parity10
      let off := bitsOf 19 8 w
      let hanc := off == 0xFFE || (decide (off < 0xFFC) && Config.hancOffset f off)
      let link := if bitOf 7 w then bitsOf 6 0 w else 0
      let rec_ := ancRecord (bitsOf 30 20 w) hanc (bitOf 31 w) link ok (bit10 0 % 256) (bit10 1 % 256) 0 (ws.drop 3)
      (ancParse f n (b.drop len)).map (fun t => rec_ :: t)
/-- A claimed packet is checked and stored (R177-R182). -/
def flowPacket (l : Nat) (bs : List Nat) (s : State) : State :=
  match legIs s.img l with
  | none => s
  | some (k, f, r) =>
    let s := if (rxFlow s k f).cur.isNone then rxLatch k f s else s
    let v := rxFlow s k f
    let c := legCtx s l
    let p := parseRtp bs
    let bad := count s (Reg.FLOW_LEG_BAD l)
    let ns := flowNow s (tkField k v.cfg)
    let excl := v.paths.excl == some r && mergeOf k v.cfg
    if !p.ok || p.pt != ctxPt c || (bitOf 8 (cw c 0) && p.ssrc != cw c 5) then bad
    else if k = 0 then
      match videoSegs (srcFmt s.img (512 + f)) v.cfg p with
      | none => bad
      | some (num, segs) =>
        let s := legArrive k f r l num (if hbrmt v.cfg then 16 else 32) ns s
        if excl then count s (Reg.FLOW_LEG_LATE l) else videoStore f l p num segs s
    else if k = 2 then
      if p.body.length ≠ audPtime v.cfg * audChannels v.cfg * audBytes v.cfg then bad
      else
        let s := legArrive k f r l p.seq 16 ns s
        if excl then count s (Reg.FLOW_LEG_LATE l) else audioStore f l p s
    else if p.body.length < 8 + be p.body 2 2 then bad
    else
      match ancParse f ((p.body.drop 4).headD 0) ((p.body.drop 8).take (be p.body 2 2)) with
      | none => bad
      | some recs =>
        let s := legArrive k f r l p.seq 16 ns s
        let v := rxFlow s k f
        if isDup v p.seq then setRx k f { v with dups := v.dups + 1 } s
        else count (setRx k f { v with frames := putFrame p.ts p.seq p.marker [] (recs.map (fun x => (p.seq, x))) v.frames } s)
          (Reg.FLOW_LEG_PKTS l)
/-- Row 9 of Table 6.5: the flow engine claims a frame or leaves it. -/
def flowClaim (m : Nat) (bs : List Nat) (s : State) : Option State :=
  (claimLeg m bs s).map (fun l => flowPacket l (bs.take (bs.length - 4)) s)

/-! ### Essence groups (R191) -/

/-- A member of a group underruns: it repeats until the group's next frame boundary. -/
def groupSlip (k f : Nat) (s : State) : State :=
  match rxGroup s.img k f with
  | none => s
  | some g =>
    let s := setRx k f { rxFlow s k f with slip := true } s
    let i := Reg.FLOW_GRP_SLIP_ID g
    let s := fset (fset s i Fld.FLOW_GRP_SLIP_ID_KIND k) i Fld.FLOW_GRP_SLIP_ID_FLOW f
    raise Src.flowGroupSlip [g] (fset s (Reg.FLOW_GRP_STAT g) Fld.FLOW_GRP_STAT_SLIP 1)

/-- A frame boundary of plane p: the members of its groups that underran realign; what lies before the common read point
is discarded as it is read. -/
def groupsRealign (p : Nat) (s : State) : State :=
  let back (k : Nat) (l : List (Nat × RxFlow)) : List (Nat × RxFlow) :=
    l.map (fun e => if (rxGroup s.img k e.1).any (fun g => grpPlane s.img g == p) then (e.1, { e.2 with slip := false }) else e)
  { s with flow := { s.flow with vrx := back 0 s.flow.vrx, arx := back 2 s.flow.arx, nrx := back 4 s.flow.nrx } }

/-! ### Reading video (R179-R181) -/

/-- Overlay a segment on a row. -/
def overlay (row : List Nat) (off : Nat) (ws : List Nat) : List Nat :=
  (row.take off ++ ws ++ row.drop (off + ws.length)).take row.length
/-- The frame of a timestamp in the buffer. -/
def frameAt (v : RxFlow) (ts : Nat) : Option RxFrame := v.frames.find? (fun x => x.ts == ts)
/-- Words of one line of an ST 2022-6 frame: packets in number order from the frame's first one, 1,376 bytes each; what
is missing comes from the previous frame. -/
def hbrmtLine (fmt L : Nat) (first : Nat) (segs : List (Nat × Nat × List Nat)) (prev : List Nat) : List Nat :=
  let w := laneWords fmt
  (List.range w).map (fun i =>
    let bit := 10 * ((L - 1) * w + i)
    let byteAt (x : Nat) : Option Nat :=
      ((segs.find? (fun e => e.2.1 == (first + x / 1376) % 65536)).bind (fun e => e.2.2[x % 1376]?))
    match byteAt (bit / 8), byteAt (bit / 8 + 1) with
    | some a, some b => (a * 256 + b) / 2 ^ (6 - bit % 8) % 1024
    | _, _ => (prev[i]?).getD 0)
/-- The words of line L of the frame being read. -/
def flowLine (fmt : Nat) (v : RxFlow) (fr : Option RxFrame) (L : Nat) : List Nat :=
  let prev := if v.havePrev then cget [] v.prev L else []
  if hbrmt v.cfg then
    let black := if prev.isEmpty then joinStreams (makeStreams fmt 0 false (lineHead fmt false false L) (blackWords fmt 0)) else prev
    match fr with
    | none => black
    | some x => hbrmtLine fmt L (firstNum v x) x.segs black
  else
    let w := rasterW (rasterOf fmt)
    let n := pixValues v.cfg * w
    ((lineRows (rasterOf fmt) L).zipIdx).flatMap (fun e =>
      let old := (prev.drop (e.2 * n)).take n
      let base := if old.length = n then old else blackRow v.cfg w
      match fr with
      | none => base
      | some x => (x.segs.filter (fun g => g.1 == e.1)).foldl (fun row g => overlay row g.2.1 g.2.2) base)
/-- Packets of a frame from its first one to its last: the last one stored where it ends the frame with its marker, else
the one before the next frame's first. -/
def frameSpan (fmt : Nat) (v : RxFlow) (x : RxFrame) : Nat :=
  let m := numMod v.cfg
  let lo := firstNum v x
  let rel (n : Nat) : Nat := (n + m - lo) % m
  let hi := (x.seqs.map (fun e => rel e.1)).foldl max 0
  let ends := x.seqs.any (fun e => e.2 && rel e.1 == hi)
    && (hbrmt v.cfg || rasterFields (rasterOf fmt) == 1 || x.segs.any (fun e => decide (65536 ≤ e.1)))
  let next := (v.frames.filter (fun y => frameSteps fmt v.cfg x.ts y.ts == 1)).flatMap (fun y => y.seqs.map (·.1))
  if ends || next.isEmpty then hi + 1 else max (hi + 1) (rel (lowestNum m next))
/-- Numbers absent from a frame. -/
def lostOf (fmt : Nat) (v : RxFlow) (x : RxFrame) : Nat := frameSpan fmt v x - x.seqs.length
def vrxStat (f : Nat) (fl : FieldRow) (b : Bool) (s : State) : State := fset s (Reg.FLOW_VRX_STAT f) fl (b2n b)
/-- PRESENT of a flow's source. -/
def flowPresent (f : Nat) (on : Bool) (s : State) : State :=
  if on = srcPresent s (512 + f) then s
  else
    let s := setPresent (512 + f) on (vrxStat f Fld.FLOW_VRX_STAT_PRESENT on s)
    if on then s else raise Src.flowLoss [f] s
/-- Line 1 of the frame with timestamp ts is about to be read: settings, underrun, presence, the step in T_n. A member of a
group that has slipped repeats once more. -/
def frameBegin (f ts : Nat) (s : State) : State :=
  let s := rxLatch 0 f s
  let v := rxFlow s 0 f
  let fmt := srcFmt s.img (512 + f)
  let absent := (frameAt v ts).isNone
  let rate := videoRate v.cfg
  let k := mediaExtend rate (flowNow s (tkField 0 v.cfg)) ts
  let step := if v.lastK = 0 ∨ k ≤ v.lastK then 0 else (k - v.lastK) * 1000000000000 / rate
  let keep := v.frames.filter (fun x => decide (0 ≤ frameSteps fmt v.cfg ts x.ts))
  let s := setRx 0 f { v with cur := some ts, line := 0, under := absent || v.slip
                              unders := if absent then v.unders + 1 else 0, build := []
                              lastK := k, stepPs := step, frames := keep } s
  let s := vrxStat f Fld.FLOW_VRX_STAT_UNDERRUN absent s
  if absent then
    let s := groupSlip 0 f (count s (Reg.FLOW_VRX_UNDERRUN f))
    if v.unders + 1 = 3 then flowPresent f false s else s
  else flowPresent f true s
/-- The last line has been read: losses counted, the frame becomes the previous one, its space is freed. Until one frame
has been complete, what is missing is black (R181). -/
def frameEnd (f : Nat) (s : State) : State :=
  let v := rxFlow s 0 f
  let fmt := srcFmt s.img (512 + f)
  let fr := v.cur.bind (frameAt v)
  let s := match fr, v.under with
    | some x, false => countN s (Reg.FLOW_VRX_LOST f) (lostOf fmt v x)
    | _, _ => s
  let last := fr.map (fun x => (firstNum v x + frameSpan fmt v x - 1) % numMod v.cfg)
  setRx 0 f { v with frames := v.frames.filter (fun x => some x.ts != v.cur), lastNum := last,
                     prev := if v.under then v.prev else v.build, build := []
                     havePrev := v.havePrev || (!v.under && fr.any (fun x => lostOf fmt v x == 0)) } s
/-- r_n - P_L in ns for plane p, from the plane's last switch point, in the frame it lies nearest to (R179). -/
def readPhase (p : Nat) (s : State) : Int :=
  let tf : Int := framePs (planeFmt s.img p) / 1000
  let dt : Int := (((nowTicks s : Int) - cget 0 s.xp.switchAt p) * 5) / 4
  (dt + tf / 2) % max 1 tf - tf / 2
/-- Packets of frame x that hold words of line L. -/
def linePackets (fmt : Nat) (v : RxFlow) (x : RxFrame) (L : Nat) : Nat :=
  if hbrmt v.cfg then
    let w := laneWords fmt * 10
    let lo := (L - 1) * w / 8 / 1376
    let n := (L * w - 1) / 8 / 1376 - lo + 1
    ((List.range n).filter (fun i => x.segs.any (fun e => e.2.1 == (firstNum v x + lo + i) % 65536))).length
  else (x.segs.filter (fun g => (lineRows (rasterOf fmt) L).contains g.1)).length
/-- Line L of the frame being read, from the dejitter region; `errs` errors stand in its first word: a line that cannot
be corrected is filled from the previous frame, and its packets count as missing (08 R218). Where in the region the
flow's frames lie is not stated: a free value. -/
def dejitLine (f L errs : Nat) (s : State) : List Nat × State :=
  let v := rxFlow s 0 f
  let size := stackMib s.img 0 3 * 2 ^ 20 / 8
  let fmt := srcFmt s.img (512 + f)
  let c := hbmRead (stripedWhere s.img 3 (32 * (freeValue s % max 1 size))) (lineBytes fmt) errs none (spend s)
  let fr := if v.under then none else v.cur.bind (frameAt v)
  let lost := if c.1 then (fr.map (fun x => linePackets fmt v x L)).getD 0 else 0
  (flowLine fmt v (if c.1 then none else fr) L, countN c.2 (Reg.FLOW_VRX_LOST f) lost)
/-- Line L of the frame with timestamp ts is read at r_n + (L - L_s) T_line and delivered to the source; r_n is judged as
the arrival of the switching line (R85, R86). -/
def flowLineRead (f ts L errs : Nat) (s : State) : State :=
  let fmt := srcFmt s.img (512 + f)
  let lines := rasterLines (rasterOf fmt)
  if !flowExists s 0 f || !running s || fmt = 0 || L = 0 || lines < L then s
  else
    let s := if L = 1 then rxLatch 0 f s else s
    let v := rxFlow s 0 f
    let tk := tkField 0 v.cfg
    let rate := videoRate v.cfg
    let k := mediaExtend rate (flowNow s tk) ts
    let due : Int := (mediaNs rate k + v.delay : Nat) +
      ((L : Int) - rasterSwitchLine (rasterOf fmt)) * (linePs fmt : Int) / 1000
    let s := advanceTo tk due.toNat s
    let s := if L = 1 then frameBegin f ts s else s
    if (rxFlow s 0 f).cur ≠ some ts then s
    else
      let s := if L = rasterSwitchLine (rasterOf fmt) then switchArrival (512 + f) (readPhase 0 s) (readPhase 1 s) s else s
      let r := dejitLine f L errs s
      let v := rxFlow r.2 0 f
      let s := pushLine (512 + f) ⟨L, r.1⟩ (setRx 0 f { v with line := L, build := cset [] v.build L r.1 } r.2)
      if L = lines then frameEnd f s else s

/-! ### Audio delivery (R187, R188) -/

/-- Audio receive flow f uses position pos: it has an enabled leg, and its CFG flowCovers the position. -/
def flowCovers (s : State) (f pos : Nat) : Bool :=
  let cfg := rxCfg s 2 f
  decide (bitsOf 29 16 cfg ≤ pos) && decide (pos < bitsOf 29 16 cfg + audChannels cfg)
/-- The flow that has a position: the highest-numbered one that uses it (R187). A flow with no enabled leg uses none, since
the reset value of every CFG names position 0 (DEDUCED, log entry 134). -/
def posFlow (s : State) (pos : Nat) : Option Nat :=
  s.flow.legs.foldl (fun a e =>
    match ctxEn e.2, legIs s.img e.1 with
    | true, some (2, f, _) => if flowCovers s f pos then some (max f (a.getD 0)) else a
    | _, _ => a) none
/-- Place a sample at a position that the flow has. -/
def posPut (f pos x : Nat) (s : State) : State :=
  if posFlow s pos = some f then { s with flow := { s.flow with rxPos := cset (0, 0) s.flow.rxPos pos (x, f + 1) } } else s
/-- What stands at a packet audio receive position: the last sample of the flow that has it, zero before its first. -/
def posSample (s : State) (pos : Nat) : Nat :=
  let o := cget (0, 0) s.flow.rxPos pos
  if (posFlow s pos).any (fun f => o.2 == f + 1) then o.1 else 0
/-- The sample of media timestamp ts is due at T + DELAY. Of a packet time whose samples are absent, one underrun counts. -/
def audioDeliver (f ts : Nat) (s : State) : State :=
  if !flowExists s 2 f || !running s then s
  else
    let v := rxFlow s 2 f
    let s := if (v.samples.isEmpty && v.cur.isNone)
        || sext 32 ((ts + 2 ^ 32 - v.grid % 2 ^ 32) % 2 ^ 32) % (audPtime v.cfg : Int) == 0 then
      rxLatch 2 f s else s
    let v := rxFlow s 2 f
    let tk := tkField 2 v.cfg
    let k := mediaExtend 48000 (flowNow s tk) ts
    let s := advanceTo tk (mediaNs 48000 k + v.delay) s
    let pos := bitsOf 29 16 v.cfg
    let v' := { v with cur := some k, samples := v.samples.filter (fun x => decide (k < x.1)) }
    match v.samples.find? (fun e => e.1 == k) with
    | some e =>
      let s := setRx 2 f { v' with havePrev := true } s
      if v.slip then s else (e.2.zipIdx).foldl (fun s x => posPut f (pos + x.2) x.1 s) s
    | none =>
      let n := audPtime v.cfg
      let pt := k - (k + n * 2 ^ 32 - v.grid) % n
      let s := setRx 2 f { v' with missed := if v.havePrev then some pt else v.missed } s
      if v.havePrev && v.missed != some pt then groupSlip 2 f (count s (Reg.FLOW_ARX_UNDERRUN f)) else s

/-! ### ANC records (R189) -/

/-- Read point of the frame with timestamp ts: its records are written to the flow's queue in packet order. The origin
of FC is not stated: the flow's closes count from 0 (DESIGN CHOICE, log entry 148). -/
def ancClose (f ts : Nat) (s : State) : State :=
  if !flowExists s 4 f || !running s then s
  else
    let s := rxLatch 4 f s
    let v := rxFlow s 4 f
    let tk := tkField 4 v.cfg
    let k := mediaExtend 90000 (flowNow s tk) ts
    let s := advanceTo tk (mediaNs 90000 k + v.delay) s
    let fr := frameAt v ts
    let s := setRx 4 f { v with count := v.count + 1, cur := some ts, frames := v.frames.filter (fun x =>
      decide (sext 32 ((x.ts + 2 ^ 32 - ts) % 2 ^ 32) > 0)) } s
    match fr with
    | none => groupSlip 4 f s
    | some x =>
      if v.slip then s else
      let nums := (x.seqs.map (·.1)).mergeSort (fun a b => decide ((b + 65536 - a) % 65536 < 32768))
      (nums.flatMap (fun n => (x.recs.filter (fun e => e.1 == n)).map (·.2))).foldl (fun s bs =>
        let bs := bs.set 7 (v.count % 256)
        let q := v.cfg % 2 ^ 20
        let r := roomFor 3 q bs.length s
        if r.1 then putRecord q bs r.2 else count r.2 (Reg.FLOW_NRX_DROP f)) s

/-! ### Transmit (R175, R183-R188, R190) -/

/-- The frame of a packet on a leg (R175), from DA up to the FCS. -/
def buildPacket (s : State) (c : List Nat) (marker : Bool) (seq ts ssrc : Nat) (body : List Nat) : List Nat :=
  let da := leBytes 4 (cw c 6) ++ leBytes 2 (cw c 7)
  let tag := if ctxTagged c then [0x81, 0x00] ++ beBytes 2 (bitsOf 14 12 (cw c 1) * 8192 + ctxVid c) else []
  let rtp := [0x80, ctxPt c + 128 * b2n marker] ++ beBytes 2 seq ++ beBytes 4 ts ++ beBytes 4 ssrc ++ body
  let ip0 := [0x45, bitsOf 21 16 (cw c 1) * 4] ++ beBytes 2 (28 + rtp.length) ++ [0, 0, 0x40, 0, bitsOf 31 24 (cw c 1), 17]
  let addrs := beBytes 4 (cw c 2) ++ beBytes 4 (cw c 3)
  let ck := 65535 - sum16 (ip0 ++ [0, 0] ++ addrs)
  da ++ macAddr s (ctxMac c) ++ tag ++ [0x08, 0x00] ++ ip0 ++ beBytes 2 ck ++ addrs
    ++ beBytes 2 (bitsOf 15 0 (cw c 4)) ++ beBytes 2 (ctxDstPort c) ++ beBytes 2 (8 + rtp.length) ++ [0, 0] ++ rtp
/-- Place one replica, or hold it back while its queue is full (R186). -/
def placeReplica (k f l : Nat) (c : List Nat) (fr : TxFrame) (s : State) : State :=
  let m := ctxMac c
  let cls := if k = 1 then 3 else if k = 3 then 2 else 4
  let i := txClass s m cls
  let p := macPort s m
  if !portFormed s.img m then s
  else if txRoom s m i && !(p.waiting.any (fun w => txClass s m w.cls == i)) then count (txPlace m i fr s) (Reg.FLOW_LEG_PKTS l)
  else setMac m { p with waiting := p.waiting ++ [⟨cls, l, k, f, fr⟩] } s
def lateDropReg (k f : Nat) : Nat :=
  if k = 1 then Reg.FLOW_VTX_LATE_DROP f else if k = 3 then Reg.FLOW_ATX_LATE_DROP f else Reg.FLOW_NTX_LATE_DROP f
/-- Packets of a flow that still wait when its next frame or packet is due are discarded (R186). -/
def dropLate (k f : Nat) (s : State) : State :=
  (List.range 64).foldl (fun s m =>
    let p := macPort s m
    let mine := p.waiting.filter (fun w => w.kind == k && w.flow == f)
    if mine.isEmpty then s
    else
      let s := setMac m { p with waiting := p.waiting.filter (fun w => !(w.kind == k && w.flow == f)) } s
      mine.foldl (fun s _ => raise Src.flowTxLate [f] (count s (lateDropReg k f))) s) s
def ssrcReg (k f : Nat) : Nat :=
  if k = 1 then Reg.FLOW_VTX_SSRC f else if k = 3 then Reg.FLOW_ATX_SSRC f else Reg.FLOW_NTX_SSRC f
/-- The enabled replicas of a flow with their contexts. -/
def txLegs (s : State) (k f : Nat) : List (Nat × List Nat) :=
  ((List.range (kindLegs s.img k)).map (fun r => let l := legOf s.img k f r; (l, legCtx s l))).filter (fun e => ctxEn e.2)
/-- Schedule a packet on every replica; the sequence number advances whether or not it is sent (R185). -/
def schedule (k f : Nat) (marker ext : Bool) (ts : Nat) (body : List Nat) (legs : List (Nat × List Nat)) (s : State) : State :=
  let t := txFlow s k f
  let body := if ext then beBytes 2 (t.seq / 65536) ++ body else body
  let s := setTx k f { t with seq := (t.seq + 1) % 2 ^ 32, crc := body.foldl crcByte t.crc } s
  legs.foldl (fun s e =>
    placeReplica k f e.1 e.2 ⟨buildPacket s e.2 marker t.seq ts (rgetN s (ssrcReg k f)) body, none⟩ s) s

/-- PGROUPS in force: from 1 to the count that gives 1,440 bytes; what another value does is not stated. -/
def pgroupsOf (cfg : Nat) : Nat :=
  let n := bitsOf 26 16 cfg
  let top := 1440 / pgBytes cfg
  if 1 ≤ n ∧ n ≤ top then n else 1 + Config.outOfRange n % top
/-- How destination d read line L: 0 as black, else 1 + the sampling. -/
def lineMode (s : State) (d L : Nat) : Nat := cget 0 (cget [] s.xp.destMode d) L
/-- Words of row y of field f of a transmit flow as its destination last read them. Black is in the flow's own sampling; of
a source that reports another sampling than CFG has, the words are not stated: a free value (log entry 134). -/
def txRow (s : State) (j fmt cfg key : Nat) : List Nat :=
  let r := rasterOf fmt
  let d := 512 + j
  let n := pixValues cfg * rasterW r
  let L := rowLine r (key / 65536) (key % 65536)
  let ws := cget [] (cget [] s.xp.destLines d) L
  let row := ((lastN (linesPer r * n) ws).drop (key % 65536 % linesPer r * n)).take n
  if lineMode s d L = 0 ∨ ws.isEmpty then blackRow cfg (rasterW r)
  else if lineMode s d L ≠ 1 + sampling cfg then freeWords n s
  else if row.length = n then row else blackRow cfg (rasterW r)
/-- Words of line L of the SDI signal that an ST 2022-6 transmit flow carries: the lane's own, else made of the picture with
line number and CRC words (R174). -/
def hbrmtWords (s : State) (j fmt L : Nat) : List Nat :=
  let d := 512 + j
  let kept (L : Nat) : List Nat := cget [] (cget [] s.xp.destLines d) L
  let made (L : Nat) : List (List Nat) :=
    let act := lastN (lineValues fmt 0) (kept L)
    makeStreams fmt 0 false (lineHead fmt false false L) (if lineMode s d L = 0 ∨ act.isEmpty then blackWords fmt 0
      else if lineMode s d L = 1 then act else freeWords (lineValues fmt 0) s)
  if (kept L).length = laneWords fmt then kept L
  else
    let before := (made (if L = 1 then rasterLines (rasterOf fmt) else L - 1)).map lineTail
    joinStreams (((made L).zipIdx).map (fun e => sealLine (lineHead fmt false false L) ((before[e.2]?).getD []) e.1))
/-- The payload header of ST 2022-6: F set; frame count; MAP, FRAME, FRATE and SAMPLE of the format (log entry 20). -/
def hbrmtHead (fmt n : Nat) : List Nat :=
  let r := rasterOf fmt
  let frame := if r = 3 then 0x30 else if r = 4 then 0x20 else if r = 5 then 0x22 else 0x21
  let rate := [0, 0x1B, 0x1A, 0x18, 0x17, 0x16, 0x15, 0x14, 0x12, 0x11, 0x10].getD (rateOf fmt) 0
  [8, n % 256, 0, 0] ++ beBytes 4 (frame * 2 ^ 20 + rate * 2 ^ 12 + 2 ^ 8)
/-- Packets of a frame or field (R184). -/
def packetCount (fmt cfg : Nat) : Nat :=
  if hbrmt cfg then cdiv (cdiv (10 * laneWords fmt * rasterLines (rasterOf fmt)) 8) 1376
  else cdiv (rasterW (rasterOf fmt) * fieldRows (rasterOf fmt) / pgPixels cfg) (pgroupsOf cfg)
/-- Row data of pgroups a to b of field f, row by row: headers and data. -/
def srdBuild (s : State) (j fmt cfg f : Nat) : Nat → Nat → Nat → List (Nat × Nat × Nat) × List Nat
  | 0, _, _ => ([], [])
  | n + 1, a, b =>
    if b ≤ a then ([], [])
    else
      let per := rasterW (rasterOf fmt) / pgPixels cfg
      let y := a / per
      let e := min b ((y + 1) * per)
      let o := (a - y * per) * pgPixels cfg
      let row := txRow s j fmt cfg (f * 65536 + y)
      let data := pack10 ((row.drop (o * pixValues cfg)).take ((e - a) * pgPixels cfg * pixValues cfg))
      let r := srdBuild s j fmt cfg f n e b
      (((e - a) * pgBytes cfg, f * 32768 + y, o) :: r.1, data ++ r.2)
def srdBytes : List (Nat × Nat × Nat) → List Nat
  | [] => []
  | (n, y, o) :: t => beBytes 2 n ++ beBytes 2 y ++ beBytes 2 (o + (if t.isEmpty then 0 else 32768)) ++ srdBytes t
/-- Payload of packet p of a frame, and whether it is the last of its frame or field. -/
def videoPayload (s : State) (j fmt cfg p : Nat) : List Nat × Bool :=
  let n := packetCount fmt cfg
  if hbrmt cfg then
    let w := laneWords fmt
    let first := p * 1376 * 8 / 10 / 4 * 4
    let lines := (List.range 3).flatMap (fun i => hbrmtWords s j fmt (first / w + 1 + i))
    let data := pack10 ((List.range 1104).map (fun i => (lines[first % w + i]?).getD 0))
    (hbrmtHead fmt (txFlow s 1 j).frames ++ (data.drop (p * 1376 - first / 4 * 5)).take 1376, p + 1 == n)
  else
    let f := p / n
    let i := p % n
    let per := rasterW (rasterOf fmt) * fieldRows (rasterOf fmt) / pgPixels cfg
    let r := srdBuild s j fmt cfg f (pgroupsOf cfg + 1) (i * pgroupsOf cfg) (min per ((i + 1) * pgroupsOf cfg))
    (srdBytes r.1 ++ r.2, i + 1 == n)
/-- Packets of the whole frame: both fields together. -/
def framePackets (fmt cfg : Nat) : Nat :=
  packetCount fmt cfg * (if hbrmt cfg then 1 else rasterFields (rasterOf fmt))
/-- The departure of a frame's first packet: held packets of the last frame go, settings and contexts are taken, the
timestamp is the media clock at F_n = now - TRO lines (R183, R184, R172). -/
def videoFrameStart (j : Nat) (s : State) : State :=
  let s := dropLate 1 j s
  let fmt := destFmt s.img (512 + j)
  let cfg := rgetN s (Reg.FLOW_VTX_CFG j)
  let tro := if hbrmt cfg then 0 else fget s (Reg.FLOW_VTX_CFG j) Fld.FLOW_VTX_CFG_TRO
  let f0 := flowNow s (tkField 1 cfg) - tro * linePs fmt / 1000
  let t := txFlow s 1 j
  setTx 1 j { t with p := 0, cfg, ts := mediaClock 90000 f0 % 2 ^ 32, ctx := txLegs s 1 j, crc := 0xFFFFFFFF, frames := (t.frames + 1) % 256 } s
/-- The next packet of video transmit flow j departs; ST 2022-6 carries no raster but those of Table 7.4. -/
def videoPacketDue (j : Nat) (s : State) : State :=
  let fmt := destFmt s.img (512 + j)
  if !flowExists s 1 j || fmt = 0 || !inService s || planeBlack s (destPlane s.img (512 + j)) then s
  else
    let s := if (txFlow s 1 j).p = 0 then videoFrameStart j s else s
    let t := txFlow s 1 j
    if hbrmt t.cfg && !hbrmtFmt fmt then s
    else
    let x := videoPayload s j fmt t.cfg t.p
    let s := schedule 1 j x.2 (!hbrmt t.cfg) t.ts x.1 t.ctx s
    let t := txFlow s 1 j
    if t.p + 1 < framePackets fmt t.cfg then setTx 1 j { t with p := t.p + 1 } s
    else setTx 1 j { t with p := 0, sig := t.crc ^^^ 0xFFFFFFFF } s

/-- A sample of a channel as bytes of a packet (R187). -/
def sampleBytes (cfg first : Nat) (x : Nat) : List Nat :=
  if audFmt cfg = 2 then
    let b := bitOf 35 x
    let fl := b2n (bitOf 32 x) + 2 * b2n (bitOf 33 x) + 4 * b2n (bitOf 34 x)
    let par := (popcount 24 (x / 256 % 2 ^ 24) + popcount 3 fl) % 2
    (fl + 8 * par + 16 * first + 32 * b2n b) :: beBytes 3 (x / 256)
  else beBytes 3 (x / 256)
/-- An audio packet leaves 10 us after its last sample was taken (R188). -/
def audioPacket (f : Nat) (s : State) : State :=
  if !flowExists s 3 f || !inService s then s
  else
    let s := dropLate 3 f s
    let cfg := rgetN s (Reg.FLOW_ATX_CFG f)
    let n := audPtime cfg
    let c := audChannels cfg
    let pos := bitsOf 29 16 cfg
    let last := mediaClock 48000 (flowNow s (tkField 3 cfg) - 10000)
    let ts := (last + 2 ^ 32 + 1 - n) % 2 ^ 32
    let body := (List.range n).flatMap (fun i => (List.range c).flatMap (fun j =>
      let h := cget [] s.flow.txPos (pos + j)
      sampleBytes cfg (1 - j % 2) (if h.length + i < n then 0 else (h[h.length + i - n]?).getD 0)))
    schedule 3 f false false ts body (txLegs s 3 f) s

/-- An ANC transmit flow at the switch point of its plane: the set is read as an insertion channel's (R190, R138). -/
def ancTxSwitch (f : Nat) (s : State) : State :=
  let t := txFlow s 5 f
  let o := t.ins
  let cfg := rgetN s (Reg.FLOW_NTX_CFG f)
  let q := cfg % 2 ^ 20
  let rep := bitOf 30 cfg
  let was := !o.set.isEmpty
  let put (set : List (List Nat × Bool)) (s : State) : State := setTx 5 f { txFlow s 5 f with ins := { ctrl := cfg, q, set } } s
  let s := if was && !bitOf 30 o.ctrl then queueRelease o.q s else s
  if !rep then (let r := readRecords q 32 s; put r.1 r.2)
  else if was && bitOf 30 o.ctrl && o.q == q then
    (if hasClosed s q then (let r := readRecords q 32 (queueMark q (queueRelease q s)); put r.1 r.2)
     else (let r := readRecords q o.set.length (queueRewind q s); put r.1 r.2))
  else (let r := readRecords q 32 (queueMark q s); put r.1 r.2)
/-- Every ANC transmit flow of plane p. -/
def ancTxSwitchAll (p : Nat) (s : State) : State :=
  (List.range (kindFlows s.img 5)).foldl (fun s f => if ntxPlane s.img f = p then ancTxSwitch f s else s) s
/-- One record as an RFC 8331 packet. -/
def rfcPacket (bs : List Nat) : List Nat :=
  let w0 := leNat (bs.take 4)
  let w1 := leNat ((bs.drop 4).take 4)
  let dc := bitsOf 23 16 w1
  let u (i : Nat) : Nat := leNat ((bs.drop (8 + 2 * i)).take 2) % 1024
  let ws := [parityWord (bitsOf 7 0 w1), parityWord (bitsOf 15 8 w1), parityWord dc] ++ (List.range dc).map u
  let sum := (ws.foldl (fun a x => a + x % 512) 0) % 512
  let off := if bitOf 16 w0 then 0xFFE else 0xFFD
  let head := b2n (bitOf 17 w0) * 2 ^ 31 + bitsOf 10 0 w0 * 2 ^ 20 + off * 2 ^ 8
    + (if bitsOf 19 18 w0 = 0 then 0 else 128 + bitsOf 19 18 w0)
  let all := ws ++ [sum + (if sum < 256 then 512 else 0)]
  let bytes := (pack10 (all ++ List.replicate (16 - all.length % 16) 0)).take (4 * cdiv (10 * all.length) 32)
  beBytes 4 head ++ bytes
/-- Fill packets of at most 1,400 payload bytes: lists of ANC packets. -/
def ancFill : List (List Nat) → List (List Nat) → Nat → List (List (List Nat))
  | [], cur, _ => [cur]
  | x :: t, cur, n => if n + x.length ≤ 1400 ∨ cur.isEmpty then ancFill t (cur ++ [x]) (n + x.length)
    else cur :: ancFill t [x] (8 + x.length)
/-- The frame's packets leave from P + T_line + 10 us; the timestamp is the media clock at F_n (R190, R183). -/
def ancSend (f : Nat) (s : State) : State :=
  if !flowExists s 5 f || !inService s then s
  else
    let s := dropLate 5 f s
    let t := txFlow s 5 f
    let fmt := planeFmt s.img (ntxPlane s.img f)
    let back := (10000000 + rasterSwitchLine (rasterOf fmt) * linePs fmt) / 1000
    let ts := mediaClock 90000 (flowNow s (tkField 5 (rgetN s (Reg.FLOW_NTX_CFG f))) - back) % 2 ^ 32
    let good := (t.ins.set.filter (fun r => !r.2)).map (·.1)
    let good := good.filter (fun bs => decide (8 + 4 * cdiv (bitsOf 23 16 (leNat ((bs.drop 4).take 4))) 2 ≤ bs.length))
    let groups := ancFill (good.map rfcPacket) [] 8
    let legs := txLegs s 5 f
    (groups.zipIdx).foldl (fun s e =>
      let data := e.1.flatten
      let body := beBytes 2 ((txFlow s 5 f).seq / 65536) ++ beBytes 2 data.length ++ [e.1.length, 0, 0, 0] ++ data
      schedule 5 f (e.2 + 1 == groups.length) false ts body legs s) s

/-! ### Register writes -/

/-- A DELAY register holds at most 200,000,000 ns. -/
def delayWrite (a : Nat) (w : Word) (s : State) : State := rsetN s a (min 200000000 w.toNat)
/-- A write of ARX_CFG or ATX_CFG (R187; 13_audio_matrix.md R327). MERGE of ATX_CFG, reserved on transmit, stays 0 (log entry
148). -/
def audCfgWrite (m a : Nat) (tx : Bool) (w : Word) (s : State) : State :=
  let w := if tx then w &&& 0xFFFFFFF7 else w
  let n := w.toNat
  let c := audChannels n
  let top := if bitOf 2 n then 64 else 8
  let blocks := if tx then [] else asrcBlocks s.img (0x00100000 + (a - Reg.FLOW_ARX_CFG 0) / 0x10)
  let few := !blocks.isEmpty && decide (16 * blocks.length < c)
  if 16384 < bitsOf 29 16 n + c ∨ c = 0 ∨ top < c ∨ (tx && audFmt n == 1) ∨ few then refuse m 2 (ridReg a) a s
  else plainWrite a w s
/-- A write to a FLOW register at offset a. What a write to a register of a flow that does not exist (R169) does is not
stated: it is stored, and names nothing (DESIGN CHOICE, log entry 134). -/
def flowWrite (m a : Nat) (w : Word) (s : State) : State :=
  let o := a - Base.flowBase
  if 0x100000 ≤ o ∧ o < 0x300000 then
    let l := (o - 0x100000) / 32
    if o % 32 = 0 then legCommit m l w s else rsetN s a (w.toNat &&& legMask s.img l (o % 32 / 4))
  else if 0x10000 ≤ o ∧ o < 0x20000 then (if o % 0x20 = 4 then delayWrite a w s else plainWrite a w s)
  else if 0x30000 ≤ o ∧ o < 0x40000 then
    (if o % 0x10 = 0 then audCfgWrite m a false w s else if o % 0x10 = 4 then delayWrite a w s else plainWrite a w s)
  else if 0x40000 ≤ o ∧ o < 0x50000 then (if o % 0x10 = 0 then audCfgWrite m a true w s else plainWrite a w s)
  else if 0x50000 ≤ o ∧ o < 0x54000 then
    (if o % 0x10 = 0 then queueRegWrite m 3 a w s else if o % 0x10 = 4 then delayWrite a w s else plainWrite a w s)
  else if 0x60000 ≤ o ∧ o < 0x70000 ∧ o % 0x10 = 0 then delayWrite a w s
  else plainWrite a w s

/-! ### Meanings -/

/-- MAC_RX_FRAME: a frame ends at port m (R154); see `rxFrame` for the operands. -/
def execMacRxFrame (m : Fin 64) (bytes : List Byte) (drained : Nat) (pcsErr : Bool) (fecCorr fecUncorr : Nat) (s : State) : Out :=
  .next (rxFrame (flowClaim m) m (bytes.map (·.toNat)) drained pcsErr fecCorr fecUncorr s)
/-- LEG_CONTEXT_COMMIT: a write of word 0 of leg l (R172, R173). -/
def execLegContextCommit (m : Fin 9) (l : BitVec 16) (w : Word) (s : State) : Out :=
  .next (hostWrite m (Reg.FLOW_LEG_CTX l.toNat 0) w (flowWrite m (Reg.FLOW_LEG_CTX l.toNat 0) w) s)
/-- FLOW_AUDIO_CFG_COMMIT: a write of ATX_CFG (tx) or ARX_CFG of flow f (R187). -/
def execFlowAudioCfgCommit (m : Fin 9) (tx : Bool) (f : Fin 4096) (w : Word) (s : State) : Out :=
  let a := if tx then Reg.FLOW_ATX_CFG f else Reg.FLOW_ARX_CFG f
  .next (hostWrite m a w (flowWrite m a w) s)
/-- FLOW_LINE_READ: line L of the frame with RTP timestamp ts of video receive flow i (R179-R181). -/
def execFlowLineRead (i : Fin 1024) (ts : Word) (line : Nat) (errs : Fin 3) (s : State) : Out :=
  .next (flowLineRead i ts.toNat line errs s)
/-- FLOW_SKEW_WINDOW: of a video flow, or of an audio flow (R182). -/
def execFlowSkewWindow (audio : Bool) (f : Fin 4096) (s : State) : Out :=
  .next (skewWindow (if audio then 2 else 0) f s)
/-- FLOW_PATH_SILENT_TIMEOUT: path r of a flow (R182). -/
def execFlowPathSilentTimeout (audio : Bool) (f : Fin 4096) (r : Fin 2) (s : State) : Out :=
  .next (pathSilent (if audio then 2 else 0) f r s)
/-- FLOW_TX_PACKET_DUE: the next packet of video transmit flow j (R184-R186). -/
def execFlowTxPacketDue (j : Fin 1024) (s : State) : Out := .next (videoPacketDue j s)
/-- FLOW_AUDIO_TX_PACKET (R188). -/
def execFlowAudioTxPacket (f : Fin 4096) (s : State) : Out := .next (audioPacket f s)
/-- FLOW_ANC_RX_CLOSE: the frame with RTP timestamp ts of ANC receive flow f (R189). -/
def execFlowAncRxClose (f : Fin 1024) (ts : Word) (s : State) : Out := .next (ancClose f ts.toNat s)
/-- FLOW_ANC_TX_SEND (R190). -/
def execFlowAncTxSend (f : Fin 1024) (s : State) : Out := .next (ancSend f s)

end Sys2Proof.Machine
end

