-- ==== Sys2Proof/Machine/SapFamily.lean ====
section
/-! DEFINITION. Serial audio ports, start groups, SYNC-mode buffers, the ASRC, non-audio detection, de-embedding
(12_audio_ports.md R296-R318; 05_serial_video.md R132, R133; 13_audio_matrix.md R326). -/

namespace Sys2Proof.Machine

/-! ### Samples -/

def smpVal (x : Nat) : Nat := x % 2 ^ 32
def smpInt (x : Nat) : Int := sext 32 x
def smpNa (x : Nat) : Bool := bitOf 36 x
def smpHasC (x : Nat) : Bool := bitOf 37 x
def smpWithNa (x : Nat) (na : Bool) : Nat := withBits 36 36 (b2n na) x
/-- The value a stage that alters samples takes: zero where the sample is flagged NA (R317). -/
def smpAltered (x : Nat) : Int := if smpNa x then 0 else smpInt x

/-! ### Ports and groups -/

def sapPort (s : State) (p : Nat) : SapPort := cget {} s.aud.ports p
def setSap (p : Nat) (v : SapPort) (s : State) : State := { s with aud := { s.aud with ports := cset {} s.aud.ports p v } }
def sapState (s : State) (p : Nat) : Nat := fget s (Reg.SAP_STAT p) Fld.SAP_STAT_STATE
def setSapState (p n : Nat) (s : State) : State := fset s (Reg.SAP_STAT p) Fld.SAP_STAT_STATE n
def sapEn (s : State) (p : Nat) : Bool := fbit s (Reg.SAP_CTRL p) Fld.SAP_CTRL_EN
def sapGrouped (g : Img) (p : Nat) : Bool := decide (sapGroup g p < 16)
def grpMembers (g : Img) (k : Nat) : List Nat := (List.range 32).filter (fun p => sapUsed g p && sapGroup g p == k)
def grpUsed (g : Img) (k : Nat) : Bool := !(grpMembers g k).isEmpty
/-- IDLE 0, ARMED 1, STARTED 2. -/
def grpState (s : State) (k : Nat) : Nat := fget s (Reg.SAP_GRP_STAT k) Fld.SAP_GRP_STAT_STATE
def setGrpState (k n : Nat) (s : State) : State := fset s (Reg.SAP_GRP_STAT k) Fld.SAP_GRP_STAT_STATE n
/-- May the port run, as far as its group goes? -/
def grpLets (s : State) (p : Nat) : Bool := !sapGrouped s.img p || grpState s (sapGroup s.img p) == 2
def slotMask (g : Img) (p : Nat) : Nat := 2 ^ sapSlots g p
/-- The masks in use. -/
def rxMask (s : State) (p : Nat) : Nat := rgetN s (Reg.SAP_RX_MASK p)
def txMask (s : State) (p : Nat) : Nat := rgetN s (Reg.SAP_TX_MASK p)
def fmtBits (g : Img) (p : Nat) : Nat := bitsOf 4 3 (sapFmtByte g p)

/-- The audio destination's own record, and the sample it carries now. -/
def audDest (s : State) (b : Nat) : AudDest := cget {} s.aud.dests b
def destSample (s : State) (b : Nat) : Nat := (audDest s b).now

/-! ### Slot formats (Table 12.1) -/

/-- A received slot as a sample. -/
def slotIn (fmt w : Nat) : Nat :=
  if fmt = 1 then w % 2 ^ 32
  else if fmt = 2 then
    w % 2 ^ 32 / 256 * 256 + b2n (bitOf 7 w) * 2 ^ 32 + b2n (bitOf 6 w) * 2 ^ 33 + b2n (bitOf 5 w) * 2 ^ 34
      + b2n (bitOf 3 w) * 2 ^ 35 + 2 ^ 37
  else w % 2 ^ 32 / 256 * 256
/-- A sample as a transmitted slot; P is even parity over bits [31:5]. -/
def slotOut (fmt x : Nat) : Nat :=
  let a := smpVal x / 256 * 256
  if fmt = 1 then smpVal x
  else if fmt = 2 then
    let v := a + b2n (bitOf 32 x) * 128 + b2n (bitOf 33 x) * 64 + b2n (bitOf 34 x) * 32
    v + popcount 27 (v / 32) % 2 * 16 + b2n (bitOf 35 x) * 8
  else a

/-! ### Slips (R309, R310) -/

/-- A member of a start group slips. -/
def groupSlipped (p : Nat) (s : State) : State :=
  if sapGrouped s.img p then
    let a := Reg.SAP_GRP_STAT (sapGroup s.img p)
    raise Src.sapGroupSlip [sapGroup s.img p]
      (fset (fset s a Fld.SAP_GRP_STAT_SLIP 1) a Fld.SAP_GRP_STAT_SLIP_PORT p)
  else s
/-- A SYNC-mode underrun or overrun, counted at `reg`; a realignment is pending. -/
def sapSlipped (p reg : Nat) (s : State) : State :=
  let t := fset (count (cycleBegin s) reg) (Reg.SAP_STAT p) Fld.SAP_STAT_REALIGN 1
  cycleEnd s (groupSlipped p (raise Src.sapSlip [p] t))
/-- Internal samples per frame: 2 at 48 kHz, 1 at 96 kHz. -/
def sapM (g : Img) (p : Nat) : Nat := if sap96 g p then 1 else 2
/-- n0, and the port position p(n) at the present sample. -/
def sapN0 (s : State) (p : Nat) : Nat := rget64 s (Reg.SAP_START_SC_LO p) (Reg.SAP_START_SC_HI p)
def sapPos (s : State) (p : Nat) : Nat := (audSc s + 2 ^ 64 - sapN0 s p) % 2 ^ 64 / sapM s.img p

/-! ### SYNC-mode exchange (Table 12.5) -/

/-- A frame of the port arrives: it is stored, or discarded where 8 are unread. -/
def rxArrive (p : Nat) (vals : List Nat) (s : State) : State :=
  let v := sapPort s p
  if 8 ≤ v.rx.length then sapSlipped p (Reg.SAP_RX_OVERRUN p) s
  else setSap p { v with rx := v.rx ++ [(v.k, vals)] } s
/-- The matrix reads the frame awaited. -/
def rxRead (p : Nat) (s : State) : State :=
  let v := sapPort s p
  match v.rx.find? (fun e => e.1 == v.rxNext) with
  | some e =>
    setSap p { v with rx := v.rx.filter (fun x => decide (v.rxNext < x.1)), rxNext := v.rxNext + 1, rxCur := e.2, rxAwait := false } s
  | none => if v.rxAwait then s else sapSlipped p (Reg.SAP_RX_UNDERRUN p) s
/-- The samples that the transmit positions of a port carry now. -/
def sapTxNow (s : State) (p : Nat) : List Nat := (List.range 32).map (fun i => destSample s (24576 + 32 * p + i))
/-- The matrix places frame k. -/
def txPlaceFrame (p k : Nat) (s : State) : State :=
  let v := sapPort s p
  if 8 ≤ v.tx.length then sapSlipped p (Reg.SAP_TX_OVERRUN p) s
  else setSap p { v with tx := v.tx ++ [(k, sapTxNow s p)] } s
/-- The port takes the frame awaited at an FS. -/
def txTake (p : Nat) (s : State) : State :=
  let v := sapPort s p
  match v.tx.find? (fun e => e.1 == v.txNext) with
  | some e =>
    setSap p { v with tx := v.tx.filter (fun x => decide (v.txNext < x.1)), txNext := v.txNext + 1, txCur := e.2, txAwait := false } s
  | none => if v.txAwait then s else sapSlipped p (Reg.SAP_TX_UNDERRUN p) s
/-- Realignment at a frame boundary of plane 0. -/
def sapRealign (p : Nat) (s : State) : State :=
  if !fbit s (Reg.SAP_STAT p) Fld.SAP_STAT_REALIGN || sapState s p != 2 then s
  else
    let s := fset s (Reg.SAP_STAT p) Fld.SAP_STAT_REALIGN 0
    let v := sapPort s p
    let n := sapPos s p
    let s := setSap p { v with
      rx := v.rx.filter (fun e => decide (n ≤ e.1 + 2)), rxNext := n - 2, rxAwait := true
      tx := v.tx.filter (fun e => decide (e.1 ≤ v.k + 2)), txNext := v.k + 1, txAwait := true, p := n } s
    if 2 ≤ n then
      let t := rxRead p s
      setSap p { sapPort t p with rxNext := n - 1, rxAwait := true } t
    else s
/-- At an internal sample, a port in SYNC mode whose position advances reads a frame and is given one. -/
def sapExchange (p : Nat) (s : State) : State :=
  if !sapUsed s.img p || sapAsrc s.img p || sapState s p != 2 then s
  else
    let v := sapPort s p
    let n := sapPos s p
    if n = v.p then s
    else
      let s := setSap p { v with p := n } s
      if 2 ≤ n then rxRead p s else s
/-- The placement of the same sample, once the destinations carry it. -/
def sapPlace (p was : Nat) (s : State) : State :=
  if !sapUsed s.img p || sapAsrc s.img p || sapState s p != 2 || sapPos s p == was then s
  else txPlaceFrame p (sapPos s p + 2) s

/-! ### The ASRC (R311-R314) -/

def asrcBlk (s : State) (b : Nat) : AsrcBlk := cget {} s.aud.asrc b
def setAsrc (b : Nat) (v : AsrcBlk) (s : State) : State := { s with aud := { s.aud with asrc := cset {} s.aud.asrc b v } }
/-- Not owned 0, UNLOCKED 1, ACQUIRE 2, LOCKED 3. -/
def asrcState (s : State) (b : Nat) : Nat := fget s (Reg.ASRC_STAT b) Fld.ASRC_STAT_STATE
def setAsrcState (b n : Nat) (s : State) : State := fset s (Reg.ASRC_STAT b) Fld.ASRC_STAT_STATE n
/-- The blocks of a port: receive first, then transmit. -/
def sapBlocks (g : Img) (p : Nat) : List Nat := asrcBlocks g (0x000E0000 + p)
/-- Block and channel of slot i in a direction. -/
def sapBlock (g : Img) (p : Nat) (tx : Bool) (i : Nat) : Option (Nat × Nat) :=
  ((sapBlocks g p)[i / 16 + (if tx then cdiv (sapSlots g p) 16 else 0)]?).map (fun b => (b, i % 16))
/-- A value enters a channel of a block, with its NA flag. -/
def asrcFeed (b c : Nat) (x : Int) (na : Bool) (s : State) : State :=
  let v := asrcBlk s b
  let l := (ofInt 32 x :: cget [] v.inputs c).take 192
  let others := v.na.filter (· != c)
  setAsrc b { v with
    inputs := cset [] v.inputs c (if l.all (· == 0) then [] else l), na := if na then c :: others else others } s
/-- A sample enters a channel of a block; one flagged NA as zero (R317). -/
def asrcPush (b c x : Nat) (s : State) : State := asrcFeed b c (smpAltered x) (smpNa x) s
/-- An output sample: zero but in LOCKED; there a free value, since the filter's coefficients are not stated (R313), and
zero where every input it can reach is zero. It is flagged NA as the channel's newest input is (DESIGN CHOICE, log entry
135: which outputs an input's flag reaches is not stated). -/
def asrcOut (b c : Nat) (s : State) : Nat × State :=
  let na := b2n ((asrcBlk s b).na.contains c) * 2 ^ 36
  if asrcState s b != 3 || (cget [] (asrcBlk s b).inputs c).isEmpty then (na, s)
  else (freeValue s % 2 ^ 32 + na, spend s)
/-- A block enters UNLOCKED. -/
def asrcUnlock (b : Nat) (s : State) : State :=
  let was := asrcState s b
  let s := setAsrc b { asrcBlk s b with steady := false } (setAsrcState b 1 s)
  if was = 3 then raise Src.asrcUnlock [b] (count s (Reg.ASRC_UNLOCKS b)) else s
/-- The FIFO fill of a phase error in 1/256 input samples, in units of four samples; 16 when centred. -/
def asrcFill (phase : Int) : Nat := (clampI 0 7 ((4096 + phase) / 1024)).toNat
/-- A window of 256 external samples ends: it lasted `t` units of 1/256 aud cycle, and the FIFO's phase error is `phase`
in 1/256 input samples. The measured ratio is 2^25 / t in Q2.30; what the loop of 2 Hz makes of it is a free value. -/
def asrcWindow (b t : Nat) (phase : Int) (s : State) : State :=
  if asrcState s b = 0 ∨ !inService s then s
  else
    let r := if t = 0 then 2 ^ 32 - 1 else min (2 ^ 32 - 1) (2 ^ 55 / t)
    let good := decide (45 * 2 ^ 30 ≤ 100 * r) && decide (100 * r ≤ 102 * 2 ^ 30)
    let s := spend (rsetN s (Reg.ASRC_RATIO b) (freeValue s))
    let s := fset s (Reg.ASRC_STAT b) Fld.ASRC_STAT_FILL (asrcFill phase)
    let v := asrcBlk s b
    let far := decide (1024 < phase.natAbs)
    if asrcState s b = 1 then
      if good && !v.recentre then setAsrc b { v with steady := decide (phase.natAbs ≤ 64) } (setAsrcState b 2 s) else s
    else if !good || far then
      let s := asrcUnlock b s
      if far then
        let p := ownInst s.img (resId 6 b)
        let grouped := ownClass s.img (resId 6 b) == 0x0E && sapGrouped s.img p
        let s := setAsrc b { asrcBlk s b with recentre := grouped } s
        if grouped then groupSlipped p s else fset s (Reg.ASRC_STAT b) Fld.ASRC_STAT_FILL 4
      else s
    else setAsrc b { v with steady := decide (phase.natAbs ≤ 64) } s
/-- The external clock has been absent for 250 us. -/
def asrcClockLoss (b : Nat) (s : State) : State :=
  if asrcState s b ≤ 1 ∨ !inService s then s else asrcUnlock b s
/-- The phase error has stayed within a quarter sample for 100 ms. -/
def asrcAcquired (b : Nat) (s : State) : State :=
  if asrcState s b = 2 ∧ (asrcBlk s b).steady ∧ inService s then setAsrcState b 3 s else s
/-- The frame boundary of plane 0: a re-centring that waited takes place (R312). -/
def asrcRecentre (b : Nat) (s : State) : State :=
  if (asrcBlk s b).recentre then
    fset (setAsrc b { asrcBlk s b with recentre := false } s) (Reg.ASRC_STAT b) Fld.ASRC_STAT_FILL 4 else s
/-- What the audio ports do at a frame boundary of plane 0. -/
def audFrameBoundary (s : State) : State :=
  let s := (List.range 32).foldl (fun s p => sapRealign p s) s
  (s.aud.asrc.map (·.1)).foldl (fun s b => asrcRecentre b s) s

/-! ### Non-audio detection (R315, R316) -/

def naDet (s : State) (a : Nat) : NaDet := cget {} s.aud.na a
def setNa (a : Nat) (v : NaDet) (s : State) : State := { s with aud := { s.aud with na := cset {} s.aud.na a v } }
def naMode (s : State) (a : Nat) : Nat := fget s (Reg.SAP_NA_CH a) Fld.SAP_NA_CH_MODE
/-- The flag in force of what the detector found. -/
def naOf (mode : Nat) (found : Bool) : Bool := if mode = 1 then false else if mode = 2 then true else found
/-- What channel a delivers where nothing feeds it: zero, flagged NA only where MODE forces it (R315). -/
def naIdle (s : State) (a : Nat) : Nat := smpWithNa 0 (decide (a < 25600) && naMode s a == 2)
def refreshNa (a : Nat) (s : State) : State :=
  let r := Reg.SAP_NA_CH a
  let found := fbit s r Fld.SAP_NA_CH_PRE_NA || fbit s r Fld.SAP_NA_CH_CS_NA
  fset s r Fld.SAP_NA_CH_NA (b2n (naOf (naMode s a) found))
def naSet (a : Nat) (f : FieldRow) (n : Nat) (s : State) : State := refreshNa a (fset s (Reg.SAP_NA_CH a) f n)
/-- A complete block of 192 samples is judged: CS_NA follows bit 1 of channel status byte 0, and clears after two
blocks that show 0. -/
def naBlock (a : Nat) (s : State) : State :=
  let v := naDet s a
  match v.block with
  | none => s
  | some true => naSet a Fld.SAP_NA_CH_CS_NA 1 (setNa a { v with block := none, zeros := 0 } s)
  | some false =>
    let s := setNa a { v with block := none, zeros := v.zeros + 1 } s
    if 1 ≤ v.zeros then naSet a Fld.SAP_NA_CH_CS_NA 0 s else s
/-- A preamble is found in channel a; its Pa lies in the newest `depth` samples. -/
def naFound (a al depth : Nat) (s : State) : State :=
  let v := naDet s a
  let l := (v.line.take depth).map (fun e => (e.1, true, e.2.2)) ++ v.line.drop depth
  naSet a Fld.SAP_NA_CH_PRE_NA 1 (fset (setNa a { v with line := l, age := 0 } s) (Reg.SAP_NA_CH a) Fld.SAP_NA_CH_ALIGN al)
/-- The alignment code of Table 12.7 under which x is Pa and y is Pb; 0 for none. The word is sample bits [31:8]. -/
def naAlign (x y : Nat) : Nat :=
  let p := bitsOf 31 8 x
  let q := bitsOf 31 8 y
  if p / 256 = 0xF872 ∧ q / 256 = 0x4E1F then 1
  else if p / 16 = 0x6F872 ∧ q / 16 = 0x54E1F then 2
  else if p = 0x96F872 ∧ q = 0xA54E1F then 3 else 0
/-- The sample i back from the newest in channel c's detector. -/
def naSample (s : State) (c i : Nat) : Nat := (((naDet s c).line[i]?).map (·.1)).getD 0
/-- Pa and Pb in one channel, in consecutive samples. -/
def naScanOne (a : Nat) (s : State) : State :=
  let al := naAlign (naSample s a 1) (naSample s a 0)
  if al ≠ 0 then naFound a al 2 s else s
/-- Pa and Pb across the pair of positions 2k and 2k + 1, in one sample. -/
def naScanPair (a : Nat) (s : State) : State :=
  let e := a / 2 * 2
  let al := naAlign (naSample s e 0) (naSample s (e + 1) 0)
  if al ≠ 0 then naFound (e + 1) al 1 (naFound e al 1 s) else s
/-- The newest samples are searched for a preamble. -/
def naScan (a : Nat) (s : State) : State := naScanPair a (naScanOne a s)
/-- PRE_NA clears after 8,192 samples without a preamble. -/
def naTimeout (a : Nat) (s : State) : State :=
  if fbit s (Reg.SAP_NA_CH a) Fld.SAP_NA_CH_PRE_NA && decide (8192 ≤ (naDet s a).age) then
    naSet a Fld.SAP_NA_CH_PRE_NA 0 s
  else s
/-- A sample enters the detector; the sample four before it leaves with its flag. What the sample before completed and no
command has judged is judged first. -/
def naPush (a x : Nat) (s : State) : Nat × State :=
  let s := naTimeout a (naBlock a s)
  let s := if smpHasC x || !fbit s (Reg.SAP_NA_CH a) Fld.SAP_NA_CH_CS_NA then s else naSet a Fld.SAP_NA_CH_CS_NA 0 s
  let v := naDet s a
  let r := Reg.SAP_NA_CH a
  let pos := if !smpHasC x then none else if bitOf 35 x then some 0 else v.pos.map (· + 1)
  let bit1 := if pos = some 1 then bitOf 34 x else v.bit1
  let line := ((smpWithNa x false, fbit s r Fld.SAP_NA_CH_PRE_NA, fbit s r Fld.SAP_NA_CH_CS_NA) :: v.line).take 5
  let idle := line.all (fun e => e == (0, false, false)) && pos.isNone
  let s := setNa a { v with
    line := if idle then [] else line, pos := if pos = some 191 then none else pos, bit1 := bit1 && !idle
    block := if pos = some 191 then some bit1 else none
    zeros := if smpHasC x then v.zeros else 0
    age := if fbit s r Fld.SAP_NA_CH_PRE_NA then v.age + 1 else 0 } s
  let s := if a % 2 = 1 then naScan a s else naScanOne a s
  match (naDet s a).line[4]? with
  | some e => (smpWithNa e.1 (naOf (naMode s a) (e.2.1 || e.2.2)), s)
  | none => (naIdle s a, s)

/-! ### An FS edge (R298-R309) -/

/-- Slots of a frame that were sent whole when its FS came after `cycles` BCLK cycles: a frame cut short is abandoned
there, and with DELAY 1 its slots run one cycle late (R298, R299). -/
def slotsSent (g : Img) (p cycles : Nat) : Nat :=
  let n := sapSlots g p
  if cycles < 32 * n then (cycles - b2n (bitOf 1 (sapFmtByte g p))) / 32 else n
/-- The frame that ends at an FS of a running port: its slots leave as far as they were sent, its receive slots are taken
in unless it is malformed. FS_POL says which edge of the pin the command stands for, RX_EDGE on which edges of BCLK the
bits of `din` were sampled (R298). -/
def sapFrameEnd (p cycles : Nat) (din : List Nat) (bad : Bool) (s : State) : State :=
  let g := s.img
  let n := sapSlots g p
  let v := sapPort s p
  let wire := (List.range n).map (fun i =>
    if bitOf i (txMask s p) then some (slotOut (fmtBits g p) ((v.txCur[i]?).getD 0)) else none)
  let s := emit s (.dout p (wire.take (slotsSent g p cycles)))
  if bad then s
  else
    let vals := (List.range n).map (fun i =>
      if bitOf i (rxMask s p) then slotIn (fmtBits g p) ((din[i]?).getD 0) else 0)
    if !sapAsrc g p then rxArrive p vals s
    else (vals.zipIdx).foldl (fun s e =>
      let r := naPush (24576 + 32 * p + e.2) e.1 s
      match sapBlock g p false e.2 with
      | some (b, c) => asrcPush b c r.1 r.2
      | none => r.2) s
/-- The port begins or goes on with a frame at an FS: SYNC mode takes its transmit frame, ASRC mode its blocks' outputs. -/
def sapFrameBegin (p : Nat) (s : State) : State :=
  if !sapAsrc s.img p then txTake p s
  else
    let r := (List.range (sapSlots s.img p)).foldl (fun (acc : List Nat × State) i =>
      match sapBlock s.img p true i with
      | some (b, c) => let o := asrcOut b c acc.2; (acc.1 ++ [o.1], o.2)
      | none => (acc.1 ++ [0], acc.2)) ([], s)
    setSap p { sapPort r.2 p with txCur := r.1 } r.2
/-- The port enters RUNNING: this FS begins frame 0, and the matrix places frame 2. -/
def sapRun (p : Nat) (s : State) : State :=
  let s := rset64 s (Reg.SAP_START_SC_LO p) (Reg.SAP_START_SC_HI p) (audSc s)
  let v := sapPort s p
  let z := List.replicate 32 0
  let s := fset s (Reg.SAP_STAT p) Fld.SAP_STAT_REALIGN 0
  setSapState p 2 (setSap p { v with
    k := 0, rx := [], rxNext := 0, rxCur := [], tx := [(0, z), (1, z), (2, sapTxNow s p)], txNext := 0, txCur := []
    p := 0, rxAwait := false, txAwait := false } s)
/-- The port leaves RUNNING: its positions deliver zero and DOUT is high-impedance. In ASRC mode the clock of its
detectors stops with it, and what they hold is not delivered. -/
def sapStop (p n : Nat) (s : State) : State :=
  let v := sapPort s p
  let s := fset s (Reg.SAP_STAT p) Fld.SAP_STAT_REALIGN 0
  let s := if sapAsrc s.img p then
      (List.range 32).foldl (fun s i => setNa (24576 + 32 * p + i) { naDet s (24576 + 32 * p + i) with line := [] } s) s
    else s
  setSapState p n (setSap p { v with rx := [], rxCur := [], tx := [], txCur := [], good := 0 } s)
/-- A return of the port's group to IDLE that its clock path has not yet met takes effect (R305). -/
def sapIdle (p : Nat) (s : State) : State :=
  let v := sapPort s p
  let s := setSap p { v with idle := false } s
  if v.idle && sapState s p == 2 then sapStop p 1 s else s
/-- The state the port moves to at an FS (Table 12.4): `two` says that two good frames in a row have ended. -/
def sapNext (two : Bool) (p : Nat) (s : State) : State :=
  let s := sapIdle p s
  let st := sapState s p
  if !sapEn s p then (if st = 0 then s else sapStop p 0 s)
  else if !grpLets s p then (if st = 1 then s else sapStop p 1 s)
  else if st = 2 then
    let v := sapPort s p
    setSap p { v with k := v.k + 1 } s
  else if st = 3 then
    if !two then s
    else
      let n := sapPos s p
      let s := setSapState p 2 (setSap p { sapPort s p with
        k := n, p := n, rxNext := n, rxAwait := true, txNext := n, txAwait := true, good := 0 } s)
      if sapAsrc s.img p then s else fset s (Reg.SAP_STAT p) Fld.SAP_STAT_REALIGN 1
  else sapRun p s
/-- Masks committed and waiting take effect at an FS (R304). -/
def sapMasks (p : Nat) (s : State) : State :=
  let v := sapPort s p
  let s := match v.rxPend with | some m => rsetN s (Reg.SAP_RX_MASK p) m | none => s
  let s := match v.txPend with | some m => rsetN s (Reg.SAP_TX_MASK p) m | none => s
  setSap p { v with rxPend := none, txPend := none } s
/-- An FS edge reaches port p, `cycles` BCLK cycles after the last one. -/
def sapFs (p cycles : Nat) (din : List Nat) (s : State) : State :=
  let v := sapPort s p
  let bad := decide (cycles ≠ 32 * sapSlots s.img p)
  let two := v.seen && !bad && decide (1 ≤ v.good)
  let s := if v.seen then
      let s := fset s (Reg.SAP_FRAME_LEN p) Fld.SAP_FRAME_LEN_LEN cycles
      let s := if bad then raise Src.sapFrameErr [p] (count s (Reg.SAP_FRAME_ERR p)) else s
      if sapState s p = 2 then sapFrameEnd p cycles din bad s else s
    else s
  let s := setSap p { sapPort s p with seen := true, good := if v.seen && !bad && sapState s p == 3 then v.good + 1 else 0 } s
  let s := sapNext two p (sapMasks p s)
  if sapState s p = 2 then sapFrameBegin p s else s
/-- In the cast form of BOOT the enabled slots of the frame that ends carried zero (02 Table 2.6, 18 R448). -/
def sapZero (p cycles : Nat) (s : State) : State :=
  emit s (.dout p (((List.range (sapSlots s.img p)).map (fun i =>
    if bitOf i (txMask s p) then some 0 else none)).take (slotsSent s.img p cycles)))
/-- An FS edge on the pins of port c reaches every port in use that names them. -/
def sapFsEdge (c cycles : Nat) (din : List (Nat × List Nat)) (s : State) : State :=
  if inCast s then (List.range 32).foldl (fun s p =>
    if sapUsed s.img p && sapClkSrc s.img p == c then sapZero p cycles s else s) s
  else if !inService s then s
  else (List.range 32).foldl (fun s p =>
    if sapUsed s.img p && sapClkSrc s.img p == c then
      sapFs p cycles (((din.find? (fun e => e.1 == p)).map (·.2)).getD []) s else s) s
/-- No FS for 250 us on the pins of port c; what waited for the next FS, EN or a return of the group to IDLE, is reacted to
at once (R305). -/
def sapClockLost (c : Nat) (s : State) : State :=
  if !inService s then s
  else (List.range 32).foldl (fun s p =>
    if sapUsed s.img p && sapClkSrc s.img p == c && sapState s p == 2 then
      let held := (sapPort s p).idle
      let s := raise Src.sapClkLoss [p] (count (sapStop p 3 s) (Reg.SAP_CLK_LOSS p))
      let s := setSap p { sapPort s p with idle := false } s
      if !sapEn s p then setSapState p 0 s else if held || !grpLets s p then setSapState p 1 s else s
    else s) s

/-! ### Masks and groups (R304, R306-R308) -/

/-- A commit of one port's shadows. -/
def maskCommit (p : Nat) (rx tx : Bool) (s : State) : State :=
  let v := sapPort s p
  let v := if rx then { v with rxPend := some (rgetN s (Reg.SAP_RX_MASK_SH p)) } else v
  let v := if tx then { v with txPend := some (rgetN s (Reg.SAP_TX_MASK_SH p)) } else v
  setSap p v s
/-- Ports in CLK_LOST react at once to EN and to their group (R305). -/
def sapLostReact (p : Nat) (s : State) : State :=
  if sapState s p = 3 then
    (if !sapEn s p then sapStop p 0 s else if !grpLets s p then sapStop p 1 s else s) else s
/-- The group of port p returns to IDLE: a running port meets it at its next FS, even where the group has started again
by then (R305). -/
def sapGrpIdle (p : Nat) (s : State) : State :=
  let s := sapLostReact p s
  setSap p { sapPort s p with idle := sapState s p == 2 } s
/-- A trigger reaches group k: it starts from ARMED only. -/
def grpTrigger (k : Nat) (s : State) : State :=
  if grpState s k = 1 then
    let s := rset64 (setGrpState k 2 s) (Reg.SAP_GRP_START_SC_LO k) (Reg.SAP_GRP_START_SC_HI k) (audSc s)
    fset s (Reg.SAP_GRP_CTRL k) Fld.SAP_GRP_CTRL_AT_EN 0
  else s
def grpTk (s : State) (k : Nat) : Nat :=
  let v := fget s (Reg.SAP_GRP_CTRL k) Fld.SAP_GRP_CTRL_TK
  if v = 3 then 0 else v
def grpAt (s : State) (k : Nat) : Nat := rget64 s (Reg.SAP_GRP_AT_LO k) (Reg.SAP_GRP_AT_HI k)
/-- A write of SAP_GRP_CTRL: ARM, then the masks, then a timed start, then START_NOW; ARM = 0 wins over a trigger. -/
def grpCtrlWrite (k : Nat) (w : Nat) (s : State) : State :=
  let a := Reg.SAP_GRP_CTRL k
  let s := plainWrite a (w32 w) s
  let s := if bitOf 3 w then (grpMembers s.img k).foldl (fun s p => maskCommit p true true s) s else s
  let s := if !bitOf 0 w then (grpMembers s.img k).foldl (fun s p => sapGrpIdle p s) (setGrpState k 0 s)
    else if grpState s k = 0 then setGrpState k 1 s else s
  let tk := grpTk s k
  let raw := if tk = 0 then otRaw s else tkRaw s (tk - 1)
  let s := if bitOf 2 w && decide (grpAt s k * 2 ^ 32 < raw) then
      grpTrigger k (raise Src.sapStartLate [k] (fset s (Reg.SAP_GRP_STAT k) Fld.SAP_GRP_STAT_LATE 1))
    else s
  if bitOf 1 w then grpTrigger k s else s
/-- The selected time reaches the target. -/
def grpAtReached (k : Nat) (s : State) : State :=
  if !inService s || !grpUsed s.img k || !fbit s (Reg.SAP_GRP_CTRL k) Fld.SAP_GRP_CTRL_AT_EN then s
  else grpTrigger k (advanceTo (grpTk s k) (grpAt s k) s)
/-- A filtered rising edge of AUD_START. -/
def audStart (s : State) : State :=
  let s := setFiltered 4 true s
  if !inService s then s
  else (List.range 16).foldl (fun s k => if grpUsed s.img k && grpPinEn s.img k then grpTrigger k s else s) s

/-- What a SAP register belongs to that is not in use: it reads 0 and refuses writes with reason 2. -/
def sapAbsent (g : Img) (a : Nat) : Bool :=
  let o := a - Base.sapBase
  if o < 0x2000 then !sapUsed g (o / 0x100)
  else if 0x4000 ≤ o ∧ o < 0x4200 then !grpUsed g ((o - 0x4000) / 0x20) else false
/-- A write to a SAP register at offset a. -/
def sapWrite (m a : Nat) (w : Word) (s : State) : State :=
  let o := a - Base.sapBase
  let n := w.toNat
  if sapAbsent s.img a then refuse m 2 (ridReg a) a s
  else if o < 0x2000 then
    let p := o / 0x100
    if o % 0x100 = 0 then sapLostReact p (plainWrite a w s)
    else if o % 0x100 = 8 ∨ o % 0x100 = 12 then rsetN s a (n % slotMask s.img p)
    else if o % 0x100 = 0x18 then maskCommit p (bitOf 0 n) (bitOf 1 n) s
    else plainWrite a w s
  else if 0x4000 ≤ o ∧ o < 0x4200 ∧ o % 0x20 = 0 then grpCtrlWrite ((o - 0x4000) / 0x20) n s
  else if 0x100000 ≤ o then
    let c := (o - 0x100000) / 4
    if c < 25600 then refreshNa c (plainWrite a w s) else s
  else plainWrite a w s

/-! ### De-embedding (05 R132, R133; 13 R326) -/

def deemb (s : State) (v : Nat) : Deemb := cget {} s.aud.deemb v
def setDeemb (v : Nat) (d : Deemb) (s : State) : State := { s with aud := { s.aud with deemb := cset {} s.aud.deemb v d } }
/-- A collected frame enters the elastic store, or is dropped where the store is full. -/
def deembClose (v : Nat) (s : State) : State :=
  let d := deemb s v
  let row := (List.range 16).map (fun c =>
    match d.acc.find? (fun e => e.1 == c / 4) with | some e => (e.2[c % 4]?).getD 0 | none => 0)
  let d' := { d with acc := [], groups := d.acc.map (·.1) }
  if d.acc.isEmpty then s
  else if 4 ≤ d.store.length then raise Src.audDeembSlip [v] (count (setDeemb v d' s) Reg.AUD_DEEMB_SLIP)
  else setDeemb v { d' with store := d.store ++ [row], primed := d.primed || decide (2 ≤ d.store.length + 1) } s
/-- Does the receiver of lane v de-embed group g (0 to 7 for groups 1 to 8)? ST 299-2 carries groups 5 to 8, from 3G
level A up; of level B only data stream 1 counts (R132). -/
def deembs (s : State) (v g : Nat) (second : Bool) : Bool :=
  let b := fbit s (Reg.VLANE_RX_STAT v) Fld.VLANE_RX_STAT_LEVEL_B
  !(b && second) && (decide (g < 4) || (!b && decide (3 ≤ fget s (Reg.VLANE_RX_STAT v) Fld.VLANE_RX_STAT_RATE_DET)))
/-- An audio data packet of group g on lane v with one sample of its four channels (24 bits in [31:8], V, U, C, Z) and
its clock phase. Outcome 0 good or corrected, 1 uncorrectable, 2 the group's packets have stopped; `sync` says that the
control packet declares synchronous 48 kHz audio. The sixteen positions of a lane belong to groups 1 to 4; where the
samples of groups 5 to 8 would be delivered is not stated, and they reach none (DESIGN CHOICE, log entry 136). -/
def deembPacket (v g : Nat) (second : Bool) (outcome : Nat) (sync : Bool) (phase : Nat) (smp : List Nat) (s : State) : State :=
  if !rxRuns s.img v || rxState s v != 3 || !inService s || !deembs s v g second then s
  else
    let d := deemb s v
    let async := if sync || outcome == 2 then d.asyncG.filter (· != g) else g :: d.asyncG.filter (· != g)
    let s := rxStat v Fld.VLANE_RX_STAT_AUD_ASYNC (b2n (!async.isEmpty)) s
    let d := { d with asyncG := async }
    if outcome = 2 ∨ !sync then
      let d := { d with acc := d.acc.filter (fun e => e.1 != g), groups := d.groups.filter (· != g) }
      setDeemb v (if d.groups.isEmpty && d.acc.isEmpty then { asyncG := async } else d) s
    else
      let smp := if outcome = 1 then cget [0, 0, 0, 0] d.last g
        else (smp.take 4).map (fun x => x % 2 ^ 36 / 256 * 256 + 2 ^ 37 + phase % 8192 * 2 ^ 38)
      let s := if outcome = 1 then raise Src.sdiAudErr [v] (count s (Reg.VLANE_RX_AUD_ERR v)) else s
      let again := d.acc.any (fun e => e.1 == g)
      let s := setDeemb v { d with last := cset [0, 0, 0, 0] d.last g smp } s
      let s := if again then deembClose v s else s
      let d := deemb s v
      let s := setDeemb v { d with acc := d.acc ++ [(g, smp)] } s
      let d := deemb s v
      if !d.groups.isEmpty && d.groups.all (fun k => d.acc.any (fun e => e.1 == k)) then deembClose v s else s
/-- The timeline reads a 48 kHz frame of lane v: an empty store repeats the whole frame; a lane out of LOCKED delivers
zero. -/
def deembRead (v : Nat) (s : State) : State :=
  let d := deemb s v
  if rxState s v != 3 then setDeemb v {} s
  else if !d.primed then s
  else match d.store with
    | [] => raise Src.audDeembSlip [v] (count s Reg.AUD_DEEMB_SLIP)
    | r :: t => setDeemb v { d with store := t, cur := r } s

/-! ### Meanings -/

/-- SDI_AUDIO_PACKET: group g (0 to 7) of lane v, in data stream 2 where `second` is set (05 R132, R133). -/
def execSdiAudioPacket (v : Fin 512) (g : Fin 8) (second : Bool) (outcome : Fin 3) (sync : Bool) (phase : BitVec 13)
    (samples : List Nat) (s : State) : Out :=
  .next (deembPacket v g second outcome sync phase.toNat samples s)
/-- SAP_FRAME_SYNC: an active FS edge on the pins of port c, `cycles` BCLK cycles after the last, with the slots received
by each port that names them (R298-R309). -/
def execSapFrameSync (c : Fin 32) (cycles : Nat) (din : List (Nat × List Nat)) (s : State) : Out :=
  .next (sapFsEdge c cycles din s)
/-- SAP_CLK_LOSS_TIMEOUT (R305). -/
def execSapClkLossTimeout (c : Fin 32) (s : State) : Out := .next (sapClockLost c s)
/-- SAP_MASK_COMMIT (R304). -/
def execSapMaskCommit (m : Fin 9) (p : Fin 32) (rx tx : Bool) (s : State) : Out :=
  let a := Reg.SAP_MASK_COMMIT p
  let w := w32 (b2n rx + 2 * b2n tx)
  .next (hostWrite m a w (sapWrite m a w) s)
/-- A write of SAP_GRP_CTRL. -/
def grpHostWrite (m k w : Nat) (s : State) : State :=
  hostWrite m (Reg.SAP_GRP_CTRL k) (w32 w) (sapWrite m (Reg.SAP_GRP_CTRL k) (w32 w)) s
/-- The RW bits of SAP_GRP_CTRL: START_NOW and MASK_COMMIT read 0. -/
def grpCtrl (s : State) (k : Nat) : Nat := withBits 3 3 0 (withBits 1 1 0 (rgetN s (Reg.SAP_GRP_CTRL k)))
/-- SAP_GROUP_MASK_COMMIT: the other fields keep their values (R304). -/
def execSapGroupMaskCommit (m : Fin 9) (k : Fin 16) (s : State) : Out := .next (grpHostWrite m k (withBits 3 3 1 (grpCtrl s k)) s)
/-- SAP_GROUP_ARM (R306). -/
def execSapGroupArm (m : Fin 9) (k : Fin 16) (s : State) : Out := .next (grpHostWrite m k (withBits 0 0 1 (grpCtrl s k)) s)
/-- SAP_GROUP_DISARM (R306). -/
def execSapGroupDisarm (m : Fin 9) (k : Fin 16) (s : State) : Out := .next (grpHostWrite m k (withBits 0 0 0 (grpCtrl s k)) s)
/-- SAP_GROUP_START_NOW (R306). -/
def execSapGroupStartNow (m : Fin 9) (k : Fin 16) (s : State) : Out := .next (grpHostWrite m k (withBits 1 1 1 (grpCtrl s k)) s)
/-- AUD_START_EDGE (R306, R308). -/
def execAudStartEdge (s : State) : Out := .next (audStart s)
/-- SAP_GROUP_AT_ENABLE: AT_EN = 1 with the time named by tk (R308). -/
def execSapGroupAtEnable (m : Fin 9) (k : Fin 16) (tk : Fin 4) (s : State) : Out :=
  .next (grpHostWrite m k (withBits 5 4 tk (withBits 2 2 1 (grpCtrl s k))) s)
/-- SAP_GROUP_AT_REACHED (R308). -/
def execSapGroupAtReached (k : Fin 16) (s : State) : Out := .next (grpAtReached k s)
/-- ASRC_WINDOW_END: block b's window lasted t units of 1/256 aud cycle; phase error in 1/256 input samples (R311, R312). -/
def execAsrcWindowEnd (b : Fin 256) (t : Nat) (phase : Int) (s : State) : Out := .next (asrcWindow b t phase s)
/-- ASRC_CLOCK_LOSS_TIMEOUT (R311). -/
def execAsrcClockLossTimeout (b : Fin 256) (s : State) : Out := .next (asrcClockLoss b s)
/-- ASRC_ACQUIRE_TIMER (R311). -/
def execAsrcAcquireTimer (b : Fin 256) (s : State) : Out := .next (asrcAcquired b s)
/-- NA_CS_BLOCK (R315). -/
def execNaCsBlock (a : Fin 25600) (s : State) : Out := .next (naBlock a s)
/-- NA_PREAMBLE_DETECT (R315). -/
def execNaPreambleDetect (a : Fin 25600) (s : State) : Out := .next (naScan a s)
/-- NA_PREAMBLE_TIMEOUT (R315). -/
def execNaPreambleTimeout (a : Fin 25600) (s : State) : Out := .next (naTimeout a s)

end Sys2Proof.Machine
end

