-- ==== Sys2Proof/Machine/AudioFamily.lean ====
section
/-! DEFINITION. The audio matrix: the sample, paths and filters, audio takes and crossfades, mix buses, tones, meters
(13_audio_matrix.md R319-R344; the mirror agent's part, 16_redundant_pair.md R402-R408). -/

namespace Sys2Proof.Machine

/-! ### Channels (R321, Tables 13.1 and 13.2) -/

def srcChan (g : Img) (a : Nat) : Bool :=
  if a < 24576 then true
  else if a < 25600 then sapUsed g ((a - 24576) / 32)
  else if a < 27648 then decide (a - 25600 < audBuses g)
  else if a < 27904 then decide (a - 27648 < audTones g) else false
def dstChan (g : Img) (b : Nat) : Bool :=
  if b < 24576 then true else if b < 25600 then sapUsed g ((b - 24576) / 32) else decide (b < 32768)
/-- A receive flow with ASRC blocks delivers at 96 kHz (R327). -/
def posBlocks (s : State) (p : Nat) : List Nat :=
  match posFlow s p with | some f => asrcBlocks s.img (0x00100000 + f) | none => []
def src96 (s : State) (a : Nat) : Bool :=
  if a < 8192 then false
  else if a < 24576 then !(posBlocks s (a - 8192)).isEmpty
  else if a < 25600 then sapAsrc s.img ((a - 24576) / 32) || sap96 s.img ((a - 24576) / 32) else true
def dst96 (g : Img) (b : Nat) : Bool :=
  if b < 24576 then false
  else if b < 25600 then sapAsrc g ((b - 24576) / 32) || sap96 g ((b - 24576) / 32) else true
/-- An SDI embed position in plane 1; the lanes of a quad-link output lie in the plane of its first (04 R82). -/
def dstPlane1 (g : Img) (b : Nat) : Bool := decide (b < 8192) && destPlane g (laneDest g (b / 16)) == 1
/-- The ASRC block of a plane-1 destination (R327). -/
def dstBlock (g : Img) (b : Nat) : Option Nat := (asrcBlocks g (0x000F0000 + b / 16 * 16)).head?
/-- Path class of Table 13.4 as AUD_B_STAT.CLASS has it: 1 BYPASS, 2 UP, 3 DOWN, 4 DIRECT, 5 ASRC. -/
def pathClass (s : State) (a b : Nat) : Nat :=
  if dstPlane1 s.img b then 5
  else match src96 s a, dst96 s.img b with
    | false, false => 1
    | false, true => 2
    | true, false => 3
    | true, true => 4

/-! ### Filters (R324) and tables -/

/-- c[k] of R324 for k ≥ 0: 2^23 at 0, 0 at even k, and 2^24 h(k) w(k) rounded half to even at odd k. -/
def halfBand (k : Nat) : Int :=
  ([8388608, 5320875, 0, -1722425, 0, 974334, 0, -636570, 0, 438897, 0, -308050, 0, 215942, 0, -149320, 0, 100865, 0,
    -65956, 0, 41338, 0, -24526, 0, 13533, 0, -6749, 0, 2878, 0, -908] : List Int).getD k 0
/-- Sum over k = -31..31 of c[k] x(31 + k), x by samples back. -/
def filterSum (x : Nat → Int) : Int :=
  (List.range 32).foldl (fun (acc : Int) (k : Nat) =>
    let c := halfBand k
    if c = 0 then acc else if k = 0 then acc + c * x 31 else acc + c * (x (31 + k) + x (31 - k))) 0

/-- 2^100 π, rounded down. -/
def piFix : Int := 3982441812995697363688351113952
/-- Terms of the sine series from term t on, in units of 2^-100. -/
def sinTerms (x2 : Int) : Nat → Int → Nat → Int
  | 0, _, _ => 0
  | n + 1, t, k => t + sinTerms x2 n (-(t * x2) / (2 ^ 100 * ((2 * k) * (2 * k + 1) : Nat))) (k + 1)
/-- T[i] of R337: (2^31 - 1) sin(2π i / 4,096), rounded half to even. -/
def toneTable (i : Nat) : Int :=
  let j := i % 4096
  let q := if j % 2048 ≤ 1024 then j % 2048 else 2048 - j % 2048
  let x : Int := 2 * piFix * Int.ofNat q / 4096
  let v := rne (2147483647 * sinTerms (x * x / 2 ^ 100) 24 x 1) (2 ^ 100)
  if j < 2048 then v else -v

/-! ### Source samples -/

def audHist (s : State) (a : Nat) : List Nat := cget [] s.aud.hist a
def histMax : Nat := 128
/-- A source sample enters the channel's line; a line of zeros alone is not kept. -/
def histPush (a x : Nat) (s : State) : State :=
  let l := (x :: audHist s a).take histMax
  { s with aud := { s.aud with hist := cset [] s.aud.hist a (if l.all (· == 0) then [] else l) } }
/-- The sample of channel a that is i of its own samples back. -/
def histAt (s : State) (a i : Nat) : Nat := (audHist s a)[i]?.getD 0
/-- The 48 kHz sample of channel a in the stream z of R324, `back` internal samples before sample n; 0 between them. -/
def zAt (s : State) (a n back : Nat) : Int :=
  if (n + back) % 2 = 0 then smpAltered (histAt s a ((back - n % 2) / 2)) else 0
/-- A source on the internal timeline, `base` internal samples late, as a stage that alters samples takes it. A 48 kHz
source is raised by UP, of which 31 samples are counted in the lateness. -/
def internalAt (s : State) (n base a : Nat) : Int :=
  if src96 s a then smpAltered (histAt s a base)
  else sat32 (rne (2 * filterSum (fun i => zAt s a n (base - 31 + i))) (2 ^ 24))
/-- The same for a route, zero where it has no source. -/
def routeAt (s : State) (n base : Nat) : Option Nat → Int
  | none => 0
  | some a => internalAt s n base a

/-! ### Tones and buses (R336, R337) -/

/-- The next phase and sample of tone generator t. -/
def toneStep (s : State) (t : Nat) : Nat × Int :=
  let p := (cget 0 s.aud.phase t + rgetN s (Reg.AUD_TONE_FREQ t)) % 2 ^ 32
  let i := p / 2 ^ 20
  let f := p / 16 % 2 ^ 16
  let v := toneTable i + (toneTable (i + 1) - toneTable i) * Int.ofNat f / 2 ^ 16
  let r := fget s (Reg.AUD_TONE_LEVEL t) Fld.AUD_TONE_LEVEL_LEVEL
  let level : Nat := if r ≤ 2 ^ 23 then r else Config.outOfRange r
  (p, sat32 (rne (v * level) (2 ^ 23)))
def toneOn (s : State) (t : Nat) : Bool := fbit s (Reg.AUD_TONE_CTRL t) Fld.AUD_TONE_CTRL_MODE
def mixW0 (s : State) (b i : Nat) : Nat := rgetN s (Reg.AUD_MIX_W b (2 * i))
def mixGain (s : State) (b i : Nat) : Int := sext 24 (rgetN s (Reg.AUD_MIX_W b (2 * i + 1)))
/-- acc of R336 over the entries in order, and whether the clamp altered it. -/
def busAcc (s : State) (b : Nat) : Int × Bool :=
  (List.range 64).foldl (fun (r : Int × Bool) i =>
    let w := mixW0 s b i
    if bitOf 15 w then
      let x := r.1 + smpAltered (destSample s (25600 + bitsOf 12 0 w)) * mixGain s b i
      let y := clampI (-(2 ^ 55)) (2 ^ 55 - 1) x
      (y, r.2 || y != x)
    else r) (0, false)
/-- Output sample of bus b from the feeds of the sample before; SAT where a limit altered a value. -/
def busStep (s : State) (b : Nat) : Int × Bool :=
  let r := busAcc s b
  let v := rne r.1 (2 ^ 20)
  (sat32 v, r.2 || sat32 v != v)

/-! ### The sources' samples at sample n -/

def sampleOf (x : Int) : Nat := ofInt 32 x
/-- Lanes whose positions carry something: those with a store, and those whose detectors have not yet settled. -/
def deembLanes (s : State) : List Nat :=
  (s.aud.deemb.map (·.1) ++ s.aud.na.map (fun (e : Nat × NaDet) => e.1 / 16)).eraseDups.filter (fun v => decide (v < 512))
/-- SDI de-embed positions, at an even sample; a lane out of LOCKED feeds zeros to its detectors (05 R133). -/
def takeDeemb (s : State) : State :=
  (deembLanes s).foldl (fun s v =>
    let s := deembRead v s
    let d := deemb s v
    (List.range 16).foldl (fun s c =>
      let r := naPush (16 * v + c) ((d.cur[c]?).getD 0) s
      histPush (16 * v + c) r.1 r.2) s) s
/-- The ASRC block and channel of packet audio receive position p, where its flow owns blocks (R327). -/
def posBlock (s : State) (p : Nat) : Option (Nat × Nat) :=
  let c := (posFlow s p).elim 0 (fun f => p - bitsOf 29 16 (rxCfg s 2 f))
  ((posBlocks s p)[c / 16]?).map (fun b => (b, c % 16))
/-- The sample that stands at packet audio receive position p; an AM824 flow's carries C bits. -/
def posWord (s : State) (p : Nat) : Nat :=
  posSample s p % 2 ^ 36 + (if (posFlow s p).any (fun f => audFmt (rxCfg s 2 f) == 2) then 2 ^ 37 else 0)
/-- The flow f, which owns ASRC blocks, has delivered a sample: at the flow's own rate it enters each channel's detector
and then its block (R315, R327). -/
def ownDeliver (f : Nat) (s : State) : State :=
  let cfg := rxCfg s 2 f
  if (asrcBlocks s.img (0x00100000 + f)).isEmpty || !running s then s
  else ((List.range (audChannels cfg)).map (bitsOf 29 16 cfg + ·)).foldl (fun s p =>
    if posFlow s p != some f then s
    else
      let r := naPush (8192 + p) (posWord s p) s
      match posBlock r.2 p with
      | some (b, c) => asrcPush b c r.1 r.2
      | none => r.2) s
/-- Packet audio receive positions: at an even sample the position's sample enters its detector; where the flow owns ASRC
blocks the channel takes its block's output at every sample. -/
def takePackets (even : Bool) (s : State) : State :=
  ((s.flow.rxPos.map (·.1)).filter (· < 16384)).foldl (fun s p =>
    let a := 8192 + p
    if (posBlocks s p).isEmpty then
      if even then
        let r := naPush a (posWord s p) s
        histPush a r.1 r.2
      else s
    else match posBlock s p with
      | none => histPush a (naIdle s a) s
      | some (b, c) =>
        let o := asrcOut b c s
        histPush a o.1 o.2) s
/-- SAP receive positions of the ports in use. -/
def takePorts (even : Bool) (s : State) : State :=
  (List.range 32).foldl (fun s p =>
    if !sapUsed s.img p then s
    else
      let v := sapPort s p
      (List.range (sapSlots s.img p)).foldl (fun s i =>
        let a := 24576 + 32 * p + i
        if sapAsrc s.img p then
          match sapBlock s.img p false i with
          | none => histPush a (naIdle s a) s
          | some (b, c) => let o := asrcOut b c s; histPush a (if sapState s p = 2 then o.1 else naIdle s a) o.2
        else if even || sap96 s.img p then
          let r := naPush a (if sapState s p = 2 then (v.rxCur[i]?).getD 0 else 0) s
          histPush a r.1 r.2
        else s) s) s
/-- Mix bus outputs, from the feeds as the last sample left them. -/
def takeBuses (s : State) : State :=
  let outs := (List.range (audBuses s.img)).map (fun b => (b, busStep s b))
  outs.foldl (fun s e =>
    let s := if e.2.2 then fset s (Reg.AUD_BUS_STAT e.1) Fld.AUD_BUS_STAT_SAT 1 else s
    histPush (25600 + e.1) (sampleOf e.2.1) s) s
/-- Tone generators. -/
def takeTones (s : State) : State :=
  (List.range (audTones s.img)).foldl (fun s t =>
    if toneOn s t then
      let r := toneStep s t
      histPush (27648 + t) (sampleOf r.2) { s with aud := { s.aud with phase := cset 0 s.aud.phase t r.1 } }
    else histPush (27648 + t) 0 s) s
/-- Channels whose NA flag MODE forces to 1. -/
def naForced (s : State) : List Nat :=
  ((s.regs.filter (fun e => decide (Reg.SAP_NA_CH 0 ≤ e.1) && decide (e.1 < Reg.SAP_NA_CH 25600))).map
    (fun e => (e.1 - Reg.SAP_NA_CH 0) / 4)).filter (fun a => naMode s a == 2)
/-- Lines of sources that deliver nothing now go on with zeros. -/
def drainHist (even : Bool) (s : State) : State :=
  (s.aud.hist.map (·.1) ++ naForced s).eraseDups.foldl (fun s a =>
    let fed := if a < 8192 then (deembLanes s).contains (a / 16)
      else if a < 24576 then s.flow.rxPos.any (fun e => e.1 == a - 8192)
      else srcChan s.img a
    if fed || !(even || src96 s a) then s else histPush a (naIdle s a) s) s
def takeSources (even : Bool) (s : State) : State :=
  let s := drainHist even s
  let s := takeTones (takeBuses s)
  let s := if even then takeDeemb s else s
  takePorts even (takePackets even s)
/-- A sample number that a re-phase omits repeats every source channel's sample, and what a filter of a destination would
have taken from it (14 R369). -/
def repeatSample (even : Bool) (s : State) : State :=
  let s := (s.aud.hist.map (·.1)).foldl (fun s a => if even || src96 s a then histPush a (histAt s a 0) s else s) s
  { s with aud := { s.aud with dests := s.aud.dests.map (fun e =>
    (e.1, match e.2.v with | [] => e.2 | h :: t => { e.2 with v := (h :: h :: t).take 63 })) } }

/-! ### Routes and crossfades (R331-R334) -/

def bStat (b : Nat) : Nat := Reg.AUD_B_STAT b
/-- The present source of a destination; none where it carries zero. -/
def audRoute (s : State) (b : Nat) : Option Nat :=
  if fbit s (bStat b) Fld.AUD_B_STAT_ZERO then none else some (fget s (bStat b) Fld.AUD_B_STAT_CUR_SRC)
def setDestA (b : Nat) (v : AudDest) (s : State) : State := { s with aud := { s.aud with dests := cset {} s.aud.dests b v } }
/-- Set the route of a destination and show it: CUR_SRC, ZERO, CLASS, NOASRC. -/
def setAudRoute (b : Nat) (r : Option Nat) (s : State) : State :=
  let a := bStat b
  let s := fset (fset s a Fld.AUD_B_STAT_ZERO (b2n r.isNone)) a Fld.AUD_B_STAT_CUR_SRC (r.getD 0)
  let s := fset s a Fld.AUD_B_STAT_CLASS ((r.map (fun x => pathClass s x b)).getD 0)
  fset s a Fld.AUD_B_STAT_NOASRC (b2n (dstPlane1 s.img b && (dstBlock s.img b).isNone))
/-- Does a crossfade of destination b cover sample n? -/
def fadeCovers (s : State) (n b : Nat) : Bool :=
  match (audDest s b).fade with | some (_, i) => decide ((n + 2 ^ 64 - i) % 2 ^ 64 < 192) | none => false
/-- Crossfades that cover sample n. -/
def fadesAt (s : State) (n : Nat) : Nat := (s.aud.dests.filter (fun e => fadeCovers s n e.1)).length
/-- A change is a cut where both paths are BYPASS (R332). -/
def isCut (s : State) (b : Nat) (old new : Option Nat) : Bool :=
  match old, new with | some x, some y => pathClass s x b == 1 && pathClass s y b == 1 | _, _ => false
/-- The take that decides each destination of a salvo: the last of it in ring order. -/
def lastTakes : List Take → List Take
  | [] => []
  | t :: r => if r.any (fun u => u.dest == t.dest) then lastTakes r else t :: lastTakes r
/-- Crossfades a salvo would start. -/
def fadesOf (s : State) (v : AudSalvo) : Nat :=
  ((lastTakes v.takes).filter (fun t => audRoute s t.dest != t.src && !isCut s t.dest (audRoute s t.dest) t.src)).length
/-- d of R331 for a target sample. -/
def scDist (at_ n : Nat) : Nat := (at_ + 2 ^ 48 - n % 2 ^ 48) % 2 ^ 48
/-- May the salvo execute whole at sample n? -/
def salvoReady (s : State) (n : Nat) (v : AudSalvo) : Bool :=
  (match v.due with | none => true | some a => scDist a n == 0 || decide (2 ^ 47 < scDist a n))
    && !(v.takes.any (fun t => fadeCovers s n t.dest)) && decide (fadesAt s n + fadesOf s v ≤ 4096)
/-- One take at sample n: no change, a cut, or a crossfade (R332). -/
def audTake (n : Nat) (t : Take) (s : State) : State :=
  let old := audRoute s t.dest
  if old = t.src then s
  else
    let cut := isCut s t.dest old t.src
    let s := markDirty (.audio t.dest) (setAudRoute t.dest t.src s)
    if cut then s
    else fset (setDestA t.dest { audDest s t.dest with fade := some (old, n) } s) (bStat t.dest) Fld.AUD_B_STAT_XF 1
/-- Execute committed salvos in ring order at sample n, up to the first that must wait. -/
def audExecute (n : Nat) : List AudSalvo → State → List AudSalvo × State
  | [], s => ([], s)
  | v :: r, s =>
    if v.refused then let x := audExecute n r s; (v :: x.1, x.2)
    else if v.executed then let x := audExecute n r s; (v :: x.1, x.2)
    else if !salvoReady s n v then (v :: r, s)
    else
      let late := match v.due with | some a => decide (2 ^ 47 < scDist a n) | none => false
      let s := if late then count s Reg.AUD_AT_LATE else s
      let s := (lastTakes v.takes).foldl (fun s t => audTake n t s) s
      let x := audExecute n r s
      ({ v with executed := true } :: x.1, x.2)
/-- AUD_TAKE_CI passes every leading salvo that is finished. -/
def audFree (s : State) : State :=
  let l := s.aud.salvos.dropWhile (fun v => v.refused || v.executed)
  let ci := match l with | v :: _ => v.first | [] => s.aud.validated
  fset { s with aud := { s.aud with salvos := l } } Reg.AUD_TAKE_CI Fld.AUD_TAKE_CI_CI ci
/-- The salvos of sample n execute, are freed and reported (R334). -/
def audTakes (n : Nat) (s : State) : State :=
  let r := audExecute n s.aud.salvos s
  let done := (r.1.filter (fun v => v.executed)).filter (fun v => s.aud.salvos.any (fun u => u.first == v.first && !u.executed))
  let s := { r.2 with aud := { r.2.aud with salvos := r.1 } }
  match done.getLast? with
  | none => s
  | some v =>
    let s := fset (audFree s) Reg.AUD_DONE_TAG Fld.AUD_DONE_TAG_TAG v.tag
    let s := rset64 s Reg.AUD_DONE_SC_LO Reg.AUD_DONE_SC_HI n
    if fbit s Reg.AUD_TAKE_CTRL Fld.AUD_TAKE_CTRL_DONE_MSI_EN then
      sendDone (fget s Reg.AUD_TAKE_CTRL Fld.AUD_TAKE_CTRL_DONE_VEC) s else s

/-! ### Destination samples (R323-R327, R333, R343) -/

/-- The CRC of AES3 over the first 23 bytes of a channel status block: generator x^8 + x^4 + x^3 + x^2 + 1, preset to
ones, bits in transmission order. -/
def csBits (bs : List Nat) : List Bool := bs.flatMap (fun b => (List.range 8).map (fun i => bitOf i b))
def csCrc (bs : List Nat) : Nat :=
  (csBits bs).foldl (fun c b =>
    let top := c / 128 % 2 == 1
    let c := c * 2 % 256
    if top != b then c ^^^ 0x1D else c) 0xFF
/-- Bit k of the channel status block of processed paths. -/
def csBit (s : State) (na : Bool) (k : Nat) : Nat :=
  let bs := (List.range 23).map (fun i => bitsOf (8 * (i % 4) + 7) (8 * (i % 4)) (rgetN s (Reg.AUD_CS (i / 4))))
  let bs := match bs with | [] => [] | b :: t => withBits 1 1 (b2n na) b :: t
  if k < 184 then b2n (bitOf (k % 8) ((bs[k / 8]?).getD 0))
  else
    let c := csCrc bs
    b2n (bitOf (7 - k % 8) c)
/-- A processed 48 kHz sample with its V, U, C and Z bits; the 48 kHz sample number is n / 2. -/
def withStatus (s : State) (n : Nat) (cs : Bool) (x : Int) : Nat :=
  let k := n / 2 % 192
  sampleOf x + csBit s cs k * 2 ^ 34 + (if k = 0 then 2 ^ 35 else 0) + 2 ^ 37
/-- Does the route's sample that reaches the destination now carry NA? -/
def routeNa (s : State) (n : Nat) : Option Nat → Bool
  | none => false
  | some a => smpNa (histAt s a (if src96 s a then 64 else (64 - n % 2) / 2))
/-- The internal sample of destination b at sample n, `base` late: the route's, or the crossfade's (R333). -/
def mixedAt (s : State) (n base b : Nat) : Int :=
  let new := routeAt s n base (audRoute s b)
  match (audDest s b).fade with
  | some (old, i) =>
    let k := (n + 2 ^ 64 - i) % 2 ^ 64
    if k < 192 then sat32 (rne (new * (k + 1 : Nat) + routeAt s n base old * (191 - k : Nat)) 192) else new
  | none => new
/-- Destination b at sample n. -/
def destStep (n b : Nat) (s : State) : State :=
  let s := if fadeCovers s n b then s
    else if (audDest s b).fade.isSome then
      fset (setDestA b { audDest s b with fade := none } s) (bStat b) Fld.AUD_B_STAT_XF 0
    else s
  let r := audRoute s b
  let cls := (r.map (fun a => pathClass s a b)).getD 0
  let s := if fget s (bStat b) Fld.AUD_B_STAT_CLASS = cls then s else fset s (bStat b) Fld.AUD_B_STAT_CLASS cls
  let d := audDest s b
  let fading := d.fade.isSome
  let na := routeNa s n r
  if dst96 s.img b then
    let x := mixedAt s n 64 b
    let y := match r, fading, cls with
      | some a, false, 4 => histAt s a 64
      | _, _, _ => smpWithNa (sampleOf x) na
    let s := setDestA b { d with now := y } s
    if 24576 ≤ b ∧ b < 25600 ∧ sapAsrc s.img ((b - 24576) / 32) then
      match sapBlock s.img ((b - 24576) / 32) true ((b - 24576) % 32) with
      | some (k, c) => asrcFeed k c x na s
      | none => s
    else s
  else if dstPlane1 s.img b then
    match dstBlock s.img b with
    | none => s
    | some k => asrcFeed k (b % 16) (mixedAt s n 64 b) na s
  else
    let v := (mixedAt s n 33 b :: d.v).take 63
    let v := if v.all (· == 0) then [] else v
    if n % 2 = 1 then setDestA b { d with v } s
    else
      let cs := if n / 2 % 192 = 0 then na else d.cs
      match r, fading, cls with
      | some a, false, 1 => setDestA b { d with v, cs, now := histAt s a 32 } s
      | none, false, _ => setDestA b { d with v, cs, now := 0 } s
      | _, _, _ =>
        let y := sat32 (rne (filterSum (fun i => (v[i]?).getD 0)) (2 ^ 24))
        setDestA b { d with v, cs, now := smpWithNa (withStatus s n cs y) na } s
/-- The destination whose samples enter channel c of ASRC block k (R327; 12 R314). -/
def blockDest (g : Img) (k c : Nat) : Option Nat :=
  let i := ownInst g (resId 6 k)
  if ownClass g (resId 6 k) = 0x0F then some (i + c)
  else if ownClass g (resId 6 k) = 0x0E then
    let rx := cdiv (sapSlots g i) 16
    let n := (sapBlocks g i).idxOf k
    if rx ≤ n then some (24576 + 32 * i + 16 * (n - rx) + c) else none
  else none
/-- Destinations that carry anything but zero, or lately did, or whose flow window or ASRC channel still holds
anything but zeros. -/
def activeDests (s : State) : List Nat :=
  let routed := (s.regs.filter (fun p => decide (bStat 0 ≤ p.1) && decide (p.1 < bStat 32768))).map (fun p => (p.1 - bStat 0) / 4)
  let blocks := s.aud.asrc.flatMap (fun e => (e.2.inputs.map (·.1) ++ e.2.na).filterMap (fun c => blockDest s.img e.1 c))
  (routed ++ s.aud.dests.map (·.1) ++ s.flow.txPos.map (fun (e : Nat × List Nat) => 8192 + e.1) ++ blocks).eraseDups

/-! ### Where destination samples go -/

/-- Lane v's embedder takes one sample of each channel of every group it embeds (05 R134). -/
def embedLane (v : Nat) (s : State) : State :=
  let d := laneDest s.img v
  if !destNames s.img d || sdiIdle s d then s
  else
    let l := laneSt s v
    let gs := (List.range 4).filter (fun g => bitOf g (embMask s v))
    setLane v { l with emb := l.emb ++ gs.map (fun g =>
      (g, (List.range 4).map (fun i => destSample s (16 * v + 4 * g + i) % 2 ^ 36))) } s
/-- The SDI outputs of plane 0 embed at even samples, those whose lane has a setting at all. -/
def embedLanes (n : Nat) (s : State) : State :=
  if n % 2 = 1 then s
  else (((s.vl.lanes.map (·.1)).filter (fun v => decide (v < 512) && destPlane s.img (laneDest s.img v) == 0))).foldl
    (fun s v => embedLane v s) s
/-- Samples of the 48 kHz clock of an output of format fmt in its first N lines. -/
def outSamples (fmt N : Nat) : Nat := N * 48000 * rateDen (rateOf fmt) / (rateNum (rateOf fmt) * rasterLines (rasterOf fmt))
/-- Lines after which the samples of an output, and their blocks of 192, fall on the lines as before. -/
def outCycle (fmt : Nat) : Nat := max 1 (192 * rateNum (rateOf fmt) * rasterLines (rasterOf fmt))
/-- Sample `cnt` of the SDI embed position b in plane 1: its block's output, zero where it has none (R327, R343). -/
def plane1Sample (cnt b : Nat) (s : State) : State :=
  let o := match dstBlock s.img b with | none => (0, s) | some k => asrcOut k (b % 16) s
  let d := audDest o.2 b
  let na := smpNa o.1
  let cs := if cnt % 192 = 0 then na else d.cs
  setDestA b { d with now := smpWithNa (withStatus o.2 (2 * cnt) cs (smpInt o.1)) na, cs } o.2
/-- A destination's sample leaves it to its packet flow's window of 48 samples (07 R187). -/
def destDeliver (n b : Nat) (s : State) : State :=
  let x := destSample s b
  if n % 2 = 1 then s
  else if 8192 ≤ b ∧ b < 24576 then
    let l := lastN 48 (cget [] s.flow.txPos (b - 8192) ++ [x % 2 ^ 36])
    { s with flow := { s.flow with txPos := cset [] s.flow.txPos (b - 8192) (if l.all (· == 0) then [] else l) } }
  else s
/-- The running signature of a block of 16 destinations takes its samples (16 R408). -/
def sigStep (n k : Nat) (s : State) : State :=
  let bs := (List.range 16).map (16 * k + ·)
  let bytes := bs.flatMap (fun b => if n % 2 = 0 || dst96 s.img b then leBytes 4 (smpVal (destSample s b)) else [])
  { s with aud := { s.aud with sig := cset 0 s.aud.sig k (bytes.foldl crcByte (cget 0 s.aud.sig k ^^^ 0xFFFFFFFF) ^^^ 0xFFFFFFFF) } }

/-- Every block of 16 destinations of Table 16.6 that has a destination takes sample n. -/
def sigSample (n : Nat) (s : State) : State :=
  ((List.range 1600).filter (fun k => (List.range 16).any (fun i => dstChan s.img (16 * k + i)))).foldl (fun s k => sigStep n k s) s

/-! ### Meters (R338-R341) -/

def meter (s : State) (m : Nat) : Meter := cget {} s.aud.meters m
def setMeter (m : Nat) (v : Meter) (s : State) : State := { s with aud := { s.aud with meters := cset {} s.aud.meters m v } }
def mtrDest (s : State) (m : Nat) : Bool := fbit s (Reg.AUD_MTR_CFG m) Fld.AUD_MTR_CFG_SIDE
def mtrCh (s : State) (m : Nat) : Nat := fget s (Reg.AUD_MTR_CFG m) Fld.AUD_MTR_CFG_CH
def mtr96 (s : State) (m : Nat) : Bool := if mtrDest s m then dst96 s.img (mtrCh s m) else src96 s (mtrCh s m)
def mtrBlock (s : State) (m : Nat) : Nat := if mtr96 s m then 288 else 144
/-- A block ends: RMS over the last 100 blocks, and the hold. -/
def meterEnd (m : Nat) (s : State) : State :=
  let v := meter s m
  if v.n < mtrBlock s m then s
  else
    let sums := (v.sum :: v.sums).take 100
    let rms := isqrt (sums.foldl (· + ·) 0 / (100 * mtrBlock s m))
    let h := rgetN s (Reg.AUD_MTR_HOLD m)
    let decay := fget s (Reg.AUD_MTR_DECAY m) Fld.AUD_MTR_DECAY_DECAY
    let r : Nat × Nat :=
      if v.clr then (0, 0)
      else if h ≤ v.bp then (v.bp, cdiv (fget s (Reg.AUD_MTR_CFG m) Fld.AUD_MTR_CFG_HOLD_MS) 3)
      else if 0 < v.timer then (h, v.timer - 1)
      else (max v.bp (h * decay / 65536), 0)
    let s := rsetN (fset s (Reg.AUD_MTR_RMS m) Fld.AUD_MTR_RMS_RMS rms) (Reg.AUD_MTR_HOLD m) r.1
    setMeter m { sums := if sums.all (· == 0) then [] else sums, timer := r.2 } s
/-- A sample reaches a meter; a block that is complete and not ended by command ends first. A destination in plane 1 is
measured at its own clock (`plane1Audio`). -/
def meterStep (n m : Nat) (s : State) : State :=
  if n % 2 = 1 ∧ !mtr96 s m then s
  else
    let s := meterEnd m s
    let c := mtrCh s m
    let x := smpAltered (if mtrDest s m then destSample s c else histAt s c 0)
    let e := (x / 256).natAbs
    let v := meter s m
    let s := setMeter m { v with n := v.n + 1, sum := v.sum + e * e, bp := max v.bp e } s
    rsetN s (Reg.AUD_MTR_PEAK m) (max (rgetN s (Reg.AUD_MTR_PEAK m)) x.natAbs)

/-! ### SDI outputs of plane 1 (R327, R338, R343) -/

/-- The 48 kHz samples that fall into the next line that SDI output d of plane 1 reads, for each of its lanes: their blocks
follow the output's own sample clock, and so do the meters of its channels. Its phase is taken to begin with the first
line read (DESIGN CHOICE, log entry 106). -/
def plane1Audio (d : Nat) (s : State) : State :=
  if 512 ≤ d || !destNames s.img d || destPlane s.img d != 1 || !inService s then s
  else
    let fmt := destFmt s.img d
    let N := cget 0 s.aud.p1lines d
    let n0 := outSamples fmt N
    let s := { s with aud := { s.aud with p1lines := cset 0 s.aud.p1lines d ((N + 1) % outCycle fmt) } }
    (List.range (outSamples fmt (N + 1) - n0)).foldl (fun s i =>
      (List.range (if laneTxq s.img d then 4 else 1)).foldl (fun s j =>
        let v := d + j
        let s := (List.range 16).foldl (fun s c =>
          if bitOf (c / 4) (embMask s v) || (dstBlock s.img (16 * v + c)).isSome then plane1Sample (n0 + i) (16 * v + c) s
          else s) s
        let s := (List.range (audMeters s.img)).foldl (fun s m =>
          if mtrDest s m && mtrCh s m / 16 == v then meterStep 0 m s else s) s
        embedLane v s) s) s

/-! ### The sample (R319) -/

/-- AUD_SC of the next sample, and whether a number is omitted (14 R369). -/
def nextSc (s : State) : Nat × Bool :=
  let n := (audSc s + 1) % 2 ^ 64
  match s.aud.parity with
  | some p => if n % 2 = p then (n, false) else ((n + 1) % 2 ^ 64, true)
  | none => (n, false)
/-- WCLK_OUT at sample edge E_n (14_reference.md R369): for a plane that owns it it runs from the first even edge in
service, and on through a change of role and a cast; where plane 0 owns it, it rises at each even edge and falls half a
period later, at the odd one. A cycle that a re-phase ended early falls first. -/
def wclkStep (n : Nat) (s : State) : State :=
  let c := ownClass s.img (resId 4 0)
  if c ≠ 5 ∧ c ≠ 6 then wclkFall s
  else if !s.core.wclkRun && !(n % 2 == 0 && inService s) then s
  else
    let s := { s with core := { s.core with wclkRun := true } }
    if c = 6 then s else if n % 2 = 0 then wclkRise s else wclkFall s
/-- Sample edge E_n. -/
def audStep (s : State) : State :=
  if !running s then s
  else
    let x := nextSc s
    let n := x.1
    let s := if x.2 then repeatSample ((n + 1) % 2 == 0) s else s
    let s := rset64 { s with aud := { s.aud with parity := none } } Reg.AUD_SC_LO Reg.AUD_SC_HI n
    let s := wclkStep n s
    if !inService s then s
    else
      let was := (List.range 32).map (fun p => (sapPort s p).p)
      let s := (List.range 32).foldl (fun s p => sapExchange p s) s
      let s := takeSources (n % 2 == 0) s
      let s := audTakes n s
      let ds := activeDests s
      let s := ds.foldl (fun s b => destStep n b s) s
      let s := embedLanes n (ds.foldl (fun s b => destDeliver n b s) s)
      let s := (was.zipIdx).foldl (fun s e => sapPlace e.2 e.1 s) s
      let s := (List.range (audMeters s.img)).foldl (fun s m =>
        if mtrDest s m && dstPlane1 s.img (mtrCh s m) then s else meterStep n m s) s
      let s := if pairInUse s && fbit s Reg.PAIR_CTRL Fld.PAIR_CTRL_AUD_SIG then
          sigSample n { s with aud := { s.aud with sigPrev := s.aud.sig } } else s
      fset s Reg.AUD_XF_ACTIVE Fld.AUD_XF_ACTIVE_N (fadesAt s n)

/-! ### The audio take ring (R328-R330) -/

def audPi (s : State) : Nat := fget s Reg.AUD_TAKE_PI Fld.AUD_TAKE_PI_PI
def audCi (s : State) : Nat := fget s Reg.AUD_TAKE_CI Fld.AUD_TAKE_CI_CI
/-- Distance from count a to count b modulo 4,096. -/
def audDist (a b : Nat) : Nat := (b + 4096 - a % 4096) % 4096
def audOcc (s : State) : Nat := audDist (audCi s) (audPi s)
def audRec (s : State) (c : Nat) : Nat × Nat × Nat × Nat :=
  let i := 4 * (c % 2048)
  (rgetN s (Reg.AUD_TAKE_RING i), rgetN s (Reg.AUD_TAKE_RING (i + 1)), rgetN s (Reg.AUD_TAKE_RING (i + 2)),
   rgetN s (Reg.AUD_TAKE_RING (i + 3)))
def audFlag (f : FieldRow) (s : State) : State := fset s Reg.AUD_TAKE_STAT f 1
/-- A write of a word of the ring. -/
def audRingWrite (m w : Nat) (v : Word) (s : State) : State :=
  if !mayFeed s m then audFlag Fld.AUD_TAKE_STAT_IGNORED s
  else if (w / 4 + 2048 - audCi s % 2048) % 2048 < audOcc s then audFlag Fld.AUD_TAKE_STAT_OVERRUN s
  else rset s (Reg.AUD_TAKE_RING w) v
/-- A write of AUD_TAKE_PI. -/
def audPiWrite (m new : Nat) (s : State) : State :=
  let adv := audDist (audPi s) (new % 4096)
  if !mayFeed s m then audFlag Fld.AUD_TAKE_STAT_IGNORED s
  else if adv = 0 then s
  else if 2048 - audOcc s < adv then raise Src.audTakeOverrun [0] (audFlag Fld.AUD_TAKE_STAT_OVERRUN s)
  else
    let s := fset s Reg.AUD_TAKE_PI Fld.AUD_TAKE_PI_PI new
    if m = 2 then { s with aud := { s.aud with journalTo := new % 4096 } } else s
/-- Length of the run of records from count c on that ends with LAST, within n records. -/
def audRun (s : State) : Nat → Nat → Option Nat
  | 0, _ => none
  | n + 1, c => if bitOf 8 (audRec s c).2.1 then some 1 else (audRun s n (c + 1)).map (· + 1)
/-- Code 0x05: OP 11, a reserved bit, AT outside LAST, a DISCONNECT with a source. -/
def audMalformed (lastRec : Bool) (r : Nat × Nat × Nat × Nat) : Bool :=
  let op := bitsOf 1 0 r.2.1
  op == 3 || bitOf 15 r.1 || bitOf 31 r.1 || bitsOf 7 2 r.2.1 != 0 || bitsOf 15 10 r.2.1 != 0 || bitsOf 31 16 r.2.2.2 != 0
    || (!lastRec && bitOf 9 r.2.1) || (op == 1 && bitsOf 30 16 r.1 != 0)
/-- Check the records of a salvo in ring order: its takes so far, or a code and the place of the failing record. -/
def audCheck (s : State) (first n : Nat) : Nat → List Take → (Nat × Nat) ⊕ List Take
  | 0, t => .inr t
  | k + 1, t =>
    let i := n - (k + 1)
    let r := audRec s (first + i)
    let op := bitsOf 1 0 r.2.1
    let b := bitsOf 14 0 r.1
    let a := bitsOf 30 16 r.1
    if audMalformed (i + 1 == n) r then .inl (5, i)
    else if op = 2 then audCheck s first n k t
    else if !dstChan s.img b then .inl (1, i)
    else if op = 0 ∧ !srcChan s.img a then .inl (2, i)
    else if 4096 ≤ t.length then .inl (3, i)
    else audCheck s first n k (t ++ [⟨b, if op = 1 then none else some a⟩])
/-- Status, count and fault of a refusal; its records wait for their turn to be freed. -/
def audReport (first c tag code : Nat) (s : State) : State :=
  let s := audFlag Fld.AUD_TAKE_STAT_REFUSED s
  let s := fset (fset s Reg.AUD_TAKE_STAT Fld.AUD_TAKE_STAT_REF_CODE code) Reg.AUD_TAKE_STAT Fld.AUD_TAKE_STAT_REF_INDEX first
  let s := count s Reg.AUD_TAKE_REFUSE_COUNT
  let w0 := (audRec s c).1
  raise Src.audTakeRefused [0, code, c, bitsOf 14 0 w0, bitsOf 30 16 w0, tag] s
/-- Records that are refused wait for their turn to be freed. -/
def audPutRefused (first n tag : Nat) (s : State) : State :=
  { s with aud := { s.aud with salvos := s.aud.salvos ++ [{ first, n, tag, refused := true }] } }
def audRefuse (first n tag code i : Nat) (s : State) : State :=
  audReport first ((first + i) % 4096) tag code (audPutRefused first n tag s)
/-- Abandoned tails that validation has reached take their place in ring order. -/
def audAbsorb (s : State) : State :=
  s.aud.abandoned.foldl (fun s a =>
    if a.1 = s.aud.validated then
      let s := audPutRefused a.1 a.2 0 s
      { s with aud := { s.aud with validated := (a.1 + a.2) % 4096, abandoned := s.aud.abandoned.filter (· != a) } }
    else s) s
/-- The execution sample the mirror agent gives (16 R403). -/
def agentSample (s : State) (hostAt : Option Nat) : Nat :=
  let fmt := planeFmt s.img 0
  let lead := framePs fmt + rgetN s Reg.PAIR_MIRROR_LAT % 65536 * 1000 + rgetN s Reg.PAIR_LEAD_EXTRA % 65536 * 1000000
  let n := (audSc s + (if linkState s = 5 then cdiv (lead * 3) 31250000 else 1)) % 2 ^ 48
  match hostAt with
  | some a => if decide (1 ≤ scDist a n) && decide (scDist a n ≤ 2 ^ 47) then a else n
  | none => n
/-- A salvo that passed its checks is committed; one that holds only NOP records has nothing left to execute. -/
def audCommitted (first n tag : Nat) (hostAt : Option Nat) (takes : List Take) (s : State) : State :=
  let put (v : AudSalvo) (s : State) : State := audFree { s with aud := { s.aud with salvos := s.aud.salvos ++ [v] } }
  let executed := takes.isEmpty
  if mode s == .active && pairInUse s then
    let at_ := agentSample s hostAt
    let send := linkState s == 5 || (linkState s == 4 && s.pair.copySent)
    let words := [1, first, n, lo32 at_, hi32 at_] ++
      (List.range n).flatMap (fun i => let r := audRec s (first + i); [r.1, r.2.1, r.2.2.1, r.2.2.2])
    let v : AudSalvo := { first, n, tag, takes, due := some at_, agent := true, fwd := send, executed }
    put v (if send then mirrorSend mkJournal words s else s)
  else if mode s == .standby && pairInUse s then
    let due := ((s.aud.journalDue.find? (fun e => e.1 == first)).map (·.2)).orElse (fun _ => hostAt)
    let s := { s with aud := { s.aud with journalDue := s.aud.journalDue.filter (fun e => e.1 != first) } }
    put { first, n, tag, takes, due, agent := true, fwd := true, executed } (mirrorSend mkAck [1, first, n] s)
  else put { first, n, tag, takes, due := hostAt, executed } s
/-- The next salvo covered by PI ends its validation (R329, R330). A LAST record that is a NOP is judged under 0x05
alone, so its AT is never refused. In a standby's ring only what the journal has committed
is validated. -/
def audSalvoCommit (s : State) : State :=
  let first := s.aud.validated
  let journal := mode s == .standby && pairInUse s
  let top := audDist first (audPi s)
  let bound := if journal then min top (audDist first s.aud.journalTo) else top
  if !inService s then s
  else match audRun s bound first with
    | none => s
    | some n =>
      let l := audRec s (first + n - 1)
      let tag := bitsOf 31 16 l.2.1
      let hostAt : Option Nat := if bitOf 9 l.2.1 then some (l.2.2.1 + l.2.2.2 % 65536 * 2 ^ 32) else none
      let s := { s with aud := { s.aud with validated := (first + n) % 4096 } }
      match audCheck s first n n [] with
      | .inl (code, i) => audFree (audAbsorb (audRefuse first n tag code i s))
      | .inr takes =>
        let far := bitsOf 1 0 l.2.1 != 2
          && hostAt.any (fun a => let d := scDist a (audSc s); decide (2 ^ 24 < d) && decide (d ≤ 2 ^ 47))
        if far && !journal then audFree (audAbsorb (audRefuse first n tag 4 (n - 1) s))
        else audFree (audAbsorb (audCommitted first n tag hostAt takes s))
/-- Records from the validated count on that belong to complete salvos or to tails abandoned before. -/
def audTailAhead (s : State) : Nat :=
  let first := s.aud.validated
  let n := audDist first (audPi s)
  let whole := (List.range n).foldl (fun a i => if bitOf 8 (audRec s (first + i)).2.1 then i + 1 else a) 0
  s.aud.abandoned.foldl (fun a x => max a (audDist first (x.1 + x.2))) whole
/-- ABANDON: the open tail becomes a refused salvo with code 0x06, behind what still waits for its validation; without
one, no effect. -/
def audAbandon (s : State) : State :=
  let k := audTailAhead s
  let n := audDist s.aud.validated (audPi s)
  if n ≤ k then s
  else
    let first := (s.aud.validated + k) % 4096
    let s := { s with aud := { s.aud with abandoned := s.aud.abandoned ++ [(first, n - k)] } }
    audFree (audAbsorb (audReport first first 0 6 s))
def audTakeCtrlWrite (m : Nat) (w : Word) (s : State) : State :=
  let s := plainWrite Reg.AUD_TAKE_CTRL w s
  if !bitOf 0 w.toNat then s
  else if mayFeed s m then audAbandon s else audFlag Fld.AUD_TAKE_STAT_IGNORED s
/-- Every salvo under validation, then the open tail, is refused with code 0x06 (16 R406, 18 R452). -/
def audRefuseRest : Nat → State → State
  | 0, s => s
  | k + 1, s =>
    let first := s.aud.validated
    let n := audDist first (audPi s)
    match audRun s n first with
    | none => audAbandon s
    | some m =>
      let tag := bitsOf 31 16 (audRec s (first + m - 1)).2.1
      audRefuseRest k (audAbsorb <| audRefuse first m tag 6 0 { s with aud := { s.aud with validated := (first + m) % 4096 } })
/-- Refuse the committed salvos that `gone` picks and that have not executed, then the rest. -/
def audRefuseHeld (gone : AudSalvo → Bool) (s : State) : State :=
  let l := s.aud.salvos.filter (fun v => !v.refused && !v.executed && gone v)
  let s := l.foldl (fun s v =>
    audReport v.first v.first v.tag 6 { s with aud := { s.aud with salvos := s.aud.salvos.map (fun u =>
      if u.first = v.first then { u with refused := true, takes := [] } else u) } }) s
  audFree (audRefuseRest 2049 s)
/-- The device leaves ACTIVE with the pair in use (16 R406). -/
def audRefuseUnforwarded (s : State) : State := audRefuseHeld (fun v => v.agent && !v.fwd) s

/-! ### Register writes -/

/-- A write of a mix bus entry (R335). -/
def mixWrite (m a : Nat) (w : Word) (s : State) : State :=
  let o := a - Reg.AUD_MIX_W 0 0
  let n := w.toNat
  let low := o % 8 == 0
  let bad := if low then bitsOf 14 13 n != 0 || bitsOf 31 16 n != 0 || decide (7167 < bitsOf 12 0 n) else bitsOf 31 24 n != 0
  if audBuses s.img ≤ o / 0x200 ∨ bad then refuse m 2 (ridReg a) a s
  else if rget s a = w then s else markDirty (.mix (o / 8)) (rset s a w)
/-- A write of a meter's registers (R338, R341). -/
def meterWrite (a : Nat) (w : Word) (s : State) : State :=
  let m := (a - Reg.AUD_MTR_CFG 0) / 0x20
  if a = Reg.AUD_MTR_CFG m then
    let old := rgetN s a
    let s := plainWrite a w s
    let s := if 10000 < fget s a Fld.AUD_MTR_CFG_HOLD_MS then fset s a Fld.AUD_MTR_CFG_HOLD_MS 10000 else s
    if rgetN s a = old then s
    else
      let v := meter s m
      rsetN (setMeter m { v with n := 0, sum := 0, bp := 0, sums := [], timer := 0 } s) (Reg.AUD_MTR_HOLD m) 0
  else if a = Reg.AUD_MTR_DECAY m then
    let s := plainWrite a w s
    if bitOf 31 w.toNat then setMeter m { meter s m with clr := true } s else s
  else plainWrite a w s
/-- A MODE write sets the phase to 0 (R337). -/
def toneWrite (a : Nat) (w : Word) (s : State) : State :=
  let t := (a - Reg.AUD_TONE_CTRL 0) / 0x10
  let s := plainWrite a w s
  if a = Reg.AUD_TONE_CTRL t then { s with aud := { s.aud with phase := cset 0 s.aud.phase t 0 } } else s
/-- A register of a bus, meter or tone generator not in use: it reads 0 and refuses writes. -/
def audAbsent (g : Img) (a : Nat) : Bool :=
  let o := a - Base.audBase
  if 0x80000 ≤ o ∧ o < 0x180000 then decide (audBuses g ≤ (o - 0x80000) / 0x200)
  else if 0x180000 ≤ o ∧ o < 0x1A0000 then decide (audBuses g ≤ (o - 0x180000) / 4)
  else if 0x1A0000 ≤ o ∧ o < 0x1E0000 then decide (audMeters g ≤ (o - 0x1A0000) / 0x20)
  else if 0x1E0000 ≤ o ∧ o < 0x1E1000 then decide (audTones g ≤ (o - 0x1E0000) / 0x10) else false
/-- A write to an AUD register at offset a. -/
def audWrite (m a : Nat) (w : Word) (s : State) : State :=
  let o := a - Base.audBase
  if audAbsent s.img a then refuse m 2 (ridReg a) a s
  else if 0x10000 ≤ o ∧ o < 0x18000 then audRingWrite m ((o - 0x10000) / 4) w s
  else if a = Reg.AUD_TAKE_PI then audPiWrite m w.toNat s
  else if a = Reg.AUD_TAKE_CTRL then audTakeCtrlWrite m w s
  else if 0x80000 ≤ o ∧ o < 0x180000 then mixWrite m a w s
  else if 0x1A0000 ≤ o ∧ o < 0x1E0000 then meterWrite a w s
  else if 0x1E0000 ≤ o ∧ o < 0x1E1000 then toneWrite a w s
  else plainWrite a w s

/-! ### Meanings -/

/-- DEST_LINE_READ (04 R84): destination d reads `line`, an SDI output of plane 1 with the samples that fall into it;
`errs` errors stand in the first word of HBM it reads (08 R218). -/
def execDestLineRead (d : Fin 4096) (line : Nat) (errs : Fin 3) (s : State) : Out :=
  .next (destLineRead d line errs (plane1Audio d s))
/-- FLOW_AUDIO_DELIVERY: the sample with RTP timestamp ts of audio receive flow f (07 R188; R315, R327). -/
def execFlowAudioDelivery (f : Fin 4096) (ts : Word) (s : State) : Out := .next (ownDeliver f (audioDeliver f ts.toNat s))
/-- AUD_SAMPLE: sample edge E_n (R319). -/
def execAudSample (s : State) : Out := .next (audStep s)
/-- AUD_TAKE_RECORD_WRITE: word w of the ring window (R329). -/
def execAudTakeRecordWrite (m : Fin 9) (w : Fin 8192) (v : Word) (s : State) : Out :=
  .next (hostWrite m (Reg.AUD_TAKE_RING w) v (audRingWrite m w v) s)
/-- AUD_TAKE_PI_WRITE (R329). -/
def execAudTakePiWrite (m : Fin 9) (pi : BitVec 12) (s : State) : Out :=
  .next (hostWrite m Reg.AUD_TAKE_PI (w32 pi.toNat) (audPiWrite m pi.toNat) s)
/-- AUD_SALVO_COMMIT (R329, R330). -/
def execAudSalvoCommit (s : State) : Out := .next (audSalvoCommit s)
/-- AUD_TAKE_ABANDON: a write of AUD_TAKE_CTRL with ABANDON; the other fields keep their values (R329). -/
def execAudTakeAbandon (m : Fin 9) (s : State) : Out :=
  let w := w32 (rgetN s Reg.AUD_TAKE_CTRL / 2 * 2 + 1)
  .next (hostWrite m Reg.AUD_TAKE_CTRL w (audTakeCtrlWrite m w) s)
/-- MIX_ENTRY_WRITE: word `hi` of entry i of bus b (R335). -/
def execMixEntryWrite (m : Fin 9) (b : Fin 2048) (i : Fin 64) (hi : Bool) (w : Word) (s : State) : Out :=
  let a := Reg.AUD_MIX_W b (2 * i + b2n hi)
  .next (hostWrite m a w (audWrite m a w) s)
/-- TONE_MODE_WRITE (R337). -/
def execToneModeWrite (m : Fin 9) (t : Fin 256) (on : Bool) (s : State) : Out :=
  let a := Reg.AUD_TONE_CTRL t
  .next (hostWrite m a (w32 (b2n on)) (audWrite m a (w32 (b2n on))) s)
/-- METER_BLOCK_END (R338-R341). -/
def execMeterBlockEnd (m : Fin 8192) (s : State) : Out :=
  .next (if inService s && decide (m.val < audMeters s.img) then meterEnd m s else s)
/-- METER_CLEAR: a write of CLR; DECAY keeps its value (R341). -/
def execMeterClear (m : Fin 9) (k : Fin 8192) (s : State) : Out :=
  let a := Reg.AUD_MTR_DECAY k
  let w := w32 (withBits 31 31 1 (rgetN s a))
  .next (hostWrite m a w (audWrite m a w) s)

end Sys2Proof.Machine
end

