-- ==== Sys2Proof/Machine/Crypto.lean ====
section
/-! DEFINITION. SHA-384 and ECDSA over P-384, which R58 of 03_admet_image.md names: the digest of an image and the check
of its signature. Constants and steps are those of FIPS 180-4 and FIPS 186-4 (PRESUMED, log entry 33). -/

namespace Sys2Proof.Machine

/-! ### SHA-384 -/

def shaMod (x : Nat) : Nat := x % 2 ^ 64
def shaRotr (n x : Nat) : Nat := (x / 2 ^ n) ||| shaMod (x * 2 ^ (64 - n))
/-- Initial hash words. -/
def shaInit : List Nat := [0xCBBB9D5DC1059ED8, 0x629A292A367CD507, 0x9159015A3070DD17, 0x152FECD8F70E5939,
   0x67332667FFC00B31, 0x8EB44A8768581511, 0xDB0C2E0D64F98FA7, 0x47B5481DBEFA4FA4]
/-- Round constants. -/
def shaK0 : List Nat := [0x428A2F98D728AE22, 0x7137449123EF65CD, 0xB5C0FBCFEC4D3B2F, 0xE9B5DBA58189DBBC,
   0x3956C25BF348B538, 0x59F111F1B605D019, 0x923F82A4AF194F9B, 0xAB1C5ED5DA6D8118,
   0xD807AA98A3030242, 0x12835B0145706FBE, 0x243185BE4EE4B28C, 0x550C7DC3D5FFB4E2,
   0x72BE5D74F27B896F, 0x80DEB1FE3B1696B1, 0x9BDC06A725C71235, 0xC19BF174CF692694,
   0xE49B69C19EF14AD2, 0xEFBE4786384F25E3, 0x0FC19DC68B8CD5B5, 0x240CA1CC77AC9C65,
   0x2DE92C6F592B0275, 0x4A7484AA6EA6E483, 0x5CB0A9DCBD41FBD4, 0x76F988DA831153B5,
   0x983E5152EE66DFAB, 0xA831C66D2DB43210, 0xB00327C898FB213F, 0xBF597FC7BEEF0EE4,
   0xC6E00BF33DA88FC2, 0xD5A79147930AA725, 0x06CA6351E003826F, 0x142929670A0E6E70,
   0x27B70A8546D22FFC, 0x2E1B21385C26C926, 0x4D2C6DFC5AC42AED, 0x53380D139D95B3DF,
   0x650A73548BAF63DE, 0x766A0ABB3C77B2A8, 0x81C2C92E47EDAEE6, 0x92722C851482353B]
def shaK1 : List Nat := [0xA2BFE8A14CF10364, 0xA81A664BBC423001, 0xC24B8B70D0F89791, 0xC76C51A30654BE30,
   0xD192E819D6EF5218, 0xD69906245565A910, 0xF40E35855771202A, 0x106AA07032BBD1B8,
   0x19A4C116B8D2D0C8, 0x1E376C085141AB53, 0x2748774CDF8EEB99, 0x34B0BCB5E19B48A8,
   0x391C0CB3C5C95A63, 0x4ED8AA4AE3418ACB, 0x5B9CCA4F7763E373, 0x682E6FF3D6B2B8A3,
   0x748F82EE5DEFB2FC, 0x78A5636F43172F60, 0x84C87814A1F0AB72, 0x8CC702081A6439EC,
   0x90BEFFFA23631E28, 0xA4506CEBDE82BDE9, 0xBEF9A3F7B2C67915, 0xC67178F2E372532B,
   0xCA273ECEEA26619C, 0xD186B8C721C0C207, 0xEADA7DD6CDE0EB1E, 0xF57D4F7FEE6ED178,
   0x06F067AA72176FBA, 0x0A637DC5A2C898A6, 0x113F9804BEF90DAE, 0x1B710B35131C471B,
   0x28DB77F523047D84, 0x32CAAB7B40C72493, 0x3C9EBE0A15C9BEBC, 0x431D67C49C100D4C,
   0x4CC5D4BECB3E42B6, 0x597F299CFC657E2A, 0x5FCB6FAB3AD6FAEC, 0x6C44198C4A475817]
/-- The message schedule: 64 words beyond the 16 of a block, newest first. -/
def shaExtend : Nat → List Nat → List Nat
  | 0, ws => ws
  | n + 1, ws =>
    let w (i : Nat) : Nat := (ws[i]?).getD 0
    let a := w 14
    let b := w 1
    let s0 := shaRotr 1 a ^^^ shaRotr 8 a ^^^ (a / 2 ^ 7)
    let s1 := shaRotr 19 b ^^^ shaRotr 61 b ^^^ (b / 2 ^ 6)
    shaExtend n (shaMod (s1 + w 6 + s0 + w 15) :: ws)
/-- One round on the working variables a to h. -/
def shaRound (v : List Nat) (kw : Nat × Nat) : List Nat :=
  match v with
  | [a, b, c, d, e, f, g, h] =>
    let t1 := h + (shaRotr 14 e ^^^ shaRotr 18 e ^^^ shaRotr 41 e) + ((e &&& f) ^^^ ((2 ^ 64 - 1 - e) &&& g)) + kw.1 + kw.2
    let t2 := (shaRotr 28 a ^^^ shaRotr 34 a ^^^ shaRotr 39 a) + ((a &&& b) ^^^ (a &&& c) ^^^ (b &&& c))
    [shaMod (t1 + t2), a, b, c, shaMod (d + t1), e, f, g]
  | _ => v
/-- The number a byte list spells, highest first. -/
def beNat (bs : List Nat) : Nat := bs.foldl (fun n b => 256 * n + b % 256) 0
/-- One block of 128 bytes. -/
def shaBlock (h : List Nat) (bs : List Nat) : List Nat :=
  let w := (List.range 16).map (fun i => beNat ((bs.drop (8 * i)).take 8))
  let ws := (shaExtend 64 w.reverse).reverse
  let v := ((shaK0 ++ shaK1).zip ws).foldl shaRound h
  (h.zip v).map (fun p => shaMod (p.1 + p.2))
/-- Blocks of 128 bytes; `n` bounds their number. -/
def shaBlocks : Nat → List Nat → List Nat → List Nat
  | 0, h, _ => h
  | n + 1, h, bs => if bs.isEmpty then h else shaBlocks n (shaBlock h (bs.take 128)) (bs.drop 128)
/-- The n bytes of a number, highest first. -/
def bigBytes (n v : Nat) : List Nat := (List.range n).map (fun i => v / 256 ^ (n - 1 - i) % 256)
/-- The digest, 48 bytes. -/
def sha384 (bs : List Nat) : List Nat :=
  let n := bs.length
  let pad := (127 + 128 - (n + 16) % 128) % 128
  let m := bs ++ ([0x80] ++ (List.replicate pad 0 ++ bigBytes 16 (8 * n)))
  ((shaBlocks (m.length / 128) shaInit m).take 6).flatMap (bigBytes 8)

/-! ### ECDSA over P-384 -/

def p384P : Nat := 2 ^ 384 - 2 ^ 128 - 2 ^ 96 + 2 ^ 32 - 1
def p384N : Nat := 0xFFFFFFFFFFFFFFFFFFFFFFFFFFFFFFFFFFFFFFFFFFFFFFFFC7634D81F4372DDF581A0DB248B0A77AECEC196ACCC52973
def p384B : Nat := 0xB3312FA7E23EE7E4988E056BE3F82D19181D9C6EFE8141120314088F5013875AC656398D8A2ED19D2A85C8EDD3EC2AEF
def p384Gx : Nat := 0xAA87CA22BE8B05378EB1C71EF320AD746E1D3B628BA79B9859F741E082542A385502F25DBF55296C3A545E3872760AB7
def p384Gy : Nat := 0x3617DE4A96262C6F5D9E98BF9292DC29F8F41DBD289A147CE9DA3113B5F0B8C00A60B1CE1D7E819D7A431D7C90EA0E5F
/-- x ^ e modulo m; `k` bounds the bits of e. -/
def powModGo (m : Nat) : Nat → Nat → Nat → Nat → Nat
  | 0, _, _, r => r
  | k + 1, x, e, r => powModGo m k (x * x % m) (e / 2) (if e % 2 = 1 then r * x % m else r)
/-- Inverse modulo a prime of at most 384 bits. -/
def invMod (m x : Nat) : Nat := powModGo m 384 (x % m) (m - 2) 1
/-- Difference modulo p. -/
def p384Sub (a b : Nat) : Nat := (a + p384P - b % p384P) % p384P
/-- Sum of two points; none is the point at infinity. -/
def p384Add (a b : Option (Nat × Nat)) : Option (Nat × Nat) :=
  match a, b with
  | none, q => q
  | q, none => q
  | some (x1, y1), some (x2, y2) =>
    if x1 = x2 ∧ (y1 + y2) % p384P = 0 then none
    else
      let l := if x1 = x2 then p384Sub (3 * x1 * x1) 3 * invMod p384P (2 * y1) % p384P
        else p384Sub y2 y1 * invMod p384P (p384Sub x2 x1) % p384P
      let x := p384Sub (l * l) (x1 + x2)
      some (x, p384Sub (l * p384Sub x1 x) y1)
/-- k times a point; `n` bounds the bits of k. -/
def p384MulGo : Nat → Nat → Option (Nat × Nat) → Option (Nat × Nat) → Option (Nat × Nat)
  | 0, _, _, r => r
  | n + 1, k, q, r => p384MulGo n (k / 2) (p384Add q q) (if k % 2 = 1 then p384Add r q else r)
def p384Mul (k : Nat) (q : Nat × Nat) : Option (Nat × Nat) := p384MulGo 384 k (some q) none
/-- Does (r, s) sign the digest under the public key (x, y)? -/
def ecdsaVerifies (x y : Nat) (digest : List Nat) (r s : Nat) : Bool :=
  decide (1 ≤ r ∧ r < p384N ∧ 1 ≤ s ∧ s < p384N ∧ x < p384P ∧ y < p384P)
    && decide (y * y % p384P = p384Sub (x * x * x + p384B) (3 * x)) &&
  (let w := invMod p384N s
   let z := beNat digest
   match p384Add (p384Mul (z * w % p384N) (p384Gx, p384Gy)) (p384Mul (r * w % p384N) (x, y)) with
   | none => false
   | some v => v.1 % p384N == r)

end Sys2Proof.Machine
end

