-- ==== Sys2Proof/Machine/EngineFamily.lean ====
section
/-! DEFINITION. Engines, deques, work stealing, quarantine, process slots (09_chisel_engines.md R227-R253;
11_scaling.md R289-R293 for slots). -/

namespace Sys2Proof.Machine

/-! ### Places and engines (R228-R231, R247) -/

def clusterQuad (c : Nat) : Nat := c / 16
def engineCluster (e : Nat) : Nat := e / 16
/-- Home cluster of the object a task belongs to. -/
def taskHome (g : Img) (t : Task) : Nat := if t.head then headHome g t.obj else slotHome g t.obj
def taskQuad (g : Img) (t : Task) : Nat := clusterQuad (taskHome g t)
/-- Grid distance of two clusters of a quadrant. -/
def clusterDist (a b : Nat) : Nat :=
  let r (c : Nat) : Int := (c % 16 / 4 : Nat)
  let k (c : Nat) : Int := (c % 4 : Nat)
  (r a - r b).natAbs + (k a - k b).natAbs
def dequeOf (s : State) (c : Nat) : List Task := cget [] s.eng.deques c
/-- A deque with its count in ENG_CLU_STAT. -/
def setDeque (c : Nat) (l : List Task) (s : State) : State :=
  fset { s with eng := { s.eng with deques := cset [] s.eng.deques c l } } (Reg.ENG_CLU_STAT c) Fld.ENG_CLU_STAT_DEQUE l.length
def engState (s : State) (e : Nat) : Nat := fget s (Reg.ENG_E_STAT e) Fld.ENG_E_STAT_STATE
def inflight (s : State) (q : Nat) : Nat := fget s (Reg.ENG_QUAD_INFLIGHT q) Fld.ENG_QUAD_INFLIGHT_N
def setInflight (q n : Nat) (s : State) : State := fset s (Reg.ENG_QUAD_INFLIGHT q) Fld.ENG_QUAD_INFLIGHT_N n
def runningOf (s : State) (e : Nat) : Option Task := (s.eng.running.find? (fun x => x.1 == e)).map (·.2)
/-- Engine e runs a task, or none. -/
def setRunning (e : Nat) (t : Option Task) (s : State) : State :=
  let l := s.eng.running.filter (fun x => x.1 != e)
  let a := Reg.ENG_E_STAT e
  match t with
  | some t => fset (fset { s with eng := { s.eng with running := l ++ [(e, t)] } } a Fld.ENG_E_STAT_STATE 1) a
      Fld.ENG_E_STAT_KERNEL t.kernel
  | none =>
    let s := fset { s with eng := { s.eng with running := l } } a Fld.ENG_E_STAT_KERNEL 0
    if fget s a Fld.ENG_E_STAT_STATE = 1 then fset s a Fld.ENG_E_STAT_STATE 0 else s

/-! ### Pushing (R245) -/

/-- Push what a quadrant's sequencers have issued, each object's tasks in order, while deque and quadrant have room; a
push held back is counted once. A task pushed once more goes to the head of its deque and has been in flight all along
(R251). -/
def pushGo (q : Nat) : List Task → List Task → State → List Task × State
  | [], kept, s => (kept, s)
  | t :: rest, kept, s =>
    let c := taskHome s.img t
    if kept.any (fun k => k.head == t.head && k.obj == t.obj) then pushGo q rest (kept ++ [t]) s
    else if t.again ∧ (dequeOf s c).length < 256 then
      pushGo q rest kept (setDeque c ({ t with held := false } :: dequeOf s c) s)
    else if !t.again ∧ (dequeOf s c).length < 256 ∧ inflight s q < 4096 then
      pushGo q rest kept (setInflight q (inflight s q + 1) (setDeque c (dequeOf s c ++ [{ t with held := false }]) s))
    else pushGo q rest (kept ++ [{ t with held := true }]) (if t.held then s else count s (Reg.ENG_QUAD_HELD q))
def pushAll (q : Nat) (s : State) : State :=
  let r := pushGo q (cget [] s.eng.waiting q) [] s
  { r.2 with eng := { r.2.eng with waiting := cset [] r.2.eng.waiting q r.1 } }
/-- A sequencer issues tasks. -/
def issue (q : Nat) (ts : List Task) (s : State) : State :=
  pushAll q { s with eng := { s.eng with waiting := cset [] s.eng.waiting q (cget [] s.eng.waiting q ++ ts) } }

/-! ### Removing and aborting (R249, R251-R253) -/

/-- Engine e is told to abort: its task ends and it becomes idle. -/
def abortEngine (e : Nat) (s : State) : State :=
  let s := setRunning e none s
  { s with eng := { s.eng with aborting := s.eng.aborting.filter (· != e) ++ [e] } }
/-- Every task that `p` selects is removed from the deques, aborted where it runs, and never issued; each removed or
aborted counts as late in its home quadrant. -/
def cancelTasks (q : Nat) (p : Task → Bool) (s : State) : State :=
  let c := (List.range 16).map (fun i => 16 * q + i)
  let s := c.foldl (fun s c =>
    let gone := (dequeOf s c).filter p
    if gone.isEmpty then s
    else
      let s := setDeque c ((dequeOf s c).filter (fun t => !p t)) s
      countN (setInflight q (inflight s q - gone.length) s) (Reg.ENG_QUAD_LATE q) gone.length) s
  let back := (cget [] s.eng.waiting q).filter (fun t => p t && t.again)
  let s := countN (setInflight q (inflight s q - back.length) s) (Reg.ENG_QUAD_LATE q) back.length
  let run := s.eng.running.filter (fun x => p x.2 && decide (x.1 < 1024))
  let s := run.foldl (fun s x => count (setInflight q (inflight s q - 1) (abortEngine x.1 s)) (Reg.ENG_QUAD_LATE q)) s
  { s with eng := { s.eng with waiting := cset [] s.eng.waiting q ((cget [] s.eng.waiting q).filter (fun t => !p t)) } }
/-- A task is aborted by a failed engine: pushed once more at the head of its home deque, held back while that is full, or
removed at the second time (R245, R251, R253). -/
def requeue (t : Task) (s : State) : State :=
  let q := taskQuad s.img t
  if t.again then setInflight q (inflight s q - 1) s
  else pushAll q { s with eng := { s.eng with
    waiting := cset [] s.eng.waiting q ({ t with again := true, held := false } :: cget [] s.eng.waiting q) } }
/-- ENG_STAT, ENG_QUAR_MAP and ENG_CLU_STAT.QUAR follow the engines. -/
def refreshQuar (e : Nat) (s : State) : State :=
  let on := engState s e == 2
  let s := rsetN s (Reg.ENG_QUAR_MAP (e / 32)) (withBits (e % 32) (e % 32) (b2n on) (rgetN s (Reg.ENG_QUAR_MAP (e / 32))))
  let c := engineCluster e
  let s := fset s (Reg.ENG_CLU_STAT c) Fld.ENG_CLU_STAT_QUAR
    (b2n ((List.range 16).all (fun i => engState s (16 * c + i) == 2)))
  let n := (List.range 1024).foldl (fun a i => a + b2n (engState s i == 2)) 0
  let m := (List.range 64).foldl (fun a i => a + fget s (Reg.ENG_CLU_STAT i) Fld.ENG_CLU_STAT_QUAR) 0
  fset (fset s Reg.ENG_STAT Fld.ENG_STAT_ENGINES n) Reg.ENG_STAT Fld.ENG_STAT_CLUSTERS m
/-- Quarantine without its fault: cause 1 memory error, 2 hang, 3 host. -/
def quarEngine (e cause : Nat) (s : State) : State :=
  if engState s e = 2 then s
  else
    let t := runningOf s e
    let s := setRunning e none s
    let s := match t with | some t => requeue t s | none => s
    let a := Reg.ENG_E_STAT e
    let s := fset (fset s a Fld.ENG_E_STAT_STATE 2) a Fld.ENG_E_STAT_CAUSE cause
    refreshQuar e { s with eng := { s.eng with aborting := s.eng.aborting.filter (· != e) } }
/-- An engine, or the engines of a cluster, are quarantined: one ENG_QUARANTINE. -/
def quarantine (es : List Nat) (cause : Nat) (s : State) : State :=
  let new := es.filter (fun e => engState s e != 2)
  match new with
  | [] => s
  | e :: _ => raise Src.engQuarantine [e] (new.foldl (fun s e => quarEngine e cause s) s)
def clusterEngines (c : Nat) : List Nat := (List.range 16).map (fun i => 16 * c + i)
def releaseEngine (e : Nat) (s : State) : State :=
  if engState s e ≠ 2 then s
  else
    let a := Reg.ENG_E_STAT e
    refreshQuar e (fset (fset s a Fld.ENG_E_STAT_STATE 0) a Fld.ENG_E_STAT_CAUSE 0)
/-- A write of ENG_QUAR_CMD (Table 9.7). -/
def quarCmd (w : Nat) (s : State) : State :=
  let op := bitsOf 15 14 w
  let i := bitsOf 9 0 w
  if bitsOf 31 16 w ≠ 0x5A3C then s
  else if op = 1 then quarantine [i] 3 s
  else if op = 2 then (if i < 64 then quarantine (clusterEngines i) 3 s else s)
  else if op = 3 ∧ mode s = .factory then
    (if bitOf 13 w then (if i < 64 then (clusterEngines i).foldl (fun s e => releaseEngine e s) s else s) else releaseEngine i s)
  else s

/-! ### Memory errors (R251) -/

/-- The local memory of engine e holds a word with errors. -/
def localError (e errs : Nat) (s : State) : State :=
  let r := secded 3 e errs s
  let s := r.2
  if r.1 = 0 then s
  else if r.1 = 1 then raise Src.engCorr [e] (count s (Reg.ENG_E_CORR e))
  else
    let s := match runningOf s e with
      | some t => requeue t (abortEngine e s)
      | none => s
    let a := Reg.ENG_E_STAT e
    let n := min 2 (fget s a Fld.ENG_E_STAT_UNCORR + 1)
    let s := raise Src.engUncorr [e] (fset s a Fld.ENG_E_STAT_UNCORR n)
    if n = 2 then quarantine [e] 1 s else s
/-- Granule `gr` of cluster c holds a word with errors, read by a task of engine e. No engine reaches the memory of
another quadrant (R228). -/
def clusterError (c gr e errs : Nat) (s : State) : State :=
  if clusterQuad c ≠ clusterQuad (engineCluster e) then s else
  let r := secded 4 c errs s
  let s := r.2
  let rid := resId 5 (64 * c + gr)
  if r.1 = 0 then s
  else if r.1 = 1 then raise Src.engCorr [c] (count s (Reg.ENG_CLU_MEM_CORR c))
  else if ownClass s.img rid = 8 then
    let s := fset s (Reg.ENG_CLU_STAT c) Fld.ENG_CLU_STAT_KLIB_BAD 1
    quarantine (clusterEngines c) 1 (condBegin Src.cluKlibBad [c] (raise Src.engUncorr [e] s))
  else
    let s := match runningOf s e with
      | some t => let q := taskQuad s.img t; setInflight q (inflight s q - 1) (abortEngine e s)
      | none => s
    let s := raise Src.engUncorr [e] s
    if ownClass s.img rid = 0xB then
      match ownEntry s.img (resId 7 (ownInst s.img rid)) with
      | some code =>
        let d := code % 65536
        setDest d { destOf s d with fs := { (destOf s d).fs with spoiled := true } } s
      | none => s
    else s

/-! ### Taking and stealing (R246-R248) -/

/-- Instant of a task's deadline in ps from the switch point of the frame after its own: 128 cycles before the
presentation of the band's first line (R244), or 8,192 cycles before the next switch point (10 R271). -/
def taskAhead (s : State) (since : Nat → Nat) (t : Task) : Int :=
  let p := if t.head then headPlane s.img t.obj else destPlane s.img (1536 + t.obj)
  let fmt := planeFmt s.img p
  let frames : Int := (t.frame : Int) + 1 - planeFc s p
  let off : Int := if t.head then -(cutoffPs fmt : Int)
    else
      let o := srcFmt s.img (1664 + t.obj)
      let key := ((rowOrder (rasterOf o))[16 * t.unit]?).getD 0
      let line := rowLine (rasterOf o) (key / 65536) (key % 65536)
      ((line : Int) - rasterSwitchLine (rasterOf o)) * (linePs o : Nat) - (cutoffPs fmt / 64 : Nat)
  frames * (framePs fmt : Nat) + off - (since p * 1000 : Nat)
/-- What an idle engine may take: order of Table 9.5, cluster, task. -/
def findTask (s : State) (since : Nat → Nat) (e : Nat) : Option (Nat × Nat × Task) :=
  let own := engineCluster e
  let q := clusterQuad own
  let best (l : List Nat) (better : Nat → Nat → Bool) : Option Nat :=
    l.foldl (fun a c => match a with | none => some c | some b => if better c b then some c else some b) none
  let len (c : Nat) : Nat := (dequeOf s c).length
  let near := ((clusterEngines q).filter (fun c => c != own && len c != 0))
  let ports (c : Nat) : Nat := ((dequeOf s c).filter (·.portable)).length
  let steal (slack : Int) (order vq : Nat) : Option (Nat × Nat × Task) :=
    let ok (t : Task) : Bool := t.portable && decide (slack ≤ taskAhead s since t)
    let cs := (clusterEngines vq).filter (fun c => (dequeOf s c).any ok)
    (best cs (fun a b => decide (ports b < ports a))).bind (fun c => ((dequeOf s c).find? ok).map (fun t => (order, c, t)))
  match (dequeOf s own).head? with
  | some t => some (1, own, t)
  | none =>
    match best near (fun a b =>
        let da := clusterDist own a
        let db := clusterDist own b
        decide (da < db) || (da == db && decide (len b < len a))) with
    | some c => ((dequeOf s c).head?).map (fun t => (2, c, t))
    | none =>
      match steal 4000000 3 (q ^^^ 1) with
      | some r => some r
      | none => match steal 8000000 4 (q ^^^ 2) with
        | some r => some r
        | none => steal 8000000 4 (q ^^^ 3)
/-- Engine e is granted a task. -/
def grantTask (e order c : Nat) (t : Task) (s : State) : State :=
  let s := setRunning e (some t) (setDeque c ((dequeOf s c).erase t) s)
  let s := { s with eng := { s.eng with aborting := s.eng.aborting.filter (· != e) } }
  let s := if order = 2 then count s (Reg.ENG_CLU_STEAL_IN (engineCluster e))
    else if 3 ≤ order then count s (Reg.ENG_CLU_STEAL_XQ (engineCluster e)) else s
  pushAll (taskQuad s.img t) s
/-- Idle engines ask in one cycle: each deque grants one task, to its own cluster's engine first, then by order, distance
and engine index (R248); a deque whose quadrant TEST_PERT_ENG stops in this cycle grants none (20 R496). The losers try again
with a later command. -/
def takeTasks (es : List Nat) (since : Nat → Nat) (s : State) : State :=
  let es := es.filter (fun e => engState s e == 0)
  let asks := es.filterMap (fun e => (findTask s since e).map (fun r => (e, r)))
  let rank (x : Nat × (Nat × Nat × Task)) : Nat :=
    (x.2.1 * 64 + (if x.2.1 = 2 then clusterDist (engineCluster x.1) x.2.2.1 else 0)) * 1024 + x.1
  let won := asks.filter (fun x => asks.all (fun y => y.2.2.1 != x.2.2.1 || decide (rank x ≤ rank y)) && !engDenied s (x.2.2.1 / 16))
  let s := if fget s Reg.TEST_PERT_ENG Fld.TEST_PERT_ENG_QMASK = 0 then s else spend s
  let s := { s with eng := { s.eng with aborting := s.eng.aborting.filter (fun e => !(e ∈ es)) } }
  won.foldl (fun s x => grantTask x.1 x.2.1 x.2.2.1 x.2.2.2 s) s

/-! ### The picture a slot makes (R232-R242; 11 R278-R293) -/

def slotSt (s : State) (n : Nat) : SlotSt := cget {} s.eng.slots n
def setSlot (n : Nat) (v : SlotSt) (s : State) : State := { s with eng := { s.eng with slots := cset {} s.eng.slots n v } }
/-- Kernels that run on engines. -/
def engKernels (g : Img) (n : Nat) : List Nat := (slotKernels g n).filter (· != 1)
def slotScales (g : Img) (n : Nat) : Bool := (slotKernels g n).any (· == 2)
/-- Granules of an owner. -/
def granules (g : Img) (code : Nat) : Nat := (g.own.filter (fun p => p.1 / 0x1000000 == 5 && p.2 == code)).length
/-- Rasters whose frames are two fields (R236). -/
def interlaced (r : Nat) : Bool := r == 1 || r == 2 || r == 4
/-- The field a slot's SCALE reads for output line y: the one of the same parity, or the one DEINT_FIELD names (R292). -/
def slotPhi (f : SlotFrame) (outRaster y : Nat) : Nat := if interlaced outRaster then y % 2 else b2n (bitOf 4 f.ctrl)
/-- The scaler of a slot for an input picture, an output raster and output line y, and the line's number in it: in
line-buffer mode a field is scaled into a field (R291, R292). -/
def slotScl (f : SlotFrame) (p : Pic) (outRaster y : Nat) : Scl × Nat :=
  let il := interlaced p.raster
  let phi := slotPhi f outRaster y
  let c : Scl :=
    { inW := p.w, inH := if il then fieldCount phi 0 p.h else p.h, outW := rasterW outRaster, outH := rasterH outRaster
      lb := bitOf 7 f.scl && f.row != 3, fld := if il then some (phi, 0, p.h) else none
      co := fun i => mapGet coefDefault f.coef i }
  if il && interlaced outRaster && c.lb && decide (c.outH / 2 < c.inH) then ({ c with outH := c.outH / 2, fld := none }, y / 2)
  else (c, y)
/-- The picture line that a scaler's line m is. -/
def slotSrcLine (f : SlotFrame) (p : Pic) (outRaster y m : Nat) : Nat :=
  if interlaced p.raster then 2 * m + slotPhi f outRaster y else m
/-- SCALE in a slot (R292). -/
def slotScale (f : SlotFrame) (outRaster : Nat) (p : Pic) : Pic :=
  { w := rasterW outRaster, h := rasterH outRaster, raster := outRaster, rgb := p.rgb
    get := fun x y =>
      let c := slotScl f p outRaster y
      sclPx c.1 x c.2 (fun a b => p.get a (slotSrcLine f p outRaster y b)) }
/-- One kernel of a chain. -/
def kernelPic (f : SlotFrame) (outRaster k : Nat) (p : Pic) : Pic :=
  if k = 2 then slotScale f outRaster p
  else if k = 3 then { p with rgb := bitOf 6 f.ctrl, get := fun x y => cmatPx f.cm f.offIn f.offOut (p.get x y) }
  else if k = 4 then
    let t (i : Nat) : Nat := mapGet tlutDefault f.tlut i
    let m := bitOf 7 f.ctrl
    { p with get := fun x y =>
        let v := p.get x y
        if p.rgb then tlutPx t v else toYcc m (tlutPx t (toRgb m v)) }
  else if k = 5 then (if f.anyFmt && interlaced outRaster then p else deintPic (b2n (bitOf 4 f.ctrl)) p)
  else if k = 6 ∧ (p.raster = 7 ∨ p.raster = 8) then { p with raster := outRaster }
  else p
/-- The picture a slot reads. -/
def slotPic (f : SlotFrame) : Pic := framePic { fmt := f.fmt, samp := f.samp, lines := f.lines, square := f.square }
/-- The kernels of a chain, each with the picture it reads. -/
def kernelIns (f : SlotFrame) (outRaster : Nat) : List Nat → Pic → List (Nat × Pic)
  | [], _ => []
  | k :: t, p => (k, p) :: kernelIns f outRaster t (kernelPic f outRaster k p)
/-- The words of timing line L of a slot's output frame, in the sampling the source reports. -/
def slotLine (g : Img) (n : Nat) (f : SlotFrame) (L : Nat) : List Nat :=
  let r := rasterOf (srcFmt g (1664 + n))
  let p := (slotKernels g n).foldl (fun p k => kernelPic f r k p) (slotPic f)
  (lineRows r L).flatMap (fun key => let y := pictureY r key; rowWords (slotSamp g n f) (rasterW r) (fun x => p.get x y))
/-- Rows of band b of a slot's output, and the timing lines that hold them. -/
def bandRows (g : Img) (n b : Nat) : List Nat := ((rowOrder (rasterOf (srcFmt g (1664 + n)))).drop (16 * b)).take 16
def bandCount (g : Img) (n : Nat) : Nat := cdiv (rowOrder (rasterOf (srcFmt g (1664 + n)))).length 16
def bandLines (g : Img) (n b : Nat) : List Nat :=
  let r := rasterOf (srcFmt g (1664 + n))
  ((bandRows g n b).map (fun k => rowLine r (k / 65536) (k % 65536))).eraseDups
/-- Input picture lines that output line y of a chain needs, kernels from last to first. -/
def lineNeeds (g : Img) (n : Nat) (f : SlotFrame) (y : Nat) : List Nat :=
  let outR := rasterOf (srcFmt g (1664 + n))
  let field := b2n (bitOf 4 f.ctrl)
  (kernelIns f outR (slotKernels g n) (slotPic f)).reverse.foldl (fun ys e =>
    let p := e.2
    if e.1 = 2 then ys.flatMap (fun y => let c := slotScl f p outR y; (sclTaps c.1 c.2).map (slotSrcLine f p outR y))
    else if e.1 = 5 ∧ interlaced p.raster ∧ !(f.anyFmt && interlaced outR) then ys.flatMap (fun y =>
      if y % 2 = field then [y] else [if y = 0 then 1 else y - 1, if y + 1 < p.h then y + 1 else y - 1])
    else ys) [y]
/-- Are the input lines of a band held: read by the slot's destination since the frame in hand began? -/
def bandHeld (s : State) (n b : Nat) (f : SlotFrame) : Bool :=
  let inR := rasterOf f.fmt
  let nl := rasterLines inR
  let at_ (L : Nat) : Nat := (L + nl - rasterSwitchLine inR) % nl
  let outR := rasterOf (srcFmt s.img (1664 + n))
  match (destOf s (1536 + n)).line with
  | none => false
  | some l =>
  let last := at_ l.ln
  (bandRows s.img n b).all (fun key => (lineNeeds s.img n f (pictureY outR key)).all (fun y =>
    let k := pictureKey inR y
    decide (at_ (rowPlace f.square inR k).1 ≤ last)))

/-! ### The slot sequencer (R242-R245, R249, R250) -/

def slotTask (g : Img) (n b i : Nat) (f : SlotFrame) : Option Task :=
  ((engKernels g n)[i]?).map (fun k => { head := false, obj := n, frame := f.fc, unit := b, kernel := k, idx := i, portable := k != 2 })
def frameSel (old : Bool) (v : SlotSt) : Option SlotFrame := if old then v.old else v.cur
def putFrameSel (old : Bool) (f : SlotFrame) (v : SlotSt) : SlotSt :=
  if old then { v with old := some f } else { v with cur := some f }
/-- The K0 task of band b is issued once its input lines are held. -/
def bandIssue (n b : Nat) (old : Bool) (s : State) : State :=
  let v := slotSt s n
  match frameSel old v with
  | none => s
  | some f =>
    if !slotUsed s.img n || !running s || bandCount s.img n ≤ b || b ∈ f.issued || !(old || bandHeld s n b f) then s
    else
      let f := { f with issued := f.issued ++ [b] }
      match slotTask s.img n b 0 f with
      | none => setSlot n (putFrameSel old { f with done := f.done ++ [b] } v) s
      | some t => issue (taskQuad s.img t) [t] (setSlot n (putFrameSel old f v) s)
/-- Change the frame of slot n that began at PLANE_FC fc. -/
def onFrame (n fc : Nat) (f : SlotFrame → SlotFrame) (s : State) : State :=
  let v := slotSt s n
  let on (o : Option SlotFrame) : Option SlotFrame := o.map (fun x => if x.fc = fc then f x else x)
  setSlot n { v with cur := on v.cur, old := on v.old } s
/-- A task of a slot has read its input: SCALE from the line buffer, the others from MID_Q, whose word at hand `errs`
errors are in. Where in HBM it stands is not stated, a free value. A record with POISON, or from a queue that is frozen,
is not used: its band is not made (08 R214, R218, R219; DEDUCED, log entry 137). -/
def slotRead (t : Task) (errs : Nat) (s : State) : State :=
  let q := slotMidQ s.img t.obj
  if t.kernel = 2 || !qNamed s q then s
  else
    let st := qStack s q
    let s := touchQ q s
    let c := hbmCheck (st, regionBase s.img st 2 + 32 * (freeValue s % (8 * 2 ^ 25))) errs (some q) (spend s)
    let s := if c.1 then putQ q { getQ c.2 q with poison := true } c.2 else c.2
    if c.1 || (getQ s q).frozen then onFrame t.obj t.frame (fun f => { f with lost := t.unit :: f.lost }) s else s
/-- A task of a slot completes: the next kernel's task, or the band is done. It writes its band to MID_Q or OUT_Q, which
takes nothing where it is frozen (08 R219). -/
def slotTaskDone (t : Task) (s : State) : State :=
  let v := slotSt s t.obj
  let old := match v.cur with | some f => f.fc != t.frame | none => true
  match frameSel old v with
  | none => s
  | some f =>
    if f.fc ≠ t.frame || t.unit ∈ f.lost then s
    else match slotTask s.img t.obj t.unit (t.idx + 1) f with
      | some t' => issue (taskQuad s.img t') [t'] s
      | none => if (getQ s (slotOutQ s.img t.obj)).frozen then s else setSlot t.obj (putFrameSel old { f with done := f.done ++ [t.unit] } v) s
/-- The decision of R289 for a slot's input frame, by the picture its SCALE reads. -/
def slotDecide (n : Nat) (f : SlotFrame) (prev : Nat) (s : State) : Nat × State :=
  let outR := rasterOf (srcFmt s.img (1664 + n))
  match (kernelIns f outR (slotKernels s.img n) (slotPic f)).find? (fun e => e.1 == 2) with
  | none => (0, s)
  | some (_, p) =>
    let il := interlaced p.raster
    let c := (slotScl { f with row := 0 } p outR 0).1
    let outH := if il && interlaced outR then rasterH outR / 2 else c.outH
    let held := granules s.img (0x000A0000 + n) * 65536 / (5 * c.inW)
    let need := sclNeed (!il && c.inH == outH) c.lb c.inH outH
    let row := sclRow (sclRange c.inW c.inH c.outW outH) c.lb need held
    let a := Reg.COMP_SCL_S_STAT n
    let s := fset (fset s a Fld.COMP_SCL_S_STAT_NEED (min 1023 need)) a Fld.COMP_SCL_S_STAT_HELD (min 1023 held)
    let s := fset (fset s a Fld.COMP_SCL_S_STAT_RANGE (b2n (row == 1))) a Fld.COMP_SCL_S_STAT_BLANK (b2n (row == 4))
    let s := fset (fset s a Fld.COMP_SCL_S_STAT_FALLBACK (b2n (row == 3))) a Fld.COMP_SCL_S_STAT_LB (b2n (row == 2 && c.lb))
    let s := if 3 ≤ row then count s (Reg.COMP_SCL_S_SHORT n) else s
    let s := if 3 ≤ row ∧ prev < 3 then raise Src.linebufShort [n, held, need, row] s else s
    (row, if row = 1 ∧ prev ≠ 1 then raise Src.scaleRange [n] s else s)
/-- A slot's input frame begins: settings, TLUT and coefficients in force, the line-buffer decision (R289 row by row,
R290). -/
def slotFrameStart (n : Nat) (s : State) : State :=
  if !slotUsed s.img n || !running s then s
  else
    let v := slotSt s n
    let d := 1536 + n
    let ctrl := rgetN s (Reg.ENG_SLOT_CTRL n)
    let scl := rgetN s (Reg.COMP_SCL_S_CTRL n)
    let set := fget s (Reg.ENG_SLOT_CTRL n) Fld.ENG_SLOT_CTRL_TLUT_SET
    let tl := (s.eng.tlut.filter (fun e => e.1 / 16384 == set)).map (fun e => (e.1 % 16384, e.2))
    let co := (s.comp.coefCom.filter (fun e => e.1 / 1024 == 8 * 64 + scl % 8)).map (fun e => (e.1 % 1024, e.2))
    let f : SlotFrame :=
      { fc := planeFc s (destPlane s.img d), fmt := carriedFmt s d, samp := destSamp s d, square := (destOf s d).square
        anyFmt := destFmt s.img d == 0xFF, ctrl, scl, tlut := tl, coef := co
        cm := (List.range 9).map (fun i => rgetN s (Reg.ENG_SLOT_CM_C n i))
        offIn := rgetN s (Reg.ENG_SLOT_CM_OFFIN n), offOut := rgetN s (Reg.ENG_SLOT_CM_OFFOUT n) }
    let r := slotDecide n f (match v.cur with | some c => c.row | none => 0) s
    let had := match v.old, v.cur with | some o, some c => rasterOf o.fmt == rasterOf c.fmt | _, _ => false
    let old := v.cur.map (fun c => { c with lines := cget [] s.xp.destLines d })
    let s := fset r.2 (Reg.ENG_SLOT_STAT n) Fld.ENG_SLOT_STAT_LATE_LAST (b2n v.lateNow)
    let s := setDest d { destOf s d with line := none } s
    setSlot n { cur := some { f with row := r.1 }, old, hadOut := had, lateNow := false } s
/-- The deadline of band b of the output frame being presented: finished, or replaced; from then on no task of it is
issued (R249, R250). -/
def bandDeadline (n b : Nat) (s : State) : State :=
  let v := slotSt s n
  match v.old with
  | none => s
  | some f =>
    if !slotUsed s.img n || !running s || bandCount s.img n ≤ b then s
    else
      let x := 1664 + n
      let put (w : Nat → List Nat) (s : State) : State :=
        let ls := (bandLines s.img n b).foldl (fun m L => cset [] m L (w L)) (cget [] s.xp.made x)
        { s with xp := { s.xp with made := cset [] s.xp.made x ls } }
      let q := clusterQuad (slotHome s.img n)
      let s := cancelTasks q (fun t => !t.head && t.obj == n && t.frame == f.fc && t.unit == b) s
      let s := touchBlock (slotOutQ s.img n) (setSlot n { v with old := some { f with issued := b :: f.issued.filter (· != b) } } s)
      let black := blackWords (srcFmt s.img x) (slotSamp s.img n f)
      if b ∈ f.done then put (fun L => if f.row = 1 ∨ f.row = 4 then black else slotLine s.img n f L) s
      else
        let s := if v.hadOut then s else put (fun _ => black) s
        let s := count s (Reg.ENG_SLOT_LATE n)
        let s := setSlot n { slotSt s n with lateNow := true } s
        if v.lateNow then s else raise Src.engSlotLate [n] s

/-! ### TLUT (R235, R243) -/

def tlutKey (s : State) : Nat :=
  fget s Reg.ENG_TLUT_CTRL Fld.ENG_TLUT_CTRL_SET * 16384 + fget s Reg.ENG_TLUT_CTRL Fld.ENG_TLUT_CTRL_INDEX
def indexNext (a : Nat) (f : FieldRow) (s : State) : State := fset s a f (fget s a f + 1)
/-- An index that names an entry of a set. -/
def tlutNamed (i : Nat) : Bool := decide (i < 3081) || decide (4096 ≤ i)
def tlutWrite (w : Nat) (s : State) : State :=
  let k := tlutKey s
  let s := if tlutNamed (k % 16384) then { s with eng := { s.eng with tlutSh := mapSet tlutDefault s.eng.tlutSh k (w % 65536) } } else s
  indexNext Reg.ENG_TLUT_CTRL Fld.ENG_TLUT_CTRL_INDEX s
def tlutRead (s : State) : Nat × State :=
  let k := tlutKey s
  (if tlutNamed (k % 16384) then mapGet tlutDefault s.eng.tlutSh k else 0,
   indexNext Reg.ENG_TLUT_CTRL Fld.ENG_TLUT_CTRL_INDEX s)
/-- Entries of keys lo to hi - 1 of map b replaced by those of map a. -/
def copyRange (lo hi : Nat) (a b : List (Nat × Nat)) : List (Nat × Nat) :=
  b.filter (fun e => decide (e.1 < lo)) ++ (a.filter (fun e => decide (lo ≤ e.1) && decide (e.1 < hi))
    ++ b.filter (fun e => decide (hi ≤ e.1)))
def tlutCtrlWrite (w : Word) (s : State) : State :=
  let s := plainWrite Reg.ENG_TLUT_CTRL w s
  let k := fget s Reg.ENG_TLUT_CTRL Fld.ENG_TLUT_CTRL_SET * 16384
  if bitOf 31 w.toNat then { s with eng := { s.eng with tlut := copyRange k (k + 16384) s.eng.tlutSh s.eng.tlut } } else s

/-- A write to an ENG register at offset a. -/
def engWrite (_m a : Nat) (w : Word) (s : State) : State :=
  if a = Reg.ENG_QUAR_CMD then quarCmd w.toNat s
  else if a = Reg.ENG_TLUT_CTRL then tlutCtrlWrite w s
  else if a = Reg.ENG_TLUT_DATA then tlutWrite w.toNat s
  else plainWrite a w s

/-! ### Meanings -/

/-- TASK_PUSH: the sequencers of quadrant q push what has room (R245). -/
def execTaskPush (q : Fin 4) (s : State) : Out := .next (pushAll q s)
/-- SLOT_BAND_ISSUE: band b of the frame slot n reads, or of the one before (R245). -/
def execSlotBandIssue (n : Fin 256) (b : Nat) (old : Bool) (s : State) : Out := .next (bandIssue n b old s)
/-- ENGINE_TAKE_TASK: the engines that ask in one cycle, since0 and since1 ns after the planes' switch points (R247). -/
def execEngineTakeTask (engines : List (Fin 1024)) (since0 since1 : Nat) (s : State) : Out :=
  .next (if running s then takeTasks (engines.map (·.val)) (fun p => if p = 0 then since0 else since1) s else s)
/-- SLOT_BAND_DEADLINE (R249). -/
def execSlotBandDeadline (n : Fin 256) (b : Nat) (s : State) : Out := .next (bandDeadline n b s)
/-- SLOT_INPUT_FRAME_START (R243). -/
def execSlotInputFrameStart (n : Fin 256) (s : State) : Out := .next (slotFrameStart n s)
/-- ENGINE_MEMORY_ERROR: a word of an engine's local memory, or of a granule of a cluster read by engine e (R251). -/
def execEngineMemoryError (cluster : Bool) (c : Fin 64) (gr : Fin 64) (e : Fin 1024) (errs : Fin 3) (s : State) : Out :=
  let t := cycleBegin s
  .next (cycleEnd s (if cluster then clusterError c gr e errs t else localError e errs t))
/-- ENGINE_ABORT_TIMEOUT (R252). -/
def execEngineAbortTimeout (e : Fin 1024) (s : State) : Out :=
  .next (if e.val ∈ s.eng.aborting then
    cycleEnd s (raise Src.engHang [e.val] (quarantine [e.val] 2 (cycleBegin s))) else s)
/-- The word of a keyed quarantine command. -/
def quarWord (op clu i : Nat) : Word := w32 (0x5A3C * 65536 + op * 16384 + clu * 8192 + i)
/-- ENG_QUARANTINE_ENGINE (R253). -/
def execEngQuarantineEngine (m : Fin 9) (e : Fin 1024) (s : State) : Out :=
  .next (hostWrite m Reg.ENG_QUAR_CMD (quarWord 1 0 e) (engWrite m Reg.ENG_QUAR_CMD (quarWord 1 0 e)) s)
/-- ENG_QUARANTINE_CLUSTER (R253). -/
def execEngQuarantineCluster (m : Fin 9) (c : Fin 64) (s : State) : Out :=
  .next (hostWrite m Reg.ENG_QUAR_CMD (quarWord 2 0 c) (engWrite m Reg.ENG_QUAR_CMD (quarWord 2 0 c)) s)
/-- ENG_QUARANTINE_RELEASE (R253). -/
def execEngQuarantineRelease (m : Fin 9) (cluster : Bool) (i : Fin 1024) (s : State) : Out :=
  let w := quarWord 3 (b2n cluster) i
  .next (hostWrite m Reg.ENG_QUAR_CMD w (engWrite m Reg.ENG_QUAR_CMD w) s)
/-- QUAD_LOAD_SECOND (R250, Registers). -/
def execQuadLoadSecond (q : Fin 4) (s : State) : Out :=
  let n := cget 0 s.eng.cycles q / 1000000
  .next (fset { s with eng := { s.eng with cycles := cset 0 s.eng.cycles q 0 } } (Reg.ENG_QUAD_LOAD q) Fld.ENG_QUAD_LOAD_MCYC n)
/-- TLUT_DATA_WRITE (R235). -/
def execTlutDataWrite (m : Fin 9) (w : Word) (s : State) : Out :=
  .next (hostWrite m Reg.ENG_TLUT_DATA w (engWrite m Reg.ENG_TLUT_DATA w) s)
/-- TLUT_DATA_READ (R235). -/
def execTlutDataRead (m : Fin 9) (s : State) : Out := .next (hostRead m Reg.ENG_TLUT_DATA tlutRead s)
/-- TLUT_COMMIT: a write of ENG_TLUT_CTRL with COMMIT = 1 (R243). -/
def execTlutCommit (m : Fin 9) (set : Fin 8) (index : BitVec 14) (s : State) : Out :=
  let w := w32 (2 ^ 31 + set * 16384 + index.toNat)
  .next (hostWrite m Reg.ENG_TLUT_CTRL w (engWrite m Reg.ENG_TLUT_CTRL w) s)

end Sys2Proof.Machine
end

