-- ==== Sys2Proof/Machine/Armature.lean ====
section
/-! DEFINITION. Reading an Admet image and checking it: header, signature, identity, anti-rollback index, and the
checks that each block makes at step 8 (03_admet_image.md R53-R68; R82, R118, R148, R170, R195, R201, R221, R231, R240,
R255, R302, R322, R349, R378, R414, R518 of the chapters). Which of the reasons 0x03, 0x04, 0x08 of R63 each rule takes is
the model's reading where the chapter does not say (log entry 40). -/

namespace Sys2Proof.Machine

/-! ### Bytes -/

/-- n bytes of a byte memory from x on. -/
def runFrom (d : Nat → Nat) : List Host.Cell → Nat → Nat → List Nat
  | _, _, 0 => []
  | [], x, n + 1 => d x :: runFrom d [] (x + 1) n
  | (k, v) :: t, x, n + 1 =>
    if k = x then v.toNat :: runFrom d t (x + 1) n else d x :: runFrom d ((k, v) :: t) (x + 1) n
def cellsRun (d : Nat → Nat) (m : List Host.Cell) (x n : Nat) : List Nat :=
  runFrom d (m.dropWhile (fun c => decide (c.1 < x))) x n

/-- Entries of w bytes each; a rest shorter than w is dropped. -/
def chunksGo (w : Nat) : Nat → List Nat → List (List Nat)
  | 0, _ => []
  | n + 1, l => l.take w :: chunksGo w n (l.drop w)
def chunks (w : Nat) (l : List Nat) : List (List Nat) := if w = 0 then [] else chunksGo w (l.length / w) l

/-- Little-endian field of a byte list. -/
def leAt (l : List Nat) (off n : Nat) : Nat := leNat ((l.drop off).take n)
def allZero (l : List Nat) : Bool := l.all (· == 0)

/-- The nonzero bytes of a list with their offsets. -/
def sparseGo : List Nat → Nat → List (Nat × Nat)
  | [], _ => []
  | b :: t, k => if b = 0 then sparseGo t (k + 1) else (k, b) :: sparseGo t (k + 1)

/-! ### The header (R55, R57, R60) -/

/-- Directory entry k of a header (Table 3.3). -/
def dirEntry (h : List Nat) (k : Nat) : List Nat := (h.drop (0x100 + 16 * k)).take 16
def sectCount (h : List Nat) : Nat := leAt h 0x2C 2
def imgUnits (h : List Nat) : Nat := leAt h 0x1C 4
def imgPurpose (h : List Nat) : Nat := leAt h 0xC 1
def imgIndex (h : List Nat) : Nat := leAt h 0x18 4
def imgBuild (h : List Nat) : Nat := leAt h 0x20 8
def imgSetFmt (h : List Nat) : Nat := leAt h 0x30 4
/-- The sections that the used entries name. -/
def dirSections (h : List Nat) : List Section :=
  (List.range (min 224 (sectCount h))).map (fun k =>
    let e := dirEntry h k
    { type := leAt e 0 2, off := leAt e 4 4, len := leAt e 8 4, arm := leAt e 12 4 % 2 == 1 })

/-- Do two sections share a byte? -/
def secOverlap (a b : Section) : Bool := decide (a.off < b.off + b.len) && decide (b.off < a.off + a.len)
/-- Does a relation hold of some pair of different places of a list? -/
def anyPair {α : Type} (r : α → α → Bool) : List α → Bool
  | [] => false
  | a :: t => t.any (r a) || anyPair r t

/-- Is a header invalid for a source of `units` units of 4 KiB (R57)? -/
def headerBad (h : List Nat) (units : Nat) : Bool :=
  leAt h 0 4 != 0x544D4441 || leAt h 4 2 != 1 || leAt h 6 2 != 0x1000
  || decide (imgUnits h < 2) || decide (12288 < imgUnits h) || decide (units < imgUnits h)
  || sectCount h == 0 || decide (224 < sectCount h)
  || (List.range (sectCount h)).any (fun k => decide (1 < leAt (dirEntry h k) 12 4))
  || (dirSections h).any (fun x => x.off % 0x1000 != 0 || decide (x.off < 0x1000) || decide (imgUnits h * 4096 < x.off + x.len))
  || anyPair secOverlap (dirSections h)
  || !allZero ((h.drop (0x100 + 16 * sectCount h)).take (16 * (224 - sectCount h)))
  || !allZero ((h.drop 0xE).take 2) || !allZero ((h.drop 0x2E).take 2) || !allZero ((h.drop 0x34).take 204)
  || !allZero ((h.drop 0xF60).take 160)

/-- The digest of R58, over a whole image. -/
def imgDigest (raw : List Nat) : List Nat := sha384 (raw.take 0xF00 ++ raw.drop 0x1000)

/-- Does the signature verify against the key of the MRAM identity region (R58; 17 Table 17.4)? -/
def sigGood (s : State) (raw : List Nat) : Bool :=
  ecdsaVerifies (leNat (mramBytes s 0x1D00008 48)) (leNat (mramBytes s 0x1D00038 48)) (imgDigest raw)
    (leAt raw 0xF00 48) (leAt raw 0xF30 48)

/-- Device ID and stepping A0 (R35 check 3). A STEP_COUNT outside 1 to 8, for which the spec names no check, counts the
entries it can: none for 0, all eight above 8 (DESIGN CHOICE, log entry 126). -/
def identityBad (h : List Nat) : Bool :=
  leAt h 8 4 != 0x56460400 || !(((h.drop 0x10).take (min 8 (leAt h 0xD 1))).any (· == 0x10))

/-- An image as the device holds it: directory, bytes, owners (R59). -/
def readImage (raw : List Nat) : Img :=
  let secs := dirSections raw
  let own := match secs.find? (fun x => x.type == Sec.own) with
    | none => []
    | some x => (chunks 8 ((raw.drop x.off).take x.len)).map (fun e => (leAt e 0 4, leAt e 4 4))
  { sections := secs, bytes := sparseGo raw 0, own := own }

/-! ### What sections an image holds (R61, R62) -/

/-- The types of Table 3.4: type, armature, fixed length where there is one, required under service and factory. -/
def secTypes : List (Nat × Bool × Option Nat × Bool) :=
  [(1, true, some 1104, true), (2, true, some 6672, true), (3, true, some 2240, true), (4, true, some 1408, true),
   (5, true, some 4096, false), (6, true, some 9216, false), (7, true, some 15424, false), (8, true, some 81920, true),
   (9, true, some 1040, false), (10, true, some 608, true), (11, true, some 48, false), (12, true, some 1536, true),
   (13, true, some 43152, true), (14, true, some 64, true), (0x20, false, none, true), (0x21, false, none, false)]
def armType (t : Nat) : Bool := secTypes.any (fun x => x.1 == t && x.2.1)
/-- The types that a plinth image carries, and only these. -/
def plinthTypes : List Nat := [Sec.fault, Sec.own, Sec.pin]

/-- A violation: TYPE and reason. -/
abbrev Viol := Nat × Nat
def bad (t r : Nat) (b : Bool) : List Viol := if b then [(t, r)] else []

/-- R61 for an image of a purpose, `svers` being the versions of its entries. -/
def formViols (h : List Nat) (secs : List Section) (purpose : Nat) : List Viol :=
  let plinth := purpose == 2
  (List.range secs.length).flatMap (fun k =>
    let x := secs.getD k ⟨0, 0, 0, false⟩
    match secTypes.find? (fun r => r.1 == x.type) with
    | none => [(x.type, if plinth || decide (1 < (secs.filter (fun y => y.type == x.type)).length) then 1 else 2)]
    | some r =>
      bad x.type 2 (leAt (dirEntry h k) 2 2 != 1 || x.arm != r.2.1
        || (match r.2.2.1 with | some n => x.len != n | none => false))
      ++ bad x.type 1 ((plinth && !(plinthTypes.elem x.type))
        || decide (1 < (secs.filter (fun y => y.type == x.type)).length)))
  ++ secTypes.flatMap (fun r =>
      bad r.1 1 ((if plinth then plinthTypes.elem r.1 else r.2.2.2) && !(secs.any (fun y => y.type == r.1))))

/-- A section that is present once, of its length. -/
def secFine (g : Img) (t : Nat) : Bool :=
  (g.sections.filter (fun x => x.type == t)).length == 1 &&
  (match secTypes.find? (fun r => r.1 == t), imgSec g t with
   | some r, some x => (match r.2.2.1 with | some n => x.len == n | none => x.len != 0)
   | _, _ => false)
/-- A section another may be held against: fine, or an optional one left out. -/
def secRead (g : Img) (t : Nat) : Bool :=
  secFine g t || (!hasSec g t && secTypes.any (fun r => r.1 == t && !r.2.2.2))
/-- The bytes of a section. -/
def secBytes (g : Img) (t : Nat) : List Nat :=
  match imgSec g t with
  | none => []
  | some x => cellsRun (fun _ => 0)
      ((g.bytes.dropWhile (fun c => decide (c.1 < x.off))).map (fun c => (c.1, BitVec.ofNat 8 c.2))) x.off x.len

/-! ### LANE (R117, R118, R148) -/

def quadRaster (f : Nat) : Bool := rasterOf f == 8 || rasterOf f == 9
def laneViols (g : Img) : List Viol :=
  let b := secBytes g Sec.lane
  let at_ (i : Nat) := b.getD i 0
  let dp := at_ 31 == 1
  let links := chunks 4 ((b.drop 0x220).take 16)
  let bit (i v : Nat) : Bool := bitOf i (at_ (0x20 + v))
  let quads := (List.range 128).map (4 * ·)
  bad 1 8 ((List.range 31).any (fun k => at_ k != 0) || decide (1 < at_ 31)
    || (List.range 512).any (fun v => decide (32 ≤ at_ (0x20 + v)))
    || !allZero ((b.drop 0x230).take 464)
    || (List.range 16).any (fun k => decide (3 < at_ (0x400 + k))) || (List.range 64).any (fun m => decide (3 < at_ (0x410 + m)))
    || (if dp then links.any (fun l => !([0x14, 0x1E].elem (leAt l 0 1)) || !([6, 8, 10].elem (leAt l 1 1)) || leAt l 2 2 != 0)
        else links.any (fun l => !allZero l)))
  ++ bad 1 4 ((List.range 64).any (fun m => at_ (0x410 + m) != 0 && at_ (0x400 + m / 4) != 3)
    || quads.any (fun q => [0, 1, 2, 3].any (fun i => (List.range 3).any (fun j => bit i (q + j + 1) != bit i q))))
  ++ bad 1 4 (secRead g Sec.plane && (
      quads.any (fun q => bit 0 q != quadRaster (srcFmt g q) || bit 1 q != quadRaster (destFmt g q))
      || (List.range 512).any (fun v => bit 4 v && !(rasterOf (destFmt g v) == 6 && decide (6 ≤ rateOf (destFmt g v))))
      || (List.range 512).any (fun v => [1, 2].elem (rasterOf (srcFmt g v)) || [1, 2].elem (rasterOf (destFmt g v)))
      || (dp && (List.range 16).any (fun i => srcFmt g (496 + i) != 0 || destFmt g (496 + i) != 0))))
  ++ bad 1 4 (secRead g Sec.own && dp != (ownClass g 0x0100001F == 2))

/-! ### PLANE (R80-R82) -/

def planeViols (g : Img) : List Viol :=
  let b := secBytes g Sec.plane
  let srcs := List.range 2048
  let dests := List.range 4096
  let code (f : Nat) : Bool := f == 0 || fmtValid f
  let rateIn (p f : Nat) : Bool := planeUsed g p && rateOf f == rateOf (planeFmt g p)
  bad 2 8 (!fmtValid (planeFmt g 0) || !code (planeFmt g 1) || !allZero ((b.drop 1).take 3) || !allZero ((b.drop 5).take 3)
    || srcs.any (fun x => !code (srcFmt g x) || (decide (1920 ≤ x) && srcFmt g x != 0))
    || dests.any (fun d => let f := destFmt g d
        !(code f || (f == 0xFF && decide (1536 ≤ d) && decide (d < 2816))) || (decide (2816 ≤ d) && f != 0))
    || (List.range 64).any (fun n => rasterOf (srcFmt g (1600 + n)) == 9))
  ++ bad 2 4 (dests.any (fun d => let f := destFmt g d
        f != 0 && (!planeUsed g (destPlane g d) || (f != 0xFF && !rateIn (destPlane g d) f)))
    || (List.range 64).any (fun n => srcFmt g (1600 + n) != 0 && !rateIn (tpgPlane g n) (srcFmt g (1600 + n))))
  ++ bad 2 4 (secRead g Sec.lane && (List.range 512).any (fun v =>
      (laneRxq g v && v % 4 != 0 && srcFmt g v != 0) || (laneTxq g v && v % 4 != 0 && destFmt g v != 0)
      || (v % 4 == 0 && (laneRxq g v != quadRaster (srcFmt g v) || laneTxq g v != quadRaster (destFmt g v)))
      || (dpPers g && decide (496 ≤ v) && (srcFmt g v != 0 || destFmt g v != 0))))
  ++ bad 2 4 (secRead g Sec.flow && (List.range 1024).any (fun i =>
      (srcFmt g (512 + i) != 0) != decide (i < kindFlows g 0) || (destFmt g (512 + i) != 0) != decide (i < kindFlows g 1)))
  ++ bad 2 4 (secRead g Sec.slot && (List.range 256).any (fun n =>
      (destFmt g (1536 + n) != 0) != slotUsed g n || (srcFmt g (1664 + n) != 0) != slotUsed g n))
  ++ bad 2 4 (secRead g Sec.head && ((List.range 64).any (fun h => (srcFmt g (1536 + h) != 0) != headUsed g h)
      || (List.range 1024).any (fun l => (destFmt g (1792 + l) != 0) != layerUsed g l)))

/-! ### HBM (R195, R221) -/

/-- End of the contents of the FRAME region of a stack, in bytes (R221). -/
def storeEnd (g : Img) (st : Nat) : Nat := fifosEnd g st 1920
def hbmViols (g : Img) : List Viol :=
  let b := secBytes g Sec.hbm
  let four := List.range 4
  let sum (st : Nat) : Nat := (List.range 5).foldl (fun a i => a + stackMib g st i) 0
  bad 3 8 (four.any (fun st => stackMib g st 0 != 256 || !allZero ((b.drop (32 * st + 20)).take 12))
    || ((b.drop 0x80).take 2112).any (fun x => decide (4 ≤ x) && decide (x < 0xFF)))
  ++ bad 3 3 (four.any (fun st => decide (24576 < sum st)) || decide (32768 < four.foldl (fun a st => a + stackMib g st 2) 0))
  ++ bad 3 4 (four.any (fun st => stackMib g st 3 != stackMib g 0 3 || stackMib g st 4 != stackMib g 0 4))
  ++ bad 3 4 (secRead g Sec.own && secRead g Sec.head && (
      (List.range 2112).any (fun n => (frameStack g n != 0xFF) != storeUsed g n)
      || (secRead g Sec.plane && four.any (fun st => decide (stackMib g st 1 * 0x100000 < storeEnd g st)))))

/-! ### PLACE (R231) -/

def placeViols (g : Img) : List Viol :=
  let b := secBytes g Sec.place
  let pools := g.own.filter (fun p => p.1 / 0x1000000 == 5 && p.2 == 0xC0000)
  let stages := g.own.filter (fun p => p.1 / 0x1000000 == 5 && p.2 / 65536 == 0xB)
  let cluster (rid : Nat) : Nat := rid % 0x1000000 / 64
  bad 4 8 ((b.take 0x540).any (fun x => decide (64 ≤ x) && decide (x < 0xFF)) || !allZero (b.drop 0x540))
  ++ bad 4 4 ((secRead g Sec.slot && (List.range 256).any (fun n => (slotHome g n != 0xFF) != slotUsed g n))
    || (secRead g Sec.head && (List.range 64).any (fun h => (headHome g h != 0xFF) != headUsed g h))
    || (secRead g Sec.own && (List.range 1024).any (fun n => (fsyncHome g n != 0xFF) != storeUsed g n)))
  ++ bad 4 4 (secRead g Sec.own && g.own.any (fun p => p.1 / 0x1000000 == 5 && (
      let i := p.2 % 65536
      let home := if p.2 / 65536 = 9 then (if layerHead g i = 0xFF then none else some (headHome g (layerHead g i)))
        else if p.2 / 65536 = 0xA then some (slotHome g i) else if p.2 / 65536 = 0xB then some (fsyncHome g i)
        else none
      match home with | some c => cluster p.1 / 16 != c / 16 | none => false)))
  ++ bad 4 4 (secRead g Sec.own && (List.range 1024).any (fun n => storeUsed g n && (
      match stages.filter (fun p => p.2 % 65536 == n) with
      | [p] => cluster p.1 != fsyncHome g n
      | _ => true)))
  ++ bad 4 3 (secRead g Sec.own && (List.range 64).any (fun c =>
      decide ((pools.filter (fun p => cluster p.1 == c)).length < 2)))

/-! ### SLOT (R240) -/

/-- Rasters that a kernel makes of a raster, in order (R236, R237; SCALE: progressive to progressive, interlaced to its
own kind too). 16 and 17 stand for the progressive frame that DEINT makes of rasters 1 and 2, which is no output raster. -/
def kernelTo (k r : Nat) : List Nat :=
  if k = 5 then [if r = 4 ∨ r = 5 then 6 else if r = 1 ∨ r = 2 then 15 + r else r]
  else if k = 6 then [if r = 7 then 8 else if r = 8 then 7 else r]
  else if k = 2 then (if r = 1 ∨ r = 2 ∨ r = 4 then [1, 2, 3, 4, 6, 7, 8] else [3, 6, 7, 8])
  else [r]
/-- With an input of any format, DEINT and LINKCONV pass a frame that does not need them, and the chain must turn each raster
that the plane's rate allows and that can be processed (R240). -/
def chainReach (any : Bool) (ks : List Nat) (r : Nat) : List Nat :=
  ks.foldl (fun rs k => rs.flatMap (fun r => (if any ∧ (k = 5 ∨ k = 6) then [r] else []) ++ kernelTo k r)) [r]
def chainTurns (g : Img) (n : Nat) : Bool :=
  let fin := destFmt g (1536 + n)
  let fout := srcFmt g (1664 + n)
  let ks := slotKernels g n
  let rate := rateOf (planeFmt g (destPlane g (1536 + n)))
  if fin = 0xFF then (List.range 9).all (fun r => !fmtValid (16 * r + rate) || (chainReach true ks r).elem (rasterOf fout))
    && rateOf fout == rateOf (planeFmt g (destPlane g (1536 + n)))
  else (chainReach false ks (rasterOf fin)).elem (rasterOf fout) && rateOf fin == rateOf fout
    && rasterOf fin != 9
/-- Queues that the SLOT section names, and those that the HEAD section names. -/
def slotQueues (g : Img) : List Nat :=
  ((List.range 256).filter (slotUsed g)).flatMap (fun n => [slotOutQ g n, slotMidQ g n].eraseDups)
def headQueues (g : Img) : List Nat := ((List.range 64).filter (headUsed g)).map (headWorkQ g)
def engineQueue (g : Img) (q : Nat) : Bool := match qGroup g q with | some k => qgKind g k == 4 | none => false
/-- The kernel library holds a kernel (R64). -/
def klibKernel (g : Img) (k : Nat) : Bool := Config.klibHolds (secBytes g Sec.klib) k
def slotViols (g : Img) : List Viol :=
  let es := chunks 16 (secBytes g Sec.slot)
  let used := (List.range 256).filter (slotUsed g)
  bad 5 8 (es.any (fun e =>
      let ks := (e.take 4).dropWhile (· != 0)
      !allZero ks || (e.take 4).any (fun k => decide (6 < k)) || ((e.drop 1).take 3).any (· == 1)
      || !allZero ((e.drop 4).take 4) || leAt e 11 1 != 0 || leAt e 15 1 != 0
      || decide (2 ^ 20 ≤ leAt e 8 3) || decide (2 ^ 20 ≤ leAt e 12 3)
      || (leAt e 0 1 == 0 && !allZero e)))
  ++ bad 5 4 (used.any (fun n => decide (1 < ((slotKernels g n).filter (· == 2)).length)
      || (secRead g Sec.plane && !chainTurns g n)
      || (secRead g Sec.own && slotKernel g n 0 == 1 && (destSync g (1536 + n)).isNone)
      || (secRead g Sec.queue && (!engineQueue g (slotOutQ g n) || !engineQueue g (slotMidQ g n))))
    || anyPair (· == ·) (slotQueues g))
  ++ bad 5 7 (secFine g Sec.klib && used.any (fun n => (slotKernels g n).any (fun k => !klibKernel g k)))

/-! ### HEAD (R255) -/

def headViols (g : Img) : List Viol :=
  let b := secBytes g Sec.head
  let hs := chunks 16 (b.take 0x400)
  let ls := chunks 8 (b.drop 0x400)
  let heads := (List.range 64).filter (headUsed g)
  let layers := (List.range 1024).filter (layerUsed g)
  let fmt (h : Nat) : Nat := srcFmt g (1536 + h)
  bad 6 8 (hs.any (fun e => decide (1 < leAt e 0 1) || decide (2 < leAt e 1 1) || decide (1 < leAt e 2 1) || decide (2 < leAt e 3 1)
        || decide (1 < leAt e 7 1) || decide (2 ^ 20 ≤ leAt e 4 3) || !allZero (e.drop 8) || (leAt e 0 1 == 0 && !allZero e))
      || ls.any (fun e => (decide (64 ≤ leAt e 0 1) && leAt e 0 1 != 0xFF) || leAt e 1 1 != 0 || leAt e 6 2 != 0
        || (if leAt e 0 1 = 0xFF then !allZero (e.drop 1) else leAt e 2 2 == 0 || leAt e 4 2 == 0)))
  ++ bad 6 3 (heads.any (fun h => decide (64 < (layers.filter (fun l => layerHead g l == h)).length)))
  ++ bad 6 4 (layers.any (fun l => !headUsed g (layerHead g l)))
  ++ bad 6 4 (secRead g Sec.plane && (
      heads.any (fun h => !([3, 6, 7, 8].elem (rasterOf (fmt h))) || !planeUsed g (headPlane g h)
        || rateOf (fmt h) != rateOf (planeFmt g (headPlane g h)))
      || (List.range 64).any (fun h => !headUsed g h && fmt h != 0)
      || layers.any (fun l => decide (rasterW (rasterOf (fmt (layerHead g l))) < layerMaxW g l)
        || decide (rasterH (rasterOf (fmt (layerHead g l))) < layerMaxH g l)
        || destPlane g (1792 + l) != headPlane g (layerHead g l))
      || (List.range 1024).any (fun l => (destFmt g (1792 + l) != 0) != layerUsed g l)))
  ++ bad 6 4 ((secRead g Sec.queue && heads.any (fun h => !engineQueue g (headWorkQ g h)))
      || anyPair (· == ·) (headQueues g) || (secRead g Sec.slot && (headQueues g).any (fun q => (slotQueues g).elem q)))
  ++ bad 6 4 (secRead g Sec.own && (List.range 4).any (fun k =>
      match dpHead g k with | some h => !headUsed g h || headSampling g h != 2 | none => false))
  ++ bad 6 4 (secRead g Sec.own && ownClass g 0x0100001F == 1 && (List.range 4).any (fun k => ownClass g (resId 8 k) != 0))
  ++ bad 6 7 (secFine g Sec.klib && !heads.isEmpty && [0x10, 0x11, 2].any (fun k => !klibKernel g k))

/-! ### FLOW (R170) -/

def kindMax (k : Nat) : Nat := if k = 2 ∨ k = 3 then 4096 else 1024
def legMax (k : Nat) : Nat := if k % 2 = 0 then 2 else 8
/-- Bytes that the dejitter region must hold (R170). -/
def dejitNeed (g : Img) : Nat :=
  (List.range (min 1024 (kindFlows g 0))).foldl (fun a i =>
    let r := rasterOf (srcFmt g (512 + i)); a + vrxDepth g i * rasterW r * rasterH r * 30 / 8) 0
  + 65536 * (kindFlows g 2 + kindFlows g 4)
def flowViols (g : Img) : List Viol :=
  let b := secBytes g Sec.flow
  let kinds := (List.range 6).filter (fun k => kindFlows g k != 0)
  let six := List.range 6
  let ranges := kinds.map (fun k => (kindBase g k, kindBase g k + kindLegs g k * kindFlows g k))
  let grps (off n : Nat) : List Nat := (chunks 2 ((b.drop off).take (2 * n))).map leNat
  let named := ((grps 0x440 1024).take (kindFlows g 0)) ++ ((grps 0xC40 4096).take (kindFlows g 2))
    ++ ((grps 0x2C40 1024).take (kindFlows g 4))
  let named := named.filter (· != 0xFFFF)
  let vid := ((grps 0x440 1024).take (kindFlows g 0)).filter (· != 0xFFFF)
  let ntx (n : Nat) : Bool := decide (n < kindFlows g 5)
  bad 7 3 (six.any (fun k => decide (kindMax k < kindFlows g k)) || kinds.any (fun k => decide (legMax k < kindLegs g k))
    || ranges.any (fun r => decide (65536 < r.2)) || named.any (fun n => decide (1023 < n)))
  ++ bad 7 8 (kinds.any (fun k => kindLegs g k == 0) || six.any (fun k => b.getD (8 * k + 3) 0 != 0) || !allZero ((b.drop 0x30).take 16)
    || (List.range 1024).any (fun i => if i < kindFlows g 0 then decide (vrxDepth g i < 2) || decide (4 < vrxDepth g i)
        else vrxDepth g i != 0)
    || ((b.drop 0x3440).take 2048).any (fun x => decide (1 < x) && x != 0xFF))
  ++ bad 7 4 (anyPair (fun a c => decide (a.1 < c.2) && decide (c.1 < a.2)) ranges
    || named.any (fun n => grpPlane g n == 0xFF) || anyPair (· == ·) vid
    || (List.range 1024).any (fun n => (ntxPlane g n != 0xFF) != ntx n))
  ++ bad 7 4 (secRead g Sec.plane && (
      (List.range 1024).any (fun i => (srcFmt g (512 + i) != 0) != decide (i < kindFlows g 0)
        || (destFmt g (512 + i) != 0) != decide (i < kindFlows g 1)
        || rasterOf (srcFmt g (512 + i)) == 9 || rasterOf (destFmt g (512 + i)) == 9)
      || named.any (fun n => decide (grpPlane g n < 2) && !planeUsed g (grpPlane g n))
      || (List.range 1024).any (fun n => decide (ntxPlane g n < 2) && !planeUsed g (ntxPlane g n))
      || (secRead g Sec.hbm && decide (4 * stackMib g 0 3 * 0x100000 < dejitNeed g))))

/-! ### QUEUE (R201) -/

def queueViols (g : Img) : List Viol :=
  let b := secBytes g Sec.queue
  let es := chunks 16 (b.take 0x4000)
  let used := es.filter (fun e => leAt e 4 3 != 0)
  let rng := used.map (fun e => (leAt e 0 3, leAt e 0 3 + leAt e 4 3))
  let hot := (chunks 4 (b.drop 0x4000)).map leNat
  let named := (hot.filter (· != 0xFFFFFFFF)).mergeSort (fun a c => decide (a ≤ c))
  bad 8 3 (rng.any (fun r => decide (1046464 < r.2)) || used.any (fun e => decide (3 < leAt e 7 1)))
  ++ bad 8 8 (used.any (fun e => leAt e 3 1 == 0 || decide (5 ≤ leAt e 3 1))
    || es.any (fun e => leAt e 4 3 == 0 && !allZero e) || named.any (fun q => decide (2 ^ 20 ≤ q)))
  ++ bad 8 4 (anyPair (fun a c => decide (a.1 < c.2) && decide (c.1 < a.2)) rng
    || used.any (fun e => decide (leAt e 8 4 < leAt e 4 3 * leAt e 12 4))
    || named.any (fun q => !(rng.any (fun r => decide (r.1 ≤ q) && decide (q < r.2))))
    || (named.zip (named.drop 1)).any (fun p => p.1 == p.2)
    || (secRead g Sec.hbm && (List.range 4).any (fun st => decide (stackMib g st 2 * 4096 <
        (used.filter (fun e => leAt e 7 1 == st)).foldl (fun a e => a + leAt e 8 4) 0))))

/-! ### AUDIO (R302, R322) -/

/-- The ASRC cases of R322. -/
def asrcOwnBad (g : Img) : Bool :=
  g.own.any (fun p => p.1 / 0x1000000 == 6 && (
    let i := p.2 % 65536
    (p.2 / 65536 == 0xF && (i % 16 != 0 || decide (8192 ≤ i) || (secRead g Sec.plane && destPlane g (i / 16) == 0)))
    || (p.2 / 65536 == 0x10 && secRead g Sec.flow && decide (kindFlows g 2 ≤ i))))
def audioViols (g : Img) : List Viol :=
  let b := secBytes g Sec.audio
  let es := chunks 16 (b.take 0x200)
  let ports := (List.range 32).filter (sapUsed g)
  let asrcs (n : Nat) : Nat := (asrcBlocks g (0xE0000 + n)).length
  bad 9 8 (es.any (fun e => decide (1 < leAt e 0 1) || decide (1 < leAt e 2 1) || decide (32 ≤ leAt e 3 1) || decide (32 ≤ leAt e 4 1)
        || decide (1 < leAt e 5 1) || (decide (16 ≤ leAt e 6 1) && leAt e 6 1 != 0xFF) || !allZero (e.drop 7)
        || (if leAt e 0 1 = 0 then !allZero e
            else leAt e 1 1 == 0 || decide (32 < leAt e 1 1) || leAt e 4 1 / 8 == 3 || (leAt e 5 1 == 1 && leAt e 2 1 == 1)))
    || ((b.drop 0x200).take 16).any (fun x => decide (1 < x)) || !allZero ((b.drop 0x210).take 496) || leAt b 0x40C 4 != 0)
  ++ bad 9 3 (decide (2048 < audBuses g) || decide (8192 < audMeters g) || decide (256 < audTones g))
  ++ bad 9 4 (ports.any (fun n => let c := sapClkSrc g n
        !sapUsed g c || sapClkSrc g c != c || sapByte g c 1 != sapByte g n 1 || sapByte g c 2 != sapByte g n 2
        || sapByte g c 4 % 8 != sapByte g n 4 % 8
        || (!sapAsrc g n && decide (49152000 < sapSlots g n * 32 * (if sap96 g n then 96000 else 48000)))
        || (secRead g Sec.own && asrcs n != (if sapAsrc g n then 2 * cdiv (sapSlots g n) 16 else 0))
        || ports.any (fun m => sapGroup g n != 0xFF && sapGroup g m == sapGroup g n && sapAsrc g m != sapAsrc g n)))
  ++ bad 9 4 (secRead g Sec.own && asrcOwnBad g)

/-! ### REF (R349), TIME (R378), FAULT (R414), PIN (R518) -/

def refViols (g : Img) : List Viol :=
  let b := secBytes g Sec.ref
  let ins := chunks 8 (b.drop 0x240)
  let es (p : Nat) : List (List Nat) := chunks 16 ((b.drop (0x120 * p + 0x20)).take 256)
  let usedE (p : Nat) := (es p).filter (fun e => leAt e 0 1 != 0)
  let off (e : List Nat) : Int := sext 32 (leAt e 4 4)
  let out (lo hi x : Nat) : Bool := decide (x < lo) || decide (hi < x)
  let phased (e : List Nat) : Bool :=
    let k := leAt e 0 1
    if k ≤ 4 then bitOf 0 (inFlags g (k - 1)) else decide (k ≤ 7)
  let blockBad (p : Nat) : Bool :=
    decide (3 < refNat g p 0 1) || out 0 6 (refBwInit g p) || out 1 600 (refAcceptS g p) || out 100 50000 (refAcceptPpb g p)
    || out (refAcceptPpb g p + 1) 100000 (refRejectPpb g p) || out 10 100000 (refDisagreePpb g p) || out 10 10000 (refSlewPpb g p)
    || out 1 1000 (refHoldAvg g p) || refNat g p 0x16 2 != 0 || refNat g p 0x1C 4 != 0
    || (es p).any (fun e => decide (8 < leAt e 0 1) || decide (15 < leAt e 1 1) || !allZero (e.drop 8)
        || (leAt e 0 1 != 7 && leAt e 2 2 != 0) || (leAt e 0 1 == 0 && !allZero e))
  let p1 := planeUsed g 1
  let ps : List Nat := if p1 then [0, 1] else [0]
  bad 10 8 (blockBad 0 || (if p1 then blockBad 1 else !allZero ((b.drop 0x120).take 0x120))
    || ins.any (fun e => decide (3 < leAt e 0 1) || decide (3 < leAt e 1 1) || !allZero (e.drop 2)))
  ++ bad 10 3 (ps.any (fun p => decide (1 < ((usedE p).filter (fun e => leAt e 0 1 == 8)).length)
      || decide (8 < ((usedE p).filter (fun e => leAt e 0 1 == 7)).length)
      || (usedE p).any (fun e => leAt e 0 1 == 7 && decide (512 ≤ leAt e 2 2))))
  ++ bad 10 4 (ins.any (fun e => leAt e 0 1 == 0 && bitOf 0 (leAt e 1 1))
    || ps.any (fun p => anyPair (fun a c => leAt a 0 1 == leAt c 0 1 && leAt a 2 2 == leAt c 2 2) (usedE p)
      || (usedE p).any (fun e => (decide (leAt e 0 1 ≤ 4) && inFreq g (leAt e 0 1 - 1) == 0)
        || (off e != 0 && !phased e)
        || (secRead g Sec.plane && decide (framePs (planeFmt g p) < 2000 * (off e).natAbs))
        || (leAt e 0 1 == 7 && secRead g Sec.plane && secRead g Sec.lane && (
            let v := leAt e 2 2
            srcFmt g v == 0 || (laneRxq g v && v % 4 != 0) || rateOf (srcFmt g v) != rateOf (planeFmt g p))))))
def timeViols (g : Img) : List Viol :=
  let b := secBytes g Sec.time
  let ent (e : List Nat) : Bool := decide (127 < leAt e 0 1) || leAt e 1 1 != 1 || decide (leAt e 2 2 < 10)
    || decide (10000 < leAt e 2 2) || !allZero (e.drop 4)
  bad 11 8 (ent (b.take 16) || ent ((b.drop 16).take 16) || decide (3 < leAt b 0x20 1) || !allZero (b.drop 0x21))
/-- SEV 6 or 7, a reserved bit, or anything at a reserved source (R414). -/
def faultViols (g : Img) : List Viol :=
  let b := secBytes g Sec.fault
  bad 12 8 ((b.zip (List.range 1536)).any (fun p =>
    decide (5 < p.1 % 8) || p.1 / 8 % 16 != 0 || (srcReserved p.2 && p.1 != 0)))
def pinViols (g : Img) : List Viol :=
  let b := secBytes g Sec.pin
  let at_ (i : Nat) := b.getD i 0
  bad 14 8 (decide (10 < at_ 0) || at_ 1 != 0 || [2, 3, 4, 5, 6].any (fun i => decide (3 < at_ i)) || at_ 7 != 0
    || (List.range 15).any (fun i => decide (at_ (8 + i) < 8)) || decide (120 < at_ 18) || !allZero (b.drop 0x17))
  ++ bad 14 4 (decide (at_ 2 < 2) && secRead g Sec.audio && (List.range 32).any (sapUsed g))

/-! ### OWN (R67, R68) -/

/-- Every resource that the OWN section must name. -/
def ownRids : List Nat :=
  [resId 1 31] ++ (List.range 8).map (resId 2) ++ (List.range 4).map (resId 3) ++ [resId 4 0]
  ++ (List.range 4096).map (resId 5) ++ (List.range 256).map (resId 6) ++ (List.range 1024).map (resId 7)
  ++ (List.range 4).map (resId 8)
/-- Owner classes that Table 3.6 allows a resource class. -/
def ownersOf (cls : Nat) : List Nat :=
  if cls = 1 then [1, 2] else if cls = 2 then [0, 3, 4, 5, 6, 7] else if cls = 3 then [0, 3, 4] else if cls = 4 then [0, 5, 6]
  else if cls = 5 then [0, 8, 9, 0xA, 0xB, 0xC] else if cls = 6 then [0, 0xE, 0xF, 0x10] else if cls = 7 then [0, 0xD]
  else if cls = 8 then [0, 0x11] else []
/-- Instances of an owner class (Table 3.7). -/
def ownerInsts (o : Nat) : Nat :=
  if o = 9 ∨ o = 0xB then 1024 else if o = 0xA then 256 else if o = 0xD ∨ o = 0x10 then 4096 else if o = 0xE then 32
  else if o = 0xF then 32768 else if o = 0x11 then 64 else 1
def klibGranule (rid : Nat) : Bool := rid / 0x1000000 == 5 && decide (rid % 64 < 4)
def ownViols (g : Img) (plinth : Bool) : List Viol :=
  let rids := (g.own.map (·.1)).mergeSort (fun a c => decide (a ≤ c))
  let cls (p : Nat × Nat) := p.1 / 0x1000000
  let oc (p : Nat × Nat) := p.2 / 65536
  bad 13 5 (rids != ownRids
    || g.own.any (fun p => !((ownersOf (cls p)).elem (oc p)) || (ownerInsts (oc p) == 1 && p.2 % 65536 != 0)
      || (cls p == 5 && klibGranule p.1 != (oc p == 8)))
    || (plinth && g.own.any (fun p => oc p != (if klibGranule p.1 then 8 else if cls p = 1 then 1 else 0))))
  ++ bad 13 3 (g.own.any (fun p => decide (1 < ownerInsts (oc p)) && decide (ownerInsts (oc p) ≤ p.2 % 65536)))
  ++ bad 13 4 (!plinth && g.own.any (fun p =>
      let i := p.2 % 65536
      (oc p == 0xD && secRead g Sec.plane && destFmt g i == 0) || (oc p == 9 && secRead g Sec.head && !layerUsed g i)
      || (oc p == 0xA && secRead g Sec.slot && !slotUsed g i) || (oc p == 0xB && ownClass g (resId 7 i) == 0)
      || (oc p == 0xE && secRead g Sec.audio && !sapUsed g i) || (oc p == 0x11 && secRead g Sec.head && !headUsed g i)))
  ++ bad 13 4 (!plinth && asrcOwnBad g)

/-! ### All of step 8 (R62, R63) -/

def armSize (g : Img) : Nat := (g.sections.filter (fun x => armType x.type)).foldl (fun a x => a + x.len) 0
/-- What step 8 finds in a section that R61 accepts. -/
def blockViols (g : Img) (purpose : Nat) : List Viol :=
  let on (t : Nat) (v : List Viol) : List Viol := if secFine g t then v else []
  let common := on Sec.fault (faultViols g) ++ on Sec.own (ownViols g (purpose == 2)) ++ on Sec.pin (pinViols g)
  if purpose = 2 then common
  else on Sec.lane (laneViols g) ++ on Sec.plane (planeViols g) ++ on Sec.hbm (hbmViols g) ++ on Sec.place (placeViols g)
    ++ on Sec.slot (slotViols g) ++ on Sec.head (headViols g) ++ on Sec.flow (flowViols g) ++ on Sec.queue (queueViols g)
    ++ on Sec.audio (audioViols g) ++ on Sec.ref (refViols g) ++ on Sec.time (timeViols g) ++ common
    ++ g.sections.flatMap (fun x => bad x.type 8 ((x.type == Sec.klib || x.type == Sec.tables) && x.len == 0)
      ++ bad x.type 6 (x.type == Sec.klib && decide (262144 < x.len)))
/-- The section of lowest TYPE with its lowest reason. -/
def lowest (vs : List Viol) : Option Viol :=
  vs.foldl (fun acc v => match acc with
    | none => some v
    | some a => if v.1 < a.1 ∨ (v.1 = a.1 ∧ v.2 < a.2) then some v else some a) none
/-- FAIL_TYPE and FAIL_REASON of a rejected armature; none where every section is accepted. -/
def armReject (raw : List Nat) (g : Img) : Option Viol :=
  if 2 * 0x100000 < armSize g then some (0, 6)
  else lowest (formViols raw g.sections (imgPurpose raw) ++ blockViols g (imgPurpose raw))

/-! ### One load attempt (R35) -/

/-- The anti-rollback counter (17 Table 17.4), by the vote of R440. -/
def imageFail (s : State) (raw : List Nat) (units purpose count : Nat) : Nat × Viol × Img :=
  let g := readImage raw
  if headerBad raw units then (2, (0, 0), g)
  else if !sigGood s raw then (3, (0, 0), g)
  else if identityBad raw || imgPurpose raw != purpose then (5, (0, 0), g)
  else if imgIndex raw < count then (4, (0, 0), g)
  else match armReject raw g with
    | some v => (8, v, g)
    | none => (0, (0, 0), g)

end Sys2Proof.Machine
end

