-- ==== Sys2Proof/Machine/FabricFamily.lean ====
section
/-! DEFINITION. PCIe function, MSI-X, decode hangs, resets of masters, the management I2C target but for its register
commands (19_host_fabric.md R466-R488). -/

namespace Sys2Proof.Machine

/-! ### Reset of a master (R485) -/

/-- The reset of master m: requests held or outstanding and its hung access are discarded, its counts cleared. A
register command M8 held is discarded with status RESET (Table 19.6). -/
def masterReset (m : Nat) (s : State) : State :=
  let s := { s with fab := { s.fab with
    held := s.fab.held.filter (fun r => r.master != m), hung := s.fab.hung.filter (fun h => h.master != m)
    issued := s.fab.issued.filter (fun r => r.master != m) } }
  let s := rsetN s (Reg.FABRIC_OUTST m) 0
  let s := if m = 8 && s.fab.i2cPending.isSome then
      { s with fab := { s.fab with i2cPending := none, i2cStatus := 4, i2cData := none } } else s
  refreshOutst s

/-- A keyed write of FABRIC_MRESET (R484, Registers). -/
def mresetWrite (w : Nat) (s : State) : State :=
  if w / 65536 = 0x3C96 ∧ bitOf 8 w then masterReset 8 s else s

/-! ### PCIe (R468, R469) -/

/-- Hot reset, link-down or function-level reset: configuration space, MSI-X table and PBA, M0 and its per-master
copies; a function-level reset leaves the link up. -/
def pcieReset (flr : Bool) (s : State) : State :=
  let s := { s with
    regs := s.regs.filter (fun p => !(blockOf p.1 == .msix))
    fab := { s.fab with
      config := {}
      msixEnable := false, msixMask := false
      latches := s.fab.latches.filter (fun p => decide (2 ^ 26 ≤ p.1))
      perMaster := s.fab.perMaster.filter (fun p => decide (2 ≤ p.1)) } }
  let a := Reg.FABRIC_PCIE_STAT
  let s := fset s a Fld.FABRIC_PCIE_STAT_D3HOT 0
  let s := if flr then s else rsetN s a 0
  count (masterReset 0 s) Reg.FABRIC_PCIE_RESETS

/-! ### Decode hang (R483) -/

/-- The detector of master m expires on its hung access: CTL_DECODE_HANG, the capture, the count. -/
def hangExpire (m : Nat) (s : State) : State :=
  match s.fab.hung.find? (fun h => h.master == m && !h.expired) with
  | none => s
  | some h =>
    let s := { s with fab := { s.fab with
      hung := s.fab.hung.map (fun x => if x.master == m then { x with expired := true } else x) } }
    let i := Reg.FABRIC_HANG_INFO
    let s := if fbit s i Fld.FABRIC_HANG_INFO_VALID then s
      else
        let s := rsetN s i (m * 2 ^ 28 + b2n h.write * 2 ^ 27 + (if h.bar = 2 then 2 ^ 26 else 0) + 1)
        rsetN s Reg.FABRIC_HANG_ADDR h.addr
    raise Src.ctlDecodeHang [m, h.bar, h.addr, b2n h.write] (count s Reg.FABRIC_HANGS)

/-! ### MSI-X (R471) -/

/-- The message that the PBA bit of vector v holds is sent once nothing masks it. -/
def msixPending (v : Nat) (s : State) : State :=
  let a := Reg.MSIX_PBA (v / 32)
  if !fbit s (Reg.MSIX_CTRL v) Fld.MSIX_CTRL_MASK && bitOf (v % 32) (rgetN s a) && s.fab.msixEnable && !s.fab.msixMask then
    sendMsix v (rsetN s a (withBits (v % 32) (v % 32) 0 (rgetN s a)))
  else s
/-- A write of a vector's control word: unmasking sends the message its PBA bit holds. -/
def msixCtrlWrite (v : Nat) (w : Nat) (s : State) : State :=
  msixPending v (fset s (Reg.MSIX_CTRL v) Fld.MSIX_CTRL_MASK (w % 2))
/-- The host configures the function: the bases of its BARs, MSI-X Enable and the function mask. Messages held by the PBA of
vectors that nothing masks any more are sent (R466, R471). -/
def pcieConfigure (bar0 bar2 : Nat) (en mask : Bool) (s : State) : State :=
  let s := { s with fab := { s.fab with
    msixEnable := en, msixMask := mask
    config := { s.fab.config with bar0 := bar0 / 2 ^ 26 * 2 ^ 26, bar2 := bar2 / 2 ^ 30 * 2 ^ 30 } } }
  (List.range 64).foldl (fun s v => msixPending v s) s

/-! ### Management I2C (R486-R488) -/

/-- The target returns bytes, the status byte first. -/
def i2cReply (bs : List Nat) (s : State) : State := emit s (.i2c bs)
/-- The target does not acknowledge parameter bytes beyond the n that a command takes (R487). -/
def i2cExtra (n : Nat) (params : List Byte) (s : State) : State := (params.drop n).foldl (fun s _ => emit s .i2cNack) s
/-- The command bytes of Table 19.5. -/
def i2cListed (c : Nat) : Bool := [0x10, 0x20, 0x21, 0x22, 0x30, 0x3A].contains c
/-- A command that ended before its parameters had arrived is discarded; the read after it returns INCOMPLETE. -/
def i2cCut (s : State) : State := i2cReply [6] s
/-- M8 can reach registers: not in RESET, and the ctl synthesiser locked (Table 19.6 UNAVAILABLE). -/
def m8Reach (s : State) : Bool :=
  !(mode s == .reset) && fbit s Reg.GLOBAL_CLK_LOCK Fld.GLOBAL_CLK_LOCK_CTL

/-- STATUS: the aon copies of GLOBAL_MODE, GLOBAL_BOOT_STAT and GLOBAL_RESET_CAUSE hold what the registers hold (R488). -/
def i2cStatusBytes (s : State) : List Nat :=
  0 :: wordBytes [rgetN s Reg.GLOBAL_MODE, rgetN s Reg.GLOBAL_BOOT_STAT, rgetN s Reg.GLOBAL_RESET_CAUSE,
    s.core.supplyOk.toNat]

/-- MRAM_READ of n bytes from an offset that advances; 0 from 32 MiB on. -/
def i2cMram (params : List Byte) (n : Nat) (s : State) : State :=
  if params.length < 4 then i2cCut s
  else
    let x := leNat ((params.take 4).map (·.toNat))
    let r := mramRead x n s
    i2cReply (0 :: r.1) r.2

/-- REG_RESULT: the status and data of the last register command (Table 19.6). -/
def i2cResult (s : State) : State :=
  match s.fab.i2cPending with
  | some _ => i2cReply [if isHung s 8 then 3 else 1] s
  | none => match s.fab.i2cStatus, s.fab.i2cData with
    | 0, some d => i2cReply (0 :: leBytes 4 d.toNat) s
    | st, _ => i2cReply [st] s

/-! ### Meanings -/

/-- PCIE_POWER_STATE_CHANGE: into or out of D3hot (R468). -/
def execPciePowerStateChange (d3 : Bool) (s : State) : Out :=
  .next (if fbit s Reg.FABRIC_PCIE_STAT Fld.FABRIC_PCIE_STAT_UP then
    fset s Reg.FABRIC_PCIE_STAT Fld.FABRIC_PCIE_STAT_D3HOT (b2n d3) else s)
/-- PCIE_LINK_UP: the link is up at a speed of Table 19.9 and a width of x1, x2 or x4, and the host has configured the
function (R466, R469, R471). -/
def execPcieLinkUp (speed : Fin 6) (width : Fin 5) (bar0 bar2 : BitVec 64) (msixEn msixMask : Bool) (s : State) : Out :=
  .next (if !fbit s Reg.GLOBAL_CLK_LOCK Fld.GLOBAL_CLK_LOCK_CTL || mode s == .reset
      || speed.val == 0 || width.val == 0 || width.val == 3 then s
    else
      let a := Reg.FABRIC_PCIE_STAT
      pcieConfigure bar0.toNat bar2.toNat msixEn msixMask (fset (fset (fset s a Fld.FABRIC_PCIE_STAT_UP 1)
        a Fld.FABRIC_PCIE_STAT_SPEED speed) a Fld.FABRIC_PCIE_STAT_WIDTH width))
/-- MSIX_UNMASK: the host clears the mask of a vector (R471). -/
def execMsixUnmask (v : Fin 64) (s : State) : Out :=
  .next (hostWrite 0 (Reg.MSIX_CTRL v) 0 (msixCtrlWrite v 0) s)
/-- DECODE_HANG_EXPIRE (R483). -/
def execDecodeHangExpire (m : Fin 9) (s : State) : Out := .next (hangExpire m s)
/-- FABRIC_MASTER_RESET: a keyed write of FABRIC_MRESET (R484, R485). -/
def execFabricMasterReset (m : Fin 9) (w : Word) (s : State) : Out :=
  .next (hostWrite m Reg.FABRIC_MRESET w (mresetWrite w.toNat) s)
/-- I2C_MRAM_READ (R487). -/
def execI2cMramRead (params : List Byte) (n : Fin 257) (s : State) : Out :=
  .next (i2cMram params n (i2cExtra 4 params s))
/-- I2C_REG_RESULT (R487). -/
def execI2cRegResult (params : List Byte) (s : State) : Out := .next (i2cResult (i2cExtra 0 params s))
/-- I2C_STATUS, the command byte 0x30; a command byte that Table 19.5 does not list is not acknowledged, and one that it
lists otherwise is another row's (R487, R488; log entry 153). -/
def execI2cStatus (code : Byte) (params : List Byte) (s : State) : Out :=
  .next (if code = 0x30 then i2cReply (i2cStatusBytes s) (i2cExtra 0 params s)
    else if i2cListed code.toNat then s else emit s .i2cNack)
/-- I2C_RESET_M8: the parameter 0xA5 resets M8, any other is ignored (R487, R484). -/
def execI2cResetM8 (params : List Byte) (s : State) : Out :=
  .next (match params with
    | [] => i2cCut s
    | b :: r => i2cReply [0] (i2cExtra 0 r (if b.toNat = 0xA5 && !(mode s == .reset) then masterReset 8 s else s)))
/-- I2C_SCL_TIMEOUT: SCL low for 25 ms; the target releases SDA and returns to idle (R486). -/
def execI2cSclTimeout (s : State) : Out := .next (emit s (.pin "MGMT_SDA" 1))

end Sys2Proof.Machine
end

