-- ==== Sys2Proof/Machine/PatinaFamily.lean ====
section
/-! DEFINITION. Faults seen by the host, the Patina writer, the Keep region, power failure and the lifetime counters
(17_faults_patina.md R413-R442). -/

namespace Sys2Proof.Machine

/-! ### Severity and status (R420, R421) -/

/-- A write of FAULT_SEV_s: refused with reason 2 for a reserved source or a SEV of 6 or 7, with reason 3 under LOCK.
Raising SEV to 3 or more under a set status bit acts as a raise for FAULT_N and MSI-X, uncounted and unrecorded. -/
def faultSevWrite (m n : Nat) (w : Nat) (s : State) : State :=
  let a := Reg.FAULT_SEV n
  let v := w % 8
  if srcReserved n then refuse m 2 (ridReg a) a s
  else if fbit s a Fld.FAULT_SEV_LOCK then refuse m 3 (ridReg a) a s
  else if 6 ≤ v then refuse m 2 (ridReg a) a s
  else
    let old := faultSev s n
    let s := refreshPins (fset s a Fld.FAULT_SEV_SEV v)
    let e := Reg.FAULT_VEC (n / 32)
    if faultStatus s n && decide (old < 3) && decide (3 ≤ v) && !(mode s == .boot) && fbit s e Fld.FAULT_VEC_EN then
      sendMsix (fget s e Fld.FAULT_VEC_VEC) s
    else s

/-! ### Uncorrectable words of the MRAM (R423) -/

/-- How many words of n bytes at offset x read as uncorrectable, and how many are corrected. -/
def mramBadCount (s : State) (x n : Nat) : Nat :=
  (((s.long.mramBad.map (· / 2)).eraseDups).filter (fun w => decide (8 * w < x + n) && decide (x < 8 * w + 8))).length
def mramSoftCount (s : State) (x n : Nat) : Nat :=
  (s.long.mramSoft.filter (fun w => decide (8 * w < x + n) && decide (x < 8 * w + 8))).length
/-- Words met are counted and reported: `c` corrected, `u` uncorrectable. -/
def mramReport (c u : Nat) (s : State) : State :=
  (List.range u).foldl (fun s _ => mramUncorr s) ((List.range c).foldl (fun s _ => mramCorrected s) s)
/-- The device reads n bytes at offset x for itself: every corrected or uncorrectable word is counted and reported. -/
def mramScan (x n : Nat) (s : State) : State :=
  mramReport (mramSoftCount s x n) (mramBadCount s x n) (mramHeal x n s)

/-! ### The Patina writer (R424-R429) -/

/-- The words of a record with its SEQ, in the layout of Table 17.5. -/
def recWords (r : PatRec) (seq : Nat) : List Nat :=
  let pl := (r.payload ++ List.replicate 8 0).take 8
  let body := [lo32 seq, seq / 2 ^ 32 % 2 ^ 16 + r.event % 65536 * 65536, lo32 r.time, hi32 r.time, r.boot % 2 ^ 32,
    r.source % 2048 + r.master % 16 * 2 ^ 12 + r.sev % 8 * 2 ^ 16 + b2n r.tv * 2 ^ 24 + b2n r.locked * 2 ^ 25] ++ pl
  body ++ [crc32 (wordBytes body), 2 ^ 32 - 1 - lo32 seq]

def journalSlots : Nat := 393216
def patSeq (s : State) : Nat := rget64 s Reg.PAT_SEQ_LO Reg.PAT_SEQ_HI
def setPatSeq (n : Nat) (s : State) : State :=
  rsetN (rsetN s Reg.PAT_SEQ_LO (lo32 n)) Reg.PAT_SEQ_HI (n / 2 ^ 32 % 2 ^ 16)

/-- The oldest pending record is taken: it gets the next SEQ and its slot (R425). -/
def takeRec (s : State) : State :=
  match s.pat.inFlight, s.pat.pendingRecs with
  | none, r :: t =>
    let n := patSeq s
    setPatSeq (n + 1) { s with pat := { s.pat with pendingRecs := t, inFlight := some (r, n, 0) } }
  | _, _ => s

/-- The writer writes the record in flight up to `upto` words of 16, in ascending order, the commit word last. -/
def writeRec (upto : Nat) (s : State) : State :=
  match s.pat.inFlight with
  | none => s
  | some (r, n, done) =>
    let upto := min 16 upto
    if upto ≤ done then s
    else
      let ws := ((recWords r n).take upto).drop done
      let s := mramWrite s (64 * (n % journalSlots) + 4 * done) (wordBytes ws)
      { s with pat := { s.pat with inFlight := if upto = 16 then none else some (r, n, upto) } }

/-- Once a token is available, one RECORDS_DROPPED record for all records lost since the last (R427). -/
def reportDrops (s : State) : State :=
  let tok := fget s Reg.PAT_TOKENS Fld.PAT_TOKENS_TOKENS
  if s.pat.lost = 0 ∨ tok = 0 ∨ 64 ≤ s.pat.pendingRecs.length ∨ fbit s Reg.PAT_STAT Fld.PAT_STAT_PF then s
  else
    let r := makeRec 8 0x7FF 0 0 [s.pat.lost, s.pat.lostFirst, s.pat.lostLast] s
    let s := fset s Reg.PAT_TOKENS Fld.PAT_TOKENS_TOKENS (tok - 1)
    { s with pat := { s.pat with pendingRecs := s.pat.pendingRecs ++ [r], lost := 0, lostFirst := 0, lostLast := 0 } }

/-- One token more, up to 4,096 (R427). -/
def tokenTick (s : State) : State :=
  if mode s == .reset then s
  else
    let tok := fget s Reg.PAT_TOKENS Fld.PAT_TOKENS_TOKENS
    reportDrops (fset s Reg.PAT_TOKENS Fld.PAT_TOKENS_TOKENS (min 4096 (tok + 1)))

/-- A host GO (R429). -/
def hostEvtWrite (m : Nat) (w : Nat) (s : State) : State :=
  let a := Reg.PAT_HOST_EVT
  if bitOf 31 w then
    if w % 65536 < 0x8000 then refuse m 2 (ridReg a) a s
    else
      let s := fset s a Fld.PAT_HOST_EVT_EVENT (w % 65536)
      let data := (List.range 8).map (fun i => rgetN s (Reg.PAT_HOST_DATA i))
      queueRec (makeRec (w % 65536) 0x7FF m 0 data s) s
  else fset s a Fld.PAT_HOST_EVT_EVENT (w % 65536)

/-! ### Finding the journal head (R426) -/

/-- A journal slot read back: blank, or its SEQ and whether it is committed. -/
inductive SlotView where
  | blank | committed (seq : Nat) | torn
  deriving DecidableEq, Repr

def slotView (s : State) (n : Nat) : SlotView :=
  let bs := mramBytes s (64 * n) 64
  if mramBadIn s (64 * n) 64 then .torn
  else if bs.all (· == 0) then .blank
  else
    let w (i : Nat) : Nat := leNat ((bs.drop (4 * i)).take 4)
    if w 15 = 2 ^ 32 - 1 - w 0 ∧ w 14 = crc32 (bs.take 56) then .committed (w 0 + w 1 % 65536 * 2 ^ 32) else .torn

/-- Slots that hold any listed byte: only these can be committed. -/
def usedSlots (s : State) : List Nat :=
  ((s.long.mram.filter (fun c => decide (c.1 < 64 * journalSlots))).map (fun c => c.1 / 64)).eraseDups

/-- The highest committed SEQ. -/
def topSeq (s : State) : Option Nat :=
  (usedSlots s).foldl (fun acc n =>
    match slotView s n, acc with
    | .committed q, none => some q
    | .committed q, some p => some (max p q)
    | _, _ => acc) none

/-- Find the head, judge the slot the next record will take, log a torn one as the next record, and report the
uncorrectable words of the journal (R426, R423). -/
def findHead (s : State) : State :=
  let next := match topSeq s with | none => 0 | some t => t + 1
  let s := fset (setPatSeq next s) Reg.PAT_STAT Fld.PAT_STAT_READY 1
  let sound := match slotView s (next % journalSlots) with
    | .blank => true
    | .committed q => decide (q + journalSlots = next)
    | .torn => false
  let s := if sound then s
    else
      let s := fset (lifeAdd s 7 1) Reg.PAT_STAT Fld.PAT_STAT_TORN_LAST 1
      let r := makeRec 7 0x7FF 0 0 [next % journalSlots, lo32 next, next / 2 ^ 32] s
      { s with pat := { s.pat with pendingRecs := r :: s.pat.pendingRecs } }
  mramScan 0 (64 * journalSlots) s

/-! ### Lifetime counters (R439-R441) -/

def lifeBase (c : Nat) : Nat := 0x1C00000 + 0x40000 * c
def arbBase : Nat := 0x1D00080
def bootPtrBase : Nat := 0x1D0008C

/-- Write copy 0, then 1, then 2, each whole (R440). -/
def writeLife (s : State) : State :=
  let bs := (List.range 594).flatMap (fun k => leBytes 8 (lifeGet s k))
  (List.range 3).foldl (fun s c => mramWrite s (lifeBase c) bs) s

/-- The vote of R440 over three copies, none for an unreadable one: the value taken, and whether it must be rewritten
with LIFE_VOTE. -/
def vote (dflt : Nat) (cs : List (Option Nat)) : Nat × Bool :=
  match cs with
  | [some a, some b, some c] =>
    if a = b ∨ a = c then (a, false) else if b = c then (b, false)
    else (max (min a b) (min (max a b) c), true)
  | [some a, some _, none] => (a, true)
  | [some a, none, some _] => (a, true)
  | [none, some b, some _] => (b, true)
  | [some a, none, none] => (a, true)
  | [none, some b, none] => (b, true)
  | [none, none, some c] => (c, true)
  | _ => (dflt, true)

/-- The three copies of a field of n bytes that repeats at a stride. -/
def copies (s : State) (base stride n : Nat) : List (Option Nat) :=
  (List.range 3).map (fun c =>
    if mramBadIn s (base + stride * c) n then none else some (leNat (mramBytes s (base + stride * c) n)))
def copiesOf4 (s : State) (base : Nat) : List (Option Nat) := copies s base 4 4

/-- ARB_COUNT and BOOT_PTR as the vote gives them (R441); slot A when none is readable. -/
def arbCount (s : State) : Nat := (vote 0 (copiesOf4 s arbBase)).1
def bootPtr (s : State) : Nat := (vote 1 (copiesOf4 s bootPtrBase)).1
def write3 (s : State) (base v : Nat) : State :=
  (List.range 3).foldl (fun s c => mramWrite s (base + 4 * c) (leBytes 4 v)) s
/-- A write that would lower ARB_COUNT is ignored (R441). -/
def setArbCount (v : Nat) (s : State) : State := if v < arbCount s then s else write3 s arbBase v
def setBootPtr (v : Nat) (s : State) : State := write3 s bootPtrBase v

/-- The aon domain starts: it reads the counters by vote and rewrites what disagrees (R440). -/
def loadLife (s : State) : State :=
  let votes := (List.range 594).map (fun k => (k, vote 0 (copies s (lifeBase 0 + 8 * k) 0x40000 8)))
  let s := { s with long := { s.long with
    life := votes.foldl (fun m p => cset 0 m p.1 p.2.1) [] } }
  let va := vote 0 (copiesOf4 s arbBase)
  let vb := vote 1 (copiesOf4 s bootPtrBase)
  let bad := votes.any (fun p => p.2.2)
  let sum (f : Nat → Nat → Nat) : Nat := (List.range 3).foldl (fun n c => n + f (lifeBase c) 4752) (f arbBase 24)
  let seen := sum (mramBadCount s)
  let soft := sum (mramSoftCount s)
  let s := mramHeal arbBase 24 ((List.range 3).foldl (fun s c => mramHeal (lifeBase c) 4752 s) s)
  let s := if bad then writeLife s else s
  let s := if va.2 then write3 s arbBase va.1 else s
  let s := if vb.2 then write3 s bootPtrBase vb.1 else s
  { s with pat := { s.pat with voteBad := bad || va.2 || vb.2, badSeen := seen, corrSeen := soft } }

/-- The temperature band counter of TJ_MAX, in eighths of a degree (Table 17.10). -/
def bandOf (t : Int) : Nat :=
  if t < -160 then 8 else if t < 0 then 9 else if t < 200 then 10 else if t < 400 then 11 else if t < 560 then 12
  else if t < 680 then 13 else if t < 760 then 14 else if t < 840 then 15 else if t < 920 then 16 else 17

/-! ### The Keep region (R433-R438) -/

def bankBase (b : Nat) : Nat := 0x1800000 + 0x200000 * b
def logEntries : Nat := 60924

/-- The present value of an item: the route of a destination, or the two words of a mix entry (Table 17.8, 13.7). -/
def itemNow (s : State) : KeepItem → KeepVal
  | .video d =>
    let a := Reg.XP_DEST_SRC d
    ⟨.video d, 0x8000 + fget s a Fld.XP_DEST_SRC_CUR_BLACK * 0x800 + fget s a Fld.XP_DEST_SRC_CUR_SRC, 0⟩
  | .audio b =>
    let a := Reg.AUD_B_STAT b
    ⟨.audio b, fget s a Fld.AUD_B_STAT_ZERO * 0x8000 + fget s a Fld.AUD_B_STAT_CUR_SRC, 0⟩
  | .mix i => ⟨.mix i, rgetN s (Reg.AUD_MIX_W (i / 64) (2 * (i % 64))), rgetN s (Reg.AUD_MIX_W (i / 64) (2 * (i % 64) + 1))⟩

/-- What an item holds in a cleared snapshot (R438): black and not valid, zero, an empty entry. -/
def itemClear : KeepItem → KeepVal
  | .video d => ⟨.video d, 0x0800, 0⟩
  | .audio b => ⟨.audio b, 0x8000, 0⟩
  | .mix i => ⟨.mix i, 0, 0⟩

/-- Value of an item in a list of values, cleared where not listed; a later value replaces an earlier one. -/
def valOf (vs : List KeepVal) (k : KeepItem) : KeepVal := (vs.find? (fun v => v.item == k)).getD (itemClear k)
def putVal (vs : List KeepVal) (v : KeepVal) : List KeepVal := v :: vs.filter (fun u => u.item != v.item)
def putVals (vs : List KeepVal) (new : List KeepVal) : List KeepVal := new.foldl putVal vs

/-- The bytes of a snapshot (Table 17.8). -/
def snapBytes (vs : List KeepVal) : List Nat :=
  (List.range 4096).flatMap (fun d => leBytes 2 (valOf vs (.video d)).v0) ++
  ((List.range 32768).flatMap (fun b => leBytes 2 (valOf vs (.audio b)).v0) ++
  (List.range 131072).flatMap (fun i => leBytes 4 (valOf vs (.mix i)).v0 ++ leBytes 4 (valOf vs (.mix i)).v1))

/-- Write a snapshot with its header, COMMIT last (R435), and continue the log there. -/
def writeSnap (b gen : Nat) (vs : List KeepVal) (s : State) : State :=
  let body := snapBytes vs
  let hdr := [0x5045454B, 1, gen % 2 ^ 32, s.pat.keepFlush, crc32 body] ++ List.replicate 10 0
  let s := mramWrite s (bankBase b + 0x40) body
  let s := mramWrite s (bankBase b) (wordBytes hdr)
  let s := mramWrite s (bankBase b + 60) (leBytes 4 (2 ^ 32 - 1 - gen % 2 ^ 32))
  { s with pat := { s.pat with keepBank := some b, keepGen := gen, keepPos := 0, keepSnap := vs, needSnap := false } }

/-- Type code and index of an item's log entry (Table 17.9). -/
def itemCode : KeepItem → Nat × Nat
  | .video d => (1, d) | .audio b => (2, b) | .mix i => (3, i)

/-- One log entry (Table 17.9). -/
def logEntry (gen type index v0 v1 : Nat) : List Nat :=
  let ws := [type + gen % 16 * 16 + index % 2 ^ 24 * 256, v0 % 2 ^ 32, v1 % 2 ^ 32]
  wordBytes (ws ++ [crc32 (wordBytes ws)])
def logWrite (type index v0 v1 : Nat) (s : State) : State :=
  match s.pat.keepBank with
  | none => s
  | some b =>
    let s := mramWrite s (bankBase b + 0x112040 + 16 * s.pat.keepPos) (logEntry s.pat.keepGen type index v0 v1)
    { s with pat := { s.pat with keepPos := s.pat.keepPos + 1 } }

/-- Append one entry per item. -/
def logItems (vs : List KeepVal) (s : State) : State :=
  vs.foldl (fun s v => logWrite (itemCode v.item).1 (itemCode v.item).2 v.v0 v.v1 s) s
/-- Append the FLUSH entry of items already in the log; the flush is then complete (R434). -/
def logEnd (vs : List KeepVal) (final : Bool) (s : State) : State :=
  let n := s.pat.keepFlush + 1
  let s := logWrite 4 vs.length n (b2n final) s
  { s with pat := { s.pat with keepFlush := n, keepSnap := putVals s.pat.keepSnap vs } }
/-- Append items and their FLUSH entry. -/
def logFlush (vs : List KeepVal) (final : Bool) (s : State) : State := logEnd vs final (logItems vs s)

/-- Header of a bank: committed, its GEN, and whether the bank is usable (R437 item 1). -/
def bankWord (s : State) (b i : Nat) : Nat := mramWord s (bankBase b + 4 * i)
def bankCommitted (s : State) (b : Nat) : Bool :=
  bankWord s b 0 == 0x5045454B && bankWord s b 1 == 1 && bankWord s b 15 == 2 ^ 32 - 1 - bankWord s b 2
    && !mramBadIn s (bankBase b) 64
def bankUsable (s : State) (b : Nat) : Bool :=
  bankCommitted s b && !mramBadIn s (bankBase b) 0x112040
    && bankWord s b 4 == crc32 (mramBytes s (bankBase b + 0x40) 0x112000)
/-- The usable bank of higher GEN. -/
def bestBank (s : State) : Option Nat :=
  if bankUsable s 0 && (!bankUsable s 1 || decide (bankWord s 1 2 ≤ bankWord s 0 2)) then some 0
  else if bankUsable s 1 then some 1 else none
/-- One above the highest GEN of any committed header, or 1 (R437). -/
def freshGen (s : State) : Nat :=
  let g (b : Nat) : Nat := if bankCommitted s b then bankWord s b 2 else 0
  max (g 0) (g 1) + 1

/-- The state in service, over every item that is not in its cleared value (R437: the snapshot at the first boundary).
A destination that carries no route keeps its cleared item. -/
def serviceVals (s : State) : List KeepVal :=
  let vid := (List.range 4096).filterMap (fun d =>
    if fbit s (Reg.XP_DEST_SRC d) Fld.XP_DEST_SRC_CUR_BLACK then none else some (itemNow s (.video d)))
  let aud := (List.range 32768).filterMap (fun b =>
    if fbit s (Reg.AUD_B_STAT b) Fld.AUD_B_STAT_ZERO then none else some (itemNow s (.audio b)))
  let mix := (s.regs.filter (fun p => decide (Reg.AUD_MIX_W 0 0 ≤ p.1) && decide (p.1 < Reg.AUD_MIX_W 2048 0))).map
    (fun p => (p.1 - Reg.AUD_MIX_W 0 0) / 8)
  vid ++ (aud ++ mix.eraseDups.map (fun i => itemNow s (.mix i)))

/-- Bytes of a snapshot with its header, and what the writer may write between two boundaries at 1 MiB/s (R434). -/
def snapSize : Nat := 0x112040
def keepPace : Nat := 10485

/-- The writer begins a snapshot. -/
def snapBegin (bank gen : Nat) (vs : List KeepVal) (s : State) : State :=
  { s with pat := { s.pat with snapJob := some { bank := bank, gen := gen, left := snapSize, vals := vs } } }
/-- A snapshot is complete: what was written of an unfinished flush stands in the other bank, so it is written again. -/
def snapEnd (j : SnapJob) (s : State) : State :=
  let s := writeSnap j.bank j.gen j.vals s
  { s with pat := { s.pat with snapJob := none, flushes := s.pat.flushes.map (fun f => { f with done := 0 }) } }
/-- The writer works: `left` bytes may still be written, in at most n pieces: a snapshot, or entries of the oldest flush,
with a snapshot first where the log cannot hold that flush (R434, R435). -/
def keepWork : Nat → Nat → State → State
  | 0, _, s => s
  | n + 1, left, s =>
    match s.pat.snapJob with
    | some j =>
      if j.left ≤ left then keepWork n (left - j.left) (snapEnd j s)
      else { s with pat := { s.pat with snapJob := some { j with left := j.left - left } } }
    | none =>
      match s.pat.keepBank, s.pat.flushes with
      | some b, f :: rest =>
        if f.done = 0 ∧ s.pat.keepPos ≠ 0 ∧ logEntries < s.pat.keepPos + f.items.length + 1 then
          keepWork n left (snapBegin (1 - b) (s.pat.keepGen + 1) s.pat.keepSnap s)
        else
          let vs := (f.items.drop f.done).take (left / 16)
          let s := logItems vs s
          let done := f.done + vs.length
          if done = f.items.length ∧ 16 * vs.length + 16 ≤ left then
            keepWork n (left - 16 * vs.length - 16) (logEnd f.items false { s with pat := { s.pat with flushes := rest } })
          else { s with pat := { s.pat with flushes := { f with done := done } :: rest } }
      | _, _ => s

/-- Values in parts that one bank's log can hold with their FLUSH entry (log entry 141). -/
def flushParts : Nat → List KeepVal → List KeepFlush
  | 0, _ => []
  | _, [] => []
  | n + 1, vs => { items := vs.take (logEntries - 1) } :: flushParts n (vs.drop (logEntries - 1))

/-- The dirty items and their values become one flush (R434). -/
def takeDirty (s : State) : State :=
  let vs := s.pat.dirty.map (itemNow s)
  { s with pat := { s.pat with dirty := [], flushes := s.pat.flushes ++ flushParts 3 vs } }

/-- A boundary: the dirty items and their values are one flush, and the writer writes up to `pace` bytes; the first
boundary without a usable bank begins the snapshot of the state in service (R434, R437). -/
def keepRun (pace : Nat) (s : State) : State :=
  if !inRole s || fbit s Reg.PAT_STAT Fld.PAT_STAT_PF then s
  else
    let s := if s.pat.needSnap then
        snapBegin 0 (freshGen s) (serviceVals s) { s with pat := { s.pat with needSnap := false } } else s
    let s := takeDirty s
    setBacklog (keepWork (2 * s.pat.flushes.length + 2) pace s)
def keepBoundary (s : State) : State := keepRun keepPace s

/-- The flush of step 1 of a cast, unpaced: what is under way ends, then every dirty item is one flush, or, where the log
cannot hold it, part of a snapshot into the other bank (18 R451). -/
def keepCastFlush (s : State) : State :=
  if !inRole s || fbit s Reg.PAT_STAT Fld.PAT_STAT_PF then s
  else
    let s := if s.pat.needSnap then
        snapBegin 0 (freshGen s) (serviceVals s) { s with pat := { s.pat with needSnap := false } } else s
    let s := keepWork (2 * s.pat.flushes.length + 2) (2 ^ 40) s
    let vs := s.pat.dirty.map (itemNow s)
    let s := { s with pat := { s.pat with dirty := [] } }
    setBacklog <| match s.pat.keepBank with
      | none => s
      | some b =>
        if vs.isEmpty then s
        else if logEntries < s.pat.keepPos + vs.length + 1 then
          writeSnap (1 - b) (s.pat.keepGen + 1) (putVals s.pat.keepSnap vs)
            { s with pat := { s.pat with keepFlush := s.pat.keepFlush + 1 } }
        else logFlush vs false s

/-- The cleared snapshot of R438, whole at once. -/
def clearWhole (s : State) : State :=
  match s.pat.keepBank with
  | some b => writeSnap (1 - b) (s.pat.keepGen + 1) [] s
  | none => match bestBank s with
    | some b => writeSnap (1 - b) (bankWord s b 2 + 1) [] s
    | none => writeSnap 0 (freshGen s) [] s
/-- A CLEAR is obeyed: at the writer's pace in STANDBY and ACTIVE, at once elsewhere, where the writer logs nothing; a
snapshot under way gives way to it (R434, R438). -/
def clearNow (s : State) : State :=
  let s := { s with pat := { s.pat with snapJob := none, needSnap := false } }
  if inRole s then
    match s.pat.keepBank with
    | some b => snapBegin (1 - b) (s.pat.keepGen + 1) [] s
    | none => snapBegin 0 (freshGen s) [] s
  else
    let s := clearWhole s
    { s with pat := { s.pat with keepBank := none } }
def keepCtrlWrite (w : Nat) (s : State) : State :=
  if w / 65536 ≠ 0x6B3E ∨ !bitOf 0 w then s
  else if mode s == .boot then { s with pat := { s.pat with clearHeld := true } }
  else clearNow s

/-- Where entry i of a bank's log lies. -/
def logAt (b i : Nat) : Nat := bankBase b + 0x112040 + 16 * i
/-- One entry of a bank's log as read back: type, index, v0, v1 when its GTAG and CRC hold (R437 item 2). -/
def readEntry (s : State) (b gen i : Nat) : Option (Nat × Nat × Nat × Nat) :=
  let x := logAt b i
  let bs := mramBytes s x 16
  let w (j : Nat) : Nat := leNat ((bs.drop (4 * j)).take 4)
  let t := w 0 % 16
  let idx := w 0 / 256
  let ok := if t = 1 then decide (idx ≤ 4095) else if t = 2 then decide (idx ≤ 32767)
    else if t = 3 then decide (idx ≤ 131071) else t == 4 || t == 5
  if !mramBadIn s x 16 && w 0 / 16 % 16 == gen % 16 && w 3 == crc32 (bs.take 12) && ok then some (t, idx, w 1, w 2)
  else none

/-- Replay result: state at the last FLUSH entry, its flush number, entries replayed, FINAL, whether a FINAL_START
stands after it, where the log goes on, and the entries read in all. -/
structure Replay where
  vals : List KeepVal
  flush : Nat
  entries : Nat
  final : Bool
  partialFlush : Bool
  pos : Nat
  read : Nat := 0
  deriving DecidableEq, Repr

/-- Replay the log from entry i: `acc` is the state at the last FLUSH, `run` the entries since. -/
def replayGo (s : State) (b gen : Nat) : Nat → Nat → List KeepVal → Bool → Replay → Replay
  | 0, i, _, fs, acc => { acc with partialFlush := fs, read := i }
  | n + 1, i, run, fs, acc =>
    match readEntry s b gen i with
    | none => { acc with partialFlush := fs, read := i + 1 }
    | some (t, idx, v0, v1) =>
      if t = 4 then
        replayGo s b gen n (i + 1) [] false
          { vals := putVals acc.vals run, flush := v0, entries := i + 1, final := bitOf 0 v1, partialFlush := false, pos := i + 1 }
      else if t = 5 then replayGo s b gen n (i + 1) run true acc
      else
        let item : KeepItem := if t = 1 then .video idx else if t = 2 then .audio idx else .mix idx
        replayGo s b gen n (i + 1) (run ++ [⟨item, v0, v1⟩]) fs acc

/-- The snapshot of a bank as values, cleared items left out. -/
def readSnap (s : State) (b : Nat) : List KeepVal :=
  let base := bankBase b + 0x40
  let vid := (List.range 4096).map (fun d => (⟨.video d, leNat (mramBytes s (base + 2 * d) 2), 0⟩ : KeepVal))
  let aud := (List.range 32768).map (fun c => (⟨.audio c, leNat (mramBytes s (base + 0x2000 + 2 * c) 2), 0⟩ : KeepVal))
  let mix := (List.range 131072).map (fun i => (⟨.mix i, mramWord s (base + 0x12000 + 8 * i),
    mramWord s (base + 0x12000 + 8 * i + 4)⟩ : KeepVal))
  (vid ++ (aud ++ mix)).filter (fun v => v != itemClear v.item)

/-- The state the best bank gives. -/
def replay (s : State) (b : Nat) : Replay :=
  replayGo s b (bankWord s b 2) logEntries 0 [] false
    { vals := readSnap s b, flush := bankWord s b 3, entries := 0, final := false, partialFlush := false, pos := 0 }

/-! ### Power failure (R430-R432, R436) -/

/-- POWER_FAIL_N observed low: pending records are discarded, the final boundary is taken with the items of every flush
not yet complete, the POWER_FAIL record follows the record in flight; in RESET only the counters and the protection
(Table 17.7). -/
def powerFail (s : State) : State :=
  let s := setFiltered 10 false s
  let s := lifeAdd s 5 1
  if mode s == .reset then
    let s := writeLife s
    { s with long := { s.long with protect := true } }
  else
    let n := s.pat.pendingRecs.length
    let open' := s.pat.flushes.flatMap (fun f => f.items.map (·.item))
    let items := s.pat.dirty ++ (open'.filter (fun k => !(k ∈ s.pat.dirty))).eraseDups
    let vs := if inRole s then items.map (itemNow s) else []
    let s := { s with pat := { s.pat with pendingRecs := [], dirty := [], flushes := [], finalItems := vs } }
    let s := setBacklog (fset s Reg.PAT_STAT Fld.PAT_STAT_PF 1)
    logEvent 5 [n, vs.length] s

/-- The final flush (R436), then the counters and the write protection (Table 17.7 steps 5 to 7). It begins only once
the record in flight and POWER_FAIL are committed. In RESET only the counters are written and protected. -/
def finalFlush (s : State) : State :=
  if mode s == .reset && fbit s Reg.PAT_STAT Fld.PAT_STAT_PF then
    let s := writeLife s
    { s with long := { s.long with protect := true } }
  else if !fbit s Reg.PAT_STAT Fld.PAT_STAT_PF || s.pat.inFlight.isSome || !s.pat.pendingRecs.isEmpty
      || fbit s Reg.PAT_STAT Fld.PAT_STAT_SEALED then s
  else
    let vs := s.pat.finalItems
    let room := logEntries - s.pat.keepPos
    let s :=
      if vs.isEmpty then s
      else if s.pat.keepBank.isNone || room == 0 then { s with pat := { s.pat with finalOpen := vs } }
      else if 2048 < vs.length ∨ room < vs.length + 2 then
        let t := logWrite 5 0 0 0 s
        { t with pat := { t.pat with finalOpen := vs } }
      else logFlush vs true (logWrite 5 0 0 0 s)
    let s := setBacklog { s with pat := { s.pat with finalItems := [] } }
    let s := writeLife (fset s Reg.PAT_STAT Fld.PAT_STAT_SEALED 1)
    { s with long := { s.long with protect := true } }

/-- POWER_FAIL_N high for 1 ms with every supply within limits (R432): the protection is lifted and POWER_RESTORE
written; the next flush also holds the items of a final flush that did not end. -/
def powerRestore (us : Nat) (s : State) : State :=
  let s := setFiltered 10 true s
  if mode s == .reset ∨ !fbit s Reg.PAT_STAT Fld.PAT_STAT_PF then s
  else
    let s := { s with long := { s.long with protect := false } }
    let open' := (s.pat.finalOpen ++ s.pat.finalItems).map (·.item)
    let s := { s with pat := { s.pat with
      finalOpen := [], finalItems := [], dirty := s.pat.dirty ++ open'.filter (fun k => !(k ∈ s.pat.dirty)) } }
    let s := fset (fset s Reg.PAT_STAT Fld.PAT_STAT_PF 0) Reg.PAT_STAT Fld.PAT_STAT_SEALED 0
    logEvent 6 [us] (setBacklog s)

/-- The band that TJ_MAX is in now. -/
def bandNow (s : State) : Nat := bandOf (sext 16 (fget s Reg.GLOBAL_TJ Fld.GLOBAL_TJ_TJ_MAX))
/-- Can counter k have advanced since the last update? A band only where TJ_MAX has been in it. -/
def lifeCounts (s : State) (k : Nat) : Bool :=
  k == 0 || (if k < 18 then decide (8 ≤ k) && (k == bandNow s || s.pat.bands.contains k) else decide (k < 594))
/-- An update of the lifetime counters: the seconds counted since the last one, then all three copies (R439). -/
def lifeUpdate (adds : List (Nat × Nat)) (s : State) : State :=
  let t := adds.foldl (fun t p => if lifeCounts s p.1 then lifeAdd t p.1 p.2 else t) s
  writeLife { t with pat := { t.pat with bands := [] } }

/-! ### Meanings -/

/-- FAULT_STATUS_CLEAR: a W1C write of FAULT_STAT_g (R421, R416). -/
def execFaultStatusClear (m : Fin 9) (g : Fin 48) (w : Word) (s : State) : Out :=
  .next (hostWrite m (Reg.FAULT_STAT g) w (clearFaults g w.toNat) s)
/-- FAULT_SEV_WRITE: a write of FAULT_SEV_s (R420). -/
def execFaultSevWrite (m : Fin 9) (n : Fin 1536) (w : Word) (s : State) : Out :=
  .next (hostWrite m (Reg.FAULT_SEV n) w (faultSevWrite m n w.toNat) s)
/-- PATINA_RECORD_WRITE: the writer takes the oldest pending record and writes it up to word `upto`; its queue then has room
for a RECORDS_DROPPED record that waits (R425, R427). Up to word 0, no write has begun and the record still waits. -/
def execPatinaRecordWrite (upto : Fin 17) (s : State) : Out :=
  .next (if mode s == .reset || s.long.protect || upto == 0 then s else reportDrops (writeRec upto (takeRec s)))
/-- PATINA_TOKEN_TICK (R427). -/
def execPatinaTokenTick (s : State) : Out := .next (tokenTick s)
/-- PATINA_HOST_RECORD: a GO write of PAT_HOST_EVT with its EVENT (R429). -/
def execPatinaHostRecord (m : Fin 9) (event : BitVec 16) (s : State) : Out :=
  .next (hostWrite m Reg.PAT_HOST_EVT (w32 (2 ^ 31 + event.toNat)) (hostEvtWrite m (2 ^ 31 + event.toNat)) s)
/-- POWER_FAIL: POWER_FAIL_N observed low (R431). -/
def execPowerFail (s : State) : Out := .next (powerFail s)
/-- KEEP_FINAL_FLUSH (R436, Table 17.7). -/
def execKeepFinalFlush (s : State) : Out := .next (finalFlush s)
/-- POWER_RESTORE: POWER_FAIL_N high for 1 ms; `us` microseconds after it fell (R432). -/
def execPowerRestore (us : Word) (s : State) : Out := .next (powerRestore us.toNat s)
/-- KEEP_BOUNDARY (R434, R435). -/
def execKeepBoundary (s : State) : Out := .next (keepBoundary s)
/-- KEEP_CLEAR: a keyed write of PAT_KEEP_CTRL with CLEAR (R438). -/
def execKeepClear (m : Fin 9) (s : State) : Out :=
  .next (hostWrite m Reg.PAT_KEEP_CTRL (w32 0x6B3E0001) (keepCtrlWrite 0x6B3E0001) s)
/-- LIFETIME_COUNTER_UPDATE: what the aon domain counted since the last update, then the three copies (R439, R440). -/
def execLifetimeCounterUpdate (adds : List (Nat × Nat)) (s : State) : Out := .next (lifeUpdate adds s)

end Sys2Proof.Machine
end

