-- ==== Sys2Proof/Machine/ComposeFamily.lean ====
section
/-! DEFINITION. Composition heads, layers, tiles, LUTs and scaler coefficients (10_composition.md R254-R277;
11_scaling.md R278-R295 for layers), and the completion of a task. -/

namespace Sys2Proof.Machine

/-! ### Heads and layers in the state -/

def headSt (s : State) (h : Nat) : HeadSt := cget {} s.comp.heads h
def setHead (h : Nat) (v : HeadSt) (s : State) : State := { s with comp := { s.comp with heads := cset {} s.comp.heads h v } }
def layerSt (s : State) (l : Nat) : LayerSt := cget {} s.comp.layers l
def setLayer (l : Nat) (v : LayerSt) (s : State) : State :=
  { s with comp := { s.comp with layers := cset {} s.comp.layers l v } }
def lStat (l : Nat) (f : FieldRow) (b : Bool) (s : State) : State := fset s (Reg.COMP_L_STAT l) f (b2n b)
def headFmt (g : Img) (h : Nat) : Nat := srcFmt g (1536 + h)
def headW (g : Img) (h : Nat) : Nat := rasterW (rasterOf (headFmt g h))
def headH (g : Img) (h : Nat) : Nat := rasterH (rasterOf (headFmt g h))
/-- A head's space is R'G'B' where OUT_SAMPLING is 2. -/
def headRgb (g : Img) (h : Nat) : Bool := headSampling g h == 2
/-- The shadow descriptor: the registers. -/
def shadowWords (s : State) (l : Nat) : List Nat :=
  rgetN s (Reg.COMP_L_W0 l) :: (List.range 7).map (fun i => rgetN s (Reg.COMP_L_W l i))
/-- The reset descriptor (Table 10.3). -/
def resetWords : List Nat := [1023 * 2 ^ 22, 0, 0, 0, 0, 0, 0, 0]
def inForce (v : LayerSt) : List Nat := if v.force.isEmpty then resetWords else v.force

/-! ### Fields of a descriptor (Table 10.3) -/

def dw (w : List Nat) (i : Nat) : Nat := (w[i]?).getD 0
def dVis (w : List Nat) : Bool := bitOf 0 (dw w 0)
def dKind (w : List Nat) : Nat := bitsOf 2 1 (dw w 0)
def dAlpha (w : List Nat) : Bool := bitOf 3 (dw w 0)
def dTransfer (w : List Nat) : Nat := bitsOf 5 4 (dw w 0)
def dLb (w : List Nat) : Bool := bitOf 7 (dw w 0)
def dLut (w : List Nat) : Nat := bitsOf 10 8 (dw w 0)
def dCoef (w : List Nat) : Nat := bitsOf 14 12 (dw w 0)
def dZ (w : List Nat) : Nat := bitsOf 21 16 (dw w 0)
def dGAlpha (w : List Nat) : Nat := bitsOf 31 22 (dw w 0)
def dX (w : List Nat) : Int := sext 16 (dw w 1)
def dY (w : List Nat) : Int := sext 16 (dw w 1 / 65536)
def dGesso (w : List Nat) : Bool := dKind w == 2
def dSurfW (w : List Nat) : Nat := bitsOf 12 0 (dw w 6)
def dSurfH (w : List Nat) : Nat := bitsOf 28 16 (dw w 6)
def dSurfA (w : List Nat) : Bool := bitOf 15 (dw w 6)
def dP40 (w : List Nat) : Bool := bitsOf 30 29 (dw w 6) == 0
def dBase (w : List Nat) : Nat := 4096 * bitsOf 27 0 (dw w 5)
def dStride (w : List Nat) : Nat := bitsOf 23 0 (dw w 7)
/-- Crop rectangle and displayed size of a descriptor over a source of srcW × srcH. -/
structure Geom where
  cx : Nat
  cy : Nat
  cw : Nat
  ch : Nat
  ow : Nat
  oh : Nat
def geom (w : List Nat) (srcW srcH : Nat) : Geom :=
  let cw := bitsOf 12 0 (dw w 4)
  let ch := bitsOf 28 16 (dw w 4)
  let ow := bitsOf 12 0 (dw w 2)
  let oh := bitsOf 28 16 (dw w 2)
  let rw := if cw = 0 then srcW else cw
  let rh := if ch = 0 then srcH else ch
  { cx := if cw = 0 then 0 else bitsOf 12 0 (dw w 3), cy := if ch = 0 then 0 else bitsOf 28 16 (dw w 3), cw := rw, ch := rh
    ow := if ow = 0 then rw else ow, oh := if oh = 0 then rh else oh }

/-! ### The commit of a descriptor (R260, R261, R285) -/

/-- Reserved bits of the eight words. -/
def descReserved (w : List Nat) : Bool :=
  bitOf 6 (dw w 0) || bitOf 11 (dw w 0) || bitOf 15 (dw w 0)
    || bitsOf 15 13 (dw w 2) != 0 || bitsOf 31 29 (dw w 2) != 0 || bitsOf 15 13 (dw w 3) != 0 || bitsOf 31 29 (dw w 3) != 0
    || bitsOf 15 13 (dw w 4) != 0 || bitsOf 31 29 (dw w 4) != 0 || bitsOf 31 28 (dw w 5) != 0 || bitsOf 14 13 (dw w 6) != 0
    || bitsOf 31 24 (dw w 7) != 0
/-- End of a surface: the byte after its last. -/
def surfEnd (w : List Nat) : Nat :=
  if dGesso w then dBase w + 4096 * cdiv (cdiv (dSurfW w) 16 * cdiv (dSurfH w) 4) 8192 + cdiv (dSurfH w) 4 * dStride w
  else dBase w + (dSurfH w - 1) * dStride w + (if dP40 w then 5 else 4) * dSurfW w
/-- Least stride (Table 10.4). -/
def minStride (w : List Nat) : Nat :=
  if dGesso w then (if dSurfA w then 352 else 256) * cdiv (dSurfW w) 16
  else 32 * cdiv ((if dP40 w then 5 else 4) * dSurfW w) 32
/-- Does the surface of a descriptor break R261? -/
def surfBad (s : State) (w : List Nat) : Bool :=
  let g := geom w (dSurfW w) (dSurfH w)
  dSurfW w == 0 || dSurfH w == 0 || (!dGesso w && decide (2 ≤ bitsOf 30 29 (dw w 6)))
    || decide (dSurfW w < g.cx + g.cw) || decide (dSurfH w < g.cy + g.ch)
    || decide (dStride w < minStride w) || dStride w % 32 != 0 || decide (surfSize s.img < surfEnd w)
/-- Is a commit of these words for layer l refused? A displayed size is judged where it is known: from its own field, else
from the crop's, else from the surface's. -/
def descBad (s : State) (l : Nat) (w : List Nat) : Bool :=
  let surf := dKind w == 1 || dKind w == 2
  let known := surf || (bitsOf 12 0 (dw w 4) != 0 && bitsOf 28 16 (dw w 4) != 0)
  let g := geom w (dSurfW w) (dSurfH w)
  let side (out crop res : Nat) : Nat := if surf then res else if out = 0 then crop else out
  let ow := side (bitsOf 12 0 (dw w 2)) (bitsOf 12 0 (dw w 4)) g.ow
  let oh := side (bitsOf 28 16 (dw w 2)) (bitsOf 28 16 (dw w 4)) g.oh
  let il := dKind w == 0 && (let r := rasterOf (destFmt s.img (1792 + l)); r == 1 || r == 2 || r == 4)
  let phi := fget s (Reg.COMP_SCL_L_CTRL l) Fld.COMP_SCL_L_CTRL_FIELD
  let inH := if il then fieldCount phi g.cy g.ch else g.ch
  !layerUsed s.img l || dKind w == 3 || dTransfer w == 3 || descReserved w
    || decide (layerMaxW s.img l < ow) || decide (layerMaxH s.img l < oh)
    || (dAlpha w && (dKind w == 0 || (dKind w == 1 && !dP40 w) || (dKind w == 2 && !dSurfA w)))
    || (surf && surfBad s w)
    || (known && !(g.ow == g.cw && g.oh == g.ch && !il) && !sclRange g.cw inH g.ow g.oh)
/-- A write of 1 to COMP_L_COMMIT. -/
def layerCommit (m l : Nat) (s : State) : State :=
  let w := shadowWords s l
  if descBad s l w then refuse m 2 (0x12000000 + l) (Reg.COMP_L_COMMIT l) s
  else lStat l Fld.COMP_L_STAT_PEND true (setLayer l { layerSt s l with committed := w } s)

/-! ### Reading a layer's source (R262, R263, R272-R275) -/

/-- Bring a sample to the head's space. -/
def toSpace (rgb bt2020 fromRgb : Bool) (p : Px) : Px :=
  if rgb = fromRgb then p else if rgb then toRgb bt2020 p else toYcc bt2020 p
/-- Pixel of a raw surface. -/
def rawPx (byte : Nat → Nat) (w : List Nat) (x y : Nat) : Px :=
  let n := if dP40 w then 5 else 4
  let v := leNat ((List.range n).map (fun i => byte (dBase w + y * dStride w + n * x + i)))
  ⟨v % 1024, v / 2 ^ 10 % 1024, v / 2 ^ 20 % 1024, if dP40 w then v / 2 ^ 30 % 1024 else 1023⟩
/-- First byte of a pixel of a raw surface in the SURF region. -/
def rawAt (w : List Nat) (x y : Nat) : Nat := dBase w + y * dStride w + (if dP40 w then 5 else 4) * x
/-- Block columns of a Gesso surface; a block's number. -/
def gessoCols (w : List Nat) : Nat := cdiv (dSurfW w) 16
def gessoNum (w : List Nat) (b : Nat × Nat) : Nat := b.2 * gessoCols w + b.1
/-- A block of a Gesso surface, decoded; none where it fails. -/
def gessoAt (byte : Nat → Nat) (w : List Nat) (bx by_ : Nat) : Option (List (List Nat)) :=
  let p := gessoWhere byte (dBase w) (dSurfW w) (dSurfH w) (dStride w) bx by_
  gessoBlock (fun i => byte (p.1 + i)) p.2 (dSurfA w)
/-- A pixel of a Gesso surface from the planes of its block. -/
def gessoPx (w : List Nat) (x y : Nat) (pl : List (List Nat)) : Px :=
  let at_ (c : Nat) : Nat := (((pl[c]?).getD [])[16 * (y % 4) + x % 16]?).getD 0
  ⟨at_ 0, at_ 1, at_ 2, if dSurfA w then at_ 3 else 1023⟩
/-- Key of a layer's part of a tile. -/
def tileKey (t l : Nat) : Nat := 1024 * t + l
/-- Width and height of what a layer reads. -/
def srcSize (i : LayerIn) : Nat × Nat :=
  if dKind i.w = 0 then (match i.frame with | some f => (rasterW (rasterOf f.fmt), rasterH (rasterOf f.fmt)) | none => (0, 0))
  else (dSurfW i.w, dSurfH i.w)
def layerIl (i : LayerIn) : Bool :=
  dKind i.w == 0 && (match i.frame with | some f => let r := rasterOf f.fmt; r == 1 || r == 2 || r == 4 | none => false)
def layerGeom (i : LayerIn) : Geom := let z := srcSize i; geom i.w z.1 z.2
/-- Is the layer scaled: its sizes differ, or its input is interlaced (R278)? -/
def layerScaled (i : LayerIn) : Bool := let g := layerGeom i; layerIl i || g.ow != g.cw || g.oh != g.ch
/-- A layer's source sample at (x, y) in the head's space as a task of tile t reads it, none in a failed block and where
a word of a raw surface failed; outside the source, opaque black. A Gesso layer's blocks come from WORK_Q (R270). -/
def layerSrc (s : State) (h t : Nat) (i : LayerIn) (x y : Nat) : Option Px :=
  let z := srcSize i
  let v := headSt s h
  let rgb := headRgb s.img h
  let bt := headColorimetry s.img h == 1
  let surf : Px → Px := toSpace rgb bt (bitOf 31 (dw i.w 6))
  if z.1 ≤ x ∨ z.2 ≤ y then some (blackPx rgb)
  else if dKind i.w = 0 then i.frame.map (fun f => toSpace rgb bt (f.samp == 2) (framePx f x y))
  else if dKind i.w = 1 then
    let a := rawAt i.w x y
    if v.bad.contains (i.l, a / 32) || v.bad.contains (i.l, (a + (if dP40 i.w then 4 else 3)) / 32) then none
    else some (surf (rawPx (surfByte s) i.w x y))
  else ((cget [] v.work (tileKey t i.l)).find? (fun e => e.1 == gessoNum i.w (x / 16, y / 4))).map
    (fun e => surf (gessoPx i.w x y e.2))
/-- The scaler of a layer. -/
def layerScl (s : State) (h : Nat) (i : LayerIn) : Scl :=
  let g := layerGeom i
  { inW := g.cw, inH := if layerIl i then fieldCount i.field g.cy g.ch else g.ch, outW := g.ow, outH := g.oh
    lb := dLb i.w && i.row != 3, fld := if layerIl i then some (i.field, g.cy, g.ch) else none
    co := fun k => mapGet coefDefault s.comp.coef ((8 * h + dCoef i.w) * 1024 + k) }
/-- Place of output pixel (x, y) in the layer's rectangle, none outside it (R262). -/
def layerSpot (i : LayerIn) (x y : Nat) : Option (Nat × Nat) :=
  let g := layerGeom i
  let dx := (x : Int) - dX i.w
  let dy := (y : Int) - dY i.w
  if dx < 0 ∨ dy < 0 ∨ (g.ow : Int) ≤ dx ∨ (g.oh : Int) ≤ dy then none else some (dx.toNat, dy.toNat)
/-- What a SCALE task makes of a layer at output pixel (x, y) of tile t: none outside it, and where the nearest source
sample failed (R275; DEDUCED, log entry 138). -/
def scaledAt (s : State) (h t : Nat) (i : LayerIn) (x y : Nat) : Option Px :=
  (layerSpot i x y).bind (fun d =>
    let g := layerGeom i
    let src := layerSrc s h t i
    let c := layerScl s h i
    let line (m : Nat) : Nat := if layerIl i then 2 * ((g.cy + 1 - i.field) / 2 + m) + i.field else g.cy + m
    let px (u m : Nat) : Px := (src (g.cx + u) (line m)).getD (blackPx (headRgb s.img h))
    let n := tapAt ((sclPos g.cw g.ow d.1 + 32768) / 65536) g.cw
    let m := tapAt ((sclPos c.inH g.oh d.2 + 32768) / 65536) c.inH
    if (src (g.cx + n) (line m)).isNone then none else some (sclPx c d.1 d.2 px))
/-- The layer's sample at output pixel (x, y) of tile t as COMPOSE takes it, a scaled one from the ENG_POOL granules: none
where it does not cover it (R262, R270, R275, Table 11.2). -/
def layerAt (s : State) (h t : Nat) (i : LayerIn) (x y : Nat) : Option Px :=
  let v := headSt s h
  match layerSpot i x y with
  | none => none
  | some d =>
    if i.row = 1 then none
    else if i.row = 4 then some ⟨bitsOf 29 20 v.bg, bitsOf 19 10 v.bg, bitsOf 9 0 v.bg, 1023⟩
    else
      let g := layerGeom i
      let p := if layerScaled i then ((cget [] v.pool (tileKey t i.l))[y % 16]?).bind (fun row => (row[x % 256]?).join)
        else layerSrc s h t i (g.cx + d.1) (g.cy + d.2)
      p.map (fun p => if dAlpha i.w then p else { p with a := 1023 })

/-! ### Blending (R264-R268) -/

def lutKey (h t i : Nat) : Nat := (9 * h + t) * 16384 + i
/-- Reset contents of a LUT entry: PRE[x] = x << 6, POST[v] = v. -/
def lutDefault (k : Nat) : Nat :=
  let i := k % 16384
  if k / 16384 % 9 = 8 then (if i < 12288 then i % 4096 else 0) else if i < 3072 then i % 1024 * 64 else 0
def lutAt (s : State) (h t i : Nat) : Nat := mapGet lutDefault s.comp.lut (lutKey h t i)
def mix (f a b : Nat) : Nat := (f * a + b * (1023 - a) + 511) / 1023
/-- The alpha of a covering layer (R264). -/
def layerAlpha (i : LayerIn) (p : Px) : Nat := (p.a * dGAlpha i.w + 511) / 1023
/-- The coded path (R266). -/
def blendCoded (ls : List (LayerIn × Px)) (bg : Px) : Px :=
  ls.foldl (fun b x =>
    let a := layerAlpha x.1 x.2
    ⟨mix x.2.c0 a b.c0, mix x.2.c1 a b.c1, mix x.2.c2 a b.c2, a + (b.a * (1023 - a) + 511) / 1023⟩) bg
/-- The linear-light path (R267), dithered to 10 bits. -/
def blendLin (s : State) (h x y : Nat) (ls : List (LayerIn × Px)) (bg : Px) : Px :=
  let v := headSt s h
  let rgb := headRgb s.img h
  let bt := headColorimetry s.img h == 1
  let up (p : Px) : Px := if rgb then p else toRgb bt p
  let pre (t : Nat) (p : Px) : Px := ⟨lutAt s h t p.c0, lutAt s h t (1024 + p.c1), lutAt s h t (2048 + p.c2), p.a⟩
  let b := ls.foldl (fun b e =>
    let a := layerAlpha e.1 e.2
    let f := pre (dLut e.1.w) (up e.2)
    ⟨mix f.c0 a b.c0, mix f.c1 a b.c1, mix f.c2 a b.c2, a + (b.a * (1023 - a) + 511) / 1023⟩) (pre (bitsOf 6 4 v.ctrl) (up bg))
  let p := if bitOf 0 v.ctrl then v.k.getD 0 % 4 else 0
  let post (c b : Nat) : Nat := dither p 2 10 x y (lutAt s h 8 (4096 * c + b / 16) % 4096)
  let o : Px := ⟨post 0 b.c0, post 1 b.c1, post 2 b.c2, b.a⟩
  if rgb then o else toYcc bt o
/-- The background of the frame in hand. -/
def bgPx (v : HeadSt) : Px := ⟨bitsOf 29 20 v.bg, bitsOf 19 10 v.bg, bitsOf 9 0 v.bg, bitsOf 31 22 v.ctrl⟩
/-- One composed pixel of tile t. -/
def composePx (s : State) (h t x y : Nat) : Px :=
  let v := headSt s h
  let ls := v.layers.filterMap (fun i => (layerAt s h t i x y).map (fun p => (i, p)))
  if v.lin then blendLin s h x y ls (bgPx v) else blendCoded ls (bgPx v)

/-! ### Tiles (R270, R271) -/

def tileCols (g : Img) (h : Nat) : Nat := cdiv (headW g h) 256
def tileCount (g : Img) (h : Nat) : Nat := tileCols g h * cdiv (headH g h) 16
/-- Column and line of a tile's corner, its width and height. -/
def tileRect (g : Img) (h t : Nat) : Nat × Nat × Nat × Nat :=
  let x := t % tileCols g h * 256
  let y := t / tileCols g h * 16
  (x, y, min 256 (headW g h - x), min 16 (headH g h - y))
/-- Does the layer's rectangle meet the tile? A transparent layer covers nothing. -/
def covers (g : Img) (h t : Nat) (i : LayerIn) : Bool :=
  let r := tileRect g h t
  let m := layerGeom i
  i.row != 1 && decide (dX i.w < ((r.1 + r.2.2.1 : Nat) : Int)) && decide ((r.1 : Int) < dX i.w + m.ow)
    && decide (dY i.w < ((r.2.1 + r.2.2.2 : Nat) : Int)) && decide ((r.2.1 : Int) < dY i.w + m.oh)
/-- Tasks of a tile before its COMPOSE: GESSO_RD, then SCALE, by layer. -/
def tileTasks (g : Img) (h k t : Nat) (ls : List LayerIn) : List Task :=
  let mk (kernel l : Nat) (port : Bool) : Task := { head := true, obj := h, frame := k, unit := t, kernel, idx := l, portable := port }
  let on := ls.filter (covers g h t)
  (on.filter (fun i => dGesso i.w && i.row != 4)).map (fun i => mk 0x11 i.l true)
    ++ (on.filter (fun i => layerScaled i && i.row != 4)).map (fun i => mk 2 i.l false)
def composeTask (g : Img) (h k t : Nat) (ls : List LayerIn) : Task :=
  { head := true, obj := h, frame := k, unit := t, kernel := 0x10, idx := 0
    portable := !(ls.any (fun i => covers g h t i && layerScaled i && i.row != 4)) }
/-- Pixels of a tile. -/
def tilePixels {α : Type} (s : State) (h t : Nat) (px : Nat → Nat → α) : List (List α) :=
  let r := tileRect s.img h t
  (List.range r.2.2.2).map (fun j => (List.range r.2.2.1).map (fun i => px (r.1 + i) (r.2.1 + j)))
/-- The part of a layer's crop that a tile reads: first and last column, first and last line. -/
def tileSpan (s : State) (h t : Nat) (i : LayerIn) : (Nat × Nat) × (Nat × Nat) :=
  let r := tileRect s.img h t
  let m := layerGeom i
  let c := layerScl s h i
  let lo (a : Nat) (o : Int) : Nat := (max 0 ((a : Int) - o)).toNat
  let hi (a n : Nat) (o : Int) (w : Nat) : Nat := (min ((a + n : Nat) - o) (w : Int) - 1).toNat
  let x (v : Nat) (k : Int) : Nat := if m.cw = m.ow then v else tapAt (sclPos m.cw m.ow v / 65536 + k) m.cw
  let ys (v : Nat) : List Nat := if layerScaled i then sclTaps c v else [v]
  ((x (lo r.1 (dX i.w)) (-3), x (hi r.1 r.2.2.1 (dX i.w) m.ow) 4),
   ((ys (lo r.2.1 (dY i.w))).headD 0, (ys (hi r.2.1 r.2.2.2 (dY i.w) m.oh)).getLastD 0))
/-- Blocks of a Gesso layer that a tile needs. -/
def tileBlocks (s : State) (h t : Nat) (i : LayerIn) : List (Nat × Nat) :=
  let m := layerGeom i
  let p := tileSpan s h t i
  let bx (v : Nat) : Nat := (m.cx + min v (m.cw - 1)) / 16
  let by_ (v : Nat) : Nat := (m.cy + min v (m.ch - 1)) / 4
  (List.range (by_ p.2.2 + 1 - by_ p.2.1)).flatMap (fun b =>
    (List.range (bx p.1.2 + 1 - bx p.1.1)).map (fun a => (bx p.1.1 + a, by_ p.2.1 + b)))
/-- n blocks or words of layer l's surface have failed: counted, shown, raised (R275). -/
def surfFail (l n : Nat) (s : State) : State :=
  if n = 0 then s
  else (List.range n).foldl (fun s _ => raise Src.compSurfErr [l] s)
    (lStat l Fld.COMP_L_STAT_SURF_ERR true (countN s (Reg.COMP_L_SURF_ERR l) n))
/-- Bytes lo up to hi of the SURF region by wide word. -/
def wordsOf (lo hi : Nat) : List Nat := (List.range (hi / 32 + 1 - lo / 32)).map (fun i => lo / 32 + i)
/-- Wide words of the SURF region are read in order; `errs` errors stand in number k of them. Those that cannot be
corrected. -/
def surfRead (ws : List Nat) (errs k : Nat) (s : State) : List Nat × State :=
  (ws.zipIdx).foldl (fun r e =>
    if e.2 != k && r.2.test.inj.isNone then r
    else
      let c := hbmCheck (stripedWhere r.2.img 4 (32 * e.1)) (if e.2 = k then errs else 0) none r.2
      (if c.1 then r.1 ++ [e.1] else r.1, c.2)) ([], s)
/-- A GESSO_RD task has decoded its blocks into WORK_Q; the failed ones are left out and counted. It reads the words of the
size table that hold its blocks' entries, then those of the blocks; `errs` errors stand in number k (R272, R275). A frozen
WORK_Q takes no block (08 R219). -/
def gessoDone (h t l errs k : Nat) (s : State) : State :=
  match (headSt s h).layers.find? (fun i => i.l == l) with
  | none => s
  | some i =>
    let bs := tileBlocks s h t i
    let entry (b : Nat × Nat) : Nat := (dBase i.w + gessoNum i.w b / 2) / 32
    let words (b : Nat × Nat) : List Nat :=
      let p := gessoWhere (surfByte s) (dBase i.w) (dSurfW i.w) (dSurfH i.w) (dStride i.w) b.1 b.2
      wordsOf p.1 (p.1 + p.2 - 1)
    let c := surfRead ((bs.map entry).eraseDups ++ bs.flatMap words) errs k (touchBlock (headWorkQ s.img h) s)
    let fine := bs.filter (fun b => !(c.1.contains (entry b) || (words b).any (fun w => c.1.contains w)))
    let got := fine.filterMap (fun b => (gessoAt (surfByte s) i.w b.1 b.2).map (fun pl => (gessoNum i.w b, pl)))
    let v := headSt c.2 h
    let kept := if (getQ c.2 (headWorkQ s.img h)).frozen then [] else got
    surfFail l (bs.length - got.length) (setHead h { v with work := cset [] v.work (tileKey t l) kept } c.2)
/-- A layer's frame store delivers nothing: the frame is not complete, and the layer draws nothing more of it (08 R218,
R219, R222; DEDUCED, log entry 138). -/
def frameLost (h l : Nat) (s : State) : State :=
  let v := headSt s h
  setLayer l { layerSt s l with shown := none } (setHead h { v with layers := v.layers.filter (fun i => i.l != l) } s)
/-- A task of tile t reads layer i's source from HBM, `errs` errors in word number k: its frame store, of which it reads the
tile's share of bytes, or a raw surface, where the pixels of a poisoned word become transparent (R275). -/
def layerRead (h t errs k : Nat) (i : LayerIn) (s : State) : State :=
  let z := srcSize i
  let p := tileSpan s h t i
  if dKind i.w = 0 then
    let o := storeOp (1024 + i.l) s
    let px := (p.1.2 + 1 - p.1.1) * (p.2.2 + 1 - p.2.1)
    let c := hbmRead (storeWhere o.2 (1024 + i.l)) (storeBytes s.img (1024 + i.l) * px / max 1 (z.1 * z.2)) errs none (spend o.2)
    if !o.1 || c.1 then frameLost h i.l c.2 else c.2
  else if dKind i.w = 1 then
    let m := layerGeom i
    let rows := (List.range (p.2.2 + 1 - p.2.1)).flatMap (fun y =>
      wordsOf (rawAt i.w (m.cx + p.1.1) (m.cy + p.2.1 + y)) (rawAt i.w (m.cx + p.1.2 + 1) (m.cy + p.2.1 + y) - 1))
    let c := surfRead rows errs k s
    let v := headSt c.2 h
    surfFail i.l c.1.length (setHead h { v with bad := v.bad ++ c.1.map (fun w => (i.l, w)) } c.2)
  else touchBlock (headWorkQ s.img h) s
/-- A SCALE task leaves its samples in the ENG_POOL granules. -/
def scaleDone (h t l errs k : Nat) (s : State) : State :=
  match (headSt s h).layers.find? (fun i => i.l == l) with
  | none => s
  | some i =>
    let s := layerRead h t errs k i s
    let v := headSt s h
    setHead h { v with pool := cset [] v.pool (tileKey t l) (tilePixels s h t (scaledAt s h t i)) } s
/-- A COMPOSE task blends its tile into the head store: it reads the layers that no SCALE task has read for it. -/
def composeDone (h t errs k : Nat) (s : State) : State :=
  let on := (headSt s h).layers.filter (fun i => covers s.img h t i && !layerScaled i && i.row != 4)
  let s := (on.zipIdx).foldl (fun s e => layerRead h t (if e.2 = 0 then errs else 0) k e.1 s) s
  let v := headSt s h
  setHead h { v with
    tiles := cset [] v.tiles t (tilePixels s h t (composePx s h t))
    work := v.work.filter (fun e => e.1 / 1024 != t), pool := v.pool.filter (fun e => e.1 / 1024 != t) } s
/-- A task of a head completes (R270). -/
def headTaskDone (t : Task) (errs k : Nat) (s : State) : State :=
  let h := t.obj
  if (headSt s h).k ≠ some t.frame then s
  else if t.kernel = 0x10 then composeDone h t.unit errs k s
  else
    let s := if t.kernel = 0x11 then gessoDone h t.unit t.idx errs k s else scaleDone h t.unit t.idx errs k s
    let v := headSt s h
    let n := cget 0 v.left t.unit
    let s := setHead h { v with left := cset 0 v.left t.unit (n - 1) } s
    if n = 1 then issue (clusterQuad (headHome s.img h)) [composeTask s.img h t.frame t.unit v.layers] s else s
/-- TASK_COMPLETE: engine e ends its task after `cycles` engine cycles; `errs` errors stood in word number k of
HBM it read (R245; 08 R216, R218). -/
def taskComplete (e cycles errs k : Nat) (s : State) : State :=
  match runningOf s e with
  | none => s
  | some t =>
    let q := taskQuad s.img t
    let s := setInflight q (inflight s q - 1) (count (setRunning e none s) (Reg.ENG_E_TASKS e))
    let s := { s with eng := { s.eng with cycles := cset 0 s.eng.cycles q (cget 0 s.eng.cycles q + cycles) } }
    pushAll q (if t.head then headTaskDone t errs k s else slotTaskDone t (slotRead t errs s))

/-! ### The cut-off (R257-R260, R265, R289, R290) -/

/-- Layers of a head. -/
def headLayers (g : Img) (h : Nat) : List Nat := (List.range 1024).filter (fun l => layerHead g l == h)
/-- Select a layer's frame: RELEASE and MARK, or REWIND of the frame held (R258; 08 R223). -/
def layerSelect (l : Nat) (s : State) : State :=
  let o := storeOp (1024 + l) s
  let v := layerSt o.2 l
  let s := o.2
  match (if o.1 then v.closed else none) with
  | some f =>
    let s := storeTake (1024 + l) s
    lStat l Fld.COMP_L_STAT_LATE_LAST false (lStat l Fld.COMP_L_STAT_NOFRAME false
      (setLayer l { v with closed := none, shown := some f } s))
  | none =>
    let s := lStat l Fld.COMP_L_STAT_LATE_LAST true (lStat l Fld.COMP_L_STAT_NOFRAME v.shown.isNone s)
    raise Src.compLayerLate [l] (count s (Reg.COMP_L_LATE l))
/-- The line-buffer decision of a layer: the row of Table 11.2, 0 where the layer is not scaled. -/
def layerDecide (i : LayerIn) (prev : Nat) (s : State) : Nat × State :=
  let g := layerGeom i
  let l := i.l
  let il := layerIl i
  let inH := if il then fieldCount i.field g.cy g.ch else g.ch
  let pass := !il && g.ch == g.oh
  let held := granules s.img (0x00090000 + l) * 65536 / (5 * max 1 g.cw)
  let need := sclNeed pass (dLb i.w) inH g.oh
  let row := if !layerScaled i then 2 else sclRow (sclRange g.cw inH g.ow g.oh) (dLb i.w) need held
  let a := Reg.COMP_SCL_L_STAT l
  let s := fset (fset s a Fld.COMP_SCL_L_STAT_NEED (min 1023 need)) a Fld.COMP_SCL_L_STAT_HELD (min 1023 held)
  let s := fset (fset s a Fld.COMP_SCL_L_STAT_RANGE (b2n (row == 1))) a Fld.COMP_SCL_L_STAT_BLANK (b2n (row == 4))
  let s := fset (fset s a Fld.COMP_SCL_L_STAT_FALLBACK (b2n (row == 3))) a Fld.COMP_SCL_L_STAT_LB
    (b2n (row == 2 && dLb i.w))
  let s := if 3 ≤ row then count s (Reg.COMP_SCL_L_SHORT l) else s
  let s := if 3 ≤ row ∧ prev < 3 then raise Src.linebufShort [l, held, need, row] s else s
  (row, if row = 1 ∧ prev ≠ 1 then raise Src.scaleRange [l] s else s)
/-- Bring a layer to the cut-off: its descriptor, its frame, its decision; none where it draws nothing. -/
def layerCut (l : Nat) (s : State) : Option LayerIn × State :=
  let v := layerSt s l
  let v := if fbit s (Reg.COMP_L_STAT l) Fld.COMP_L_STAT_PEND then { v with force := v.committed } else v
  let s := lStat l Fld.COMP_L_STAT_PEND false (setLayer l v s)
  let w := inForce v
  let s := if dKind w = 0 then layerSelect l s else lStat l Fld.COMP_L_STAT_NOFRAME false s
  let fr := (layerSt s l).shown
  let field := fget s (Reg.COMP_SCL_L_CTRL l) Fld.COMP_SCL_L_CTRL_FIELD
  let i : LayerIn := { l, w, frame := if dKind w = 0 then fr else none, field, row := 0 }
  if dKind w = 0 ∧ fr.isNone then (none, lStat l Fld.COMP_L_STAT_SCALED false s)
  else
    let r := layerDecide i v.row s
    let s := setLayer l { layerSt r.2 l with row := r.1 } r.2
    let s := lStat l Fld.COMP_L_STAT_SCALED (dVis w && layerScaled i && (r.1 == 2 || r.1 == 3)) s
    (if dVis w then some { i with row := r.1 } else none, s)
/-- C_k of head h. -/
def compCutoff (h : Nat) (s : State) : State :=
  if !headUsed s.img h || !running s then s
  else
    let k := planeFc s (headPlane s.img h)
    let lo := lutKey h 0 0
    let s := { s with comp := { s.comp with
      lut := copyRange lo (lo + 9 * 16384) s.comp.lutCom s.comp.lut
      coef := copyRange (8 * h * 1024) (8 * (h + 1) * 1024) s.comp.coefCom s.comp.coef } }
    let ctrl := rgetN s (Reg.COMP_H_CTRL h)
    let s := setHead h { headSt s h with k := some k, ctrl, bg := rgetN s (Reg.COMP_H_BG h), tiles := [], left := [], work := [], pool := [],
                                              bad := [] } s
    let r := (headLayers s.img h).foldl (fun (acc : List LayerIn × State) l =>
      let x := layerCut l acc.2
      (match x.1 with | some i => acc.1 ++ [i] | none => acc.1, x.2)) ([], s)
    let ls := r.1.mergeSort (fun a b => decide (dZ a.w < dZ b.w) || (dZ a.w == dZ b.w && decide (a.l ≤ b.l)))
    let lin := bitOf 1 ctrl || (headLayers s.img h).any (fun l =>
      let w := inForce (layerSt r.2 l)
      dVis w && dTransfer w != headTransfer s.img h)
    let s := fset r.2 (Reg.COMP_H_STAT h) Fld.COMP_H_STAT_LIN_LAST (b2n lin)
    let s := rset64 s (Reg.COMP_H_CUT_FC_LO h) (Reg.COMP_H_CUT_FC_HI h) k
    let ts := (List.range (tileCount s.img h)).map (fun t => (t, tileTasks s.img h k t ls))
    let left := ts.foldl (fun m x => cset 0 m x.1 x.2.length) []
    let s := setHead h { headSt s h with lin, layers := ls, left } s
    issue (clusterQuad (headHome s.img h))
      (ts.flatMap (fun x => if x.2.isEmpty then [composeTask s.img h k x.1 ls] else x.2)) s
/-- D_k of head h (R271). -/
def compDeadline (h : Nat) (s : State) : State :=
  let v := headSt s h
  match v.k with
  | none => s
  | some k =>
    if !headUsed s.img h || !running s then s
    else
      let s := cancelTasks (clusterQuad (headHome s.img h)) (fun t => t.head && t.obj == h && t.frame == k) s
      let late := (List.range (tileCount s.img h)).filter (fun t => (cget [] v.tiles t).isEmpty)
      let old (t : Nat) : Option (List (List Px)) := v.shown.map (fun f => cget [] f.2 t)
      let tiles := (late.zipIdx).foldl (fun m x =>
        let bg := tilePixels s h x.1 (fun _ _ => bgPx v)
        cset [] m x.1 (if x.2 < 64 then (old x.1).getD bg else bg)) v.tiles
      let n := late.length
      let s := fset (countN s (Reg.COMP_H_TILE_LATE h) n) (Reg.COMP_H_STAT h) Fld.COMP_H_STAT_LATE_TILES (min 4095 n)
      let o := storeOp (2048 + h) s
      let s := setHead h { v with tiles := [], left := [], layers := [], work := [], pool := [], bad := []
                                  closed := if o.1 then some (k, tiles) else v.closed } o.2
      if n = 0 then s else raise Src.compTileLate [h] s

/-! ### Presentation (R257 steps 1, 6, 7; R269, R276) -/

def tilePx (g : Img) (h : Nat) (ts : List (Nat × List (List Px))) (x y : Nat) : Px :=
  let t := y / 16 * tileCols g h + x / 256
  ((((cget [] ts t)[y % 16]?).getD [])[x % 256]?).getD (blackPx (headRgb g h))
/-- Total lines and pixels of a head's format on a DisplayPort link. -/
def dpTotals (g : Img) (k fmt : Nat) : Nat × Nat :=
  let v := if rasterOf fmt = 7 ∨ rasterOf fmt = 8 then 2250 else rasterLines (rasterOf fmt)
  (dpPixel g k * 1000 * rateDen (rateOf fmt) / (1001 * rateNum (rateOf fmt) * v), v)
/-- Monitor link k carries a frame of head h: its MSA, with Nvid 32,768 and Mvid for the link's symbol clock, and its
lines, each component reduced to the link's depth with phase p (R141, R268, R276). MISC0 marks asynchronous clock,
R'G'B', CTA range and the depth; that layout is DisplayPort's (PRESUMED, log entry 139). -/
def headLink (k h p : Nat) (px : Nat → Nat → Px) (s : State) : State :=
  let fmt := headFmt s.img h
  let r := rasterOf fmt
  let b := fget s (Reg.VLANE_DP_STAT k) Fld.VLANE_DP_STAT_BPC
  let ls := if fget s (Reg.VLANE_DP_STAT k) Fld.VLANE_DP_STAT_RATE = 0x1E then 810000 else 540000
  let z := dpTotals s.img k fmt
  let s := emit s (.msa k (dpPixel s.img k * 32768 / (ls * 1001)) 32768 z.1 z.2 (rasterW r) (rasterH r) (8 + (b / 2 - 3) * 32))
  (List.range (rasterH r)).foldl (fun s y => emit s (.pixels k y ((List.range (rasterW r)).flatMap (fun x =>
    let q := px x y
    [dither p (10 - b) b x y q.c0, dither p (10 - b) b x y q.c1, dither p (10 - b) b x y q.c2])))) s
/-- At its plane's switch point a head's reader selects the frame that has closed, its lines stand at S1536+h, and the
head's monitor links carry it; before the first frame they carry black (R257). -/
def headSelect (h : Nat) (s : State) : State :=
  let g := s.img
  let r := rasterOf (headFmt g h)
  let o := storeOp (2048 + h) s
  let v := headSt o.2 h
  let s := match o.1, v.closed with
    | true, some f =>
      let row (y : Nat) : List Nat := rowWords (headSampling g h) (rasterW r) (fun x => tilePx g h f.2 x y)
      let ls := (List.range (rasterLines r)).foldl (fun m L =>
        cset [] m (L + 1) ((lineRows r (L + 1)).flatMap (fun k => row (k % 65536)))) []
      let s := storeTake (2048 + h) (setHead h { v with shown := some f, closed := none } o.2)
      { s with xp := { s.xp with made := cset [] s.xp.made (1536 + h) ls } }
    | _, _ => o.2
  let f := (headSt s h).shown.getD (0, [])
  (List.range 4).foldl (fun s k =>
    if dpPers s.img && dpHead g k == some h && dpState s k == 3 then
      headLink k h (if bitOf 0 v.ctrl then f.1 % 4 else 0) (tilePx g h f.2) s
    else s) s
/-- P_k: the layer stores of plane p close the frame their destinations have read; the heads' readers select. -/
def compSwitch (p : Nat) (s : State) : State :=
  let s := ((List.range 1024).filter (fun l => layerUsed s.img l && destPlane s.img (1792 + l) == p)).foldl (fun s l =>
    let d := 1792 + l
    let ls := cget [] s.xp.destLines d
    if ls.isEmpty then s
    else
      let o := storeOp (1024 + l) s
      let f : Frame := { fmt := carriedFmt s d, samp := destSamp s d, lines := ls, square := (destOf s d).square }
      let s := if o.1 then setLayer l { layerSt o.2 l with closed := some f } o.2 else o.2
      { s with xp := { s.xp with destLines := cset [] s.xp.destLines d [], destMode := cset [] s.xp.destMode d [] } }) s
  ((List.range 64).filter (fun h => headUsed s.img h && headPlane s.img h == p)).foldl (fun s h => headSelect h s) s

/-! ### LUTs and coefficients (R267, R259; 11 R294) -/

def lutTable (s : State) : Nat := fget s Reg.COMP_LUT_CTRL Fld.COMP_LUT_CTRL_TABLE
def lutCur (s : State) : Nat :=
  lutKey (fget s Reg.COMP_LUT_CTRL Fld.COMP_LUT_CTRL_HEAD) (lutTable s) (fget s Reg.COMP_LUT_CTRL Fld.COMP_LUT_CTRL_INDEX)
/-- Does the present INDEX name an entry of the present TABLE? -/
def lutNamed (s : State) : Bool :=
  decide (lutTable s < 9) && decide (fget s Reg.COMP_LUT_CTRL Fld.COMP_LUT_CTRL_INDEX < (if lutTable s = 8 then 12288 else 3072))
def lutWrite (w : Nat) (s : State) : State :=
  let v := if lutTable s = 8 then w % 4096 else w % 65536
  let s := if lutNamed s then { s with comp := { s.comp with lutSh := mapSet lutDefault s.comp.lutSh (lutCur s) v } } else s
  indexNext Reg.COMP_LUT_CTRL Fld.COMP_LUT_CTRL_INDEX s
def lutRead (s : State) : Nat × State :=
  (if lutNamed s then mapGet lutDefault s.comp.lutSh (lutCur s) else 0, indexNext Reg.COMP_LUT_CTRL Fld.COMP_LUT_CTRL_INDEX s)
def lutCtrlWrite (w : Word) (s : State) : State :=
  let s := plainWrite Reg.COMP_LUT_CTRL w s
  if bitOf 31 w.toNat && decide (lutTable s < 9) then
    let k := lutKey (fget s Reg.COMP_LUT_CTRL Fld.COMP_LUT_CTRL_HEAD) (lutTable s) 0
    { s with comp := { s.comp with lutCom := copyRange k (k + 16384) s.comp.lutSh s.comp.lutCom } }
  else s
def coefBank (s : State) : Nat := fget s Reg.COMP_SCL_CTRL Fld.COMP_SCL_CTRL_BANK
def coefKey (s : State) : Nat := (8 * coefBank s + fget s Reg.COMP_SCL_CTRL Fld.COMP_SCL_CTRL_SET) * 1024
def coefIdx (s : State) : Nat := fget s Reg.COMP_SCL_CTRL Fld.COMP_SCL_CTRL_INDEX
def coefWrite (w : Nat) (s : State) : State :=
  let s := if coefIdx s < 896 ∧ coefBank s ≤ 64 then
      { s with comp := { s.comp with coefSh := mapSet coefDefault s.comp.coefSh (coefKey s + coefIdx s) (w % 2048) } } else s
  indexNext Reg.COMP_SCL_CTRL Fld.COMP_SCL_CTRL_INDEX s
def coefRead (s : State) : Nat × State :=
  (if coefIdx s < 896 ∧ coefBank s ≤ 64 then mapGet coefDefault s.comp.coefSh (coefKey s + coefIdx s) else 0,
   indexNext Reg.COMP_SCL_CTRL Fld.COMP_SCL_CTRL_INDEX s)
def coefCtrlWrite (m : Nat) (w : Word) (s : State) : State :=
  let bank := bitsOf 30 24 w.toNat
  if bitOf 31 w.toNat && decide (bank < 64) && !headUsed s.img bank then refuse m 2 (ridReg Reg.COMP_SCL_CTRL) Reg.COMP_SCL_CTRL s
  else
    let s := plainWrite Reg.COMP_SCL_CTRL w s
    if bitOf 31 w.toNat && decide (bank ≤ 64) then
      { s with comp := { s.comp with coefCom := copyRange (coefKey s) (coefKey s + 1024) s.comp.coefSh s.comp.coefCom } }
    else s

/-! ### Register accesses -/

/-- What a COMP register belongs to that is not in use: reason 2 for a head or layer, 3 for a slot without SCALE. -/
def compAbsent (g : Img) (a : Nat) : Option (Nat × Nat) :=
  let layer (l : Nat) : Option (Nat × Nat) := if layerUsed g l then none else some (2, resId 0x12 l)
  if a < 0x01C01000 then (if headUsed g ((a - 0x01C00000) / 0x40) then none else some (2, ridReg a))
  else if 0x01C10000 ≤ a ∧ a < 0x01C20000 then layer ((a - 0x01C10000) / 0x40)
  else if 0x01C41000 ≤ a ∧ a < 0x01C45000 then layer ((a - 0x01C41000) / 0x10)
  else if 0x01C46000 ≤ a ∧ a < 0x01C47000 then
    (if slotScales g ((a - 0x01C46000) / 0x10) then none else some (3, resId 0x13 ((a - 0x01C46000) / 0x10)))
  else none
/-- A write to a COMP register at offset a. -/
def compWrite (m a : Nat) (w : Word) (s : State) : State :=
  match compAbsent s.img a with
  | some r => refuse m r.1 r.2 a s
  | none =>
    if a = Reg.COMP_LUT_CTRL then lutCtrlWrite w s
    else if a = Reg.COMP_LUT_DATA then lutWrite w.toNat s
    else if a = Reg.COMP_SCL_CTRL then coefCtrlWrite m w s
    else if a = Reg.COMP_SCL_DATA then coefWrite w.toNat s
    else if 0x01C10000 ≤ a ∧ a < 0x01C20000 ∧ a % 0x40 = 0x20 then
      (if bitOf 0 w.toNat then layerCommit m ((a - 0x01C10000) / 0x40) s else s)
    else if 0x01C10000 ≤ a ∧ a < 0x01C20000 ∧ a % 0x40 < 0x20 then rset s a w
    else plainWrite a w s

/-! ### Meanings -/

/-- TASK_COMPLETE: engine e completes its task, having used `cycles` (R245). -/
def execTaskComplete (e : Fin 1024) (cycles : Nat) (errs : Fin 3) (k : Nat) (s : State) : Out := .next (taskComplete e cycles errs k s)
/-- COMP_CUTOFF: C_k of head h (R257). -/
def execCompCutoff (h : Fin 64) (s : State) : Out :=
  .next (cycleEnd s (compCutoff h (cycleBegin s)))
/-- COMP_DEADLINE: D_k of head h (R271). -/
def execCompDeadline (h : Fin 64) (s : State) : Out := .next (compDeadline h s)
/-- LAYER_DESCRIPTOR_COMMIT (R260, R261). -/
def execLayerDescriptorCommit (m : Fin 9) (l : Fin 1024) (s : State) : Out :=
  .next (hostWrite m (Reg.COMP_L_COMMIT l) 1 (compWrite m (Reg.COMP_L_COMMIT l) 1) s)
/-- COMP_LUT_DATA_WRITE (R267). -/
def execCompLutDataWrite (m : Fin 9) (w : Word) (s : State) : Out :=
  .next (hostWrite m Reg.COMP_LUT_DATA w (compWrite m Reg.COMP_LUT_DATA w) s)
/-- COMP_LUT_DATA_READ (R267). -/
def execCompLutDataRead (m : Fin 9) (s : State) : Out := .next (hostRead m Reg.COMP_LUT_DATA lutRead s)
/-- COMP_LUT_COMMIT: a write of COMP_LUT_CTRL with COMMIT = 1 (R259). -/
def execCompLutCommit (m : Fin 9) (head : Fin 64) (table : Fin 16) (index : BitVec 14) (s : State) : Out :=
  let w := w32 (2 ^ 31 + head * 2 ^ 24 + table * 2 ^ 16 + index.toNat)
  .next (hostWrite m Reg.COMP_LUT_CTRL w (compWrite m Reg.COMP_LUT_CTRL w) s)
/-- SCALER_COEF_DATA_WRITE (11 R294). -/
def execScalerCoefDataWrite (m : Fin 9) (w : Word) (s : State) : Out :=
  .next (hostWrite m Reg.COMP_SCL_DATA w (compWrite m Reg.COMP_SCL_DATA w) s)
/-- SCALER_COEF_DATA_READ (11 R294). -/
def execScalerCoefDataRead (m : Fin 9) (s : State) : Out := .next (hostRead m Reg.COMP_SCL_DATA coefRead s)
/-- SCALER_COEF_COMMIT: a write of COMP_SCL_CTRL with COMMIT = 1 (11 R294). -/
def execScalerCoefCommit (m : Fin 9) (bank : BitVec 7) (set : Fin 8) (index : BitVec 10) (s : State) : Out :=
  let w := w32 (2 ^ 31 + bank.toNat * 2 ^ 24 + set * 2 ^ 16 + index.toNat)
  .next (hostWrite m Reg.COMP_SCL_CTRL w (compWrite m Reg.COMP_SCL_CTRL w) s)

end Sys2Proof.Machine
end

