-- ==== Sys2Proof/Machine/RefFamily.lean ====
section
/-! DEFINITION. Events of the reference inputs, measurement windows, the DPLL and its registers
(14_reference.md R345-R369). -/

namespace Sys2Proof.Machine

/-! ### Phases (R345) -/

/-- A phase in ps brought into -T_f/2 to T_f/2 of plane p, in ns. -/
def wrapPhase (g : Img) (p : Nat) (ps : Int) : Int :=
  let t : Int := framePs (planeFmt g p)
  let r := ps % t
  rne (if t < 2 * r then r - t else r) 1000
/-- (L_s - 1) T_line in ps. -/
def switchLinePs (g : Img) (p : Nat) : Nat := (planeSwitchLine g p - 1) * linePs (planeFmt g p)
def setEntPhase (p e : Nat) (ps : Int) (s : State) : State :=
  rsetN s (Reg.PLANE_ENT_PHASE p e) (ofInt 32 (wrapPhase s.img p ps))
/-- The entries of plane p of a kind and, for an SDI input, of a lane. -/
def entsOf (g : Img) (p k i : Nat) : List Nat :=
  (List.range 16).filter (fun e => planeUsed g p && entKind g p e == k && (k != 7 || entIndex g p e == i))
/-- The phase error against an SDI input: a lies `d` ns after the reference instant. -/
def sdiPhase (x p : Nat) (d : Int) (s : State) : State :=
  (entsOf s.img p 7 x).foldl (fun s e => setEntPhase p e ((-d - entOffset s.img p e) * 1000) s) s
/-- The phase error against a timekeeper at a switch point: its time then, from the last whole multiple of T_f. -/
def tkPhase (k p : Nat) (s : State) : State :=
  let f := planeFmt s.img p
  let num := rateNum (rateOf f)
  let r := tkNs s k * num % (rateDen (rateOf f) * 1000000000) * 1000 / num
  (entsOf s.img p (5 + k) 0).foldl (fun s e =>
    setEntPhase p e ((r : Int) - (switchLinePs s.img p : Nat) - entOffset s.img p e * 1000) s) s

/-! ### Reference inputs (R346, R347, R350) -/

/-- Does an interval in ps lie on the grid of plane p, within 1 us? -/
def onGrid (g : Img) (p since : Nat) : Bool :=
  let t := framePs (planeFmt g p)
  let k := (2 * since + t) / (2 * t)
  decide (1 ≤ k) && decide (((since : Int) - (k * t : Nat)).natAbs ≤ 1000000)
/-- A pulse of input x, `since` ps after the last; the plane's switch point lies `ph` ns after it. -/
def fpPulse (x p since : Nat) (ph : Int) (s : State) : State :=
  if !planeUsed s.img p then s
  else
    let v := refPl s p
    let fp := v.fp.filter (· != x)
    let v' := if !v.seen.contains x then { v with seen := x :: v.seen }
      else { v with fp := if onGrid s.img p since then x :: fp else fp }
    (entsOf s.img p (x + 1) 0).foldl (fun s e =>
      setEntPhase p e ((ph - entOffset s.img p e) * 1000 - (switchLinePs s.img p : Nat)) s) (setRefPl p v' s)
/-- A filtered pulse of REFFP_x. -/
def refPulse (x since : Nat) (ph0 ph1 : Int) (s : State) : State :=
  let s := setFiltered x (!bitOf 1 (inFlags s.img x)) s
  if !running s || inFreq s.img x == 0 || !bitOf 0 (inFlags s.img x) then s
  else refFollow (fpPulse x 1 since ph1 (fpPulse x 0 since ph0 s))
/-- The activity window of input x expires: of its clock, or of its pulse in plane p. -/
def refExpire (x : Nat) (fp : Bool) (p : Nat) (s : State) : State :=
  if !running s then s
  else
    let v := refPl s p
    let s := (if fp then monDraw p s else monDraw 1 (monDraw 0 s).2).2
    refFollow (if fp then setRefPl p { v with fp := v.fp.filter (· != x), seen := v.seen.filter (· != x) } s
      else { s with ref := { s.ref with clk := s.ref.clk.filter (· != x) } })
/-- An edge of REFCLK_x. -/
def refEdge (x : Nat) (s : State) : State :=
  if !running s || inFreq s.img x == 0 || s.ref.clk.contains x then s
  else refFollow { s with ref := { s.ref with clk := x :: s.ref.clk } }

/-! ### The measurement window (R351, R354) -/

/-- The window in hand of plane p. -/
def refWin (s : State) (p : Nat) : RefWin := if p = 0 then s.ref.win0 else s.ref.win1
def setRefWin (p : Nat) (w : RefWin) (s : State) : State :=
  if p = 0 then { s with ref := { s.ref with win0 := w } } else { s with ref := { s.ref with win1 := w } }
/-- The offset of timekeeper k over the window w that ends now: its elapsed nanoseconds over those of XO_HOLD, `xo` ppb
off the time clock, less 1, in 10^-12. The measurement lies within 2 ppb of it (R351). -/
def tkOffset (s : State) (w : RefWin) (k : Nat) (xo y : Int) : Int :=
  let d := sext 96 (ofInt 96 ((tkRaw s k : Int) - ((if k = 0 then w.tkA else w.tkB) : Nat)))
  let c := rne (d * 1000000000000) (2 ^ 32 * (1000000000 + xo).toNat) - 1000000000000
  clampI (c - 2000) (c + 2000) y
/-- The offsets of plane p's candidates by entry. -/
def entOffsets (s : State) (p : Nat) (xo : Int) (ys : List Int) : List Int :=
  (List.range 16).map (fun e =>
    let y := (ys[e]?).getD 0
    let k := entKind s.img p e
    if k = 5 ∨ k = 6 then tkOffset s (refWin s p) (k - 5) xo y else y)
/-- A window measures XO_HOLD `xo` ppb off XO_SYS (R354). -/
def xoWindow (xo : Int) (s : State) : State :=
  if 50000 < xo.natAbs then setXoFail true { s with ref := { s.ref with xoGood := 0 } }
  else if s.ref.xoFail then
    (if s.ref.xoGood = 0 then { s with ref := { s.ref with xoGood := 1 } } else setXoFail false s)
  else s
/-- The windows of planes `ps`, with their DPLLs' frequencies and their candidates' offsets by entry, end at tick e; `judge`:
XO_HOLD is judged. -/
def windowsAt (ps : List (Nat × Int × List Int)) (e : Nat) (xo : Int) (judge : Bool) (s : State) : State :=
  let s := advanceTicks (e - nowTicks s) s
  let zs := ps.map (fun x => (x.1, x.2.1, entOffsets s x.1 xo x.2.2))
  let t := ps.foldl (fun s x => setRefWin x.1 ⟨e, s.time.tkA, s.time.tkB⟩ s) s
  let s := if judge then xoWindow xo (cycleBegin t) else cycleBegin t
  let s := zs.foldl (fun s x => planeWindow x.1 x.2.1 x.2.2 s) s
  cycleEnd t (refRefresh (refDecide 1 (refDecide 0 s)))
/-- The windows end: XO_HOLD against XO_SYS in ppb, the DPLLs' frequencies, the candidates' offsets by entry, a
timekeeper's being measured here. They end together but under TEST_PERT_MON, which moves the end of one plane's (20
R496). -/
def windowEnd (xo f0 f1 : Int) (y0 y1 : List Int) (s : State) : State :=
  if !running s then s
  else
    let d0 := monDraw 0 s
    let d1 := monDraw 1 d0.2
    let e0 := ((s.ref.win0.start + 800000000 : Nat) + d0.1).toNat
    let e1 := ((s.ref.win1.start + 800000000 : Nat) + d1.1).toNat
    let s := d1.2
    if e0 = e1 then windowsAt [(0, f0, y0), (1, f1, y1)] e0 xo true s
    else if e0 < e1 then windowsAt [(1, f1, y1)] e1 xo false (windowsAt [(0, f0, y0)] e0 xo true s)
    else windowsAt [(0, f0, y0)] e0 xo false (windowsAt [(1, f1, y1)] e1 xo true s)

/-! ### The DPLL (R361, R362, R366) -/

/-- LOCKED: the residual is 0. -/
def planeLocked (p : Nat) (s : State) : State :=
  setPlaneState p 3 (setResid p 0 (setRefPl p { refPl s p with jump := false } s))
/-- The phase error has stayed within 100 ns for 1 s. -/
def lockTimer (p : Nat) (s : State) : State :=
  if planeUsed s.img p && running s && planeState s p == 2 && !(refPl s p).jump && residNow s p == 0 then
    refDecide p (planeLocked p s) else s
/-- Ticks until the residual of plane p is 0. -/
def residTicks (s : State) (p : Nat) : Nat :=
  let v := refPl s p
  v.residAt + cdiv (v.resid.natAbs * 800000000) (max 1 (refSlewPpb s.img p)) - nowTicks s
/-- The residual reaches 0: a switch is complete; an acquisition waits for its lock timer. -/
def residZero (p : Nat) (s : State) : State :=
  if !planeUsed s.img p || !running s then s
  else if planeState s p = 4 then refDecide p (planeLocked p (advanceTicks (residTicks s p) s))
  else if planeState s p = 2 ∧ !(refPl s p).jump then setResid p 0 (advanceTicks (residTicks s p) s)
  else s
/-- Has the holdover of plane p lasted HOLD_MAX_S (R366)? -/
def holdPast (s : State) (p : Nat) : Bool :=
  planeState s p == 5 && refHoldMax s.img p != 0
    && decide ((refPl s p).holdAt + 800000000 * refHoldMax s.img p ≤ nowTicks s)
/-- Past HOLD_MAX_S an XO_HOLD entry that is not locked out lets the plane run free (R366). -/
def freeRun (p : Nat) (s : State) : State :=
  if (List.range 16).any (fun e => entKind s.img p e == 8 && !lockedOut s p e) then
    raise Src.refFree [p] (setPlaneState p 1 s)
  else s
/-- The holdover has lasted HOLD_MAX_S. -/
def holdLimit (p : Nat) (s : State) : State :=
  if !planeUsed s.img p || !running s || planeState s p != 5 || refHoldMax s.img p == 0 then s
  else
    freeRun p (refRefresh (advanceTicks ((refPl s p).holdAt + 800000000 * refHoldMax s.img p - nowTicks s) s))

/-! ### Register writes -/

/-- A write of PLANE_LOCKOUT: the selector decides (R356); a freed XO_HOLD entry may end a holdover past its limit (R366). -/
def lockoutWrite (p : Nat) (w : Word) (s : State) : State :=
  let s := refDecide p (plainWrite (Reg.PLANE_LOCKOUT p) w s)
  if holdPast s p then freeRun p (refRefresh s) else s
/-- A write to a PLANE register at offset a. -/
def planeWrite (m a : Nat) (w : Word) (s : State) : State :=
  let o := a - Base.planeBase
  let p := o / 0x1000
  if o < 0x2000 && !planeUsed s.img p then refuse m 2 (ridReg a) a s
  else if a = Reg.PLANE_LOCKOUT p then lockoutWrite p w s
  else if a = Reg.PLANE_EVENT p then
    let s := plainWrite a w s
    refreshAlm (if (refPl s p).dis then fset s a Fld.PLANE_EVENT_DISAGREE 1 else s)
  else plainWrite a w s

/-! ### Meanings -/

/-- SOURCE_SWITCH_LINE_ARRIVAL: d0 and d1 are a - P_L in ns against each plane (04 R85; 14 R345). A packet source has no
arrival but its read point, which FLOW_LINE_READ judges (07 R179). -/
def execSourceSwitchLineArrival (x : Fin 2048) (d0 d1 : Int) (s : State) : Out :=
  .next (if 512 ≤ x.val ∧ x.val < 1536 then s else sdiPhase x 1 d1 (sdiPhase x 0 d0 (switchArrival x d0 d1 s)))
/-- REF_FRAME_PULSE: `since` ps after the last pulse of REFFP_x; ph0 and ph1 are P less the pulse in ns (R347). -/
def execRefFramePulse (x : Fin 4) (since : Nat) (ph0 ph1 : Int) (s : State) : Out := .next (refPulse x since ph0 ph1 s)
/-- REF_ACTIVITY_EXPIRE: of the clock of input x, or of its pulse in plane p (R350). -/
def execRefActivityExpire (x : Fin 4) (fp : Bool) (p : Fin 2) (s : State) : Out := .next (refExpire x fp p s)
/-- REFCLK_EDGE_RETURN (R350). -/
def execRefclkEdgeReturn (x : Fin 4) (s : State) : Out := .next (refEdge x s)
/-- REF_MEASURE_WINDOW_END (R351-R354, R357). -/
def execRefMeasureWindowEnd (xo f0 f1 : Int) (y0 y1 : List Int) (s : State) : Out := .next (windowEnd xo f0 f1 y0 y1 s)
/-- XO_HOLD_ACTIVITY_EXPIRE (R354). -/
def execXoHoldActivityExpire (s : State) : Out := .next (if running s then setXoFail true s else s)
/-- PLANE_LOCKOUT_WRITE (R356). -/
def execPlaneLockoutWrite (m : Fin 9) (p : Fin 2) (bits : BitVec 16) (s : State) : Out :=
  let a := Reg.PLANE_LOCKOUT p
  .next (hostWrite m a (w32 bits.toNat) (planeWrite m a (w32 bits.toNat)) s)
/-- PLANE_BW_WRITE (R360). -/
def execPlaneBwWrite (m : Fin 9) (p : Fin 2) (bw : Fin 8) (s : State) : Out :=
  let a := Reg.PLANE_CTRL p
  .next (hostWrite m a (w32 bw) (planeWrite m a (w32 bw)) s)
/-- PLANE_LOCK_TIMER (R361). -/
def execPlaneLockTimer (p : Fin 2) (s : State) : Out := .next (lockTimer p s)
/-- SWITCH_RESIDUAL_ZERO (R362). -/
def execSwitchResidualZero (p : Fin 2) (s : State) : Out := .next (residZero p s)
/-- HOLDOVER_LIMIT_EXPIRE (R366). -/
def execHoldoverLimitExpire (p : Fin 2) (s : State) : Out := .next (holdLimit p s)

end Sys2Proof.Machine
end

