-- ==== Sys2Proof/Machine/PairFamily.lean ====
section
/-! DEFINITION. Roles, the mirror link, markers, the state copy, forwarding, mirrored writes, frame signatures, beat and
margin scan (16_redundant_pair.md R390-R411). -/

namespace Sys2Proof.Machine

/-- The effect a block gives a write to one of its registers: the blocks of Table 16.5. -/
def mirroredEffect (m a : Nat) (w : Word) (s : State) : State :=
  match blockOf a with
  | .xp => xpWrite m a w s
  | .vlane => vlaneWrite m a w s
  | .flow => flowWrite m a w s
  | .comp => compWrite m a w s
  | .eng => engWrite m a w s
  | .aud => audWrite m a w s
  | .sap => sapWrite m a w s
  | .plane => planeWrite m a w s
  | _ => s

/-! ### Status -/

def pairStat (f : FieldRow) (n : Nat) (s : State) : State := fset s Reg.PAIR_STAT f n
def isActive (s : State) : Bool := mode s == .active
def isStandby (s : State) : Bool := mode s == .standby
/-- SOLO: ACTIVE without a SYNCED link (R403). -/
def refreshSolo (s : State) : State :=
  pairStat Fld.PAIR_STAT_SOLO (b2n (isActive s && pairInUse s && linkState s != 5)) s
/-- The planes in use whose signatures still have to match (R395): 16 compared frames each. -/
def cleanStart (s : State) : List (Nat × Nat) :=
  if fbit s Reg.PAIR_CTRL Fld.PAIR_CTRL_SIG_EN then (planesUsed s.img).map (fun p => (p, 16)) else []
/-- The conditions of R400 and R411 hold no longer. -/
def pairConds (s : State) : State :=
  let s := pairStat Fld.PAIR_STAT_DUAL 0 (pairStat Fld.PAIR_STAT_NO_ACTIVE 0 s)
  condEnd Src.pairImageMismatch (condEnd Src.pairNoActive (condEnd Src.pairDualActive s))
/-- The link enters a state (R399). A disagreement of the images is a condition in IDENT only, one of the roles from IDENT on
(R411; 17 Table 17.3). -/
def setLink (st : Nat) (s : State) : State :=
  let was := linkState s
  if was = st then refreshSolo s
  else
    let s := pairStat Fld.PAIR_STAT_LINK st s
    let v := s.pair
    let s := { s with pair := { v with
      copyF := if st = 4 ∧ isActive s then some ((planeFc s 0 + 2) % 2 ^ 48) else none
      copyIn := none, copyP0 := false, copySent := if st = 5 then v.copySent else false
      sigs := [], peerSigs := [], sigRun := []
      sigClean := if st = 5 then cleanStart s else v.sigClean
      execLog := if st ≤ 3 then [] else v.execLog, doneAt := if st ≤ 3 then [] else v.doneAt
      ofsHeld := if st ≤ 1 then [] else v.ofsHeld
      unacked := if st ≤ 1 then [] else v.unacked
      rttSum := if st ≤ 1 then 0 else v.rttSum, rttN := if st ≤ 1 then 0 else v.rttN
      peerMode := if st ≤ 1 then 0 else v.peerMode, peerLink := if st ≤ 1 then 0 else v.peerLink } }
    let s := if st ≤ 1 then pairStat Fld.PAIR_STAT_PEER_ROLE 0 s else s
    let s := if st < 3 then pairConds s else if st = 3 then s else condEnd Src.pairImageMismatch s
    let s := if was = 5 ∧ st = 1 then
        raise (if isStandby s then Src.pairMirrorLossS else Src.pairMirrorLossA) [0] (count s Reg.PAIR_LINK_DOWN)
      else s
    refreshHealth (refreshSolo s)
/-- MACs stalled in s and no longer in t transmit again. -/
def stallsEnd (s t : State) : State :=
  s.test.stalled.foldl (fun t m => if m ∈ t.test.stalled then t else txStart m t) t
/-- What `leaveTest` does, in service: the MACs whose stall it ends transmit again (20 R491, R496). -/
def leaveTestRun (s : State) : State :=
  stallsEnd s (leaveTest s)
/-- The pair comes into use or goes out of it (R390); out of it in STANDBY, the perturbation controls return to their reset
values too (20 R491). -/
def pairEnabled (on : Bool) (s : State) : State :=
  let s := fset s Reg.PAIR_CTRL Fld.PAIR_CTRL_EN (b2n on)
  let s := if !on && isStandby s then stallsEnd s (clearPert s) else s
  let s := leaveTestRun s
  let s := if on then
      { s with xp := { s.xp with journalTo := takePi s }, aud := { s.aud with journalTo := audPi s } }
    else pairConds { s with pair := { s.pair with lanes := 0 } }
  refreshHealth (setLink (if on && inRole s then 1 else 0) s)
/-- A write to a PAIR register at offset a. -/
def pairWrite (a : Nat) (w : Word) (s : State) : State :=
  if a = Reg.PAIR_CTRL then
    let was := pairInUse s
    let sig := fbit s Reg.PAIR_CTRL Fld.PAIR_CTRL_SIG_EN
    let s := plainWrite a w s
    let s := if fbit s Reg.PAIR_CTRL Fld.PAIR_CTRL_SIG_EN = sig then s
      else refreshHealth { s with pair := { s.pair with sigClean := if linkState s = 5 then cleanStart s else [] } }
    if pairInUse s = was then s else pairEnabled (pairInUse s) s
  else if a = Reg.PAIR_SKEW_LIM then refreshHealth (rsetN s a (max 50 (min 5000 (w.toNat % 65536))))
  else plainWrite a w s

/-! ### Roles (R392, R406) -/

/-- The mode moves between STANDBY and ACTIVE. -/
def roleChange (active : Bool) (s : State) : State :=
  let was := isActive s
  let s := setMode s (if active then .active else .standby)
  let s := count s Reg.PAIR_ROLE_CHANGES
  let s := if active then lifeAdd s 4 1 else s
  let s := if was && pairInUse s then audRefuseUnforwarded (refuseUnforwarded s) else s
  let s := leaveTestRun s
  let s := if pairInUse s && decide (3 ≤ linkState s) then setLink 3 s else refreshSolo s
  let s := if pairInUse s then pairConds s else s
  logEvent 0x0A [modeCode (mode s)] (refreshPins s)
/-- A filtered change of ARB_ROLE. -/
def arbRole (high : Bool) (s : State) : State :=
  let s := pairStat Fld.PAIR_STAT_ROLE_PIN (b2n high) (setFiltered 9 high s)
  if isStandby s && high then roleChange true s else if isActive s && !high then roleChange false s else s

/-! ### Beat and window (R394, R396) -/

/-- The end of a beat interval; `ok` says that every report and check of R394 came in time. -/
def beat (ok : Bool) (s : State) : State :=
  if !inRole s || fbit s Reg.PAIR_STAT Fld.PAIR_STAT_BEAT_HOLD then s
  else if ok then
    let up := s.core.arbBeat != .high
    emit { s with core := { s.core with arbBeat := if up then .high else .low } } (.pin "ARB_BEAT" (b2n up))
  else refreshHealth (condBegin Src.pairBeatHold [0] (pairStat Fld.PAIR_STAT_BEAT_HOLD 1 s))
/-- SWITCH_WIN rises or falls. -/
def switchWin (up : Bool) (s : State) : State :=
  if inRole s && planeUsed s.img (fget s Reg.PAIR_CTRL Fld.PAIR_CTRL_WIN_PLANE) then
    emit { s with core := { s.core with switchWin := if up then .high else .low } } (.pin "SWITCH_WIN" (b2n up))
  else s

/-! ### Messages (R398, R399, R411) -/

/-- The link carries messages. -/
def linkUp (s : State) : Bool := pairInUse s && inRole s && decide (3 ≤ linkState s)
/-- A message arrives: under an armed injection its CRC fails and it is discarded (20 Table 20.2); else it is acknowledged
(R398), and the peer's acknowledgement of every message before number `ack` comes with it. -/
def mirrorRecv (ack : Nat) (eff : State → State) (s : State) : State :=
  if !linkUp s then s
  else
    let r := checkFails 7 0 false s
    if r.1 then r.2
    else
      let s := emit r.2 (.mirrorAck r.2.pair.rxSeq)
      eff { s with pair := { s.pair with rxSeq := (s.pair.rxSeq + 1) % 2 ^ 32
                                         unacked := s.pair.unacked.filter (fun t => decide (ack ≤ t.seq)) } }
/-- A Health message leaves. -/
def healthSend (s : State) : State :=
  if !linkUp s then s
  else mirrorSend mkHealth ([modeCode (mode s), fget s Reg.PAIR_STAT Fld.PAIR_STAT_ROLE_PIN, healthCode s, linkState s]
    ++ (List.range 12).map (fun i => rgetN s (Reg.IMG_ACT_DIGEST i))
    ++ [rgetN s Reg.IMG_ACT_ARB, fget s Reg.PAIR_CTRL Fld.PAIR_CTRL_ALLOW_XIMG]) s
/-- A Health message: the peer's mode, link state, image digest and ARB_INDEX. The identities are a standby's to judge, by
its own ALLOW_XIMG (R400). -/
def healthMsg (peer link : Nat) (digest : List Word) (arb : Word) (s : State) : State :=
  let same := digest == (List.range 12).map (fun i => rget s (Reg.IMG_ACT_DIGEST i)) && arb == rget s Reg.IMG_ACT_ARB
  let s := { s with pair := { s.pair with peerMode := peer, peerLink := link } }
  let s := pairStat Fld.PAIR_STAT_PEER_ROLE (if peer = 3 then 1 else if peer = 4 then 2 else 0) s
  let s := pairStat Fld.PAIR_STAT_XIMG (b2n (!same)) s
  let agree := same || fbit s Reg.PAIR_CTRL Fld.PAIR_CTRL_ALLOW_XIMG
  let dual := isActive s && peer == 4
  let s := condSet Src.pairDualActive dual [0] (pairStat Fld.PAIR_STAT_DUAL (b2n dual) s)
  let s := if peer = 4 then condEnd Src.pairNoActive (pairStat Fld.PAIR_STAT_NO_ACTIVE 0 s) else s
  let st := linkState s
  if isStandby s then
    let held := (planesUsed s.img).all (fun p => s.pair.ofsHeld.contains p)
    let s := if peer ≠ 4 then setLink 3 s else if st = 3 ∧ agree ∧ held then setLink 4 s else s
    condSet Src.pairImageMismatch (!agree && linkState s == 3) [0] s
  else if st = 3 then (if peer = 3 ∧ link = 4 then setLink 4 s else s)
  else if peer ≠ 3 ∨ link = 3 then setLink 3 s
  else if st = 4 then (if link = 5 then setLink 5 s else s)
  else if link = 5 ∨ link = 1 then s else setLink 3 s

/-! ### Markers (R401) -/

def fcOfs (s : State) (p : Nat) : Nat := rget64 s (Reg.PAIR_FC_OFS (2 * p)) (Reg.PAIR_FC_OFS (2 * p + 1))
/-- An active device's frame number, or sample, in this device's counters. -/
def ownFrame (s : State) (p f : Nat) : Nat := (f + 2 ^ 48 - fcOfs s p % 2 ^ 48) % 2 ^ 48
def ownSample (s : State) (n : Nat) : Nat :=
  (n + 2 ^ 64 - rget64 s (Reg.PAIR_SC_OFS 0) (Reg.PAIR_SC_OFS 1) % 2 ^ 64) % 2 ^ 64
/-- L_m, half the mean round trip of the markers. -/
def measureRtt (rtt : Nat) (s : State) : State :=
  let v := { s.pair with rttSum := s.pair.rttSum + rtt, rttN := s.pair.rttN + 1 }
  rsetN { s with pair := v } Reg.PAIR_MIRROR_LAT (min 65535 (v.rttSum / v.rttN / 2))
def mirrorLat (s : State) : Nat := rgetN s Reg.PAIR_MIRROR_LAT % 65536
/-- Does R369 align the sample edge at a frame of the plane-0 format? -/
def scAligned (fmt fc : Nat) : Bool := (rateOf fmt != 4 && rateOf fmt != 9) || fc % 5 == 0
/-- Samples from the switch point of plane-0 frame fc to the next (14 R369). -/
def frameSamples (fmt fc : Nat) : Nat :=
  let r := rateOf fmt
  let seq (f tenths : Nat) : Nat := cdiv (f * tenths) 10
  if r = 4 then seq (fc % 5 + 1) 32032 - seq (fc % 5) 32032
  else if r = 9 then seq (fc % 5 + 1) 16016 - seq (fc % 5) 16016
  else 96000 * rateDen r / rateNum r
/-- A marker of plane p: the active device's PLANE_FC and AUD_SC; this device's switch point of the plane lies `d` ns
after the marker's arrival, none where it lies beyond T_f/2. One still to come has the frame number and the sample that it
will have. -/
def markerMsg (p fc sc : Nat) (d : Option Int) (rtt : Nat) (s : State) : State :=
  let s := measureRtt rtt s
  match d with
  | none => s
  | some d =>
    if !isStandby s || !planeUsed s.img p then s
    else
      let skew := d + (mirrorLat s : Nat)
      let own := if 0 < d then planeFc s p + 1 else planeFc s p
      let at_ := if 0 < d then s.pair.scAt + frameSamples (planeFmt s.img 0) (planeFc s 0) else s.pair.scAt
      let s := rsetN s (Reg.PAIR_SKEW p) (ofInt 32 (clampI (-(2 ^ 31)) (2 ^ 31 - 1) skew))
      let s := rset64 s (Reg.PAIR_FC_OFS (2 * p)) (Reg.PAIR_FC_OFS (2 * p + 1)) ((fc + 2 ^ 48 - own % 2 ^ 48) % 2 ^ 48)
      let s := { s with pair := { s.pair with ofsHeld := p :: s.pair.ofsHeld.filter (· != p) } }
      let s := if p = 0 ∧ scAligned (planeFmt s.img 0) fc then
          rset64 s (Reg.PAIR_SC_OFS 0) (Reg.PAIR_SC_OFS 1) ((sc + 2 ^ 64 - at_ % 2 ^ 64) % 2 ^ 64) else s
      let s := if decide (fget s Reg.PAIR_SKEW_LIM Fld.PAIR_SKEW_LIM_NS < skew.natAbs) then raise Src.pairPlaneSkew [p] s else s
      refreshHealth s
/-- The skew of timekeeper k against the active device's, which read t when the marker left; `lock`: it was LOCKED there. -/
def tkSkew (k t : Nat) (lock : Bool) (s : State) : State :=
  let skew := sext 64 (ofInt 64 ((tkNs s k : Int) - (t + mirrorLat s : Nat)))
  let s := rsetN s (Reg.PAIR_TK_SKEW k) (ofInt 32 (clampI (-(2 ^ 31)) (2 ^ 31 - 1) skew))
  if lock && tkLocked s k && decide (fget s Reg.PAIR_TK_SKEW_LIM Fld.PAIR_TK_SKEW_LIM_NS < skew.natAbs) then
    raise Src.pairTimeSkew [k] s else s
/-- The time marker: an active device sends its timekeepers' times; a standby receives them with their LOCKED states. -/
def timeMarker (ack a b : Nat) (lockA lockB : Bool) (s : State) : State :=
  if !linkUp s then s
  else if isActive s then mirrorSend mkMarker [2, lo32 (tkNs s 0), hi32 (tkNs s 0), lo32 (tkNs s 1), hi32 (tkNs s 1),
    b2n (tkLocked s 0), b2n (tkLocked s 1)] s
  else
    mirrorRecv ack (fun s => tkSkew 1 b lockB (tkSkew 0 a lockA s)) s

/-! ### The state copy (R402) -/

/-- The stored contents of the mirrored registers, by offset: leg contexts, queue-like data ports and write-only fields
apart. -/
def mirroredContents (s : State) : List (Nat × Nat) :=
  (s.regs.filter (fun e => mirroredReg e.1 && !(blockOf e.1 == .flow && decide (0x01100000 ≤ e.1))
    && !(decide (Reg.AUD_MIX_W 0 0 ≤ e.1) && decide (e.1 < Reg.AUD_MIX_W 2048 0)))).map (fun e => (e.1, e.2.toNat))
/-- The mix entries that differ from reset, by offset. -/
def mixContents (s : State) : List (Nat × Nat) :=
  (s.regs.filter (fun e => decide (Reg.AUD_MIX_W 0 0 ≤ e.1) && decide (e.1 < Reg.AUD_MIX_W 2048 0))).map (fun e => (e.1, e.2.toNat))
/-- Execution points of the salvos held, by first count and plane. -/
def heldDue (s : State) : List (Nat × Nat × Nat) :=
  s.xp.salvos.flatMap (fun v => v.parts.filterMap (fun t =>
    if t.executed then some (v.first, t.plane, 2 ^ 48) else t.due.map (fun f => (v.first, t.plane, f))))
/-- What the active device copies. -/
def makeCopy (f : Nat) (s : State) : StateCopy :=
  { f, routes := (List.range 2816).filterMap (fun d => if destNames s.img d && !curBlack s d then some (d, curSrc s d) else none)
    audio := (s.regs.filter (fun p => decide (bStat 0 ≤ p.1) && decide (p.1 < bStat 32768))).filterMap (fun p =>
      (audRoute s ((p.1 - bStat 0) / 4)).map (fun a => ((p.1 - bStat 0) / 4, a)))
    mix := mixContents s
    regs := mirroredContents s, legs := s.flow.legs
    layers := s.comp.layers.map (fun e => (e.1, e.2.committed)), force := s.comp.layers.map (fun e => (e.1, inForce e.2))
    masks := ((List.range 32).filter (sapUsed s.img)).flatMap (fun p =>
      [Reg.SAP_RX_MASK p, Reg.SAP_TX_MASK p].map (fun a => (a, rgetN s a)))
    tlut := s.eng.tlut, lut := s.comp.lutCom, coef := s.comp.coefCom
    seqs := s.flow.vtx.map (fun e => (1, e.1, e.2.seq)) ++ s.flow.atx.map (fun e => (3, e.1, e.2.seq))
      ++ s.flow.ntx.map (fun e => (5, e.1, e.2.seq))
    xpCi := takeCi s, xpPi := takePi s, xpDone := s.xp.validated
    audCi := audCi s, audPi := audPi s, audDone := s.aud.validated
    xpRecs := (List.range (4 * takeOcc s)).map (fun i =>
      let w := (4 * takeCi s + i) % 16384; (w, rgetN s (Reg.XP_TAKE_RING w)))
    audRecs := (List.range (4 * audOcc s)).map (fun i =>
      let w := (4 * audCi s + i) % 8192; (w, rgetN s (Reg.AUD_TAKE_RING w)))
    due := heldDue s, audDue := s.aud.salvos.filterMap (fun v => v.due.map (fun n => (v.first, n))) }
/-- The copy leaves when the batch of F has been recorded. -/
def copySend (s : State) : State :=
  match s.pair.copyF with
  | some f =>
    if linkState s = 4 && isActive s && planeFc s 0 == f && !s.pair.copySent then
      let c := makeCopy f s
      mirrorSend mkCopy ([lo32 f, hi32 f, c.xpCi, c.xpPi, c.audCi, c.audPi, c.routes.length, c.audio.length, c.mix.length,
        c.regs.length] ++ (c.routes ++ c.audio ++ c.mix ++ c.regs).flatMap (fun e => [e.1, e.2]))
        { s with pair := { s.pair with copySent := true } }
    else s
  | none => s
/-- Routes of plane p arrive as takes at its switch point. -/
def copyRoutes (p : Nat) (c : StateCopy) (s : State) : State :=
  (planeDests s.img p).foldl (fun s d =>
    let src := (c.routes.find? (fun e => e.1 == d)).map (·.2)
    let now := if curBlack s d then none else some (curSrc s d)
    if now = src then s else loadPend ⟨d, src⟩ s) s
/-- Everything of the copy but the routes of the crosspoint. -/
def copyState (c : StateCopy) (s : State) : State :=
  let bs := activeDests s ++ (c.audio.map (·.1)).filter (fun b => !(activeDests s).contains b)
  let s := bs.foldl (fun s b => audTake (audSc s) ⟨b, (c.audio.find? (fun e => e.1 == b)).map (·.2)⟩ s) s
  let mixOld := (mixContents s).map (·.1)
  let s := (mixOld.filter (fun a => !c.mix.any (fun e => e.1 == a))).foldl (fun s a => mixWrite 2 a 0 s) s
  let s := c.mix.foldl (fun s e => mixWrite 2 e.1 (w32 e.2) s) s
  let old := (mirroredContents s).map (·.1)
  let s := (old.filter (fun a => !c.regs.any (fun e => e.1 == a))).foldl (fun s a => mirroredEffect 2 a (regDefault a) s) s
  let s := c.regs.foldl (fun s e => mirroredEffect 2 e.1 (w32 e.2) s) s
  let s := c.legs.foldl (fun s e => (e.2.zipIdx).foldl (fun s x => rsetN s (Reg.FLOW_LEG_CTX e.1 x.2) x.1) s) s
  let s := { s with flow := { s.flow with legs := c.legs }, eng := { s.eng with tlut := c.tlut, tlutSh := c.tlut },
                    comp := { s.comp with lutCom := c.lut, lutSh := c.lut, coefCom := c.coef, coefSh := c.coef } }
  let s := ((s.comp.layers.map (·.1)).filter (fun l => !c.layers.any (fun e => e.1 == l))).foldl (fun s l =>
    lStat l Fld.COMP_L_STAT_PEND false (setLayer l { layerSt s l with committed := resetWords, force := resetWords } s)) s
  let s := c.layers.foldl (fun s e =>
    let f := (c.force.find? (fun x => x.1 == e.1)).elim e.2 (·.2)
    lStat e.1 Fld.COMP_L_STAT_PEND (f != e.2) (setLayer e.1 { layerSt s e.1 with committed := e.2, force := f } s)) s
  let s := c.masks.foldl (fun s e => rsetN s e.1 e.2) s
  let s := c.seqs.foldl (fun s e => setTx e.1 e.2.1 { txFlow s e.1 e.2.1 with seq := e.2.2 } s) s
  let s := c.xpRecs.foldl (fun s e => rsetN s (Reg.XP_TAKE_RING e.1) e.2) s
  let s := c.audRecs.foldl (fun s e => rsetN s (Reg.AUD_TAKE_RING e.1) e.2) s
  let s := fset (fset s Reg.XP_TAKE_PI Fld.XP_TAKE_PI_PI c.xpPi) Reg.XP_TAKE_CI Fld.XP_TAKE_CI_CI c.xpCi
  let s := fset (fset s Reg.AUD_TAKE_PI Fld.AUD_TAKE_PI_PI c.audPi) Reg.AUD_TAKE_CI Fld.AUD_TAKE_CI_CI c.audCi
  let due := c.due.map (fun e => (e.1, e.2.1, if e.2.2 < 2 ^ 48 then ownFrame s e.2.1 e.2.2 else e.2.2))
  refreshHeld { s with
    xp := { s.xp with salvos := [], abandoned := c.gaps, validated := c.xpCi, journalTo := c.xpDone, journalDue := due }
    aud := { s.aud with
      salvos := [], abandoned := c.audGaps, validated := c.audCi, journalTo := c.audDone
      journalDue := c.audDue.map (fun e => (e.1, ownSample s e.2 % 2 ^ 48)) } }
/-- The copy is applied at this device's switch points: of plane 0 after F, then of plane 1. -/
def copyApply (p : Nat) (s : State) : State :=
  match s.pair.copyIn with
  | some c =>
    if !isStandby s || linkState s != 4 then s
    else if p = 0 ∧ !s.pair.copyP0 ∧ fcAfter (planeFc s 0) (ownFrame s 0 c.f) then
      let s := copyState c (copyRoutes 0 c s)
      let s := { s with pair := { s.pair with copyP0 := true } }
      if planeUsed s.img 1 then s else setLink 5 s
    else if p = 1 ∧ s.pair.copyP0 then setLink 5 (copyRoutes 1 c s)
    else s
  | none => s
def copyMsg (c : StateCopy) (s : State) : State :=
  if isStandby s && linkState s == 4 then { s with pair := { s.pair with copyIn := some c, copyP0 := false } } else s

/-! ### Forwarding (R403-R405) -/

/-- Records between two journalled salvos, which the active device refused: they are freed in ring order. -/
def journalGap (start stop size : Nat) : List (Nat × Nat) :=
  let d := (stop + size - start) % size
  if d = 0 ∨ size / 2 ≤ d then [] else [(start, d)]
/-- A copy that has arrived and is not yet applied to the rings. -/
def copyWaits (s : State) : Option StateCopy := if s.pair.copyP0 then none else s.pair.copyIn
/-- A journalled salvo enters the standby's ring at the same counts, with its execution frames by plane; while a copy waits,
it joins the ring of the copy. -/
def journalSalvo (first n : Nat) (due : List (Nat × Nat)) (recs : List Nat) (s : State) : State :=
  match copyWaits s with
  | some c => { s with pair := { s.pair with copyIn := some { c with
      xpPi := (first + n) % 8192, xpDone := (first + n) % 8192, gaps := c.gaps ++ journalGap c.xpDone first 8192
      xpRecs := c.xpRecs ++ (recs.zipIdx).map (fun e => ((4 * first + e.2) % 16384, e.1))
      due := c.due ++ due.map (fun e => (first, e.1, e.2)) } } }
  | none =>
  let s := (recs.zipIdx).foldl (fun s e => rsetN s (Reg.XP_TAKE_RING ((4 * first + e.2) % 16384)) e.1) s
  let s := fset s Reg.XP_TAKE_PI Fld.XP_TAKE_PI_PI (first + n)
  takeFree <| absorbAbandoned { s with xp := { s.xp with
    journalTo := (first + n) % 8192
    abandoned := s.xp.abandoned ++ journalGap s.xp.journalTo first 8192
    journalDue := s.xp.journalDue ++ due.map (fun e => (first, e.1, ownFrame s e.1 e.2)) } }
/-- A journalled audio salvo, with its execution sample. -/
def journalAudio (first n at_ : Nat) (recs : List Nat) (s : State) : State :=
  match copyWaits s with
  | some c => { s with pair := { s.pair with copyIn := some { c with
      audPi := (first + n) % 4096, audDone := (first + n) % 4096, audGaps := c.audGaps ++ journalGap c.audDone first 4096
      audRecs := c.audRecs ++ (recs.zipIdx).map (fun e => ((4 * first + e.2) % 8192, e.1))
      audDue := c.audDue ++ [(first, at_)] } } }
  | none =>
  let s := (recs.zipIdx).foldl (fun s e => rsetN s (Reg.AUD_TAKE_RING ((4 * first + e.2) % 8192)) e.1) s
  let s := fset s Reg.AUD_TAKE_PI Fld.AUD_TAKE_PI_PI (first + n)
  audFree <| audAbsorb { s with aud := { s.aud with
    journalTo := (first + n) % 4096
    abandoned := s.aud.abandoned ++ journalGap s.aud.journalTo first 4096
    journalDue := s.aud.journalDue ++ [(first, ownSample s at_ % 2 ^ 48)] } }
/-- Pairs of a list of words. -/
def pairUp : List Nat → List (Nat × Nat)
  | a :: b :: t => (a, b) :: pairUp t
  | _ => []
/-- A Journal message: kind 0 a salvo (first, n, then plane and frame of each part, then records), 1 an audio salvo
(first, n, sample, records), 2 a mirrored write (offset, data, sample, master). -/
def journalMsg (kind : Nat) (head : List Nat) (parts : List (Nat × Nat)) (recs : List Nat) (s : State) : State :=
  let h (i : Nat) : Nat := (head[i]?).getD 0
  if !isStandby s || linkState s < 4 then s
  else if kind = 0 then journalSalvo (h 0 % 8192) (h 1) parts recs s
  else if kind = 1 then journalAudio (h 0 % 4096) (h 1) (h 2) recs s
  else { s with pair := { s.pair with mirWrites := s.pair.mirWrites ++ [⟨2, h 0, w32 (h 1), ownSample s (h 2)⟩] } }
def takeLate (s : State) : State := raise Src.pairTakeLate [0] (count s Reg.PAIR_TAKE_LATE)
/-- A Done message: the parts of plane p of these salvos executed at frame fc on the active device. The report of a
salvo that this device has not yet executed, or not yet committed, is kept. -/
def doneMsg (p fc : Nat) (firsts : List Nat) (s : State) : State :=
  if !isStandby s then s
  else
    let f := ownFrame s p fc
    firsts.foldl (fun s c =>
      match s.pair.execLog.find? (fun e => e.1 == c && e.2.1 == p) with
      | some e =>
        let s := { s with pair := { s.pair with execLog := s.pair.execLog.filter (· != e) } }
        if fcAfter e.2.2 f then takeLate s else s
      | none =>
        if s.xp.salvos.any (fun v => v.first == c && v.parts.any (fun t => t.plane == p && !t.executed))
            || decide ((c + 8192 - s.xp.validated) % 8192 < 4096) then
          { s with pair := { s.pair with doneAt := s.pair.doneAt ++ [(c, p, f)] } } else s) s
/-- A batch is recorded; a standby compares its frame with the active device's, now or when that is reported. -/
def batchDone (p : Nat) (s : State) : State :=
  let b := if planeUsed s.img p && running s then batchOf s p else []
  let s := batchRecord p s
  let s := if p = 0 then copySend s else s
  if !(isStandby s && pairInUse s) then s
  else b.foldl (fun s x =>
    let c := x.1.first
    match s.pair.doneAt.find? (fun e => e.1 == c && e.2.1 == p) with
    | some e =>
      let s := { s with pair := { s.pair with doneAt := s.pair.doneAt.filter (· != e) } }
      if fcAfter (planeFc s p) e.2.2 then takeLate s else s
    | none =>
      if x.1.fwd then { s with pair := { s.pair with execLog := s.pair.execLog ++ [(c, p, planeFc s p)] } } else s) s
/-- An Acknowledge message: the standby holds the salvo of count `first` in its ring. -/
def ackMsg (first : Nat) (s : State) : State :=
  { s with xp := { s.xp with salvos := s.xp.salvos.map (fun v => if v.first = first then { v with acked := true } else v) } }
/-- The oldest mirrored write whose execution sample has come is presented to its block. -/
def presentWrite (s : State) : State :=
  match s.pair.mirWrites with
  | [] => s
  | w :: t =>
    if audSc s < w.sample then s
    else
      let late := isStandby s && decide (w.sample < audSc s)
      let s := mirroredEffect w.master w.addr w.data { s with pair := { s.pair with mirWrites := t } }
      if late then takeLate s else s

/-! ### Frame signatures (R408, R409) -/

/-- The destination of a signed output: an SDI output signs each of its lanes. -/
def sigDest (s : State) (o : Nat) : Nat := if o < 512 then laneDest s.img o else o
def sigExcluded (s : State) (o : Nat) : Bool :=
  let d := sigDest s o
  decide (d < 1536) && bitOf (d % 32) (rgetN s (Reg.PAIR_SIG_EXCL (d / 32)))
/-- Is a signed output one of plane p? -/
def sigOf (s : State) (p o : Nat) : Bool := if o < 0x8000 then destPlane s.img (sigDest s o) == p else p == 0
/-- The signatures of frame k of plane p, which has ended. -/
def ownSigs (p k : Nat) (s : State) : List Sig :=
  let unt (d : Nat) : Bool := fbit s (Reg.XP_DEST_STAT d) Fld.XP_DEST_STAT_UNTIMED
  let sdi := (s.xp.sdiCrc.filter (fun e => sigOf s p e.1)).map (fun e => (⟨e.1, k, e.2, unt (sigDest s e.1)⟩ : Sig))
  let on (j : Nat) : Bool := s.flow.legs.any (fun l =>
    ctxEn l.2 && (match legIs s.img l.1 with | some (k, f, _) => k == 1 && f == j | none => false))
  let flows := (s.flow.vtx.filter (fun e => destNames s.img (512 + e.1) && destPlane s.img (512 + e.1) == p && on e.1)).map
    (fun e => (⟨512 + e.1, k, e.2.sig, unt (512 + e.1)⟩ : Sig))
  let aud := if p = 0 ∧ fbit s Reg.PAIR_CTRL Fld.PAIR_CTRL_AUD_SIG then s.aud.sigDone.map (fun e => (⟨0x8000 + e.1, k, e.2, false⟩ : Sig))
    else []
  sdi ++ flows ++ aud
/-- Compare what both devices have of one output and frame. -/
def sigCompare (p : Nat) (own peer : Sig) (s : State) : State :=
  if sigExcluded s own.output || own.untimed || peer.untimed then s
  else
    let o := own.output
    if own.crc = peer.crc then { s with pair := { s.pair with sigRun := cset 0 s.pair.sigRun o 0 } }
    else
      let n := cget 0 s.pair.sigRun o + 1
      let s := { s with pair := { s.pair with sigRun := cset 0 s.pair.sigRun o n, sigClean := cset 0 s.pair.sigClean p 17 } }
      let a := Reg.PAIR_SIG_LAST
      let s := fset (fset (count s Reg.PAIR_SIG_DIFF) a Fld.PAIR_SIG_LAST_AUD (o / 0x8000)) a Fld.PAIR_SIG_LAST_OUT (sigDest s o % 0x1000)
      if n = max 1 (fget s Reg.PAIR_CTRL Fld.PAIR_CTRL_SIG_LIMIT) then
        raise Src.pairSigMismatch [o, o, lo32 own.frame, hi32 own.frame] s else s
/-- Every pair of signatures of plane p and frame k that both devices have given is compared and forgotten. -/
def sigMatch (p k : Nat) (s : State) : State :=
  let mine (x : Sig) : Bool := x.frame == k && sigOf s p x.output
  let pairs := (s.pair.sigs.filter mine).filterMap (fun x =>
    (s.pair.peerSigs.find? (fun y => y.output == x.output && y.frame == k)).map (fun y => (x, y)))
  if pairs.isEmpty then s
  else
    let s := pairs.foldl (fun s e => sigCompare p e.1 e.2 s) s
    let n := cget 0 s.pair.sigClean p
    let gone (x : Sig) : Bool := pairs.any (fun e => e.1.output == x.output && x.frame == k)
    refreshHealth { s with pair := { s.pair with
      sigs := s.pair.sigs.filter (fun x => !gone x), peerSigs := s.pair.peerSigs.filter (fun x => !gone x)
      sigClean := cset 0 s.pair.sigClean p (n - 1) } }
def sigsOn (s : State) : Bool :=
  pairInUse s && inRole s && linkState s == 5 && (isActive s || fbit s Reg.PAIR_CTRL Fld.PAIR_CTRL_SIG_EN)
/-- Signatures of frame fc of plane p arrive from the active device: output, CRC, UNTIMED. -/
def sigMsg (p fc : Nat) (l : List (Nat × Nat × Bool)) (s : State) : State :=
  if !sigsOn s || !isStandby s then s
  else
    let k := ownFrame s p fc
    let ys := l.map (fun e => (⟨e.1, k, e.2.1, e.2.2⟩ : Sig))
    sigMatch p k { s with pair := { s.pair with peerSigs := s.pair.peerSigs ++ ys } }
/-- At the switch point of plane 0, whose PLANE_FC is now fc, the audio signatures of a frame are complete. They hold the
samples whose edges lie more than half a period before it: at rates 0x4 and 0x9 and the second and third frame of five, all
but the last sample, which begins the next (R408; 14 R369). -/
def sigAudio (fc : Nat) (s : State) : State :=
  let r := rateOf (planeFmt s.img 0)
  if (r = 4 ∨ r = 9) ∧ (fc % 5 = 1 ∨ fc % 5 = 2) then
    sigSample (audSc s) { s with aud := { s.aud with sigDone := s.aud.sigPrev, sig := [] } }
  else { s with aud := { s.aud with sigDone := s.aud.sig, sig := [] } }
/-- The switching line of plane p begins, and with it the SDI frame (R408): the signatures of the frame before it are sent by
an active device, whatever its own SIG_EN, and kept by a standby, which counts those of two frames ago that never came. -/
def sigClose (p : Nat) (s : State) : State :=
  let k := (planeFc s p + 2 ^ 48 - 1) % 2 ^ 48
  let l := ownSigs p k s
  let s := { s with xp := { s.xp with sdiCrc := s.xp.sdiCrc.filter (fun e => !sigOf s p e.1) } }
  if !sigsOn s then s
  else if isActive s then
    mirrorSend mkSigs ([p, lo32 k, hi32 k] ++ l.flatMap (fun x => [x.output, x.crc, b2n x.untimed])) s
  else
    let s := if l.all (fun x => x.untimed || sigExcluded s x.output) then
        refreshHealth { s with pair := { s.pair with sigClean := cset 0 s.pair.sigClean p (cget 0 s.pair.sigClean p - 1) } }
      else s
    let s := sigMatch p k { s with pair := { s.pair with sigs := s.pair.sigs ++ l } }
    let old (x : Sig) : Bool := !(fcAfter (x.frame + 2) (k + 1)) && sigOf s p x.output
    let miss := (s.pair.sigs.filter (fun x => old x && !x.untimed && !sigExcluded s x.output)).length
    let s := countN s Reg.PAIR_SIG_MISSING miss
    { s with pair := { s.pair with sigs := s.pair.sigs.filter (fun x => !old x), peerSigs := s.pair.peerSigs.filter (fun x => !old x) } }

/-! ### Margin scan (R410) -/

/-- The MAC port whose lane PKT lane l is (06 Table 6.1). -/
def lanePort (g : Img) (l : Nat) : Nat :=
  let c := groupSplit g (l / 4)
  if c = 1 then l / 4 * 4 else if c = 2 then l / 2 * 2 else l
/-- A lane whose receiver runs: VID lanes 0-511, then PKT lanes of formed ports. -/
def scanLane (s : State) (i : Nat) : Bool :=
  if i < 512 then rxRuns s.img i else portFormed s.img (lanePort s.img (i - 512))
/-- The next running lane after i. -/
def nextLane (s : State) (i : Nat) : Nat :=
  (((List.range 576).map (fun j => (i + 1 + j) % 576)).find? (scanLane s)).getD i
/-- The scan has spent 10 ms on a lane: its opening in UI/128 and in units of 4 mV. -/
def marginDwell (h v : Nat) (s : State) : State :=
  if !(isStandby s && pairInUse s && fbit s Reg.PAIR_CTRL Fld.PAIR_CTRL_MARGIN_EN) then s
  else
    let i := if scanLane s s.pair.marginPos then s.pair.marginPos else nextLane s s.pair.marginPos
    if !scanLane s i then s
    else
      let a := Reg.PAIR_MARGIN i
      let s := fset (fset (fset s a Fld.PAIR_MARGIN_H (min 255 h)) a Fld.PAIR_MARGIN_V (min 255 v)) a Fld.PAIR_MARGIN_VALID 1
      let s := { s with pair := { s.pair with marginPos := nextLane s i } }
      let lim := Reg.PAIR_MARGIN_LIM
      if h < fget s lim Fld.PAIR_MARGIN_LIM_H ∨ v < fget s lim Fld.PAIR_MARGIN_LIM_V then raise Src.pairMarginLow [i] s else s

/-! ### Meanings -/

/-- ARB_ROLE_CHANGE (R392, R406). -/
def execArbRoleChange (high : Bool) (s : State) : Out := .next (arbRole high s)
/-- PAIR_ENABLE_WRITE: EN; the other fields of PAIR_CTRL keep their values (R390). -/
def execPairEnableWrite (m : Fin 9) (en : Bool) (s : State) : Out :=
  let w := w32 (withBits 0 0 (b2n en) (rgetN s Reg.PAIR_CTRL))
  .next (hostWrite m Reg.PAIR_CTRL w (pairWrite Reg.PAIR_CTRL w) s)
/-- ARB_BEAT_INTERVAL: which of the quadrants, the take engine, the planes' switch points and the probe reported in the
interval (R394). -/
def execArbBeatInterval (quads : BitVec 4) (take plane0 plane1 probe : Bool) (s : State) : Out :=
  .next (beat (quads == 0xF && take && (plane0 || !planeUsed s.img 0) && (plane1 || !planeUsed s.img 1) && probe) s)
/-- SWITCH_WIN_EDGE (R396). -/
def execSwitchWinEdge (up : Bool) (s : State) : Out := .next (switchWin up s)
/-- MIRROR_HEALTH_SEND (R399). -/
def execMirrorHealthSend (s : State) : Out := .next (healthSend s)
/-- MIRROR_HEALTH_MSG (R399, R400, R411). -/
def execMirrorHealthMsg (ack : Nat) (peer : Fin 8) (link : Fin 8) (digest : List Word) (arb : Word) (s : State) : Out :=
  .next (mirrorRecv ack (fun s => cycleEnd s (healthMsg peer link digest arb (cycleBegin s))) s)
/-- MIRROR_MARKER_MSG (R398, R401). -/
def execMirrorMarkerMsg (ack : Nat) (p : Fin 2) (fc : BitVec 48) (sc : BitVec 64) (d : Option Int) (rtt : Nat) (s : State) :
    Out := .next (mirrorRecv ack (markerMsg p fc.toNat sc.toNat d rtt) s)
/-- MIRROR_JOURNAL_MSG (R403, R407). -/
def execMirrorJournalMsg (ack : Nat) (kind : Fin 3) (head : List Nat) (parts : List (Nat × Nat)) (recs : List Nat) (s : State) :
    Out := .next (mirrorRecv ack (journalMsg kind head parts recs) s)
/-- MIRROR_DONE_MSG (R405). -/
def execMirrorDoneMsg (ack : Nat) (p : Fin 2) (fc : BitVec 48) (firsts : List Nat) (s : State) : Out :=
  .next (mirrorRecv ack (doneMsg p fc.toNat firsts) s)
/-- MIRROR_ACK_MSG (R404). -/
def execMirrorAckMsg (ack : Nat) (first : Nat) (s : State) : Out := .next (mirrorRecv ack (ackMsg first) s)
/-- MIRROR_SIGNATURES_MSG (R409). -/
def execMirrorSignaturesMsg (ack : Nat) (p : Fin 2) (fc : BitVec 48) (l : List (Nat × Nat × Bool)) (s : State) : Out :=
  .next (mirrorRecv ack (sigMsg p fc.toNat l) s)
/-- MIRROR_COPY_MSG (R402). -/
def execMirrorCopyMsg (ack : Nat) (c : StateCopy) (s : State) : Out := .next (mirrorRecv ack (copyMsg c) s)
/-- MIRROR_ACK_TIMEOUT: the message of a number is resent (R398). -/
def execMirrorAckTimeout (n : Nat) (s : State) : Out :=
  .next (match s.pair.unacked.find? (fun t => t.seq == n) with
    | some t => if linkUp s then emit (count s Reg.PAIR_MIRROR_RETRY) (.mirror t.kind t.words) else s
    | none => s)
/-- MIRROR_SILENCE_TIMEOUT (R399). -/
def execMirrorSilenceTimeout (s : State) : Out := .next (if linkUp s then setLink 1 s else s)
/-- MIRROR_LANES_LOCKED (R399). -/
def execMirrorLanesLocked (s : State) : Out :=
  .next (if pairInUse s && inRole s && linkState s == 1 then setLink 2 { s with pair := { s.pair with lanes := 0xFF } } else s)
/-- MIRROR_ALIGN_DONE (R399). -/
def execMirrorAlignDone (s : State) : Out :=
  .next (if pairInUse s && inRole s && linkState s == 2 then setLink 3 s else s)
/-- MIRROR_LANE_LOCK_LOSS (R399). -/
def execMirrorLaneLockLoss (lane : Fin 8) (s : State) : Out :=
  .next (if pairInUse s && inRole s && decide (1 ≤ linkState s) then
    setLink 1 { s with pair := { s.pair with lanes := withBits lane lane 0 s.pair.lanes } } else s)
/-- MIRROR_TIME_MARKER (R401). -/
def execMirrorTimeMarker (ack : Nat) (a b : BitVec 64) (lockA lockB : Bool) (s : State) : Out :=
  .next (timeMarker ack a.toNat b.toNat lockA lockB s)
/-- MIRRORED_WRITE_PRESENT (R407). -/
def execMirroredWritePresent (s : State) : Out := .next (presentWrite s)
/-- MARGIN_SCAN_DWELL (R410). -/
def execMarginScanDwell (h v : Nat) (s : State) : Out := .next (marginDwell h v s)
/-- PAIR_NO_ACTIVE_TIMEOUT (R411). -/
def execPairNoActiveTimeout (s : State) : Out :=
  .next (if isStandby s && linkUp s then
    condBegin Src.pairNoActive [0] (pairStat Fld.PAIR_STAT_NO_ACTIVE 1 s) else s)
/-- BATCH_RECORD (04 R103, Table 4.9 step 6; R402, R405). -/
def execBatchRecord (p : Fin 2) (s : State) : Out := .next (batchDone p s)

end Sys2Proof.Machine
end

