-- ==== Sys2Proof/Machine/SwitchPoint.lean ====
section
/-! DEFINITION. The switch point of a plane, the reading of the switching line, and the jump of a first acquisition
(04_stream_crosspoint.md R83, R84; 14_reference.md R361, R368, R369). -/

namespace Sys2Proof.Machine

/-- PLANEn_FP and the TPO pins owned by PLANEn (R368). -/
def framePulse (p : Nat) (up : Bool) (s : State) : State :=
  let s := { s with core := { s.core with planeFp := BitVec.ofNat 2 (withBits p p (b2n up) s.core.planeFp.toNat) } }
  let s := emit s (.pin (if p = 0 then "PLANE0_FP" else "PLANE1_FP") (b2n up))
  if inCast s then s
  else (List.range 8).foldl (fun s n => if ownClass s.img (resId 2 n) = 5 + p then setTpoPin n up s else s) s
/-- Settings that take effect at the switch point (Table 4.9 step 3; 05 R126, R138; 07 R190; 10 R257). -/
def switchSettings (p : Nat) (s : State) : State :=
  if !running s || planeBlack s p then s
  else
    let s := tpgApply p s
    let s := (planeDests s.img p).foldl (fun s d =>
      if (destSync s.img d).isSome then fsyncSwitch d s else s) s
    let s := compSwitch p (ancTxSwitchAll p (vlaneSwitch p s))
    let s := groupsRealign p s
    let s := if p = 0 then audFrameBoundary s else s
    copyApply p s
/-- A marker of plane p leaves (16 Table 16.3). -/
def markerSend (p : Nat) (s : State) : State :=
  if !linkUp s then s
  else mirrorSend mkMarker [p, lo32 (planeFc s p), hi32 (planeFc s p), lo32 s.pair.scAt, hi32 s.pair.scAt] s
/-- PLANE_FC advances by 1 modulo 2^48. -/
def fcAdvance (p : Nat) (s : State) : State :=
  rset64 s (Reg.PLANE_FC_LO p) (Reg.PLANE_FC_HI p) ((planeFc s p + 1) % 2 ^ 48)
/-- WCLK_OUT of plane 1 rises at the switch points at which the relation of R369 asks for a rising edge; the edges between
them have no command (DESIGN CHOICE, log entry 152). -/
def wclkPlane1 (s : State) : State :=
  let r := rateOf (planeFmt s.img 1)
  if ownClass s.img (resId 4 0) != 6 || !s.core.wclkRun || ((r == 4 || r == 9) && planeFc s 1 % 5 != 0) then s
  else wclkRise s
/-- The switch point of plane p. -/
def switchPoint (p : Nat) (s : State) : State :=
  if !planeUsed s.img p || !running s then s
  else
    let s := if p = 0 then { s with pair := { s.pair with scAt := (audSc s + 1) % 2 ^ 64 } } else s
    let s := { s with xp := { s.xp with switchAt := cset 0 s.xp.switchAt p (nowTicks s) } }
    let s := framePulse p true (fcAdvance p s)
    let s := if p = 0 && pairInUse s then sigAudio (planeFc s 0) s else s
    let s := tkPhase 1 p (tkPhase 0 p (switchSettings p s))
    markerSend p (if p = 1 then wclkPlane1 s else s)
/-- In a cast's pause every destination of the plane carries black; an SDI output that is not idle sends it with a SYNTH
payload ID, no embedded audio and no ANC; a DisplayPort link that is trained sends black (18_image_update.md Table
18.3). From step 3 to the plane's resumption a lane keeps the payload ID it has. -/
def castBlack (p : Nat) (s : State) : State :=
  let s := (List.range 4).foldl (fun s k =>
    match dpHead s.img k with
    | some h => if dpPers s.img && headPlane s.img h == p && dpState s k == 3 then
        headLink k h 0 (fun _ _ => blackPx (headRgb s.img h)) s else s
    | none => s) s
  let s := (planeDests s.img p).foldl (fun s d =>
    setDest d { destOf s d with path := .black, fmt := 0, samp := 0, square := false } s) s
  (planeLanes s.img p).foldl (fun s v =>
    if sdiIdle s v then s
    else
      let pid := if s.upd.applied then (laneSt s v).pidOut else lanePid s v 1
      emit (setLane v { laneSt s v with pidOut := pid, recs := [], emb := [] } s) (.sdiFrame v 1 pid.2 0 (outLevelB s (laneDest s.img v) v) [])) s
/-- The destinations of plane p read the switching line; the frame pulse, one line long, ends, and so does the frame that
signatures cover (R84, R368; 16 R408). -/
def switchLineRead (p : Nat) (s : State) : State :=
  if !planeUsed s.img p || !running s then s
  else
    let s := sigClose p (framePulse p false s)
    if planeBlack s p then castBlack p s else sdiFrames p (destSwitchRead p s)
/-- Parity of the sample that R369 asks for at the first edge at or after a switch point of plane-0 rate `rate` whose
PLANE_FC is fc: an even one, but for rates 0x4 and 0x9, where it is the first edge of the five-frame sequence (of 3,203.2
or 1,601.6 samples a frame). -/
def jumpParity (rate fc : Nat) : Nat :=
  let f := fc % 5
  if rate = 4 then cdiv (f * 32032) 10 % 2 else if rate = 9 then cdiv (f * 16016) 10 % 2 else 0
/-- A jump of the plane that owns WCLK_OUT ends the cycle in progress early (R369). -/
def wclkJump (p : Nat) (s : State) : State := if ownClass s.img (resId 4 0) = 5 + p then wclkFall s else s
/-- The jump of a first acquisition: at the target phase, at least 1 s after entry to ACQUIRING and half a frame after
the last switch point, the switch point is placed and the residual is 0 (R361); the audio timeline takes its parity
there (R369). -/
def planeJump (p : Nat) (s : State) : State :=
  let v := refPl s p
  if !planeUsed s.img p || !running s || planeState s p != 2 || !v.jump then s
  else
    let half := cdiv (framePs (planeFmt s.img p)) 2500
    let s := advanceTicks (max (v.acqAt + 800000000) (cget 0 s.xp.switchAt p + half) - nowTicks s) s
    let s := setRefPl p { refPl s p with jump := false } (setResid p 0 s)
    let s := planeEvent p Fld.PLANE_EVENT_JUMP (switchPoint p (wclkJump p s))
    if p = 0 then { s with aud := { s.aud with parity := some (jumpParity (rateOf (planeFmt s.img 0)) (planeFc s 0)) } }
    else s

/-! ### Meanings -/

/-- DEST_SWITCH_LINE_READ (R84, R99, Table 4.9 step 5). -/
def execDestSwitchLineRead (p : Fin 2) (s : State) : Out := .next (switchLineRead p s)
/-- PLANE_JUMP (R361, R369). -/
def execPlaneJump (p : Fin 2) (s : State) : Out := .next (planeJump p s)

end Sys2Proof.Machine
end

