-- ==== Sys2Proof/Machine/Service.lean ====
section
/-! DEFINITION. Applying an image, restoring the Keep region, entering service, SAFE, the load attempts of a boot, soft
and hard reset (02_modes_boot.md R25-R52; 03_admet_image.md R62-R65; 17_faults_patina.md R422, R437, R438;
21_pins_electrical.md R518, R519). -/

namespace Sys2Proof.Machine

/-- GLOBAL_MODE and GLOBAL_BOOT_STAT fields. -/
def setModeF (f : FieldRow) (v : Nat) (s : State) : State := fset s Reg.GLOBAL_MODE f v
def setBoot (f : FieldRow) (v : Nat) (s : State) : State := fset s Reg.GLOBAL_BOOT_STAT f v
def bootStep (s : State) : Nat := fget s Reg.GLOBAL_BOOT_STAT Fld.GLOBAL_BOOT_STAT_STEP
def setStep (n : Nat) (s : State) : State := setBoot Fld.GLOBAL_BOOT_STAT_STEP n s
/-- Keep only the registers that p picks; the others return to their reset values. -/
def keepRegs (p : Nat → Bool) (s : State) : State := { s with regs := s.regs.filter (fun e => p e.1) }

/-! ### Bytes of an image (R57, R59) -/

/-- Bytes of flash, and of the staging area. -/
def flashRun (s : State) (x n : Nat) : List Nat := cellsRun (fun _ => 0xFF) s.long.flash x n
def stagingRun (s : State) (n : Nat) : List Nat := cellsRun (fun x => (hbmDefault s 0 x).toNat) s.q.staging 0 n
/-- The image that a source of `units` units of 4 KiB holds, by the length its header gives; the header alone where it is
invalid. -/
def rawOf (get : Nat → List Nat) (units : Nat) : List Nat :=
  let h := get 4096
  if headerBad h units then h else get (4096 * imgUnits h)
/-- The bytes land in the staging area and are hashed as they are written there (Table 2.5 step 5, 03 R59). -/
def stage (bs : List Nat) (s : State) : State :=
  { s with q := { s.q with staging := cellsPut (hbmDefault s 0) s.q.staging 0 bs }, core := { s.core with hashed := bs } }
def slotBase : LoadSrc → Nat
  | .slotA => 0x1000000 | .slotB => 0x4000000 | _ => 0
/-- Code of a source in the BOOT_FAIL record, and in GLOBAL_MODE.SLOT. -/
def loadCode : LoadSrc → Nat
  | .plinth => 0 | .slotA => 1 | .slotB => 2 | .host => 3
def slotSrc (n : Nat) : LoadSrc := if n = 2 then .slotB else .slotA

/-! ### Step 8: the armature (R62-R65) -/

/-- IMG_ registers of an image that has been applied (03, Registers), and the settings of its FAULT and PIN sections. -/
def applyHeader (raw : List Nat) (g : Img) (s : State) : State :=
  let s := { s with img := g }
  let s := rsetN s Reg.IMG_ACT_INFO (2 ^ 31 + sectCount raw % 256 * 2 ^ 16 + 0x1000 + leAt raw 4 2 % 64 * 4 + imgPurpose raw % 4)
  let s := rset64 (rsetN s Reg.IMG_ACT_ARB (imgIndex raw)) Reg.IMG_ACT_BUILD_LO Reg.IMG_ACT_BUILD_HI (imgBuild raw)
  let s := ((chunks 4 (imgDigest raw)).zipIdx).foldl (fun s e => rsetN s (Reg.IMG_ACT_DIGEST e.2) (leNat e.1)) s
  rsetN (rsetN (rsetN s Reg.IMG_ARM_STAT 1) Reg.IMG_ARM_LEN (armSize g)) Reg.IMG_SET_FMT (imgSetFmt raw)
/-- Severities (17 R414) and pins (21 Table 21.13). -/
def applyPins (g : Img) (s : State) : State :=
  let s := (List.range 1536).foldl (fun s n => rsetN s (Reg.FAULT_SEV n) (secByteOf g Sec.fault n &&& 0x87)) s
  let pin (i : Nat) : Nat := secByteOf g Sec.pin i
  let s := rsetN s Reg.PINCTL_SSC (pin 0)
  let s := rsetN s Reg.PINCTL_SLEW (pin 2 + 4 * pin 3 + 16 * pin 4 + 64 * pin 5 + 256 * pin 6)
  (List.range 15).foldl (fun s i => rsetN s (Reg.PINCTL_FILT i) (pin (8 + i))) s
/-- TRO of Table 7.5. -/
def troReset (fmt : Nat) : Nat :=
  let r := rasterOf fmt
  if r = 1 ∨ r = 4 ∨ r = 5 then 22 else if r = 2 then 24 else if r = 3 then 27 else 43
/-- KLIB is copied into every cluster (R64), and the registers whose reset value the armature gives are loaded: those that
the chapters mark "Image", and TRO. -/
def applyBlocks (g : Img) (s : State) : State :=
  let s := { s with eng := { s.eng with klib := secBytes g Sec.klib } }
  let s := (List.range 64).foldl (fun s m => macStat m Fld.MAC_STAT_SPEED (portSpeed g m) s) s
  let s := (List.range 4096).foldl (fun s d =>
    let a := Reg.XP_DEST_FSYNC_STAT d
    match destSync g d with
    | none => fset s a Fld.XP_DEST_FSYNC_STAT_NONE 1
    | some n => fset (fset s a Fld.XP_DEST_FSYNC_STAT_NONE 0) a Fld.XP_DEST_FSYNC_STAT_INDEX n) s
  let s := (List.range 4096).foldl (fun s d =>
    if slotFsync g d then fset s (Reg.XP_DEST_FSYNC d) Fld.XP_DEST_FSYNC_EN 1 else s) s
  let s := (List.range (kindFlows g 1)).foldl (fun s j =>
    fset s (Reg.FLOW_VTX_CFG j) Fld.FLOW_VTX_CFG_TRO (troReset (destFmt g (512 + j)))) s
  let s := (List.range 256).foldl (fun s n => fset s (Reg.ENG_SLOT_STAT n) Fld.ENG_SLOT_STAT_ACTIVE (b2n (slotUsed g n))) s
  let s := (planesUsed g).foldl (fun s p =>
    let s := fset s (Reg.PLANE_CTRL p) Fld.PLANE_CTRL_BW (refBwInit g p)
    (List.range 16).foldl (fun s e => entStat p e Fld.PLANE_ENT_STAT_KIND (entKind g p e) s) s) s
  let s := (List.range 2).foldl (fun s k => fset s (Reg.TIME_TK_STAT k) Fld.TIME_TK_STAT_DOMAIN (tkDomain g k)) s
  (List.range 8192).foldl (fun s b =>
    fset s (Reg.AUD_B_STAT b) Fld.AUD_B_STAT_NOASRC (b2n (dstPlane1 g b && (dstBlock g b).isNone))) s
/-- The TABLES section loads tables as a host would (R65). -/
def applyTables (g : Img) (s : State) : State :=
  (Config.tables (secBytes g Sec.tables)).foldl (fun s e => mirroredEffect 1 e.1 (w32 e.2) s) s
/-- OT_FLAGS: SEL and AUTO (15 R378). -/
def applyTime (g : Img) (s : State) : State :=
  fset (fset s Reg.TIME_OT_CTRL Fld.TIME_OT_CTRL_SEL (otFlags g % 2)) Reg.TIME_OT_CTRL Fld.TIME_OT_CTRL_AUTO (otFlags g / 2)
/-- Step 8 on an image that every block accepts. A plinth image holds FAULT, OWN and PIN only. -/
def applyImage (raw : List Nat) (g : Img) (s : State) : State :=
  let s := applyPins g (applyHeader raw g s)
  if imgPurpose raw = 2 then s else applyTables g (applyTime g (applyBlocks g s))

/-! ### Step 9: the Keep region (17 R437) -/

/-- One item of the restored state: the device with it, and whether it was refused. -/
def restoreItem (v : KeepVal) (s : State) : State × Bool :=
  match v.item with
  | .video d =>
    if v.v0 / 0x8000 % 2 = 0 then (s, false)
    else
      let black := v.v0 / 0x800 % 2
      let x := v.v0 % 0x800
      if routeCode s.img black d x ≠ 0 then (s, true)
      else
        let a := Reg.XP_DEST_SRC d
        (fset (fset s a Fld.XP_DEST_SRC_CUR_BLACK black) a Fld.XP_DEST_SRC_CUR_SRC x, false)
  | .audio b =>
    if v.v0 / 0x8000 % 2 = 1 then (s, false)
    else if srcChan s.img (v.v0 % 0x8000) && dstChan s.img b then (setAudRoute b (some (v.v0 % 0x8000)) s, false)
    else (s, true)
  | .mix i =>
    if audBuses s.img ≤ i / 64 then (s, false)
    else (rsetN (rsetN s (Reg.AUD_MIX_W (i / 64) (2 * (i % 64))) v.v0) (Reg.AUD_MIX_W (i / 64) (2 * (i % 64) + 1)) v.v1, false)
def restoreAll (vs : List KeepVal) (s : State) : State × Nat :=
  vs.foldl (fun r v => let t := restoreItem v r.1; (t.1, r.2 + b2n t.2)) (s, 0)
def patStat (f : FieldRow) (b : Bool) (s : State) : State := fset s Reg.PAT_STAT f (b2n b)
/-- Restore the Keep region. -/
def keepRestore (s : State) : State :=
  let s := { s with pat := { s.pat with dirty := [], finalOpen := [], finalItems := [], flushes := [], snapJob := none } }
  let s := rsetN s Reg.PAT_KEEP_BACKLOG 0
  let s := mramScan (bankBase 1) snapSize (mramScan (bankBase 0) snapSize s)
  match bestBank s with
  | none =>
    let s := { s with pat := { s.pat with keepBank := none, keepGen := 0, keepPos := 0, keepFlush := 0, keepSnap := [], needSnap := true } }
    let s := patStat Fld.PAT_STAT_KEEP_OK false (patStat Fld.PAT_STAT_FINAL false s)
    let s := rsetN (rsetN s Reg.PAT_KEEP_FLUSH 0) Reg.PAT_KEEP_REFUSED 0
    raise Src.keepRestoreErr [0] (logEvent 9 [0, 0, 0, 4] s)
  | some b =>
    let r := replay s b
    let t := restoreAll r.vals s
    let s := { t.1 with pat := { t.1.pat with
      keepBank := some b, keepGen := bankWord s b 2, keepPos := r.pos, keepFlush := r.flush, keepSnap := r.vals, needSnap := false } }
    let s := patStat Fld.PAT_STAT_KEEP_OK true (patStat Fld.PAT_STAT_FINAL r.final s)
    let s := rsetN (rsetN s Reg.PAT_KEEP_FLUSH r.flush) Reg.PAT_KEEP_REFUSED t.2
    let s := logEvent 9 [r.flush, r.entries, t.2, b2n r.final + 2 * b2n r.partialFlush] s
    let s := mramScan (logAt b 0) (16 * r.read) s
    if r.partialFlush then raise Src.keepRestoreErr [0] s else s

/-! ### Flash operations and settings operations (18 R444, R460) -/

/-- A flash operation has its effect on the content: an erase sets a sector to 0xFF, a program clears bits of a page
(PRESUMED, NOR flash: log entry 46). -/
def flashApply (op x : Nat) (s : State) : State :=
  if op = 1 then flashClear s (x / 65536 * 65536) 65536
  else if op = 2 then
    let x := x / 256 * 256
    flashPut s x ((List.range 256).map (fun i => (rgetN s (Reg.IMG_FL_BUF (i / 4)) / 256 ^ (i % 4) % 256) &&& flashByte s (x + i)))
  else s
/-- A flash operation under way at a reset has its effect on the content though its end is not seen (log entry 45). -/
def flashEffect (s : State) : State :=
  match s.upd.flashOp with
  | some (op, x) => flashApply op x s
  | none => s
def setResult (n : Nat) (s : State) : State :=
  fset (fset s Reg.IMG_SET_STAT Fld.IMG_SET_STAT_BUSY 0) Reg.IMG_SET_STAT Fld.IMG_SET_STAT_RESULT n
/-- A settings operation starts, or is refused: MODE, BAD_LEN; for the reserved KEY 0xFFFF the code is a free value. -/
def setBegin (op key : Nat) (s : State) : State :=
  if mode s == .safe && op != 2 then setResult 3 s
  else if op = 1 ∧ 4064 < fget s Reg.IMG_SET_LEN Fld.IMG_SET_LEN_LEN then setResult 4 s
  else if op ≠ 2 ∧ key = 0xFFFF then setResult (freeValue s) (spend s)
  else fset { s with upd := { s.upd with setOp := some (op, key) } } Reg.IMG_SET_STAT Fld.IMG_SET_STAT_BUSY 1
/-- BOOT has ended: an operation that waited starts (18 R460). -/
def startWaiting (s : State) : State :=
  match s.upd.setWaiting with
  | some (op, key) => setBegin op key { s with upd := { s.upd with setWaiting := none } }
  | none => s

/-! ### Entering service (R39, R40) -/

/-- Synthesisers in use that are not locked, lowest first (01 R18). -/
def unlockedClocks (s : State) : List Nat :=
  let used (i : Nat) : Bool :=
    if i = 3 then fbit s Reg.FABRIC_PCIE_STAT Fld.FABRIC_PCIE_STAT_UP
    else if i = 4 ∨ i = 5 then planeUsed s.img (i - 4) else if i = 8 then pairInUse s else true
  (List.range 9).filter (fun i => used i && !bitOf i (rgetN s Reg.GLOBAL_CLK_LOCK))
/-- CLK_UNLOCK and BRIDGE_FAIL are conditions in service (17 Table 17.3). -/
def clockCond (s : State) : State :=
  match unlockedClocks s with
  | [] => condEnd Src.clkUnlock s
  | i :: _ => if inService s then condBegin Src.clkUnlock [i] s else condEnd Src.clkUnlock s
def bridgeCond (s : State) : State :=
  let b := Reg.GLOBAL_BRIDGE_STAT
  let down := inService s && !(fbit s b Fld.GLOBAL_BRIDGE_STAT_N2S_UP && fbit s b Fld.GLOBAL_BRIDGE_STAT_S2N_UP)
  condSet Src.bridgeFail down [0] (if down then fset s b Fld.GLOBAL_BRIDGE_STAT_FAILED 1 else s)
/-- Sources the device makes itself are present from entry: patterns, heads, slots. -/
def presentMade (s : State) : State :=
  ((List.range 384).map (1536 + ·)).foldl (fun s x => if srcNames s.img x then setPresent x true s else s) s
/-- Serial audio ports and ASRC blocks start (12 R305, R311). -/
def audioStart (s : State) : State :=
  let s := (List.range 32).foldl (fun s p => if sapUsed s.img p && sapEn s p then setSapState p 1 s else s) s
  (List.range 256).foldl (fun s b =>
    if ownClass s.img (resId 6 b) = 0 then s else fset (setAsrcState b 1 s) (Reg.ASRC_STAT b) Fld.ASRC_STAT_FILL 4) s
/-- Plane p starts in FREE with its XO_HOLD entry active and qualified (14 R345, R358). -/
def planeStart (p : Nat) (s : State) : State :=
  let s := (List.range 16).foldl (fun s e =>
    if entKind s.img p e = 8 then entStat p e Fld.PLANE_ENT_STAT_QUAL (b2n (!s.ref.xoFail)) s else s) s
  setPlaneState p 1 s
/-- Blocks that start when service begins: receivers, ports, DisplayPort, sources, audio, the rings' journal. -/
def blocksStart (s : State) : State :=
  let s := (List.range 512).foldl (fun s v => rxStart v s) s
  let s := (List.range 64).foldl (fun s m => macApplyEn m s) s
  let s := (List.range 4).foldl (fun s k => dpEnable k s) s
  audioStart (presentMade s)
/-- The BOOT_DONE record (17 R428). -/
def bootDone (s : State) : State :=
  logEvent 2 [rgetN s Reg.GLOBAL_MODE, rgetN s Reg.GLOBAL_RESET_CAUSE, rgetN s Reg.IMG_ACT_ARB,
    rgetN s Reg.IMG_ACT_BUILD_LO, rgetN s Reg.IMG_ACT_BUILD_HI] s
/-- A held CLEAR of the Keep region is written when BOOT ends (17 R438). -/
def heldClear (s : State) : State :=
  if !s.pat.clearHeld then s else clearNow { s with pat := { s.pat with clearHeld := false } }
/-- Entry to service from the cold form of BOOT. -/
def enterService (m : Mode) (s : State) : State :=
  let s := setStep 0 (setMode s m)
  let w : RefWin := ⟨nowTicks s, s.time.tkA, s.time.tkB⟩
  let s := { s with ref := { s.ref with win0 := w, win1 := w } }
  let s := (planesUsed s.img).foldl (fun s p => planeStart p s) s
  let s := otChoose (refFollow (blocksStart s))
  let s := pairStat Fld.PAIR_STAT_ROLE_PIN (b2n (bitOf 9 s.core.filtered.toNat)) s
  let s := bridgeCond (clockCond (heldClear (leaveTest s)))
  startWaiting (bootDone (refreshPins s))

/-! ### SAFE (R44-R46) -/

/-- Every media block stops, its registers and its state at reset; its pins at their levels of Table 2.6. -/
def mediaOff (s : State) : State :=
  let s := keepRegs (fun a => bootBlock (blockOf a)) s
  { s with
    xp := {}, vl := {}, eng := { klib := s.eng.klib }, comp := {}, flow := {}, aud := {}, mac := [], ref := {}, time := {}, pair := {}
    q := { s.q with queues := [], dcache := [], held := [], served := [], scrubStack := 0, scrubOff := 0 }
    pat := { s.pat with conds := [] }
    core := { s.core with arbHealth := 0, arbBeat := .low, switchWin := .low, refSt0 := 0, refSt1 := 0, refAlmN := .high
                          wclkRun := false, wclk := false, planeFp := 0, tpo := 0 } }
/-- No image: IMG, the severities and the pin settings hold their reset values (R45, 17 R422). -/
def dropImage (s : State) : State :=
  let s := keepRegs (fun a => !(blockOf a == .pinctl) && !(decide (0x02C00000 ≤ a) && decide (a < 0x02C00078))
    && !(decide (Reg.FAULT_SEV 0 ≤ a) && decide (a < Reg.FAULT_SEV 1536))) s
  { s with img := {}, eng := {} }
/-- Enter SAFE: keeping the image that has been applied, or with none. Every port that is UP leaves it (06 R150). -/
def enterSafe (noimg : Bool) (s : State) : State :=
  let s := (List.range 64).foldl (fun s m => if macState s m = 3 then macEnter m 0 s else s) s
  let cold := inColdBoot s
  let cast := inCast s
  let noimg := noimg || !fbit s Reg.IMG_ACT_INFO Fld.IMG_ACT_INFO_VALID
  let s := mediaOff s
  let s := if noimg then setModeF Fld.GLOBAL_MODE_NOIMG 1 (setModeF Fld.GLOBAL_MODE_SLOT 0 (dropImage s)) else s
  let s := setModeF Fld.GLOBAL_MODE_HEAT 0 (setModeF Fld.GLOBAL_MODE_CASTFORM 0 (setMode s .safe))
  let s := setBoot Fld.GLOBAL_BOOT_STAT_WAIT_HOST 0 (if cold then s else setStep 0 s)
  let us := (nowTicks s - s.upd.pauseStart) / 800
  let s := { s with core := { s.core with safeReq := false }, upd := { s.upd with cast := none, preloaded := false, carried := none, black := [], applied := false } }
  let s := leaveTest s
  let s := if cold then heldClear (bootDone s)
    else if cast then heldClear <| logEvent 0x12 [us, rgetN s Reg.IMG_CARRY_REFUSED, fget s Reg.IMG_UPD_STAT Fld.IMG_UPD_STAT_RESULT] s
    else s
  startWaiting (refreshPins s)

/-! ### The settings store's markers (18 R459, R461) -/

/-- The CRC-32 of a record: over KEY, FMT, LEN, the data bytes and the sequence number (DESIGN CHOICE, log entry 147). -/
def setCrc (r : SetRec) : Nat :=
  crc32 (leBytes 2 r.key ++ leBytes 4 r.fmt ++ leBytes 2 r.data.length ++ r.data ++ leBytes 4 r.seq)
/-- A record that is read: its commit word stands, and its CRC holds. -/
def setGood (r : SetRec) : Bool := r.commit && setCrc r == r.crc
/-- Append a record to the bank in use, its commit word last. -/
def setAppend (r : SetRec) (s : State) : State :=
  let r := { r with seq := s.long.setSeq }
  { s with long := { s.long with settings := s.long.settings ++ [{ r with crc := setCrc r }], setSeq := (s.long.setSeq + 1) % 2 ^ 32 } }
/-- FMT in force. -/
def fmtNow (s : State) : Nat := imgNat s.img 0x30 4
def putMarker (kind : Nat) (data : List Nat) (s : State) : State :=
  setAppend { kind, key := 0xFFFF, fmt := fmtNow s, seq := 0, data } s
/-- The last marker in the store. -/
def lastMarker (s : State) : Option SetRec := (s.long.settings.filter (fun r => setGood r && decide (2 ≤ r.kind))).getLast?
def castOpen (s : State) : Bool := match lastMarker s with | some r => r.kind == 2 | none => false
/-- A cold-form BOOT that finds an open CAST marker (18 R457). The FMT in force is that of the slot BOOT_PTR names. -/
def settleCast (s : State) : State :=
  if !castOpen s then s
  else
    let slot := if bootPtr s = 2 then 2 else 1
    let old := match lastMarker s with | some r => r.fmt | none => 0
    let s := logEvent 0x14 [1, slot] (lifeAdd s 3 1)
    setAppend { kind := 4, key := 0xFFFF, fmt := old, seq := 0 } s

/-! ### Load attempts (R36, R37) -/

/-- The host's turn comes once step 6 has ended (R37). -/
def hostTurn (s : State) : State :=
  if s.core.load == .host && s.core.hbmDone && bootStep s == 5 then setBoot Fld.GLOBAL_BOOT_STAT_WAIT_HOST 1 s else s
/-- An attempt begins at step 5. -/
def attemptBegin (src : LoadSrc) (second : Bool) (queue : List LoadSrc) (s : State) : State :=
  let n := fget s Reg.GLOBAL_BOOT_STAT Fld.GLOBAL_BOOT_STAT_ATTEMPTS
  let s := setStep 5 (setBoot Fld.GLOBAL_BOOT_STAT_ATTEMPTS (min 255 (n + 1)) s)
  hostTurn { s with core := { s.core with load := src, second := second, loadQueue := queue, streamDone := false } }
/-- The boot pointer and the anti-rollback counter are read by the vote of 17 R440: copies that it cannot settle are
rewritten, and LIFE_VOTE is raised. -/
def readPointers (s : State) : State :=
  let va := vote 0 (copiesOf4 s arbBase)
  let vb := vote 1 (copiesOf4 s bootPtrBase)
  let s := mramScan arbBase 24 s
  let s := if va.2 then write3 s arbBase va.1 else s
  let s := if vb.2 then write3 s bootPtrBase vb.1 else s
  let s := rsetN (rsetN s Reg.IMG_BOOT_PTR (vb.1 % 4)) Reg.IMG_ARB_COUNT va.1
  if va.2 || vb.2 then raise Src.lifeVote [0] s else s
/-- Step 5 begins: the sources of Table 2.4 in order. -/
def beginStep5 (s : State) : State :=
  let other (x : LoadSrc) : LoadSrc := if x == .slotA then .slotB else .slotA
  let first := slotSrc (bootPtr s)
  let s := readPointers s
  if s.core.modeSel = 0 then attemptBegin first false [other first, .plinth] s
  else if s.core.modeSel = 3 then attemptBegin .plinth false [] s
  else attemptBegin .host false [.plinth] s
/-- An attempt fails with a code (R35, R36). -/
def attemptFail (code : Nat) (s : State) : State :=
  let c := s.core
  let s := setBoot Fld.GLOBAL_BOOT_STAT_FAIL_CODE (if c.load == .plinth then 9 else code) s
  let s := setBoot Fld.GLOBAL_BOOT_STAT_WAIT_HOST 0 s
  let s := logEvent 3 [loadCode c.load, code, fget s Reg.GLOBAL_BOOT_STAT Fld.GLOBAL_BOOT_STAT_ATTEMPTS] s
  let s := { s with core := { s.core with streamDone := false, hbmDone := if code = 6 ∨ code = 7 then false else c.hbmDone } }
  if c.safeReq then enterSafe true s
  else if (c.load == .slotA || c.load == .slotB) && !c.second then attemptBegin c.load true c.loadQueue s
  else match c.loadQueue with
    | q :: t => attemptBegin q false t s
    | [] => enterSafe true s
/-- The purpose that the attempt asks for (R35, R38), and the size of its source in units of 4 KiB. -/
def attemptPurpose (s : State) : Nat :=
  if s.core.load == .plinth then 2 else if s.core.load == .host && s.core.modeSel == 2 then 1 else 0
def attemptUnits (s : State) : Nat :=
  if s.core.load == .plinth then 4096 else if s.core.load == .host then s.core.hostLen else 12288
/-- The verdict of R35 on the hashed image: its code, the armature's violation, the armature. -/
def attemptVerdict (s : State) : Nat × (Nat × Nat) × Img :=
  imageFail s s.core.hashed (attemptUnits s) (attemptPurpose s) (arbCount s)
/-- Step 7 ends: every check but that of the armature (R35). -/
def checkStep (s : State) : State :=
  let f := (attemptVerdict s).1
  if f ≠ 0 ∧ f ≠ 8 then attemptFail f s else if s.core.safeReq then enterSafe true s else setStep 8 s
/-- Step 8 ends: the armature is applied, or a block has rejected its section (R38, R45, R63). -/
def applyStep (s : State) : State :=
  let f := attemptVerdict s
  if f.1 ≠ 0 then
    attemptFail f.1 (if f.1 = 8 then rsetN s Reg.IMG_ARM_STAT (f.2.1.1 % 65536 * 65536 + f.2.1.2 % 256 * 256) else s)
  else
    let s := setModeF Fld.GLOBAL_MODE_SLOT (loadCode s.core.load) (applyImage s.core.hashed f.2.2 s)
    if s.core.load == .plinth || s.core.safeReq then enterSafe false s else setStep 9 s
/-- Step 9 ends: the Keep region is restored, and step 10 samples ARB_ROLE (R39). A factory image restores nothing. -/
def restoreStep (s : State) : State :=
  let factory := attemptPurpose s == 1
  let s := if factory then s else keepRestore s
  if s.core.safeReq then enterSafe false s
  else enterService (if factory then .factory else if bitOf 9 s.core.filtered.toNat then .active else .standby) s
/-- What follows the end of step 5 or of step 6: SAFE where the host has asked for it, step 7 once both have ended; STEP
shows 6 where step 6 alone still runs. -/
def stepEnd (s : State) : State :=
  let c := s.core
  if c.safeReq && c.streamDone then enterSafe true s
  else if c.streamDone && c.hbmDone then setStep 7 s
  else if c.streamDone then setStep 6 s
  else s
/-- Steps 5 and 6 run. -/
def loading (s : State) : Bool := inColdBoot s && (bootStep s == 5 || bootStep s == 6)
/-- The last byte of a flash source has been streamed; the flash may not have answered. -/
def streamDone (ok : Bool) (s : State) : State :=
  let c := s.core
  if !loading s || c.load == .host || c.streamDone then s
  else
    let units := if c.load == .plinth then 4096 else 12288
    let raw := rawOf (flashRun s (slotBase c.load)) units
    if !ok || headerBad raw units then attemptFail 2 s
    else stepEnd (stage raw { s with core := { c with streamDone := true } })
/-- Step 6 ends: HBM trained, SerDes calibrated, or not. -/
def trainDone (hbm serdes : Bool) (s : State) : State :=
  if !loading s || s.core.hbmDone then s
  else if !hbm then attemptFail 6 s
  else
    let s := fset s Reg.QM_HBM_STAT Fld.QM_HBM_STAT_UP 15
    if !serdes then attemptFail 7 s
    else
      let s := { s with core := { s.core with hbmDone := true } }
      if s.core.load == .host && s.core.safeReq then enterSafe true s else stepEnd (hostTurn s)
/-- A GO of the host (R37, Table 2.13). -/
def hostGo (len : Nat) (s : State) : State :=
  if !fbit s Reg.GLOBAL_BOOT_STAT Fld.GLOBAL_BOOT_STAT_WAIT_HOST || len == 0 || decide (12288 < len) then s
  else setStep 7 (setBoot Fld.GLOBAL_BOOT_STAT_WAIT_HOST 0 { s with core := { s.core with
    hostLen := len, hashed := rawOf (stagingRun s) len } })

/-! ### SAFE request, resets (R46, R47, R49, R51) -/

/-- A SAFE request: at once in service and in the two waits, at the end of the step in BOOT. What it does in the cast form is
not stated: the device enters SAFE at once, and keeps the image whose armature is in force (DESIGN CHOICE, log entry 58). -/
def safeRequest (s : State) : State :=
  if inService s || inCast s then enterSafe false s
  else if !inColdBoot s then s
  else if fbit s Reg.GLOBAL_MODE Fld.GLOBAL_MODE_HEAT || fbit s Reg.GLOBAL_BOOT_STAT Fld.GLOBAL_BOOT_STAT_WAIT_HOST then
    enterSafe true s
  else { s with core := { s.core with safeReq := true } }

/-- Bytes of the data port. -/
def setBytes (s : State) (n : Nat) : List Nat :=
  (List.range n).map (fun i => cget 0 s.upd.setBuf (i / 4) / 256 ^ (i % 4) % 256)
def setFits (l : List SetRec) (r : SetRec) : Bool := decide (setUsed (l ++ [r]) ≤ 2 ^ 23)
/-- A reset cuts the settings operation that runs: a record being written stands without its commit word (18 R459). One that
would have compacted leaves the bank in use intact (R462). -/
def setCut (s : State) : State :=
  match s.upd.setOp with
  | some (op, key) =>
    let r : SetRec := { kind := if op = 1 then 0 else 1, key, fmt := fmtNow s, seq := 0, commit := false
                        data := if op = 1 then setBytes s (fget s Reg.IMG_SET_LEN Fld.IMG_SET_LEN_LEN) else [] }
    if op ≠ 2 ∧ setFits s.long.settings r then setAppend r s else s
  | none => s
/-- What every reset sets: the registers that `p` does not keep, and all state of the blocks. -/
def resetBlocks (p : Nat → Bool) (s : State) : State :=
  let s := mediaOff (keepRegs p (setCut (flashEffect s)))
  { s with
    img := {}, upd := {}, eng := {}
    fab := { s.fab with latches := [], perMaster := [], granted := [], held := s.fab.held.filter (fun r => r.master == 0 || r.master == 8)
                        hung := s.fab.hung.filter (fun h => h.master == 0 || h.master == 8)
                        issued := s.fab.issued.filter (fun r => r.master == 0 || r.master == 8) }
    test := { s.test with inj := none, stalled := [], lfsr := 0 }
    pat := { s.pat with keepBank := none, keepGen := 0, keepPos := 0, keepFlush := 0, keepSnap := []
                        dirty := [], clearHeld := false, finalOpen := [], finalItems := [], needSnap := false, flushes := [], snapJob := none, conds := [] }
    core := { s.core with load := .slotA, second := false, loadQueue := [], streamDone := false, hbmDone := false, safeReq := false
                          hashed := [], heatPast := false, undriven := false
                          hostLen := 0, bridgeN2S := 0, bridgeS2N := 0, faultN := .high, mgmtAlertN := .high } }
/-- The cause of an entry to BOOT, one bit (R52). -/
def setCause (i : Nat) (s : State) : State := rsetN s Reg.GLOBAL_RESET_CAUSE (2 ^ i)
/-- Entry to the cold form of BOOT at step 1: MODE_SEL sampled, mode BOOT. -/
def coldEntry (cause : Nat) (s : State) : State :=
  let s := setModeF Fld.GLOBAL_MODE_BOOT_SRC s.core.modeSel (setMode s .boot)
  let s := setCause cause (setStep 1 s)
  let s := rsetN (rsetN s Reg.IMG_BOOT_PTR (bootPtr s)) Reg.IMG_ARB_COUNT (arbCount s)
  refreshPins (settleCast s)
/-- Registers that a soft reset leaves: PCIe and MSI-X, the sensors, the Patina writer's (Table 2.7). -/
def softKeeps (a : Nat) : Bool :=
  blockOf a == .msix || a == Reg.FABRIC_PCIE_STAT || a == Reg.GLOBAL_TJ || a == Reg.PAT_SEQ_LO || a == Reg.PAT_SEQ_HI
    || a == Reg.PAT_TOKENS || a == Reg.PAT_STAT || a == Reg.GLOBAL_CLK_LOCK || a == Reg.FABRIC_OUTST 0 || a == Reg.FABRIC_OUTST 8
/-- Soft reset: cold-form BOOT at step 1 (R49, R51). HBM content becomes undefined. -/
def softReset (s : State) : State :=
  if mode s == .reset then s
  else
    let pcie := fget s Reg.GLOBAL_CLK_LOCK Fld.GLOBAL_CLK_LOCK_PCIE
    let s := resetBlocks softKeeps (leaveTest (setMode s .boot))
    let s := fset (rsetN s Reg.GLOBAL_CLK_LOCK 0) Reg.GLOBAL_CLK_LOCK Fld.GLOBAL_CLK_LOCK_PCIE pcie
    let s := patStat Fld.PAT_STAT_KEEP_OK false (patStat Fld.PAT_STAT_FINAL false s)
    let s := { s with q := { lost := s.q.lost + 1 } }
    coldEntry 3 (refreshOutst s)
/-- Hard reset: the device is in RESET; the aon domain keeps MRAM, counters and the POWER_FAIL_N filter. HBM content is lost
(R51, R48, 17 R425, 21 R519). -/
def enterReset (s : State) : State :=
  let pf := rgetN s Reg.PAT_STAT &&& 0x30
  let s := masterReset 8 s
  let s := resetBlocks (fun a => a == Reg.PINCTL_FILT 10) s
  let s := { s with
    pat := { s.pat with pendingRecs := [], inFlight := none, lost := 0, lostFirst := 0, lostLast := 0 }
    q := { lost := s.q.lost + 1 }
    fab := { i2cStatus := s.fab.i2cStatus, i2cData := s.fab.i2cData, mgmtAddr := s.fab.mgmtAddr }
    test := { jtagIr := 0xFF, jtagBypass := s.test.jtagBypass, boundary := s.test.boundary }
    core := { s.core with flashWpN := .hiz, qspiCsN := .hiz, qspiClk := .hiz, undriven := true, thermTrip := .hiz, arbBeat := .hiz, switchWin := .hiz, refAlmN := .hiz } }
  refreshPins (rsetN (setMode s .reset) Reg.PAT_STAT pf)

/-! ### Temperature (R47, 21 R521) -/

/-- The state of R34: the ctl synthesiser has not locked in time. It is left by RESET_N or loss of power only. -/
def ctlStuck (s : State) : Bool :=
  inColdBoot s && bootStep s == 1 && fget s Reg.GLOBAL_BOOT_STAT Fld.GLOBAL_BOOT_STAT_FAIL_CODE == 1
/-- The device trips at 130 °C: once, until the next RESET. -/
def thermalTrip (s : State) : State :=
  if s.core.thermTrip == .low then s
  else
    let s := { s with core := { s.core with thermTrip := .low } }
    let s := emit (logEvent 4 [rgetN s Reg.GLOBAL_TJ] (lifeAdd s 6 1)) (.pin "THERM_TRIP_N" 0)
    if mode s == .safe || ctlStuck s then s else enterSafe false s
/-- The sensors' coldest and hottest readings, in eighths of a degree. -/
def tjReading (tmin tmax : Int) (s : State) : State :=
  if mode s == .reset then s
  else
    let s := { s with pat := { s.pat with bands := (bandNow s :: bandOf tmax :: s.pat.bands).eraseDups } }
    let s := rsetN s Reg.GLOBAL_TJ (ofInt 16 tmin * 65536 + ofInt 16 tmax)
    if 1040 ≤ tmax then thermalTrip s else s

end Sys2Proof.Machine
end

