-- ==== Sys2Proof/Machine/Boot.lean ====
section
/-! DEFINITION. Power, RESET, the steps of a cold boot, SAFE and soft reset on request, temperature, synthesisers, the die
bridge, glitch filters (01_architecture.md R12, R18; 02_modes_boot.md R30-R52; 21_pins_electrical.md R504, R510, R521). -/

namespace Sys2Proof.Machine

/-! ### Power and RESET (R30, R31, R52, 21 R504) -/

/-- A cause of a coming entry to BOOT is noted. -/
def noteCause (i : Nat) (s : State) : State :=
  { s with core := { s.core with causes := BitVec.ofNat 6 (withBits i i 1 s.core.causes.toNat) } }
/-- Into RESET, unless it already holds. -/
def intoReset (s : State) : State := if mode s == .reset then s else enterReset s
/-- VHOLD appears, and the words `bad` of the MRAM hold errors (0 correctable, 1 uncorrectable, 2 failed cells): all but
MRAM, flash and the settings store starts anew; every supply counts as outside its limits until its monitor judges it
within; the aon domain reads the lifetime counters (17 R440). -/
def powerOn (addr : Nat) (bad : List (Nat × Nat)) (s : State) : State :=
  let of_ (k : Nat) : List Nat := (bad.filter (fun e => e.2 == k)).map (·.1)
  let halves := (of_ 1 ++ of_ 2).flatMap (fun w => [2 * w, 2 * w + 1])
  let t : State := {
    pending := s.pending, out := s.out, fresh := s.fresh, long := { s.long with
      protect := false, mramBad := (s.long.mramBad ++ halves).eraseDups
      mramSoft := (s.long.mramSoft ++ of_ 0).eraseDups, mramDead := (s.long.mramDead ++ of_ 2).eraseDups }
    q := { lost := s.q.lost + 1 }, fab := { mgmtAddr := addr }
    core := { resetN := false, supplyOk := 0, causes := 1, undriven := true, faultN := .hiz, mgmtAlertN := .hiz
              arbBeat := .hiz, switchWin := .hiz, refAlmN := .hiz, flashWpN := .hiz, qspiCsN := .hiz, qspiClk := .hiz } }
  loadLife { setMode { t with regs := [] } .reset with test := {} }
/-- A supply's monitor judges it outside its limits. -/
def supplyOut (i : Nat) (s : State) : State :=
  let s := { s with core := { s.core with supplyOk := BitVec.ofNat 9 (withBits i i 0 s.core.supplyOk.toNat) } }
  intoReset (noteCause 2 s)
/-- A supply's monitor judges it within its limits. -/
def supplyIn (i : Nat) (s : State) : State :=
  { s with core := { s.core with supplyOk := BitVec.ofNat 9 (withBits i i 1 s.core.supplyOk.toNat) } }
/-- RESET_N seen low. -/
def resetLow (s : State) : State :=
  intoReset (noteCause 1 { s with core := { s.core with resetN := false } })
/-- The first cause of R52's list among those noted. -/
def firstCause (c : Nat) : Nat := if bitOf 0 c then 0 else if bitOf 2 c then 2 else 1
/-- RESET ends: straps sampled, BOOTS counted and written, the write protection lifted, the token bucket full, the journal's
head found, step 1 (R32, R33; 17 R426, R427, R432, R439, R440; 19 R486). -/
def resetRelease (sel addr : Nat) (s : State) : State :=
  if !(mode s == .reset) || s.core.supplyOk != 0x1FF then s
  else
    let cause := firstCause s.core.causes.toNat
    let s := { s with
      long := { s.long with protect := false }, fab := { s.fab with mgmtAddr := addr }
      core := { s.core with resetN := true, modeSel := sel, causes := 0, sinceReset := 0 } }
    let s := rsetN (patStat Fld.PAT_STAT_PF false (patStat Fld.PAT_STAT_SEALED false s)) Reg.PAT_TOKENS 4096
    let s := { s with core := { s.core with
      undriven := false, arbBeat := .low, switchWin := .low, refAlmN := .high, flashWpN := .low, qspiCsN := .high, qspiClk := .low } }
    let s := findHead (coldEntry cause (writeLife (lifeAdd s 1 1)))
    let s := if s.pat.voteBad then raise Src.lifeVote [0] { s with pat := { s.pat with voteBad := false } } else s
    mramReport s.pat.corrSeen s.pat.badSeen { s with pat := { s.pat with badSeen := 0, corrSeen := 0 } }

/-! ### Steps 1 to 5 (R33, R34, R41) -/

/-- ctl and eng have locked: step 2. -/
def clocksLocked (s : State) : State :=
  if !inColdBoot s || bootStep s != 1 || ctlStuck s then s
  else
    let k := Reg.GLOBAL_CLK_LOCK
    setStep 2 (fset (fset s k Fld.GLOBAL_CLK_LOCK_CTL 1) k Fld.GLOBAL_CLK_LOCK_ENG 1)
/-- 10 ms after step 1 the ctl synthesiser has not locked (R34). -/
def ctlTimeout (s : State) : State :=
  if inColdBoot s && bootStep s == 1 && !fbit s Reg.GLOBAL_CLK_LOCK Fld.GLOBAL_CLK_LOCK_CTL then
    setBoot Fld.GLOBAL_BOOT_STAT_FAIL_CODE 1 s else s
/-- The heat phase is under way. -/
def heating (s : State) : Bool := inColdBoot s && fbit s Reg.GLOBAL_MODE Fld.GLOBAL_MODE_HEAT
/-- The 10 ms reading of the heat phase: −20 °C or above ends it. -/
def heatRead (s : State) : State :=
  if heating s && decide (-160 ≤ sext 16 (fget s Reg.GLOBAL_TJ Fld.GLOBAL_TJ_TJ_MIN)) then
    beginStep5 (setModeF Fld.GLOBAL_MODE_HEAT 0 s) else s
/-- 900 s of heating. -/
def heatSlow (s : State) : State :=
  if heating s then refreshPins (setBoot Fld.GLOBAL_BOOT_STAT_HEAT_SLOW 1 { s with core := { s.core with heatPast := true } })
  else s
/-- Step 3 ends: Tj is read, and the heat phase or step 5 begins (R41); a SAFE request ends either (R46). -/
def readTj (s : State) : State :=
  if s.core.safeReq then enterSafe true s
  else if sext 16 (fget s Reg.GLOBAL_TJ Fld.GLOBAL_TJ_TJ_MIN) < -160 then
    setModeF Fld.GLOBAL_MODE_HEAT 1 { s with core := { s.core with heatPast := false } }
  else beginStep5 s
/-- The boot sequencer ends the step under way, where nothing outside the device ends it: steps 2, 3, 7, 8 and 9 (R33,
R46; log entry 70). -/
def bootTick (s : State) : State :=
  if !inColdBoot s then s
  else match bootStep s with
    | 2 => if s.core.safeReq then enterSafe true s else setStep 3 s
    | 3 => if heating s then s else readTj s
    | 7 => checkStep s
    | 8 => applyStep s
    | 9 => restoreStep s
    | _ => s
/-- One tick of the time clock, on which the boot sequencer moves too. -/
def tick (s : State) : State := bootTick (advanceTicks 1 s)

/-! ### Requests (R37, R46, R49) -/

/-- A write of GLOBAL_RESET_CTRL: the key, SAFE before SOFT (R28, R49). -/
def resetCtrlWrite (w : Nat) (s : State) : State :=
  if w / 65536 ≠ 0xA5C3 then s else if bitOf 1 w then safeRequest s else if bitOf 0 w then softReset s else s
/-- A write of GLOBAL_HOST_BOOT. -/
def hostBootWrite (w : Nat) (s : State) : State := if bitOf 0 w then hostGo (bitsOf 29 16 w) s else s

/-! ### Synthesisers and the die bridge (01 R12, R18) -/

/-- A synthesiser loses lock. -/
def synthLoss (i : Nat) (s : State) : State :=
  let k := Reg.GLOBAL_CLK_LOCK
  if mode s == .reset || !bitOf i (rgetN s k) then s
  else
    let s := rsetN s k (withBits i i 0 (rgetN s k))
    let on := inService s && !(unlockedClocks s).isEmpty && !(Src.clkUnlock ∈ s.pat.conds)
    let s := if on then { s with pat := { s.pat with conds := s.pat.conds ++ [Src.clkUnlock] } } else s
    raise Src.clkUnlock [i] s
/-- A synthesiser locks. -/
def synthLock (i : Nat) (s : State) : State :=
  let k := Reg.GLOBAL_CLK_LOCK
  if mode s == .reset then s else clockCond (rsetN s k (withBits i i 1 (rgetN s k)))
/-- Failed arrivals in a row of the transfer in flight, by direction. -/
def bridgeRun (d : Nat) (s : State) : Nat := if d = 0 then s.core.bridgeN2S else s.core.bridgeS2N
def setBridgeRun (d n : Nat) (s : State) : State :=
  { s with core := if d = 0 then { s.core with bridgeN2S := n } else { s.core with bridgeS2N := n } }
/-- A transfer arrives in a trained direction: one that fails its CRC is resent and counted; the 16th consecutive failed
resend raises BRIDGE_FAIL. Whether the direction then stops being up is not stated: its UP bit stays 1, transfers go on, and
no condition is held (DESIGN CHOICE, log entry 72). -/
def bridgeTransfer (d : Nat) (bad : Bool) (s : State) : State :=
  if !bitOf d (rgetN s Reg.GLOBAL_BRIDGE_STAT) then s
  else
    let r := checkFails 6 d bad s
    if !r.1 then setBridgeRun d 0 r.2
    else
      let n := bridgeRun d r.2 + 1
      let s := count (setBridgeRun d n r.2) Reg.GLOBAL_BRIDGE_RETRY
      if n = 17 then raise Src.bridgeFail [0] (fset s Reg.GLOBAL_BRIDGE_STAT Fld.GLOBAL_BRIDGE_STAT_FAILED 1) else s
/-- A direction of the bridge has trained. -/
def bridgeTrained (d : Nat) (s : State) : State :=
  let a := Reg.GLOBAL_BRIDGE_STAT
  if mode s == .reset then s else bridgeCond (setBridgeRun d 0 (rsetN s a (withBits d d 1 (rgetN s a))))

/-! ### Meanings -/

/-- AON_POWER_ON (R52); `addr` is MGMT_ADDR, `bad` the 64-bit words of the MRAM that hold errors from now on: 0 one that
is corrected, 1 uncorrectable until written, 2 uncorrectable for good (17 R423). -/
def execAonPowerOn (addr : BitVec 3) (bad : List (Fin 4194304 × Fin 3)) (s : State) : Out :=
  .next (powerOn addr.toNat (bad.map (fun e => (e.1.val, e.2.val))) s)
/-- SUPPLY_OUT_OF_LIMITS: supply i of Table 2.3 (21 R504). -/
def execSupplyOutOfLimits (i : Fin 9) (s : State) : Out := .next (supplyOut i s)
/-- SUPPLY_WITHIN_LIMITS (21 R504). -/
def execSupplyWithinLimits (i : Fin 9) (s : State) : Out := .next (supplyIn i s)
/-- RESET_N_LOW (R30). -/
def execResetNLow (s : State) : Out := .next (resetLow s)
/-- RESET_RELEASE: `sel` is MODE_SEL, `addr` MGMT_ADDR (R30, R32). -/
def execResetRelease (sel : Fin 4) (addr : BitVec 3) (s : State) : Out := .next (resetRelease sel addr.toNat s)
/-- BOOT_CLOCKS_LOCKED (R33). -/
def execBootClocksLocked (s : State) : Out := .next (clocksLocked s)
/-- CTL_LOCK_TIMEOUT (R34). -/
def execCtlLockTimeout (s : State) : Out := .next (ctlTimeout s)
/-- HEAT_TJ_READ (R41). -/
def execHeatTjRead (s : State) : Out := .next (heatRead s)
/-- HEAT_SLOW_TIMEOUT (R41). -/
def execHeatSlowTimeout (s : State) : Out := .next (heatSlow s)
/-- HBM_TRAIN_DONE: did HBM train, did the SerDes calibrate (R33). -/
def execHbmTrainDone (hbm serdes : Bool) (s : State) : Out := .next (trainDone hbm serdes s)
/-- IMAGE_STREAM_DONE: did the flash answer (R33, R35). -/
def execImageStreamDone (ok : Bool) (s : State) : Out := .next (streamDone ok s)
/-- HOST_BOOT_GO: a GO write of GLOBAL_HOST_BOOT with LEN_4K (R37). -/
def execHostBootGo (m : Fin 9) (len : BitVec 14) (s : State) : Out :=
  let w := len.toNat * 65536 + 1
  .next (hostWrite m Reg.GLOBAL_HOST_BOOT (w32 w) (hostBootWrite w) s)
/-- HOST_SAFE_REQUEST: a keyed write of GLOBAL_RESET_CTRL with SAFE, and SOFT or not (R46). -/
def execHostSafeRequest (m : Fin 9) (soft : Bool) (s : State) : Out :=
  let w := 0xA5C30002 + b2n soft
  .next (hostWrite m Reg.GLOBAL_RESET_CTRL (w32 w) (resetCtrlWrite w) s)
/-- SOFT_RESET: a keyed write of GLOBAL_RESET_CTRL with SOFT alone; `sel` is MODE_SEL as sampled (R32, R49). -/
def execSoftReset (m : Fin 9) (sel : Fin 4) (s : State) : Out :=
  .next (hostWrite m Reg.GLOBAL_RESET_CTRL 0xA5C30001
    (fun s => resetCtrlWrite 0xA5C30001 { s with core := { s.core with modeSel := sel } }) s)
/-- TJ_SENSOR_READING: coldest and hottest sensor in eighths of a degree (21 R521). -/
def execTjSensorReading (tmin tmax : Int) (s : State) : Out := .next (tjReading tmin tmax s)
/-- SYNTH_LOSS_OF_LOCK (01 R18). -/
def execSynthLossOfLock (i : Fin 9) (s : State) : Out := .next (synthLoss i s)
/-- SYNTHESISER_LOCK: synthesiser i + 2 of GLOBAL_CLK_LOCK, any but ctl and eng (01 R18). Those two lock at boot step 1
(BOOT_CLOCKS_LOCKED); whether either can lock again after a loss in service the spec does not say, and no command of the
model sets their bits there (DESIGN CHOICE, log entry 67). -/
def execSynthesiserLock (i : Fin 7) (s : State) : Out := .next (synthLock (i + 2) s)
/-- BRIDGE_TRANSFER: direction 0 north to south, 1 south to north; was the transfer damaged (01 R12). -/
def execBridgeTransfer (d : Fin 2) (bad : Bool) (s : State) : Out := .next (bridgeTransfer d bad s)
/-- BRIDGE_DIRECTION_TRAINED (01 R12). -/
def execBridgeDirectionTrained (d : Fin 2) (s : State) : Out := .next (bridgeTrained d s)
/-- GLITCH_FILTER_EXPIRE: input i in the order of PINCTL_IN_LVL; in RESET only POWER_FAIL_N's filter runs (21 R510). -/
def execGlitchFilterExpire (i : Fin 15) (level : Bool) (s : State) : Out :=
  .next (if mode s == .reset && i != 10 then s else setFiltered i level s)

end Sys2Proof.Machine
end

