-- ==== Sys2Proof/Machine/UpdateFamily.lean ====
section
/-! DEFINITION. Flash operations, verifying a maquette, the CAST and CONFIRM commands, the confirm window, the settings
store (18_image_update.md R443-R465, Registers). The pause of a cast stands in CastFamily. -/

namespace Sys2Proof.Machine

def updStat (f : FieldRow) (v : Nat) (s : State) : State := fset s Reg.IMG_UPD_STAT f v
def updResult (n : Nat) (s : State) : State := updStat Fld.IMG_UPD_STAT_RESULT n s
def updFail (n : Nat) (s : State) : State := updStat Fld.IMG_UPD_STAT_FAIL_CODE n s
/-- The slot in use: 1 A, 2 B, 0 plinth or none, 3 host. -/
def slotInUse (s : State) : Nat := fget s Reg.GLOBAL_MODE Fld.GLOBAL_MODE_SLOT

/-! ### Flash (R443, R444) -/

/-- Region of a flash address, Table 18.1: 0 plinth, 1 slot A, 2 slot B, 3 settings store. -/
def flashRegion (x : Nat) : Nat := if x < 0x1000000 then 0 else if x < 0x4000000 then 1 else if x < 0x7000000 then 2 else 3
/-- May the host erase or program at x? -/
def flashWritable (s : State) (x : Nat) : Bool :=
  let r := flashRegion x
  (r == 1 || r == 2) && slotInUse s != r && !s.upd.windowOpen
def flStat (f : FieldRow) (v : Nat) (s : State) : State := fset s Reg.IMG_FL_STAT f v
/-- A write of IMG_FL_CTRL. -/
def flCtrlWrite (m w : Nat) (s : State) : State :=
  let op := w % 4
  if w / 65536 ≠ 0x4F4C then s
  else if fbit s Reg.IMG_FL_STAT Fld.IMG_FL_STAT_BUSY then flStat Fld.IMG_FL_STAT_IGNORED 1 s
  else if op = 0 then s
  else
    let x := fget s Reg.IMG_FL_ADDR Fld.IMG_FL_ADDR_ADDR
    if op ≠ 3 && !flashWritable s x then refuse m 1 (0x14000000 + x / 65536) Reg.IMG_FL_CTRL s
    else flStat Fld.IMG_FL_STAT_BUSY 1 { s with upd := { s.upd with flashOp := some (op, x) } }
/-- A page read into the buffer. The bytes of the settings store are not laid out by the spec: free values. -/
def flashLoad (x : Nat) (s : State) : State :=
  let x := x / 256 * 256
  let k := 2 ^ 32 + s.fresh
  let byte (i : Nat) : Nat := if flashRegion x = 3 then Config.lostByte k (x + i) % 256 else flashByte s (x + i)
  let s := if flashRegion x = 3 then spend s else s
  (List.range 64).foldl (fun s i =>
    rsetN s (Reg.IMG_FL_BUF i) (leNat ((List.range 4).map (fun j => byte (4 * i + j))))) s
/-- The content of a page or sector after a failed program or erase is not stated: free values. -/
def flashSpoil (op x : Nat) (s : State) : State :=
  let n := if op = 1 then 65536 else 256
  let x := x / n * n
  flashPut (spend s) x ((List.range n).map (fun i => Config.lostByte (2 ^ 32 + s.fresh) (x + i) % 256))
/-- VERIFIED of a slot. -/
def slotVerified (s : State) (slot : Nat) : Bool :=
  fbit s Reg.IMG_UPD_STAT (if slot = 2 then Fld.IMG_UPD_STAT_VERIFIED_B else Fld.IMG_UPD_STAT_VERIFIED_A)
def setVerified (slot v : Nat) (s : State) : State :=
  if slot = 1 then updStat Fld.IMG_UPD_STAT_VERIFIED_A v s
  else if slot = 2 then updStat Fld.IMG_UPD_STAT_VERIFIED_B v s else s
/-- A flash operation completes. -/
def flashDone (ok : Bool) (s : State) : State :=
  match s.upd.flashOp with
  | none => s
  | some (op, x) =>
    let s := flStat Fld.IMG_FL_STAT_BUSY 0 { s with upd := { s.upd with flashOp := none } }
    if op = 3 then flStat Fld.IMG_FL_STAT_DONE 1 (flashLoad x s)
    else
      let s := setVerified (flashRegion x) 0 s
      if ok then flStat Fld.IMG_FL_STAT_DONE 1 (flashApply op x s)
      else raise Src.flashErr [0, x] (flStat Fld.IMG_FL_STAT_ERR 1 (flashSpoil op x s))

/-! ### Verifying (R445) -/

/-- The checks of R35, R56, R57 and R58 on a slot, PURPOSE being Service; the armature is judged at the cast. -/
def slotCheck (s : State) (slot : Nat) (ok : Bool) : Nat × List Nat :=
  let raw := rawOf (flashRun s (slotBase (slotSrc slot))) 12288
  let f := (imageFail s raw 12288 0 (arbCount s)).1
  (if !ok then 2 else if f = 8 then 0 else f, raw)
/-- A verify, a flash operation or a cast runs. -/
def updBusy (s : State) : Bool :=
  s.upd.verifying.isSome || s.upd.flashOp.isSome || s.upd.cast.isSome
/-- OP VERIFY. -/
def verifyStart (slot : Nat) (s : State) : State :=
  if updBusy s then updResult 9 s
  else updResult 0 { s with upd := { s.upd with verifying := some (slot - 1) } }
/-- The verify ends; `ok` says whether the flash answered. A slot that an erase or a program has reached meanwhile is not
verified. -/
def verifyDone (ok : Bool) (s : State) : State :=
  match s.upd.verifying with
  | none => s
  | some b =>
    let slot := b + 1
    let c := slotCheck s slot ok
    let s := updFail c.1 { s with upd := { s.upd with verifying := none } }
    let hit := match s.upd.flashOp with | some (op, x) => op != 3 && flashRegion x == slot | none => false
    let s := if c.1 = 0 then rsetN (if hit then s else setVerified slot 1 s) Reg.IMG_MAQ_ARB (imgIndex c.2) else s
    let s := logEvent 0x10 [slot, c.1, imgIndex c.2] s
    if c.1 = 0 then s else raise Src.maqVerifyFail [0, slot, c.1] s

/-! ### CAST (R446, R447) -/

/-- The first condition of Table 18.2 that fails for CAST, 0 where all hold. -/
def castCode (s : State) (slot : Nat) (force : Bool) : Nat :=
  if !inRole s then 1
  else if !slotVerified s slot || slotInUse s == slot then 2
  else if s.upd.windowOpen || s.upd.cast.isSome then 3
  else if pairInUse s && mode s == .active && !force then 4
  else if updBusy s then 9 else 0
/-- OP CAST. -/
def castStart (slot : Nat) (force nocarry : Bool) (s : State) : State :=
  let c := castCode s slot force
  let s := updResult c s
  if c = 0 then { s with upd := { s.upd with cast := some (slot, nocarry, false), preloaded := false } } else s
/-- The preload ends: the slot's bytes stand in the staging area, or the cast ends. -/
def preloadDone (ok : Bool) (s : State) : State :=
  match s.upd.cast with
  | none => s
  | some (slot, _, back) =>
    if !inRole s || s.upd.preloaded then s
    else
      let c := slotCheck s slot ok
      let s := updFail c.1 s
      if c.1 = 0 then stage c.2 { s with upd := { s.upd with preloaded := true } }
      else
        let s := { s with upd := { s.upd with cast := none } }
        if back then raise Src.fallbackFail [0, slot, c.1] s else raise Src.castFail [0, slot, c.1] (updResult 5 s)

/-! ### CONFIRM and the window (R454-R456) -/

/-- The first condition of Table 18.2 that fails for CONFIRM. -/
def confirmCode (s : State) : Nat :=
  if !inRole s then 1 else if s.core.arbHealth ≠ 3 then 7
  else if slotInUse s ≠ 1 ∧ slotInUse s ≠ 2 then 8 else if updBusy s then 9 else 0
/-- OP CONFIRM. -/
def confirm (s : State) : State :=
  let c := confirmCode s
  let s := updResult c s
  if c ≠ 0 then s
  else
    let slot := slotInUse s
    let before := arbCount s
    let s := { s with upd := { s.upd with windowOpen := false } }
    let s := setArbCount (rgetN s Reg.IMG_ACT_ARB) (setBootPtr slot s)
    let s := rsetN (rsetN s Reg.IMG_BOOT_PTR (bootPtr s % 4)) Reg.IMG_ARB_COUNT (arbCount s)
    logEvent 0x13 [slot, before, arbCount s] (putMarker 3 [] s)
/-- The window expires: the fall-back begins, with its fault, count, record and marker (R456, R464), and its preload runs.
Outside service the window only closes (log entry 47). -/
def windowExpire (s : State) : State :=
  if !s.upd.windowOpen then s
  else
    let s := advanceTicks (s.upd.windowAt + windowTicks - nowTicks s) s
    let s := { s with upd := { s.upd with windowOpen := false } }
    if inRole s then
      let slot := s.upd.previous
      let s := { s with upd := { s.upd with cast := some (slot, false, true), preloaded := false } }
      raise Src.fallback [0, slot] (putMarker 4 [] (logEvent 0x14 [0, slot] (lifeAdd s 3 1)))
    else s
/-- A write of IMG_UPD_CTRL. -/
def updCtrlWrite (w : Nat) (s : State) : State :=
  let slot := if bitOf 4 w then 2 else 1
  if w / 65536 ≠ 0xC457 then s
  else if w % 16 = 1 then verifyStart slot s
  else if w % 16 = 2 then castStart slot (bitOf 8 w) (bitOf 9 w) s
  else if w % 16 = 3 then confirm s else s

/-! ### The settings store (R459-R462) -/

/-- The newest record of a KEY and FMT, data or tombstone. -/
def setNewest (l : List SetRec) (key fmt : Nat) : Option SetRec :=
  (l.filter (fun r => setGood r && decide (r.kind ≤ 1) && r.key == key && r.fmt == fmt)).getLast?
/-- The kept set: the FMT in force, and after a CAST marker the old and the new one. -/
def keptFmts (s : State) : List Nat :=
  match lastMarker s with
  | some r => if r.kind = 2 then [r.fmt, leNat r.data] else [fmtNow s]
  | none => [fmtNow s]
/-- What a compaction copies: the newest record of each KEY and FMT in the kept set, no tombstone, and the last marker. -/
def setLive (s : State) : List SetRec :=
  let l := s.long.settings
  l.filter (fun r =>
    (setGood r && r.kind == 0 && (keptFmts s).contains r.fmt && setNewest l r.key r.fmt == some r) || lastMarker s == some r)
/-- Append a record, compacting where the bank in use cannot hold it. -/
def setPut (r : SetRec) (s : State) : State :=
  if setFits s.long.settings r then setResult 0 (setAppend r s)
  else
    let live := setLive s
    if setFits live r then
      let b := 1 - s.long.setBank
      let s := { s with long := { s.long with setBank := b, settings := live } }
      logEvent 0x15 [b, live.length] (setResult 0 (setAppend r s))
    else raise Src.settingsFull [0] (setResult 2 s)
/-- Bytes into the data port. -/
def setLoad (bs : List Nat) (s : State) : State :=
  let ws := (chunks 4 bs).map leNat
  fset { s with upd := { s.upd with setBuf := csetRun 0 [] 0 ws } } Reg.IMG_SET_LEN Fld.IMG_SET_LEN_LEN bs.length
/-- A settings operation finishes. -/
def setDone (s : State) : State :=
  match s.upd.setOp with
  | none => s
  | some (op, key) =>
    let s := { s with upd := { s.upd with setOp := none } }
    if op = 2 then
      match setNewest s.long.settings key (rgetN s Reg.IMG_SET_FMT) with
      | some r => if r.kind = 0 then setResult 0 (setLoad r.data s) else setResult 1 s
      | none => setResult 1 s
    else if op = 1 then
      setPut { kind := 0, key, fmt := fmtNow s, seq := 0, data := setBytes s (fget s Reg.IMG_SET_LEN Fld.IMG_SET_LEN_LEN) } s
    else setPut { kind := 1, key, fmt := fmtNow s, seq := 0 } s
/-- A write of IMG_SET_CTRL: the word pointer returns to 0; one operation at a time; in BOOT it waits. -/
def setCtrlWrite (w : Nat) (s : State) : State :=
  if fbit s Reg.IMG_SET_STAT Fld.IMG_SET_STAT_BUSY then s
  else
    let s := { s with upd := { s.upd with setPtr := 0 } }
    let op := w % 4
    if op = 0 then s
    else if mode s = .boot then
      fset { s with upd := { s.upd with setWaiting := some (op, w / 65536) } } Reg.IMG_SET_STAT Fld.IMG_SET_STAT_BUSY 1
    else setBegin op (w / 65536) s
/-- Words of the data port: those of 4,064 bytes. -/
def setWords : Nat := 1016
/-- An access to IMG_SET_DATA. -/
def setDataWrite (w : Nat) (s : State) : State :=
  let p := s.upd.setPtr
  { s with upd := { s.upd with setPtr := p + 1, setBuf := if p < setWords then cset 0 s.upd.setBuf p w else s.upd.setBuf } }
def setDataRead (s : State) : Nat × State :=
  let p := s.upd.setPtr
  (if p < setWords then cget 0 s.upd.setBuf p else 0, { s with upd := { s.upd with setPtr := p + 1 } })

/-! ### Register accesses of the IMG block -/

/-- A write of an IMG register: per-master copies, the update registers, plain fields (03, 18, Registers). -/
def imgWrite (m a : Nat) (w : Word) (s : State) : State :=
  let n := w.toNat
  if a = Reg.IMG_RB_ADDR then
    { s with fab := { s.fab with perMaster := cset 0 s.fab.perMaster (2 * m) (n &&& 0xFF1FFFFC) } }
  else if a = Reg.IMG_OWN_QUERY then { s with fab := { s.fab with perMaster := cset 0 s.fab.perMaster (2 * m + 1) n } }
  else if a = Reg.IMG_FL_CTRL then flCtrlWrite m n s
  else if a = Reg.IMG_UPD_CTRL then updCtrlWrite n s
  else if a = Reg.IMG_SET_CTRL then setCtrlWrite n s
  else if a = Reg.IMG_SET_DATA then setDataWrite n s
  else plainWrite a w s
/-- A read of IMG_RB_DATA: the word of the selected part of the image, and WORD advances (03 R78). -/
def rbRead (m : Nat) (s : State) : Nat × State :=
  let a := cget 0 s.fab.perMaster (2 * m)
  let sel := a / 2 ^ 24 % 256
  let off := a % 2 ^ 21 / 4 * 4
  let byte (i : Nat) : Nat :=
    if sel = 0 then (if off + i < 4096 then imgByte s.img (off + i) else 0)
    else match s.img.sections[sel - 1]? with
      | some c => if c.arm && decide (off + i < c.len) then imgByte s.img (c.off + off + i) else 0
      | none => 0
  let v := if fbit s Reg.IMG_ACT_INFO Fld.IMG_ACT_INFO_VALID then leNat ((List.range 4).map byte) else 0
  let next := a / 2 ^ 24 % 256 * 2 ^ 24 + (off + 4) % 2 ^ 21
  (v, { s with fab := { s.fab with perMaster := cset 0 s.fab.perMaster (2 * m) next } })
/-- A read of an IMG register. -/
def imgRead (m a : Nat) (s : State) : Nat × State :=
  if a = Reg.IMG_RB_DATA then rbRead m s else if a = Reg.IMG_SET_DATA then setDataRead s else plainRead m a s

/-! ### Meanings -/

/-- FLASH_ERASE: a keyed write of IMG_FL_CTRL with OP 1 at IMG_FL_ADDR (R444). -/
def execFlashErase (m : Fin 9) (s : State) : Out :=
  .next (hostWrite m Reg.IMG_FL_CTRL 0x4F4C0001 (flCtrlWrite m 0x4F4C0001) s)
/-- FLASH_PROGRAM (R444). -/
def execFlashProgram (m : Fin 9) (s : State) : Out :=
  .next (hostWrite m Reg.IMG_FL_CTRL 0x4F4C0002 (flCtrlWrite m 0x4F4C0002) s)
/-- FLASH_READ (R444). -/
def execFlashRead (m : Fin 9) (s : State) : Out :=
  .next (hostWrite m Reg.IMG_FL_CTRL 0x4F4C0003 (flCtrlWrite m 0x4F4C0003) s)
/-- FLASH_OP_DONE: did the flash report success (R444). -/
def execFlashOpDone (ok : Bool) (s : State) : Out := .next (flashDone ok s)
/-- MAQ_VERIFY: OP VERIFY of slot B or A (R445). -/
def execMaqVerify (m : Fin 9) (slotB : Bool) (s : State) : Out :=
  let w := 0xC4570001 + 16 * b2n slotB
  .next (hostWrite m Reg.IMG_UPD_CTRL (w32 w) (updCtrlWrite w) s)
/-- MAQ_VERIFY_DONE: did the flash answer (R445). -/
def execMaqVerifyDone (ok : Bool) (s : State) : Out := .next (verifyDone ok s)
/-- CAST: OP CAST of slot B or A with FORCE and NOCARRY (R446). -/
def execCast (m : Fin 9) (slotB force nocarry : Bool) (s : State) : Out :=
  let w := 0xC4570002 + 16 * b2n slotB + 256 * b2n force + 512 * b2n nocarry
  .next (hostWrite m Reg.IMG_UPD_CTRL (w32 w) (updCtrlWrite w) s)
/-- CAST_PRELOAD_DONE: did the flash answer (R447, R458). -/
def execCastPreloadDone (ok : Bool) (s : State) : Out := .next (preloadDone ok s)
/-- CONFIRM: OP CONFIRM (R455). -/
def execConfirm (m : Fin 9) (s : State) : Out :=
  .next (hostWrite m Reg.IMG_UPD_CTRL 0xC4570003 (updCtrlWrite 0xC4570003) s)
/-- CONFIRM_WINDOW_EXPIRE (R456). -/
def execConfirmWindowExpire (s : State) : Out := .next (windowExpire s)
/-- SETTINGS_WRITE: a write of IMG_SET_CTRL with OP 1 and KEY (R460). -/
def execSettingsWrite (m : Fin 9) (key : BitVec 16) (s : State) : Out :=
  let w := key.toNat * 65536 + 1
  .next (hostWrite m Reg.IMG_SET_CTRL (w32 w) (setCtrlWrite w) s)
/-- SETTINGS_READ (R460). -/
def execSettingsRead (m : Fin 9) (key : BitVec 16) (s : State) : Out :=
  let w := key.toNat * 65536 + 2
  .next (hostWrite m Reg.IMG_SET_CTRL (w32 w) (setCtrlWrite w) s)
/-- SETTINGS_DELETE (R460). -/
def execSettingsDelete (m : Fin 9) (key : BitVec 16) (s : State) : Out :=
  let w := key.toNat * 65536 + 3
  .next (hostWrite m Reg.IMG_SET_CTRL (w32 w) (setCtrlWrite w) s)
/-- SETTINGS_DATA_ACCESS: a write of a word, or a read (R460, Registers). -/
def execSettingsDataAccess (m : Fin 9) (w : Option Word) (s : State) : Out :=
  .next (match w with
    | some w => hostWrite m Reg.IMG_SET_DATA w (setDataWrite w.toNat) s
    | none => hostRead m Reg.IMG_SET_DATA setDataRead s)
/-- SETTINGS_OP_DONE (R460-R462). -/
def execSettingsOpDone (s : State) : Out := .next (setDone s)
/-- IMG_RB_DATA_READ (03 R78). -/
def execImgRbDataRead (m : Fin 9) (s : State) : Out := .next (hostRead m Reg.IMG_RB_DATA (rbRead m) s)

end Sys2Proof.Machine
end

