-- ==== Sys2Proof/Machine/CastFamily.lean ====
section
/-! DEFINITION. The pause of a cast: entry to the cast form of BOOT, what it keeps and resets, the carried values, the
resumption (18_image_update.md R448-R453, R456, Tables 18.3 and 18.4; 02 R39, R51; 15 R388). -/

namespace Sys2Proof.Machine

/-! ### What a new image leaves unchanged (Table 18.4) -/

/-- Same format of plane p, in use before and after. -/
def planeKept (old new : Img) (p : Nat) : Bool := planeUsed old p && planeUsed new p && planeFmt old p == planeFmt new p
/-- MAC port with unchanged split and speed. -/
def macKept (old new : Img) (m : Nat) : Bool :=
  portFormed old m && portFormed new m && groupSplit old (m / 4) == groupSplit new (m / 4) && portSpeed old m == portSpeed new m
/-- Receiver of lane v with unchanged lane and expected format. -/
def laneKept (old new : Img) (v : Nat) : Bool :=
  rxRuns old v && rxRuns new v && laneCfg old v == laneCfg new v && rxExpect old v == rxExpect new v
def dpKept (old new : Img) : Bool := dpPers old && dpPers new
/-- The SURF region keeps its content where each stack gives it the same offset and size. -/
def surfKept (old new : Img) : Bool :=
  let at_ (g : Img) (st : Nat) : Nat × Nat := ((List.range 4).foldl (fun a i => a + stackMib g st i) 0, stackMib g st 4)
  (List.range 4).all (fun st => at_ old st == at_ new st)

/-! ### Registers across a cast (Table 18.4, 02 Table 2.7) -/

/-- Does status of the register at a outlive step 3: what belongs to blocks that run on, and what the planes and the SDI
transmitters show until the plane resumes. -/
def castStatus (old new : Img) (a : Nat) : Bool :=
  match blockOf a with
  | .global | .fault | .patina | .img | .fabric | .msix | .pinctl => true
  | .plane => true
  | .time => decide (a < 0x00A00300)
  | .mac => macKept old new ((a - 0x00C00000) / 0x1000)
  | .vlane =>
    if a < 0x00420000 then (laneKept old new ((a - 0x00400000) / 0x100) && decide ((a - 0x00400000) % 0x100 < 8))
      || a == Reg.VLANE_TX_STAT ((a - 0x00400000) / 0x100)
    else dpKept old new
  | .xp => a == Reg.XP_TAKE_STAT || (decide (0x00230000 ≤ a) && decide (a < 0x00231000) && laneKept old new ((a - 0x00230000) / 8))
  | .aud => a == Reg.AUD_TAKE_STAT || a == Reg.AUD_SC_LO || a == Reg.AUD_SC_HI
  | .qm => a == Reg.QM_HBM_STAT
  | .eng => a == Reg.ENG_STAT || (decide (Reg.ENG_QUAR_MAP 0 ≤ a) && decide (a < Reg.ENG_QUAR_MAP 32))
  | _ => false
/-- RW values that a cast does not reset: MSI-X (19 R470), INCR and the output time's choice (15 R388); PAIR_CTRL and
PAIR_SIG_EXCL, which the host sets once for a pair's update with a cast in it (R463; DEDUCED, log entry 63). -/
def castRw (a : Nat) : Bool :=
  blockOf a == .msix || a == Reg.PAIR_CTRL || (decide (Reg.PAIR_SIG_EXCL 0 ≤ a) && decide (a < Reg.PAIR_SIG_EXCL 48)) || a == Reg.TIME_OT_CTRL || a == Reg.TIME_TK_INCR_LO 0 || a == Reg.TIME_TK_INCR_HI 0
    || a == Reg.TIME_TK_INCR_LO 1 || a == Reg.TIME_TK_INCR_HI 1
/-- One field across a cast: RWS and RC fields stay, RW fields return to reset, status as its block keeps it. -/
def castField (old new : Img) (a w : Nat) (f : FieldRow) (acc : Nat) : Nat :=
  let keep := match f.acc with
    | .rws | .rc => true
    | .rw => castRw a
    | .wo => false
    | .ro | .w1c => castStatus old new a
  if keep then withBits f.hi f.lo (bitsOf f.hi f.lo w) acc else acc
/-- A quarantined engine stays so; its cause and its uncorrectable mark stay (09 R253). A withheld beat stays withheld (16
R394). -/
def castSpecial (a w : Nat) (v : Nat) : Nat :=
  if blockOf a == .eng && decide (Reg.ENG_E_STAT 0 ≤ a) && (a - Reg.ENG_E_STAT 0) % 0x10 == 0 then
    let f (x : FieldRow) (acc : Nat) : Nat := withBits x.hi x.lo (bitsOf x.hi x.lo w) acc
    let v := f Fld.ENG_E_STAT_CAUSE (f Fld.ENG_E_STAT_UNCORR v)
    if bitsOf Fld.ENG_E_STAT_STATE.hi Fld.ENG_E_STAT_STATE.lo w = 2 then f Fld.ENG_E_STAT_STATE v else v
  else if blockOf a == .eng && decide (Reg.ENG_CLU_STAT 0 ≤ a) && decide (a < Reg.ENG_CLU_STAT 64)
      && (a - Reg.ENG_CLU_STAT 0) % 0x10 == 0 then
    withBits Fld.ENG_CLU_STAT_QUAR.hi Fld.ENG_CLU_STAT_QUAR.lo
      (bitsOf Fld.ENG_CLU_STAT_QUAR.hi Fld.ENG_CLU_STAT_QUAR.lo w) v
  else if a = Reg.PAIR_STAT then
    withBits Fld.PAIR_STAT_BEAT_HOLD.hi Fld.PAIR_STAT_BEAT_HOLD.lo
      (bitsOf Fld.PAIR_STAT_BEAT_HOLD.hi Fld.PAIR_STAT_BEAT_HOLD.lo w) v
  else v
def castValue (old new : Img) (a w : Nat) : Nat :=
  match findRow a with
  | none => w
  | some r => castSpecial a w (r.fields.foldl (fun acc f => castField old new a w f acc) (regDefault a).toNat)
/-- Every register listed takes the value that f gives. -/
def mapRegs (f : Nat → Nat → Nat) (s : State) : State :=
  s.regs.foldl (fun t e => rsetN t e.1 (f e.1 e.2.toNat)) { s with regs := [] }
def castRegs (old new : Img) (s : State) : State := mapRegs (castValue old new) s
/-- TPO and TCI programs return to reset at P0 (02 Table 2.6; 15 R388). -/
def castPulses (s : State) : State :=
  let s := mapRegs (fun a w => if 0xA00400 ≤ a ∧ a < 0xA00680 then castValue s.img s.img a w else w) s
  { s with time := { s.time with tpo := [], tci := [] }, core := { s.core with tpo := 0 } }
/-- The status of plane p returns to reset. -/
def freshPlane (p : Nat) (s : State) : State :=
  mapRegs (fun a w => match findRow a with
    | some r => if a / 0x1000 = 0x800 + p then
        r.fields.foldl (fun acc f => match f.acc with
          | .ro | .w1c => withBits f.hi f.lo (bitsOf f.hi f.lo (regDefault a).toNat) acc
          | _ => acc) w
      else w
    | none => w) s

/-! ### Reference tables (Table 18.4; 14 R350) -/

/-- The entry of the old table with the KIND and INDEX of entry e of the new one. -/
def oldEntry (old new : Img) (p e : Nat) : Option Nat :=
  let same (i : Nat) : Bool := entUsed old p i && entKind old p i == entKind new p e && entIndex old p i == entIndex new p e
  if same e then some e else (List.range 16).find? same
/-- Entries that are kept bring their activity, qualification and measurements; new ones start at 0. The current reference
keeps its place, or names an entry that is not selectable. -/
def castEntries (old new : Img) (p : Nat) (s : State) : State :=
  let was := s
  let from_ (e : Nat) : Option Nat := if entUsed new p e then oldEntry old new p e else none
  let s := (List.range 16).foldl (fun s e =>
    match from_ e with
    | some i =>
      let s := entStat p e Fld.PLANE_ENT_STAT_KIND (entKind new p e) (rset s (Reg.PLANE_ENT_STAT p e) (rget was (Reg.PLANE_ENT_STAT p i)))
      rset (rset s (Reg.PLANE_ENT_FREQ p e) (rget was (Reg.PLANE_ENT_FREQ p i))) (Reg.PLANE_ENT_PHASE p e)
        (rget was (Reg.PLANE_ENT_PHASE p i))
    | none =>
      let s := rsetN (rsetN (rsetN s (Reg.PLANE_ENT_STAT p e) 0) (Reg.PLANE_ENT_FREQ p e) 0) (Reg.PLANE_ENT_PHASE p e) 0
      entStat p e Fld.PLANE_ENT_STAT_KIND (entKind new p e) s) s
  let free := ((List.range 16).find? (fun e => (from_ e).isNone || entKind new p e == 8)).getD 0
  let cur := ((List.range 16).find? (fun e => from_ e == some (planeCur was p))).getD free
  let v := refPl s p
  setCur p cur (setRefPl p { v with whole := (List.range 16).filter (fun e => (from_ e).any (fun i => v.whole.contains i)) } s)

/-! ### Carried values (R450) -/

/-- The values in force at step 1: the registers of 16 Table 16.5, leg contexts, layer descriptors, and the contents in use
of TLUT sets, LUTs and coefficient sets. A serial port's masks are those in force. -/
def castCopy (s : State) : StateCopy :=
  let mask (sh : Bool) (p : Nat) : Nat × Nat :=
    if sh then (Reg.SAP_RX_MASK_SH p, rgetN s (Reg.SAP_RX_MASK p)) else (Reg.SAP_TX_MASK_SH p, rgetN s (Reg.SAP_TX_MASK p))
  let ports := (List.range 32).filter (sapUsed s.img)
  let isMask (a : Nat) : Bool := (List.range 32).any (fun p => a == Reg.SAP_RX_MASK_SH p || a == Reg.SAP_TX_MASK_SH p)
  let c := makeCopy 0 s
  { c with
    regs := c.regs.filter (fun e => !isMask e.1)
      ++ ports.flatMap (fun p => [mask true p, mask false p, (Reg.SAP_MASK_COMMIT p, 3)])
    layers := s.comp.layers.map (fun e => (e.1, inForce e.2)), lut := s.comp.lut, coef := s.comp.coef }
/-- Does a host write refused under 03 R73 come of this effect? -/
def effRefused (eff : State → State) (s : State) : Bool :=
  rgetN (eff (rsetN s Reg.IMG_REFUSE_COUNT 0)) Reg.IMG_REFUSE_COUNT != 0
/-- One value is applied as a host write; where the armature refuses it, it is dropped and counted, with no fault. -/
def carryOne (eff : State → State) (s : State) : State :=
  if effRefused eff s then count s Reg.IMG_CARRY_REFUSED
  else
    let n := rgetN s Reg.IMG_REFUSE_COUNT
    rsetN (eff (rsetN s Reg.IMG_REFUSE_COUNT 0)) Reg.IMG_REFUSE_COUNT n
/-- The reset value of something in force at step 1 that TABLES has set: applied too, where the outgoing image `was` has the
resource that holds it. -/
def carryReset (was : State) (eff : State → State) (s : State) : State :=
  if effRefused eff was then s else carryOne eff s
/-- A table's entries by set (a LUT, a coefficient set): those of an owner the new image does not use are dropped, and
counted once a set. -/
def carryTable (size sets : Nat) (ok : Nat → Bool) (l : List (Nat × Nat)) (s : State) : List (Nat × Nat) × State :=
  let gone := ((l.filter (fun e => !ok (e.1 / (size * sets)))).map (fun e => e.1 / size)).eraseDups
  (l.filter (fun e => ok (e.1 / (size * sets))), countN s Reg.IMG_CARRY_REFUSED gone.length)
/-- A layer's descriptor, and a leg context, written and committed as a host would. -/
def writeLayer (l : Nat) (ws : List Nat) (s : State) : State :=
  let s := rsetN s (Reg.COMP_L_W0 l) ((ws[0]?).getD 0)
  let s := (List.range 7).foldl (fun s i => rsetN s (Reg.COMP_L_W l i) ((ws[i + 1]?).getD 0)) s
  compWrite 0 (Reg.COMP_L_COMMIT l) 1 s
def writeLeg (l : Nat) (ws : List Nat) (s : State) : State :=
  let s := (List.range 7).foldl (fun s i => rsetN s (Reg.FLOW_LEG_CTX l (i + 1)) ((ws[i + 1]?).getD 0)) s
  legCommit 0 l (w32 ((ws[0]?).getD 0)) s
/-- The carried values come into force over those of TABLES; `was` is the device at step 1 (R450). -/
def applyCarried (was : State) (c : StateCopy) (s : State) : State :=
  let layers := (s.comp.layers.map (·.1)).filter (fun l => !c.layers.any (fun e => e.1 == l))
  let regs := ((mirroredContents s).map (·.1)).filter (fun a => !c.regs.any (fun e => e.1 == a))
  let mix := (mixContents s).map (·.1) |>.filter (fun a => !c.mix.any (fun e => e.1 == a))
  let legs := (s.flow.legs.map (·.1)).filter (fun l => !c.legs.any (fun e => e.1 == l))
  let s := layers.foldl (fun s l => carryReset was (writeLayer l resetWords) s) s
  let s := c.layers.foldl (fun s e => carryOne (writeLayer e.1 e.2) s) s
  let s := regs.foldl (fun s a => carryReset was (mirroredEffect 0 a (regDefault a)) s) s
  let s := c.regs.foldl (fun s e => carryOne (mirroredEffect 0 e.1 (w32 e.2)) s) s
  let s := mix.foldl (fun s a => carryReset was (mixWrite 0 a 0) s) s
  let s := c.mix.foldl (fun s e => carryOne (mixWrite 0 e.1 (w32 e.2)) s) s
  let s := legs.foldl (fun s l => carryReset was (writeLeg l []) s) s
  let s := c.legs.foldl (fun s e => carryOne (writeLeg e.1 e.2) s) s
  let l := carryTable 16384 9 (headUsed s.img) c.lut s
  let k := carryTable 1024 8 (fun b => b == 64 || headUsed s.img b) c.coef l.2
  let s := k.2
  { s with eng := { s.eng with tlut := c.tlut, tlutSh := c.tlut }
           comp := { s.comp with lutSh := l.1, lutCom := l.1, coefSh := k.1, coefCom := k.1 } }

/-! ### P0 (Table 18.3 step 1) -/

/-- Conditions that hold at the entry to BOOT, in service or not, are raised afresh (R449; 17 R422): XO_FAIL, a withheld
beat, a cluster's bad kernel library. FROZEN ends with that entry (08 R219). -/
def castConds (s : State) : State :=
  let klib := (List.range 64).filter (fun c => fbit s (Reg.ENG_CLU_STAT c) Fld.ENG_CLU_STAT_KLIB_BAD)
  let s := { s with q := { s.q with queues := s.q.queues.map (fun e => (e.1, { e.2 with frozen := false })) } }
  let s := condSet Src.refXoFail s.ref.xoFail [0] s
  let s := condSet Src.pairBeatHold (fbit s Reg.PAIR_STAT Fld.PAIR_STAT_BEAT_HOLD) [0] s
  condSet Src.cluKlibBad (!klib.isEmpty) [klib.headD 0] s
/-- IMG_ARM_STAT of step 3: the verdict on the new armature. What APPLIED shows after a rejection is not stated: 1, as the
old armature has been applied, beside the FAIL fields of the new one (DESIGN CHOICE, log entry 56). -/
def castVerdict (rej : Option (Nat × Nat)) : Nat :=
  match rej with | none => 1 | some v => v.1 % 65536 * 65536 + v.2 % 256 * 256 + 1

/-- The plane-0 switch point after the preload: entry to the cast form of BOOT. -/
def castPause (s : State) : State :=
  match s.upd.cast with
  | none => s
  | some (slot, nocarry, back) =>
    if !inRole s || !s.upd.preloaded then s
    else
      let raw := s.core.hashed
      let old := s.img
      let new := readImage raw
      let rej := armReject raw new
      let s := keepCastFlush s
      let s := setModeF Fld.GLOBAL_MODE_CASTFORM 1 (setMode s .boot)
      let s := setCause (if back then 5 else 4) (lifeAdd s 2 1)
      let s := castConds ((List.range 48).foldl (fun s g => rsetN s (Reg.FAULT_STAT g) 0)
        { s with pat := { s.pat with conds := [] } })
      let s := castPulses { s with core := { s.core with arbBeat := .low, switchWin := .low } }
      let s := refreshPins (leaveTest s)
      let s := logEvent 0x11 [slotInUse s, slot, imgIndex raw, b2n nocarry] s
      let s := if back then s else putMarker 2 (leBytes 4 (imgSetFmt raw)) s
      let s := rsetN { s with upd := { s.upd with
        carried := if nocarry then none else some (castCopy s), pauseStart := nowTicks s
        black := [0], rej, applied := false } } Reg.IMG_ARM_STAT (castVerdict rej)
      let s := audRefuseHeld (fun _ => true) (refuseHeld (fun _ => true) s)
      let s := (List.range 64).foldl (fun s m => if macKept old new m then s else macEnter m 0 s) s
      setLink 0 s

/-! ### Step 3 and the resumption (Table 18.3 steps 3 and 4) -/

/-- Blocks start afresh but for what runs on. -/
def castBlocks (old new : Img) (s : State) : State :=
  let keepSurf := surfKept old new
  { s with
    xp := { src := s.xp.src.filter (fun e => laneKept old new e.1), periods := s.xp.periods.filter (fun e => laneKept old new e.1)
            switchAt := s.xp.switchAt.filter (fun e => planeKept old new e.1)
            inWin := s.xp.inWin.filter (fun e => laneKept old new (e.1 / 2) && planeKept old new (e.1 % 2)) }
    vl := { lanes := s.vl.lanes.map (fun e => (e.1, if laneKept old new e.1 then
              { rate := e.2.rate, fc := e.2.fc, frameErr := e.2.frameErr, pidOut := e.2.pidOut } else { pidOut := e.2.pidOut }))
            dp := if dpKept old new then s.vl.dp else [] }
    eng := {}, comp := {}, flow := {}, aud := {}
    mac := (s.mac.filter (fun e => macKept old new e.1)).map (fun e => (e.1, { cdr := e.2.cdr, fault := e.2.fault }))
    q := { staging := if keepSurf then s.q.staging else [], surf := if keepSurf then s.q.surf else []
           lost := if keepSurf then s.q.lost else s.q.lost + 1 }
    time := { s.time with tpo := [], tci := [], snapPending := false }
    pair := { lanes := s.pair.lanes, txSeq := s.pair.txSeq, rxSeq := s.pair.rxSeq }
    fab := { s.fab with perMaster := [] }
    core := { s.core with tpo := 0 } }
/-- A plane at its resumption: it runs on with its new table, where the selector decides (R358), restarts in FREE, or goes
out of use, where a frame pulse in progress ends (R368). Outputs that the new image does not use go idle. -/
def castPlane (old new : Img) (p : Nat) (s : State) : State :=
  let s := (List.range 512).foldl (fun s v =>
    if txRuns new v then s else fset s (Reg.VLANE_TX_STAT v) Fld.VLANE_TX_STAT_IDLE 1) s
  if planeKept old new p then
    let s := castEntries old new p s
    refDecide p ((List.range 16).foldl (fun s e =>
      if entKind new p e = 8 then entStat p e Fld.PLANE_ENT_STAT_QUAL (b2n (!s.ref.xoFail)) s else s) s)
  else
    let s := setRefPl p { acquired := (refPl s p).acquired } (freshPlane p s)
    let s := (List.range 16).foldl (fun s e => entStat p e Fld.PLANE_ENT_STAT_KIND (entKind new p e) s) s
    if planeUsed new p then planeStart p s
    else
      let s := if bitOf p s.core.planeFp.toNat then framePulse p false s else s
      setPlaneState p 0 s
/-- Receivers, ports, links, sources and audio that do not run on start; those that do are judged anew. -/
def castRun (old new : Img) (s : State) : State :=
  let s := (List.range 512).foldl (fun s v =>
    if !laneKept old new v then rxStart v s else if rxState s v = 3 then refreshPresent v s else s) s
  let s := (List.range 64).foldl (fun s m => macApplyEn m s) s
  audioStart (presentMade ((List.range 4).foldl (fun s k => dpEnable k s) s))
/-- Time from P0 to the earliest resumption (R448, R453). -/
def castTicks (s : State) : Nat := 800 * (if s.upd.rej.isSome then 150000 else 75000)
/-- Step 3: the new armature, or the old one again where a block rejects, the Keep region, the carried values. A plane 1
that has no switch point of both images starts or ends here. It takes effect at the first resumption, its last moment (log
entry 64). -/
def castApply (s : State) : State :=
  match s.upd.cast with
  | none => s
  | some (slot, _, _) =>
    if s.upd.applied then s
    else
      let was := s
      let raw := s.core.hashed
      let old := s.img
      let new := if s.upd.rej.isSome then old else readImage raw
      let from_ := slotInUse s
      let s := condEnd Src.cluKlibBad (castBlocks old new (castRegs old new s))
      let s := if s.upd.rej.isNone then setModeF Fld.GLOBAL_MODE_SLOT slot (applyHeader raw new s) else s
      let s := applyTables new (applyBlocks new (applyPins new (rsetN s Reg.IMG_SET_FMT (fmtNow s))))
      let s := keepRestore s
      let s := match s.upd.carried with | some c => applyCarried was c s | none => s
      let both := planeUsed old 1 && planeUsed new 1
      let s := { s with upd := { s.upd with
        applied := true, outgoing := old, carried := none, black := if both then [0, 1] else [0]
        previous := if from_ = 1 ∨ from_ = 2 then from_ else bootPtr s } }
      if both then s else castPlane old new 1 s
/-- Plane 1 and a cast: from its first switch point its outputs carry black, and at its first switch point at or after the
earliest resumption they resume (Table 18.3 steps 2 and 4). -/
def castSwitch (p : Nat) (s : State) : State :=
  if p ≠ 1 ∨ !planeUsed s.img 1 then s
  else if !planeBlack s 1 then
    if inCast s && !s.upd.applied then { s with upd := { s.upd with black := 1 :: s.upd.black } } else s
  else if nowTicks s < s.upd.pauseStart + castTicks s then s
  else
    let s := castApply s
    if planeBlack s 1 then
      castPlane s.upd.outgoing s.img 1 { s with upd := { s.upd with black := s.upd.black.filter (· != 1) } }
    else s
/-- The mirror link of a pair in use starts again (16 R399). -/
def castPair (s : State) : State :=
  if !pairInUse s || !inRole s then s
  else setLink 1 { s with xp := { s.xp with journalTo := takePi s }, aud := { s.aud with journalTo := audPi s } }
/-- Plane 0 resumes, and with it the device: role, receivers, references, pair, window. -/
def castResume (us : Nat) (s : State) : State :=
  match s.upd.cast with
  | none => s
  | some (slot, _, back) =>
    if !inCast s then s
    else
      let s := advanceTicks (s.upd.pauseStart + max (800 * us) (castTicks s) - nowTicks s) s
      let pause := (nowTicks s - s.upd.pauseStart) / 800
      let s := castApply s
      let rej := s.upd.rej.isSome
      let old := s.upd.outgoing
      let s := setModeF Fld.GLOBAL_MODE_CASTFORM 0 (setMode s (if bitOf 9 s.core.filtered.toNat then .active else .standby))
      let s := pairStat Fld.PAIR_STAT_ROLE_PIN (b2n (bitOf 9 s.core.filtered.toNat)) s
      let s := castPlane old s.img 0 { s with upd := { s.upd with black := s.upd.black.filter (· != 0) } }
      let s := castPair (refFollow (castRun old s.img s))
      let s := if rej then raise Src.castFail [0, slot, 8] (updResult 6 s) else s
      let s := rsetN { s with upd := { s.upd with
        cast := none, preloaded := false, windowOpen := !back && !rej, windowAt := nowTicks s } } Reg.IMG_UPD_PAUSE_US pause
      let s := condSet Src.refXoFail s.ref.xoFail [0] (bridgeCond (clockCond (heldClear (leaveTest s))))
      let s := condSet Src.pairBeatHold (fbit s Reg.PAIR_STAT Fld.PAIR_STAT_BEAT_HOLD) [0] s
      let s := logEvent 0x12 [pause, rgetN s Reg.IMG_CARRY_REFUSED, fget s Reg.IMG_UPD_STAT Fld.IMG_UPD_STAT_RESULT] s
      startWaiting (refreshPins s)

/-! ### Meanings -/

/-- PLANE_SWITCH_POINT (04 R83); of plane 1, with what a cast does there (R448). -/
def execPlaneSwitchPoint (p : Fin 2) (s : State) : Out :=
  .next (cycleEnd s (switchPoint p (castSwitch p (cycleBegin s))))
/-- CAST_PAUSE_START (R448). -/
def execCastPauseStart (s : State) : Out := .next (castPause s)
/-- CAST_RESUME: plane 0 resumes `us` microseconds after P0, and not before the time of Table 18.3 (R448, R453). -/
def execCastResume (us : BitVec 18) (s : State) : Out := .next (castResume us.toNat s)

end Sys2Proof.Machine
end

