-- ==== Sys2Proof/Machine/HostFamily.lean ====
section
/-! DEFINITION. Register accesses of every master: which block takes a write or a read of BAR0, sizes, runs of reads, held
requests, the register commands of the management I2C target (00_scope.md R6; 19_host_fabric.md R472-R479, R487, R488). -/

namespace Sys2Proof.Machine

/-! ### The blocks of BAR0 (R475) -/

/-- A write of the GLOBAL block. A condition still present sets its bit again at once (00 R6, Table 0.5): HEAT_SLOW while the
heat phase that passed 900 s runs, FAILED while the condition of BRIDGE_FAIL is present. -/
def globalWrite (a : Nat) (w : Word) (s : State) : State :=
  if a = Reg.GLOBAL_RESET_CTRL then resetCtrlWrite w.toNat s
  else if a = Reg.GLOBAL_HOST_BOOT then hostBootWrite w.toNat s
  else
    let s := plainWrite a w s
    let s := if heating s && s.core.heatPast then setBoot Fld.GLOBAL_BOOT_STAT_HEAT_SLOW 1 s else s
    refreshPins (if Src.bridgeFail ∈ s.pat.conds then fset s Reg.GLOBAL_BRIDGE_STAT Fld.GLOBAL_BRIDGE_STAT_FAILED 1 else s)
/-- A write of the FAULT block. -/
def faultWrite (m a : Nat) (w : Word) (s : State) : State :=
  if 0x00100100 ≤ a ∧ a < 0x001001C0 then clearFaults ((a - 0x00100100) / 4) w.toNat s
  else if 0x00101000 ≤ a ∧ a < 0x00102800 then faultSevWrite m ((a - 0x00101000) / 4) w.toNat s
  else plainWrite a w s
/-- A write of the PATINA block. -/
def patinaWrite (m a : Nat) (w : Word) (s : State) : State :=
  if a = Reg.PAT_HOST_EVT then hostEvtWrite m w.toNat s
  else if a = Reg.PAT_KEEP_CTRL then keepCtrlWrite w.toNat s else plainWrite a w s
/-- A write of the MSI-X region. -/
def msixWrite (a : Nat) (w : Word) (s : State) : State :=
  if a < 0x03F00400 ∧ a % 16 = 12 then msixCtrlWrite ((a - 0x03F00000) / 16) w.toNat s else plainWrite a w s
/-- The effect of a write that its block takes. -/
def regWrite (m a : Nat) (w : Word) (s : State) : State :=
  match blockOf a with
  | .global => globalWrite a w s
  | .fault => faultWrite m a w s
  | .time => timeWrite m a w s
  | .mac => macWrite m a w s
  | .pair => pairWrite a w s
  | .patina => patinaWrite m a w s
  | .img => imgWrite m a w s
  | .fabric => if a = Reg.FABRIC_MRESET then mresetWrite w.toNat s else plainWrite a w s
  | .test => testWrite a w s
  | .pinctl => refuse m 3 (ridReg a) a s
  | .msix => msixWrite a w s
  | .qm => plainWrite a w s
  | .gap | .beyond => s
  | .xp | .vlane | .flow | .comp | .eng | .aud | .sap | .plane => mirroredEffect m a w s
/-- The value and effect of a read that its block takes. Registers of what is not in use read 0. -/
def regRead (m a : Nat) (s : State) : Nat × State :=
  match blockOf a with
  | .img => imgRead m a s
  | .eng => if a = Reg.ENG_TLUT_DATA then tlutRead s else plainRead m a s
  | .comp =>
    if (compAbsent s.img a).isSome then (0, s)
    else if a = Reg.COMP_LUT_DATA then lutRead s else if a = Reg.COMP_SCL_DATA then coefRead s else plainRead m a s
  | .time =>
    if 0x00A00608 ≤ a ∧ a < 0x00A00680 ∧ a % 0x20 = 8 then tciReadNow ((a - 0x00A00600) / 0x20) s else plainRead m a s
  | .vlane => if vlaneAbsent s.img a then (0, s) else plainRead m a s
  | .mac => if macAbsent s.img a then (0, s) else plainRead m a s
  | .sap => if sapAbsent s.img a then (0, s) else plainRead m a s
  | .aud => if audAbsent s.img a then (0, s) else plainRead m a s
  | .plane =>
    if a < 0x00802000 && !planeUsed s.img ((a - 0x00800000) / 0x1000) then (0, s) else plainRead m a (refRefresh s)
  | _ => plainRead m a s

/-! ### Sizes and runs (R472) -/

/-- An access that is not of 4 or 8 bytes, naturally aligned: it completes with no effect and is counted, a read returning 0;
behind what it must follow it waits like any other (R472, R479, R482). -/
def badSize (m : Nat) (w : Bool) (a : Nat) (s : State) : State :=
  match linkGate s m (blockPort a) with
  | some .unsupported => emit s (.unsupported m a)
  | some _ => s
  | none =>
    if (holdCause s s.fab.held m w (blockPort a)).isSome then holdReq { master := m, write := w, addr := a, bad := true } s
    else
      let t := count s Reg.FABRIC_BADSIZE
      if w then t else emit t (.readData m a 0)
def writeWord (m a : Nat) (w : Word) (s : State) : State := hostWrite m a w (regWrite m a w) s
def readWord (m a : Nat) (s : State) : State := hostRead m a (regRead m a) s
/-- A write of `len` bytes at a: one request, answered once (R468, R472). -/
def accessWrite (m a len : Nat) (data : BitVec 64) (s : State) : State :=
  if linkGate s m (blockPort a) == some .unsupported then emit s (.unsupported m a)
  else if len = 4 ∧ a % 4 = 0 then writeWord m a (data.extractLsb' 0 32) s
  else if len = 8 ∧ a % 8 = 0 then
    writeWord m (a + 4) (data.extractLsb' 32 32) (writeWord m a (data.extractLsb' 0 32) s)
  else badSize m true a s
/-- A read request of `len` bytes at a: one word, an aligned pair, or a run of up to 512 bytes in words, in ascending
order. A request of 8 bytes that is not aligned to 8 is of no valid size (DEDUCED, log entry 17). -/
def accessRead (m a len : Nat) (s : State) : State :=
  if linkGate s m (blockPort a) == some .unsupported then emit s (.unsupported m a)
  else if a % 4 = 0 ∧ len % 4 = 0 ∧ 0 < len ∧ len ≤ 512 ∧ ¬(len = 8 ∧ a % 8 ≠ 0) then
    (List.range (len / 4)).foldl (fun s i => readWord m (a + 4 * i) s) s
  else badSize m false a s

/-! ### Held requests (R476) -/

/-- The status and data of the register command of M8 that has ended (Table 19.6). -/
def i2cEnd (status : Nat) (d : Option Word) (s : State) : State :=
  { s with fab := { s.fab with i2cStatus := status, i2cData := d, i2cPending := none } }
/-- M8 makes the access of its register command; one that is held back or hangs stays pending. -/
def i2cAccess (r : HeldReq) (s : State) : State :=
  let wait := { s with fab := { s.fab with i2cPending := some r } }
  match gate s 8 r.write r.addr with
  | .error => hangOn 8 r.write 0 r.addr wait
  | .held => holdReq r wait
  | .pass =>
    let s := grantTo (blockPort r.addr) 8 s
    if r.write then i2cEnd 0 none (mirroredWrite 8 r.addr r.data (regWrite 8 r.addr r.data) s)
    else (let v := regRead 8 r.addr s; i2cEnd 0 (some (w32 v.1)) v.2)
  | _ => i2cEnd 0 (if r.write then none else some 0) s
/-- The matrix issues a request. One to a register of BAR0, or of the host to BAR2, is answered at once; one of which only
its place is known stays outstanding until it is answered (DESIGN CHOICE, log entry 17). -/
def grant (r : HeldReq) (s : State) : State :=
  if r.bad then badSize r.master r.write r.addr s
  else if s.fab.i2cPending = some r then i2cAccess r s
  else if r.port = 0 then (if r.write then writeWord r.master r.addr r.data s else readWord r.master r.addr s)
  else if r.write && !r.bytes.isEmpty then burstWrite r.addr r.bytes s
  else if !r.write && r.data ≠ 0 then burstRead r.addr r.data.toNat (r.bytes.headD 0) s
  else issueReq r.master r.write r.port (grantTo r.port r.master s)
def mayIssue (s : State) (before : List HeldReq) (r : HeldReq) : Bool :=
  holdCause s before r.master r.write (targetOf r) == none
/-- The first of the held requests that `p` picks and nothing holds back any more, with those held before and after it. -/
def firstFree (s : State) (p : HeldReq → Bool) : List HeldReq → List HeldReq → Option (List HeldReq × HeldReq × List HeldReq)
  | _, [] => none
  | pre, r :: post => if p r && mayIssue s pre r then some (pre, r, post) else firstFree s p (pre ++ [r]) post
/-- Held requests that nothing holds back any more are issued, M7's first, then in the order in which they were held. -/
def admitHeld : Nat → State → State
  | 0, s => s
  | n + 1, s =>
    match (firstFree s (fun r => r.master == 7) [] s.fab.held).or (firstFree s (fun _ => true) [] s.fab.held) with
    | none => s
    | some (pre, r, post) =>
      let t := grant r { s with fab := { s.fab with held := pre } }
      admitHeld n { t with fab := { t.fab with held := t.fab.held ++ post } }
/-- A request arrives: issued, or held back and counted. -/
def arriveFabric (r : HeldReq) (s : State) : State := if mayIssue s s.fab.held r then grant r s else holdReq r s
/-- The place of a request in its cycle: M7's first; at each target in round robin from the master granted there last
(R478). The targets of blocks that are masters too come in an order in which, of two requests that would wait for each
other, the one of the lower-numbered master is granted (R480): T27 to T24, then T28. -/
def arrivalKey (s : State) (r : HeldReq) : Nat :=
  let p := targetOf r
  let k := if 24 ≤ p ∧ p ≤ 27 then 51 - p else p
  if r.master = 7 then 0 else 16 * (k + 1) + (r.master + 17 - cget 8 s.fab.granted p) % 9
def insertArrival (s : State) (r : HeldReq) : List HeldReq → List HeldReq
  | [] => [r]
  | x :: t => if arrivalKey s r < arrivalKey s x then r :: x :: t else x :: insertArrival s r t
/-- A cycle of the matrix: requests are answered, and the room they free counts at once; held requests are admitted; then
the cycle's own requests are issued or held (R476, R478, R480). -/
def admitFabric (done : List OutReq) (arrivals : List HeldReq) (s : State) : State :=
  let t := done.foldl (fun s r => answerReq r.master r.write r.port s) (cycleBegin s)
  let t := admitHeld t.fab.held.length t
  cycleEnd s ((arrivals.foldl (fun l r => insertArrival t r l) []).foldl (fun s r => arriveFabric r s) t)

/-! ### Register commands of the management I2C target (R487, R488, Table 19.6) -/

/-- A register command: refused while one is pending or the fabric cannot be reached; else made by M8. -/
def i2cCommand (write : Bool) (a : Nat) (w : Word) (s : State) : State :=
  if s.fab.i2cPending.isSome then i2cReply [5] s
  else if !m8Reach s then i2cReply [2] (i2cEnd 2 none s)
  else
    i2cResult (if a % 4 ≠ 0 then i2cEnd 0 (if write then none else some 0) (count s Reg.FABRIC_BADSIZE)
      else i2cAccess { master := 8, write := write, addr := a, data := w } s)
def i2cParam (l : List Byte) (i : Nat) : Nat := leNat (((l.drop i).take 4).map (·.toNat))

/-! ### Meanings -/

/-- REGISTER_WRITE: a write of `len` bytes at BAR0 offset a by master m (R6, R472, R482). -/
def execRegisterWrite (m : Fin 9) (a : BitVec 26) (len : Fin 257) (data : BitVec 64) (s : State) : Out :=
  .next (accessWrite m a.toNat len data s)
/-- READ_CLEAR_COUNTER: a read request of n bytes; RC fields clear (R6, R472). -/
def execReadClearCounter (m : Fin 9) (a : BitVec 26) (n : Fin 513) (s : State) : Out := .next (accessRead m a.toNat n s)
/-- W1C_STATUS_CLEAR: a write of a register with W1C bits, or of the QM_Q_STAT of a queue (R6; 08 Table 8.11). -/
def execW1cStatusClear (m : Fin 9) (a : BitVec 26) (q : Option (BitVec 20)) (w : Word) (s : State) : Out :=
  .next (match q with
    | none => accessWrite m a.toNat 4 (w.setWidth 64) s
    | some q => bar2Write (inService s) (128 * q.toNat + 0x30) (leBytes 4 w.toNat) (qStatClear q.toNat w.toNat) s)
/-- READ_64_LOW: a read of a low word, or of both words in one access of 8 bytes (R473). -/
def execRead64Low (m : Fin 9) (a : BitVec 26) (wide : Bool) (s : State) : Out :=
  .next (accessRead m a.toNat (if wide then 8 else 4) s)
/-- MIRRORED_WRITE: a write of a register of 16 Table 16.5 (16 R407). -/
def execMirroredWrite (m : Fin 9) (a : BitVec 26) (w : Word) (s : State) : Out := .next (accessWrite m a.toNat 4 (w.setWidth 64) s)
/-- PCIE_RESET (R469); `flr` for a function-level reset. `burst` is what a write burst of M0 to BAR2 that is in progress has
delivered, from an offset on, in beats of 8 bytes: they stand, and the rest of it reaches no target (R485). -/
def execPcieReset (flr : Bool) (burst : Option (BitVec 30 × List Byte)) (s : State) : Out :=
  .next (if mode s == .reset then s
    else pcieReset flr (match burst with
      | some (a, bs) => piecesWrite 8 a.toNat (bs.map (·.toNat)) s
      | none => s))
/-- FABRIC_REQUEST_ADMIT, a cycle of the matrix: `done` are requests to T20-T29 that are answered; `arrivals` are the
requests that arrive: master, write or read, target (0: a register), BAR0 offset, data (R476, R480). -/
def execFabricRequestAdmit (done : List (Fin 9 × Bool × Fin 30)) (arrivals : List (Fin 9 × Bool × Fin 30 × BitVec 26 × Word))
    (s : State) : Out :=
  .next (admitFabric (done.map (fun r => ⟨r.1, r.2.1, r.2.2⟩)) (arrivals.map (fun r =>
    if r.2.2.1.val = 0 then
      { master := r.1, write := r.2.1, addr := r.2.2.2.1.toNat / 4 * 4, data := r.2.2.2.2 }
    else { master := r.1, write := r.2.1, addr := 0, port := r.2.2.1 })) s)
/-- I2C_REG_READ (R487). -/
def execI2cRegRead (params : List Byte) (s : State) : Out :=
  .next (if params.length < 4 then i2cCut s else i2cCommand false (i2cParam params 0) 0 (i2cExtra 4 params s))
/-- I2C_REG_WRITE (R487). -/
def execI2cRegWrite (params : List Byte) (s : State) : Out :=
  .next (if params.length < 8 then i2cCut s
    else i2cCommand true (i2cParam params 0) (w32 (i2cParam params 4)) (i2cExtra 8 params s))

end Sys2Proof.Machine
end

