-- ==== Sys2Proof/Machine/Dispatch.lean ====
section
/-! DEFINITION. One arm per command: a direct call of its meaning. -/

namespace Sys2Proof.Machine

def exec (i : Instr) (s : State) : Host.Outcome State Fault Refusal :=
  match i with
  | .aonPowerOn addr bad => Sys2Proof.Machine.execAonPowerOn addr bad s
  | .supplyOutOfLimits supply => Sys2Proof.Machine.execSupplyOutOfLimits supply s
  | .supplyWithinLimits supply => Sys2Proof.Machine.execSupplyWithinLimits supply s
  | .resetNLow => Sys2Proof.Machine.execResetNLow s
  | .resetRelease sel addr => Sys2Proof.Machine.execResetRelease sel addr s
  | .bootClocksLocked => Sys2Proof.Machine.execBootClocksLocked s
  | .ctlLockTimeout => Sys2Proof.Machine.execCtlLockTimeout s
  | .heatTjRead => Sys2Proof.Machine.execHeatTjRead s
  | .heatSlowTimeout => Sys2Proof.Machine.execHeatSlowTimeout s
  | .hbmTrainDone hbm serdes => Sys2Proof.Machine.execHbmTrainDone hbm serdes s
  | .imageStreamDone ok => Sys2Proof.Machine.execImageStreamDone ok s
  | .hostBootGo m len => Sys2Proof.Machine.execHostBootGo m len s
  | .stagingAreaWrite addr bytes => Sys2Proof.Machine.execStagingAreaWrite addr bytes s
  | .hostSafeRequest m soft => Sys2Proof.Machine.execHostSafeRequest m soft s
  | .softReset m sel => Sys2Proof.Machine.execSoftReset m sel s
  | .tjSensorReading tmin tmax => Sys2Proof.Machine.execTjSensorReading tmin tmax s
  | .synthLossOfLock synth => Sys2Proof.Machine.execSynthLossOfLock synth s
  | .bridgeTransfer d bad => Sys2Proof.Machine.execBridgeTransfer d bad s
  | .registerWrite m a len data => Sys2Proof.Machine.execRegisterWrite m a len data s
  | .readClearCounter m a n => Sys2Proof.Machine.execReadClearCounter m a n s
  | .w1cStatusClear m a q w => Sys2Proof.Machine.execW1cStatusClear m a q w s
  | .read64Low m a wide => Sys2Proof.Machine.execRead64Low m a wide s
  | .imgRbDataRead m => Sys2Proof.Machine.execImgRbDataRead m s
  | .takeRecordWrite m w v => Sys2Proof.Machine.execTakeRecordWrite m w v s
  | .takePiWrite m pi => Sys2Proof.Machine.execTakePiWrite m pi s
  | .salvoCommit since0 since1 => Sys2Proof.Machine.execSalvoCommit since0 since1 s
  | .takeAbandon m => Sys2Proof.Machine.execTakeAbandon m s
  | .planeCutoff p => Sys2Proof.Machine.execPlaneCutoff p s
  | .planeSwitchPoint p => Sys2Proof.Machine.execPlaneSwitchPoint p s
  | .destSwitchLineRead p => Sys2Proof.Machine.execDestSwitchLineRead p s
  | .destLineRead d line errs => Sys2Proof.Machine.execDestLineRead d line errs s
  | .batchRecord p => Sys2Proof.Machine.execBatchRecord p s
  | .sourceSwitchLineArrival x d0 d1 => Sys2Proof.Machine.execSourceSwitchLineArrival x d0 d1 s
  | .sourceFrameMeasured x ps => Sys2Proof.Machine.execSourceFrameMeasured x ps s
  | .fsyncFrameComplete d => Sys2Proof.Machine.execFsyncFrameComplete d s
  | .fsyncHoldExpire d => Sys2Proof.Machine.execFsyncHoldExpire d s
  | .vlaneRateSearchTimeout v => Sys2Proof.Machine.execVlaneRateSearchTimeout v s
  | .vlaneCdrLock v => Sys2Proof.Machine.execVlaneCdrLock v s
  | .vlaneFrameAligned v streams levelB => Sys2Proof.Machine.execVlaneFrameAligned v streams levelB s
  | .vlaneAlignTimeout v => Sys2Proof.Machine.execVlaneAlignTimeout v s
  | .vlaneCdrLoss v => Sys2Proof.Machine.execVlaneCdrLoss v s
  | .vlaneEavMissing v => Sys2Proof.Machine.execVlaneEavMissing v s
  | .vlaneLineReceived v line words => Sys2Proof.Machine.execVlaneLineReceived v line words s
  | .vlanePidPacket v pid csOk => Sys2Proof.Machine.execVlanePidPacket v pid csOk s
  | .vlanePidTimeout v => Sys2Proof.Machine.execVlanePidTimeout v s
  | .sdiAudioPacket v g second outcome sync phase samples => Sys2Proof.Machine.execSdiAudioPacket v g second outcome sync phase samples s
  | .ancPacketCapture v line hanc stream ok did sdid pos udw => Sys2Proof.Machine.execAncPacketCapture v line hanc stream ok did sdid pos udw s
  | .dpHpdRise k ns => Sys2Proof.Machine.execDpHpdRise k ns s
  | .dpHpdFall k => Sys2Proof.Machine.execDpHpdFall k s
  | .dpUnplugTimeout k => Sys2Proof.Machine.execDpUnplugTimeout k s
  | .dpTrainDone k answered sinkRate lanes ok okLow => Sys2Proof.Machine.execDpTrainDone k answered sinkRate lanes ok okLow s
  | .dpRetrain m k => Sys2Proof.Machine.execDpRetrain m k s
  | .dpLinkEnableWrite m k en => Sys2Proof.Machine.execDpLinkEnableWrite m k en s
  | .dpAuxNativeRead m k addr len1 => Sys2Proof.Machine.execDpAuxNativeRead m k addr len1 s
  | .dpAuxNativeWrite m k addr len1 => Sys2Proof.Machine.execDpAuxNativeWrite m k addr len1 s
  | .dpAuxI2cRead m k addr len1 => Sys2Proof.Machine.execDpAuxI2cRead m k addr len1 s
  | .dpAuxI2cWrite m k addr len1 => Sys2Proof.Machine.execDpAuxI2cWrite m k addr len1 s
  | .dpAuxReply k reply data => Sys2Proof.Machine.execDpAuxReply k reply data s
  | .dpAuxTimeout k => Sys2Proof.Machine.execDpAuxTimeout k s
  | .macCdrLock m => Sys2Proof.Machine.execMacCdrLock m s
  | .macCdrLoss m => Sys2Proof.Machine.execMacCdrLoss m s
  | .macAlignTimerExpire m => Sys2Proof.Machine.execMacAlignTimerExpire m s
  | .macAlignLoss m localFault => Sys2Proof.Machine.execMacAlignLoss m localFault s
  | .macFaultSequence m kind => Sys2Proof.Machine.execMacFaultSequence m kind s
  | .macRxFrame m bytes drained pcsErr fecCorr fecUncorr => Sys2Proof.Machine.execMacRxFrame m bytes drained pcsErr fecCorr fecUncorr s
  | .macPauseExpire m => Sys2Proof.Machine.execMacPauseExpire m s
  | .macTxFrameEnd m => Sys2Proof.Machine.execMacTxFrameEnd m s
  | .macTxDiscard m => Sys2Proof.Machine.execMacTxDiscard m s
  | .macInjectRecord m => Sys2Proof.Machine.execMacInjectRecord m s
  | .macEnChange m rx => Sys2Proof.Machine.execMacEnChange m rx s
  | .legContextCommit m l w => Sys2Proof.Machine.execLegContextCommit m l w s
  | .flowAudioCfgCommit m tx f w => Sys2Proof.Machine.execFlowAudioCfgCommit m tx f w s
  | .flowLineRead flow ts line errs => Sys2Proof.Machine.execFlowLineRead flow ts line errs s
  | .flowSkewWindow audio f => Sys2Proof.Machine.execFlowSkewWindow audio f s
  | .flowPathSilentTimeout audio f r => Sys2Proof.Machine.execFlowPathSilentTimeout audio f r s
  | .flowTxPacketDue j => Sys2Proof.Machine.execFlowTxPacketDue j s
  | .flowAudioDelivery f ts => Sys2Proof.Machine.execFlowAudioDelivery f ts s
  | .flowAudioTxPacket f => Sys2Proof.Machine.execFlowAudioTxPacket f s
  | .flowAncRxClose f ts => Sys2Proof.Machine.execFlowAncRxClose f ts s
  | .flowAncTxSend f => Sys2Proof.Machine.execFlowAncTxSend f s
  | .queueWrite q off bytes => Sys2Proof.Machine.execQueueWrite q off bytes s
  | .queueClose q => Sys2Proof.Machine.execQueueClose q s
  | .queueMark q => Sys2Proof.Machine.execQueueMark q s
  | .queueRewind q => Sys2Proof.Machine.execQueueRewind q s
  | .queueRelease q => Sys2Proof.Machine.execQueueRelease q s
  | .queueReset q => Sys2Proof.Machine.execQueueReset q s
  | .queueRead a n errs => Sys2Proof.Machine.execQueueRead a n errs s
  | .queueCapWrite q cap => Sys2Proof.Machine.execQueueCapWrite q cap s
  | .hbmRequestAdmit stack arrivals fin => Sys2Proof.Machine.execHbmRequestAdmit stack arrivals fin s
  | .scrubRead errs q => Sys2Proof.Machine.execScrubRead errs q s
  | .taskPush q => Sys2Proof.Machine.execTaskPush q s
  | .slotBandIssue n b old => Sys2Proof.Machine.execSlotBandIssue n b old s
  | .engineTakeTask engines since0 since1 => Sys2Proof.Machine.execEngineTakeTask engines since0 since1 s
  | .taskComplete e cycles errs k => Sys2Proof.Machine.execTaskComplete e cycles errs k s
  | .slotBandDeadline n b => Sys2Proof.Machine.execSlotBandDeadline n b s
  | .slotInputFrameStart n => Sys2Proof.Machine.execSlotInputFrameStart n s
  | .engineMemoryError cluster c gr e errs => Sys2Proof.Machine.execEngineMemoryError cluster c gr e errs s
  | .engineAbortTimeout e => Sys2Proof.Machine.execEngineAbortTimeout e s
  | .engQuarantineEngine m e => Sys2Proof.Machine.execEngQuarantineEngine m e s
  | .engQuarantineCluster m c => Sys2Proof.Machine.execEngQuarantineCluster m c s
  | .engQuarantineRelease m cluster unit => Sys2Proof.Machine.execEngQuarantineRelease m cluster unit s
  | .quadLoadSecond q => Sys2Proof.Machine.execQuadLoadSecond q s
  | .tlutDataWrite m w => Sys2Proof.Machine.execTlutDataWrite m w s
  | .tlutDataRead m => Sys2Proof.Machine.execTlutDataRead m s
  | .tlutCommit m set index => Sys2Proof.Machine.execTlutCommit m set index s
  | .compCutoff h => Sys2Proof.Machine.execCompCutoff h s
  | .compDeadline h => Sys2Proof.Machine.execCompDeadline h s
  | .layerDescriptorCommit m l => Sys2Proof.Machine.execLayerDescriptorCommit m l s
  | .compLutDataWrite m w => Sys2Proof.Machine.execCompLutDataWrite m w s
  | .compLutDataRead m => Sys2Proof.Machine.execCompLutDataRead m s
  | .compLutCommit m head table index => Sys2Proof.Machine.execCompLutCommit m head table index s
  | .scalerCoefDataWrite m w => Sys2Proof.Machine.execScalerCoefDataWrite m w s
  | .scalerCoefDataRead m => Sys2Proof.Machine.execScalerCoefDataRead m s
  | .scalerCoefCommit m bank set index => Sys2Proof.Machine.execScalerCoefCommit m bank set index s
  | .sapFrameSync c cycles din => Sys2Proof.Machine.execSapFrameSync c cycles din s
  | .sapClkLossTimeout c => Sys2Proof.Machine.execSapClkLossTimeout c s
  | .sapMaskCommit m p rx tx => Sys2Proof.Machine.execSapMaskCommit m p rx tx s
  | .sapGroupMaskCommit m k => Sys2Proof.Machine.execSapGroupMaskCommit m k s
  | .sapGroupArm m k => Sys2Proof.Machine.execSapGroupArm m k s
  | .sapGroupDisarm m k => Sys2Proof.Machine.execSapGroupDisarm m k s
  | .sapGroupStartNow m k => Sys2Proof.Machine.execSapGroupStartNow m k s
  | .audStartEdge => Sys2Proof.Machine.execAudStartEdge s
  | .sapGroupAtEnable m k tk => Sys2Proof.Machine.execSapGroupAtEnable m k tk s
  | .sapGroupAtReached k => Sys2Proof.Machine.execSapGroupAtReached k s
  | .asrcWindowEnd b t phase => Sys2Proof.Machine.execAsrcWindowEnd b t phase s
  | .asrcClockLossTimeout b => Sys2Proof.Machine.execAsrcClockLossTimeout b s
  | .asrcAcquireTimer b => Sys2Proof.Machine.execAsrcAcquireTimer b s
  | .naCsBlock a => Sys2Proof.Machine.execNaCsBlock a s
  | .naPreambleDetect a => Sys2Proof.Machine.execNaPreambleDetect a s
  | .naPreambleTimeout a => Sys2Proof.Machine.execNaPreambleTimeout a s
  | .audSample => Sys2Proof.Machine.execAudSample s
  | .audTakeRecordWrite m w v => Sys2Proof.Machine.execAudTakeRecordWrite m w v s
  | .audTakePiWrite m pi => Sys2Proof.Machine.execAudTakePiWrite m pi s
  | .audSalvoCommit => Sys2Proof.Machine.execAudSalvoCommit s
  | .audTakeAbandon m => Sys2Proof.Machine.execAudTakeAbandon m s
  | .mixEntryWrite m b entry hi w => Sys2Proof.Machine.execMixEntryWrite m b entry hi w s
  | .toneModeWrite m t on => Sys2Proof.Machine.execToneModeWrite m t on s
  | .meterBlockEnd m => Sys2Proof.Machine.execMeterBlockEnd m s
  | .meterClear m k => Sys2Proof.Machine.execMeterClear m k s
  | .refFramePulse x since ph0 ph1 => Sys2Proof.Machine.execRefFramePulse x since ph0 ph1 s
  | .refActivityExpire x fp p => Sys2Proof.Machine.execRefActivityExpire x fp p s
  | .refMeasureWindowEnd xo f0 f1 y0 y1 => Sys2Proof.Machine.execRefMeasureWindowEnd xo f0 f1 y0 y1 s
  | .xoHoldActivityExpire => Sys2Proof.Machine.execXoHoldActivityExpire s
  | .planeLockoutWrite m p bits => Sys2Proof.Machine.execPlaneLockoutWrite m p bits s
  | .planeBwWrite m p bw => Sys2Proof.Machine.execPlaneBwWrite m p bw s
  | .planeJump p => Sys2Proof.Machine.execPlaneJump p s
  | .planeLockTimer p => Sys2Proof.Machine.execPlaneLockTimer p s
  | .switchResidualZero p => Sys2Proof.Machine.execSwitchResidualZero p s
  | .holdoverLimitExpire p => Sys2Proof.Machine.execHoldoverLimitExpire p s
  | .tkSet m k => Sys2Proof.Machine.execTkSet m k s
  | .tkAdj m k => Sys2Proof.Machine.execTkAdj m k s
  | .tkIncrWrite m k w => Sys2Proof.Machine.execTkIncrWrite m k w s
  | .tkLockSet m k => Sys2Proof.Machine.execTkLockSet m k s
  | .tkLockClr m k => Sys2Proof.Machine.execTkLockClr m k s
  | .tkLockTimeout k => Sys2Proof.Machine.execTkLockTimeout k s
  | .otSelectWrite m sel auto => Sys2Proof.Machine.execOtSelectWrite m sel auto s
  | .otSnap m => Sys2Proof.Machine.execOtSnap m s
  | .tpoCommit m n => Sys2Proof.Machine.execTpoCommit m n s
  | .tpoDisable m n => Sys2Proof.Machine.execTpoDisable m n s
  | .tpoTargetReached n => Sys2Proof.Machine.execTpoTargetReached n s
  | .tpoPulseEnd n => Sys2Proof.Machine.execTpoPulseEnd n s
  | .tciEdge n rising => Sys2Proof.Machine.execTciEdge n rising s
  | .tciTsRead m n => Sys2Proof.Machine.execTciTsRead m n s
  | .timeSnapshot m => Sys2Proof.Machine.execTimeSnapshot m s
  | .arbRoleChange high => Sys2Proof.Machine.execArbRoleChange high s
  | .pairEnableWrite m en => Sys2Proof.Machine.execPairEnableWrite m en s
  | .arbBeatInterval quads take plane0 plane1 probe => Sys2Proof.Machine.execArbBeatInterval quads take plane0 plane1 probe s
  | .switchWinEdge up => Sys2Proof.Machine.execSwitchWinEdge up s
  | .mirrorHealthSend => Sys2Proof.Machine.execMirrorHealthSend s
  | .mirrorHealthMsg ack peer link digest arb => Sys2Proof.Machine.execMirrorHealthMsg ack peer link digest arb s
  | .mirrorMarkerMsg ack p fc sc d rtt => Sys2Proof.Machine.execMirrorMarkerMsg ack p fc sc d rtt s
  | .mirrorJournalMsg ack kind head parts recs => Sys2Proof.Machine.execMirrorJournalMsg ack kind head parts recs s
  | .mirrorDoneMsg ack p fc firsts => Sys2Proof.Machine.execMirrorDoneMsg ack p fc firsts s
  | .mirrorAckMsg ack first => Sys2Proof.Machine.execMirrorAckMsg ack first s
  | .mirrorSignaturesMsg ack p fc l => Sys2Proof.Machine.execMirrorSignaturesMsg ack p fc l s
  | .mirrorCopyMsg ack c => Sys2Proof.Machine.execMirrorCopyMsg ack c s
  | .mirrorAckTimeout n => Sys2Proof.Machine.execMirrorAckTimeout n s
  | .mirrorSilenceTimeout => Sys2Proof.Machine.execMirrorSilenceTimeout s
  | .mirrorLanesLocked => Sys2Proof.Machine.execMirrorLanesLocked s
  | .mirrorAlignDone => Sys2Proof.Machine.execMirrorAlignDone s
  | .mirroredWrite m a w => Sys2Proof.Machine.execMirroredWrite m a w s
  | .mirroredWritePresent => Sys2Proof.Machine.execMirroredWritePresent s
  | .marginScanDwell h v => Sys2Proof.Machine.execMarginScanDwell h v s
  | .pairNoActiveTimeout => Sys2Proof.Machine.execPairNoActiveTimeout s
  | .faultStatusClear m g w => Sys2Proof.Machine.execFaultStatusClear m g w s
  | .faultSevWrite m n w => Sys2Proof.Machine.execFaultSevWrite m n w s
  | .patinaRecordWrite upto => Sys2Proof.Machine.execPatinaRecordWrite upto s
  | .patinaTokenTick => Sys2Proof.Machine.execPatinaTokenTick s
  | .patinaHostRecord m event => Sys2Proof.Machine.execPatinaHostRecord m event s
  | .powerFail => Sys2Proof.Machine.execPowerFail s
  | .keepFinalFlush => Sys2Proof.Machine.execKeepFinalFlush s
  | .powerRestore us => Sys2Proof.Machine.execPowerRestore us s
  | .keepBoundary => Sys2Proof.Machine.execKeepBoundary s
  | .keepClear m => Sys2Proof.Machine.execKeepClear m s
  | .lifetimeCounterUpdate adds => Sys2Proof.Machine.execLifetimeCounterUpdate adds s
  | .flashErase m => Sys2Proof.Machine.execFlashErase m s
  | .flashProgram m => Sys2Proof.Machine.execFlashProgram m s
  | .flashRead m => Sys2Proof.Machine.execFlashRead m s
  | .flashOpDone ok => Sys2Proof.Machine.execFlashOpDone ok s
  | .maqVerify m slotB => Sys2Proof.Machine.execMaqVerify m slotB s
  | .maqVerifyDone ok => Sys2Proof.Machine.execMaqVerifyDone ok s
  | .cast m slotB force nocarry => Sys2Proof.Machine.execCast m slotB force nocarry s
  | .castPreloadDone ok => Sys2Proof.Machine.execCastPreloadDone ok s
  | .castPauseStart => Sys2Proof.Machine.execCastPauseStart s
  | .castResume us => Sys2Proof.Machine.execCastResume us s
  | .confirm m => Sys2Proof.Machine.execConfirm m s
  | .confirmWindowExpire => Sys2Proof.Machine.execConfirmWindowExpire s
  | .settingsWrite m key => Sys2Proof.Machine.execSettingsWrite m key s
  | .settingsRead m key => Sys2Proof.Machine.execSettingsRead m key s
  | .settingsDelete m key => Sys2Proof.Machine.execSettingsDelete m key s
  | .settingsDataAccess m w => Sys2Proof.Machine.execSettingsDataAccess m w s
  | .pcieReset flr burst => Sys2Proof.Machine.execPcieReset flr burst s
  | .pciePowerStateChange d3 => Sys2Proof.Machine.execPciePowerStateChange d3 s
  | .msixUnmask v => Sys2Proof.Machine.execMsixUnmask v s
  | .fabricRequestAdmit done arrivals => Sys2Proof.Machine.execFabricRequestAdmit done arrivals s
  | .decodeHangExpire m => Sys2Proof.Machine.execDecodeHangExpire m s
  | .fabricMasterReset m w => Sys2Proof.Machine.execFabricMasterReset m w s
  | .i2cMramRead params n => Sys2Proof.Machine.execI2cMramRead params n s
  | .i2cRegRead params => Sys2Proof.Machine.execI2cRegRead params s
  | .i2cRegResult params => Sys2Proof.Machine.execI2cRegResult params s
  | .i2cRegWrite params => Sys2Proof.Machine.execI2cRegWrite params s
  | .i2cStatus code params => Sys2Proof.Machine.execI2cStatus code params s
  | .i2cResetM8 params => Sys2Proof.Machine.execI2cResetM8 params s
  | .i2cSclTimeout => Sys2Proof.Machine.execI2cSclTimeout s
  | .testInjectArm m cnt mask => Sys2Proof.Machine.execTestInjectArm m cnt mask s
  | .testInjectDisarm m => Sys2Proof.Machine.execTestInjectDisarm m s
  | .testPertWrite m k w => Sys2Proof.Machine.execTestPertWrite m k w s
  | .testMacStall m mac us => Sys2Proof.Machine.execTestMacStall m mac us s
  | .testMacStallExpire mac => Sys2Proof.Machine.execTestMacStallExpire mac s
  | .jtagInstruction code dr => Sys2Proof.Machine.execJtagInstruction code dr s
  | .jtagTrst => Sys2Proof.Machine.execJtagTrst s
  | .glitchFilterExpire pin level => Sys2Proof.Machine.execGlitchFilterExpire pin level s
  | .synthesiserLock synth => Sys2Proof.Machine.execSynthesiserLock synth s
  | .bridgeDirectionTrained d => Sys2Proof.Machine.execBridgeDirectionTrained d s
  | .refclkEdgeReturn x => Sys2Proof.Machine.execRefclkEdgeReturn x s
  | .mirrorLaneLockLoss lane => Sys2Proof.Machine.execMirrorLaneLockLoss lane s
  | .mirrorTimeMarker ack a b lockA lockB => Sys2Proof.Machine.execMirrorTimeMarker ack a b lockA lockB s
  | .pcieLinkUp speed width bar0 bar2 msixEn msixMask => Sys2Proof.Machine.execPcieLinkUp speed width bar0 bar2 msixEn msixMask s
  | .settingsOpDone => Sys2Proof.Machine.execSettingsOpDone s
  | .otResidualZero => Sys2Proof.Machine.execOtResidualZero s

end Sys2Proof.Machine
end

