-- ==== Sys2Proof/Safety.lean ====
section
/-! DEFINITION. The terms claims are made in: that a command answers, what a command leaves alone, and the canonical form
of the sparse memories. -/

namespace Sys2Proof.Machine

/-- Command c in state s answers a next state of which P holds. -/
def Answers (c : Instr) (s : State) (P : State → Prop) : Prop := ∃ t, exec c s = .next t ∧ P t

/-- The parts of the state that a command may change or leave alone. -/
inductive Area where
  | regs | core | flash | mram | life | settings | protect | pat | fab | test | img | upd | xp | vl | q | eng | comp
  | flow | aud | mac | ref | time | pair | fresh
  deriving DecidableEq, Repr

/-- A part has the same contents in both states. -/
def Area.same (s t : State) : Area → Prop
  | .regs => t.regs = s.regs
  | .core => t.core = s.core
  | .flash => t.long.flash = s.long.flash
  | .mram => t.long.mram = s.long.mram ∧ t.long.mramBad = s.long.mramBad
    ∧ t.long.mramSoft = s.long.mramSoft ∧ t.long.mramDead = s.long.mramDead
  | .life => t.long.life = s.long.life
  | .settings => t.long.settings = s.long.settings ∧ t.long.setSeq = s.long.setSeq
  | .protect => t.long.protect = s.long.protect
  | .pat => t.pat = s.pat
  | .fab => t.fab = s.fab
  | .test => t.test = s.test
  | .img => t.img = s.img
  | .upd => t.upd = s.upd
  | .xp => t.xp = s.xp
  | .vl => t.vl = s.vl
  | .q => t.q = s.q
  | .eng => t.eng = s.eng
  | .comp => t.comp = s.comp
  | .flow => t.flow = s.flow
  | .aud => t.aud = s.aud
  | .mac => t.mac = s.mac
  | .ref => t.ref = s.ref
  | .time => t.time = s.time
  | .pair => t.pair = s.pair
  | .fresh => t.fresh = s.fresh

/-- From s to t at most the parts w have changed; the queue of waiting commands is the same, and what has left the device
is only added to. -/
structure Within (w : List Area) (s t : State) : Prop where
  pending : t.pending = s.pending
  out : s.out <+: t.out
  same : ∀ p, p ∈ w ∨ p.same s t

/-- The registers through which a raise, a logged event or a refused write is reported: the FAULT block, the PATINA block,
the MSI-X region, PAIR_STAT (HEALTH and INSTEP follow the faults) and the IMG_REFUSE capture (03 R74; 16 R393; 17 R415-R422,
R427; 19 R471). -/
def alarmReg (a : Nat) : Bool :=
  (decide (0x00100000 ≤ a) && decide (a < 0x00200000)) || (decide (0x02A00000 ≤ a) && decide (a < 0x02C00000))
    || (decide (0x03F00000 ≤ a) && decide (a < 0x04000000)) || a == Reg.PAIR_STAT
    || (decide (0x02C00068 ≤ a) && decide (a ≤ 0x02C00074))

/-- From s to t no register has changed but those of which P holds. -/
def OnlyRegs (P : Nat → Prop) (s t : State) : Prop := ∀ a, ¬ P a → rget t a = rget s a

/-- From s to t no register has changed but those listed. -/
abbrev RegsWithin (l : List Nat) (s t : State) : Prop := OnlyRegs (· ∈ l) s t

/-- From s to t no register has changed but those listed and the registers that report a raise or a refusal. -/
abbrev RegsReported (l : List Nat) (s t : State) : Prop := OnlyRegs (fun a => alarmReg a = true ∨ a ∈ l) s t
/-- The captures name a refusal of this reason, where no refusal of the same cycle stands in them before it (03 R76). -/
abbrev RefusedFor (s t : State) (reason : Nat) : Prop :=
  s.core.refusal = none → fget t Reg.IMG_REFUSE_INFO Fld.IMG_REFUSE_INFO_REASON = reason

/-- A write and a read of master m at offset a reach their block now, and a write there is not kept back for the mirror
(16 R407). -/
structure Reaches (s : State) (m a : Nat) : Prop where
  gate : ∀ w, gate s m w a = .pass
  direct : m = 2 ∨ pairInUse s = false ∨ mirroredReg a = false

/-- What each command may change at most. A command that does not name an area leaves all of it alone: every register, FIFO
and memory byte in it. -/
def footprint (c : Instr) : List Area :=
  match c with
  | .aonPowerOn _ _ =>
      [.regs, .core, .mram, .life, .protect, .pat, .fab, .test, .img, .upd, .xp, .vl, .q, .eng, .comp, .flow, .aud,
       .mac, .ref, .time, .pair]
  | .supplyOutOfLimits _ | .resetNLow =>
      [.regs, .core, .flash, .settings, .pat, .fab, .test, .img, .upd, .xp, .vl, .q, .eng, .comp, .flow, .aud, .mac,
       .ref, .time, .pair]
  | .supplyWithinLimits _ | .switchWinEdge _ | .glitchFilterExpire _ _ => [.core]
  | .resetRelease _ _ => [.regs, .core, .mram, .life, .settings, .protect, .pat, .fab, .test]
  | .bootClocksLocked | .ctlLockTimeout | .vlaneCdrLock _ | .vlanePidTimeout _ | .asrcAcquireTimer _
    | .naPreambleTimeout _ | .mirrorAckTimeout _ | .pciePowerStateChange _ => [.regs]
  | .heatTjRead => [.regs, .core, .mram, .pat]
  | .heatSlowTimeout | .audStartEdge => [.regs, .core]
  | .hbmTrainDone _ _ | .imageStreamDone _ =>
      [.regs, .core, .mram, .pat, .test, .img, .upd, .xp, .vl, .q, .eng, .comp, .flow, .aud, .mac, .ref, .time,
       .pair, .fresh]
  | .hostBootGo _ _ | .faultStatusClear _ _ _ => [.regs, .core, .fab, .pair]
  | .stagingAreaWrite _ _ | .queueClose _ | .queueMark _ | .queueRewind _ | .queueRelease _ | .queueReset _
    | .pcieReset _ _ => [.regs, .core, .pat, .fab, .test, .q, .eng, .comp, .fresh]
  | .hostSafeRequest _ _ | .softReset _ _ | .registerWrite _ _ _ _ | .w1cStatusClear _ _ _ _ | .mirroredWrite _ _ _
    | .fabricRequestAdmit _ _ | .i2cRegRead _ | .i2cRegWrite _ =>
      [.regs, .core, .flash, .mram, .life, .settings, .pat, .fab, .test, .img, .upd, .xp, .vl, .q, .eng, .comp,
       .flow, .aud, .mac, .ref, .time, .pair, .fresh]
  | .tjSensorReading _ _ =>
      [.regs, .core, .mram, .life, .pat, .test, .img, .upd, .xp, .vl, .q, .eng, .comp, .flow, .aud, .mac, .ref,
       .time, .pair, .fresh]
  | .synthLossOfLock _ | .macAlignLoss _ _ | .arbBeatInterval _ _ _ _ _ | .pairNoActiveTimeout | .synthesiserLock _
    | .bridgeDirectionTrained _ => [.regs, .core, .pat]
  | .bridgeTransfer _ _ => [.regs, .core, .pat, .test]
  | .readClearCounter _ _ _ | .read64Low _ _ _ => [.regs, .fab, .upd, .time]
  | .imgRbDataRead _ | .tlutDataRead _ | .compLutDataRead _ | .scalerCoefDataRead _ | .i2cResetM8 _
    | .pcieLinkUp _ _ _ _ _ _ => [.regs, .fab]
  | .takeRecordWrite _ _ _ | .audTakeRecordWrite _ _ _ | .timeSnapshot _ | .msixUnmask _ | .fabricMasterReset _ _ =>
      [.regs, .fab, .pair]
  | .takePiWrite _ _ | .takeAbandon _ => [.regs, .core, .pat, .fab, .xp, .pair]
  | .salvoCommit _ _ | .batchRecord _ => [.regs, .core, .pat, .xp, .pair]
  | .planeCutoff _ | .fsyncHoldExpire _ => [.regs, .core, .pat, .xp]
  | .planeSwitchPoint _ | .castResume _ =>
      [.regs, .core, .mram, .pat, .fab, .test, .img, .upd, .xp, .vl, .q, .eng, .comp, .flow, .aud, .mac, .ref, .time,
       .pair, .fresh]
  | .destSwitchLineRead _ => [.regs, .core, .pat, .test, .xp, .vl, .q, .pair]
  | .destLineRead _ _ _ => [.regs, .core, .pat, .test, .xp, .vl, .aud, .fresh]
  | .sourceSwitchLineArrival _ _ _ => [.regs, .xp]
  | .sourceFrameMeasured _ _ => [.regs, .core, .pat, .xp, .ref]
  | .fsyncFrameComplete _ => [.regs, .core, .pat, .test, .xp, .q]
  | .vlaneRateSearchTimeout _ | .vlaneAlignTimeout _ | .vlanePidPacket _ _ _ | .dpUnplugTimeout _ => [.regs, .vl]
  | .vlaneFrameAligned _ _ _ | .vlaneCdrLoss _ | .vlaneEavMissing _ => [.regs, .core, .pat, .xp, .vl, .ref]
  | .vlaneLineReceived _ _ _ => [.regs, .core, .pat, .test, .xp, .vl, .fresh]
  | .sdiAudioPacket _ _ _ _ _ _ _ | .sapClkLossTimeout _ | .asrcClockLossTimeout _ => [.regs, .core, .pat, .aud]
  | .ancPacketCapture _ _ _ _ _ _ _ _ _ => [.regs, .core, .pat, .test, .vl, .q, .fresh]
  | .dpHpdRise _ _ | .dpHpdFall _ => [.regs, .core, .vl]
  | .dpTrainDone _ _ _ _ _ _ | .dpAuxReply _ _ _ | .dpAuxTimeout _ => [.regs, .core, .pat, .vl]
  | .dpRetrain _ _ | .dpLinkEnableWrite _ _ _ | .dpAuxNativeRead _ _ _ _ | .dpAuxNativeWrite _ _ _ _
    | .dpAuxI2cRead _ _ _ _ | .dpAuxI2cWrite _ _ _ _ => [.regs, .core, .pat, .fab, .vl, .pair]
  | .macCdrLock _ | .macCdrLoss _ | .macAlignTimerExpire _ | .macFaultSequence _ _ | .macEnChange _ _ =>
      [.regs, .core, .pat, .mac]
  | .macRxFrame _ _ _ _ _ _ => [.regs, .core, .pat, .test, .q, .flow, .mac, .fresh]
  | .macPauseExpire _ | .macTxDiscard _ => [.regs, .mac]
  | .macTxFrameEnd _ | .macInjectRecord _ => [.regs, .core, .pat, .test, .q, .mac, .fresh]
  | .legContextCommit _ _ _ | .flowAudioCfgCommit _ _ _ _ => [.regs, .core, .pat, .fab, .flow, .pair]
  | .flowLineRead _ _ _ _ => [.regs, .core, .pat, .test, .xp, .flow, .ref, .time, .fresh]
  | .flowSkewWindow _ _ | .flowPathSilentTimeout _ _ _ => [.regs, .core, .pat, .flow]
  | .flowTxPacketDue _ | .flowAudioTxPacket _ | .flowAncTxSend _ => [.regs, .core, .pat, .flow, .mac]
  | .flowAudioDelivery _ _ => [.regs, .core, .pat, .flow, .aud, .time]
  | .flowAncRxClose _ _ => [.regs, .core, .pat, .test, .q, .flow, .time, .fresh]
  | .queueWrite _ _ _ | .queueCapWrite _ _ => [.regs, .core, .pat, .fab, .test, .q, .fresh]
  | .queueRead _ _ _ => [.regs, .core, .mram, .pat, .fab, .test, .q]
  | .hbmRequestAdmit _ _ _ => [.regs, .q]
  | .scrubRead _ _ => [.regs, .core, .pat, .test, .q]
  | .taskPush _ | .slotBandIssue _ _ _ | .quadLoadSecond _ => [.regs, .eng]
  | .engineTakeTask _ _ _ => [.regs, .eng, .fresh]
  | .taskComplete _ _ _ _ => [.regs, .core, .pat, .test, .q, .eng, .comp, .fresh]
  | .slotBandDeadline _ _ => [.regs, .core, .pat, .test, .xp, .q, .eng]
  | .slotInputFrameStart _ => [.regs, .core, .pat, .xp, .eng]
  | .engineMemoryError _ _ _ _ _ => [.regs, .core, .pat, .test, .xp, .eng]
  | .engineAbortTimeout _ => [.regs, .core, .pat, .eng]
  | .engQuarantineEngine _ _ | .engQuarantineCluster _ _ | .engQuarantineRelease _ _ _ | .tlutDataWrite _ _
    | .tlutCommit _ _ _ => [.regs, .core, .pat, .fab, .eng, .pair]
  | .compCutoff _ | .compDeadline _ => [.regs, .core, .pat, .test, .q, .eng, .comp]
  | .layerDescriptorCommit _ _ | .compLutDataWrite _ _ | .compLutCommit _ _ _ _ | .scalerCoefDataWrite _ _
    | .scalerCoefCommit _ _ _ _ => [.regs, .core, .pat, .fab, .comp, .pair]
  | .sapFrameSync _ _ _ | .asrcWindowEnd _ _ _ => [.regs, .core, .pat, .aud, .fresh]
  | .sapMaskCommit _ _ _ _ | .sapGroupMaskCommit _ _ | .sapGroupArm _ _ | .sapGroupDisarm _ _ | .sapGroupStartNow _ _
    | .sapGroupAtEnable _ _ _ | .audTakePiWrite _ _ | .audTakeAbandon _ | .mixEntryWrite _ _ _ _ _
    | .toneModeWrite _ _ _ | .meterClear _ _ => [.regs, .core, .pat, .fab, .aud, .pair]
  | .sapGroupAtReached _ | .tpoTargetReached _ | .tpoPulseEnd _ => [.regs, .core, .time]
  | .naCsBlock _ | .naPreambleDetect _ | .meterBlockEnd _ => [.regs, .aud]
  | .audSample => [.regs, .core, .pat, .vl, .flow, .aud, .fresh]
  | .audSalvoCommit => [.regs, .core, .pat, .aud, .pair]
  | .refFramePulse _ _ _ _ | .xoHoldActivityExpire | .planeLockTimer _ | .refclkEdgeReturn _ => [.regs, .core, .pat, .ref]
  | .refActivityExpire _ _ _ => [.regs, .core, .pat, .test, .ref]
  | .refMeasureWindowEnd _ _ _ _ _ => [.regs, .core, .pat, .test, .ref, .time]
  | .planeLockoutWrite _ _ _ | .planeBwWrite _ _ _ => [.regs, .core, .pat, .fab, .ref, .pair]
  | .planeJump _ => [.regs, .core, .pat, .test, .xp, .vl, .q, .eng, .comp, .flow, .aud, .ref, .time, .pair, .fresh]
  | .switchResidualZero _ | .holdoverLimitExpire _ | .tkLockTimeout _ => [.regs, .core, .pat, .ref, .time]
  | .tkSet _ _ | .tkAdj _ _ | .tkLockSet _ _ | .tkLockClr _ _ => [.regs, .core, .pat, .fab, .ref, .time, .pair]
  | .tkIncrWrite _ _ _ | .otSelectWrite _ _ _ | .otSnap _ | .tpoCommit _ _ | .tpoDisable _ _ =>
      [.regs, .core, .pat, .fab, .time, .pair]
  | .tciEdge _ _ => [.regs, .core, .pat, .time]
  | .tciTsRead _ _ => [.regs, .fab, .time]
  | .arbRoleChange _ => [.regs, .core, .life, .pat, .test, .xp, .aud, .mac, .pair]
  | .pairEnableWrite _ _ => [.regs, .core, .pat, .fab, .test, .xp, .aud, .mac, .pair]
  | .mirrorHealthSend => [.pair]
  | .mirrorHealthMsg _ _ _ _ _ | .mirrorMarkerMsg _ _ _ _ _ _ | .mirrorDoneMsg _ _ _ _ | .mirrorSignaturesMsg _ _ _ _
    | .mirrorCopyMsg _ _ | .mirrorTimeMarker _ _ _ _ _ => [.regs, .core, .pat, .test, .pair]
  | .mirrorJournalMsg _ _ _ _ _ => [.regs, .core, .pat, .test, .xp, .aud, .pair]
  | .mirrorAckMsg _ _ => [.regs, .core, .pat, .test, .xp, .pair]
  | .mirrorSilenceTimeout | .mirrorLanesLocked | .mirrorAlignDone | .marginScanDwell _ _ | .mirrorLaneLockLoss _ =>
      [.regs, .core, .pat, .pair]
  | .mirroredWritePresent => [.regs, .core, .pat, .xp, .vl, .eng, .comp, .flow, .aud, .ref, .pair]
  | .faultSevWrite _ _ _ | .patinaHostRecord _ _ => [.regs, .core, .pat, .fab, .pair]
  | .patinaRecordWrite _ | .keepBoundary => [.regs, .mram, .pat]
  | .patinaTokenTick => [.regs, .pat]
  | .powerFail => [.regs, .core, .mram, .life, .protect, .pat]
  | .keepFinalFlush => [.regs, .mram, .protect, .pat]
  | .powerRestore _ => [.regs, .core, .protect, .pat]
  | .keepClear _ => [.regs, .mram, .pat, .fab, .pair]
  | .lifetimeCounterUpdate _ => [.mram, .life, .pat]
  | .flashErase _ | .flashProgram _ | .flashRead _ => [.regs, .core, .pat, .fab, .upd, .pair]
  | .flashOpDone _ => [.regs, .core, .flash, .pat, .upd, .fresh]
  | .maqVerify _ _ | .cast _ _ _ _ | .confirm _ => [.regs, .core, .mram, .settings, .pat, .fab, .upd, .pair]
  | .maqVerifyDone _ => [.regs, .core, .pat, .upd]
  | .castPreloadDone _ => [.regs, .core, .pat, .upd, .q]
  | .castPauseStart => [.regs, .core, .mram, .life, .settings, .pat, .test, .upd, .xp, .q, .aud, .time, .pair]
  | .confirmWindowExpire => [.regs, .core, .life, .settings, .pat, .upd, .time]
  | .settingsWrite _ _ | .settingsRead _ _ | .settingsDelete _ _ => [.regs, .fab, .upd, .pair, .fresh]
  | .settingsDataAccess _ _ => [.regs, .fab, .upd, .pair]
  | .decodeHangExpire _ => [.regs, .core, .pat, .fab]
  | .i2cMramRead _ _ => [.regs, .core, .mram, .pat, .test]
  | .i2cRegResult _ | .i2cStatus _ _ | .i2cSclTimeout => []
  | .testInjectArm _ _ _ | .testInjectDisarm _ | .testPertWrite _ _ _ | .testMacStall _ _ _ =>
      [.regs, .core, .pat, .fab, .test, .pair]
  | .testMacStallExpire _ => [.regs, .test, .mac]
  | .jtagInstruction _ _ | .jtagTrst => [.test]
  | .settingsOpDone => [.regs, .core, .settings, .pat, .upd]
  | .otResidualZero => [.core, .time]

/-- Every sparse byte memory is in its canonical form: addresses strictly rising, no entry equal to what an unlisted address
reads as. -/
abbrev Memory.wf (s : State) : Prop :=
  mapWf (fun _ => (0 : BitVec 8)) s.long.mram = true ∧ mapWf (fun _ => (0xFF : BitVec 8)) s.long.flash = true ∧
    mapWf (hbmDefault s 0) s.q.staging = true ∧ mapWf (hbmDefault s 1) s.q.surf = true

/-- A flash operation under way reads, or lies in a slot (18 R444). -/
def FlashOpOk (s : State) : Prop := ∀ op x, s.upd.flashOp = some (op, x) → op = 3 ∨ flashRegion x = 1 ∨ flashRegion x = 2

/-- Every register is exactly as at reset, but for GLOBAL_RESET_CAUSE and PAT_STAT. -/
def RegsAtReset (s : State) : Prop :=
  rget s Reg.GLOBAL_RESET_CAUSE = 1 ∧ ∀ a, a ≠ Reg.GLOBAL_RESET_CAUSE → a ≠ Reg.PAT_STAT → rget s a = regDefault a

end Sys2Proof.Machine
end

