-- ==== Sys2Proof/Certificates/Slice0/Obligations.lean ====
section
/-! DEFINITION. The statements about the machine, for the provers. Each docstring names the file and the rules of the spec it
rests on; OBLIGATIONS.json lists them. -/

open Sys2Proof Sys2Proof.Machine

/-- A step takes the command at the front of the queue and runs it on the state whose queue is the rest. -/
def Obligations.StepRunsFront : Prop :=
  ∀ (c : Instr) (rest : List Instr) (s : State), s.pending = c :: rest → step s = exec c { s with pending := rest }

/-- The model's choice (log entries 7 and 70): on an empty queue a step is one tick of the 800 MHz time clock, which
changes the time block and the time since reset only, but where it ends step 2, 3, 7, 8 or 9 of a cold boot; a
timekeeper that runs adds its INCR. -/
def Obligations.IdleTick : Prop :=
  ∀ s : State, s.pending = [] → ∃ t, step s = .next t ∧
    (inColdBoot s = false ∨ bootStep s ∉ [2, 3, 7, 8, 9] ∨ (bootStep s = 3 ∧ heating s = true) → Within [.time, .core] s t ∧
      t.core = { s.core with sinceReset := if mode s = .reset then s.core.sinceReset else s.core.sinceReset + 1 }) ∧
    (running s = true → t.time.tkA = (s.time.tkA + s.time.incrA) % 2 ^ 96 ∧ t.time.tkB = (s.time.tkB + s.time.incrB) % 2 ^ 96)

/-- 02 R30, R33, R52: after power-on the device is in the cold form of BOOT with cause POR, every other register at its
reset value but PAT_STAT.READY, since the head of the journal has been found; the memories' content, the pins and the
reset values the spec does not state are the model's choices (log entries 1 to 5). -/
def Obligations.ResetState : Prop :=
  State.reset.pending = [] ∧ State.reset.out = [] ∧ mode State.reset = .boot ∧ inCast State.reset = false ∧
  RegsAtReset State.reset ∧ fbit State.reset Reg.PAT_STAT Fld.PAT_STAT_READY = true ∧ Memory.wf State.reset ∧ FlashOpOk State.reset ∧
  (∀ x, mramByte State.reset x = 0 ∧ flashByte State.reset x = 0xFF)

/-- 02 R26: in BOOT and SAFE, an access to a block that Table 2.1 does not list for that mode completes normally: a read
returns 0, a write is ignored, and no access hangs, whatever the block would have done. (An access that the matrix
holds back is issued later; one that its master cannot make, `linkGate`, is not made.). -/
def Obligations.SilentBlocks : Prop :=
  ∀ (m : Fin 9) (a : Nat) (s : State), mode s = .boot ∨ mode s = .safe → linkGate s m (blockPort a) = none →
    (∀ w, holdCause s s.fab.held m w (blockPort a) = none) → blockOf a ≠ .gap → blockOf a ≠ .beyond →
    blockOf a ∉ [.global, .fault, .patina, .img, .fabric, .pinctl, .msix] →
    (∀ (w : Word) (eff : State → State), hostWrite m a w eff s = s) ∧
    (∀ eff : State → Nat × State, hostRead m a eff s = emit s (.readData m a 0)) ∧
    (∀ (w : Word), a % 4 = 0 → a < 2 ^ 26 →
      Answers (.registerWrite m (BitVec.ofNat 26 a) 4 (w.setWidth 64)) s (fun t => t = s) ∧
      Answers (.readClearCounter m (BitVec.ofNat 26 a) 4) s (fun t => t = emit s (.readData m a 0)))

/-- 19 R482: an access that is a decode error is taken and never answered; it stands in its master's outstanding count and
in FABRIC_STAT.HUNG, and the later accesses of that master that must follow it wait: of M0 all of them, a bad size too
(the model's choice, log entry 15); else a write behind a write of the same target, a read behind a read and behind a
write of the same target (R479). -/
def Obligations.DecodeErrors : Prop :=
  ∀ (m : Fin 9) (a : Nat) (s : State), (∀ w, gate s m w a = .error) →
    fget s (Reg.FABRIC_OUTST m) Fld.FABRIC_OUTST_READS < 16 → fget s (Reg.FABRIC_OUTST m) Fld.FABRIC_OUTST_WRITES < 16 →
    (∀ (w : Word) (eff : State → State),
      let t := hostWrite m a w eff s
      t.out = s.out ∧ t.fab.hung = s.fab.hung ++ [{ master := m, write := true, bar := 0, addr := a }] ∧
      fget t (Reg.FABRIC_OUTST m) Fld.FABRIC_OUTST_WRITES = fget s (Reg.FABRIC_OUTST m) Fld.FABRIC_OUTST_WRITES + 1 ∧
      bitOf m (fget t Reg.FABRIC_STAT Fld.FABRIC_STAT_HUNG) = true ∧
      RegsWithin [Reg.FABRIC_OUTST m, Reg.FABRIC_MATRIX_OUTST, Reg.FABRIC_STAT] s t) ∧
    (∀ eff : State → Nat × State,
      let t := hostRead m a eff s
      t.out = s.out ∧ t.fab.hung = s.fab.hung ++ [{ master := m, write := false, bar := 0, addr := a }] ∧
      fget t (Reg.FABRIC_OUTST m) Fld.FABRIC_OUTST_READS = fget s (Reg.FABRIC_OUTST m) Fld.FABRIC_OUTST_READS + 1 ∧
      bitOf m (fget t Reg.FABRIC_STAT Fld.FABRIC_STAT_HUNG) = true ∧
      RegsWithin [Reg.FABRIC_OUTST m, Reg.FABRIC_MATRIX_OUTST, Reg.FABRIC_STAT] s t) ∧
    (∀ (wr : Bool) (b : Nat) (w : Word),
      let t := if wr then hostWrite m a w id s else hostRead m a (fun s => (0, s)) s
      linkGate t m (blockPort b) = none →
      (m = 0 ∨ (wr = true ∧ blockPort b = blockPort a) → ∀ (v : Word) (eff : State → State),
        (hostWrite m b v eff t).out = t.out ∧
        (hostWrite m b v eff t).fab.held = t.fab.held ++ [{ master := m, write := true, addr := b, data := v }]) ∧
      (m = 0 ∨ wr = false ∨ blockPort b = blockPort a → ∀ eff : State → Nat × State,
        (hostRead m b eff t).out = t.out ∧
        (hostRead m b eff t).fab.held = t.fab.held ++ [{ master := m, write := false, addr := b }]) ∧
      (m = 0 → ∀ d, (badSize m d b t).out = t.out ∧ rgetN (badSize m d b t) Reg.FABRIC_BADSIZE = rgetN t Reg.FABRIC_BADSIZE)) ∧
    (∀ w : Word, a % 4 = 0 → a < 2 ^ 26 →
      Answers (.registerWrite m (BitVec.ofNat 26 a) 4 (w.setWidth 64)) s (fun t => t = hangOn m true 0 a s))

/-- 20 R490: a write to a TEST register whose facility is not available completes, changes no test facility, sets
TEST_STAT.IGNORED, increments TEST_IGNORED and is no refusal. -/
def Obligations.TestUnavailable : Prop :=
  ∀ (m : Fin 9) (a : Nat) (w : Word) (s : State),
    (injOk s = false ∧ (a = Reg.TEST_INJ_TARGET ∨ a = Reg.TEST_INJ_CTRL)) ∨ (pertOk s = false ∧ a ∈ pertRegs) →
    let ignored (fab : Fabric) (t : State) : Prop := t.test = s.test ∧ t.out = s.out ∧ t.fab = fab ∧
      fbit t Reg.TEST_STAT Fld.TEST_STAT_IGNORED = true ∧
      rgetN t Reg.TEST_IGNORED = min 0xFFFFFFFF (rgetN s Reg.TEST_IGNORED + 1) ∧
      RegsWithin [Reg.TEST_STAT, Reg.TEST_IGNORED] s t
    ignored s.fab (testWrite a w s) ∧
    (Reaches s m a → Answers (.registerWrite m (BitVec.ofNat 26 a) 4 (w.setWidth 64)) s (ignored (grantTo (blockPort a) m s).fab))

/-- 19 R468: in D3hot a memory request to BAR0 or BAR2 is answered as Unsupported Request and has no effect; entering
D3hot and returning to D0 change no register but the power state's own bit, and nothing else in the device. -/
def Obligations.PowerStateD3hot : Prop :=
  (∀ (a : Nat) (s : State), (∀ w, gate s 0 w a ≠ .absent) → fbit s Reg.FABRIC_PCIE_STAT Fld.FABRIC_PCIE_STAT_D3HOT = true →
    (∀ (w : Word) (eff : State → State), hostWrite 0 a w eff s = emit s (.unsupported 0 a)) ∧
    (∀ eff : State → Nat × State, hostRead 0 a eff s = emit s (.unsupported 0 a)) ∧
    (∀ (mapped : Bool) (bs : List Nat) (eff : State → State), bar2Write mapped a bs eff s = emit s (.unsupported 0 a)) ∧
    (∀ (n : Fin 513) (errs : Fin 3), a < 2 ^ 30 →
      Answers (.queueRead (BitVec.ofNat 30 a) n errs) s (fun t => t = emit s (.unsupported 0 a))) ∧
    (∀ bytes : List Byte, a < 2 ^ 30 →
      Answers (.stagingAreaWrite (BitVec.ofNat 30 a) bytes) s (fun t => t = emit s (.unsupported 0 a))) ∧
    (∀ w : Word, a < 2 ^ 26 → a % 4 = 0 →
      Answers (.registerWrite 0 (BitVec.ofNat 26 a) 4 (w.setWidth 64)) s (fun t => t = emit s (.unsupported 0 a)))) ∧
  (∀ (d3 : Bool) (s : State), fbit s Reg.FABRIC_PCIE_STAT Fld.FABRIC_PCIE_STAT_UP = true →
    Answers (.pciePowerStateChange d3) s (fun t =>
      fbit t Reg.FABRIC_PCIE_STAT Fld.FABRIC_PCIE_STAT_D3HOT = d3 ∧ Within [.regs] s t ∧
      RegsWithin [Reg.FABRIC_PCIE_STAT] s t ∧
      ∀ f ∈ [Fld.FABRIC_PCIE_STAT_UP, Fld.FABRIC_PCIE_STAT_SPEED, Fld.FABRIC_PCIE_STAT_WIDTH],
        fget t Reg.FABRIC_PCIE_STAT f = fget s Reg.FABRIC_PCIE_STAT f))

/-- What a command may change: every command completes in every state, and changes no area of the state that its footprint
does not list, nor the queue of waiting commands; what has left the device is only added to. -/
def Obligations.Footprint : Prop :=
  ∀ (c : Instr) (s : State), Answers c s (Within (footprint c) s)

/-- 18 R443, R444: no step changes a byte of the plinth in the flash array, and a flash operation under way reads or lies
in a slot. That no step changes a byte of the settings region there either is the model's choice (log entry 48): the
records that R459 to R462 program and erase stand in a field of their own. -/
def Obligations.FlashIsolation : Prop :=
  ∀ s t : State, FlashOpOk s → step s = .next t → FlashOpOk t ∧
    ∀ x, flashRegion x = 0 ∨ flashRegion x = 3 → flashByte t x = flashByte s x

/-- 17 R431, R432, Table 17.7: while the write protection of the MRAM holds, no step changes a byte of it. -/
def Obligations.MramProtection : Prop :=
  ∀ s t : State, s.long.protect = true → step s = .next t → t.long.protect = true → ∀ x, mramByte t x = mramByte s x

/-- Every step keeps every byte memory in its canonical form. -/
def Obligations.MemoryCanonical : Prop :=
  ∀ s t : State, Memory.wf s → step s = .next t → Memory.wf t

/-- 15 R373, R374, R376: what a SET does to the time, and what an ADJ does; at that tick every timekeeper takes its INCR.
15 R376: LOCK_SET asserts LOCKED of a valid timekeeper and starts its timer of LOCK_HOLD_MS, LOCK_CLR and the timer's
expiry clear LOCKED; the time itself goes on. 15 R372: a write of INCR_HI applies both halves or, outside ±1,000 ppm,
is refused with reason 2. -/
def Obligations.Timekeepers : Prop :=
  (∀ (m : Fin 9) (k : Fin 2) (s : State), Reaches s m (Reg.TIME_TK_CTRL k) → running s = true →
    let incr (j : Fin 2) : Nat := if j = 0 then s.time.incrA else s.time.incrB
    Answers (.tkSet m k) s (fun t =>
      tkRaw t k = rget64 s (Reg.TIME_TK_SET_LO k) (Reg.TIME_TK_SET_HI k) * 2 ^ 32 % 2 ^ 96 ∧
      tkRaw t (1 - k) = (tkRaw s (1 - k) + incr (1 - k)) % 2 ^ 96 ∧ tkValid t k = true ∧ tkLocked t k = false ∧
      fget t (Reg.TIME_TK_STAT k) Fld.TIME_TK_STAT_GEN = (fget s (Reg.TIME_TK_STAT k) Fld.TIME_TK_STAT_GEN + 1) % 256) ∧
    Answers (.tkAdj m k) s (fun t =>
      tkRaw t k = ofInt 96 ((tkRaw s k : Int) + tkAdjNs s k * 2 ^ 32 + incr k) ∧
      tkRaw t (1 - k) = (tkRaw s (1 - k) + incr (1 - k)) % 2 ^ 96 ∧ tkValid t k = tkValid s k ∧
      tkLocked t k = (tkLocked s k && decide ((tkAdjNs s k).natAbs ≤ 1000)) ∧
      fget t (Reg.TIME_TK_STAT k) Fld.TIME_TK_STAT_GEN = (fget s (Reg.TIME_TK_STAT k) Fld.TIME_TK_STAT_GEN + 1) % 256)) ∧
  (∀ (m : Fin 9) (k : Fin 2) (s : State), tkValid s k = true →
    (Reaches s m (Reg.TIME_TK_CTRL k) →
      Answers (.tkLockSet m k) s (fun t => tkLocked t k = true ∧ lockRun t k = true ∧ tkRaw t k = tkRaw s k ∧
        lockEnd t k = nowTicks s + 800000 * tkLockHoldMs s.img k) ∧
      Answers (.tkLockClr m k) s (fun t => tkLocked t k = false ∧ tkRaw t k = tkRaw s k)) ∧
    (lockRun s k = true → tkLocked s k = true → running s = true → tkRaw s k < 2 ^ 96 →
      Answers (.tkLockTimeout k) s (fun t => tkLocked t k = false ∧ lockRun t k = false ∧
        nowTicks t = max (nowTicks s) (lockEnd s k) ∧
        tkRaw t k = (tkRaw s k + (lockEnd s k - nowTicks s) * (if k = 0 then s.time.incrA else s.time.incrB)) % 2 ^ 96))) ∧
  (∀ (m : Fin 9) (k : Fin 2) (w : Word) (s : State), Reaches s m (Reg.TIME_TK_INCR_HI k) →
    let v := w.toNat % 256 * 2 ^ 32 + rgetN s (Reg.TIME_TK_INCR_LO k)
    Answers (.tkIncrWrite m k w) s (fun t =>
      if 0x013FAE147B ≤ v ∧ v ≤ 0x014051EB85 then
        (if k = 0 then t.time.incrA else t.time.incrB) = v ∧ tkRaw t k = tkRaw s k ∧
        RegsWithin [Reg.TIME_TK_INCR_HI k] s t
      else
        t.time = s.time ∧ RefusedFor s t 2 ∧
        (s.core.refusal = none → rgetN t Reg.IMG_REFUSE_ADDR = Reg.TIME_TK_INCR_HI k) ∧
        rgetN t Reg.IMG_REFUSE_COUNT = min 0xFFFFFFFF (rgetN s Reg.IMG_REFUSE_COUNT + 1) ∧ RegsReported [] s t))

/-- 15 R380-R382: the output time goes on without a step when it changes timekeeper; SNAP waits for the next tick; the
residual slews to 0. -/
def Obligations.OutputTime : Prop :=
  (∀ (m : Fin 9) (sel auto : Bool) (s : State), Reaches s m Reg.TIME_OT_CTRL → running s = true →
    Answers (.otSelectWrite m sel auto) s (fun t =>
      fget t Reg.TIME_OT_CTRL Fld.TIME_OT_CTRL_SEL = b2n sel ∧ fbit t Reg.TIME_OT_CTRL Fld.TIME_OT_CTRL_AUTO = auto ∧
      t.time.cur = otTarget t ∧ otRaw t = otRaw s ∧ t.time.tkA = s.time.tkA ∧ t.time.tkB = s.time.tkB ∧
      RegsReported [Reg.TIME_OT_CTRL, Reg.TIME_OT_SWITCHES] s t)) ∧
  (∀ (m : Fin 9) (s : State), Reaches s m Reg.TIME_OT_CTRL →
    Answers (.otSnap m) s (fun t => t.time.snapPending = true ∧
      fget t Reg.TIME_OT_CTRL Fld.TIME_OT_CTRL_SEL = fget s Reg.TIME_OT_CTRL Fld.TIME_OT_CTRL_SEL ∧
      fget t Reg.TIME_OT_CTRL Fld.TIME_OT_CTRL_AUTO = fget s Reg.TIME_OT_CTRL Fld.TIME_OT_CTRL_AUTO ∧
      otRaw t = otRaw s ∧ (advanceTicks 1 t).time.resid = if running s then 0 else t.time.resid)) ∧
  (∀ s : State, running s = true → s.time.snapPending = false → s.time.tkA < 2 ^ 96 →
    Answers .otResidualZero s (fun t => t.time.resid = 0 ∧ t.regs = s.regs ∧
      t.time.tkA = (s.time.tkA + cdiv s.time.resid.natAbs 53687 * s.time.incrA) % 2 ^ 96))

/-- 15 R384, R385: a pulse program on the timekeeper that owns its pin is committed, or late where its single start has
passed, fires at its target, falls WIDTH later, and is put off; a pulse in progress goes on across a commit. 15 R386,
R387: an edge chosen by EDGE is stamped with the owner's time and queued, or counted when 16 wait; a read takes the
oldest stamp; a snapshot holds both timekeepers and the output time. -/
def Obligations.PulsesAndCaptures : Prop :=
  (∀ (m : Fin 9) (n : Fin 8) (k : Nat) (s : State), tpoTk s.img n = some k →
    (Reaches s m (Reg.TIME_TPO_CTRL n) → 10 ≤ rgetN s (Reg.TIME_TPO_WIDTH n) →
      let period := rgetN s (Reg.TIME_TPO_PERIOD n)
      let start := rget64 s (Reg.TIME_TPO_START_LO n) (Reg.TIME_TPO_START_HI n)
      (period = 0 ∧ cdiv (tkRaw s k) (2 ^ 32) ≤ start) ∨
        (100 ≤ period ∧ rgetN s (Reg.TIME_TPO_WIDTH n) + 10 ≤ period) →
      Answers (.tpoCommit m n) s (fun t =>
        fget t (Reg.TIME_TPO_STAT n) Fld.TIME_TPO_STAT_STATE = (if (tpoProg s n).high then 2 else 1) ∧
        (tpoProg t n).armed = true ∧ (tpoProg t n).high = (tpoProg s n).high ∧
        (tpoProg t n).start = start ∧ (tpoProg t n).period = period ∧
        start ≤ (tpoProg t n).next ∧ cdiv (tkRaw s k) (2 ^ 32) ≤ (tpoProg t n).next ∧
        ((tpoProg t n).next = start ∨ ((tpoProg t n).next < cdiv (tkRaw s k) (2 ^ 32) + period ∧
          (tpoProg t n).next % period = start % period)) ∧
        RegsWithin [Reg.TIME_TPO_CTRL n, Reg.TIME_TPO_STAT n] s t)) ∧
    (Reaches s m (Reg.TIME_TPO_CTRL n) → 10 ≤ rgetN s (Reg.TIME_TPO_WIDTH n) → rgetN s (Reg.TIME_TPO_PERIOD n) = 0 →
      rget64 s (Reg.TIME_TPO_START_LO n) (Reg.TIME_TPO_START_HI n) < cdiv (tkRaw s k) (2 ^ 32) →
      Answers (.tpoCommit m n) s (fun t =>
        fget t (Reg.TIME_TPO_STAT n) Fld.TIME_TPO_STAT_STATE = (if (tpoProg s n).high then 2 else 3) ∧
        fbit t (Reg.TIME_TPO_STAT n) Fld.TIME_TPO_STAT_LATE = true ∧ (tpoProg t n).armed = false ∧
        RegsReported [Reg.TIME_TPO_CTRL n, Reg.TIME_TPO_STAT n] s t)) ∧
    (Reaches s m (Reg.TIME_TPO_CTRL n) → Answers (.tpoDisable m n) s (fun t =>
      fget t (Reg.TIME_TPO_STAT n) Fld.TIME_TPO_STAT_STATE = 0 ∧ tpoProg t n = {} ∧ t.core.tpo.getLsbD n = false ∧
      RegsWithin [Reg.TIME_TPO_CTRL n, Reg.TIME_TPO_STAT n] s t)) ∧
    ((tpoProg s n).armed = true → running s = true → Answers (.tpoTargetReached n) s (fun t =>
      t.core.tpo.getLsbD n = true ∧ fget t (Reg.TIME_TPO_STAT n) Fld.TIME_TPO_STAT_STATE = 2 ∧
      rgetN t (Reg.TIME_TPO_FIRED n) = min 0xFFFFFFFF (rgetN s (Reg.TIME_TPO_FIRED n) + 1) ∧
      (tpoProg t n).armed = decide ((tpoProg s n).period ≠ 0) ∧
      (tpoProg t n).next = (tpoProg s n).next + (tpoProg s n).period)) ∧
    ((tpoProg s n).high = true → Answers (.tpoPulseEnd n) s (fun t =>
      t.core.tpo.getLsbD n = false ∧ (tpoProg t n).high = false ∧
      fget t (Reg.TIME_TPO_STAT n) Fld.TIME_TPO_STAT_STATE = (if (tpoProg s n).armed then 1 else 3) ∧
      RegsWithin [Reg.TIME_TPO_STAT n] s t))) ∧
  ((∀ (n : Fin 4) (rising : Bool) (k : Nat) (s : State), tciTk s.img n = some k → running s = true →
    fbit s (Reg.TIME_TCI_CTRL n) Fld.TIME_TCI_CTRL_EN = true →
    (let e := fget s (Reg.TIME_TCI_CTRL n) Fld.TIME_TCI_CTRL_EDGE
     (rising = true ∧ e ≠ 2) ∨ (rising = false ∧ (e = 2 ∨ e = 3))) →
    Answers (.tciEdge n rising) s (fun t =>
      if (tciFifo s n).length < 16 then
        tciFifo t n = tciFifo s n ++ [stampNow s k (if rising then 0 else 1)] ∧
        RegsWithin [Reg.TIME_TCI_STAT n] s t
      else tciFifo t n = tciFifo s n ∧ fbit t (Reg.TIME_TCI_STAT n) Fld.TIME_TCI_STAT_OVF = true ∧
        rgetN t (Reg.TIME_TCI_DROP n) = min 0xFFFFFFFF (rgetN s (Reg.TIME_TCI_DROP n) + 1))) ∧
  (∀ (m : Fin 9) (n : Fin 4) (x : Stamp) (l : List Stamp) (s : State), (∀ w, gate s m w (Reg.TIME_TCI_TS n 0) = .pass) →
    tciFifo s n = x :: l → l.length < 16 →
    Answers (.tciTsRead m n) s (fun t => tciFifo t n = l ∧
      t.out = s.out ++ [.readData m (Reg.TIME_TCI_TS n 0) (w32 x.w0)] ∧
      fget t (Reg.TIME_TCI_STAT n) Fld.TIME_TCI_STAT_COUNT = l.length ∧
      rgetN t (Reg.TIME_TCI_TS n 1) = x.w1 % 2 ^ 32 ∧ rgetN t (Reg.TIME_TCI_TS n 2) = x.w2 % 2 ^ 32 ∧
      rgetN t (Reg.TIME_TCI_TS n 3) = x.w3 % 2 ^ 32)) ∧
  (∀ (m : Fin 9) (s : State), Reaches s m Reg.TIME_SNAP →
    Answers (.timeSnapshot m) s (fun t =>
      rget64 t (Reg.TIME_SNAP_W 0) (Reg.TIME_SNAP_W 1) = tkNs s 0 % 2 ^ 64 ∧
      rget64 t (Reg.TIME_SNAP_W 2) (Reg.TIME_SNAP_W 3) = tkNs s 1 % 2 ^ 64 ∧
      rget64 t (Reg.TIME_SNAP_W 4) (Reg.TIME_SNAP_W 5) = otNs s % 2 ^ 64 ∧
      t.time = s.time ∧ RegsWithin ((List.range 6).map Reg.TIME_SNAP_W) s t)))

/-- 17 R416, R420, R421: a clear leaves the conditions that are present; a severity is written where its source exists, is
not locked and the value is one of 0 to 5. -/
def Obligations.FaultStatusAndSeverity : Prop :=
  (∀ (m : Fin 9) (g : Fin 48) (w : Word) (s : State), Reaches s m (Reg.FAULT_STAT g) →
    Answers (.faultStatusClear m g w) s (fun t =>
      (∀ i, i < 32 → faultStatus t (32 * g + i) =
        (faultStatus s (32 * g + i) && (!bitOf i w.toNat || decide (32 * g + i ∈ s.pat.conds)))) ∧
      (∀ n, n < 1536 → n / 32 ≠ g.val → faultStatus t n = faultStatus s n) ∧ t.pat = s.pat ∧ RegsReported [] s t)) ∧
  (∀ (m : Fin 9) (n : Fin 1536) (w : Word) (s : State), Reaches s m (Reg.FAULT_SEV n) →
    Answers (.faultSevWrite m n w) s (fun t =>
      (∀ j, j < 1536 → j ≠ n.val → faultSev t j = faultSev s j) ∧ RegsReported [] s t ∧
      if srcReserved n = false ∧ fbit s (Reg.FAULT_SEV n) Fld.FAULT_SEV_LOCK = false ∧ w.toNat % 8 < 6 then
        faultSev t n = w.toNat % 8 ∧ t.pat = s.pat
      else faultSev t n = faultSev s n ∧
        RefusedFor s t (if srcReserved n = false ∧ fbit s (Reg.FAULT_SEV n) Fld.FAULT_SEV_LOCK then 3 else 2)))

/-- 17 R415-R417: what raising a source does, by its severity; its record joins the writer's queue where it has a token
and room. -/
def Obligations.RaiseBySeverity : Prop :=
  ∀ (n : Nat) (l : List Nat) (s : State), n < 1536 → n ≠ Src.patDrop →
    (faultSev s n = 0 → raise n l s = s) ∧
    (faultSev s n ≠ 0 →
      faultStatus (raise n l s) n = true ∧
      rgetN (raise n l s) (Reg.FAULT_CNT n) = min 0xFFFFFFFF (rgetN s (Reg.FAULT_CNT n) + 1) ∧
      (∀ j, j < 1536 → j ≠ n → j ≠ Src.patDrop →
        faultStatus (raise n l s) j = faultStatus s j ∧
        rgetN (raise n l s) (Reg.FAULT_CNT j) = rgetN s (Reg.FAULT_CNT j)) ∧
      RegsReported [] s (raise n l s)) ∧
    (faultSev s n = 1 → (raise n l s).pat = s.pat) ∧
    (2 ≤ faultSev s n → fbit s Reg.PAT_STAT Fld.PAT_STAT_PF = false → fget s Reg.PAT_TOKENS Fld.PAT_TOKENS_TOKENS ≠ 0 →
      s.pat.pendingRecs.length < 64 → ∃ r : PatRec, (raise n l s).pat.pendingRecs = s.pat.pendingRecs ++ [r] ∧
        r.event = 1 ∧ r.source = n ∧ r.sev = faultSev s n ∧ r.payload = (l.map (· % 2 ^ 32)).take 8)

/-- 17 R425: the writer takes the oldest record, gives it the next SEQ and its slot, and writes its words in ascending
order; the rest of the MRAM stays. A record in flight goes on from its next word. Dropped records are then reported
where the queue has room. 17 R427, R429: a token each tick up to 4,096, and a RECORDS_DROPPED record once one is
there; a host record takes a token and carries the eight data words. -/
def Obligations.PatinaWriterAndTokens : Prop :=
  (∀ (upto : Fin 17) (r : PatRec) (s : State), mode s ≠ .reset → s.long.protect = false → upto ≠ 0 →
    let drops (l : List PatRec) (t : State) : Prop := ∃ d : List PatRec, t.pat.pendingRecs = l ++ d ∧ (∀ x ∈ d, x.event = 8) ∧
      (d = [] ∨ d.length = 1 ∧ s.pat.lost ≠ 0 ∧ t.pat.lost = 0) ∧
      (s.pat.lost ≠ 0 → fget s Reg.PAT_TOKENS Fld.PAT_TOKENS_TOKENS ≠ 0 → l.length < 64 →
        fbit s Reg.PAT_STAT Fld.PAT_STAT_PF = false → d.length = 1)
    (∀ rest, s.pat.inFlight = none → s.pat.pendingRecs = r :: rest →
      Answers (.patinaRecordWrite upto) s (fun t =>
        let x := 64 * (patSeq s % journalSlots)
        mramBytes t x (4 * upto) = wordBytes ((recWords r (patSeq s)).take upto) ∧
        (∀ y, y < x ∨ x + 4 * upto ≤ y → mramByte t y = mramByte s y) ∧
        patSeq t = (patSeq s + 1) % 2 ^ 48 ∧ drops rest t ∧
        t.pat.inFlight = (if upto = 16 then none else some (r, patSeq s, upto.val)) ∧
        RegsWithin [Reg.PAT_SEQ_LO, Reg.PAT_SEQ_HI, Reg.PAT_TOKENS] s t)) ∧
    (∀ n d, s.pat.inFlight = some (r, n, d) → d < upto →
      Answers (.patinaRecordWrite upto) s (fun t =>
        let x := 64 * (n % journalSlots) + 4 * d
        mramBytes t x (4 * (upto - d)) = wordBytes (((recWords r n).take upto).drop d) ∧
        (∀ y, y < x ∨ x + 4 * (upto - d) ≤ y → mramByte t y = mramByte s y) ∧
        drops s.pat.pendingRecs t ∧
        t.pat.inFlight = (if upto = 16 then none else some (r, n, upto.val)) ∧ RegsWithin [Reg.PAT_TOKENS] s t))) ∧
  ((∀ s : State, mode s ≠ .reset → Answers .patinaTokenTick s (fun t =>
    let tok := min 4096 (fget s Reg.PAT_TOKENS Fld.PAT_TOKENS_TOKENS + 1)
    RegsWithin [Reg.PAT_TOKENS] s t ∧
    (s.pat.lost = 0 → fget t Reg.PAT_TOKENS Fld.PAT_TOKENS_TOKENS = tok ∧ t.pat = s.pat) ∧
    (s.pat.lost ≠ 0 → s.pat.pendingRecs.length < 64 → fbit s Reg.PAT_STAT Fld.PAT_STAT_PF = false →
      fget t Reg.PAT_TOKENS Fld.PAT_TOKENS_TOKENS = tok - 1 ∧ t.pat.lost = 0 ∧
      ∃ r : PatRec, t.pat.pendingRecs = s.pat.pendingRecs ++ [r] ∧ r.event = 8 ∧
        r.payload = [s.pat.lost % 2 ^ 32, s.pat.lostFirst % 2 ^ 32, s.pat.lostLast % 2 ^ 32]))) ∧
  (∀ (m : Fin 9) (event : BitVec 16) (s : State), Reaches s m Reg.PAT_HOST_EVT → 0x8000 ≤ event.toNat →
    fbit s Reg.PAT_STAT Fld.PAT_STAT_PF = false → fget s Reg.PAT_TOKENS Fld.PAT_TOKENS_TOKENS ≠ 0 →
    s.pat.pendingRecs.length < 64 →
    Answers (.patinaHostRecord m event) s (fun t =>
      fget t Reg.PAT_TOKENS Fld.PAT_TOKENS_TOKENS = fget s Reg.PAT_TOKENS Fld.PAT_TOKENS_TOKENS - 1 ∧
      RegsWithin [Reg.PAT_HOST_EVT, Reg.PAT_TOKENS] s t ∧
      ∃ r : PatRec, t.pat.pendingRecs = s.pat.pendingRecs ++ [r] ∧ r.event = event.toNat ∧ r.source = 0x7FF ∧
        r.master = m ∧ r.payload = (List.range 8).map (fun i => rgetN s (Reg.PAT_HOST_DATA i)))))

/-- 17 R430-R432, R436, Table 17.7: power failure, the final flush that seals and protects the MRAM, and the return. 17
R434, R435, R438: a boundary makes the changed items and their values one flush, which goes to the log, or waits for a
snapshot where the log has no room; a clear leaves a snapshot of cleared items in the other bank, at the writer's pace
in STANDBY and ACTIVE, at once in SAFE and FACTORY, at the end of a boot. -/
def Obligations.PowerFailureAndKeep : Prop :=
  (∀ s : State,
    let waiting := s.pat.flushes.flatMap (fun f => f.items.map (·.item))
    let items := s.pat.dirty ++ (waiting.filter (fun k => !(k ∈ s.pat.dirty))).eraseDups
    Answers .powerFail s (fun t =>
      lifeGet t 5 = (lifeGet s 5 + 1) % 2 ^ 64 ∧
      if mode s = .reset then t.long.protect = true ∧ t.regs = s.regs
      else fbit t Reg.PAT_STAT Fld.PAT_STAT_PF = true ∧ t.long.protect = s.long.protect ∧ t.pat.dirty = [] ∧
        t.pat.flushes = [] ∧ t.pat.finalItems = (if inRole s then items.map (itemNow s) else []) ∧
        t.pat.inFlight = s.pat.inFlight ∧
        (∃ r : PatRec, t.pat.pendingRecs = [r] ∧ r.event = 5 ∧ r.payload.head? = some (s.pat.pendingRecs.length % 2 ^ 32)) ∧
        rgetN t Reg.PAT_KEEP_BACKLOG = t.pat.finalItems.length % 2 ^ 32 ∧
        RegsWithin [Reg.PAT_STAT, Reg.PAT_KEEP_BACKLOG] s t) ∧
    (mode s = .reset → fbit s Reg.PAT_STAT Fld.PAT_STAT_PF = true → Answers .keepFinalFlush s (fun t =>
      t.long.protect = true ∧ t.regs = s.regs ∧ t.pat = s.pat)) ∧
    (mode s ≠ .reset → fbit s Reg.PAT_STAT Fld.PAT_STAT_PF = true → fbit s Reg.PAT_STAT Fld.PAT_STAT_SEALED = false →
      s.pat.inFlight = none → s.pat.pendingRecs = [] →
      Answers .keepFinalFlush s (fun t =>
        fbit t Reg.PAT_STAT Fld.PAT_STAT_SEALED = true ∧ t.long.protect = true ∧ t.pat.finalItems = [] ∧
        t.pat.keepFlush = s.pat.keepFlush + (if s.pat.finalItems ≠ [] ∧ s.pat.keepBank.isSome = true ∧
          s.pat.finalItems.length ≤ 2048 ∧ s.pat.keepPos + s.pat.finalItems.length + 2 ≤ logEntries then 1 else 0) ∧
        RegsWithin [Reg.PAT_STAT, Reg.PAT_KEEP_BACKLOG] s t)) ∧
    (∀ us : Word, mode s ≠ .reset → fbit s Reg.PAT_STAT Fld.PAT_STAT_PF = true →
      Answers (.powerRestore us) s (fun t =>
        fbit t Reg.PAT_STAT Fld.PAT_STAT_PF = false ∧ fbit t Reg.PAT_STAT Fld.PAT_STAT_SEALED = false ∧
        t.long.protect = false ∧ (∀ v ∈ s.pat.finalOpen ++ s.pat.finalItems, v.item ∈ t.pat.dirty) ∧
        (∃ r : PatRec, t.pat.pendingRecs = s.pat.pendingRecs ++ [r] ∧ r.event = 6 ∧ r.payload = [us.toNat]) ∧
        RegsWithin [Reg.PAT_STAT, Reg.PAT_KEEP_BACKLOG] s t))) ∧
  ((∀ (b : Nat) (s : State), inRole s = true → fbit s Reg.PAT_STAT Fld.PAT_STAT_PF = false → s.pat.needSnap = false →
    s.pat.snapJob = none → s.pat.flushes = [] → s.pat.keepBank = some b → s.pat.dirty ≠ [] → s.pat.dirty.length ≤ 654 →
    Answers .keepBoundary s (fun t =>
      let n := s.pat.dirty.length
      t.pat.dirty = [] ∧ t.pat.keepBank = some b ∧ t.pat.keepGen = s.pat.keepGen ∧
      RegsWithin [Reg.PAT_KEEP_BACKLOG] s t ∧
      if s.pat.keepPos = 0 ∨ s.pat.keepPos + n + 1 ≤ logEntries then
        t.pat.keepFlush = s.pat.keepFlush + 1 ∧ t.pat.keepPos = s.pat.keepPos + n + 1 ∧ t.pat.flushes = [] ∧
        (∀ k ∈ s.pat.dirty, valOf t.pat.keepSnap k = itemNow s k) ∧
        (∀ k, k ∉ s.pat.dirty → valOf t.pat.keepSnap k = valOf s.pat.keepSnap k) ∧ rgetN t Reg.PAT_KEEP_BACKLOG = 0
      else t.pat.keepFlush = s.pat.keepFlush ∧ t.pat.keepPos = s.pat.keepPos ∧
        t.pat.flushes = [{ items := s.pat.dirty.map (itemNow s) }] ∧ t.pat.keepSnap = s.pat.keepSnap ∧
        t.pat.snapJob = some { bank := 1 - b, gen := s.pat.keepGen + 1, left := snapSize - keepPace, vals := s.pat.keepSnap } ∧
        rgetN t Reg.PAT_KEEP_BACKLOG = n)) ∧
  (∀ (m : Fin 9) (s : State), Reaches s m Reg.PAT_KEEP_CTRL →
    let next : Nat × Nat := match s.pat.keepBank, bestBank s with
      | some b, _ => (1 - b, s.pat.keepGen + 1)
      | none, some b => (1 - b, bankWord s b 2 + 1)
      | none, none => (0, freshGen s)
    Answers (.keepClear m) s (fun t => t.regs = s.regs ∧
      (mode s = .boot → t.pat = { s.pat with clearHeld := true } ∧ t.long = s.long) ∧
      (inRole s = true → s.pat.keepBank.isSome = true → t.long = s.long ∧
        t.pat = { s.pat with needSnap := false, snapJob := some { bank := next.1, gen := next.2, left := snapSize, vals := [] } }) ∧
      (mode s = .safe ∨ mode s = .factory → t.pat.keepBank = none ∧ t.pat.snapJob = none ∧ t.pat.needSnap = false ∧
        (∀ k, valOf t.pat.keepSnap k = itemClear k) ∧
        (s.long.protect = false → bankWord t next.1 2 = next.2 % 2 ^ 32 ∧
          bankWord t next.1 15 = 2 ^ 32 - 1 - next.2 % 2 ^ 32)))))

/-- 17 R439, R440: the counts added since the last update, a band's only where TJ_MAX has been in that band since, and
three equal copies in the MRAM. -/
def Obligations.LifetimeCounters : Prop :=
  ∀ (adds : List (Nat × Nat)) (s : State), Answers (.lifetimeCounterUpdate adds) s (fun t =>
    (∀ k, k = 0 ∨ (18 ≤ k ∧ k < 594) ∨ (8 ≤ k ∧ k < 18 ∧ (k = bandNow s ∨ k ∈ s.pat.bands)) → lifeGet t k % 2 ^ 64 =
      (lifeGet s k + ((adds.filter (fun p => p.1 == k)).map (·.2)).sum) % 2 ^ 64) ∧
    (∀ k, k ≠ 0 → k < 8 ∨ (k < 18 ∧ k ≠ bandNow s ∧ k ∉ s.pat.bands) → lifeGet t k = lifeGet s k) ∧
    (s.long.protect = false → ∀ c k, c < 3 → k < 594 →
      leNat (mramBytes t (lifeBase c + 8 * k) 8) = lifeGet t k % 2 ^ 64) ∧ t.regs = s.regs)

/-- 19 R482, R483: the detector of a hung access captures it, counts it and raises CTL_DECODE_HANG. 19 R484, R485, R487: a
reset of M8, by its key on the fabric or by its parameter on the management bus, drops the held requests and the hung
access of M8 and no other master's; parameter bytes beyond the one it takes are not acknowledged. -/
def Obligations.HangAndMasterReset : Prop :=
  (∀ (m : Fin 9) (h : Hung) (l : List Hung) (s : State), s.fab.hung = h :: l → h.master = m → h.expired = false →
    Answers (.decodeHangExpire m) s (fun t =>
      rgetN t Reg.FABRIC_HANGS = min 0xFFFFFFFF (rgetN s Reg.FABRIC_HANGS + 1) ∧
      (∀ x ∈ t.fab.hung, x.master = m → x.expired = true) ∧ t.fab.hung.length = s.fab.hung.length ∧
      (fbit s Reg.FABRIC_HANG_INFO Fld.FABRIC_HANG_INFO_VALID = false →
        rgetN t Reg.FABRIC_HANG_ADDR = h.addr % 2 ^ 32 ∧ fbit t Reg.FABRIC_HANG_INFO Fld.FABRIC_HANG_INFO_VALID = true) ∧
      (fbit s Reg.FABRIC_HANG_INFO Fld.FABRIC_HANG_INFO_VALID = true →
        rgetN t Reg.FABRIC_HANG_INFO = rgetN s Reg.FABRIC_HANG_INFO) ∧
      RegsReported [Reg.FABRIC_HANGS, Reg.FABRIC_HANG_INFO, Reg.FABRIC_HANG_ADDR] s t)) ∧
  (let done (s t : State) : Prop :=
    (∀ x, x ∈ t.fab.hung ↔ x ∈ s.fab.hung ∧ x.master ≠ 8) ∧ (∀ x, x ∈ t.fab.held ↔ x ∈ s.fab.held ∧ x.master ≠ 8) ∧
    rgetN t (Reg.FABRIC_OUTST 8) = 0 ∧ t.fab.i2cPending = none ∧
    RegsWithin [Reg.FABRIC_OUTST 8, Reg.FABRIC_MATRIX_OUTST, Reg.FABRIC_STAT] s t
  (∀ (m : Fin 9) (w : Word) (s : State), Reaches s m Reg.FABRIC_MRESET → w.toNat / 65536 = 0x3C96 → bitOf 8 w.toNat = true →
    Answers (.fabricMasterReset m w) s (fun t => done s t ∧ t.out = s.out)) ∧
  (∀ (rest : List Byte) (s : State), mode s ≠ .reset →
    Answers (.i2cResetM8 (0xA5 :: rest)) s (fun t => done s t ∧
      t.out = s.out ++ List.replicate rest.length .i2cNack ++ [.i2c [0]])) ∧
  (∀ (b : Byte) (rest : List Byte) (s : State), b ≠ 0xA5 →
    Answers (.i2cResetM8 (b :: rest)) s (fun t => t = emit (i2cExtra 1 (b :: rest) s) (.i2c [0]) ∧
      t.out = s.out ++ List.replicate rest.length .i2cNack ++ [.i2c [0]])))

/-- 19 R466-R469, R485: link-up at a speed and a width of Table 19.9 with what the host configures, the power state and
the resets of the PCIe function. 19 R471: unmasking a vector sends the message its PBA bit holds, and clears the bit.
19 R486-R488: what the management target returns to STATUS, MRAM_READ and REG_RESULT, that it acknowledges no
parameter byte beyond a command's count and no command byte that Table 19.5 does not list, and that it lets go of a
bus held low. -/
def Obligations.PcieAndManagement : Prop :=
  ((∀ (speed : Fin 6) (width : Fin 5) (bar0 bar2 : BitVec 64) (en mask : Bool) (s : State), mode s ≠ .reset →
    fbit s Reg.GLOBAL_CLK_LOCK Fld.GLOBAL_CLK_LOCK_CTL = true → speed ≠ 0 → width = 1 ∨ width = 2 ∨ width = 4 →
    Answers (.pcieLinkUp speed width bar0 bar2 en mask) s (fun t =>
      fbit t Reg.FABRIC_PCIE_STAT Fld.FABRIC_PCIE_STAT_UP = true ∧
      fget t Reg.FABRIC_PCIE_STAT Fld.FABRIC_PCIE_STAT_SPEED = speed ∧
      fget t Reg.FABRIC_PCIE_STAT Fld.FABRIC_PCIE_STAT_WIDTH = width ∧
      t.fab.msixEnable = en ∧ t.fab.msixMask = mask ∧
      t.fab.config.bar0 = bar0.toNat / 2 ^ 26 * 2 ^ 26 ∧ t.fab.config.bar2 = bar2.toNat / 2 ^ 30 * 2 ^ 30 ∧
      (∀ v, v < 64 → en = true → mask = false → fbit s (Reg.MSIX_CTRL v) Fld.MSIX_CTRL_MASK = false →
        bitOf (v % 32) (rgetN t (Reg.MSIX_PBA (v / 32))) = false) ∧
      RegsWithin [Reg.FABRIC_PCIE_STAT, Reg.MSIX_PBA 0, Reg.MSIX_PBA 1] s t)) ∧
  (∀ (d3 : Bool) (s : State), fbit s Reg.FABRIC_PCIE_STAT Fld.FABRIC_PCIE_STAT_UP = true →
    Answers (.pciePowerStateChange d3) s (fun t =>
      fbit t Reg.FABRIC_PCIE_STAT Fld.FABRIC_PCIE_STAT_D3HOT = d3 ∧
      fbit t Reg.FABRIC_PCIE_STAT Fld.FABRIC_PCIE_STAT_UP = true ∧ t.fab = s.fab ∧ RegsWithin [Reg.FABRIC_PCIE_STAT] s t)) ∧
  (∀ (flr : Bool) (s : State), mode s ≠ .reset → Answers (.pcieReset flr none) s (fun t =>
    fbit t Reg.FABRIC_PCIE_STAT Fld.FABRIC_PCIE_STAT_UP =
      (flr && fbit s Reg.FABRIC_PCIE_STAT Fld.FABRIC_PCIE_STAT_UP) ∧
    fbit t Reg.FABRIC_PCIE_STAT Fld.FABRIC_PCIE_STAT_D3HOT = false ∧
    t.fab.msixEnable = false ∧ t.fab.msixMask = false ∧ t.fab.config = {} ∧ t.q = s.q ∧
    (∀ a, blockOf a = .msix → rget t a = regDefault a) ∧
    (∀ x ∈ t.fab.hung, x.master ≠ 0) ∧ (∀ x ∈ t.fab.held, x.master ≠ 0) ∧
    rgetN t Reg.FABRIC_PCIE_RESETS = min 0xFFFFFFFF (rgetN s Reg.FABRIC_PCIE_RESETS + 1) ∧
    OnlyRegs (fun a => blockOf a = .msix ∨ a ∈ [Reg.FABRIC_PCIE_STAT, Reg.FABRIC_PCIE_RESETS, Reg.FABRIC_OUTST 0,
      Reg.FABRIC_MATRIX_OUTST, Reg.FABRIC_STAT]) s t)) ∧
  (∀ (flr : Bool) (a : BitVec 30) (bs : List Byte) (s : State), mode s ≠ .reset → Answers (.pcieReset flr (some (a, bs))) s
    (fun t => t.q.staging = (piecesWrite 8 a.toNat (bs.map (·.toNat)) s).q.staging ∧
      t.q.surf = (piecesWrite 8 a.toNat (bs.map (·.toNat)) s).q.surf ∧ (∀ x ∈ t.fab.held, x.master ≠ 0)))) ∧
  (∀ (v : Fin 64) (s : State), Reaches s 0 (Reg.MSIX_CTRL v) →
    Answers (.msixUnmask v) s (fun t =>
      fbit t (Reg.MSIX_CTRL v) Fld.MSIX_CTRL_MASK = false ∧ RegsWithin [Reg.MSIX_CTRL v, Reg.MSIX_PBA (v / 32)] s t ∧
      if bitOf (v % 32) (rgetN s (Reg.MSIX_PBA (v / 32))) = true ∧ s.fab.msixEnable = true ∧ s.fab.msixMask = false then
        bitOf (v % 32) (rgetN t (Reg.MSIX_PBA (v / 32))) = false ∧
        t.out = s.out ++ [.msix v (rget64 s (Reg.MSIX_ADDR_LO v) (Reg.MSIX_ADDR_HI v)) (rget s (Reg.MSIX_DATA v))]
      else t.out = s.out ∧ rgetN t (Reg.MSIX_PBA (v / 32)) = rgetN s (Reg.MSIX_PBA (v / 32)))) ∧
  ((∀ (params : List Byte) (s : State), Answers (.i2cStatus 0x30 params) s (fun t =>
    t = emit (i2cExtra 0 params s) (.i2c (0 :: wordBytes [rgetN s Reg.GLOBAL_MODE,
    rgetN s Reg.GLOBAL_BOOT_STAT, rgetN s Reg.GLOBAL_RESET_CAUSE, s.core.supplyOk.toNat])) ∧
    t.out.length = s.out.length + params.length + 1)) ∧
  (∀ (code : Byte) (params : List Byte) (s : State), code.toNat ∉ [0x10, 0x20, 0x21, 0x22, 0x30, 0x3A] →
    Answers (.i2cStatus code params) s (fun t => t = { s with out := s.out ++ [.i2cNack] })) ∧
  (∀ (params : List Byte) (n : Fin 257) (s : State), params.length = 4 → s.test.inj = none → s.long.mramBad = [] →
    s.long.mramSoft = [] →
    Answers (.i2cMramRead params n) s (fun t =>
      let x := leNat (params.map (·.toNat))
      t = emit s (.i2c (0 :: (List.range n).map (fun i => if x + i < 0x2000000 then mramByte s (x + i) else 0))))) ∧
  (∀ s : State, s.fab.i2cPending = none → Answers (.i2cRegResult []) s (fun t =>
    t = emit s (.i2c (match s.fab.i2cStatus, s.fab.i2cData with
      | 0, some d => 0 :: leBytes 4 d.toNat
      | st, _ => [st])))) ∧
  (∀ s : State, s.fab.i2cPending.isSome = true → Answers (.i2cRegResult []) s (fun t =>
    t = emit s (.i2c [if isHung s 8 then 3 else 1]))) ∧
  (∀ s : State, Answers .i2cSclTimeout s (fun t => t = emit s (.pin "MGMT_SDA" 1))))

/-- 20 R493-R495: an injection is armed where R494 allows it, and disarmed. 20 R496: the perturbation controls take their
values, the stall of a MAC begins and ends. 20 R497, R498: an instruction that drives pins takes them in FACTORY and
SAFE and acts as BYPASS elsewhere; what is shifted in goes through the register that the instruction selects (that its
cells are those of `boundaryPins`: the model's choice, log entry 155); test-logic reset gives the pins back. -/
def Obligations.TestFacilities : Prop :=
  ((∀ (m : Fin 9) (cnt : BitVec 16) (mask : BitVec 8) (s : State), Reaches s m Reg.TEST_INJ_CTRL → injOk s = true →
    let cls := fget s Reg.TEST_INJ_TARGET Fld.TEST_INJ_TARGET_CLASS
    let idx := fget s Reg.TEST_INJ_TARGET Fld.TEST_INJ_TARGET_INDEX
    armAllowed s cls idx mask.toNat cnt.toNat = true →
    Answers (.testInjectArm m cnt mask) s (fun t =>
      t.test.inj = some ⟨cls, idx, mask.toNat, if cls = 6 then min 15 cnt.toNat else cnt.toNat, 0⟩ ∧
      fbit t Reg.TEST_STAT Fld.TEST_STAT_INJ_ARMED = true ∧
      RegsReported [Reg.TEST_STAT, Reg.TEST_INJ_CTRL] s t)) ∧
  (∀ (m : Fin 9) (cnt : BitVec 16) (mask : BitVec 8) (s : State), Reaches s m Reg.TEST_INJ_CTRL →
    injOk s = false ∨ armAllowed s (fget s Reg.TEST_INJ_TARGET Fld.TEST_INJ_TARGET_CLASS)
      (fget s Reg.TEST_INJ_TARGET Fld.TEST_INJ_TARGET_INDEX) mask.toNat cnt.toNat = false →
    Answers (.testInjectArm m cnt mask) s (fun t => t.test = s.test ∧
      rgetN t Reg.TEST_IGNORED = min 0xFFFFFFFF (rgetN s Reg.TEST_IGNORED + 1) ∧
      fbit t Reg.TEST_STAT Fld.TEST_STAT_IGNORED = true ∧ RegsWithin [Reg.TEST_STAT, Reg.TEST_IGNORED] s t)) ∧
  (∀ (m : Fin 9) (s : State), Reaches s m Reg.TEST_INJ_CTRL → injOk s = true →
    Answers (.testInjectDisarm m) s (fun t => t.test = { s.test with inj := none } ∧
      rgetN t Reg.TEST_INJ_CTRL % 2 ^ 24 = rgetN s Reg.TEST_INJ_CTRL % 2 ^ 24 ∧
      (s.test.inj.isSome = true → fbit t Reg.TEST_STAT Fld.TEST_STAT_INJ_ARMED = false) ∧
      RegsReported [Reg.TEST_STAT, Reg.TEST_INJ_CTRL] s t))) ∧
  ((∀ (m : Fin 9) (k : Fin 5) (w : Word) (s : State), Reaches s m (Reg.TEST_PERT_QDELAY + 4 * k) → pertOk s = true →
    Answers (.testPertWrite m k w) s (fun t =>
      let a := Reg.TEST_PERT_QDELAY + 4 * k
      rgetN t a = plainValue a (rgetN s a) w.toNat % 2 ^ 32 ∧ RegsReported [a, Reg.TEST_STAT] s t ∧
      fbit t Reg.TEST_STAT Fld.TEST_STAT_PERT_ANY = pertAny t)) ∧
  (∀ (m : Fin 9) (mac : Fin 64) (us : BitVec 16) (s : State), Reaches s m Reg.TEST_PERT_MAC → pertOk s = true → us ≠ 0 →
    Answers (.testMacStall m mac us) s (fun t => mac.val ∈ t.test.stalled ∧
      (∀ j, j ∈ t.test.stalled ↔ j ∈ s.test.stalled ∨ j = mac.val) ∧
      RegsReported [Reg.TEST_PERT_MAC, Reg.TEST_STAT] s t)) ∧
  (∀ (mac : Fin 64) (s : State), Answers (.testMacStallExpire mac) s (fun t =>
    mac.val ∉ t.test.stalled ∧ (∀ j, j ≠ mac.val → (j ∈ t.test.stalled ↔ j ∈ s.test.stalled))))) ∧
  (∀ (code : BitVec 8) (dr : List Bool) (s : State),
    Answers (.jtagInstruction code dr) s (fun t =>
      t.test.jtagPins = (jtagDrives code.toNat && scanOk s) ∧
      (jtagDrives code.toNat = true → scanOk s = false → t.test.jtagIr = 0xFF) ∧
      (jtagDrives code.toNat = false ∨ scanOk s = true → code.toNat ≤ 6 → t.test.jtagIr = code.toNat) ∧
      t.test.boundary = (if dr ≠ [] ∧ t.test.jtagIr ∈ [0, 2, 3, 4] then dr else s.test.boundary) ∧
      (t.test.jtagPins = true → t.test.jtagIr ≠ 6 → t.out.getLast? = some (.boundary t.test.boundary)) ∧
      (code = 1 → .jtag 0x05646A5B ∈ t.out) ∧
      t.test.inj = s.test.inj ∧ t.test.stalled = s.test.stalled ∧ t.regs = s.regs) ∧
    Answers .jtagTrst s (fun t => t.test.jtagPins = false ∧ t.test.inj = s.test.inj ∧ t.test.stalled = s.test.stalled ∧
      t.regs = s.regs))

/-- 08 R203-R219: what the open operations of a queue share: the descriptor is used first (R204), then the queue named
takes the operation, its list of cells follows, and no other queue changes. -/
def Obligations.QueueOperations : Prop :=
  ∀ (q : BitVec 20) (s : State), (∀ o, o < 128 → bar2Gate s true (128 * q.toNat + o) (inService s) = .pass) →
    qNamed s q.toNat = true → s.test.inj = none →
    let q0 := getQ s q.toNat
    let done (f : Queue → Queue) (t : State) : Prop :=
      getQ t q.toNat = { f q0 with cells := (getQ t q.toNat).cells } ∧
      (getQ t q.toNat).cells.length = qCells (f q0) ∧
      q0.cells.drop (q0.cells.length - qCells (f q0)) <+: (getQ t q.toNat).cells ∧
      (∀ p, p ≠ q.toNat → getQ t p = getQ s p) ∧ RegsReported [Reg.QM_DCACHE_MISS] s t
    Answers (.queueClose q) s (done qClose) ∧ Answers (.queueMark q) s (done qMark) ∧
    Answers (.queueRewind q) s (done qRewind) ∧ Answers (.queueRelease q) s (done qRelease) ∧
    Answers (.queueReset q) s (done qReset) ∧
    (∀ (off : Fin 32) (bytes : List Byte), hostBarred s q.toNat = false → bytes.length ∈ [1, 2, 4, 8] →
      off.val % bytes.length = 0 →
      Answers (.queueWrite q off bytes) s (done (qWrite (qCap s q.toNat) (bytes.map (·.toNat)))))

/-- 08 R207, R212: MARK remembers the read position, REWIND returns to it or to the head, RELEASE lets go of what has been
read, RESET empties the queue; CLOSE ends the open record; a frozen queue takes none of them. 08 R210: a capacity
within the quota of the group is taken, above it refused with reason 2; a queue of a block is refused with reason 3. -/
def Obligations.QueuePositionsAndCapacity : Prop :=
  (∀ q : Queue,
    (q.frozen = true → qClose q = q ∧ qMark q = q ∧ qRewind q = q ∧ qRelease q = q ∧ qReset q = q) ∧
    (q.frozen = false →
      qRewind (qMark q) = { q with mark := some q.rd } ∧
      (q.mark = none → (qRewind q).rd = 0) ∧
      (qRelease q).words = q.words.drop q.rd ∧ (qRelease q).rd = 0 ∧
      (q.opn = true → q.openWords ≠ 0 → ∀ w, q.words.getLast? = some w →
        qClosed (qClose q) = q.words.length ∧ qRecords (qClose q) = qRecords { q with words := q.words.dropLast } + 1) ∧
      (qReset q).words = [] ∧ (qReset q).opn = false ∧ (qReset q).cap = q.cap)) ∧
  (∀ (q : BitVec 20) (cap : BitVec 27) (g : Nat) (s : State),
    bar2Gate s true (128 * q.toNat + 0x2C) (inService s) = .pass →
    qGroup s.img q.toNat = some g → s.test.inj = none →
    let others := (List.range (qgCount s.img g)).foldl (fun acc i =>
      if qgFirst s.img g + i = q.toNat then acc else acc + qCap s (qgFirst s.img g + i)) 0
    Answers (.queueCapWrite q cap) s (fun t =>
      if hostBarred s q.toNat = false ∧ cap.toNat + others ≤ qgQuota s.img g then
        getQ t q.toNat = { getQ s q.toNat with cap := some cap.toNat } ∧ qCap t q.toNat = cap.toNat
      else t.q = s.q ∧ rgetN t Reg.IMG_REFUSE_COUNT = min 0xFFFFFFFF (rgetN s Reg.IMG_REFUSE_COUNT + 1) ∧
        RefusedFor s t (if hostBarred s q.toNat then 3 else 2)))

/-- 08 R206, R208: a narrow write is stored whole after the bytes already there, or ignored whole. 08 R211, R218, R225: a
whole read returns the next word of a closed record with its tag and moves on, poisoned where the word cannot be
corrected; at the end it returns EMPTY; any other access to a port is counted and reads nothing; the window's
registers read the queue's counts, its capacity and its status. -/
def Obligations.QueueWritesAndReads : Prop :=
  (∀ (cap : Nat) (bs : List Nat) (q : Queue), q.frozen = false → bs ≠ [] →
    let data (q : Queue) : List Nat := q.words.flatMap (·.bytes)
    (data (qWrite cap bs q) = data q ++ bs ∧ (qWrite cap bs q).opn = true) ∨
    ((qWrite cap bs q).words = q.words ∧ (qWrite cap bs q).overrun = true ∧ (qWrite cap bs q).trunc = true)) ∧
  (∀ (q : BitVec 20) (errs : Fin 3) (s : State), inService s = true →
    (∀ o, o < 128 → bar2Gate s false (128 * q.toNat + o) true = .pass) →
    let at_ (o : Nat) : BitVec 30 := BitVec.ofNat 30 (128 * q.toNat + o)
    (qNamed s q.toNat = true → hostBarred s q.toNat = false → s.test.inj = none → (getQ s q.toNat).frozen = false →
      (∀ w : QWord, (getQ s q.toNat).rd < qClosed (getQ s q.toNat) → (getQ s q.toNat).words[(getQ s q.toNat).rd]? = some w →
        Answers (.queueRead (at_ 0x40) 64 errs) s (fun t =>
          (∃ alarms, (errs = 0 → alarms = []) ∧ t.out = s.out ++ (alarms ++
            [.queueWord 0 q.toNat ((w.bytes ++ List.replicate 32 0).take 32)
              (w.bytes.length + 64 * b2n w.last + 128 * b2n w.trunc + 256 * b2n (errs == 2))])) ∧
          getQ t q.toNat = { getQ s q.toNat with
            rd := (getQ s q.toNat).rd + 1, poison := (getQ s q.toNat).poison || errs == 2 } ∧
          (∀ p, p ≠ q.toNat → getQ t p = getQ s p) ∧ (errs = 0 → RegsReported [Reg.QM_DCACHE_MISS] s t))) ∧
      (qClosed (getQ s q.toNat) ≤ (getQ s q.toNat).rd →
        Answers (.queueRead (at_ 0x40) 64 errs) s (fun t =>
          t.out = s.out ++ [.queueWord 0 q.toNat (List.replicate 32 0) 0] ∧ (∀ p, getQ t p = getQ s p) ∧
          RegsReported [Reg.QM_DCACHE_MISS] s t))) ∧
    (∀ (o : Fin 128) (n : Fin 513), n ≠ 0 → o.val % 64 + n.val ≤ 64 → o.val < 0x20 ∨ 0x40 < o.val + n.val → ¬ (o.val = 0x40 ∧ n.val = 64) →
      Answers (.queueRead (at_ o) n errs) s (fun t =>
        rgetN t Reg.QM_HOST_BADACC = min 0xFFFFFFFF (rgetN s Reg.QM_HOST_BADACC + 1) ∧ t.q = s.q ∧
        RegsWithin [Reg.QM_HOST_BADACC] s t)) ∧
    (∀ o ∈ [0x24, 0x28, 0x2C, 0x30], Answers (.queueRead (at_ o) 4 errs) s (fun t =>
      let u := if (qNamed s q.toNat || isFrameStore q.toNat) = true then touchQ q.toNat (grantTo 20 0 s) else grantTo 20 0 s
      t = emit u (.bar2Data (128 * q.toNat + o) (leBytes 4 (windowReg u q.toNat o))))))

/-- 08 R197: a stack never holds more than 8,192 operations by admitting, and every request is held or admitted. 08 R220,
R224: the scrubber reads words in order and counts its passes; a host write to the staging area stores its bytes,
those past the end ignored. -/
def Obligations.HbmScrubAndStaging : Prop :=
  (∀ (stack : Fin 4) (arrivals : List (Nat × Nat)) (fin : Nat) (s : State),
    fget s (Reg.QM_HBM_OUTST stack) Fld.QM_HBM_OUTST_N ≤ 8192 → (∀ r ∈ s.q.held, r.cls ≤ 2) →
    Answers (.hbmRequestAdmit stack arrivals fin) s (fun t =>
      let n := fget s (Reg.QM_HBM_OUTST stack) Fld.QM_HBM_OUTST_N - fin
      let n' := fget t (Reg.QM_HBM_OUTST stack) Fld.QM_HBM_OUTST_N
      n' ≤ 8192 ∧ n ≤ n' ∧
      n' + (t.q.held.filter (fun r => r.stack == stack.val)).length =
        n + (s.q.held.filter (fun r => r.stack == stack.val)).length + arrivals.length ∧
      (n' = 8192 ∨ t.q.held.filter (fun r => r.stack == stack.val) = []) ∧
      (∀ r, r.stack ≠ stack.val → (r ∈ t.q.held ↔ r ∈ s.q.held)) ∧
      RegsWithin [Reg.QM_HBM_OUTST stack, Reg.QM_HBM_HELD stack] s t)) ∧
  ((∀ (q : Option (BitVec 20)) (s : State), running s = true → fbit s Reg.QM_SCRUB_CTRL Fld.QM_SCRUB_CTRL_EN = true →
    s.test.inj = none →
    Answers (.scrubRead 0 q) s (fun t =>
      if s.q.scrubOff + 8 < stackBytes s.img s.q.scrubStack then
        t.q.scrubOff = s.q.scrubOff + 8 ∧ t.q.scrubStack = s.q.scrubStack ∧ t.regs = s.regs
      else if s.q.scrubStack < 3 then
        t.q.scrubOff = 0 ∧ t.q.scrubStack = s.q.scrubStack + 1 ∧ t.regs = s.regs
      else t.q.scrubOff = 0 ∧ t.q.scrubStack = 0 ∧ RegsWithin [Reg.QM_SCRUB_CTRL] s t ∧
        fget t Reg.QM_SCRUB_CTRL Fld.QM_SCRUB_CTRL_PASSES =
          (fget s Reg.QM_SCRUB_CTRL Fld.QM_SCRUB_CTRL_PASSES + 1) %
            2 ^ (Fld.QM_SCRUB_CTRL_PASSES.hi + 1 - Fld.QM_SCRUB_CTRL_PASSES.lo))) ∧
  (∀ (addr : BitVec 30) (bytes : List Byte) (s : State), bar2Gate s true addr.toNat (stagingMapped s) = .pass →
    addr.toNat < 0x3000000 →
    Answers (.stagingAreaWrite addr bytes) s (fun t => t.regs = s.regs ∧
      (∀ x, addr.toNat ≤ x → x < addr.toNat + bytes.length → x < 0x3000000 →
        some (stagingByte t x) = (bytes[x - addr.toNat]?).map (·.toNat)) ∧
      (∀ x, x < addr.toNat ∨ addr.toNat + bytes.length ≤ x ∨ 0x3000000 ≤ x → stagingByte t x = stagingByte s x))))

/-- 06 R150, R151: the link states of a port, and a change of EN: a frame under way completes first, and no other starts. -/
def Obligations.MacLinkStates : Prop :=
  ∀ (m : Fin 64) (s : State), portFormed s.img m = true →
    (macState s m = 1 → Answers (.macCdrLock m) s (fun t => macState t m = 2 ∧ (macPort t m).cdr = true ∧
      RegsWithin [Reg.MAC_STAT m] s t)) ∧
    (2 ≤ macState s m → Answers (.macCdrLoss m) s (fun t => macState t m = 1 ∧ (macPort t m).cdr = false ∧
      (macState s m = 3 → rgetN t (Reg.MAC_LINK_DOWN m) = min 0xFFFFFFFF (rgetN s (Reg.MAC_LINK_DOWN m) + 1) ∧
        fbit t (Reg.MAC_STAT m) Fld.MAC_STAT_RF = false ∧ rgetN t (Reg.MAC_PAUSE_STAT m) = 0))) ∧
    (macState s m = 2 → Answers (.macAlignTimerExpire m) s (fun t =>
      if (macPort s m).fault then t = s
      else macState t m = 3 ∧ fbit t (Reg.MAC_STAT m) Fld.MAC_STAT_LF = false)) ∧
    (∀ lf : Bool, 2 ≤ macState s m → Answers (.macAlignLoss m lf) s (fun t =>
      macState t m = (if macState s m = 3 then 2 else macState s m) ∧ fbit t (Reg.MAC_STAT m) Fld.MAC_STAT_LF = lf)) ∧
    (macState s m = 3 →
      Answers (.macFaultSequence m 0) s (fun t => macState t m = 2 ∧ fbit t (Reg.MAC_STAT m) Fld.MAC_STAT_LF = true) ∧
      Answers (.macFaultSequence m 1) s (fun t => macState t m = 3 ∧ fbit t (Reg.MAC_STAT m) Fld.MAC_STAT_RF = true ∧
        RegsWithin [Reg.MAC_STAT m] s t) ∧
      Answers (.macFaultSequence m 2) s (fun t => macState t m = 3 ∧ fbit t (Reg.MAC_STAT m) Fld.MAC_STAT_RF = false ∧
        fbit t (Reg.MAC_STAT m) Fld.MAC_STAT_LF = false)) ∧
    ((macPort s m).cur = none → Answers (.macEnChange m false) s (fun t =>
      macState t m = (if macEn s m && inService s then
        (if macState s m = 0 then (if (macPort s m).cdr then 2 else 1) else macState s m)
        else if macEn s m && inCast s then macState s m else 0) ∧
      macPort t m = { macPort s m with rxLast := false, rxShut := !macEn s m, txShut := !macEn s m } ∧
      ∀ k, k ≠ m.val → macPort t k = macPort s k)) ∧
    (∀ rx : Bool, rx = true ∨ (macPort s m).cur.isSome = true → Answers (.macEnChange m rx) s (fun t =>
      t = setMac m { macPort s m with rxLast := rx, rxShut := !rx && !macEn s m, txShut := !macEn s m } s))

/-- 06 R152, R157, R159: the end of a frame sends it padded and with its FCS and counts it; the end of a PAUSE; the
discard of a port that cannot send. 06 R164: the injection reader takes one closed record, places its frame behind the
queue of its class, or counts a record it cannot send. -/
def Obligations.MacTransmitAndInjection : Prop :=
  (∀ (m : Fin 64) (s : State),
    (∀ f, (macPort s m).cur = some f → Answers (.macTxFrameEnd m) s (fun t =>
      (s.test.jtagPins = false → s.out ++ [.macFrame m (wireFrame f.bytes)] <+: t.out) ∧
      rget64 t (Reg.MAC_TX_FRAMES_LO m) (Reg.MAC_TX_FRAMES_HI m) =
        (rget64 s (Reg.MAC_TX_FRAMES_LO m) (Reg.MAC_TX_FRAMES_HI m) + 1) % 2 ^ 64 ∧
      rget64 t (Reg.MAC_TX_BYTES_LO m) (Reg.MAC_TX_BYTES_HI m) =
        (rget64 s (Reg.MAC_TX_BYTES_LO m) (Reg.MAC_TX_BYTES_HI m) + max 60 f.bytes.length + 4) % 2 ^ 64)) ∧
    Answers (.macPauseExpire m) s (fun t => fbit t (Reg.MAC_STAT m) Fld.MAC_STAT_PAUSED = false ∧
      rgetN t (Reg.MAC_PAUSE_STAT m) = 0 ∧ macState t m = macState s m) ∧
    (∀ i f l, macState s m ≠ 3 → txTop s m = some i → txQueue s m i = f :: l → (macPort s m).waiting = [] →
      Answers (.macTxDiscard m) s (fun t => txQueue t m i = l ∧ (∀ j, j ≠ i → txQueue t m j = txQueue s m j) ∧
        rgetN t (Reg.MAC_TX_DISCARD m) = min 0xFFFFFFFF (rgetN s (Reg.MAC_TX_DISCARD m) + 1) ∧
        RegsWithin [Reg.MAC_TX_DISCARD m] s t))) ∧
  (∀ (m : Fin 64) (bs : List Nat) (bad : Bool) (s : State),
    let q := fget s (Reg.MAC_INJ_Q m) Fld.MAC_INJ_Q_Q
    let len := leNat (bs.take 4) % 2 ^ 14
    let i := txClass s m (b2n (bitOf 14 (leNat (bs.take 4))))
    portFormed s.img m = true → inService s = true → fbit s (Reg.MAC_INJ_Q m) Fld.MAC_INJ_Q_EN = true →
    (takeRecord q s).1 = some (bs, bad) → s.test.inj = none →
    (bad = true ∨ len < 14 ∨ 9596 < len ∨ bs.length ≠ 16 + len → Answers (.macInjectRecord m) s (fun t =>
      rgetN t (Reg.MAC_INJ_BAD m) = min 0xFFFFFFFF (rgetN s (Reg.MAC_INJ_BAD m) + 1) ∧ t.mac = s.mac)) ∧
    (bad = false → 14 ≤ len → len ≤ 9596 → bs.length = 16 + len → txRoom s m i = true → txReady s m = false →
      Answers (.macInjectRecord m) s (fun t => ∃ f : TxFrame, txQueue t m i = txQueue s m i ++ [f] ∧
        f.bytes = bs.drop 16 ∧
        f.tsTag = (if bitOf 15 (leNat (bs.take 4)) then some (leNat (bs.take 4) / 65536) else none) ∧
        (∀ j, j ≠ i → txQueue t m j = txQueue s m j))))

/-- 06 R153-R155, R158, R163, R166: what a port that is UP does with a received frame, by the first row of Table 6.5 that
holds: a frame that finds no room in the port's share of the receive buffer, a bad or damaged one, a short or a long
one, one for another station and a control frame leave a count; a good PTP frame is counted and becomes an exception
record or a counted drop; a frame the flow engine claims has the flow engine's effect. Codewords are counted in a
frame and between frames. -/
def Obligations.MacReceive : Prop :=
  ∀ (m : Fin 64) (bytes : List Byte) (drained corr : Nat) (s : State), portFormed s.img m = true → macState s m = 3 →
    (macPort s m).rxShut = false → (macPort s m).rxLast = false → inCast s = false → s.test.inj = none →
    let bs := bytes.map (·.toNat)
    let r := rxDrain m drained s
    let counted (a : Nat) (t : State) : Prop := rgetN t a = min 0xFFFFFFFF (rgetN s a + 1) ∧ t.mac = r.mac ∧ t.q = s.q ∧
      t.flow = s.flow ∧ RegsReported [a, Reg.MAC_FEC_CORR m, Reg.MAC_FEC_UNCORR m] s t
    let fits : Prop := (macPort s m).rxBuf - drained + bs.length ≤ rxShare s.img m
    let sound : Prop := fcsOk 0 bs = true ∧ 64 ≤ bs.length ∧ bs.length ≤ 9600 ∧ (frameTagged bs && isTag bs 16) = false ∧ fits
    let ours : Prop := daUnicast bs = false ∨ bs.take 6 = macAddr s m ∨
      fbit s (Reg.MAC_CTRL m) Fld.MAC_CTRL_PROMISC = true
    let rx := Instr.macRxFrame m bytes drained
    (∀ n, Answers (.macRxFrame m [] drained false corr n) s (fun t =>
      rgetN t (Reg.MAC_FEC_CORR m) = min 0xFFFFFFFF (rgetN s (Reg.MAC_FEC_CORR m) + corr) ∧
      rgetN t (Reg.MAC_FEC_UNCORR m) = min 0xFFFFFFFF (rgetN s (Reg.MAC_FEC_UNCORR m) + n) ∧ t.mac = r.mac ∧
      RegsReported [Reg.MAC_FEC_CORR m, Reg.MAC_FEC_UNCORR m] s t)) ∧
    (∀ (pcsErr : Bool) (n : Nat), bytes ≠ [] →
      (¬ fits → Answers (rx pcsErr corr n) s (counted (Reg.MAC_RX_OVERFLOW m))) ∧
      (fits → fcsOk 0 bs = false ∨ pcsErr = true ∨ n ≠ 0 → Answers (rx pcsErr corr n) s (counted (Reg.MAC_RX_FCS_ERR m)))) ∧
    (fits → fcsOk 0 bs = true → bs.length < 64 → Answers (rx false corr 0) s (counted (Reg.MAC_RX_RUNT m))) ∧
    (fits → fcsOk 0 bs = true → 64 ≤ bs.length → 9600 < bs.length ∨ (frameTagged bs && isTag bs 16) = true →
      Answers (rx false corr 0) s (counted (Reg.MAC_RX_OVERSIZE m))) ∧
    (sound → ¬ ours → Answers (rx false corr 0) s (counted (Reg.MAC_RX_DA_DROP m))) ∧
    (sound → ours → isPause s m bs = false → etherType bs = 0x8808 →
      Answers (rx false corr 0) s (counted (Reg.MAC_RX_CTRL_OTHER m))) ∧
    (sound → ours → isPause s m bs = true → fbit s (Reg.MAC_CTRL m) Fld.MAC_CTRL_PAUSE_EN = true → be16 bs 16 ≠ 0 →
      Answers (rx false corr 0) s (fun t =>
        rgetN t (Reg.MAC_RX_PAUSE m) = min 0xFFFFFFFF (rgetN s (Reg.MAC_RX_PAUSE m) + 1) ∧
        fbit t (Reg.MAC_STAT m) Fld.MAC_STAT_PAUSED = true ∧
        fget t (Reg.MAC_PAUSE_STAT m) Fld.MAC_PAUSE_STAT_REMAIN = be16 bs 16 % 65536 ∧ t.mac = r.mac ∧ t.flow = s.flow)) ∧
    (sound → ours → etherType bs ≠ 0x8808 →
      let u := rxHanded m bs.length (countN r (Reg.MAC_FEC_CORR m) corr)
      (isPtp bs = true → Answers (rx false corr 0) s (fun t =>
        rget64 t (Reg.MAC_RX_FRAMES_LO m) (Reg.MAC_RX_FRAMES_HI m) =
          (rget64 s (Reg.MAC_RX_FRAMES_LO m) (Reg.MAC_RX_FRAMES_HI m) + 1) % 2 ^ 64 ∧ t.flow = s.flow ∧
        (macPort t m).rxBuf = (macPort s m).rxBuf - drained + bs.length ∧
        (fbit s (Reg.MAC_EXC_Q_PTP m) Fld.MAC_EXC_Q_PTP_EN = false →
          rgetN t (Reg.MAC_RX_EXC_DROP m) = min 0xFFFFFFFF (rgetN s (Reg.MAC_RX_EXC_DROP m) + 1)) ∧
        (fbit s (Reg.MAC_EXC_Q_PTP m) Fld.MAC_EXC_Q_PTP_EN = true →
          (roomFor 2 (fget s (Reg.MAC_EXC_Q_PTP m) Fld.MAC_EXC_Q_PTP_Q) (44 + bs.length) u).1 = true →
          (macPort t m).excSeq = ((macPort s m).excSeq + 1) % 2 ^ 32))) ∧
      (isPtp bs = false → Answers (rx false corr 0) s (fun t =>
        match flowClaim m bs u with
        | some v => t = rxBoundary m v
        | none => t = rxBoundary m (excRecord m false bs u))))

/-- 07 R172, R173, R187: a leg context is taken as one unit, or refused with the reason the rule names; so is the
configuration of an audio flow. -/
def Obligations.FlowCommits : Prop :=
  (∀ (m : Fin 9) (l : BitVec 16) (w : Word) (s : State), Reaches s m (Reg.FLOW_LEG_CTX l.toNat 0) →
    let c := (w.toNat &&& legMask s.img l.toNat 0) :: (List.range 7).map (fun i => rgetN s (Reg.FLOW_LEG_CTX l.toNat (i + 1)))
    Answers (.legContextCommit m l w) s (fun t =>
      (∀ j, j ≠ l.toNat → legCtx t j = legCtx s j) ∧
      match legIs s.img l.toNat with
      | none => legCtx t l.toNat = legCtx s l.toNat ∧ RefusedFor s t 2
      | some (k, _, _) =>
        if portFormed s.img (ctxMac c) = false then
          legCtx t l.toNat = legCtx s l.toNat ∧ RefusedFor s t 3
        else if ctxPt c < 96 then
          legCtx t l.toNat = legCtx s l.toNat ∧ RefusedFor s t 2
        else
          let clash : Prop := kindRx k = true ∧ ctxEn c = true ∧ ∃ e ∈ s.flow.legs, e.1 ≠ l.toNat ∧ ctxEn e.2 = true ∧
            sameKey e.2 c = true ∧ ∃ x, legIs s.img e.1 = some x ∧ kindRx x.1 = true
          (clash → legCtx t l.toNat = legCtx s l.toNat ∧ RefusedFor s t 1) ∧
          (¬ clash → legCtx t l.toNat = c ∧ RegsWithin [Reg.FLOW_LEG_CTX l.toNat 0] s t))) ∧
  (∀ (m : Fin 9) (tx : Bool) (f : Fin 4096) (w : Word) (s : State),
    let a := if tx then Reg.FLOW_ATX_CFG f else Reg.FLOW_ARX_CFG f
    let bad := 16384 < bitsOf 29 16 w.toNat + audChannels w.toNat ∨ audChannels w.toNat = 0 ∨
      (if bitOf 2 w.toNat then 64 else 8) < audChannels w.toNat ∨ (tx = true ∧ audFmt w.toNat = 1) ∨
      (tx = false ∧ asrcBlocks s.img (0x00100000 + f) ≠ [] ∧
        16 * (asrcBlocks s.img (0x00100000 + f)).length < audChannels w.toNat)
    Reaches s m a →
    Answers (.flowAudioCfgCommit m tx f w) s (fun t => t.flow = s.flow ∧
      (¬ bad → rgetN t a = plainValue a (rgetN s a) (if tx then w &&& 0xFFFFFFF7 else w).toNat % 2 ^ 32 ∧ RegsWithin [a] s t) ∧
      (bad → rgetN t a = rgetN s a ∧ RefusedFor s t 2)))

/-- 07 R179-R182: a line of a video receive flow is read in its place; a skew window judges the two paths; a silent path
no longer delivers. 07 R184-R190: every packet of a transmit flow takes the next sequence number, sent or not; a video
frame's packets are counted out. -/
def Obligations.FlowReceiveAndTransmit : Prop :=
  ((∀ (i : Fin 1024) (ts : Word) (line : Nat) (errs : Fin 3) (s : State), flowExists s 0 i = true → running s = true →
    srcFmt s.img (512 + i) ≠ 0 → 1 ≤ line → line ≤ rasterLines (rasterOf (srcFmt s.img (512 + i))) →
    (line = 1 ∨ (rxFlow s 0 i).cur = some ts.toNat) →
    Answers (.flowLineRead i ts line errs) s (fun t => (rxFlow t 0 i).line = line ∧ (rxFlow t 0 i).cur = some ts.toNat ∧
      (line = rasterLines (rasterOf (srcFmt s.img (512 + i))) → ∀ x ∈ (rxFlow t 0 i).frames, x.ts ≠ ts.toNat))) ∧
  (∀ (audio : Bool) (f : Fin 4096) (s : State),
    let k := if audio then 2 else 0
    let p := (rxFlow s k f).paths
    flowExists s k f = true → running s = true → mergeOf k (rxFlow s k f).cfg = true →
    Answers (.flowSkewWindow audio f) s (fun t =>
      (rxFlow t k f).paths.seen = [] ∧ (rxFlow t k f).paths.old = p.seen ∧
      (p.n = 0 → (rxFlow t k f).paths.excl = p.excl) ∧
      (p.n ≠ 0 → (rxFlow t k f).paths.n = 0 ∧ (rxFlow t k f).paths.excl =
        (if 4000000 < rne p.sum p.n then some 1 else if rne p.sum p.n < -4000000 then some 0 else none))) ∧
    (∀ r : Fin 2, Answers (.flowPathSilentTimeout audio f r) s (fun t =>
      (if r = 0 then (rxFlow t k f).paths.live0 else (rxFlow t k f).paths.live1) = false ∧
      (if r = 0 then (rxFlow t k f).paths.live1 = p.live1 else (rxFlow t k f).paths.live0 = p.live0)))) ∧
  (∀ (f : Fin 4096) (ts : Word) (s : State), flowExists s 2 f = true → running s = true →
    Answers (.flowAudioDelivery f ts) s (fun t => ∃ k, (rxFlow t 2 f).cur = some k ∧ ∀ x ∈ (rxFlow t 2 f).samples, k < x.1)) ∧
  (∀ (f : Fin 1024) (ts : Word) (s : State), flowExists s 4 f = true → running s = true →
    Answers (.flowAncRxClose f ts) s (fun t => (rxFlow t 4 f).count = (rxFlow s 4 f).count + 1 ∧
      (rxFlow t 4 f).cur = some ts.toNat ∧
      ∀ x ∈ (rxFlow t 4 f).frames, sext 32 ((x.ts + 2 ^ 32 - ts.toNat) % 2 ^ 32) > 0))) ∧
  ((∀ (j : Fin 1024) (s : State), flowExists s 1 j = true → destFmt s.img (512 + j) ≠ 0 → inService s = true →
    (let cfg := if (txFlow s 1 j).p = 0 then rgetN s (Reg.FLOW_VTX_CFG j) else (txFlow s 1 j).cfg
     hbrmt cfg = false ∨ hbrmtFmt (destFmt s.img (512 + j)) = true) →
    Answers (.flowTxPacketDue j) s (fun t => (txFlow t 1 j).seq = ((txFlow s 1 j).seq + 1) % 2 ^ 32 ∧
      (txFlow t 1 j).p = (if (txFlow s 1 j).p + 1 < framePackets (destFmt s.img (512 + j)) (txFlow t 1 j).cfg
        then (txFlow s 1 j).p + 1 else 0))) ∧
  (∀ (f : Fin 4096) (s : State), flowExists s 3 f = true → inService s = true →
    Answers (.flowAudioTxPacket f) s (fun t => (txFlow t 3 f).seq = ((txFlow s 3 f).seq + 1) % 2 ^ 32)) ∧
  (∀ (f : Fin 1024) (s : State), flowExists s 5 f = true → inService s = true →
    Answers (.flowAncTxSend f) s (fun t => (txFlow t 5 f).ins = (txFlow s 5 f).ins ∧
      ∃ n, 1 ≤ n ∧ (txFlow t 5 f).seq = ((txFlow s 5 f).seq + n) % 2 ^ 32)))

/-- 04 R93-R95: a record word and PI are taken from the master that may feed the ring; an overrun or a write that must be
ignored changes only a status bit. 04 R96-R98, R101: a salvo is validated whole: refused with its code, or committed
with its takes and its frame; an abandoned tail is refused with code 0x08. -/
def Obligations.TakeRingAndSalvos : Prop :=
  ((∀ (m : Fin 9) (w : Fin 16384) (v : Word) (s : State), Reaches s m (Reg.XP_TAKE_RING w) →
    Answers (.takeRecordWrite m w v) s (fun t => t.xp = s.xp ∧
      if mayFeed s m = false then
        fbit t Reg.XP_TAKE_STAT Fld.XP_TAKE_STAT_IGNORED = true ∧ RegsWithin [Reg.XP_TAKE_STAT] s t
      else if (w.val / 4 + 4096 - takeCi s % 4096) % 4096 < takeOcc s then
        fbit t Reg.XP_TAKE_STAT Fld.XP_TAKE_STAT_OVERRUN = true ∧ RegsWithin [Reg.XP_TAKE_STAT] s t
      else rget t (Reg.XP_TAKE_RING w) = v ∧ RegsWithin [Reg.XP_TAKE_RING w] s t)) ∧
  (∀ (m : Fin 9) (pi : BitVec 13) (s : State), Reaches s m Reg.XP_TAKE_PI →
    Answers (.takePiWrite m pi) s (fun t => t.xp.salvos = s.xp.salvos ∧
      if mayFeed s m = false then takePi t = takePi s ∧ fbit t Reg.XP_TAKE_STAT Fld.XP_TAKE_STAT_IGNORED = true
      else if 4096 - takeOcc s < cntDist (takePi s) pi.toNat then
        takePi t = takePi s ∧ fbit t Reg.XP_TAKE_STAT Fld.XP_TAKE_STAT_OVERRUN = true
      else takePi t = pi.toNat ∧ RegsWithin [Reg.XP_TAKE_PI] s t))) ∧
  (∀ (n : Nat) (s : State), inService s = true → pairInUse s = false → s.xp.abandoned = [] →
    let first := s.xp.validated
    let last := takeRec4 s (first + n - 1)
    (takeRun s (cntDist first (takePi s)) first = some n → ∀ since0 since1 : Nat,
      (∀ code i, checkRecs s first n n [] [] = .inl (code, i) → code < 256 →
        Answers (.salvoCommit since0 since1) s (fun t =>
          fbit t Reg.XP_TAKE_STAT Fld.XP_TAKE_STAT_REFUSED = true ∧
          fget t Reg.XP_TAKE_STAT Fld.XP_TAKE_STAT_REF_CODE = code ∧
          fget t Reg.XP_TAKE_STAT Fld.XP_TAKE_STAT_REF_INDEX = first % 8192 ∧
          rgetN t Reg.XP_TAKE_REFUSE_COUNT = min 0xFFFFFFFF (rgetN s Reg.XP_TAKE_REFUSE_COUNT + 1) ∧
          t.xp.validated = (first + n) % 8192)) ∧
      (∀ t0 t1, checkRecs s first n n [] [] = .inr (t0, t1) → t0 ≠ [] ∨ t1 ≠ [] → bitOf 17 last.2.1 = false →
        Answers (.salvoCommit since0 since1) s (fun t =>
          (∃ v ∈ t.xp.salvos, v.first = first ∧ v.n = n ∧ v.tag = bitsOf 15 0 last.2.1 ∧ v.refused = false ∧
            (∀ part ∈ v.parts, part.due = none ∧ part.executed = false ∧ part.takes = (if part.plane = 0 then t0 else t1)) ∧
            (t0 ≠ [] → ∃ part ∈ v.parts, part.plane = 0) ∧ (t1 ≠ [] → ∃ part ∈ v.parts, part.plane = 1)) ∧
          t.xp.validated = (first + n) % 8192 ∧
          RegsWithin [Reg.XP_TAKE_CI, Reg.XP_PLANE_EXEC 0, Reg.XP_PLANE_EXEC 1] s t)) ∧
      (∀ t0, checkRecs s first n n [] [] = .inr (t0, []) → t0 ≠ [] → bitOf 17 last.2.1 = true →
        let at_ := last.2.2.1 + last.2.2.2 % 65536 * 2 ^ 32
        let d := (at_ + 2 ^ 48 - planeFc s 0) % 2 ^ 48
        (1 ≤ d → d ≤ 256 → Answers (.salvoCommit since0 since1) s (fun t => ∃ v ∈ t.xp.salvos, v.first = first ∧
          v.parts = [{ plane := 0, takes := t0, due := some at_ }])) ∧
        (256 < d → d ≤ 2 ^ 47 → Answers (.salvoCommit since0 since1) s (fun t =>
          fget t Reg.XP_TAKE_STAT Fld.XP_TAKE_STAT_REF_CODE = 6)))) ∧
    (∀ m : Fin 9, first < 8192 → Reaches s m Reg.XP_TAKE_CTRL → mayFeed s m = true → cntDist first (takePi s) ≠ 0 →
      takeRun s (cntDist first (takePi s)) first = none →
      Answers (.takeAbandon m) s (fun t =>
        fbit t Reg.XP_TAKE_STAT Fld.XP_TAKE_STAT_REFUSED = true ∧
        fget t Reg.XP_TAKE_STAT Fld.XP_TAKE_STAT_REF_CODE = 8 ∧
        t.xp.validated = (first + cntDist first (takePi s)) % 8192)))

/-- 04 R99, R102, Table 4.9: the cut-off loads the batch's takes into their destinations and changes no source in use;
once the plane's switching line has been read the batch is recorded. -/
def Obligations.BatchOfPlane : Prop :=
  ∀ (p : Fin 2) (s : State), planeUsed s.img p = true → running s = true →
    (∀ v ∈ s.xp.salvos, ∀ u ∈ v.parts, ∀ k ∈ u.takes, k.dest < 4096) →
    let fc := (planeFc s p + 1) % 2 ^ 48
    Answers (.planeCutoff p) s (fun t =>
      (∀ d, d < 4096 → curSrc t d = curSrc s d ∧ curBlack t d = curBlack s d) ∧
      (batchOf s p ≠ [] → t.xp = s.xp ∧ t.regs = s.regs) ∧
      (batchOf s p = [] →
        t.xp.salvos = (formBatch p fc s.xp.salvos 0).1 ∧
        ((batchOf t p).map (fun x => x.2.takes.length)).sum ≤ 2048 ∧
        (∀ x ∈ batchOf t p, x.2.due.any (fun f => fcAfter f fc) = false) ∧
        (∀ x ∈ batchOf t p, ∀ k ∈ x.2.takes, fbit t (Reg.XP_DEST_SRC k.dest) Fld.XP_DEST_SRC_PEND_VALID = true))) ∧
    Answers (.batchRecord p) s (fun t => batchOf t p = [] ∧
      fget t (Reg.XP_PLANE_EXEC p) Fld.XP_PLANE_EXEC_TAKES_LAST =
        ((batchOf s p).map (fun x => x.2.takes.length)).sum % 2 ^ 12 ∧
      (∀ x, (batchOf s p).getLast? = some x →
        fget t (Reg.XP_PLANE_DONE_TAG p) Fld.XP_PLANE_DONE_TAG_TAG = x.1.tag % 2 ^ 16 ∧
        rget64 t (Reg.XP_PLANE_DONE_FC_LO p) (Reg.XP_PLANE_DONE_FC_HI p) = planeFc s p))

/-- 04 R83, R84, R104: the switch point advances PLANE_FC and starts the frame pulse; at the switching line every pending
take becomes its destination's source. (What the switch points of plane 1 do in a cast, which may restart the plane:
`Obligations.CastAndConfirm`.). -/
def Obligations.SwitchPoint : Prop :=
  ∀ (p : Fin 2) (s : State), planeUsed s.img p = true → running s = true →
    (s.pair.copyIn = none → inCast s = false ∨ p = 0 ∨ planeBlack s 1 = false → Answers (.planeSwitchPoint p) s (fun t => planeFc t p = (planeFc s p + 1) % 2 ^ 48 ∧
      ∃ l, t.out = s.out ++ l ∧ (s.test.jtagPins = false → .pin (if p = 0 then "PLANE0_FP" else "PLANE1_FP") 1 ∈ l))) ∧
    (inCast s = false → Answers (.destSwitchLineRead p) s (fun t =>
      (∀ d, d < 2816 → destNames s.img d = true → destPlane s.img d = p →
        fbit t (Reg.XP_DEST_SRC d) Fld.XP_DEST_SRC_PEND_VALID = false ∧
        (fbit s (Reg.XP_DEST_SRC d) Fld.XP_DEST_SRC_PEND_VALID = true →
          curBlack t d = fbit s (Reg.XP_DEST_SRC d) Fld.XP_DEST_SRC_PEND_BLACK ∧
          curSrc t d = fget s (Reg.XP_DEST_SRC d) Fld.XP_DEST_SRC_PEND_SRC) ∧
        (fbit s (Reg.XP_DEST_SRC d) Fld.XP_DEST_SRC_PEND_VALID = false →
          curBlack t d = curBlack s d ∧ curSrc t d = curSrc s d)) ∧
      ∃ l, t.out = s.out ++ l ∧ (s.test.jtagPins = false → .pin (if p = 0 then "PLANE0_FP" else "PLANE1_FP") 0 ∈ l)))

/-- 04 R84, R88, R108, R110: a destination reads a line and passes it on, from a FIFO under the number it has in its
source; its synchroniser stores whole frames and declares the source lost when the hold timer expires. 04 R85, R89:
the arrival of the switching line judges a lane against the alignment window of each plane in use (a packet source is
judged at its read point, not by this command); a measured frame period judges the source's rate. -/
def Obligations.DestinationsAndSourceTiming : Prop :=
  (∀ (d : Fin 4096) (s : State),
    (∀ (line : Nat) (errs : Fin 3), destNames s.img d = true → running s = true →
      let r := destLine d line errs (plane1Audio d s)
      let n := readNumber d line r.2
      let picture := if r.1.1 then
          pictureWords (carriedFmt r.2 d) (destSamp r.2 d) (destOf r.2 d).square (destOf r.2 d).levelB r.1.2
        else r.1.2.headD []
      Answers (.destLineRead d line errs) s (fun t =>
        (destOf t d).line = some ⟨n, r.1.2.flatten⟩ ∧
        (512 ≤ d.val → (∃ l, t.out = l ++ [.line d n picture]) ∧
          cget [] (cget [] t.xp.destLines d) n = picture) ∧
        (d.val < 512 → sdiIdle s d = false → s.test.jtagPins = false → ∃ l, t.out = s.out ++ l ∧
          ∀ i < (if laneTxq s.img d then 4 else 1), ∃ ws, .line (d + i) line ws ∈ l))) ∧
    (∀ x, (destOf s d).fs.en = true → (destOf s d).fs.wsrc = some x →
      let f := (destOf s d).fs
      let a := Reg.XP_DEST_FSYNC_STAT d
      Answers (.fsyncFrameComplete d) s (fun t => (destOf t d).fs.shown = f.shown ∧
        if f.spoiled || !(storeOp ((destSync s.img d).getD 0) s).1 then (destOf t d).fs = { f with spoiled := false }
        else (destOf t d).fs.fresh = f.fresh + 1 ∧ (destOf t d).fs.newest.isSome = true ∧
          fget t a Fld.XP_DEST_FSYNC_STAT_DROPS = if f.newest.isSome then min 255 (fget s a Fld.XP_DEST_FSYNC_STAT_DROPS + 1)
            else fget s a Fld.XP_DEST_FSYNC_STAT_DROPS)) ∧
    ((destOf s d).fs.en = true → (destOf s d).fs.timer = true → (destOf s d).fs.held = true →
      (destOf s d).fs.fresh = 0 → Answers (.fsyncHoldExpire d) s (fun t =>
        (destOf t d).fs.lost = true ∧ (destOf t d).fs.timer = false ∧
        fbit t (Reg.XP_DEST_STAT d) Fld.XP_DEST_STAT_SYNC_LOST = true ∧ RegsReported [Reg.XP_DEST_STAT d] s t))) ∧
  ((∀ (x : Fin 2048) (d0 d1 : Int) (s : State), 512 ≤ x.val → x.val < 1536 →
    Answers (.sourceSwitchLineArrival x d0 d1) s (fun t => t = s)) ∧
  (∀ (x : Fin 2048) (d0 d1 : Int) (p : Fin 2) (s : State), running s = true → srcNames s.img x = true →
    planeUsed s.img p = true → x.val < 512 ∨ 1536 ≤ x.val → (x.val < 512 → laneRxq s.img x = false ∧ isQuad s.img (4 * (x / 4)) = false) →
    Answers (.sourceSwitchLineArrival x d0 d1) s (fun t =>
      laneWin t x p = (if inWindow s.img p (if p = 0 then d0 else d1) && srcPresent s x
        then min 2 (laneWin s x p + 1) else 0) ∧
      srcTimed t x p = (madeIn s.img x == some p.val || (srcPresent s x && decide (2 ≤ laneWin t x p))))) ∧
  (∀ (x : Fin 2048) (ps : Nat) (s : State), running s = true → srcNames s.img x = true → x.val < 512 ∨ 1536 ≤ x.val →
    rateMeasured s x = true → Answers (.sourceFrameMeasured x ps) s (fun t =>
      let l := (ps :: cget [] s.xp.periods x).take 8
      cget [] t.xp.periods x = l ∧ srcOffRate t x = offRate (srcFmt s.img x) l ∧
      (∀ y, y ≠ x.val → cget [] t.xp.periods y = cget [] s.xp.periods y))))

/-- 05 R119-R121, Table 5.4: the steps by which a receiver finds and loses lock. 05 R122-R124: a received line is judged
by its CRC words and passed on with the marks of the captured packets, and line 1 advances the frame count once;
payload IDs set and lose PID_VALID, and decide NOPROC. -/
def Obligations.ReceiverLockAndStream : Prop :=
  (∀ (v : Fin 512) (s : State), rxRuns s.img v = true →
    (rxState s v = 1 →
      Answers (.vlaneRateSearchTimeout v) s (fun t => rxState t v = 1 ∧ (laneSt t v).rate = nextRate (laneSt s v).rate ∧
        fget t (Reg.VLANE_RX_STAT v) Fld.VLANE_RX_STAT_RATE_DET = 0 ∧ RegsWithin [Reg.VLANE_RX_STAT v] s t) ∧
      Answers (.vlaneCdrLock v) s (fun t => rxState t v = 2 ∧
        fget t (Reg.VLANE_RX_STAT v) Fld.VLANE_RX_STAT_RATE_DET = (laneSt s v).rate % 16 ∧ t.vl = s.vl ∧
        RegsWithin [Reg.VLANE_RX_STAT v] s t)) ∧
    (rxState s v = 2 →
      Answers (.vlaneAlignTimeout v) s (fun t => rxState t v = 1 ∧ (laneSt t v).rate = nextRate (laneSt s v).rate ∧
        RegsWithin [Reg.VLANE_RX_STAT v] s t) ∧
      ∀ (streams : List (Nat × Nat × Bool)) (levelB : Bool),
        Answers (.vlaneFrameAligned v streams levelB) s (fun t => rxState t v = 3 ∧
          fbit t (Reg.VLANE_RX_STAT v) Fld.VLANE_RX_STAT_RATE_MISMATCH =
            decide (fget s (Reg.VLANE_RX_STAT v) Fld.VLANE_RX_STAT_RATE_DET ≠ linkCode (rxExpect s.img v)) ∧
          fbit t (Reg.VLANE_RX_STAT v) Fld.VLANE_RX_STAT_STRUCT_MISMATCH =
            decide (streams ≠ expectStreams (rxExpect s.img v) levelB) ∧
          fbit t (Reg.VLANE_RX_STAT v) Fld.VLANE_RX_STAT_LEVEL_B = levelB)) ∧
    (rxState s v = 3 →
      let lost (t : State) : Prop := rxState t v = 1 ∧ (laneSt t v).rate = (laneSt s v).rate ∧
        rgetN t (Reg.VLANE_RX_LOCK_LOSS v) = min 0xFFFFFFFF (rgetN s (Reg.VLANE_RX_LOCK_LOSS v) + 1)
      Answers (.vlaneCdrLoss v) s lost ∧ Answers (.vlaneEavMissing v) s lost)) ∧
  (∀ (v : Fin 512) (s : State), rxRuns s.img v = true → rxState s v = 3 →
    (∀ (line : Nat) (words : List Nat), s.test.inj = none →
      Answers (.vlaneLineReceived v line words) s (fun t =>
        rgetN t (Reg.VLANE_RX_CRC_LINES v) = (if lineErrored s v line words 0 = true
          then min 0xFFFFFFFF (rgetN s (Reg.VLANE_RX_CRC_LINES v) + 1) else rgetN s (Reg.VLANE_RX_CRC_LINES v)) ∧
        (srcLines t v).ring.getLast? = some ⟨line, (laneSt s v).marks.foldl (markPacket (rxStreams s v)) words⟩ ∧
        (laneSt t v).fc = (if line = 1 ∧ (laneSt s v).fcDone = false then ((laneSt s v).fc + 1) % 256 else (laneSt s v).fc) ∧
        (laneSt t v).marks = [] ∧ (laneSt t v).ins = (laneSt s v).ins)) ∧
    (∀ pid : Word, Answers (.vlanePidPacket v pid true) s (fun t =>
      rget t (Reg.VLANE_RX_PID v) = pid ∧ fbit t (Reg.VLANE_RX_STAT v) Fld.VLANE_RX_STAT_PID_VALID = true ∧
      fbit t (Reg.VLANE_RX_STAT v) Fld.VLANE_RX_STAT_NOPROC =
        (!pidProcessable pid.toNat || rasterOf (rxExpect s.img v) == 9) ∧ (laneSt t v).pidSeen = true ∧
      RegsWithin [Reg.VLANE_RX_STAT v, Reg.VLANE_RX_PID v] s t)) ∧
    (∀ pid : Word, Answers (.vlanePidPacket v pid false) s (fun t => t = s)) ∧
    Answers (.vlanePidTimeout v) s (fun t => fbit t (Reg.VLANE_RX_STAT v) Fld.VLANE_RX_STAT_PID_VALID = false ∧
      rget t (Reg.VLANE_RX_PID v) = rget s (Reg.VLANE_RX_PID v) ∧ RegsWithin [Reg.VLANE_RX_STAT v] s t))

/-- 05 R135-R137: a packet that a filter matches becomes one record of the filter's queue, where that is one of kind ANC
with room (of another kind: the model's choice, log entry 131), or a counted drop; one that no filter matches leaves
nothing. The first packet on line 1 advances the frame count. -/
def Obligations.AncCapture : Prop :=
  ∀ (v : Fin 512) (line : Nat) (hanc stream ok : Bool) (did sdid : BitVec 8) (pos : Nat) (udw : List (BitVec 10)) (s : State),
    rxRuns s.img v = true → rxState s v = 3 → s.test.inj = none →
    let u := fcStep v line s
    let l := laneSt u v
    let bs := ancRecord line hanc stream (if laneRxq s.img v then v % 4 else 0) ok did.toNat sdid.toNat l.fc
      ((udw.take 255).map (·.toNat))
    (ancMatch l did.toNat sdid.toNat = none →
      Answers (.ancPacketCapture v line hanc stream ok did sdid pos udw) s (fun t => t = u)) ∧
    (∀ n f q, ancMatch l did.toNat sdid.toNat = some (n, f, q) →
      Answers (.ancPacketCapture v line hanc stream ok did sdid pos udw) s (fun t =>
        if (roomFor 3 (q % 2 ^ 20) bs.length u).1 = true then
          getQ t (q % 2 ^ 20) = { qClose (qAppend bs (getQ s (q % 2 ^ 20))) with cells := (getQ t (q % 2 ^ 20)).cells } ∧
          (∀ p, p ≠ q % 2 ^ 20 → getQ t p = getQ s p) ∧
          (laneSt t v).marks = (if bitOf 30 f then l.marks ++ [pos] else l.marks) ∧
          RegsWithin [Reg.QM_DCACHE_MISS] s t
        else rgetN t (Reg.VLANE_ANC_CAP_DROP v) = min 0xFFFFFFFF (rgetN s (Reg.VLANE_ANC_CAP_DROP v) + 1) ∧
          (∀ p, getQ t p = getQ s p) ∧ t.vl = u.vl ∧ RegsReported [Reg.VLANE_ANC_CAP_DROP v, Reg.QM_DCACHE_MISS] s t))

/-- 05 R142, R143, Table 5.6: hot plug, training and the host's control of a DisplayPort link. 05 R145: the four AUX
transactions are taken one at a time and end with the sink's reply or a timeout; the link's own read of the
capabilities is retried up to seven times, and then fails the link. -/
def Obligations.DisplayPortLinks : Prop :=
  (∀ (k : Fin 4) (s : State), dpPers s.img = true →
    Answers (.dpHpdFall k) s (fun t => dpHpd t k = false ∧ (dpSt t k).low = true ∧ dpState t k = dpState s k ∧
      RegsWithin [Reg.VLANE_DP_STAT k] s t) ∧
    (∀ ns : Nat, Answers (.dpHpdRise k ns) s (fun t => dpHpd t k = true ∧ (dpSt t k).low = false ∧
      dpState t k = (if dpState s k = 1 ∨ (dpState s k = 4 ∧ (dpSt s k).low = true ∧ 250000 < ns) then 2
        else dpState s k))) ∧
    ((dpSt s k).low = true → dpState s k ≠ 0 → Answers (.dpUnplugTimeout k) s (fun t => dpState t k = 1 ∧
      (dpSt t k).low = false ∧ fget t (Reg.VLANE_DP_STAT k) Fld.VLANE_DP_STAT_RATE = 0)) ∧
    (dpState s k = 2 → ∀ (sinkRate lanes : Nat) (ok okLow : Bool),
      Answers (.dpTrainDone k false sinkRate lanes ok okLow) s (fun t => dpState t k = 4 ∧
        fget t (Reg.VLANE_DP_STAT k) Fld.VLANE_DP_STAT_FAIL_REASON = 4) ∧
      (lanes < 4 → Answers (.dpTrainDone k true sinkRate lanes ok okLow) s (fun t => dpState t k = 4 ∧
        fget t (Reg.VLANE_DP_STAT k) Fld.VLANE_DP_STAT_FAIL_REASON = 1)) ∧
      (4 ≤ lanes → 0x1E ≤ dpMaxRate s.img k → 0x1E ≤ sinkRate → dpDepth s.img k 0x1E ≠ 0 →
        Answers (.dpTrainDone k true sinkRate lanes true okLow) s (fun t => dpState t k = 3 ∧
          fget t (Reg.VLANE_DP_STAT k) Fld.VLANE_DP_STAT_RATE = 0x1E ∧
          fget t (Reg.VLANE_DP_STAT k) Fld.VLANE_DP_STAT_BPC = dpDepth s.img k 0x1E))) ∧
    (∀ m : Fin 9, Reaches s m (Reg.VLANE_DP_CTRL k) →
      (dpEn s k = true → dpState s k = 3 ∨ dpState s k = 4 → Answers (.dpRetrain m k) s (fun t => dpState t k = 2 ∧
        dpEn t k = true ∧ rgetN t (Reg.VLANE_DP_RETRAINS k) = (if dpState s k = 3
          then min 0xFFFFFFFF (rgetN s (Reg.VLANE_DP_RETRAINS k) + 1) else rgetN s (Reg.VLANE_DP_RETRAINS k)))) ∧
      Answers (.dpLinkEnableWrite m k false) s (fun t => dpState t k = 0 ∧ dpEn t k = false) ∧
      (dpState s k = 0 → inService s = true → Answers (.dpLinkEnableWrite m k true) s (fun t => dpEn t k = true ∧
        dpState t k = (if dpHpd s k then 2 else 1))))) ∧
  (∀ (m : Fin 9) (k : Fin 4) (addr : BitVec 20) (len1 : Fin 16) (s : State), dpPers s.img = true →
    (Reaches s m (Reg.VLANE_DP_AUX_CMD k) → (dpSt s k).host = none → dpState s k ≠ 0 →
      let begun (op : Nat) (t : State) : Prop := fbit t (Reg.VLANE_DP_AUX_STAT k) Fld.VLANE_DP_AUX_STAT_BUSY = true ∧
        (∃ d, (dpSt t k).host = some (op, addr.toNat, len1.val + 1, d)) ∧
        ((dpSt s k).reading = false → dpState s k ≠ 2 →
          ∃ d, t.out = s.out ++ [.aux k op addr.toNat (len1.val + 1) d] ∧ (dpSt t k).sent = true) ∧
        RegsWithin [Reg.VLANE_DP_AUX_STAT k] s t
      Answers (.dpAuxNativeRead m k addr len1) s (begun 0) ∧
      (0x1FF < addr.toNat ∨ addr.toNat + len1.val + 1 ≤ 0x100 →
        Answers (.dpAuxNativeWrite m k addr len1) s (begun 1)) ∧
      Answers (.dpAuxI2cRead m k addr len1) s (begun 2) ∧ Answers (.dpAuxI2cWrite m k addr len1) s (begun 3)) ∧
    (∀ op a n d, (dpSt s k).host = some (op, a, n, d) → (dpSt s k).sent = true → (dpSt s k).reading = false →
      (dpSt s k).capRead = false →
      let ended (reply : Nat) (t : State) : Prop := (dpSt t k).host = none ∧
        fbit t (Reg.VLANE_DP_AUX_STAT k) Fld.VLANE_DP_AUX_STAT_BUSY = false ∧
        fbit t (Reg.VLANE_DP_AUX_STAT k) Fld.VLANE_DP_AUX_STAT_DONE = true ∧
        fget t (Reg.VLANE_DP_AUX_STAT k) Fld.VLANE_DP_AUX_STAT_REPLY = reply
      (∀ data : List Byte, Answers (.dpAuxReply k 0 data) s (fun t => ended 0 t ∧
        ∀ i, i < 4 → 4 * i < n → op % 2 = 0 → rgetN t (Reg.VLANE_DP_AUX_DATA k i) =
          leNat ((((data.map (·.toNat)).take n).drop (4 * i)).take 4))) ∧
      (∀ data : List Byte, Answers (.dpAuxReply k 1 data) s (ended 1)) ∧
      (∀ data : List Byte, 7 ≤ (dpSt s k).retries → Answers (.dpAuxReply k 2 data) s (ended 2)) ∧
      (∀ data : List Byte, (dpSt s k).retries < 7 → Answers (.dpAuxReply k 2 data) s (fun t =>
        t.out = s.out ++ [.aux k op a n d] ∧ (dpSt t k).retries = (dpSt s k).retries + 1)) ∧
      Answers (.dpAuxTimeout k) s (ended 3)) ∧
    ((dpSt s k).capRead = true → ∀ data : List Byte,
      ((dpSt s k).readRetries < 7 → Answers (.dpAuxReply k 2 data) s (fun t => t.out = s.out ++ [.aux k 0 0 16 []] ∧
        (dpSt t k).readRetries = (dpSt s k).readRetries + 1)) ∧
      (7 ≤ (dpSt s k).readRetries → Answers (.dpAuxReply k 2 data) s (fun t => dpState t k = 4 ∧
        fget t (Reg.VLANE_DP_STAT k) Fld.VLANE_DP_STAT_FAIL_REASON = 4))))

/-- 12 R304: a commit puts the shadow masks in wait; at the next FS of the port's pins they take effect, and the FS moves
the port on by Table 12.4. -/
def Obligations.AudioPorts : Prop :=
  (∀ (m : Fin 9) (p : Fin 32) (rx tx : Bool) (s : State), Reaches s m (Reg.SAP_MASK_COMMIT p) → sapUsed s.img p = true →
    Answers (.sapMaskCommit m p rx tx) s (fun t =>
      sapPort t p = { sapPort s p with
        rxPend := if rx then some (rgetN s (Reg.SAP_RX_MASK_SH p)) else (sapPort s p).rxPend
        txPend := if tx then some (rgetN s (Reg.SAP_TX_MASK_SH p)) else (sapPort s p).txPend } ∧
      (∀ q, q ≠ p.val → sapPort t q = sapPort s q) ∧ RegsWithin [] s t)) ∧
  (∀ (c : Fin 32) (cycles : Nat) (din : List (Nat × List Nat)) (s : State), inService s = true →
    Answers (.sapFrameSync c cycles din) s (fun t => ∀ p, p < 32 →
      if sapUsed s.img p = true ∧ sapClkSrc s.img p = c then
        let v := sapPort s p
        let bad := decide (cycles ≠ 32 * sapSlots s.img p)
        sapState t p = (if sapEn s p = false then 0 else if grpLets s p = false then 1
          else if sapState s p = 3 ∧ ¬ (v.seen = true ∧ bad = false ∧ 1 ≤ v.good) then 3 else 2) ∧
        (sapPort t p).seen = true ∧ (sapPort t p).rxPend = none ∧ (sapPort t p).txPend = none ∧
        rgetN t (Reg.SAP_RX_MASK p) = (v.rxPend.getD (rgetN s (Reg.SAP_RX_MASK p))) % 2 ^ 32 ∧
        rgetN t (Reg.SAP_TX_MASK p) = (v.txPend.getD (rgetN s (Reg.SAP_TX_MASK p))) % 2 ^ 32 ∧
        (v.seen = true → fget t (Reg.SAP_FRAME_LEN p) Fld.SAP_FRAME_LEN_LEN = cycles % 2 ^ 16 ∧
          rgetN t (Reg.SAP_FRAME_ERR p) = (if bad = true
            then min 0xFFFFFFFF (rgetN s (Reg.SAP_FRAME_ERR p) + 1) else rgetN s (Reg.SAP_FRAME_ERR p)))
      else sapState t p = sapState s p ∧ sapPort t p = sapPort s p)) ∧
  (∀ (c : Fin 32) (s : State), inService s = true → Answers (.sapClkLossTimeout c) s (fun t => ∀ p, p < 32 →
    if sapUsed s.img p = true ∧ sapClkSrc s.img p = c ∧ sapState s p = 2 then
      sapState t p = (if sapEn s p = false then 0 else if grpLets s p = false then 1 else 3) ∧
      rgetN t (Reg.SAP_CLK_LOSS p) = min 0xFFFFFFFF (rgetN s (Reg.SAP_CLK_LOSS p) + 1) ∧
      (sapPort t p).rxCur = [] ∧ (sapPort t p).txCur = []
    else sapState t p = sapState s p ∧ sapPort t p = sapPort s p))

/-- 12 R304, R306, R308: a start group is armed and disarmed by ARM, commits its ports' masks, and starts from ARMED
alone, by START_NOW, by the pin where it is enabled, or when the selected time reaches its target. -/
def Obligations.StartGroups : Prop :=
  (∀ (m : Fin 9) (k : Fin 16) (s : State), Reaches s m (Reg.SAP_GRP_CTRL k) → grpUsed s.img k = true →
    let c := rgetN s (Reg.SAP_GRP_CTRL k)
    (bitOf 2 c = false → Answers (.sapGroupArm m k) s (fun t =>
      grpState t k = (if grpState s k = 0 then 1 else grpState s k) ∧ t.aud = s.aud ∧
      RegsWithin [Reg.SAP_GRP_CTRL k, Reg.SAP_GRP_STAT k] s t)) ∧
    Answers (.sapGroupDisarm m k) s (fun t => grpState t k = 0 ∧ (∀ j, j < 16 → j ≠ k.val → grpState t j = grpState s j)) ∧
    (bitOf 0 c = true → grpState s k = 1 → Answers (.sapGroupStartNow m k) s (fun t => grpState t k = 2 ∧
      rget64 t (Reg.SAP_GRP_START_SC_LO k) (Reg.SAP_GRP_START_SC_HI k) = audSc s ∧
      fbit t (Reg.SAP_GRP_CTRL k) Fld.SAP_GRP_CTRL_AT_EN = false)) ∧
    Answers (.sapGroupMaskCommit m k) s (fun t => ∀ p,
      if p ∈ grpMembers s.img k then
        (sapPort t p).rxPend = some (rgetN s (Reg.SAP_RX_MASK_SH p)) ∧
        (sapPort t p).txPend = some (rgetN s (Reg.SAP_TX_MASK_SH p))
      else sapPort t p = sapPort s p) ∧
    (∀ tk : Fin 4, bitOf 0 c = true → grpState s k = 1 →
      let time := if tk.val = 0 ∨ tk.val = 3 then otRaw s else tkRaw s (tk.val - 1)
      Answers (.sapGroupAtEnable m k tk) s (fun t =>
        if grpAt s k * 2 ^ 32 < time then fbit t (Reg.SAP_GRP_STAT k) Fld.SAP_GRP_STAT_LATE = true ∧ grpState t k = 2
        else grpState t k = 1 ∧ grpTk t k = (if tk.val = 3 then 0 else tk.val) ∧
          fbit t (Reg.SAP_GRP_CTRL k) Fld.SAP_GRP_CTRL_AT_EN = true ∧ RegsWithin [Reg.SAP_GRP_CTRL k] s t))) ∧
  (∀ s : State, inService s = true → Answers .audStartEdge s (fun t => ∀ k, k < 16 →
    if grpUsed s.img k = true ∧ grpPinEn s.img k = true ∧ grpState s k = 1 then
      grpState t k = 2 ∧ rget64 t (Reg.SAP_GRP_START_SC_LO k) (Reg.SAP_GRP_START_SC_HI k) = audSc s
    else grpState t k = grpState s k)) ∧
  (∀ (k : Fin 16) (s : State), inService s = true → grpUsed s.img k = true → grpState s k = 1 →
    fbit s (Reg.SAP_GRP_CTRL k) Fld.SAP_GRP_CTRL_AT_EN = true → Answers (.sapGroupAtReached k) s (fun t =>
      grpState t k = 2 ∧ fbit t (Reg.SAP_GRP_CTRL k) Fld.SAP_GRP_CTRL_AT_EN = false ∧
      rget64 t (Reg.SAP_GRP_START_SC_LO k) (Reg.SAP_GRP_START_SC_HI k) = audSc t))

/-- 12 R311: the states of an ASRC block: its window measures the ratio, it locks after its acquisition, and it leaves
LOCKED or ACQUIRE when the clock is lost or the ratio or the phase leaves the range. 12 R315, R316: how a channel
comes to be flagged non-audio and how the flag clears. -/
def Obligations.AsrcAndNonAudio : Prop :=
  (∀ (b : Fin 256) (s : State), inService s = true →
    (∀ (w : Nat) (phase : Int), asrcState s b ≠ 0 → Answers (.asrcWindowEnd b w phase) s (fun t =>
      let r := if w = 0 then 2 ^ 32 - 1 else min (2 ^ 32 - 1) (2 ^ 55 / w)
      let good := decide (45 * 2 ^ 30 ≤ 100 * r) && decide (100 * r ≤ 102 * 2 ^ 30)
      asrcState t b = (if asrcState s b = 1 then (if good && !(asrcBlk s b).recentre then 2 else 1)
        else if !good || decide (1024 < phase.natAbs) then 1 else asrcState s b) ∧
      rgetN t (Reg.ASRC_UNLOCKS b) = (if asrcState s b = 3 ∧ (good = false ∨ 1024 < phase.natAbs)
        then min 0xFFFFFFFF (rgetN s (Reg.ASRC_UNLOCKS b) + 1) else rgetN s (Reg.ASRC_UNLOCKS b)) ∧
      ∀ c, c < 256 → c ≠ b.val → asrcState t c = asrcState s c)) ∧
    (2 ≤ asrcState s b → Answers (.asrcClockLossTimeout b) s (fun t => asrcState t b = 1 ∧
      rgetN t (Reg.ASRC_UNLOCKS b) = (if asrcState s b = 3 then min 0xFFFFFFFF (rgetN s (Reg.ASRC_UNLOCKS b) + 1)
        else rgetN s (Reg.ASRC_UNLOCKS b)) ∧ RegsReported [Reg.ASRC_STAT b, Reg.ASRC_UNLOCKS b] s t)) ∧
    (asrcState s b = 2 → (asrcBlk s b).steady = true → Answers (.asrcAcquireTimer b) s (fun t =>
      asrcState t b = 3 ∧ t.aud = s.aud ∧ RegsWithin [Reg.ASRC_STAT b] s t))) ∧
  (∀ (a : Fin 25600) (s : State),
    let r := Reg.SAP_NA_CH a
    (∀ bit1, (naDet s a).block = some bit1 → Answers (.naCsBlock a) s (fun t =>
      (naDet t a).block = none ∧ RegsWithin [r] s t ∧
      fbit t r Fld.SAP_NA_CH_CS_NA =
        (bit1 || (fbit s r Fld.SAP_NA_CH_CS_NA && decide ((naDet s a).zeros = 0))) ∧
      (fbit t r Fld.SAP_NA_CH_CS_NA ≠ fbit s r Fld.SAP_NA_CH_CS_NA → fbit t r Fld.SAP_NA_CH_NA =
        naOf (naMode s a) (fbit t r Fld.SAP_NA_CH_PRE_NA || fbit t r Fld.SAP_NA_CH_CS_NA)))) ∧
    (let one := naAlign (naSample s a 1) (naSample s a 0)
     let e := a.val / 2 * 2
     let two := naAlign (naSample s e 0) (naSample s (e + 1) 0)
     Answers (.naPreambleDetect a) s (fun t =>
       if two ≠ 0 then ∀ c, c = e ∨ c = e + 1 → fbit t (Reg.SAP_NA_CH c) Fld.SAP_NA_CH_PRE_NA = true ∧
         fget t (Reg.SAP_NA_CH c) Fld.SAP_NA_CH_ALIGN = two ∧
         fbit t (Reg.SAP_NA_CH c) Fld.SAP_NA_CH_NA = naOf (naMode s c) true
       else if one ≠ 0 then fbit t r Fld.SAP_NA_CH_PRE_NA = true ∧ fget t r Fld.SAP_NA_CH_ALIGN = one ∧
         fbit t r Fld.SAP_NA_CH_NA = naOf (naMode s a) true ∧ RegsWithin [r] s t
       else t = s)) ∧
    Answers (.naPreambleTimeout a) s (fun t =>
      if fbit s r Fld.SAP_NA_CH_PRE_NA = true ∧ 8192 ≤ (naDet s a).age then
        fbit t r Fld.SAP_NA_CH_PRE_NA = false ∧ fbit t r Fld.SAP_NA_CH_CS_NA = fbit s r Fld.SAP_NA_CH_CS_NA ∧
        fbit t r Fld.SAP_NA_CH_NA = naOf (naMode s a) (fbit s r Fld.SAP_NA_CH_CS_NA) ∧ RegsWithin [r] s t
      else t = s))

/-- 05 R132, R133: an SDI audio data packet of synchronous audio gives its group's samples with their clock phase; an
uncorrectable packet repeats the group's last and is counted; a group that stops is dropped from the frame; a packet
of data stream 2 of level B, or of a group that the link rate does not carry, is not de-embedded. -/
def Obligations.SdiAudio : Prop :=
  ∀ (v : Fin 512) (g : Fin 8) (second : Bool) (phase : BitVec 13) (smp : List Nat) (s : State),
    rxRuns s.img v = true → rxState s v = 3 → inService s = true →
    (deembs s v g second = false → ∀ (o : Fin 3) (sync : Bool),
      Answers (.sdiAudioPacket v g second o sync phase smp) s (fun t => t = s)) ∧
    (deembs s v g second = true →
    (smp.length = 4 → Answers (.sdiAudioPacket v g second 0 true phase smp) s (fun t =>
      cget [0, 0, 0, 0] (deemb t v).last g = smp.map (fun x => x % 2 ^ 36 / 256 * 256 + 2 ^ 37 + phase.toNat * 2 ^ 38) ∧
      rgetN t (Reg.VLANE_RX_AUD_ERR v) = rgetN s (Reg.VLANE_RX_AUD_ERR v))) ∧
    Answers (.sdiAudioPacket v g second 1 true phase smp) s (fun t =>
      cget [0, 0, 0, 0] (deemb t v).last g = cget [0, 0, 0, 0] (deemb s v).last g ∧
      rgetN t (Reg.VLANE_RX_AUD_ERR v) = min 0xFFFFFFFF (rgetN s (Reg.VLANE_RX_AUD_ERR v) + 1)) ∧
    (∀ sync : Bool, Answers (.sdiAudioPacket v g second 2 sync phase smp) s (fun t =>
      g.val ∉ (deemb t v).groups ∧ g.val ∉ (deemb t v).asyncG ∧ RegsWithin [Reg.VLANE_RX_STAT v] s t)) ∧
    Answers (.sdiAudioPacket v g second 0 false phase smp) s (fun t =>
      fbit t (Reg.VLANE_RX_STAT v) Fld.VLANE_RX_STAT_AUD_ASYNC = true ∧ g.val ∈ (deemb t v).asyncG))

/-- 13 R328-R330: the audio take ring accepts records and PI from the master that may feed it; a salvo is refused whole
with its code, or committed; an abandoned tail is refused with code 0x06. -/
def Obligations.AudioTakeRing : Prop :=
  (∀ (m : Fin 9) (w : Fin 8192) (v : Word) (s : State), Reaches s m (Reg.AUD_TAKE_RING w) →
    Answers (.audTakeRecordWrite m w v) s (fun t => t.aud = s.aud ∧
      if mayFeed s m = false then fbit t Reg.AUD_TAKE_STAT Fld.AUD_TAKE_STAT_IGNORED = true ∧ RegsWithin [Reg.AUD_TAKE_STAT] s t
      else if (w.val / 4 + 2048 - audCi s % 2048) % 2048 < audOcc s then
        fbit t Reg.AUD_TAKE_STAT Fld.AUD_TAKE_STAT_OVERRUN = true ∧ RegsWithin [Reg.AUD_TAKE_STAT] s t
      else rget t (Reg.AUD_TAKE_RING w) = v ∧ RegsWithin [Reg.AUD_TAKE_RING w] s t)) ∧
  (∀ (m : Fin 9) (pi : BitVec 12) (s : State), Reaches s m Reg.AUD_TAKE_PI →
    Answers (.audTakePiWrite m pi) s (fun t => t.aud.salvos = s.aud.salvos ∧
      if mayFeed s m = false then audPi t = audPi s ∧ fbit t Reg.AUD_TAKE_STAT Fld.AUD_TAKE_STAT_IGNORED = true
      else if 2048 - audOcc s < audDist (audPi s) pi.toNat then
        audPi t = audPi s ∧ fbit t Reg.AUD_TAKE_STAT Fld.AUD_TAKE_STAT_OVERRUN = true
      else audPi t = pi.toNat ∧ RegsWithin [Reg.AUD_TAKE_PI] s t)) ∧
  (∀ (s : State) (n : Nat), inService s = true → pairInUse s = false → s.aud.abandoned = [] →
    let first := s.aud.validated
    let last := audRec s (first + n - 1)
    audRun s (audDist first (audPi s)) first = some n →
    let refusedWith (code : Nat) : Prop := Answers .audSalvoCommit s (fun t =>
      fbit t Reg.AUD_TAKE_STAT Fld.AUD_TAKE_STAT_REFUSED = true ∧
      fget t Reg.AUD_TAKE_STAT Fld.AUD_TAKE_STAT_REF_CODE = code ∧
      fget t Reg.AUD_TAKE_STAT Fld.AUD_TAKE_STAT_REF_INDEX = first % 4096 ∧
      rgetN t Reg.AUD_TAKE_REFUSE_COUNT = min 0xFFFFFFFF (rgetN s Reg.AUD_TAKE_REFUSE_COUNT + 1) ∧
      t.aud.validated = (first + n) % 4096 ∧ t.aud.dests = s.aud.dests)
    let committedFor (due : Option Nat) (takes : List Take) : Prop := Answers .audSalvoCommit s (fun t =>
      (∃ v ∈ t.aud.salvos, v.first = first ∧ v.n = n ∧ v.tag = bitsOf 31 16 last.2.1 ∧ v.takes = takes ∧ v.due = due ∧
        v.refused = false ∧ v.executed = false) ∧
      t.aud.validated = (first + n) % 4096 ∧ t.aud.dests = s.aud.dests ∧ RegsWithin [Reg.AUD_TAKE_CI] s t)
    (∀ code i, audCheck s first n n [] = .inl (code, i) → code < 256 → refusedWith code) ∧
    (∀ takes, audCheck s first n n [] = .inr takes → takes ≠ [] →
      (bitOf 9 last.2.1 = false → committedFor none takes) ∧
      (bitOf 9 last.2.1 = true →
        let at_ := last.2.2.1 + last.2.2.2 % 65536 * 2 ^ 32
        let d := scDist at_ (audSc s)
        (2 ^ 24 < d ∧ d ≤ 2 ^ 47 ∧ bitsOf 1 0 last.2.1 ≠ 2 → refusedWith 4) ∧
        (d ≤ 2 ^ 24 ∨ 2 ^ 47 < d ∨ bitsOf 1 0 last.2.1 = 2 → committedFor (some at_) takes)))) ∧
  (∀ (m : Fin 9) (s : State), Reaches s m Reg.AUD_TAKE_CTRL → mayFeed s m = true →
    s.aud.abandoned = [] → s.aud.validated < 4096 →
    let n := audDist s.aud.validated (audPi s)
    n ≠ 0 → audRun s n s.aud.validated = none → Answers (.audTakeAbandon m) s (fun t =>
      fbit t Reg.AUD_TAKE_STAT Fld.AUD_TAKE_STAT_REFUSED = true ∧
      fget t Reg.AUD_TAKE_STAT Fld.AUD_TAKE_STAT_REF_CODE = 6 ∧ t.aud.validated = (s.aud.validated + n) % 4096))

/-- 13 R319, R331-R334, R337, 14 R369: a sample edge advances AUD_SC, advances the tones that are on, ends the crossfades
that are over, and executes a salvo whose sample has come. -/
def Obligations.AudioSample : Prop :=
  ∀ s : State, running s = true → (∀ e ∈ s.aud.dests, e.1 < 32768) → (∀ e ∈ s.flow.txPos, e.1 < 16384) →
    (∀ v ∈ s.aud.salvos, ∀ k ∈ v.takes, k.dest < 32768) →
    (∀ e ∈ s.aud.asrc, ∀ c ∈ e.2.inputs.map (·.1) ++ e.2.na, c < 16) →
    (∀ k c b, blockDest s.img k c = some b → c < 16 → b < 32768) →
    let n := (nextSc s).1
    (inService s = false → Answers .audSample s (fun t => audSc t = n ∧ t.aud.parity = none ∧ t.aud.dests = s.aud.dests ∧
      RegsWithin [Reg.AUD_SC_LO, Reg.AUD_SC_HI] s t)) ∧
    (inService s = true → audBuses s.img ≤ 2048 → audTones s.img ≤ 256 → audMeters s.img ≤ 8192 →
      Answers .audSample s (fun t => audSc t = n ∧ t.aud.parity = none ∧
        fget t Reg.AUD_XF_ACTIVE Fld.AUD_XF_ACTIVE_N = fadesAt t n % 2 ^ 13 ∧
        (∀ b, (audDest t b).fade.isSome = true → fadeCovers t n b = true) ∧
        (∀ k, k < audTones s.img → cget 0 t.aud.phase k =
          (if toneOn s k then (cget 0 s.aud.phase k + rgetN s (Reg.AUD_TONE_FREQ k)) % 2 ^ 32 else cget 0 s.aud.phase k)) ∧
        ∀ v, s.aud.salvos = [v] → v.refused = false → v.executed = false → salvoReady s n v = true →
          (∀ k ∈ v.takes, k.dest < 32768 ∧ ∀ a, k.src = some a → a < 27904) →
          t.aud.salvos = [] ∧ fget t Reg.AUD_DONE_TAG Fld.AUD_DONE_TAG_TAG = v.tag % 2 ^ 16 ∧
          rget64 t Reg.AUD_DONE_SC_LO Reg.AUD_DONE_SC_HI = n ∧ audCi t = s.aud.validated % 4096 ∧
          ∀ k ∈ lastTakes v.takes, audRoute t k.dest = k.src))

/-- 13 R335, R337, R339-R341: a mix bus entry takes a word of its form and refuses another with reason 2; a tone's mode
write sets its phase to 0; a meter's block end gives RMS and HOLD; CLR acts at the next block end. -/
def Obligations.MixTonesAndMeters : Prop :=
  (∀ (m : Fin 9) (b : Fin 2048) (i : Fin 64) (hi : Bool) (w : Word) (s : State),
    let a := Reg.AUD_MIX_W b (2 * i + b2n hi)
    Reaches s m a → Answers (.mixEntryWrite m b i hi w) s (fun t =>
      if b.val < audBuses s.img ∧ (if hi = true then bitsOf 31 24 w.toNat = 0
          else bitsOf 14 13 w.toNat = 0 ∧ bitsOf 31 16 w.toNat = 0 ∧ bitsOf 12 0 w.toNat ≤ 7167) then
        rget t a = w ∧ RegsReported [a] s t
      else rget t a = rget s a ∧ RefusedFor s t 2 ∧ RegsReported [] s t)) ∧
  (∀ (m : Fin 9) (k : Fin 256) (on : Bool) (s : State), Reaches s m (Reg.AUD_TONE_CTRL k) → k.val < audTones s.img →
    Answers (.toneModeWrite m k on) s (fun t => toneOn t k = on ∧ cget 0 t.aud.phase k = 0 ∧
      (∀ j, j ≠ k.val → cget 0 t.aud.phase j = cget 0 s.aud.phase j) ∧ RegsWithin [Reg.AUD_TONE_CTRL k] s t)) ∧
  (∀ (m : Fin 8192) (s : State), inService s = true → m.val < audMeters s.img →
    Answers (.meterBlockEnd m) s (fun t =>
      let v := meter s m
      let h := rgetN s (Reg.AUD_MTR_HOLD m)
      if mtrBlock s m ≤ v.n then
        rgetN t (Reg.AUD_MTR_HOLD m) = (if v.clr then 0 else if h ≤ v.bp then v.bp else if 0 < v.timer then h
          else max v.bp (h * fget s (Reg.AUD_MTR_DECAY m) Fld.AUD_MTR_DECAY_DECAY / 65536)) % 2 ^ 32 ∧
        fget t (Reg.AUD_MTR_RMS m) Fld.AUD_MTR_RMS_RMS =
          isqrt (((v.sum :: v.sums).take 100).foldl (· + ·) 0 / (100 * mtrBlock s m)) % 2 ^ 24 ∧
        (meter t m).n = 0 ∧ (meter t m).clr = false ∧ RegsWithin [Reg.AUD_MTR_RMS m, Reg.AUD_MTR_HOLD m] s t
      else t = s)) ∧
  (∀ (m : Fin 9) (k : Fin 8192) (s : State), Reaches s m (Reg.AUD_MTR_DECAY k) → k.val < audMeters s.img →
    Answers (.meterClear m k) s (fun t => (meter t k).clr = true ∧
      rgetN t (Reg.AUD_MTR_HOLD k) = rgetN s (Reg.AUD_MTR_HOLD k) ∧ RegsWithin [Reg.AUD_MTR_DECAY k] s t))

/-- 09 R245-R247, R251: a push goes to the tail of the home deque while it and the quadrant have room, a task pushed once
more to its head, counted in flight already; an idle engine is granted the task the order of Table 9.5 finds; a
completed task frees its engine. -/
def Obligations.EngineTasks : Prop :=
  (∀ (q : Fin 4) (k : Task) (s : State), cget [] s.eng.waiting q = [k] → taskHome s.img k < 64 →
    let c := taskHome s.img k
    Answers (.taskPush q) s (fun t =>
      if (dequeOf s c).length < 256 ∧ (k.again = true ∨ inflight s q < 4096) then
        dequeOf t c = (if k.again then { k with held := false } :: dequeOf s c else dequeOf s c ++ [{ k with held := false }]) ∧
        cget [] t.eng.waiting q = [] ∧ inflight t q = (if k.again then inflight s q else inflight s q + 1) ∧ RegsWithin [Reg.ENG_CLU_STAT c, Reg.ENG_QUAD_INFLIGHT q] s t
      else t.eng.deques = s.eng.deques ∧ cget [] t.eng.waiting q = [{ k with held := true }] ∧
        rgetN t (Reg.ENG_QUAD_HELD q) =
          (if k.held then rgetN s (Reg.ENG_QUAD_HELD q) else min 0xFFFFFFFF (rgetN s (Reg.ENG_QUAD_HELD q) + 1)))) ∧
  (∀ (e : Fin 1024) (since0 since1 : Nat) (s : State), running s = true → engState s e = 0 →
    let found := findTask s (fun p => if p = 0 then since0 else since1) e
    (∀ order c k, found = some (order, c, k) → c < 64 → cget [] s.eng.waiting (taskQuad s.img k) = [] →
      fget s Reg.TEST_PERT_ENG Fld.TEST_PERT_ENG_QMASK = 0 →
      Answers (.engineTakeTask [e] since0 since1) s (fun t => engState t e = 1 ∧ runningOf t e = some k ∧
        dequeOf t c = (dequeOf s c).erase k ∧ (∀ j, j ≠ c → dequeOf t j = dequeOf s j) ∧ t.xp = s.xp ∧ t.comp = s.comp ∧
        (order = 2 → rgetN t (Reg.ENG_CLU_STEAL_IN (engineCluster e)) =
          min 0xFFFFFFFF (rgetN s (Reg.ENG_CLU_STEAL_IN (engineCluster e)) + 1)) ∧
        (3 ≤ order → rgetN t (Reg.ENG_CLU_STEAL_XQ (engineCluster e)) =
          min 0xFFFFFFFF (rgetN s (Reg.ENG_CLU_STEAL_XQ (engineCluster e)) + 1)))) ∧
    (found = none → Answers (.engineTakeTask [e] since0 since1) s (fun t => t.regs = s.regs ∧
      t.eng.deques = s.eng.deques ∧ t.eng.running = s.eng.running))) ∧
  (∀ (e : Fin 1024) (cycles : Nat) (errs : Fin 3) (word : Nat) (k : Task) (s : State), runningOf s e = some k → engState s e = 1 →
    taskHome s.img k < 64 → k.obj < 256 →
    (k.head = true → ∀ i ∈ (headSt s k.obj).layers, i.l < 1024) → (∀ x ∈ cget [] s.eng.waiting (taskQuad s.img k), taskHome s.img x < 64) →
    Answers (.taskComplete e cycles errs word) s (fun t =>
      runningOf t e = none ∧ engState t e = 0 ∧
      rgetN t (Reg.ENG_E_TASKS e) = min 0xFFFFFFFF (rgetN s (Reg.ENG_E_TASKS e) + 1) ∧
      cget 0 t.eng.cycles (taskQuad s.img k) = cget 0 s.eng.cycles (taskQuad s.img k) + cycles))

/-- 09 R243-R245, R249, R250: a slot's input frame brings its settings into force; a band whose input lines are held
issues its first kernel's task, once; at its deadline a finished band is presented and another is counted late, and
from then on it issues nothing. -/
def Obligations.ProcessSlots : Prop :=
  ∀ (n : Fin 256) (s : State), slotUsed s.img n = true → running s = true → slotHome s.img n < 64 →
    Answers (.slotInputFrameStart n) s (fun t =>
      (∃ f, (slotSt t n).cur = some f ∧ f.fc = planeFc s (destPlane s.img (1536 + n)) ∧
        f.ctrl = rgetN s (Reg.ENG_SLOT_CTRL n) ∧ f.issued = [] ∧ f.done = []) ∧
      (slotSt t n).old = (slotSt s n).cur.map (fun c => { c with lines := cget [] s.xp.destLines (1536 + n) }) ∧
      (slotSt t n).lateNow = false ∧
      fbit t (Reg.ENG_SLOT_STAT n) Fld.ENG_SLOT_STAT_LATE_LAST = (slotSt s n).lateNow) ∧
    (∀ (b : Nat) (old : Bool) (f : SlotFrame), frameSel old (slotSt s n) = some f → b < bandCount s.img n →
      Answers (.slotBandIssue n b old) s (fun t =>
        if b ∈ f.issued ∨ (old || bandHeld s n b f) = false then t = s
        else ∃ f', frameSel old (slotSt t n) = some f' ∧ f'.issued = f.issued ++ [b] ∧
          (slotTask s.img n b 0 f = none → f'.done = f.done ++ [b]) ∧
          (slotTask s.img n b 0 f ≠ none → f'.done = f.done))) ∧
    (∀ (b : Nat) (f : SlotFrame), (slotSt s n).old = some f → b < bandCount s.img n →
      Answers (.slotBandDeadline n b) s (fun t => (∃ f', (slotSt t n).old = some f' ∧ b ∈ f'.issued) ∧
        if b ∈ f.done then rgetN t (Reg.ENG_SLOT_LATE n) = rgetN s (Reg.ENG_SLOT_LATE n) ∧
          ∀ L ∈ bandLines s.img n b, cget [] (cget [] t.xp.made (1664 + n)) L =
            (if f.row = 1 ∨ f.row = 4 then blackWords (srcFmt s.img (1664 + n)) (slotSamp s.img n f) else slotLine s.img n f L)
        else rgetN t (Reg.ENG_SLOT_LATE n) = min 0xFFFFFFFF (rgetN s (Reg.ENG_SLOT_LATE n) + 1) ∧
          (slotSt t n).lateNow = true ∧
          ((slotSt s n).hadOut = true → t.xp.made = s.xp.made) ∧
          ((slotSt s n).hadOut = false → ∀ L ∈ bandLines s.img n b,
            cget [] (cget [] t.xp.made (1664 + n)) L =
              blackWords (srcFmt s.img (1664 + n)) (slotSamp s.img n f))))

/-- 09 R251-R253: memory errors of engines and clusters, the hang of an engine, quarantine by the host and its release in
FACTORY alone; the load of a quadrant each second. -/
def Obligations.EngineFaults : Prop :=
  ∀ s : State, (∀ x ∈ s.eng.running, taskHome s.img x.2 < 64) →
    (∀ q, ∀ x ∈ cget [] s.eng.waiting q, taskHome s.img x < 64) →
    (∀ (c : Fin 64) (gr : Fin 64) (e : Fin 1024) (errs : Fin 3),
      ((secded 3 e errs s).1 = 1 → Answers (.engineMemoryError false c gr e errs) s (fun t =>
        rgetN t (Reg.ENG_E_CORR e) = min 0xFFFFFFFF (rgetN s (Reg.ENG_E_CORR e) + 1) ∧ t.eng = s.eng ∧ engState t e = engState s e)) ∧
      (2 ≤ (secded 3 e errs s).1 → Answers (.engineMemoryError false c gr e errs) s (fun t => runningOf t e = none ∧
        fget t (Reg.ENG_E_STAT e) Fld.ENG_E_STAT_UNCORR = min 2 (fget s (Reg.ENG_E_STAT e) Fld.ENG_E_STAT_UNCORR + 1) ∧
        (1 ≤ fget s (Reg.ENG_E_STAT e) Fld.ENG_E_STAT_UNCORR → engState t e = 2))) ∧
      (clusterQuad c ≠ clusterQuad (engineCluster e) → Answers (.engineMemoryError true c gr e errs) s (fun t => t = s)) ∧
      (clusterQuad c = clusterQuad (engineCluster e) → (secded 4 c errs s).1 = 1 → Answers (.engineMemoryError true c gr e errs) s (fun t =>
        rgetN t (Reg.ENG_CLU_MEM_CORR c) = min 0xFFFFFFFF (rgetN s (Reg.ENG_CLU_MEM_CORR c) + 1) ∧ t.eng = s.eng)) ∧
      (clusterQuad c = clusterQuad (engineCluster e) → 2 ≤ (secded 4 c errs s).1 → Answers (.engineMemoryError true c gr e errs) s (fun t =>
        if ownClass s.img (resId 5 (64 * c + gr)) = 8 then
          fbit t (Reg.ENG_CLU_STAT c) Fld.ENG_CLU_STAT_KLIB_BAD = true ∧ ∀ i ∈ clusterEngines c, engState t i = 2
        else runningOf t e = none))) ∧
    (∀ e : Fin 1024, Answers (.engineAbortTimeout e) s (fun t =>
      if e.val ∈ s.eng.aborting then engState t e = 2 ∧ runningOf t e = (if engState s e = 2 then runningOf s e else none)
      else t = s)) ∧
    (∀ m : Fin 9, Reaches s m Reg.ENG_QUAR_CMD →
      (∀ e : Fin 1024, Answers (.engQuarantineEngine m e) s (fun t => engState t e = 2 ∧
        (engState s e ≠ 2 → fget t (Reg.ENG_E_STAT e) Fld.ENG_E_STAT_CAUSE = 3 ∧ runningOf t e = none) ∧
        ∀ j, j < 1024 → j ≠ e.val → engState t j = engState s j)) ∧
      (∀ c : Fin 64, Answers (.engQuarantineCluster m c) s (fun t =>
        ∀ j, j < 1024 → engState t j = (if j / 16 = c then 2 else engState s j))) ∧
      (∀ (clu : Bool) (i : Fin 1024), Answers (.engQuarantineRelease m clu i) s (fun t =>
        if mode s = .factory then ∀ j, j < 1024 → engState t j =
          (if engState s j = 2 ∧ (if clu = true then i.val < 64 ∧ j / 16 = i else j = i.val) then 0 else engState s j)
        else t = grantTo (blockPort Reg.ENG_QUAR_CMD) m s))) ∧
    (∀ q : Fin 4, Answers (.quadLoadSecond q) s (fun t => cget 0 t.eng.cycles q = 0 ∧
      fget t (Reg.ENG_QUAD_LOAD q) Fld.ENG_QUAD_LOAD_MCYC = cget 0 s.eng.cycles q / 1000000 % 2 ^ 20 ∧
      RegsWithin [Reg.ENG_QUAD_LOAD q] s t))

/-- 10 R257-R261, R271: a descriptor is committed whole or refused; a head's cut-off brings committed descriptors and
tables into force; at its deadline the head's frame closes with its finished tiles, unless the descriptor of its store
is frozen, and the late ones are counted. -/
def Obligations.Composition : Prop :=
  (∀ (m : Fin 9) (l : Fin 1024) (s : State), Reaches s m (Reg.COMP_L_COMMIT l) → layerUsed s.img l = true →
    Answers (.layerDescriptorCommit m l) s (fun t =>
      if descBad s l (shadowWords s l) = true then layerSt t l = layerSt s l ∧
        RefusedFor s t 2 ∧ RegsReported [] s t
      else (layerSt t l).committed = shadowWords s l ∧ (layerSt t l).force = (layerSt s l).force ∧
        fbit t (Reg.COMP_L_STAT l) Fld.COMP_L_STAT_PEND = true ∧ RegsWithin [Reg.COMP_L_STAT l] s t)) ∧
  (∀ (h : Fin 64) (s : State), headUsed s.img h = true → running s = true → headHome s.img h < 64 →
    (∀ x ∈ cget [] s.eng.waiting (clusterQuad (headHome s.img h)), taskHome s.img x < 64) →
    Answers (.compCutoff h) s (fun t =>
      let k := planeFc s (headPlane s.img h)
      (headSt t h).k = some k ∧ (headSt t h).ctrl = rgetN s (Reg.COMP_H_CTRL h) ∧
      rget64 t (Reg.COMP_H_CUT_FC_LO h) (Reg.COMP_H_CUT_FC_HI h) = k ∧
      (∀ l ∈ headLayers s.img h, fbit t (Reg.COMP_L_STAT l) Fld.COMP_L_STAT_PEND = false ∧
        (layerSt t l).force = (if fbit s (Reg.COMP_L_STAT l) Fld.COMP_L_STAT_PEND then (layerSt s l).committed
          else (layerSt s l).force)) ∧
      (∀ i, i < 9 * 16384 → mapGet lutDefault t.comp.lut (lutKey h 0 0 + i) =
        mapGet lutDefault s.comp.lutCom (lutKey h 0 0 + i)) ∧
      ∀ i, i < 8 * 1024 → mapGet coefDefault t.comp.coef (8 * h * 1024 + i) =
        mapGet coefDefault s.comp.coefCom (8 * h * 1024 + i))) ∧
  (∀ (h : Fin 64) (s : State), headUsed s.img h = true → running s = true → headHome s.img h < 64 →
    (∀ k, (headSt s h).k = some k → s.test.inj = none → Answers (.compDeadline h) s (fun t =>
      let late := ((List.range (tileCount s.img h)).filter (fun i => (cget [] (headSt s h).tiles i).isEmpty)).length
      (if (getQ s (0xFF7C0 + h)).frozen then (headSt t h).closed = (headSt s h).closed
        else ∃ ts, (headSt t h).closed = some (k, ts) ∧
          ∀ i, cget [] (headSt s h).tiles i ≠ [] → cget [] ts i = cget [] (headSt s h).tiles i) ∧
      fget t (Reg.COMP_H_STAT h) Fld.COMP_H_STAT_LATE_TILES = min 4095 late ∧
      rgetN t (Reg.COMP_H_TILE_LATE h) = min 0xFFFFFFFF (rgetN s (Reg.COMP_H_TILE_LATE h) + late))) ∧
    ((headSt s h).k = none → Answers (.compDeadline h) s (fun t => t = s)))

/-- 09 R235, R243; 10 R259, R267; 11 R294: the data ports of the three tables write and read the shadow at the index,
which then advances; a commit copies the shadow of the set, table or bank it names. -/
def Obligations.TablePorts : Prop :=
  (∀ (m : Fin 9) (s : State), Reaches s m Reg.ENG_TLUT_DATA →
    (∀ w : Word, Answers (.tlutDataWrite m w) s (fun t =>
      fget t Reg.ENG_TLUT_CTRL Fld.ENG_TLUT_CTRL_INDEX = (fget s Reg.ENG_TLUT_CTRL Fld.ENG_TLUT_CTRL_INDEX + 1) % 2 ^ 14 ∧
      RegsWithin [Reg.ENG_TLUT_CTRL] s t ∧ t.eng.tlut = s.eng.tlut ∧
      ∀ k, mapGet tlutDefault t.eng.tlutSh k = (if k = tlutKey s ∧ tlutNamed (k % 16384) = true then w.toNat % 65536
        else mapGet tlutDefault s.eng.tlutSh k))) ∧
    Answers (.tlutDataRead m) s (fun t => t.eng = s.eng ∧
      (tlutNamed (tlutKey s % 16384) = true →
        t.out = s.out ++ [.readData m Reg.ENG_TLUT_DATA (w32 (mapGet tlutDefault s.eng.tlutSh (tlutKey s)))]) ∧
      fget t Reg.ENG_TLUT_CTRL Fld.ENG_TLUT_CTRL_INDEX = (fget s Reg.ENG_TLUT_CTRL Fld.ENG_TLUT_CTRL_INDEX + 1) % 2 ^ 14)) ∧
  (∀ (m : Fin 9) (set : Fin 8) (index : BitVec 14) (s : State), Reaches s m Reg.ENG_TLUT_CTRL →
    Answers (.tlutCommit m set index) s (fun t => t.eng.tlutSh = s.eng.tlutSh ∧ RegsWithin [Reg.ENG_TLUT_CTRL] s t ∧
      ∀ k, mapGet tlutDefault t.eng.tlut k =
        mapGet tlutDefault (if k / 16384 = set then s.eng.tlutSh else s.eng.tlut) k)) ∧
  (∀ (m : Fin 9) (s : State), Reaches s m Reg.COMP_LUT_DATA →
    let i := fget s Reg.COMP_LUT_CTRL Fld.COMP_LUT_CTRL_INDEX
    (∀ w : Word, Answers (.compLutDataWrite m w) s (fun t =>
      fget t Reg.COMP_LUT_CTRL Fld.COMP_LUT_CTRL_INDEX = (i + 1) % 2 ^ 14 ∧ RegsWithin [Reg.COMP_LUT_CTRL] s t ∧
      t.comp.lutCom = s.comp.lutCom ∧
      ∀ k, mapGet lutDefault t.comp.lutSh k = (if k = lutCur s ∧ lutNamed s = true then
        w.toNat % (if lutTable s = 8 then 4096 else 65536) else mapGet lutDefault s.comp.lutSh k))) ∧
    Answers (.compLutDataRead m) s (fun t => t.comp = s.comp ∧
      (lutNamed s = true → t.out = s.out ++ [.readData m Reg.COMP_LUT_DATA (w32 (mapGet lutDefault s.comp.lutSh (lutCur s)))]) ∧
      fget t Reg.COMP_LUT_CTRL Fld.COMP_LUT_CTRL_INDEX = (i + 1) % 2 ^ 14)) ∧
  (∀ (m : Fin 9) (head : Fin 64) (table : Fin 16) (index : BitVec 14) (s : State), Reaches s m Reg.COMP_LUT_CTRL →
    Answers (.compLutCommit m head table index) s (fun t => t.comp.lutSh = s.comp.lutSh ∧
      RegsWithin [Reg.COMP_LUT_CTRL] s t ∧
      ∀ k, mapGet lutDefault t.comp.lutCom k = mapGet lutDefault
        (if table.val < 9 ∧ lutKey head table 0 ≤ k ∧ k < lutKey head table 0 + 16384 then s.comp.lutSh else s.comp.lutCom) k)) ∧
  (∀ (m : Fin 9) (s : State), Reaches s m Reg.COMP_SCL_DATA →
    (∀ w : Word, Answers (.scalerCoefDataWrite m w) s (fun t =>
      coefIdx t = (coefIdx s + 1) % 2 ^ 10 ∧ RegsWithin [Reg.COMP_SCL_CTRL] s t ∧ t.comp.coefCom = s.comp.coefCom ∧
      ∀ k, mapGet coefDefault t.comp.coefSh k = (if k = coefKey s + coefIdx s ∧ coefIdx s < 896 ∧ coefBank s ≤ 64
        then w.toNat % 2048 else mapGet coefDefault s.comp.coefSh k))) ∧
    Answers (.scalerCoefDataRead m) s (fun t => t.comp = s.comp ∧ coefIdx t = (coefIdx s + 1) % 2 ^ 10 ∧
      (coefIdx s < 896 → coefBank s ≤ 64 → t.out = s.out ++
        [.readData m Reg.COMP_SCL_DATA (w32 (mapGet coefDefault s.comp.coefSh (coefKey s + coefIdx s)))]))) ∧
  (∀ (m : Fin 9) (bank : BitVec 7) (set : Fin 8) (index : BitVec 10) (s : State), Reaches s m Reg.COMP_SCL_CTRL →
    Answers (.scalerCoefCommit m bank set index) s (fun t => t.comp.coefSh = s.comp.coefSh ∧
      let k0 := (8 * bank.toNat + set) * 1024
      if bank.toNat < 64 ∧ headUsed s.img bank.toNat = false then t.comp = s.comp ∧
        RefusedFor s t 2 ∧ RegsReported [] s t
      else RegsWithin [Reg.COMP_SCL_CTRL] s t ∧ ∀ k, mapGet coefDefault t.comp.coefCom k = mapGet coefDefault
        (if bank.toNat ≤ 64 ∧ k0 ≤ k ∧ k < k0 + 1024 then s.comp.coefSh else s.comp.coefCom) k))

/-- 14 R350-R354, R357: activity of the entries follows clocks and pulses, and an active qualified candidate that falls
idle is rejected; the measurement window gives frequencies, none while XO_HOLD has failed, measures the timekeepers,
and qualifies or rejects; XO_HOLD fails and its entries with it. -/
def Obligations.ReferenceInputs : Prop :=
  ∀ s : State, running s = true →
    let follows (t : State) : Prop := ∀ p, p < 2 → planeUsed s.img p = true → ∀ e, e < 16 → entUsed s.img p e = true →
      entActive t p e = activeNow t p e ∧
      (entActive s p e = true → entActive t p e = false → entQual t p e = false) ∧
      (entActive t p e = entActive s p e → entQual t p e = entQual s p e)
    (hasSec s.img Sec.ref = true → ∀ x : Fin 4, inFreq s.img x ≠ 0 →
      (x.val ∉ s.ref.clk → Answers (.refclkEdgeReturn x) s (fun t => t.ref.clk = x.val :: s.ref.clk ∧ follows t)) ∧
      Answers (.refActivityExpire x false 0) s (fun t => x.val ∉ t.ref.clk ∧ follows t) ∧
      (∀ p : Fin 2, Answers (.refActivityExpire x true p) s (fun t =>
        x.val ∉ (refPl t p).fp ∧ x.val ∉ (refPl t p).seen ∧ t.ref.clk = s.ref.clk ∧ follows t)) ∧
      (bitOf 0 (inFlags s.img x) = true → ∀ (since : Nat) (ph0 ph1 : Int),
        Answers (.refFramePulse x since ph0 ph1) s (fun t => follows t ∧ ∀ p, p < 2 → planeUsed s.img p = true →
          x.val ∈ (refPl t p).seen ∧
          (x.val ∈ (refPl s p).seen → (x.val ∈ (refPl t p).fp ↔ onGrid s.img p since = true))))) ∧
    (fget s Reg.TEST_PERT_MON Fld.TEST_PERT_MON_J = 0 → s.ref.win0.start = s.ref.win1.start →
      ∀ (xo f0 f1 : Int) (y0 y1 : List Int), Answers (.refMeasureWindowEnd xo f0 f1 y0 y1) s (fun t =>
      let e := s.ref.win0.start + 800000000
      let u := advanceTicks (e - nowTicks s) s
      t.ref.win0 = ⟨e, u.time.tkA, u.time.tkB⟩ ∧ t.ref.win1 = t.ref.win0 ∧ nowTicks t = max (nowTicks s) e ∧
      t.ref.xoFail = (decide (50000 < xo.natAbs) || (s.ref.xoFail && decide (s.ref.xoGood = 0))) ∧
      ∀ p, p < 2 → planeUsed s.img p = true →
        rgetN t (Reg.PLANE_FREQ p) = (if t.ref.xoFail = true then rgetN s (Reg.PLANE_FREQ p)
          else ofInt 32 (if p = 0 then f0 else f1)) ∧
        ∀ e, e < 16 → entUsed s.img p e = true → entKind s.img p e ≠ 8 →
          let y := ((entOffsets u p xo (if p = 0 then y0 else y1))[e]?).getD 0
          let cnt := fget s (Reg.PLANE_ENT_STAT p e) Fld.PLANE_ENT_STAT_QUAL_CNT
          let n := if t.ref.xoFail = false ∧ e ∈ (refPl s p).whole ∧ entActive s p e = true ∧
              y.natAbs ≤ refAcceptPpb s.img p * 1000 then min 1023 (cnt + 1) else 0
          rgetN t (Reg.PLANE_ENT_FREQ p e) = (if t.ref.xoFail = true then rgetN s (Reg.PLANE_ENT_FREQ p e) else ofInt 32 y) ∧
          entQual t p e = ((entQual s p e || decide (refAcceptS s.img p ≤ n)) &&
            !(!t.ref.xoFail && decide (refRejectPpb s.img p * 1000 < y.natAbs))))) ∧
    (s.ref.xoFail = false → Answers .xoHoldActivityExpire s (fun t => t.ref.xoFail = true ∧
      fbit t Reg.PLANE_GSTAT Fld.PLANE_GSTAT_XO_FAIL = true ∧ fbit t Reg.PLANE_GSTAT Fld.PLANE_GSTAT_ALM = true ∧
      ∀ p e, p < 2 → e < 16 → planeUsed s.img p = true → entKind s.img p e = 8 → entQual t p e = false))

/-- 14 R355, R356, R360-R366, Table 14.6: a write of the lockout lets the selector decide at once; the DPLL's states
follow its lock timer, its residual, its holdover and its jump. -/
def Obligations.PlaneSelector : Prop :=
  (∀ (m : Fin 9) (p : Fin 2) (bits : BitVec 16) (s : State), Reaches s m (Reg.PLANE_LOCKOUT p) → running s = true →
    planeUsed s.img p = true → Answers (.planeLockoutWrite m p bits) s (fun t =>
      rgetN t (Reg.PLANE_LOCKOUT p) % 2 ^ 16 = bits.toNat ∧
      let u := rsetN s (Reg.PLANE_LOCKOUT p) (rgetN t (Reg.PLANE_LOCKOUT p))
      let st := planeState s p
      match bestRef u p with
      | none => planeState t p = (if st = 2 ∨ st = 3 ∨ st = 4 then 5
          else if holdPast u p = true ∧ (List.range 16).any (fun e => entKind s.img p e == 8 && !lockedOut u p e) = true then 1 else st) ∧
          (st = 2 ∨ st = 3 ∨ st = 4 → fbit t (Reg.PLANE_EVENT p) Fld.PLANE_EVENT_HOLDOVER = true)
      | some b =>
        let lost := selectable u p (planeCur s p) = false
        let better := refRevertive s.img p = true ∧ entRank s.img p b < entRank s.img p (planeCur s p)
        (st = 1 → planeState t p = 2 ∧ planeCur t p = b) ∧
        (st = 5 ∨ (st = 2 ∧ lost) ∨ (st = 3 ∧ (lost ∨ better)) →
          planeState t p = 4 ∧ planeCur t p = b ∧ fbit t (Reg.PLANE_EVENT p) Fld.PLANE_EVENT_SWITCH = true ∧
          rgetN t (Reg.PLANE_SWITCHES p) = min 0xFFFFFFFF (rgetN s (Reg.PLANE_SWITCHES p) + 1)) ∧
        ((st = 2 ∧ ¬ lost ∧ better) ∨ (st = 4 ∧ (lost ∨ better)) →
          planeState t p = st ∧ planeCur t p = b ∧ fbit t (Reg.PLANE_EVENT p) Fld.PLANE_EVENT_ABANDON = true ∧
          rgetN t (Reg.PLANE_ABANDONS p) = min 0xFFFFFFFF (rgetN s (Reg.PLANE_ABANDONS p) + 1)) ∧
        ((st = 2 ∨ st = 3 ∨ st = 4) → ¬ lost → ¬ better → planeState t p = st ∧ planeCur t p = planeCur s p ∧
          RegsWithin [Reg.PLANE_LOCKOUT p] s t))) ∧
  (∀ (m : Fin 9) (p : Fin 2) (bw : Fin 8) (s : State), Reaches s m (Reg.PLANE_CTRL p) → planeUsed s.img p = true →
    Answers (.planeBwWrite m p bw) s (fun t => fget t (Reg.PLANE_CTRL p) Fld.PLANE_CTRL_BW = bw ∧ t.ref = s.ref ∧
      RegsWithin [Reg.PLANE_CTRL p] s t)) ∧
  (∀ (p : Fin 2) (s : State), running s = true → planeUsed s.img p = true →
    (planeState s p = 2 → (refPl s p).jump = false → residNow s p = 0 → bestRef s p = some (planeCur s p) →
      Answers (.planeLockTimer p) s (fun t => planeState t p = 3 ∧ planeCur t p = planeCur s p ∧
        rgetN t (Reg.PLANE_RESID p) = 0)) ∧
    (planeState s p = 4 → bestRef s p = some (planeCur s p) → Answers (.switchResidualZero p) s (fun t =>
      planeState t p = 3 ∧ planeCur t p = planeCur s p ∧ rgetN t (Reg.PLANE_RESID p) = 0)) ∧
    (planeState s p = 2 → (refPl s p).jump = false → Answers (.switchResidualZero p) s (fun t =>
      planeState t p = 2 ∧ (refPl t p).resid = 0 ∧ rgetN t (Reg.PLANE_RESID p) = 0)) ∧
    (planeState s p = 5 → refHoldMax s.img p ≠ 0 → Answers (.holdoverLimitExpire p) s (fun t =>
      planeState t p = (if (List.range 16).any (fun e => entKind s.img p e == 8 && !lockedOut s p e) = true then 1 else 5))) ∧
    (planeState s p = 2 → (refPl s p).jump = true → s.pair.copyIn = none → Answers (.planeJump p) s (fun t =>
      planeFc t p = (planeFc s p + 1) % 2 ^ 48 ∧ (refPl t p).jump = false ∧ rgetN t (Reg.PLANE_RESID p) = 0 ∧
      fbit t (Reg.PLANE_EVENT p) Fld.PLANE_EVENT_JUMP = true ∧
      (p = 0 → t.aud.parity = some (jumpParity (rateOf (planeFmt s.img 0)) (planeFc t 0))))))

/-- 16 R390, R392, R394, R396, R399, R411: role changes, the enable of the pair, beat and window pins, and the states of
the mirror link other than those a Health message brings. -/
def Obligations.PairRolesAndLink : Prop :=
  ∀ s : State,
    ((∀ v ∈ s.xp.salvos, ∀ u ∈ v.parts, ∀ k ∈ u.takes, k.dest < 4096) → ∀ high : Bool, Answers (.arbRoleChange high) s (fun t =>
      fbit t Reg.PAIR_STAT Fld.PAIR_STAT_ROLE_PIN = high ∧
      if (mode s = .standby ∧ high = true) ∨ (mode s = .active ∧ high = false) then
        mode t = (if high = true then .active else .standby) ∧
        rgetN t Reg.PAIR_ROLE_CHANGES = min 0xFFFFFFFF (rgetN s Reg.PAIR_ROLE_CHANGES + 1) ∧
        (pairInUse s = true → 3 ≤ linkState s → linkState t = 3)
      else mode t = mode s ∧ linkState t = linkState s ∧ RegsWithin [Reg.PAIR_STAT] s t)) ∧
    (∀ (m : Fin 9) (en : Bool), Reaches s m Reg.PAIR_CTRL → Answers (.pairEnableWrite m en) s (fun t =>
      pairInUse t = en ∧
      (pairInUse s = en → t.pair = s.pair) ∧
      (pairInUse s ≠ en → linkState t = if en = true ∧ inRole s = true then 1 else 0))) ∧
    (inRole s = true → fbit s Reg.PAIR_STAT Fld.PAIR_STAT_BEAT_HOLD = false →
      ∀ (quads : BitVec 4) (take plane0 plane1 probe : Bool), Answers (.arbBeatInterval quads take plane0 plane1 probe) s (fun t =>
        if quads = 15 ∧ take = true ∧ (plane0 = true ∨ planeUsed s.img 0 = false) ∧
            (plane1 = true ∨ planeUsed s.img 1 = false) ∧ probe = true then
          (t.core.arbBeat = .high ↔ s.core.arbBeat ≠ .high) ∧ RegsWithin [] s t ∧
          t.out = (emit s (.pin "ARB_BEAT" (b2n (decide (s.core.arbBeat ≠ .high))))).out
        else t.core.arbBeat = s.core.arbBeat ∧ fbit t Reg.PAIR_STAT Fld.PAIR_STAT_BEAT_HOLD = true ∧ healthCode t = 0)) ∧
    (inRole s = true → planeUsed s.img (fget s Reg.PAIR_CTRL Fld.PAIR_CTRL_WIN_PLANE) = true → ∀ up : Bool,
      Answers (.switchWinEdge up) s (fun t => t.core.switchWin = (if up = true then .high else .low) ∧
        t.out = (emit s (.pin "SWITCH_WIN" (b2n up))).out ∧ RegsWithin [] s t)) ∧
    (pairInUse s = true → inRole s = true →
      (linkState s = 1 → Answers .mirrorLanesLocked s (fun t => linkState t = 2 ∧ t.pair.lanes = 0xFF)) ∧
      (linkState s = 2 → Answers .mirrorAlignDone s (fun t => linkState t = 3)) ∧
      (∀ lane : Fin 8, 1 ≤ linkState s → Answers (.mirrorLaneLockLoss lane) s (fun t => linkState t = 1 ∧
        bitOf lane t.pair.lanes = false)) ∧
      (3 ≤ linkState s → Answers .mirrorSilenceTimeout s (fun t => linkState t = 1 ∧ t.pair.unacked = [] ∧
        fbit t Reg.PAIR_STAT Fld.PAIR_STAT_DUAL = false ∧ fbit t Reg.PAIR_STAT Fld.PAIR_STAT_NO_ACTIVE = false ∧
        (∀ n ∈ [Src.pairImageMismatch, Src.pairDualActive, Src.pairNoActive], n ∉ t.pat.conds) ∧
        rgetN t Reg.PAIR_LINK_DOWN = (if linkState s = 5 then min 0xFFFFFFFF (rgetN s Reg.PAIR_LINK_DOWN + 1)
          else rgetN s Reg.PAIR_LINK_DOWN))) ∧
      (3 ≤ linkState s → mode s = .standby → Answers .pairNoActiveTimeout s (fun t =>
        fbit t Reg.PAIR_STAT Fld.PAIR_STAT_NO_ACTIVE = true ∧ Src.pairNoActive ∈ t.pat.conds)))

/-- 16 R398, R399: a Health message leaves with mode, role pin, health and link state and waits for its acknowledgement,
and is resent; one that arrives moves the link by the roles and link states of both devices, and on a standby by its
image's digest and ARB_INDEX against this device's own. 16 R401-R405, R407, R409, R410: what a standby does with
markers, the copy, the journal, Done and signature messages; acknowledgements; a mirrored write at its sample; the
margin scan. -/
def Obligations.PairHealthAndExchange : Prop :=
  (∀ s : State, linkUp s = true →
    Answers .mirrorHealthSend s (fun t => ∃ words, t.out = (emit s (.mirror mkHealth words)).out ∧
      words.take 4 = [modeCode (mode s), fget s Reg.PAIR_STAT Fld.PAIR_STAT_ROLE_PIN, healthCode s, linkState s] ∧
      t.pair.unacked = s.pair.unacked ++ [⟨s.pair.txSeq, mkHealth, words⟩] ∧ t.pair.txSeq = (s.pair.txSeq + 1) % 2 ^ 32) ∧
    (∀ (n : Nat) (u : MirrorTx), s.pair.unacked.find? (fun x => x.seq == n) = some u →
      Answers (.mirrorAckTimeout n) s (fun t => t.out = (emit s (.mirror u.kind u.words)).out ∧ t.pair = s.pair ∧
        rgetN t Reg.PAIR_MIRROR_RETRY = min 0xFFFFFFFF (rgetN s Reg.PAIR_MIRROR_RETRY + 1) ∧
        RegsWithin [Reg.PAIR_MIRROR_RETRY] s t)) ∧
    ((checkFails 7 0 false s).1 = false → ∀ (ack : Nat) (peer link : Fin 8) (digest : List Word) (arb : Word),
      let same := digest == (List.range 12).map (fun i => rget s (Reg.IMG_ACT_DIGEST i)) && arb == rget s Reg.IMG_ACT_ARB
      Answers (.mirrorHealthMsg ack peer link digest arb) s (fun t =>
        fget t Reg.PAIR_STAT Fld.PAIR_STAT_PEER_ROLE = (if peer.val = 3 then 1 else if peer.val = 4 then 2 else 0) ∧
        fbit t Reg.PAIR_STAT Fld.PAIR_STAT_XIMG = !same ∧
        (∀ u ∈ t.pair.unacked, ack ≤ u.seq) ∧
        (mode s = .standby → linkState t =
          (if peer.val ≠ 4 then 3
           else if linkState s = 3 ∧ (same || fbit s Reg.PAIR_CTRL Fld.PAIR_CTRL_ALLOW_XIMG) = true ∧
              (∀ p ∈ planesUsed s.img, p ∈ s.pair.ofsHeld) then 4 else linkState s) ∧
          (Src.pairImageMismatch ∈ t.pat.conds ↔
            (same || fbit s Reg.PAIR_CTRL Fld.PAIR_CTRL_ALLOW_XIMG) = false ∧ linkState t = 3)) ∧
        (mode s = .active → fbit t Reg.PAIR_STAT Fld.PAIR_STAT_DUAL = decide (peer.val = 4) ∧
          (linkState s = 3 → linkState t = (if peer.val = 3 ∧ link.val = 4 then 4 else 3)) ∧
          (linkState s = 4 → linkState t = (if peer.val ≠ 3 ∨ link.val = 3 then 3 else if link.val = 5 then 5 else 4)) ∧
          (linkState s = 5 → linkState t = (if peer.val = 3 ∧ (link.val = 5 ∨ link.val = 1) then 5 else 3)))))) ∧
  (∀ s : State,
    (linkUp s = true → (checkFails 7 0 false s).1 = false → ∀ ack : Nat,
      (∀ (p : Fin 2) (fc : BitVec 48) (sc : BitVec 64) (d : Int) (rtt : Nat), mode s = .standby → planeUsed s.img p = true →
        Answers (.mirrorMarkerMsg ack p fc sc (some d) rtt) s (fun t =>
          fcOfs t p = (fc.toNat + 2 ^ 48 - (if 0 < d then planeFc s p + 1 else planeFc s p) % 2 ^ 48) % 2 ^ 48 ∧ p.val ∈ t.pair.ofsHeld ∧
          rgetN t (Reg.PAIR_SKEW p) = ofInt 32 (clampI (-(2 ^ 31)) (2 ^ 31 - 1) (d + (mirrorLat t : Nat))) ∧
          t.pair.rttN = s.pair.rttN + 1)) ∧
      (∀ c : StateCopy, mode s = .standby → linkState s = 4 → Answers (.mirrorCopyMsg ack c) s (fun t =>
        t.pair.copyIn = some c ∧ t.pair.copyP0 = false ∧ t.xp = s.xp)) ∧
      (∀ (head : List Nat) (parts : List (Nat × Nat)) (recs : List Nat), mode s = .standby → 4 ≤ linkState s →
        let h := fun i : Nat => (head[i]?).getD 0
        Answers (.mirrorJournalMsg ack 0 head parts recs) s (fun t => takePi t = (h 0 % 8192 + h 1) % 8192 ∧
          t.xp.journalTo = (h 0 % 8192 + h 1) % 8192 ∧
          (recs.length ≤ 16384 → ∀ i (hi : i < recs.length),
            rgetN t (Reg.XP_TAKE_RING ((4 * (h 0 % 8192) + i) % 16384)) = recs[i] % 2 ^ 32)) ∧
        Answers (.mirrorJournalMsg ack 1 head parts recs) s (fun t => audPi t = (h 0 % 4096 + h 1) % 4096 ∧
          t.aud.journalDue = s.aud.journalDue ++ [(h 0 % 4096, ownSample s (h 2) % 2 ^ 48)]) ∧
        Answers (.mirrorJournalMsg ack 2 head parts recs) s (fun t =>
          t.pair.mirWrites = s.pair.mirWrites ++ [⟨2, h 0, w32 (h 1), ownSample s (h 2)⟩])) ∧
      (∀ (p : Fin 2) (fc : BitVec 48) (first : Nat) (e : Nat × Nat × Nat), mode s = .standby →
        s.pair.execLog.find? (fun e => e.1 == first && e.2.1 == p.val) = some e →
        Answers (.mirrorDoneMsg ack p fc [first]) s (fun t => e ∉ t.pair.execLog ∧
          rgetN t Reg.PAIR_TAKE_LATE = (if fcAfter e.2.2 (ownFrame s p fc.toNat) = true
            then min 0xFFFFFFFF (rgetN s Reg.PAIR_TAKE_LATE + 1) else rgetN s Reg.PAIR_TAKE_LATE))) ∧
      (∀ first : Nat, Answers (.mirrorAckMsg ack first) s (fun t =>
        t.xp.salvos = s.xp.salvos.map (fun v => if v.first = first then { v with acked := true } else v))) ∧
      (∀ (p : Fin 2) (fc : BitVec 48) (x : Sig) (crc : BitVec 32), mode s = .standby → sigsOn s = true →
        s.pair.sigs = [x] → s.pair.peerSigs = [] → x.frame = ownFrame s p fc.toNat → x.output < 0x8000 →
        sigOf s p x.output = true → x.untimed = false → sigExcluded s x.output = false →
        Answers (.mirrorSignaturesMsg ack p fc [(x.output, crc.toNat, false)]) s (fun t =>
          t.pair.sigs = [] ∧ t.pair.peerSigs = [] ∧
          if x.crc = crc.toNat then cget 0 t.pair.sigRun x.output = 0 ∧ rgetN t Reg.PAIR_SIG_DIFF = rgetN s Reg.PAIR_SIG_DIFF
          else cget 0 t.pair.sigRun x.output = cget 0 s.pair.sigRun x.output + 1 ∧
            rgetN t Reg.PAIR_SIG_DIFF = min 0xFFFFFFFF (rgetN s Reg.PAIR_SIG_DIFF + 1) ∧
            fget t Reg.PAIR_SIG_LAST Fld.PAIR_SIG_LAST_OUT = sigDest s x.output % 0x1000))) ∧
    (linkUp s = true → ∀ (ack : Nat) (a b : BitVec 64) (lockA lockB : Bool),
      (mode s = .active → Answers (.mirrorTimeMarker ack a b lockA lockB) s (fun t =>
        ∃ words, t.out = (emit s (.mirror mkMarker words)).out ∧ RegsWithin [] s t)) ∧
      (mode s = .standby → (checkFails 7 0 false s).1 = false → Answers (.mirrorTimeMarker ack a b lockA lockB) s (fun t =>
        t.pair.rxSeq = (s.pair.rxSeq + 1) % 2 ^ 32 ∧ (s.test.jtagPins = false → .mirrorAck s.pair.rxSeq ∈ t.out) ∧
        (∀ u ∈ t.pair.unacked, ack ≤ u.seq) ∧ ∀ k, k < 2 → rgetN t (Reg.PAIR_TK_SKEW k) = ofInt 32 (clampI (-(2 ^ 31)) (2 ^ 31 - 1)
          (sext 64 (ofInt 64 ((tkNs s k : Int) - ((if k = 0 then a.toNat else b.toNat) + mirrorLat s : Nat)))))))) ∧
    (∀ (w : MirWrite) (rest : List MirWrite), s.pair.mirWrites = w :: rest → Answers .mirroredWritePresent s (fun t =>
      if audSc s < w.sample then t = s
      else t.pair.mirWrites = rest ∧ (mode s = .standby → w.sample < audSc s →
        rgetN t Reg.PAIR_TAKE_LATE = min 0xFFFFFFFF (rgetN s Reg.PAIR_TAKE_LATE + 1)))) ∧
    (mode s = .standby → pairInUse s = true → fbit s Reg.PAIR_CTRL Fld.PAIR_CTRL_MARGIN_EN = true →
      s.pair.marginPos < 576 → scanLane s s.pair.marginPos = true → ∀ h v : Nat, Answers (.marginScanDwell h v) s (fun t =>
        let a := Reg.PAIR_MARGIN s.pair.marginPos
        fget t a Fld.PAIR_MARGIN_H = min 255 h ∧ fget t a Fld.PAIR_MARGIN_V = min 255 v ∧
        fbit t a Fld.PAIR_MARGIN_VALID = true ∧ t.pair.marginPos = nextLane s s.pair.marginPos ∧ RegsReported [a] s t)))

/-- 02 R28, R30-R32, R46, R49, R52: power, RESET and its release, the SAFE request and soft reset. -/
def Obligations.ResetAndPower : Prop :=
  ∀ s : State,
    (∀ (addr : BitVec 3) (bad : List (Fin 4194304 × Fin 3)), Answers (.aonPowerOn addr bad) s (fun t => mode t = .reset ∧ t.core.resetN = false ∧
      t.core.supplyOk = 0 ∧ t.fab.mgmtAddr = addr.toNat ∧ t.long.protect = false ∧ t.long.flash = s.long.flash ∧
      t.long.settings = s.long.settings ∧ t.img = {} ∧ t.xp = {} ∧ t.aud = {})) ∧
    (∀ i : Fin 9, Answers (.supplyOutOfLimits i) s (fun t => mode t = .reset ∧ bitOf i t.core.supplyOk.toNat = false ∧
        t.long = (if mode s = .reset then s.long else (flashEffect s).long) ∧ (mode s = .reset → t.regs = s.regs)) ∧
      Answers (.supplyWithinLimits i) s (fun t => t.regs = s.regs ∧
        ∀ j, j < 9 → bitOf j t.core.supplyOk.toNat = (bitOf j s.core.supplyOk.toNat || decide (j = i.val)))) ∧
    Answers .resetNLow s (fun t => mode t = .reset ∧ t.core.resetN = false ∧
      (mode s ≠ .reset → t.img = {} ∧ t.xp = {} ∧ t.aud = {} ∧ t.pat.pendingRecs = [])) ∧
    (∀ (sel : Fin 4) (addr : BitVec 3), Answers (.resetRelease sel addr) s (fun t =>
      if mode s = .reset ∧ s.core.supplyOk = 0x1FF then
        mode t = .boot ∧ bootStep t = 1 ∧ t.core.resetN = true ∧ t.core.modeSel = sel ∧ t.fab.mgmtAddr = addr.toNat ∧
        fget t Reg.GLOBAL_MODE Fld.GLOBAL_MODE_BOOT_SRC = sel ∧ t.long.protect = false ∧
        rgetN t Reg.GLOBAL_RESET_CAUSE = 2 ^ firstCause s.core.causes.toNat ∧
        lifeGet t 1 = (lifeGet s 1 + 1) % 2 ^ 64
      else t = s)) ∧
    (∀ (m : Fin 9) (soft : Bool), Reaches s m Reg.GLOBAL_RESET_CTRL → Answers (.hostSafeRequest m soft) s (fun t =>
      if inService s = true ∨ inCast s = true then mode t = .safe ∧ t.xp = {} ∧ t.aud = {}
      else if mode s = .boot then
        (if fbit s Reg.GLOBAL_MODE Fld.GLOBAL_MODE_HEAT = true ∨
            fbit s Reg.GLOBAL_BOOT_STAT Fld.GLOBAL_BOOT_STAT_WAIT_HOST = true then mode t = .safe
         else t.core.safeReq = true ∧ t.regs = s.regs)
      else t = grantTo (blockPort Reg.GLOBAL_RESET_CTRL) m s)) ∧
    (∀ (m : Fin 9) (sel : Fin 4), Reaches s m Reg.GLOBAL_RESET_CTRL → Answers (.softReset m sel) s (fun t =>
      mode t = .boot ∧ bootStep t = 1 ∧ t.core.modeSel = sel ∧ rgetN t Reg.GLOBAL_RESET_CAUSE = 8 ∧
      t.img = {} ∧ t.xp = {} ∧ t.aud = {} ∧ t.q.staging = [] ∧ t.q.lost = s.q.lost + 1))

/-- 02 R33-R38, R41, R46: the steps of a cold boot: the clocks and the heat phase, the two halves of steps 5 and 6, a
failed attempt and what comes after it, the host's own image, the checks, the armature and the mode that step 10
enters; a SAFE request acts at the end of the step under way. 01 R12, R18; 02 R47; 21 R510, R521: temperature and its
trip, the synthesisers' locks, the die bridge, the pin filters. -/
def Obligations.BootStepsAndSensors : Prop :=
  (∀ s : State, inColdBoot s = true →
    let code (n : Nat) : Nat := if s.core.load = .plinth then 9 else n
    let failed (n : Nat) (t : State) : Prop :=
      fget t Reg.GLOBAL_BOOT_STAT Fld.GLOBAL_BOOT_STAT_FAIL_CODE = code n ∧
      if s.core.safeReq = true ∨ (s.core.loadQueue = [] ∧ ¬ ((s.core.load = .slotA ∨ s.core.load = .slotB) ∧ s.core.second = false))
      then mode t = .safe
      else mode t = .boot ∧ bootStep t = 5 ∧ fget t Reg.GLOBAL_BOOT_STAT Fld.GLOBAL_BOOT_STAT_ATTEMPTS =
        min 255 (fget s Reg.GLOBAL_BOOT_STAT Fld.GLOBAL_BOOT_STAT_ATTEMPTS + 1)
    (bootStep s = 1 → ctlStuck s = false → Answers .bootClocksLocked s (fun t =>
      fbit t Reg.GLOBAL_CLK_LOCK Fld.GLOBAL_CLK_LOCK_CTL = true ∧ fbit t Reg.GLOBAL_CLK_LOCK Fld.GLOBAL_CLK_LOCK_ENG = true ∧
      bootStep t = 2 ∧ RegsWithin [Reg.GLOBAL_CLK_LOCK, Reg.GLOBAL_BOOT_STAT] s t)) ∧
    (bootStep s = 1 → fbit s Reg.GLOBAL_CLK_LOCK Fld.GLOBAL_CLK_LOCK_CTL = false → Answers .ctlLockTimeout s (fun t =>
      ctlStuck t = true ∧ RegsWithin [Reg.GLOBAL_BOOT_STAT] s t)) ∧
    (heating s = true → Answers .heatTjRead s (fun t =>
        if -160 ≤ sext 16 (fget s Reg.GLOBAL_TJ Fld.GLOBAL_TJ_TJ_MIN) then heating t = false ∧ bootStep t = 5 else t = s) ∧
      Answers .heatSlowTimeout s (fun t => fbit t Reg.GLOBAL_BOOT_STAT Fld.GLOBAL_BOOT_STAT_HEAT_SLOW = true ∧ heating t = true)) ∧
    (loading s = true → s.core.hbmDone = false →
      (∀ serdes : Bool, Answers (.hbmTrainDone false serdes) s (failed 6)) ∧
      Answers (.hbmTrainDone true false) s (failed 7) ∧
      (s.core.safeReq = false → Answers (.hbmTrainDone true true) s (fun t =>
        t.core.hbmDone = true ∧ fget t Reg.QM_HBM_STAT Fld.QM_HBM_STAT_UP = 15 ∧
        bootStep t = (if s.core.streamDone then 7 else bootStep s) ∧
        (s.core.load = .host → bootStep s = 5 → fbit t Reg.GLOBAL_BOOT_STAT Fld.GLOBAL_BOOT_STAT_WAIT_HOST = true)))) ∧
    (loading s = true → s.core.load ≠ .host → s.core.streamDone = false →
      Answers (.imageStreamDone false) s (failed 2) ∧
      (let units := if s.core.load = .plinth then 4096 else 12288
       let raw := rawOf (flashRun s (slotBase s.core.load)) units
       (headerBad raw units = true → Answers (.imageStreamDone true) s (failed 2)) ∧
       (headerBad raw units = false → s.core.safeReq = false → Answers (.imageStreamDone true) s (fun t =>
         t.core.streamDone = true ∧ mode t = .boot ∧ bootStep t = (if s.core.hbmDone then 7 else 6) ∧
         RegsWithin [Reg.GLOBAL_BOOT_STAT] s t)))) ∧
    (∀ (m : Fin 9) (len : BitVec 14), Reaches s m Reg.GLOBAL_HOST_BOOT →
      fbit s Reg.GLOBAL_BOOT_STAT Fld.GLOBAL_BOOT_STAT_WAIT_HOST = true →
      Answers (.hostBootGo m len) s (fun t =>
        if len.toNat = 0 ∨ 12288 < len.toNat then t = grantTo (blockPort Reg.GLOBAL_HOST_BOOT) m s
        else bootStep t = 7 ∧ fbit t Reg.GLOBAL_BOOT_STAT Fld.GLOBAL_BOOT_STAT_WAIT_HOST = false ∧
          t.core.hostLen = len.toNat ∧ t.core.hashed = rawOf (stagingRun s) len.toNat ∧
          RegsWithin [Reg.GLOBAL_BOOT_STAT] s t)) ∧
    (s.pending = [] → ∃ t, step s = .next t ∧
      let v := attemptVerdict (advanceTicks 1 s)
      if bootStep s = 2 then (if s.core.safeReq then mode t = .safe else mode t = .boot ∧ bootStep t = 3)
      else if bootStep s = 3 then (if heating s then heating t = true
        else if s.core.safeReq then mode t = .safe
        else if sext 16 (fget s Reg.GLOBAL_TJ Fld.GLOBAL_TJ_TJ_MIN) < -160 then bootStep t = 3 ∧ heating t = true
        else bootStep t = 5 ∧ t.core.load = (if s.core.modeSel = 0 then slotSrc (bootPtr s)
          else if s.core.modeSel = 3 then .plinth else .host))
      else if bootStep s = 7 then (if v.1 ≠ 0 ∧ v.1 ≠ 8 then failed v.1 t
        else if s.core.safeReq then mode t = .safe else mode t = .boot ∧ bootStep t = 8)
      else if bootStep s = 8 then (if v.1 ≠ 0 then failed v.1 t
        else if s.core.load = .plinth ∨ s.core.safeReq then mode t = .safe
        else mode t = .boot ∧ bootStep t = 9 ∧ t.img = v.2.2 ∧
          fget t Reg.GLOBAL_MODE Fld.GLOBAL_MODE_SLOT = loadCode s.core.load)
      else if bootStep s = 9 then (if s.core.safeReq then mode t = .safe
        else mode t = (if attemptPurpose s = 1 then .factory else if bitOf 9 s.core.filtered.toNat then .active else .standby))
      else Within [.time, .core] s t ∧
        t.core = { s.core with sinceReset := if mode s = .reset then s.core.sinceReset else s.core.sinceReset + 1 })) ∧
  (∀ s : State,
    (mode s ≠ .reset → ∀ tmin tmax : Int, Answers (.tjSensorReading tmin tmax) s (fun t =>
      rgetN t Reg.GLOBAL_TJ = ofInt 16 tmin * 65536 + ofInt 16 tmax ∧
      (tmax < 1040 → t.core = s.core ∧ RegsWithin [Reg.GLOBAL_TJ] s t) ∧
      (1040 ≤ tmax → s.core.thermTrip ≠ .low → t.core.thermTrip = .low ∧ lifeGet t 6 = (lifeGet s 6 + 1) % 2 ^ 64 ∧
        (ctlStuck s = false → mode t = .safe)))) ∧
    (mode s ≠ .reset → ∀ i : Fin 9, bitOf i (rgetN s Reg.GLOBAL_CLK_LOCK) = true → Answers (.synthLossOfLock i) s (fun t =>
      (∀ j, j < 9 → bitOf j (rgetN t Reg.GLOBAL_CLK_LOCK) = (bitOf j (rgetN s Reg.GLOBAL_CLK_LOCK) && decide (j ≠ i.val))) ∧
      (faultSev s Src.clkUnlock ≠ 0 → faultStatus t Src.clkUnlock = true) ∧ RegsReported [Reg.GLOBAL_CLK_LOCK] s t)) ∧
    (mode s ≠ .reset → ∀ i : Fin 7, Answers (.synthesiserLock i) s (fun t =>
      (∀ j, j < 9 → bitOf j (rgetN t Reg.GLOBAL_CLK_LOCK) = (bitOf j (rgetN s Reg.GLOBAL_CLK_LOCK) || decide (j = i.val + 2))) ∧
      RegsReported [Reg.GLOBAL_CLK_LOCK] s t)) ∧
    (∀ (d : Fin 2) (bad : Bool), bitOf d (rgetN s Reg.GLOBAL_BRIDGE_STAT) = true → Answers (.bridgeTransfer d bad) s (fun t =>
      if (checkFails 6 d bad s).1 = true then bridgeRun d t = bridgeRun d s + 1 ∧
        rgetN t Reg.GLOBAL_BRIDGE_RETRY = min 0xFFFFFFFF (rgetN s Reg.GLOBAL_BRIDGE_RETRY + 1) ∧
        (bridgeRun d s = 16 → fbit t Reg.GLOBAL_BRIDGE_STAT Fld.GLOBAL_BRIDGE_STAT_FAILED = true)
      else bridgeRun d t = 0 ∧ rgetN t Reg.GLOBAL_BRIDGE_RETRY = rgetN s Reg.GLOBAL_BRIDGE_RETRY)) ∧
    (mode s ≠ .reset → ∀ d : Fin 2, Answers (.bridgeDirectionTrained d) s (fun t =>
      bitOf d (rgetN t Reg.GLOBAL_BRIDGE_STAT) = true ∧ bridgeRun d t = 0 ∧ RegsReported [Reg.GLOBAL_BRIDGE_STAT] s t)) ∧
    (∀ (i : Fin 15) (level : Bool), Answers (.glitchFilterExpire i level) s (fun t => t.regs = s.regs ∧
      ∀ j, j < 15 → bitOf j t.core.filtered.toNat = (if j = i.val ∧ (mode s ≠ .reset ∨ j = 10) then level
        else bitOf j s.core.filtered.toNat))))

/-- 18 R443-R445: a flash operation starts where the region allows it and has its effect on the flash alone; a verify
judges the slot and marks it. -/
def Obligations.FlashAndVerify : Prop :=
  ∀ s : State,
    (∀ m : Fin 9, Reaches s m Reg.IMG_FL_CTRL →
      let x := fget s Reg.IMG_FL_ADDR Fld.IMG_FL_ADDR_ADDR
      let busy := fbit s Reg.IMG_FL_STAT Fld.IMG_FL_STAT_BUSY
      let begun (op : Nat) (t : State) : Prop := t.long = s.long ∧
        if busy = true then fbit t Reg.IMG_FL_STAT Fld.IMG_FL_STAT_IGNORED = true ∧ t.upd = s.upd ∧ RegsWithin [Reg.IMG_FL_STAT] s t
        else if op ≠ 3 ∧ flashWritable s x = false then t.upd = s.upd ∧ RegsReported [] s t ∧
          RefusedFor s t 1
        else t.upd.flashOp = some (op, x) ∧ fbit t Reg.IMG_FL_STAT Fld.IMG_FL_STAT_BUSY = true ∧ RegsWithin [Reg.IMG_FL_STAT] s t
      Answers (.flashErase m) s (begun 1) ∧ Answers (.flashProgram m) s (begun 2) ∧ Answers (.flashRead m) s (begun 3)) ∧
    (∀ (op x : Nat), s.upd.flashOp = some (op, x) →
      (op = 1 → Answers (.flashOpDone true) s (fun t => t.upd.flashOp = none ∧
        fbit t Reg.IMG_FL_STAT Fld.IMG_FL_STAT_DONE = true ∧ fbit t Reg.IMG_FL_STAT Fld.IMG_FL_STAT_BUSY = false ∧
        ∀ y, flashByte t y = if y / 65536 = x / 65536 then 0xFF else flashByte s y)) ∧
      (op = 2 → Answers (.flashOpDone true) s (fun t => t.upd.flashOp = none ∧
        fbit t Reg.IMG_FL_STAT Fld.IMG_FL_STAT_DONE = true ∧ fbit t Reg.IMG_FL_STAT Fld.IMG_FL_STAT_BUSY = false ∧
        ∀ y, flashByte t y = if y / 256 = x / 256 then
          (rgetN s (Reg.IMG_FL_BUF (y % 256 / 4)) / 256 ^ (y % 4) % 256) &&& flashByte s y else flashByte s y)) ∧
      (op = 3 → flashRegion x ≠ 3 → ∀ ok : Bool, Answers (.flashOpDone ok) s (fun t => t.long = s.long ∧
        fbit t Reg.IMG_FL_STAT Fld.IMG_FL_STAT_DONE = true ∧ ∀ i, i < 64 →
        rgetN t (Reg.IMG_FL_BUF i) = flashWord s (x / 256 * 256 + 4 * i))) ∧
      (op = 1 ∨ op = 2 → Answers (.flashOpDone false) s (fun t => fbit t Reg.IMG_FL_STAT Fld.IMG_FL_STAT_ERR = true ∧
        (flashRegion x = 1 ∨ flashRegion x = 2 → slotVerified t (flashRegion x) = false) ∧
        ∀ y, y / 65536 ≠ x / 65536 → flashByte t y = flashByte s y))) ∧
    (∀ (m : Fin 9) (b : Bool), Reaches s m Reg.IMG_UPD_CTRL → Answers (.maqVerify m b) s (fun t =>
      RegsWithin [Reg.IMG_UPD_STAT] s t ∧
      if updBusy s = true then t.upd = s.upd ∧ fget t Reg.IMG_UPD_STAT Fld.IMG_UPD_STAT_RESULT = 9
      else t.upd.verifying = some (b2n b) ∧ fget t Reg.IMG_UPD_STAT Fld.IMG_UPD_STAT_RESULT = 0)) ∧
    (∀ (b : Nat) (ok : Bool), s.upd.verifying = some b → b < 2 → Answers (.maqVerifyDone ok) s (fun t =>
      let c := slotCheck s (b + 1) ok
      t.upd.verifying = none ∧ fget t Reg.IMG_UPD_STAT Fld.IMG_UPD_STAT_FAIL_CODE = c.1 ∧
      slotVerified t (b + 1) = (slotVerified s (b + 1) || decide (c.1 = 0)) ∧
      (c.1 = 0 → rgetN t Reg.IMG_MAQ_ARB = imgIndex c.2 % 2 ^ 32)))

/-- 18 R446-R448, R453-R456: the CAST and CONFIRM commands with their result codes, the preload, the pause, the black and
the resumption of each plane, and the end of the confirm window. -/
def Obligations.CastAndConfirm : Prop :=
  ∀ s : State,
    (∀ (m : Fin 9) (b force nocarry : Bool), Reaches s m Reg.IMG_UPD_CTRL → Answers (.cast m b force nocarry) s (fun t =>
      let c := castCode s (1 + b2n b) force
      fget t Reg.IMG_UPD_STAT Fld.IMG_UPD_STAT_RESULT = c ∧ RegsWithin [Reg.IMG_UPD_STAT] s t ∧
      (c = 0 → t.upd.cast = some (1 + b2n b, nocarry, false)) ∧ (c ≠ 0 → t.upd = s.upd))) ∧
    (∀ (ok : Bool) (slot : Nat) (nc back : Bool), s.upd.cast = some (slot, nc, back) → inRole s = true →
      s.upd.preloaded = false → Answers (.castPreloadDone ok) s (fun t =>
        let c := slotCheck s slot ok
        fget t Reg.IMG_UPD_STAT Fld.IMG_UPD_STAT_FAIL_CODE = c.1 ∧ mode t = mode s ∧
        if c.1 = 0 then t.upd.preloaded = true ∧ t.upd.cast = s.upd.cast
        else t.upd.cast = none ∧ (back = false → fget t Reg.IMG_UPD_STAT Fld.IMG_UPD_STAT_RESULT = 5))) ∧
    (∀ m : Fin 9, Reaches s m Reg.IMG_UPD_CTRL → Answers (.confirm m) s (fun t =>
      fget t Reg.IMG_UPD_STAT Fld.IMG_UPD_STAT_RESULT = confirmCode s ∧
      if confirmCode s = 0 then t.upd.windowOpen = false ∧ (lastMarker t).map (·.kind) = some 3 ∧
        (s.long.protect = false → s.long.mramBad = [] → bootPtr t = slotInUse s)
      else t.upd = s.upd ∧ t.long = s.long)) ∧
    (s.upd.windowOpen = true → Answers .confirmWindowExpire s (fun t => t.upd.windowOpen = false ∧
      t.upd.cast = (if inRole s = true then some (s.upd.previous, false, true) else s.upd.cast) ∧
      (inRole s = true → lifeGet t 3 = (lifeGet s 3 + 1) % 2 ^ 64 ∧ (lastMarker t).map (·.kind) = some 4 ∧
        (faultSev s Src.fallback ≠ 0 → faultStatus t Src.fallback = true)))) ∧
    (∀ (slot : Nat) (nc back : Bool), s.upd.cast = some (slot, nc, back) →
      (inRole s = true → s.upd.preloaded = true → Answers .castPauseStart s (fun t =>
        inCast t = true ∧ rgetN t Reg.GLOBAL_RESET_CAUSE = (if back = true then 32 else 16) ∧ linkState t = 0 ∧
        t.upd.carried.isSome = !nc ∧ t.upd.cast = s.upd.cast ∧ t.img = s.img ∧ t.upd.applied = false ∧
        t.upd.rej = armReject s.core.hashed (readImage s.core.hashed) ∧ t.upd.pauseStart = nowTicks s)) ∧
      (inCast s = true → Memory.wf s → ∀ us : BitVec 18, Answers (.castResume us) s (fun t =>
        let rejected := s.upd.rej.isSome
        mode t = (if bitOf 9 s.core.filtered.toNat then .active else .standby) ∧
        t.upd.cast = none ∧ t.upd.preloaded = false ∧ t.upd.windowOpen = (!back && !rejected) ∧
        t.upd.windowAt = nowTicks t ∧
        t.img = (if s.upd.applied = true ∨ rejected = true then s.img else readImage s.core.hashed) ∧
        slotInUse t = (if s.upd.applied = true ∨ rejected = true then slotInUse s else slot % 4) ∧
        s.upd.pauseStart + 800 * (if rejected = true then 150000 else 75000) ≤ nowTicks t ∧
        fbit t Reg.GLOBAL_MODE Fld.GLOBAL_MODE_CASTFORM = false)) ∧
      (inCast s = true → planeUsed s.img 1 = true →
        (planeBlack s 1 = false → s.upd.applied = false → Answers (.planeSwitchPoint 1) s (fun t =>
          planeBlack t 1 = true ∧ t.upd.applied = false ∧ t.img = s.img)) ∧
        (planeBlack s 1 = true → nowTicks s < s.upd.pauseStart + castTicks s → Answers (.planeSwitchPoint 1) s (fun t =>
          planeBlack t 1 = true ∧ t.upd.applied = s.upd.applied ∧ t.img = s.img)) ∧
        (planeBlack s 1 = true → s.upd.pauseStart + castTicks s ≤ nowTicks s → Answers (.planeSwitchPoint 1) s (fun t =>
          planeBlack t 1 = false ∧ t.upd.applied = true ∧ t.upd.cast = s.upd.cast ∧
          t.img = (if s.upd.applied = true ∨ s.upd.rej.isSome = true then s.img else readImage s.core.hashed)))))

/-- 18 R459, R460; 03 R78: settings operations start, are refused or wait, and end with their result; the data port and
the read-back port advance. -/
def Obligations.SettingsAndReadBack : Prop :=
  ∀ s : State,
    (∀ (m : Fin 9) (key : BitVec 16), Reaches s m Reg.IMG_SET_CTRL →
      let busy := fbit s Reg.IMG_SET_STAT Fld.IMG_SET_STAT_BUSY
      let len := fget s Reg.IMG_SET_LEN Fld.IMG_SET_LEN_LEN
      let begun (op : Nat) (t : State) : Prop := t.long = s.long ∧
        if busy = true then t = grantTo (blockPort Reg.IMG_SET_CTRL) m s
        else t.upd.setPtr = 0 ∧
          if mode s = .boot then t.upd.setWaiting = some (op, key.toNat) ∧ fbit t Reg.IMG_SET_STAT Fld.IMG_SET_STAT_BUSY = true
          else if mode s = .safe ∧ op ≠ 2 then t.upd.setOp = s.upd.setOp ∧ fget t Reg.IMG_SET_STAT Fld.IMG_SET_STAT_RESULT = 3
          else if op = 1 ∧ 4064 < len then t.upd.setOp = s.upd.setOp ∧ fget t Reg.IMG_SET_STAT Fld.IMG_SET_STAT_RESULT = 4
          else if op ≠ 2 ∧ key = 0xFFFF then t.upd.setOp = s.upd.setOp
          else t.upd.setOp = some (op, key.toNat) ∧ fbit t Reg.IMG_SET_STAT Fld.IMG_SET_STAT_BUSY = true
      Answers (.settingsWrite m key) s (begun 1) ∧ Answers (.settingsRead m key) s (begun 2) ∧
      Answers (.settingsDelete m key) s (begun 3)) ∧
    (∀ m : Fin 9, Reaches s m Reg.IMG_SET_DATA →
      (∀ w : Word, Answers (.settingsDataAccess m (some w)) s (fun t => t.regs = s.regs ∧ t.upd.setPtr = s.upd.setPtr + 1 ∧
        ∀ i, cget 0 t.upd.setBuf i = if i = s.upd.setPtr ∧ i < 1016 then w.toNat else cget 0 s.upd.setBuf i)) ∧
      Answers (.settingsDataAccess m none) s (fun t => t.regs = s.regs ∧ t.upd.setPtr = s.upd.setPtr + 1 ∧
        t.out = s.out ++ [.readData m Reg.IMG_SET_DATA
          (w32 (if s.upd.setPtr < 1016 then cget 0 s.upd.setBuf s.upd.setPtr else 0))])) ∧
    (∀ (op key : Nat), s.upd.setOp = some (op, key) → Answers .settingsOpDone s (fun t => t.upd.setOp = none ∧
      fbit t Reg.IMG_SET_STAT Fld.IMG_SET_STAT_BUSY = false ∧
      (op = 2 → t.long = s.long ∧ match setNewest s.long.settings key (rgetN s Reg.IMG_SET_FMT) with
        | some r => (r.kind = 0 → fget t Reg.IMG_SET_STAT Fld.IMG_SET_STAT_RESULT = 0 ∧
            fget t Reg.IMG_SET_LEN Fld.IMG_SET_LEN_LEN = r.data.length % 2 ^ 12) ∧
            (r.kind ≠ 0 → fget t Reg.IMG_SET_STAT Fld.IMG_SET_STAT_RESULT = 1)
        | none => fget t Reg.IMG_SET_STAT Fld.IMG_SET_STAT_RESULT = 1) ∧
      (op = 1 → let r : SetRec :=
          { kind := 0, key, fmt := fmtNow s, seq := s.long.setSeq, data := setBytes s (fget s Reg.IMG_SET_LEN Fld.IMG_SET_LEN_LEN) }
        if setFits s.long.settings r = true then t.long.settings = s.long.settings ++ [{ r with crc := setCrc r }] ∧
          t.long.setSeq = (s.long.setSeq + 1) % 2 ^ 32 ∧ fget t Reg.IMG_SET_STAT Fld.IMG_SET_STAT_RESULT = 0
        else if setFits (setLive s) r = true then t.long.settings = setLive s ++ [{ r with crc := setCrc r }] ∧
          t.long.setBank = 1 - s.long.setBank ∧ fget t Reg.IMG_SET_STAT Fld.IMG_SET_STAT_RESULT = 0
        else t.long = s.long ∧ fget t Reg.IMG_SET_STAT Fld.IMG_SET_STAT_RESULT = 2))) ∧
    (∀ m : Fin 9, Reaches s m Reg.IMG_RB_DATA → Answers (.imgRbDataRead m) s (fun t => t.regs = s.regs ∧
      let a := cget 0 s.fab.perMaster (2 * m)
      cget 0 t.fab.perMaster (2 * m) = a / 2 ^ 24 % 256 * 2 ^ 24 + (a % 2 ^ 21 / 4 * 4 + 4) % 2 ^ 21 ∧
      (∀ k, k ≠ 2 * m.val → cget 0 t.fab.perMaster k = cget 0 s.fab.perMaster k) ∧
      (fbit s Reg.IMG_ACT_INFO Fld.IMG_ACT_INFO_VALID = false → t.out = s.out ++ [.readData m Reg.IMG_RB_DATA 0])))

/-- 00 R6; 08 Table 8.11; 19 R472, R473, R476, R487: an aligned access reaches its block's register, a malformed one is
counted and has no effect; reading clears a counter and latches the high word of a pair; a request is issued, or held
and counted, a request held is made later, and one that is answered is outstanding no more; the management target's
register commands are made by M8. 16 R407: a host write of a mirrored register in a pair: ignored and counted on a
standby, stamped six samples ahead and journalled on an active device with the link SYNCED, presented at once where
the link is not. -/
def Obligations.HostRegisterAccesses : Prop :=
  (∀ s : State,
    (∀ (m : Fin 9) (a : BitVec 26) (data : BitVec 64), Reaches s m a.toNat → a.toNat % 4 = 0 →
      Answers (.registerWrite m a 4 data) s (fun t =>
        t = regWrite m a.toNat (data.extractLsb' 0 32) (grantTo (blockPort a.toNat) m s))) ∧
    (∀ (m : Fin 9) (a : BitVec 26) (len : Fin 257) (data : BitVec 64), linkGate s m (blockPort a.toNat) = none →
      holdCause s s.fab.held m true (blockPort a.toNat) = none →
      ¬ (len.val = 4 ∧ a.toNat % 4 = 0) → ¬ (len.val = 8 ∧ a.toNat % 8 = 0) →
      Answers (.registerWrite m a len data) s (fun t => RegsWithin [Reg.FABRIC_BADSIZE] s t ∧
        rgetN t Reg.FABRIC_BADSIZE = min 0xFFFFFFFF (rgetN s Reg.FABRIC_BADSIZE + 1))) ∧
    (∀ m : Fin 9, Reaches s m Reg.XP_TAKE_REFUSE_COUNT → s.fab.latches = [] →
      Answers (.readClearCounter m (BitVec.ofNat 26 Reg.XP_TAKE_REFUSE_COUNT) 4) s (fun t =>
        t.out = s.out ++ [.readData m Reg.XP_TAKE_REFUSE_COUNT (rget s Reg.XP_TAKE_REFUSE_COUNT)] ∧
        rgetN t Reg.XP_TAKE_REFUSE_COUNT = 0 ∧ RegsWithin [Reg.XP_TAKE_REFUSE_COUNT] s t)) ∧
    (∀ (m : Fin 9) (w : Word), Reaches s m Reg.XP_TAKE_STAT →
      Answers (.w1cStatusClear m (BitVec.ofNat 26 Reg.XP_TAKE_STAT) none w) s (fun t => RegsWithin [Reg.XP_TAKE_STAT] s t ∧
        fbit t Reg.XP_TAKE_STAT Fld.XP_TAKE_STAT_REFUSED =
          (fbit s Reg.XP_TAKE_STAT Fld.XP_TAKE_STAT_REFUSED && !bitOf 1 w.toNat) ∧
        fbit t Reg.XP_TAKE_STAT Fld.XP_TAKE_STAT_OVERRUN =
          (fbit s Reg.XP_TAKE_STAT Fld.XP_TAKE_STAT_OVERRUN && !bitOf 0 w.toNat) ∧
        fget t Reg.XP_TAKE_STAT Fld.XP_TAKE_STAT_REF_CODE = fget s Reg.XP_TAKE_STAT Fld.XP_TAKE_STAT_REF_CODE)) ∧
    (∀ (m : Fin 9) (a : BitVec 26) (q : BitVec 20) (w : Word), inService s = true →
      bar2Gate s true (128 * q.toNat + 0x30) true = .pass →
      qNamed s q.toNat = true → s.test.inj = none → Answers (.w1cStatusClear m a (some q) w) s (fun t =>
        RegsReported [Reg.QM_DCACHE_MISS] s t ∧
        getQ t q.toNat = { getQ s q.toNat with
          poison := (getQ s q.toNat).poison && !bitOf 5 w.toNat, overrun := (getQ s q.toNat).overrun && !bitOf 4 w.toNat })) ∧
    (∀ m : Fin 9, Reaches s m Reg.AUD_SC_LO → s.fab.latches = [] →
      Answers (.read64Low m (BitVec.ofNat 26 Reg.AUD_SC_LO) false) s (fun t =>
        t.out = s.out ++ [.readData m Reg.AUD_SC_LO (w32 (audSc s % 2 ^ 32))] ∧ RegsWithin [] s t ∧
        readValue t m Reg.AUD_SC_HI = audSc s / 2 ^ 32)) ∧
    (∀ r : HeldReq, s.fab.held = [r] → s.fab.i2cPending = none → r.port = 0 → r.write = true → r.bad = false →
      let u := grantTo (targetOf r) r.master ({ s with fab := { s.fab with held := [] } })
      Reaches u r.master r.addr →
      Answers (.fabricRequestAdmit [] []) s (fun t => t = regWrite r.master r.addr r.data u)) ∧
    (∀ (m : Fin 9) (w : Bool) (port : Fin 30) (a : BitVec 26) (d : Word), port ≠ 0 → s.fab.held = [] → s.fab.i2cPending = none →
      Answers (.fabricRequestAdmit [] [(m, w, port, a, d)]) s (fun t =>
        match holdCause s [] m w port with
        | none => t.fab.issued = s.fab.issued ++ [⟨m, w, port⟩] ∧ t.fab.held = []
        | some h => t.fab.issued = s.fab.issued ∧ t.fab.held = [{ master := m, write := w, addr := 0, port := port }] ∧
          rgetN t Reg.FABRIC_HOLD_ORDER = (if h = .order then min 0xFFFFFFFF (rgetN s Reg.FABRIC_HOLD_ORDER + 1)
            else rgetN s Reg.FABRIC_HOLD_ORDER) ∧
          rgetN t Reg.FABRIC_HOLD_DEADLOCK = (if h = .deadlock then min 0xFFFFFFFF (rgetN s Reg.FABRIC_HOLD_DEADLOCK + 1)
            else rgetN s Reg.FABRIC_HOLD_DEADLOCK))) ∧
    (∀ (m : Fin 9) (w : Bool) (port : Fin 30), s.fab.held = [] → s.fab.issued.contains ⟨m, w, port⟩ = true →
      Answers (.fabricRequestAdmit [(m, w, port)] []) s (fun t => t.fab.issued = s.fab.issued.erase ⟨m, w, port⟩ ∧
        RegsWithin [Reg.FABRIC_OUTST m, Reg.FABRIC_MATRIX_OUTST, Reg.FABRIC_STAT] s t)) ∧
    (∀ params : List Byte, s.fab.i2cPending = none → m8Reach s = true → i2cParam params 0 % 4 = 0 →
      Reaches s 8 (i2cParam params 0) →
      (4 ≤ params.length → Answers (.i2cRegRead params) s (fun t => t.fab.i2cStatus = 0 ∧
        t.fab.i2cData = some (w32 (regRead 8 (i2cParam params 0)
          (grantTo (blockPort (i2cParam params 0)) 8 (i2cExtra 4 params s))).1))) ∧
      (8 ≤ params.length → Answers (.i2cRegWrite params) s (fun t => t.fab.i2cStatus = 0 ∧ t.fab.i2cData = none ∧
        t.regs = (regWrite 8 (i2cParam params 0) (w32 (i2cParam params 4))
          (grantTo (blockPort (i2cParam params 0)) 8 (i2cExtra 8 params s))).regs)))) ∧
  (∀ (m : Fin 9) (a : BitVec 26) (w : Word) (s : State), gate s m true a.toNat = .pass → a.toNat % 4 = 0 →
    mirroredReg a.toNat = true →
    (m ≠ 2 → pairInUse s = true → mode s = .standby → Answers (.mirroredWrite m a w) s (fun t =>
      rgetN t Reg.PAIR_HOST_IGN = min 0xFFFFFFFF (rgetN s Reg.PAIR_HOST_IGN + 1) ∧ RegsWithin [Reg.PAIR_HOST_IGN] s t ∧
      t.pair = s.pair)) ∧
    (m ≠ 2 → pairInUse s = true → mode s = .active → linkState s = 5 → Answers (.mirroredWrite m a w) s (fun t =>
      t.pair.mirWrites = s.pair.mirWrites ++ [⟨m, a.toNat, w, (audSc s + 6) % 2 ^ 64⟩] ∧ RegsWithin [] s t ∧
      ∃ words, t.out = (emit s (.mirror mkJournal words)).out)) ∧
    (m = 2 ∨ pairInUse s = false ∨ (mode s = .active ∧ linkState s ≠ 5) → Answers (.mirroredWrite m a w) s (fun t =>
      t = regWrite m a.toNat w (grantTo (blockPort a.toNat) m s))))
end

