-- ==== Sys2Proof/Laws/Frame.lean ====
section
/-! SUPPORT. How frames compose: the rules by which the lemmas of the Frames files are proved. -/

namespace Sys2Proof.Machine

theorem Area.same_refl (s : State) (p : Area) : p.same s s := by cases p <;> simp [Area.same]

theorem Area.same_trans {s t u : State} {p : Area} (h : p.same s t) (h' : p.same t u) : p.same s u := by
  cases p <;> simp_all [Area.same]

theorem Within.refl (w : List Area) (s : State) : Within w s s :=
  ⟨rfl, List.prefix_refl _, fun p => .inr (p.same_refl s)⟩

/-- Every part of one list is in another. -/
def Area.sub (v w : List Area) : Bool := v.all (fun p => w.elem p)

/-- A frame, then another whose parts are among the first's. -/
theorem Within.then {v w : List Area} {s t u : State} (h : Within w s t) (h' : Within v t u) (hs : Area.sub v w = true) :
    Within w s u := by
  obtain ⟨h1, h2, h3⟩ := h
  obtain ⟨k1, k2, k3⟩ := h'
  refine ⟨k1.trans h1, h2.trans k2, fun p => ?_⟩
  rcases h3 p with hp | hp
  · exact .inl hp
  · rcases k3 p with kp | kp
    · exact .inl (by simpa using List.all_eq_true.1 hs p kp)
    · exact .inr (Area.same_trans hp kp)

theorem Within.mono {v w : List Area} {s t : State} (h : Within v s t) (hs : Area.sub v w = true) : Within w s t :=
  (Within.refl w s).then h hs

theorem Within.ite {w : List Area} {s a b : State} {c : Prop} [Decidable c] (ha : Within w s a) (hb : Within w s b) :
    Within w s (if c then a else b) := by split <;> assumption

/-- A condition on a pair's state. -/
theorem Within.iteSnd {α : Type} {w : List Area} {s : State} {a b : α × State} {c : Prop} [Decidable c] (ha : Within w s a.2)
    (hb : Within w s b.2) : Within w s (if c then a else b).2 := by split <;> assumption
theorem Within.iteFst {α : Type} {w : List Area} {s : State} {a b : State × α} {c : Prop} [Decidable c] (ha : Within w s a.1)
    (hb : Within w s b.1) : Within w s (if c then a else b).1 := by split <;> assumption

theorem Within.foldl {α : Type} {w : List Area} {s u : State} {g : State → α → State} {l : List α} (h : Within w s u)
    (hg : ∀ t x, Within w s t → Within w s (g t x)) : Within w s (l.foldl g u) := by
  induction l generalizing u with
  | nil => exact h
  | cons x l ih => exact ih (hg u x h)

theorem Within.foldlSnd {α β : Type} {w : List Area} {s : State} {r : β × State} {g : β × State → α → β × State} {l : List α}
    (h : Within w s r.2) (hg : ∀ t x, Within w s t.2 → Within w s (g t x).2) : Within w s (l.foldl g r).2 := by
  induction l generalizing r with
  | nil => exact h
  | cons x l ih => exact ih (hg r x h)

theorem Within.foldlFst {α β : Type} {w : List Area} {s : State} {r : State × β} {g : State × β → α → State × β} {l : List α}
    (h : Within w s r.1) (hg : ∀ t x, Within w s t.1 → Within w s (g t x).1) : Within w s (l.foldl g r).1 := by
  induction l generalizing r with
  | nil => exact h
  | cons x l ih => exact ih (hg r x h)

/-- A state on the way. -/
theorem Within.cut {G : Prop} (w : List Area) (s t : State) (h : Within w s t → G) (h0 : Within w s t) : G := h h0

/-- A record update: each field is the old one or belongs to a part that may change. -/
theorem Within.upd {w : List Area} {s u : State} {pending : List Instr} {regs : List (Nat × Word)} {core : Core} {long : Long}
    {pat : Patina} {fab : Fabric} {test : Test} {img : Img} {upd : Update} {xp : XpSt} {vl : VlaneSt} {q : QueueSt}
    {eng : EngSt} {comp : CompSt} {flow : FlowSt} {aud : AudSt} {mac : List (Nat × MacPort)} {ref : RefSt} {time : TimeSt}
    {pair : PairSt} {out : List Output} {fresh : Nat}
    (h0 : pending = u.pending := by rfl)
    (h1 : regs = u.regs ∨ w.elem .regs = true := by first | exact .inr rfl | exact .inl rfl)
    (h2 : core = u.core ∨ w.elem .core = true := by first | exact .inr rfl | exact .inl rfl)
    (h3 : long.flash = u.long.flash ∨ w.elem .flash = true := by first | exact .inr rfl | exact .inl rfl)
    (h4 : (long.mram = u.long.mram ∧ long.mramBad = u.long.mramBad ∧ long.mramSoft = u.long.mramSoft ∧ long.mramDead = u.long.mramDead) ∨ w.elem .mram = true := by first | exact .inr rfl | exact .inl ⟨rfl, rfl, rfl, rfl⟩)
    (h5 : long.life = u.long.life ∨ w.elem .life = true := by first | exact .inr rfl | exact .inl rfl)
    (h6 : (long.settings = u.long.settings ∧ long.setSeq = u.long.setSeq) ∨ w.elem .settings = true := by first | exact .inr rfl | exact .inl ⟨rfl, rfl⟩)
    (h7 : long.protect = u.long.protect ∨ w.elem .protect = true := by first | exact .inr rfl | exact .inl rfl)
    (h8 : pat = u.pat ∨ w.elem .pat = true := by first | exact .inr rfl | exact .inl rfl)
    (h9 : fab = u.fab ∨ w.elem .fab = true := by first | exact .inr rfl | exact .inl rfl)
    (h10 : test = u.test ∨ w.elem .test = true := by first | exact .inr rfl | exact .inl rfl)
    (h11 : img = u.img ∨ w.elem .img = true := by first | exact .inr rfl | exact .inl rfl)
    (h12 : upd = u.upd ∨ w.elem .upd = true := by first | exact .inr rfl | exact .inl rfl)
    (h13 : xp = u.xp ∨ w.elem .xp = true := by first | exact .inr rfl | exact .inl rfl)
    (h14 : vl = u.vl ∨ w.elem .vl = true := by first | exact .inr rfl | exact .inl rfl)
    (h15 : q = u.q ∨ w.elem .q = true := by first | exact .inr rfl | exact .inl rfl)
    (h16 : eng = u.eng ∨ w.elem .eng = true := by first | exact .inr rfl | exact .inl rfl)
    (h17 : comp = u.comp ∨ w.elem .comp = true := by first | exact .inr rfl | exact .inl rfl)
    (h18 : flow = u.flow ∨ w.elem .flow = true := by first | exact .inr rfl | exact .inl rfl)
    (h19 : aud = u.aud ∨ w.elem .aud = true := by first | exact .inr rfl | exact .inl rfl)
    (h20 : mac = u.mac ∨ w.elem .mac = true := by first | exact .inr rfl | exact .inl rfl)
    (h21 : ref = u.ref ∨ w.elem .ref = true := by first | exact .inr rfl | exact .inl rfl)
    (h22 : time = u.time ∨ w.elem .time = true := by first | exact .inr rfl | exact .inl rfl)
    (h23 : pair = u.pair ∨ w.elem .pair = true := by first | exact .inr rfl | exact .inl rfl)
    (h24 : u.out <+: out := by first | exact List.prefix_refl _ | exact List.prefix_append _ _)
    (h25 : fresh = u.fresh ∨ w.elem .fresh = true := by first | exact .inr rfl | exact .inl rfl)
    (h : Within w s u) :
    Within w s (State.mk pending regs core long pat fab test img upd xp vl q eng comp flow aud mac ref time pair out fresh) := by
  obtain ⟨k1, k2, k3⟩ := h
  refine ⟨h0.trans k1, k2.trans h24, fun p => ?_⟩
  rcases k3 p with hp | hp
  · exact .inl hp
  · suffices Area.same u _ p ∨ p ∈ w from this.elim (fun h => .inr (Area.same_trans hp h)) .inl
    cases p <;> simp only [Area.same] <;> simp only [List.elem_eq_mem, decide_eq_true_eq] at * <;> assumption

end Sys2Proof.Machine
end

