-- ==== Sys2Proof/Laws/Maps.lean ====
section
/-! SUPPORT. Sparse maps and byte memories: a read after a write gives the value written, a write leaves every other key
alone, and every operation keeps the canonical form. -/

set_option Elab.async false

namespace Sys2Proof.Laws

open Sys2Proof.Machine

variable {α : Type}

theorem mapGet_append (d : Nat → α) (a b : List (Nat × α)) (k : Nat) :
    mapGet d (a ++ b) k = if k ∈ a.map (·.1) then mapGet d a k else mapGet d b k := by
  induction a with
  | nil => simp
  | cons e t ih =>
    obtain ⟨j, v⟩ := e
    by_cases h : j = k
    · simp [mapGet, h]
    · have h' : ¬ k = j := fun x => h x.symm
      simp only [List.cons_append, mapGet, h, if_false, ih, List.map_cons, List.mem_cons, h', false_or]

theorem mapGet_filter (d : Nat → α) (p : Nat → Bool) (m : List (Nat × α)) (k : Nat) :
    mapGet d (m.filter (fun e => p e.1)) k = if p k then mapGet d m k else d k := by
  induction m with
  | nil => simp [mapGet]
  | cons e t ih =>
    obtain ⟨j, v⟩ := e
    by_cases hp : p j <;> by_cases hj : j = k
    · subst hj; simp [List.filter, hp, mapGet]
    · simp [List.filter, hp, mapGet, hj, ih]
    · subst hj; simp [List.filter, hp, ih]
    · simp [List.filter, hp, mapGet, hj, ih]

theorem mem_keys_filter (p : Nat → Bool) (m : List (Nat × α)) (k : Nat) :
    k ∈ (m.filter (fun e => p e.1)).map (·.1) → p k = true := by
  simp only [List.mem_map, List.mem_filter]
  rintro ⟨e, ⟨_, h⟩, rfl⟩
  exact h

/-- A key that a filter keeps and that is absent after it reads its default. -/
theorem mapGet_absent (d : Nat → α) (m : List (Nat × α)) (k : Nat) (h : ¬ k ∈ m.map (·.1)) : mapGet d m k = d k := by
  induction m with
  | nil => rfl
  | cons e t ih =>
    obtain ⟨j, v⟩ := e
    simp only [List.map_cons, List.mem_cons, not_or] at h
    have : ¬ j = k := fun x => h.1 x.symm
    simp [mapGet, this, ih h.2]

/-- Read after write. -/
theorem mapGet_mapSet [DecidableEq α] (d : Nat → α) (m : List (Nat × α)) (k j : Nat) (v : α) :
    mapGet d (mapSet d m k v) j = if j = k then v else mapGet d m j := by
  unfold mapSet
  simp only []
  rw [mapGet_append]
  have hlow : j ∈ ((m.filter (fun p => decide (p.1 < k))).map (·.1)) → j < k := fun h =>
    of_decide_eq_true (mem_keys_filter (fun x => decide (x < k)) m j h)
  have hl : mapGet d (m.filter (fun p => decide (p.1 < k))) j = if j < k then mapGet d m j else d j := by
    simpa using mapGet_filter d (fun x => decide (x < k)) m j
  have ha : mapGet d (m.filter (fun p => decide (k < p.1))) j = if k < j then mapGet d m j else d j := by
    simpa using mapGet_filter d (fun x => decide (k < x)) m j
  by_cases hmem : j ∈ ((m.filter (fun p => decide (p.1 < k))).map (·.1))
  · have hj := hlow hmem
    have hne : ¬ j = k := by omega
    rw [if_pos hmem, hl, if_pos hj, if_neg hne]
  · rw [if_neg hmem]
    have habs := mapGet_absent d _ j hmem
    rcases Nat.lt_trichotomy j k with hj | hj | hj
    · rw [hl, if_pos hj] at habs
      have hne : ¬ j = k := by omega
      have hkj : ¬ k = j := by omega
      have hnk : ¬ k < j := by omega
      rw [if_neg hne, habs]
      split
      · rw [ha, if_neg hnk]
      · simp only [mapGet, hkj, if_false]; rw [ha, if_neg hnk]
    · subst hj
      rw [if_pos rfl]
      split
      · rename_i h; rw [ha]; simp [h]
      · simp [mapGet]
    · have hne : ¬ j = k := by omega
      have hkj : ¬ k = j := by omega
      rw [if_neg hne]
      split
      · rw [ha, if_pos hj]
      · simp only [mapGet, hkj, if_false]; rw [ha, if_pos hj]

/-! ### Canonical form -/

theorem mapWfFrom_mono [DecidableEq α] (d : Nat → α) (m : List (Nat × α)) {lo lo' : Nat} (hl : lo' ≤ lo)
    (h : mapWfFrom d lo m = true) : mapWfFrom d lo' m = true := by
  cases m with
  | nil => rfl
  | cons e t =>
    obtain ⟨k, v⟩ := e
    simp only [mapWfFrom, Bool.and_eq_true, decide_eq_true_eq] at h ⊢
    exact ⟨⟨Nat.le_trans hl h.1.1, h.1.2⟩, h.2⟩

/-- Dropping entries keeps the form. -/
theorem mapWfFrom_filter [DecidableEq α] (d : Nat → α) (p : Nat × α → Bool) (m : List (Nat × α)) (lo : Nat)
    (h : mapWfFrom d lo m = true) : mapWfFrom d lo (m.filter p) = true := by
  induction m generalizing lo with
  | nil => rfl
  | cons e t ih =>
    obtain ⟨k, v⟩ := e
    simp only [mapWfFrom, Bool.and_eq_true, decide_eq_true_eq] at h
    have ht := ih (k + 1) h.2
    by_cases hp : p (k, v)
    · simp only [List.filter, hp, mapWfFrom, Bool.and_eq_true, decide_eq_true_eq]
      exact ⟨h.1, ht⟩
    · simp only [List.filter, hp]
      exact mapWfFrom_mono d _ (by omega) ht

theorem mapWf_filter [DecidableEq α] (d : Nat → α) (p : Nat × α → Bool) (m : List (Nat × α))
    (h : mapWf d m = true) : mapWf d (m.filter p) = true := mapWfFrom_filter d p m 0 h

/-- Two parts of which the second lies above the first. -/
theorem mapWfFrom_append [DecidableEq α] (d : Nat → α) (a b : List (Nat × α)) (lo mid : Nat) (hlm : lo ≤ mid)
    (ha : mapWfFrom d lo a = true) (hlt : ∀ e ∈ a, e.1 < mid) (hb : mapWfFrom d mid b = true) :
    mapWfFrom d lo (a ++ b) = true := by
  induction a generalizing lo with
  | nil => exact mapWfFrom_mono d b hlm hb
  | cons e t ih =>
    obtain ⟨k, v⟩ := e
    simp only [mapWfFrom, Bool.and_eq_true, decide_eq_true_eq, List.cons_append] at ha ⊢
    have hk : k < mid := hlt (k, v) (by simp)
    exact ⟨ha.1, ih (k + 1) (by omega) ha.2 (fun e he => hlt e (by simp [he]))⟩

/-- Every entry of a canonical map lies at or above its bound. -/
theorem mapWfFrom_above [DecidableEq α] (d : Nat → α) (m : List (Nat × α)) (lo : Nat) (h : mapWfFrom d lo m = true) :
    ∀ e ∈ m, lo ≤ e.1 := by
  induction m generalizing lo with
  | nil => simp
  | cons e t ih =>
    obtain ⟨k, v⟩ := e
    simp only [mapWfFrom, Bool.and_eq_true, decide_eq_true_eq] at h
    intro e he
    rcases List.mem_cons.1 he with rfl | he
    · exact h.1.1
    · have := ih (k + 1) h.2 e he; omega

/-- What a filter on keys from a bound on leaves is canonical from that bound. -/
theorem mapWfFrom_filter_ge [DecidableEq α] (d : Nat → α) (p : Nat × α → Bool) (m : List (Nat × α)) (lo mid : Nat)
    (h : mapWfFrom d lo m = true) (hp : ∀ e ∈ m, p e = true → mid ≤ e.1) : mapWfFrom d mid (m.filter p) = true := by
  induction m generalizing lo with
  | nil => rfl
  | cons e t ih =>
    obtain ⟨k, v⟩ := e
    have hw := h
    simp only [mapWfFrom, Bool.and_eq_true, decide_eq_true_eq] at h
    by_cases hk : p (k, v)
    · have hkm := hp (k, v) (by simp) hk
      simp only [List.filter, hk, mapWfFrom, Bool.and_eq_true, decide_eq_true_eq]
      exact ⟨⟨hkm, h.1.2⟩, mapWfFrom_filter d p t (k + 1) h.2⟩
    · simp only [List.filter, hk]
      exact ih (k + 1) h.2 (fun e he => hp e (by simp [he]))

/-- A write keeps the canonical form. -/
theorem mapWf_mapSet [DecidableEq α] (d : Nat → α) (m : List (Nat × α)) (k : Nat) (v : α) (h : mapWf d m = true) :
    mapWf d (mapSet d m k v) = true := by
  unfold mapWf mapSet
  have habove : mapWfFrom d (k + 1) (m.filter (fun p => decide (k < p.1))) = true :=
    mapWfFrom_filter_ge d _ m 0 (k + 1) h (fun e _ he => by have := of_decide_eq_true he; omega)
  refine mapWfFrom_append d _ _ 0 k (by omega) (mapWfFrom_filter d _ m 0 h) ?_ ?_
  · intro e he
    simpa using (List.mem_filter.1 he).2
  · split
    · exact mapWfFrom_mono d _ (by omega) habove
    · rename_i hv
      simp only [mapWfFrom, Bool.and_eq_true, decide_eq_true_eq]
      exact ⟨⟨Nat.le_refl k, hv⟩, habove⟩

theorem mapWf_cset [DecidableEq α] (d : α) (m : List (Nat × α)) (k : Nat) (v : α)
    (h : mapWf (fun _ => d) m = true) : mapWf (fun _ => d) (cset d m k v) = true := mapWf_mapSet _ m k v h

theorem cget_cset [DecidableEq α] (d : α) (m : List (Nat × α)) (k j : Nat) (v : α) :
    cget d (cset d m k v) j = if j = k then v else cget d m j := mapGet_mapSet _ m k j v

/-! ### Byte memories -/

theorem runCells_keys (d : Nat → BitVec 8) (x : Nat) (bs : List Nat) :
    ∀ e ∈ runCells d x bs, x ≤ e.1 ∧ e.1 < x + bs.length := by
  induction bs generalizing x with
  | nil => simp [runCells]
  | cons b t ih =>
    intro e he
    unfold runCells at he
    split at he
    · have := ih (x + 1) e he; simp only [List.length_cons]; omega
    · rcases List.mem_cons.1 he with rfl | he
      · simp only [List.length_cons]; omega
      · have := ih (x + 1) e he; simp only [List.length_cons]; omega

theorem runCells_wf (d : Nat → BitVec 8) (x : Nat) (bs : List Nat) : mapWfFrom d x (runCells d x bs) = true := by
  induction bs generalizing x with
  | nil => rfl
  | cons b t ih =>
    unfold runCells
    split
    · exact mapWfFrom_mono d _ (by omega) (ih (x + 1))
    · rename_i h
      simp only [mapWfFrom, Bool.and_eq_true, decide_eq_true_eq]
      exact ⟨⟨Nat.le_refl x, h⟩, ih (x + 1)⟩

/-- Writing a run of bytes keeps the canonical form. -/
theorem mapWf_cellsPut (d : Nat → BitVec 8) (m : List Host.Cell) (x : Nat) (bs : List Nat) (h : mapWf d m = true) :
    mapWf d (cellsPut d m x bs) = true := by
  unfold mapWf cellsPut
  refine mapWfFrom_append d _ _ 0 x (by omega) (mapWfFrom_filter d _ m 0 h) ?_ ?_
  · intro e he; simpa using (List.mem_filter.1 he).2
  · refine mapWfFrom_append d _ _ x (x + bs.length) (by omega) (runCells_wf d x bs)
      (fun e he => (runCells_keys d x bs e he).2) ?_
    exact mapWfFrom_filter_ge d _ m 0 _ h (fun e _ he => by simpa using he)

/-- Dropping a range keeps the canonical form. -/
theorem mapWf_cdropRange [DecidableEq α] (d : Nat → α) (m : List (Nat × α)) (lo hi : Nat) (h : mapWf d m = true) :
    mapWf d (cdropRange m lo hi) = true := mapWf_filter d _ m h

/-- A byte outside a run that is written keeps its value. -/
theorem mapGet_cellsPut_outside (d : Nat → BitVec 8) (m : List Host.Cell) (x : Nat) (bs : List Nat) (j : Nat)
    (hj : j < x ∨ x + bs.length ≤ j) : mapGet d (cellsPut d m x bs) j = mapGet d m j := by
  unfold cellsPut
  rw [mapGet_append]
  have hlow : j ∈ ((m.filter (fun p => decide (p.1 < x))).map (·.1)) → j < x := fun h =>
    of_decide_eq_true (mem_keys_filter (fun y => decide (y < x)) m j h)
  have hl : mapGet d (m.filter (fun p => decide (p.1 < x))) j = if j < x then mapGet d m j else d j := by
    simpa using mapGet_filter d (fun y => decide (y < x)) m j
  have ha : mapGet d (m.filter (fun p => decide (x + bs.length ≤ p.1))) j =
      if x + bs.length ≤ j then mapGet d m j else d j := by
    simpa using mapGet_filter d (fun y => decide (x + bs.length ≤ y)) m j
  have hrun : ¬ j ∈ (runCells d x bs).map (·.1) := by
    intro h
    simp only [List.mem_map] at h
    obtain ⟨e, he, rfl⟩ := h
    have := runCells_keys d x bs e he
    omega
  by_cases hmem : j ∈ ((m.filter (fun p => decide (p.1 < x))).map (·.1))
  · rw [if_pos hmem, hl, if_pos (hlow hmem)]
  · rw [if_neg hmem, mapGet_append, if_neg hrun, ha]
    have habs := mapGet_absent d _ j hmem
    rw [hl] at habs
    rcases hj with hj | hj
    · have : ¬ x + bs.length ≤ j := by omega
      rw [if_pos hj] at habs
      rw [if_neg this, habs]
    · rw [if_pos hj]

theorem mapGet_runCells (d : Nat → BitVec 8) (x : Nat) (bs : List Nat) (j : Nat) (hj : j < bs.length) :
    mapGet d (runCells d x bs) (x + j) = BitVec.ofNat 8 (bs.getD j 0) := by
  induction bs generalizing x j with
  | nil => simp at hj
  | cons b t ih =>
    cases j with
    | zero =>
      unfold runCells
      split
      · rename_i h
        rw [mapGet_absent]
        · simpa using h.symm
        · intro hm
          simp only [List.mem_map] at hm
          obtain ⟨e, he, hx⟩ := hm
          have := (runCells_keys d (x + 1) t e he).1
          omega
      · simp [mapGet]
    | succ n =>
      have hn : n < t.length := by simpa using hj
      have := ih (x + 1) n hn
      have e : x + (n + 1) = x + 1 + n := by omega
      unfold runCells
      split
      · rw [e, this]; simp
      · have hne : ¬ x = x + (n + 1) := by omega
        simp only [mapGet, hne, if_false]
        rw [e, this]; simp

/-- A byte inside a run that is written takes the byte of the run. -/
theorem mapGet_cellsPut_inside (d : Nat → BitVec 8) (m : List Host.Cell) (x : Nat) (bs : List Nat) (j : Nat)
    (hj : j < bs.length) : mapGet d (cellsPut d m x bs) (x + j) = BitVec.ofNat 8 (bs.getD j 0) := by
  unfold cellsPut
  have hmem : ¬ (x + j) ∈ ((m.filter (fun p => decide (p.1 < x))).map (·.1)) := by
    intro h
    have : x + j < x := of_decide_eq_true (mem_keys_filter (fun y => decide (y < x)) m (x + j) h)
    omega
  rw [mapGet_append, if_neg hmem, mapGet_append]
  have hr := mapGet_runCells d x bs j hj
  by_cases hk : (x + j) ∈ (runCells d x bs).map (·.1)
  · rw [if_pos hk, hr]
  · rw [if_neg hk]
    have ha : mapGet d (m.filter (fun p => decide (x + bs.length ≤ p.1))) (x + j) = d (x + j) := by
      have := mapGet_filter d (fun y => decide (x + bs.length ≤ y)) m (x + j)
      have hn : ¬ (x + bs.length ≤ x + j) := by omega
      simpa [hn] using this
    rw [ha, ← mapGet_absent d _ _ hk, hr]

/-- An erased range reads its default; the rest stays. -/
theorem mapGet_cdropRange (d : Nat → α) (m : List (Nat × α)) (lo hi j : Nat) :
    mapGet d (cdropRange m lo hi) j = if lo ≤ j ∧ j < hi then d j else mapGet d m j := by
  have := mapGet_filter d (fun x => !(decide (lo ≤ x) && decide (x < hi))) m j
  unfold cdropRange
  rw [this]
  by_cases h1 : lo ≤ j <;> by_cases h2 : j < hi <;> simp [h1, h2]

end Sys2Proof.Laws
end

