-- ==== Sys2Proof/Laws/Memory.lean ====
section
/-! SUPPORT. Every operation on a byte memory keeps its canonical form, and a write leaves every other byte alone. -/

set_option Elab.async false

namespace Sys2Proof.Machine

open Sys2Proof.Laws

theorem mramWrite_wf (s : State) (x : Nat) (bs : List Nat) (h : Memory.wf s) : Memory.wf (mramWrite s x bs) := by
  unfold mramWrite
  split
  · exact h
  · exact ⟨mapWf_cellsPut _ _ _ _ h.1, h.2⟩

theorem flashPut_wf (s : State) (x : Nat) (bs : List Nat) (h : Memory.wf s) : Memory.wf (flashPut s x bs) :=
  ⟨h.1, mapWf_cellsPut _ _ _ _ h.2.1, h.2.2⟩

theorem flashClear_wf (s : State) (x n : Nat) (h : Memory.wf s) : Memory.wf (flashClear s x n) :=
  ⟨h.1, mapWf_cdropRange _ _ _ _ h.2.1, h.2.2⟩

theorem stage_wf (s : State) (bs : List Nat) (h : Memory.wf s) : Memory.wf (stage bs s) :=
  ⟨h.1, h.2.1, mapWf_cellsPut _ _ _ _ h.2.2.1, h.2.2.2⟩

theorem mramByte_mramWrite_outside (s : State) (x : Nat) (bs : List Nat) (y : Nat) (h : y < x ∨ x + bs.length ≤ y) :
    mramByte (mramWrite s x bs) y = mramByte s y := by
  unfold mramWrite mramByte
  split
  · rfl
  · exact congrArg BitVec.toNat (mapGet_cellsPut_outside _ _ _ _ _ h)

theorem flashByte_flashPut_outside (s : State) (x : Nat) (bs : List Nat) (y : Nat) (h : y < x ∨ x + bs.length ≤ y) :
    flashByte (flashPut s x bs) y = flashByte s y :=
  congrArg BitVec.toNat (mapGet_cellsPut_outside _ _ _ _ _ h)

end Sys2Proof.Machine
end

