-- ==== Sys2Proof/Laws/State.lean ====
section
/-! SUPPORT. What each named update of State leaves: one lemma per update and field, true by definition. -/

set_option Elab.async false

namespace Sys2Proof.Laws

open Sys2Proof.Machine

@[simp] theorem rset_pending (s : State) (a : Nat) (w : Word) : (rset s a w).pending = s.pending := rfl
@[simp] theorem rset_core (s : State) (a : Nat) (w : Word) : (rset s a w).core = s.core := rfl
@[simp] theorem rset_long (s : State) (a : Nat) (w : Word) : (rset s a w).long = s.long := rfl
@[simp] theorem rset_pat (s : State) (a : Nat) (w : Word) : (rset s a w).pat = s.pat := rfl
@[simp] theorem rset_fab (s : State) (a : Nat) (w : Word) : (rset s a w).fab = s.fab := rfl
@[simp] theorem rset_test (s : State) (a : Nat) (w : Word) : (rset s a w).test = s.test := rfl
@[simp] theorem rset_img (s : State) (a : Nat) (w : Word) : (rset s a w).img = s.img := rfl
@[simp] theorem rset_upd (s : State) (a : Nat) (w : Word) : (rset s a w).upd = s.upd := rfl
@[simp] theorem rset_xp (s : State) (a : Nat) (w : Word) : (rset s a w).xp = s.xp := rfl
@[simp] theorem rset_vl (s : State) (a : Nat) (w : Word) : (rset s a w).vl = s.vl := rfl
@[simp] theorem rset_q (s : State) (a : Nat) (w : Word) : (rset s a w).q = s.q := rfl
@[simp] theorem rset_eng (s : State) (a : Nat) (w : Word) : (rset s a w).eng = s.eng := rfl
@[simp] theorem rset_comp (s : State) (a : Nat) (w : Word) : (rset s a w).comp = s.comp := rfl
@[simp] theorem rset_flow (s : State) (a : Nat) (w : Word) : (rset s a w).flow = s.flow := rfl
@[simp] theorem rset_aud (s : State) (a : Nat) (w : Word) : (rset s a w).aud = s.aud := rfl
@[simp] theorem rset_mac (s : State) (a : Nat) (w : Word) : (rset s a w).mac = s.mac := rfl
@[simp] theorem rset_ref (s : State) (a : Nat) (w : Word) : (rset s a w).ref = s.ref := rfl
@[simp] theorem rset_time (s : State) (a : Nat) (w : Word) : (rset s a w).time = s.time := rfl
@[simp] theorem rset_pair (s : State) (a : Nat) (w : Word) : (rset s a w).pair = s.pair := rfl
@[simp] theorem rset_out (s : State) (a : Nat) (w : Word) : (rset s a w).out = s.out := rfl
@[simp] theorem rset_fresh (s : State) (a : Nat) (w : Word) : (rset s a w).fresh = s.fresh := rfl

@[simp] theorem rsetN_pending (s : State) (a n : Nat) : (rsetN s a n).pending = s.pending := rfl
@[simp] theorem rsetN_core (s : State) (a n : Nat) : (rsetN s a n).core = s.core := rfl
@[simp] theorem rsetN_long (s : State) (a n : Nat) : (rsetN s a n).long = s.long := rfl
@[simp] theorem rsetN_pat (s : State) (a n : Nat) : (rsetN s a n).pat = s.pat := rfl
@[simp] theorem rsetN_fab (s : State) (a n : Nat) : (rsetN s a n).fab = s.fab := rfl
@[simp] theorem rsetN_test (s : State) (a n : Nat) : (rsetN s a n).test = s.test := rfl
@[simp] theorem rsetN_img (s : State) (a n : Nat) : (rsetN s a n).img = s.img := rfl
@[simp] theorem rsetN_upd (s : State) (a n : Nat) : (rsetN s a n).upd = s.upd := rfl
@[simp] theorem rsetN_xp (s : State) (a n : Nat) : (rsetN s a n).xp = s.xp := rfl
@[simp] theorem rsetN_vl (s : State) (a n : Nat) : (rsetN s a n).vl = s.vl := rfl
@[simp] theorem rsetN_q (s : State) (a n : Nat) : (rsetN s a n).q = s.q := rfl
@[simp] theorem rsetN_eng (s : State) (a n : Nat) : (rsetN s a n).eng = s.eng := rfl
@[simp] theorem rsetN_comp (s : State) (a n : Nat) : (rsetN s a n).comp = s.comp := rfl
@[simp] theorem rsetN_flow (s : State) (a n : Nat) : (rsetN s a n).flow = s.flow := rfl
@[simp] theorem rsetN_aud (s : State) (a n : Nat) : (rsetN s a n).aud = s.aud := rfl
@[simp] theorem rsetN_mac (s : State) (a n : Nat) : (rsetN s a n).mac = s.mac := rfl
@[simp] theorem rsetN_ref (s : State) (a n : Nat) : (rsetN s a n).ref = s.ref := rfl
@[simp] theorem rsetN_time (s : State) (a n : Nat) : (rsetN s a n).time = s.time := rfl
@[simp] theorem rsetN_pair (s : State) (a n : Nat) : (rsetN s a n).pair = s.pair := rfl
@[simp] theorem rsetN_out (s : State) (a n : Nat) : (rsetN s a n).out = s.out := rfl
@[simp] theorem rsetN_fresh (s : State) (a n : Nat) : (rsetN s a n).fresh = s.fresh := rfl

@[simp] theorem fset_pending (s : State) (a : Nat) (f : FieldRow) (v : Nat) : (fset s a f v).pending = s.pending := rfl
@[simp] theorem fset_core (s : State) (a : Nat) (f : FieldRow) (v : Nat) : (fset s a f v).core = s.core := rfl
@[simp] theorem fset_long (s : State) (a : Nat) (f : FieldRow) (v : Nat) : (fset s a f v).long = s.long := rfl
@[simp] theorem fset_pat (s : State) (a : Nat) (f : FieldRow) (v : Nat) : (fset s a f v).pat = s.pat := rfl
@[simp] theorem fset_fab (s : State) (a : Nat) (f : FieldRow) (v : Nat) : (fset s a f v).fab = s.fab := rfl
@[simp] theorem fset_test (s : State) (a : Nat) (f : FieldRow) (v : Nat) : (fset s a f v).test = s.test := rfl
@[simp] theorem fset_img (s : State) (a : Nat) (f : FieldRow) (v : Nat) : (fset s a f v).img = s.img := rfl
@[simp] theorem fset_upd (s : State) (a : Nat) (f : FieldRow) (v : Nat) : (fset s a f v).upd = s.upd := rfl
@[simp] theorem fset_xp (s : State) (a : Nat) (f : FieldRow) (v : Nat) : (fset s a f v).xp = s.xp := rfl
@[simp] theorem fset_vl (s : State) (a : Nat) (f : FieldRow) (v : Nat) : (fset s a f v).vl = s.vl := rfl
@[simp] theorem fset_q (s : State) (a : Nat) (f : FieldRow) (v : Nat) : (fset s a f v).q = s.q := rfl
@[simp] theorem fset_eng (s : State) (a : Nat) (f : FieldRow) (v : Nat) : (fset s a f v).eng = s.eng := rfl
@[simp] theorem fset_comp (s : State) (a : Nat) (f : FieldRow) (v : Nat) : (fset s a f v).comp = s.comp := rfl
@[simp] theorem fset_flow (s : State) (a : Nat) (f : FieldRow) (v : Nat) : (fset s a f v).flow = s.flow := rfl
@[simp] theorem fset_aud (s : State) (a : Nat) (f : FieldRow) (v : Nat) : (fset s a f v).aud = s.aud := rfl
@[simp] theorem fset_mac (s : State) (a : Nat) (f : FieldRow) (v : Nat) : (fset s a f v).mac = s.mac := rfl
@[simp] theorem fset_ref (s : State) (a : Nat) (f : FieldRow) (v : Nat) : (fset s a f v).ref = s.ref := rfl
@[simp] theorem fset_time (s : State) (a : Nat) (f : FieldRow) (v : Nat) : (fset s a f v).time = s.time := rfl
@[simp] theorem fset_pair (s : State) (a : Nat) (f : FieldRow) (v : Nat) : (fset s a f v).pair = s.pair := rfl
@[simp] theorem fset_out (s : State) (a : Nat) (f : FieldRow) (v : Nat) : (fset s a f v).out = s.out := rfl
@[simp] theorem fset_fresh (s : State) (a : Nat) (f : FieldRow) (v : Nat) : (fset s a f v).fresh = s.fresh := rfl

@[simp] theorem rset64_pending (s : State) (lo hi v : Nat) : (rset64 s lo hi v).pending = s.pending := rfl
@[simp] theorem rset64_core (s : State) (lo hi v : Nat) : (rset64 s lo hi v).core = s.core := rfl
@[simp] theorem rset64_long (s : State) (lo hi v : Nat) : (rset64 s lo hi v).long = s.long := rfl
@[simp] theorem rset64_pat (s : State) (lo hi v : Nat) : (rset64 s lo hi v).pat = s.pat := rfl
@[simp] theorem rset64_fab (s : State) (lo hi v : Nat) : (rset64 s lo hi v).fab = s.fab := rfl
@[simp] theorem rset64_test (s : State) (lo hi v : Nat) : (rset64 s lo hi v).test = s.test := rfl
@[simp] theorem rset64_img (s : State) (lo hi v : Nat) : (rset64 s lo hi v).img = s.img := rfl
@[simp] theorem rset64_upd (s : State) (lo hi v : Nat) : (rset64 s lo hi v).upd = s.upd := rfl
@[simp] theorem rset64_xp (s : State) (lo hi v : Nat) : (rset64 s lo hi v).xp = s.xp := rfl
@[simp] theorem rset64_vl (s : State) (lo hi v : Nat) : (rset64 s lo hi v).vl = s.vl := rfl
@[simp] theorem rset64_q (s : State) (lo hi v : Nat) : (rset64 s lo hi v).q = s.q := rfl
@[simp] theorem rset64_eng (s : State) (lo hi v : Nat) : (rset64 s lo hi v).eng = s.eng := rfl
@[simp] theorem rset64_comp (s : State) (lo hi v : Nat) : (rset64 s lo hi v).comp = s.comp := rfl
@[simp] theorem rset64_flow (s : State) (lo hi v : Nat) : (rset64 s lo hi v).flow = s.flow := rfl
@[simp] theorem rset64_aud (s : State) (lo hi v : Nat) : (rset64 s lo hi v).aud = s.aud := rfl
@[simp] theorem rset64_mac (s : State) (lo hi v : Nat) : (rset64 s lo hi v).mac = s.mac := rfl
@[simp] theorem rset64_ref (s : State) (lo hi v : Nat) : (rset64 s lo hi v).ref = s.ref := rfl
@[simp] theorem rset64_time (s : State) (lo hi v : Nat) : (rset64 s lo hi v).time = s.time := rfl
@[simp] theorem rset64_pair (s : State) (lo hi v : Nat) : (rset64 s lo hi v).pair = s.pair := rfl
@[simp] theorem rset64_out (s : State) (lo hi v : Nat) : (rset64 s lo hi v).out = s.out := rfl
@[simp] theorem rset64_fresh (s : State) (lo hi v : Nat) : (rset64 s lo hi v).fresh = s.fresh := rfl

@[simp] theorem countN_pending (s : State) (a n : Nat) : (countN s a n).pending = s.pending := rfl
@[simp] theorem countN_core (s : State) (a n : Nat) : (countN s a n).core = s.core := rfl
@[simp] theorem countN_long (s : State) (a n : Nat) : (countN s a n).long = s.long := rfl
@[simp] theorem countN_pat (s : State) (a n : Nat) : (countN s a n).pat = s.pat := rfl
@[simp] theorem countN_fab (s : State) (a n : Nat) : (countN s a n).fab = s.fab := rfl
@[simp] theorem countN_test (s : State) (a n : Nat) : (countN s a n).test = s.test := rfl
@[simp] theorem countN_img (s : State) (a n : Nat) : (countN s a n).img = s.img := rfl
@[simp] theorem countN_upd (s : State) (a n : Nat) : (countN s a n).upd = s.upd := rfl
@[simp] theorem countN_xp (s : State) (a n : Nat) : (countN s a n).xp = s.xp := rfl
@[simp] theorem countN_vl (s : State) (a n : Nat) : (countN s a n).vl = s.vl := rfl
@[simp] theorem countN_q (s : State) (a n : Nat) : (countN s a n).q = s.q := rfl
@[simp] theorem countN_eng (s : State) (a n : Nat) : (countN s a n).eng = s.eng := rfl
@[simp] theorem countN_comp (s : State) (a n : Nat) : (countN s a n).comp = s.comp := rfl
@[simp] theorem countN_flow (s : State) (a n : Nat) : (countN s a n).flow = s.flow := rfl
@[simp] theorem countN_aud (s : State) (a n : Nat) : (countN s a n).aud = s.aud := rfl
@[simp] theorem countN_mac (s : State) (a n : Nat) : (countN s a n).mac = s.mac := rfl
@[simp] theorem countN_ref (s : State) (a n : Nat) : (countN s a n).ref = s.ref := rfl
@[simp] theorem countN_time (s : State) (a n : Nat) : (countN s a n).time = s.time := rfl
@[simp] theorem countN_pair (s : State) (a n : Nat) : (countN s a n).pair = s.pair := rfl
@[simp] theorem countN_out (s : State) (a n : Nat) : (countN s a n).out = s.out := rfl
@[simp] theorem countN_fresh (s : State) (a n : Nat) : (countN s a n).fresh = s.fresh := rfl

@[simp] theorem count_pending (s : State) (a : Nat) : (count s a).pending = s.pending := rfl
@[simp] theorem count_core (s : State) (a : Nat) : (count s a).core = s.core := rfl
@[simp] theorem count_long (s : State) (a : Nat) : (count s a).long = s.long := rfl
@[simp] theorem count_pat (s : State) (a : Nat) : (count s a).pat = s.pat := rfl
@[simp] theorem count_fab (s : State) (a : Nat) : (count s a).fab = s.fab := rfl
@[simp] theorem count_test (s : State) (a : Nat) : (count s a).test = s.test := rfl
@[simp] theorem count_img (s : State) (a : Nat) : (count s a).img = s.img := rfl
@[simp] theorem count_upd (s : State) (a : Nat) : (count s a).upd = s.upd := rfl
@[simp] theorem count_xp (s : State) (a : Nat) : (count s a).xp = s.xp := rfl
@[simp] theorem count_vl (s : State) (a : Nat) : (count s a).vl = s.vl := rfl
@[simp] theorem count_q (s : State) (a : Nat) : (count s a).q = s.q := rfl
@[simp] theorem count_eng (s : State) (a : Nat) : (count s a).eng = s.eng := rfl
@[simp] theorem count_comp (s : State) (a : Nat) : (count s a).comp = s.comp := rfl
@[simp] theorem count_flow (s : State) (a : Nat) : (count s a).flow = s.flow := rfl
@[simp] theorem count_aud (s : State) (a : Nat) : (count s a).aud = s.aud := rfl
@[simp] theorem count_mac (s : State) (a : Nat) : (count s a).mac = s.mac := rfl
@[simp] theorem count_ref (s : State) (a : Nat) : (count s a).ref = s.ref := rfl
@[simp] theorem count_time (s : State) (a : Nat) : (count s a).time = s.time := rfl
@[simp] theorem count_pair (s : State) (a : Nat) : (count s a).pair = s.pair := rfl
@[simp] theorem count_out (s : State) (a : Nat) : (count s a).out = s.out := rfl
@[simp] theorem count_fresh (s : State) (a : Nat) : (count s a).fresh = s.fresh := rfl

@[simp] theorem setMode_pending (s : State) (m : Mode) : (setMode s m).pending = s.pending := by
  cases m <;> rfl
@[simp] theorem setMode_core (s : State) (m : Mode) : (setMode s m).core = s.core := by
  cases m <;> rfl
@[simp] theorem setMode_long (s : State) (m : Mode) : (setMode s m).long = s.long := by
  cases m <;> rfl
@[simp] theorem setMode_pat (s : State) (m : Mode) : (setMode s m).pat = s.pat := by
  cases m <;> rfl
@[simp] theorem setMode_fab (s : State) (m : Mode) : (setMode s m).fab = s.fab := by
  cases m <;> rfl
@[simp] theorem setMode_img (s : State) (m : Mode) : (setMode s m).img = s.img := by
  cases m <;> rfl
@[simp] theorem setMode_upd (s : State) (m : Mode) : (setMode s m).upd = s.upd := by
  cases m <;> rfl
@[simp] theorem setMode_xp (s : State) (m : Mode) : (setMode s m).xp = s.xp := by
  cases m <;> rfl
@[simp] theorem setMode_vl (s : State) (m : Mode) : (setMode s m).vl = s.vl := by
  cases m <;> rfl
@[simp] theorem setMode_q (s : State) (m : Mode) : (setMode s m).q = s.q := by
  cases m <;> rfl
@[simp] theorem setMode_eng (s : State) (m : Mode) : (setMode s m).eng = s.eng := by
  cases m <;> rfl
@[simp] theorem setMode_comp (s : State) (m : Mode) : (setMode s m).comp = s.comp := by
  cases m <;> rfl
@[simp] theorem setMode_flow (s : State) (m : Mode) : (setMode s m).flow = s.flow := by
  cases m <;> rfl
@[simp] theorem setMode_aud (s : State) (m : Mode) : (setMode s m).aud = s.aud := by
  cases m <;> rfl
@[simp] theorem setMode_mac (s : State) (m : Mode) : (setMode s m).mac = s.mac := by
  cases m <;> rfl
@[simp] theorem setMode_ref (s : State) (m : Mode) : (setMode s m).ref = s.ref := by
  cases m <;> rfl
@[simp] theorem setMode_time (s : State) (m : Mode) : (setMode s m).time = s.time := by
  cases m <;> rfl
@[simp] theorem setMode_pair (s : State) (m : Mode) : (setMode s m).pair = s.pair := by
  cases m <;> rfl
@[simp] theorem setMode_out (s : State) (m : Mode) : (setMode s m).out = s.out := by
  cases m <;> rfl
@[simp] theorem setMode_fresh (s : State) (m : Mode) : (setMode s m).fresh = s.fresh := by
  cases m <;> rfl

@[simp] theorem emit_pending (s : State) (o : Output) : (emit s o).pending = s.pending := by
  unfold emit; split <;> rfl
@[simp] theorem emit_regs (s : State) (o : Output) : (emit s o).regs = s.regs := by
  unfold emit; split <;> rfl
@[simp] theorem emit_core (s : State) (o : Output) : (emit s o).core = s.core := by
  unfold emit; split <;> rfl
@[simp] theorem emit_long (s : State) (o : Output) : (emit s o).long = s.long := by
  unfold emit; split <;> rfl
@[simp] theorem emit_pat (s : State) (o : Output) : (emit s o).pat = s.pat := by
  unfold emit; split <;> rfl
@[simp] theorem emit_fab (s : State) (o : Output) : (emit s o).fab = s.fab := by
  unfold emit; split <;> rfl
@[simp] theorem emit_test (s : State) (o : Output) : (emit s o).test = s.test := by
  unfold emit; split <;> rfl
@[simp] theorem emit_img (s : State) (o : Output) : (emit s o).img = s.img := by
  unfold emit; split <;> rfl
@[simp] theorem emit_upd (s : State) (o : Output) : (emit s o).upd = s.upd := by
  unfold emit; split <;> rfl
@[simp] theorem emit_xp (s : State) (o : Output) : (emit s o).xp = s.xp := by
  unfold emit; split <;> rfl
@[simp] theorem emit_vl (s : State) (o : Output) : (emit s o).vl = s.vl := by
  unfold emit; split <;> rfl
@[simp] theorem emit_q (s : State) (o : Output) : (emit s o).q = s.q := by
  unfold emit; split <;> rfl
@[simp] theorem emit_eng (s : State) (o : Output) : (emit s o).eng = s.eng := by
  unfold emit; split <;> rfl
@[simp] theorem emit_comp (s : State) (o : Output) : (emit s o).comp = s.comp := by
  unfold emit; split <;> rfl
@[simp] theorem emit_flow (s : State) (o : Output) : (emit s o).flow = s.flow := by
  unfold emit; split <;> rfl
@[simp] theorem emit_aud (s : State) (o : Output) : (emit s o).aud = s.aud := by
  unfold emit; split <;> rfl
@[simp] theorem emit_mac (s : State) (o : Output) : (emit s o).mac = s.mac := by
  unfold emit; split <;> rfl
@[simp] theorem emit_ref (s : State) (o : Output) : (emit s o).ref = s.ref := by
  unfold emit; split <;> rfl
@[simp] theorem emit_time (s : State) (o : Output) : (emit s o).time = s.time := by
  unfold emit; split <;> rfl
@[simp] theorem emit_pair (s : State) (o : Output) : (emit s o).pair = s.pair := by
  unfold emit; split <;> rfl
@[simp] theorem emit_fresh (s : State) (o : Output) : (emit s o).fresh = s.fresh := by
  unfold emit; split <;> rfl

@[simp] theorem spend_pending (s : State) : (spend s).pending = s.pending := rfl
@[simp] theorem spend_regs (s : State) : (spend s).regs = s.regs := rfl
@[simp] theorem spend_core (s : State) : (spend s).core = s.core := rfl
@[simp] theorem spend_long (s : State) : (spend s).long = s.long := rfl
@[simp] theorem spend_pat (s : State) : (spend s).pat = s.pat := rfl
@[simp] theorem spend_fab (s : State) : (spend s).fab = s.fab := rfl
@[simp] theorem spend_test (s : State) : (spend s).test = s.test := rfl
@[simp] theorem spend_img (s : State) : (spend s).img = s.img := rfl
@[simp] theorem spend_upd (s : State) : (spend s).upd = s.upd := rfl
@[simp] theorem spend_xp (s : State) : (spend s).xp = s.xp := rfl
@[simp] theorem spend_vl (s : State) : (spend s).vl = s.vl := rfl
@[simp] theorem spend_q (s : State) : (spend s).q = s.q := rfl
@[simp] theorem spend_eng (s : State) : (spend s).eng = s.eng := rfl
@[simp] theorem spend_comp (s : State) : (spend s).comp = s.comp := rfl
@[simp] theorem spend_flow (s : State) : (spend s).flow = s.flow := rfl
@[simp] theorem spend_aud (s : State) : (spend s).aud = s.aud := rfl
@[simp] theorem spend_mac (s : State) : (spend s).mac = s.mac := rfl
@[simp] theorem spend_ref (s : State) : (spend s).ref = s.ref := rfl
@[simp] theorem spend_time (s : State) : (spend s).time = s.time := rfl
@[simp] theorem spend_pair (s : State) : (spend s).pair = s.pair := rfl
@[simp] theorem spend_out (s : State) : (spend s).out = s.out := rfl

@[simp] theorem flashPut_pending (s : State) (x : Nat) (bs : List Nat) : (flashPut s x bs).pending = s.pending := rfl
@[simp] theorem flashPut_regs (s : State) (x : Nat) (bs : List Nat) : (flashPut s x bs).regs = s.regs := rfl
@[simp] theorem flashPut_core (s : State) (x : Nat) (bs : List Nat) : (flashPut s x bs).core = s.core := rfl
@[simp] theorem flashPut_pat (s : State) (x : Nat) (bs : List Nat) : (flashPut s x bs).pat = s.pat := rfl
@[simp] theorem flashPut_fab (s : State) (x : Nat) (bs : List Nat) : (flashPut s x bs).fab = s.fab := rfl
@[simp] theorem flashPut_test (s : State) (x : Nat) (bs : List Nat) : (flashPut s x bs).test = s.test := rfl
@[simp] theorem flashPut_img (s : State) (x : Nat) (bs : List Nat) : (flashPut s x bs).img = s.img := rfl
@[simp] theorem flashPut_upd (s : State) (x : Nat) (bs : List Nat) : (flashPut s x bs).upd = s.upd := rfl
@[simp] theorem flashPut_xp (s : State) (x : Nat) (bs : List Nat) : (flashPut s x bs).xp = s.xp := rfl
@[simp] theorem flashPut_vl (s : State) (x : Nat) (bs : List Nat) : (flashPut s x bs).vl = s.vl := rfl
@[simp] theorem flashPut_q (s : State) (x : Nat) (bs : List Nat) : (flashPut s x bs).q = s.q := rfl
@[simp] theorem flashPut_eng (s : State) (x : Nat) (bs : List Nat) : (flashPut s x bs).eng = s.eng := rfl
@[simp] theorem flashPut_comp (s : State) (x : Nat) (bs : List Nat) : (flashPut s x bs).comp = s.comp := rfl
@[simp] theorem flashPut_flow (s : State) (x : Nat) (bs : List Nat) : (flashPut s x bs).flow = s.flow := rfl
@[simp] theorem flashPut_aud (s : State) (x : Nat) (bs : List Nat) : (flashPut s x bs).aud = s.aud := rfl
@[simp] theorem flashPut_mac (s : State) (x : Nat) (bs : List Nat) : (flashPut s x bs).mac = s.mac := rfl
@[simp] theorem flashPut_ref (s : State) (x : Nat) (bs : List Nat) : (flashPut s x bs).ref = s.ref := rfl
@[simp] theorem flashPut_time (s : State) (x : Nat) (bs : List Nat) : (flashPut s x bs).time = s.time := rfl
@[simp] theorem flashPut_pair (s : State) (x : Nat) (bs : List Nat) : (flashPut s x bs).pair = s.pair := rfl
@[simp] theorem flashPut_out (s : State) (x : Nat) (bs : List Nat) : (flashPut s x bs).out = s.out := rfl
@[simp] theorem flashPut_fresh (s : State) (x : Nat) (bs : List Nat) : (flashPut s x bs).fresh = s.fresh := rfl

@[simp] theorem flashClear_pending (s : State) (x n : Nat) : (flashClear s x n).pending = s.pending := rfl
@[simp] theorem flashClear_regs (s : State) (x n : Nat) : (flashClear s x n).regs = s.regs := rfl
@[simp] theorem flashClear_core (s : State) (x n : Nat) : (flashClear s x n).core = s.core := rfl
@[simp] theorem flashClear_pat (s : State) (x n : Nat) : (flashClear s x n).pat = s.pat := rfl
@[simp] theorem flashClear_fab (s : State) (x n : Nat) : (flashClear s x n).fab = s.fab := rfl
@[simp] theorem flashClear_test (s : State) (x n : Nat) : (flashClear s x n).test = s.test := rfl
@[simp] theorem flashClear_img (s : State) (x n : Nat) : (flashClear s x n).img = s.img := rfl
@[simp] theorem flashClear_upd (s : State) (x n : Nat) : (flashClear s x n).upd = s.upd := rfl
@[simp] theorem flashClear_xp (s : State) (x n : Nat) : (flashClear s x n).xp = s.xp := rfl
@[simp] theorem flashClear_vl (s : State) (x n : Nat) : (flashClear s x n).vl = s.vl := rfl
@[simp] theorem flashClear_q (s : State) (x n : Nat) : (flashClear s x n).q = s.q := rfl
@[simp] theorem flashClear_eng (s : State) (x n : Nat) : (flashClear s x n).eng = s.eng := rfl
@[simp] theorem flashClear_comp (s : State) (x n : Nat) : (flashClear s x n).comp = s.comp := rfl
@[simp] theorem flashClear_flow (s : State) (x n : Nat) : (flashClear s x n).flow = s.flow := rfl
@[simp] theorem flashClear_aud (s : State) (x n : Nat) : (flashClear s x n).aud = s.aud := rfl
@[simp] theorem flashClear_mac (s : State) (x n : Nat) : (flashClear s x n).mac = s.mac := rfl
@[simp] theorem flashClear_ref (s : State) (x n : Nat) : (flashClear s x n).ref = s.ref := rfl
@[simp] theorem flashClear_time (s : State) (x n : Nat) : (flashClear s x n).time = s.time := rfl
@[simp] theorem flashClear_pair (s : State) (x n : Nat) : (flashClear s x n).pair = s.pair := rfl
@[simp] theorem flashClear_out (s : State) (x n : Nat) : (flashClear s x n).out = s.out := rfl
@[simp] theorem flashClear_fresh (s : State) (x n : Nat) : (flashClear s x n).fresh = s.fresh := rfl

@[simp] theorem lifeAdd_pending (s : State) (k n : Nat) : (lifeAdd s k n).pending = s.pending := rfl
@[simp] theorem lifeAdd_regs (s : State) (k n : Nat) : (lifeAdd s k n).regs = s.regs := rfl
@[simp] theorem lifeAdd_core (s : State) (k n : Nat) : (lifeAdd s k n).core = s.core := rfl
@[simp] theorem lifeAdd_pat (s : State) (k n : Nat) : (lifeAdd s k n).pat = s.pat := rfl
@[simp] theorem lifeAdd_fab (s : State) (k n : Nat) : (lifeAdd s k n).fab = s.fab := rfl
@[simp] theorem lifeAdd_test (s : State) (k n : Nat) : (lifeAdd s k n).test = s.test := rfl
@[simp] theorem lifeAdd_img (s : State) (k n : Nat) : (lifeAdd s k n).img = s.img := rfl
@[simp] theorem lifeAdd_upd (s : State) (k n : Nat) : (lifeAdd s k n).upd = s.upd := rfl
@[simp] theorem lifeAdd_xp (s : State) (k n : Nat) : (lifeAdd s k n).xp = s.xp := rfl
@[simp] theorem lifeAdd_vl (s : State) (k n : Nat) : (lifeAdd s k n).vl = s.vl := rfl
@[simp] theorem lifeAdd_q (s : State) (k n : Nat) : (lifeAdd s k n).q = s.q := rfl
@[simp] theorem lifeAdd_eng (s : State) (k n : Nat) : (lifeAdd s k n).eng = s.eng := rfl
@[simp] theorem lifeAdd_comp (s : State) (k n : Nat) : (lifeAdd s k n).comp = s.comp := rfl
@[simp] theorem lifeAdd_flow (s : State) (k n : Nat) : (lifeAdd s k n).flow = s.flow := rfl
@[simp] theorem lifeAdd_aud (s : State) (k n : Nat) : (lifeAdd s k n).aud = s.aud := rfl
@[simp] theorem lifeAdd_mac (s : State) (k n : Nat) : (lifeAdd s k n).mac = s.mac := rfl
@[simp] theorem lifeAdd_ref (s : State) (k n : Nat) : (lifeAdd s k n).ref = s.ref := rfl
@[simp] theorem lifeAdd_time (s : State) (k n : Nat) : (lifeAdd s k n).time = s.time := rfl
@[simp] theorem lifeAdd_pair (s : State) (k n : Nat) : (lifeAdd s k n).pair = s.pair := rfl
@[simp] theorem lifeAdd_out (s : State) (k n : Nat) : (lifeAdd s k n).out = s.out := rfl
@[simp] theorem lifeAdd_fresh (s : State) (k n : Nat) : (lifeAdd s k n).fresh = s.fresh := rfl

/-- Outputs that leave on other pins, or while the tester does not hold the pins. -/
@[simp] theorem emit_out (s : State) (o : Output) (h : o.onPins = false) : (emit s o).out = s.out ++ [o] := by
  unfold emit; rw [h, Bool.and_false]; rfl
theorem emit_out_free (s : State) (o : Output) (h : s.test.jtagPins = false) : (emit s o).out = s.out ++ [o] := by
  unfold emit; rw [h, Bool.false_and]; rfl
@[simp] theorem spend_fresh (s : State) : (spend s).fresh = s.fresh + 1 := rfl
@[simp] theorem rset_regs (s : State) (a : Nat) (w : Word) : (rset s a w).regs = mapSet regDefault s.regs a w := rfl

@[simp] theorem mramWrite_pending (s : State) (x : Nat) (bs : List Nat) : (mramWrite s x bs).pending = s.pending := by
  unfold mramWrite; split <;> rfl
@[simp] theorem mramWrite_regs (s : State) (x : Nat) (bs : List Nat) : (mramWrite s x bs).regs = s.regs := by
  unfold mramWrite; split <;> rfl
@[simp] theorem mramWrite_core (s : State) (x : Nat) (bs : List Nat) : (mramWrite s x bs).core = s.core := by
  unfold mramWrite; split <;> rfl
@[simp] theorem mramWrite_pat (s : State) (x : Nat) (bs : List Nat) : (mramWrite s x bs).pat = s.pat := by
  unfold mramWrite; split <;> rfl
@[simp] theorem mramWrite_fab (s : State) (x : Nat) (bs : List Nat) : (mramWrite s x bs).fab = s.fab := by
  unfold mramWrite; split <;> rfl
@[simp] theorem mramWrite_test (s : State) (x : Nat) (bs : List Nat) : (mramWrite s x bs).test = s.test := by
  unfold mramWrite; split <;> rfl
@[simp] theorem mramWrite_img (s : State) (x : Nat) (bs : List Nat) : (mramWrite s x bs).img = s.img := by
  unfold mramWrite; split <;> rfl
@[simp] theorem mramWrite_upd (s : State) (x : Nat) (bs : List Nat) : (mramWrite s x bs).upd = s.upd := by
  unfold mramWrite; split <;> rfl
@[simp] theorem mramWrite_xp (s : State) (x : Nat) (bs : List Nat) : (mramWrite s x bs).xp = s.xp := by
  unfold mramWrite; split <;> rfl
@[simp] theorem mramWrite_vl (s : State) (x : Nat) (bs : List Nat) : (mramWrite s x bs).vl = s.vl := by
  unfold mramWrite; split <;> rfl
@[simp] theorem mramWrite_q (s : State) (x : Nat) (bs : List Nat) : (mramWrite s x bs).q = s.q := by
  unfold mramWrite; split <;> rfl
@[simp] theorem mramWrite_eng (s : State) (x : Nat) (bs : List Nat) : (mramWrite s x bs).eng = s.eng := by
  unfold mramWrite; split <;> rfl
@[simp] theorem mramWrite_comp (s : State) (x : Nat) (bs : List Nat) : (mramWrite s x bs).comp = s.comp := by
  unfold mramWrite; split <;> rfl
@[simp] theorem mramWrite_flow (s : State) (x : Nat) (bs : List Nat) : (mramWrite s x bs).flow = s.flow := by
  unfold mramWrite; split <;> rfl
@[simp] theorem mramWrite_aud (s : State) (x : Nat) (bs : List Nat) : (mramWrite s x bs).aud = s.aud := by
  unfold mramWrite; split <;> rfl
@[simp] theorem mramWrite_mac (s : State) (x : Nat) (bs : List Nat) : (mramWrite s x bs).mac = s.mac := by
  unfold mramWrite; split <;> rfl
@[simp] theorem mramWrite_ref (s : State) (x : Nat) (bs : List Nat) : (mramWrite s x bs).ref = s.ref := by
  unfold mramWrite; split <;> rfl
@[simp] theorem mramWrite_time (s : State) (x : Nat) (bs : List Nat) : (mramWrite s x bs).time = s.time := by
  unfold mramWrite; split <;> rfl
@[simp] theorem mramWrite_pair (s : State) (x : Nat) (bs : List Nat) : (mramWrite s x bs).pair = s.pair := by
  unfold mramWrite; split <;> rfl
@[simp] theorem mramWrite_out (s : State) (x : Nat) (bs : List Nat) : (mramWrite s x bs).out = s.out := by
  unfold mramWrite; split <;> rfl
@[simp] theorem mramWrite_fresh (s : State) (x : Nat) (bs : List Nat) : (mramWrite s x bs).fresh = s.fresh := by
  unfold mramWrite; split <;> rfl

theorem mramWrite_flash (s : State) (x : Nat) (bs : List Nat) : (mramWrite s x bs).long.flash = s.long.flash := by
  unfold mramWrite; split <;> rfl
/-- The write protection keeps every byte of MRAM. -/
theorem mramWrite_protected (s : State) (x : Nat) (bs : List Nat) (h : s.long.protect = true) : mramWrite s x bs = s := by
  unfold mramWrite; rw [if_pos h]

end Sys2Proof.Laws
end

