-- ==== Sys2Proof/Laws/Regs.lean ====
section
/-! SUPPORT. The register file: a read after a write, fields of one register, counters. -/

set_option Elab.async false

namespace Sys2Proof.Laws

open Sys2Proof.Machine

/-! ### Bit fields -/

theorem bitsOf_lt (hi lo n : Nat) : bitsOf hi lo n < 2 ^ (hi + 1 - lo) := Nat.mod_lt _ (by positivity)

theorem withBits_split (hi lo v n : Nat) :
    withBits hi lo v n = n % 2 ^ lo + 2 ^ lo * (v % 2 ^ (hi + 1 - lo)) + 2 ^ lo * 2 ^ (hi + 1 - lo) * (n / (2 ^ lo * 2 ^ (hi + 1 - lo))) := by
  unfold withBits bitsOf
  generalize hA : 2 ^ lo = A
  generalize hB : 2 ^ (hi + 1 - lo) = B
  have h1 : n % A + A * (n / A) = n := Nat.mod_add_div n A
  have h2 : n / A % B + B * (n / A / B) = n / A := Nat.mod_add_div (n / A) B
  have h3 : n / A / B = n / (A * B) := Nat.div_div_eq_div_mul n A B
  rw [h3] at h2
  have h4 : n = n % A + A * (n / A % B) + A * B * (n / (A * B)) := by
    calc n = n % A + A * (n / A) := h1.symm
      _ = n % A + A * (n / A % B + B * (n / (A * B))) := by rw [h2]
      _ = _ := by ring
  have h5 : n / A % B * A = A * (n / A % B) := Nat.mul_comm _ _
  have h6 : v % B * A = A * (v % B) := Nat.mul_comm _ _
  rw [h5, h6]
  omega

/-- A field reads as it was written. -/
theorem bitsOf_withBits (hi lo v n : Nat) : bitsOf hi lo (withBits hi lo v n) = v % 2 ^ (hi + 1 - lo) := by
  rw [withBits_split]
  unfold bitsOf
  have hA : 0 < 2 ^ lo := by positivity
  have hB : 0 < 2 ^ (hi + 1 - lo) := by positivity
  generalize 2 ^ lo = A at *
  generalize 2 ^ (hi + 1 - lo) = B at *
  have e : n % A + A * (v % B) + A * B * (n / (A * B)) = n % A + A * (v % B + B * (n / (A * B))) := by ring
  rw [e, Nat.add_mul_div_left _ _ hA, Nat.div_eq_of_lt (Nat.mod_lt n hA), Nat.zero_add, Nat.add_mul_mod_self_left]
  exact Nat.mod_mod _ _

/-- A field that lies above another keeps its value. -/
theorem bitsOf_withBits_above (hi lo v n hi' lo' : Nat) (h : hi < lo') (hl : lo ≤ hi + 1) :
    bitsOf hi' lo' (withBits hi lo v n) = bitsOf hi' lo' n := by
  unfold bitsOf
  have key : withBits hi lo v n / 2 ^ lo' = n / 2 ^ lo' := by
    rw [withBits_split]
    have hp : 2 ^ lo * 2 ^ (hi + 1 - lo) = 2 ^ (hi + 1) := by rw [← pow_add]; congr 1; omega
    rw [hp]
    obtain ⟨k, rfl⟩ : ∃ k, lo' = hi + 1 + k := ⟨lo' - (hi + 1), by omega⟩
    rw [pow_add 2 (hi + 1) k, ← Nat.div_div_eq_div_mul, ← Nat.div_div_eq_div_mul]
    congr 1
    have hA : n % 2 ^ lo < 2 ^ lo := Nat.mod_lt _ (by positivity)
    have hB : v % 2 ^ (hi + 1 - lo) < 2 ^ (hi + 1 - lo) := Nat.mod_lt _ (by positivity)
    have hlt : n % 2 ^ lo + 2 ^ lo * (v % 2 ^ (hi + 1 - lo)) < 2 ^ (hi + 1) := by
      rw [← hp]
      calc _ < 2 ^ lo + 2 ^ lo * (v % 2 ^ (hi + 1 - lo)) := by omega
        _ = 2 ^ lo * (v % 2 ^ (hi + 1 - lo) + 1) := by ring
        _ ≤ _ := Nat.mul_le_mul_left _ hB
    rw [Nat.add_mul_div_left _ _ (by positivity), Nat.div_eq_of_lt hlt, Nat.zero_add]
  rw [key]

/-- A field that lies below another keeps its value. -/
theorem bitsOf_withBits_below (hi lo v n hi' lo' : Nat) (h : hi' < lo) :
    bitsOf hi' lo' (withBits hi lo v n) = bitsOf hi' lo' n := by
  by_cases hlo : lo' ≤ hi'
  · unfold bitsOf
    have hm : withBits hi lo v n % 2 ^ (hi' + 1) = n % 2 ^ (hi' + 1) := by
      rw [withBits_split]
      obtain ⟨k, rfl⟩ : ∃ k, lo = hi' + 1 + k := ⟨lo - (hi' + 1), by omega⟩
      rw [pow_add 2 (hi' + 1) k]
      generalize 2 ^ (hi' + 1) = P
      generalize 2 ^ k = Q
      generalize 2 ^ (hi + 1 - (hi' + 1 + k)) = R
      have e : n % (P * Q) + P * Q * (v % R) + P * Q * R * (n / (P * Q * R))
          = n % (P * Q) + P * (Q * (v % R) + Q * R * (n / (P * Q * R))) := by ring
      rw [e, Nat.add_mul_mod_self_left]
      exact Nat.mod_mul_right_mod n P Q
    have hpow : 2 ^ (hi' + 1) = 2 ^ lo' * 2 ^ (hi' + 1 - lo') := by rw [← pow_add]; congr 1; omega
    have key (x : Nat) : x / 2 ^ lo' % 2 ^ (hi' + 1 - lo') = x % 2 ^ (hi' + 1) / 2 ^ lo' := by
      rw [hpow]; exact (Nat.mod_mul_right_div_self x _ _).symm
    rw [key, key, hm]
  · unfold bitsOf
    have : hi' + 1 - lo' = 0 := by omega
    simp [this, Nat.mod_one]

theorem withBits_lt (hi lo v n w : Nat) (hw : hi < w) (hl : lo ≤ hi + 1) (hn : n < 2 ^ w) : withBits hi lo v n < 2 ^ w := by
  rw [withBits_split]
  have hp : 2 ^ lo * 2 ^ (hi + 1 - lo) = 2 ^ (hi + 1) := by rw [← pow_add]; congr 1; omega
  rw [hp]
  obtain ⟨k, rfl⟩ : ∃ k, w = hi + 1 + k := ⟨w - (hi + 1), by omega⟩
  rw [pow_add 2 (hi + 1) k] at hn ⊢
  have hq : n / 2 ^ (hi + 1) < 2 ^ k := Nat.div_lt_of_lt_mul hn
  have hA : n % 2 ^ lo < 2 ^ lo := Nat.mod_lt _ (by positivity)
  have hB : v % 2 ^ (hi + 1 - lo) < 2 ^ (hi + 1 - lo) := Nat.mod_lt _ (by positivity)
  have hlt : n % 2 ^ lo + 2 ^ lo * (v % 2 ^ (hi + 1 - lo)) < 2 ^ (hi + 1) := by
    rw [← hp]
    calc _ < 2 ^ lo + 2 ^ lo * (v % 2 ^ (hi + 1 - lo)) := by omega
      _ = 2 ^ lo * (v % 2 ^ (hi + 1 - lo) + 1) := by ring
      _ ≤ _ := Nat.mul_le_mul_left _ hB
  calc _ < 2 ^ (hi + 1) + 2 ^ (hi + 1) * (n / 2 ^ (hi + 1)) := by omega
    _ = 2 ^ (hi + 1) * (n / 2 ^ (hi + 1) + 1) := by ring
    _ ≤ _ := Nat.mul_le_mul_left _ hq

/-! ### Registers -/

theorem rget_rset (s : State) (a b : Nat) (w : Word) : rget (rset s a w) b = if b = a then w else rget s b :=
  mapGet_mapSet regDefault s.regs a b w

@[simp] theorem rget_rset_same (s : State) (a : Nat) (w : Word) : rget (rset s a w) a = w := by simp [rget_rset]

theorem rget_rset_ne (s : State) {a b : Nat} (w : Word) (h : b ≠ a) : rget (rset s a w) b = rget s b := by
  rw [rget_rset, if_neg h]

/-- A register reads its stored word whatever the other state. -/
theorem rget_congr {s t : State} (h : t.regs = s.regs) (a : Nat) : rget t a = rget s a := by unfold rget; rw [h]
theorem rgetN_congr {s t : State} (h : t.regs = s.regs) (a : Nat) : rgetN t a = rgetN s a := by
  unfold rgetN; rw [rget_congr h]
theorem fget_congr {s t : State} (h : t.regs = s.regs) (a : Nat) (f : FieldRow) : fget t a f = fget s a f := by
  unfold fget; rw [rgetN_congr h]

theorem rgetN_lt (s : State) (a : Nat) : rgetN s a < 2 ^ 32 := (rget s a).isLt

theorem rgetN_rsetN (s : State) (a b n : Nat) :
    rgetN (rsetN s a n) b = if b = a then n % 2 ^ 32 else rgetN s b := by
  unfold rgetN rsetN
  rw [rget_rset]
  split <;> simp [w32]

@[simp] theorem rgetN_rsetN_same (s : State) (a n : Nat) : rgetN (rsetN s a n) a = n % 2 ^ 32 := by simp [rgetN_rsetN]

theorem rgetN_rsetN_ne (s : State) {a b : Nat} (n : Nat) (h : b ≠ a) : rgetN (rsetN s a n) b = rgetN s b := by
  rw [rgetN_rsetN, if_neg h]

/-- A field of a register reads as it was written. -/
theorem fget_fset_same (s : State) (a : Nat) (f : FieldRow) (v : Nat) (hf : f.hi < 32) (hl : f.lo ≤ f.hi + 1) :
    fget (fset s a f v) a f = v % 2 ^ (f.hi + 1 - f.lo) := by
  unfold fget fset
  rw [rgetN_rsetN_same, Nat.mod_eq_of_lt (withBits_lt _ _ _ _ 32 hf hl (rgetN_lt s a)), bitsOf_withBits]

/-- Writing a field leaves the other registers. -/
theorem rgetN_fset_ne (s : State) {a b : Nat} (f : FieldRow) (v : Nat) (h : b ≠ a) :
    rgetN (fset s a f v) b = rgetN s b := rgetN_rsetN_ne s _ h
theorem fget_fset_ne (s : State) {a b : Nat} (f g : FieldRow) (v : Nat) (h : b ≠ a) :
    fget (fset s a f v) b g = fget s b g := by unfold fget; rw [rgetN_fset_ne s f v h]
theorem fget_rsetN_ne (s : State) {a b : Nat} (g : FieldRow) (n : Nat) (h : b ≠ a) :
    fget (rsetN s a n) b g = fget s b g := by unfold fget; rw [rgetN_rsetN_ne s n h]

/-- Writing a field leaves the fields above and below it. -/
theorem fget_fset_field (s : State) (a : Nat) (f g : FieldRow) (v : Nat) (hf : f.hi < 32) (hl : f.lo ≤ f.hi + 1)
    (h : f.hi < g.lo ∨ g.hi < f.lo) : fget (fset s a f v) a g = fget s a g := by
  unfold fget fset
  rw [rgetN_rsetN_same, Nat.mod_eq_of_lt (withBits_lt _ _ _ _ 32 hf hl (rgetN_lt s a))]
  rcases h with h | h
  · exact bitsOf_withBits_above _ _ _ _ _ _ h hl
  · exact bitsOf_withBits_below _ _ _ _ _ _ h

/-- A counter that saturates. -/
theorem rgetN_countN_same (s : State) (a n : Nat) : rgetN (countN s a n) a = min 0xFFFFFFFF (rgetN s a + n) := by
  unfold countN
  rw [rgetN_rsetN_same]
  exact Nat.mod_eq_of_lt (by have : min 0xFFFFFFFF (rgetN s a + n) ≤ 0xFFFFFFFF := Nat.min_le_left _ _; omega)
theorem rgetN_countN_ne (s : State) {a b : Nat} (n : Nat) (h : b ≠ a) : rgetN (countN s a n) b = rgetN s b :=
  rgetN_rsetN_ne s _ h
theorem rgetN_count_same (s : State) (a : Nat) : rgetN (count s a) a = min 0xFFFFFFFF (rgetN s a + 1) :=
  rgetN_countN_same s a 1
theorem rgetN_count_ne (s : State) {a b : Nat} (h : b ≠ a) : rgetN (count s a) b = rgetN s b := rgetN_countN_ne s 1 h

end Sys2Proof.Laws
end

