-- ==== Sys2Proof/Laws/WithinOps.lean ====
section
/-! SUPPORT. What each operation of Machine/Ops.lean may change: one frame per operation. -/

namespace Sys2Proof.Machine

set_option Elab.async false
set_option linter.all false
set_option linter.tactic.unusedName false

theorem rset_within (s : State) (a0 a1) : Within [.regs] s (rset s a0 a1) := by
  unfold rset
  repeat' first
    | (with_reducible assumption)
    | (with_reducible exact Within.refl _ _)
    | (show Area.sub _ _ = true; rfl)
    | (extract_lets +onlyGivenNames t; first | (refine Within.cut [.regs] s t (fun h => ?_) ?_; rotate_left; subst t; rotate_right; clear_value t) | clear_value t)
    | refine Within.upd (h := ?_)

theorem rsetN_within (s : State) (a0 a1) : Within [.regs] s (rsetN s a0 a1) := (by unfold rsetN; exact rset_within ..)

theorem countN_within (s : State) (a0 a1) : Within [.regs] s (countN s a0 a1) := (by unfold countN; exact rsetN_within ..)

theorem count_within (s : State) (a0) : Within [.regs] s (count s a0) := (by unfold count; exact countN_within ..)

theorem fset_within (s : State) (a0 a1 a2) : Within [.regs] s (fset s a0 a1 a2) := (by unfold fset; exact rsetN_within ..)

theorem emit_within (s : State) (a0) : Within [] s (emit s a0) := by
  unfold emit
  repeat' first
    | (with_reducible assumption)
    | (with_reducible exact Within.refl _ _)
    | (show Area.sub _ _ = true; rfl)
    | (extract_lets +onlyGivenNames t; first | (refine Within.cut [] s t (fun h => ?_) ?_; rotate_left; subst t; rotate_right; clear_value t) | clear_value t)
    | (with_reducible apply Within.ite)
    | split
    | refine Within.upd (h := ?_)

theorem mramWrite_within (s : State) (a0 a1) : Within [.mram] s (mramWrite s a0 a1) := by
  unfold mramWrite
  repeat' first
    | (with_reducible assumption)
    | (with_reducible exact Within.refl _ _)
    | (show Area.sub _ _ = true; rfl)
    | (extract_lets +onlyGivenNames t; first | (refine Within.cut [.mram] s t (fun h => ?_) ?_; rotate_left; subst t; rotate_right; clear_value t) | (have _h : Long := t) | clear_value t)
    | (with_reducible apply Within.ite)
    | split
    | refine Within.upd (h := ?_)

theorem setMode_within (s : State) (a0) : Within [.regs, .test] s (setMode s a0) := by
  unfold setMode
  repeat' first
    | (with_reducible assumption)
    | (with_reducible exact Within.refl _ _)
    | (show Area.sub _ _ = true; rfl)
    | (extract_lets +onlyGivenNames t; first | (refine Within.cut [.regs, .test] s t (fun h => ?_) ?_; rotate_left; subst t; rotate_right; clear_value t) | clear_value t)
    | (with_reducible apply Within.then (h' := fset_within ..))
    | split
    | refine Within.upd (h := ?_)

theorem spend_within (s : State) : Within [.fresh] s (spend s) := by
  unfold spend
  repeat' first
    | (with_reducible assumption)
    | (with_reducible exact Within.refl _ _)
    | (show Area.sub _ _ = true; rfl)
    | (extract_lets +onlyGivenNames t; first | (refine Within.cut [.fresh] s t (fun h => ?_) ?_; rotate_left; subst t; rotate_right; clear_value t) | clear_value t)
    | refine Within.upd (h := ?_)

theorem lifeAdd_within (s : State) (a0 a1) : Within [.life] s (lifeAdd s a0 a1) := by
  unfold lifeAdd
  repeat' first
    | (with_reducible assumption)
    | (with_reducible exact Within.refl _ _)
    | (show Area.sub _ _ = true; rfl)
    | (extract_lets +onlyGivenNames t; first | (refine Within.cut [.life] s t (fun h => ?_) ?_; rotate_left; subst t; rotate_right; clear_value t) | (have _h : Long := t) | clear_value t)
    | refine Within.upd (h := ?_)

theorem flashClear_within (s : State) (a0 a1) : Within [.flash] s (flashClear s a0 a1) := by
  unfold flashClear
  repeat' first
    | (with_reducible assumption)
    | (with_reducible exact Within.refl _ _)
    | (show Area.sub _ _ = true; rfl)
    | (extract_lets +onlyGivenNames t; first | (refine Within.cut [.flash] s t (fun h => ?_) ?_; rotate_left; subst t; rotate_right; clear_value t) | (have _h : Long := t) | clear_value t)
    | refine Within.upd (h := ?_)

theorem flashPut_within (s : State) (a0 a1) : Within [.flash] s (flashPut s a0 a1) := by
  unfold flashPut
  repeat' first
    | (with_reducible assumption)
    | (with_reducible exact Within.refl _ _)
    | (show Area.sub _ _ = true; rfl)
    | (extract_lets +onlyGivenNames t; first | (refine Within.cut [.flash] s t (fun h => ?_) ?_; rotate_left; subst t; rotate_right; clear_value t) | (have _h : Long := t) | clear_value t)
    | refine Within.upd (h := ?_)

theorem rset64_within (s : State) (a0 a1 a2) : Within [.regs] s (rset64 s a0 a1 a2) := by
  unfold rset64
  repeat' first
    | (with_reducible assumption)
    | (with_reducible exact Within.refl _ _)
    | (show Area.sub _ _ = true; rfl)
    | (with_reducible apply Within.then (h' := rsetN_within ..))

theorem mramHeal_within (a0 a1) (s : State) : Within [.mram] s (mramHeal a0 a1 s) := by
  unfold mramHeal
  repeat' first
    | (with_reducible assumption)
    | (with_reducible exact Within.refl _ _)
    | (show Area.sub _ _ = true; rfl)
    | (extract_lets +onlyGivenNames t; first | (refine Within.cut [.mram] s t (fun h => ?_) ?_; rotate_left; subst t; rotate_right; clear_value t) | (have _h : Long := t) | clear_value t)
    | refine Within.upd (h := ?_)

theorem wclkFall_within (s : State) : Within [.core] s (wclkFall s) := by
  unfold wclkFall
  repeat' first
    | (with_reducible assumption)
    | (with_reducible exact Within.refl _ _)
    | (show Area.sub _ _ = true; rfl)
    | (extract_lets +onlyGivenNames t; first | (refine Within.cut [.core] s t (fun h => ?_) ?_; rotate_left; subst t; rotate_right; clear_value t) | clear_value t)
    | (with_reducible apply Within.then (h' := emit_within ..))
    | (with_reducible apply Within.ite)
    | split
    | refine Within.upd (h := ?_)

theorem wclkRise_within (s : State) : Within [.core] s (wclkRise s) := by
  unfold wclkRise
  repeat' first
    | (with_reducible assumption)
    | (with_reducible exact Within.refl _ _)
    | (show Area.sub _ _ = true; rfl)
    | (extract_lets +onlyGivenNames t; first | (refine Within.cut [.core] s t (fun h => ?_) ?_; rotate_left; subst t; rotate_right; clear_value t) | clear_value t)
    | (with_reducible apply Within.then (h' := emit_within ..))
    | (with_reducible apply Within.then (h' := wclkFall_within ..))
    | refine Within.upd (h := ?_)

end Sys2Proof.Machine
end

