-- ==== Sys2Proof/Laws/WithinRaise.lean ====
section
/-! SUPPORT. What each operation of Machine/Raise.lean may change: one frame per operation. -/

namespace Sys2Proof.Machine

set_option Elab.async false
set_option linter.all false
set_option linter.tactic.unusedName false

theorem cycleBegin_within (s : State) : Within [.core] s (cycleBegin s) := by
  unfold cycleBegin
  repeat' first
    | (with_reducible assumption)
    | (with_reducible exact Within.refl _ _)
    | (show Area.sub _ _ = true; rfl)
    | (extract_lets +onlyGivenNames t; first | (refine Within.cut [.core] s t (fun h => ?_) ?_; rotate_left; subst t; rotate_right; clear_value t) | clear_value t)
    | refine Within.upd (h := ?_)

theorem cycleEnd_within (s t : State) : Within [.core] t (cycleEnd s t) := by
  unfold cycleEnd
  split
  · exact Within.upd (h := Within.refl _ _)
  · exact Within.refl _ _

theorem sendMsix_within (a0) (s : State) : Within [.regs] s (sendMsix a0 s) := by
  unfold sendMsix
  repeat' first
    | (with_reducible assumption)
    | (with_reducible exact Within.refl _ _)
    | (show Area.sub _ _ = true; rfl)
    | (extract_lets +onlyGivenNames t; first | (refine Within.cut [.regs] s t (fun h => ?_) ?_; rotate_left; subst t; rotate_right; clear_value t) | clear_value t)
    | (with_reducible apply Within.then (h' := emit_within ..))
    | (with_reducible apply Within.then (h' := rsetN_within ..))
    | (with_reducible apply Within.ite)
    | split

theorem groupVector_within (a0) (s : State) : Within [.regs, .core] s (groupVector a0 s) := by
  unfold groupVector
  repeat' first
    | (with_reducible assumption)
    | (with_reducible exact Within.refl _ _)
    | (show Area.sub _ _ = true; rfl)
    | (extract_lets +onlyGivenNames t; first | (refine Within.cut [.regs, .core] s t (fun h => ?_) ?_; rotate_left; subst t; rotate_right; clear_value t) | clear_value t)
    | (with_reducible apply Within.then (h' := sendMsix_within ..))
    | (with_reducible apply Within.ite)
    | split
    | refine Within.upd (h := ?_)

theorem refreshHealth_within (s : State) : Within [.regs, .core] s (refreshHealth s) := by
  unfold refreshHealth
  repeat' first
    | (with_reducible assumption)
    | (with_reducible exact Within.refl _ _)
    | (show Area.sub _ _ = true; rfl)
    | (extract_lets +onlyGivenNames t; first | (refine Within.cut [.regs, .core] s t (fun h => ?_) ?_; rotate_left; subst t; rotate_right; clear_value t) | clear_value t)
    | (with_reducible apply Within.then (h' := fset_within ..))
    | refine Within.upd (h := ?_)

theorem refreshPins_within (s : State) : Within [.regs, .core] s (refreshPins s) := by
  unfold refreshPins
  repeat' first
    | (with_reducible assumption)
    | (with_reducible exact Within.refl _ _)
    | (show Area.sub _ _ = true; rfl)
    | (extract_lets +onlyGivenNames t; first | (refine Within.cut [.regs, .core] s t (fun h => ?_) ?_; rotate_left; subst t; rotate_right; clear_value t) | clear_value t)
    | (with_reducible apply Within.then (h' := fset_within ..))
    | (with_reducible apply Within.then (h' := refreshHealth_within ..))
    | (with_reducible apply Within.then (h' := rsetN_within ..))
    | (with_reducible apply Within.ite)
    | split
    | refine Within.upd (h := ?_)

theorem raiseCounted_within (a0) (s : State) : Within [.regs, .core] s (raiseCounted a0 s) := by
  unfold raiseCounted
  repeat' first
    | (with_reducible assumption)
    | (with_reducible exact Within.refl _ _)
    | (show Area.sub _ _ = true; rfl)
    | (extract_lets +onlyGivenNames t; first | (refine Within.cut [.regs, .core] s t (fun h => ?_) ?_; rotate_left; subst t; rotate_right; clear_value t) | clear_value t)
    | (with_reducible apply Within.then (h' := count_within ..))
    | (with_reducible apply Within.then (h' := fset_within ..))
    | (with_reducible apply Within.then (h' := groupVector_within ..))
    | (with_reducible apply Within.then (h' := refreshPins_within ..))
    | (with_reducible apply Within.then (h' := rsetN_within ..))
    | (with_reducible apply Within.ite)
    | split

theorem raiseNoRecord_within (a0) (s : State) : Within [.regs, .core] s (raiseNoRecord a0 s) := by
  unfold raiseNoRecord
  repeat' first
    | (with_reducible assumption)
    | (with_reducible exact Within.refl _ _)
    | (show Area.sub _ _ = true; rfl)
    | (with_reducible apply Within.then (h' := raiseCounted_within ..))
    | (with_reducible apply Within.ite)
    | split

theorem queueRec_within (a0) (s : State) : Within [.regs, .core, .pat] s (queueRec a0 s) := by
  unfold queueRec
  repeat' first
    | (with_reducible assumption)
    | (with_reducible exact Within.refl _ _)
    | (show Area.sub _ _ = true; rfl)
    | (extract_lets +onlyGivenNames t; first | (refine Within.cut [.regs, .core, .pat] s t (fun h => ?_) ?_; rotate_left; subst t; rotate_right; clear_value t) | clear_value t)
    | (with_reducible apply Within.then (h' := count_within ..))
    | (with_reducible apply Within.then (h' := fset_within ..))
    | (with_reducible apply Within.then (h' := raiseNoRecord_within ..))
    | (with_reducible apply Within.ite)
    | split
    | refine Within.upd (h := ?_)

theorem raise_within (a0 a1) (s : State) : Within [.regs, .core, .pat] s (raise a0 a1 s) := by
  unfold raise
  repeat' first
    | (with_reducible assumption)
    | (with_reducible exact Within.refl _ _)
    | (show Area.sub _ _ = true; rfl)
    | (extract_lets +onlyGivenNames t; first | (refine Within.cut [.regs, .core, .pat] s t (fun h => ?_) ?_; rotate_left; subst t; rotate_right; clear_value t) | clear_value t)
    | (with_reducible apply Within.then (h' := cycleBegin_within ..))
    | (with_reducible apply Within.then (h' := cycleEnd_within ..))
    | (with_reducible apply Within.then (h' := queueRec_within ..))
    | (with_reducible apply Within.then (h' := raiseCounted_within ..))
    | (with_reducible apply Within.ite)
    | split

theorem clearFaults_within (a0 a1) (s : State) : Within [.regs, .core] s (clearFaults a0 a1 s) := by
  unfold clearFaults
  repeat' first
    | intro _
    | (with_reducible assumption)
    | (with_reducible exact Within.refl _ _)
    | (show Area.sub _ _ = true; rfl)
    | (extract_lets +onlyGivenNames t; first | (refine Within.cut [.regs, .core] s t (fun h => ?_) ?_; rotate_left; subst t; rotate_right; clear_value t) | clear_value t)
    | (with_reducible apply Within.then (h' := refreshPins_within ..))
    | (with_reducible apply Within.then (h' := rsetN_within ..))
    | (with_reducible apply Within.ite)
    | (with_reducible apply Within.foldl)
    | split

theorem logEvent_within (a0 a1) (s : State) : Within [.regs, .core, .pat] s (logEvent a0 a1 s) := (by unfold logEvent; exact queueRec_within ..)

theorem condBegin_within (a0 a1) (s : State) : Within [.regs, .core, .pat] s (condBegin a0 a1 s) := by
  unfold condBegin
  repeat' first
    | (with_reducible assumption)
    | (with_reducible exact Within.refl _ _)
    | (show Area.sub _ _ = true; rfl)
    | (extract_lets +onlyGivenNames t; first | (refine Within.cut [.regs, .core, .pat] s t (fun h => ?_) ?_; rotate_left; subst t; rotate_right; clear_value t) | clear_value t)
    | (with_reducible apply Within.then (h' := raise_within ..))
    | (with_reducible apply Within.ite)
    | split
    | refine Within.upd (h := ?_)

theorem condEnd_within (a0) (s : State) : Within [.pat] s (condEnd a0 s) := by
  unfold condEnd
  repeat' first
    | (with_reducible assumption)
    | (with_reducible exact Within.refl _ _)
    | (show Area.sub _ _ = true; rfl)
    | (extract_lets +onlyGivenNames t; first | (refine Within.cut [.pat] s t (fun h => ?_) ?_; rotate_left; subst t; rotate_right; clear_value t) | clear_value t)
    | refine Within.upd (h := ?_)

theorem condSet_within (a0 a1 a2) (s : State) : Within [.regs, .core, .pat] s (condSet a0 a1 a2 s) := by
  unfold condSet
  repeat' first
    | (with_reducible assumption)
    | (with_reducible exact Within.refl _ _)
    | (show Area.sub _ _ = true; rfl)
    | (with_reducible apply Within.then (h' := condBegin_within ..))
    | (with_reducible apply Within.then (h' := condEnd_within ..))
    | (with_reducible apply Within.ite)
    | split

theorem setBacklog_within (s : State) : Within [.regs] s (setBacklog s) := (by unfold setBacklog; exact rsetN_within ..)

theorem markDirty_within (a0) (s : State) : Within [.regs, .pat] s (markDirty a0 s) := by
  unfold markDirty
  repeat' first
    | (with_reducible assumption)
    | (with_reducible exact Within.refl _ _)
    | (show Area.sub _ _ = true; rfl)
    | (extract_lets +onlyGivenNames t; first | (refine Within.cut [.regs, .pat] s t (fun h => ?_) ?_; rotate_left; subst t; rotate_right; clear_value t) | clear_value t)
    | (with_reducible apply Within.then (h' := setBacklog_within ..))
    | (with_reducible apply Within.ite)
    | split
    | refine Within.upd (h := ?_)

theorem mramCorrected_within (s : State) : Within [.regs, .core, .pat] s (mramCorrected s) := by
  unfold mramCorrected
  repeat' first
    | (with_reducible assumption)
    | (with_reducible exact Within.refl _ _)
    | (show Area.sub _ _ = true; rfl)
    | (with_reducible apply Within.then (h' := count_within ..))
    | (with_reducible apply Within.then (h' := raise_within ..))

theorem mramUncorr_within (s : State) : Within [.regs, .core, .pat] s (mramUncorr s) := by
  unfold mramUncorr
  repeat' first
    | (with_reducible assumption)
    | (with_reducible exact Within.refl _ _)
    | (show Area.sub _ _ = true; rfl)
    | (with_reducible apply Within.then (h' := count_within ..))
    | (with_reducible apply Within.then (h' := raise_within ..))

theorem sendDone_within (a0) (s : State) : Within [.regs] s (sendDone a0 s) := by
  unfold sendDone
  repeat' first
    | (with_reducible assumption)
    | (with_reducible exact Within.refl _ _)
    | (show Area.sub _ _ = true; rfl)
    | (with_reducible apply Within.then (h' := sendMsix_within ..))
    | (with_reducible apply Within.ite)
    | split

end Sys2Proof.Machine
end

