-- ==== Sys2Proof/Laws/WithinAccess.lean ====
section
/-! SUPPORT. What each operation of Machine/Access.lean may change: one frame per operation. -/

namespace Sys2Proof.Machine

set_option Elab.async false
set_option linter.all false
set_option linter.tactic.unusedName false

theorem holdReq_within (a0) (s : State) : Within [.regs, .fab] s (holdReq a0 s) := by
  unfold holdReq
  repeat' first
    | (with_reducible assumption)
    | (with_reducible exact Within.refl _ _)
    | (show Area.sub _ _ = true; rfl)
    | (extract_lets +onlyGivenNames t; first | (refine Within.cut [.regs, .fab] s t (fun h => ?_) ?_; rotate_left; subst t; rotate_right; clear_value t) | clear_value t)
    | (with_reducible apply Within.then (h' := count_within ..))
    | split
    | refine Within.upd (h := ?_)

theorem grantTo_within (a0 a1) (s : State) : Within [.fab] s (grantTo a0 a1 s) := by
  unfold grantTo
  repeat' first
    | (with_reducible assumption)
    | (with_reducible exact Within.refl _ _)
    | (show Area.sub _ _ = true; rfl)
    | (extract_lets +onlyGivenNames t; first | (refine Within.cut [.fab] s t (fun h => ?_) ?_; rotate_left; subst t; rotate_right; clear_value t) | clear_value t)
    | refine Within.upd (h := ?_)

theorem outstStep_within (a0 a1 a2) (s : State) : Within [.regs] s (outstStep a0 a1 a2 s) := by
  unfold outstStep
  repeat' first
    | (with_reducible assumption)
    | (with_reducible exact Within.refl _ _)
    | (show Area.sub _ _ = true; rfl)
    | (extract_lets +onlyGivenNames t; first | (refine Within.cut [.regs] s t (fun h => ?_) ?_; rotate_left; subst t; rotate_right; clear_value t) | clear_value t)
    | (with_reducible apply Within.then (h' := fset_within ..))
    | (with_reducible apply Within.ite)
    | split

theorem refreshOutst_within (s : State) : Within [.regs] s (refreshOutst s) := by
  unfold refreshOutst
  repeat' first
    | intro _
    | (with_reducible assumption)
    | (with_reducible exact Within.refl _ _)
    | (show Area.sub _ _ = true; rfl)
    | (extract_lets +onlyGivenNames t; first | (refine Within.cut [.regs] s t (fun h => ?_) ?_; rotate_left; subst t; rotate_right; clear_value t) | clear_value t)
    | (with_reducible apply Within.then (h' := fset_within ..))
    | (with_reducible apply Within.ite)
    | (with_reducible apply Within.foldl)
    | split

theorem hangOn_within (a0 a1 a2 a3) (s : State) : Within [.regs, .fab] s (hangOn a0 a1 a2 a3 s) := by
  unfold hangOn
  repeat' first
    | (with_reducible assumption)
    | (with_reducible exact Within.refl _ _)
    | (show Area.sub _ _ = true; rfl)
    | (extract_lets +onlyGivenNames t; first | (refine Within.cut [.regs, .fab] s t (fun h => ?_) ?_; rotate_left; subst t; rotate_right; clear_value t) | clear_value t)
    | (with_reducible apply Within.then (h' := outstStep_within ..))
    | (with_reducible apply Within.then (h' := refreshOutst_within ..))
    | refine Within.upd (h := ?_)

theorem hostRead_within {w : List Area} {m a : Nat} {eff : State → Nat × State} {s u : State}
    (hb : Area.sub [.regs, .fab] w = true) (hu : Within w s u) (h : ∀ t, Within w s t → Within w s (eff t).2) :
    Within w s (hostRead m a eff u) := by
  unfold hostRead
  split
  · exact (h _ (hu.then ((grantTo_within ..).mono (w := [.regs, .fab]) rfl) hb)).then ((emit_within ..).mono (w := [.regs, .fab]) rfl) hb
  · exact hu
  · exact hu.then ((emit_within ..).mono (w := [.regs, .fab]) rfl) hb
  · exact hu.then ((holdReq_within ..).mono (w := [.regs, .fab]) rfl) hb
  · exact hu.then ((emit_within ..).mono (w := [.regs, .fab]) rfl) hb
  · exact hu.then ((hangOn_within ..).mono (w := [.regs, .fab]) rfl) hb

theorem latchPairs_within (a0 a1) (s : State) : Within [.fab] s (latchPairs a0 a1 s) := by
  unfold latchPairs
  repeat' first
    | intro _
    | (with_reducible assumption)
    | (with_reducible exact Within.refl _ _)
    | (show Area.sub _ _ = true; rfl)
    | (extract_lets +onlyGivenNames t; first | (refine Within.cut [.fab] s t (fun h => ?_) ?_; rotate_left; subst t; rotate_right; clear_value t) | clear_value t)
    | (with_reducible apply Within.ite)
    | (with_reducible apply Within.foldl)
    | split
    | refine Within.upd (h := ?_)

theorem plainRead_within (a0 a1) (s : State) : Within [.regs, .fab] s (plainRead a0 a1 s).2 := by
  unfold plainRead
  repeat' first
    | (with_reducible assumption)
    | (with_reducible exact Within.refl _ _)
    | (show Area.sub _ _ = true; rfl)
    | (extract_lets +onlyGivenNames t; first | (refine Within.cut [.regs, .fab] s t (fun h => ?_) ?_; rotate_left; subst t; rotate_right; clear_value t) | (refine Within.cut [.regs, .fab] s t.2 (fun h => ?_) ?_; rotate_left; subst t; rotate_right; clear_value t) | clear_value t)
    | (with_reducible apply Within.then (h' := latchPairs_within ..))
    | (with_reducible apply Within.then (h' := rsetN_within ..))

theorem mirrorSend_within (a0 a1) (s : State) : Within [.pair] s (mirrorSend a0 a1 s) := by
  unfold mirrorSend
  repeat' first
    | (with_reducible assumption)
    | (with_reducible exact Within.refl _ _)
    | (show Area.sub _ _ = true; rfl)
    | (extract_lets +onlyGivenNames t; first | (refine Within.cut [.pair] s t (fun h => ?_) ?_; rotate_left; subst t; rotate_right; clear_value t) | clear_value t)
    | (with_reducible apply Within.then (h' := emit_within ..))
    | refine Within.upd (h := ?_)

theorem mirroredWrite_within {w : List Area} {m a : Nat} {x : Word} {eff : State → State} {s u : State}
    (hb : Area.sub [.regs, .pair] w = true) (hu : Within w s u) (h : ∀ t, Within w s t → Within w s (eff t)) :
    Within w s (mirroredWrite m a x eff u) := by
  unfold mirroredWrite
  split
  · exact h u hu
  · split
    · exact hu.then ((count_within ..).mono (w := [.regs, .pair]) rfl) hb
    · split
      · refine hu.then (v := [.regs, .pair]) ?_ hb
        have h1 := mirrorSend_within mkJournal [2, a, x.toNat, lo32 ((audSc u + 6) % 2 ^ 64), hi32 ((audSc u + 6) % 2 ^ 64), m] u
        exact Within.upd (h := h1.mono rfl)
      · exact h u hu

theorem hostWrite_within {w : List Area} {m a : Nat} {x : Word} {eff : State → State} {s u : State}
    (hb : Area.sub [.regs, .fab, .pair] w = true) (hu : Within w s u) (h : ∀ t, Within w s t → Within w s (eff t)) :
    Within w s (hostWrite m a x eff u) := by
  have hw := List.all_eq_true.1 hb
  unfold hostWrite
  split
  · refine mirroredWrite_within ?_ (hu.then ((grantTo_within ..).mono (w := [.regs, .fab, .pair]) rfl) hb) h
    exact List.all_eq_true.2 (fun p hp => hw p (by rcases List.mem_cons.1 hp with rfl | hp; · simp
                                                   · simp at hp; subst hp; simp))
  · exact hu
  · exact hu.then ((emit_within ..).mono (w := [.regs, .fab, .pair]) rfl) hb
  · exact hu.then ((holdReq_within ..).mono (w := [.regs, .fab, .pair]) rfl) hb
  · exact hu
  · exact hu.then ((hangOn_within ..).mono (w := [.regs, .fab, .pair]) rfl) hb

theorem refuse_within (a0 a1 a2 a3) (s : State) : Within [.regs, .core, .pat] s (refuse a0 a1 a2 a3 s) := by
  unfold refuse
  repeat' first
    | (with_reducible assumption)
    | (with_reducible exact Within.refl _ _)
    | (show Area.sub _ _ = true; rfl)
    | (extract_lets +onlyGivenNames t; first | (refine Within.cut [.regs, .core, .pat] s t (fun h => ?_) ?_; rotate_left; subst t; rotate_right; clear_value t) | clear_value t)
    | (with_reducible apply Within.then (h' := count_within ..))
    | (with_reducible apply Within.then (h' := fset_within ..))
    | (with_reducible apply Within.then (h' := raise_within ..))
    | (with_reducible apply Within.then (h' := rsetN_within ..))
    | (with_reducible apply Within.ite)
    | split
    | refine Within.upd (h := ?_)

theorem plainWrite_within (a0 a1) (s : State) : Within [.regs] s (plainWrite a0 a1 s) := (by unfold plainWrite; exact rsetN_within ..)

theorem issueReq_within (a0 a1 a2) (s : State) : Within [.regs, .fab] s (issueReq a0 a1 a2 s) := by
  unfold issueReq
  repeat' first
    | (with_reducible assumption)
    | (with_reducible exact Within.refl _ _)
    | (show Area.sub _ _ = true; rfl)
    | (extract_lets +onlyGivenNames t; first | (refine Within.cut [.regs, .fab] s t (fun h => ?_) ?_; rotate_left; subst t; rotate_right; clear_value t) | clear_value t)
    | (with_reducible apply Within.then (h' := outstStep_within ..))
    | (with_reducible apply Within.then (h' := refreshOutst_within ..))
    | refine Within.upd (h := ?_)

theorem answerReq_within (a0 a1 a2) (s : State) : Within [.regs, .fab] s (answerReq a0 a1 a2 s) := by
  unfold answerReq
  repeat' first
    | (with_reducible assumption)
    | (with_reducible exact Within.refl _ _)
    | (show Area.sub _ _ = true; rfl)
    | (extract_lets +onlyGivenNames t; first | (refine Within.cut [.regs, .fab] s t (fun h => ?_) ?_; rotate_left; subst t; rotate_right; clear_value t) | clear_value t)
    | (with_reducible apply Within.then (h' := outstStep_within ..))
    | (with_reducible apply Within.then (h' := refreshOutst_within ..))
    | (with_reducible apply Within.ite)
    | split
    | refine Within.upd (h := ?_)

theorem setFiltered_within (a0 a1) (s : State) : Within [.core] s (setFiltered a0 a1 s) := by
  unfold setFiltered
  repeat' first
    | (with_reducible assumption)
    | (with_reducible exact Within.refl _ _)
    | (show Area.sub _ _ = true; rfl)
    | (extract_lets +onlyGivenNames t; first | (refine Within.cut [.core] s t (fun h => ?_) ?_; rotate_left; subst t; rotate_right; clear_value t) | clear_value t)
    | refine Within.upd (h := ?_)

end Sys2Proof.Machine
end

