-- ==== Sys2Proof/Laws/RegFrame.lean ====
section
/-! SUPPORT. Which registers the shared operations may write: the rules of OnlyRegs, and the raise. -/

set_option Elab.async false

namespace Sys2Proof.Machine

open Sys2Proof.Laws

variable {P Q : Nat → Prop} {s t u : State}

theorem OnlyRegs.refl (P : Nat → Prop) (s : State) : OnlyRegs P s s := fun _ _ => rfl

theorem OnlyRegs.trans (h : OnlyRegs P s t) (k : OnlyRegs P t u) : OnlyRegs P s u :=
  fun a ha => (k a ha).trans (h a ha)

theorem OnlyRegs.mono (h : OnlyRegs Q s t) (k : ∀ a, Q a → P a) : OnlyRegs P s t := fun a ha => h a (fun q => ha (k a q))

/-- Anything that leaves the register file alone. -/
theorem OnlyRegs.same (h : OnlyRegs P s t) (k : u.regs = t.regs) : OnlyRegs P s u :=
  fun a ha => (rget_congr k a).trans (h a ha)

theorem OnlyRegs.rset {a : Nat} {w : Word} (h : OnlyRegs P s t) (ha : P a) : OnlyRegs P s (rset t a w) :=
  fun b hb => (rget_rset_ne t w (fun (e : b = a) => hb (e ▸ ha))).trans (h b hb)
theorem OnlyRegs.rsetN {a n : Nat} (h : OnlyRegs P s t) (ha : P a) : OnlyRegs P s (rsetN t a n) := h.rset ha
theorem OnlyRegs.fset {a v : Nat} {f : FieldRow} (h : OnlyRegs P s t) (ha : P a) : OnlyRegs P s (fset t a f v) := h.rset ha
theorem OnlyRegs.countN {a n : Nat} (h : OnlyRegs P s t) (ha : P a) : OnlyRegs P s (countN t a n) := h.rset ha
theorem OnlyRegs.count {a : Nat} (h : OnlyRegs P s t) (ha : P a) : OnlyRegs P s (count t a) := h.rset ha
theorem OnlyRegs.rset64 {a b v : Nat} (h : OnlyRegs P s t) (ha : P a) (hb : P b) : OnlyRegs P s (rset64 t a b v) :=
  (h.rset ha).rset hb
theorem OnlyRegs.ite {c : Prop} [Decidable c] {x y : State} (hx : OnlyRegs P s x) (hy : OnlyRegs P s y) :
    OnlyRegs P s (if c then x else y) := by split <;> assumption
theorem OnlyRegs.foldl {α : Type} {g : State → α → State} {l : List α} (h : OnlyRegs P s t)
    (hg : ∀ v x, OnlyRegs P s v → OnlyRegs P s (g v x)) : OnlyRegs P s (l.foldl g t) := by
  induction l generalizing t with
  | nil => exact h
  | cons x l ih => exact ih (hg t x h)
theorem OnlyRegs.emit {o : Output} (h : OnlyRegs P s t) : OnlyRegs P s (emit t o) := h.same (emit_regs t o)
theorem OnlyRegs.spend (h : OnlyRegs P s t) : OnlyRegs P s (spend t) := h.same rfl

/-- A register outside the listed ones reads the same, its number and its fields too. -/
theorem OnlyRegs.num (h : OnlyRegs P s t) {a : Nat} (ha : ¬ P a) : rgetN t a = rgetN s a := by
  unfold rgetN; rw [h a ha]
theorem OnlyRegs.field (h : OnlyRegs P s t) {a : Nat} (ha : ¬ P a) (f : FieldRow) : fget t a f = fget s a f := by
  unfold fget; rw [h.num ha]
theorem OnlyRegs.bit (h : OnlyRegs P s t) {a : Nat} (ha : ¬ P a) (f : FieldRow) : fbit t a f = fbit s a f := by
  unfold fbit; rw [h.field ha]

/-- The registers that report a raise. -/
abbrev Alarm (a : Nat) : Prop := alarmReg a = true

theorem alarm_iff (a : Nat) : Alarm a ↔ (0x00100000 ≤ a ∧ a < 0x00200000) ∨ (0x02A00000 ≤ a ∧ a < 0x02C00000) ∨
    (0x03F00000 ≤ a ∧ a < 0x04000000) ∨ a = 0x02800004 ∨ (0x02C00068 ≤ a ∧ a ≤ 0x02C00074) := by
  simp only [Alarm, alarmReg, Reg.PAIR_STAT, Bool.or_eq_true, Bool.and_eq_true, decide_eq_true_eq, beq_iff_eq, or_assoc]

theorem alarm_fault {a : Nat} (h : 0x00100000 ≤ a) (k : a < 0x00200000) : Alarm a := by simp [Alarm, alarmReg, h, k]
theorem alarm_patina {a : Nat} (h : 0x02A00000 ≤ a) (k : a < 0x02C00000) : Alarm a := by simp [Alarm, alarmReg, h, k]
theorem alarm_msix {a : Nat} (h : 0x03F00000 ≤ a) (k : a < 0x04000000) : Alarm a := by simp [Alarm, alarmReg, h, k]

theorem sendMsix_regs {v : Nat} (hv : v < 64) (h : OnlyRegs Alarm s t) : OnlyRegs Alarm s (sendMsix v t) := by
  unfold sendMsix
  split
  · exact h
  · split
    · exact h.rsetN (alarm_msix (by simp only [Reg.MSIX_PBA]; omega) (by simp only [Reg.MSIX_PBA]; omega))
    · exact h.emit

theorem refreshHealth_regs (h : OnlyRegs Alarm s t) : OnlyRegs Alarm s (refreshHealth t) := by
  unfold refreshHealth
  exact ((h.fset (a := Reg.PAIR_STAT) rfl).fset (a := Reg.PAIR_STAT) rfl).same rfl

theorem refreshPins_regs (h : OnlyRegs Alarm s t) : OnlyRegs Alarm s (refreshPins t) := by
  unfold refreshPins
  exact refreshHealth_regs (((((h.rsetN (a := Reg.FAULT_SUMMARY_LO) rfl).fset (a := Reg.FAULT_ANY) rfl).fset
    (a := Reg.FAULT_ANY) rfl).fset (a := Reg.FAULT_ANY) rfl).same rfl)

theorem cycleBegin_regs (h : OnlyRegs P s t) : OnlyRegs P s (cycleBegin t) := h.same rfl
theorem cycleEnd_regs (h : OnlyRegs P s u) : OnlyRegs P s (cycleEnd t u) := by
  unfold cycleEnd
  exact OnlyRegs.ite (h.same rfl) h
theorem groupVector_regs {g : Nat} (h : OnlyRegs Alarm s t) : OnlyRegs Alarm s (groupVector g t) := by
  have hv (x : State) (a : Nat) : fget x a Fld.FAULT_VEC_VEC < 64 := bitsOf_lt 5 0 _
  unfold groupVector
  split
  · exact sendMsix_regs (hv _ _) h
  · split
    · exact h
    · exact sendMsix_regs (hv _ _) (h.same rfl)
theorem raiseCounted_regs {n : Nat} (hn : n < 1536) (h : OnlyRegs Alarm s t) : OnlyRegs Alarm s (raiseCounted n t) := by
  unfold raiseCounted
  have hs : Alarm (Reg.FAULT_STAT (n / 32)) :=
    alarm_fault (by simp only [Reg.FAULT_STAT]; omega) (by simp only [Reg.FAULT_STAT]; omega)
  have hc : Alarm (Reg.FAULT_CNT n) :=
    alarm_fault (by simp only [Reg.FAULT_CNT]; omega) (by simp only [Reg.FAULT_CNT]; omega)
  have key := refreshPins_regs ((((((h.rsetN (n := withBits (n % 32) (n % 32) 1 (rgetN t (Reg.FAULT_STAT (n / 32)))) hs).count
    hc).count (a := Reg.FAULT_RAISES) rfl).fset (a := Reg.FAULT_LAST) (f := Fld.FAULT_LAST_SRC) (v := n) rfl).fset
    (a := Reg.FAULT_LAST) (f := Fld.FAULT_LAST_SEV) (v := faultSev t n) rfl))
  dsimp only
  split
  · exact groupVector_regs key
  · exact key

theorem raiseNoRecord_regs {n : Nat} (hn : n < 1536) (h : OnlyRegs Alarm s t) : OnlyRegs Alarm s (raiseNoRecord n t) := by
  unfold raiseNoRecord
  exact h.ite (raiseCounted_regs hn h)

theorem queueRec_regs {r : PatRec} (h : OnlyRegs Alarm s t) : OnlyRegs Alarm s (queueRec r t) := by
  unfold queueRec
  split
  · exact h
  · split
    · exact h.same rfl
    · dsimp only
      split
      · exact raiseNoRecord_regs (by decide) ((h.count (a := Reg.PAT_DROPPED) rfl).same rfl)
      · exact (h.fset (a := Reg.PAT_TOKENS) rfl).same rfl

theorem logEvent_regs {e : Nat} {l : List Nat} (h : OnlyRegs Alarm s t) : OnlyRegs Alarm s (logEvent e l t) := queueRec_regs h

/-- A raise writes only the registers that report it. -/
theorem raise_regs {n : Nat} {l : List Nat} (hn : n < 1536) (h : OnlyRegs Alarm s t) : OnlyRegs Alarm s (raise n l t) := by
  unfold raise
  dsimp only
  split
  · exact h
  · refine cycleEnd_regs ?_
    split
    · exact queueRec_regs (raiseCounted_regs hn (cycleBegin_regs h))
    · exact raiseCounted_regs hn (cycleBegin_regs h)
theorem mramUncorr_regs (h : OnlyRegs Alarm s t) : OnlyRegs Alarm s (mramUncorr t) :=
  raise_regs (by decide) (h.count (a := Reg.PAT_MRAM_UNCORR) rfl)

theorem condBegin_regs {n : Nat} {l : List Nat} (hn : n < 1536) (h : OnlyRegs Alarm s t) :
    OnlyRegs Alarm s (condBegin n l t) := by
  unfold condBegin
  split
  · exact h
  · exact raise_regs hn (h.same rfl)
theorem condEnd_regs {n : Nat} (h : OnlyRegs Alarm s t) : OnlyRegs Alarm s (condEnd n t) := h.same rfl
theorem condSet_regs {n : Nat} {b : Bool} {l : List Nat} (hn : n < 1536) (h : OnlyRegs Alarm s t) :
    OnlyRegs Alarm s (condSet n b l t) := by
  unfold condSet
  exact OnlyRegs.ite (condBegin_regs hn h) (condEnd_regs h)
theorem markDirty_regs {k : KeepItem} (h : OnlyRegs Alarm s t) : OnlyRegs Alarm s (markDirty k t) := by
  unfold markDirty
  split
  · exact OnlyRegs.rsetN (a := Reg.PAT_KEEP_BACKLOG) (h.same rfl) rfl
  · exact h
theorem refuse_regs {m r i a : Nat} (h : OnlyRegs Alarm s t) : OnlyRegs Alarm s (refuse m r i a t) := by
  have key (b c d e f : Nat) : OnlyRegs Alarm s (rsetN (rsetN (fset (fset (fset t Reg.IMG_REFUSE_INFO
      Fld.IMG_REFUSE_INFO_MASTER b) Reg.IMG_REFUSE_INFO Fld.IMG_REFUSE_INFO_REASON c) Reg.IMG_REFUSE_INFO
      Fld.IMG_REFUSE_INFO_VALID d) Reg.IMG_REFUSE_RES e) Reg.IMG_REFUSE_ADDR f) :=
    ((((h.fset (a := Reg.IMG_REFUSE_INFO) rfl).fset (a := Reg.IMG_REFUSE_INFO) rfl).fset
      (a := Reg.IMG_REFUSE_INFO) rfl).rsetN (a := Reg.IMG_REFUSE_RES) rfl).rsetN (a := Reg.IMG_REFUSE_ADDR) rfl
  unfold refuse
  refine raise_regs (by decide) (OnlyRegs.count (a := Reg.IMG_REFUSE_COUNT) ?_ rfl)
  dsimp only
  split
  · exact h
  · split
    · exact (key _ _ _ _ _).same rfl
    · exact key _ _ _ _ _
theorem clearFaults_regs {g w : Nat} (hg : g < 48) (h : OnlyRegs Alarm s t) : OnlyRegs Alarm s (clearFaults g w t) := by
  unfold clearFaults
  exact refreshPins_regs (h.rsetN (alarm_fault (by simp only [Reg.FAULT_STAT]; omega) (by simp only [Reg.FAULT_STAT]; omega)))

/-- The contents of a part that a frame does not name. -/
theorem Within.part {w : List Area} (h : Within w s t) (p : Area) (hp : p ∉ w) : p.same s t := (h.same p).resolve_left hp

/-- Granting a request to the port of a target changes the fabric alone. -/
theorem grantTo_pairInUse (p m : Nat) (s : State) : pairInUse (grantTo p m s) = pairInUse s := rfl

/-- A write that reaches its block is granted there and is its block's effect; a read is granted, answers and is its block's
effect. -/
theorem hostWrite_reaches {m a : Nat} {w : Word} {eff : State → State} (h : Reaches s m a) :
    hostWrite m a w eff s = eff (grantTo (blockPort a) m s) := by
  obtain ⟨h1, h2⟩ := h
  unfold hostWrite
  rw [h1 true]
  unfold mirroredWrite
  rcases h2 with rfl | h2 | h2 <;> simp [grantTo_pairInUse, *]
theorem hostRead_reaches {m a : Nat} {eff : State → Nat × State} (h : gate s m false a = .pass) :
    hostRead m a eff s = emit (eff (grantTo (blockPort a) m s)).2 (.readData m a (w32 (eff (grantTo (blockPort a) m s)).1)) := by
  unfold hostRead
  rw [h]

end Sys2Proof.Machine
end

