-- ==== Sys2Proof/Laws/WithinTestFamily.lean ====
section
/-! SUPPORT. What each operation of Machine/TestFamily.lean may change: one frame per operation. -/

namespace Sys2Proof.Machine

set_option Elab.async false
set_option linter.all false
set_option linter.tactic.unusedName false

theorem refreshPert_within (s : State) : Within [.regs, .core, .pat] s (refreshPert s) := by
  unfold refreshPert
  repeat' first
    | (with_reducible assumption)
    | (with_reducible exact Within.refl _ _)
    | (show Area.sub _ _ = true; rfl)
    | (with_reducible apply Within.then (h' := condSet_within ..))
    | (with_reducible apply Within.then (h' := fset_within ..))

theorem clearPert_within (s : State) : Within [.regs, .core, .pat, .test] s (clearPert s) := by
  unfold clearPert
  repeat' first
    | intro _
    | (with_reducible assumption)
    | (with_reducible exact Within.refl _ _)
    | (show Area.sub _ _ = true; rfl)
    | (extract_lets +onlyGivenNames t; first | (refine Within.cut [.regs, .core, .pat, .test] s t (fun h => ?_) ?_; rotate_left; subst t; rotate_right; clear_value t) | clear_value t)
    | (with_reducible apply Within.then (h' := refreshPert_within ..))
    | (with_reducible apply Within.then (h' := rset_within ..))
    | (with_reducible apply Within.foldl)
    | refine Within.upd (h := ?_)

theorem refreshInj_within (s : State) : Within [.regs] s (refreshInj s) := by
  unfold refreshInj
  repeat' first
    | (with_reducible assumption)
    | (with_reducible exact Within.refl _ _)
    | (show Area.sub _ _ = true; rfl)
    | (extract_lets +onlyGivenNames t; first | (refine Within.cut [.regs] s t (fun h => ?_) ?_; rotate_left; subst t; rotate_right; clear_value t) | clear_value t)
    | (with_reducible apply Within.then (h' := fset_within ..))
    | split

theorem injEnd_within (a0) (s : State) : Within [.regs, .core, .pat, .test] s (injEnd a0 s) := by
  unfold injEnd
  repeat' first
    | (with_reducible assumption)
    | (with_reducible exact Within.refl _ _)
    | (show Area.sub _ _ = true; rfl)
    | (extract_lets +onlyGivenNames t; first | (refine Within.cut [.regs, .core, .pat, .test] s t (fun h => ?_) ?_; rotate_left; subst t; rotate_right; clear_value t) | clear_value t)
    | (with_reducible apply Within.then (h' := logEvent_within ..))
    | (with_reducible apply Within.then (h' := refreshInj_within ..))
    | split
    | refine Within.upd (h := ?_)

theorem leaveTest_within (s : State) : Within [.regs, .core, .pat, .test] s (leaveTest s) := by
  unfold leaveTest
  repeat' first
    | (with_reducible assumption)
    | (with_reducible exact Within.refl _ _)
    | (show Area.sub _ _ = true; rfl)
    | (extract_lets +onlyGivenNames t; first | (refine Within.cut [.regs, .core, .pat, .test] s t (fun h => ?_) ?_; rotate_left; subst t; rotate_right; clear_value t) | clear_value t)
    | (with_reducible apply Within.then (h' := clearPert_within ..))
    | (with_reducible apply Within.then (h' := fset_within ..))
    | (with_reducible apply Within.then (h' := injEnd_within ..))
    | (with_reducible apply Within.ite)
    | split

theorem testIgnored_within (s : State) : Within [.regs] s (testIgnored s) := by
  unfold testIgnored
  repeat' first
    | (with_reducible assumption)
    | (with_reducible exact Within.refl _ _)
    | (show Area.sub _ _ = true; rfl)
    | (with_reducible apply Within.then (h' := count_within ..))
    | (with_reducible apply Within.then (h' := fset_within ..))

theorem injCtrlWrite_within (a0) (s : State) : Within [.regs, .core, .pat, .test] s (injCtrlWrite a0 s) := by
  unfold injCtrlWrite
  repeat' first
    | (with_reducible assumption)
    | (with_reducible exact Within.refl _ _)
    | (show Area.sub _ _ = true; rfl)
    | (extract_lets +onlyGivenNames t; first | (refine Within.cut [.regs, .core, .pat, .test] s t (fun h => ?_) ?_; rotate_left; subst t; rotate_right; clear_value t) | clear_value t)
    | (with_reducible apply Within.then (h' := fset_within ..))
    | (with_reducible apply Within.then (h' := injEnd_within ..))
    | (with_reducible apply Within.then (h' := logEvent_within ..))
    | (with_reducible apply Within.then (h' := raise_within ..))
    | (with_reducible apply Within.then (h' := refreshInj_within ..))
    | (with_reducible apply Within.then (h' := testIgnored_within ..))
    | (with_reducible apply Within.ite)
    | split
    | refine Within.upd (h := ?_)

theorem pertWrite_within (a0 a1) (s : State) : Within [.regs, .core, .pat, .test] s (pertWrite a0 a1 s) := by
  unfold pertWrite
  repeat' first
    | (with_reducible assumption)
    | (with_reducible exact Within.refl _ _)
    | (show Area.sub _ _ = true; rfl)
    | (extract_lets +onlyGivenNames t; first | (refine Within.cut [.regs, .core, .pat, .test] s t (fun h => ?_) ?_; rotate_left; subst t; rotate_right; clear_value t) | clear_value t)
    | (with_reducible apply Within.then (h' := logEvent_within ..))
    | (with_reducible apply Within.then (h' := plainWrite_within ..))
    | (with_reducible apply Within.then (h' := refreshPert_within ..))
    | (with_reducible apply Within.then (h' := testIgnored_within ..))
    | (with_reducible apply Within.ite)
    | split
    | refine Within.upd (h := ?_)

theorem testWrite_within (a0 a1) (s : State) : Within [.regs, .core, .pat, .test] s (testWrite a0 a1 s) := by
  unfold testWrite
  repeat' first
    | (with_reducible assumption)
    | (with_reducible exact Within.refl _ _)
    | (show Area.sub _ _ = true; rfl)
    | (with_reducible apply Within.then (h' := injCtrlWrite_within ..))
    | (with_reducible apply Within.then (h' := pertWrite_within ..))
    | (with_reducible apply Within.then (h' := plainWrite_within ..))
    | (with_reducible apply Within.then (h' := testIgnored_within ..))
    | (with_reducible apply Within.ite)
    | split

theorem observe_within (a0 a1) (s : State) : Within [.regs, .core, .pat, .test] s (observe a0 a1 s).2 := by
  unfold observe
  repeat' first
    | (with_reducible assumption)
    | (with_reducible exact Within.refl _ _)
    | (show Area.sub _ _ = true; rfl)
    | (extract_lets +onlyGivenNames t; first | (refine Within.cut [.regs, .core, .pat, .test] s t (fun h => ?_) ?_; rotate_left; subst t; rotate_right; clear_value t) | (refine Within.cut [.regs, .core, .pat, .test] s t.2 (fun h => ?_) ?_; rotate_left; subst t; rotate_right; clear_value t) | clear_value t)
    | (with_reducible apply Within.then (h' := count_within ..))
    | (with_reducible apply Within.then (h' := injEnd_within ..))
    | (with_reducible apply Within.then (h' := refreshInj_within ..))
    | (with_reducible apply Within.ite)
    | (with_reducible apply Within.iteSnd)
    | split
    | refine Within.upd (h := ?_)

theorem secded_within (a0 a1 a2) (s : State) : Within [.regs, .core, .pat, .test] s (secded a0 a1 a2 s).2 := by
  unfold secded
  repeat' first
    | (with_reducible assumption)
    | (with_reducible exact Within.refl _ _)
    | (show Area.sub _ _ = true; rfl)
    | (extract_lets +onlyGivenNames t; first | (refine Within.cut [.regs, .core, .pat, .test] s t (fun h => ?_) ?_; rotate_left; subst t; rotate_right; clear_value t) | (refine Within.cut [.regs, .core, .pat, .test] s t.2 (fun h => ?_) ?_; rotate_left; subst t; rotate_right; clear_value t) | clear_value t)
    | (with_reducible apply Within.then (h' := observe_within ..))

theorem mramCheck_within (a0) (s : State) : Within [.regs, .core, .mram, .pat, .test] s (mramCheck a0 s) := by
  unfold mramCheck
  repeat' first
    | (with_reducible assumption)
    | (with_reducible exact Within.refl _ _)
    | (show Area.sub _ _ = true; rfl)
    | (extract_lets +onlyGivenNames t; first | (refine Within.cut [.regs, .core, .mram, .pat, .test] s t (fun h => ?_) ?_; rotate_left; subst t; rotate_right; clear_value t) | (refine Within.cut [.regs, .core, .mram, .pat, .test] s t.2 (fun h => ?_) ?_; rotate_left; subst t; rotate_right; clear_value t) | (have _h : Long := t) | clear_value t)
    | (with_reducible apply Within.then (h' := mramCorrected_within ..))
    | (with_reducible apply Within.then (h' := mramHeal_within ..))
    | (with_reducible apply Within.then (h' := mramUncorr_within ..))
    | (with_reducible apply Within.then (h' := secded_within ..))
    | (with_reducible apply Within.ite)
    | (with_reducible apply Within.iteSnd)
    | split

theorem mramRead_within (a0 a1) (s : State) : Within [.regs, .core, .mram, .pat, .test] s (mramRead a0 a1 s).2 := by
  unfold mramRead
  repeat' first
    | intro _
    | (with_reducible assumption)
    | (with_reducible exact Within.refl _ _)
    | (show Area.sub _ _ = true; rfl)
    | (extract_lets +onlyGivenNames t; first | (refine Within.cut [.regs, .core, .mram, .pat, .test] s t (fun h => ?_) ?_; rotate_left; subst t; rotate_right; clear_value t) | (refine Within.cut [.regs, .core, .mram, .pat, .test] s t.2 (fun h => ?_) ?_; rotate_left; subst t; rotate_right; clear_value t) | clear_value t)
    | (with_reducible apply Within.then (h' := mramCheck_within ..))
    | (with_reducible apply Within.ite)
    | (with_reducible apply Within.iteSnd)
    | (with_reducible apply Within.foldl)
    | (with_reducible apply Within.foldlSnd)
    | split

theorem checkFails_within (a0 a1 a2) (s : State) : Within [.regs, .core, .pat, .test] s (checkFails a0 a1 a2 s).2 := by
  unfold checkFails
  repeat' first
    | (with_reducible assumption)
    | (with_reducible exact Within.refl _ _)
    | (show Area.sub _ _ = true; rfl)
    | (extract_lets +onlyGivenNames t; first | (refine Within.cut [.regs, .core, .pat, .test] s t (fun h => ?_) ?_; rotate_left; subst t; rotate_right; clear_value t) | (refine Within.cut [.regs, .core, .pat, .test] s t.2 (fun h => ?_) ?_; rotate_left; subst t; rotate_right; clear_value t) | clear_value t)
    | (with_reducible apply Within.then (h' := observe_within ..))

theorem crcObserved_within (a0 a1 a2) (s : State) : Within [.regs, .core, .pat, .test] s (crcObserved a0 a1 a2 s).2 := by
  unfold crcObserved
  repeat' first
    | (with_reducible assumption)
    | (with_reducible exact Within.refl _ _)
    | (show Area.sub _ _ = true; rfl)
    | (extract_lets +onlyGivenNames t; first | (refine Within.cut [.regs, .core, .pat, .test] s t (fun h => ?_) ?_; rotate_left; subst t; rotate_right; clear_value t) | (refine Within.cut [.regs, .core, .pat, .test] s t.2 (fun h => ?_) ?_; rotate_left; subst t; rotate_right; clear_value t) | clear_value t)
    | (with_reducible apply Within.then (h' := observe_within ..))

theorem jtagDrive_within (s : State) : Within [] s (jtagDrive s) := by
  unfold jtagDrive
  repeat' first
    | (with_reducible assumption)
    | (with_reducible exact Within.refl _ _)
    | (show Area.sub _ _ = true; rfl)
    | (with_reducible apply Within.then (h' := emit_within ..))
    | (with_reducible apply Within.ite)
    | split

theorem jtagLoad_within (a0) (s : State) : Within [.test] s (jtagLoad a0 s) := by
  unfold jtagLoad
  repeat' first
    | (with_reducible assumption)
    | (with_reducible exact Within.refl _ _)
    | (show Area.sub _ _ = true; rfl)
    | (extract_lets +onlyGivenNames t; first | (refine Within.cut [.test] s t (fun h => ?_) ?_; rotate_left; subst t; rotate_right; clear_value t) | clear_value t)
    | (with_reducible apply Within.then (h' := emit_within ..))
    | (with_reducible apply Within.ite)
    | split
    | refine Within.upd (h := ?_)

theorem jtagReset_within (s : State) : Within [.test] s (jtagReset s) := by
  unfold jtagReset
  repeat' first
    | (with_reducible assumption)
    | (with_reducible exact Within.refl _ _)
    | (show Area.sub _ _ = true; rfl)
    | (extract_lets +onlyGivenNames t; first | (refine Within.cut [.test] s t (fun h => ?_) ?_; rotate_left; subst t; rotate_right; clear_value t) | clear_value t)
    | refine Within.upd (h := ?_)

theorem jtagScan_within (a0) (s : State) : Within [.test] s (jtagScan a0 s) := by
  unfold jtagScan
  repeat' first
    | (with_reducible assumption)
    | (with_reducible exact Within.refl _ _)
    | (show Area.sub _ _ = true; rfl)
    | (extract_lets +onlyGivenNames t; first | (refine Within.cut [.test] s t (fun h => ?_) ?_; rotate_left; subst t; rotate_right; clear_value t) | clear_value t)
    | (with_reducible apply Within.then (h' := emit_within ..))
    | (with_reducible apply Within.ite)
    | split
    | refine Within.upd (h := ?_)

theorem monDraw_within (a0) (s : State) : Within [.test] s (monDraw a0 s).2 := by
  unfold monDraw
  repeat' first
    | (with_reducible assumption)
    | (with_reducible exact Within.refl _ _)
    | (show Area.sub _ _ = true; rfl)
    | (extract_lets +onlyGivenNames t; first | (refine Within.cut [.test] s t (fun h => ?_) ?_; rotate_left; subst t; rotate_right; clear_value t) | (refine Within.cut [.test] s t.2 (fun h => ?_) ?_; rotate_left; subst t; rotate_right; clear_value t) | clear_value t)
    | (with_reducible apply Within.ite)
    | (with_reducible apply Within.iteSnd)
    | split
    | refine Within.upd (h := ?_)

end Sys2Proof.Machine
end

