-- ==== Sys2Proof/Laws/WithinQueueFamily.lean ====
section
/-! SUPPORT. What each operation of Machine/QueueFamily.lean may change: one frame per operation. -/

namespace Sys2Proof.Machine

set_option Elab.async false
set_option linter.all false
set_option linter.tactic.unusedName false

theorem queueRegWrite_within (a0 a1 a2 a3) (s : State) : Within [.regs, .core, .pat] s (queueRegWrite a0 a1 a2 a3 s) := by
  unfold queueRegWrite
  repeat' first
    | (with_reducible assumption)
    | (with_reducible exact Within.refl _ _)
    | (show Area.sub _ _ = true; rfl)
    | (with_reducible apply Within.then (h' := plainWrite_within ..))
    | (with_reducible apply Within.then (h' := refuse_within ..))
    | (with_reducible apply Within.ite)
    | split

theorem admitOne_within (a0) (s : State) : Within [.regs, .q] s (admitOne a0 s) := by
  unfold admitOne
  repeat' first
    | (with_reducible assumption)
    | (with_reducible exact Within.refl _ _)
    | (show Area.sub _ _ = true; rfl)
    | (extract_lets +onlyGivenNames t; first | (refine Within.cut [.regs, .q] s t (fun h => ?_) ?_; rotate_left; subst t; rotate_right; clear_value t) | clear_value t)
    | (with_reducible apply Within.then (h' := fset_within ..))
    | (with_reducible apply Within.ite)
    | split
    | refine Within.upd (h := ?_)

theorem admitAll_within (st k : Nat) (s : State) : Within [.regs, .q] s (admitAll st k s) := by
  induction k generalizing s with
  | zero => exact Within.refl _ _
  | succ k ih => exact Within.then ((admitOne_within ..).mono rfl) (ih _) rfl

theorem eccCorr_within (a0) (s : State) : Within [.regs, .core, .pat] s (eccCorr a0 s) := by
  unfold eccCorr
  repeat' first
    | (with_reducible assumption)
    | (with_reducible exact Within.refl _ _)
    | (show Area.sub _ _ = true; rfl)
    | (extract_lets +onlyGivenNames t; first | (refine Within.cut [.regs, .core, .pat] s t (fun h => ?_) ?_; rotate_left; subst t; rotate_right; clear_value t) | clear_value t)
    | (with_reducible apply Within.then (h' := count_within ..))
    | (with_reducible apply Within.then (h' := raise_within ..))
    | split

theorem eccUncorr_within (a0 a1 a2 a3) (s : State) : Within [.regs, .core, .pat] s (eccUncorr a0 a1 a2 a3 s) := by
  unfold eccUncorr
  repeat' first
    | (with_reducible assumption)
    | (with_reducible exact Within.refl _ _)
    | (show Area.sub _ _ = true; rfl)
    | (extract_lets +onlyGivenNames t; first | (refine Within.cut [.regs, .core, .pat] s t (fun h => ?_) ?_; rotate_left; subst t; rotate_right; clear_value t) | clear_value t)
    | (with_reducible apply Within.then (h' := count_within ..))
    | (with_reducible apply Within.then (h' := raise_within ..))
    | (with_reducible apply Within.then (h' := rsetN_within ..))

theorem wideCheck_within (a0 a1 a2 a3 a4 a5 a6) (s : State) : Within [.regs, .core, .pat, .test] s (wideCheck a0 a1 a2 a3 a4 a5 a6 s).2 := by
  unfold wideCheck
  repeat' first
    | intro _
    | (with_reducible assumption)
    | (with_reducible exact Within.refl _ _)
    | (show Area.sub _ _ = true; rfl)
    | (extract_lets +onlyGivenNames t; first | (refine Within.cut [.regs, .core, .pat, .test] s t (fun h => ?_) ?_; rotate_left; subst t; rotate_right; clear_value t) | (refine Within.cut [.regs, .core, .pat, .test] s t.2 (fun h => ?_) ?_; rotate_left; subst t; rotate_right; clear_value t) | clear_value t)
    | (with_reducible apply Within.then (h' := eccCorr_within ..))
    | (with_reducible apply Within.then (h' := eccUncorr_within ..))
    | (with_reducible apply Within.then (h' := secded_within ..))
    | (with_reducible apply Within.ite)
    | (with_reducible apply Within.iteSnd)
    | (with_reducible apply Within.foldl)
    | (with_reducible apply Within.foldlSnd)
    | split

theorem hbmCheck_within (a0 a1 a2) (s : State) : Within [.regs, .core, .pat, .test] s (hbmCheck a0 a1 a2 s).2 := (by unfold hbmCheck; exact wideCheck_within ..)

theorem putQ_within (a0 a1) (s : State) : Within [.q] s (putQ a0 a1 s) := by
  unfold putQ
  repeat' first
    | (with_reducible assumption)
    | (with_reducible exact Within.refl _ _)
    | (show Area.sub _ _ = true; rfl)
    | (extract_lets +onlyGivenNames t; first | (refine Within.cut [.q] s t (fun h => ?_) ?_; rotate_left; subst t; rotate_right; clear_value t) | clear_value t)
    | refine Within.upd (h := ?_)

theorem sideCheck_within (a0 a1) (s : State) : Within [.regs, .core, .pat, .test] s (sideCheck a0 a1 s).2 := by
  unfold sideCheck
  repeat' first
    | (with_reducible assumption)
    | (with_reducible exact Within.refl _ _)
    | (show Area.sub _ _ = true; rfl)
    | (extract_lets +onlyGivenNames t; first | (refine Within.cut [.regs, .core, .pat, .test] s t (fun h => ?_) ?_; rotate_left; subst t; rotate_right; clear_value t) | (refine Within.cut [.regs, .core, .pat, .test] s t.2 (fun h => ?_) ?_; rotate_left; subst t; rotate_right; clear_value t) | clear_value t)
    | (with_reducible apply Within.then (h' := eccCorr_within ..))
    | (with_reducible apply Within.then (h' := eccUncorr_within ..))
    | (with_reducible apply Within.then (h' := secded_within ..))
    | (with_reducible apply Within.ite)
    | (with_reducible apply Within.iteSnd)
    | split

theorem fetchCell_within (a0 a1 a2 a3 a4) (s : State) : Within [.regs, .core, .pat, .test, .q] s (fetchCell a0 a1 a2 a3 a4 s) := by
  unfold fetchCell
  repeat' first
    | intro _
    | (with_reducible assumption)
    | (with_reducible exact Within.refl _ _)
    | (show Area.sub _ _ = true; rfl)
    | (extract_lets +onlyGivenNames t; first | (refine Within.cut [.regs, .core, .pat, .test, .q] s t (fun h => ?_) ?_; rotate_left; subst t; rotate_right; clear_value t) | (refine Within.cut [.regs, .core, .pat, .test, .q] s t.2 (fun h => ?_) ?_; rotate_left; subst t; rotate_right; clear_value t) | clear_value t)
    | (with_reducible apply Within.then (h' := hbmCheck_within ..))
    | (with_reducible apply Within.then (h' := putQ_within ..))
    | (with_reducible apply Within.then (h' := sideCheck_within ..))
    | (with_reducible apply Within.ite)
    | (with_reducible apply Within.iteSnd)
    | (with_reducible apply Within.foldl)
    | (with_reducible apply Within.foldlSnd)
    | split
    | refine Within.upd (h := ?_)

theorem dataCheck_within (a0 a1 a2) (s : State) : Within [.regs, .core, .pat, .test, .q] s (dataCheck a0 a1 a2 s).2 := by
  unfold dataCheck
  repeat' first
    | (with_reducible assumption)
    | (with_reducible exact Within.refl _ _)
    | (show Area.sub _ _ = true; rfl)
    | (extract_lets +onlyGivenNames t; first | (refine Within.cut [.regs, .core, .pat, .test, .q] s t (fun h => ?_) ?_; rotate_left; subst t; rotate_right; clear_value t) | (refine Within.cut [.regs, .core, .pat, .test, .q] s t.2 (fun h => ?_) ?_; rotate_left; subst t; rotate_right; clear_value t) | clear_value t)
    | (with_reducible apply Within.then (h' := fetchCell_within ..))
    | (with_reducible apply Within.then (h' := hbmCheck_within ..))
    | (with_reducible apply Within.then (h' := putQ_within ..))
    | (with_reducible apply Within.then (h' := sideCheck_within ..))
    | (with_reducible apply Within.then (h' := wideCheck_within ..))
    | (with_reducible apply Within.ite)
    | (with_reducible apply Within.iteSnd)
    | split
    | refine Within.upd (h := ?_)

theorem freezeQ_within (a0) (s : State) : Within [.regs, .core, .pat, .q] s (freezeQ a0 s) := by
  unfold freezeQ
  repeat' first
    | (with_reducible assumption)
    | (with_reducible exact Within.refl _ _)
    | (show Area.sub _ _ = true; rfl)
    | (extract_lets +onlyGivenNames t; first | (refine Within.cut [.regs, .core, .pat, .q] s t (fun h => ?_) ?_; rotate_left; subst t; rotate_right; clear_value t) | clear_value t)
    | (with_reducible apply Within.then (h' := condBegin_within ..))
    | (with_reducible apply Within.then (h' := putQ_within ..))
    | refine Within.upd (h := ?_)

theorem touchQ_within (a0) (s : State) : Within [.regs, .core, .pat, .test, .q] s (touchQ a0 s) := by
  unfold touchQ
  repeat' first
    | (with_reducible assumption)
    | (with_reducible exact Within.refl _ _)
    | (show Area.sub _ _ = true; rfl)
    | (extract_lets +onlyGivenNames t; first | (refine Within.cut [.regs, .core, .pat, .test, .q] s t (fun h => ?_) ?_; rotate_left; subst t; rotate_right; clear_value t) | (refine Within.cut [.regs, .core, .pat, .test, .q] s t.2 (fun h => ?_) ?_; rotate_left; subst t; rotate_right; clear_value t) | clear_value t)
    | (with_reducible apply Within.then (h' := count_within ..))
    | (with_reducible apply Within.then (h' := cycleBegin_within ..))
    | (with_reducible apply Within.then (h' := cycleEnd_within ..))
    | (with_reducible apply Within.then (h' := freezeQ_within ..))
    | (with_reducible apply Within.then (h' := hbmCheck_within ..))
    | (with_reducible apply Within.then (h' := wideCheck_within ..))
    | (with_reducible apply Within.ite)
    | (with_reducible apply Within.iteSnd)
    | split
    | refine Within.upd (h := ?_)

theorem queueRead_within (a0 a1) (s : State) : Within [.regs, .core, .pat, .test, .q] s (queueRead a0 a1 s).2 := by
  unfold queueRead
  repeat' first
    | (with_reducible assumption)
    | (with_reducible exact Within.refl _ _)
    | (show Area.sub _ _ = true; rfl)
    | (extract_lets +onlyGivenNames t; first | (refine Within.cut [.regs, .core, .pat, .test, .q] s t (fun h => ?_) ?_; rotate_left; subst t; rotate_right; clear_value t) | (refine Within.cut [.regs, .core, .pat, .test, .q] s t.2 (fun h => ?_) ?_; rotate_left; subst t; rotate_right; clear_value t) | clear_value t)
    | (with_reducible apply Within.then (h' := dataCheck_within ..))
    | (with_reducible apply Within.then (h' := putQ_within ..))
    | (with_reducible apply Within.then (h' := touchQ_within ..))
    | (with_reducible apply Within.ite)
    | (with_reducible apply Within.iteSnd)
    | split

theorem portRead_within (a0 a1 a2) (s : State) : Within [.regs, .core, .pat, .test, .q] s (portRead a0 a1 a2 s) := by
  unfold portRead
  repeat' first
    | (with_reducible assumption)
    | (with_reducible exact Within.refl _ _)
    | (show Area.sub _ _ = true; rfl)
    | (extract_lets +onlyGivenNames t; first | (refine Within.cut [.regs, .core, .pat, .test, .q] s t (fun h => ?_) ?_; rotate_left; subst t; rotate_right; clear_value t) | (refine Within.cut [.regs, .core, .pat, .test, .q] s t.2 (fun h => ?_) ?_; rotate_left; subst t; rotate_right; clear_value t) | clear_value t)
    | (with_reducible apply Within.then (h' := count_within ..))
    | (with_reducible apply Within.then (h' := emit_within ..))
    | (with_reducible apply Within.then (h' := queueRead_within ..))
    | (with_reducible apply Within.ite)
    | (with_reducible apply Within.iteSnd)
    | split

theorem hbmRead_within (a0 a1 a2 a3) (s : State) : Within [.regs, .core, .pat, .test] s (hbmRead a0 a1 a2 a3 s).2 := by
  unfold hbmRead
  repeat' first
    | intro _
    | (with_reducible assumption)
    | (with_reducible exact Within.refl _ _)
    | (show Area.sub _ _ = true; rfl)
    | (extract_lets +onlyGivenNames t; first | (refine Within.cut [.regs, .core, .pat, .test] s t (fun h => ?_) ?_; rotate_left; subst t; rotate_right; clear_value t) | (refine Within.cut [.regs, .core, .pat, .test] s t.2 (fun h => ?_) ?_; rotate_left; subst t; rotate_right; clear_value t) | clear_value t)
    | (with_reducible apply Within.then (h' := hbmCheck_within ..))
    | (with_reducible apply Within.ite)
    | (with_reducible apply Within.iteSnd)
    | (with_reducible apply Within.foldl)
    | (with_reducible apply Within.foldlSnd)
    | split

theorem windowRead_within (a0 a1 a2) (s : State) : Within [.regs, .core, .mram, .pat, .test, .q] s (windowRead a0 a1 a2 s).2 := by
  unfold windowRead
  repeat' first
    | (with_reducible assumption)
    | (with_reducible exact Within.refl _ _)
    | (show Area.sub _ _ = true; rfl)
    | (extract_lets +onlyGivenNames t; first | (refine Within.cut [.regs, .core, .mram, .pat, .test, .q] s t (fun h => ?_) ?_; rotate_left; subst t; rotate_right; clear_value t) | (refine Within.cut [.regs, .core, .mram, .pat, .test, .q] s t.2 (fun h => ?_) ?_; rotate_left; subst t; rotate_right; clear_value t) | clear_value t)
    | (with_reducible apply Within.then (h' := hbmRead_within ..))
    | (with_reducible apply Within.then (h' := mramRead_within ..))
    | (with_reducible apply Within.then (h' := touchQ_within ..))
    | (with_reducible apply Within.ite)
    | (with_reducible apply Within.iteSnd)
    | split

theorem burstRead_within (a0 a1 a2) (s : State) : Within [.regs, .core, .mram, .pat, .fab, .test, .q] s (burstRead a0 a1 a2 s) := by
  unfold burstRead
  repeat' first
    | (with_reducible assumption)
    | (with_reducible exact Within.refl _ _)
    | (show Area.sub _ _ = true; rfl)
    | (extract_lets +onlyGivenNames t; first | (refine Within.cut [.regs, .core, .mram, .pat, .fab, .test, .q] s t (fun h => ?_) ?_; rotate_left; subst t; rotate_right; clear_value t) | (refine Within.cut [.regs, .core, .mram, .pat, .fab, .test, .q] s t.2 (fun h => ?_) ?_; rotate_left; subst t; rotate_right; clear_value t) | clear_value t)
    | (with_reducible apply Within.then (h' := count_within ..))
    | (with_reducible apply Within.then (h' := emit_within ..))
    | (with_reducible apply Within.then (h' := grantTo_within ..))
    | (with_reducible apply Within.then (h' := holdReq_within ..))
    | (with_reducible apply Within.then (h' := portRead_within ..))
    | (with_reducible apply Within.then (h' := windowRead_within ..))
    | (with_reducible apply Within.ite)
    | (with_reducible apply Within.iteSnd)
    | split
    | refine Within.upd (h := ?_)

theorem bar2Write_within {w : List Area} {mapped : Bool} {a : Nat} {bs : List Nat} {eff : State → State} {s u : State}
    (hb : Area.sub [.regs, .fab] w = true) (hu : Within w s u) (h : ∀ t, Within w s t → Within w s (eff t)) :
    Within w s (bar2Write mapped a bs eff u) := by
  unfold bar2Write
  split
  · exact h _ (hu.then ((grantTo_within ..).mono (w := [.regs, .fab]) rfl) hb)
  · exact hu.then ((emit_within ..).mono (w := [.regs, .fab]) rfl) hb
  · exact hu.then ((holdReq_within ..).mono (w := [.regs, .fab]) rfl) hb
  · exact hu

theorem capWrite_within (a0 a1) (s : State) : Within [.regs, .core, .pat, .test, .q, .fresh] s (capWrite a0 a1 s) := by
  unfold capWrite
  repeat' first
    | intro _
    | (with_reducible assumption)
    | (with_reducible exact Within.refl _ _)
    | (show Area.sub _ _ = true; rfl)
    | (extract_lets +onlyGivenNames t; first | (refine Within.cut [.regs, .core, .pat, .test, .q, .fresh] s t (fun h => ?_) ?_; rotate_left; subst t; rotate_right; clear_value t) | (have _h := fun x => (t x : State)) | (have _h := fun x y => (t x y : State)) | (have _h := fun x y z => (t x y z : State)) | clear_value t)
    | (with_reducible apply Within.then (h' := putQ_within ..))
    | (with_reducible apply Within.then (h' := refuse_within ..))
    | (with_reducible apply Within.then (h' := spend_within ..))
    | (with_reducible apply Within.then (h' := touchQ_within ..))
    | (with_reducible apply Within.ite)
    | (with_reducible apply Within.foldl)
    | split
    | refine Within.upd (h := ?_)

theorem blockReset_within (a0) (s : State) : Within [.eng, .comp] s (blockReset a0 s) := by
  unfold blockReset
  repeat' first
    | (with_reducible assumption)
    | (with_reducible exact Within.refl _ _)
    | (show Area.sub _ _ = true; rfl)
    | (extract_lets +onlyGivenNames t; first | (refine Within.cut [.eng, .comp] s t (fun h => ?_) ?_; rotate_left; subst t; rotate_right; clear_value t) | (have _h := fun x => (t x : State)) | (have _h := fun x y => (t x y : State)) | (have _h := fun x y z => (t x y z : State)) | clear_value t)
    | (with_reducible apply Within.ite)
    | split
    | refine Within.upd (h := ?_)

theorem freeCells_within (size k : Nat) (s : State) : Within [.fresh] s (freeCells size k s).2 := by
  induction k generalizing s with
  | zero => exact Within.refl _ _
  | succ k ih => exact Within.then ((spend_within s).mono rfl) (ih _) rfl

theorem syncCells_within (a0) (s : State) : Within [.q, .fresh] s (syncCells a0 s) := by
  unfold syncCells
  repeat' first
    | (with_reducible assumption)
    | (with_reducible exact Within.refl _ _)
    | (show Area.sub _ _ = true; rfl)
    | (extract_lets +onlyGivenNames t; first | (refine Within.cut [.q, .fresh] s t (fun h => ?_) ?_; rotate_left; subst t; rotate_right; clear_value t) | (refine Within.cut [.q, .fresh] s t.2 (fun h => ?_) ?_; rotate_left; subst t; rotate_right; clear_value t) | clear_value t)
    | (with_reducible apply Within.then (h' := freeCells_within ..))
    | (with_reducible apply Within.then (h' := putQ_within ..))
    | refine Within.upd (h := ?_)

theorem qOp_within (a0 a1) (s : State) : Within [.regs, .core, .pat, .test, .q, .fresh] s (qOp a0 a1 s) := by
  unfold qOp
  repeat' first
    | (with_reducible assumption)
    | (with_reducible exact Within.refl _ _)
    | (show Area.sub _ _ = true; rfl)
    | (extract_lets +onlyGivenNames t; first | (refine Within.cut [.regs, .core, .pat, .test, .q, .fresh] s t (fun h => ?_) ?_; rotate_left; subst t; rotate_right; clear_value t) | clear_value t)
    | (with_reducible apply Within.then (h' := putQ_within ..))
    | (with_reducible apply Within.then (h' := syncCells_within ..))
    | (with_reducible apply Within.then (h' := touchQ_within ..))
    | (with_reducible apply Within.ite)
    | split

theorem hostOp_within (a0 a1) (s : State) : Within [.regs, .core, .pat, .test, .q, .eng, .comp, .fresh] s (hostOp a0 a1 s) := by
  unfold hostOp
  repeat' first
    | (with_reducible assumption)
    | (with_reducible exact Within.refl _ _)
    | (show Area.sub _ _ = true; rfl)
    | (extract_lets +onlyGivenNames t; first | (refine Within.cut [.regs, .core, .pat, .test, .q, .eng, .comp, .fresh] s t (fun h => ?_) ?_; rotate_left; subst t; rotate_right; clear_value t) | clear_value t)
    | (with_reducible apply Within.then (h' := blockReset_within ..))
    | (with_reducible apply Within.then (h' := qOp_within ..))
    | (with_reducible apply Within.ite)
    | split

theorem queueWrite_within (a0 a1) (s : State) : Within [.regs, .core, .pat, .test, .q, .fresh] s (queueWrite a0 a1 s) := by
  unfold queueWrite
  repeat' first
    | (with_reducible assumption)
    | (with_reducible exact Within.refl _ _)
    | (show Area.sub _ _ = true; rfl)
    | (extract_lets +onlyGivenNames t; first | (refine Within.cut [.regs, .core, .pat, .test, .q, .fresh] s t (fun h => ?_) ?_; rotate_left; subst t; rotate_right; clear_value t) | (refine Within.cut [.regs, .core, .pat, .test, .q, .fresh] s t.2 (fun h => ?_) ?_; rotate_left; subst t; rotate_right; clear_value t) | clear_value t)
    | (with_reducible apply Within.then (h' := hbmCheck_within ..))
    | (with_reducible apply Within.then (h' := qOp_within ..))
    | (with_reducible apply Within.ite)
    | (with_reducible apply Within.iteSnd)
    | split

theorem portWrite_within (a0 a1 a2) (s : State) : Within [.regs, .core, .pat, .test, .q, .fresh] s (portWrite a0 a1 a2 s) := by
  unfold portWrite
  repeat' first
    | intro _
    | (with_reducible assumption)
    | (with_reducible exact Within.refl _ _)
    | (show Area.sub _ _ = true; rfl)
    | (extract_lets +onlyGivenNames t; first | (refine Within.cut [.regs, .core, .pat, .test, .q, .fresh] s t (fun h => ?_) ?_; rotate_left; subst t; rotate_right; clear_value t) | clear_value t)
    | (with_reducible apply Within.then (h' := count_within ..))
    | (with_reducible apply Within.then (h' := queueWrite_within ..))
    | (with_reducible apply Within.ite)
    | (with_reducible apply Within.foldl)
    | split

theorem qStatClear_within (a0 a1) (s : State) : Within [.regs, .core, .pat, .test, .q] s (qStatClear a0 a1 s) := by
  unfold qStatClear
  repeat' first
    | (with_reducible assumption)
    | (with_reducible exact Within.refl _ _)
    | (show Area.sub _ _ = true; rfl)
    | (extract_lets +onlyGivenNames t; first | (refine Within.cut [.regs, .core, .pat, .test, .q] s t (fun h => ?_) ?_; rotate_left; subst t; rotate_right; clear_value t) | clear_value t)
    | (with_reducible apply Within.then (h' := putQ_within ..))
    | (with_reducible apply Within.then (h' := touchQ_within ..))
    | (with_reducible apply Within.ite)
    | split
    | refine Within.upd (h := ?_)

theorem windowPut_within (a0 a1 a2) (s : State) : Within [.regs, .core, .pat, .test, .q, .eng, .comp, .fresh] s (windowPut a0 a1 a2 s) := by
  unfold windowPut
  repeat' first
    | (with_reducible assumption)
    | (with_reducible exact Within.refl _ _)
    | (show Area.sub _ _ = true; rfl)
    | (with_reducible apply Within.then (h' := capWrite_within ..))
    | (with_reducible apply Within.then (h' := count_within ..))
    | (with_reducible apply Within.then (h' := hostOp_within ..))
    | (with_reducible apply Within.then (h' := portWrite_within ..))
    | (with_reducible apply Within.then (h' := qStatClear_within ..))
    | (with_reducible apply Within.ite)
    | split

theorem burstWrite_within (a0 a1) (s : State) : Within [.regs, .core, .pat, .fab, .test, .q, .eng, .comp, .fresh] s (burstWrite a0 a1 s) := by
  unfold burstWrite
  repeat' first
    | intro _
    | (with_reducible assumption)
    | (with_reducible exact Within.refl _ _)
    | (show Area.sub _ _ = true; rfl)
    | (extract_lets +onlyGivenNames t; first | (refine Within.cut [.regs, .core, .pat, .fab, .test, .q, .eng, .comp, .fresh] s t (fun h => ?_) ?_; rotate_left; subst t; rotate_right; clear_value t) | clear_value t)
    | (with_reducible refine bar2Write_within ?_ ?_ (fun t => ?_))
    | (with_reducible apply Within.then (h' := windowPut_within ..))
    | (with_reducible apply Within.ite)
    | (with_reducible apply Within.foldl)
    | split
    | refine Within.upd (h := ?_)

theorem putRecord_within (a0 a1) (s : State) : Within [.regs, .core, .pat, .test, .q, .fresh] s (putRecord a0 a1 s) := by
  unfold putRecord
  repeat' first
    | intro _
    | (with_reducible assumption)
    | (with_reducible exact Within.refl _ _)
    | (show Area.sub _ _ = true; rfl)
    | (with_reducible apply Within.then (h' := qOp_within ..))
    | (with_reducible apply Within.then (h' := queueWrite_within ..))
    | (with_reducible apply Within.foldl)

theorem roomFor_within (a0 a1 a2) (s : State) : Within [.regs, .core, .pat, .test, .q] s (roomFor a0 a1 a2 s).2 := by
  unfold roomFor
  repeat' first
    | (with_reducible assumption)
    | (with_reducible exact Within.refl _ _)
    | (show Area.sub _ _ = true; rfl)
    | (extract_lets +onlyGivenNames t; first | (refine Within.cut [.regs, .core, .pat, .test, .q] s t (fun h => ?_) ?_; rotate_left; subst t; rotate_right; clear_value t) | (refine Within.cut [.regs, .core, .pat, .test, .q] s t.2 (fun h => ?_) ?_; rotate_left; subst t; rotate_right; clear_value t) | clear_value t)
    | (with_reducible apply Within.then (h' := touchQ_within ..))
    | (with_reducible apply Within.ite)
    | (with_reducible apply Within.iteSnd)
    | split

theorem queueMark_within (a0) (s : State) : Within [.regs, .core, .pat, .test, .q, .fresh] s (queueMark a0 s) := (by unfold queueMark; exact qOp_within ..)

theorem queueRelease_within (a0) (s : State) : Within [.regs, .core, .pat, .test, .q, .fresh] s (queueRelease a0 s) := (by unfold queueRelease; exact qOp_within ..)

theorem queueRewind_within (a0) (s : State) : Within [.regs, .core, .pat, .test, .q, .fresh] s (queueRewind a0 s) := (by unfold queueRewind; exact qOp_within ..)

theorem takeRecord_within (a0) (s : State) : Within [.regs, .core, .pat, .test, .q] s (takeRecord a0 s).2 := by
  unfold takeRecord
  repeat' first
    | intro _
    | (with_reducible assumption)
    | (with_reducible exact Within.refl _ _)
    | (show Area.sub _ _ = true; rfl)
    | (extract_lets +onlyGivenNames t; first | (refine Within.cut [.regs, .core, .pat, .test, .q] s t (fun h => ?_) ?_; rotate_left; subst t; rotate_right; clear_value t) | (refine Within.cut [.regs, .core, .pat, .test, .q] s t.2 (fun h => ?_) ?_; rotate_left; subst t; rotate_right; clear_value t) | clear_value t)
    | (with_reducible apply Within.then (h' := queueRead_within ..))
    | (with_reducible apply Within.then (h' := touchQ_within ..))
    | (with_reducible apply Within.ite)
    | (with_reducible apply Within.iteSnd)
    | (with_reducible apply Within.foldl)
    | (with_reducible apply Within.foldlSnd)
    | split

theorem storeOp_within (a0) (s : State) : Within [.regs, .core, .pat, .test, .q] s (storeOp a0 s).2 := by
  unfold storeOp
  repeat' first
    | (with_reducible assumption)
    | (with_reducible exact Within.refl _ _)
    | (show Area.sub _ _ = true; rfl)
    | (extract_lets +onlyGivenNames t; first | (refine Within.cut [.regs, .core, .pat, .test, .q] s t (fun h => ?_) ?_; rotate_left; subst t; rotate_right; clear_value t) | (refine Within.cut [.regs, .core, .pat, .test, .q] s t.2 (fun h => ?_) ?_; rotate_left; subst t; rotate_right; clear_value t) | clear_value t)
    | (with_reducible apply Within.then (h' := touchQ_within ..))
    | (with_reducible apply Within.ite)
    | (with_reducible apply Within.iteSnd)
    | split

theorem storeTake_within (a0) (s : State) : Within [.q] s (storeTake a0 s) := by
  unfold storeTake
  repeat' first
    | (with_reducible assumption)
    | (with_reducible exact Within.refl _ _)
    | (show Area.sub _ _ = true; rfl)
    | (extract_lets +onlyGivenNames t; first | (refine Within.cut [.q] s t (fun h => ?_) ?_; rotate_left; subst t; rotate_right; clear_value t) | clear_value t)
    | (with_reducible apply Within.ite)
    | split
    | refine Within.upd (h := ?_)

theorem touchBlock_within (a0) (s : State) : Within [.regs, .core, .pat, .test, .q] s (touchBlock a0 s) := by
  unfold touchBlock
  repeat' first
    | (with_reducible assumption)
    | (with_reducible exact Within.refl _ _)
    | (show Area.sub _ _ = true; rfl)
    | (with_reducible apply Within.then (h' := touchQ_within ..))
    | (with_reducible apply Within.ite)
    | split

theorem bar2Read_within (a0 a1 a2) (s : State) : Within [.regs, .core, .mram, .pat, .fab, .test, .q] s (bar2Read a0 a1 a2 s) := by
  unfold bar2Read
  repeat' first
    | intro _
    | (with_reducible assumption)
    | (with_reducible exact Within.refl _ _)
    | (show Area.sub _ _ = true; rfl)
    | (with_reducible apply Within.then (h' := burstRead_within ..))
    | (with_reducible apply Within.then (h' := emit_within ..))
    | (with_reducible apply Within.ite)
    | (with_reducible apply Within.foldl)
    | split

theorem hbmAdmit_within (a0 a1 a2) (s : State) : Within [.regs, .q] s (hbmAdmit a0 a1 a2 s) := by
  unfold hbmAdmit
  repeat' first
    | (with_reducible assumption)
    | (with_reducible exact Within.refl _ _)
    | (show Area.sub _ _ = true; rfl)
    | (extract_lets +onlyGivenNames t; first | (refine Within.cut [.regs, .q] s t (fun h => ?_) ?_; rotate_left; subst t; rotate_right; clear_value t) | clear_value t)
    | (with_reducible apply Within.then (h' := admitAll_within ..))
    | (with_reducible apply Within.then (h' := countN_within ..))
    | (with_reducible apply Within.then (h' := fset_within ..))
    | refine Within.upd (h := ?_)

theorem piecesWrite_within (a0 a1 a2) (s : State) : Within [.regs, .core, .pat, .fab, .test, .q, .eng, .comp, .fresh] s (piecesWrite a0 a1 a2 s) := by
  unfold piecesWrite
  repeat' first
    | intro _
    | (with_reducible assumption)
    | (with_reducible exact Within.refl _ _)
    | (show Area.sub _ _ = true; rfl)
    | (with_reducible apply Within.then (h' := burstWrite_within ..))
    | (with_reducible apply Within.foldl)

theorem qOpWrite_within (a0 a1) (s : State) : Within [.regs, .core, .pat, .fab, .test, .q, .eng, .comp, .fresh] s (qOpWrite a0 a1 s) := by
  unfold qOpWrite
  repeat' first
    | intro _
    | (with_reducible assumption)
    | (with_reducible exact Within.refl _ _)
    | (show Area.sub _ _ = true; rfl)
    | (with_reducible refine bar2Write_within ?_ ?_ (fun t => ?_))
    | (with_reducible apply Within.then (h' := hostOp_within ..))
    | (with_reducible apply Within.foldl)

theorem scrubNext_within (s : State) : Within [.regs, .q] s (scrubNext s) := by
  unfold scrubNext
  repeat' first
    | (with_reducible assumption)
    | (with_reducible exact Within.refl _ _)
    | (show Area.sub _ _ = true; rfl)
    | (extract_lets +onlyGivenNames t; first | (refine Within.cut [.regs, .q] s t (fun h => ?_) ?_; rotate_left; subst t; rotate_right; clear_value t) | clear_value t)
    | (with_reducible apply Within.then (h' := fset_within ..))
    | (with_reducible apply Within.ite)
    | split
    | refine Within.upd (h := ?_)

theorem scrubRead_within (a0 a1) (s : State) : Within [.regs, .core, .pat, .test, .q] s (scrubRead a0 a1 s) := by
  unfold scrubRead
  repeat' first
    | (with_reducible assumption)
    | (with_reducible exact Within.refl _ _)
    | (show Area.sub _ _ = true; rfl)
    | (extract_lets +onlyGivenNames t; first | (refine Within.cut [.regs, .core, .pat, .test, .q] s t (fun h => ?_) ?_; rotate_left; subst t; rotate_right; clear_value t) | (refine Within.cut [.regs, .core, .pat, .test, .q] s t.2 (fun h => ?_) ?_; rotate_left; subst t; rotate_right; clear_value t) | clear_value t)
    | (with_reducible apply Within.then (h' := cycleBegin_within ..))
    | (with_reducible apply Within.then (h' := cycleEnd_within ..))
    | (with_reducible apply Within.then (h' := eccCorr_within ..))
    | (with_reducible apply Within.then (h' := eccUncorr_within ..))
    | (with_reducible apply Within.then (h' := freezeQ_within ..))
    | (with_reducible apply Within.then (h' := scrubNext_within ..))
    | (with_reducible apply Within.then (h' := secded_within ..))
    | (with_reducible apply Within.ite)
    | (with_reducible apply Within.iteSnd)
    | split

theorem windowWrite_within (a0 a1) (s : State) : Within [.regs, .core, .pat, .fab, .test, .q, .eng, .comp, .fresh] s (windowWrite a0 a1 s) := by
  unfold windowWrite
  repeat' first
    | (with_reducible assumption)
    | (with_reducible exact Within.refl _ _)
    | (show Area.sub _ _ = true; rfl)
    | (with_reducible apply Within.then (h' := emit_within ..))
    | (with_reducible apply Within.then (h' := piecesWrite_within ..))
    | (with_reducible apply Within.ite)
    | split

end Sys2Proof.Machine
end

