-- ==== Sys2Proof/Laws/WithinReference.lean ====
section
/-! SUPPORT. What each operation of Machine/Reference.lean may change: one frame per operation. -/

namespace Sys2Proof.Machine

set_option Elab.async false
set_option linter.all false
set_option linter.tactic.unusedName false

theorem refRefresh_within (s : State) : Within [.regs] s (refRefresh s) := by
  unfold refRefresh
  repeat' first
    | intro _
    | (with_reducible assumption)
    | (with_reducible exact Within.refl _ _)
    | (show Area.sub _ _ = true; rfl)
    | (extract_lets +onlyGivenNames t; first | (refine Within.cut [.regs] s t (fun h => ?_) ?_; rotate_left; subst t; rotate_right; clear_value t) | clear_value t)
    | (with_reducible apply Within.then (h' := rsetN_within ..))
    | (with_reducible apply Within.ite)
    | (with_reducible apply Within.foldl)
    | split

theorem setRefPl_within (a0 a1) (s : State) : Within [.ref] s (setRefPl a0 a1 s) := by
  unfold setRefPl
  repeat' first
    | (with_reducible assumption)
    | (with_reducible exact Within.refl _ _)
    | (show Area.sub _ _ = true; rfl)
    | (extract_lets +onlyGivenNames t; first | (refine Within.cut [.ref] s t (fun h => ?_) ?_; rotate_left; subst t; rotate_right; clear_value t) | clear_value t)
    | (with_reducible apply Within.ite)
    | split
    | refine Within.upd (h := ?_)

theorem planeClock_within (a0) (s : State) : Within [.ref] s (planeClock a0 s) := by
  unfold planeClock
  repeat' first
    | (with_reducible assumption)
    | (with_reducible exact Within.refl _ _)
    | (show Area.sub _ _ = true; rfl)
    | (extract_lets +onlyGivenNames t; first | (refine Within.cut [.ref] s t (fun h => ?_) ?_; rotate_left; subst t; rotate_right; clear_value t) | clear_value t)
    | (with_reducible apply Within.then (h' := setRefPl_within ..))
    | refine Within.upd (h := ?_)

theorem refreshAlm_within (s : State) : Within [.regs, .core] s (refreshAlm s) := by
  unfold refreshAlm
  repeat' first
    | (with_reducible assumption)
    | (with_reducible exact Within.refl _ _)
    | (show Area.sub _ _ = true; rfl)
    | (extract_lets +onlyGivenNames t; first | (refine Within.cut [.regs, .core] s t (fun h => ?_) ?_; rotate_left; subst t; rotate_right; clear_value t) | (have _h := fun x => (t x : State)) | (have _h := fun x y => (t x y : State)) | (have _h := fun x y z => (t x y z : State)) | clear_value t)
    | (with_reducible apply Within.then (h' := fset_within ..))
    | (with_reducible apply Within.ite)
    | split
    | refine Within.upd (h := ?_)

theorem setPlaneState_within (a0 a1) (s : State) : Within [.regs, .core, .ref] s (setPlaneState a0 a1 s) := by
  unfold setPlaneState
  repeat' first
    | (with_reducible assumption)
    | (with_reducible exact Within.refl _ _)
    | (show Area.sub _ _ = true; rfl)
    | (extract_lets +onlyGivenNames t; first | (refine Within.cut [.regs, .core, .ref] s t (fun h => ?_) ?_; rotate_left; subst t; rotate_right; clear_value t) | clear_value t)
    | (with_reducible apply Within.then (h' := fset_within ..))
    | (with_reducible apply Within.then (h' := planeClock_within ..))
    | (with_reducible apply Within.then (h' := refreshAlm_within ..))
    | (with_reducible apply Within.then (h' := refreshHealth_within ..))
    | (with_reducible apply Within.ite)
    | split
    | refine Within.upd (h := ?_)

theorem setCur_within (a0 a1) (s : State) : Within [.regs] s (setCur a0 a1 s) := (by unfold setCur; exact fset_within ..)

theorem setResid_within (a0 a1) (s : State) : Within [.regs, .ref] s (setResid a0 a1 s) := by
  unfold setResid
  repeat' first
    | (with_reducible assumption)
    | (with_reducible exact Within.refl _ _)
    | (show Area.sub _ _ = true; rfl)
    | (extract_lets +onlyGivenNames t; first | (refine Within.cut [.regs, .ref] s t (fun h => ?_) ?_; rotate_left; subst t; rotate_right; clear_value t) | clear_value t)
    | (with_reducible apply Within.then (h' := rsetN_within ..))
    | (with_reducible apply Within.then (h' := setRefPl_within ..))
    | refine Within.upd (h := ?_)

theorem acquire_within (a0 a1) (s : State) : Within [.regs, .core, .ref] s (acquire a0 a1 s) := by
  unfold acquire
  repeat' first
    | (with_reducible assumption)
    | (with_reducible exact Within.refl _ _)
    | (show Area.sub _ _ = true; rfl)
    | (extract_lets +onlyGivenNames t; first | (refine Within.cut [.regs, .core, .ref] s t (fun h => ?_) ?_; rotate_left; subst t; rotate_right; clear_value t) | clear_value t)
    | (with_reducible apply Within.then (h' := setCur_within ..))
    | (with_reducible apply Within.then (h' := setPlaneState_within ..))
    | (with_reducible apply Within.then (h' := setRefPl_within ..))
    | (with_reducible apply Within.then (h' := setResid_within ..))
    | (with_reducible apply Within.ite)
    | split
    | refine Within.upd (h := ?_)

theorem planeEvent_within (a0 a1) (s : State) : Within [.regs, .core] s (planeEvent a0 a1 s) := by
  unfold planeEvent
  repeat' first
    | (with_reducible assumption)
    | (with_reducible exact Within.refl _ _)
    | (show Area.sub _ _ = true; rfl)
    | (with_reducible apply Within.then (h' := fset_within ..))
    | (with_reducible apply Within.then (h' := refreshAlm_within ..))

theorem beginSwitch_within (a0 a1) (s : State) : Within [.regs, .core, .pat, .ref] s (beginSwitch a0 a1 s) := by
  unfold beginSwitch
  repeat' first
    | (with_reducible assumption)
    | (with_reducible exact Within.refl _ _)
    | (show Area.sub _ _ = true; rfl)
    | (extract_lets +onlyGivenNames t; first | (refine Within.cut [.regs, .core, .pat, .ref] s t (fun h => ?_) ?_; rotate_left; subst t; rotate_right; clear_value t) | clear_value t)
    | (with_reducible apply Within.then (h' := count_within ..))
    | (with_reducible apply Within.then (h' := planeEvent_within ..))
    | (with_reducible apply Within.then (h' := raise_within ..))
    | (with_reducible apply Within.then (h' := setCur_within ..))
    | (with_reducible apply Within.then (h' := setPlaneState_within ..))
    | (with_reducible apply Within.then (h' := setRefPl_within ..))
    | (with_reducible apply Within.then (h' := setResid_within ..))
    | refine Within.upd (h := ?_)

theorem holdover_within (a0) (s : State) : Within [.regs, .core, .pat, .ref] s (holdover a0 s) := by
  unfold holdover
  repeat' first
    | (with_reducible assumption)
    | (with_reducible exact Within.refl _ _)
    | (show Area.sub _ _ = true; rfl)
    | (extract_lets +onlyGivenNames t; first | (refine Within.cut [.regs, .core, .pat, .ref] s t (fun h => ?_) ?_; rotate_left; subst t; rotate_right; clear_value t) | clear_value t)
    | (with_reducible apply Within.then (h' := planeEvent_within ..))
    | (with_reducible apply Within.then (h' := raise_within ..))
    | (with_reducible apply Within.then (h' := rsetN_within ..))
    | (with_reducible apply Within.then (h' := setPlaneState_within ..))
    | (with_reducible apply Within.then (h' := setRefPl_within ..))
    | (with_reducible apply Within.ite)
    | split
    | refine Within.upd (h := ?_)

theorem retarget_within (a0 a1) (s : State) : Within [.regs, .core, .pat, .ref] s (retarget a0 a1 s) := by
  unfold retarget
  repeat' first
    | (with_reducible assumption)
    | (with_reducible exact Within.refl _ _)
    | (show Area.sub _ _ = true; rfl)
    | (extract_lets +onlyGivenNames t; first | (refine Within.cut [.regs, .core, .pat, .ref] s t (fun h => ?_) ?_; rotate_left; subst t; rotate_right; clear_value t) | clear_value t)
    | (with_reducible apply Within.then (h' := count_within ..))
    | (with_reducible apply Within.then (h' := planeEvent_within ..))
    | (with_reducible apply Within.then (h' := raise_within ..))
    | (with_reducible apply Within.then (h' := setCur_within ..))
    | (with_reducible apply Within.then (h' := setRefPl_within ..))
    | (with_reducible apply Within.then (h' := setResid_within ..))
    | (with_reducible apply Within.ite)
    | split
    | refine Within.upd (h := ?_)

theorem refDecide_within (a0) (s : State) : Within [.regs, .core, .pat, .ref] s (refDecide a0 s) := by
  unfold refDecide
  repeat' first
    | (with_reducible assumption)
    | (with_reducible exact Within.refl _ _)
    | (show Area.sub _ _ = true; rfl)
    | (extract_lets +onlyGivenNames t; first | (refine Within.cut [.regs, .core, .pat, .ref] s t (fun h => ?_) ?_; rotate_left; subst t; rotate_right; clear_value t) | (have _h := fun x => (t x : State)) | (have _h := fun x y => (t x y : State)) | (have _h := fun x y z => (t x y z : State)) | clear_value t)
    | (with_reducible apply Within.then (h' := acquire_within ..))
    | (with_reducible apply Within.then (h' := beginSwitch_within ..))
    | (with_reducible apply Within.then (h' := holdover_within ..))
    | (with_reducible apply Within.then (h' := refRefresh_within ..))
    | (with_reducible apply Within.then (h' := retarget_within ..))
    | (with_reducible apply Within.ite)
    | split

theorem entStat_within (a0 a1 a2 a3) (s : State) : Within [.regs] s (entStat a0 a1 a2 a3 s) := (by unfold entStat; exact fset_within ..)

theorem refReject_within (a0 a1) (s : State) : Within [.regs, .core, .pat] s (refReject a0 a1 s) := by
  unfold refReject
  repeat' first
    | (with_reducible assumption)
    | (with_reducible exact Within.refl _ _)
    | (show Area.sub _ _ = true; rfl)
    | (extract_lets +onlyGivenNames t; first | (refine Within.cut [.regs, .core, .pat] s t (fun h => ?_) ?_; rotate_left; subst t; rotate_right; clear_value t) | clear_value t)
    | (with_reducible apply Within.then (h' := count_within ..))
    | (with_reducible apply Within.then (h' := entStat_within ..))
    | (with_reducible apply Within.then (h' := planeEvent_within ..))
    | (with_reducible apply Within.then (h' := raise_within ..))

theorem setActive_within (a0 a1 a2) (s : State) : Within [.regs, .core, .pat, .ref] s (setActive a0 a1 a2 s) := by
  unfold setActive
  repeat' first
    | (with_reducible assumption)
    | (with_reducible exact Within.refl _ _)
    | (show Area.sub _ _ = true; rfl)
    | (extract_lets +onlyGivenNames t; first | (refine Within.cut [.regs, .core, .pat, .ref] s t (fun h => ?_) ?_; rotate_left; subst t; rotate_right; clear_value t) | clear_value t)
    | (with_reducible apply Within.then (h' := entStat_within ..))
    | (with_reducible apply Within.then (h' := refReject_within ..))
    | (with_reducible apply Within.then (h' := setRefPl_within ..))
    | (with_reducible apply Within.ite)
    | split
    | refine Within.upd (h := ?_)

theorem refFollow_within (s : State) : Within [.regs, .core, .pat, .ref] s (refFollow s) := by
  unfold refFollow
  repeat' first
    | intro _
    | (with_reducible assumption)
    | (with_reducible exact Within.refl _ _)
    | (show Area.sub _ _ = true; rfl)
    | (extract_lets +onlyGivenNames t; first | (refine Within.cut [.regs, .core, .pat, .ref] s t (fun h => ?_) ?_; rotate_left; subst t; rotate_right; clear_value t) | clear_value t)
    | (with_reducible apply Within.then (h' := cycleBegin_within ..))
    | (with_reducible apply Within.then (h' := cycleEnd_within ..))
    | (with_reducible apply Within.then (h' := refDecide_within ..))
    | (with_reducible apply Within.then (h' := setActive_within ..))
    | (with_reducible apply Within.ite)
    | (with_reducible apply Within.foldl)
    | split

theorem entWindow_within (a0 a1 a2) (s : State) : Within [.regs, .core, .pat] s (entWindow a0 a1 a2 s) := by
  unfold entWindow
  repeat' first
    | (with_reducible assumption)
    | (with_reducible exact Within.refl _ _)
    | (show Area.sub _ _ = true; rfl)
    | (extract_lets +onlyGivenNames t; first | (refine Within.cut [.regs, .core, .pat] s t (fun h => ?_) ?_; rotate_left; subst t; rotate_right; clear_value t) | clear_value t)
    | (with_reducible apply Within.then (h' := entStat_within ..))
    | (with_reducible apply Within.then (h' := refReject_within ..))
    | (with_reducible apply Within.then (h' := rsetN_within ..))
    | (with_reducible apply Within.ite)
    | split

theorem planeWindow_within (a0 a1 a2) (s : State) : Within [.regs, .core, .pat, .ref] s (planeWindow a0 a1 a2 s) := by
  unfold planeWindow
  repeat' first
    | intro _
    | (with_reducible assumption)
    | (with_reducible exact Within.refl _ _)
    | (show Area.sub _ _ = true; rfl)
    | (extract_lets +onlyGivenNames t; first | (refine Within.cut [.regs, .core, .pat, .ref] s t (fun h => ?_) ?_; rotate_left; subst t; rotate_right; clear_value t) | clear_value t)
    | (with_reducible apply Within.then (h' := entStat_within ..))
    | (with_reducible apply Within.then (h' := entWindow_within ..))
    | (with_reducible apply Within.then (h' := fset_within ..))
    | (with_reducible apply Within.then (h' := planeEvent_within ..))
    | (with_reducible apply Within.then (h' := raise_within ..))
    | (with_reducible apply Within.then (h' := rsetN_within ..))
    | (with_reducible apply Within.then (h' := setRefPl_within ..))
    | (with_reducible apply Within.ite)
    | (with_reducible apply Within.foldl)
    | split
    | refine Within.upd (h := ?_)

theorem setXoFail_within (a0) (s : State) : Within [.regs, .core, .pat, .ref] s (setXoFail a0 s) := by
  unfold setXoFail
  repeat' first
    | intro _
    | (with_reducible assumption)
    | (with_reducible exact Within.refl _ _)
    | (show Area.sub _ _ = true; rfl)
    | (extract_lets +onlyGivenNames t; first | (refine Within.cut [.regs, .core, .pat, .ref] s t (fun h => ?_) ?_; rotate_left; subst t; rotate_right; clear_value t) | clear_value t)
    | (with_reducible apply Within.then (h' := condSet_within ..))
    | (with_reducible apply Within.then (h' := entStat_within ..))
    | (with_reducible apply Within.then (h' := planeClock_within ..))
    | (with_reducible apply Within.then (h' := refreshAlm_within ..))
    | (with_reducible apply Within.ite)
    | (with_reducible apply Within.foldl)
    | split
    | refine Within.upd (h := ?_)

end Sys2Proof.Machine
end

