-- ==== Sys2Proof/Laws/WithinTime.lean ====
section
/-! SUPPORT. What each operation of Machine/Time.lean may change: one frame per operation. -/

namespace Sys2Proof.Machine

set_option Elab.async false
set_option linter.all false
set_option linter.tactic.unusedName false

theorem setTci_within (a0 a1) (s : State) : Within [.regs, .time] s (setTci a0 a1 s) := by
  unfold setTci
  repeat' first
    | (with_reducible assumption)
    | (with_reducible exact Within.refl _ _)
    | (show Area.sub _ _ = true; rfl)
    | (extract_lets +onlyGivenNames t; first | (refine Within.cut [.regs, .time] s t (fun h => ?_) ?_; rotate_left; subst t; rotate_right; clear_value t) | clear_value t)
    | (with_reducible apply Within.then (h' := fset_within ..))
    | refine Within.upd (h := ?_)

theorem tciReadNow_within (n : Nat) (s : State) : Within [.regs, .time] s (tciReadNow n s).2 := by
  have put (t : Stamp) (s : State) : Within [.regs, .time] s (rsetN (rsetN (rsetN (rsetN s (Reg.TIME_TCI_TS n 0) t.w0)
      (Reg.TIME_TCI_TS n 1) t.w1) (Reg.TIME_TCI_TS n 2) t.w2) (Reg.TIME_TCI_TS n 3) t.w3) :=
    ((((rsetN_within ..).then (rsetN_within ..) rfl).then (rsetN_within ..) rfl).then (rsetN_within ..) rfl).mono rfl
  unfold tciReadNow
  extract_lets p
  split
  · exact put {} s
  · rename_i t r _
    exact (put t s).then (setTci_within n r _) rfl

theorem otChoose_within (s : State) : Within [.regs, .core, .pat, .time] s (otChoose s) := by
  unfold otChoose
  repeat' first
    | (with_reducible assumption)
    | (with_reducible exact Within.refl _ _)
    | (show Area.sub _ _ = true; rfl)
    | (extract_lets +onlyGivenNames t; first | (refine Within.cut [.regs, .core, .pat, .time] s t (fun h => ?_) ?_; rotate_left; subst t; rotate_right; clear_value t) | clear_value t)
    | (with_reducible apply Within.then (h' := count_within ..))
    | (with_reducible apply Within.then (h' := raise_within ..))
    | (with_reducible apply Within.ite)
    | split
    | refine Within.upd (h := ?_)

theorem otCtrlWrite_within (a0) (s : State) : Within [.regs, .core, .pat, .time] s (otCtrlWrite a0 s) := by
  unfold otCtrlWrite
  repeat' first
    | (with_reducible assumption)
    | (with_reducible exact Within.refl _ _)
    | (show Area.sub _ _ = true; rfl)
    | (extract_lets +onlyGivenNames t; first | (refine Within.cut [.regs, .core, .pat, .time] s t (fun h => ?_) ?_; rotate_left; subst t; rotate_right; clear_value t) | clear_value t)
    | (with_reducible apply Within.then (h' := fset_within ..))
    | (with_reducible apply Within.then (h' := otChoose_within ..))
    | (with_reducible apply Within.ite)
    | split
    | refine Within.upd (h := ?_)

theorem snapshotNow_within (s : State) : Within [.regs] s (snapshotNow s) := by
  unfold snapshotNow
  repeat' first
    | (with_reducible assumption)
    | (with_reducible exact Within.refl _ _)
    | (show Area.sub _ _ = true; rfl)
    | (with_reducible apply Within.then (h' := rset64_within ..))

theorem advanceTicks_within (a0) (s : State) : Within [.core, .time] s (advanceTicks a0 s) := by
  unfold advanceTicks
  repeat' first
    | (with_reducible assumption)
    | (with_reducible exact Within.refl _ _)
    | (show Area.sub _ _ = true; rfl)
    | (extract_lets +onlyGivenNames t; first | (refine Within.cut [.core, .time] s t (fun h => ?_) ?_; rotate_left; subst t; rotate_right; clear_value t) | clear_value t)
    | (with_reducible apply Within.ite)
    | split
    | refine Within.upd (h := ?_)

theorem bumpGen_within (a0) (s : State) : Within [.regs] s (bumpGen a0 s) := (by unfold bumpGen; exact fset_within ..)

theorem setTkRaw_within (a0 a1) (s : State) : Within [.time] s (setTkRaw a0 a1 s) := by
  unfold setTkRaw
  repeat' first
    | (with_reducible assumption)
    | (with_reducible exact Within.refl _ _)
    | (show Area.sub _ _ = true; rfl)
    | (extract_lets +onlyGivenNames t; first | (refine Within.cut [.time] s t (fun h => ?_) ?_; rotate_left; subst t; rotate_right; clear_value t) | clear_value t)
    | (with_reducible apply Within.ite)
    | split
    | refine Within.upd (h := ?_)

theorem setTpo_within (a0 a1) (s : State) : Within [.time] s (setTpo a0 a1 s) := by
  unfold setTpo
  repeat' first
    | (with_reducible assumption)
    | (with_reducible exact Within.refl _ _)
    | (show Area.sub _ _ = true; rfl)
    | (extract_lets +onlyGivenNames t; first | (refine Within.cut [.time] s t (fun h => ?_) ?_; rotate_left; subst t; rotate_right; clear_value t) | clear_value t)
    | refine Within.upd (h := ?_)

theorem setTpoState_within (a0 a1) (s : State) : Within [.regs] s (setTpoState a0 a1 s) := (by unfold setTpoState; exact fset_within ..)

theorem skipTargets_within (a0 a1) (s : State) : Within [.regs, .time] s (skipTargets a0 a1 s) := by
  unfold skipTargets
  repeat' first
    | (with_reducible assumption)
    | (with_reducible exact Within.refl _ _)
    | (show Area.sub _ _ = true; rfl)
    | (extract_lets +onlyGivenNames t; first | (refine Within.cut [.regs, .time] s t (fun h => ?_) ?_; rotate_left; subst t; rotate_right; clear_value t) | clear_value t)
    | (with_reducible apply Within.then (h' := count_within ..))
    | (with_reducible apply Within.then (h' := countN_within ..))
    | (with_reducible apply Within.then (h' := setTpo_within ..))
    | (with_reducible apply Within.then (h' := setTpoState_within ..))
    | (with_reducible apply Within.ite)
    | split
    | refine Within.upd (h := ?_)

theorem skipAll_within (a0) (s : State) : Within [.regs, .time] s (skipAll a0 s) := by
  unfold skipAll
  repeat' first
    | intro _
    | (with_reducible assumption)
    | (with_reducible exact Within.refl _ _)
    | (show Area.sub _ _ = true; rfl)
    | (with_reducible apply Within.then (h' := skipTargets_within ..))
    | (with_reducible apply Within.foldl)

theorem tkMark_within (a0) (s : State) : Within [.time] s (tkMark a0 s) := by
  unfold tkMark
  repeat' first
    | (with_reducible assumption)
    | (with_reducible exact Within.refl _ _)
    | (show Area.sub _ _ = true; rfl)
    | (extract_lets +onlyGivenNames t; first | (refine Within.cut [.time] s t (fun h => ?_) ?_; rotate_left; subst t; rotate_right; clear_value t) | clear_value t)
    | refine Within.upd (h := ?_)

theorem setLockRun_within (a0 a1) (s : State) : Within [.time] s (setLockRun a0 a1 s) := by
  unfold setLockRun
  repeat' first
    | (with_reducible assumption)
    | (with_reducible exact Within.refl _ _)
    | (show Area.sub _ _ = true; rfl)
    | (extract_lets +onlyGivenNames t; first | (refine Within.cut [.time] s t (fun h => ?_) ?_; rotate_left; subst t; rotate_right; clear_value t) | clear_value t)
    | (with_reducible apply Within.ite)
    | split
    | refine Within.upd (h := ?_)

theorem tkUnlockNow_within (a0) (s : State) : Within [.regs, .core, .pat, .ref, .time] s (tkUnlockNow a0 s) := by
  unfold tkUnlockNow
  repeat' first
    | (with_reducible assumption)
    | (with_reducible exact Within.refl _ _)
    | (show Area.sub _ _ = true; rfl)
    | (extract_lets +onlyGivenNames t; first | (refine Within.cut [.regs, .core, .pat, .ref, .time] s t (fun h => ?_) ?_; rotate_left; subst t; rotate_right; clear_value t) | clear_value t)
    | (with_reducible apply Within.then (h' := count_within ..))
    | (with_reducible apply Within.then (h' := cycleBegin_within ..))
    | (with_reducible apply Within.then (h' := cycleEnd_within ..))
    | (with_reducible apply Within.then (h' := fset_within ..))
    | (with_reducible apply Within.then (h' := otChoose_within ..))
    | (with_reducible apply Within.then (h' := raise_within ..))
    | (with_reducible apply Within.then (h' := refFollow_within ..))
    | (with_reducible apply Within.then (h' := setLockRun_within ..))
    | (with_reducible apply Within.then (h' := tkMark_within ..))
    | (with_reducible apply Within.ite)
    | split

theorem tkAdjNow_within (a0) (s : State) : Within [.regs, .core, .pat, .ref, .time] s (tkAdjNow a0 s) := by
  unfold tkAdjNow
  repeat' first
    | (with_reducible assumption)
    | (with_reducible exact Within.refl _ _)
    | (show Area.sub _ _ = true; rfl)
    | (extract_lets +onlyGivenNames t; first | (refine Within.cut [.regs, .core, .pat, .ref, .time] s t (fun h => ?_) ?_; rotate_left; subst t; rotate_right; clear_value t) | clear_value t)
    | (with_reducible apply Within.then (h' := advanceTicks_within ..))
    | (with_reducible apply Within.then (h' := bumpGen_within ..))
    | (with_reducible apply Within.then (h' := setTkRaw_within ..))
    | (with_reducible apply Within.then (h' := skipAll_within ..))
    | (with_reducible apply Within.then (h' := tkMark_within ..))
    | (with_reducible apply Within.then (h' := tkUnlockNow_within ..))
    | (with_reducible apply Within.ite)
    | split

theorem setLockEnd_within (a0 a1) (s : State) : Within [.time] s (setLockEnd a0 a1 s) := by
  unfold setLockEnd
  repeat' first
    | (with_reducible assumption)
    | (with_reducible exact Within.refl _ _)
    | (show Area.sub _ _ = true; rfl)
    | (extract_lets +onlyGivenNames t; first | (refine Within.cut [.time] s t (fun h => ?_) ?_; rotate_left; subst t; rotate_right; clear_value t) | clear_value t)
    | (with_reducible apply Within.ite)
    | split
    | refine Within.upd (h := ?_)

theorem tkLockSetNow_within (a0) (s : State) : Within [.regs, .core, .pat, .ref, .time] s (tkLockSetNow a0 s) := by
  unfold tkLockSetNow
  repeat' first
    | (with_reducible assumption)
    | (with_reducible exact Within.refl _ _)
    | (show Area.sub _ _ = true; rfl)
    | (extract_lets +onlyGivenNames t; first | (refine Within.cut [.regs, .core, .pat, .ref, .time] s t (fun h => ?_) ?_; rotate_left; subst t; rotate_right; clear_value t) | clear_value t)
    | (with_reducible apply Within.then (h' := fset_within ..))
    | (with_reducible apply Within.then (h' := otChoose_within ..))
    | (with_reducible apply Within.then (h' := refFollow_within ..))
    | (with_reducible apply Within.then (h' := setLockEnd_within ..))
    | (with_reducible apply Within.then (h' := setLockRun_within ..))
    | (with_reducible apply Within.then (h' := tkMark_within ..))
    | (with_reducible apply Within.ite)
    | split

theorem tkSetNow_within (a0) (s : State) : Within [.regs, .core, .pat, .ref, .time] s (tkSetNow a0 s) := by
  unfold tkSetNow
  repeat' first
    | (with_reducible assumption)
    | (with_reducible exact Within.refl _ _)
    | (show Area.sub _ _ = true; rfl)
    | (extract_lets +onlyGivenNames t; first | (refine Within.cut [.regs, .core, .pat, .ref, .time] s t (fun h => ?_) ?_; rotate_left; subst t; rotate_right; clear_value t) | clear_value t)
    | (with_reducible apply Within.then (h' := advanceTicks_within ..))
    | (with_reducible apply Within.then (h' := bumpGen_within ..))
    | (with_reducible apply Within.then (h' := fset_within ..))
    | (with_reducible apply Within.then (h' := setTkRaw_within ..))
    | (with_reducible apply Within.then (h' := skipAll_within ..))
    | (with_reducible apply Within.then (h' := tkMark_within ..))
    | (with_reducible apply Within.then (h' := tkUnlockNow_within ..))
    | (with_reducible apply Within.ite)
    | split

theorem tkCtrlWrite_within (a0 a1) (s : State) : Within [.regs, .core, .pat, .ref, .time] s (tkCtrlWrite a0 a1 s) := by
  unfold tkCtrlWrite
  repeat' first
    | (with_reducible assumption)
    | (with_reducible exact Within.refl _ _)
    | (show Area.sub _ _ = true; rfl)
    | (extract_lets +onlyGivenNames t; first | (refine Within.cut [.regs, .core, .pat, .ref, .time] s t (fun h => ?_) ?_; rotate_left; subst t; rotate_right; clear_value t) | clear_value t)
    | (with_reducible apply Within.then (h' := tkAdjNow_within ..))
    | (with_reducible apply Within.then (h' := tkLockSetNow_within ..))
    | (with_reducible apply Within.then (h' := tkSetNow_within ..))
    | (with_reducible apply Within.then (h' := tkUnlockNow_within ..))
    | (with_reducible apply Within.ite)
    | split

theorem tkIncrWrite_within (a0 a1 a2) (s : State) : Within [.regs, .core, .pat, .time] s (tkIncrWrite a0 a1 a2 s) := by
  unfold tkIncrWrite
  repeat' first
    | (with_reducible assumption)
    | (with_reducible exact Within.refl _ _)
    | (show Area.sub _ _ = true; rfl)
    | (extract_lets +onlyGivenNames t; first | (refine Within.cut [.regs, .core, .pat, .time] s t (fun h => ?_) ?_; rotate_left; subst t; rotate_right; clear_value t) | clear_value t)
    | (with_reducible apply Within.then (h' := fset_within ..))
    | (with_reducible apply Within.then (h' := refuse_within ..))
    | (with_reducible apply Within.ite)
    | split
    | refine Within.upd (h := ?_)

theorem setTpoPin_within (a0 a1) (s : State) : Within [.core] s (setTpoPin a0 a1 s) := by
  unfold setTpoPin
  repeat' first
    | (with_reducible assumption)
    | (with_reducible exact Within.refl _ _)
    | (show Area.sub _ _ = true; rfl)
    | (extract_lets +onlyGivenNames t; first | (refine Within.cut [.core] s t (fun h => ?_) ?_; rotate_left; subst t; rotate_right; clear_value t) | clear_value t)
    | (with_reducible apply Within.then (h' := emit_within ..))
    | (with_reducible apply Within.ite)
    | split
    | refine Within.upd (h := ?_)

theorem tpoCommitNow_within (a0 a1 a2) (s : State) : Within [.regs, .core, .pat, .time] s (tpoCommitNow a0 a1 a2 s) := by
  unfold tpoCommitNow
  repeat' first
    | (with_reducible assumption)
    | (with_reducible exact Within.refl _ _)
    | (show Area.sub _ _ = true; rfl)
    | (extract_lets +onlyGivenNames t; first | (refine Within.cut [.regs, .core, .pat, .time] s t (fun h => ?_) ?_; rotate_left; subst t; rotate_right; clear_value t) | clear_value t)
    | (with_reducible apply Within.then (h' := fset_within ..))
    | (with_reducible apply Within.then (h' := raise_within ..))
    | (with_reducible apply Within.then (h' := refuse_within ..))
    | (with_reducible apply Within.then (h' := setTpo_within ..))
    | (with_reducible apply Within.then (h' := setTpoState_within ..))
    | (with_reducible apply Within.ite)
    | split
    | refine Within.upd (h := ?_)

theorem tpoOff_within (a0) (s : State) : Within [.regs, .core, .time] s (tpoOff a0 s) := by
  unfold tpoOff
  repeat' first
    | (with_reducible assumption)
    | (with_reducible exact Within.refl _ _)
    | (show Area.sub _ _ = true; rfl)
    | (extract_lets +onlyGivenNames t; first | (refine Within.cut [.regs, .core, .time] s t (fun h => ?_) ?_; rotate_left; subst t; rotate_right; clear_value t) | clear_value t)
    | (with_reducible apply Within.then (h' := fset_within ..))
    | (with_reducible apply Within.then (h' := setTpo_within ..))
    | (with_reducible apply Within.then (h' := setTpoPin_within ..))
    | (with_reducible apply Within.then (h' := setTpoState_within ..))
    | refine Within.upd (h := ?_)

theorem tpoCtrlWrite_within (a0 a1 a2) (s : State) : Within [.regs, .core, .pat, .time] s (tpoCtrlWrite a0 a1 a2 s) := by
  unfold tpoCtrlWrite
  repeat' first
    | (with_reducible assumption)
    | (with_reducible exact Within.refl _ _)
    | (show Area.sub _ _ = true; rfl)
    | (extract_lets +onlyGivenNames t; first | (refine Within.cut [.regs, .core, .pat, .time] s t (fun h => ?_) ?_; rotate_left; subst t; rotate_right; clear_value t) | clear_value t)
    | (with_reducible apply Within.then (h' := fset_within ..))
    | (with_reducible apply Within.then (h' := refuse_within ..))
    | (with_reducible apply Within.then (h' := setTpoPin_within ..))
    | (with_reducible apply Within.then (h' := tpoCommitNow_within ..))
    | (with_reducible apply Within.then (h' := tpoOff_within ..))
    | (with_reducible apply Within.ite)
    | split

theorem tpoStagedWrite_within (a0 a1 a2 a3) (s : State) : Within [.regs, .core, .pat] s (tpoStagedWrite a0 a1 a2 a3 s) := by
  unfold tpoStagedWrite
  repeat' first
    | (with_reducible assumption)
    | (with_reducible exact Within.refl _ _)
    | (show Area.sub _ _ = true; rfl)
    | (with_reducible apply Within.then (h' := plainWrite_within ..))
    | (with_reducible apply Within.then (h' := refuse_within ..))
    | (with_reducible apply Within.ite)
    | split

theorem timeWrite_within (a0 a1 a2) (s : State) : Within [.regs, .core, .pat, .ref, .time] s (timeWrite a0 a1 a2 s) := by
  unfold timeWrite
  repeat' first
    | (with_reducible assumption)
    | (with_reducible exact Within.refl _ _)
    | (show Area.sub _ _ = true; rfl)
    | (extract_lets +onlyGivenNames t; first | (refine Within.cut [.regs, .core, .pat, .ref, .time] s t (fun h => ?_) ?_; rotate_left; subst t; rotate_right; clear_value t) | clear_value t)
    | (with_reducible apply Within.then (h' := otCtrlWrite_within ..))
    | (with_reducible apply Within.then (h' := plainWrite_within ..))
    | (with_reducible apply Within.then (h' := refuse_within ..))
    | (with_reducible apply Within.then (h' := snapshotNow_within ..))
    | (with_reducible apply Within.then (h' := tkCtrlWrite_within ..))
    | (with_reducible apply Within.then (h' := tkIncrWrite_within ..))
    | (with_reducible apply Within.then (h' := tpoCtrlWrite_within ..))
    | (with_reducible apply Within.then (h' := tpoStagedWrite_within ..))
    | (with_reducible apply Within.ite)
    | split

theorem tciEdgeNow_within (a0 a1) (s : State) : Within [.regs, .core, .pat, .time] s (tciEdgeNow a0 a1 s) := by
  unfold tciEdgeNow
  repeat' first
    | (with_reducible assumption)
    | (with_reducible exact Within.refl _ _)
    | (show Area.sub _ _ = true; rfl)
    | (extract_lets +onlyGivenNames t; first | (refine Within.cut [.regs, .core, .pat, .time] s t (fun h => ?_) ?_; rotate_left; subst t; rotate_right; clear_value t) | clear_value t)
    | (with_reducible apply Within.then (h' := count_within ..))
    | (with_reducible apply Within.then (h' := fset_within ..))
    | (with_reducible apply Within.then (h' := raise_within ..))
    | (with_reducible apply Within.then (h' := setFiltered_within ..))
    | (with_reducible apply Within.then (h' := setTci_within ..))
    | (with_reducible apply Within.ite)
    | split

theorem tpoFall_within (a0) (s : State) : Within [.regs, .core, .time] s (tpoFall a0 s) := by
  unfold tpoFall
  repeat' first
    | (with_reducible assumption)
    | (with_reducible exact Within.refl _ _)
    | (show Area.sub _ _ = true; rfl)
    | (extract_lets +onlyGivenNames t; first | (refine Within.cut [.regs, .core, .time] s t (fun h => ?_) ?_; rotate_left; subst t; rotate_right; clear_value t) | clear_value t)
    | (with_reducible apply Within.then (h' := advanceTicks_within ..))
    | (with_reducible apply Within.then (h' := setTpo_within ..))
    | (with_reducible apply Within.then (h' := setTpoPin_within ..))
    | (with_reducible apply Within.then (h' := setTpoState_within ..))
    | (with_reducible apply Within.ite)
    | split
    | refine Within.upd (h := ?_)

theorem tpoFire_within (a0) (s : State) : Within [.regs, .core, .time] s (tpoFire a0 s) := by
  unfold tpoFire
  repeat' first
    | (with_reducible assumption)
    | (with_reducible exact Within.refl _ _)
    | (show Area.sub _ _ = true; rfl)
    | (extract_lets +onlyGivenNames t; first | (refine Within.cut [.regs, .core, .time] s t (fun h => ?_) ?_; rotate_left; subst t; rotate_right; clear_value t) | clear_value t)
    | (with_reducible apply Within.then (h' := advanceTicks_within ..))
    | (with_reducible apply Within.then (h' := count_within ..))
    | (with_reducible apply Within.then (h' := setTpo_within ..))
    | (with_reducible apply Within.then (h' := setTpoPin_within ..))
    | (with_reducible apply Within.then (h' := setTpoState_within ..))
    | (with_reducible apply Within.ite)
    | split
    | refine Within.upd (h := ?_)

end Sys2Proof.Machine
end

