-- ==== Sys2Proof/Laws/WithinStreams.lean ====
section
/-! SUPPORT. What each operation of Machine/Streams.lean may change: one frame per operation. -/

namespace Sys2Proof.Machine

set_option Elab.async false
set_option linter.all false
set_option linter.tactic.unusedName false

theorem srcStat_within (a0 a1 a2) (s : State) : Within [.regs] s (srcStat a0 a1 a2 s) := (by unfold srcStat; exact fset_within ..)

theorem refreshTimed_within (a0) (s : State) : Within [.regs] s (refreshTimed a0 s) := by
  unfold refreshTimed
  repeat' first
    | intro _
    | (with_reducible assumption)
    | (with_reducible exact Within.refl _ _)
    | (show Area.sub _ _ = true; rfl)
    | (extract_lets +onlyGivenNames t; first | (refine Within.cut [.regs] s t (fun h => ?_) ?_; rotate_left; subst t; rotate_right; clear_value t) | clear_value t)
    | (with_reducible apply Within.then (h' := srcStat_within ..))
    | (with_reducible apply Within.foldl)

theorem setLaneWin_within (a0 a1 a2) (s : State) : Within [.xp] s (setLaneWin a0 a1 a2 s) := by
  unfold setLaneWin
  repeat' first
    | (with_reducible assumption)
    | (with_reducible exact Within.refl _ _)
    | (show Area.sub _ _ = true; rfl)
    | (extract_lets +onlyGivenNames t; first | (refine Within.cut [.xp] s t (fun h => ?_) ?_; rotate_left; subst t; rotate_right; clear_value t) | clear_value t)
    | refine Within.upd (h := ?_)

theorem setPresent_within (a0 a1) (s : State) : Within [.regs, .core, .pat, .xp, .ref] s (setPresent a0 a1 s) := by
  unfold setPresent
  repeat' first
    | intro _
    | (with_reducible assumption)
    | (with_reducible exact Within.refl _ _)
    | (show Area.sub _ _ = true; rfl)
    | (extract_lets +onlyGivenNames t; first | (refine Within.cut [.regs, .core, .pat, .xp, .ref] s t (fun h => ?_) ?_; rotate_left; subst t; rotate_right; clear_value t) | clear_value t)
    | (with_reducible apply Within.then (h' := refFollow_within ..))
    | (with_reducible apply Within.then (h' := refreshTimed_within ..))
    | (with_reducible apply Within.then (h' := setLaneWin_within ..))
    | (with_reducible apply Within.then (h' := srcStat_within ..))
    | (with_reducible apply Within.ite)
    | (with_reducible apply Within.foldl)
    | split

theorem fifoRead_within (a0 a1 a2 a3 a4) (s : State) : Within [.regs, .core, .pat, .test, .xp, .fresh] s (fifoRead a0 a1 a2 a3 a4 s).2 := by
  unfold fifoRead
  repeat' first
    | (with_reducible assumption)
    | (with_reducible exact Within.refl _ _)
    | (show Area.sub _ _ = true; rfl)
    | (extract_lets +onlyGivenNames t; first | (refine Within.cut [.regs, .core, .pat, .test, .xp, .fresh] s t (fun h => ?_) ?_; rotate_left; subst t; rotate_right; clear_value t) | (refine Within.cut [.regs, .core, .pat, .test, .xp, .fresh] s t.2 (fun h => ?_) ?_; rotate_left; subst t; rotate_right; clear_value t) | (have _h := fun x => (t x : State)) | (have _h := fun x y => (t x y : State)) | (have _h := fun x y z => (t x y z : State)) | clear_value t)
    | (with_reducible apply Within.then (h' := hbmRead_within ..))
    | (with_reducible apply Within.then (h' := spend_within ..))
    | (with_reducible apply Within.ite)
    | (with_reducible apply Within.iteSnd)
    | split
    | refine Within.upd (h := ?_)

theorem madeFifoRead_within (a0 a1 a2 a3) (s : State) : Within [.regs, .core, .pat, .test, .xp, .fresh] s (madeFifoRead a0 a1 a2 a3 s).2 := by
  unfold madeFifoRead
  repeat' first
    | (with_reducible assumption)
    | (with_reducible exact Within.refl _ _)
    | (show Area.sub _ _ = true; rfl)
    | (extract_lets +onlyGivenNames t; first | (refine Within.cut [.regs, .core, .pat, .test, .xp, .fresh] s t (fun h => ?_) ?_; rotate_left; subst t; rotate_right; clear_value t) | (refine Within.cut [.regs, .core, .pat, .test, .xp, .fresh] s t.2 (fun h => ?_) ?_; rotate_left; subst t; rotate_right; clear_value t) | clear_value t)
    | (with_reducible apply Within.then (h' := hbmRead_within ..))
    | (with_reducible apply Within.then (h' := spend_within ..))
    | (with_reducible apply Within.ite)
    | (with_reducible apply Within.iteSnd)
    | split
    | refine Within.upd (h := ?_)

theorem pushLine_within (a0 a1) (s : State) : Within [.xp] s (pushLine a0 a1 s) := by
  unfold pushLine
  repeat' first
    | intro _
    | (with_reducible assumption)
    | (with_reducible exact Within.refl _ _)
    | (show Area.sub _ _ = true; rfl)
    | (extract_lets +onlyGivenNames t; first | (refine Within.cut [.xp] s t (fun h => ?_) ?_; rotate_left; subst t; rotate_right; clear_value t) | clear_value t)
    | (with_reducible apply Within.ite)
    | (with_reducible apply Within.foldl)
    | split
    | refine Within.upd (h := ?_)

theorem switchArrival_within (a0 a1 a2) (s : State) : Within [.regs, .xp] s (switchArrival a0 a1 a2 s) := by
  unfold switchArrival
  repeat' first
    | (with_reducible assumption)
    | (with_reducible exact Within.refl _ _)
    | (show Area.sub _ _ = true; rfl)
    | (extract_lets +onlyGivenNames t; first | (refine Within.cut [.regs, .xp] s t (fun h => ?_) ?_; rotate_left; subst t; rotate_right; clear_value t) | (have _h := fun x => (t x : State)) | (have _h := fun x y => (t x y : State)) | (have _h := fun x y z => (t x y z : State)) | clear_value t)
    | (with_reducible apply Within.then (h' := fset_within ..))
    | (with_reducible apply Within.then (h' := refreshTimed_within ..))
    | (with_reducible apply Within.then (h' := setLaneWin_within ..))
    | (with_reducible apply Within.ite)
    | split

theorem frameMeasured_within (a0 a1) (s : State) : Within [.regs, .core, .pat, .xp, .ref] s (frameMeasured a0 a1 s) := by
  unfold frameMeasured
  repeat' first
    | (with_reducible assumption)
    | (with_reducible exact Within.refl _ _)
    | (show Area.sub _ _ = true; rfl)
    | (extract_lets +onlyGivenNames t; first | (refine Within.cut [.regs, .core, .pat, .xp, .ref] s t (fun h => ?_) ?_; rotate_left; subst t; rotate_right; clear_value t) | clear_value t)
    | (with_reducible apply Within.then (h' := refFollow_within ..))
    | (with_reducible apply Within.then (h' := srcStat_within ..))
    | (with_reducible apply Within.ite)
    | split
    | refine Within.upd (h := ?_)

theorem tpgApply_within (a0) (s : State) : Within [.xp] s (tpgApply a0 s) := by
  unfold tpgApply
  repeat' first
    | intro _
    | (with_reducible assumption)
    | (with_reducible exact Within.refl _ _)
    | (show Area.sub _ _ = true; rfl)
    | (extract_lets +onlyGivenNames t; first | (refine Within.cut [.xp] s t (fun h => ?_) ?_; rotate_left; subst t; rotate_right; clear_value t) | clear_value t)
    | (with_reducible apply Within.ite)
    | (with_reducible apply Within.foldl)
    | split
    | refine Within.upd (h := ?_)

end Sys2Proof.Machine
end

