-- ==== Sys2Proof/Laws/WithinCrosspoint.lean ====
section
/-! SUPPORT. What each operation of Machine/Crosspoint.lean may change: one frame per operation. -/

namespace Sys2Proof.Machine

set_option Elab.async false
set_option linter.all false
set_option linter.tactic.unusedName false

theorem putRefused_within (a0 a1 a2) (s : State) : Within [.xp] s (putRefused a0 a1 a2 s) := by
  unfold putRefused
  repeat' first
    | (with_reducible assumption)
    | (with_reducible exact Within.refl _ _)
    | (show Area.sub _ _ = true; rfl)
    | (extract_lets +onlyGivenNames t; first | (refine Within.cut [.xp] s t (fun h => ?_) ?_; rotate_left; subst t; rotate_right; clear_value t) | clear_value t)
    | refine Within.upd (h := ?_)

theorem absorbAbandoned_within (s : State) : Within [.xp] s (absorbAbandoned s) := by
  unfold absorbAbandoned
  repeat' first
    | intro _
    | (with_reducible assumption)
    | (with_reducible exact Within.refl _ _)
    | (show Area.sub _ _ = true; rfl)
    | (extract_lets +onlyGivenNames t; first | (refine Within.cut [.xp] s t (fun h => ?_) ?_; rotate_left; subst t; rotate_right; clear_value t) | clear_value t)
    | (with_reducible apply Within.then (h' := putRefused_within ..))
    | (with_reducible apply Within.ite)
    | (with_reducible apply Within.foldl)
    | split
    | refine Within.upd (h := ?_)

theorem takeFlag_within (a0) (s : State) : Within [.regs] s (takeFlag a0 s) := (by unfold takeFlag; exact fset_within ..)

theorem refuseReport_within (a0 a1 a2 a3) (s : State) : Within [.regs, .core, .pat] s (refuseReport a0 a1 a2 a3 s) := by
  unfold refuseReport
  repeat' first
    | (with_reducible assumption)
    | (with_reducible exact Within.refl _ _)
    | (show Area.sub _ _ = true; rfl)
    | (extract_lets +onlyGivenNames t; first | (refine Within.cut [.regs, .core, .pat] s t (fun h => ?_) ?_; rotate_left; subst t; rotate_right; clear_value t) | clear_value t)
    | (with_reducible apply Within.then (h' := count_within ..))
    | (with_reducible apply Within.then (h' := fset_within ..))
    | (with_reducible apply Within.then (h' := raise_within ..))
    | (with_reducible apply Within.then (h' := takeFlag_within ..))

theorem refreshHeld_within (s : State) : Within [.regs] s (refreshHeld s) := by
  unfold refreshHeld
  repeat' first
    | intro _
    | (with_reducible assumption)
    | (with_reducible exact Within.refl _ _)
    | (show Area.sub _ _ = true; rfl)
    | (with_reducible apply Within.then (h' := fset_within ..))
    | (with_reducible apply Within.foldl)

theorem takeFree_within (s : State) : Within [.regs, .xp] s (takeFree s) := by
  unfold takeFree
  repeat' first
    | (with_reducible assumption)
    | (with_reducible exact Within.refl _ _)
    | (show Area.sub _ _ = true; rfl)
    | (extract_lets +onlyGivenNames t; first | (refine Within.cut [.regs, .xp] s t (fun h => ?_) ?_; rotate_left; subst t; rotate_right; clear_value t) | clear_value t)
    | (with_reducible apply Within.then (h' := fset_within ..))
    | (with_reducible apply Within.then (h' := refreshHeld_within ..))
    | split
    | refine Within.upd (h := ?_)

theorem abandonTail_within (s : State) : Within [.regs, .core, .pat, .xp] s (abandonTail s) := by
  unfold abandonTail
  repeat' first
    | (with_reducible assumption)
    | (with_reducible exact Within.refl _ _)
    | (show Area.sub _ _ = true; rfl)
    | (extract_lets +onlyGivenNames t; first | (refine Within.cut [.regs, .core, .pat, .xp] s t (fun h => ?_) ?_; rotate_left; subst t; rotate_right; clear_value t) | clear_value t)
    | (with_reducible apply Within.then (h' := absorbAbandoned_within ..))
    | (with_reducible apply Within.then (h' := refuseReport_within ..))
    | (with_reducible apply Within.then (h' := takeFree_within ..))
    | (with_reducible apply Within.ite)
    | split
    | refine Within.upd (h := ?_)

theorem fsyncWrite_within (a0 a1 a2) (s : State) : Within [.regs, .core, .pat] s (fsyncWrite a0 a1 a2 s) := by
  unfold fsyncWrite
  repeat' first
    | (with_reducible assumption)
    | (with_reducible exact Within.refl _ _)
    | (show Area.sub _ _ = true; rfl)
    | (extract_lets +onlyGivenNames t; first | (refine Within.cut [.regs, .core, .pat] s t (fun h => ?_) ?_; rotate_left; subst t; rotate_right; clear_value t) | clear_value t)
    | (with_reducible apply Within.then (h' := fset_within ..))
    | (with_reducible apply Within.then (h' := plainWrite_within ..))
    | (with_reducible apply Within.then (h' := refuse_within ..))
    | (with_reducible apply Within.ite)
    | split

theorem piWrite_within (a0 a1) (s : State) : Within [.regs, .core, .pat, .xp] s (piWrite a0 a1 s) := by
  unfold piWrite
  repeat' first
    | (with_reducible assumption)
    | (with_reducible exact Within.refl _ _)
    | (show Area.sub _ _ = true; rfl)
    | (extract_lets +onlyGivenNames t; first | (refine Within.cut [.regs, .core, .pat, .xp] s t (fun h => ?_) ?_; rotate_left; subst t; rotate_right; clear_value t) | clear_value t)
    | (with_reducible apply Within.then (h' := fset_within ..))
    | (with_reducible apply Within.then (h' := raise_within ..))
    | (with_reducible apply Within.then (h' := takeFlag_within ..))
    | (with_reducible apply Within.ite)
    | split
    | refine Within.upd (h := ?_)

theorem ringWrite_within (a0 a1 a2) (s : State) : Within [.regs] s (ringWrite a0 a1 a2 s) := by
  unfold ringWrite
  repeat' first
    | (with_reducible assumption)
    | (with_reducible exact Within.refl _ _)
    | (show Area.sub _ _ = true; rfl)
    | (with_reducible apply Within.then (h' := rset_within ..))
    | (with_reducible apply Within.then (h' := takeFlag_within ..))
    | (with_reducible apply Within.ite)
    | split

theorem takeCtrlWrite_within (a0 a1) (s : State) : Within [.regs, .core, .pat, .xp] s (takeCtrlWrite a0 a1 s) := by
  unfold takeCtrlWrite
  repeat' first
    | (with_reducible assumption)
    | (with_reducible exact Within.refl _ _)
    | (show Area.sub _ _ = true; rfl)
    | (extract_lets +onlyGivenNames t; first | (refine Within.cut [.regs, .core, .pat, .xp] s t (fun h => ?_) ?_; rotate_left; subst t; rotate_right; clear_value t) | clear_value t)
    | (with_reducible apply Within.then (h' := abandonTail_within ..))
    | (with_reducible apply Within.then (h' := plainWrite_within ..))
    | (with_reducible apply Within.then (h' := takeFlag_within ..))
    | (with_reducible apply Within.ite)
    | split

theorem xpWrite_within (a0 a1 a2) (s : State) : Within [.regs, .core, .pat, .xp] s (xpWrite a0 a1 a2 s) := by
  unfold xpWrite
  repeat' first
    | (with_reducible assumption)
    | (with_reducible exact Within.refl _ _)
    | (show Area.sub _ _ = true; rfl)
    | (with_reducible apply Within.then (h' := fsyncWrite_within ..))
    | (with_reducible apply Within.then (h' := piWrite_within ..))
    | (with_reducible apply Within.then (h' := plainWrite_within ..))
    | (with_reducible apply Within.then (h' := ringWrite_within ..))
    | (with_reducible apply Within.then (h' := takeCtrlWrite_within ..))
    | (with_reducible apply Within.ite)
    | split

theorem agentPart_within (a0 a1 a2) (s : State) : Within [.regs] s (agentPart a0 a1 a2 s).2 := by
  unfold agentPart
  repeat' first
    | (with_reducible assumption)
    | (with_reducible exact Within.refl _ _)
    | (show Area.sub _ _ = true; rfl)
    | (extract_lets +onlyGivenNames t; first | (refine Within.cut [.regs] s t (fun h => ?_) ?_; rotate_left; subst t; rotate_right; clear_value t) | (refine Within.cut [.regs] s t.2 (fun h => ?_) ?_; rotate_left; subst t; rotate_right; clear_value t) | clear_value t)
    | (with_reducible apply Within.then (h' := count_within ..))
    | (with_reducible apply Within.ite)
    | (with_reducible apply Within.iteSnd)
    | split
    | refine Within.upd (h := ?_)

theorem clearPend_within (a0) (s : State) : Within [.regs] s (clearPend a0 s) := by
  unfold clearPend
  repeat' first
    | (with_reducible assumption)
    | (with_reducible exact Within.refl _ _)
    | (show Area.sub _ _ = true; rfl)
    | (extract_lets +onlyGivenNames t; first | (refine Within.cut [.regs] s t (fun h => ?_) ?_; rotate_left; subst t; rotate_right; clear_value t) | clear_value t)
    | (with_reducible apply Within.then (h' := fset_within ..))

theorem countF_within (a0 a1 a2) (s : State) : Within [.regs] s (countF a0 a1 a2 s) := (by unfold countF; exact fset_within ..)

theorem fsyncRepeat_within (a0) (s : State) : Within [.regs] s (fsyncRepeat a0 s) := by
  unfold fsyncRepeat
  repeat' first
    | (with_reducible assumption)
    | (with_reducible exact Within.refl _ _)
    | (show Area.sub _ _ = true; rfl)
    | (extract_lets +onlyGivenNames t; first | (refine Within.cut [.regs] s t (fun h => ?_) ?_; rotate_left; subst t; rotate_right; clear_value t) | clear_value t)
    | (with_reducible apply Within.then (h' := countF_within ..))
    | (with_reducible apply Within.ite)
    | split

theorem destStat_within (a0 a1 a2) (s : State) : Within [.regs] s (destStat a0 a1 a2 s) := (by unfold destStat; exact fset_within ..)

theorem setDest_within (a0 a1) (s : State) : Within [.xp] s (setDest a0 a1 s) := by
  unfold setDest
  repeat' first
    | (with_reducible assumption)
    | (with_reducible exact Within.refl _ _)
    | (show Area.sub _ _ = true; rfl)
    | (extract_lets +onlyGivenNames t; first | (refine Within.cut [.xp] s t (fun h => ?_) ?_; rotate_left; subst t; rotate_right; clear_value t) | clear_value t)
    | refine Within.upd (h := ?_)

theorem setFsync_within (a0 a1) (s : State) : Within [.regs, .xp] s (setFsync a0 a1 s) := by
  unfold setFsync
  repeat' first
    | (with_reducible assumption)
    | (with_reducible exact Within.refl _ _)
    | (show Area.sub _ _ = true; rfl)
    | (extract_lets +onlyGivenNames t; first | (refine Within.cut [.regs, .xp] s t (fun h => ?_) ?_; rotate_left; subst t; rotate_right; clear_value t) | clear_value t)
    | (with_reducible apply Within.then (h' := destStat_within ..))
    | (with_reducible apply Within.then (h' := setDest_within ..))
    | refine Within.upd (h := ?_)

theorem fsyncTake_within (a0 a1) (s : State) : Within [.regs, .core, .pat, .test, .xp, .q] s (fsyncTake a0 a1 s) := by
  unfold fsyncTake
  repeat' first
    | (with_reducible assumption)
    | (with_reducible exact Within.refl _ _)
    | (show Area.sub _ _ = true; rfl)
    | (extract_lets +onlyGivenNames t; first | (refine Within.cut [.regs, .core, .pat, .test, .xp, .q] s t (fun h => ?_) ?_; rotate_left; subst t; rotate_right; clear_value t) | (refine Within.cut [.regs, .core, .pat, .test, .xp, .q] s t.2 (fun h => ?_) ?_; rotate_left; subst t; rotate_right; clear_value t) | clear_value t)
    | (with_reducible apply Within.then (h' := fsyncRepeat_within ..))
    | (with_reducible apply Within.then (h' := setFsync_within ..))
    | (with_reducible apply Within.then (h' := storeOp_within ..))
    | (with_reducible apply Within.then (h' := storeTake_within ..))
    | (with_reducible apply Within.ite)
    | (with_reducible apply Within.iteSnd)
    | split
    | refine Within.upd (h := ?_)

theorem applyPend_within (a0) (s : State) : Within [.regs, .core, .pat, .test, .xp, .q] s (applyPend a0 s) := by
  unfold applyPend
  repeat' first
    | (with_reducible assumption)
    | (with_reducible exact Within.refl _ _)
    | (show Area.sub _ _ = true; rfl)
    | (extract_lets +onlyGivenNames t; first | (refine Within.cut [.regs, .core, .pat, .test, .xp, .q] s t (fun h => ?_) ?_; rotate_left; subst t; rotate_right; clear_value t) | clear_value t)
    | (with_reducible apply Within.then (h' := clearPend_within ..))
    | (with_reducible apply Within.then (h' := fset_within ..))
    | (with_reducible apply Within.then (h' := fsyncTake_within ..))
    | (with_reducible apply Within.ite)
    | split
    | refine Within.upd (h := ?_)

theorem loadPend_within (a0) (s : State) : Within [.regs] s (loadPend a0 s) := by
  unfold loadPend
  repeat' first
    | (with_reducible assumption)
    | (with_reducible exact Within.refl _ _)
    | (show Area.sub _ _ = true; rfl)
    | (extract_lets +onlyGivenNames t; first | (refine Within.cut [.regs] s t (fun h => ?_) ?_; rotate_left; subst t; rotate_right; clear_value t) | clear_value t)
    | (with_reducible apply Within.then (h' := fset_within ..))

theorem refuseSalvo_within (a0 a1 a2 a3 a4) (s : State) : Within [.regs, .core, .pat, .xp] s (refuseSalvo a0 a1 a2 a3 a4 s) := by
  unfold refuseSalvo
  repeat' first
    | (with_reducible assumption)
    | (with_reducible exact Within.refl _ _)
    | (show Area.sub _ _ = true; rfl)
    | (with_reducible apply Within.then (h' := putRefused_within ..))
    | (with_reducible apply Within.then (h' := refuseReport_within ..))

theorem refuseRest_within (k : Nat) (s : State) : Within [.regs, .core, .pat, .xp] s (refuseRest k s) := by
  induction k generalizing s with
  | zero => exact Within.refl _ _
  | succ k ih =>
    unfold refuseRest
    simp only []
    split
    · exact (abandonTail_within ..).mono rfl
    · refine Within.then ?_ (ih _) rfl
      refine Within.then ?_ (absorbAbandoned_within ..) rfl
      refine Within.then ?_ (refuseSalvo_within ..) rfl
      exact Within.upd (h := Within.refl _ _)

theorem refuseHeld_within (a0) (s : State) : Within [.regs, .core, .pat, .xp] s (refuseHeld a0 s) := by
  unfold refuseHeld
  repeat' first
    | intro _
    | (with_reducible assumption)
    | (with_reducible exact Within.refl _ _)
    | (show Area.sub _ _ = true; rfl)
    | (extract_lets +onlyGivenNames t; first | (refine Within.cut [.regs, .core, .pat, .xp] s t (fun h => ?_) ?_; rotate_left; subst t; rotate_right; clear_value t) | clear_value t)
    | (with_reducible apply Within.then (h' := clearPend_within ..))
    | (with_reducible apply Within.then (h' := count_within ..))
    | (with_reducible apply Within.then (h' := fset_within ..))
    | (with_reducible apply Within.then (h' := loadPend_within ..))
    | (with_reducible apply Within.then (h' := raise_within ..))
    | (with_reducible apply Within.then (h' := refuseRest_within ..))
    | (with_reducible apply Within.then (h' := takeFlag_within ..))
    | (with_reducible apply Within.then (h' := takeFree_within ..))
    | (with_reducible apply Within.ite)
    | (with_reducible apply Within.foldl)
    | split
    | refine Within.upd (h := ?_)

theorem refuseUnforwarded_within (s : State) : Within [.regs, .core, .pat, .xp] s (refuseUnforwarded s) := (by unfold refuseUnforwarded; exact refuseHeld_within ..)

theorem batchRecord_within (a0) (s : State) : Within [.regs, .pat, .xp, .pair] s (batchRecord a0 s) := by
  unfold batchRecord
  repeat' first
    | intro _
    | (with_reducible assumption)
    | (with_reducible exact Within.refl _ _)
    | (show Area.sub _ _ = true; rfl)
    | (extract_lets +onlyGivenNames t; first | (refine Within.cut [.regs, .pat, .xp, .pair] s t (fun h => ?_) ?_; rotate_left; subst t; rotate_right; clear_value t) | clear_value t)
    | (with_reducible apply Within.then (h' := countN_within ..))
    | (with_reducible apply Within.then (h' := fset_within ..))
    | (with_reducible apply Within.then (h' := markDirty_within ..))
    | (with_reducible apply Within.then (h' := mirrorSend_within ..))
    | (with_reducible apply Within.then (h' := rset64_within ..))
    | (with_reducible apply Within.then (h' := sendDone_within ..))
    | (with_reducible apply Within.then (h' := takeFree_within ..))
    | (with_reducible apply Within.ite)
    | (with_reducible apply Within.foldl)
    | split
    | refine Within.upd (h := ?_)

theorem choosePath_within (d p : Nat) (s : State) : Within [.regs, .core, .pat, .xp] s (choosePath d p s) := by
  have put (v : Dest) (unt off : Bool) (s : State) : Within [.regs, .core, .pat, .xp] s
      (destStat d Fld.XP_DEST_STAT_OFF_RATE (b2n off) (destStat d Fld.XP_DEST_STAT_UNTIMED (b2n unt) (setDest d v s))) :=
    (((setDest_within ..).mono rfl).then (destStat_within ..) rfl).then (destStat_within ..) rfl
  unfold choosePath
  extract_lets x v src q
  exact .ite (put ..) (.ite (put ..) (.ite (put ..) (.ite (put ..) ((put ..).then (raise_within ..) rfl))))

theorem commitSalvo_within (a0 a1 a2 a3 a4 a5 a6) (s : State) : Within [.regs, .xp, .pair] s (commitSalvo a0 a1 a2 a3 a4 a5 a6 s) := by
  unfold commitSalvo
  repeat' first
    | intro _
    | (with_reducible assumption)
    | (with_reducible exact Within.refl _ _)
    | (show Area.sub _ _ = true; rfl)
    | (extract_lets +onlyGivenNames t; first | (refine Within.cut [.regs, .xp, .pair] s t (fun h => ?_) ?_; rotate_left; subst t; rotate_right; clear_value t) | (refine Within.cut [.regs, .xp, .pair] s t.2 (fun h => ?_) ?_; rotate_left; subst t; rotate_right; clear_value t) | (have _h := fun x => (t x : State)) | (have _h := fun x y => (t x y : State)) | (have _h := fun x y z => (t x y z : State)) | clear_value t)
    | (with_reducible apply Within.then (h' := agentPart_within ..))
    | (with_reducible apply Within.then (h' := mirrorSend_within ..))
    | (with_reducible apply Within.then (h' := takeFree_within ..))
    | (with_reducible apply Within.ite)
    | (with_reducible apply Within.iteSnd)
    | (with_reducible apply Within.foldl)
    | (with_reducible apply Within.foldlSnd)
    | split
    | refine Within.upd (h := ?_)

theorem slipLane_within (a0 a1 a2) (s : State) : Within [.regs, .core, .pat, .xp] s (slipLane a0 a1 a2 s) := by
  unfold slipLane
  repeat' first
    | (with_reducible assumption)
    | (with_reducible exact Within.refl _ _)
    | (show Area.sub _ _ = true; rfl)
    | (extract_lets +onlyGivenNames t; first | (refine Within.cut [.regs, .core, .pat, .xp] s t (fun h => ?_) ?_; rotate_left; subst t; rotate_right; clear_value t) | clear_value t)
    | (with_reducible apply Within.then (h' := fset_within ..))
    | (with_reducible apply Within.then (h' := raise_within ..))
    | (with_reducible apply Within.ite)
    | split
    | refine Within.upd (h := ?_)

theorem laneUnder_within (a0 a1 a2) (s : State) : Within [.regs, .core, .pat, .xp] s (laneUnder a0 a1 a2 s).2 := by
  unfold laneUnder
  repeat' first
    | (with_reducible assumption)
    | (with_reducible exact Within.refl _ _)
    | (show Area.sub _ _ = true; rfl)
    | (with_reducible apply Within.then (h' := slipLane_within ..))
    | (with_reducible apply Within.ite)
    | (with_reducible apply Within.iteSnd)
    | split

theorem lanesRead_within {w : List Area} {f : Nat → State → List Nat × State} {vs : List Nat} {s u : State}
    (_hb : Area.sub [] w = true) (hu : Within w s u) (h : ∀ v t, Within w s t → Within w s (f v t).2) :
    Within w s (lanesRead f vs u).2 := by
  unfold lanesRead
  exact Within.foldlSnd hu (fun r v hr => h v r.2 hr)

theorem fifoLine_within (a0 a1 a2 a3) (s : State) : Within [.regs, .core, .pat, .test, .xp, .fresh] s (fifoLine a0 a1 a2 a3 s).2 := by
  unfold fifoLine
  repeat' first
    | intro _
    | (with_reducible assumption)
    | (with_reducible exact Within.refl _ _)
    | (show Area.sub _ _ = true; rfl)
    | (extract_lets +onlyGivenNames t; first | (refine Within.cut [.regs, .core, .pat, .test, .xp, .fresh] s t (fun h => ?_) ?_; rotate_left; subst t; rotate_right; clear_value t) | (refine Within.cut [.regs, .core, .pat, .test, .xp, .fresh] s t.2 (fun h => ?_) ?_; rotate_left; subst t; rotate_right; clear_value t) | clear_value t)
    | (with_reducible apply Within.then (h' := fifoRead_within ..))
    | (with_reducible apply Within.then (h' := laneUnder_within ..))
    | (with_reducible refine lanesRead_within ?_ ?_ (fun t => ?_))
    | (with_reducible apply Within.then (h' := madeFifoRead_within ..))
    | (with_reducible apply Within.ite)
    | (with_reducible apply Within.iteSnd)
    | (with_reducible apply Within.foldl)
    | (with_reducible apply Within.foldlSnd)
    | split

theorem headRead_within (a0 a1 a2) (s : State) : Within [.regs, .core, .pat, .test, .xp, .fresh] s (headRead a0 a1 a2 s).2 := by
  unfold headRead
  repeat' first
    | (with_reducible assumption)
    | (with_reducible exact Within.refl _ _)
    | (show Area.sub _ _ = true; rfl)
    | (extract_lets +onlyGivenNames t; first | (refine Within.cut [.regs, .core, .pat, .test, .xp, .fresh] s t (fun h => ?_) ?_; rotate_left; subst t; rotate_right; clear_value t) | (refine Within.cut [.regs, .core, .pat, .test, .xp, .fresh] s t.2 (fun h => ?_) ?_; rotate_left; subst t; rotate_right; clear_value t) | clear_value t)
    | (with_reducible apply Within.then (h' := hbmRead_within ..))
    | (with_reducible apply Within.then (h' := spend_within ..))
    | (with_reducible apply Within.ite)
    | (with_reducible apply Within.iteSnd)
    | split
    | refine Within.upd (h := ?_)

theorem quadLane_within (a0 a1 a2 a3) (s : State) : Within [.regs, .core, .pat, .xp] s (quadLane a0 a1 a2 a3 s).2 := by
  unfold quadLane
  repeat' first
    | (with_reducible assumption)
    | (with_reducible exact Within.refl _ _)
    | (show Area.sub _ _ = true; rfl)
    | (extract_lets +onlyGivenNames t; first | (refine Within.cut [.regs, .core, .pat, .xp] s t (fun h => ?_) ?_; rotate_left; subst t; rotate_right; clear_value t) | (refine Within.cut [.regs, .core, .pat, .xp] s t.2 (fun h => ?_) ?_; rotate_left; subst t; rotate_right; clear_value t) | clear_value t)
    | (with_reducible apply Within.then (h' := slipLane_within ..))
    | split
    | refine Within.upd (h := ?_)

theorem ringLine_within (a0 a1 a2 a3) (s : State) : Within [.regs, .core, .pat, .test, .xp, .fresh] s (ringLine a0 a1 a2 a3 s).2 := by
  unfold ringLine
  repeat' first
    | intro _
    | (with_reducible assumption)
    | (with_reducible exact Within.refl _ _)
    | (show Area.sub _ _ = true; rfl)
    | (with_reducible apply Within.then (h' := headRead_within ..))
    | (with_reducible refine lanesRead_within ?_ ?_ (fun t => ?_))
    | (with_reducible apply Within.then (h' := quadLane_within ..))
    | (with_reducible apply Within.then (h' := spend_within ..))
    | (with_reducible apply Within.ite)
    | (with_reducible apply Within.iteSnd)
    | (with_reducible apply Within.foldl)
    | (with_reducible apply Within.foldlSnd)
    | split

theorem destLine_within (a0 a1 a2) (s : State) : Within [.regs, .core, .pat, .test, .xp, .fresh] s (destLine a0 a1 a2 s).2 := by
  unfold destLine
  repeat' first
    | (with_reducible assumption)
    | (with_reducible exact Within.refl _ _)
    | (show Area.sub _ _ = true; rfl)
    | (extract_lets +onlyGivenNames t; first | (refine Within.cut [.regs, .core, .pat, .test, .xp, .fresh] s t (fun h => ?_) ?_; rotate_left; subst t; rotate_right; clear_value t) | (refine Within.cut [.regs, .core, .pat, .test, .xp, .fresh] s t.2 (fun h => ?_) ?_; rotate_left; subst t; rotate_right; clear_value t) | clear_value t)
    | (with_reducible apply Within.then (h' := fifoLine_within ..))
    | (with_reducible apply Within.then (h' := hbmRead_within ..))
    | (with_reducible apply Within.then (h' := ringLine_within ..))
    | (with_reducible apply Within.then (h' := setDest_within ..))
    | (with_reducible apply Within.then (h' := spend_within ..))
    | (with_reducible apply Within.ite)
    | (with_reducible apply Within.iteSnd)
    | split
    | refine Within.upd (h := ?_)

theorem realign_within (a0) (s : State) : Within [.xp] s (realign a0 s) := by
  unfold realign
  repeat' first
    | (with_reducible assumption)
    | (with_reducible exact Within.refl _ _)
    | (show Area.sub _ _ = true; rfl)
    | (extract_lets +onlyGivenNames t; first | (refine Within.cut [.xp] s t (fun h => ?_) ?_; rotate_left; subst t; rotate_right; clear_value t) | (have _h := fun x => (t x : State)) | (have _h := fun x y => (t x y : State)) | (have _h := fun x y z => (t x y z : State)) | clear_value t)
    | (with_reducible apply Within.ite)
    | split
    | refine Within.upd (h := ?_)

theorem destSwitchRead_within (a0) (s : State) : Within [.regs, .core, .pat, .test, .xp, .q] s (destSwitchRead a0 s) := by
  unfold destSwitchRead
  repeat' first
    | intro _
    | (with_reducible assumption)
    | (with_reducible exact Within.refl _ _)
    | (show Area.sub _ _ = true; rfl)
    | (with_reducible apply Within.then (h' := applyPend_within ..))
    | (with_reducible apply Within.then (h' := choosePath_within ..))
    | (with_reducible apply Within.then (h' := realign_within ..))
    | (with_reducible apply Within.ite)
    | (with_reducible apply Within.foldl)
    | split

theorem wholeFrame_within (a0 a1) (s : State) : Within [.regs, .core, .pat, .xp] s (wholeFrame a0 a1 s).2 := by
  unfold wholeFrame
  repeat' first
    | intro _
    | (with_reducible assumption)
    | (with_reducible exact Within.refl _ _)
    | (show Area.sub _ _ = true; rfl)
    | (extract_lets +onlyGivenNames t; first | (refine Within.cut [.regs, .core, .pat, .xp] s t (fun h => ?_) ?_; rotate_left; subst t; rotate_right; clear_value t) | (refine Within.cut [.regs, .core, .pat, .xp] s t.2 (fun h => ?_) ?_; rotate_left; subst t; rotate_right; clear_value t) | clear_value t)
    | (with_reducible apply Within.then (h' := laneUnder_within ..))
    | (with_reducible apply Within.ite)
    | (with_reducible apply Within.iteSnd)
    | (with_reducible apply Within.foldl)
    | (with_reducible apply Within.foldlSnd)
    | split
    | refine Within.upd (h := ?_)

theorem fsyncComplete_within (a0) (s : State) : Within [.regs, .core, .pat, .test, .xp, .q] s (fsyncComplete a0 s) := by
  unfold fsyncComplete
  repeat' first
    | (with_reducible assumption)
    | (with_reducible exact Within.refl _ _)
    | (show Area.sub _ _ = true; rfl)
    | (extract_lets +onlyGivenNames t; first | (refine Within.cut [.regs, .core, .pat, .test, .xp, .q] s t (fun h => ?_) ?_; rotate_left; subst t; rotate_right; clear_value t) | (refine Within.cut [.regs, .core, .pat, .test, .xp, .q] s t.2 (fun h => ?_) ?_; rotate_left; subst t; rotate_right; clear_value t) | clear_value t)
    | (with_reducible apply Within.then (h' := countF_within ..))
    | (with_reducible apply Within.then (h' := setDest_within ..))
    | (with_reducible apply Within.then (h' := storeOp_within ..))
    | (with_reducible apply Within.then (h' := wholeFrame_within ..))
    | (with_reducible apply Within.ite)
    | (with_reducible apply Within.iteSnd)
    | split
    | refine Within.upd (h := ?_)

theorem fsyncExpire_within (a0) (s : State) : Within [.regs, .core, .pat, .xp] s (fsyncExpire a0 s) := by
  unfold fsyncExpire
  repeat' first
    | (with_reducible assumption)
    | (with_reducible exact Within.refl _ _)
    | (show Area.sub _ _ = true; rfl)
    | (extract_lets +onlyGivenNames t; first | (refine Within.cut [.regs, .core, .pat, .xp] s t (fun h => ?_) ?_; rotate_left; subst t; rotate_right; clear_value t) | clear_value t)
    | (with_reducible apply Within.then (h' := raise_within ..))
    | (with_reducible apply Within.then (h' := setFsync_within ..))
    | (with_reducible apply Within.ite)
    | split
    | refine Within.upd (h := ?_)

theorem fsyncLose_within (a0 a1) (s : State) : Within [.regs, .core, .pat, .xp] s (fsyncLose a0 a1 s) := by
  unfold fsyncLose
  repeat' first
    | (with_reducible assumption)
    | (with_reducible exact Within.refl _ _)
    | (show Area.sub _ _ = true; rfl)
    | (extract_lets +onlyGivenNames t; first | (refine Within.cut [.regs, .core, .pat, .xp] s t (fun h => ?_) ?_; rotate_left; subst t; rotate_right; clear_value t) | clear_value t)
    | (with_reducible apply Within.then (h' := raise_within ..))
    | (with_reducible apply Within.then (h' := setFsync_within ..))
    | (with_reducible apply Within.ite)
    | split
    | refine Within.upd (h := ?_)

theorem fsyncSelect_within (a0) (s : State) : Within [.regs, .core, .pat, .test, .xp, .q] s (fsyncSelect a0 s) := by
  unfold fsyncSelect
  repeat' first
    | (with_reducible assumption)
    | (with_reducible exact Within.refl _ _)
    | (show Area.sub _ _ = true; rfl)
    | (extract_lets +onlyGivenNames t; first | (refine Within.cut [.regs, .core, .pat, .test, .xp, .q] s t (fun h => ?_) ?_; rotate_left; subst t; rotate_right; clear_value t) | (refine Within.cut [.regs, .core, .pat, .test, .xp, .q] s t.2 (fun h => ?_) ?_; rotate_left; subst t; rotate_right; clear_value t) | clear_value t)
    | (with_reducible apply Within.then (h' := fsyncLose_within ..))
    | (with_reducible apply Within.then (h' := fsyncRepeat_within ..))
    | (with_reducible apply Within.then (h' := setFsync_within ..))
    | (with_reducible apply Within.then (h' := storeOp_within ..))
    | (with_reducible apply Within.then (h' := storeTake_within ..))
    | (with_reducible apply Within.ite)
    | (with_reducible apply Within.iteSnd)
    | split
    | refine Within.upd (h := ?_)

theorem fsyncSettings_within (a0) (s : State) : Within [.regs, .xp] s (fsyncSettings a0 s) := by
  unfold fsyncSettings
  repeat' first
    | (with_reducible assumption)
    | (with_reducible exact Within.refl _ _)
    | (show Area.sub _ _ = true; rfl)
    | (extract_lets +onlyGivenNames t; first | (refine Within.cut [.regs, .xp] s t (fun h => ?_) ?_; rotate_left; subst t; rotate_right; clear_value t) | clear_value t)
    | (with_reducible apply Within.then (h' := setFsync_within ..))
    | (with_reducible apply Within.ite)
    | split
    | refine Within.upd (h := ?_)

theorem fsyncSwitch_within (a0) (s : State) : Within [.regs, .core, .pat, .test, .xp, .q] s (fsyncSwitch a0 s) := by
  unfold fsyncSwitch
  repeat' first
    | (with_reducible assumption)
    | (with_reducible exact Within.refl _ _)
    | (show Area.sub _ _ = true; rfl)
    | (extract_lets +onlyGivenNames t; first | (refine Within.cut [.regs, .core, .pat, .test, .xp, .q] s t (fun h => ?_) ?_; rotate_left; subst t; rotate_right; clear_value t) | clear_value t)
    | (with_reducible apply Within.then (h' := fsyncSelect_within ..))
    | (with_reducible apply Within.then (h' := fsyncSettings_within ..))
    | (with_reducible apply Within.then (h' := fsyncTake_within ..))
    | split

theorem planeCutoff_within (a0) (s : State) : Within [.regs, .core, .pat, .xp] s (planeCutoff a0 s) := by
  unfold planeCutoff
  repeat' first
    | intro _
    | (with_reducible assumption)
    | (with_reducible exact Within.refl _ _)
    | (show Area.sub _ _ = true; rfl)
    | (extract_lets +onlyGivenNames t; first | (refine Within.cut [.regs, .core, .pat, .xp] s t (fun h => ?_) ?_; rotate_left; subst t; rotate_right; clear_value t) | clear_value t)
    | (with_reducible apply Within.then (h' := count_within ..))
    | (with_reducible apply Within.then (h' := loadPend_within ..))
    | (with_reducible apply Within.then (h' := raise_within ..))
    | (with_reducible apply Within.ite)
    | (with_reducible apply Within.foldl)
    | split
    | refine Within.upd (h := ?_)

theorem salvoCommit_within (a0 a1) (s : State) : Within [.regs, .core, .pat, .xp, .pair] s (salvoCommit a0 a1 s) := by
  unfold salvoCommit
  repeat' first
    | (with_reducible assumption)
    | (with_reducible exact Within.refl _ _)
    | (show Area.sub _ _ = true; rfl)
    | (extract_lets +onlyGivenNames t; first | (refine Within.cut [.regs, .core, .pat, .xp, .pair] s t (fun h => ?_) ?_; rotate_left; subst t; rotate_right; clear_value t) | clear_value t)
    | (with_reducible apply Within.then (h' := absorbAbandoned_within ..))
    | (with_reducible apply Within.then (h' := commitSalvo_within ..))
    | (with_reducible apply Within.then (h' := refuseSalvo_within ..))
    | (with_reducible apply Within.then (h' := takeFree_within ..))
    | (with_reducible apply Within.ite)
    | split
    | refine Within.upd (h := ?_)

end Sys2Proof.Machine
end

