-- ==== Sys2Proof/Laws/WithinSdiOut.lean ====
section
/-! SUPPORT. What each operation of Machine/SdiOut.lean may change: one frame per operation. -/

namespace Sys2Proof.Machine

set_option Elab.async false
set_option linter.all false
set_option linter.tactic.unusedName false

theorem setLane_within (a0 a1) (s : State) : Within [.vl] s (setLane a0 a1 s) := by
  unfold setLane
  repeat' first
    | (with_reducible assumption)
    | (with_reducible exact Within.refl _ _)
    | (show Area.sub _ _ = true; rfl)
    | (extract_lets +onlyGivenNames t; first | (refine Within.cut [.vl] s t (fun h => ?_) ?_; rotate_left; subst t; rotate_right; clear_value t) | clear_value t)
    | refine Within.upd (h := ?_)

theorem baseStreams_within (a0 a1 a2 a3 a4 a5) (s : State) : Within [.fresh] s (baseStreams a0 a1 a2 a3 a4 a5 s).2 := by
  unfold baseStreams
  repeat' first
    | (with_reducible assumption)
    | (with_reducible exact Within.refl _ _)
    | (show Area.sub _ _ = true; rfl)
    | (extract_lets +onlyGivenNames t; first | (refine Within.cut [.fresh] s t (fun h => ?_) ?_; rotate_left; subst t; rotate_right; clear_value t) | (refine Within.cut [.fresh] s t.2 (fun h => ?_) ?_; rotate_left; subst t; rotate_right; clear_value t) | (have _h := fun x => (t x : State)) | (have _h := fun x y => (t x y : State)) | (have _h := fun x y z => (t x y z : State)) | clear_value t)
    | (with_reducible apply Within.then (h' := spend_within ..))
    | (with_reducible apply Within.ite)
    | (with_reducible apply Within.iteSnd)
    | split

theorem pictureLine_within (a0 a1 a2) (s : State) : Within [.xp] s (pictureLine a0 a1 a2 s) := by
  unfold pictureLine
  repeat' first
    | (with_reducible assumption)
    | (with_reducible exact Within.refl _ _)
    | (show Area.sub _ _ = true; rfl)
    | (extract_lets +onlyGivenNames t; first | (refine Within.cut [.xp] s t (fun h => ?_) ?_; rotate_left; subst t; rotate_right; clear_value t) | clear_value t)
    | (with_reducible apply Within.then (h' := emit_within ..))
    | (with_reducible apply Within.ite)
    | split
    | refine Within.upd (h := ?_)

theorem laneLine_within (a0 a1 a2 a3) (s : State) : Within [.regs, .vl, .fresh] s (laneLine a0 a1 a2 a3 s).2 := by
  unfold laneLine
  repeat' first
    | intro _
    | (with_reducible assumption)
    | (with_reducible exact Within.refl _ _)
    | (show Area.sub _ _ = true; rfl)
    | (extract_lets +onlyGivenNames t; first | (refine Within.cut [.regs, .vl, .fresh] s t (fun h => ?_) ?_; rotate_left; subst t; rotate_right; clear_value t) | (refine Within.cut [.regs, .vl, .fresh] s t.2 (fun h => ?_) ?_; rotate_left; subst t; rotate_right; clear_value t) | clear_value t)
    | (with_reducible apply Within.then (h' := baseStreams_within ..))
    | (with_reducible apply Within.then (h' := countN_within ..))
    | (with_reducible apply Within.then (h' := setLane_within ..))
    | (with_reducible apply Within.then (h' := spend_within ..))
    | (with_reducible apply Within.ite)
    | (with_reducible apply Within.iteSnd)
    | (with_reducible apply Within.foldl)
    | (with_reducible apply Within.foldlSnd)
    | split
    | refine Within.upd (h := ?_)

theorem sdiLine_within (a0 a1 a2 a3) (s : State) : Within [.regs, .xp, .vl, .fresh] s (sdiLine a0 a1 a2 a3 s) := by
  unfold sdiLine
  repeat' first
    | intro _
    | (with_reducible assumption)
    | (with_reducible exact Within.refl _ _)
    | (show Area.sub _ _ = true; rfl)
    | (extract_lets +onlyGivenNames t; first | (refine Within.cut [.regs, .xp, .vl, .fresh] s t (fun h => ?_) ?_; rotate_left; subst t; rotate_right; clear_value t) | (refine Within.cut [.regs, .xp, .vl, .fresh] s t.2 (fun h => ?_) ?_; rotate_left; subst t; rotate_right; clear_value t) | clear_value t)
    | (with_reducible apply Within.then (h' := emit_within ..))
    | (with_reducible apply Within.then (h' := laneLine_within ..))
    | (with_reducible refine lanesRead_within ?_ ?_ (fun t => ?_))
    | (with_reducible apply Within.ite)
    | (with_reducible apply Within.iteSnd)
    | (with_reducible apply Within.foldl)
    | (with_reducible apply Within.foldlSnd)
    | split
    | refine Within.upd (h := ?_)

theorem destLineRead_within (a0 a1 a2) (s : State) : Within [.regs, .core, .pat, .test, .xp, .vl, .fresh] s (destLineRead a0 a1 a2 s) := by
  unfold destLineRead
  repeat' first
    | (with_reducible assumption)
    | (with_reducible exact Within.refl _ _)
    | (show Area.sub _ _ = true; rfl)
    | (extract_lets +onlyGivenNames t; first | (refine Within.cut [.regs, .core, .pat, .test, .xp, .vl, .fresh] s t (fun h => ?_) ?_; rotate_left; subst t; rotate_right; clear_value t) | (refine Within.cut [.regs, .core, .pat, .test, .xp, .vl, .fresh] s t.2 (fun h => ?_) ?_; rotate_left; subst t; rotate_right; clear_value t) | clear_value t)
    | (with_reducible apply Within.then (h' := destLine_within ..))
    | (with_reducible apply Within.then (h' := pictureLine_within ..))
    | (with_reducible apply Within.then (h' := sdiLine_within ..))
    | (with_reducible apply Within.then (h' := setDest_within ..))
    | (with_reducible apply Within.ite)
    | (with_reducible apply Within.iteSnd)
    | split
    | refine Within.upd (h := ?_)

end Sys2Proof.Machine
end

