-- ==== Sys2Proof/Laws/WithinVlaneFamily.lean ====
section
/-! SUPPORT. What each operation of Machine/VlaneFamily.lean may change: one frame per operation. -/

namespace Sys2Proof.Machine

set_option Elab.async false
set_option linter.all false
set_option linter.tactic.unusedName false

theorem setDp_within (a0 a1) (s : State) : Within [.vl] s (setDp a0 a1 s) := by
  unfold setDp
  repeat' first
    | (with_reducible assumption)
    | (with_reducible exact Within.refl _ _)
    | (show Area.sub _ _ = true; rfl)
    | (extract_lets +onlyGivenNames t; first | (refine Within.cut [.vl] s t (fun h => ?_) ?_; rotate_left; subst t; rotate_right; clear_value t) | clear_value t)
    | refine Within.upd (h := ?_)

theorem auxStart_within (a0) (s : State) : Within [.vl] s (auxStart a0 s) := by
  unfold auxStart
  repeat' first
    | (with_reducible assumption)
    | (with_reducible exact Within.refl _ _)
    | (show Area.sub _ _ = true; rfl)
    | (extract_lets +onlyGivenNames t; first | (refine Within.cut [.vl] s t (fun h => ?_) ?_; rotate_left; subst t; rotate_right; clear_value t) | clear_value t)
    | (with_reducible apply Within.then (h' := emit_within ..))
    | (with_reducible apply Within.then (h' := setDp_within ..))
    | (with_reducible apply Within.ite)
    | split
    | refine Within.upd (h := ?_)

theorem auxCmdWrite_within (a0 a1 a2) (s : State) : Within [.regs, .core, .pat, .vl] s (auxCmdWrite a0 a1 a2 s) := by
  unfold auxCmdWrite
  repeat' first
    | (with_reducible assumption)
    | (with_reducible exact Within.refl _ _)
    | (show Area.sub _ _ = true; rfl)
    | (extract_lets +onlyGivenNames t; first | (refine Within.cut [.regs, .core, .pat, .vl] s t (fun h => ?_) ?_; rotate_left; subst t; rotate_right; clear_value t) | clear_value t)
    | (with_reducible apply Within.then (h' := auxStart_within ..))
    | (with_reducible apply Within.then (h' := fset_within ..))
    | (with_reducible apply Within.then (h' := refuse_within ..))
    | (with_reducible apply Within.then (h' := setDp_within ..))
    | (with_reducible apply Within.ite)
    | split
    | refine Within.upd (h := ?_)

theorem dpStat_within (a0 a1 a2) (s : State) : Within [.regs] s (dpStat a0 a1 a2 s) := (by unfold dpStat; exact fset_within ..)

theorem dpEnter_within (a0 a1) (s : State) : Within [.regs, .vl] s (dpEnter a0 a1 s) := by
  unfold dpEnter
  repeat' first
    | (with_reducible assumption)
    | (with_reducible exact Within.refl _ _)
    | (show Area.sub _ _ = true; rfl)
    | (extract_lets +onlyGivenNames t; first | (refine Within.cut [.regs, .vl] s t (fun h => ?_) ?_; rotate_left; subst t; rotate_right; clear_value t) | clear_value t)
    | (with_reducible apply Within.then (h' := auxStart_within ..))
    | (with_reducible apply Within.then (h' := dpStat_within ..))
    | (with_reducible apply Within.then (h' := setDp_within ..))
    | (with_reducible apply Within.ite)
    | split
    | refine Within.upd (h := ?_)

theorem ownStart_within (a0) (s : State) : Within [.vl] s (ownStart a0 s) := by
  unfold ownStart
  repeat' first
    | (with_reducible assumption)
    | (with_reducible exact Within.refl _ _)
    | (show Area.sub _ _ = true; rfl)
    | (extract_lets +onlyGivenNames t; first | (refine Within.cut [.vl] s t (fun h => ?_) ?_; rotate_left; subst t; rotate_right; clear_value t) | clear_value t)
    | (with_reducible apply Within.then (h' := emit_within ..))
    | (with_reducible apply Within.then (h' := setDp_within ..))
    | (with_reducible apply Within.ite)
    | split
    | refine Within.upd (h := ?_)

theorem dpTrain_within (a0) (s : State) : Within [.regs, .vl] s (dpTrain a0 s) := by
  unfold dpTrain
  repeat' first
    | (with_reducible assumption)
    | (with_reducible exact Within.refl _ _)
    | (show Area.sub _ _ = true; rfl)
    | (extract_lets +onlyGivenNames t; first | (refine Within.cut [.regs, .vl] s t (fun h => ?_) ?_; rotate_left; subst t; rotate_right; clear_value t) | clear_value t)
    | (with_reducible apply Within.then (h' := count_within ..))
    | (with_reducible apply Within.then (h' := dpEnter_within ..))
    | (with_reducible apply Within.then (h' := ownStart_within ..))
    | (with_reducible apply Within.then (h' := setDp_within ..))
    | (with_reducible apply Within.ite)
    | split
    | refine Within.upd (h := ?_)

theorem dpEnable_within (a0) (s : State) : Within [.regs, .vl] s (dpEnable a0 s) := by
  unfold dpEnable
  repeat' first
    | (with_reducible assumption)
    | (with_reducible exact Within.refl _ _)
    | (show Area.sub _ _ = true; rfl)
    | (extract_lets +onlyGivenNames t; first | (refine Within.cut [.regs, .vl] s t (fun h => ?_) ?_; rotate_left; subst t; rotate_right; clear_value t) | clear_value t)
    | (with_reducible apply Within.then (h' := dpEnter_within ..))
    | (with_reducible apply Within.then (h' := dpStat_within ..))
    | (with_reducible apply Within.then (h' := dpTrain_within ..))
    | (with_reducible apply Within.ite)
    | split

theorem dpCtrlWrite_within (a0 a1) (s : State) : Within [.regs, .vl] s (dpCtrlWrite a0 a1 s) := by
  unfold dpCtrlWrite
  repeat' first
    | (with_reducible assumption)
    | (with_reducible exact Within.refl _ _)
    | (show Area.sub _ _ = true; rfl)
    | (extract_lets +onlyGivenNames t; first | (refine Within.cut [.regs, .vl] s t (fun h => ?_) ?_; rotate_left; subst t; rotate_right; clear_value t) | clear_value t)
    | (with_reducible apply Within.then (h' := dpEnable_within ..))
    | (with_reducible apply Within.then (h' := dpEnter_within ..))
    | (with_reducible apply Within.then (h' := dpTrain_within ..))
    | (with_reducible apply Within.then (h' := plainWrite_within ..))
    | (with_reducible apply Within.ite)
    | split

theorem vlaneWrite_within (a0 a1 a2) (s : State) : Within [.regs, .core, .pat, .vl] s (vlaneWrite a0 a1 a2 s) := by
  unfold vlaneWrite
  repeat' first
    | (with_reducible assumption)
    | (with_reducible exact Within.refl _ _)
    | (show Area.sub _ _ = true; rfl)
    | (extract_lets +onlyGivenNames t; first | (refine Within.cut [.regs, .core, .pat, .vl] s t (fun h => ?_) ?_; rotate_left; subst t; rotate_right; clear_value t) | clear_value t)
    | (with_reducible apply Within.then (h' := auxCmdWrite_within ..))
    | (with_reducible apply Within.then (h' := dpCtrlWrite_within ..))
    | (with_reducible apply Within.then (h' := plainWrite_within ..))
    | (with_reducible apply Within.then (h' := queueRegWrite_within ..))
    | (with_reducible apply Within.then (h' := refuse_within ..))
    | (with_reducible apply Within.ite)
    | split

theorem fcStep_within (a0 a1) (s : State) : Within [.vl] s (fcStep a0 a1 s) := by
  unfold fcStep
  repeat' first
    | (with_reducible assumption)
    | (with_reducible exact Within.refl _ _)
    | (show Area.sub _ _ = true; rfl)
    | (extract_lets +onlyGivenNames t; first | (refine Within.cut [.vl] s t (fun h => ?_) ?_; rotate_left; subst t; rotate_right; clear_value t) | clear_value t)
    | (with_reducible apply Within.then (h' := setLane_within ..))
    | (with_reducible apply Within.ite)
    | split
    | refine Within.upd (h := ?_)

theorem ancCapture_within (a0 a1 a2 a3 a4 a5 a6 a7 a8) (s : State) : Within [.regs, .core, .pat, .test, .vl, .q, .fresh] s (ancCapture a0 a1 a2 a3 a4 a5 a6 a7 a8 s) := by
  unfold ancCapture
  repeat' first
    | (with_reducible assumption)
    | (with_reducible exact Within.refl _ _)
    | (show Area.sub _ _ = true; rfl)
    | (extract_lets +onlyGivenNames t; first | (refine Within.cut [.regs, .core, .pat, .test, .vl, .q, .fresh] s t (fun h => ?_) ?_; rotate_left; subst t; rotate_right; clear_value t) | (refine Within.cut [.regs, .core, .pat, .test, .vl, .q, .fresh] s t.2 (fun h => ?_) ?_; rotate_left; subst t; rotate_right; clear_value t) | clear_value t)
    | (with_reducible apply Within.then (h' := checkFails_within ..))
    | (with_reducible apply Within.then (h' := count_within ..))
    | (with_reducible apply Within.then (h' := fcStep_within ..))
    | (with_reducible apply Within.then (h' := putRecord_within ..))
    | (with_reducible apply Within.then (h' := raise_within ..))
    | (with_reducible apply Within.then (h' := roomFor_within ..))
    | (with_reducible apply Within.then (h' := setLane_within ..))
    | (with_reducible apply Within.ite)
    | (with_reducible apply Within.iteSnd)
    | split
    | refine Within.upd (h := ?_)

theorem readRecords_within (q n : Nat) (s : State) : Within [.regs, .core, .pat, .test, .q] s (readRecords q n s).2 := by
  induction n generalizing s with
  | zero => exact Within.refl _ _
  | succ n ih =>
    have h := takeRecord_within q s
    unfold readRecords
    split
    · rename_i e; rw [e] at h; exact h.mono rfl
    · rename_i e; rw [e] at h; exact Within.then (h.mono rfl) (ih _) rfl

theorem auxDone_within (a0 a1) (s : State) : Within [.regs, .vl] s (auxDone a0 a1 s) := by
  unfold auxDone
  repeat' first
    | (with_reducible assumption)
    | (with_reducible exact Within.refl _ _)
    | (show Area.sub _ _ = true; rfl)
    | (extract_lets +onlyGivenNames t; first | (refine Within.cut [.regs, .vl] s t (fun h => ?_) ?_; rotate_left; subst t; rotate_right; clear_value t) | clear_value t)
    | (with_reducible apply Within.then (h' := fset_within ..))
    | (with_reducible apply Within.then (h' := ownStart_within ..))
    | (with_reducible apply Within.then (h' := setDp_within ..))
    | refine Within.upd (h := ?_)

theorem dpFail_within (a0 a1) (s : State) : Within [.regs, .core, .pat, .vl] s (dpFail a0 a1 s) := by
  unfold dpFail
  repeat' first
    | (with_reducible assumption)
    | (with_reducible exact Within.refl _ _)
    | (show Area.sub _ _ = true; rfl)
    | (with_reducible apply Within.then (h' := dpEnter_within ..))
    | (with_reducible apply Within.then (h' := dpStat_within ..))
    | (with_reducible apply Within.then (h' := raise_within ..))

theorem auxReply_within (a0 a1 a2) (s : State) : Within [.regs, .core, .pat, .vl] s (auxReply a0 a1 a2 s) := by
  unfold auxReply
  repeat' first
    | intro _
    | (with_reducible assumption)
    | (with_reducible exact Within.refl _ _)
    | (show Area.sub _ _ = true; rfl)
    | (extract_lets +onlyGivenNames t; first | (refine Within.cut [.regs, .core, .pat, .vl] s t (fun h => ?_) ?_; rotate_left; subst t; rotate_right; clear_value t) | clear_value t)
    | (with_reducible apply Within.then (h' := auxDone_within ..))
    | (with_reducible apply Within.then (h' := auxStart_within ..))
    | (with_reducible apply Within.then (h' := dpFail_within ..))
    | (with_reducible apply Within.then (h' := dpTrain_within ..))
    | (with_reducible apply Within.then (h' := emit_within ..))
    | (with_reducible apply Within.then (h' := rsetN_within ..))
    | (with_reducible apply Within.then (h' := setDp_within ..))
    | (with_reducible apply Within.ite)
    | (with_reducible apply Within.foldl)
    | split
    | refine Within.upd (h := ?_)

theorem auxTimeout_within (a0) (s : State) : Within [.regs, .core, .pat, .vl] s (auxTimeout a0 s) := by
  unfold auxTimeout
  repeat' first
    | (with_reducible assumption)
    | (with_reducible exact Within.refl _ _)
    | (show Area.sub _ _ = true; rfl)
    | (extract_lets +onlyGivenNames t; first | (refine Within.cut [.regs, .core, .pat, .vl] s t (fun h => ?_) ?_; rotate_left; subst t; rotate_right; clear_value t) | clear_value t)
    | (with_reducible apply Within.then (h' := auxDone_within ..))
    | (with_reducible apply Within.then (h' := auxStart_within ..))
    | (with_reducible apply Within.then (h' := dpFail_within ..))
    | (with_reducible apply Within.then (h' := setDp_within ..))
    | (with_reducible apply Within.ite)
    | split
    | refine Within.upd (h := ?_)

theorem rxStat_within (a0 a1 a2) (s : State) : Within [.regs] s (rxStat a0 a1 a2 s) := (by unfold rxStat; exact fset_within ..)

theorem rxStart_within (a0) (s : State) : Within [.regs, .vl] s (rxStart a0 s) := by
  unfold rxStart
  repeat' first
    | (with_reducible assumption)
    | (with_reducible exact Within.refl _ _)
    | (show Area.sub _ _ = true; rfl)
    | (extract_lets +onlyGivenNames t; first | (refine Within.cut [.regs, .vl] s t (fun h => ?_) ?_; rotate_left; subst t; rotate_right; clear_value t) | clear_value t)
    | (with_reducible apply Within.then (h' := rxStat_within ..))
    | (with_reducible apply Within.then (h' := setLane_within ..))
    | (with_reducible apply Within.ite)
    | split
    | refine Within.upd (h := ?_)

theorem refreshPresent_within (a0) (s : State) : Within [.regs, .core, .pat, .xp, .ref] s (refreshPresent a0 s) := by
  unfold refreshPresent
  repeat' first
    | (with_reducible assumption)
    | (with_reducible exact Within.refl _ _)
    | (show Area.sub _ _ = true; rfl)
    | (extract_lets +onlyGivenNames t; first | (refine Within.cut [.regs, .core, .pat, .xp, .ref] s t (fun h => ?_) ?_; rotate_left; subst t; rotate_right; clear_value t) | clear_value t)
    | (with_reducible apply Within.then (h' := refreshTimed_within ..))
    | (with_reducible apply Within.then (h' := setLaneWin_within ..))
    | (with_reducible apply Within.then (h' := setPresent_within ..))
    | (with_reducible apply Within.ite)
    | split

theorem dpTrainDone_within (a0 a1 a2 a3 a4 a5) (s : State) : Within [.regs, .core, .pat, .vl] s (dpTrainDone a0 a1 a2 a3 a4 a5 s) := by
  unfold dpTrainDone
  repeat' first
    | (with_reducible assumption)
    | (with_reducible exact Within.refl _ _)
    | (show Area.sub _ _ = true; rfl)
    | (extract_lets +onlyGivenNames t; first | (refine Within.cut [.regs, .core, .pat, .vl] s t (fun h => ?_) ?_; rotate_left; subst t; rotate_right; clear_value t) | clear_value t)
    | (with_reducible apply Within.then (h' := auxStart_within ..))
    | (with_reducible apply Within.then (h' := dpFail_within ..))
    | (with_reducible apply Within.then (h' := dpStat_within ..))
    | (with_reducible apply Within.then (h' := emit_within ..))
    | (with_reducible apply Within.ite)
    | split

theorem hpdFall_within (a0) (s : State) : Within [.regs, .core, .vl] s (hpdFall a0 s) := by
  unfold hpdFall
  repeat' first
    | (with_reducible assumption)
    | (with_reducible exact Within.refl _ _)
    | (show Area.sub _ _ = true; rfl)
    | (extract_lets +onlyGivenNames t; first | (refine Within.cut [.regs, .core, .vl] s t (fun h => ?_) ?_; rotate_left; subst t; rotate_right; clear_value t) | clear_value t)
    | (with_reducible apply Within.then (h' := dpStat_within ..))
    | (with_reducible apply Within.then (h' := setDp_within ..))
    | (with_reducible apply Within.then (h' := setFiltered_within ..))
    | (with_reducible apply Within.ite)
    | split
    | refine Within.upd (h := ?_)

theorem hpdRise_within (a0 a1) (s : State) : Within [.regs, .core, .vl] s (hpdRise a0 a1 s) := by
  unfold hpdRise
  repeat' first
    | (with_reducible assumption)
    | (with_reducible exact Within.refl _ _)
    | (show Area.sub _ _ = true; rfl)
    | (extract_lets +onlyGivenNames t; first | (refine Within.cut [.regs, .core, .vl] s t (fun h => ?_) ?_; rotate_left; subst t; rotate_right; clear_value t) | clear_value t)
    | (with_reducible apply Within.then (h' := dpStat_within ..))
    | (with_reducible apply Within.then (h' := dpTrain_within ..))
    | (with_reducible apply Within.then (h' := ownStart_within ..))
    | (with_reducible apply Within.then (h' := setDp_within ..))
    | (with_reducible apply Within.then (h' := setFiltered_within ..))
    | (with_reducible apply Within.ite)
    | split
    | refine Within.upd (h := ?_)

theorem hpdUnplug_within (a0) (s : State) : Within [.regs, .vl] s (hpdUnplug a0 s) := by
  unfold hpdUnplug
  repeat' first
    | (with_reducible assumption)
    | (with_reducible exact Within.refl _ _)
    | (show Area.sub _ _ = true; rfl)
    | (extract_lets +onlyGivenNames t; first | (refine Within.cut [.regs, .vl] s t (fun h => ?_) ?_; rotate_left; subst t; rotate_right; clear_value t) | clear_value t)
    | (with_reducible apply Within.then (h' := dpEnter_within ..))
    | (with_reducible apply Within.then (h' := setDp_within ..))
    | (with_reducible apply Within.ite)
    | split
    | refine Within.upd (h := ?_)

theorem insSwitch_within (a0 a1) (s : State) : Within [.regs, .core, .pat, .test, .vl, .q, .fresh] s (insSwitch a0 a1 s) := by
  unfold insSwitch
  repeat' first
    | (with_reducible assumption)
    | (with_reducible exact Within.refl _ _)
    | (show Area.sub _ _ = true; rfl)
    | (extract_lets +onlyGivenNames t; first | (refine Within.cut [.regs, .core, .pat, .test, .vl, .q, .fresh] s t (fun h => ?_) ?_; rotate_left; subst t; rotate_right; clear_value t) | (refine Within.cut [.regs, .core, .pat, .test, .vl, .q, .fresh] s t.2 (fun h => ?_) ?_; rotate_left; subst t; rotate_right; clear_value t) | (have _h := fun x => (t x : State)) | (have _h := fun x y => (t x y : State)) | (have _h := fun x y z => (t x y z : State)) | clear_value t)
    | (with_reducible apply Within.then (h' := queueMark_within ..))
    | (with_reducible apply Within.then (h' := queueRelease_within ..))
    | (with_reducible apply Within.then (h' := queueRewind_within ..))
    | (with_reducible apply Within.then (h' := readRecords_within ..))
    | (with_reducible apply Within.then (h' := setLane_within ..))
    | (with_reducible apply Within.ite)
    | (with_reducible apply Within.iteSnd)
    | split
    | refine Within.upd (h := ?_)

theorem keepTails_within (a0 a1 a2) (s : State) : Within [.vl] s (keepTails a0 a1 a2 s) := by
  unfold keepTails
  repeat' first
    | (with_reducible assumption)
    | (with_reducible exact Within.refl _ _)
    | (show Area.sub _ _ = true; rfl)
    | (extract_lets +onlyGivenNames t; first | (refine Within.cut [.vl] s t (fun h => ?_) ?_; rotate_left; subst t; rotate_right; clear_value t) | clear_value t)
    | (with_reducible apply Within.then (h' := setLane_within ..))
    | refine Within.upd (h := ?_)

theorem laneRecords_within (a0) (s : State) : Within [.regs, .vl] s (laneRecords a0 s) := by
  unfold laneRecords
  repeat' first
    | (with_reducible assumption)
    | (with_reducible exact Within.refl _ _)
    | (show Area.sub _ _ = true; rfl)
    | (extract_lets +onlyGivenNames t; first | (refine Within.cut [.regs, .vl] s t (fun h => ?_) ?_; rotate_left; subst t; rotate_right; clear_value t) | clear_value t)
    | (with_reducible apply Within.then (h' := countN_within ..))
    | (with_reducible apply Within.then (h' := setLane_within ..))
    | refine Within.upd (h := ?_)

theorem laneSwitch_within (a0) (s : State) : Within [.regs, .core, .pat, .test, .vl, .q, .fresh] s (laneSwitch a0 s) := by
  unfold laneSwitch
  repeat' first
    | intro _
    | (with_reducible assumption)
    | (with_reducible exact Within.refl _ _)
    | (show Area.sub _ _ = true; rfl)
    | (extract_lets +onlyGivenNames t; first | (refine Within.cut [.regs, .core, .pat, .test, .vl, .q, .fresh] s t (fun h => ?_) ?_; rotate_left; subst t; rotate_right; clear_value t) | clear_value t)
    | (with_reducible apply Within.then (h' := fset_within ..))
    | (with_reducible apply Within.then (h' := insSwitch_within ..))
    | (with_reducible apply Within.then (h' := laneRecords_within ..))
    | (with_reducible apply Within.then (h' := setLane_within ..))
    | (with_reducible apply Within.ite)
    | (with_reducible apply Within.foldl)
    | split
    | refine Within.upd (h := ?_)

theorem latchFilt_within (a0) (s : State) : Within [.vl] s (latchFilt a0 s) := by
  unfold latchFilt
  repeat' first
    | intro _
    | (with_reducible assumption)
    | (with_reducible exact Within.refl _ _)
    | (show Area.sub _ _ = true; rfl)
    | (extract_lets +onlyGivenNames t; first | (refine Within.cut [.vl] s t (fun h => ?_) ?_; rotate_left; subst t; rotate_right; clear_value t) | clear_value t)
    | (with_reducible apply Within.then (h' := setLane_within ..))
    | (with_reducible apply Within.foldl)
    | refine Within.upd (h := ?_)

theorem lineReceived_within (a0 a1 a2) (s : State) : Within [.regs, .core, .pat, .test, .xp, .vl, .fresh] s (lineReceived a0 a1 a2 s) := by
  unfold lineReceived
  repeat' first
    | intro _
    | (with_reducible assumption)
    | (with_reducible exact Within.refl _ _)
    | (show Area.sub _ _ = true; rfl)
    | (extract_lets +onlyGivenNames t; first | (refine Within.cut [.regs, .core, .pat, .test, .xp, .vl, .fresh] s t (fun h => ?_) ?_; rotate_left; subst t; rotate_right; clear_value t) | (refine Within.cut [.regs, .core, .pat, .test, .xp, .vl, .fresh] s t.2 (fun h => ?_) ?_; rotate_left; subst t; rotate_right; clear_value t) | clear_value t)
    | (with_reducible apply Within.then (h' := count_within ..))
    | (with_reducible apply Within.then (h' := crcObserved_within ..))
    | (with_reducible apply Within.then (h' := fcStep_within ..))
    | (with_reducible apply Within.then (h' := keepTails_within ..))
    | (with_reducible apply Within.then (h' := latchFilt_within ..))
    | (with_reducible apply Within.then (h' := pushLine_within ..))
    | (with_reducible apply Within.then (h' := raise_within ..))
    | (with_reducible apply Within.then (h' := setLane_within ..))
    | (with_reducible apply Within.then (h' := spend_within ..))
    | (with_reducible apply Within.ite)
    | (with_reducible apply Within.iteSnd)
    | (with_reducible apply Within.foldl)
    | (with_reducible apply Within.foldlSnd)
    | split
    | refine Within.upd (h := ?_)

theorem refreshNoproc_within (a0) (s : State) : Within [.regs] s (refreshNoproc a0 s) := by
  unfold refreshNoproc
  repeat' first
    | (with_reducible assumption)
    | (with_reducible exact Within.refl _ _)
    | (show Area.sub _ _ = true; rfl)
    | (extract_lets +onlyGivenNames t; first | (refine Within.cut [.regs] s t (fun h => ?_) ?_; rotate_left; subst t; rotate_right; clear_value t) | clear_value t)
    | (with_reducible apply Within.then (h' := rxStat_within ..))

theorem pidPacket_within (a0 a1 a2) (s : State) : Within [.regs, .vl] s (pidPacket a0 a1 a2 s) := by
  unfold pidPacket
  repeat' first
    | (with_reducible assumption)
    | (with_reducible exact Within.refl _ _)
    | (show Area.sub _ _ = true; rfl)
    | (extract_lets +onlyGivenNames t; first | (refine Within.cut [.regs, .vl] s t (fun h => ?_) ?_; rotate_left; subst t; rotate_right; clear_value t) | clear_value t)
    | (with_reducible apply Within.then (h' := refreshNoproc_within ..))
    | (with_reducible apply Within.then (h' := rset_within ..))
    | (with_reducible apply Within.then (h' := rxStat_within ..))
    | (with_reducible apply Within.then (h' := setLane_within ..))
    | (with_reducible apply Within.ite)
    | split
    | refine Within.upd (h := ?_)

theorem vlaneSwitch_within (a0) (s : State) : Within [.regs, .core, .pat, .test, .vl, .q, .fresh] s (vlaneSwitch a0 s) := by
  unfold vlaneSwitch
  repeat' first
    | intro _
    | (with_reducible assumption)
    | (with_reducible exact Within.refl _ _)
    | (show Area.sub _ _ = true; rfl)
    | (with_reducible apply Within.then (h' := laneSwitch_within ..))
    | (with_reducible apply Within.foldl)

theorem rxAligned_within (a0 a1 a2) (s : State) : Within [.regs, .core, .pat, .xp, .vl, .ref] s (rxAligned a0 a1 a2 s) := by
  unfold rxAligned
  repeat' first
    | (with_reducible assumption)
    | (with_reducible exact Within.refl _ _)
    | (show Area.sub _ _ = true; rfl)
    | (extract_lets +onlyGivenNames t; first | (refine Within.cut [.regs, .core, .pat, .xp, .vl, .ref] s t (fun h => ?_) ?_; rotate_left; subst t; rotate_right; clear_value t) | clear_value t)
    | (with_reducible apply Within.then (h' := latchFilt_within ..))
    | (with_reducible apply Within.then (h' := raise_within ..))
    | (with_reducible apply Within.then (h' := refreshNoproc_within ..))
    | (with_reducible apply Within.then (h' := refreshPresent_within ..))
    | (with_reducible apply Within.then (h' := rxStat_within ..))
    | (with_reducible apply Within.then (h' := setLane_within ..))
    | (with_reducible apply Within.ite)
    | split
    | refine Within.upd (h := ?_)

theorem rxLose_within (a0) (s : State) : Within [.regs, .core, .pat, .xp, .vl, .ref] s (rxLose a0 s) := by
  unfold rxLose
  repeat' first
    | (with_reducible assumption)
    | (with_reducible exact Within.refl _ _)
    | (show Area.sub _ _ = true; rfl)
    | (extract_lets +onlyGivenNames t; first | (refine Within.cut [.regs, .core, .pat, .xp, .vl, .ref] s t (fun h => ?_) ?_; rotate_left; subst t; rotate_right; clear_value t) | clear_value t)
    | (with_reducible apply Within.then (h' := count_within ..))
    | (with_reducible apply Within.then (h' := raise_within ..))
    | (with_reducible apply Within.then (h' := refreshPresent_within ..))
    | (with_reducible apply Within.then (h' := rxStat_within ..))
    | (with_reducible apply Within.then (h' := setLane_within ..))
    | (with_reducible apply Within.ite)
    | split
    | refine Within.upd (h := ?_)

theorem rxNext_within (a0) (s : State) : Within [.regs, .vl] s (rxNext a0 s) := by
  unfold rxNext
  repeat' first
    | (with_reducible assumption)
    | (with_reducible exact Within.refl _ _)
    | (show Area.sub _ _ = true; rfl)
    | (extract_lets +onlyGivenNames t; first | (refine Within.cut [.regs, .vl] s t (fun h => ?_) ?_; rotate_left; subst t; rotate_right; clear_value t) | clear_value t)
    | (with_reducible apply Within.then (h' := rxStat_within ..))
    | (with_reducible apply Within.then (h' := setLane_within ..))
    | refine Within.upd (h := ?_)

theorem sdiFrame_within (a0) (s : State) : Within [.vl] s (sdiFrame a0 s) := by
  unfold sdiFrame
  repeat' first
    | (with_reducible assumption)
    | (with_reducible exact Within.refl _ _)
    | (show Area.sub _ _ = true; rfl)
    | (extract_lets +onlyGivenNames t; first | (refine Within.cut [.vl] s t (fun h => ?_) ?_; rotate_left; subst t; rotate_right; clear_value t) | clear_value t)
    | (with_reducible apply Within.then (h' := emit_within ..))
    | (with_reducible apply Within.then (h' := setLane_within ..))
    | (with_reducible apply Within.ite)
    | split
    | refine Within.upd (h := ?_)

theorem sdiFrames_within (a0) (s : State) : Within [.vl] s (sdiFrames a0 s) := by
  unfold sdiFrames
  repeat' first
    | intro _
    | (with_reducible assumption)
    | (with_reducible exact Within.refl _ _)
    | (show Area.sub _ _ = true; rfl)
    | (with_reducible apply Within.then (h' := sdiFrame_within ..))
    | (with_reducible apply Within.foldl)

end Sys2Proof.Machine
end

