-- ==== Sys2Proof/Laws/WithinEngineFamily.lean ====
section
/-! SUPPORT. What each operation of Machine/EngineFamily.lean may change: one frame per operation. -/

namespace Sys2Proof.Machine

set_option Elab.async false
set_option linter.all false
set_option linter.tactic.unusedName false

theorem setRunning_within (a0 a1) (s : State) : Within [.regs, .eng] s (setRunning a0 a1 s) := by
  unfold setRunning
  repeat' first
    | (with_reducible assumption)
    | (with_reducible exact Within.refl _ _)
    | (show Area.sub _ _ = true; rfl)
    | (extract_lets +onlyGivenNames t; first | (refine Within.cut [.regs, .eng] s t (fun h => ?_) ?_; rotate_left; subst t; rotate_right; clear_value t) | clear_value t)
    | (with_reducible apply Within.then (h' := fset_within ..))
    | (with_reducible apply Within.ite)
    | split
    | refine Within.upd (h := ?_)

theorem abortEngine_within (a0) (s : State) : Within [.regs, .eng] s (abortEngine a0 s) := by
  unfold abortEngine
  repeat' first
    | (with_reducible assumption)
    | (with_reducible exact Within.refl _ _)
    | (show Area.sub _ _ = true; rfl)
    | (extract_lets +onlyGivenNames t; first | (refine Within.cut [.regs, .eng] s t (fun h => ?_) ?_; rotate_left; subst t; rotate_right; clear_value t) | clear_value t)
    | (with_reducible apply Within.then (h' := setRunning_within ..))
    | refine Within.upd (h := ?_)

theorem indexNext_within (a0 a1) (s : State) : Within [.regs] s (indexNext a0 a1 s) := (by unfold indexNext; exact fset_within ..)

theorem tlutRead_within (s : State) : Within [.regs] s (tlutRead s).2 := by
  unfold tlutRead
  repeat' first
    | (with_reducible assumption)
    | (with_reducible exact Within.refl _ _)
    | (show Area.sub _ _ = true; rfl)
    | (extract_lets +onlyGivenNames t; first | (refine Within.cut [.regs] s t (fun h => ?_) ?_; rotate_left; subst t; rotate_right; clear_value t) | (refine Within.cut [.regs] s t.2 (fun h => ?_) ?_; rotate_left; subst t; rotate_right; clear_value t) | clear_value t)
    | (with_reducible apply Within.then (h' := indexNext_within ..))
    | (with_reducible apply Within.ite)
    | (with_reducible apply Within.iteSnd)
    | split

theorem refreshQuar_within (a0) (s : State) : Within [.regs] s (refreshQuar a0 s) := by
  unfold refreshQuar
  repeat' first
    | intro _
    | (with_reducible assumption)
    | (with_reducible exact Within.refl _ _)
    | (show Area.sub _ _ = true; rfl)
    | (extract_lets +onlyGivenNames t; first | (refine Within.cut [.regs] s t (fun h => ?_) ?_; rotate_left; subst t; rotate_right; clear_value t) | clear_value t)
    | (with_reducible apply Within.then (h' := fset_within ..))
    | (with_reducible apply Within.then (h' := rsetN_within ..))
    | (with_reducible apply Within.foldl)

theorem setDeque_within (a0 a1) (s : State) : Within [.regs, .eng] s (setDeque a0 a1 s) := by
  unfold setDeque
  repeat' first
    | (with_reducible assumption)
    | (with_reducible exact Within.refl _ _)
    | (show Area.sub _ _ = true; rfl)
    | (extract_lets +onlyGivenNames t; first | (refine Within.cut [.regs, .eng] s t (fun h => ?_) ?_; rotate_left; subst t; rotate_right; clear_value t) | clear_value t)
    | (with_reducible apply Within.then (h' := fset_within ..))
    | refine Within.upd (h := ?_)

theorem setInflight_within (a0 a1) (s : State) : Within [.regs] s (setInflight a0 a1 s) := (by unfold setInflight; exact fset_within ..)

theorem pushGo_within (q : Nat) (ts kept : List Task) (s : State) : Within [.regs, .eng] s (pushGo q ts kept s).2 := by
  induction ts generalizing kept s with
  | nil => exact Within.refl _ _
  | cons t r ih =>
    unfold pushGo
    simp only []
    split
    · exact ih ..
    · split
      · exact Within.then ((setDeque_within ..).mono rfl) (ih ..) rfl
      · split
        · refine Within.then ?_ (ih ..) rfl
          exact Within.then ((setDeque_within ..).mono rfl) (setInflight_within ..) rfl
        · refine Within.then ?_ (ih ..) rfl
          split
          · exact Within.refl _ _
          · exact (count_within ..).mono rfl

theorem pushAll_within (a0) (s : State) : Within [.regs, .eng] s (pushAll a0 s) := by
  unfold pushAll
  repeat' first
    | (with_reducible assumption)
    | (with_reducible exact Within.refl _ _)
    | (show Area.sub _ _ = true; rfl)
    | (extract_lets +onlyGivenNames t; first | (refine Within.cut [.regs, .eng] s t (fun h => ?_) ?_; rotate_left; subst t; rotate_right; clear_value t) | (refine Within.cut [.regs, .eng] s t.2 (fun h => ?_) ?_; rotate_left; subst t; rotate_right; clear_value t) | clear_value t)
    | (with_reducible apply Within.then (h' := pushGo_within ..))
    | refine Within.upd (h := ?_)

theorem requeue_within (a0) (s : State) : Within [.regs, .eng] s (requeue a0 s) := by
  unfold requeue
  repeat' first
    | (with_reducible assumption)
    | (with_reducible exact Within.refl _ _)
    | (show Area.sub _ _ = true; rfl)
    | (extract_lets +onlyGivenNames t; first | (refine Within.cut [.regs, .eng] s t (fun h => ?_) ?_; rotate_left; subst t; rotate_right; clear_value t) | clear_value t)
    | (with_reducible apply Within.then (h' := pushAll_within ..))
    | (with_reducible apply Within.then (h' := setInflight_within ..))
    | (with_reducible apply Within.ite)
    | split
    | refine Within.upd (h := ?_)

theorem quarEngine_within (a0 a1) (s : State) : Within [.regs, .eng] s (quarEngine a0 a1 s) := by
  unfold quarEngine
  repeat' first
    | (with_reducible assumption)
    | (with_reducible exact Within.refl _ _)
    | (show Area.sub _ _ = true; rfl)
    | (extract_lets +onlyGivenNames t; first | (refine Within.cut [.regs, .eng] s t (fun h => ?_) ?_; rotate_left; subst t; rotate_right; clear_value t) | clear_value t)
    | (with_reducible apply Within.then (h' := fset_within ..))
    | (with_reducible apply Within.then (h' := refreshQuar_within ..))
    | (with_reducible apply Within.then (h' := requeue_within ..))
    | (with_reducible apply Within.then (h' := setRunning_within ..))
    | (with_reducible apply Within.ite)
    | split
    | refine Within.upd (h := ?_)

theorem quarantine_within (a0 a1) (s : State) : Within [.regs, .core, .pat, .eng] s (quarantine a0 a1 s) := by
  unfold quarantine
  repeat' first
    | intro _
    | (with_reducible assumption)
    | (with_reducible exact Within.refl _ _)
    | (show Area.sub _ _ = true; rfl)
    | (extract_lets +onlyGivenNames t; first | (refine Within.cut [.regs, .core, .pat, .eng] s t (fun h => ?_) ?_; rotate_left; subst t; rotate_right; clear_value t) | clear_value t)
    | (with_reducible apply Within.then (h' := quarEngine_within ..))
    | (with_reducible apply Within.then (h' := raise_within ..))
    | (with_reducible apply Within.foldl)
    | split

theorem releaseEngine_within (a0) (s : State) : Within [.regs] s (releaseEngine a0 s) := by
  unfold releaseEngine
  repeat' first
    | (with_reducible assumption)
    | (with_reducible exact Within.refl _ _)
    | (show Area.sub _ _ = true; rfl)
    | (extract_lets +onlyGivenNames t; first | (refine Within.cut [.regs] s t (fun h => ?_) ?_; rotate_left; subst t; rotate_right; clear_value t) | clear_value t)
    | (with_reducible apply Within.then (h' := fset_within ..))
    | (with_reducible apply Within.then (h' := refreshQuar_within ..))
    | (with_reducible apply Within.ite)
    | split

theorem quarCmd_within (a0) (s : State) : Within [.regs, .core, .pat, .eng] s (quarCmd a0 s) := by
  unfold quarCmd
  repeat' first
    | intro _
    | (with_reducible assumption)
    | (with_reducible exact Within.refl _ _)
    | (show Area.sub _ _ = true; rfl)
    | (extract_lets +onlyGivenNames t; first | (refine Within.cut [.regs, .core, .pat, .eng] s t (fun h => ?_) ?_; rotate_left; subst t; rotate_right; clear_value t) | clear_value t)
    | (with_reducible apply Within.then (h' := quarantine_within ..))
    | (with_reducible apply Within.then (h' := releaseEngine_within ..))
    | (with_reducible apply Within.ite)
    | (with_reducible apply Within.foldl)
    | split

theorem tlutCtrlWrite_within (a0) (s : State) : Within [.regs, .eng] s (tlutCtrlWrite a0 s) := by
  unfold tlutCtrlWrite
  repeat' first
    | (with_reducible assumption)
    | (with_reducible exact Within.refl _ _)
    | (show Area.sub _ _ = true; rfl)
    | (extract_lets +onlyGivenNames t; first | (refine Within.cut [.regs, .eng] s t (fun h => ?_) ?_; rotate_left; subst t; rotate_right; clear_value t) | clear_value t)
    | (with_reducible apply Within.then (h' := plainWrite_within ..))
    | (with_reducible apply Within.ite)
    | split
    | refine Within.upd (h := ?_)

theorem tlutWrite_within (a0) (s : State) : Within [.regs, .eng] s (tlutWrite a0 s) := by
  unfold tlutWrite
  repeat' first
    | (with_reducible assumption)
    | (with_reducible exact Within.refl _ _)
    | (show Area.sub _ _ = true; rfl)
    | (extract_lets +onlyGivenNames t; first | (refine Within.cut [.regs, .eng] s t (fun h => ?_) ?_; rotate_left; subst t; rotate_right; clear_value t) | clear_value t)
    | (with_reducible apply Within.then (h' := indexNext_within ..))
    | (with_reducible apply Within.ite)
    | split
    | refine Within.upd (h := ?_)

theorem engWrite_within (a0 a1 a2) (s : State) : Within [.regs, .core, .pat, .eng] s (engWrite a0 a1 a2 s) := by
  unfold engWrite
  repeat' first
    | (with_reducible assumption)
    | (with_reducible exact Within.refl _ _)
    | (show Area.sub _ _ = true; rfl)
    | (with_reducible apply Within.then (h' := plainWrite_within ..))
    | (with_reducible apply Within.then (h' := quarCmd_within ..))
    | (with_reducible apply Within.then (h' := tlutCtrlWrite_within ..))
    | (with_reducible apply Within.then (h' := tlutWrite_within ..))
    | (with_reducible apply Within.ite)
    | split

theorem cancelTasks_within (a0 a1) (s : State) : Within [.regs, .eng] s (cancelTasks a0 a1 s) := by
  unfold cancelTasks
  repeat' first
    | intro _
    | (with_reducible assumption)
    | (with_reducible exact Within.refl _ _)
    | (show Area.sub _ _ = true; rfl)
    | (extract_lets +onlyGivenNames t; first | (refine Within.cut [.regs, .eng] s t (fun h => ?_) ?_; rotate_left; subst t; rotate_right; clear_value t) | clear_value t)
    | (with_reducible apply Within.then (h' := abortEngine_within ..))
    | (with_reducible apply Within.then (h' := count_within ..))
    | (with_reducible apply Within.then (h' := countN_within ..))
    | (with_reducible apply Within.then (h' := setDeque_within ..))
    | (with_reducible apply Within.then (h' := setInflight_within ..))
    | (with_reducible apply Within.ite)
    | (with_reducible apply Within.foldl)
    | split
    | refine Within.upd (h := ?_)

theorem setSlot_within (a0 a1) (s : State) : Within [.eng] s (setSlot a0 a1 s) := by
  unfold setSlot
  repeat' first
    | (with_reducible assumption)
    | (with_reducible exact Within.refl _ _)
    | (show Area.sub _ _ = true; rfl)
    | (extract_lets +onlyGivenNames t; first | (refine Within.cut [.eng] s t (fun h => ?_) ?_; rotate_left; subst t; rotate_right; clear_value t) | clear_value t)
    | refine Within.upd (h := ?_)

theorem bandDeadline_within (a0 a1) (s : State) : Within [.regs, .core, .pat, .test, .xp, .q, .eng] s (bandDeadline a0 a1 s) := by
  unfold bandDeadline
  repeat' first
    | intro _
    | (with_reducible assumption)
    | (with_reducible exact Within.refl _ _)
    | (show Area.sub _ _ = true; rfl)
    | (extract_lets +onlyGivenNames t; first | (refine Within.cut [.regs, .core, .pat, .test, .xp, .q, .eng] s t (fun h => ?_) ?_; rotate_left; subst t; rotate_right; clear_value t) | (have _h := fun x => (t x : State)) | (have _h := fun x y => (t x y : State)) | (have _h := fun x y z => (t x y z : State)) | clear_value t)
    | (with_reducible apply Within.then (h' := cancelTasks_within ..))
    | (with_reducible apply Within.then (h' := count_within ..))
    | (with_reducible apply Within.then (h' := raise_within ..))
    | (with_reducible apply Within.then (h' := setSlot_within ..))
    | (with_reducible apply Within.then (h' := touchBlock_within ..))
    | (with_reducible apply Within.ite)
    | (with_reducible apply Within.foldl)
    | split
    | refine Within.upd (h := ?_)

theorem issue_within (a0 a1) (s : State) : Within [.regs, .eng] s (issue a0 a1 s) := by
  unfold issue
  repeat' first
    | (with_reducible assumption)
    | (with_reducible exact Within.refl _ _)
    | (show Area.sub _ _ = true; rfl)
    | (extract_lets +onlyGivenNames t; first | (refine Within.cut [.regs, .eng] s t (fun h => ?_) ?_; rotate_left; subst t; rotate_right; clear_value t) | clear_value t)
    | (with_reducible apply Within.then (h' := pushAll_within ..))
    | refine Within.upd (h := ?_)

theorem bandIssue_within (a0 a1 a2) (s : State) : Within [.regs, .eng] s (bandIssue a0 a1 a2 s) := by
  unfold bandIssue
  repeat' first
    | (with_reducible assumption)
    | (with_reducible exact Within.refl _ _)
    | (show Area.sub _ _ = true; rfl)
    | (extract_lets +onlyGivenNames t; first | (refine Within.cut [.regs, .eng] s t (fun h => ?_) ?_; rotate_left; subst t; rotate_right; clear_value t) | clear_value t)
    | (with_reducible apply Within.then (h' := issue_within ..))
    | (with_reducible apply Within.then (h' := setSlot_within ..))
    | (with_reducible apply Within.ite)
    | split
    | refine Within.upd (h := ?_)

theorem clusterError_within (a0 a1 a2 a3) (s : State) : Within [.regs, .core, .pat, .test, .xp, .eng] s (clusterError a0 a1 a2 a3 s) := by
  unfold clusterError
  repeat' first
    | (with_reducible assumption)
    | (with_reducible exact Within.refl _ _)
    | (show Area.sub _ _ = true; rfl)
    | (extract_lets +onlyGivenNames t; first | (refine Within.cut [.regs, .core, .pat, .test, .xp, .eng] s t (fun h => ?_) ?_; rotate_left; subst t; rotate_right; clear_value t) | (refine Within.cut [.regs, .core, .pat, .test, .xp, .eng] s t.2 (fun h => ?_) ?_; rotate_left; subst t; rotate_right; clear_value t) | clear_value t)
    | (with_reducible apply Within.then (h' := abortEngine_within ..))
    | (with_reducible apply Within.then (h' := condBegin_within ..))
    | (with_reducible apply Within.then (h' := count_within ..))
    | (with_reducible apply Within.then (h' := fset_within ..))
    | (with_reducible apply Within.then (h' := quarantine_within ..))
    | (with_reducible apply Within.then (h' := raise_within ..))
    | (with_reducible apply Within.then (h' := secded_within ..))
    | (with_reducible apply Within.then (h' := setDest_within ..))
    | (with_reducible apply Within.then (h' := setInflight_within ..))
    | (with_reducible apply Within.ite)
    | (with_reducible apply Within.iteSnd)
    | split
    | refine Within.upd (h := ?_)

theorem grantTask_within (a0 a1 a2 a3) (s : State) : Within [.regs, .eng] s (grantTask a0 a1 a2 a3 s) := by
  unfold grantTask
  repeat' first
    | (with_reducible assumption)
    | (with_reducible exact Within.refl _ _)
    | (show Area.sub _ _ = true; rfl)
    | (extract_lets +onlyGivenNames t; first | (refine Within.cut [.regs, .eng] s t (fun h => ?_) ?_; rotate_left; subst t; rotate_right; clear_value t) | clear_value t)
    | (with_reducible apply Within.then (h' := count_within ..))
    | (with_reducible apply Within.then (h' := pushAll_within ..))
    | (with_reducible apply Within.then (h' := setDeque_within ..))
    | (with_reducible apply Within.then (h' := setRunning_within ..))
    | (with_reducible apply Within.ite)
    | split
    | refine Within.upd (h := ?_)

theorem localError_within (a0 a1) (s : State) : Within [.regs, .core, .pat, .test, .eng] s (localError a0 a1 s) := by
  unfold localError
  repeat' first
    | (with_reducible assumption)
    | (with_reducible exact Within.refl _ _)
    | (show Area.sub _ _ = true; rfl)
    | (extract_lets +onlyGivenNames t; first | (refine Within.cut [.regs, .core, .pat, .test, .eng] s t (fun h => ?_) ?_; rotate_left; subst t; rotate_right; clear_value t) | (refine Within.cut [.regs, .core, .pat, .test, .eng] s t.2 (fun h => ?_) ?_; rotate_left; subst t; rotate_right; clear_value t) | clear_value t)
    | (with_reducible apply Within.then (h' := abortEngine_within ..))
    | (with_reducible apply Within.then (h' := count_within ..))
    | (with_reducible apply Within.then (h' := fset_within ..))
    | (with_reducible apply Within.then (h' := quarantine_within ..))
    | (with_reducible apply Within.then (h' := raise_within ..))
    | (with_reducible apply Within.then (h' := requeue_within ..))
    | (with_reducible apply Within.then (h' := secded_within ..))
    | (with_reducible apply Within.ite)
    | (with_reducible apply Within.iteSnd)
    | split

theorem onFrame_within (a0 a1 a2) (s : State) : Within [.eng] s (onFrame a0 a1 a2 s) := by
  unfold onFrame
  repeat' first
    | (with_reducible assumption)
    | (with_reducible exact Within.refl _ _)
    | (show Area.sub _ _ = true; rfl)
    | (extract_lets +onlyGivenNames t; first | (refine Within.cut [.eng] s t (fun h => ?_) ?_; rotate_left; subst t; rotate_right; clear_value t) | (have _h := fun x => (t x : State)) | (have _h := fun x y => (t x y : State)) | (have _h := fun x y z => (t x y z : State)) | clear_value t)
    | (with_reducible apply Within.then (h' := setSlot_within ..))
    | (with_reducible apply Within.ite)
    | split
    | refine Within.upd (h := ?_)

theorem slotDecide_within (a0 a1 a2) (s : State) : Within [.regs, .core, .pat] s (slotDecide a0 a1 a2 s).2 := by
  unfold slotDecide
  repeat' first
    | (with_reducible assumption)
    | (with_reducible exact Within.refl _ _)
    | (show Area.sub _ _ = true; rfl)
    | (extract_lets +onlyGivenNames t; first | (refine Within.cut [.regs, .core, .pat] s t (fun h => ?_) ?_; rotate_left; subst t; rotate_right; clear_value t) | (refine Within.cut [.regs, .core, .pat] s t.2 (fun h => ?_) ?_; rotate_left; subst t; rotate_right; clear_value t) | clear_value t)
    | (with_reducible apply Within.then (h' := count_within ..))
    | (with_reducible apply Within.then (h' := fset_within ..))
    | (with_reducible apply Within.then (h' := raise_within ..))
    | (with_reducible apply Within.ite)
    | (with_reducible apply Within.iteSnd)
    | split
    | refine Within.upd (h := ?_)

theorem slotFrameStart_within (a0) (s : State) : Within [.regs, .core, .pat, .xp, .eng] s (slotFrameStart a0 s) := by
  unfold slotFrameStart
  repeat' first
    | (with_reducible assumption)
    | (with_reducible exact Within.refl _ _)
    | (show Area.sub _ _ = true; rfl)
    | (extract_lets +onlyGivenNames t; first | (refine Within.cut [.regs, .core, .pat, .xp, .eng] s t (fun h => ?_) ?_; rotate_left; subst t; rotate_right; clear_value t) | (refine Within.cut [.regs, .core, .pat, .xp, .eng] s t.2 (fun h => ?_) ?_; rotate_left; subst t; rotate_right; clear_value t) | clear_value t)
    | (with_reducible apply Within.then (h' := fset_within ..))
    | (with_reducible apply Within.then (h' := setDest_within ..))
    | (with_reducible apply Within.then (h' := setSlot_within ..))
    | (with_reducible apply Within.then (h' := slotDecide_within ..))
    | (with_reducible apply Within.ite)
    | (with_reducible apply Within.iteSnd)
    | split
    | refine Within.upd (h := ?_)

theorem slotRead_within (a0 a1) (s : State) : Within [.regs, .core, .pat, .test, .q, .eng, .fresh] s (slotRead a0 a1 s) := by
  unfold slotRead
  repeat' first
    | (with_reducible assumption)
    | (with_reducible exact Within.refl _ _)
    | (show Area.sub _ _ = true; rfl)
    | (extract_lets +onlyGivenNames t; first | (refine Within.cut [.regs, .core, .pat, .test, .q, .eng, .fresh] s t (fun h => ?_) ?_; rotate_left; subst t; rotate_right; clear_value t) | (refine Within.cut [.regs, .core, .pat, .test, .q, .eng, .fresh] s t.2 (fun h => ?_) ?_; rotate_left; subst t; rotate_right; clear_value t) | clear_value t)
    | (with_reducible apply Within.then (h' := hbmCheck_within ..))
    | (with_reducible apply Within.then (h' := onFrame_within ..))
    | (with_reducible apply Within.then (h' := putQ_within ..))
    | (with_reducible apply Within.then (h' := spend_within ..))
    | (with_reducible apply Within.then (h' := touchQ_within ..))
    | (with_reducible apply Within.ite)
    | (with_reducible apply Within.iteSnd)
    | split
    | refine Within.upd (h := ?_)

theorem slotTaskDone_within (a0) (s : State) : Within [.regs, .eng] s (slotTaskDone a0 s) := by
  unfold slotTaskDone
  repeat' first
    | (with_reducible assumption)
    | (with_reducible exact Within.refl _ _)
    | (show Area.sub _ _ = true; rfl)
    | (extract_lets +onlyGivenNames t; first | (refine Within.cut [.regs, .eng] s t (fun h => ?_) ?_; rotate_left; subst t; rotate_right; clear_value t) | clear_value t)
    | (with_reducible apply Within.then (h' := issue_within ..))
    | (with_reducible apply Within.then (h' := setSlot_within ..))
    | (with_reducible apply Within.ite)
    | split
    | refine Within.upd (h := ?_)

theorem takeTasks_within (a0 a1) (s : State) : Within [.regs, .eng, .fresh] s (takeTasks a0 a1 s) := by
  unfold takeTasks
  repeat' first
    | intro _
    | (with_reducible assumption)
    | (with_reducible exact Within.refl _ _)
    | (show Area.sub _ _ = true; rfl)
    | (extract_lets +onlyGivenNames t; first | (refine Within.cut [.regs, .eng, .fresh] s t (fun h => ?_) ?_; rotate_left; subst t; rotate_right; clear_value t) | (have _h := fun x => (t x : State)) | (have _h := fun x y => (t x y : State)) | (have _h := fun x y z => (t x y z : State)) | clear_value t)
    | (with_reducible apply Within.then (h' := grantTask_within ..))
    | (with_reducible apply Within.then (h' := spend_within ..))
    | (with_reducible apply Within.ite)
    | (with_reducible apply Within.foldl)
    | split
    | refine Within.upd (h := ?_)

end Sys2Proof.Machine
end

