-- ==== Sys2Proof/Laws/WithinMacFamily.lean ====
section
/-! SUPPORT. What each operation of Machine/MacFamily.lean may change: one frame per operation. -/

namespace Sys2Proof.Machine

set_option Elab.async false
set_option linter.all false
set_option linter.tactic.unusedName false

theorem macStat_within (a0 a1 a2) (s : State) : Within [.regs] s (macStat a0 a1 a2 s) := (by unfold macStat; exact fset_within ..)

theorem pauseClear_within (a0) (s : State) : Within [.regs] s (pauseClear a0 s) := by
  unfold pauseClear
  repeat' first
    | (with_reducible assumption)
    | (with_reducible exact Within.refl _ _)
    | (show Area.sub _ _ = true; rfl)
    | (with_reducible apply Within.then (h' := macStat_within ..))
    | (with_reducible apply Within.then (h' := rsetN_within ..))

theorem macEnter_within (a0 a1) (s : State) : Within [.regs, .core, .pat] s (macEnter a0 a1 s) := by
  unfold macEnter
  repeat' first
    | (with_reducible assumption)
    | (with_reducible exact Within.refl _ _)
    | (show Area.sub _ _ = true; rfl)
    | (extract_lets +onlyGivenNames t; first | (refine Within.cut [.regs, .core, .pat] s t (fun h => ?_) ?_; rotate_left; subst t; rotate_right; clear_value t) | clear_value t)
    | (with_reducible apply Within.then (h' := count_within ..))
    | (with_reducible apply Within.then (h' := macStat_within ..))
    | (with_reducible apply Within.then (h' := pauseClear_within ..))
    | (with_reducible apply Within.then (h' := raise_within ..))
    | (with_reducible apply Within.ite)
    | split

theorem setMac_within (a0 a1) (s : State) : Within [.mac] s (setMac a0 a1 s) := by
  unfold setMac
  repeat' first
    | (with_reducible assumption)
    | (with_reducible exact Within.refl _ _)
    | (show Area.sub _ _ = true; rfl)
    | (extract_lets +onlyGivenNames t; first | (refine Within.cut [.mac] s t (fun h => ?_) ?_; rotate_left; subst t; rotate_right; clear_value t) | clear_value t)
    | refine Within.upd (h := ?_)

theorem txRefill_within (a0 a1) (s : State) : Within [.regs, .mac] s (txRefill a0 a1 s) := by
  unfold txRefill
  repeat' first
    | (with_reducible assumption)
    | (with_reducible exact Within.refl _ _)
    | (show Area.sub _ _ = true; rfl)
    | (extract_lets +onlyGivenNames t; first | (refine Within.cut [.regs, .mac] s t (fun h => ?_) ?_; rotate_left; subst t; rotate_right; clear_value t) | clear_value t)
    | (with_reducible apply Within.then (h' := count_within ..))
    | (with_reducible apply Within.then (h' := setMac_within ..))
    | (with_reducible apply Within.ite)
    | split
    | refine Within.upd (h := ?_)

theorem txPop_within (a0 a1) (s : State) : Within [.regs, .mac] s (txPop a0 a1 s).2 := by
  unfold txPop
  repeat' first
    | (with_reducible assumption)
    | (with_reducible exact Within.refl _ _)
    | (show Area.sub _ _ = true; rfl)
    | (extract_lets +onlyGivenNames t; first | (refine Within.cut [.regs, .mac] s t (fun h => ?_) ?_; rotate_left; subst t; rotate_right; clear_value t) | (refine Within.cut [.regs, .mac] s t.2 (fun h => ?_) ?_; rotate_left; subst t; rotate_right; clear_value t) | clear_value t)
    | (with_reducible apply Within.then (h' := setMac_within ..))
    | (with_reducible apply Within.then (h' := txRefill_within ..))
    | split
    | refine Within.upd (h := ?_)

theorem txStart_within (m : Nat) (s : State) : Within [.regs, .mac] s (txStart m s) := by
  unfold txStart
  split
  · exact Within.refl _ _
  · split
    · exact Within.refl _ _
    · rename_i i _
      have h := txPop_within m i s
      split
      · rename_i e; rw [e] at h; exact h.mono rfl
      · rename_i e; rw [e] at h; exact (h.mono rfl).then (setMac_within ..) rfl

theorem macWrite_within (a0 a1 a2) (s : State) : Within [.regs, .core, .pat, .mac] s (macWrite a0 a1 a2 s) := by
  unfold macWrite
  repeat' first
    | intro _
    | (with_reducible assumption)
    | (with_reducible exact Within.refl _ _)
    | (show Area.sub _ _ = true; rfl)
    | (extract_lets +onlyGivenNames t; first | (refine Within.cut [.regs, .core, .pat, .mac] s t (fun h => ?_) ?_; rotate_left; subst t; rotate_right; clear_value t) | clear_value t)
    | (with_reducible apply Within.then (h' := pauseClear_within ..))
    | (with_reducible apply Within.then (h' := plainWrite_within ..))
    | (with_reducible apply Within.then (h' := queueRegWrite_within ..))
    | (with_reducible apply Within.then (h' := refuse_within ..))
    | (with_reducible apply Within.then (h' := txRefill_within ..))
    | (with_reducible apply Within.then (h' := txStart_within ..))
    | (with_reducible apply Within.ite)
    | (with_reducible apply Within.foldl)
    | split

theorem txPlace_within (a0 a1 a2) (s : State) : Within [.regs, .mac] s (txPlace a0 a1 a2 s) := by
  unfold txPlace
  repeat' first
    | (with_reducible assumption)
    | (with_reducible exact Within.refl _ _)
    | (show Area.sub _ _ = true; rfl)
    | (extract_lets +onlyGivenNames t; first | (refine Within.cut [.regs, .mac] s t (fun h => ?_) ?_; rotate_left; subst t; rotate_right; clear_value t) | clear_value t)
    | (with_reducible apply Within.then (h' := setMac_within ..))
    | (with_reducible apply Within.then (h' := txStart_within ..))
    | refine Within.upd (h := ?_)

theorem macApplyEn_within (a0) (s : State) : Within [.regs, .core, .pat, .mac] s (macApplyEn a0 s) := by
  unfold macApplyEn
  repeat' first
    | (with_reducible assumption)
    | (with_reducible exact Within.refl _ _)
    | (show Area.sub _ _ = true; rfl)
    | (extract_lets +onlyGivenNames t; first | (refine Within.cut [.regs, .core, .pat, .mac] s t (fun h => ?_) ?_; rotate_left; subst t; rotate_right; clear_value t) | clear_value t)
    | (with_reducible apply Within.then (h' := macEnter_within ..))
    | (with_reducible apply Within.then (h' := setMac_within ..))
    | (with_reducible apply Within.ite)
    | split
    | refine Within.upd (h := ?_)

theorem count64_within (a0 a1 a2) (s : State) : Within [.regs] s (count64 a0 a1 a2 s) := (by unfold count64; exact rset64_within ..)

theorem dropTop_within (m : Nat) (s : State) : Within [.regs, .mac] s (dropTop m s) := by
  unfold dropTop
  split
  · exact Within.refl _ _
  · rename_i i _
    have h := txPop_within m i s
    split
    · rename_i e; rw [e] at h; exact h.mono rfl
    · rename_i e; rw [e] at h; exact (h.mono rfl).then (count_within ..) rfl

theorem excRecord_within (a0 a1 a2) (s : State) : Within [.regs, .core, .pat, .test, .q, .mac, .fresh] s (excRecord a0 a1 a2 s) := by
  unfold excRecord
  repeat' first
    | (with_reducible assumption)
    | (with_reducible exact Within.refl _ _)
    | (show Area.sub _ _ = true; rfl)
    | (extract_lets +onlyGivenNames t; first | (refine Within.cut [.regs, .core, .pat, .test, .q, .mac, .fresh] s t (fun h => ?_) ?_; rotate_left; subst t; rotate_right; clear_value t) | (refine Within.cut [.regs, .core, .pat, .test, .q, .mac, .fresh] s t.2 (fun h => ?_) ?_; rotate_left; subst t; rotate_right; clear_value t) | clear_value t)
    | (with_reducible apply Within.then (h' := count_within ..))
    | (with_reducible apply Within.then (h' := putRecord_within ..))
    | (with_reducible apply Within.then (h' := raise_within ..))
    | (with_reducible apply Within.then (h' := roomFor_within ..))
    | (with_reducible apply Within.then (h' := setMac_within ..))
    | (with_reducible apply Within.ite)
    | (with_reducible apply Within.iteSnd)
    | split
    | refine Within.upd (h := ?_)

theorem fecCount_within (a0 a1 a2) (s : State) : Within [.regs, .core, .pat] s (fecCount a0 a1 a2 s) := by
  unfold fecCount
  repeat' first
    | intro _
    | (with_reducible assumption)
    | (with_reducible exact Within.refl _ _)
    | (show Area.sub _ _ = true; rfl)
    | (with_reducible apply Within.then (h' := count_within ..))
    | (with_reducible apply Within.then (h' := countN_within ..))
    | (with_reducible apply Within.then (h' := raise_within ..))
    | (with_reducible apply Within.foldl)

theorem injectRecord_within (m : Nat) (s : State) : Within [.regs, .core, .pat, .test, .q, .mac, .fresh] s (injectRecord m s) := by
  unfold injectRecord
  extract_lets r q
  split
  · exact Within.refl _ _
  · have h := takeRecord_within q s
    split
    · exact Within.refl _ _
    · rename_i s1 e
      rw [e] at h
      have h1 : Within [.regs, .core, .pat, .test, .q, .mac, .fresh] s s1 := h.mono rfl
      extract_lets w0 len i
      split
      · exact (h1.then (queueRelease_within ..) rfl).then (count_within ..) rfl
      · split
        · exact Within.refl _ _
        · exact (h1.then (queueRelease_within ..) rfl).then (txPlace_within ..) rfl

theorem macEnChange_within (a0 a1) (s : State) : Within [.regs, .core, .pat, .mac] s (macEnChange a0 a1 s) := by
  unfold macEnChange
  repeat' first
    | (with_reducible assumption)
    | (with_reducible exact Within.refl _ _)
    | (show Area.sub _ _ = true; rfl)
    | (extract_lets +onlyGivenNames t; first | (refine Within.cut [.regs, .core, .pat, .mac] s t (fun h => ?_) ?_; rotate_left; subst t; rotate_right; clear_value t) | clear_value t)
    | (with_reducible apply Within.then (h' := macApplyEn_within ..))
    | (with_reducible apply Within.then (h' := setMac_within ..))
    | refine Within.upd (h := ?_)

theorem pauseSeen_within (a0 a1) (s : State) : Within [.regs, .mac] s (pauseSeen a0 a1 s) := by
  unfold pauseSeen
  repeat' first
    | (with_reducible assumption)
    | (with_reducible exact Within.refl _ _)
    | (show Area.sub _ _ = true; rfl)
    | (extract_lets +onlyGivenNames t; first | (refine Within.cut [.regs, .mac] s t (fun h => ?_) ?_; rotate_left; subst t; rotate_right; clear_value t) | clear_value t)
    | (with_reducible apply Within.then (h' := count_within ..))
    | (with_reducible apply Within.then (h' := fset_within ..))
    | (with_reducible apply Within.then (h' := macStat_within ..))
    | (with_reducible apply Within.then (h' := pauseClear_within ..))
    | (with_reducible apply Within.then (h' := txStart_within ..))
    | (with_reducible apply Within.ite)
    | split

theorem rxBoundary_within (a0) (s : State) : Within [.regs, .core, .pat, .mac] s (rxBoundary a0 s) := by
  unfold rxBoundary
  repeat' first
    | (with_reducible assumption)
    | (with_reducible exact Within.refl _ _)
    | (show Area.sub _ _ = true; rfl)
    | (extract_lets +onlyGivenNames t; first | (refine Within.cut [.regs, .core, .pat, .mac] s t (fun h => ?_) ?_; rotate_left; subst t; rotate_right; clear_value t) | clear_value t)
    | (with_reducible apply Within.then (h' := macApplyEn_within ..))
    | (with_reducible apply Within.then (h' := setMac_within ..))
    | (with_reducible apply Within.ite)
    | split
    | refine Within.upd (h := ?_)

theorem rxDrain_within (a0 a1) (s : State) : Within [.mac] s (rxDrain a0 a1 s) := by
  unfold rxDrain
  repeat' first
    | (with_reducible assumption)
    | (with_reducible exact Within.refl _ _)
    | (show Area.sub _ _ = true; rfl)
    | (extract_lets +onlyGivenNames t; first | (refine Within.cut [.mac] s t (fun h => ?_) ?_; rotate_left; subst t; rotate_right; clear_value t) | clear_value t)
    | (with_reducible apply Within.then (h' := setMac_within ..))
    | refine Within.upd (h := ?_)

theorem rxHanded_within (a0 a1) (s : State) : Within [.regs, .mac] s (rxHanded a0 a1 s) := by
  unfold rxHanded
  repeat' first
    | (with_reducible assumption)
    | (with_reducible exact Within.refl _ _)
    | (show Area.sub _ _ = true; rfl)
    | (extract_lets +onlyGivenNames t; first | (refine Within.cut [.regs, .mac] s t (fun h => ?_) ?_; rotate_left; subst t; rotate_right; clear_value t) | clear_value t)
    | (with_reducible apply Within.then (h' := count64_within ..))
    | (with_reducible apply Within.then (h' := setMac_within ..))
    | refine Within.upd (h := ?_)

theorem rxOutcome_within (claim : List Nat → State → Option State) (m : Nat) (bs : List Nat) (lost bad : Bool)
    (s : State) (hc : ∀ l t v, claim l t = some v → Within [.regs, .core, .pat, .test, .q, .flow, .mac, .fresh] t v) :
    Within [.regs, .core, .pat, .test, .q, .flow, .mac, .fresh] s (rxOutcome claim m bs lost bad s) := by
  unfold rxOutcome
  repeat' first
    | (with_reducible assumption)
    | (with_reducible exact Within.refl _ _)
    | (show Area.sub _ _ = true; rfl)
    | (extract_lets +onlyGivenNames t; first | (refine Within.cut [.regs, .core, .pat, .test, .q, .flow, .mac, .fresh] s t (fun h => ?_) ?_; rotate_left; subst t; rotate_right; clear_value t) | (refine Within.cut [.regs, .core, .pat, .test, .q, .flow, .mac, .fresh] s t.2 (fun h => ?_) ?_; rotate_left; subst t; rotate_right; clear_value t) | clear_value t)
    | (with_reducible apply Within.then (h' := count_within ..))
    | (with_reducible apply Within.then (h' := crcObserved_within ..))
    | (with_reducible apply Within.then (h' := excRecord_within ..))
    | (with_reducible apply Within.then (h' := pauseSeen_within ..))
    | (with_reducible apply Within.then (h' := raise_within ..))
    | (with_reducible apply Within.then (h' := rxHanded_within ..))
    | (with_reducible apply Within.ite)
    | (split; · (rename_i e; exact Within.then (by assumption) (hc _ _ _ e) rfl))
    | (with_reducible apply Within.iteSnd)
    | split

theorem rxFrame_within (claim : List Nat → State → Option State) (m : Nat) (bs : List Nat) (drained : Nat) (pcsErr : Bool)
    (corr uncorr : Nat) (s : State) (hc : ∀ l t v, claim l t = some v → Within [.regs, .core, .pat, .test, .q, .flow, .mac, .fresh] t v) :
    Within [.regs, .core, .pat, .test, .q, .flow, .mac, .fresh] s (rxFrame claim m bs drained pcsErr corr uncorr s) := by
  unfold rxFrame
  repeat' first
    | exact hc
    | (with_reducible assumption)
    | (with_reducible exact Within.refl _ _)
    | (show Area.sub _ _ = true; rfl)
    | (extract_lets +onlyGivenNames t; first | (refine Within.cut [.regs, .core, .pat, .test, .q, .flow, .mac, .fresh] s t (fun h => ?_) ?_; rotate_left; subst t; rotate_right; clear_value t) | clear_value t)
    | (with_reducible apply Within.then (h' := fecCount_within ..))
    | (with_reducible apply Within.then (h' := rxBoundary_within ..))
    | (with_reducible apply Within.then (h' := rxDrain_within ..))
    | (with_reducible apply Within.then (h' := rxOutcome_within (hc := hc) ..))
    | (with_reducible apply Within.ite)
    | split
    | (with_reducible apply Within.then (h' := rxOutcome_within (hc := hc) ..))

theorem tsComplete_within (a0 a1 a2) (s : State) : Within [.regs, .core, .pat, .test, .q, .fresh] s (tsComplete a0 a1 a2 s) := by
  unfold tsComplete
  repeat' first
    | (with_reducible assumption)
    | (with_reducible exact Within.refl _ _)
    | (show Area.sub _ _ = true; rfl)
    | (extract_lets +onlyGivenNames t; first | (refine Within.cut [.regs, .core, .pat, .test, .q, .fresh] s t (fun h => ?_) ?_; rotate_left; subst t; rotate_right; clear_value t) | (refine Within.cut [.regs, .core, .pat, .test, .q, .fresh] s t.2 (fun h => ?_) ?_; rotate_left; subst t; rotate_right; clear_value t) | clear_value t)
    | (with_reducible apply Within.then (h' := count_within ..))
    | (with_reducible apply Within.then (h' := putRecord_within ..))
    | (with_reducible apply Within.then (h' := roomFor_within ..))
    | (with_reducible apply Within.ite)
    | (with_reducible apply Within.iteSnd)
    | split

theorem txDiscard_within (a0) (s : State) : Within [.regs, .mac] s (txDiscard a0 s) := by
  unfold txDiscard
  repeat' first
    | (with_reducible assumption)
    | (with_reducible exact Within.refl _ _)
    | (show Area.sub _ _ = true; rfl)
    | (with_reducible apply Within.then (h' := dropTop_within ..))
    | (with_reducible apply Within.ite)
    | split

theorem txEnd_within (a0) (s : State) : Within [.regs, .core, .pat, .test, .q, .mac, .fresh] s (txEnd a0 s) := by
  unfold txEnd
  repeat' first
    | (with_reducible assumption)
    | (with_reducible exact Within.refl _ _)
    | (show Area.sub _ _ = true; rfl)
    | (extract_lets +onlyGivenNames t; first | (refine Within.cut [.regs, .core, .pat, .test, .q, .mac, .fresh] s t (fun h => ?_) ?_; rotate_left; subst t; rotate_right; clear_value t) | clear_value t)
    | (with_reducible apply Within.then (h' := count64_within ..))
    | (with_reducible apply Within.then (h' := emit_within ..))
    | (with_reducible apply Within.then (h' := macApplyEn_within ..))
    | (with_reducible apply Within.then (h' := setMac_within ..))
    | (with_reducible apply Within.then (h' := tsComplete_within ..))
    | (with_reducible apply Within.then (h' := txStart_within ..))
    | split
    | refine Within.upd (h := ?_)

theorem txReturn_within (a0) (s : State) : Within [.regs, .mac] s (txReturn a0 s) := by
  unfold txReturn
  repeat' first
    | intro _
    | (with_reducible assumption)
    | (with_reducible exact Within.refl _ _)
    | (show Area.sub _ _ = true; rfl)
    | (extract_lets +onlyGivenNames t; first | (refine Within.cut [.regs, .mac] s t (fun h => ?_) ?_; rotate_left; subst t; rotate_right; clear_value t) | clear_value t)
    | (with_reducible apply Within.then (h' := dropTop_within ..))
    | (with_reducible apply Within.then (h' := txStart_within ..))
    | (with_reducible apply Within.foldl)

end Sys2Proof.Machine
end

