-- ==== Sys2Proof/Laws/WithinFlowFamily.lean ====
section
/-! SUPPORT. What each operation of Machine/FlowFamily.lean may change: one frame per operation. -/

namespace Sys2Proof.Machine

set_option Elab.async false
set_option linter.all false
set_option linter.tactic.unusedName false

theorem audCfgWrite_within (a0 a1 a2 a3) (s : State) : Within [.regs, .core, .pat] s (audCfgWrite a0 a1 a2 a3 s) := by
  unfold audCfgWrite
  repeat' first
    | (with_reducible assumption)
    | (with_reducible exact Within.refl _ _)
    | (show Area.sub _ _ = true; rfl)
    | (extract_lets +onlyGivenNames t; first | (refine Within.cut [.regs, .core, .pat] s t (fun h => ?_) ?_; rotate_left; subst t; rotate_right; clear_value t) | clear_value t)
    | (with_reducible apply Within.then (h' := plainWrite_within ..))
    | (with_reducible apply Within.then (h' := refuse_within ..))
    | (with_reducible apply Within.ite)
    | split

theorem delayWrite_within (a0 a1) (s : State) : Within [.regs] s (delayWrite a0 a1 s) := (by unfold delayWrite; exact rsetN_within ..)

theorem legCommit_within (a0 a1 a2) (s : State) : Within [.regs, .core, .pat, .flow] s (legCommit a0 a1 a2 s) := by
  unfold legCommit
  repeat' first
    | (with_reducible assumption)
    | (with_reducible exact Within.refl _ _)
    | (show Area.sub _ _ = true; rfl)
    | (extract_lets +onlyGivenNames t; first | (refine Within.cut [.regs, .core, .pat, .flow] s t (fun h => ?_) ?_; rotate_left; subst t; rotate_right; clear_value t) | clear_value t)
    | (with_reducible apply Within.then (h' := refuse_within ..))
    | (with_reducible apply Within.then (h' := rsetN_within ..))
    | (with_reducible apply Within.ite)
    | split
    | refine Within.upd (h := ?_)

theorem flowWrite_within (a0 a1 a2) (s : State) : Within [.regs, .core, .pat, .flow] s (flowWrite a0 a1 a2 s) := by
  unfold flowWrite
  repeat' first
    | (with_reducible assumption)
    | (with_reducible exact Within.refl _ _)
    | (show Area.sub _ _ = true; rfl)
    | (extract_lets +onlyGivenNames t; first | (refine Within.cut [.regs, .core, .pat, .flow] s t (fun h => ?_) ?_; rotate_left; subst t; rotate_right; clear_value t) | clear_value t)
    | (with_reducible apply Within.then (h' := audCfgWrite_within ..))
    | (with_reducible apply Within.then (h' := delayWrite_within ..))
    | (with_reducible apply Within.then (h' := legCommit_within ..))
    | (with_reducible apply Within.then (h' := plainWrite_within ..))
    | (with_reducible apply Within.then (h' := queueRegWrite_within ..))
    | (with_reducible apply Within.then (h' := rsetN_within ..))
    | (with_reducible apply Within.ite)
    | split

theorem advanceTo_within (a0 a1) (s : State) : Within [.core, .time] s (advanceTo a0 a1 s) := by
  unfold advanceTo
  repeat' first
    | (with_reducible assumption)
    | (with_reducible exact Within.refl _ _)
    | (show Area.sub _ _ = true; rfl)
    | (with_reducible apply Within.then (h' := advanceTicks_within ..))
    | (with_reducible apply Within.ite)
    | split

theorem setRx_within (a0 a1 a2) (s : State) : Within [.flow] s (setRx a0 a1 a2 s) := by
  unfold setRx
  repeat' first
    | (with_reducible assumption)
    | (with_reducible exact Within.refl _ _)
    | (show Area.sub _ _ = true; rfl)
    | (extract_lets +onlyGivenNames t; first | (refine Within.cut [.flow] s t (fun h => ?_) ?_; rotate_left; subst t; rotate_right; clear_value t) | clear_value t)
    | (with_reducible apply Within.ite)
    | split
    | refine Within.upd (h := ?_)

theorem groupSlip_within (a0 a1) (s : State) : Within [.regs, .core, .pat, .flow] s (groupSlip a0 a1 s) := by
  unfold groupSlip
  repeat' first
    | (with_reducible assumption)
    | (with_reducible exact Within.refl _ _)
    | (show Area.sub _ _ = true; rfl)
    | (extract_lets +onlyGivenNames t; first | (refine Within.cut [.regs, .core, .pat, .flow] s t (fun h => ?_) ?_; rotate_left; subst t; rotate_right; clear_value t) | clear_value t)
    | (with_reducible apply Within.then (h' := fset_within ..))
    | (with_reducible apply Within.then (h' := raise_within ..))
    | (with_reducible apply Within.then (h' := setRx_within ..))
    | split
    | refine Within.upd (h := ?_)

theorem rxLatch_within (a0 a1) (s : State) : Within [.flow] s (rxLatch a0 a1 s) := by
  unfold rxLatch
  repeat' first
    | (with_reducible assumption)
    | (with_reducible exact Within.refl _ _)
    | (show Area.sub _ _ = true; rfl)
    | (extract_lets +onlyGivenNames t; first | (refine Within.cut [.flow] s t (fun h => ?_) ?_; rotate_left; subst t; rotate_right; clear_value t) | clear_value t)
    | (with_reducible apply Within.then (h' := setRx_within ..))
    | refine Within.upd (h := ?_)

theorem ancClose_within (a0 a1) (s : State) : Within [.regs, .core, .pat, .test, .q, .flow, .time, .fresh] s (ancClose a0 a1 s) := by
  unfold ancClose
  repeat' first
    | intro _
    | (with_reducible assumption)
    | (with_reducible exact Within.refl _ _)
    | (show Area.sub _ _ = true; rfl)
    | (extract_lets +onlyGivenNames t; first | (refine Within.cut [.regs, .core, .pat, .test, .q, .flow, .time, .fresh] s t (fun h => ?_) ?_; rotate_left; subst t; rotate_right; clear_value t) | (refine Within.cut [.regs, .core, .pat, .test, .q, .flow, .time, .fresh] s t.2 (fun h => ?_) ?_; rotate_left; subst t; rotate_right; clear_value t) | clear_value t)
    | (with_reducible apply Within.then (h' := advanceTo_within ..))
    | (with_reducible apply Within.then (h' := count_within ..))
    | (with_reducible apply Within.then (h' := groupSlip_within ..))
    | (with_reducible apply Within.then (h' := putRecord_within ..))
    | (with_reducible apply Within.then (h' := roomFor_within ..))
    | (with_reducible apply Within.then (h' := rxLatch_within ..))
    | (with_reducible apply Within.then (h' := setRx_within ..))
    | (with_reducible apply Within.ite)
    | (with_reducible apply Within.iteSnd)
    | (with_reducible apply Within.foldl)
    | (with_reducible apply Within.foldlSnd)
    | split
    | refine Within.upd (h := ?_)

theorem dropLate_within (a0 a1) (s : State) : Within [.regs, .core, .pat, .mac] s (dropLate a0 a1 s) := by
  unfold dropLate
  repeat' first
    | intro _
    | (with_reducible assumption)
    | (with_reducible exact Within.refl _ _)
    | (show Area.sub _ _ = true; rfl)
    | (extract_lets +onlyGivenNames t; first | (refine Within.cut [.regs, .core, .pat, .mac] s t (fun h => ?_) ?_; rotate_left; subst t; rotate_right; clear_value t) | clear_value t)
    | (with_reducible apply Within.then (h' := count_within ..))
    | (with_reducible apply Within.then (h' := raise_within ..))
    | (with_reducible apply Within.then (h' := setMac_within ..))
    | (with_reducible apply Within.ite)
    | (with_reducible apply Within.foldl)
    | split
    | refine Within.upd (h := ?_)

theorem placeReplica_within (a0 a1 a2 a3 a4) (s : State) : Within [.regs, .mac] s (placeReplica a0 a1 a2 a3 a4 s) := by
  unfold placeReplica
  repeat' first
    | (with_reducible assumption)
    | (with_reducible exact Within.refl _ _)
    | (show Area.sub _ _ = true; rfl)
    | (extract_lets +onlyGivenNames t; first | (refine Within.cut [.regs, .mac] s t (fun h => ?_) ?_; rotate_left; subst t; rotate_right; clear_value t) | clear_value t)
    | (with_reducible apply Within.then (h' := count_within ..))
    | (with_reducible apply Within.then (h' := setMac_within ..))
    | (with_reducible apply Within.then (h' := txPlace_within ..))
    | (with_reducible apply Within.ite)
    | split
    | refine Within.upd (h := ?_)

theorem setTx_within (a0 a1 a2) (s : State) : Within [.flow] s (setTx a0 a1 a2 s) := by
  unfold setTx
  repeat' first
    | (with_reducible assumption)
    | (with_reducible exact Within.refl _ _)
    | (show Area.sub _ _ = true; rfl)
    | (extract_lets +onlyGivenNames t; first | (refine Within.cut [.flow] s t (fun h => ?_) ?_; rotate_left; subst t; rotate_right; clear_value t) | clear_value t)
    | (with_reducible apply Within.ite)
    | split
    | refine Within.upd (h := ?_)

theorem schedule_within (a0 a1 a2 a3 a4 a5 a6) (s : State) : Within [.regs, .flow, .mac] s (schedule a0 a1 a2 a3 a4 a5 a6 s) := by
  unfold schedule
  repeat' first
    | intro _
    | (with_reducible assumption)
    | (with_reducible exact Within.refl _ _)
    | (show Area.sub _ _ = true; rfl)
    | (extract_lets +onlyGivenNames t; first | (refine Within.cut [.regs, .flow, .mac] s t (fun h => ?_) ?_; rotate_left; subst t; rotate_right; clear_value t) | clear_value t)
    | (with_reducible apply Within.then (h' := placeReplica_within ..))
    | (with_reducible apply Within.then (h' := setTx_within ..))
    | (with_reducible apply Within.ite)
    | (with_reducible apply Within.foldl)
    | split
    | refine Within.upd (h := ?_)

theorem ancSend_within (a0) (s : State) : Within [.regs, .core, .pat, .flow, .mac] s (ancSend a0 s) := by
  unfold ancSend
  repeat' first
    | intro _
    | (with_reducible assumption)
    | (with_reducible exact Within.refl _ _)
    | (show Area.sub _ _ = true; rfl)
    | (extract_lets +onlyGivenNames t; first | (refine Within.cut [.regs, .core, .pat, .flow, .mac] s t (fun h => ?_) ?_; rotate_left; subst t; rotate_right; clear_value t) | clear_value t)
    | (with_reducible apply Within.then (h' := dropLate_within ..))
    | (with_reducible apply Within.then (h' := schedule_within ..))
    | (with_reducible apply Within.ite)
    | (with_reducible apply Within.foldl)
    | split

theorem ancTxSwitch_within (a0) (s : State) : Within [.regs, .core, .pat, .test, .q, .flow, .fresh] s (ancTxSwitch a0 s) := by
  unfold ancTxSwitch
  repeat' first
    | (with_reducible assumption)
    | (with_reducible exact Within.refl _ _)
    | (show Area.sub _ _ = true; rfl)
    | (extract_lets +onlyGivenNames t; first | (refine Within.cut [.regs, .core, .pat, .test, .q, .flow, .fresh] s t (fun h => ?_) ?_; rotate_left; subst t; rotate_right; clear_value t) | (refine Within.cut [.regs, .core, .pat, .test, .q, .flow, .fresh] s t.2 (fun h => ?_) ?_; rotate_left; subst t; rotate_right; clear_value t) | (have _h := fun x => (t x : State)) | (have _h := fun x y => (t x y : State)) | (have _h := fun x y z => (t x y z : State)) | clear_value t)
    | (with_reducible apply Within.then (h' := queueMark_within ..))
    | (with_reducible apply Within.then (h' := queueRelease_within ..))
    | (with_reducible apply Within.then (h' := queueRewind_within ..))
    | (with_reducible apply Within.then (h' := readRecords_within ..))
    | (with_reducible apply Within.then (h' := setTx_within ..))
    | (with_reducible apply Within.ite)
    | (with_reducible apply Within.iteSnd)
    | split
    | refine Within.upd (h := ?_)

theorem ancTxSwitchAll_within (a0) (s : State) : Within [.regs, .core, .pat, .test, .q, .flow, .fresh] s (ancTxSwitchAll a0 s) := by
  unfold ancTxSwitchAll
  repeat' first
    | intro _
    | (with_reducible assumption)
    | (with_reducible exact Within.refl _ _)
    | (show Area.sub _ _ = true; rfl)
    | (with_reducible apply Within.then (h' := ancTxSwitch_within ..))
    | (with_reducible apply Within.ite)
    | (with_reducible apply Within.foldl)
    | split

theorem posPut_within (a0 a1 a2) (s : State) : Within [.flow] s (posPut a0 a1 a2 s) := by
  unfold posPut
  repeat' first
    | (with_reducible assumption)
    | (with_reducible exact Within.refl _ _)
    | (show Area.sub _ _ = true; rfl)
    | (extract_lets +onlyGivenNames t; first | (refine Within.cut [.flow] s t (fun h => ?_) ?_; rotate_left; subst t; rotate_right; clear_value t) | clear_value t)
    | (with_reducible apply Within.ite)
    | split
    | refine Within.upd (h := ?_)

theorem audioDeliver_within (a0 a1) (s : State) : Within [.regs, .core, .pat, .flow, .time] s (audioDeliver a0 a1 s) := by
  unfold audioDeliver
  repeat' first
    | intro _
    | (with_reducible assumption)
    | (with_reducible exact Within.refl _ _)
    | (show Area.sub _ _ = true; rfl)
    | (extract_lets +onlyGivenNames t; first | (refine Within.cut [.regs, .core, .pat, .flow, .time] s t (fun h => ?_) ?_; rotate_left; subst t; rotate_right; clear_value t) | clear_value t)
    | (with_reducible apply Within.then (h' := advanceTo_within ..))
    | (with_reducible apply Within.then (h' := count_within ..))
    | (with_reducible apply Within.then (h' := groupSlip_within ..))
    | (with_reducible apply Within.then (h' := posPut_within ..))
    | (with_reducible apply Within.then (h' := rxLatch_within ..))
    | (with_reducible apply Within.then (h' := setRx_within ..))
    | (with_reducible apply Within.ite)
    | (with_reducible apply Within.foldl)
    | split
    | refine Within.upd (h := ?_)

theorem audioPacket_within (a0) (s : State) : Within [.regs, .core, .pat, .flow, .mac] s (audioPacket a0 s) := by
  unfold audioPacket
  repeat' first
    | (with_reducible assumption)
    | (with_reducible exact Within.refl _ _)
    | (show Area.sub _ _ = true; rfl)
    | (extract_lets +onlyGivenNames t; first | (refine Within.cut [.regs, .core, .pat, .flow, .mac] s t (fun h => ?_) ?_; rotate_left; subst t; rotate_right; clear_value t) | clear_value t)
    | (with_reducible apply Within.then (h' := dropLate_within ..))
    | (with_reducible apply Within.then (h' := schedule_within ..))
    | (with_reducible apply Within.ite)
    | split

theorem audioStore_within (a0 a1 a2) (s : State) : Within [.regs, .flow] s (audioStore a0 a1 a2 s) := by
  unfold audioStore
  repeat' first
    | (with_reducible assumption)
    | (with_reducible exact Within.refl _ _)
    | (show Area.sub _ _ = true; rfl)
    | (extract_lets +onlyGivenNames t; first | (refine Within.cut [.regs, .flow] s t (fun h => ?_) ?_; rotate_left; subst t; rotate_right; clear_value t) | clear_value t)
    | (with_reducible apply Within.then (h' := count_within ..))
    | (with_reducible apply Within.then (h' := setRx_within ..))
    | (with_reducible apply Within.ite)
    | split
    | refine Within.upd (h := ?_)

theorem dejitLine_within (a0 a1 a2) (s : State) : Within [.regs, .core, .pat, .test, .fresh] s (dejitLine a0 a1 a2 s).2 := by
  unfold dejitLine
  repeat' first
    | (with_reducible assumption)
    | (with_reducible exact Within.refl _ _)
    | (show Area.sub _ _ = true; rfl)
    | (extract_lets +onlyGivenNames t; first | (refine Within.cut [.regs, .core, .pat, .test, .fresh] s t (fun h => ?_) ?_; rotate_left; subst t; rotate_right; clear_value t) | (refine Within.cut [.regs, .core, .pat, .test, .fresh] s t.2 (fun h => ?_) ?_; rotate_left; subst t; rotate_right; clear_value t) | clear_value t)
    | (with_reducible apply Within.then (h' := countN_within ..))
    | (with_reducible apply Within.then (h' := hbmRead_within ..))
    | (with_reducible apply Within.then (h' := spend_within ..))
    | (with_reducible apply Within.ite)
    | (with_reducible apply Within.iteSnd)
    | split

theorem legArrive_within (a0 a1 a2 a3 a4 a5 a6) (s : State) : Within [.regs, .flow] s (legArrive a0 a1 a2 a3 a4 a5 a6 s) := by
  unfold legArrive
  repeat' first
    | (with_reducible assumption)
    | (with_reducible exact Within.refl _ _)
    | (show Area.sub _ _ = true; rfl)
    | (extract_lets +onlyGivenNames t; first | (refine Within.cut [.regs, .flow] s t (fun h => ?_) ?_; rotate_left; subst t; rotate_right; clear_value t) | clear_value t)
    | (with_reducible apply Within.then (h' := countN_within ..))
    | (with_reducible apply Within.then (h' := setRx_within ..))
    | (with_reducible apply Within.ite)
    | split
    | refine Within.upd (h := ?_)

theorem videoStore_within (a0 a1 a2 a3 a4) (s : State) : Within [.regs, .flow] s (videoStore a0 a1 a2 a3 a4 s) := by
  unfold videoStore
  repeat' first
    | (with_reducible assumption)
    | (with_reducible exact Within.refl _ _)
    | (show Area.sub _ _ = true; rfl)
    | (extract_lets +onlyGivenNames t; first | (refine Within.cut [.regs, .flow] s t (fun h => ?_) ?_; rotate_left; subst t; rotate_right; clear_value t) | (have _h := fun x => (t x : State)) | (have _h := fun x y => (t x y : State)) | (have _h := fun x y z => (t x y z : State)) | clear_value t)
    | (with_reducible apply Within.then (h' := count_within ..))
    | (with_reducible apply Within.then (h' := setRx_within ..))
    | (with_reducible apply Within.ite)
    | split
    | refine Within.upd (h := ?_)

theorem flowPacket_within (a0 a1) (s : State) : Within [.regs, .flow] s (flowPacket a0 a1 s) := by
  unfold flowPacket
  repeat' first
    | (with_reducible assumption)
    | (with_reducible exact Within.refl _ _)
    | (show Area.sub _ _ = true; rfl)
    | (extract_lets +onlyGivenNames t; first | (refine Within.cut [.regs, .flow] s t (fun h => ?_) ?_; rotate_left; subst t; rotate_right; clear_value t) | clear_value t)
    | (with_reducible apply Within.then (h' := audioStore_within ..))
    | (with_reducible apply Within.then (h' := count_within ..))
    | (with_reducible apply Within.then (h' := legArrive_within ..))
    | (with_reducible apply Within.then (h' := rxLatch_within ..))
    | (with_reducible apply Within.then (h' := setRx_within ..))
    | (with_reducible apply Within.then (h' := videoStore_within ..))
    | (with_reducible apply Within.ite)
    | split
    | refine Within.upd (h := ?_)

theorem flowClaim_within {m : Nat} {bs : List Nat} {s t : State} (h : flowClaim m bs s = some t) : Within [.regs, .flow] s t := by
  unfold flowClaim at h
  obtain ⟨l, _, rfl⟩ := Option.map_eq_some_iff.1 h
  exact flowPacket_within ..

theorem vrxStat_within (a0 a1 a2) (s : State) : Within [.regs] s (vrxStat a0 a1 a2 s) := (by unfold vrxStat; exact fset_within ..)

theorem flowPresent_within (a0 a1) (s : State) : Within [.regs, .core, .pat, .xp, .ref] s (flowPresent a0 a1 s) := by
  unfold flowPresent
  repeat' first
    | (with_reducible assumption)
    | (with_reducible exact Within.refl _ _)
    | (show Area.sub _ _ = true; rfl)
    | (extract_lets +onlyGivenNames t; first | (refine Within.cut [.regs, .core, .pat, .xp, .ref] s t (fun h => ?_) ?_; rotate_left; subst t; rotate_right; clear_value t) | clear_value t)
    | (with_reducible apply Within.then (h' := raise_within ..))
    | (with_reducible apply Within.then (h' := setPresent_within ..))
    | (with_reducible apply Within.then (h' := vrxStat_within ..))
    | (with_reducible apply Within.ite)
    | split

theorem frameBegin_within (a0 a1) (s : State) : Within [.regs, .core, .pat, .xp, .flow, .ref] s (frameBegin a0 a1 s) := by
  unfold frameBegin
  repeat' first
    | (with_reducible assumption)
    | (with_reducible exact Within.refl _ _)
    | (show Area.sub _ _ = true; rfl)
    | (extract_lets +onlyGivenNames t; first | (refine Within.cut [.regs, .core, .pat, .xp, .flow, .ref] s t (fun h => ?_) ?_; rotate_left; subst t; rotate_right; clear_value t) | clear_value t)
    | (with_reducible apply Within.then (h' := count_within ..))
    | (with_reducible apply Within.then (h' := flowPresent_within ..))
    | (with_reducible apply Within.then (h' := groupSlip_within ..))
    | (with_reducible apply Within.then (h' := rxLatch_within ..))
    | (with_reducible apply Within.then (h' := setRx_within ..))
    | (with_reducible apply Within.then (h' := vrxStat_within ..))
    | (with_reducible apply Within.ite)
    | split
    | refine Within.upd (h := ?_)

theorem frameEnd_within (a0) (s : State) : Within [.regs, .flow] s (frameEnd a0 s) := by
  unfold frameEnd
  repeat' first
    | (with_reducible assumption)
    | (with_reducible exact Within.refl _ _)
    | (show Area.sub _ _ = true; rfl)
    | (extract_lets +onlyGivenNames t; first | (refine Within.cut [.regs, .flow] s t (fun h => ?_) ?_; rotate_left; subst t; rotate_right; clear_value t) | clear_value t)
    | (with_reducible apply Within.then (h' := countN_within ..))
    | (with_reducible apply Within.then (h' := setRx_within ..))
    | (with_reducible apply Within.ite)
    | split
    | refine Within.upd (h := ?_)

theorem flowLineRead_within (a0 a1 a2 a3) (s : State) : Within [.regs, .core, .pat, .test, .xp, .flow, .ref, .time, .fresh] s (flowLineRead a0 a1 a2 a3 s) := by
  unfold flowLineRead
  repeat' first
    | (with_reducible assumption)
    | (with_reducible exact Within.refl _ _)
    | (show Area.sub _ _ = true; rfl)
    | (extract_lets +onlyGivenNames t; first | (refine Within.cut [.regs, .core, .pat, .test, .xp, .flow, .ref, .time, .fresh] s t (fun h => ?_) ?_; rotate_left; subst t; rotate_right; clear_value t) | (refine Within.cut [.regs, .core, .pat, .test, .xp, .flow, .ref, .time, .fresh] s t.2 (fun h => ?_) ?_; rotate_left; subst t; rotate_right; clear_value t) | clear_value t)
    | (with_reducible apply Within.then (h' := advanceTo_within ..))
    | (with_reducible apply Within.then (h' := dejitLine_within ..))
    | (with_reducible apply Within.then (h' := frameBegin_within ..))
    | (with_reducible apply Within.then (h' := frameEnd_within ..))
    | (with_reducible apply Within.then (h' := pushLine_within ..))
    | (with_reducible apply Within.then (h' := rxLatch_within ..))
    | (with_reducible apply Within.then (h' := setRx_within ..))
    | (with_reducible apply Within.then (h' := switchArrival_within ..))
    | (with_reducible apply Within.ite)
    | (with_reducible apply Within.iteSnd)
    | split
    | refine Within.upd (h := ?_)

theorem groupsRealign_within (a0) (s : State) : Within [.flow] s (groupsRealign a0 s) := by
  unfold groupsRealign
  repeat' first
    | (with_reducible assumption)
    | (with_reducible exact Within.refl _ _)
    | (show Area.sub _ _ = true; rfl)
    | (extract_lets +onlyGivenNames t; first | (refine Within.cut [.flow] s t (fun h => ?_) ?_; rotate_left; subst t; rotate_right; clear_value t) | (have _h := fun x => (t x : State)) | (have _h := fun x y => (t x y : State)) | (have _h := fun x y z => (t x y z : State)) | clear_value t)
    | (with_reducible apply Within.ite)
    | split
    | refine Within.upd (h := ?_)

theorem pathSilent_within (a0 a1 a2) (s : State) : Within [.regs, .core, .pat, .flow] s (pathSilent a0 a1 a2 s) := by
  unfold pathSilent
  repeat' first
    | (with_reducible assumption)
    | (with_reducible exact Within.refl _ _)
    | (show Area.sub _ _ = true; rfl)
    | (extract_lets +onlyGivenNames t; first | (refine Within.cut [.regs, .core, .pat, .flow] s t (fun h => ?_) ?_; rotate_left; subst t; rotate_right; clear_value t) | clear_value t)
    | (with_reducible apply Within.then (h' := raise_within ..))
    | (with_reducible apply Within.then (h' := setRx_within ..))
    | (with_reducible apply Within.ite)
    | split
    | refine Within.upd (h := ?_)

theorem skewWindow_within (a0 a1) (s : State) : Within [.regs, .core, .pat, .flow] s (skewWindow a0 a1 s) := by
  unfold skewWindow
  repeat' first
    | (with_reducible assumption)
    | (with_reducible exact Within.refl _ _)
    | (show Area.sub _ _ = true; rfl)
    | (extract_lets +onlyGivenNames t; first | (refine Within.cut [.regs, .core, .pat, .flow] s t (fun h => ?_) ?_; rotate_left; subst t; rotate_right; clear_value t) | clear_value t)
    | (with_reducible apply Within.then (h' := fset_within ..))
    | (with_reducible apply Within.then (h' := raise_within ..))
    | (with_reducible apply Within.then (h' := rsetN_within ..))
    | (with_reducible apply Within.then (h' := setRx_within ..))
    | (with_reducible apply Within.ite)
    | split
    | refine Within.upd (h := ?_)

theorem videoFrameStart_within (a0) (s : State) : Within [.regs, .core, .pat, .flow, .mac] s (videoFrameStart a0 s) := by
  unfold videoFrameStart
  repeat' first
    | (with_reducible assumption)
    | (with_reducible exact Within.refl _ _)
    | (show Area.sub _ _ = true; rfl)
    | (extract_lets +onlyGivenNames t; first | (refine Within.cut [.regs, .core, .pat, .flow, .mac] s t (fun h => ?_) ?_; rotate_left; subst t; rotate_right; clear_value t) | clear_value t)
    | (with_reducible apply Within.then (h' := dropLate_within ..))
    | (with_reducible apply Within.then (h' := setTx_within ..))
    | (with_reducible apply Within.ite)
    | split
    | refine Within.upd (h := ?_)

theorem videoPacketDue_within (a0) (s : State) : Within [.regs, .core, .pat, .flow, .mac] s (videoPacketDue a0 s) := by
  unfold videoPacketDue
  repeat' first
    | (with_reducible assumption)
    | (with_reducible exact Within.refl _ _)
    | (show Area.sub _ _ = true; rfl)
    | (extract_lets +onlyGivenNames t; first | (refine Within.cut [.regs, .core, .pat, .flow, .mac] s t (fun h => ?_) ?_; rotate_left; subst t; rotate_right; clear_value t) | clear_value t)
    | (with_reducible apply Within.then (h' := schedule_within ..))
    | (with_reducible apply Within.then (h' := setTx_within ..))
    | (with_reducible apply Within.then (h' := videoFrameStart_within ..))
    | (with_reducible apply Within.ite)
    | split
    | refine Within.upd (h := ?_)

end Sys2Proof.Machine
end

