-- ==== Sys2Proof/Laws/WithinSapFamily.lean ====
section
/-! SUPPORT. What each operation of Machine/SapFamily.lean may change: one frame per operation. -/

namespace Sys2Proof.Machine

set_option Elab.async false
set_option linter.all false
set_option linter.tactic.unusedName false

theorem setGrpState_within (a0 a1) (s : State) : Within [.regs] s (setGrpState a0 a1 s) := (by unfold setGrpState; exact fset_within ..)

theorem grpTrigger_within (a0) (s : State) : Within [.regs] s (grpTrigger a0 s) := by
  unfold grpTrigger
  repeat' first
    | (with_reducible assumption)
    | (with_reducible exact Within.refl _ _)
    | (show Area.sub _ _ = true; rfl)
    | (extract_lets +onlyGivenNames t; first | (refine Within.cut [.regs] s t (fun h => ?_) ?_; rotate_left; subst t; rotate_right; clear_value t) | clear_value t)
    | (with_reducible apply Within.then (h' := fset_within ..))
    | (with_reducible apply Within.then (h' := rset64_within ..))
    | (with_reducible apply Within.then (h' := setGrpState_within ..))
    | (with_reducible apply Within.ite)
    | split

theorem setSap_within (a0 a1) (s : State) : Within [.aud] s (setSap a0 a1 s) := by
  unfold setSap
  repeat' first
    | (with_reducible assumption)
    | (with_reducible exact Within.refl _ _)
    | (show Area.sub _ _ = true; rfl)
    | (extract_lets +onlyGivenNames t; first | (refine Within.cut [.aud] s t (fun h => ?_) ?_; rotate_left; subst t; rotate_right; clear_value t) | clear_value t)
    | refine Within.upd (h := ?_)

theorem maskCommit_within (a0 a1 a2) (s : State) : Within [.aud] s (maskCommit a0 a1 a2 s) := by
  unfold maskCommit
  repeat' first
    | (with_reducible assumption)
    | (with_reducible exact Within.refl _ _)
    | (show Area.sub _ _ = true; rfl)
    | (extract_lets +onlyGivenNames t; first | (refine Within.cut [.aud] s t (fun h => ?_) ?_; rotate_left; subst t; rotate_right; clear_value t) | clear_value t)
    | (with_reducible apply Within.then (h' := setSap_within ..))
    | (with_reducible apply Within.ite)
    | split
    | refine Within.upd (h := ?_)

theorem setNa_within (a0 a1) (s : State) : Within [.aud] s (setNa a0 a1 s) := by
  unfold setNa
  repeat' first
    | (with_reducible assumption)
    | (with_reducible exact Within.refl _ _)
    | (show Area.sub _ _ = true; rfl)
    | (extract_lets +onlyGivenNames t; first | (refine Within.cut [.aud] s t (fun h => ?_) ?_; rotate_left; subst t; rotate_right; clear_value t) | clear_value t)
    | refine Within.upd (h := ?_)

theorem setSapState_within (a0 a1) (s : State) : Within [.regs] s (setSapState a0 a1 s) := (by unfold setSapState; exact fset_within ..)

theorem sapStop_within (a0 a1) (s : State) : Within [.regs, .aud] s (sapStop a0 a1 s) := by
  unfold sapStop
  repeat' first
    | intro _
    | (with_reducible assumption)
    | (with_reducible exact Within.refl _ _)
    | (show Area.sub _ _ = true; rfl)
    | (extract_lets +onlyGivenNames t; first | (refine Within.cut [.regs, .aud] s t (fun h => ?_) ?_; rotate_left; subst t; rotate_right; clear_value t) | clear_value t)
    | (with_reducible apply Within.then (h' := fset_within ..))
    | (with_reducible apply Within.then (h' := setNa_within ..))
    | (with_reducible apply Within.then (h' := setSap_within ..))
    | (with_reducible apply Within.then (h' := setSapState_within ..))
    | (with_reducible apply Within.ite)
    | (with_reducible apply Within.foldl)
    | split
    | refine Within.upd (h := ?_)

theorem sapLostReact_within (a0) (s : State) : Within [.regs, .aud] s (sapLostReact a0 s) := by
  unfold sapLostReact
  repeat' first
    | (with_reducible assumption)
    | (with_reducible exact Within.refl _ _)
    | (show Area.sub _ _ = true; rfl)
    | (with_reducible apply Within.then (h' := sapStop_within ..))
    | (with_reducible apply Within.ite)
    | split

theorem sapGrpIdle_within (a0) (s : State) : Within [.regs, .aud] s (sapGrpIdle a0 s) := by
  unfold sapGrpIdle
  repeat' first
    | (with_reducible assumption)
    | (with_reducible exact Within.refl _ _)
    | (show Area.sub _ _ = true; rfl)
    | (extract_lets +onlyGivenNames t; first | (refine Within.cut [.regs, .aud] s t (fun h => ?_) ?_; rotate_left; subst t; rotate_right; clear_value t) | clear_value t)
    | (with_reducible apply Within.then (h' := sapLostReact_within ..))
    | (with_reducible apply Within.then (h' := setSap_within ..))
    | refine Within.upd (h := ?_)

theorem grpCtrlWrite_within (a0 a1) (s : State) : Within [.regs, .core, .pat, .aud] s (grpCtrlWrite a0 a1 s) := by
  unfold grpCtrlWrite
  repeat' first
    | intro _
    | (with_reducible assumption)
    | (with_reducible exact Within.refl _ _)
    | (show Area.sub _ _ = true; rfl)
    | (extract_lets +onlyGivenNames t; first | (refine Within.cut [.regs, .core, .pat, .aud] s t (fun h => ?_) ?_; rotate_left; subst t; rotate_right; clear_value t) | clear_value t)
    | (with_reducible apply Within.then (h' := fset_within ..))
    | (with_reducible apply Within.then (h' := grpTrigger_within ..))
    | (with_reducible apply Within.then (h' := maskCommit_within ..))
    | (with_reducible apply Within.then (h' := plainWrite_within ..))
    | (with_reducible apply Within.then (h' := raise_within ..))
    | (with_reducible apply Within.then (h' := sapGrpIdle_within ..))
    | (with_reducible apply Within.then (h' := setGrpState_within ..))
    | (with_reducible apply Within.ite)
    | (with_reducible apply Within.foldl)
    | split

theorem refreshNa_within (a0) (s : State) : Within [.regs] s (refreshNa a0 s) := by
  unfold refreshNa
  repeat' first
    | (with_reducible assumption)
    | (with_reducible exact Within.refl _ _)
    | (show Area.sub _ _ = true; rfl)
    | (extract_lets +onlyGivenNames t; first | (refine Within.cut [.regs] s t (fun h => ?_) ?_; rotate_left; subst t; rotate_right; clear_value t) | clear_value t)
    | (with_reducible apply Within.then (h' := fset_within ..))

theorem sapWrite_within (a0 a1 a2) (s : State) : Within [.regs, .core, .pat, .aud] s (sapWrite a0 a1 a2 s) := by
  unfold sapWrite
  repeat' first
    | (with_reducible assumption)
    | (with_reducible exact Within.refl _ _)
    | (show Area.sub _ _ = true; rfl)
    | (extract_lets +onlyGivenNames t; first | (refine Within.cut [.regs, .core, .pat, .aud] s t (fun h => ?_) ?_; rotate_left; subst t; rotate_right; clear_value t) | clear_value t)
    | (with_reducible apply Within.then (h' := grpCtrlWrite_within ..))
    | (with_reducible apply Within.then (h' := maskCommit_within ..))
    | (with_reducible apply Within.then (h' := plainWrite_within ..))
    | (with_reducible apply Within.then (h' := refreshNa_within ..))
    | (with_reducible apply Within.then (h' := refuse_within ..))
    | (with_reducible apply Within.then (h' := rsetN_within ..))
    | (with_reducible apply Within.then (h' := sapLostReact_within ..))
    | (with_reducible apply Within.ite)
    | split

theorem setAsrcState_within (a0 a1) (s : State) : Within [.regs] s (setAsrcState a0 a1 s) := (by unfold setAsrcState; exact fset_within ..)

theorem asrcAcquired_within (a0) (s : State) : Within [.regs] s (asrcAcquired a0 s) := by
  unfold asrcAcquired
  repeat' first
    | (with_reducible assumption)
    | (with_reducible exact Within.refl _ _)
    | (show Area.sub _ _ = true; rfl)
    | (with_reducible apply Within.then (h' := setAsrcState_within ..))
    | (with_reducible apply Within.ite)
    | split

theorem setAsrc_within (a0 a1) (s : State) : Within [.aud] s (setAsrc a0 a1 s) := by
  unfold setAsrc
  repeat' first
    | (with_reducible assumption)
    | (with_reducible exact Within.refl _ _)
    | (show Area.sub _ _ = true; rfl)
    | (extract_lets +onlyGivenNames t; first | (refine Within.cut [.aud] s t (fun h => ?_) ?_; rotate_left; subst t; rotate_right; clear_value t) | clear_value t)
    | refine Within.upd (h := ?_)

theorem asrcUnlock_within (a0) (s : State) : Within [.regs, .core, .pat, .aud] s (asrcUnlock a0 s) := by
  unfold asrcUnlock
  repeat' first
    | (with_reducible assumption)
    | (with_reducible exact Within.refl _ _)
    | (show Area.sub _ _ = true; rfl)
    | (extract_lets +onlyGivenNames t; first | (refine Within.cut [.regs, .core, .pat, .aud] s t (fun h => ?_) ?_; rotate_left; subst t; rotate_right; clear_value t) | clear_value t)
    | (with_reducible apply Within.then (h' := count_within ..))
    | (with_reducible apply Within.then (h' := raise_within ..))
    | (with_reducible apply Within.then (h' := setAsrc_within ..))
    | (with_reducible apply Within.then (h' := setAsrcState_within ..))
    | (with_reducible apply Within.ite)
    | split
    | refine Within.upd (h := ?_)

theorem asrcClockLoss_within (a0) (s : State) : Within [.regs, .core, .pat, .aud] s (asrcClockLoss a0 s) := by
  unfold asrcClockLoss
  repeat' first
    | (with_reducible assumption)
    | (with_reducible exact Within.refl _ _)
    | (show Area.sub _ _ = true; rfl)
    | (with_reducible apply Within.then (h' := asrcUnlock_within ..))
    | (with_reducible apply Within.ite)
    | split

theorem asrcFeed_within (a0 a1 a2 a3) (s : State) : Within [.aud] s (asrcFeed a0 a1 a2 a3 s) := by
  unfold asrcFeed
  repeat' first
    | (with_reducible assumption)
    | (with_reducible exact Within.refl _ _)
    | (show Area.sub _ _ = true; rfl)
    | (extract_lets +onlyGivenNames t; first | (refine Within.cut [.aud] s t (fun h => ?_) ?_; rotate_left; subst t; rotate_right; clear_value t) | clear_value t)
    | (with_reducible apply Within.then (h' := setAsrc_within ..))
    | (with_reducible apply Within.ite)
    | split
    | refine Within.upd (h := ?_)

theorem asrcOut_within (a0 a1) (s : State) : Within [.fresh] s (asrcOut a0 a1 s).2 := by
  unfold asrcOut
  repeat' first
    | (with_reducible assumption)
    | (with_reducible exact Within.refl _ _)
    | (show Area.sub _ _ = true; rfl)
    | (extract_lets +onlyGivenNames t; first | (refine Within.cut [.fresh] s t (fun h => ?_) ?_; rotate_left; subst t; rotate_right; clear_value t) | (refine Within.cut [.fresh] s t.2 (fun h => ?_) ?_; rotate_left; subst t; rotate_right; clear_value t) | clear_value t)
    | (with_reducible apply Within.then (h' := spend_within ..))
    | (with_reducible apply Within.ite)
    | (with_reducible apply Within.iteSnd)
    | split

theorem asrcPush_within (a0 a1 a2) (s : State) : Within [.aud] s (asrcPush a0 a1 a2 s) := (by unfold asrcPush; exact asrcFeed_within ..)

theorem asrcRecentre_within (a0) (s : State) : Within [.regs, .aud] s (asrcRecentre a0 s) := by
  unfold asrcRecentre
  repeat' first
    | (with_reducible assumption)
    | (with_reducible exact Within.refl _ _)
    | (show Area.sub _ _ = true; rfl)
    | (extract_lets +onlyGivenNames t; first | (refine Within.cut [.regs, .aud] s t (fun h => ?_) ?_; rotate_left; subst t; rotate_right; clear_value t) | clear_value t)
    | (with_reducible apply Within.then (h' := fset_within ..))
    | (with_reducible apply Within.then (h' := setAsrc_within ..))
    | (with_reducible apply Within.ite)
    | split
    | refine Within.upd (h := ?_)

theorem groupSlipped_within (a0) (s : State) : Within [.regs, .core, .pat] s (groupSlipped a0 s) := by
  unfold groupSlipped
  repeat' first
    | (with_reducible assumption)
    | (with_reducible exact Within.refl _ _)
    | (show Area.sub _ _ = true; rfl)
    | (extract_lets +onlyGivenNames t; first | (refine Within.cut [.regs, .core, .pat] s t (fun h => ?_) ?_; rotate_left; subst t; rotate_right; clear_value t) | clear_value t)
    | (with_reducible apply Within.then (h' := fset_within ..))
    | (with_reducible apply Within.then (h' := raise_within ..))
    | (with_reducible apply Within.ite)
    | split

theorem asrcWindow_within (a0 a1 a2) (s : State) : Within [.regs, .core, .pat, .aud, .fresh] s (asrcWindow a0 a1 a2 s) := by
  unfold asrcWindow
  repeat' first
    | (with_reducible assumption)
    | (with_reducible exact Within.refl _ _)
    | (show Area.sub _ _ = true; rfl)
    | (extract_lets +onlyGivenNames t; first | (refine Within.cut [.regs, .core, .pat, .aud, .fresh] s t (fun h => ?_) ?_; rotate_left; subst t; rotate_right; clear_value t) | clear_value t)
    | (with_reducible apply Within.then (h' := asrcUnlock_within ..))
    | (with_reducible apply Within.then (h' := fset_within ..))
    | (with_reducible apply Within.then (h' := groupSlipped_within ..))
    | (with_reducible apply Within.then (h' := rsetN_within ..))
    | (with_reducible apply Within.then (h' := setAsrc_within ..))
    | (with_reducible apply Within.then (h' := setAsrcState_within ..))
    | (with_reducible apply Within.then (h' := spend_within ..))
    | (with_reducible apply Within.ite)
    | split
    | refine Within.upd (h := ?_)

theorem sapSlipped_within (a0 a1) (s : State) : Within [.regs, .core, .pat] s (sapSlipped a0 a1 s) := by
  unfold sapSlipped
  repeat' first
    | (with_reducible assumption)
    | (with_reducible exact Within.refl _ _)
    | (show Area.sub _ _ = true; rfl)
    | (extract_lets +onlyGivenNames t; first | (refine Within.cut [.regs, .core, .pat] s t (fun h => ?_) ?_; rotate_left; subst t; rotate_right; clear_value t) | clear_value t)
    | (with_reducible apply Within.then (h' := count_within ..))
    | (with_reducible apply Within.then (h' := cycleBegin_within ..))
    | (with_reducible apply Within.then (h' := cycleEnd_within ..))
    | (with_reducible apply Within.then (h' := fset_within ..))
    | (with_reducible apply Within.then (h' := groupSlipped_within ..))
    | (with_reducible apply Within.then (h' := raise_within ..))

theorem rxRead_within (a0) (s : State) : Within [.regs, .core, .pat, .aud] s (rxRead a0 s) := by
  unfold rxRead
  repeat' first
    | (with_reducible assumption)
    | (with_reducible exact Within.refl _ _)
    | (show Area.sub _ _ = true; rfl)
    | (extract_lets +onlyGivenNames t; first | (refine Within.cut [.regs, .core, .pat, .aud] s t (fun h => ?_) ?_; rotate_left; subst t; rotate_right; clear_value t) | clear_value t)
    | (with_reducible apply Within.then (h' := sapSlipped_within ..))
    | (with_reducible apply Within.then (h' := setSap_within ..))
    | (with_reducible apply Within.ite)
    | split
    | refine Within.upd (h := ?_)

theorem sapRealign_within (a0) (s : State) : Within [.regs, .core, .pat, .aud] s (sapRealign a0 s) := by
  unfold sapRealign
  repeat' first
    | (with_reducible assumption)
    | (with_reducible exact Within.refl _ _)
    | (show Area.sub _ _ = true; rfl)
    | (extract_lets +onlyGivenNames t; first | (refine Within.cut [.regs, .core, .pat, .aud] s t (fun h => ?_) ?_; rotate_left; subst t; rotate_right; clear_value t) | clear_value t)
    | (with_reducible apply Within.then (h' := fset_within ..))
    | (with_reducible apply Within.then (h' := rxRead_within ..))
    | (with_reducible apply Within.then (h' := setSap_within ..))
    | (with_reducible apply Within.ite)
    | split
    | refine Within.upd (h := ?_)

theorem audFrameBoundary_within (s : State) : Within [.regs, .core, .pat, .aud] s (audFrameBoundary s) := by
  unfold audFrameBoundary
  repeat' first
    | intro _
    | (with_reducible assumption)
    | (with_reducible exact Within.refl _ _)
    | (show Area.sub _ _ = true; rfl)
    | (extract_lets +onlyGivenNames t; first | (refine Within.cut [.regs, .core, .pat, .aud] s t (fun h => ?_) ?_; rotate_left; subst t; rotate_right; clear_value t) | clear_value t)
    | (with_reducible apply Within.then (h' := asrcRecentre_within ..))
    | (with_reducible apply Within.then (h' := sapRealign_within ..))
    | (with_reducible apply Within.foldl)

theorem audStart_within (s : State) : Within [.regs, .core] s (audStart s) := by
  unfold audStart
  repeat' first
    | intro _
    | (with_reducible assumption)
    | (with_reducible exact Within.refl _ _)
    | (show Area.sub _ _ = true; rfl)
    | (extract_lets +onlyGivenNames t; first | (refine Within.cut [.regs, .core] s t (fun h => ?_) ?_; rotate_left; subst t; rotate_right; clear_value t) | clear_value t)
    | (with_reducible apply Within.then (h' := grpTrigger_within ..))
    | (with_reducible apply Within.then (h' := setFiltered_within ..))
    | (with_reducible apply Within.ite)
    | (with_reducible apply Within.foldl)
    | split

theorem sapExchange_within (a0) (s : State) : Within [.regs, .core, .pat, .aud] s (sapExchange a0 s) := by
  unfold sapExchange
  repeat' first
    | (with_reducible assumption)
    | (with_reducible exact Within.refl _ _)
    | (show Area.sub _ _ = true; rfl)
    | (extract_lets +onlyGivenNames t; first | (refine Within.cut [.regs, .core, .pat, .aud] s t (fun h => ?_) ?_; rotate_left; subst t; rotate_right; clear_value t) | clear_value t)
    | (with_reducible apply Within.then (h' := rxRead_within ..))
    | (with_reducible apply Within.then (h' := setSap_within ..))
    | (with_reducible apply Within.ite)
    | split
    | refine Within.upd (h := ?_)

theorem txPlaceFrame_within (a0 a1) (s : State) : Within [.regs, .core, .pat, .aud] s (txPlaceFrame a0 a1 s) := by
  unfold txPlaceFrame
  repeat' first
    | (with_reducible assumption)
    | (with_reducible exact Within.refl _ _)
    | (show Area.sub _ _ = true; rfl)
    | (extract_lets +onlyGivenNames t; first | (refine Within.cut [.regs, .core, .pat, .aud] s t (fun h => ?_) ?_; rotate_left; subst t; rotate_right; clear_value t) | clear_value t)
    | (with_reducible apply Within.then (h' := sapSlipped_within ..))
    | (with_reducible apply Within.then (h' := setSap_within ..))
    | (with_reducible apply Within.ite)
    | split
    | refine Within.upd (h := ?_)

theorem sapPlace_within (a0 a1) (s : State) : Within [.regs, .core, .pat, .aud] s (sapPlace a0 a1 s) := by
  unfold sapPlace
  repeat' first
    | (with_reducible assumption)
    | (with_reducible exact Within.refl _ _)
    | (show Area.sub _ _ = true; rfl)
    | (with_reducible apply Within.then (h' := txPlaceFrame_within ..))
    | (with_reducible apply Within.ite)
    | split

theorem setDeemb_within (a0 a1) (s : State) : Within [.aud] s (setDeemb a0 a1 s) := by
  unfold setDeemb
  repeat' first
    | (with_reducible assumption)
    | (with_reducible exact Within.refl _ _)
    | (show Area.sub _ _ = true; rfl)
    | (extract_lets +onlyGivenNames t; first | (refine Within.cut [.aud] s t (fun h => ?_) ?_; rotate_left; subst t; rotate_right; clear_value t) | clear_value t)
    | refine Within.upd (h := ?_)

theorem deembRead_within (a0) (s : State) : Within [.regs, .core, .pat, .aud] s (deembRead a0 s) := by
  unfold deembRead
  repeat' first
    | (with_reducible assumption)
    | (with_reducible exact Within.refl _ _)
    | (show Area.sub _ _ = true; rfl)
    | (extract_lets +onlyGivenNames t; first | (refine Within.cut [.regs, .core, .pat, .aud] s t (fun h => ?_) ?_; rotate_left; subst t; rotate_right; clear_value t) | clear_value t)
    | (with_reducible apply Within.then (h' := count_within ..))
    | (with_reducible apply Within.then (h' := raise_within ..))
    | (with_reducible apply Within.then (h' := setDeemb_within ..))
    | (with_reducible apply Within.ite)
    | split
    | refine Within.upd (h := ?_)

theorem naSet_within (a0 a1 a2) (s : State) : Within [.regs] s (naSet a0 a1 a2 s) := by
  unfold naSet
  repeat' first
    | (with_reducible assumption)
    | (with_reducible exact Within.refl _ _)
    | (show Area.sub _ _ = true; rfl)
    | (with_reducible apply Within.then (h' := fset_within ..))
    | (with_reducible apply Within.then (h' := refreshNa_within ..))

theorem naBlock_within (a0) (s : State) : Within [.regs, .aud] s (naBlock a0 s) := by
  unfold naBlock
  repeat' first
    | (with_reducible assumption)
    | (with_reducible exact Within.refl _ _)
    | (show Area.sub _ _ = true; rfl)
    | (extract_lets +onlyGivenNames t; first | (refine Within.cut [.regs, .aud] s t (fun h => ?_) ?_; rotate_left; subst t; rotate_right; clear_value t) | clear_value t)
    | (with_reducible apply Within.then (h' := naSet_within ..))
    | (with_reducible apply Within.then (h' := setNa_within ..))
    | (with_reducible apply Within.ite)
    | split
    | refine Within.upd (h := ?_)

theorem naFound_within (a0 a1 a2) (s : State) : Within [.regs, .aud] s (naFound a0 a1 a2 s) := by
  unfold naFound
  repeat' first
    | (with_reducible assumption)
    | (with_reducible exact Within.refl _ _)
    | (show Area.sub _ _ = true; rfl)
    | (extract_lets +onlyGivenNames t; first | (refine Within.cut [.regs, .aud] s t (fun h => ?_) ?_; rotate_left; subst t; rotate_right; clear_value t) | clear_value t)
    | (with_reducible apply Within.then (h' := fset_within ..))
    | (with_reducible apply Within.then (h' := naSet_within ..))
    | (with_reducible apply Within.then (h' := setNa_within ..))
    | refine Within.upd (h := ?_)

theorem naScanOne_within (a0) (s : State) : Within [.regs, .aud] s (naScanOne a0 s) := by
  unfold naScanOne
  repeat' first
    | (with_reducible assumption)
    | (with_reducible exact Within.refl _ _)
    | (show Area.sub _ _ = true; rfl)
    | (extract_lets +onlyGivenNames t; first | (refine Within.cut [.regs, .aud] s t (fun h => ?_) ?_; rotate_left; subst t; rotate_right; clear_value t) | clear_value t)
    | (with_reducible apply Within.then (h' := naFound_within ..))
    | (with_reducible apply Within.ite)
    | split

theorem naScanPair_within (a0) (s : State) : Within [.regs, .aud] s (naScanPair a0 s) := by
  unfold naScanPair
  repeat' first
    | (with_reducible assumption)
    | (with_reducible exact Within.refl _ _)
    | (show Area.sub _ _ = true; rfl)
    | (extract_lets +onlyGivenNames t; first | (refine Within.cut [.regs, .aud] s t (fun h => ?_) ?_; rotate_left; subst t; rotate_right; clear_value t) | clear_value t)
    | (with_reducible apply Within.then (h' := naFound_within ..))
    | (with_reducible apply Within.ite)
    | split

theorem naScan_within (a0) (s : State) : Within [.regs, .aud] s (naScan a0 s) := by
  unfold naScan
  repeat' first
    | (with_reducible assumption)
    | (with_reducible exact Within.refl _ _)
    | (show Area.sub _ _ = true; rfl)
    | (with_reducible apply Within.then (h' := naScanOne_within ..))
    | (with_reducible apply Within.then (h' := naScanPair_within ..))

theorem naTimeout_within (a0) (s : State) : Within [.regs] s (naTimeout a0 s) := by
  unfold naTimeout
  repeat' first
    | (with_reducible assumption)
    | (with_reducible exact Within.refl _ _)
    | (show Area.sub _ _ = true; rfl)
    | (with_reducible apply Within.then (h' := naSet_within ..))
    | (with_reducible apply Within.ite)
    | split

theorem naPush_within (a0 a1) (s : State) : Within [.regs, .aud] s (naPush a0 a1 s).2 := by
  unfold naPush
  repeat' first
    | (with_reducible assumption)
    | (with_reducible exact Within.refl _ _)
    | (show Area.sub _ _ = true; rfl)
    | (extract_lets +onlyGivenNames t; first | (refine Within.cut [.regs, .aud] s t (fun h => ?_) ?_; rotate_left; subst t; rotate_right; clear_value t) | (refine Within.cut [.regs, .aud] s t.2 (fun h => ?_) ?_; rotate_left; subst t; rotate_right; clear_value t) | clear_value t)
    | (with_reducible apply Within.then (h' := naBlock_within ..))
    | (with_reducible apply Within.then (h' := naScan_within ..))
    | (with_reducible apply Within.then (h' := naScanOne_within ..))
    | (with_reducible apply Within.then (h' := naSet_within ..))
    | (with_reducible apply Within.then (h' := naTimeout_within ..))
    | (with_reducible apply Within.then (h' := setNa_within ..))
    | (with_reducible apply Within.ite)
    | (with_reducible apply Within.iteSnd)
    | split
    | refine Within.upd (h := ?_)

theorem deembClose_within (a0) (s : State) : Within [.regs, .core, .pat, .aud] s (deembClose a0 s) := by
  unfold deembClose
  repeat' first
    | (with_reducible assumption)
    | (with_reducible exact Within.refl _ _)
    | (show Area.sub _ _ = true; rfl)
    | (extract_lets +onlyGivenNames t; first | (refine Within.cut [.regs, .core, .pat, .aud] s t (fun h => ?_) ?_; rotate_left; subst t; rotate_right; clear_value t) | clear_value t)
    | (with_reducible apply Within.then (h' := count_within ..))
    | (with_reducible apply Within.then (h' := raise_within ..))
    | (with_reducible apply Within.then (h' := setDeemb_within ..))
    | (with_reducible apply Within.ite)
    | split
    | refine Within.upd (h := ?_)

theorem deembPacket_within (a0 a1 a2 a3 a4 a5 a6) (s : State) : Within [.regs, .core, .pat, .aud] s (deembPacket a0 a1 a2 a3 a4 a5 a6 s) := by
  unfold deembPacket
  repeat' first
    | (with_reducible assumption)
    | (with_reducible exact Within.refl _ _)
    | (show Area.sub _ _ = true; rfl)
    | (extract_lets +onlyGivenNames t; first | (refine Within.cut [.regs, .core, .pat, .aud] s t (fun h => ?_) ?_; rotate_left; subst t; rotate_right; clear_value t) | clear_value t)
    | (with_reducible apply Within.then (h' := count_within ..))
    | (with_reducible apply Within.then (h' := deembClose_within ..))
    | (with_reducible apply Within.then (h' := raise_within ..))
    | (with_reducible apply Within.then (h' := rxStat_within ..))
    | (with_reducible apply Within.then (h' := setDeemb_within ..))
    | (with_reducible apply Within.ite)
    | split
    | refine Within.upd (h := ?_)

theorem grpAtReached_within (a0) (s : State) : Within [.regs, .core, .time] s (grpAtReached a0 s) := by
  unfold grpAtReached
  repeat' first
    | (with_reducible assumption)
    | (with_reducible exact Within.refl _ _)
    | (show Area.sub _ _ = true; rfl)
    | (with_reducible apply Within.then (h' := advanceTo_within ..))
    | (with_reducible apply Within.then (h' := grpTrigger_within ..))
    | (with_reducible apply Within.ite)
    | split

theorem grpHostWrite_within (a0 a1 a2) (s : State) : Within [.regs, .core, .pat, .fab, .aud, .pair] s (grpHostWrite a0 a1 a2 s) := by
  unfold grpHostWrite
  repeat' first
    | intro _
    | (with_reducible assumption)
    | (with_reducible exact Within.refl _ _)
    | (show Area.sub _ _ = true; rfl)
    | (with_reducible refine hostWrite_within ?_ ?_ (fun t => ?_))
    | (with_reducible apply Within.then (h' := sapWrite_within ..))
    | (with_reducible apply Within.foldl)

theorem rxArrive_within (a0 a1) (s : State) : Within [.regs, .core, .pat, .aud] s (rxArrive a0 a1 s) := by
  unfold rxArrive
  repeat' first
    | (with_reducible assumption)
    | (with_reducible exact Within.refl _ _)
    | (show Area.sub _ _ = true; rfl)
    | (extract_lets +onlyGivenNames t; first | (refine Within.cut [.regs, .core, .pat, .aud] s t (fun h => ?_) ?_; rotate_left; subst t; rotate_right; clear_value t) | clear_value t)
    | (with_reducible apply Within.then (h' := sapSlipped_within ..))
    | (with_reducible apply Within.then (h' := setSap_within ..))
    | (with_reducible apply Within.ite)
    | split
    | refine Within.upd (h := ?_)

theorem sapClockLost_within (a0) (s : State) : Within [.regs, .core, .pat, .aud] s (sapClockLost a0 s) := by
  unfold sapClockLost
  repeat' first
    | intro _
    | (with_reducible assumption)
    | (with_reducible exact Within.refl _ _)
    | (show Area.sub _ _ = true; rfl)
    | (extract_lets +onlyGivenNames t; first | (refine Within.cut [.regs, .core, .pat, .aud] s t (fun h => ?_) ?_; rotate_left; subst t; rotate_right; clear_value t) | clear_value t)
    | (with_reducible apply Within.then (h' := count_within ..))
    | (with_reducible apply Within.then (h' := raise_within ..))
    | (with_reducible apply Within.then (h' := sapStop_within ..))
    | (with_reducible apply Within.then (h' := setSap_within ..))
    | (with_reducible apply Within.then (h' := setSapState_within ..))
    | (with_reducible apply Within.ite)
    | (with_reducible apply Within.foldl)
    | split
    | refine Within.upd (h := ?_)

theorem txTake_within (a0) (s : State) : Within [.regs, .core, .pat, .aud] s (txTake a0 s) := by
  unfold txTake
  repeat' first
    | (with_reducible assumption)
    | (with_reducible exact Within.refl _ _)
    | (show Area.sub _ _ = true; rfl)
    | (extract_lets +onlyGivenNames t; first | (refine Within.cut [.regs, .core, .pat, .aud] s t (fun h => ?_) ?_; rotate_left; subst t; rotate_right; clear_value t) | clear_value t)
    | (with_reducible apply Within.then (h' := sapSlipped_within ..))
    | (with_reducible apply Within.then (h' := setSap_within ..))
    | (with_reducible apply Within.ite)
    | split
    | refine Within.upd (h := ?_)

theorem sapFrameBegin_within (a0) (s : State) : Within [.regs, .core, .pat, .aud, .fresh] s (sapFrameBegin a0 s) := by
  unfold sapFrameBegin
  repeat' first
    | intro _
    | (with_reducible assumption)
    | (with_reducible exact Within.refl _ _)
    | (show Area.sub _ _ = true; rfl)
    | (extract_lets +onlyGivenNames t; first | (refine Within.cut [.regs, .core, .pat, .aud, .fresh] s t (fun h => ?_) ?_; rotate_left; subst t; rotate_right; clear_value t) | (refine Within.cut [.regs, .core, .pat, .aud, .fresh] s t.2 (fun h => ?_) ?_; rotate_left; subst t; rotate_right; clear_value t) | clear_value t)
    | (with_reducible apply Within.then (h' := asrcOut_within ..))
    | (with_reducible apply Within.then (h' := setSap_within ..))
    | (with_reducible apply Within.then (h' := txTake_within ..))
    | (with_reducible apply Within.ite)
    | (with_reducible apply Within.iteSnd)
    | (with_reducible apply Within.foldl)
    | (with_reducible apply Within.foldlSnd)
    | split
    | refine Within.upd (h := ?_)

theorem sapFrameEnd_within (a0 a1 a2 a3) (s : State) : Within [.regs, .core, .pat, .aud] s (sapFrameEnd a0 a1 a2 a3 s) := by
  unfold sapFrameEnd
  repeat' first
    | intro _
    | (with_reducible assumption)
    | (with_reducible exact Within.refl _ _)
    | (show Area.sub _ _ = true; rfl)
    | (extract_lets +onlyGivenNames t; first | (refine Within.cut [.regs, .core, .pat, .aud] s t (fun h => ?_) ?_; rotate_left; subst t; rotate_right; clear_value t) | (refine Within.cut [.regs, .core, .pat, .aud] s t.2 (fun h => ?_) ?_; rotate_left; subst t; rotate_right; clear_value t) | clear_value t)
    | (with_reducible apply Within.then (h' := asrcPush_within ..))
    | (with_reducible apply Within.then (h' := emit_within ..))
    | (with_reducible apply Within.then (h' := naPush_within ..))
    | (with_reducible apply Within.then (h' := rxArrive_within ..))
    | (with_reducible apply Within.ite)
    | (with_reducible apply Within.iteSnd)
    | (with_reducible apply Within.foldl)
    | (with_reducible apply Within.foldlSnd)
    | split

theorem sapMasks_within (a0) (s : State) : Within [.regs, .aud] s (sapMasks a0 s) := by
  unfold sapMasks
  repeat' first
    | (with_reducible assumption)
    | (with_reducible exact Within.refl _ _)
    | (show Area.sub _ _ = true; rfl)
    | (extract_lets +onlyGivenNames t; first | (refine Within.cut [.regs, .aud] s t (fun h => ?_) ?_; rotate_left; subst t; rotate_right; clear_value t) | clear_value t)
    | (with_reducible apply Within.then (h' := rsetN_within ..))
    | (with_reducible apply Within.then (h' := setSap_within ..))
    | split
    | refine Within.upd (h := ?_)

theorem sapIdle_within (a0) (s : State) : Within [.regs, .aud] s (sapIdle a0 s) := by
  unfold sapIdle
  repeat' first
    | (with_reducible assumption)
    | (with_reducible exact Within.refl _ _)
    | (show Area.sub _ _ = true; rfl)
    | (extract_lets +onlyGivenNames t; first | (refine Within.cut [.regs, .aud] s t (fun h => ?_) ?_; rotate_left; subst t; rotate_right; clear_value t) | clear_value t)
    | (with_reducible apply Within.then (h' := sapStop_within ..))
    | (with_reducible apply Within.then (h' := setSap_within ..))
    | (with_reducible apply Within.ite)
    | split
    | refine Within.upd (h := ?_)

theorem sapRun_within (a0) (s : State) : Within [.regs, .aud] s (sapRun a0 s) := by
  unfold sapRun
  repeat' first
    | (with_reducible assumption)
    | (with_reducible exact Within.refl _ _)
    | (show Area.sub _ _ = true; rfl)
    | (extract_lets +onlyGivenNames t; first | (refine Within.cut [.regs, .aud] s t (fun h => ?_) ?_; rotate_left; subst t; rotate_right; clear_value t) | clear_value t)
    | (with_reducible apply Within.then (h' := fset_within ..))
    | (with_reducible apply Within.then (h' := rset64_within ..))
    | (with_reducible apply Within.then (h' := setSap_within ..))
    | (with_reducible apply Within.then (h' := setSapState_within ..))
    | refine Within.upd (h := ?_)

theorem sapNext_within (a0 a1) (s : State) : Within [.regs, .aud] s (sapNext a0 a1 s) := by
  unfold sapNext
  repeat' first
    | (with_reducible assumption)
    | (with_reducible exact Within.refl _ _)
    | (show Area.sub _ _ = true; rfl)
    | (extract_lets +onlyGivenNames t; first | (refine Within.cut [.regs, .aud] s t (fun h => ?_) ?_; rotate_left; subst t; rotate_right; clear_value t) | clear_value t)
    | (with_reducible apply Within.then (h' := fset_within ..))
    | (with_reducible apply Within.then (h' := sapIdle_within ..))
    | (with_reducible apply Within.then (h' := sapRun_within ..))
    | (with_reducible apply Within.then (h' := sapStop_within ..))
    | (with_reducible apply Within.then (h' := setSap_within ..))
    | (with_reducible apply Within.then (h' := setSapState_within ..))
    | (with_reducible apply Within.ite)
    | split
    | refine Within.upd (h := ?_)

theorem sapFs_within (a0 a1 a2) (s : State) : Within [.regs, .core, .pat, .aud, .fresh] s (sapFs a0 a1 a2 s) := by
  unfold sapFs
  repeat' first
    | (with_reducible assumption)
    | (with_reducible exact Within.refl _ _)
    | (show Area.sub _ _ = true; rfl)
    | (extract_lets +onlyGivenNames t; first | (refine Within.cut [.regs, .core, .pat, .aud, .fresh] s t (fun h => ?_) ?_; rotate_left; subst t; rotate_right; clear_value t) | clear_value t)
    | (with_reducible apply Within.then (h' := count_within ..))
    | (with_reducible apply Within.then (h' := fset_within ..))
    | (with_reducible apply Within.then (h' := raise_within ..))
    | (with_reducible apply Within.then (h' := sapFrameBegin_within ..))
    | (with_reducible apply Within.then (h' := sapFrameEnd_within ..))
    | (with_reducible apply Within.then (h' := sapMasks_within ..))
    | (with_reducible apply Within.then (h' := sapNext_within ..))
    | (with_reducible apply Within.then (h' := setSap_within ..))
    | (with_reducible apply Within.ite)
    | split
    | refine Within.upd (h := ?_)

theorem sapZero_within (a0 a1) (s : State) : Within [] s (sapZero a0 a1 s) := by
  unfold sapZero
  repeat' first
    | (with_reducible assumption)
    | (with_reducible exact Within.refl _ _)
    | (show Area.sub _ _ = true; rfl)
    | (with_reducible apply Within.then (h' := emit_within ..))
    | (with_reducible apply Within.ite)
    | split

theorem sapFsEdge_within (a0 a1 a2) (s : State) : Within [.regs, .core, .pat, .aud, .fresh] s (sapFsEdge a0 a1 a2 s) := by
  unfold sapFsEdge
  repeat' first
    | intro _
    | (with_reducible assumption)
    | (with_reducible exact Within.refl _ _)
    | (show Area.sub _ _ = true; rfl)
    | (with_reducible apply Within.then (h' := sapFs_within ..))
    | (with_reducible apply Within.then (h' := sapZero_within ..))
    | (with_reducible apply Within.ite)
    | (with_reducible apply Within.foldl)
    | split

end Sys2Proof.Machine
end

