-- ==== Sys2Proof/Laws/WithinAudioFamily.lean ====
section
/-! SUPPORT. What each operation of Machine/AudioFamily.lean may change: one frame per operation. -/

namespace Sys2Proof.Machine

set_option Elab.async false
set_option linter.all false
set_option linter.tactic.unusedName false

theorem audFlag_within (a0) (s : State) : Within [.regs] s (audFlag a0 s) := (by unfold audFlag; exact fset_within ..)

theorem audPiWrite_within (a0 a1) (s : State) : Within [.regs, .core, .pat, .aud] s (audPiWrite a0 a1 s) := by
  unfold audPiWrite
  repeat' first
    | (with_reducible assumption)
    | (with_reducible exact Within.refl _ _)
    | (show Area.sub _ _ = true; rfl)
    | (extract_lets +onlyGivenNames t; first | (refine Within.cut [.regs, .core, .pat, .aud] s t (fun h => ?_) ?_; rotate_left; subst t; rotate_right; clear_value t) | clear_value t)
    | (with_reducible apply Within.then (h' := audFlag_within ..))
    | (with_reducible apply Within.then (h' := fset_within ..))
    | (with_reducible apply Within.then (h' := raise_within ..))
    | (with_reducible apply Within.ite)
    | split
    | refine Within.upd (h := ?_)

theorem audRingWrite_within (a0 a1 a2) (s : State) : Within [.regs] s (audRingWrite a0 a1 a2 s) := by
  unfold audRingWrite
  repeat' first
    | (with_reducible assumption)
    | (with_reducible exact Within.refl _ _)
    | (show Area.sub _ _ = true; rfl)
    | (with_reducible apply Within.then (h' := audFlag_within ..))
    | (with_reducible apply Within.then (h' := rset_within ..))
    | (with_reducible apply Within.ite)
    | split

theorem audPutRefused_within (a0 a1 a2) (s : State) : Within [.aud] s (audPutRefused a0 a1 a2 s) := by
  unfold audPutRefused
  repeat' first
    | (with_reducible assumption)
    | (with_reducible exact Within.refl _ _)
    | (show Area.sub _ _ = true; rfl)
    | (extract_lets +onlyGivenNames t; first | (refine Within.cut [.aud] s t (fun h => ?_) ?_; rotate_left; subst t; rotate_right; clear_value t) | clear_value t)
    | refine Within.upd (h := ?_)

theorem audAbsorb_within (s : State) : Within [.aud] s (audAbsorb s) := by
  unfold audAbsorb
  repeat' first
    | intro _
    | (with_reducible assumption)
    | (with_reducible exact Within.refl _ _)
    | (show Area.sub _ _ = true; rfl)
    | (extract_lets +onlyGivenNames t; first | (refine Within.cut [.aud] s t (fun h => ?_) ?_; rotate_left; subst t; rotate_right; clear_value t) | clear_value t)
    | (with_reducible apply Within.then (h' := audPutRefused_within ..))
    | (with_reducible apply Within.ite)
    | (with_reducible apply Within.foldl)
    | split
    | refine Within.upd (h := ?_)

theorem audFree_within (s : State) : Within [.regs, .aud] s (audFree s) := by
  unfold audFree
  repeat' first
    | (with_reducible assumption)
    | (with_reducible exact Within.refl _ _)
    | (show Area.sub _ _ = true; rfl)
    | (extract_lets +onlyGivenNames t; first | (refine Within.cut [.regs, .aud] s t (fun h => ?_) ?_; rotate_left; subst t; rotate_right; clear_value t) | clear_value t)
    | (with_reducible apply Within.then (h' := fset_within ..))
    | split
    | refine Within.upd (h := ?_)

theorem audReport_within (a0 a1 a2 a3) (s : State) : Within [.regs, .core, .pat] s (audReport a0 a1 a2 a3 s) := by
  unfold audReport
  repeat' first
    | (with_reducible assumption)
    | (with_reducible exact Within.refl _ _)
    | (show Area.sub _ _ = true; rfl)
    | (extract_lets +onlyGivenNames t; first | (refine Within.cut [.regs, .core, .pat] s t (fun h => ?_) ?_; rotate_left; subst t; rotate_right; clear_value t) | clear_value t)
    | (with_reducible apply Within.then (h' := audFlag_within ..))
    | (with_reducible apply Within.then (h' := count_within ..))
    | (with_reducible apply Within.then (h' := fset_within ..))
    | (with_reducible apply Within.then (h' := raise_within ..))

theorem audAbandon_within (s : State) : Within [.regs, .core, .pat, .aud] s (audAbandon s) := by
  unfold audAbandon
  repeat' first
    | (with_reducible assumption)
    | (with_reducible exact Within.refl _ _)
    | (show Area.sub _ _ = true; rfl)
    | (extract_lets +onlyGivenNames t; first | (refine Within.cut [.regs, .core, .pat, .aud] s t (fun h => ?_) ?_; rotate_left; subst t; rotate_right; clear_value t) | clear_value t)
    | (with_reducible apply Within.then (h' := audAbsorb_within ..))
    | (with_reducible apply Within.then (h' := audFree_within ..))
    | (with_reducible apply Within.then (h' := audReport_within ..))
    | (with_reducible apply Within.ite)
    | split
    | refine Within.upd (h := ?_)

theorem audTakeCtrlWrite_within (a0 a1) (s : State) : Within [.regs, .core, .pat, .aud] s (audTakeCtrlWrite a0 a1 s) := by
  unfold audTakeCtrlWrite
  repeat' first
    | (with_reducible assumption)
    | (with_reducible exact Within.refl _ _)
    | (show Area.sub _ _ = true; rfl)
    | (extract_lets +onlyGivenNames t; first | (refine Within.cut [.regs, .core, .pat, .aud] s t (fun h => ?_) ?_; rotate_left; subst t; rotate_right; clear_value t) | clear_value t)
    | (with_reducible apply Within.then (h' := audAbandon_within ..))
    | (with_reducible apply Within.then (h' := audFlag_within ..))
    | (with_reducible apply Within.then (h' := plainWrite_within ..))
    | (with_reducible apply Within.ite)
    | split

theorem setMeter_within (a0 a1) (s : State) : Within [.aud] s (setMeter a0 a1 s) := by
  unfold setMeter
  repeat' first
    | (with_reducible assumption)
    | (with_reducible exact Within.refl _ _)
    | (show Area.sub _ _ = true; rfl)
    | (extract_lets +onlyGivenNames t; first | (refine Within.cut [.aud] s t (fun h => ?_) ?_; rotate_left; subst t; rotate_right; clear_value t) | clear_value t)
    | refine Within.upd (h := ?_)

theorem meterWrite_within (a0 a1) (s : State) : Within [.regs, .aud] s (meterWrite a0 a1 s) := by
  unfold meterWrite
  repeat' first
    | (with_reducible assumption)
    | (with_reducible exact Within.refl _ _)
    | (show Area.sub _ _ = true; rfl)
    | (extract_lets +onlyGivenNames t; first | (refine Within.cut [.regs, .aud] s t (fun h => ?_) ?_; rotate_left; subst t; rotate_right; clear_value t) | clear_value t)
    | (with_reducible apply Within.then (h' := fset_within ..))
    | (with_reducible apply Within.then (h' := plainWrite_within ..))
    | (with_reducible apply Within.then (h' := rsetN_within ..))
    | (with_reducible apply Within.then (h' := setMeter_within ..))
    | (with_reducible apply Within.ite)
    | split
    | refine Within.upd (h := ?_)

theorem mixWrite_within (a0 a1 a2) (s : State) : Within [.regs, .core, .pat] s (mixWrite a0 a1 a2 s) := by
  unfold mixWrite
  repeat' first
    | (with_reducible assumption)
    | (with_reducible exact Within.refl _ _)
    | (show Area.sub _ _ = true; rfl)
    | (extract_lets +onlyGivenNames t; first | (refine Within.cut [.regs, .core, .pat] s t (fun h => ?_) ?_; rotate_left; subst t; rotate_right; clear_value t) | clear_value t)
    | (with_reducible apply Within.then (h' := markDirty_within ..))
    | (with_reducible apply Within.then (h' := refuse_within ..))
    | (with_reducible apply Within.then (h' := rset_within ..))
    | (with_reducible apply Within.ite)
    | split

theorem toneWrite_within (a0 a1) (s : State) : Within [.regs, .aud] s (toneWrite a0 a1 s) := by
  unfold toneWrite
  repeat' first
    | (with_reducible assumption)
    | (with_reducible exact Within.refl _ _)
    | (show Area.sub _ _ = true; rfl)
    | (extract_lets +onlyGivenNames t; first | (refine Within.cut [.regs, .aud] s t (fun h => ?_) ?_; rotate_left; subst t; rotate_right; clear_value t) | clear_value t)
    | (with_reducible apply Within.then (h' := plainWrite_within ..))
    | (with_reducible apply Within.ite)
    | split
    | refine Within.upd (h := ?_)

theorem audWrite_within (a0 a1 a2) (s : State) : Within [.regs, .core, .pat, .aud] s (audWrite a0 a1 a2 s) := by
  unfold audWrite
  repeat' first
    | (with_reducible assumption)
    | (with_reducible exact Within.refl _ _)
    | (show Area.sub _ _ = true; rfl)
    | (extract_lets +onlyGivenNames t; first | (refine Within.cut [.regs, .core, .pat, .aud] s t (fun h => ?_) ?_; rotate_left; subst t; rotate_right; clear_value t) | clear_value t)
    | (with_reducible apply Within.then (h' := audPiWrite_within ..))
    | (with_reducible apply Within.then (h' := audRingWrite_within ..))
    | (with_reducible apply Within.then (h' := audTakeCtrlWrite_within ..))
    | (with_reducible apply Within.then (h' := meterWrite_within ..))
    | (with_reducible apply Within.then (h' := mixWrite_within ..))
    | (with_reducible apply Within.then (h' := plainWrite_within ..))
    | (with_reducible apply Within.then (h' := refuse_within ..))
    | (with_reducible apply Within.then (h' := toneWrite_within ..))
    | (with_reducible apply Within.ite)
    | split

theorem audRefuse_within (a0 a1 a2 a3 a4) (s : State) : Within [.regs, .core, .pat, .aud] s (audRefuse a0 a1 a2 a3 a4 s) := by
  unfold audRefuse
  repeat' first
    | (with_reducible assumption)
    | (with_reducible exact Within.refl _ _)
    | (show Area.sub _ _ = true; rfl)
    | (with_reducible apply Within.then (h' := audPutRefused_within ..))
    | (with_reducible apply Within.then (h' := audReport_within ..))

theorem audRefuseRest_within (k : Nat) (s : State) : Within [.regs, .core, .pat, .aud] s (audRefuseRest k s) := by
  induction k generalizing s with
  | zero => exact Within.refl _ _
  | succ k ih =>
    unfold audRefuseRest
    simp only []
    split
    · exact (audAbandon_within ..).mono rfl
    · refine Within.then ?_ (ih _) rfl
      refine Within.then ?_ (audAbsorb_within ..) rfl
      refine Within.then ?_ (audRefuse_within ..) rfl
      exact Within.upd (h := Within.refl _ _)

theorem audRefuseHeld_within (a0) (s : State) : Within [.regs, .core, .pat, .aud] s (audRefuseHeld a0 s) := by
  unfold audRefuseHeld
  repeat' first
    | intro _
    | (with_reducible assumption)
    | (with_reducible exact Within.refl _ _)
    | (show Area.sub _ _ = true; rfl)
    | (extract_lets +onlyGivenNames t; first | (refine Within.cut [.regs, .core, .pat, .aud] s t (fun h => ?_) ?_; rotate_left; subst t; rotate_right; clear_value t) | clear_value t)
    | (with_reducible apply Within.then (h' := audFree_within ..))
    | (with_reducible apply Within.then (h' := audRefuseRest_within ..))
    | (with_reducible apply Within.then (h' := audReport_within ..))
    | (with_reducible apply Within.ite)
    | (with_reducible apply Within.foldl)
    | split
    | refine Within.upd (h := ?_)

theorem audRefuseUnforwarded_within (s : State) : Within [.regs, .core, .pat, .aud] s (audRefuseUnforwarded s) := (by unfold audRefuseUnforwarded; exact audRefuseHeld_within ..)

theorem audCommitted_within (a0 a1 a2 a3 a4) (s : State) : Within [.regs, .aud, .pair] s (audCommitted a0 a1 a2 a3 a4 s) := by
  unfold audCommitted
  repeat' first
    | (with_reducible assumption)
    | (with_reducible exact Within.refl _ _)
    | (show Area.sub _ _ = true; rfl)
    | (extract_lets +onlyGivenNames t; first | (refine Within.cut [.regs, .aud, .pair] s t (fun h => ?_) ?_; rotate_left; subst t; rotate_right; clear_value t) | (have _h := fun x => (t x : State)) | (have _h := fun x y => (t x y : State)) | (have _h := fun x y z => (t x y z : State)) | clear_value t)
    | (with_reducible apply Within.then (h' := audFree_within ..))
    | (with_reducible apply Within.then (h' := mirrorSend_within ..))
    | (with_reducible apply Within.ite)
    | split
    | refine Within.upd (h := ?_)

theorem setAudRoute_within (a0 a1) (s : State) : Within [.regs] s (setAudRoute a0 a1 s) := by
  unfold setAudRoute
  repeat' first
    | (with_reducible assumption)
    | (with_reducible exact Within.refl _ _)
    | (show Area.sub _ _ = true; rfl)
    | (extract_lets +onlyGivenNames t; first | (refine Within.cut [.regs] s t (fun h => ?_) ?_; rotate_left; subst t; rotate_right; clear_value t) | clear_value t)
    | (with_reducible apply Within.then (h' := fset_within ..))

theorem setDestA_within (a0 a1) (s : State) : Within [.aud] s (setDestA a0 a1 s) := by
  unfold setDestA
  repeat' first
    | (with_reducible assumption)
    | (with_reducible exact Within.refl _ _)
    | (show Area.sub _ _ = true; rfl)
    | (extract_lets +onlyGivenNames t; first | (refine Within.cut [.aud] s t (fun h => ?_) ?_; rotate_left; subst t; rotate_right; clear_value t) | clear_value t)
    | refine Within.upd (h := ?_)

theorem audTake_within (a0 a1) (s : State) : Within [.regs, .pat, .aud] s (audTake a0 a1 s) := by
  unfold audTake
  repeat' first
    | (with_reducible assumption)
    | (with_reducible exact Within.refl _ _)
    | (show Area.sub _ _ = true; rfl)
    | (extract_lets +onlyGivenNames t; first | (refine Within.cut [.regs, .pat, .aud] s t (fun h => ?_) ?_; rotate_left; subst t; rotate_right; clear_value t) | clear_value t)
    | (with_reducible apply Within.then (h' := fset_within ..))
    | (with_reducible apply Within.then (h' := markDirty_within ..))
    | (with_reducible apply Within.then (h' := setAudRoute_within ..))
    | (with_reducible apply Within.then (h' := setDestA_within ..))
    | (with_reducible apply Within.ite)
    | split
    | refine Within.upd (h := ?_)

theorem audExecute_within (n : Nat) (vs : List AudSalvo) (s : State) : Within [.regs, .pat, .aud] s (audExecute n vs s).2 := by
  induction vs generalizing s with
  | nil => exact Within.refl _ _
  | cons v r ih =>
    unfold audExecute
    simp only []
    split
    · exact ih s
    · split
      · exact ih s
      · split
        · exact Within.refl _ _
        · refine Within.then ?_ (ih _) rfl
          refine Within.foldl ?_ (fun t x h => h.then (audTake_within ..) rfl)
          refine Within.ite ?_ ?_
          · exact (count_within _ _).mono (w := [.regs, .pat, .aud]) rfl
          · exact Within.refl _ _

theorem audSalvoCommit_within (s : State) : Within [.regs, .core, .pat, .aud, .pair] s (audSalvoCommit s) := by
  unfold audSalvoCommit
  repeat' first
    | (with_reducible assumption)
    | (with_reducible exact Within.refl _ _)
    | (show Area.sub _ _ = true; rfl)
    | (extract_lets +onlyGivenNames t; first | (refine Within.cut [.regs, .core, .pat, .aud, .pair] s t (fun h => ?_) ?_; rotate_left; subst t; rotate_right; clear_value t) | clear_value t)
    | (with_reducible apply Within.then (h' := audAbsorb_within ..))
    | (with_reducible apply Within.then (h' := audCommitted_within ..))
    | (with_reducible apply Within.then (h' := audFree_within ..))
    | (with_reducible apply Within.then (h' := audRefuse_within ..))
    | (with_reducible apply Within.ite)
    | split
    | refine Within.upd (h := ?_)

theorem audTakes_within (a0) (s : State) : Within [.regs, .pat, .aud] s (audTakes a0 s) := by
  unfold audTakes
  repeat' first
    | (with_reducible assumption)
    | (with_reducible exact Within.refl _ _)
    | (show Area.sub _ _ = true; rfl)
    | (extract_lets +onlyGivenNames t; first | (refine Within.cut [.regs, .pat, .aud] s t (fun h => ?_) ?_; rotate_left; subst t; rotate_right; clear_value t) | (refine Within.cut [.regs, .pat, .aud] s t.2 (fun h => ?_) ?_; rotate_left; subst t; rotate_right; clear_value t) | clear_value t)
    | (with_reducible apply Within.then (h' := audExecute_within ..))
    | (with_reducible apply Within.then (h' := audFree_within ..))
    | (with_reducible apply Within.then (h' := fset_within ..))
    | (with_reducible apply Within.then (h' := rset64_within ..))
    | (with_reducible apply Within.then (h' := sendDone_within ..))
    | (with_reducible apply Within.ite)
    | (with_reducible apply Within.iteSnd)
    | split
    | refine Within.upd (h := ?_)

theorem destDeliver_within (a0 a1) (s : State) : Within [.flow] s (destDeliver a0 a1 s) := by
  unfold destDeliver
  repeat' first
    | (with_reducible assumption)
    | (with_reducible exact Within.refl _ _)
    | (show Area.sub _ _ = true; rfl)
    | (extract_lets +onlyGivenNames t; first | (refine Within.cut [.flow] s t (fun h => ?_) ?_; rotate_left; subst t; rotate_right; clear_value t) | clear_value t)
    | (with_reducible apply Within.ite)
    | split
    | refine Within.upd (h := ?_)

theorem destStep_within (a0 a1) (s : State) : Within [.regs, .aud] s (destStep a0 a1 s) := by
  unfold destStep
  repeat' first
    | (with_reducible assumption)
    | (with_reducible exact Within.refl _ _)
    | (show Area.sub _ _ = true; rfl)
    | (extract_lets +onlyGivenNames t; first | (refine Within.cut [.regs, .aud] s t (fun h => ?_) ?_; rotate_left; subst t; rotate_right; clear_value t) | clear_value t)
    | (with_reducible apply Within.then (h' := asrcFeed_within ..))
    | (with_reducible apply Within.then (h' := fset_within ..))
    | (with_reducible apply Within.then (h' := setDestA_within ..))
    | (with_reducible apply Within.ite)
    | split
    | refine Within.upd (h := ?_)

theorem embedLane_within (a0) (s : State) : Within [.vl] s (embedLane a0 s) := by
  unfold embedLane
  repeat' first
    | (with_reducible assumption)
    | (with_reducible exact Within.refl _ _)
    | (show Area.sub _ _ = true; rfl)
    | (extract_lets +onlyGivenNames t; first | (refine Within.cut [.vl] s t (fun h => ?_) ?_; rotate_left; subst t; rotate_right; clear_value t) | clear_value t)
    | (with_reducible apply Within.then (h' := setLane_within ..))
    | (with_reducible apply Within.ite)
    | split
    | refine Within.upd (h := ?_)

theorem embedLanes_within (a0) (s : State) : Within [.vl] s (embedLanes a0 s) := by
  unfold embedLanes
  repeat' first
    | intro _
    | (with_reducible assumption)
    | (with_reducible exact Within.refl _ _)
    | (show Area.sub _ _ = true; rfl)
    | (with_reducible apply Within.then (h' := embedLane_within ..))
    | (with_reducible apply Within.ite)
    | (with_reducible apply Within.foldl)
    | split

theorem meterEnd_within (a0) (s : State) : Within [.regs, .aud] s (meterEnd a0 s) := by
  unfold meterEnd
  repeat' first
    | intro _
    | (with_reducible assumption)
    | (with_reducible exact Within.refl _ _)
    | (show Area.sub _ _ = true; rfl)
    | (extract_lets +onlyGivenNames t; first | (refine Within.cut [.regs, .aud] s t (fun h => ?_) ?_; rotate_left; subst t; rotate_right; clear_value t) | clear_value t)
    | (with_reducible apply Within.then (h' := fset_within ..))
    | (with_reducible apply Within.then (h' := rsetN_within ..))
    | (with_reducible apply Within.then (h' := setMeter_within ..))
    | (with_reducible apply Within.ite)
    | (with_reducible apply Within.foldl)
    | split
    | refine Within.upd (h := ?_)

theorem meterStep_within (a0 a1) (s : State) : Within [.regs, .aud] s (meterStep a0 a1 s) := by
  unfold meterStep
  repeat' first
    | (with_reducible assumption)
    | (with_reducible exact Within.refl _ _)
    | (show Area.sub _ _ = true; rfl)
    | (extract_lets +onlyGivenNames t; first | (refine Within.cut [.regs, .aud] s t (fun h => ?_) ?_; rotate_left; subst t; rotate_right; clear_value t) | clear_value t)
    | (with_reducible apply Within.then (h' := meterEnd_within ..))
    | (with_reducible apply Within.then (h' := rsetN_within ..))
    | (with_reducible apply Within.then (h' := setMeter_within ..))
    | (with_reducible apply Within.ite)
    | split
    | refine Within.upd (h := ?_)

theorem histPush_within (a0 a1) (s : State) : Within [.aud] s (histPush a0 a1 s) := by
  unfold histPush
  repeat' first
    | (with_reducible assumption)
    | (with_reducible exact Within.refl _ _)
    | (show Area.sub _ _ = true; rfl)
    | (extract_lets +onlyGivenNames t; first | (refine Within.cut [.aud] s t (fun h => ?_) ?_; rotate_left; subst t; rotate_right; clear_value t) | clear_value t)
    | (with_reducible apply Within.ite)
    | split
    | refine Within.upd (h := ?_)

theorem repeatSample_within (a0) (s : State) : Within [.aud] s (repeatSample a0 s) := by
  unfold repeatSample
  repeat' first
    | intro _
    | (with_reducible assumption)
    | (with_reducible exact Within.refl _ _)
    | (show Area.sub _ _ = true; rfl)
    | (extract_lets +onlyGivenNames t; first | (refine Within.cut [.aud] s t (fun h => ?_) ?_; rotate_left; subst t; rotate_right; clear_value t) | clear_value t)
    | (with_reducible apply Within.then (h' := histPush_within ..))
    | (with_reducible apply Within.ite)
    | (with_reducible apply Within.foldl)
    | split
    | refine Within.upd (h := ?_)

theorem sigStep_within (a0 a1) (s : State) : Within [.aud] s (sigStep a0 a1 s) := by
  unfold sigStep
  repeat' first
    | intro _
    | (with_reducible assumption)
    | (with_reducible exact Within.refl _ _)
    | (show Area.sub _ _ = true; rfl)
    | (extract_lets +onlyGivenNames t; first | (refine Within.cut [.aud] s t (fun h => ?_) ?_; rotate_left; subst t; rotate_right; clear_value t) | clear_value t)
    | (with_reducible apply Within.ite)
    | (with_reducible apply Within.foldl)
    | split
    | refine Within.upd (h := ?_)

theorem sigSample_within (a0) (s : State) : Within [.aud] s (sigSample a0 s) := by
  unfold sigSample
  repeat' first
    | intro _
    | (with_reducible assumption)
    | (with_reducible exact Within.refl _ _)
    | (show Area.sub _ _ = true; rfl)
    | (with_reducible apply Within.then (h' := sigStep_within ..))
    | (with_reducible apply Within.foldl)

theorem drainHist_within (a0) (s : State) : Within [.aud] s (drainHist a0 s) := by
  unfold drainHist
  repeat' first
    | intro _
    | (with_reducible assumption)
    | (with_reducible exact Within.refl _ _)
    | (show Area.sub _ _ = true; rfl)
    | (extract_lets +onlyGivenNames t; first | (refine Within.cut [.aud] s t (fun h => ?_) ?_; rotate_left; subst t; rotate_right; clear_value t) | clear_value t)
    | (with_reducible apply Within.then (h' := histPush_within ..))
    | (with_reducible apply Within.ite)
    | (with_reducible apply Within.foldl)
    | split

theorem takeBuses_within (s : State) : Within [.regs, .aud] s (takeBuses s) := by
  unfold takeBuses
  repeat' first
    | intro _
    | (with_reducible assumption)
    | (with_reducible exact Within.refl _ _)
    | (show Area.sub _ _ = true; rfl)
    | (extract_lets +onlyGivenNames t; first | (refine Within.cut [.regs, .aud] s t (fun h => ?_) ?_; rotate_left; subst t; rotate_right; clear_value t) | clear_value t)
    | (with_reducible apply Within.then (h' := fset_within ..))
    | (with_reducible apply Within.then (h' := histPush_within ..))
    | (with_reducible apply Within.ite)
    | (with_reducible apply Within.foldl)
    | split

theorem takeDeemb_within (s : State) : Within [.regs, .core, .pat, .aud] s (takeDeemb s) := by
  unfold takeDeemb
  repeat' first
    | intro _
    | (with_reducible assumption)
    | (with_reducible exact Within.refl _ _)
    | (show Area.sub _ _ = true; rfl)
    | (extract_lets +onlyGivenNames t; first | (refine Within.cut [.regs, .core, .pat, .aud] s t (fun h => ?_) ?_; rotate_left; subst t; rotate_right; clear_value t) | (refine Within.cut [.regs, .core, .pat, .aud] s t.2 (fun h => ?_) ?_; rotate_left; subst t; rotate_right; clear_value t) | clear_value t)
    | (with_reducible apply Within.then (h' := deembRead_within ..))
    | (with_reducible apply Within.then (h' := histPush_within ..))
    | (with_reducible apply Within.then (h' := naPush_within ..))
    | (with_reducible apply Within.foldl)
    | (with_reducible apply Within.foldlSnd)

theorem takePackets_within (a0) (s : State) : Within [.regs, .aud, .fresh] s (takePackets a0 s) := by
  unfold takePackets
  repeat' first
    | intro _
    | (with_reducible assumption)
    | (with_reducible exact Within.refl _ _)
    | (show Area.sub _ _ = true; rfl)
    | (extract_lets +onlyGivenNames t; first | (refine Within.cut [.regs, .aud, .fresh] s t (fun h => ?_) ?_; rotate_left; subst t; rotate_right; clear_value t) | (refine Within.cut [.regs, .aud, .fresh] s t.2 (fun h => ?_) ?_; rotate_left; subst t; rotate_right; clear_value t) | clear_value t)
    | (with_reducible apply Within.then (h' := asrcOut_within ..))
    | (with_reducible apply Within.then (h' := histPush_within ..))
    | (with_reducible apply Within.then (h' := naPush_within ..))
    | (with_reducible apply Within.ite)
    | (with_reducible apply Within.iteSnd)
    | (with_reducible apply Within.foldl)
    | (with_reducible apply Within.foldlSnd)
    | split

theorem takePorts_within (a0) (s : State) : Within [.regs, .aud, .fresh] s (takePorts a0 s) := by
  unfold takePorts
  repeat' first
    | intro _
    | (with_reducible assumption)
    | (with_reducible exact Within.refl _ _)
    | (show Area.sub _ _ = true; rfl)
    | (extract_lets +onlyGivenNames t; first | (refine Within.cut [.regs, .aud, .fresh] s t (fun h => ?_) ?_; rotate_left; subst t; rotate_right; clear_value t) | (refine Within.cut [.regs, .aud, .fresh] s t.2 (fun h => ?_) ?_; rotate_left; subst t; rotate_right; clear_value t) | clear_value t)
    | (with_reducible apply Within.then (h' := asrcOut_within ..))
    | (with_reducible apply Within.then (h' := histPush_within ..))
    | (with_reducible apply Within.then (h' := naPush_within ..))
    | (with_reducible apply Within.ite)
    | (with_reducible apply Within.iteSnd)
    | (with_reducible apply Within.foldl)
    | (with_reducible apply Within.foldlSnd)
    | split

theorem takeTones_within (s : State) : Within [.aud] s (takeTones s) := by
  unfold takeTones
  repeat' first
    | intro _
    | (with_reducible assumption)
    | (with_reducible exact Within.refl _ _)
    | (show Area.sub _ _ = true; rfl)
    | (extract_lets +onlyGivenNames t; first | (refine Within.cut [.aud] s t (fun h => ?_) ?_; rotate_left; subst t; rotate_right; clear_value t) | clear_value t)
    | (with_reducible apply Within.then (h' := histPush_within ..))
    | (with_reducible apply Within.ite)
    | (with_reducible apply Within.foldl)
    | split
    | refine Within.upd (h := ?_)

theorem takeSources_within (a0) (s : State) : Within [.regs, .core, .pat, .aud, .fresh] s (takeSources a0 s) := by
  unfold takeSources
  repeat' first
    | (with_reducible assumption)
    | (with_reducible exact Within.refl _ _)
    | (show Area.sub _ _ = true; rfl)
    | (extract_lets +onlyGivenNames t; first | (refine Within.cut [.regs, .core, .pat, .aud, .fresh] s t (fun h => ?_) ?_; rotate_left; subst t; rotate_right; clear_value t) | clear_value t)
    | (with_reducible apply Within.then (h' := drainHist_within ..))
    | (with_reducible apply Within.then (h' := takeBuses_within ..))
    | (with_reducible apply Within.then (h' := takeDeemb_within ..))
    | (with_reducible apply Within.then (h' := takePackets_within ..))
    | (with_reducible apply Within.then (h' := takePorts_within ..))
    | (with_reducible apply Within.then (h' := takeTones_within ..))
    | (with_reducible apply Within.ite)
    | split

theorem wclkStep_within (a0) (s : State) : Within [.core] s (wclkStep a0 s) := by
  unfold wclkStep
  repeat' first
    | (with_reducible assumption)
    | (with_reducible exact Within.refl _ _)
    | (show Area.sub _ _ = true; rfl)
    | (extract_lets +onlyGivenNames t; first | (refine Within.cut [.core] s t (fun h => ?_) ?_; rotate_left; subst t; rotate_right; clear_value t) | clear_value t)
    | (with_reducible apply Within.then (h' := wclkFall_within ..))
    | (with_reducible apply Within.then (h' := wclkRise_within ..))
    | (with_reducible apply Within.ite)
    | split
    | refine Within.upd (h := ?_)

theorem audStep_within (s : State) : Within [.regs, .core, .pat, .vl, .flow, .aud, .fresh] s (audStep s) := by
  unfold audStep
  repeat' first
    | intro _
    | (with_reducible assumption)
    | (with_reducible exact Within.refl _ _)
    | (show Area.sub _ _ = true; rfl)
    | (extract_lets +onlyGivenNames t; first | (refine Within.cut [.regs, .core, .pat, .vl, .flow, .aud, .fresh] s t (fun h => ?_) ?_; rotate_left; subst t; rotate_right; clear_value t) | clear_value t)
    | (with_reducible apply Within.then (h' := audTakes_within ..))
    | (with_reducible apply Within.then (h' := destDeliver_within ..))
    | (with_reducible apply Within.then (h' := destStep_within ..))
    | (with_reducible apply Within.then (h' := embedLanes_within ..))
    | (with_reducible apply Within.then (h' := fset_within ..))
    | (with_reducible apply Within.then (h' := meterStep_within ..))
    | (with_reducible apply Within.then (h' := repeatSample_within ..))
    | (with_reducible apply Within.then (h' := rset64_within ..))
    | (with_reducible apply Within.then (h' := sapExchange_within ..))
    | (with_reducible apply Within.then (h' := sapPlace_within ..))
    | (with_reducible apply Within.then (h' := sigSample_within ..))
    | (with_reducible apply Within.then (h' := takeSources_within ..))
    | (with_reducible apply Within.then (h' := wclkStep_within ..))
    | (with_reducible apply Within.ite)
    | (with_reducible apply Within.foldl)
    | split
    | refine Within.upd (h := ?_)

theorem ownDeliver_within (a0) (s : State) : Within [.regs, .aud] s (ownDeliver a0 s) := by
  unfold ownDeliver
  repeat' first
    | intro _
    | (with_reducible assumption)
    | (with_reducible exact Within.refl _ _)
    | (show Area.sub _ _ = true; rfl)
    | (extract_lets +onlyGivenNames t; first | (refine Within.cut [.regs, .aud] s t (fun h => ?_) ?_; rotate_left; subst t; rotate_right; clear_value t) | (refine Within.cut [.regs, .aud] s t.2 (fun h => ?_) ?_; rotate_left; subst t; rotate_right; clear_value t) | clear_value t)
    | (with_reducible apply Within.then (h' := asrcPush_within ..))
    | (with_reducible apply Within.then (h' := naPush_within ..))
    | (with_reducible apply Within.ite)
    | (with_reducible apply Within.iteSnd)
    | (with_reducible apply Within.foldl)
    | (with_reducible apply Within.foldlSnd)
    | split

theorem plane1Sample_within (a0 a1) (s : State) : Within [.aud, .fresh] s (plane1Sample a0 a1 s) := by
  unfold plane1Sample
  repeat' first
    | (with_reducible assumption)
    | (with_reducible exact Within.refl _ _)
    | (show Area.sub _ _ = true; rfl)
    | (extract_lets +onlyGivenNames t; first | (refine Within.cut [.aud, .fresh] s t (fun h => ?_) ?_; rotate_left; subst t; rotate_right; clear_value t) | (refine Within.cut [.aud, .fresh] s t.2 (fun h => ?_) ?_; rotate_left; subst t; rotate_right; clear_value t) | clear_value t)
    | (with_reducible apply Within.then (h' := asrcOut_within ..))
    | (with_reducible apply Within.then (h' := setDestA_within ..))
    | (with_reducible apply Within.ite)
    | (with_reducible apply Within.iteSnd)
    | split
    | refine Within.upd (h := ?_)

theorem plane1Audio_within (a0) (s : State) : Within [.regs, .vl, .aud, .fresh] s (plane1Audio a0 s) := by
  unfold plane1Audio
  repeat' first
    | intro _
    | (with_reducible assumption)
    | (with_reducible exact Within.refl _ _)
    | (show Area.sub _ _ = true; rfl)
    | (extract_lets +onlyGivenNames t; first | (refine Within.cut [.regs, .vl, .aud, .fresh] s t (fun h => ?_) ?_; rotate_left; subst t; rotate_right; clear_value t) | clear_value t)
    | (with_reducible apply Within.then (h' := embedLane_within ..))
    | (with_reducible apply Within.then (h' := meterStep_within ..))
    | (with_reducible apply Within.then (h' := plane1Sample_within ..))
    | (with_reducible apply Within.ite)
    | (with_reducible apply Within.foldl)
    | split
    | refine Within.upd (h := ?_)

end Sys2Proof.Machine
end

