-- ==== Sys2Proof/Laws/WithinFabricFamily.lean ====
section
/-! SUPPORT. What each operation of Machine/FabricFamily.lean may change: one frame per operation. -/

namespace Sys2Proof.Machine

set_option Elab.async false
set_option linter.all false
set_option linter.tactic.unusedName false

theorem masterReset_within (a0) (s : State) : Within [.regs, .fab] s (masterReset a0 s) := by
  unfold masterReset
  repeat' first
    | (with_reducible assumption)
    | (with_reducible exact Within.refl _ _)
    | (show Area.sub _ _ = true; rfl)
    | (extract_lets +onlyGivenNames t; first | (refine Within.cut [.regs, .fab] s t (fun h => ?_) ?_; rotate_left; subst t; rotate_right; clear_value t) | clear_value t)
    | (with_reducible apply Within.then (h' := refreshOutst_within ..))
    | (with_reducible apply Within.then (h' := rsetN_within ..))
    | (with_reducible apply Within.ite)
    | split
    | refine Within.upd (h := ?_)

theorem mresetWrite_within (a0) (s : State) : Within [.regs, .fab] s (mresetWrite a0 s) := by
  unfold mresetWrite
  repeat' first
    | (with_reducible assumption)
    | (with_reducible exact Within.refl _ _)
    | (show Area.sub _ _ = true; rfl)
    | (with_reducible apply Within.then (h' := masterReset_within ..))
    | (with_reducible apply Within.ite)
    | split

theorem msixPending_within (a0) (s : State) : Within [.regs] s (msixPending a0 s) := by
  unfold msixPending
  repeat' first
    | (with_reducible assumption)
    | (with_reducible exact Within.refl _ _)
    | (show Area.sub _ _ = true; rfl)
    | (extract_lets +onlyGivenNames t; first | (refine Within.cut [.regs] s t (fun h => ?_) ?_; rotate_left; subst t; rotate_right; clear_value t) | clear_value t)
    | (with_reducible apply Within.then (h' := rsetN_within ..))
    | (with_reducible apply Within.then (h' := sendMsix_within ..))
    | (with_reducible apply Within.ite)
    | split

theorem msixCtrlWrite_within (a0 a1) (s : State) : Within [.regs] s (msixCtrlWrite a0 a1 s) := by
  unfold msixCtrlWrite
  repeat' first
    | (with_reducible assumption)
    | (with_reducible exact Within.refl _ _)
    | (show Area.sub _ _ = true; rfl)
    | (with_reducible apply Within.then (h' := fset_within ..))
    | (with_reducible apply Within.then (h' := msixPending_within ..))

theorem hangExpire_within (a0) (s : State) : Within [.regs, .core, .pat, .fab] s (hangExpire a0 s) := by
  unfold hangExpire
  repeat' first
    | (with_reducible assumption)
    | (with_reducible exact Within.refl _ _)
    | (show Area.sub _ _ = true; rfl)
    | (extract_lets +onlyGivenNames t; first | (refine Within.cut [.regs, .core, .pat, .fab] s t (fun h => ?_) ?_; rotate_left; subst t; rotate_right; clear_value t) | clear_value t)
    | (with_reducible apply Within.then (h' := count_within ..))
    | (with_reducible apply Within.then (h' := raise_within ..))
    | (with_reducible apply Within.then (h' := rsetN_within ..))
    | (with_reducible apply Within.ite)
    | split
    | refine Within.upd (h := ?_)

theorem i2cReply_within (a0) (s : State) : Within [] s (i2cReply a0 s) := (by unfold i2cReply; exact emit_within ..)

theorem i2cResult_within (s : State) : Within [] s (i2cResult s) := by
  unfold i2cResult
  repeat' first
    | (with_reducible assumption)
    | (with_reducible exact Within.refl _ _)
    | (show Area.sub _ _ = true; rfl)
    | (with_reducible apply Within.then (h' := i2cReply_within ..))
    | (with_reducible apply Within.ite)
    | split

theorem i2cCut_within (s : State) : Within [] s (i2cCut s) := (by unfold i2cCut; exact i2cReply_within ..)

theorem i2cExtra_within (a0 a1) (s : State) : Within [] s (i2cExtra a0 a1 s) := by
  unfold i2cExtra
  repeat' first
    | intro _
    | (with_reducible assumption)
    | (with_reducible exact Within.refl _ _)
    | (show Area.sub _ _ = true; rfl)
    | (with_reducible apply Within.then (h' := emit_within ..))
    | (with_reducible apply Within.foldl)

theorem i2cMram_within (a0 a1) (s : State) : Within [.regs, .core, .mram, .pat, .test] s (i2cMram a0 a1 s) := by
  unfold i2cMram
  repeat' first
    | (with_reducible assumption)
    | (with_reducible exact Within.refl _ _)
    | (show Area.sub _ _ = true; rfl)
    | (extract_lets +onlyGivenNames t; first | (refine Within.cut [.regs, .core, .mram, .pat, .test] s t (fun h => ?_) ?_; rotate_left; subst t; rotate_right; clear_value t) | (refine Within.cut [.regs, .core, .mram, .pat, .test] s t.2 (fun h => ?_) ?_; rotate_left; subst t; rotate_right; clear_value t) | clear_value t)
    | (with_reducible apply Within.then (h' := i2cCut_within ..))
    | (with_reducible apply Within.then (h' := i2cReply_within ..))
    | (with_reducible apply Within.then (h' := mramRead_within ..))
    | (with_reducible apply Within.ite)
    | (with_reducible apply Within.iteSnd)
    | split

theorem pcieConfigure_within (a0 a1 a2 a3) (s : State) : Within [.regs, .fab] s (pcieConfigure a0 a1 a2 a3 s) := by
  unfold pcieConfigure
  repeat' first
    | intro _
    | (with_reducible assumption)
    | (with_reducible exact Within.refl _ _)
    | (show Area.sub _ _ = true; rfl)
    | (extract_lets +onlyGivenNames t; first | (refine Within.cut [.regs, .fab] s t (fun h => ?_) ?_; rotate_left; subst t; rotate_right; clear_value t) | clear_value t)
    | (with_reducible apply Within.then (h' := msixPending_within ..))
    | (with_reducible apply Within.foldl)
    | refine Within.upd (h := ?_)

theorem pcieReset_within (a0) (s : State) : Within [.regs, .fab] s (pcieReset a0 s) := by
  unfold pcieReset
  repeat' first
    | (with_reducible assumption)
    | (with_reducible exact Within.refl _ _)
    | (show Area.sub _ _ = true; rfl)
    | (extract_lets +onlyGivenNames t; first | (refine Within.cut [.regs, .fab] s t (fun h => ?_) ?_; rotate_left; subst t; rotate_right; clear_value t) | clear_value t)
    | (with_reducible apply Within.then (h' := count_within ..))
    | (with_reducible apply Within.then (h' := fset_within ..))
    | (with_reducible apply Within.then (h' := masterReset_within ..))
    | (with_reducible apply Within.then (h' := rsetN_within ..))
    | (with_reducible apply Within.ite)
    | split
    | refine Within.upd (h := ?_)

end Sys2Proof.Machine
end

