-- ==== Sys2Proof/Laws/WithinPatinaFamily.lean ====
section
/-! SUPPORT. What each operation of Machine/PatinaFamily.lean may change: one frame per operation. -/

namespace Sys2Proof.Machine

set_option Elab.async false
set_option linter.all false
set_option linter.tactic.unusedName false

theorem faultSevWrite_within (a0 a1 a2) (s : State) : Within [.regs, .core, .pat] s (faultSevWrite a0 a1 a2 s) := by
  unfold faultSevWrite
  repeat' first
    | (with_reducible assumption)
    | (with_reducible exact Within.refl _ _)
    | (show Area.sub _ _ = true; rfl)
    | (extract_lets +onlyGivenNames t; first | (refine Within.cut [.regs, .core, .pat] s t (fun h => ?_) ?_; rotate_left; subst t; rotate_right; clear_value t) | clear_value t)
    | (with_reducible apply Within.then (h' := fset_within ..))
    | (with_reducible apply Within.then (h' := refreshPins_within ..))
    | (with_reducible apply Within.then (h' := refuse_within ..))
    | (with_reducible apply Within.then (h' := sendMsix_within ..))
    | (with_reducible apply Within.ite)
    | split

theorem writeSnap_within (a0 a1 a2) (s : State) : Within [.mram, .pat] s (writeSnap a0 a1 a2 s) := by
  unfold writeSnap
  repeat' first
    | (with_reducible assumption)
    | (with_reducible exact Within.refl _ _)
    | (show Area.sub _ _ = true; rfl)
    | (extract_lets +onlyGivenNames t; first | (refine Within.cut [.mram, .pat] s t (fun h => ?_) ?_; rotate_left; subst t; rotate_right; clear_value t) | clear_value t)
    | (with_reducible apply Within.then (h' := mramWrite_within ..))
    | refine Within.upd (h := ?_)

theorem clearWhole_within (s : State) : Within [.mram, .pat] s (clearWhole s) := by
  unfold clearWhole
  repeat' first
    | (with_reducible assumption)
    | (with_reducible exact Within.refl _ _)
    | (show Area.sub _ _ = true; rfl)
    | (with_reducible apply Within.then (h' := writeSnap_within ..))
    | split

theorem snapBegin_within (a0 a1 a2) (s : State) : Within [.pat] s (snapBegin a0 a1 a2 s) := by
  unfold snapBegin
  repeat' first
    | (with_reducible assumption)
    | (with_reducible exact Within.refl _ _)
    | (show Area.sub _ _ = true; rfl)
    | (extract_lets +onlyGivenNames t; first | (refine Within.cut [.pat] s t (fun h => ?_) ?_; rotate_left; subst t; rotate_right; clear_value t) | clear_value t)
    | refine Within.upd (h := ?_)

theorem clearNow_within (s : State) : Within [.mram, .pat] s (clearNow s) := by
  unfold clearNow
  repeat' first
    | (with_reducible assumption)
    | (with_reducible exact Within.refl _ _)
    | (show Area.sub _ _ = true; rfl)
    | (extract_lets +onlyGivenNames t; first | (refine Within.cut [.mram, .pat] s t (fun h => ?_) ?_; rotate_left; subst t; rotate_right; clear_value t) | clear_value t)
    | (with_reducible apply Within.then (h' := clearWhole_within ..))
    | (with_reducible apply Within.then (h' := snapBegin_within ..))
    | (with_reducible apply Within.ite)
    | split
    | refine Within.upd (h := ?_)

theorem write3_within (s : State) (a0 a1) : Within [.mram] s (write3 s a0 a1) := by
  unfold write3
  repeat' first
    | intro _
    | (with_reducible assumption)
    | (with_reducible exact Within.refl _ _)
    | (show Area.sub _ _ = true; rfl)
    | (with_reducible apply Within.then (h' := mramWrite_within ..))
    | (with_reducible apply Within.foldl)

theorem setArbCount_within (a0) (s : State) : Within [.mram] s (setArbCount a0 s) := by
  unfold setArbCount
  repeat' first
    | (with_reducible assumption)
    | (with_reducible exact Within.refl _ _)
    | (show Area.sub _ _ = true; rfl)
    | (with_reducible apply Within.then (h' := write3_within ..))
    | (with_reducible apply Within.ite)
    | split

theorem setBootPtr_within (a0) (s : State) : Within [.mram] s (setBootPtr a0 s) := (by unfold setBootPtr; exact write3_within ..)

theorem hostEvtWrite_within (a0 a1) (s : State) : Within [.regs, .core, .pat] s (hostEvtWrite a0 a1 s) := by
  unfold hostEvtWrite
  repeat' first
    | (with_reducible assumption)
    | (with_reducible exact Within.refl _ _)
    | (show Area.sub _ _ = true; rfl)
    | (extract_lets +onlyGivenNames t; first | (refine Within.cut [.regs, .core, .pat] s t (fun h => ?_) ?_; rotate_left; subst t; rotate_right; clear_value t) | clear_value t)
    | (with_reducible apply Within.then (h' := fset_within ..))
    | (with_reducible apply Within.then (h' := queueRec_within ..))
    | (with_reducible apply Within.then (h' := refuse_within ..))
    | (with_reducible apply Within.ite)
    | split

theorem keepCtrlWrite_within (a0) (s : State) : Within [.mram, .pat] s (keepCtrlWrite a0 s) := by
  unfold keepCtrlWrite
  repeat' first
    | (with_reducible assumption)
    | (with_reducible exact Within.refl _ _)
    | (show Area.sub _ _ = true; rfl)
    | (extract_lets +onlyGivenNames t; first | (refine Within.cut [.mram, .pat] s t (fun h => ?_) ?_; rotate_left; subst t; rotate_right; clear_value t) | clear_value t)
    | (with_reducible apply Within.then (h' := clearNow_within ..))
    | (with_reducible apply Within.ite)
    | split
    | refine Within.upd (h := ?_)

theorem mramReport_within (a0 a1) (s : State) : Within [.regs, .core, .pat] s (mramReport a0 a1 s) := by
  unfold mramReport
  repeat' first
    | intro _
    | (with_reducible assumption)
    | (with_reducible exact Within.refl _ _)
    | (show Area.sub _ _ = true; rfl)
    | (with_reducible apply Within.then (h' := mramCorrected_within ..))
    | (with_reducible apply Within.then (h' := mramUncorr_within ..))
    | (with_reducible apply Within.foldl)

theorem mramScan_within (a0 a1) (s : State) : Within [.regs, .core, .mram, .pat] s (mramScan a0 a1 s) := by
  unfold mramScan
  repeat' first
    | (with_reducible assumption)
    | (with_reducible exact Within.refl _ _)
    | (show Area.sub _ _ = true; rfl)
    | (with_reducible apply Within.then (h' := mramHeal_within ..))
    | (with_reducible apply Within.then (h' := mramReport_within ..))

theorem logWrite_within (a0 a1 a2 a3) (s : State) : Within [.mram, .pat] s (logWrite a0 a1 a2 a3 s) := by
  unfold logWrite
  repeat' first
    | (with_reducible assumption)
    | (with_reducible exact Within.refl _ _)
    | (show Area.sub _ _ = true; rfl)
    | (extract_lets +onlyGivenNames t; first | (refine Within.cut [.mram, .pat] s t (fun h => ?_) ?_; rotate_left; subst t; rotate_right; clear_value t) | clear_value t)
    | (with_reducible apply Within.then (h' := mramWrite_within ..))
    | split
    | refine Within.upd (h := ?_)

theorem logEnd_within (a0 a1) (s : State) : Within [.mram, .pat] s (logEnd a0 a1 s) := by
  unfold logEnd
  repeat' first
    | (with_reducible assumption)
    | (with_reducible exact Within.refl _ _)
    | (show Area.sub _ _ = true; rfl)
    | (extract_lets +onlyGivenNames t; first | (refine Within.cut [.mram, .pat] s t (fun h => ?_) ?_; rotate_left; subst t; rotate_right; clear_value t) | clear_value t)
    | (with_reducible apply Within.then (h' := logWrite_within ..))
    | refine Within.upd (h := ?_)

theorem logItems_within (a0) (s : State) : Within [.mram, .pat] s (logItems a0 s) := by
  unfold logItems
  repeat' first
    | intro _
    | (with_reducible assumption)
    | (with_reducible exact Within.refl _ _)
    | (show Area.sub _ _ = true; rfl)
    | (with_reducible apply Within.then (h' := logWrite_within ..))
    | (with_reducible apply Within.foldl)

theorem snapEnd_within (a0) (s : State) : Within [.mram, .pat] s (snapEnd a0 s) := by
  unfold snapEnd
  repeat' first
    | (with_reducible assumption)
    | (with_reducible exact Within.refl _ _)
    | (show Area.sub _ _ = true; rfl)
    | (extract_lets +onlyGivenNames t; first | (refine Within.cut [.mram, .pat] s t (fun h => ?_) ?_; rotate_left; subst t; rotate_right; clear_value t) | clear_value t)
    | (with_reducible apply Within.then (h' := writeSnap_within ..))
    | refine Within.upd (h := ?_)

theorem keepWork_within (k left : Nat) (s : State) : Within [.mram, .pat] s (keepWork k left s) := by
  induction k generalizing left s with
  | zero => exact Within.refl _ _
  | succ k ih =>
    unfold keepWork
    split
    · split
      · exact Within.then ((snapEnd_within ..).mono rfl) (ih ..) rfl
      · exact Within.upd (h := Within.refl _ _)
    · split
      · split
        · exact Within.then ((snapBegin_within ..).mono rfl) (ih ..) rfl
        · simp only []
          split
          · refine Within.then ?_ (ih ..) rfl
            refine Within.then ?_ (logEnd_within ..) rfl
            exact Within.upd (h := (logItems_within ..).mono rfl)
          · exact Within.upd (h := (logItems_within ..).mono rfl)
      · exact Within.refl _ _

theorem logFlush_within (a0 a1) (s : State) : Within [.mram, .pat] s (logFlush a0 a1 s) := by
  unfold logFlush
  repeat' first
    | (with_reducible assumption)
    | (with_reducible exact Within.refl _ _)
    | (show Area.sub _ _ = true; rfl)
    | (with_reducible apply Within.then (h' := logEnd_within ..))
    | (with_reducible apply Within.then (h' := logItems_within ..))

theorem keepCastFlush_within (s : State) : Within [.regs, .mram, .pat] s (keepCastFlush s) := by
  unfold keepCastFlush
  repeat' first
    | (with_reducible assumption)
    | (with_reducible exact Within.refl _ _)
    | (show Area.sub _ _ = true; rfl)
    | (extract_lets +onlyGivenNames t; first | (refine Within.cut [.regs, .mram, .pat] s t (fun h => ?_) ?_; rotate_left; subst t; rotate_right; clear_value t) | clear_value t)
    | (with_reducible apply Within.then (h' := keepWork_within ..))
    | (with_reducible apply Within.then (h' := logFlush_within ..))
    | (with_reducible apply Within.then (h' := setBacklog_within ..))
    | (with_reducible apply Within.then (h' := snapBegin_within ..))
    | (with_reducible apply Within.then (h' := writeSnap_within ..))
    | (with_reducible apply Within.ite)
    | split
    | refine Within.upd (h := ?_)

theorem writeLife_within (s : State) : Within [.mram] s (writeLife s) := by
  unfold writeLife
  repeat' first
    | intro _
    | (with_reducible assumption)
    | (with_reducible exact Within.refl _ _)
    | (show Area.sub _ _ = true; rfl)
    | (extract_lets +onlyGivenNames t; first | (refine Within.cut [.mram] s t (fun h => ?_) ?_; rotate_left; subst t; rotate_right; clear_value t) | clear_value t)
    | (with_reducible apply Within.then (h' := mramWrite_within ..))
    | (with_reducible apply Within.foldl)

theorem finalFlush_within (s : State) : Within [.regs, .mram, .protect, .pat] s (finalFlush s) := by
  unfold finalFlush
  repeat' first
    | (with_reducible assumption)
    | (with_reducible exact Within.refl _ _)
    | (show Area.sub _ _ = true; rfl)
    | (extract_lets +onlyGivenNames t; first | (refine Within.cut [.regs, .mram, .protect, .pat] s t (fun h => ?_) ?_; rotate_left; subst t; rotate_right; clear_value t) | (have _h : Long := t) | clear_value t)
    | (with_reducible apply Within.then (h' := fset_within ..))
    | (with_reducible apply Within.then (h' := logFlush_within ..))
    | (with_reducible apply Within.then (h' := logWrite_within ..))
    | (with_reducible apply Within.then (h' := setBacklog_within ..))
    | (with_reducible apply Within.then (h' := writeLife_within ..))
    | (with_reducible apply Within.ite)
    | split
    | refine Within.upd (h := ?_)

theorem setPatSeq_within (a0) (s : State) : Within [.regs] s (setPatSeq a0 s) := by
  unfold setPatSeq
  repeat' first
    | (with_reducible assumption)
    | (with_reducible exact Within.refl _ _)
    | (show Area.sub _ _ = true; rfl)
    | (with_reducible apply Within.then (h' := rsetN_within ..))

theorem findHead_within (s : State) : Within [.regs, .core, .mram, .life, .pat] s (findHead s) := by
  unfold findHead
  repeat' first
    | (with_reducible assumption)
    | (with_reducible exact Within.refl _ _)
    | (show Area.sub _ _ = true; rfl)
    | (extract_lets +onlyGivenNames t; first | (refine Within.cut [.regs, .core, .mram, .life, .pat] s t (fun h => ?_) ?_; rotate_left; subst t; rotate_right; clear_value t) | clear_value t)
    | (with_reducible apply Within.then (h' := fset_within ..))
    | (with_reducible apply Within.then (h' := lifeAdd_within ..))
    | (with_reducible apply Within.then (h' := mramScan_within ..))
    | (with_reducible apply Within.then (h' := setPatSeq_within ..))
    | (with_reducible apply Within.ite)
    | split
    | refine Within.upd (h := ?_)

theorem takeDirty_within (s : State) : Within [.pat] s (takeDirty s) := by
  unfold takeDirty
  repeat' first
    | (with_reducible assumption)
    | (with_reducible exact Within.refl _ _)
    | (show Area.sub _ _ = true; rfl)
    | (extract_lets +onlyGivenNames t; first | (refine Within.cut [.pat] s t (fun h => ?_) ?_; rotate_left; subst t; rotate_right; clear_value t) | clear_value t)
    | refine Within.upd (h := ?_)

theorem keepRun_within (a0) (s : State) : Within [.regs, .mram, .pat] s (keepRun a0 s) := by
  unfold keepRun
  repeat' first
    | (with_reducible assumption)
    | (with_reducible exact Within.refl _ _)
    | (show Area.sub _ _ = true; rfl)
    | (extract_lets +onlyGivenNames t; first | (refine Within.cut [.regs, .mram, .pat] s t (fun h => ?_) ?_; rotate_left; subst t; rotate_right; clear_value t) | clear_value t)
    | (with_reducible apply Within.then (h' := keepWork_within ..))
    | (with_reducible apply Within.then (h' := setBacklog_within ..))
    | (with_reducible apply Within.then (h' := snapBegin_within ..))
    | (with_reducible apply Within.then (h' := takeDirty_within ..))
    | (with_reducible apply Within.ite)
    | split
    | refine Within.upd (h := ?_)

theorem keepBoundary_within (s : State) : Within [.regs, .mram, .pat] s (keepBoundary s) := (by unfold keepBoundary; exact keepRun_within ..)

theorem lifeUpdate_within (a0) (s : State) : Within [.mram, .life, .pat] s (lifeUpdate a0 s) := by
  unfold lifeUpdate
  repeat' first
    | intro _
    | (with_reducible assumption)
    | (with_reducible exact Within.refl _ _)
    | (show Area.sub _ _ = true; rfl)
    | (extract_lets +onlyGivenNames t; first | (refine Within.cut [.mram, .life, .pat] s t (fun h => ?_) ?_; rotate_left; subst t; rotate_right; clear_value t) | clear_value t)
    | (with_reducible apply Within.then (h' := lifeAdd_within ..))
    | (with_reducible apply Within.then (h' := writeLife_within ..))
    | (with_reducible apply Within.ite)
    | (with_reducible apply Within.foldl)
    | split
    | refine Within.upd (h := ?_)

theorem loadLife_within (s : State) : Within [.mram, .life, .pat] s (loadLife s) := by
  unfold loadLife
  repeat' first
    | intro _
    | (with_reducible assumption)
    | (with_reducible exact Within.refl _ _)
    | (show Area.sub _ _ = true; rfl)
    | (extract_lets +onlyGivenNames t; first | (refine Within.cut [.mram, .life, .pat] s t (fun h => ?_) ?_; rotate_left; subst t; rotate_right; clear_value t) | (have _h : Long := t) | (have _h := fun x => (t x : State)) | (have _h := fun x y => (t x y : State)) | (have _h := fun x y z => (t x y z : State)) | clear_value t)
    | (with_reducible apply Within.then (h' := mramHeal_within ..))
    | (with_reducible apply Within.then (h' := write3_within ..))
    | (with_reducible apply Within.then (h' := writeLife_within ..))
    | (with_reducible apply Within.ite)
    | (with_reducible apply Within.foldl)
    | split
    | refine Within.upd (h := ?_)

theorem powerFail_within (s : State) : Within [.regs, .core, .mram, .life, .protect, .pat] s (powerFail s) := by
  unfold powerFail
  repeat' first
    | (with_reducible assumption)
    | (with_reducible exact Within.refl _ _)
    | (show Area.sub _ _ = true; rfl)
    | (extract_lets +onlyGivenNames t; first | (refine Within.cut [.regs, .core, .mram, .life, .protect, .pat] s t (fun h => ?_) ?_; rotate_left; subst t; rotate_right; clear_value t) | (have _h : Long := t) | clear_value t)
    | (with_reducible apply Within.then (h' := fset_within ..))
    | (with_reducible apply Within.then (h' := lifeAdd_within ..))
    | (with_reducible apply Within.then (h' := logEvent_within ..))
    | (with_reducible apply Within.then (h' := setBacklog_within ..))
    | (with_reducible apply Within.then (h' := setFiltered_within ..))
    | (with_reducible apply Within.then (h' := writeLife_within ..))
    | (with_reducible apply Within.ite)
    | split
    | refine Within.upd (h := ?_)

theorem powerRestore_within (a0) (s : State) : Within [.regs, .core, .protect, .pat] s (powerRestore a0 s) := by
  unfold powerRestore
  repeat' first
    | (with_reducible assumption)
    | (with_reducible exact Within.refl _ _)
    | (show Area.sub _ _ = true; rfl)
    | (extract_lets +onlyGivenNames t; first | (refine Within.cut [.regs, .core, .protect, .pat] s t (fun h => ?_) ?_; rotate_left; subst t; rotate_right; clear_value t) | (have _h : Long := t) | clear_value t)
    | (with_reducible apply Within.then (h' := fset_within ..))
    | (with_reducible apply Within.then (h' := logEvent_within ..))
    | (with_reducible apply Within.then (h' := setBacklog_within ..))
    | (with_reducible apply Within.then (h' := setFiltered_within ..))
    | (with_reducible apply Within.ite)
    | split
    | refine Within.upd (h := ?_)

theorem reportDrops_within (s : State) : Within [.regs, .pat] s (reportDrops s) := by
  unfold reportDrops
  repeat' first
    | (with_reducible assumption)
    | (with_reducible exact Within.refl _ _)
    | (show Area.sub _ _ = true; rfl)
    | (extract_lets +onlyGivenNames t; first | (refine Within.cut [.regs, .pat] s t (fun h => ?_) ?_; rotate_left; subst t; rotate_right; clear_value t) | clear_value t)
    | (with_reducible apply Within.then (h' := fset_within ..))
    | (with_reducible apply Within.ite)
    | split
    | refine Within.upd (h := ?_)

theorem takeRec_within (s : State) : Within [.regs, .pat] s (takeRec s) := by
  unfold takeRec
  repeat' first
    | (with_reducible assumption)
    | (with_reducible exact Within.refl _ _)
    | (show Area.sub _ _ = true; rfl)
    | (extract_lets +onlyGivenNames t; first | (refine Within.cut [.regs, .pat] s t (fun h => ?_) ?_; rotate_left; subst t; rotate_right; clear_value t) | clear_value t)
    | (with_reducible apply Within.then (h' := setPatSeq_within ..))
    | split
    | refine Within.upd (h := ?_)

theorem tokenTick_within (s : State) : Within [.regs, .pat] s (tokenTick s) := by
  unfold tokenTick
  repeat' first
    | (with_reducible assumption)
    | (with_reducible exact Within.refl _ _)
    | (show Area.sub _ _ = true; rfl)
    | (extract_lets +onlyGivenNames t; first | (refine Within.cut [.regs, .pat] s t (fun h => ?_) ?_; rotate_left; subst t; rotate_right; clear_value t) | clear_value t)
    | (with_reducible apply Within.then (h' := fset_within ..))
    | (with_reducible apply Within.then (h' := reportDrops_within ..))
    | (with_reducible apply Within.ite)
    | split

theorem writeRec_within (a0) (s : State) : Within [.mram, .pat] s (writeRec a0 s) := by
  unfold writeRec
  repeat' first
    | (with_reducible assumption)
    | (with_reducible exact Within.refl _ _)
    | (show Area.sub _ _ = true; rfl)
    | (extract_lets +onlyGivenNames t; first | (refine Within.cut [.mram, .pat] s t (fun h => ?_) ?_; rotate_left; subst t; rotate_right; clear_value t) | clear_value t)
    | (with_reducible apply Within.then (h' := mramWrite_within ..))
    | (with_reducible apply Within.ite)
    | split
    | refine Within.upd (h := ?_)

end Sys2Proof.Machine
end

