-- ==== Sys2Proof/Laws/WithinComposeFamily.lean ====
section
/-! SUPPORT. What each operation of Machine/ComposeFamily.lean may change: one frame per operation. -/

namespace Sys2Proof.Machine

set_option Elab.async false
set_option linter.all false
set_option linter.tactic.unusedName false

theorem coefRead_within (s : State) : Within [.regs] s (coefRead s).2 := by
  unfold coefRead
  repeat' first
    | (with_reducible assumption)
    | (with_reducible exact Within.refl _ _)
    | (show Area.sub _ _ = true; rfl)
    | (with_reducible apply Within.then (h' := indexNext_within ..))
    | (with_reducible apply Within.ite)
    | (with_reducible apply Within.iteSnd)
    | split

theorem lutRead_within (s : State) : Within [.regs] s (lutRead s).2 := by
  unfold lutRead
  repeat' first
    | (with_reducible assumption)
    | (with_reducible exact Within.refl _ _)
    | (show Area.sub _ _ = true; rfl)
    | (with_reducible apply Within.then (h' := indexNext_within ..))
    | (with_reducible apply Within.ite)
    | (with_reducible apply Within.iteSnd)
    | split

theorem coefCtrlWrite_within (a0 a1) (s : State) : Within [.regs, .core, .pat, .comp] s (coefCtrlWrite a0 a1 s) := by
  unfold coefCtrlWrite
  repeat' first
    | (with_reducible assumption)
    | (with_reducible exact Within.refl _ _)
    | (show Area.sub _ _ = true; rfl)
    | (extract_lets +onlyGivenNames t; first | (refine Within.cut [.regs, .core, .pat, .comp] s t (fun h => ?_) ?_; rotate_left; subst t; rotate_right; clear_value t) | clear_value t)
    | (with_reducible apply Within.then (h' := plainWrite_within ..))
    | (with_reducible apply Within.then (h' := refuse_within ..))
    | (with_reducible apply Within.ite)
    | split
    | refine Within.upd (h := ?_)

theorem coefWrite_within (a0) (s : State) : Within [.regs, .comp] s (coefWrite a0 s) := by
  unfold coefWrite
  repeat' first
    | (with_reducible assumption)
    | (with_reducible exact Within.refl _ _)
    | (show Area.sub _ _ = true; rfl)
    | (extract_lets +onlyGivenNames t; first | (refine Within.cut [.regs, .comp] s t (fun h => ?_) ?_; rotate_left; subst t; rotate_right; clear_value t) | clear_value t)
    | (with_reducible apply Within.then (h' := indexNext_within ..))
    | (with_reducible apply Within.ite)
    | split
    | refine Within.upd (h := ?_)

theorem lStat_within (a0 a1 a2) (s : State) : Within [.regs] s (lStat a0 a1 a2 s) := (by unfold lStat; exact fset_within ..)

theorem setLayer_within (a0 a1) (s : State) : Within [.comp] s (setLayer a0 a1 s) := by
  unfold setLayer
  repeat' first
    | (with_reducible assumption)
    | (with_reducible exact Within.refl _ _)
    | (show Area.sub _ _ = true; rfl)
    | (extract_lets +onlyGivenNames t; first | (refine Within.cut [.comp] s t (fun h => ?_) ?_; rotate_left; subst t; rotate_right; clear_value t) | clear_value t)
    | refine Within.upd (h := ?_)

theorem layerCommit_within (a0 a1) (s : State) : Within [.regs, .core, .pat, .comp] s (layerCommit a0 a1 s) := by
  unfold layerCommit
  repeat' first
    | (with_reducible assumption)
    | (with_reducible exact Within.refl _ _)
    | (show Area.sub _ _ = true; rfl)
    | (extract_lets +onlyGivenNames t; first | (refine Within.cut [.regs, .core, .pat, .comp] s t (fun h => ?_) ?_; rotate_left; subst t; rotate_right; clear_value t) | clear_value t)
    | (with_reducible apply Within.then (h' := lStat_within ..))
    | (with_reducible apply Within.then (h' := refuse_within ..))
    | (with_reducible apply Within.then (h' := setLayer_within ..))
    | (with_reducible apply Within.ite)
    | split
    | refine Within.upd (h := ?_)

theorem lutCtrlWrite_within (a0) (s : State) : Within [.regs, .comp] s (lutCtrlWrite a0 s) := by
  unfold lutCtrlWrite
  repeat' first
    | (with_reducible assumption)
    | (with_reducible exact Within.refl _ _)
    | (show Area.sub _ _ = true; rfl)
    | (extract_lets +onlyGivenNames t; first | (refine Within.cut [.regs, .comp] s t (fun h => ?_) ?_; rotate_left; subst t; rotate_right; clear_value t) | clear_value t)
    | (with_reducible apply Within.then (h' := plainWrite_within ..))
    | (with_reducible apply Within.ite)
    | split
    | refine Within.upd (h := ?_)

theorem lutWrite_within (a0) (s : State) : Within [.regs, .comp] s (lutWrite a0 s) := by
  unfold lutWrite
  repeat' first
    | (with_reducible assumption)
    | (with_reducible exact Within.refl _ _)
    | (show Area.sub _ _ = true; rfl)
    | (extract_lets +onlyGivenNames t; first | (refine Within.cut [.regs, .comp] s t (fun h => ?_) ?_; rotate_left; subst t; rotate_right; clear_value t) | clear_value t)
    | (with_reducible apply Within.then (h' := indexNext_within ..))
    | (with_reducible apply Within.ite)
    | split
    | refine Within.upd (h := ?_)

theorem compWrite_within (m a : Nat) (x : Word) (s : State) : Within [.regs, .core, .pat, .comp] s (compWrite m a x s) := by
  unfold compWrite
  split
  · exact (refuse_within ..).mono rfl
  · refine .ite ((lutCtrlWrite_within ..).mono rfl) (.ite ((lutWrite_within ..).mono rfl) (.ite ((coefCtrlWrite_within ..).mono rfl)
      (.ite ((coefWrite_within ..).mono rfl) (.ite (.ite ((layerCommit_within ..).mono rfl) (.refl _ _))
        (.ite ((rset_within ..).mono rfl) ((plainWrite_within ..).mono rfl))))))

theorem headLink_within (a0 a1 a2 a3) (s : State) : Within [] s (headLink a0 a1 a2 a3 s) := by
  unfold headLink
  repeat' first
    | intro _
    | (with_reducible assumption)
    | (with_reducible exact Within.refl _ _)
    | (show Area.sub _ _ = true; rfl)
    | (extract_lets +onlyGivenNames t; first | (refine Within.cut [] s t (fun h => ?_) ?_; rotate_left; subst t; rotate_right; clear_value t) | clear_value t)
    | (with_reducible apply Within.then (h' := emit_within ..))
    | (with_reducible apply Within.ite)
    | (with_reducible apply Within.foldl)
    | split

theorem layerDecide_within (a0 a1) (s : State) : Within [.regs, .core, .pat] s (layerDecide a0 a1 s).2 := by
  unfold layerDecide
  repeat' first
    | (with_reducible assumption)
    | (with_reducible exact Within.refl _ _)
    | (show Area.sub _ _ = true; rfl)
    | (extract_lets +onlyGivenNames t; first | (refine Within.cut [.regs, .core, .pat] s t (fun h => ?_) ?_; rotate_left; subst t; rotate_right; clear_value t) | (refine Within.cut [.regs, .core, .pat] s t.2 (fun h => ?_) ?_; rotate_left; subst t; rotate_right; clear_value t) | clear_value t)
    | (with_reducible apply Within.then (h' := count_within ..))
    | (with_reducible apply Within.then (h' := fset_within ..))
    | (with_reducible apply Within.then (h' := raise_within ..))
    | (with_reducible apply Within.ite)
    | (with_reducible apply Within.iteSnd)
    | split

theorem layerSelect_within (a0) (s : State) : Within [.regs, .core, .pat, .test, .q, .comp] s (layerSelect a0 s) := by
  unfold layerSelect
  repeat' first
    | (with_reducible assumption)
    | (with_reducible exact Within.refl _ _)
    | (show Area.sub _ _ = true; rfl)
    | (extract_lets +onlyGivenNames t; first | (refine Within.cut [.regs, .core, .pat, .test, .q, .comp] s t (fun h => ?_) ?_; rotate_left; subst t; rotate_right; clear_value t) | (refine Within.cut [.regs, .core, .pat, .test, .q, .comp] s t.2 (fun h => ?_) ?_; rotate_left; subst t; rotate_right; clear_value t) | clear_value t)
    | (with_reducible apply Within.then (h' := count_within ..))
    | (with_reducible apply Within.then (h' := lStat_within ..))
    | (with_reducible apply Within.then (h' := raise_within ..))
    | (with_reducible apply Within.then (h' := setLayer_within ..))
    | (with_reducible apply Within.then (h' := storeOp_within ..))
    | (with_reducible apply Within.then (h' := storeTake_within ..))
    | (with_reducible apply Within.ite)
    | (with_reducible apply Within.iteSnd)
    | split
    | refine Within.upd (h := ?_)

theorem layerCut_within (a0) (s : State) : Within [.regs, .core, .pat, .test, .q, .comp] s (layerCut a0 s).2 := by
  unfold layerCut
  repeat' first
    | (with_reducible assumption)
    | (with_reducible exact Within.refl _ _)
    | (show Area.sub _ _ = true; rfl)
    | (extract_lets +onlyGivenNames t; first | (refine Within.cut [.regs, .core, .pat, .test, .q, .comp] s t (fun h => ?_) ?_; rotate_left; subst t; rotate_right; clear_value t) | (refine Within.cut [.regs, .core, .pat, .test, .q, .comp] s t.2 (fun h => ?_) ?_; rotate_left; subst t; rotate_right; clear_value t) | clear_value t)
    | (with_reducible apply Within.then (h' := lStat_within ..))
    | (with_reducible apply Within.then (h' := layerDecide_within ..))
    | (with_reducible apply Within.then (h' := layerSelect_within ..))
    | (with_reducible apply Within.then (h' := setLayer_within ..))
    | (with_reducible apply Within.ite)
    | (with_reducible apply Within.iteSnd)
    | split
    | refine Within.upd (h := ?_)

theorem setHead_within (a0 a1) (s : State) : Within [.comp] s (setHead a0 a1 s) := by
  unfold setHead
  repeat' first
    | (with_reducible assumption)
    | (with_reducible exact Within.refl _ _)
    | (show Area.sub _ _ = true; rfl)
    | (extract_lets +onlyGivenNames t; first | (refine Within.cut [.comp] s t (fun h => ?_) ?_; rotate_left; subst t; rotate_right; clear_value t) | clear_value t)
    | refine Within.upd (h := ?_)

theorem compCutoff_within (a0) (s : State) : Within [.regs, .core, .pat, .test, .q, .eng, .comp] s (compCutoff a0 s) := by
  unfold compCutoff
  repeat' first
    | intro _
    | (with_reducible assumption)
    | (with_reducible exact Within.refl _ _)
    | (show Area.sub _ _ = true; rfl)
    | (extract_lets +onlyGivenNames t; first | (refine Within.cut [.regs, .core, .pat, .test, .q, .eng, .comp] s t (fun h => ?_) ?_; rotate_left; subst t; rotate_right; clear_value t) | (refine Within.cut [.regs, .core, .pat, .test, .q, .eng, .comp] s t.2 (fun h => ?_) ?_; rotate_left; subst t; rotate_right; clear_value t) | clear_value t)
    | (with_reducible apply Within.then (h' := fset_within ..))
    | (with_reducible apply Within.then (h' := issue_within ..))
    | (with_reducible apply Within.then (h' := layerCut_within ..))
    | (with_reducible apply Within.then (h' := rset64_within ..))
    | (with_reducible apply Within.then (h' := setHead_within ..))
    | (with_reducible apply Within.ite)
    | (with_reducible apply Within.iteSnd)
    | (with_reducible apply Within.foldl)
    | (with_reducible apply Within.foldlSnd)
    | split
    | refine Within.upd (h := ?_)

theorem compDeadline_within (a0) (s : State) : Within [.regs, .core, .pat, .test, .q, .eng, .comp] s (compDeadline a0 s) := by
  unfold compDeadline
  repeat' first
    | intro _
    | (with_reducible assumption)
    | (with_reducible exact Within.refl _ _)
    | (show Area.sub _ _ = true; rfl)
    | (extract_lets +onlyGivenNames t; first | (refine Within.cut [.regs, .core, .pat, .test, .q, .eng, .comp] s t (fun h => ?_) ?_; rotate_left; subst t; rotate_right; clear_value t) | (refine Within.cut [.regs, .core, .pat, .test, .q, .eng, .comp] s t.2 (fun h => ?_) ?_; rotate_left; subst t; rotate_right; clear_value t) | (have _h := fun x => (t x : State)) | (have _h := fun x y => (t x y : State)) | (have _h := fun x y z => (t x y z : State)) | clear_value t)
    | (with_reducible apply Within.then (h' := cancelTasks_within ..))
    | (with_reducible apply Within.then (h' := countN_within ..))
    | (with_reducible apply Within.then (h' := fset_within ..))
    | (with_reducible apply Within.then (h' := raise_within ..))
    | (with_reducible apply Within.then (h' := setHead_within ..))
    | (with_reducible apply Within.then (h' := storeOp_within ..))
    | (with_reducible apply Within.ite)
    | (with_reducible apply Within.iteSnd)
    | (with_reducible apply Within.foldl)
    | (with_reducible apply Within.foldlSnd)
    | split
    | refine Within.upd (h := ?_)

theorem headSelect_within (a0) (s : State) : Within [.regs, .core, .pat, .test, .xp, .q, .comp] s (headSelect a0 s) := by
  unfold headSelect
  repeat' first
    | intro _
    | (with_reducible assumption)
    | (with_reducible exact Within.refl _ _)
    | (show Area.sub _ _ = true; rfl)
    | (extract_lets +onlyGivenNames t; first | (refine Within.cut [.regs, .core, .pat, .test, .xp, .q, .comp] s t (fun h => ?_) ?_; rotate_left; subst t; rotate_right; clear_value t) | (refine Within.cut [.regs, .core, .pat, .test, .xp, .q, .comp] s t.2 (fun h => ?_) ?_; rotate_left; subst t; rotate_right; clear_value t) | (have _h := fun x => (t x : State)) | (have _h := fun x y => (t x y : State)) | (have _h := fun x y z => (t x y z : State)) | clear_value t)
    | (with_reducible apply Within.then (h' := headLink_within ..))
    | (with_reducible apply Within.then (h' := setHead_within ..))
    | (with_reducible apply Within.then (h' := storeOp_within ..))
    | (with_reducible apply Within.then (h' := storeTake_within ..))
    | (with_reducible apply Within.ite)
    | (with_reducible apply Within.iteSnd)
    | (with_reducible apply Within.foldl)
    | (with_reducible apply Within.foldlSnd)
    | split
    | refine Within.upd (h := ?_)

theorem compSwitch_within (a0) (s : State) : Within [.regs, .core, .pat, .test, .xp, .q, .comp] s (compSwitch a0 s) := by
  unfold compSwitch
  repeat' first
    | intro _
    | (with_reducible assumption)
    | (with_reducible exact Within.refl _ _)
    | (show Area.sub _ _ = true; rfl)
    | (extract_lets +onlyGivenNames t; first | (refine Within.cut [.regs, .core, .pat, .test, .xp, .q, .comp] s t (fun h => ?_) ?_; rotate_left; subst t; rotate_right; clear_value t) | (refine Within.cut [.regs, .core, .pat, .test, .xp, .q, .comp] s t.2 (fun h => ?_) ?_; rotate_left; subst t; rotate_right; clear_value t) | clear_value t)
    | (with_reducible apply Within.then (h' := headSelect_within ..))
    | (with_reducible apply Within.then (h' := setLayer_within ..))
    | (with_reducible apply Within.then (h' := storeOp_within ..))
    | (with_reducible apply Within.ite)
    | (with_reducible apply Within.iteSnd)
    | (with_reducible apply Within.foldl)
    | (with_reducible apply Within.foldlSnd)
    | split
    | refine Within.upd (h := ?_)

theorem frameLost_within (a0 a1) (s : State) : Within [.comp] s (frameLost a0 a1 s) := by
  unfold frameLost
  repeat' first
    | (with_reducible assumption)
    | (with_reducible exact Within.refl _ _)
    | (show Area.sub _ _ = true; rfl)
    | (extract_lets +onlyGivenNames t; first | (refine Within.cut [.comp] s t (fun h => ?_) ?_; rotate_left; subst t; rotate_right; clear_value t) | clear_value t)
    | (with_reducible apply Within.then (h' := setHead_within ..))
    | (with_reducible apply Within.then (h' := setLayer_within ..))
    | refine Within.upd (h := ?_)

theorem surfFail_within (a0 a1) (s : State) : Within [.regs, .core, .pat] s (surfFail a0 a1 s) := by
  unfold surfFail
  repeat' first
    | intro _
    | (with_reducible assumption)
    | (with_reducible exact Within.refl _ _)
    | (show Area.sub _ _ = true; rfl)
    | (with_reducible apply Within.then (h' := countN_within ..))
    | (with_reducible apply Within.then (h' := lStat_within ..))
    | (with_reducible apply Within.then (h' := raise_within ..))
    | (with_reducible apply Within.ite)
    | (with_reducible apply Within.foldl)
    | split

theorem surfRead_within (a0 a1 a2) (s : State) : Within [.regs, .core, .pat, .test] s (surfRead a0 a1 a2 s).2 := by
  unfold surfRead
  repeat' first
    | intro _
    | (with_reducible assumption)
    | (with_reducible exact Within.refl _ _)
    | (show Area.sub _ _ = true; rfl)
    | (extract_lets +onlyGivenNames t; first | (refine Within.cut [.regs, .core, .pat, .test] s t (fun h => ?_) ?_; rotate_left; subst t; rotate_right; clear_value t) | (refine Within.cut [.regs, .core, .pat, .test] s t.2 (fun h => ?_) ?_; rotate_left; subst t; rotate_right; clear_value t) | clear_value t)
    | (with_reducible apply Within.then (h' := hbmCheck_within ..))
    | (with_reducible apply Within.ite)
    | (with_reducible apply Within.iteSnd)
    | (with_reducible apply Within.foldl)
    | (with_reducible apply Within.foldlSnd)
    | split

theorem layerRead_within (a0 a1 a2 a3 a4) (s : State) : Within [.regs, .core, .pat, .test, .q, .comp, .fresh] s (layerRead a0 a1 a2 a3 a4 s) := by
  unfold layerRead
  repeat' first
    | (with_reducible assumption)
    | (with_reducible exact Within.refl _ _)
    | (show Area.sub _ _ = true; rfl)
    | (extract_lets +onlyGivenNames t; first | (refine Within.cut [.regs, .core, .pat, .test, .q, .comp, .fresh] s t (fun h => ?_) ?_; rotate_left; subst t; rotate_right; clear_value t) | (refine Within.cut [.regs, .core, .pat, .test, .q, .comp, .fresh] s t.2 (fun h => ?_) ?_; rotate_left; subst t; rotate_right; clear_value t) | clear_value t)
    | (with_reducible apply Within.then (h' := frameLost_within ..))
    | (with_reducible apply Within.then (h' := hbmRead_within ..))
    | (with_reducible apply Within.then (h' := setHead_within ..))
    | (with_reducible apply Within.then (h' := spend_within ..))
    | (with_reducible apply Within.then (h' := storeOp_within ..))
    | (with_reducible apply Within.then (h' := surfFail_within ..))
    | (with_reducible apply Within.then (h' := surfRead_within ..))
    | (with_reducible apply Within.then (h' := touchBlock_within ..))
    | (with_reducible apply Within.ite)
    | (with_reducible apply Within.iteSnd)
    | split
    | refine Within.upd (h := ?_)

theorem composeDone_within (a0 a1 a2 a3) (s : State) : Within [.regs, .core, .pat, .test, .q, .comp, .fresh] s (composeDone a0 a1 a2 a3 s) := by
  unfold composeDone
  repeat' first
    | intro _
    | (with_reducible assumption)
    | (with_reducible exact Within.refl _ _)
    | (show Area.sub _ _ = true; rfl)
    | (extract_lets +onlyGivenNames t; first | (refine Within.cut [.regs, .core, .pat, .test, .q, .comp, .fresh] s t (fun h => ?_) ?_; rotate_left; subst t; rotate_right; clear_value t) | clear_value t)
    | (with_reducible apply Within.then (h' := layerRead_within ..))
    | (with_reducible apply Within.then (h' := setHead_within ..))
    | (with_reducible apply Within.ite)
    | (with_reducible apply Within.foldl)
    | split
    | refine Within.upd (h := ?_)

theorem gessoDone_within (a0 a1 a2 a3 a4) (s : State) : Within [.regs, .core, .pat, .test, .q, .comp] s (gessoDone a0 a1 a2 a3 a4 s) := by
  unfold gessoDone
  repeat' first
    | (with_reducible assumption)
    | (with_reducible exact Within.refl _ _)
    | (show Area.sub _ _ = true; rfl)
    | (extract_lets +onlyGivenNames t; first | (refine Within.cut [.regs, .core, .pat, .test, .q, .comp] s t (fun h => ?_) ?_; rotate_left; subst t; rotate_right; clear_value t) | (refine Within.cut [.regs, .core, .pat, .test, .q, .comp] s t.2 (fun h => ?_) ?_; rotate_left; subst t; rotate_right; clear_value t) | (have _h := fun x => (t x : State)) | (have _h := fun x y => (t x y : State)) | (have _h := fun x y z => (t x y z : State)) | clear_value t)
    | (with_reducible apply Within.then (h' := setHead_within ..))
    | (with_reducible apply Within.then (h' := surfFail_within ..))
    | (with_reducible apply Within.then (h' := surfRead_within ..))
    | (with_reducible apply Within.then (h' := touchBlock_within ..))
    | (with_reducible apply Within.ite)
    | (with_reducible apply Within.iteSnd)
    | split
    | refine Within.upd (h := ?_)

theorem scaleDone_within (a0 a1 a2 a3 a4) (s : State) : Within [.regs, .core, .pat, .test, .q, .comp, .fresh] s (scaleDone a0 a1 a2 a3 a4 s) := by
  unfold scaleDone
  repeat' first
    | (with_reducible assumption)
    | (with_reducible exact Within.refl _ _)
    | (show Area.sub _ _ = true; rfl)
    | (extract_lets +onlyGivenNames t; first | (refine Within.cut [.regs, .core, .pat, .test, .q, .comp, .fresh] s t (fun h => ?_) ?_; rotate_left; subst t; rotate_right; clear_value t) | clear_value t)
    | (with_reducible apply Within.then (h' := layerRead_within ..))
    | (with_reducible apply Within.then (h' := setHead_within ..))
    | split
    | refine Within.upd (h := ?_)

theorem headTaskDone_within (a0 a1 a2) (s : State) : Within [.regs, .core, .pat, .test, .q, .eng, .comp, .fresh] s (headTaskDone a0 a1 a2 s) := by
  unfold headTaskDone
  repeat' first
    | (with_reducible assumption)
    | (with_reducible exact Within.refl _ _)
    | (show Area.sub _ _ = true; rfl)
    | (extract_lets +onlyGivenNames t; first | (refine Within.cut [.regs, .core, .pat, .test, .q, .eng, .comp, .fresh] s t (fun h => ?_) ?_; rotate_left; subst t; rotate_right; clear_value t) | clear_value t)
    | (with_reducible apply Within.then (h' := composeDone_within ..))
    | (with_reducible apply Within.then (h' := gessoDone_within ..))
    | (with_reducible apply Within.then (h' := issue_within ..))
    | (with_reducible apply Within.then (h' := scaleDone_within ..))
    | (with_reducible apply Within.then (h' := setHead_within ..))
    | (with_reducible apply Within.ite)
    | split
    | refine Within.upd (h := ?_)

theorem taskComplete_within (a0 a1 a2 a3) (s : State) : Within [.regs, .core, .pat, .test, .q, .eng, .comp, .fresh] s (taskComplete a0 a1 a2 a3 s) := by
  unfold taskComplete
  repeat' first
    | (with_reducible assumption)
    | (with_reducible exact Within.refl _ _)
    | (show Area.sub _ _ = true; rfl)
    | (extract_lets +onlyGivenNames t; first | (refine Within.cut [.regs, .core, .pat, .test, .q, .eng, .comp, .fresh] s t (fun h => ?_) ?_; rotate_left; subst t; rotate_right; clear_value t) | clear_value t)
    | (with_reducible apply Within.then (h' := count_within ..))
    | (with_reducible apply Within.then (h' := headTaskDone_within ..))
    | (with_reducible apply Within.then (h' := pushAll_within ..))
    | (with_reducible apply Within.then (h' := setInflight_within ..))
    | (with_reducible apply Within.then (h' := setRunning_within ..))
    | (with_reducible apply Within.then (h' := slotRead_within ..))
    | (with_reducible apply Within.then (h' := slotTaskDone_within ..))
    | (with_reducible apply Within.ite)
    | split
    | refine Within.upd (h := ?_)

end Sys2Proof.Machine
end

