-- ==== Sys2Proof/Laws/WithinRefFamily.lean ====
section
/-! SUPPORT. What each operation of Machine/RefFamily.lean may change: one frame per operation. -/

namespace Sys2Proof.Machine

set_option Elab.async false
set_option linter.all false
set_option linter.tactic.unusedName false

theorem freeRun_within (a0) (s : State) : Within [.regs, .core, .pat, .ref] s (freeRun a0 s) := by
  unfold freeRun
  repeat' first
    | (with_reducible assumption)
    | (with_reducible exact Within.refl _ _)
    | (show Area.sub _ _ = true; rfl)
    | (with_reducible apply Within.then (h' := raise_within ..))
    | (with_reducible apply Within.then (h' := setPlaneState_within ..))
    | (with_reducible apply Within.ite)
    | split

theorem lockoutWrite_within (a0 a1) (s : State) : Within [.regs, .core, .pat, .ref] s (lockoutWrite a0 a1 s) := by
  unfold lockoutWrite
  repeat' first
    | (with_reducible assumption)
    | (with_reducible exact Within.refl _ _)
    | (show Area.sub _ _ = true; rfl)
    | (extract_lets +onlyGivenNames t; first | (refine Within.cut [.regs, .core, .pat, .ref] s t (fun h => ?_) ?_; rotate_left; subst t; rotate_right; clear_value t) | clear_value t)
    | (with_reducible apply Within.then (h' := freeRun_within ..))
    | (with_reducible apply Within.then (h' := plainWrite_within ..))
    | (with_reducible apply Within.then (h' := refDecide_within ..))
    | (with_reducible apply Within.then (h' := refRefresh_within ..))
    | (with_reducible apply Within.ite)
    | split

theorem planeWrite_within (a0 a1 a2) (s : State) : Within [.regs, .core, .pat, .ref] s (planeWrite a0 a1 a2 s) := by
  unfold planeWrite
  repeat' first
    | (with_reducible assumption)
    | (with_reducible exact Within.refl _ _)
    | (show Area.sub _ _ = true; rfl)
    | (extract_lets +onlyGivenNames t; first | (refine Within.cut [.regs, .core, .pat, .ref] s t (fun h => ?_) ?_; rotate_left; subst t; rotate_right; clear_value t) | clear_value t)
    | (with_reducible apply Within.then (h' := fset_within ..))
    | (with_reducible apply Within.then (h' := lockoutWrite_within ..))
    | (with_reducible apply Within.then (h' := plainWrite_within ..))
    | (with_reducible apply Within.then (h' := refreshAlm_within ..))
    | (with_reducible apply Within.then (h' := refuse_within ..))
    | (with_reducible apply Within.ite)
    | split

theorem setEntPhase_within (a0 a1 a2) (s : State) : Within [.regs] s (setEntPhase a0 a1 a2 s) := (by unfold setEntPhase; exact rsetN_within ..)

theorem fpPulse_within (a0 a1 a2 a3) (s : State) : Within [.regs, .ref] s (fpPulse a0 a1 a2 a3 s) := by
  unfold fpPulse
  repeat' first
    | intro _
    | (with_reducible assumption)
    | (with_reducible exact Within.refl _ _)
    | (show Area.sub _ _ = true; rfl)
    | (extract_lets +onlyGivenNames t; first | (refine Within.cut [.regs, .ref] s t (fun h => ?_) ?_; rotate_left; subst t; rotate_right; clear_value t) | clear_value t)
    | (with_reducible apply Within.then (h' := setEntPhase_within ..))
    | (with_reducible apply Within.then (h' := setRefPl_within ..))
    | (with_reducible apply Within.ite)
    | (with_reducible apply Within.foldl)
    | split
    | refine Within.upd (h := ?_)

theorem holdLimit_within (a0) (s : State) : Within [.regs, .core, .pat, .ref, .time] s (holdLimit a0 s) := by
  unfold holdLimit
  repeat' first
    | (with_reducible assumption)
    | (with_reducible exact Within.refl _ _)
    | (show Area.sub _ _ = true; rfl)
    | (with_reducible apply Within.then (h' := advanceTicks_within ..))
    | (with_reducible apply Within.then (h' := freeRun_within ..))
    | (with_reducible apply Within.then (h' := refRefresh_within ..))
    | (with_reducible apply Within.ite)
    | split

theorem planeLocked_within (a0) (s : State) : Within [.regs, .core, .ref] s (planeLocked a0 s) := by
  unfold planeLocked
  repeat' first
    | (with_reducible assumption)
    | (with_reducible exact Within.refl _ _)
    | (show Area.sub _ _ = true; rfl)
    | (extract_lets +onlyGivenNames t; first | (refine Within.cut [.regs, .core, .ref] s t (fun h => ?_) ?_; rotate_left; subst t; rotate_right; clear_value t) | clear_value t)
    | (with_reducible apply Within.then (h' := setPlaneState_within ..))
    | (with_reducible apply Within.then (h' := setRefPl_within ..))
    | (with_reducible apply Within.then (h' := setResid_within ..))
    | refine Within.upd (h := ?_)

theorem lockTimer_within (a0) (s : State) : Within [.regs, .core, .pat, .ref] s (lockTimer a0 s) := by
  unfold lockTimer
  repeat' first
    | (with_reducible assumption)
    | (with_reducible exact Within.refl _ _)
    | (show Area.sub _ _ = true; rfl)
    | (with_reducible apply Within.then (h' := planeLocked_within ..))
    | (with_reducible apply Within.then (h' := refDecide_within ..))
    | (with_reducible apply Within.ite)
    | split

theorem tkPhase_within (a0 a1) (s : State) : Within [.regs] s (tkPhase a0 a1 s) := by
  unfold tkPhase
  repeat' first
    | intro _
    | (with_reducible assumption)
    | (with_reducible exact Within.refl _ _)
    | (show Area.sub _ _ = true; rfl)
    | (extract_lets +onlyGivenNames t; first | (refine Within.cut [.regs] s t (fun h => ?_) ?_; rotate_left; subst t; rotate_right; clear_value t) | clear_value t)
    | (with_reducible apply Within.then (h' := setEntPhase_within ..))
    | (with_reducible apply Within.foldl)

theorem refEdge_within (a0) (s : State) : Within [.regs, .core, .pat, .ref] s (refEdge a0 s) := by
  unfold refEdge
  repeat' first
    | (with_reducible assumption)
    | (with_reducible exact Within.refl _ _)
    | (show Area.sub _ _ = true; rfl)
    | (extract_lets +onlyGivenNames t; first | (refine Within.cut [.regs, .core, .pat, .ref] s t (fun h => ?_) ?_; rotate_left; subst t; rotate_right; clear_value t) | clear_value t)
    | (with_reducible apply Within.then (h' := refFollow_within ..))
    | (with_reducible apply Within.ite)
    | split
    | refine Within.upd (h := ?_)

theorem refExpire_within (a0 a1 a2) (s : State) : Within [.regs, .core, .pat, .test, .ref] s (refExpire a0 a1 a2 s) := by
  unfold refExpire
  repeat' first
    | (with_reducible assumption)
    | (with_reducible exact Within.refl _ _)
    | (show Area.sub _ _ = true; rfl)
    | (extract_lets +onlyGivenNames t; first | (refine Within.cut [.regs, .core, .pat, .test, .ref] s t (fun h => ?_) ?_; rotate_left; subst t; rotate_right; clear_value t) | (refine Within.cut [.regs, .core, .pat, .test, .ref] s t.2 (fun h => ?_) ?_; rotate_left; subst t; rotate_right; clear_value t) | clear_value t)
    | (with_reducible apply Within.then (h' := monDraw_within ..))
    | (with_reducible apply Within.then (h' := refFollow_within ..))
    | (with_reducible apply Within.then (h' := setRefPl_within ..))
    | (with_reducible apply Within.ite)
    | (with_reducible apply Within.iteSnd)
    | split
    | refine Within.upd (h := ?_)

theorem refPulse_within (a0 a1 a2 a3) (s : State) : Within [.regs, .core, .pat, .ref] s (refPulse a0 a1 a2 a3 s) := by
  unfold refPulse
  repeat' first
    | (with_reducible assumption)
    | (with_reducible exact Within.refl _ _)
    | (show Area.sub _ _ = true; rfl)
    | (extract_lets +onlyGivenNames t; first | (refine Within.cut [.regs, .core, .pat, .ref] s t (fun h => ?_) ?_; rotate_left; subst t; rotate_right; clear_value t) | clear_value t)
    | (with_reducible apply Within.then (h' := fpPulse_within ..))
    | (with_reducible apply Within.then (h' := refFollow_within ..))
    | (with_reducible apply Within.then (h' := setFiltered_within ..))
    | (with_reducible apply Within.ite)
    | split

theorem residZero_within (a0) (s : State) : Within [.regs, .core, .pat, .ref, .time] s (residZero a0 s) := by
  unfold residZero
  repeat' first
    | (with_reducible assumption)
    | (with_reducible exact Within.refl _ _)
    | (show Area.sub _ _ = true; rfl)
    | (with_reducible apply Within.then (h' := advanceTicks_within ..))
    | (with_reducible apply Within.then (h' := planeLocked_within ..))
    | (with_reducible apply Within.then (h' := refDecide_within ..))
    | (with_reducible apply Within.then (h' := setResid_within ..))
    | (with_reducible apply Within.ite)
    | split

theorem sdiPhase_within (a0 a1 a2) (s : State) : Within [.regs] s (sdiPhase a0 a1 a2 s) := by
  unfold sdiPhase
  repeat' first
    | intro _
    | (with_reducible assumption)
    | (with_reducible exact Within.refl _ _)
    | (show Area.sub _ _ = true; rfl)
    | (with_reducible apply Within.then (h' := setEntPhase_within ..))
    | (with_reducible apply Within.foldl)

theorem setRefWin_within (a0 a1) (s : State) : Within [.ref] s (setRefWin a0 a1 s) := by
  unfold setRefWin
  repeat' first
    | (with_reducible assumption)
    | (with_reducible exact Within.refl _ _)
    | (show Area.sub _ _ = true; rfl)
    | (extract_lets +onlyGivenNames t; first | (refine Within.cut [.ref] s t (fun h => ?_) ?_; rotate_left; subst t; rotate_right; clear_value t) | clear_value t)
    | (with_reducible apply Within.ite)
    | split
    | refine Within.upd (h := ?_)

theorem xoWindow_within (a0) (s : State) : Within [.regs, .core, .pat, .ref] s (xoWindow a0 s) := by
  unfold xoWindow
  repeat' first
    | (with_reducible assumption)
    | (with_reducible exact Within.refl _ _)
    | (show Area.sub _ _ = true; rfl)
    | (extract_lets +onlyGivenNames t; first | (refine Within.cut [.regs, .core, .pat, .ref] s t (fun h => ?_) ?_; rotate_left; subst t; rotate_right; clear_value t) | clear_value t)
    | (with_reducible apply Within.then (h' := setXoFail_within ..))
    | (with_reducible apply Within.ite)
    | split
    | refine Within.upd (h := ?_)

theorem windowsAt_within (a0 a1 a2 a3) (s : State) : Within [.regs, .core, .pat, .ref, .time] s (windowsAt a0 a1 a2 a3 s) := by
  unfold windowsAt
  repeat' first
    | intro _
    | (with_reducible assumption)
    | (with_reducible exact Within.refl _ _)
    | (show Area.sub _ _ = true; rfl)
    | (extract_lets +onlyGivenNames t; first | (refine Within.cut [.regs, .core, .pat, .ref, .time] s t (fun h => ?_) ?_; rotate_left; subst t; rotate_right; clear_value t) | clear_value t)
    | (with_reducible apply Within.then (h' := advanceTicks_within ..))
    | (with_reducible apply Within.then (h' := cycleBegin_within ..))
    | (with_reducible apply Within.then (h' := cycleEnd_within ..))
    | (with_reducible apply Within.then (h' := planeWindow_within ..))
    | (with_reducible apply Within.then (h' := refDecide_within ..))
    | (with_reducible apply Within.then (h' := refRefresh_within ..))
    | (with_reducible apply Within.then (h' := setRefWin_within ..))
    | (with_reducible apply Within.then (h' := xoWindow_within ..))
    | (with_reducible apply Within.ite)
    | (with_reducible apply Within.foldl)
    | split

theorem windowEnd_within (a0 a1 a2 a3 a4) (s : State) : Within [.regs, .core, .pat, .test, .ref, .time] s (windowEnd a0 a1 a2 a3 a4 s) := by
  unfold windowEnd
  repeat' first
    | (with_reducible assumption)
    | (with_reducible exact Within.refl _ _)
    | (show Area.sub _ _ = true; rfl)
    | (extract_lets +onlyGivenNames t; first | (refine Within.cut [.regs, .core, .pat, .test, .ref, .time] s t (fun h => ?_) ?_; rotate_left; subst t; rotate_right; clear_value t) | (refine Within.cut [.regs, .core, .pat, .test, .ref, .time] s t.2 (fun h => ?_) ?_; rotate_left; subst t; rotate_right; clear_value t) | clear_value t)
    | (with_reducible apply Within.then (h' := monDraw_within ..))
    | (with_reducible apply Within.then (h' := windowsAt_within ..))
    | (with_reducible apply Within.ite)
    | (with_reducible apply Within.iteSnd)
    | split

end Sys2Proof.Machine
end

