-- ==== Sys2Proof/Laws/WithinPairFamily.lean ====
section
/-! SUPPORT. What each operation of Machine/PairFamily.lean may change: one frame per operation. -/

namespace Sys2Proof.Machine

set_option Elab.async false
set_option linter.all false
set_option linter.tactic.unusedName false

theorem mirroredEffect_within (a0 a1 a2) (s : State) : Within [.regs, .core, .pat, .xp, .vl, .eng, .comp, .flow, .aud, .ref] s (mirroredEffect a0 a1 a2 s) := by
  unfold mirroredEffect
  repeat' first
    | (with_reducible assumption)
    | (with_reducible exact Within.refl _ _)
    | (show Area.sub _ _ = true; rfl)
    | (with_reducible apply Within.then (h' := audWrite_within ..))
    | (with_reducible apply Within.then (h' := compWrite_within ..))
    | (with_reducible apply Within.then (h' := engWrite_within ..))
    | (with_reducible apply Within.then (h' := flowWrite_within ..))
    | (with_reducible apply Within.then (h' := planeWrite_within ..))
    | (with_reducible apply Within.then (h' := sapWrite_within ..))
    | (with_reducible apply Within.then (h' := vlaneWrite_within ..))
    | (with_reducible apply Within.then (h' := xpWrite_within ..))
    | split

theorem stallsEnd_within (s t : State) : Within [.regs, .mac] t (stallsEnd s t) := by
  unfold stallsEnd
  refine Within.foldl (Within.refl _ _) (fun u x h => ?_)
  split
  · exact h
  · exact h.then (txStart_within ..) rfl

theorem leaveTestRun_within (s : State) : Within [.regs, .core, .pat, .test, .mac] s (leaveTestRun s) := by
  unfold leaveTestRun
  repeat' first
    | (with_reducible assumption)
    | (with_reducible exact Within.refl _ _)
    | (show Area.sub _ _ = true; rfl)
    | (with_reducible apply Within.then (h' := leaveTest_within ..))
    | (with_reducible apply Within.then (h' := stallsEnd_within ..))

theorem pairStat_within (a0 a1) (s : State) : Within [.regs] s (pairStat a0 a1 s) := (by unfold pairStat; exact fset_within ..)

theorem pairConds_within (s : State) : Within [.regs, .pat] s (pairConds s) := by
  unfold pairConds
  repeat' first
    | (with_reducible assumption)
    | (with_reducible exact Within.refl _ _)
    | (show Area.sub _ _ = true; rfl)
    | (extract_lets +onlyGivenNames t; first | (refine Within.cut [.regs, .pat] s t (fun h => ?_) ?_; rotate_left; subst t; rotate_right; clear_value t) | clear_value t)
    | (with_reducible apply Within.then (h' := condEnd_within ..))
    | (with_reducible apply Within.then (h' := pairStat_within ..))
    | split

theorem refreshSolo_within (s : State) : Within [.regs] s (refreshSolo s) := (by unfold refreshSolo; exact pairStat_within ..)

theorem setLink_within (a0) (s : State) : Within [.regs, .core, .pat, .pair] s (setLink a0 s) := by
  unfold setLink
  repeat' first
    | (with_reducible assumption)
    | (with_reducible exact Within.refl _ _)
    | (show Area.sub _ _ = true; rfl)
    | (extract_lets +onlyGivenNames t; first | (refine Within.cut [.regs, .core, .pat, .pair] s t (fun h => ?_) ?_; rotate_left; subst t; rotate_right; clear_value t) | clear_value t)
    | (with_reducible apply Within.then (h' := condEnd_within ..))
    | (with_reducible apply Within.then (h' := count_within ..))
    | (with_reducible apply Within.then (h' := pairConds_within ..))
    | (with_reducible apply Within.then (h' := pairStat_within ..))
    | (with_reducible apply Within.then (h' := raise_within ..))
    | (with_reducible apply Within.then (h' := refreshHealth_within ..))
    | (with_reducible apply Within.then (h' := refreshSolo_within ..))
    | (with_reducible apply Within.ite)
    | split
    | refine Within.upd (h := ?_)

theorem pairEnabled_within (a0) (s : State) : Within [.regs, .core, .pat, .test, .xp, .aud, .mac, .pair] s (pairEnabled a0 s) := by
  unfold pairEnabled
  repeat' first
    | (with_reducible assumption)
    | (with_reducible exact Within.refl _ _)
    | (show Area.sub _ _ = true; rfl)
    | (extract_lets +onlyGivenNames t; first | (refine Within.cut [.regs, .core, .pat, .test, .xp, .aud, .mac, .pair] s t (fun h => ?_) ?_; rotate_left; subst t; rotate_right; clear_value t) | clear_value t)
    | (with_reducible apply Within.then (h' := clearPert_within ..))
    | (with_reducible apply Within.then (h' := fset_within ..))
    | (with_reducible apply Within.then (h' := leaveTestRun_within ..))
    | (with_reducible apply Within.then (h' := pairConds_within ..))
    | (with_reducible apply Within.then (h' := refreshHealth_within ..))
    | (with_reducible apply Within.then (h' := setLink_within ..))
    | (with_reducible apply Within.then (h' := stallsEnd_within ..))
    | (with_reducible apply Within.ite)
    | split
    | refine Within.upd (h := ?_)

theorem pairWrite_within (a0 a1) (s : State) : Within [.regs, .core, .pat, .test, .xp, .aud, .mac, .pair] s (pairWrite a0 a1 s) := by
  unfold pairWrite
  repeat' first
    | (with_reducible assumption)
    | (with_reducible exact Within.refl _ _)
    | (show Area.sub _ _ = true; rfl)
    | (extract_lets +onlyGivenNames t; first | (refine Within.cut [.regs, .core, .pat, .test, .xp, .aud, .mac, .pair] s t (fun h => ?_) ?_; rotate_left; subst t; rotate_right; clear_value t) | clear_value t)
    | (with_reducible apply Within.then (h' := pairEnabled_within ..))
    | (with_reducible apply Within.then (h' := plainWrite_within ..))
    | (with_reducible apply Within.then (h' := refreshHealth_within ..))
    | (with_reducible apply Within.then (h' := rsetN_within ..))
    | (with_reducible apply Within.ite)
    | split
    | refine Within.upd (h := ?_)

theorem ackMsg_within (a0) (s : State) : Within [.xp] s (ackMsg a0 s) := by
  unfold ackMsg
  repeat' first
    | (with_reducible assumption)
    | (with_reducible exact Within.refl _ _)
    | (show Area.sub _ _ = true; rfl)
    | (extract_lets +onlyGivenNames t; first | (refine Within.cut [.xp] s t (fun h => ?_) ?_; rotate_left; subst t; rotate_right; clear_value t) | clear_value t)
    | (with_reducible apply Within.ite)
    | split
    | refine Within.upd (h := ?_)

theorem roleChange_within (a0) (s : State) : Within [.regs, .core, .life, .pat, .test, .xp, .aud, .mac, .pair] s (roleChange a0 s) := by
  unfold roleChange
  repeat' first
    | (with_reducible assumption)
    | (with_reducible exact Within.refl _ _)
    | (show Area.sub _ _ = true; rfl)
    | (extract_lets +onlyGivenNames t; first | (refine Within.cut [.regs, .core, .life, .pat, .test, .xp, .aud, .mac, .pair] s t (fun h => ?_) ?_; rotate_left; subst t; rotate_right; clear_value t) | clear_value t)
    | (with_reducible apply Within.then (h' := audRefuseUnforwarded_within ..))
    | (with_reducible apply Within.then (h' := count_within ..))
    | (with_reducible apply Within.then (h' := leaveTestRun_within ..))
    | (with_reducible apply Within.then (h' := lifeAdd_within ..))
    | (with_reducible apply Within.then (h' := logEvent_within ..))
    | (with_reducible apply Within.then (h' := pairConds_within ..))
    | (with_reducible apply Within.then (h' := refreshPins_within ..))
    | (with_reducible apply Within.then (h' := refreshSolo_within ..))
    | (with_reducible apply Within.then (h' := refuseUnforwarded_within ..))
    | (with_reducible apply Within.then (h' := setLink_within ..))
    | (with_reducible apply Within.then (h' := setMode_within ..))
    | (with_reducible apply Within.ite)
    | split

theorem arbRole_within (a0) (s : State) : Within [.regs, .core, .life, .pat, .test, .xp, .aud, .mac, .pair] s (arbRole a0 s) := by
  unfold arbRole
  repeat' first
    | (with_reducible assumption)
    | (with_reducible exact Within.refl _ _)
    | (show Area.sub _ _ = true; rfl)
    | (extract_lets +onlyGivenNames t; first | (refine Within.cut [.regs, .core, .life, .pat, .test, .xp, .aud, .mac, .pair] s t (fun h => ?_) ?_; rotate_left; subst t; rotate_right; clear_value t) | clear_value t)
    | (with_reducible apply Within.then (h' := pairStat_within ..))
    | (with_reducible apply Within.then (h' := roleChange_within ..))
    | (with_reducible apply Within.then (h' := setFiltered_within ..))
    | (with_reducible apply Within.ite)
    | split

theorem copySend_within (s : State) : Within [.pair] s (copySend s) := by
  unfold copySend
  repeat' first
    | (with_reducible assumption)
    | (with_reducible exact Within.refl _ _)
    | (show Area.sub _ _ = true; rfl)
    | (extract_lets +onlyGivenNames t; first | (refine Within.cut [.pair] s t (fun h => ?_) ?_; rotate_left; subst t; rotate_right; clear_value t) | clear_value t)
    | (with_reducible apply Within.then (h' := mirrorSend_within ..))
    | (with_reducible apply Within.ite)
    | split
    | refine Within.upd (h := ?_)

theorem takeLate_within (s : State) : Within [.regs, .core, .pat] s (takeLate s) := by
  unfold takeLate
  repeat' first
    | (with_reducible assumption)
    | (with_reducible exact Within.refl _ _)
    | (show Area.sub _ _ = true; rfl)
    | (with_reducible apply Within.then (h' := count_within ..))
    | (with_reducible apply Within.then (h' := raise_within ..))

theorem batchDone_within (a0) (s : State) : Within [.regs, .core, .pat, .xp, .pair] s (batchDone a0 s) := by
  unfold batchDone
  repeat' first
    | intro _
    | (with_reducible assumption)
    | (with_reducible exact Within.refl _ _)
    | (show Area.sub _ _ = true; rfl)
    | (extract_lets +onlyGivenNames t; first | (refine Within.cut [.regs, .core, .pat, .xp, .pair] s t (fun h => ?_) ?_; rotate_left; subst t; rotate_right; clear_value t) | clear_value t)
    | (with_reducible apply Within.then (h' := batchRecord_within ..))
    | (with_reducible apply Within.then (h' := copySend_within ..))
    | (with_reducible apply Within.then (h' := takeLate_within ..))
    | (with_reducible apply Within.ite)
    | (with_reducible apply Within.foldl)
    | split
    | refine Within.upd (h := ?_)

theorem beat_within (a0) (s : State) : Within [.regs, .core, .pat] s (beat a0 s) := by
  unfold beat
  repeat' first
    | (with_reducible assumption)
    | (with_reducible exact Within.refl _ _)
    | (show Area.sub _ _ = true; rfl)
    | (extract_lets +onlyGivenNames t; first | (refine Within.cut [.regs, .core, .pat] s t (fun h => ?_) ?_; rotate_left; subst t; rotate_right; clear_value t) | clear_value t)
    | (with_reducible apply Within.then (h' := condBegin_within ..))
    | (with_reducible apply Within.then (h' := emit_within ..))
    | (with_reducible apply Within.then (h' := pairStat_within ..))
    | (with_reducible apply Within.then (h' := refreshHealth_within ..))
    | (with_reducible apply Within.ite)
    | split
    | refine Within.upd (h := ?_)

theorem copyRoutes_within (a0 a1) (s : State) : Within [.regs] s (copyRoutes a0 a1 s) := by
  unfold copyRoutes
  repeat' first
    | intro _
    | (with_reducible assumption)
    | (with_reducible exact Within.refl _ _)
    | (show Area.sub _ _ = true; rfl)
    | (extract_lets +onlyGivenNames t; first | (refine Within.cut [.regs] s t (fun h => ?_) ?_; rotate_left; subst t; rotate_right; clear_value t) | clear_value t)
    | (with_reducible apply Within.then (h' := loadPend_within ..))
    | (with_reducible apply Within.ite)
    | (with_reducible apply Within.foldl)
    | split

theorem copyState_within (a0) (s : State) : Within [.regs, .core, .pat, .xp, .vl, .eng, .comp, .flow, .aud, .ref] s (copyState a0 s) := by
  unfold copyState
  repeat' first
    | intro _
    | (with_reducible assumption)
    | (with_reducible exact Within.refl _ _)
    | (show Area.sub _ _ = true; rfl)
    | (extract_lets +onlyGivenNames t; first | (refine Within.cut [.regs, .core, .pat, .xp, .vl, .eng, .comp, .flow, .aud, .ref] s t (fun h => ?_) ?_; rotate_left; subst t; rotate_right; clear_value t) | clear_value t)
    | (with_reducible apply Within.then (h' := audTake_within ..))
    | (with_reducible apply Within.then (h' := fset_within ..))
    | (with_reducible apply Within.then (h' := lStat_within ..))
    | (with_reducible apply Within.then (h' := mirroredEffect_within ..))
    | (with_reducible apply Within.then (h' := mixWrite_within ..))
    | (with_reducible apply Within.then (h' := refreshHeld_within ..))
    | (with_reducible apply Within.then (h' := rsetN_within ..))
    | (with_reducible apply Within.then (h' := setLayer_within ..))
    | (with_reducible apply Within.then (h' := setTx_within ..))
    | (with_reducible apply Within.ite)
    | (with_reducible apply Within.foldl)
    | split
    | refine Within.upd (h := ?_)

theorem copyApply_within (a0) (s : State) : Within [.regs, .core, .pat, .xp, .vl, .eng, .comp, .flow, .aud, .ref, .pair] s (copyApply a0 s) := by
  unfold copyApply
  repeat' first
    | (with_reducible assumption)
    | (with_reducible exact Within.refl _ _)
    | (show Area.sub _ _ = true; rfl)
    | (extract_lets +onlyGivenNames t; first | (refine Within.cut [.regs, .core, .pat, .xp, .vl, .eng, .comp, .flow, .aud, .ref, .pair] s t (fun h => ?_) ?_; rotate_left; subst t; rotate_right; clear_value t) | clear_value t)
    | (with_reducible apply Within.then (h' := copyRoutes_within ..))
    | (with_reducible apply Within.then (h' := copyState_within ..))
    | (with_reducible apply Within.then (h' := setLink_within ..))
    | (with_reducible apply Within.ite)
    | split
    | refine Within.upd (h := ?_)

theorem copyMsg_within (a0) (s : State) : Within [.pair] s (copyMsg a0 s) := by
  unfold copyMsg
  repeat' first
    | (with_reducible assumption)
    | (with_reducible exact Within.refl _ _)
    | (show Area.sub _ _ = true; rfl)
    | (extract_lets +onlyGivenNames t; first | (refine Within.cut [.pair] s t (fun h => ?_) ?_; rotate_left; subst t; rotate_right; clear_value t) | clear_value t)
    | (with_reducible apply Within.ite)
    | split
    | refine Within.upd (h := ?_)

theorem doneMsg_within (a0 a1 a2) (s : State) : Within [.regs, .core, .pat, .pair] s (doneMsg a0 a1 a2 s) := by
  unfold doneMsg
  repeat' first
    | intro _
    | (with_reducible assumption)
    | (with_reducible exact Within.refl _ _)
    | (show Area.sub _ _ = true; rfl)
    | (extract_lets +onlyGivenNames t; first | (refine Within.cut [.regs, .core, .pat, .pair] s t (fun h => ?_) ?_; rotate_left; subst t; rotate_right; clear_value t) | clear_value t)
    | (with_reducible apply Within.then (h' := takeLate_within ..))
    | (with_reducible apply Within.ite)
    | (with_reducible apply Within.foldl)
    | split
    | refine Within.upd (h := ?_)

theorem healthMsg_within (a0 a1 a2 a3) (s : State) : Within [.regs, .core, .pat, .pair] s (healthMsg a0 a1 a2 a3 s) := by
  unfold healthMsg
  repeat' first
    | (with_reducible assumption)
    | (with_reducible exact Within.refl _ _)
    | (show Area.sub _ _ = true; rfl)
    | (extract_lets +onlyGivenNames t; first | (refine Within.cut [.regs, .core, .pat, .pair] s t (fun h => ?_) ?_; rotate_left; subst t; rotate_right; clear_value t) | clear_value t)
    | (with_reducible apply Within.then (h' := condEnd_within ..))
    | (with_reducible apply Within.then (h' := condSet_within ..))
    | (with_reducible apply Within.then (h' := pairStat_within ..))
    | (with_reducible apply Within.then (h' := setLink_within ..))
    | (with_reducible apply Within.ite)
    | split
    | refine Within.upd (h := ?_)

theorem healthSend_within (s : State) : Within [.pair] s (healthSend s) := by
  unfold healthSend
  repeat' first
    | (with_reducible assumption)
    | (with_reducible exact Within.refl _ _)
    | (show Area.sub _ _ = true; rfl)
    | (with_reducible apply Within.then (h' := mirrorSend_within ..))
    | (with_reducible apply Within.ite)
    | split

theorem journalAudio_within (a0 a1 a2 a3) (s : State) : Within [.regs, .aud, .pair] s (journalAudio a0 a1 a2 a3 s) := by
  unfold journalAudio
  repeat' first
    | intro _
    | (with_reducible assumption)
    | (with_reducible exact Within.refl _ _)
    | (show Area.sub _ _ = true; rfl)
    | (extract_lets +onlyGivenNames t; first | (refine Within.cut [.regs, .aud, .pair] s t (fun h => ?_) ?_; rotate_left; subst t; rotate_right; clear_value t) | clear_value t)
    | (with_reducible apply Within.then (h' := audAbsorb_within ..))
    | (with_reducible apply Within.then (h' := audFree_within ..))
    | (with_reducible apply Within.then (h' := fset_within ..))
    | (with_reducible apply Within.then (h' := rsetN_within ..))
    | (with_reducible apply Within.foldl)
    | split
    | refine Within.upd (h := ?_)

theorem journalSalvo_within (a0 a1 a2 a3) (s : State) : Within [.regs, .xp, .pair] s (journalSalvo a0 a1 a2 a3 s) := by
  unfold journalSalvo
  repeat' first
    | intro _
    | (with_reducible assumption)
    | (with_reducible exact Within.refl _ _)
    | (show Area.sub _ _ = true; rfl)
    | (extract_lets +onlyGivenNames t; first | (refine Within.cut [.regs, .xp, .pair] s t (fun h => ?_) ?_; rotate_left; subst t; rotate_right; clear_value t) | clear_value t)
    | (with_reducible apply Within.then (h' := absorbAbandoned_within ..))
    | (with_reducible apply Within.then (h' := fset_within ..))
    | (with_reducible apply Within.then (h' := rsetN_within ..))
    | (with_reducible apply Within.then (h' := takeFree_within ..))
    | (with_reducible apply Within.foldl)
    | split
    | refine Within.upd (h := ?_)

theorem journalMsg_within (a0 a1 a2 a3) (s : State) : Within [.regs, .xp, .aud, .pair] s (journalMsg a0 a1 a2 a3 s) := by
  unfold journalMsg
  repeat' first
    | (with_reducible assumption)
    | (with_reducible exact Within.refl _ _)
    | (show Area.sub _ _ = true; rfl)
    | (extract_lets +onlyGivenNames t; first | (refine Within.cut [.regs, .xp, .aud, .pair] s t (fun h => ?_) ?_; rotate_left; subst t; rotate_right; clear_value t) | (have _h := fun x => (t x : State)) | (have _h := fun x y => (t x y : State)) | (have _h := fun x y z => (t x y z : State)) | clear_value t)
    | (with_reducible apply Within.then (h' := journalAudio_within ..))
    | (with_reducible apply Within.then (h' := journalSalvo_within ..))
    | (with_reducible apply Within.ite)
    | split
    | refine Within.upd (h := ?_)

theorem marginDwell_within (a0 a1) (s : State) : Within [.regs, .core, .pat, .pair] s (marginDwell a0 a1 s) := by
  unfold marginDwell
  repeat' first
    | (with_reducible assumption)
    | (with_reducible exact Within.refl _ _)
    | (show Area.sub _ _ = true; rfl)
    | (extract_lets +onlyGivenNames t; first | (refine Within.cut [.regs, .core, .pat, .pair] s t (fun h => ?_) ?_; rotate_left; subst t; rotate_right; clear_value t) | clear_value t)
    | (with_reducible apply Within.then (h' := fset_within ..))
    | (with_reducible apply Within.then (h' := raise_within ..))
    | (with_reducible apply Within.ite)
    | split
    | refine Within.upd (h := ?_)

theorem measureRtt_within (a0) (s : State) : Within [.regs, .pair] s (measureRtt a0 s) := by
  unfold measureRtt
  repeat' first
    | (with_reducible assumption)
    | (with_reducible exact Within.refl _ _)
    | (show Area.sub _ _ = true; rfl)
    | (extract_lets +onlyGivenNames t; first | (refine Within.cut [.regs, .pair] s t (fun h => ?_) ?_; rotate_left; subst t; rotate_right; clear_value t) | clear_value t)
    | (with_reducible apply Within.then (h' := rsetN_within ..))
    | refine Within.upd (h := ?_)

theorem markerMsg_within (a0 a1 a2 a3 a4) (s : State) : Within [.regs, .core, .pat, .pair] s (markerMsg a0 a1 a2 a3 a4 s) := by
  unfold markerMsg
  repeat' first
    | (with_reducible assumption)
    | (with_reducible exact Within.refl _ _)
    | (show Area.sub _ _ = true; rfl)
    | (extract_lets +onlyGivenNames t; first | (refine Within.cut [.regs, .core, .pat, .pair] s t (fun h => ?_) ?_; rotate_left; subst t; rotate_right; clear_value t) | clear_value t)
    | (with_reducible apply Within.then (h' := measureRtt_within ..))
    | (with_reducible apply Within.then (h' := raise_within ..))
    | (with_reducible apply Within.then (h' := refreshHealth_within ..))
    | (with_reducible apply Within.then (h' := rset64_within ..))
    | (with_reducible apply Within.then (h' := rsetN_within ..))
    | (with_reducible apply Within.ite)
    | split
    | refine Within.upd (h := ?_)

theorem mirrorRecv_within {w : List Area} {ack : Nat} {eff : State → State} {s u : State}
    (hb : Area.sub [.regs, .core, .pat, .test, .pair] w = true) (hu : Within w s u)
    (h : ∀ t, Within w s t → Within w s (eff t)) : Within w s (mirrorRecv ack eff u) := by
  have hr : Within w s (checkFails 7 0 false u).2 :=
    hu.then ((checkFails_within ..).mono (w := [.regs, .core, .pat, .test, .pair]) rfl) hb
  unfold mirrorRecv
  split
  · exact hu
  · simp only []
    split
    · exact hr
    · refine h _ (hr.then (v := [.regs, .core, .pat, .test, .pair]) ?_ hb)
      exact Within.upd (h := (emit_within ..).mono rfl)

theorem sigAudio_within (a0) (s : State) : Within [.aud] s (sigAudio a0 s) := by
  unfold sigAudio
  repeat' first
    | (with_reducible assumption)
    | (with_reducible exact Within.refl _ _)
    | (show Area.sub _ _ = true; rfl)
    | (extract_lets +onlyGivenNames t; first | (refine Within.cut [.aud] s t (fun h => ?_) ?_; rotate_left; subst t; rotate_right; clear_value t) | clear_value t)
    | (with_reducible apply Within.then (h' := sigSample_within ..))
    | (with_reducible apply Within.ite)
    | split
    | refine Within.upd (h := ?_)

theorem presentWrite_within (s : State) : Within [.regs, .core, .pat, .xp, .vl, .eng, .comp, .flow, .aud, .ref, .pair] s (presentWrite s) := by
  unfold presentWrite
  repeat' first
    | (with_reducible assumption)
    | (with_reducible exact Within.refl _ _)
    | (show Area.sub _ _ = true; rfl)
    | (extract_lets +onlyGivenNames t; first | (refine Within.cut [.regs, .core, .pat, .xp, .vl, .eng, .comp, .flow, .aud, .ref, .pair] s t (fun h => ?_) ?_; rotate_left; subst t; rotate_right; clear_value t) | clear_value t)
    | (with_reducible apply Within.then (h' := mirroredEffect_within ..))
    | (with_reducible apply Within.then (h' := takeLate_within ..))
    | (with_reducible apply Within.ite)
    | split
    | refine Within.upd (h := ?_)

theorem sigCompare_within (a0 a1 a2) (s : State) : Within [.regs, .core, .pat, .pair] s (sigCompare a0 a1 a2 s) := by
  unfold sigCompare
  repeat' first
    | (with_reducible assumption)
    | (with_reducible exact Within.refl _ _)
    | (show Area.sub _ _ = true; rfl)
    | (extract_lets +onlyGivenNames t; first | (refine Within.cut [.regs, .core, .pat, .pair] s t (fun h => ?_) ?_; rotate_left; subst t; rotate_right; clear_value t) | clear_value t)
    | (with_reducible apply Within.then (h' := count_within ..))
    | (with_reducible apply Within.then (h' := fset_within ..))
    | (with_reducible apply Within.then (h' := raise_within ..))
    | (with_reducible apply Within.ite)
    | split
    | refine Within.upd (h := ?_)

theorem sigMatch_within (a0 a1) (s : State) : Within [.regs, .core, .pat, .pair] s (sigMatch a0 a1 s) := by
  unfold sigMatch
  repeat' first
    | intro _
    | (with_reducible assumption)
    | (with_reducible exact Within.refl _ _)
    | (show Area.sub _ _ = true; rfl)
    | (extract_lets +onlyGivenNames t; first | (refine Within.cut [.regs, .core, .pat, .pair] s t (fun h => ?_) ?_; rotate_left; subst t; rotate_right; clear_value t) | (have _h := fun x => (t x : State)) | (have _h := fun x y => (t x y : State)) | (have _h := fun x y z => (t x y z : State)) | clear_value t)
    | (with_reducible apply Within.then (h' := refreshHealth_within ..))
    | (with_reducible apply Within.then (h' := sigCompare_within ..))
    | (with_reducible apply Within.ite)
    | (with_reducible apply Within.foldl)
    | split
    | refine Within.upd (h := ?_)

theorem sigClose_within (a0) (s : State) : Within [.regs, .core, .pat, .xp, .pair] s (sigClose a0 s) := by
  unfold sigClose
  repeat' first
    | (with_reducible assumption)
    | (with_reducible exact Within.refl _ _)
    | (show Area.sub _ _ = true; rfl)
    | (extract_lets +onlyGivenNames t; first | (refine Within.cut [.regs, .core, .pat, .xp, .pair] s t (fun h => ?_) ?_; rotate_left; subst t; rotate_right; clear_value t) | (have _h := fun x => (t x : State)) | (have _h := fun x y => (t x y : State)) | (have _h := fun x y z => (t x y z : State)) | clear_value t)
    | (with_reducible apply Within.then (h' := countN_within ..))
    | (with_reducible apply Within.then (h' := mirrorSend_within ..))
    | (with_reducible apply Within.then (h' := refreshHealth_within ..))
    | (with_reducible apply Within.then (h' := sigMatch_within ..))
    | (with_reducible apply Within.ite)
    | split
    | refine Within.upd (h := ?_)

theorem sigMsg_within (a0 a1 a2) (s : State) : Within [.regs, .core, .pat, .pair] s (sigMsg a0 a1 a2 s) := by
  unfold sigMsg
  repeat' first
    | (with_reducible assumption)
    | (with_reducible exact Within.refl _ _)
    | (show Area.sub _ _ = true; rfl)
    | (extract_lets +onlyGivenNames t; first | (refine Within.cut [.regs, .core, .pat, .pair] s t (fun h => ?_) ?_; rotate_left; subst t; rotate_right; clear_value t) | clear_value t)
    | (with_reducible apply Within.then (h' := sigMatch_within ..))
    | (with_reducible apply Within.ite)
    | split
    | refine Within.upd (h := ?_)

theorem switchWin_within (a0) (s : State) : Within [.core] s (switchWin a0 s) := by
  unfold switchWin
  repeat' first
    | (with_reducible assumption)
    | (with_reducible exact Within.refl _ _)
    | (show Area.sub _ _ = true; rfl)
    | (extract_lets +onlyGivenNames t; first | (refine Within.cut [.core] s t (fun h => ?_) ?_; rotate_left; subst t; rotate_right; clear_value t) | clear_value t)
    | (with_reducible apply Within.then (h' := emit_within ..))
    | (with_reducible apply Within.ite)
    | split
    | refine Within.upd (h := ?_)

theorem tkSkew_within (a0 a1 a2) (s : State) : Within [.regs, .core, .pat] s (tkSkew a0 a1 a2 s) := by
  unfold tkSkew
  repeat' first
    | (with_reducible assumption)
    | (with_reducible exact Within.refl _ _)
    | (show Area.sub _ _ = true; rfl)
    | (extract_lets +onlyGivenNames t; first | (refine Within.cut [.regs, .core, .pat] s t (fun h => ?_) ?_; rotate_left; subst t; rotate_right; clear_value t) | clear_value t)
    | (with_reducible apply Within.then (h' := raise_within ..))
    | (with_reducible apply Within.then (h' := rsetN_within ..))
    | (with_reducible apply Within.ite)
    | split

theorem timeMarker_within (ack a b : Nat) (lockA lockB : Bool) (s : State) : Within [.regs, .core, .pat, .test, .pair] s (timeMarker ack a b lockA lockB s) := by
  unfold timeMarker
  split
  · exact .refl _ _
  · split
    · exact (mirrorSend_within ..).mono rfl
    · refine mirrorRecv_within rfl (.refl _ _) (fun t ht => ?_)
      exact (ht.then (tkSkew_within ..) rfl).then (tkSkew_within ..) rfl

end Sys2Proof.Machine
end

