-- ==== Sys2Proof/Laws/WithinSwitchPoint.lean ====
section
/-! SUPPORT. What each operation of Machine/SwitchPoint.lean may change: one frame per operation. -/

namespace Sys2Proof.Machine

set_option Elab.async false
set_option linter.all false
set_option linter.tactic.unusedName false

theorem framePulse_within (a0 a1) (s : State) : Within [.core] s (framePulse a0 a1 s) := by
  unfold framePulse
  repeat' first
    | intro _
    | (with_reducible assumption)
    | (with_reducible exact Within.refl _ _)
    | (show Area.sub _ _ = true; rfl)
    | (extract_lets +onlyGivenNames t; first | (refine Within.cut [.core] s t (fun h => ?_) ?_; rotate_left; subst t; rotate_right; clear_value t) | clear_value t)
    | (with_reducible apply Within.then (h' := emit_within ..))
    | (with_reducible apply Within.then (h' := setTpoPin_within ..))
    | (with_reducible apply Within.ite)
    | (with_reducible apply Within.foldl)
    | split
    | refine Within.upd (h := ?_)

theorem castBlack_within (a0) (s : State) : Within [.xp, .vl] s (castBlack a0 s) := by
  unfold castBlack
  repeat' first
    | intro _
    | (with_reducible assumption)
    | (with_reducible exact Within.refl _ _)
    | (show Area.sub _ _ = true; rfl)
    | (extract_lets +onlyGivenNames t; first | (refine Within.cut [.xp, .vl] s t (fun h => ?_) ?_; rotate_left; subst t; rotate_right; clear_value t) | clear_value t)
    | (with_reducible apply Within.then (h' := emit_within ..))
    | (with_reducible apply Within.then (h' := headLink_within ..))
    | (with_reducible apply Within.then (h' := setDest_within ..))
    | (with_reducible apply Within.then (h' := setLane_within ..))
    | (with_reducible apply Within.ite)
    | (with_reducible apply Within.foldl)
    | split
    | refine Within.upd (h := ?_)

theorem fcAdvance_within (a0) (s : State) : Within [.regs] s (fcAdvance a0 s) := (by unfold fcAdvance; exact rset64_within ..)

theorem markerSend_within (a0) (s : State) : Within [.pair] s (markerSend a0 s) := by
  unfold markerSend
  repeat' first
    | (with_reducible assumption)
    | (with_reducible exact Within.refl _ _)
    | (show Area.sub _ _ = true; rfl)
    | (with_reducible apply Within.then (h' := mirrorSend_within ..))
    | (with_reducible apply Within.ite)
    | split

theorem switchSettings_within (a0) (s : State) : Within [.regs, .core, .pat, .test, .xp, .vl, .q, .eng, .comp, .flow, .aud, .ref, .pair, .fresh] s (switchSettings a0 s) := by
  unfold switchSettings
  repeat' first
    | intro _
    | (with_reducible assumption)
    | (with_reducible exact Within.refl _ _)
    | (show Area.sub _ _ = true; rfl)
    | (extract_lets +onlyGivenNames t; first | (refine Within.cut [.regs, .core, .pat, .test, .xp, .vl, .q, .eng, .comp, .flow, .aud, .ref, .pair, .fresh] s t (fun h => ?_) ?_; rotate_left; subst t; rotate_right; clear_value t) | clear_value t)
    | (with_reducible apply Within.then (h' := ancTxSwitchAll_within ..))
    | (with_reducible apply Within.then (h' := audFrameBoundary_within ..))
    | (with_reducible apply Within.then (h' := compSwitch_within ..))
    | (with_reducible apply Within.then (h' := copyApply_within ..))
    | (with_reducible apply Within.then (h' := fsyncSwitch_within ..))
    | (with_reducible apply Within.then (h' := groupsRealign_within ..))
    | (with_reducible apply Within.then (h' := tpgApply_within ..))
    | (with_reducible apply Within.then (h' := vlaneSwitch_within ..))
    | (with_reducible apply Within.ite)
    | (with_reducible apply Within.foldl)
    | split

theorem wclkPlane1_within (s : State) : Within [.core] s (wclkPlane1 s) := by
  unfold wclkPlane1
  repeat' first
    | (with_reducible assumption)
    | (with_reducible exact Within.refl _ _)
    | (show Area.sub _ _ = true; rfl)
    | (extract_lets +onlyGivenNames t; first | (refine Within.cut [.core] s t (fun h => ?_) ?_; rotate_left; subst t; rotate_right; clear_value t) | clear_value t)
    | (with_reducible apply Within.then (h' := wclkRise_within ..))
    | (with_reducible apply Within.ite)
    | split

theorem switchPoint_within (a0) (s : State) : Within [.regs, .core, .pat, .test, .xp, .vl, .q, .eng, .comp, .flow, .aud, .ref, .pair, .fresh] s (switchPoint a0 s) := by
  unfold switchPoint
  repeat' first
    | (with_reducible assumption)
    | (with_reducible exact Within.refl _ _)
    | (show Area.sub _ _ = true; rfl)
    | (extract_lets +onlyGivenNames t; first | (refine Within.cut [.regs, .core, .pat, .test, .xp, .vl, .q, .eng, .comp, .flow, .aud, .ref, .pair, .fresh] s t (fun h => ?_) ?_; rotate_left; subst t; rotate_right; clear_value t) | clear_value t)
    | (with_reducible apply Within.then (h' := fcAdvance_within ..))
    | (with_reducible apply Within.then (h' := framePulse_within ..))
    | (with_reducible apply Within.then (h' := markerSend_within ..))
    | (with_reducible apply Within.then (h' := sigAudio_within ..))
    | (with_reducible apply Within.then (h' := switchSettings_within ..))
    | (with_reducible apply Within.then (h' := tkPhase_within ..))
    | (with_reducible apply Within.then (h' := wclkPlane1_within ..))
    | (with_reducible apply Within.ite)
    | split
    | refine Within.upd (h := ?_)

theorem wclkJump_within (a0) (s : State) : Within [.core] s (wclkJump a0 s) := by
  unfold wclkJump
  repeat' first
    | (with_reducible assumption)
    | (with_reducible exact Within.refl _ _)
    | (show Area.sub _ _ = true; rfl)
    | (with_reducible apply Within.then (h' := wclkFall_within ..))
    | (with_reducible apply Within.ite)
    | split

theorem planeJump_within (a0) (s : State) : Within [.regs, .core, .pat, .test, .xp, .vl, .q, .eng, .comp, .flow, .aud, .ref, .time, .pair, .fresh] s (planeJump a0 s) := by
  unfold planeJump
  repeat' first
    | (with_reducible assumption)
    | (with_reducible exact Within.refl _ _)
    | (show Area.sub _ _ = true; rfl)
    | (extract_lets +onlyGivenNames t; first | (refine Within.cut [.regs, .core, .pat, .test, .xp, .vl, .q, .eng, .comp, .flow, .aud, .ref, .time, .pair, .fresh] s t (fun h => ?_) ?_; rotate_left; subst t; rotate_right; clear_value t) | clear_value t)
    | (with_reducible apply Within.then (h' := advanceTicks_within ..))
    | (with_reducible apply Within.then (h' := planeEvent_within ..))
    | (with_reducible apply Within.then (h' := setRefPl_within ..))
    | (with_reducible apply Within.then (h' := setResid_within ..))
    | (with_reducible apply Within.then (h' := switchPoint_within ..))
    | (with_reducible apply Within.then (h' := wclkJump_within ..))
    | (with_reducible apply Within.ite)
    | split
    | refine Within.upd (h := ?_)

theorem switchLineRead_within (a0) (s : State) : Within [.regs, .core, .pat, .test, .xp, .vl, .q, .pair] s (switchLineRead a0 s) := by
  unfold switchLineRead
  repeat' first
    | (with_reducible assumption)
    | (with_reducible exact Within.refl _ _)
    | (show Area.sub _ _ = true; rfl)
    | (extract_lets +onlyGivenNames t; first | (refine Within.cut [.regs, .core, .pat, .test, .xp, .vl, .q, .pair] s t (fun h => ?_) ?_; rotate_left; subst t; rotate_right; clear_value t) | clear_value t)
    | (with_reducible apply Within.then (h' := castBlack_within ..))
    | (with_reducible apply Within.then (h' := destSwitchRead_within ..))
    | (with_reducible apply Within.then (h' := framePulse_within ..))
    | (with_reducible apply Within.then (h' := sdiFrames_within ..))
    | (with_reducible apply Within.then (h' := sigClose_within ..))
    | (with_reducible apply Within.ite)
    | split

end Sys2Proof.Machine
end

