-- ==== Sys2Proof/Laws/WithinService.lean ====
section
/-! SUPPORT. What each operation of Machine/Service.lean may change: one frame per operation. -/

namespace Sys2Proof.Machine

set_option Elab.async false
set_option linter.all false
set_option linter.tactic.unusedName false

theorem setBoot_within (a0 a1) (s : State) : Within [.regs] s (setBoot a0 a1 s) := (by unfold setBoot; exact fset_within ..)

theorem setStep_within (a0) (s : State) : Within [.regs] s (setStep a0 s) := (by unfold setStep; exact setBoot_within ..)

theorem hostGo_within (a0) (s : State) : Within [.regs, .core] s (hostGo a0 s) := by
  unfold hostGo
  repeat' first
    | (with_reducible assumption)
    | (with_reducible exact Within.refl _ _)
    | (show Area.sub _ _ = true; rfl)
    | (extract_lets +onlyGivenNames t; first | (refine Within.cut [.regs, .core] s t (fun h => ?_) ?_; rotate_left; subst t; rotate_right; clear_value t) | clear_value t)
    | (with_reducible apply Within.then (h' := setBoot_within ..))
    | (with_reducible apply Within.then (h' := setStep_within ..))
    | (with_reducible apply Within.ite)
    | split
    | refine Within.upd (h := ?_)

theorem bootDone_within (s : State) : Within [.regs, .core, .pat] s (bootDone s) := (by unfold bootDone; exact logEvent_within ..)

theorem keepRegs_within (a0) (s : State) : Within [.regs] s (keepRegs a0 s) := by
  unfold keepRegs
  repeat' first
    | (with_reducible assumption)
    | (with_reducible exact Within.refl _ _)
    | (show Area.sub _ _ = true; rfl)
    | (extract_lets +onlyGivenNames t; first | (refine Within.cut [.regs] s t (fun h => ?_) ?_; rotate_left; subst t; rotate_right; clear_value t) | clear_value t)
    | refine Within.upd (h := ?_)

theorem dropImage_within (s : State) : Within [.regs, .img, .eng] s (dropImage s) := by
  unfold dropImage
  repeat' first
    | (with_reducible assumption)
    | (with_reducible exact Within.refl _ _)
    | (show Area.sub _ _ = true; rfl)
    | (extract_lets +onlyGivenNames t; first | (refine Within.cut [.regs, .img, .eng] s t (fun h => ?_) ?_; rotate_left; subst t; rotate_right; clear_value t) | clear_value t)
    | (with_reducible apply Within.then (h' := keepRegs_within ..))
    | refine Within.upd (h := ?_)

theorem heldClear_within (s : State) : Within [.mram, .pat] s (heldClear s) := by
  unfold heldClear
  repeat' first
    | (with_reducible assumption)
    | (with_reducible exact Within.refl _ _)
    | (show Area.sub _ _ = true; rfl)
    | (extract_lets +onlyGivenNames t; first | (refine Within.cut [.mram, .pat] s t (fun h => ?_) ?_; rotate_left; subst t; rotate_right; clear_value t) | clear_value t)
    | (with_reducible apply Within.then (h' := clearNow_within ..))
    | (with_reducible apply Within.ite)
    | split
    | refine Within.upd (h := ?_)

theorem mediaOff_within (s : State) : Within [.regs, .core, .pat, .xp, .vl, .q, .eng, .comp, .flow, .aud, .mac, .ref, .time, .pair] s (mediaOff s) := by
  unfold mediaOff
  repeat' first
    | (with_reducible assumption)
    | (with_reducible exact Within.refl _ _)
    | (show Area.sub _ _ = true; rfl)
    | (extract_lets +onlyGivenNames t; first | (refine Within.cut [.regs, .core, .pat, .xp, .vl, .q, .eng, .comp, .flow, .aud, .mac, .ref, .time, .pair] s t (fun h => ?_) ?_; rotate_left; subst t; rotate_right; clear_value t) | clear_value t)
    | (with_reducible apply Within.then (h' := keepRegs_within ..))
    | refine Within.upd (h := ?_)

theorem setModeF_within (a0 a1) (s : State) : Within [.regs] s (setModeF a0 a1 s) := (by unfold setModeF; exact fset_within ..)

theorem setResult_within (a0) (s : State) : Within [.regs] s (setResult a0 s) := by
  unfold setResult
  repeat' first
    | (with_reducible assumption)
    | (with_reducible exact Within.refl _ _)
    | (show Area.sub _ _ = true; rfl)
    | (with_reducible apply Within.then (h' := fset_within ..))

theorem setBegin_within (a0 a1) (s : State) : Within [.regs, .upd, .fresh] s (setBegin a0 a1 s) := by
  unfold setBegin
  repeat' first
    | (with_reducible assumption)
    | (with_reducible exact Within.refl _ _)
    | (show Area.sub _ _ = true; rfl)
    | (extract_lets +onlyGivenNames t; first | (refine Within.cut [.regs, .upd, .fresh] s t (fun h => ?_) ?_; rotate_left; subst t; rotate_right; clear_value t) | clear_value t)
    | (with_reducible apply Within.then (h' := fset_within ..))
    | (with_reducible apply Within.then (h' := setResult_within ..))
    | (with_reducible apply Within.then (h' := spend_within ..))
    | (with_reducible apply Within.ite)
    | split
    | refine Within.upd (h := ?_)

theorem startWaiting_within (s : State) : Within [.regs, .upd, .fresh] s (startWaiting s) := by
  unfold startWaiting
  repeat' first
    | (with_reducible assumption)
    | (with_reducible exact Within.refl _ _)
    | (show Area.sub _ _ = true; rfl)
    | (extract_lets +onlyGivenNames t; first | (refine Within.cut [.regs, .upd, .fresh] s t (fun h => ?_) ?_; rotate_left; subst t; rotate_right; clear_value t) | clear_value t)
    | (with_reducible apply Within.then (h' := setBegin_within ..))
    | split
    | refine Within.upd (h := ?_)

theorem enterSafe_within (a0) (s : State) : Within [.regs, .core, .mram, .pat, .test, .img, .upd, .xp, .vl, .q, .eng, .comp, .flow, .aud, .mac, .ref, .time, .pair, .fresh] s (enterSafe a0 s) := by
  unfold enterSafe
  repeat' first
    | intro _
    | (with_reducible assumption)
    | (with_reducible exact Within.refl _ _)
    | (show Area.sub _ _ = true; rfl)
    | (extract_lets +onlyGivenNames t; first | (refine Within.cut [.regs, .core, .mram, .pat, .test, .img, .upd, .xp, .vl, .q, .eng, .comp, .flow, .aud, .mac, .ref, .time, .pair, .fresh] s t (fun h => ?_) ?_; rotate_left; subst t; rotate_right; clear_value t) | clear_value t)
    | (with_reducible apply Within.then (h' := bootDone_within ..))
    | (with_reducible apply Within.then (h' := dropImage_within ..))
    | (with_reducible apply Within.then (h' := heldClear_within ..))
    | (with_reducible apply Within.then (h' := leaveTest_within ..))
    | (with_reducible apply Within.then (h' := logEvent_within ..))
    | (with_reducible apply Within.then (h' := macEnter_within ..))
    | (with_reducible apply Within.then (h' := mediaOff_within ..))
    | (with_reducible apply Within.then (h' := refreshPins_within ..))
    | (with_reducible apply Within.then (h' := setBoot_within ..))
    | (with_reducible apply Within.then (h' := setMode_within ..))
    | (with_reducible apply Within.then (h' := setModeF_within ..))
    | (with_reducible apply Within.then (h' := setStep_within ..))
    | (with_reducible apply Within.then (h' := startWaiting_within ..))
    | (with_reducible apply Within.ite)
    | (with_reducible apply Within.foldl)
    | split
    | refine Within.upd (h := ?_)

theorem safeRequest_within (s : State) : Within [.regs, .core, .mram, .pat, .test, .img, .upd, .xp, .vl, .q, .eng, .comp, .flow, .aud, .mac, .ref, .time, .pair, .fresh] s (safeRequest s) := by
  unfold safeRequest
  repeat' first
    | (with_reducible assumption)
    | (with_reducible exact Within.refl _ _)
    | (show Area.sub _ _ = true; rfl)
    | (extract_lets +onlyGivenNames t; first | (refine Within.cut [.regs, .core, .mram, .pat, .test, .img, .upd, .xp, .vl, .q, .eng, .comp, .flow, .aud, .mac, .ref, .time, .pair, .fresh] s t (fun h => ?_) ?_; rotate_left; subst t; rotate_right; clear_value t) | clear_value t)
    | (with_reducible apply Within.then (h' := enterSafe_within ..))
    | (with_reducible apply Within.ite)
    | split
    | refine Within.upd (h := ?_)

theorem setCause_within (a0) (s : State) : Within [.regs] s (setCause a0 s) := (by unfold setCause; exact rsetN_within ..)

theorem setAppend_within (a0) (s : State) : Within [.settings] s (setAppend a0 s) := by
  unfold setAppend
  repeat' first
    | (with_reducible assumption)
    | (with_reducible exact Within.refl _ _)
    | (show Area.sub _ _ = true; rfl)
    | (extract_lets +onlyGivenNames t; first | (refine Within.cut [.settings] s t (fun h => ?_) ?_; rotate_left; subst t; rotate_right; clear_value t) | (have _h : Long := t) | clear_value t)
    | refine Within.upd (h := ?_)

theorem settleCast_within (s : State) : Within [.regs, .core, .life, .settings, .pat] s (settleCast s) := by
  unfold settleCast
  repeat' first
    | (with_reducible assumption)
    | (with_reducible exact Within.refl _ _)
    | (show Area.sub _ _ = true; rfl)
    | (extract_lets +onlyGivenNames t; first | (refine Within.cut [.regs, .core, .life, .settings, .pat] s t (fun h => ?_) ?_; rotate_left; subst t; rotate_right; clear_value t) | clear_value t)
    | (with_reducible apply Within.then (h' := lifeAdd_within ..))
    | (with_reducible apply Within.then (h' := logEvent_within ..))
    | (with_reducible apply Within.then (h' := setAppend_within ..))
    | (with_reducible apply Within.ite)
    | split
    | refine Within.upd (h := ?_)

theorem coldEntry_within (a0) (s : State) : Within [.regs, .core, .life, .settings, .pat, .test] s (coldEntry a0 s) := by
  unfold coldEntry
  repeat' first
    | (with_reducible assumption)
    | (with_reducible exact Within.refl _ _)
    | (show Area.sub _ _ = true; rfl)
    | (extract_lets +onlyGivenNames t; first | (refine Within.cut [.regs, .core, .life, .settings, .pat, .test] s t (fun h => ?_) ?_; rotate_left; subst t; rotate_right; clear_value t) | clear_value t)
    | (with_reducible apply Within.then (h' := refreshPins_within ..))
    | (with_reducible apply Within.then (h' := rsetN_within ..))
    | (with_reducible apply Within.then (h' := setCause_within ..))
    | (with_reducible apply Within.then (h' := setMode_within ..))
    | (with_reducible apply Within.then (h' := setModeF_within ..))
    | (with_reducible apply Within.then (h' := setStep_within ..))
    | (with_reducible apply Within.then (h' := settleCast_within ..))

theorem patStat_within (a0 a1) (s : State) : Within [.regs] s (patStat a0 a1 s) := (by unfold patStat; exact fset_within ..)

theorem flashApply_within (a0 a1) (s : State) : Within [.flash] s (flashApply a0 a1 s) := by
  unfold flashApply
  repeat' first
    | (with_reducible assumption)
    | (with_reducible exact Within.refl _ _)
    | (show Area.sub _ _ = true; rfl)
    | (extract_lets +onlyGivenNames t; first | (refine Within.cut [.flash] s t (fun h => ?_) ?_; rotate_left; subst t; rotate_right; clear_value t) | clear_value t)
    | (with_reducible apply Within.then (h' := flashClear_within ..))
    | (with_reducible apply Within.then (h' := flashPut_within ..))
    | (with_reducible apply Within.ite)
    | split

theorem flashEffect_within (s : State) : Within [.flash] s (flashEffect s) := by
  unfold flashEffect
  repeat' first
    | (with_reducible assumption)
    | (with_reducible exact Within.refl _ _)
    | (show Area.sub _ _ = true; rfl)
    | (with_reducible apply Within.then (h' := flashApply_within ..))
    | split

theorem setCut_within (s : State) : Within [.settings] s (setCut s) := by
  unfold setCut
  repeat' first
    | (with_reducible assumption)
    | (with_reducible exact Within.refl _ _)
    | (show Area.sub _ _ = true; rfl)
    | (extract_lets +onlyGivenNames t; first | (refine Within.cut [.settings] s t (fun h => ?_) ?_; rotate_left; subst t; rotate_right; clear_value t) | (have _h : Long := t) | clear_value t)
    | (with_reducible apply Within.then (h' := setAppend_within ..))
    | (with_reducible apply Within.ite)
    | split
    | refine Within.upd (h := ?_)

theorem resetBlocks_within (a0) (s : State) : Within [.regs, .core, .flash, .settings, .pat, .fab, .test, .img, .upd, .xp, .vl, .q, .eng, .comp, .flow, .aud, .mac, .ref, .time, .pair] s (resetBlocks a0 s) := by
  unfold resetBlocks
  repeat' first
    | (with_reducible assumption)
    | (with_reducible exact Within.refl _ _)
    | (show Area.sub _ _ = true; rfl)
    | (extract_lets +onlyGivenNames t; first | (refine Within.cut [.regs, .core, .flash, .settings, .pat, .fab, .test, .img, .upd, .xp, .vl, .q, .eng, .comp, .flow, .aud, .mac, .ref, .time, .pair] s t (fun h => ?_) ?_; rotate_left; subst t; rotate_right; clear_value t) | clear_value t)
    | (with_reducible apply Within.then (h' := flashEffect_within ..))
    | (with_reducible apply Within.then (h' := keepRegs_within ..))
    | (with_reducible apply Within.then (h' := mediaOff_within ..))
    | (with_reducible apply Within.then (h' := setCut_within ..))
    | refine Within.upd (h := ?_)

theorem softReset_within (s : State) : Within [.regs, .core, .flash, .life, .settings, .pat, .fab, .test, .img, .upd, .xp, .vl, .q, .eng, .comp, .flow, .aud, .mac, .ref, .time, .pair] s (softReset s) := by
  unfold softReset
  repeat' first
    | (with_reducible assumption)
    | (with_reducible exact Within.refl _ _)
    | (show Area.sub _ _ = true; rfl)
    | (extract_lets +onlyGivenNames t; first | (refine Within.cut [.regs, .core, .flash, .life, .settings, .pat, .fab, .test, .img, .upd, .xp, .vl, .q, .eng, .comp, .flow, .aud, .mac, .ref, .time, .pair] s t (fun h => ?_) ?_; rotate_left; subst t; rotate_right; clear_value t) | clear_value t)
    | (with_reducible apply Within.then (h' := coldEntry_within ..))
    | (with_reducible apply Within.then (h' := fset_within ..))
    | (with_reducible apply Within.then (h' := leaveTest_within ..))
    | (with_reducible apply Within.then (h' := patStat_within ..))
    | (with_reducible apply Within.then (h' := refreshOutst_within ..))
    | (with_reducible apply Within.then (h' := resetBlocks_within ..))
    | (with_reducible apply Within.then (h' := rsetN_within ..))
    | (with_reducible apply Within.then (h' := setMode_within ..))
    | (with_reducible apply Within.ite)
    | split
    | refine Within.upd (h := ?_)

theorem putMarker_within (a0 a1) (s : State) : Within [.settings] s (putMarker a0 a1 s) := by
  unfold putMarker
  repeat' first
    | (with_reducible assumption)
    | (with_reducible exact Within.refl _ _)
    | (show Area.sub _ _ = true; rfl)
    | (extract_lets +onlyGivenNames t; first | (refine Within.cut [.settings] s t (fun h => ?_) ?_; rotate_left; subst t; rotate_right; clear_value t) | clear_value t)
    | (with_reducible apply Within.then (h' := setAppend_within ..))
    | refine Within.upd (h := ?_)

theorem applyBlocks_within (a0) (s : State) : Within [.regs, .eng] s (applyBlocks a0 s) := by
  unfold applyBlocks
  repeat' first
    | intro _
    | (with_reducible assumption)
    | (with_reducible exact Within.refl _ _)
    | (show Area.sub _ _ = true; rfl)
    | (extract_lets +onlyGivenNames t; first | (refine Within.cut [.regs, .eng] s t (fun h => ?_) ?_; rotate_left; subst t; rotate_right; clear_value t) | clear_value t)
    | (with_reducible apply Within.then (h' := entStat_within ..))
    | (with_reducible apply Within.then (h' := fset_within ..))
    | (with_reducible apply Within.then (h' := macStat_within ..))
    | (with_reducible apply Within.ite)
    | (with_reducible apply Within.foldl)
    | split
    | refine Within.upd (h := ?_)

theorem applyHeader_within (a0 a1) (s : State) : Within [.regs, .img] s (applyHeader a0 a1 s) := by
  unfold applyHeader
  repeat' first
    | intro _
    | (with_reducible assumption)
    | (with_reducible exact Within.refl _ _)
    | (show Area.sub _ _ = true; rfl)
    | (extract_lets +onlyGivenNames t; first | (refine Within.cut [.regs, .img] s t (fun h => ?_) ?_; rotate_left; subst t; rotate_right; clear_value t) | clear_value t)
    | (with_reducible apply Within.then (h' := rset64_within ..))
    | (with_reducible apply Within.then (h' := rsetN_within ..))
    | (with_reducible apply Within.foldl)
    | refine Within.upd (h := ?_)

theorem applyPins_within (a0) (s : State) : Within [.regs] s (applyPins a0 s) := by
  unfold applyPins
  repeat' first
    | intro _
    | (with_reducible assumption)
    | (with_reducible exact Within.refl _ _)
    | (show Area.sub _ _ = true; rfl)
    | (extract_lets +onlyGivenNames t; first | (refine Within.cut [.regs] s t (fun h => ?_) ?_; rotate_left; subst t; rotate_right; clear_value t) | (have _h := fun x => (t x : State)) | (have _h := fun x y => (t x y : State)) | (have _h := fun x y z => (t x y z : State)) | clear_value t)
    | (with_reducible apply Within.then (h' := rsetN_within ..))
    | (with_reducible apply Within.foldl)

theorem applyTables_within (a0) (s : State) : Within [.regs, .core, .pat, .xp, .vl, .eng, .comp, .flow, .aud, .ref] s (applyTables a0 s) := by
  unfold applyTables
  repeat' first
    | intro _
    | (with_reducible assumption)
    | (with_reducible exact Within.refl _ _)
    | (show Area.sub _ _ = true; rfl)
    | (with_reducible apply Within.then (h' := mirroredEffect_within ..))
    | (with_reducible apply Within.foldl)

theorem applyTime_within (a0) (s : State) : Within [.regs] s (applyTime a0 s) := by
  unfold applyTime
  repeat' first
    | (with_reducible assumption)
    | (with_reducible exact Within.refl _ _)
    | (show Area.sub _ _ = true; rfl)
    | (with_reducible apply Within.then (h' := fset_within ..))

theorem applyImage_within (a0 a1) (s : State) : Within [.regs, .core, .pat, .img, .xp, .vl, .eng, .comp, .flow, .aud, .ref] s (applyImage a0 a1 s) := by
  unfold applyImage
  repeat' first
    | (with_reducible assumption)
    | (with_reducible exact Within.refl _ _)
    | (show Area.sub _ _ = true; rfl)
    | (extract_lets +onlyGivenNames t; first | (refine Within.cut [.regs, .core, .pat, .img, .xp, .vl, .eng, .comp, .flow, .aud, .ref] s t (fun h => ?_) ?_; rotate_left; subst t; rotate_right; clear_value t) | clear_value t)
    | (with_reducible apply Within.then (h' := applyBlocks_within ..))
    | (with_reducible apply Within.then (h' := applyHeader_within ..))
    | (with_reducible apply Within.then (h' := applyPins_within ..))
    | (with_reducible apply Within.then (h' := applyTables_within ..))
    | (with_reducible apply Within.then (h' := applyTime_within ..))
    | (with_reducible apply Within.ite)
    | split

theorem hostTurn_within (s : State) : Within [.regs] s (hostTurn s) := by
  unfold hostTurn
  repeat' first
    | (with_reducible assumption)
    | (with_reducible exact Within.refl _ _)
    | (show Area.sub _ _ = true; rfl)
    | (with_reducible apply Within.then (h' := setBoot_within ..))
    | (with_reducible apply Within.ite)
    | split

theorem attemptBegin_within (a0 a1 a2) (s : State) : Within [.regs, .core] s (attemptBegin a0 a1 a2 s) := by
  unfold attemptBegin
  repeat' first
    | (with_reducible assumption)
    | (with_reducible exact Within.refl _ _)
    | (show Area.sub _ _ = true; rfl)
    | (extract_lets +onlyGivenNames t; first | (refine Within.cut [.regs, .core] s t (fun h => ?_) ?_; rotate_left; subst t; rotate_right; clear_value t) | clear_value t)
    | (with_reducible apply Within.then (h' := hostTurn_within ..))
    | (with_reducible apply Within.then (h' := setBoot_within ..))
    | (with_reducible apply Within.then (h' := setStep_within ..))
    | refine Within.upd (h := ?_)

theorem attemptFail_within (a0) (s : State) : Within [.regs, .core, .mram, .pat, .test, .img, .upd, .xp, .vl, .q, .eng, .comp, .flow, .aud, .mac, .ref, .time, .pair, .fresh] s (attemptFail a0 s) := by
  unfold attemptFail
  repeat' first
    | (with_reducible assumption)
    | (with_reducible exact Within.refl _ _)
    | (show Area.sub _ _ = true; rfl)
    | (extract_lets +onlyGivenNames t; first | (refine Within.cut [.regs, .core, .mram, .pat, .test, .img, .upd, .xp, .vl, .q, .eng, .comp, .flow, .aud, .mac, .ref, .time, .pair, .fresh] s t (fun h => ?_) ?_; rotate_left; subst t; rotate_right; clear_value t) | clear_value t)
    | (with_reducible apply Within.then (h' := attemptBegin_within ..))
    | (with_reducible apply Within.then (h' := enterSafe_within ..))
    | (with_reducible apply Within.then (h' := logEvent_within ..))
    | (with_reducible apply Within.then (h' := setBoot_within ..))
    | (with_reducible apply Within.ite)
    | split
    | refine Within.upd (h := ?_)

theorem applyStep_within (s : State) : Within [.regs, .core, .mram, .pat, .test, .img, .upd, .xp, .vl, .q, .eng, .comp, .flow, .aud, .mac, .ref, .time, .pair, .fresh] s (applyStep s) := by
  unfold applyStep
  repeat' first
    | (with_reducible assumption)
    | (with_reducible exact Within.refl _ _)
    | (show Area.sub _ _ = true; rfl)
    | (extract_lets +onlyGivenNames t; first | (refine Within.cut [.regs, .core, .mram, .pat, .test, .img, .upd, .xp, .vl, .q, .eng, .comp, .flow, .aud, .mac, .ref, .time, .pair, .fresh] s t (fun h => ?_) ?_; rotate_left; subst t; rotate_right; clear_value t) | clear_value t)
    | (with_reducible apply Within.then (h' := applyImage_within ..))
    | (with_reducible apply Within.then (h' := attemptFail_within ..))
    | (with_reducible apply Within.then (h' := enterSafe_within ..))
    | (with_reducible apply Within.then (h' := rsetN_within ..))
    | (with_reducible apply Within.then (h' := setModeF_within ..))
    | (with_reducible apply Within.then (h' := setStep_within ..))
    | (with_reducible apply Within.ite)
    | split

theorem audioStart_within (s : State) : Within [.regs] s (audioStart s) := by
  unfold audioStart
  repeat' first
    | intro _
    | (with_reducible assumption)
    | (with_reducible exact Within.refl _ _)
    | (show Area.sub _ _ = true; rfl)
    | (extract_lets +onlyGivenNames t; first | (refine Within.cut [.regs] s t (fun h => ?_) ?_; rotate_left; subst t; rotate_right; clear_value t) | clear_value t)
    | (with_reducible apply Within.then (h' := fset_within ..))
    | (with_reducible apply Within.then (h' := setAsrcState_within ..))
    | (with_reducible apply Within.then (h' := setSapState_within ..))
    | (with_reducible apply Within.ite)
    | (with_reducible apply Within.foldl)
    | split

theorem readPointers_within (s : State) : Within [.regs, .core, .mram, .pat] s (readPointers s) := by
  unfold readPointers
  repeat' first
    | (with_reducible assumption)
    | (with_reducible exact Within.refl _ _)
    | (show Area.sub _ _ = true; rfl)
    | (extract_lets +onlyGivenNames t; first | (refine Within.cut [.regs, .core, .mram, .pat] s t (fun h => ?_) ?_; rotate_left; subst t; rotate_right; clear_value t) | clear_value t)
    | (with_reducible apply Within.then (h' := mramScan_within ..))
    | (with_reducible apply Within.then (h' := raise_within ..))
    | (with_reducible apply Within.then (h' := rsetN_within ..))
    | (with_reducible apply Within.then (h' := write3_within ..))
    | (with_reducible apply Within.ite)
    | split

theorem beginStep5_within (s : State) : Within [.regs, .core, .mram, .pat] s (beginStep5 s) := by
  unfold beginStep5
  repeat' first
    | (with_reducible assumption)
    | (with_reducible exact Within.refl _ _)
    | (show Area.sub _ _ = true; rfl)
    | (extract_lets +onlyGivenNames t; first | (refine Within.cut [.regs, .core, .mram, .pat] s t (fun h => ?_) ?_; rotate_left; subst t; rotate_right; clear_value t) | (have _h := fun x => (t x : State)) | (have _h := fun x y => (t x y : State)) | (have _h := fun x y z => (t x y z : State)) | clear_value t)
    | (with_reducible apply Within.then (h' := attemptBegin_within ..))
    | (with_reducible apply Within.then (h' := readPointers_within ..))
    | (with_reducible apply Within.ite)
    | split

theorem presentMade_within (s : State) : Within [.regs, .core, .pat, .xp, .ref] s (presentMade s) := by
  unfold presentMade
  repeat' first
    | intro _
    | (with_reducible assumption)
    | (with_reducible exact Within.refl _ _)
    | (show Area.sub _ _ = true; rfl)
    | (with_reducible apply Within.then (h' := setPresent_within ..))
    | (with_reducible apply Within.ite)
    | (with_reducible apply Within.foldl)
    | split

theorem blocksStart_within (s : State) : Within [.regs, .core, .pat, .xp, .vl, .mac, .ref] s (blocksStart s) := by
  unfold blocksStart
  repeat' first
    | intro _
    | (with_reducible assumption)
    | (with_reducible exact Within.refl _ _)
    | (show Area.sub _ _ = true; rfl)
    | (extract_lets +onlyGivenNames t; first | (refine Within.cut [.regs, .core, .pat, .xp, .vl, .mac, .ref] s t (fun h => ?_) ?_; rotate_left; subst t; rotate_right; clear_value t) | clear_value t)
    | (with_reducible apply Within.then (h' := audioStart_within ..))
    | (with_reducible apply Within.then (h' := dpEnable_within ..))
    | (with_reducible apply Within.then (h' := macApplyEn_within ..))
    | (with_reducible apply Within.then (h' := presentMade_within ..))
    | (with_reducible apply Within.then (h' := rxStart_within ..))
    | (with_reducible apply Within.foldl)

theorem checkStep_within (s : State) : Within [.regs, .core, .mram, .pat, .test, .img, .upd, .xp, .vl, .q, .eng, .comp, .flow, .aud, .mac, .ref, .time, .pair, .fresh] s (checkStep s) := by
  unfold checkStep
  repeat' first
    | (with_reducible assumption)
    | (with_reducible exact Within.refl _ _)
    | (show Area.sub _ _ = true; rfl)
    | (extract_lets +onlyGivenNames t; first | (refine Within.cut [.regs, .core, .mram, .pat, .test, .img, .upd, .xp, .vl, .q, .eng, .comp, .flow, .aud, .mac, .ref, .time, .pair, .fresh] s t (fun h => ?_) ?_; rotate_left; subst t; rotate_right; clear_value t) | clear_value t)
    | (with_reducible apply Within.then (h' := attemptFail_within ..))
    | (with_reducible apply Within.then (h' := enterSafe_within ..))
    | (with_reducible apply Within.then (h' := setStep_within ..))
    | (with_reducible apply Within.ite)
    | split

theorem bridgeCond_within (s : State) : Within [.regs, .core, .pat] s (bridgeCond s) := by
  unfold bridgeCond
  repeat' first
    | (with_reducible assumption)
    | (with_reducible exact Within.refl _ _)
    | (show Area.sub _ _ = true; rfl)
    | (extract_lets +onlyGivenNames t; first | (refine Within.cut [.regs, .core, .pat] s t (fun h => ?_) ?_; rotate_left; subst t; rotate_right; clear_value t) | clear_value t)
    | (with_reducible apply Within.then (h' := condSet_within ..))
    | (with_reducible apply Within.then (h' := fset_within ..))
    | (with_reducible apply Within.ite)
    | split

theorem clockCond_within (s : State) : Within [.regs, .core, .pat] s (clockCond s) := by
  unfold clockCond
  repeat' first
    | (with_reducible assumption)
    | (with_reducible exact Within.refl _ _)
    | (show Area.sub _ _ = true; rfl)
    | (with_reducible apply Within.then (h' := condBegin_within ..))
    | (with_reducible apply Within.then (h' := condEnd_within ..))
    | (with_reducible apply Within.ite)
    | split

theorem planeStart_within (a0) (s : State) : Within [.regs, .core, .ref] s (planeStart a0 s) := by
  unfold planeStart
  repeat' first
    | intro _
    | (with_reducible assumption)
    | (with_reducible exact Within.refl _ _)
    | (show Area.sub _ _ = true; rfl)
    | (extract_lets +onlyGivenNames t; first | (refine Within.cut [.regs, .core, .ref] s t (fun h => ?_) ?_; rotate_left; subst t; rotate_right; clear_value t) | clear_value t)
    | (with_reducible apply Within.then (h' := entStat_within ..))
    | (with_reducible apply Within.then (h' := setPlaneState_within ..))
    | (with_reducible apply Within.ite)
    | (with_reducible apply Within.foldl)
    | split

theorem enterService_within (a0) (s : State) : Within [.regs, .core, .mram, .pat, .test, .upd, .xp, .vl, .mac, .ref, .time, .fresh] s (enterService a0 s) := by
  unfold enterService
  repeat' first
    | intro _
    | (with_reducible assumption)
    | (with_reducible exact Within.refl _ _)
    | (show Area.sub _ _ = true; rfl)
    | (extract_lets +onlyGivenNames t; first | (refine Within.cut [.regs, .core, .mram, .pat, .test, .upd, .xp, .vl, .mac, .ref, .time, .fresh] s t (fun h => ?_) ?_; rotate_left; subst t; rotate_right; clear_value t) | clear_value t)
    | (with_reducible apply Within.then (h' := blocksStart_within ..))
    | (with_reducible apply Within.then (h' := bootDone_within ..))
    | (with_reducible apply Within.then (h' := bridgeCond_within ..))
    | (with_reducible apply Within.then (h' := clockCond_within ..))
    | (with_reducible apply Within.then (h' := heldClear_within ..))
    | (with_reducible apply Within.then (h' := leaveTest_within ..))
    | (with_reducible apply Within.then (h' := otChoose_within ..))
    | (with_reducible apply Within.then (h' := pairStat_within ..))
    | (with_reducible apply Within.then (h' := planeStart_within ..))
    | (with_reducible apply Within.then (h' := refFollow_within ..))
    | (with_reducible apply Within.then (h' := refreshPins_within ..))
    | (with_reducible apply Within.then (h' := setMode_within ..))
    | (with_reducible apply Within.then (h' := setStep_within ..))
    | (with_reducible apply Within.then (h' := startWaiting_within ..))
    | (with_reducible apply Within.foldl)
    | refine Within.upd (h := ?_)

theorem restoreItem_within (a0) (s : State) : Within [.regs] s (restoreItem a0 s).1 := by
  unfold restoreItem
  repeat' first
    | (with_reducible assumption)
    | (with_reducible exact Within.refl _ _)
    | (show Area.sub _ _ = true; rfl)
    | (extract_lets +onlyGivenNames t; first | (refine Within.cut [.regs] s t (fun h => ?_) ?_; rotate_left; subst t; rotate_right; clear_value t) | (refine Within.cut [.regs] s t.1 (fun h => ?_) ?_; rotate_left; subst t; rotate_right; clear_value t) | clear_value t)
    | (with_reducible apply Within.then (h' := fset_within ..))
    | (with_reducible apply Within.then (h' := rsetN_within ..))
    | (with_reducible apply Within.then (h' := setAudRoute_within ..))
    | (with_reducible apply Within.ite)
    | (with_reducible apply Within.iteFst)
    | split

theorem restoreAll_within (a0) (s : State) : Within [.regs] s (restoreAll a0 s).1 := by
  unfold restoreAll
  repeat' first
    | intro _
    | (with_reducible assumption)
    | (with_reducible exact Within.refl _ _)
    | (show Area.sub _ _ = true; rfl)
    | (extract_lets +onlyGivenNames t; first | (refine Within.cut [.regs] s t (fun h => ?_) ?_; rotate_left; subst t; rotate_right; clear_value t) | (refine Within.cut [.regs] s t.1 (fun h => ?_) ?_; rotate_left; subst t; rotate_right; clear_value t) | clear_value t)
    | (with_reducible apply Within.then (h' := restoreItem_within ..))
    | (with_reducible apply Within.foldl)
    | (with_reducible apply Within.foldlFst)

theorem keepRestore_within (s : State) : Within [.regs, .core, .mram, .pat] s (keepRestore s) := by
  unfold keepRestore
  repeat' first
    | (with_reducible assumption)
    | (with_reducible exact Within.refl _ _)
    | (show Area.sub _ _ = true; rfl)
    | (extract_lets +onlyGivenNames t; first | (refine Within.cut [.regs, .core, .mram, .pat] s t (fun h => ?_) ?_; rotate_left; subst t; rotate_right; clear_value t) | (refine Within.cut [.regs, .core, .mram, .pat] s t.1 (fun h => ?_) ?_; rotate_left; subst t; rotate_right; clear_value t) | clear_value t)
    | (with_reducible apply Within.then (h' := logEvent_within ..))
    | (with_reducible apply Within.then (h' := mramScan_within ..))
    | (with_reducible apply Within.then (h' := patStat_within ..))
    | (with_reducible apply Within.then (h' := raise_within ..))
    | (with_reducible apply Within.then (h' := restoreAll_within ..))
    | (with_reducible apply Within.then (h' := rsetN_within ..))
    | (with_reducible apply Within.ite)
    | (with_reducible apply Within.iteFst)
    | split
    | refine Within.upd (h := ?_)

theorem restoreStep_within (s : State) : Within [.regs, .core, .mram, .pat, .test, .img, .upd, .xp, .vl, .q, .eng, .comp, .flow, .aud, .mac, .ref, .time, .pair, .fresh] s (restoreStep s) := by
  unfold restoreStep
  repeat' first
    | (with_reducible assumption)
    | (with_reducible exact Within.refl _ _)
    | (show Area.sub _ _ = true; rfl)
    | (extract_lets +onlyGivenNames t; first | (refine Within.cut [.regs, .core, .mram, .pat, .test, .img, .upd, .xp, .vl, .q, .eng, .comp, .flow, .aud, .mac, .ref, .time, .pair, .fresh] s t (fun h => ?_) ?_; rotate_left; subst t; rotate_right; clear_value t) | clear_value t)
    | (with_reducible apply Within.then (h' := enterSafe_within ..))
    | (with_reducible apply Within.then (h' := enterService_within ..))
    | (with_reducible apply Within.then (h' := keepRestore_within ..))
    | (with_reducible apply Within.ite)
    | split

theorem enterReset_within (s : State) : Within [.regs, .core, .flash, .settings, .pat, .fab, .test, .img, .upd, .xp, .vl, .q, .eng, .comp, .flow, .aud, .mac, .ref, .time, .pair] s (enterReset s) := by
  unfold enterReset
  repeat' first
    | (with_reducible assumption)
    | (with_reducible exact Within.refl _ _)
    | (show Area.sub _ _ = true; rfl)
    | (extract_lets +onlyGivenNames t; first | (refine Within.cut [.regs, .core, .flash, .settings, .pat, .fab, .test, .img, .upd, .xp, .vl, .q, .eng, .comp, .flow, .aud, .mac, .ref, .time, .pair] s t (fun h => ?_) ?_; rotate_left; subst t; rotate_right; clear_value t) | clear_value t)
    | (with_reducible apply Within.then (h' := masterReset_within ..))
    | (with_reducible apply Within.then (h' := refreshPins_within ..))
    | (with_reducible apply Within.then (h' := resetBlocks_within ..))
    | (with_reducible apply Within.then (h' := rsetN_within ..))
    | (with_reducible apply Within.then (h' := setMode_within ..))
    | refine Within.upd (h := ?_)

theorem stage_within (a0) (s : State) : Within [.core, .q] s (stage a0 s) := by
  unfold stage
  repeat' first
    | (with_reducible assumption)
    | (with_reducible exact Within.refl _ _)
    | (show Area.sub _ _ = true; rfl)
    | (extract_lets +onlyGivenNames t; first | (refine Within.cut [.core, .q] s t (fun h => ?_) ?_; rotate_left; subst t; rotate_right; clear_value t) | clear_value t)
    | refine Within.upd (h := ?_)

theorem stepEnd_within (s : State) : Within [.regs, .core, .mram, .pat, .test, .img, .upd, .xp, .vl, .q, .eng, .comp, .flow, .aud, .mac, .ref, .time, .pair, .fresh] s (stepEnd s) := by
  unfold stepEnd
  repeat' first
    | (with_reducible assumption)
    | (with_reducible exact Within.refl _ _)
    | (show Area.sub _ _ = true; rfl)
    | (extract_lets +onlyGivenNames t; first | (refine Within.cut [.regs, .core, .mram, .pat, .test, .img, .upd, .xp, .vl, .q, .eng, .comp, .flow, .aud, .mac, .ref, .time, .pair, .fresh] s t (fun h => ?_) ?_; rotate_left; subst t; rotate_right; clear_value t) | clear_value t)
    | (with_reducible apply Within.then (h' := enterSafe_within ..))
    | (with_reducible apply Within.then (h' := setStep_within ..))
    | (with_reducible apply Within.ite)
    | split

theorem streamDone_within (a0) (s : State) : Within [.regs, .core, .mram, .pat, .test, .img, .upd, .xp, .vl, .q, .eng, .comp, .flow, .aud, .mac, .ref, .time, .pair, .fresh] s (streamDone a0 s) := by
  unfold streamDone
  repeat' first
    | (with_reducible assumption)
    | (with_reducible exact Within.refl _ _)
    | (show Area.sub _ _ = true; rfl)
    | (extract_lets +onlyGivenNames t; first | (refine Within.cut [.regs, .core, .mram, .pat, .test, .img, .upd, .xp, .vl, .q, .eng, .comp, .flow, .aud, .mac, .ref, .time, .pair, .fresh] s t (fun h => ?_) ?_; rotate_left; subst t; rotate_right; clear_value t) | clear_value t)
    | (with_reducible apply Within.then (h' := attemptFail_within ..))
    | (with_reducible apply Within.then (h' := stage_within ..))
    | (with_reducible apply Within.then (h' := stepEnd_within ..))
    | (with_reducible apply Within.ite)
    | split
    | refine Within.upd (h := ?_)

theorem thermalTrip_within (s : State) : Within [.regs, .core, .mram, .life, .pat, .test, .img, .upd, .xp, .vl, .q, .eng, .comp, .flow, .aud, .mac, .ref, .time, .pair, .fresh] s (thermalTrip s) := by
  unfold thermalTrip
  repeat' first
    | (with_reducible assumption)
    | (with_reducible exact Within.refl _ _)
    | (show Area.sub _ _ = true; rfl)
    | (extract_lets +onlyGivenNames t; first | (refine Within.cut [.regs, .core, .mram, .life, .pat, .test, .img, .upd, .xp, .vl, .q, .eng, .comp, .flow, .aud, .mac, .ref, .time, .pair, .fresh] s t (fun h => ?_) ?_; rotate_left; subst t; rotate_right; clear_value t) | clear_value t)
    | (with_reducible apply Within.then (h' := emit_within ..))
    | (with_reducible apply Within.then (h' := enterSafe_within ..))
    | (with_reducible apply Within.then (h' := lifeAdd_within ..))
    | (with_reducible apply Within.then (h' := logEvent_within ..))
    | (with_reducible apply Within.ite)
    | split
    | refine Within.upd (h := ?_)

theorem tjReading_within (a0 a1) (s : State) : Within [.regs, .core, .mram, .life, .pat, .test, .img, .upd, .xp, .vl, .q, .eng, .comp, .flow, .aud, .mac, .ref, .time, .pair, .fresh] s (tjReading a0 a1 s) := by
  unfold tjReading
  repeat' first
    | (with_reducible assumption)
    | (with_reducible exact Within.refl _ _)
    | (show Area.sub _ _ = true; rfl)
    | (extract_lets +onlyGivenNames t; first | (refine Within.cut [.regs, .core, .mram, .life, .pat, .test, .img, .upd, .xp, .vl, .q, .eng, .comp, .flow, .aud, .mac, .ref, .time, .pair, .fresh] s t (fun h => ?_) ?_; rotate_left; subst t; rotate_right; clear_value t) | clear_value t)
    | (with_reducible apply Within.then (h' := rsetN_within ..))
    | (with_reducible apply Within.then (h' := thermalTrip_within ..))
    | (with_reducible apply Within.ite)
    | split
    | refine Within.upd (h := ?_)

theorem trainDone_within (a0 a1) (s : State) : Within [.regs, .core, .mram, .pat, .test, .img, .upd, .xp, .vl, .q, .eng, .comp, .flow, .aud, .mac, .ref, .time, .pair, .fresh] s (trainDone a0 a1 s) := by
  unfold trainDone
  repeat' first
    | (with_reducible assumption)
    | (with_reducible exact Within.refl _ _)
    | (show Area.sub _ _ = true; rfl)
    | (extract_lets +onlyGivenNames t; first | (refine Within.cut [.regs, .core, .mram, .pat, .test, .img, .upd, .xp, .vl, .q, .eng, .comp, .flow, .aud, .mac, .ref, .time, .pair, .fresh] s t (fun h => ?_) ?_; rotate_left; subst t; rotate_right; clear_value t) | clear_value t)
    | (with_reducible apply Within.then (h' := attemptFail_within ..))
    | (with_reducible apply Within.then (h' := enterSafe_within ..))
    | (with_reducible apply Within.then (h' := fset_within ..))
    | (with_reducible apply Within.then (h' := hostTurn_within ..))
    | (with_reducible apply Within.then (h' := stepEnd_within ..))
    | (with_reducible apply Within.ite)
    | split
    | refine Within.upd (h := ?_)

end Sys2Proof.Machine
end

