-- ==== Sys2Proof/Laws/WithinBoot.lean ====
section
/-! SUPPORT. What each operation of Machine/Boot.lean may change: one frame per operation. -/

namespace Sys2Proof.Machine

set_option Elab.async false
set_option linter.all false
set_option linter.tactic.unusedName false

theorem hostBootWrite_within (a0) (s : State) : Within [.regs, .core] s (hostBootWrite a0 s) := by
  unfold hostBootWrite
  repeat' first
    | (with_reducible assumption)
    | (with_reducible exact Within.refl _ _)
    | (show Area.sub _ _ = true; rfl)
    | (with_reducible apply Within.then (h' := hostGo_within ..))
    | (with_reducible apply Within.ite)
    | split

theorem resetCtrlWrite_within (a0) (s : State) : Within [.regs, .core, .flash, .mram, .life, .settings, .pat, .fab, .test, .img, .upd, .xp, .vl, .q, .eng, .comp, .flow, .aud, .mac, .ref, .time, .pair, .fresh] s (resetCtrlWrite a0 s) := by
  unfold resetCtrlWrite
  repeat' first
    | (with_reducible assumption)
    | (with_reducible exact Within.refl _ _)
    | (show Area.sub _ _ = true; rfl)
    | (with_reducible apply Within.then (h' := safeRequest_within ..))
    | (with_reducible apply Within.then (h' := softReset_within ..))
    | (with_reducible apply Within.ite)
    | split

theorem readTj_within (s : State) : Within [.regs, .core, .mram, .pat, .test, .img, .upd, .xp, .vl, .q, .eng, .comp, .flow, .aud, .mac, .ref, .time, .pair, .fresh] s (readTj s) := by
  unfold readTj
  repeat' first
    | (with_reducible assumption)
    | (with_reducible exact Within.refl _ _)
    | (show Area.sub _ _ = true; rfl)
    | (extract_lets +onlyGivenNames t; first | (refine Within.cut [.regs, .core, .mram, .pat, .test, .img, .upd, .xp, .vl, .q, .eng, .comp, .flow, .aud, .mac, .ref, .time, .pair, .fresh] s t (fun h => ?_) ?_; rotate_left; subst t; rotate_right; clear_value t) | clear_value t)
    | (with_reducible apply Within.then (h' := beginStep5_within ..))
    | (with_reducible apply Within.then (h' := enterSafe_within ..))
    | (with_reducible apply Within.then (h' := setModeF_within ..))
    | (with_reducible apply Within.ite)
    | split
    | refine Within.upd (h := ?_)

theorem bootTick_within (s : State) : Within [.regs, .core, .mram, .pat, .test, .img, .upd, .xp, .vl, .q, .eng, .comp, .flow, .aud, .mac, .ref, .time, .pair, .fresh] s (bootTick s) := by
  unfold bootTick
  repeat' first
    | (with_reducible assumption)
    | (with_reducible exact Within.refl _ _)
    | (show Area.sub _ _ = true; rfl)
    | (with_reducible apply Within.then (h' := applyStep_within ..))
    | (with_reducible apply Within.then (h' := checkStep_within ..))
    | (with_reducible apply Within.then (h' := enterSafe_within ..))
    | (with_reducible apply Within.then (h' := readTj_within ..))
    | (with_reducible apply Within.then (h' := restoreStep_within ..))
    | (with_reducible apply Within.then (h' := setStep_within ..))
    | (with_reducible apply Within.ite)
    | split

theorem setBridgeRun_within (a0 a1) (s : State) : Within [.core] s (setBridgeRun a0 a1 s) := by
  unfold setBridgeRun
  repeat' first
    | (with_reducible assumption)
    | (with_reducible exact Within.refl _ _)
    | (show Area.sub _ _ = true; rfl)
    | (extract_lets +onlyGivenNames t; first | (refine Within.cut [.core] s t (fun h => ?_) ?_; rotate_left; subst t; rotate_right; clear_value t) | clear_value t)
    | (with_reducible apply Within.ite)
    | split
    | refine Within.upd (h := ?_)

theorem bridgeTrained_within (a0) (s : State) : Within [.regs, .core, .pat] s (bridgeTrained a0 s) := by
  unfold bridgeTrained
  repeat' first
    | (with_reducible assumption)
    | (with_reducible exact Within.refl _ _)
    | (show Area.sub _ _ = true; rfl)
    | (extract_lets +onlyGivenNames t; first | (refine Within.cut [.regs, .core, .pat] s t (fun h => ?_) ?_; rotate_left; subst t; rotate_right; clear_value t) | clear_value t)
    | (with_reducible apply Within.then (h' := bridgeCond_within ..))
    | (with_reducible apply Within.then (h' := rsetN_within ..))
    | (with_reducible apply Within.then (h' := setBridgeRun_within ..))
    | (with_reducible apply Within.ite)
    | split

theorem bridgeTransfer_within (a0 a1) (s : State) : Within [.regs, .core, .pat, .test] s (bridgeTransfer a0 a1 s) := by
  unfold bridgeTransfer
  repeat' first
    | (with_reducible assumption)
    | (with_reducible exact Within.refl _ _)
    | (show Area.sub _ _ = true; rfl)
    | (extract_lets +onlyGivenNames t; first | (refine Within.cut [.regs, .core, .pat, .test] s t (fun h => ?_) ?_; rotate_left; subst t; rotate_right; clear_value t) | (refine Within.cut [.regs, .core, .pat, .test] s t.2 (fun h => ?_) ?_; rotate_left; subst t; rotate_right; clear_value t) | clear_value t)
    | (with_reducible apply Within.then (h' := checkFails_within ..))
    | (with_reducible apply Within.then (h' := count_within ..))
    | (with_reducible apply Within.then (h' := fset_within ..))
    | (with_reducible apply Within.then (h' := raise_within ..))
    | (with_reducible apply Within.then (h' := setBridgeRun_within ..))
    | (with_reducible apply Within.ite)
    | (with_reducible apply Within.iteSnd)
    | split

theorem clocksLocked_within (s : State) : Within [.regs] s (clocksLocked s) := by
  unfold clocksLocked
  repeat' first
    | (with_reducible assumption)
    | (with_reducible exact Within.refl _ _)
    | (show Area.sub _ _ = true; rfl)
    | (extract_lets +onlyGivenNames t; first | (refine Within.cut [.regs] s t (fun h => ?_) ?_; rotate_left; subst t; rotate_right; clear_value t) | clear_value t)
    | (with_reducible apply Within.then (h' := fset_within ..))
    | (with_reducible apply Within.then (h' := setStep_within ..))
    | (with_reducible apply Within.ite)
    | split

theorem ctlTimeout_within (s : State) : Within [.regs] s (ctlTimeout s) := by
  unfold ctlTimeout
  repeat' first
    | (with_reducible assumption)
    | (with_reducible exact Within.refl _ _)
    | (show Area.sub _ _ = true; rfl)
    | (with_reducible apply Within.then (h' := setBoot_within ..))
    | (with_reducible apply Within.ite)
    | split

theorem heatRead_within (s : State) : Within [.regs, .core, .mram, .pat] s (heatRead s) := by
  unfold heatRead
  repeat' first
    | (with_reducible assumption)
    | (with_reducible exact Within.refl _ _)
    | (show Area.sub _ _ = true; rfl)
    | (with_reducible apply Within.then (h' := beginStep5_within ..))
    | (with_reducible apply Within.then (h' := setModeF_within ..))
    | (with_reducible apply Within.ite)
    | split

theorem heatSlow_within (s : State) : Within [.regs, .core] s (heatSlow s) := by
  unfold heatSlow
  repeat' first
    | (with_reducible assumption)
    | (with_reducible exact Within.refl _ _)
    | (show Area.sub _ _ = true; rfl)
    | (extract_lets +onlyGivenNames t; first | (refine Within.cut [.regs, .core] s t (fun h => ?_) ?_; rotate_left; subst t; rotate_right; clear_value t) | clear_value t)
    | (with_reducible apply Within.then (h' := refreshPins_within ..))
    | (with_reducible apply Within.then (h' := setBoot_within ..))
    | (with_reducible apply Within.ite)
    | split
    | refine Within.upd (h := ?_)

theorem intoReset_within (s : State) : Within [.regs, .core, .flash, .settings, .pat, .fab, .test, .img, .upd, .xp, .vl, .q, .eng, .comp, .flow, .aud, .mac, .ref, .time, .pair] s (intoReset s) := by
  unfold intoReset
  repeat' first
    | (with_reducible assumption)
    | (with_reducible exact Within.refl _ _)
    | (show Area.sub _ _ = true; rfl)
    | (with_reducible apply Within.then (h' := enterReset_within ..))
    | (with_reducible apply Within.ite)
    | split

theorem noteCause_within (a0) (s : State) : Within [.core] s (noteCause a0 s) := by
  unfold noteCause
  repeat' first
    | (with_reducible assumption)
    | (with_reducible exact Within.refl _ _)
    | (show Area.sub _ _ = true; rfl)
    | (extract_lets +onlyGivenNames t; first | (refine Within.cut [.core] s t (fun h => ?_) ?_; rotate_left; subst t; rotate_right; clear_value t) | clear_value t)
    | refine Within.upd (h := ?_)

theorem powerOn_within (a0 a1) (s : State) : Within [.regs, .core, .mram, .life, .protect, .pat, .fab, .test, .img, .upd, .xp, .vl, .q, .eng, .comp, .flow, .aud, .mac, .ref, .time, .pair] s (powerOn a0 a1 s) := by
  unfold powerOn
  repeat' first
    | (with_reducible assumption)
    | (with_reducible exact Within.refl _ _)
    | (show Area.sub _ _ = true; rfl)
    | (extract_lets +onlyGivenNames t; first | (refine Within.cut [.regs, .core, .mram, .life, .protect, .pat, .fab, .test, .img, .upd, .xp, .vl, .q, .eng, .comp, .flow, .aud, .mac, .ref, .time, .pair] s t (fun h => ?_) ?_; rotate_left; subst t; rotate_right; clear_value t) | (have _h : Long := t) | (have _h := fun x => (t x : State)) | (have _h := fun x y => (t x y : State)) | (have _h := fun x y z => (t x y z : State)) | clear_value t)
    | (with_reducible apply Within.then (h' := loadLife_within ..))
    | (with_reducible apply Within.then (h' := setMode_within ..))
    | refine Within.upd (h := ?_)

theorem resetLow_within (s : State) : Within [.regs, .core, .flash, .settings, .pat, .fab, .test, .img, .upd, .xp, .vl, .q, .eng, .comp, .flow, .aud, .mac, .ref, .time, .pair] s (resetLow s) := by
  unfold resetLow
  repeat' first
    | (with_reducible assumption)
    | (with_reducible exact Within.refl _ _)
    | (show Area.sub _ _ = true; rfl)
    | (extract_lets +onlyGivenNames t; first | (refine Within.cut [.regs, .core, .flash, .settings, .pat, .fab, .test, .img, .upd, .xp, .vl, .q, .eng, .comp, .flow, .aud, .mac, .ref, .time, .pair] s t (fun h => ?_) ?_; rotate_left; subst t; rotate_right; clear_value t) | clear_value t)
    | (with_reducible apply Within.then (h' := intoReset_within ..))
    | (with_reducible apply Within.then (h' := noteCause_within ..))
    | refine Within.upd (h := ?_)

theorem resetRelease_within (a0 a1) (s : State) : Within [.regs, .core, .mram, .life, .settings, .protect, .pat, .fab, .test] s (resetRelease a0 a1 s) := by
  unfold resetRelease
  repeat' first
    | (with_reducible assumption)
    | (with_reducible exact Within.refl _ _)
    | (show Area.sub _ _ = true; rfl)
    | (extract_lets +onlyGivenNames t; first | (refine Within.cut [.regs, .core, .mram, .life, .settings, .protect, .pat, .fab, .test] s t (fun h => ?_) ?_; rotate_left; subst t; rotate_right; clear_value t) | (have _h : Long := t) | clear_value t)
    | (with_reducible apply Within.then (h' := coldEntry_within ..))
    | (with_reducible apply Within.then (h' := findHead_within ..))
    | (with_reducible apply Within.then (h' := lifeAdd_within ..))
    | (with_reducible apply Within.then (h' := mramReport_within ..))
    | (with_reducible apply Within.then (h' := patStat_within ..))
    | (with_reducible apply Within.then (h' := raise_within ..))
    | (with_reducible apply Within.then (h' := rsetN_within ..))
    | (with_reducible apply Within.then (h' := writeLife_within ..))
    | (with_reducible apply Within.ite)
    | split
    | refine Within.upd (h := ?_)

theorem supplyIn_within (a0) (s : State) : Within [.core] s (supplyIn a0 s) := by
  unfold supplyIn
  repeat' first
    | (with_reducible assumption)
    | (with_reducible exact Within.refl _ _)
    | (show Area.sub _ _ = true; rfl)
    | (extract_lets +onlyGivenNames t; first | (refine Within.cut [.core] s t (fun h => ?_) ?_; rotate_left; subst t; rotate_right; clear_value t) | clear_value t)
    | refine Within.upd (h := ?_)

theorem supplyOut_within (a0) (s : State) : Within [.regs, .core, .flash, .settings, .pat, .fab, .test, .img, .upd, .xp, .vl, .q, .eng, .comp, .flow, .aud, .mac, .ref, .time, .pair] s (supplyOut a0 s) := by
  unfold supplyOut
  repeat' first
    | (with_reducible assumption)
    | (with_reducible exact Within.refl _ _)
    | (show Area.sub _ _ = true; rfl)
    | (extract_lets +onlyGivenNames t; first | (refine Within.cut [.regs, .core, .flash, .settings, .pat, .fab, .test, .img, .upd, .xp, .vl, .q, .eng, .comp, .flow, .aud, .mac, .ref, .time, .pair] s t (fun h => ?_) ?_; rotate_left; subst t; rotate_right; clear_value t) | clear_value t)
    | (with_reducible apply Within.then (h' := intoReset_within ..))
    | (with_reducible apply Within.then (h' := noteCause_within ..))
    | refine Within.upd (h := ?_)

theorem synthLock_within (a0) (s : State) : Within [.regs, .core, .pat] s (synthLock a0 s) := by
  unfold synthLock
  repeat' first
    | (with_reducible assumption)
    | (with_reducible exact Within.refl _ _)
    | (show Area.sub _ _ = true; rfl)
    | (extract_lets +onlyGivenNames t; first | (refine Within.cut [.regs, .core, .pat] s t (fun h => ?_) ?_; rotate_left; subst t; rotate_right; clear_value t) | clear_value t)
    | (with_reducible apply Within.then (h' := clockCond_within ..))
    | (with_reducible apply Within.then (h' := rsetN_within ..))
    | (with_reducible apply Within.ite)
    | split

theorem synthLoss_within (a0) (s : State) : Within [.regs, .core, .pat] s (synthLoss a0 s) := by
  unfold synthLoss
  repeat' first
    | (with_reducible assumption)
    | (with_reducible exact Within.refl _ _)
    | (show Area.sub _ _ = true; rfl)
    | (extract_lets +onlyGivenNames t; first | (refine Within.cut [.regs, .core, .pat] s t (fun h => ?_) ?_; rotate_left; subst t; rotate_right; clear_value t) | clear_value t)
    | (with_reducible apply Within.then (h' := raise_within ..))
    | (with_reducible apply Within.then (h' := rsetN_within ..))
    | (with_reducible apply Within.ite)
    | split
    | refine Within.upd (h := ?_)

theorem tick_within (s : State) : Within [.regs, .core, .mram, .pat, .test, .img, .upd, .xp, .vl, .q, .eng, .comp, .flow, .aud, .mac, .ref, .time, .pair, .fresh] s (tick s) := by
  unfold tick
  repeat' first
    | (with_reducible assumption)
    | (with_reducible exact Within.refl _ _)
    | (show Area.sub _ _ = true; rfl)
    | (with_reducible apply Within.then (h' := advanceTicks_within ..))
    | (with_reducible apply Within.then (h' := bootTick_within ..))

end Sys2Proof.Machine
end

