-- ==== Sys2Proof/Laws/WithinUpdateFamily.lean ====
section
/-! SUPPORT. What each operation of Machine/UpdateFamily.lean may change: one frame per operation. -/

namespace Sys2Proof.Machine

set_option Elab.async false
set_option linter.all false
set_option linter.tactic.unusedName false

theorem rbRead_within (a0) (s : State) : Within [.fab] s (rbRead a0 s).2 := by
  unfold rbRead
  repeat' first
    | (with_reducible assumption)
    | (with_reducible exact Within.refl _ _)
    | (show Area.sub _ _ = true; rfl)
    | (extract_lets +onlyGivenNames t; first | (refine Within.cut [.fab] s t (fun h => ?_) ?_; rotate_left; subst t; rotate_right; clear_value t) | (refine Within.cut [.fab] s t.2 (fun h => ?_) ?_; rotate_left; subst t; rotate_right; clear_value t) | (have _h := fun x => (t x : State)) | (have _h := fun x y => (t x y : State)) | (have _h := fun x y z => (t x y z : State)) | clear_value t)
    | (with_reducible apply Within.ite)
    | (with_reducible apply Within.iteSnd)
    | split
    | refine Within.upd (h := ?_)

theorem setDataRead_within (s : State) : Within [.upd] s (setDataRead s).2 := by
  unfold setDataRead
  repeat' first
    | (with_reducible assumption)
    | (with_reducible exact Within.refl _ _)
    | (show Area.sub _ _ = true; rfl)
    | (extract_lets +onlyGivenNames t; first | (refine Within.cut [.upd] s t (fun h => ?_) ?_; rotate_left; subst t; rotate_right; clear_value t) | (refine Within.cut [.upd] s t.2 (fun h => ?_) ?_; rotate_left; subst t; rotate_right; clear_value t) | clear_value t)
    | (with_reducible apply Within.ite)
    | (with_reducible apply Within.iteSnd)
    | split
    | refine Within.upd (h := ?_)

theorem imgRead_within (a0 a1) (s : State) : Within [.regs, .fab, .upd] s (imgRead a0 a1 s).2 := by
  unfold imgRead
  repeat' first
    | (with_reducible assumption)
    | (with_reducible exact Within.refl _ _)
    | (show Area.sub _ _ = true; rfl)
    | (with_reducible apply Within.then (h' := plainRead_within ..))
    | (with_reducible apply Within.then (h' := rbRead_within ..))
    | (with_reducible apply Within.then (h' := setDataRead_within ..))
    | (with_reducible apply Within.ite)
    | (with_reducible apply Within.iteSnd)
    | split

theorem flStat_within (a0 a1) (s : State) : Within [.regs] s (flStat a0 a1 s) := (by unfold flStat; exact fset_within ..)

theorem flCtrlWrite_within (a0 a1) (s : State) : Within [.regs, .core, .pat, .upd] s (flCtrlWrite a0 a1 s) := by
  unfold flCtrlWrite
  repeat' first
    | (with_reducible assumption)
    | (with_reducible exact Within.refl _ _)
    | (show Area.sub _ _ = true; rfl)
    | (extract_lets +onlyGivenNames t; first | (refine Within.cut [.regs, .core, .pat, .upd] s t (fun h => ?_) ?_; rotate_left; subst t; rotate_right; clear_value t) | clear_value t)
    | (with_reducible apply Within.then (h' := flStat_within ..))
    | (with_reducible apply Within.then (h' := refuse_within ..))
    | (with_reducible apply Within.ite)
    | split
    | refine Within.upd (h := ?_)

theorem setCtrlWrite_within (a0) (s : State) : Within [.regs, .upd, .fresh] s (setCtrlWrite a0 s) := by
  unfold setCtrlWrite
  repeat' first
    | (with_reducible assumption)
    | (with_reducible exact Within.refl _ _)
    | (show Area.sub _ _ = true; rfl)
    | (extract_lets +onlyGivenNames t; first | (refine Within.cut [.regs, .upd, .fresh] s t (fun h => ?_) ?_; rotate_left; subst t; rotate_right; clear_value t) | clear_value t)
    | (with_reducible apply Within.then (h' := fset_within ..))
    | (with_reducible apply Within.then (h' := setBegin_within ..))
    | (with_reducible apply Within.ite)
    | split
    | refine Within.upd (h := ?_)

theorem setDataWrite_within (a0) (s : State) : Within [.upd] s (setDataWrite a0 s) := by
  unfold setDataWrite
  repeat' first
    | (with_reducible assumption)
    | (with_reducible exact Within.refl _ _)
    | (show Area.sub _ _ = true; rfl)
    | (extract_lets +onlyGivenNames t; first | (refine Within.cut [.upd] s t (fun h => ?_) ?_; rotate_left; subst t; rotate_right; clear_value t) | clear_value t)
    | (with_reducible apply Within.ite)
    | split
    | refine Within.upd (h := ?_)

theorem updStat_within (a0 a1) (s : State) : Within [.regs] s (updStat a0 a1 s) := (by unfold updStat; exact fset_within ..)

theorem updResult_within (a0) (s : State) : Within [.regs] s (updResult a0 s) := (by unfold updResult; exact updStat_within ..)

theorem castStart_within (a0 a1 a2) (s : State) : Within [.regs, .upd] s (castStart a0 a1 a2 s) := by
  unfold castStart
  repeat' first
    | (with_reducible assumption)
    | (with_reducible exact Within.refl _ _)
    | (show Area.sub _ _ = true; rfl)
    | (extract_lets +onlyGivenNames t; first | (refine Within.cut [.regs, .upd] s t (fun h => ?_) ?_; rotate_left; subst t; rotate_right; clear_value t) | clear_value t)
    | (with_reducible apply Within.then (h' := updResult_within ..))
    | (with_reducible apply Within.ite)
    | split
    | refine Within.upd (h := ?_)

theorem confirm_within (s : State) : Within [.regs, .core, .mram, .settings, .pat, .upd] s (confirm s) := by
  unfold confirm
  repeat' first
    | (with_reducible assumption)
    | (with_reducible exact Within.refl _ _)
    | (show Area.sub _ _ = true; rfl)
    | (extract_lets +onlyGivenNames t; first | (refine Within.cut [.regs, .core, .mram, .settings, .pat, .upd] s t (fun h => ?_) ?_; rotate_left; subst t; rotate_right; clear_value t) | clear_value t)
    | (with_reducible apply Within.then (h' := logEvent_within ..))
    | (with_reducible apply Within.then (h' := putMarker_within ..))
    | (with_reducible apply Within.then (h' := rsetN_within ..))
    | (with_reducible apply Within.then (h' := setArbCount_within ..))
    | (with_reducible apply Within.then (h' := setBootPtr_within ..))
    | (with_reducible apply Within.then (h' := updResult_within ..))
    | (with_reducible apply Within.ite)
    | split
    | refine Within.upd (h := ?_)

theorem verifyStart_within (a0) (s : State) : Within [.regs, .upd] s (verifyStart a0 s) := by
  unfold verifyStart
  repeat' first
    | (with_reducible assumption)
    | (with_reducible exact Within.refl _ _)
    | (show Area.sub _ _ = true; rfl)
    | (extract_lets +onlyGivenNames t; first | (refine Within.cut [.regs, .upd] s t (fun h => ?_) ?_; rotate_left; subst t; rotate_right; clear_value t) | clear_value t)
    | (with_reducible apply Within.then (h' := updResult_within ..))
    | (with_reducible apply Within.ite)
    | split
    | refine Within.upd (h := ?_)

theorem updCtrlWrite_within (a0) (s : State) : Within [.regs, .core, .mram, .settings, .pat, .upd] s (updCtrlWrite a0 s) := by
  unfold updCtrlWrite
  repeat' first
    | (with_reducible assumption)
    | (with_reducible exact Within.refl _ _)
    | (show Area.sub _ _ = true; rfl)
    | (extract_lets +onlyGivenNames t; first | (refine Within.cut [.regs, .core, .mram, .settings, .pat, .upd] s t (fun h => ?_) ?_; rotate_left; subst t; rotate_right; clear_value t) | clear_value t)
    | (with_reducible apply Within.then (h' := castStart_within ..))
    | (with_reducible apply Within.then (h' := confirm_within ..))
    | (with_reducible apply Within.then (h' := verifyStart_within ..))
    | (with_reducible apply Within.ite)
    | split

theorem imgWrite_within (a0 a1 a2) (s : State) : Within [.regs, .core, .mram, .settings, .pat, .fab, .upd, .fresh] s (imgWrite a0 a1 a2 s) := by
  unfold imgWrite
  repeat' first
    | (with_reducible assumption)
    | (with_reducible exact Within.refl _ _)
    | (show Area.sub _ _ = true; rfl)
    | (extract_lets +onlyGivenNames t; first | (refine Within.cut [.regs, .core, .mram, .settings, .pat, .fab, .upd, .fresh] s t (fun h => ?_) ?_; rotate_left; subst t; rotate_right; clear_value t) | clear_value t)
    | (with_reducible apply Within.then (h' := flCtrlWrite_within ..))
    | (with_reducible apply Within.then (h' := plainWrite_within ..))
    | (with_reducible apply Within.then (h' := setCtrlWrite_within ..))
    | (with_reducible apply Within.then (h' := setDataWrite_within ..))
    | (with_reducible apply Within.then (h' := updCtrlWrite_within ..))
    | (with_reducible apply Within.ite)
    | split
    | refine Within.upd (h := ?_)

theorem flashLoad_within (a0) (s : State) : Within [.regs, .fresh] s (flashLoad a0 s) := by
  unfold flashLoad
  repeat' first
    | intro _
    | (with_reducible assumption)
    | (with_reducible exact Within.refl _ _)
    | (show Area.sub _ _ = true; rfl)
    | (extract_lets +onlyGivenNames t; first | (refine Within.cut [.regs, .fresh] s t (fun h => ?_) ?_; rotate_left; subst t; rotate_right; clear_value t) | (have _h := fun x => (t x : State)) | (have _h := fun x y => (t x y : State)) | (have _h := fun x y z => (t x y z : State)) | clear_value t)
    | (with_reducible apply Within.then (h' := rsetN_within ..))
    | (with_reducible apply Within.then (h' := spend_within ..))
    | (with_reducible apply Within.ite)
    | (with_reducible apply Within.foldl)
    | split

theorem flashSpoil_within (a0 a1) (s : State) : Within [.flash, .fresh] s (flashSpoil a0 a1 s) := by
  unfold flashSpoil
  repeat' first
    | (with_reducible assumption)
    | (with_reducible exact Within.refl _ _)
    | (show Area.sub _ _ = true; rfl)
    | (extract_lets +onlyGivenNames t; first | (refine Within.cut [.flash, .fresh] s t (fun h => ?_) ?_; rotate_left; subst t; rotate_right; clear_value t) | clear_value t)
    | (with_reducible apply Within.then (h' := flashPut_within ..))
    | (with_reducible apply Within.then (h' := spend_within ..))
    | (with_reducible apply Within.ite)
    | split

theorem setVerified_within (a0 a1) (s : State) : Within [.regs] s (setVerified a0 a1 s) := by
  unfold setVerified
  repeat' first
    | (with_reducible assumption)
    | (with_reducible exact Within.refl _ _)
    | (show Area.sub _ _ = true; rfl)
    | (with_reducible apply Within.then (h' := updStat_within ..))
    | (with_reducible apply Within.ite)
    | split

theorem flashDone_within (a0) (s : State) : Within [.regs, .core, .flash, .pat, .upd, .fresh] s (flashDone a0 s) := by
  unfold flashDone
  repeat' first
    | (with_reducible assumption)
    | (with_reducible exact Within.refl _ _)
    | (show Area.sub _ _ = true; rfl)
    | (extract_lets +onlyGivenNames t; first | (refine Within.cut [.regs, .core, .flash, .pat, .upd, .fresh] s t (fun h => ?_) ?_; rotate_left; subst t; rotate_right; clear_value t) | clear_value t)
    | (with_reducible apply Within.then (h' := flStat_within ..))
    | (with_reducible apply Within.then (h' := flashApply_within ..))
    | (with_reducible apply Within.then (h' := flashLoad_within ..))
    | (with_reducible apply Within.then (h' := flashSpoil_within ..))
    | (with_reducible apply Within.then (h' := raise_within ..))
    | (with_reducible apply Within.then (h' := setVerified_within ..))
    | (with_reducible apply Within.ite)
    | split
    | refine Within.upd (h := ?_)

theorem updFail_within (a0) (s : State) : Within [.regs] s (updFail a0 s) := (by unfold updFail; exact updStat_within ..)

theorem preloadDone_within (a0) (s : State) : Within [.regs, .core, .pat, .upd, .q] s (preloadDone a0 s) := by
  unfold preloadDone
  repeat' first
    | (with_reducible assumption)
    | (with_reducible exact Within.refl _ _)
    | (show Area.sub _ _ = true; rfl)
    | (extract_lets +onlyGivenNames t; first | (refine Within.cut [.regs, .core, .pat, .upd, .q] s t (fun h => ?_) ?_; rotate_left; subst t; rotate_right; clear_value t) | clear_value t)
    | (with_reducible apply Within.then (h' := raise_within ..))
    | (with_reducible apply Within.then (h' := stage_within ..))
    | (with_reducible apply Within.then (h' := updFail_within ..))
    | (with_reducible apply Within.then (h' := updResult_within ..))
    | (with_reducible apply Within.ite)
    | split
    | refine Within.upd (h := ?_)

theorem setLoad_within (a0) (s : State) : Within [.regs, .upd] s (setLoad a0 s) := by
  unfold setLoad
  repeat' first
    | (with_reducible assumption)
    | (with_reducible exact Within.refl _ _)
    | (show Area.sub _ _ = true; rfl)
    | (extract_lets +onlyGivenNames t; first | (refine Within.cut [.regs, .upd] s t (fun h => ?_) ?_; rotate_left; subst t; rotate_right; clear_value t) | clear_value t)
    | (with_reducible apply Within.then (h' := fset_within ..))
    | refine Within.upd (h := ?_)

theorem setPut_within (a0) (s : State) : Within [.regs, .core, .settings, .pat] s (setPut a0 s) := by
  unfold setPut
  repeat' first
    | (with_reducible assumption)
    | (with_reducible exact Within.refl _ _)
    | (show Area.sub _ _ = true; rfl)
    | (extract_lets +onlyGivenNames t; first | (refine Within.cut [.regs, .core, .settings, .pat] s t (fun h => ?_) ?_; rotate_left; subst t; rotate_right; clear_value t) | (have _h : Long := t) | clear_value t)
    | (with_reducible apply Within.then (h' := logEvent_within ..))
    | (with_reducible apply Within.then (h' := raise_within ..))
    | (with_reducible apply Within.then (h' := setAppend_within ..))
    | (with_reducible apply Within.then (h' := setResult_within ..))
    | (with_reducible apply Within.ite)
    | split
    | refine Within.upd (h := ?_)

theorem setDone_within (s : State) : Within [.regs, .core, .settings, .pat, .upd] s (setDone s) := by
  unfold setDone
  repeat' first
    | (with_reducible assumption)
    | (with_reducible exact Within.refl _ _)
    | (show Area.sub _ _ = true; rfl)
    | (extract_lets +onlyGivenNames t; first | (refine Within.cut [.regs, .core, .settings, .pat, .upd] s t (fun h => ?_) ?_; rotate_left; subst t; rotate_right; clear_value t) | (have _h : Long := t) | clear_value t)
    | (with_reducible apply Within.then (h' := setLoad_within ..))
    | (with_reducible apply Within.then (h' := setPut_within ..))
    | (with_reducible apply Within.then (h' := setResult_within ..))
    | (with_reducible apply Within.ite)
    | split
    | refine Within.upd (h := ?_)

theorem verifyDone_within (a0) (s : State) : Within [.regs, .core, .pat, .upd] s (verifyDone a0 s) := by
  unfold verifyDone
  repeat' first
    | (with_reducible assumption)
    | (with_reducible exact Within.refl _ _)
    | (show Area.sub _ _ = true; rfl)
    | (extract_lets +onlyGivenNames t; first | (refine Within.cut [.regs, .core, .pat, .upd] s t (fun h => ?_) ?_; rotate_left; subst t; rotate_right; clear_value t) | clear_value t)
    | (with_reducible apply Within.then (h' := logEvent_within ..))
    | (with_reducible apply Within.then (h' := raise_within ..))
    | (with_reducible apply Within.then (h' := rsetN_within ..))
    | (with_reducible apply Within.then (h' := setVerified_within ..))
    | (with_reducible apply Within.then (h' := updFail_within ..))
    | (with_reducible apply Within.ite)
    | split
    | refine Within.upd (h := ?_)

theorem windowExpire_within (s : State) : Within [.regs, .core, .life, .settings, .pat, .upd, .time] s (windowExpire s) := by
  unfold windowExpire
  repeat' first
    | (with_reducible assumption)
    | (with_reducible exact Within.refl _ _)
    | (show Area.sub _ _ = true; rfl)
    | (extract_lets +onlyGivenNames t; first | (refine Within.cut [.regs, .core, .life, .settings, .pat, .upd, .time] s t (fun h => ?_) ?_; rotate_left; subst t; rotate_right; clear_value t) | clear_value t)
    | (with_reducible apply Within.then (h' := advanceTicks_within ..))
    | (with_reducible apply Within.then (h' := lifeAdd_within ..))
    | (with_reducible apply Within.then (h' := logEvent_within ..))
    | (with_reducible apply Within.then (h' := putMarker_within ..))
    | (with_reducible apply Within.then (h' := raise_within ..))
    | (with_reducible apply Within.ite)
    | split
    | refine Within.upd (h := ?_)

end Sys2Proof.Machine
end

