-- ==== Sys2Proof/Laws/WithinCastFamily.lean ====
section
/-! SUPPORT. What each operation of Machine/CastFamily.lean may change: one frame per operation. -/

namespace Sys2Proof.Machine

set_option Elab.async false
set_option linter.all false
set_option linter.tactic.unusedName false

theorem carryOne_within {w : List Area} {eff : State → State} {s u : State} (hb : Area.sub [.regs] w = true)
    (hu : Within w s u) (h : ∀ t, Within w s t → Within w s (eff t)) : Within w s (carryOne eff u) := by
  unfold carryOne
  simp only []
  split
  · exact hu.then (count_within ..) hb
  · exact (h _ (hu.then (rsetN_within ..) hb)).then (rsetN_within ..) hb

theorem carryReset_within {w : List Area} {was : State} {eff : State → State} {s u : State}
    (hb : Area.sub [.regs] w = true) (hu : Within w s u) (h : ∀ t, Within w s t → Within w s (eff t)) :
    Within w s (carryReset was eff u) := by
  unfold carryReset
  split
  · exact hu
  · exact carryOne_within hb hu h

theorem carryTable_within (a0 a1 a2 a3) (s : State) : Within [.regs] s (carryTable a0 a1 a2 a3 s).2 := by
  unfold carryTable
  repeat' first
    | (with_reducible assumption)
    | (with_reducible exact Within.refl _ _)
    | (show Area.sub _ _ = true; rfl)
    | (extract_lets +onlyGivenNames t; first | (refine Within.cut [.regs] s t (fun h => ?_) ?_; rotate_left; subst t; rotate_right; clear_value t) | (refine Within.cut [.regs] s t.2 (fun h => ?_) ?_; rotate_left; subst t; rotate_right; clear_value t) | clear_value t)
    | (with_reducible apply Within.then (h' := countN_within ..))

theorem writeLayer_within (a0 a1) (s : State) : Within [.regs, .core, .pat, .comp] s (writeLayer a0 a1 s) := by
  unfold writeLayer
  repeat' first
    | intro _
    | (with_reducible assumption)
    | (with_reducible exact Within.refl _ _)
    | (show Area.sub _ _ = true; rfl)
    | (extract_lets +onlyGivenNames t; first | (refine Within.cut [.regs, .core, .pat, .comp] s t (fun h => ?_) ?_; rotate_left; subst t; rotate_right; clear_value t) | clear_value t)
    | (with_reducible apply Within.then (h' := compWrite_within ..))
    | (with_reducible apply Within.then (h' := rsetN_within ..))
    | (with_reducible apply Within.foldl)

theorem writeLeg_within (a0 a1) (s : State) : Within [.regs, .core, .pat, .flow] s (writeLeg a0 a1 s) := by
  unfold writeLeg
  repeat' first
    | intro _
    | (with_reducible assumption)
    | (with_reducible exact Within.refl _ _)
    | (show Area.sub _ _ = true; rfl)
    | (extract_lets +onlyGivenNames t; first | (refine Within.cut [.regs, .core, .pat, .flow] s t (fun h => ?_) ?_; rotate_left; subst t; rotate_right; clear_value t) | clear_value t)
    | (with_reducible apply Within.then (h' := legCommit_within ..))
    | (with_reducible apply Within.then (h' := rsetN_within ..))
    | (with_reducible apply Within.foldl)

theorem applyCarried_within (u0 : State) (a0) (s : State) : Within [.regs, .core, .pat, .xp, .vl, .eng, .comp, .flow, .aud, .ref] s (applyCarried u0 a0 s) := by
  unfold applyCarried
  repeat' first
    | intro _
    | (with_reducible assumption)
    | (with_reducible exact Within.refl _ _)
    | (show Area.sub _ _ = true; rfl)
    | (extract_lets +onlyGivenNames t; first | (refine Within.cut [.regs, .core, .pat, .xp, .vl, .eng, .comp, .flow, .aud, .ref] s t (fun h => ?_) ?_; rotate_left; subst t; rotate_right; clear_value t) | (refine Within.cut [.regs, .core, .pat, .xp, .vl, .eng, .comp, .flow, .aud, .ref] s t.2 (fun h => ?_) ?_; rotate_left; subst t; rotate_right; clear_value t) | clear_value t)
    | (with_reducible refine carryOne_within ?_ ?_ (fun t => ?_))
    | (with_reducible refine carryReset_within ?_ ?_ (fun t => ?_))
    | (with_reducible apply Within.then (h' := carryTable_within ..))
    | (with_reducible apply Within.then (h' := mirroredEffect_within ..))
    | (with_reducible apply Within.then (h' := mixWrite_within ..))
    | (with_reducible apply Within.then (h' := writeLayer_within ..))
    | (with_reducible apply Within.then (h' := writeLeg_within ..))
    | (with_reducible apply Within.foldl)
    | (with_reducible apply Within.foldlSnd)
    | refine Within.upd (h := ?_)

theorem castBlocks_within (a0 a1) (s : State) : Within [.core, .fab, .xp, .vl, .q, .eng, .comp, .flow, .aud, .mac, .time, .pair] s (castBlocks a0 a1 s) := by
  unfold castBlocks
  repeat' first
    | (with_reducible assumption)
    | (with_reducible exact Within.refl _ _)
    | (show Area.sub _ _ = true; rfl)
    | (extract_lets +onlyGivenNames t; first | (refine Within.cut [.core, .fab, .xp, .vl, .q, .eng, .comp, .flow, .aud, .mac, .time, .pair] s t (fun h => ?_) ?_; rotate_left; subst t; rotate_right; clear_value t) | clear_value t)
    | (with_reducible apply Within.ite)
    | split
    | refine Within.upd (h := ?_)

theorem castEntries_within (a0 a1 a2) (s : State) : Within [.regs, .ref] s (castEntries a0 a1 a2 s) := by
  unfold castEntries
  repeat' first
    | intro _
    | (with_reducible assumption)
    | (with_reducible exact Within.refl _ _)
    | (show Area.sub _ _ = true; rfl)
    | (extract_lets +onlyGivenNames t; first | (refine Within.cut [.regs, .ref] s t (fun h => ?_) ?_; rotate_left; subst t; rotate_right; clear_value t) | (have _h := fun x => (t x : State)) | (have _h := fun x y => (t x y : State)) | (have _h := fun x y z => (t x y z : State)) | clear_value t)
    | (with_reducible apply Within.then (h' := entStat_within ..))
    | (with_reducible apply Within.then (h' := rset_within ..))
    | (with_reducible apply Within.then (h' := rsetN_within ..))
    | (with_reducible apply Within.then (h' := setCur_within ..))
    | (with_reducible apply Within.then (h' := setRefPl_within ..))
    | (with_reducible apply Within.ite)
    | (with_reducible apply Within.foldl)
    | split
    | refine Within.upd (h := ?_)

theorem mapRegs_within (a0) (s : State) : Within [.regs] s (mapRegs a0 s) := by
  unfold mapRegs
  repeat' first
    | intro _
    | (with_reducible assumption)
    | (with_reducible exact Within.refl _ _)
    | (show Area.sub _ _ = true; rfl)
    | (extract_lets +onlyGivenNames t; first | (refine Within.cut [.regs] s t (fun h => ?_) ?_; rotate_left; subst t; rotate_right; clear_value t) | clear_value t)
    | (with_reducible apply Within.then (h' := rsetN_within ..))
    | (with_reducible apply Within.foldl)
    | refine Within.upd (h := ?_)

theorem freshPlane_within (a0) (s : State) : Within [.regs] s (freshPlane a0 s) := by
  unfold freshPlane
  repeat' first
    | intro _
    | (with_reducible assumption)
    | (with_reducible exact Within.refl _ _)
    | (show Area.sub _ _ = true; rfl)
    | (with_reducible apply Within.then (h' := mapRegs_within ..))
    | (with_reducible apply Within.ite)
    | (with_reducible apply Within.foldl)
    | split

theorem castPlane_within (a0 a1 a2) (s : State) : Within [.regs, .core, .pat, .ref] s (castPlane a0 a1 a2 s) := by
  unfold castPlane
  repeat' first
    | intro _
    | (with_reducible assumption)
    | (with_reducible exact Within.refl _ _)
    | (show Area.sub _ _ = true; rfl)
    | (extract_lets +onlyGivenNames t; first | (refine Within.cut [.regs, .core, .pat, .ref] s t (fun h => ?_) ?_; rotate_left; subst t; rotate_right; clear_value t) | clear_value t)
    | (with_reducible apply Within.then (h' := castEntries_within ..))
    | (with_reducible apply Within.then (h' := entStat_within ..))
    | (with_reducible apply Within.then (h' := framePulse_within ..))
    | (with_reducible apply Within.then (h' := freshPlane_within ..))
    | (with_reducible apply Within.then (h' := fset_within ..))
    | (with_reducible apply Within.then (h' := planeStart_within ..))
    | (with_reducible apply Within.then (h' := refDecide_within ..))
    | (with_reducible apply Within.then (h' := setPlaneState_within ..))
    | (with_reducible apply Within.then (h' := setRefPl_within ..))
    | (with_reducible apply Within.ite)
    | (with_reducible apply Within.foldl)
    | split
    | refine Within.upd (h := ?_)

theorem castRegs_within (a0 a1) (s : State) : Within [.regs] s (castRegs a0 a1 s) := (by unfold castRegs; exact mapRegs_within ..)

theorem castApply_within (s : State) : Within [.regs, .core, .mram, .pat, .fab, .img, .upd, .xp, .vl, .q, .eng, .comp, .flow, .aud, .mac, .ref, .time, .pair] s (castApply s) := by
  unfold castApply
  repeat' first
    | (with_reducible assumption)
    | (with_reducible exact Within.refl _ _)
    | (show Area.sub _ _ = true; rfl)
    | (extract_lets +onlyGivenNames t; first | (refine Within.cut [.regs, .core, .mram, .pat, .fab, .img, .upd, .xp, .vl, .q, .eng, .comp, .flow, .aud, .mac, .ref, .time, .pair] s t (fun h => ?_) ?_; rotate_left; subst t; rotate_right; clear_value t) | clear_value t)
    | (with_reducible apply Within.then (h' := applyBlocks_within ..))
    | (with_reducible apply Within.then (h' := applyCarried_within ..))
    | (with_reducible apply Within.then (h' := applyHeader_within ..))
    | (with_reducible apply Within.then (h' := applyPins_within ..))
    | (with_reducible apply Within.then (h' := applyTables_within ..))
    | (with_reducible apply Within.then (h' := castBlocks_within ..))
    | (with_reducible apply Within.then (h' := castPlane_within ..))
    | (with_reducible apply Within.then (h' := castRegs_within ..))
    | (with_reducible apply Within.then (h' := condEnd_within ..))
    | (with_reducible apply Within.then (h' := keepRestore_within ..))
    | (with_reducible apply Within.then (h' := rsetN_within ..))
    | (with_reducible apply Within.then (h' := setModeF_within ..))
    | (with_reducible apply Within.ite)
    | split
    | refine Within.upd (h := ?_)

theorem castConds_within (s : State) : Within [.regs, .core, .pat, .q] s (castConds s) := by
  unfold castConds
  repeat' first
    | (with_reducible assumption)
    | (with_reducible exact Within.refl _ _)
    | (show Area.sub _ _ = true; rfl)
    | (extract_lets +onlyGivenNames t; first | (refine Within.cut [.regs, .core, .pat, .q] s t (fun h => ?_) ?_; rotate_left; subst t; rotate_right; clear_value t) | clear_value t)
    | (with_reducible apply Within.then (h' := condSet_within ..))
    | refine Within.upd (h := ?_)

theorem castPair_within (s : State) : Within [.regs, .core, .pat, .xp, .aud, .pair] s (castPair s) := by
  unfold castPair
  repeat' first
    | (with_reducible assumption)
    | (with_reducible exact Within.refl _ _)
    | (show Area.sub _ _ = true; rfl)
    | (extract_lets +onlyGivenNames t; first | (refine Within.cut [.regs, .core, .pat, .xp, .aud, .pair] s t (fun h => ?_) ?_; rotate_left; subst t; rotate_right; clear_value t) | clear_value t)
    | (with_reducible apply Within.then (h' := setLink_within ..))
    | (with_reducible apply Within.ite)
    | split
    | refine Within.upd (h := ?_)

theorem castPulses_within (s : State) : Within [.regs, .core, .time] s (castPulses s) := by
  unfold castPulses
  repeat' first
    | (with_reducible assumption)
    | (with_reducible exact Within.refl _ _)
    | (show Area.sub _ _ = true; rfl)
    | (extract_lets +onlyGivenNames t; first | (refine Within.cut [.regs, .core, .time] s t (fun h => ?_) ?_; rotate_left; subst t; rotate_right; clear_value t) | clear_value t)
    | (with_reducible apply Within.then (h' := mapRegs_within ..))
    | (with_reducible apply Within.ite)
    | split
    | refine Within.upd (h := ?_)

theorem castPause_within (s : State) : Within [.regs, .core, .mram, .life, .settings, .pat, .test, .upd, .xp, .q, .aud, .time, .pair] s (castPause s) := by
  unfold castPause
  repeat' first
    | intro _
    | (with_reducible assumption)
    | (with_reducible exact Within.refl _ _)
    | (show Area.sub _ _ = true; rfl)
    | (extract_lets +onlyGivenNames t; first | (refine Within.cut [.regs, .core, .mram, .life, .settings, .pat, .test, .upd, .xp, .q, .aud, .time, .pair] s t (fun h => ?_) ?_; rotate_left; subst t; rotate_right; clear_value t) | clear_value t)
    | (with_reducible apply Within.then (h' := audRefuseHeld_within ..))
    | (with_reducible apply Within.then (h' := castConds_within ..))
    | (with_reducible apply Within.then (h' := castPulses_within ..))
    | (with_reducible apply Within.then (h' := keepCastFlush_within ..))
    | (with_reducible apply Within.then (h' := leaveTest_within ..))
    | (with_reducible apply Within.then (h' := lifeAdd_within ..))
    | (with_reducible apply Within.then (h' := logEvent_within ..))
    | (with_reducible apply Within.then (h' := macEnter_within ..))
    | (with_reducible apply Within.then (h' := putMarker_within ..))
    | (with_reducible apply Within.then (h' := refreshPins_within ..))
    | (with_reducible apply Within.then (h' := refuseHeld_within ..))
    | (with_reducible apply Within.then (h' := rsetN_within ..))
    | (with_reducible apply Within.then (h' := setCause_within ..))
    | (with_reducible apply Within.then (h' := setLink_within ..))
    | (with_reducible apply Within.then (h' := setMode_within ..))
    | (with_reducible apply Within.then (h' := setModeF_within ..))
    | (with_reducible apply Within.ite)
    | (with_reducible apply Within.foldl)
    | split
    | refine Within.upd (h := ?_)

theorem castRun_within (a0 a1) (s : State) : Within [.regs, .core, .pat, .xp, .vl, .mac, .ref] s (castRun a0 a1 s) := by
  unfold castRun
  repeat' first
    | intro _
    | (with_reducible assumption)
    | (with_reducible exact Within.refl _ _)
    | (show Area.sub _ _ = true; rfl)
    | (extract_lets +onlyGivenNames t; first | (refine Within.cut [.regs, .core, .pat, .xp, .vl, .mac, .ref] s t (fun h => ?_) ?_; rotate_left; subst t; rotate_right; clear_value t) | clear_value t)
    | (with_reducible apply Within.then (h' := audioStart_within ..))
    | (with_reducible apply Within.then (h' := dpEnable_within ..))
    | (with_reducible apply Within.then (h' := macApplyEn_within ..))
    | (with_reducible apply Within.then (h' := presentMade_within ..))
    | (with_reducible apply Within.then (h' := refreshPresent_within ..))
    | (with_reducible apply Within.then (h' := rxStart_within ..))
    | (with_reducible apply Within.ite)
    | (with_reducible apply Within.foldl)
    | split

theorem castResume_within (a0) (s : State) : Within [.regs, .core, .mram, .pat, .fab, .test, .img, .upd, .xp, .vl, .q, .eng, .comp, .flow, .aud, .mac, .ref, .time, .pair, .fresh] s (castResume a0 s) := by
  unfold castResume
  repeat' first
    | (with_reducible assumption)
    | (with_reducible exact Within.refl _ _)
    | (show Area.sub _ _ = true; rfl)
    | (extract_lets +onlyGivenNames t; first | (refine Within.cut [.regs, .core, .mram, .pat, .fab, .test, .img, .upd, .xp, .vl, .q, .eng, .comp, .flow, .aud, .mac, .ref, .time, .pair, .fresh] s t (fun h => ?_) ?_; rotate_left; subst t; rotate_right; clear_value t) | clear_value t)
    | (with_reducible apply Within.then (h' := advanceTicks_within ..))
    | (with_reducible apply Within.then (h' := bridgeCond_within ..))
    | (with_reducible apply Within.then (h' := castApply_within ..))
    | (with_reducible apply Within.then (h' := castPair_within ..))
    | (with_reducible apply Within.then (h' := castPlane_within ..))
    | (with_reducible apply Within.then (h' := castRun_within ..))
    | (with_reducible apply Within.then (h' := clockCond_within ..))
    | (with_reducible apply Within.then (h' := condSet_within ..))
    | (with_reducible apply Within.then (h' := heldClear_within ..))
    | (with_reducible apply Within.then (h' := leaveTest_within ..))
    | (with_reducible apply Within.then (h' := logEvent_within ..))
    | (with_reducible apply Within.then (h' := pairStat_within ..))
    | (with_reducible apply Within.then (h' := raise_within ..))
    | (with_reducible apply Within.then (h' := refFollow_within ..))
    | (with_reducible apply Within.then (h' := refreshPins_within ..))
    | (with_reducible apply Within.then (h' := rsetN_within ..))
    | (with_reducible apply Within.then (h' := setMode_within ..))
    | (with_reducible apply Within.then (h' := setModeF_within ..))
    | (with_reducible apply Within.then (h' := startWaiting_within ..))
    | (with_reducible apply Within.then (h' := updResult_within ..))
    | (with_reducible apply Within.ite)
    | split
    | refine Within.upd (h := ?_)

theorem castSwitch_within (a0) (s : State) : Within [.regs, .core, .mram, .pat, .fab, .img, .upd, .xp, .vl, .q, .eng, .comp, .flow, .aud, .mac, .ref, .time, .pair] s (castSwitch a0 s) := by
  unfold castSwitch
  repeat' first
    | (with_reducible assumption)
    | (with_reducible exact Within.refl _ _)
    | (show Area.sub _ _ = true; rfl)
    | (extract_lets +onlyGivenNames t; first | (refine Within.cut [.regs, .core, .mram, .pat, .fab, .img, .upd, .xp, .vl, .q, .eng, .comp, .flow, .aud, .mac, .ref, .time, .pair] s t (fun h => ?_) ?_; rotate_left; subst t; rotate_right; clear_value t) | clear_value t)
    | (with_reducible apply Within.then (h' := castApply_within ..))
    | (with_reducible apply Within.then (h' := castPlane_within ..))
    | (with_reducible apply Within.ite)
    | split
    | refine Within.upd (h := ?_)

end Sys2Proof.Machine
end

