-- ==== Sys2Proof/Laws/WithinHostFamily.lean ====
section
/-! SUPPORT. What each operation of Machine/HostFamily.lean may change: one frame per operation. -/

namespace Sys2Proof.Machine

set_option Elab.async false
set_option linter.all false
set_option linter.tactic.unusedName false

theorem badSize_within (a0 a1 a2) (s : State) : Within [.regs, .fab] s (badSize a0 a1 a2 s) := by
  unfold badSize
  repeat' first
    | (with_reducible assumption)
    | (with_reducible exact Within.refl _ _)
    | (show Area.sub _ _ = true; rfl)
    | (extract_lets +onlyGivenNames t; first | (refine Within.cut [.regs, .fab] s t (fun h => ?_) ?_; rotate_left; subst t; rotate_right; clear_value t) | clear_value t)
    | (with_reducible apply Within.then (h' := count_within ..))
    | (with_reducible apply Within.then (h' := emit_within ..))
    | (with_reducible apply Within.then (h' := holdReq_within ..))
    | (with_reducible apply Within.ite)
    | split
    | refine Within.upd (h := ?_)

theorem regRead_within (a0 a1) (s : State) : Within [.regs, .fab, .upd, .time] s (regRead a0 a1 s).2 := by
  unfold regRead
  repeat' first
    | (with_reducible assumption)
    | (with_reducible exact Within.refl _ _)
    | (show Area.sub _ _ = true; rfl)
    | (with_reducible apply Within.then (h' := coefRead_within ..))
    | (with_reducible apply Within.then (h' := imgRead_within ..))
    | (with_reducible apply Within.then (h' := lutRead_within ..))
    | (with_reducible apply Within.then (h' := plainRead_within ..))
    | (with_reducible apply Within.then (h' := refRefresh_within ..))
    | (with_reducible apply Within.then (h' := tciReadNow_within ..))
    | (with_reducible apply Within.then (h' := tlutRead_within ..))
    | (with_reducible apply Within.ite)
    | (with_reducible apply Within.iteSnd)
    | split

theorem readWord_within (a0 a1) (s : State) : Within [.regs, .fab, .upd, .time] s (readWord a0 a1 s) := by
  unfold readWord
  repeat' first
    | intro _
    | (with_reducible assumption)
    | (with_reducible exact Within.refl _ _)
    | (show Area.sub _ _ = true; rfl)
    | (with_reducible refine hostRead_within ?_ ?_ (fun t => ?_))
    | (with_reducible apply Within.then (h' := regRead_within ..))
    | (with_reducible apply Within.foldl)
    | (with_reducible apply Within.foldlSnd)

theorem accessRead_within (a0 a1 a2) (s : State) : Within [.regs, .fab, .upd, .time] s (accessRead a0 a1 a2 s) := by
  unfold accessRead
  repeat' first
    | intro _
    | (with_reducible assumption)
    | (with_reducible exact Within.refl _ _)
    | (show Area.sub _ _ = true; rfl)
    | (with_reducible apply Within.then (h' := badSize_within ..))
    | (with_reducible apply Within.then (h' := emit_within ..))
    | (with_reducible apply Within.then (h' := readWord_within ..))
    | (with_reducible apply Within.ite)
    | (with_reducible apply Within.foldl)
    | split

theorem faultWrite_within (a0 a1 a2) (s : State) : Within [.regs, .core, .pat] s (faultWrite a0 a1 a2 s) := by
  unfold faultWrite
  repeat' first
    | (with_reducible assumption)
    | (with_reducible exact Within.refl _ _)
    | (show Area.sub _ _ = true; rfl)
    | (with_reducible apply Within.then (h' := clearFaults_within ..))
    | (with_reducible apply Within.then (h' := faultSevWrite_within ..))
    | (with_reducible apply Within.then (h' := plainWrite_within ..))
    | (with_reducible apply Within.ite)
    | split

theorem globalWrite_within (a0 a1) (s : State) : Within [.regs, .core, .flash, .mram, .life, .settings, .pat, .fab, .test, .img, .upd, .xp, .vl, .q, .eng, .comp, .flow, .aud, .mac, .ref, .time, .pair, .fresh] s (globalWrite a0 a1 s) := by
  unfold globalWrite
  repeat' first
    | (with_reducible assumption)
    | (with_reducible exact Within.refl _ _)
    | (show Area.sub _ _ = true; rfl)
    | (extract_lets +onlyGivenNames t; first | (refine Within.cut [.regs, .core, .flash, .mram, .life, .settings, .pat, .fab, .test, .img, .upd, .xp, .vl, .q, .eng, .comp, .flow, .aud, .mac, .ref, .time, .pair, .fresh] s t (fun h => ?_) ?_; rotate_left; subst t; rotate_right; clear_value t) | clear_value t)
    | (with_reducible apply Within.then (h' := fset_within ..))
    | (with_reducible apply Within.then (h' := hostBootWrite_within ..))
    | (with_reducible apply Within.then (h' := plainWrite_within ..))
    | (with_reducible apply Within.then (h' := refreshPins_within ..))
    | (with_reducible apply Within.then (h' := resetCtrlWrite_within ..))
    | (with_reducible apply Within.then (h' := setBoot_within ..))
    | (with_reducible apply Within.ite)
    | split

theorem msixWrite_within (a0 a1) (s : State) : Within [.regs] s (msixWrite a0 a1 s) := by
  unfold msixWrite
  repeat' first
    | (with_reducible assumption)
    | (with_reducible exact Within.refl _ _)
    | (show Area.sub _ _ = true; rfl)
    | (with_reducible apply Within.then (h' := msixCtrlWrite_within ..))
    | (with_reducible apply Within.then (h' := plainWrite_within ..))
    | (with_reducible apply Within.ite)
    | split

theorem patinaWrite_within (a0 a1 a2) (s : State) : Within [.regs, .core, .mram, .pat] s (patinaWrite a0 a1 a2 s) := by
  unfold patinaWrite
  repeat' first
    | (with_reducible assumption)
    | (with_reducible exact Within.refl _ _)
    | (show Area.sub _ _ = true; rfl)
    | (with_reducible apply Within.then (h' := hostEvtWrite_within ..))
    | (with_reducible apply Within.then (h' := keepCtrlWrite_within ..))
    | (with_reducible apply Within.then (h' := plainWrite_within ..))
    | (with_reducible apply Within.ite)
    | split

theorem regWrite_within (a0 a1 a2) (s : State) : Within [.regs, .core, .flash, .mram, .life, .settings, .pat, .fab, .test, .img, .upd, .xp, .vl, .q, .eng, .comp, .flow, .aud, .mac, .ref, .time, .pair, .fresh] s (regWrite a0 a1 a2 s) := by
  unfold regWrite
  repeat' first
    | (with_reducible assumption)
    | (with_reducible exact Within.refl _ _)
    | (show Area.sub _ _ = true; rfl)
    | (with_reducible apply Within.then (h' := faultWrite_within ..))
    | (with_reducible apply Within.then (h' := globalWrite_within ..))
    | (with_reducible apply Within.then (h' := imgWrite_within ..))
    | (with_reducible apply Within.then (h' := macWrite_within ..))
    | (with_reducible apply Within.then (h' := mirroredEffect_within ..))
    | (with_reducible apply Within.then (h' := mresetWrite_within ..))
    | (with_reducible apply Within.then (h' := msixWrite_within ..))
    | (with_reducible apply Within.then (h' := pairWrite_within ..))
    | (with_reducible apply Within.then (h' := patinaWrite_within ..))
    | (with_reducible apply Within.then (h' := plainWrite_within ..))
    | (with_reducible apply Within.then (h' := refuse_within ..))
    | (with_reducible apply Within.then (h' := testWrite_within ..))
    | (with_reducible apply Within.then (h' := timeWrite_within ..))
    | (with_reducible apply Within.ite)
    | split

theorem writeWord_within (a0 a1 a2) (s : State) : Within [.regs, .core, .flash, .mram, .life, .settings, .pat, .fab, .test, .img, .upd, .xp, .vl, .q, .eng, .comp, .flow, .aud, .mac, .ref, .time, .pair, .fresh] s (writeWord a0 a1 a2 s) := by
  unfold writeWord
  repeat' first
    | intro _
    | (with_reducible assumption)
    | (with_reducible exact Within.refl _ _)
    | (show Area.sub _ _ = true; rfl)
    | (with_reducible refine hostWrite_within ?_ ?_ (fun t => ?_))
    | (with_reducible apply Within.then (h' := regWrite_within ..))
    | (with_reducible apply Within.foldl)

theorem accessWrite_within (a0 a1 a2 a3) (s : State) : Within [.regs, .core, .flash, .mram, .life, .settings, .pat, .fab, .test, .img, .upd, .xp, .vl, .q, .eng, .comp, .flow, .aud, .mac, .ref, .time, .pair, .fresh] s (accessWrite a0 a1 a2 a3 s) := by
  unfold accessWrite
  repeat' first
    | (with_reducible assumption)
    | (with_reducible exact Within.refl _ _)
    | (show Area.sub _ _ = true; rfl)
    | (with_reducible apply Within.then (h' := badSize_within ..))
    | (with_reducible apply Within.then (h' := emit_within ..))
    | (with_reducible apply Within.then (h' := writeWord_within ..))
    | (with_reducible apply Within.ite)
    | split

theorem i2cEnd_within (a0 a1) (s : State) : Within [.fab] s (i2cEnd a0 a1 s) := by
  unfold i2cEnd
  repeat' first
    | (with_reducible assumption)
    | (with_reducible exact Within.refl _ _)
    | (show Area.sub _ _ = true; rfl)
    | (extract_lets +onlyGivenNames t; first | (refine Within.cut [.fab] s t (fun h => ?_) ?_; rotate_left; subst t; rotate_right; clear_value t) | clear_value t)
    | refine Within.upd (h := ?_)

theorem i2cAccess_within (a0) (s : State) : Within [.regs, .core, .flash, .mram, .life, .settings, .pat, .fab, .test, .img, .upd, .xp, .vl, .q, .eng, .comp, .flow, .aud, .mac, .ref, .time, .pair, .fresh] s (i2cAccess a0 s) := by
  unfold i2cAccess
  repeat' first
    | intro _
    | (with_reducible assumption)
    | (with_reducible exact Within.refl _ _)
    | (show Area.sub _ _ = true; rfl)
    | (extract_lets +onlyGivenNames t; first | (refine Within.cut [.regs, .core, .flash, .mram, .life, .settings, .pat, .fab, .test, .img, .upd, .xp, .vl, .q, .eng, .comp, .flow, .aud, .mac, .ref, .time, .pair, .fresh] s t (fun h => ?_) ?_; rotate_left; subst t; rotate_right; clear_value t) | (refine Within.cut [.regs, .core, .flash, .mram, .life, .settings, .pat, .fab, .test, .img, .upd, .xp, .vl, .q, .eng, .comp, .flow, .aud, .mac, .ref, .time, .pair, .fresh] s t.2 (fun h => ?_) ?_; rotate_left; subst t; rotate_right; clear_value t) | clear_value t)
    | (with_reducible apply Within.then (h' := grantTo_within ..))
    | (with_reducible apply Within.then (h' := hangOn_within ..))
    | (with_reducible apply Within.then (h' := holdReq_within ..))
    | (with_reducible apply Within.then (h' := i2cEnd_within ..))
    | (with_reducible refine mirroredWrite_within ?_ ?_ (fun t => ?_))
    | (with_reducible apply Within.then (h' := regRead_within ..))
    | (with_reducible apply Within.then (h' := regWrite_within ..))
    | (with_reducible apply Within.ite)
    | (with_reducible apply Within.iteSnd)
    | (with_reducible apply Within.foldl)
    | (with_reducible apply Within.foldlSnd)
    | split
    | refine Within.upd (h := ?_)

theorem grant_within (a0) (s : State) : Within [.regs, .core, .flash, .mram, .life, .settings, .pat, .fab, .test, .img, .upd, .xp, .vl, .q, .eng, .comp, .flow, .aud, .mac, .ref, .time, .pair, .fresh] s (grant a0 s) := by
  unfold grant
  repeat' first
    | (with_reducible assumption)
    | (with_reducible exact Within.refl _ _)
    | (show Area.sub _ _ = true; rfl)
    | (with_reducible apply Within.then (h' := badSize_within ..))
    | (with_reducible apply Within.then (h' := burstRead_within ..))
    | (with_reducible apply Within.then (h' := burstWrite_within ..))
    | (with_reducible apply Within.then (h' := grantTo_within ..))
    | (with_reducible apply Within.then (h' := i2cAccess_within ..))
    | (with_reducible apply Within.then (h' := issueReq_within ..))
    | (with_reducible apply Within.then (h' := readWord_within ..))
    | (with_reducible apply Within.then (h' := writeWord_within ..))
    | (with_reducible apply Within.ite)
    | split

theorem admitHeld_within (k : Nat) (s : State) : Within [.regs, .core, .flash, .mram, .life, .settings, .pat, .fab, .test, .img, .upd, .xp, .vl, .q, .eng, .comp, .flow, .aud, .mac, .ref, .time, .pair, .fresh] s (admitHeld k s) := by
  induction k generalizing s with
  | zero => exact Within.refl _ _
  | succ k ih =>
    unfold admitHeld
    split
    · exact Within.refl _ _
    · simp only []
      refine Within.then ?_ (ih _) rfl
      refine Within.upd (h := ?_)
      refine Within.then ?_ (grant_within ..) rfl
      exact Within.upd (h := Within.refl _ _)

theorem arriveFabric_within (a0) (s : State) : Within [.regs, .core, .flash, .mram, .life, .settings, .pat, .fab, .test, .img, .upd, .xp, .vl, .q, .eng, .comp, .flow, .aud, .mac, .ref, .time, .pair, .fresh] s (arriveFabric a0 s) := by
  unfold arriveFabric
  repeat' first
    | (with_reducible assumption)
    | (with_reducible exact Within.refl _ _)
    | (show Area.sub _ _ = true; rfl)
    | (with_reducible apply Within.then (h' := grant_within ..))
    | (with_reducible apply Within.then (h' := holdReq_within ..))
    | (with_reducible apply Within.ite)
    | split

theorem admitFabric_within (a0 a1) (s : State) : Within [.regs, .core, .flash, .mram, .life, .settings, .pat, .fab, .test, .img, .upd, .xp, .vl, .q, .eng, .comp, .flow, .aud, .mac, .ref, .time, .pair, .fresh] s (admitFabric a0 a1 s) := by
  unfold admitFabric
  repeat' first
    | intro _
    | (with_reducible assumption)
    | (with_reducible exact Within.refl _ _)
    | (show Area.sub _ _ = true; rfl)
    | (extract_lets +onlyGivenNames t; first | (refine Within.cut [.regs, .core, .flash, .mram, .life, .settings, .pat, .fab, .test, .img, .upd, .xp, .vl, .q, .eng, .comp, .flow, .aud, .mac, .ref, .time, .pair, .fresh] s t (fun h => ?_) ?_; rotate_left; subst t; rotate_right; clear_value t) | clear_value t)
    | (with_reducible apply Within.then (h' := admitHeld_within ..))
    | (with_reducible apply Within.then (h' := answerReq_within ..))
    | (with_reducible apply Within.then (h' := arriveFabric_within ..))
    | (with_reducible apply Within.then (h' := cycleBegin_within ..))
    | (with_reducible apply Within.then (h' := cycleEnd_within ..))
    | (with_reducible apply Within.foldl)

theorem i2cCommand_within (a0 a1 a2) (s : State) : Within [.regs, .core, .flash, .mram, .life, .settings, .pat, .fab, .test, .img, .upd, .xp, .vl, .q, .eng, .comp, .flow, .aud, .mac, .ref, .time, .pair, .fresh] s (i2cCommand a0 a1 a2 s) := by
  unfold i2cCommand
  repeat' first
    | (with_reducible assumption)
    | (with_reducible exact Within.refl _ _)
    | (show Area.sub _ _ = true; rfl)
    | (extract_lets +onlyGivenNames t; first | (refine Within.cut [.regs, .core, .flash, .mram, .life, .settings, .pat, .fab, .test, .img, .upd, .xp, .vl, .q, .eng, .comp, .flow, .aud, .mac, .ref, .time, .pair, .fresh] s t (fun h => ?_) ?_; rotate_left; subst t; rotate_right; clear_value t) | clear_value t)
    | (with_reducible apply Within.then (h' := count_within ..))
    | (with_reducible apply Within.then (h' := i2cAccess_within ..))
    | (with_reducible apply Within.then (h' := i2cEnd_within ..))
    | (with_reducible apply Within.then (h' := i2cReply_within ..))
    | (with_reducible apply Within.then (h' := i2cResult_within ..))
    | (with_reducible apply Within.ite)
    | split
    | refine Within.upd (h := ?_)

end Sys2Proof.Machine
end

