-- ==== Sys2Proof/WellFormed.lean ====
section
/-! DEFINITION. Well-formed commands: what the operands of a command must satisfy beyond their types. A meaning does not
rely on it. -/

namespace Sys2Proof

/-- The targets beyond BAR0 that a master reaches (19 Table 19.3). -/
def reachesPort (m t : Nat) : Bool :=
  (m == 0 && decide (20 ≤ t) && decide (t ≤ 23)) || (m == 1 && t == 23) || (m == 2 && t == 28)
    || (decide (3 ≤ m) && decide (m ≤ 6) && (t == 20 || (decide (24 ≤ t) && decide (t ≤ 27)))) || (m == 7 && t == 21)

/-- Is a command well formed? A command whose operands are bounded by their types always is. -/
def Instr.wf : Instr → Bool
  | .aonPowerOn _ _ => true
  | .supplyOutOfLimits _ => true
  | .supplyWithinLimits _ => true
  | .resetNLow => true
  | .resetRelease _ _ => true
  | .bootClocksLocked => true
  | .ctlLockTimeout => true
  | .heatTjRead => true
  | .heatSlowTimeout => true
  | .hbmTrainDone _ _ => true
  | .imageStreamDone _ => true
  | .hostBootGo _ _ => true
  | .stagingAreaWrite _ bytes => !bytes.isEmpty && decide (bytes.length ≤ 256)
  | .hostSafeRequest _ _ => true
  | .softReset _ _ => true
  | .tjSensorReading tmin tmax => decide (-32768 ≤ tmin) && decide (tmin ≤ tmax) && decide (tmax < 32768)
  | .synthLossOfLock _ => true
  | .bridgeTransfer _ _ => true
  | .registerWrite _ _ _ _ => true
  | .readClearCounter _ _ _ => true
  | .w1cStatusClear _ a _ _ => decide (a.toNat % 4 = 0)
  | .read64Low _ _ _ => true
  | .imgRbDataRead _ => true
  | .takeRecordWrite _ _ _ => true
  | .takePiWrite _ _ => true
  | .salvoCommit _ _ => true
  | .takeAbandon _ => true
  | .planeCutoff _ => true
  | .planeSwitchPoint _ => true
  | .destSwitchLineRead _ => true
  | .destLineRead _ line _ => decide (1 ≤ line) && decide (line ≤ 1125)
  | .batchRecord _ => true
  | .sourceSwitchLineArrival _ _ _ => true
  | .sourceFrameMeasured _ ps => decide (0 < ps)
  | .fsyncFrameComplete _ => true
  | .fsyncHoldExpire _ => true
  | .vlaneRateSearchTimeout _ => true
  | .vlaneCdrLock _ => true
  | .vlaneFrameAligned _ streams _ => !streams.isEmpty && streams.all (fun x => decide (0 < x.1) && decide (0 < x.2.1))
  | .vlaneAlignTimeout _ => true
  | .vlaneCdrLoss _ => true
  | .vlaneEavMissing _ => true
  | .vlaneLineReceived _ line words => decide (1 ≤ line) && words.all (fun w => decide (w < 1024))
  | .vlanePidPacket _ _ _ => true
  | .vlanePidTimeout _ => true
  | .sdiAudioPacket _ _ _ _ _ _ samples => decide (samples.length = 4)
  | .ancPacketCapture _ line _ _ _ _ _ _ udw => decide (1 ≤ line) && decide (udw.length ≤ 255)
  | .dpHpdRise _ _ => true
  | .dpHpdFall _ => true
  | .dpUnplugTimeout _ => true
  | .dpTrainDone _ _ _ _ _ _ => true
  | .dpRetrain _ _ => true
  | .dpLinkEnableWrite _ _ _ => true
  | .dpAuxNativeRead _ _ _ _ => true
  | .dpAuxNativeWrite _ _ _ _ => true
  | .dpAuxI2cRead _ _ _ _ => true
  | .dpAuxI2cWrite _ _ _ _ => true
  | .dpAuxReply _ _ data => decide (data.length ≤ 16)
  | .dpAuxTimeout _ => true
  | .macCdrLock _ => true
  | .macCdrLoss _ => true
  | .macAlignTimerExpire _ => true
  | .macAlignLoss _ _ => true
  | .macFaultSequence _ _ => true
  | .macRxFrame _ _ _ _ _ _ => true
  | .macPauseExpire _ => true
  | .macTxFrameEnd _ => true
  | .macTxDiscard _ => true
  | .macInjectRecord _ => true
  | .macEnChange _ _ => true
  | .legContextCommit _ _ _ => true
  | .flowAudioCfgCommit _ _ _ _ => true
  | .flowLineRead _ _ _ _ => true
  | .flowSkewWindow _ _ => true
  | .flowPathSilentTimeout _ _ _ => true
  | .flowTxPacketDue _ => true
  | .flowAudioDelivery _ _ => true
  | .flowAudioTxPacket _ => true
  | .flowAncRxClose _ _ => true
  | .flowAncTxSend _ => true
  | .queueWrite _ _ bytes => !bytes.isEmpty && decide (bytes.length ≤ 256)
  | .queueClose _ => true
  | .queueMark _ => true
  | .queueRewind _ => true
  | .queueRelease _ => true
  | .queueReset _ => true
  | .queueRead _ n _ => decide (0 < n.val)
  | .queueCapWrite _ _ => true
  | .hbmRequestAdmit _ arrivals _ => arrivals.all (fun r => decide (r.1 < 3))
  | .scrubRead _ _ => true
  | .taskPush _ => true
  | .slotBandIssue _ _ _ => true
  | .engineTakeTask engines _ _ => decide engines.Nodup
  | .taskComplete _ _ _ _ => true
  | .slotBandDeadline _ _ => true
  | .slotInputFrameStart _ => true
  | .engineMemoryError _ _ _ _ _ => true
  | .engineAbortTimeout _ => true
  | .engQuarantineEngine _ _ => true
  | .engQuarantineCluster _ _ => true
  | .engQuarantineRelease _ _ _ => true
  | .quadLoadSecond _ => true
  | .tlutDataWrite _ _ => true
  | .tlutDataRead _ => true
  | .tlutCommit _ _ _ => true
  | .compCutoff _ => true
  | .compDeadline _ => true
  | .layerDescriptorCommit _ _ => true
  | .compLutDataWrite _ _ => true
  | .compLutDataRead _ => true
  | .compLutCommit _ _ _ _ => true
  | .scalerCoefDataWrite _ _ => true
  | .scalerCoefDataRead _ => true
  | .scalerCoefCommit _ _ _ _ => true
  | .sapFrameSync _ _ din => din.all (fun r => decide (r.1 < 32))
  | .sapClkLossTimeout _ => true
  | .sapMaskCommit _ _ _ _ => true
  | .sapGroupMaskCommit _ _ => true
  | .sapGroupArm _ _ => true
  | .sapGroupDisarm _ _ => true
  | .sapGroupStartNow _ _ => true
  | .audStartEdge => true
  | .sapGroupAtEnable _ _ _ => true
  | .sapGroupAtReached _ => true
  | .asrcWindowEnd _ _ _ => true
  | .asrcClockLossTimeout _ => true
  | .asrcAcquireTimer _ => true
  | .naCsBlock _ => true
  | .naPreambleDetect _ => true
  | .naPreambleTimeout _ => true
  | .audSample => true
  | .audTakeRecordWrite _ _ _ => true
  | .audTakePiWrite _ _ => true
  | .audSalvoCommit => true
  | .audTakeAbandon _ => true
  | .mixEntryWrite _ _ _ _ _ => true
  | .toneModeWrite _ _ _ => true
  | .meterBlockEnd _ => true
  | .meterClear _ _ => true
  | .refFramePulse _ _ _ _ => true
  | .refActivityExpire _ _ _ => true
  | .refMeasureWindowEnd _ _ _ y0 y1 => decide (y0.length = 16) && decide (y1.length = 16)
  | .xoHoldActivityExpire => true
  | .planeLockoutWrite _ _ _ => true
  | .planeBwWrite _ _ _ => true
  | .planeJump _ => true
  | .planeLockTimer _ => true
  | .switchResidualZero _ => true
  | .holdoverLimitExpire _ => true
  | .tkSet _ _ => true
  | .tkAdj _ _ => true
  | .tkIncrWrite _ _ _ => true
  | .tkLockSet _ _ => true
  | .tkLockClr _ _ => true
  | .tkLockTimeout _ => true
  | .otSelectWrite _ _ _ => true
  | .otSnap _ => true
  | .tpoCommit _ _ => true
  | .tpoDisable _ _ => true
  | .tpoTargetReached _ => true
  | .tpoPulseEnd _ => true
  | .tciEdge _ _ => true
  | .tciTsRead _ _ => true
  | .timeSnapshot _ => true
  | .arbRoleChange _ => true
  | .pairEnableWrite _ _ => true
  | .arbBeatInterval _ _ _ _ _ => true
  | .switchWinEdge _ => true
  | .mirrorHealthSend => true
  | .mirrorHealthMsg _ _ _ digest _ => digest.length == 12
  | .mirrorMarkerMsg _ _ _ _ _ _ => true
  | .mirrorJournalMsg _ _ _ _ _ => true
  | .mirrorDoneMsg _ _ _ _ => true
  | .mirrorAckMsg _ _ => true
  | .mirrorSignaturesMsg _ _ _ _ => true
  | .mirrorCopyMsg _ _ => true
  | .mirrorAckTimeout _ => true
  | .mirrorSilenceTimeout => true
  | .mirrorLanesLocked => true
  | .mirrorAlignDone => true
  | .mirroredWrite _ a _ => decide (a.toNat % 4 = 0)
  | .mirroredWritePresent => true
  | .marginScanDwell _ _ => true
  | .pairNoActiveTimeout => true
  | .faultStatusClear _ _ _ => true
  | .faultSevWrite _ _ _ => true
  | .patinaRecordWrite _ => true
  | .patinaTokenTick => true
  | .patinaHostRecord _ _ => true
  | .powerFail => true
  | .keepFinalFlush => true
  | .powerRestore _ => true
  | .keepBoundary => true
  | .keepClear _ => true
  | .lifetimeCounterUpdate adds => adds.all (fun r => decide (r.1 < 594))
  | .flashErase _ => true
  | .flashProgram _ => true
  | .flashRead _ => true
  | .flashOpDone _ => true
  | .maqVerify _ _ => true
  | .maqVerifyDone _ => true
  | .cast _ _ _ _ => true
  | .castPreloadDone _ => true
  | .castPauseStart => true
  | .castResume _ => true
  | .confirm _ => true
  | .confirmWindowExpire => true
  | .settingsWrite _ _ => true
  | .settingsRead _ _ => true
  | .settingsDelete _ _ => true
  | .settingsDataAccess _ _ => true
  | .pcieReset _ burst => (match burst with | none => true | some (a, bs) => decide (a.toNat % 64 + bs.length ≤ 64))
  | .pciePowerStateChange _ => true
  | .msixUnmask _ => true
  | .fabricRequestAdmit done arrivals => done.all (fun r => reachesPort r.1 r.2.2) &&
      arrivals.all (fun r => (r.2.2.1.val == 0 || reachesPort r.1 r.2.2.1) && decide (r.2.2.2.1.toNat % 4 = 0))
  | .decodeHangExpire _ => true
  | .fabricMasterReset _ _ => true
  | .i2cMramRead _ _ => true
  | .i2cRegRead _ => true
  | .i2cRegResult _ => true
  | .i2cRegWrite _ => true
  | .i2cStatus code _ => !([0x10, 0x20, 0x21, 0x22, 0x3A].contains code.toNat)
  | .i2cResetM8 _ => true
  | .i2cSclTimeout => true
  | .testInjectArm _ _ _ => true
  | .testInjectDisarm _ => true
  | .testPertWrite _ _ _ => true
  | .testMacStall _ _ _ => true
  | .testMacStallExpire _ => true
  | .jtagInstruction _ _ => true
  | .jtagTrst => true
  | .glitchFilterExpire _ _ => true
  | .synthesiserLock _ => true
  | .bridgeDirectionTrained _ => true
  | .refclkEdgeReturn _ => true
  | .mirrorLaneLockLoss _ => true
  | .mirrorTimeMarker _ _ _ _ _ => true
  | .pcieLinkUp speed width _ _ _ _ => decide (0 < speed.val) && [1, 2, 4].contains width.val
  | .settingsOpDone => true
  | .otResidualZero => true

end Sys2Proof
end

