-- ==== Sys2Proof/Tests/Slice0.lean ====
section
/-! SUPPORT. The model's own tests: ill-formed commands, worked examples of the spec on one step or one operation, and for
each statement of the certificates states and operands that meet its hypotheses. -/

set_option Elab.async false
set_option maxRecDepth 100000

open Sys2Proof Sys2Proof.Machine
namespace Sys2Proof.Tests

/-- An image whose sections (type, length) lie 64 KiB apart, with the bytes listed by section. -/
def imgOf (secs : List (Nat × List (Nat × Nat))) (own : List (Nat × Nat)) : Img :=
  { sections := secs.map (fun e => { type := e.1, off := 0x20000 * e.1, len := 0x20000, arm := true })
    bytes := secs.flatMap (fun e => e.2.map (fun b => (0x20000 * e.1 + b.1, b.2)))
    own := own }

/-- A run of bytes from an offset. -/
def at_ (x : Nat) (l : List Nat) : List (Nat × Nat) := l.zipIdx.map (fun b => (x + b.2, b.1))

/-- A small image: planes at 1080p50 and 1080p60; SDI sources 0 to 3 and 496, destinations 0, 1, 512 and 1536, a DisplayPort
group, two packet ports, two flows of each kind, a queue group of each kind, one process slot, one head, two audio ports, four buses, references A
and B and XO_HOLD. -/
def g0 : Img := imgOf
  [(1, at_ 0 [0, 0] ++ at_ 31 [1] ++ at_ 0x220 [0x1E, 10] ++ at_ 0x400 [3] ++ at_ 0x410 [1, 1]),
   (2, at_ 0 [0x68] ++ at_ 4 [0x6A] ++ at_ 0x210 [0x68, 0x68] ++ at_ (0x210 + 512) [0x68] ++ at_ (0x210 + 1536) [0x68]
      ++ at_ (0x210 + 1793) [0x68] ++ at_ (0x1210) [0x68, 0x68, 0x68, 0x68] ++ at_ (0x1210 + 512) [0x68] ++ at_ (0x1210 + 1537) [0x68]
      ++ at_ (0x1210 + 1600) [0x68] ++ at_ (0x1210 + 1664) [0x68]),
   (3, at_ 0 [0, 1, 0, 0, 0, 4, 0, 0, 64, 0, 0, 0, 0, 0, 0, 0, 1] ++ at_ 32 [0, 1, 0, 0, 0, 4, 0, 0, 64, 0, 0, 0, 0, 0, 0, 0, 1]
      ++ at_ 64 [0, 1, 0, 0, 0, 4, 0, 0, 64, 0, 0, 0, 0, 0, 0, 0, 1] ++ at_ 96 [0, 1, 0, 0, 0, 4, 0, 0, 64, 0, 0, 0, 0, 0, 0, 0, 1]),
   (4, []),
   (5, at_ 0 [2] ++ at_ 8 [40, 0, 0]),
   (6, at_ 16 [1, 0, 0, 0, 41, 0, 0, 0] ++ at_ 0x408 [1, 0, 0x80, 7, 0x38, 4]),
   (7, at_ 0 [2, 0, 2, 0, 0, 0] ++ at_ 8 [2, 0, 2, 0, 4, 0] ++ at_ 16 [2, 0, 2, 0, 8, 0] ++ at_ 24 [2, 0, 2, 0, 12, 0]
      ++ at_ 32 [2, 0, 1, 0, 16, 0] ++ at_ 40 [2, 0, 1, 0, 18, 0] ++ at_ 0x40 [4, 4] ++ at_ 0x440 [255, 255, 255, 255]
      ++ at_ 0xC40 [255, 255, 255, 255] ++ at_ 0x2C40 [255, 255, 255, 255]),
   (8, at_ 0 [0, 0, 0, 1, 8, 0, 0, 0, 100, 0, 0, 0, 10] ++ at_ 16 [8, 0, 0, 2, 8, 0, 0, 1, 100, 0, 0, 0, 10]
      ++ at_ 32 [16, 0, 0, 3, 8, 0, 0, 2, 100, 0, 0, 0, 10] ++ at_ 48 [24, 0, 0, 4, 8, 0, 0, 3, 100, 0, 0, 0, 10]
      ++ at_ 64 [32, 0, 0, 5, 16, 0, 0, 3, 200, 0, 0, 0, 10]),
   (9, at_ 0 [1, 2, 0, 0, 0, 0, 0] ++ at_ 16 [1, 2, 0, 1, 0, 1, 255] ++ at_ 0x200 [1] ++ at_ 0x400 [4] ++ at_ 0x404 [4] ++ at_ 0x408 [2]),
   (10, at_ 0 [3, 1, 1, 0, 0xE8, 3, 0, 0, 0x88, 0x13, 0, 0, 0xE8, 3, 0, 0, 100, 0, 0, 0, 10, 0, 0, 0, 60]
      ++ at_ 0x20 [1, 1] ++ at_ 0x30 [2, 2] ++ at_ 0x40 [8, 15] ++ at_ 0x140 [8, 15] ++ at_ 0x240 [1, 1] ++ at_ 0x248 [1, 0]),
   (11, [(2, 0xD0), (3, 7), (0x12, 0xD0), (0x13, 7), (0x20, 2)]), (12, []), (13, []), (14, [])]
  [(0x02000000, 0x30000), (0x02000001, 0x40000), (0x03000000, 0x30000), (0x05000000, 0x80000), (0x06000000, 0x00100000),
   (0x06000001, 0x000E0001), (0x06000002, 0x000E0001), (0x07000000, 0x000D0000), (0x08000000, 0x00110001)]

/-- A state in a mode, with the ctl clock locked and the link up, an image and registers set. -/
def svc (md : Nat) (g : Img) (regs : List (Nat × Word)) : State :=
  regs.foldl (fun s e => rset s e.1 e.2)
    { img := g, regs := [(0x18, 0x1FF), (0x20, BitVec.ofNat 32 md), (Reg.FABRIC_PCIE_STAT, 1)] }

/-- The state after a command. -/
def after (c : Instr) (s : Machine.State) : Machine.State :=
  match exec c s with
  | .next t => t
  | _ => s

/-! ### Commands that are not well formed -/

theorem test_wf_lengths : (Instr.stagingAreaWrite 0 []).wf = false ∧ (Instr.queueWrite 0 0 []).wf = false ∧
    (Instr.dpAuxReply 0 0 (List.replicate 17 0)).wf = false ∧
    (Instr.sdiAudioPacket 0 0 false 0 false 0 [1, 2, 3]).wf = false ∧
    (Instr.ancPacketCapture 0 1 false false true 0 0 0 (List.replicate 256 0)).wf = false ∧
    (Instr.refMeasureWindowEnd 0 0 0 [] []).wf = false ∧
    (Instr.i2cStatus 0x10 []).wf = false ∧ (Instr.pcieLinkUp 1 3 0 0 false false).wf = false ∧
    (Instr.pcieLinkUp 0 1 0 0 false false).wf = false := by decide +kernel
theorem test_wf_addresses : (Instr.w1cStatusClear 0 2 none 0).wf = false ∧ (Instr.mirroredWrite 0 2 0).wf = false ∧
    (Instr.fabricRequestAdmit [] [(0, true, 0, 2, 0)]).wf = false ∧
    (Instr.fabricRequestAdmit [(2, true, 20)] []).wf = false ∧
    (Instr.fabricRequestAdmit [] [(7, true, 22, 0, 0)]).wf = false := by decide +kernel
theorem test_wf_ranges : (Instr.tjSensorReading 5 4).wf = false ∧ (Instr.destLineRead 0 0 0).wf = false ∧
    (Instr.sourceFrameMeasured 0 0).wf = false ∧ (Instr.vlaneFrameAligned 0 [] false).wf = false ∧
    (Instr.vlaneFrameAligned 0 [(0, 1125, false)] false).wf = false ∧
    (Instr.vlaneLineReceived 0 1 [1024]).wf = false ∧ (Instr.hbmRequestAdmit 0 [(3, 0)] 0).wf = false ∧
    (Instr.queueRead 0 0 0).wf = false ∧ (Instr.engineTakeTask [5, 5] 0 0).wf = false ∧
    (Instr.sapFrameSync 0 0 [(32, [])]).wf = false ∧ (Instr.lifetimeCounterUpdate [(594, 1)]).wf = false := by decide +kernel

/-! ### The spec's worked examples -/

/-- 04 Example 4.1: arrivals 9 µs early, 16 µs late and 17.5 µs late on plane 0 at 1080p50. -/
theorem test_phase_window : inWindow g0 0 (-9000) = true ∧ inWindow g0 0 16000 = true ∧ inWindow g0 0 17500 = false := by
  decide +kernel
/-- 11 Example 11.1: the step and the positions of the first four output columns. -/
theorem test_scaler_positions : sclStep 1920 3840 = 32768 ∧
    (List.range 4).map (sclPos 1920 3840) = [-16384, 16384, 49152, 81920] := by decide +kernel
/-- 13 Example 13.1: rounding and saturation of a bus, and the first step of a crossfade. -/
theorem test_mixer_rounding : sat32 (rne (2 ^ 51) (2 ^ 20)) = 0x7FFFFFFF ∧ rne 2621440 (2 ^ 20) = 2 ∧
    rne 3670016 (2 ^ 20) = 4 ∧ rne 193000 192 = 1005 := by decide +kernel
/-- 10 Example 10.1: the block of 235 bits gives 512 + 2r + c in its first component and 512 in the others. -/
theorem test_gesso_block : gessoBlock (fun i => ([48, 0, 38, 73, 146, 36, 73, 18, 37, 73, 146, 36, 73, 18, 37, 73, 146, 36, 73, 18, 37, 73, 146, 36, 
      73, 18, 0, 16, 0, 4, 0, 0][i]?).getD 0) 32 false =
    some [(List.range 64).map (fun i => 512 + 2 * (i / 16) + i % 16), List.replicate 64 512, List.replicate 64 512] := by
  decide +kernel
/-- 08 Example 8.1 at its capacity of two cells: record A of 316 bytes, then record B, cut at the third cell. -/
def recordA : Queue := qWrite 2 (List.replicate 4 1) ((List.replicate 39 (List.replicate 8 1)).foldl (fun q b => qWrite 2 b q) {})
def recordB : Queue :=
  qWrite 2 (List.replicate 4 2) ((List.replicate 31 (List.replicate 8 2)).foldl (fun q b => qWrite 2 b q) (qClose recordA))
theorem test_queue_record_closed : qCells recordA = 2 ∧ qRecords recordA = 0 ∧ qRecords (qClose recordA) = 1 ∧
    qTailUsed (qClose recordA) = 64 ∧
    (qClose recordA).words.getLast? = some { bytes := List.replicate 28 1, last := true } := by decide +kernel
theorem test_queue_record_cut : qTailUsed recordB = 256 ∧ qFull 2 recordB = true ∧ recordB.overrun = true ∧
    (qClose recordB).words.getLast? = some { bytes := List.replicate 32 2, last := true, trunc := true } ∧
    qRecords (qClose recordB) = 2 := by decide +kernel
/-- 03 Example 3.1: the owner of granule 12 of cluster 37 is layer 611. -/
theorem test_owner_query :
    let s := after (.registerWrite 0 0x2C00060 4 0x0500094C) (svc 4 (imgOf [] [(0x0500094C, 0x00090263)]) [])
    (after (.readClearCounter 0 0x2C00064 4) s).out = s.out ++ [.readData 0 0x2C00064 0x00090263] := by decide +kernel
/-- 19 Example 19.1: a write to the gap is taken without an answer, and the detector captures it. -/
def gapWrite : Machine.State := after (.registerWrite 0 0x03200010 4 1) (svc 4 g0 [])
theorem test_gap_write : isHung gapWrite 0 = true ∧ fget gapWrite (Reg.FABRIC_OUTST 0) Fld.FABRIC_OUTST_WRITES = 1 := by
  decide +kernel
theorem test_gap_captured : let s := after (.decodeHangExpire 0) gapWrite
    rgetN s Reg.FABRIC_HANG_INFO = 0x08000001 ∧ rgetN s Reg.FABRIC_HANG_ADDR = 0x03200010 := by decide +kernel
/-- 15 Example 15.1: the increment 3.2 ppm above nominal is taken. -/
theorem test_increment : let s := after (.tkIncrWrite 0 0 1) (svc 4 g0 [(Reg.TIME_TK_INCR_LO 0, 0x4000431C)])
    s.time.incrA = 0x14000431C := by decide +kernel
/-- The published check values of CRC-32 ("123456789") and SHA-384 (the empty message). -/
theorem test_crc32 : crc32 [0x31, 0x32, 0x33, 0x34, 0x35, 0x36, 0x37, 0x38, 0x39] = 0xCBF43926 := by decide +kernel
theorem test_sha384 : (sha384 []).take 8 = [0x38, 0xB0, 0x60, 0xA7, 0x51, 0xAC, 0x96, 0x38] := by decide +kernel

/-! ### States that meet the hypotheses of the statements -/

/-- With no entry in OWN no ASRC block has a destination. -/
theorem noBlocks (g : Img) (h : g.own = []) : ∀ k c b, blockDest g k c = some b → c < 16 → b < 32768 := by
  intro k c b
  simp [blockDest, ownClass, ownEntry, h]
/-- With no task waiting, none breaks a bound on the tasks that wait. -/
theorem noWait (s : Machine.State) (h : s.eng.waiting = []) :
    ∀ (q : Nat) (x : Machine.Task), x ∈ cget [] s.eng.waiting q → taskHome s.img x < 64 := by
  intro q x
  simp [h, cget, mapGet]

theorem witness_StepRunsFront : ∃ (c : Instr) (rest : List Instr) (s : Machine.State), s.pending = c :: rest :=
  ⟨.resetNLow, [], { Machine.State.reset with pending := [.resetNLow] }, rfl⟩
theorem witness_IdleTick : Machine.State.reset.pending = [] ∧ (svc 4 g0 []).pending = [] ∧ running (svc 4 g0 []) = true := by
  decide +kernel
theorem witness_Footprint : ∃ (c : Instr) (s t : Machine.State), exec c s = .next t := ⟨.resetNLow, Machine.State.reset, _, rfl⟩
theorem witness_FlashIsolation : ∃ s t : Machine.State, FlashOpOk s ∧ step s = .next t :=
  ⟨Machine.State.reset, _, fun _ _ h => (by cases h), rfl⟩
theorem witness_MramProtection : ∃ s t : Machine.State,
    s.long.protect = true ∧ step s = .next t ∧ t.long.protect = true :=
  ⟨{ Machine.State.reset with long := { protect := true } }, _, rfl, rfl, by decide +kernel⟩
theorem witness_MemoryCanonical : ∃ s t : Machine.State, Memory.wf s ∧ step s = .next t :=
  ⟨Machine.State.reset, _, by decide +kernel, rfl⟩

namespace SilentBlocks
/-- The hypotheses of `Obligations.SilentBlocks` are met together. -/
theorem witness_SilentBlocks :
    (∃ (m : Fin 9) (a : Nat) (s : Machine.State) (w : Word), (mode s = Mode.boot ∨ mode s = Mode.safe) ∧ linkGate s
      m.val (blockPort a) = none ∧ (∀ (w : Bool), holdCause s s.fab.held m.val w (blockPort a) = none) ∧ blockOf a ≠
      Block.gap ∧ blockOf a ≠ Block.beyond ∧ blockOf a ∉ [Block.global, Block.fault, Block.patina, Block.img,
      Block.fabric, Block.pinctl, Block.msix] ∧ a % 4 = 0 ∧ a < 2 ^ 26) :=
  ⟨8, 2097156, (svc 1 g0 []), 5, by decide +kernel⟩
end SilentBlocks

namespace DecodeErrors
/-- The hypotheses of `Obligations.DecodeErrors` are met together. -/
theorem witness_DecodeErrors :
    (∃ (m : Fin 9) (a : Nat) (s : Machine.State) (wr : Bool) (b : Nat) (w : Word), (∀ (w : Bool), gate s m.val w a =
      Gate.error) ∧ fget s (Reg.FABRIC_OUTST m.val) Fld.FABRIC_OUTST_READS < 16 ∧ fget s (Reg.FABRIC_OUTST m.val)
      Fld.FABRIC_OUTST_WRITES < 16 ∧ linkGate (if wr = true then hostWrite m.val a w id s else hostRead m.val a (fun
      (s : Machine.State) ↦ (0, s)) s) m.val (blockPort b) = none ∧ (m = 0 ∨ wr = true ∧ blockPort b = blockPort a)) ∧
    (∃ (m : Fin 9) (a : Nat) (s : Machine.State) (wr : Bool) (b : Nat) (w : Word), (∀ (w : Bool), gate s m.val w a =
      Gate.error) ∧ fget s (Reg.FABRIC_OUTST m.val) Fld.FABRIC_OUTST_READS < 16 ∧ fget s (Reg.FABRIC_OUTST m.val)
      Fld.FABRIC_OUTST_WRITES < 16 ∧ linkGate (if wr = true then hostWrite m.val a w id s else hostRead m.val a (fun
      (s : Machine.State) ↦ (0, s)) s) m.val (blockPort b) = none ∧ (m = 0 ∨ wr = false ∨ blockPort b = blockPort a)) ∧
    (∃ (m : Fin 9) (a : Nat) (s : Machine.State) (wr : Bool) (b : Nat) (w : Word), (∀ (w : Bool), gate s m.val w a =
      Gate.error) ∧ fget s (Reg.FABRIC_OUTST m.val) Fld.FABRIC_OUTST_READS < 16 ∧ fget s (Reg.FABRIC_OUTST m.val)
      Fld.FABRIC_OUTST_WRITES < 16 ∧ linkGate (if wr = true then hostWrite m.val a w id s else hostRead m.val a (fun
      (s : Machine.State) ↦ (0, s)) s) m.val (blockPort b) = none ∧ m = 0) ∧
    (∃ (m : Fin 9) (a : Nat) (s : Machine.State) (w : Word), (∀ (w : Bool), gate s m.val w a = Gate.error) ∧ fget s
      (Reg.FABRIC_OUTST m.val) Fld.FABRIC_OUTST_READS < 16 ∧ fget s (Reg.FABRIC_OUTST m.val) Fld.FABRIC_OUTST_WRITES
      < 16 ∧ a % 4 = 0 ∧ a < 2 ^ 26) :=
  ⟨⟨8, 67108860, (svc 4 g0 []), true, 67108860, 5, by decide +kernel⟩,
   ⟨8, 67108860, (svc 4 g0 []), true, 67108860, 5, by decide +kernel⟩,
   ⟨0, 67108860, (svc 4 g0 []), true, 67108860, 5, by decide +kernel⟩,
   ⟨8, 67108860, (svc 4 g0 []), 5, by decide +kernel⟩⟩
end DecodeErrors

namespace TestUnavailable
/-- The hypotheses of `Obligations.TestUnavailable` are met together. -/
theorem witness_TestUnavailable :
    (∃ (m : Fin 9) (a : Nat) (s : Machine.State), (injOk s = false ∧ (a = Reg.TEST_INJ_TARGET ∨ a =
      Reg.TEST_INJ_CTRL) ∨ pertOk s = false ∧ a ∈ pertRegs) ∧ Reaches s m.val a) :=
  ⟨8, 50331652, (svc 4 g0 []), by decide +kernel, ⟨by decide +kernel, by decide +kernel⟩⟩
end TestUnavailable

namespace PowerStateD3hot
def d3 : Machine.State := fset (svc 4 g0 []) Reg.FABRIC_PCIE_STAT Fld.FABRIC_PCIE_STAT_D3HOT 1
/-- The hypotheses of `Obligations.PowerStateD3hot` are met together. -/
theorem witness_PowerStateD3hot :
    (∃ (a : Nat) (s : Machine.State), (∀ (w : Bool), gate s 0 w a ≠ Gate.absent) ∧ fbit s Reg.FABRIC_PCIE_STAT
      Fld.FABRIC_PCIE_STAT_D3HOT = true ∧ a < 2 ^ 30) ∧
    (∃ (a : Nat) (s : Machine.State) (w : Word), (∀ (w : Bool), gate s 0 w a ≠ Gate.absent) ∧ fbit s
      Reg.FABRIC_PCIE_STAT Fld.FABRIC_PCIE_STAT_D3HOT = true ∧ a < 2 ^ 26 ∧ a % 4 = 0) ∧
    (∃ (s : Machine.State) (f : FieldRow), fbit s Reg.FABRIC_PCIE_STAT Fld.FABRIC_PCIE_STAT_UP = true ∧ f ∈
      [Fld.FABRIC_PCIE_STAT_UP, Fld.FABRIC_PCIE_STAT_SPEED, Fld.FABRIC_PCIE_STAT_WIDTH]) :=
  ⟨⟨0, d3, by decide +kernel⟩,
   ⟨0, d3, 5, by decide +kernel⟩,
   ⟨d3, { hi := 0, lo := 0, acc := Sys2Proof.Machine.Acc.ro, rst := 0 }, by decide +kernel⟩⟩
end PowerStateD3hot

namespace Timekeepers
def wTk : Machine.State := rset (setLockRun 1 true (setLockRun 0 true (rset (rset (svc 4 g0 []) (Reg.TIME_TK_STAT 0) 0xFF03) (Reg.TIME_TK_STAT 1) 3))) (Reg.TIME_TK_INCR_LO 1) 0x3FAE147B
/-- The hypotheses of `Obligations.Timekeepers` are met together. -/
theorem witness_Timekeepers :
    (∃ (m : Fin 9) (k : Fin 2) (s : Machine.State), Reaches s m.val (Reg.TIME_TK_CTRL k.val) ∧ running s = true) ∧
    (∃ (m : Fin 9) (k : Fin 2) (s : Machine.State), tkValid s k.val = true ∧ Reaches s m.val (Reg.TIME_TK_CTRL
      k.val)) ∧
    (∃ (k : Fin 2) (s : Machine.State), tkValid s k.val = true ∧ lockRun s k.val = true ∧ tkLocked s k.val = true ∧
      running s = true ∧ tkRaw s k.val < 2 ^ 96) ∧
    (∃ (m : Fin 9) (k : Fin 2) (w : Word) (s : Machine.State), Reaches s m.val (Reg.TIME_TK_INCR_HI k.val) ∧
      (5363340411 ≤ w.toNat % 256 * 2 ^ 32 + rgetN s (Reg.TIME_TK_INCR_LO k.val) ∧ w.toNat % 256 * 2 ^ 32 + rgetN s
      (Reg.TIME_TK_INCR_LO k.val) ≤ 5374077829)) ∧
    (∃ (m : Fin 9) (k : Fin 2) (w : Word) (s : Machine.State), Reaches s m.val (Reg.TIME_TK_INCR_HI k.val) ∧
      (¬(5363340411 ≤ w.toNat % 256 * 2 ^ 32 + rgetN s (Reg.TIME_TK_INCR_LO k.val) ∧ w.toNat % 256 * 2 ^ 32 + rgetN s
      (Reg.TIME_TK_INCR_LO k.val) ≤ 5374077829))) :=
  ⟨⟨8, 1, wTk, ⟨by decide +kernel, by decide +kernel⟩, by decide +kernel⟩,
   ⟨8, 1, wTk, by decide +kernel, ⟨by decide +kernel, by decide +kernel⟩⟩,
   ⟨1, wTk, by decide +kernel⟩,
   ⟨8, 1, 1, wTk, ⟨by decide +kernel, by decide +kernel⟩, by decide +kernel⟩,
   ⟨8, 1, 0, wTk, ⟨by decide +kernel, by decide +kernel⟩, by decide +kernel⟩⟩
end Timekeepers

namespace OutputTime
/-- The hypotheses of `Obligations.OutputTime` are met together. -/
theorem witness_OutputTime :
    (∃ (m : Fin 9) (s : Machine.State), Reaches s m.val Reg.TIME_OT_CTRL ∧ running s = true) ∧
    (∃ (s : Machine.State), running s = true ∧ s.time.snapPending = false ∧ s.time.tkA < 2 ^ 96) :=
  ⟨⟨8, { svc 4 g0 [] with time := { resid := 5000000, cur := 1, tkA := 2^95, tkB := 7 } }, ⟨by decide +kernel,
     by decide +kernel⟩, by decide +kernel⟩,
   ⟨{ svc 4 g0 [] with time := { resid := 5000000, cur := 1, tkA := 2^95, tkB := 7 } }, by decide +kernel⟩⟩
end OutputTime

namespace PulsesAndCaptures
def pw (s : Machine.State) : Machine.State := (List.range 2).foldl (fun s n => rset s (Reg.TIME_TPO_WIDTH n) 10) s
def wP1 : Machine.State := { pw (svc 4 g0 []) with time := { tkA := 5 * 2^32, tkB := 77 * 2^32 + 3 } }
def wP2 : Machine.State := (List.range 2).foldl (fun s n => rset (rset s (Reg.TIME_TPO_PERIOD n) 100) (Reg.TIME_TPO_START_LO n) 3) wP1
def prog : Machine.State := setTpo 0 { armed := true, start := 5, period := 100, width := 10, next := 200, high := true } (setTpo 1 { armed := true, start := 9, next := 9, width := 10 } wP2)
def st1 : Stamp := ⟨1,2,3,4⟩
def wC : Machine.State := fset (fset { svc 4 g0 [] with time := { tci := [(0, [st1, ⟨5,6,7,8⟩])] } } (Reg.TIME_TCI_CTRL 0) Fld.TIME_TCI_CTRL_EN 1) (Reg.TIME_TCI_CTRL 0) Fld.TIME_TCI_CTRL_EDGE 3
def wC2 : Machine.State := { wC with time := { tci := [(0, List.replicate 16 st1)] } }
/-- The hypotheses of `Obligations.PulsesAndCaptures` are met together. -/
theorem witness_PulsesAndCaptures :
    (∃ (m : Fin 9) (n : Fin 8) (k : Nat) (s : Machine.State), tpoTk s.img n.val = some k ∧ Reaches s m.val
      (Reg.TIME_TPO_CTRL n.val) ∧ 10 ≤ rgetN s (Reg.TIME_TPO_WIDTH n.val) ∧ (rgetN s (Reg.TIME_TPO_PERIOD n.val) = 0
      ∧ cdiv (tkRaw s k) (2 ^ 32) ≤ rget64 s (Reg.TIME_TPO_START_LO n.val) (Reg.TIME_TPO_START_HI n.val) ∨ 100 ≤
      rgetN s (Reg.TIME_TPO_PERIOD n.val) ∧ rgetN s (Reg.TIME_TPO_WIDTH n.val) + 10 ≤ rgetN s (Reg.TIME_TPO_PERIOD
      n.val))) ∧
    (∃ (m : Fin 9) (n : Fin 8) (k : Nat) (s : Machine.State), tpoTk s.img n.val = some k ∧ Reaches s m.val
      (Reg.TIME_TPO_CTRL n.val) ∧ 10 ≤ rgetN s (Reg.TIME_TPO_WIDTH n.val) ∧ rgetN s (Reg.TIME_TPO_PERIOD n.val) = 0 ∧
      rget64 s (Reg.TIME_TPO_START_LO n.val) (Reg.TIME_TPO_START_HI n.val) < cdiv (tkRaw s k) (2 ^ 32)) ∧
    (∃ (n : Fin 8) (k : Nat) (s : Machine.State), tpoTk s.img n.val = some k ∧ (tpoProg s n.val).armed = true ∧
      running s = true) ∧
    (∃ (n : Fin 8) (k : Nat) (s : Machine.State), tpoTk s.img n.val = some k ∧ (tpoProg s n.val).high = true) ∧
    (∃ (n : Fin 4) (rising : Bool) (k : Nat) (s : Machine.State), tciTk s.img n.val = some k ∧ running s = true ∧
      fbit s (Reg.TIME_TCI_CTRL n.val) Fld.TIME_TCI_CTRL_EN = true ∧ (rising = true ∧ fget s (Reg.TIME_TCI_CTRL
      n.val) Fld.TIME_TCI_CTRL_EDGE ≠ 2 ∨ rising = false ∧ (fget s (Reg.TIME_TCI_CTRL n.val) Fld.TIME_TCI_CTRL_EDGE =
      2 ∨ fget s (Reg.TIME_TCI_CTRL n.val) Fld.TIME_TCI_CTRL_EDGE = 3)) ∧ (tciFifo s n.val).length < 16) ∧
    (∃ (n : Fin 4) (rising : Bool) (k : Nat) (s : Machine.State), tciTk s.img n.val = some k ∧ running s = true ∧
      fbit s (Reg.TIME_TCI_CTRL n.val) Fld.TIME_TCI_CTRL_EN = true ∧ (rising = true ∧ fget s (Reg.TIME_TCI_CTRL
      n.val) Fld.TIME_TCI_CTRL_EDGE ≠ 2 ∨ rising = false ∧ (fget s (Reg.TIME_TCI_CTRL n.val) Fld.TIME_TCI_CTRL_EDGE =
      2 ∨ fget s (Reg.TIME_TCI_CTRL n.val) Fld.TIME_TCI_CTRL_EDGE = 3)) ∧ (¬(tciFifo s n.val).length < 16)) ∧
    (∃ (m : Fin 9) (n : Fin 4) (x : Stamp) (l : List Stamp) (s : Machine.State), (∀ (w : Bool), gate s m.val w
      (Reg.TIME_TCI_TS n.val 0) = Gate.pass) ∧ tciFifo s n.val = x :: l ∧ l.length < 16) ∧
    (∃ (m : Fin 9) (s : Machine.State), Reaches s m.val Reg.TIME_SNAP) :=
  ⟨⟨8, 1, _, wP2, rfl, ⟨by decide +kernel, by decide +kernel⟩, by decide +kernel⟩,
   ⟨8, 1, _, wP1, rfl, ⟨by decide +kernel, by decide +kernel⟩, by decide +kernel⟩,
   ⟨1, _, prog, rfl, by decide +kernel⟩,
   ⟨0, _, prog, rfl, by decide +kernel⟩,
   ⟨0, true, _, wC, rfl, by decide +kernel⟩,
   ⟨0, true, _, wC2, rfl, by decide +kernel⟩,
   ⟨8, 0, _, _, wC, by decide +kernel, rfl, by decide +kernel⟩,
   ⟨8, wP1, ⟨by decide +kernel, by decide +kernel⟩⟩⟩
end PulsesAndCaptures

namespace FaultStatusAndSeverity
def sv (n v : Nat) (s : Machine.State) : Machine.State := fset s (Reg.FAULT_SEV n) Fld.FAULT_SEV_SEV v
def wF : Machine.State := fset (sv 3 1 (let s := svc 4 g0 [(Reg.FAULT_STAT 0, 0xFF), (Reg.FAULT_STAT 47, 0xFFFF)]; { s with pat := { conds := [1, 3] } })) (Reg.FAULT_SEV 1) Fld.FAULT_SEV_LOCK 1
/-- The hypotheses of `Obligations.FaultStatusAndSeverity` are met together. -/
theorem witness_FaultStatusAndSeverity :
    (∃ (m : Fin 9) (g : Fin 48) (s : Machine.State) (i : Nat), Reaches s m.val (Reg.FAULT_STAT g.val) ∧ i < 32) ∧
    (∃ (m : Fin 9) (g : Fin 48) (s : Machine.State) (n : Nat), Reaches s m.val (Reg.FAULT_STAT g.val) ∧ n < 1536 ∧ n
      / 32 ≠ g.val) ∧
    (∃ (m : Fin 9) (n : Fin 1536) (s : Machine.State) (j : Nat), Reaches s m.val (Reg.FAULT_SEV n.val) ∧ j < 1536 ∧ j
      ≠ n.val) ∧
    (∃ (m : Fin 9) (n : Fin 1536) (w : Word) (s : Machine.State), Reaches s m.val (Reg.FAULT_SEV n.val) ∧
      (srcReserved n.val = false ∧ fbit s (Reg.FAULT_SEV n.val) Fld.FAULT_SEV_LOCK = false ∧ w.toNat % 8 < 6)) ∧
    (∃ (m : Fin 9) (n : Fin 1536) (w : Word) (s : Machine.State), Reaches s m.val (Reg.FAULT_SEV n.val) ∧
      (¬(srcReserved n.val = false ∧ fbit s (Reg.FAULT_SEV n.val) Fld.FAULT_SEV_LOCK = false ∧ w.toNat % 8 < 6))) :=
  ⟨⟨8, 47, wF, 0, ⟨by decide +kernel, by decide +kernel⟩, by decide +kernel⟩,
   ⟨8, 47, wF, 0, ⟨by decide +kernel, by decide +kernel⟩, by decide +kernel⟩,
   ⟨8, 1535, wF, 0, ⟨by decide +kernel, by decide +kernel⟩, by decide +kernel⟩,
   ⟨8, 5, 0, wF, ⟨by decide +kernel, by decide +kernel⟩, by decide +kernel⟩,
   ⟨8, 1535, 0, wF, ⟨by decide +kernel, by decide +kernel⟩, by decide +kernel⟩⟩
end FaultStatusAndSeverity

namespace RaiseBySeverity
def sv (n v : Nat) (s : Machine.State) : Machine.State := fset s (Reg.FAULT_SEV n) Fld.FAULT_SEV_SEV v
def wR : Machine.State := sv 3 0 (sv 5 1 (sv 7 2 (sv 8 5 (fset (svc 4 g0 []) Reg.PAT_TOKENS Fld.PAT_TOKENS_TOKENS 9))))
/-- The hypotheses of `Obligations.RaiseBySeverity` are met together. -/
theorem witness_RaiseBySeverity :
    (∃ (n : Nat) (s : Machine.State), n < 1536 ∧ n ≠ Src.patDrop ∧ faultSev s n = 0) ∧
    (∃ (n : Nat) (s : Machine.State) (j : Nat), n < 1536 ∧ n ≠ Src.patDrop ∧ faultSev s n ≠ 0 ∧ j < 1536 ∧ j ≠ n ∧ j
      ≠ Src.patDrop) ∧
    (∃ (n : Nat) (s : Machine.State), n < 1536 ∧ n ≠ Src.patDrop ∧ faultSev s n = 1) ∧
    (∃ (n : Nat) (s : Machine.State), n < 1536 ∧ n ≠ Src.patDrop ∧ 2 ≤ faultSev s n ∧ fbit s Reg.PAT_STAT
      Fld.PAT_STAT_PF = false ∧ fget s Reg.PAT_TOKENS Fld.PAT_TOKENS_TOKENS ≠ 0 ∧ s.pat.pendingRecs.length < 64) :=
  ⟨⟨3, wR, by decide +kernel⟩,
   ⟨0, wR, 3, by decide +kernel⟩,
   ⟨5, wR, by decide +kernel⟩,
   ⟨0, wR, by decide +kernel⟩⟩
end RaiseBySeverity

namespace PatinaWriterAndTokens
def r1 : PatRec := { event := 1, time := 5, boot := 6, payload := [1,2,3] }
def wP : Machine.State := let s := svc 4 g0 [(Reg.PAT_TOKENS, 5)]; { s with pat := { pendingRecs := [r1, { r1 with event := 9 }] } }
def wP2 : Machine.State := let s := rset (svc 1 g0 [(Reg.PAT_TOKENS, 4096)]) Reg.PAT_SEQ_LO 0xFFFFFFFF; { s with pat := { pendingRecs := [r1], inFlight := some (r1, 393217, 5), lost := 7, lostFirst := 3, lostLast := 9 } }
def wP3 : Machine.State := { wP with pat := { wP.pat with lost := 7 } }
/-- The hypotheses of `Obligations.PatinaWriterAndTokens` are met together. -/
theorem witness_PatinaWriterAndTokens :
    (∃ (upto : Fin 17) (r : PatRec) (s : Machine.State) (rest : List PatRec) (y : Nat), mode s ≠ Mode.reset ∧
      s.long.protect = false ∧ upto ≠ 0 ∧ s.pat.inFlight = none ∧ s.pat.pendingRecs = r :: rest ∧ (y < 64 * (patSeq s
      % journalSlots) ∨ 64 * (patSeq s % journalSlots) + 4 * upto.val ≤ y)) ∧
    (∃ (upto : Fin 17) (r : PatRec) (s : Machine.State) (n : Nat) (d : Nat) (y : Nat), mode s ≠ Mode.reset ∧
      s.long.protect = false ∧ upto ≠ 0 ∧ s.pat.inFlight = some (r, n, d) ∧ d < upto.val ∧ (y < 64 * (n %
      journalSlots) + 4 * d ∨ 64 * (n % journalSlots) + 4 * d + 4 * (upto.val - d) ≤ y)) ∧
    (∃ (s : Machine.State), mode s ≠ Mode.reset ∧ s.pat.lost = 0) ∧
    (∃ (s : Machine.State), mode s ≠ Mode.reset ∧ s.pat.lost ≠ 0 ∧ s.pat.pendingRecs.length < 64 ∧ fbit s
      Reg.PAT_STAT Fld.PAT_STAT_PF = false) ∧
    (∃ (m : Fin 9) (event : BitVec 16) (s : Machine.State), Reaches s m.val Reg.PAT_HOST_EVT ∧ 32768 ≤ event.toNat ∧
      fbit s Reg.PAT_STAT Fld.PAT_STAT_PF = false ∧ fget s Reg.PAT_TOKENS Fld.PAT_TOKENS_TOKENS ≠ 0 ∧
      s.pat.pendingRecs.length < 64) :=
  ⟨⟨16, _, wP, _, 64, by decide +kernel, by decide +kernel, by decide +kernel, by decide +kernel, rfl,
     by decide +kernel⟩,
   ⟨16, _, wP2, _, _, 0, by decide +kernel, by decide +kernel, by decide +kernel, rfl, by decide +kernel⟩,
   ⟨wP, by decide +kernel⟩,
   ⟨wP3, by decide +kernel⟩,
   ⟨8, 32768, wP, ⟨by decide +kernel, by decide +kernel⟩, by decide +kernel⟩⟩
end PatinaWriterAndTokens

namespace PowerFailureAndKeep
def wK (md : Nat) : Machine.State := let s := svc md g0 []; { s with pat := { keepBank := some 0, keepGen := 3, keepPos := 10, keepFlush := 4, dirty := [.video 0, .audio 5, .mix 7], pendingRecs := [{ event := 1, time := 5, boot := 6 }] } }
def wK2 : Machine.State := let s := wK 4; { s with pat := { s.pat with keepPos := 60922, keepBank := some 1 } }
def wK3 : Machine.State := let s := fset (wK 3) Reg.PAT_STAT Fld.PAT_STAT_PF 1; { s with pat := { s.pat with dirty := [], pendingRecs := [], finalItems := [⟨.video 0, 5, 0⟩], finalOpen := [⟨.video 3, 5, 0⟩] } }
/-- The hypotheses of `Obligations.PowerFailureAndKeep` are met together. -/
theorem witness_PowerFailureAndKeep :
    (∃ (s : Machine.State), (¬mode s = Mode.reset)) ∧
    (∃ (s : Machine.State), mode s = Mode.reset ∧ fbit s Reg.PAT_STAT Fld.PAT_STAT_PF = true) ∧
    (∃ (s : Machine.State), mode s ≠ Mode.reset ∧ fbit s Reg.PAT_STAT Fld.PAT_STAT_PF = true ∧ fbit s Reg.PAT_STAT
      Fld.PAT_STAT_SEALED = false ∧ s.pat.inFlight = none ∧ s.pat.pendingRecs = []) ∧
    (∃ (s : Machine.State) (v : KeepVal), mode s ≠ Mode.reset ∧ fbit s Reg.PAT_STAT Fld.PAT_STAT_PF = true ∧ v ∈
      s.pat.finalOpen ++ s.pat.finalItems) ∧
    (∃ (b : Nat) (s : Machine.State) (k : KeepItem), inRole s = true ∧ fbit s Reg.PAT_STAT Fld.PAT_STAT_PF = false ∧
      s.pat.needSnap = false ∧ s.pat.snapJob = none ∧ s.pat.flushes = [] ∧ s.pat.keepBank = some b ∧ s.pat.dirty ≠ []
      ∧ s.pat.dirty.length ≤ 654 ∧ (s.pat.keepPos = 0 ∨ s.pat.keepPos + s.pat.dirty.length + 1 ≤ logEntries) ∧ k ∈
      s.pat.dirty) ∧
    (∃ (b : Nat) (s : Machine.State) (k : KeepItem), inRole s = true ∧ fbit s Reg.PAT_STAT Fld.PAT_STAT_PF = false ∧
      s.pat.needSnap = false ∧ s.pat.snapJob = none ∧ s.pat.flushes = [] ∧ s.pat.keepBank = some b ∧ s.pat.dirty ≠ []
      ∧ s.pat.dirty.length ≤ 654 ∧ (s.pat.keepPos = 0 ∨ s.pat.keepPos + s.pat.dirty.length + 1 ≤ logEntries) ∧ k ∉
      s.pat.dirty) ∧
    (∃ (b : Nat) (s : Machine.State), inRole s = true ∧ fbit s Reg.PAT_STAT Fld.PAT_STAT_PF = false ∧ s.pat.needSnap
      = false ∧ s.pat.snapJob = none ∧ s.pat.flushes = [] ∧ s.pat.keepBank = some b ∧ s.pat.dirty ≠ [] ∧
      s.pat.dirty.length ≤ 654 ∧ (¬(s.pat.keepPos = 0 ∨ s.pat.keepPos + s.pat.dirty.length + 1 ≤ logEntries))) ∧
    (∃ (m : Fin 9) (s : Machine.State), Reaches s m.val Reg.PAT_KEEP_CTRL ∧ mode s = Mode.boot) ∧
    (∃ (m : Fin 9) (s : Machine.State), Reaches s m.val Reg.PAT_KEEP_CTRL ∧ inRole s = true ∧ s.pat.keepBank.isSome =
      true) ∧
    (∃ (m : Fin 9) (s : Machine.State), Reaches s m.val Reg.PAT_KEEP_CTRL ∧ (mode s = Mode.safe ∨ mode s =
      Mode.factory) ∧ s.long.protect = false) :=
  ⟨⟨(wK 4), by decide +kernel⟩,
   ⟨(fset (svc 0 {} []) Reg.PAT_STAT Fld.PAT_STAT_PF 1), by decide +kernel⟩,
   ⟨wK3, by decide +kernel⟩,
   ⟨wK3, { item := Sys2Proof.Machine.KeepItem.video 3, v0 := 5, v1 := 0 }, by decide +kernel⟩,
   ⟨_, (wK 4), Sys2Proof.Machine.KeepItem.video 0, by decide +kernel, by decide +kernel, by decide +kernel,
     by decide +kernel, by decide +kernel, rfl, by decide +kernel⟩,
   ⟨_, (wK 4), (Sys2Proof.Machine.KeepItem.video 3), by decide +kernel, by decide +kernel, by decide +kernel,
     by decide +kernel, by decide +kernel, rfl, by decide +kernel⟩,
   ⟨_, wK2, by decide +kernel, by decide +kernel, by decide +kernel, by decide +kernel, by decide +kernel, rfl,
     by decide +kernel⟩,
   ⟨8, (svc 1 g0 []), ⟨by decide +kernel, by decide +kernel⟩, by decide +kernel⟩,
   ⟨8, (wK 4), ⟨by decide +kernel, by decide +kernel⟩, by decide +kernel⟩,
   ⟨8, (wK 2), ⟨by decide +kernel, by decide +kernel⟩, by decide +kernel⟩⟩
end PowerFailureAndKeep

namespace LifetimeCounters
/-- The hypotheses of `Obligations.LifetimeCounters` are met together. -/
theorem witness_LifetimeCounters :
    (∃ (k : Nat), (k = 0 ∨ 8 ≤ k ∧ k < 594)) ∧
    (∃ (k : Nat), k ≠ 0 ∧ k < 8) ∧
    (∃ (s : Machine.State) (c : Nat) (k : Nat), s.long.protect = false ∧ c < 3 ∧ k < 594) :=
  ⟨⟨0, by decide +kernel⟩,
   ⟨1, by decide +kernel⟩,
   ⟨(svc 4 g0 []), 0, 0, by decide +kernel⟩⟩
end LifetimeCounters

namespace HangAndMasterReset
def wG : Machine.State := let s := svc 4 g0 []; { s with fab := { hung := [⟨3,true,0,5,false⟩, ⟨8,false,0,0x55,false⟩, ⟨3,true,0,9,false⟩], held := [{ master := 8, write := false, addr := 0 }, { master := 3, write := false, addr := 0 }], i2cPending := some { master := 8, write := false, addr := 5 } } }
def wG2 : Machine.State := let s := fset wG Reg.FABRIC_HANG_INFO Fld.FABRIC_HANG_INFO_VALID 1; { s with fab := { s.fab with hung := s.fab.hung.tail } }
/-- The hypotheses of `Obligations.HangAndMasterReset` are met together. -/
theorem witness_HangAndMasterReset :
    (∃ (m : Fin 9) (h : Hung) (l : List Hung) (s : Machine.State), s.fab.hung = h :: l ∧ h.master = m.val ∧ h.expired
      = false ∧ fbit s Reg.FABRIC_HANG_INFO Fld.FABRIC_HANG_INFO_VALID = false) ∧
    (∃ (m : Fin 9) (h : Hung) (l : List Hung) (s : Machine.State), s.fab.hung = h :: l ∧ h.master = m.val ∧ h.expired
      = false ∧ fbit s Reg.FABRIC_HANG_INFO Fld.FABRIC_HANG_INFO_VALID = true) ∧
    (∃ (m : Fin 9) (w : Word) (s : Machine.State), Reaches s m.val Reg.FABRIC_MRESET ∧ w.toNat / 65536 = 15510 ∧
      bitOf 8 (w.toNat) = true) ∧
    (∃ (s : Machine.State), mode s ≠ Mode.reset) ∧
    (∃ (b : Byte), b ≠ 165) :=
  ⟨⟨3, _, _, wG, rfl, by decide +kernel⟩,
   ⟨8, _, _, wG2, rfl, by decide +kernel⟩,
   ⟨1, 1016463616, wG, ⟨by decide +kernel, by decide +kernel⟩, by decide +kernel⟩,
   ⟨wG, by decide +kernel⟩,
   ⟨0, by decide +kernel⟩⟩
end HangAndMasterReset

namespace PcieAndManagement
def wQ : Machine.State := { rset (rset (svc 4 g0 []) (Reg.MSIX_PBA 0) 0xFFFFFFFF) (Reg.MSIX_ADDR_LO 1) 0xFEE00000 with fab := { msixEnable := true, hung := [⟨0,true,0,5,false⟩, ⟨8,true,0,5,false⟩], held := [{ master := 0, write := true, addr := 5 }, { master := 8, write := false, addr := 5 }], i2cPending := some { master := 8, write := true, addr := 4, data := 4 } } }
def unm : Machine.State := { rset (rset (svc 4 g0 []) (Reg.MSIX_PBA 0) 0xFFFFFFFF) (Reg.MSIX_ADDR_LO 1) 0xFEE00000 with fab := { msixEnable := true } }
def umk : Machine.State := fset (svc 4 g0 []) (Reg.MSIX_CTRL 1) Fld.MSIX_CTRL_MASK 0
/-- The hypotheses of `Obligations.PcieAndManagement` are met together. -/
theorem witness_PcieAndManagement :
    (∃ (speed : Fin 6) (width : Fin 5) (en : Bool) (mask : Bool) (s : Machine.State) (v : Nat), mode s ≠ Mode.reset ∧
      fbit s Reg.GLOBAL_CLK_LOCK Fld.GLOBAL_CLK_LOCK_CTL = true ∧ speed ≠ 0 ∧ (width = 1 ∨ width = 2 ∨ width = 4) ∧ v
      < 64 ∧ en = true ∧ mask = false ∧ fbit s (Reg.MSIX_CTRL v) Fld.MSIX_CTRL_MASK = false) ∧
    (∃ (s : Machine.State), fbit s Reg.FABRIC_PCIE_STAT Fld.FABRIC_PCIE_STAT_UP = true) ∧
    (∃ (s : Machine.State) (a : Nat), mode s ≠ Mode.reset ∧ blockOf a = Block.msix) ∧
    (∃ (v : Fin 64) (s : Machine.State), Reaches s 0 (Reg.MSIX_CTRL v.val) ∧ (bitOf (v.val % 32) (rgetN s
      (Reg.MSIX_PBA (v.val / 32))) = true ∧ s.fab.msixEnable = true ∧ s.fab.msixMask = false)) ∧
    (∃ (v : Fin 64) (s : Machine.State), Reaches s 0 (Reg.MSIX_CTRL v.val) ∧ (¬(bitOf (v.val % 32) (rgetN s
      (Reg.MSIX_PBA (v.val / 32))) = true ∧ s.fab.msixEnable = true ∧ s.fab.msixMask = false))) ∧
    (∃ (code : Byte), BitVec.toNat code ∉ [16, 32, 33, 34, 48, 58]) ∧
    (∃ (params : List Byte) (s : Machine.State), params.length = 4 ∧ s.test.inj = none ∧ s.long.mramBad = [] ∧
      s.long.mramSoft = []) ∧
    (∃ (s : Machine.State), s.fab.i2cPending = none) ∧
    (∃ (s : Machine.State), s.fab.i2cPending.isSome = true) :=
  ⟨⟨5, 4, true, false, umk, 1, by decide +kernel⟩,
   ⟨umk, by decide +kernel⟩,
   ⟨umk, 66060300, by decide +kernel⟩,
   ⟨5, unm, ⟨by decide +kernel, by decide +kernel⟩, by decide +kernel⟩,
   ⟨63, umk, ⟨by decide +kernel, by decide +kernel⟩, by decide +kernel⟩,
   ⟨0, by decide +kernel⟩,
   ⟨[255, 1, 0, 0], umk, by decide +kernel⟩,
   ⟨umk, by decide +kernel⟩,
   ⟨wQ, by decide +kernel⟩⟩
end PcieAndManagement

namespace TestFacilities
def wT : Machine.State := fset (fset (svc 5 g0 []) Reg.TEST_INJ_TARGET Fld.TEST_INJ_TARGET_CLASS 1) Reg.TEST_INJ_TARGET Fld.TEST_INJ_TARGET_INDEX 2
def wT6 : Machine.State := fset (fset (svc 3 g0 [(Reg.PAIR_CTRL, 1)]) Reg.TEST_INJ_TARGET Fld.TEST_INJ_TARGET_CLASS 6) Reg.TEST_INJ_TARGET Fld.TEST_INJ_TARGET_INDEX 1
def wT7 : Machine.State := { wT with test := { inj := some ⟨1, 2, 1, 9, 0⟩, stalled := [0, 5] } }
/-- The hypotheses of `Obligations.TestFacilities` are met together. -/
theorem witness_TestFacilities :
    (∃ (m : Fin 9) (cnt : BitVec 16) (mask : BitVec 8) (s : Machine.State), Reaches s m.val Reg.TEST_INJ_CTRL ∧ injOk
      s = true ∧ armAllowed s (fget s Reg.TEST_INJ_TARGET Fld.TEST_INJ_TARGET_CLASS) (fget s Reg.TEST_INJ_TARGET
      Fld.TEST_INJ_TARGET_INDEX) mask.toNat cnt.toNat = true) ∧
    (∃ (m : Fin 9) (cnt : BitVec 16) (mask : BitVec 8) (s : Machine.State), Reaches s m.val Reg.TEST_INJ_CTRL ∧
      (injOk s = false ∨ armAllowed s (fget s Reg.TEST_INJ_TARGET Fld.TEST_INJ_TARGET_CLASS) (fget s
      Reg.TEST_INJ_TARGET Fld.TEST_INJ_TARGET_INDEX) mask.toNat cnt.toNat = false)) ∧
    (∃ (m : Fin 9) (s : Machine.State), Reaches s m.val Reg.TEST_INJ_CTRL ∧ injOk s = true ∧ s.test.inj.isSome =
      true) ∧
    (∃ (m : Fin 9) (k : Fin 5) (s : Machine.State), Reaches s m.val (Reg.TEST_PERT_QDELAY + 4 * k.val) ∧ pertOk s =
      true) ∧
    (∃ (m : Fin 9) (us : BitVec 16) (s : Machine.State), Reaches s m.val Reg.TEST_PERT_MAC ∧ pertOk s = true ∧ us ≠
      0) ∧
    (∃ (mac : Fin 64) (j : Nat), j ≠ mac.val) ∧
    (∃ (code : BitVec 8) (s : Machine.State), jtagDrives code.toNat = true ∧ scanOk s = false) ∧
    (∃ (code : BitVec 8) (s : Machine.State), (jtagDrives code.toNat = false ∨ scanOk s = true) ∧ code.toNat ≤ 6) ∧
    (∃ (code : BitVec 8), code = 1) :=
  ⟨⟨8, 1, 1, wT, ⟨by decide +kernel, by decide +kernel⟩, by decide +kernel⟩,
   ⟨8, 0, 0, wT, ⟨by decide +kernel, by decide +kernel⟩, by decide +kernel⟩,
   ⟨8, (refreshInj wT7), ⟨by decide +kernel, by decide +kernel⟩, by decide +kernel⟩,
   ⟨8, 4, wT, ⟨by decide +kernel, by decide +kernel⟩, by decide +kernel⟩,
   ⟨8, 1, wT, ⟨by decide +kernel, by decide +kernel⟩, by decide +kernel⟩,
   ⟨63, 0, by decide +kernel⟩,
   ⟨0, wT6, by decide +kernel⟩,
   ⟨0, wT, by decide +kernel⟩,
   ⟨1, by decide +kernel⟩⟩
end TestFacilities

namespace QueueOperations
/-- An image with queue groups alone. -/
def gq : Img := imgOf
  [(8, at_ 0 [0, 0, 0, 1, 8, 0, 0, 0, 100, 0, 0, 0, 10] ++ at_ 16 [8, 0, 0, 2, 8, 0, 0, 1, 100, 0, 0, 0, 10]
      ++ at_ 32 [16, 0, 0, 3, 8, 0, 0, 2, 100, 0, 0, 0, 10])] []
def q1 : Queue := qWrite 10 [1,2,3,4] (qWrite 10 [9,9] (qClose (qWrite 10 (List.range 8) (qClose (qWrite 10 [5] {})))))
def q2 : Queue := { qRewind (qMark { q1 with rd := 1 }) with trunc := true, poison := true }
def q3 : Queue := { q1 with frozen := true }
def wq : Machine.State := { svc 4 gq [] with q := { queues := [(1, q1), (2, q2), (3, q3), (9, qClose q1)] } }
def wqc : Machine.State := { wq with q := { wq.q with queues := wq.q.queues ++ [(10, q2)] } }
/-- The hypotheses of `Obligations.QueueOperations` are met together. -/
theorem witness_QueueOperations :
    (∃ (q : BitVec 20) (s : Machine.State) (off : Fin 32) (bytes : List Byte) (p : Nat), (∀ (o : Nat), o < 128 →
      bar2Gate s true (128 * q.toNat + o) (inService s) = Gate.pass) ∧ qNamed s q.toNat = true ∧ s.test.inj = none ∧
      hostBarred s q.toNat = false ∧ bytes.length ∈ [1, 2, 4, 8] ∧ off.val % bytes.length = 0 ∧ p ≠ q.toNat) :=
  ⟨1, wqc, 31, [1], 2, by decide +kernel⟩
end QueueOperations

namespace QueuePositionsAndCapacity
/-- An image with queue groups alone. -/
def gq : Img := imgOf
  [(8, at_ 0 [0, 0, 0, 1, 8, 0, 0, 0, 100, 0, 0, 0, 10] ++ at_ 16 [8, 0, 0, 2, 8, 0, 0, 1, 100, 0, 0, 0, 10]
      ++ at_ 32 [16, 0, 0, 3, 8, 0, 0, 2, 100, 0, 0, 0, 10])] []
def q1 : Queue := qWrite 10 [1,2,3,4] (qWrite 10 [9,9] (qClose (qWrite 10 (List.range 8) (qClose (qWrite 10 [5] {})))))
def q2 : Queue := { qRewind (qMark { q1 with rd := 1 }) with trunc := true, poison := true }
def q3 : Queue := { q1 with frozen := true }
def wq : Machine.State := { svc 4 gq [] with q := { queues := [(1, q1), (2, q2), (3, q3), (9, qClose q1)] } }
def wqc : Machine.State := { wq with q := { wq.q with queues := wq.q.queues ++ [(10, q2)] } }
/-- The hypotheses of `Obligations.QueuePositionsAndCapacity` are met together. -/
theorem witness_QueuePositionsAndCapacity :
    (∃ (q : Queue), q.frozen = true) ∧
    (∃ (q : Queue), q.frozen = false ∧ q.mark = none) ∧
    (∃ (q : Queue) (w : QWord), q.frozen = false ∧ q.opn = true ∧ q.openWords ≠ 0 ∧ q.words.getLast? = some w) ∧
    (∃ (q : BitVec 20) (cap : BitVec 27) (g : Nat) (s : Machine.State), bar2Gate s true (128 * q.toNat + 44)
      (inService s) = Gate.pass ∧ qGroup s.img q.toNat = some g ∧ s.test.inj = none ∧ (hostBarred s q.toNat = false ∧
      cap.toNat + List.foldl (fun (acc i : Nat) ↦ if qgFirst s.img g + i = q.toNat then acc else acc + qCap s
      (qgFirst s.img g + i)) 0 (List.range (qgCount s.img g)) ≤ qgQuota s.img g)) ∧
    (∃ (q : BitVec 20) (cap : BitVec 27) (g : Nat) (s : Machine.State), bar2Gate s true (128 * q.toNat + 44)
      (inService s) = Gate.pass ∧ qGroup s.img q.toNat = some g ∧ s.test.inj = none ∧ (¬(hostBarred s q.toNat = false
      ∧ cap.toNat + List.foldl (fun (acc i : Nat) ↦ if qgFirst s.img g + i = q.toNat then acc else acc + qCap s
      (qgFirst s.img g + i)) 0 (List.range (qgCount s.img g)) ≤ qgQuota s.img g))) :=
  ⟨⟨q3, by decide +kernel⟩,
   ⟨q1, by decide +kernel⟩,
   ⟨q1, _, by decide +kernel, by decide +kernel, by decide +kernel, rfl⟩,
   ⟨0, 0, _, wqc, by decide +kernel, rfl, by decide +kernel⟩,
   ⟨0, 100, _, wqc, by decide +kernel, rfl, by decide +kernel⟩⟩
end QueuePositionsAndCapacity

namespace QueueWritesAndReads
/-- An image with queue groups alone. -/
def gq : Img := imgOf
  [(8, at_ 0 [0, 0, 0, 1, 8, 0, 0, 0, 100, 0, 0, 0, 10] ++ at_ 16 [8, 0, 0, 2, 8, 0, 0, 1, 100, 0, 0, 0, 10]
      ++ at_ 32 [16, 0, 0, 3, 8, 0, 0, 2, 100, 0, 0, 0, 10])] []
def q1 : Queue := qWrite 10 [1,2,3,4] (qWrite 10 [9,9] (qClose (qWrite 10 (List.range 8) (qClose (qWrite 10 [5] {})))))
def q2 : Queue := { qRewind (qMark { q1 with rd := 1 }) with trunc := true, poison := true }
def q3 : Queue := { q1 with frozen := true }
def wq : Machine.State := { svc 4 gq [] with q := { queues := [(1, q1), (2, q2), (3, q3), (9, qClose q1)] } }
def wqc : Machine.State := { wq with q := { wq.q with queues := wq.q.queues ++ [(10, q2)] } }
/-- The hypotheses of `Obligations.QueueWritesAndReads` are met together. -/
theorem witness_QueueWritesAndReads :
    (∃ (bs : List Nat) (q : Queue), q.frozen = false ∧ bs ≠ []) ∧
    (∃ (q : BitVec 20) (s : Machine.State) (w : QWord) (p : Nat), inService s = true ∧ (∀ (o : Nat), o < 128 →
      bar2Gate s false (128 * q.toNat + o) true = Gate.pass) ∧ qNamed s q.toNat = true ∧ hostBarred s q.toNat = false
      ∧ s.test.inj = none ∧ (getQ s q.toNat).frozen = false ∧ (getQ s q.toNat).rd < qClosed (getQ s q.toNat) ∧ (getQ
      s q.toNat).words[(getQ s q.toNat).rd]? = some w ∧ p ≠ q.toNat) ∧
    (∃ (q : BitVec 20) (errs : Fin 3) (s : Machine.State) (w : QWord), inService s = true ∧ (∀ (o : Nat), o < 128 →
      bar2Gate s false (128 * q.toNat + o) true = Gate.pass) ∧ qNamed s q.toNat = true ∧ hostBarred s q.toNat = false
      ∧ s.test.inj = none ∧ (getQ s q.toNat).frozen = false ∧ (getQ s q.toNat).rd < qClosed (getQ s q.toNat) ∧ (getQ
      s q.toNat).words[(getQ s q.toNat).rd]? = some w ∧ errs = 0) ∧
    (∃ (q : BitVec 20) (s : Machine.State), inService s = true ∧ (∀ (o : Nat), o < 128 → bar2Gate s false (128 *
      q.toNat + o) true = Gate.pass) ∧ qNamed s q.toNat = true ∧ hostBarred s q.toNat = false ∧ s.test.inj = none ∧
      (getQ s q.toNat).frozen = false ∧ qClosed (getQ s q.toNat) ≤ (getQ s q.toNat).rd) ∧
    (∃ (q : BitVec 20) (s : Machine.State) (o : Fin 128) (n : Fin 513), inService s = true ∧ (∀ (o : Nat), o < 128 →
      bar2Gate s false (128 * q.toNat + o) true = Gate.pass) ∧ n ≠ 0 ∧ o.val % 64 + n.val ≤ 64 ∧ (o.val < 32 ∨ 64 <
      o.val + n.val) ∧ (¬(o.val = 64 ∧ n.val = 64))) ∧
    (∃ (q : BitVec 20) (s : Machine.State) (o : Nat), inService s = true ∧ (∀ (o : Nat), o < 128 → bar2Gate s false
      (128 * q.toNat + o) true = Gate.pass) ∧ o ∈ [36, 40, 44, 48]) :=
  ⟨⟨[1, 2, 3, 4], q1, by decide +kernel⟩,
   ⟨1, wqc, _, 2, by decide +kernel, by decide +kernel, by decide +kernel, by decide +kernel, by decide +kernel,
     by decide +kernel, by decide +kernel, rfl, by decide +kernel⟩,
   ⟨1, 0, wqc, _, by decide +kernel, by decide +kernel, by decide +kernel, by decide +kernel, by decide +kernel,
     by decide +kernel, by decide +kernel, rfl, by decide +kernel⟩,
   ⟨1, (svc 5 g0 []), by decide +kernel⟩,
   ⟨1, wqc, 127, 1, by decide +kernel⟩,
   ⟨1, wqc, 36, by decide +kernel⟩⟩
end QueueWritesAndReads

namespace HbmScrubAndStaging
def hb (n : Nat) (l : List HbmReq) (s : Machine.State) : Machine.State := fset { s with q := { s.q with held := l } } (Reg.QM_HBM_OUTST 0) Fld.QM_HBM_OUTST_N n
def wH1 : Machine.State := hb 8192 [⟨0,1,3⟩, ⟨1,2,4⟩, ⟨0,0,9⟩] (svc 4 g0 [])
def sc (st off : Nat) : Machine.State := let s := svc 4 g0 [(Reg.QM_SCRUB_CTRL, 0xFFFFFFFF)]; { s with q := { s.q with scrubStack := st, scrubOff := off } }
def wS : Machine.State := { svc 1 {} [] with core := { modeSel := 1 }, q := { lost := 3, staging := [(0, 5), (3, 6)] } }
/-- The hypotheses of `Obligations.HbmScrubAndStaging` are met together. -/
theorem witness_HbmScrubAndStaging :
    (∃ (stack : Fin 4) (s : Machine.State) (r : HbmReq), fget s (Reg.QM_HBM_OUTST stack.val) Fld.QM_HBM_OUTST_N ≤
      8192 ∧ (∀ (r : HbmReq), r ∈ s.q.held → r.cls ≤ 2) ∧ r.stack ≠ stack.val) ∧
    (∃ (s : Machine.State), running s = true ∧ fbit s Reg.QM_SCRUB_CTRL Fld.QM_SCRUB_CTRL_EN = true ∧ s.test.inj =
      none ∧ s.q.scrubOff + 8 < stackBytes s.img s.q.scrubStack) ∧
    (∃ (s : Machine.State), running s = true ∧ fbit s Reg.QM_SCRUB_CTRL Fld.QM_SCRUB_CTRL_EN = true ∧ s.test.inj =
      none ∧ (¬s.q.scrubOff + 8 < stackBytes s.img s.q.scrubStack) ∧ s.q.scrubStack < 3) ∧
    (∃ (s : Machine.State), running s = true ∧ fbit s Reg.QM_SCRUB_CTRL Fld.QM_SCRUB_CTRL_EN = true ∧ s.test.inj =
      none ∧ (¬s.q.scrubOff + 8 < stackBytes s.img s.q.scrubStack) ∧ (¬s.q.scrubStack < 3)) ∧
    (∃ (addr : BitVec 30) (bytes : List Byte) (s : Machine.State) (x : Nat), bar2Gate s true addr.toNat
      (stagingMapped s) = Gate.pass ∧ addr.toNat < 50331648 ∧ addr.toNat ≤ x ∧ x < addr.toNat + bytes.length ∧ x <
      50331648) ∧
    (∃ (addr : BitVec 30) (bytes : List Byte) (s : Machine.State) (x : Nat), bar2Gate s true addr.toNat
      (stagingMapped s) = Gate.pass ∧ addr.toNat < 50331648 ∧ (x < addr.toNat ∨ addr.toNat + bytes.length ≤ x ∨
      50331648 ≤ x)) :=
  ⟨⟨3, wH1, ({ stack := 0, cls := 1, who := 3 }), by decide +kernel⟩,
   ⟨wH1, by decide +kernel⟩,
   ⟨(sc 1 (1345 * 2^20 - 8)), by decide +kernel⟩,
   ⟨(sc 3 (1345 * 2^20 - 8)), by decide +kernel⟩,
   ⟨0, [1], wS, 0, by decide +kernel⟩,
   ⟨0, [], wS, 0, by decide +kernel⟩⟩
end HbmScrubAndStaging

namespace MacLinkStates
def ms (st : Nat) (c : Bool) : Machine.State := let s := (List.range 2).foldl (fun s m => fset (rset s (Reg.MAC_CTRL m) 1) (Reg.MAC_STAT m) Fld.MAC_STAT_STATE st) (svc 4 g0 []); { s with mac := [(0, { cdr := c }), (1, {cdr := !c})] }
def flt : Machine.State := { ms 2 true with mac := [(0, { cdr := true, fault := true })] }
/-- The hypotheses of `Obligations.MacLinkStates` are met together. -/
theorem witness_MacLinkStates :
    (∃ (m : Fin 64) (s : Machine.State), portFormed s.img m.val = true ∧ macState s m.val = 1) ∧
    (∃ (m : Fin 64) (s : Machine.State), portFormed s.img m.val = true ∧ 2 ≤ macState s m.val ∧ macState s m.val = 3) ∧
    (∃ (m : Fin 64) (s : Machine.State), portFormed s.img m.val = true ∧ macState s m.val = 2 ∧ (macPort s
      m.val).fault = true) ∧
    (∃ (m : Fin 64) (s : Machine.State), portFormed s.img m.val = true ∧ macState s m.val = 2 ∧ (¬(macPort s
      m.val).fault = true)) ∧
    (∃ (m : Fin 64) (s : Machine.State) (k : Nat), portFormed s.img m.val = true ∧ (macPort s m.val).cur = none ∧ k ≠
      m.val) ∧
    (∃ (m : Fin 64) (s : Machine.State) (rx : Bool), portFormed s.img m.val = true ∧ (rx = true ∨ (macPort s
      m.val).cur.isSome = true)) :=
  ⟨⟨1, (ms 1 false), by decide +kernel⟩,
   ⟨1, (ms 3 true), by decide +kernel⟩,
   ⟨0, flt, by decide +kernel⟩,
   ⟨1, flt, by decide +kernel⟩,
   ⟨1, flt, 0, by decide +kernel⟩,
   ⟨1, flt, true, by decide +kernel⟩⟩
end MacLinkStates

namespace MacTransmitAndInjection
def fr : TxFrame := { bytes := List.range 70 }
def mtx : Machine.State := { svc 4 g0 [] with mac := [(0, { cdr := true, cur := some { fr with bytes := [1,2,3] }, txq := [(0, [fr, fr]), (1, [fr])] })] }
/-- One record waits in queue 0, a hot one, from which the port injects. -/
def recOf (h f : List Nat) : Machine.State :=
  { fset (fset (svc 4 g0 []) (Reg.MAC_INJ_Q 0) Fld.MAC_INJ_Q_EN 1) (Reg.MAC_INJ_Q 0) Fld.MAC_INJ_Q_Q 0 with
    q := { queues := [(0, { words := [{ bytes := h ++ f, last := true }] })] } }
def h16 (n c : Nat) : List Nat := [n % 256, n / 256 + c, 9, 0] ++ List.replicate 12 0
/-- The hypotheses of `Obligations.MacTransmitAndInjection` are met together. -/
theorem witness_MacTransmitAndInjection :
    (∃ (m : Fin 64) (s : Machine.State) (f : TxFrame), (macPort s m.val).cur = some f ∧ s.test.jtagPins = false) ∧
    (∃ (m : Fin 64) (s : Machine.State) (i : Nat) (f : TxFrame) (l : List TxFrame) (j : Nat), macState s m.val ≠ 3 ∧
      txTop s m.val = some i ∧ txQueue s m.val i = f :: l ∧ (macPort s m.val).waiting = [] ∧ j ≠ i) ∧
    (∃ (m : Fin 64) (bs : List Nat) (bad : Bool) (s : Machine.State), portFormed s.img m.val = true ∧ inService s =
      true ∧ fbit s (Reg.MAC_INJ_Q m.val) Fld.MAC_INJ_Q_EN = true ∧ (takeRecord (fget s (Reg.MAC_INJ_Q m.val)
      Fld.MAC_INJ_Q_Q) s).1 = some (bs, bad) ∧ s.test.inj = none ∧ (bad = true ∨ leNat (List.take 4 bs) % 2 ^ 14 < 14
      ∨ 9596 < leNat (List.take 4 bs) % 2 ^ 14 ∨ bs.length ≠ 16 + leNat (List.take 4 bs) % 2 ^ 14)) ∧
    (∃ (m : Fin 64) (bs : List Nat) (bad : Bool) (s : Machine.State), portFormed s.img m.val = true ∧ inService s =
      true ∧ fbit s (Reg.MAC_INJ_Q m.val) Fld.MAC_INJ_Q_EN = true ∧ (takeRecord (fget s (Reg.MAC_INJ_Q m.val)
      Fld.MAC_INJ_Q_Q) s).1 = some (bs, bad) ∧ s.test.inj = none ∧ bad = false ∧ 14 ≤ leNat (List.take 4 bs) % 2 ^ 14
      ∧ leNat (List.take 4 bs) % 2 ^ 14 ≤ 9596 ∧ bs.length = 16 + leNat (List.take 4 bs) % 2 ^ 14 ∧ txRoom s m.val
      (txClass s m.val (b2n (bitOf 14 (leNat (List.take 4 bs))))) = true ∧ txReady s m.val = false) :=
  ⟨⟨0, mtx, _, rfl, by decide +kernel⟩,
   ⟨0, mtx, _, _, _, 0, by decide +kernel, rfl, rfl, by decide +kernel⟩,
   ⟨0, [13, 0, 9, 0, 0, 0, 0, 0, 0, 0, 0, 0, 0, 0, 0, 0, 0, 1, 2, 3, 4, 5, 6, 7, 8, 9, 10, 11, 12], false, (recOf
     (h16 13 0) (List.range 13)), by decide +kernel⟩,
   ⟨0, [14, 128, 9, 0, 0, 0, 0, 0, 0, 0, 0, 0, 0, 0, 0, 0, 0, 1, 2, 3, 4, 5, 6, 7, 8, 9, 10, 11, 12, 13], false,
     (recOf (h16 14 0x80) (List.range 14)), by decide +kernel⟩⟩
end MacTransmitAndInjection

namespace MacReceive
def mr : Machine.State := fset (svc 4 g0 [(Reg.MAC_CTRL 0, 0x11)]) (Reg.MAC_STAT 0) Fld.MAC_STAT_STATE 3
/-- A port whose PTP frames go to queue 9, which has the first hot slot. -/
def mr2 : Machine.State := { fset (fset mr (Reg.MAC_EXC_Q_PTP 0) Fld.MAC_EXC_Q_PTP_EN 1) (Reg.MAC_EXC_Q_PTP 0) Fld.MAC_EXC_Q_PTP_Q 9 with
  img := { g0 with bytes := (0x20000 * 8 + 0x4000, 9) :: g0.bytes } }
def mr4 : Machine.State := fset mr (Reg.MAC_CTRL 0) Fld.MAC_CTRL_PAUSE_EN 1
def mr5 : Machine.State := { mr with mac := [(0, { rxBuf := 262144 })] }
/-- The hypotheses of `Obligations.MacReceive` are met together. -/
theorem witness_MacReceive :
    (∃ (m : Fin 64) (bytes : List Byte) (drained : Nat) (s : Machine.State), portFormed s.img m.val = true ∧ macState
      s m.val = 3 ∧ (macPort s m.val).rxShut = false ∧ (macPort s m.val).rxLast = false ∧ inCast s = false ∧
      s.test.inj = none ∧ bytes ≠ [] ∧ (¬(macPort s m.val).rxBuf - drained + (bytes.map (·.toNat)).length ≤ rxShare
      s.img m.val)) ∧
    (∃ (m : Fin 64) (bytes : List Byte) (drained : Nat) (s : Machine.State) (pcsErr : Bool) (n : Nat), portFormed
      s.img m.val = true ∧ macState s m.val = 3 ∧ (macPort s m.val).rxShut = false ∧ (macPort s m.val).rxLast = false
      ∧ inCast s = false ∧ s.test.inj = none ∧ bytes ≠ [] ∧ (macPort s m.val).rxBuf - drained + (bytes.map
      (·.toNat)).length ≤ rxShare s.img m.val ∧ (fcsOk 0 (bytes.map (·.toNat)) = false ∨ pcsErr = true ∨ n ≠ 0)) ∧
    (∃ (m : Fin 64) (bytes : List Byte) (drained : Nat) (s : Machine.State), portFormed s.img m.val = true ∧ macState
      s m.val = 3 ∧ (macPort s m.val).rxShut = false ∧ (macPort s m.val).rxLast = false ∧ inCast s = false ∧
      s.test.inj = none ∧ (macPort s m.val).rxBuf - drained + (bytes.map (·.toNat)).length ≤ rxShare s.img m.val ∧
      fcsOk 0 (bytes.map (·.toNat)) = true ∧ (bytes.map (·.toNat)).length < 64) ∧
    (∃ (m : Fin 64) (bytes : List Byte) (drained : Nat) (s : Machine.State), portFormed s.img m.val = true ∧ macState
      s m.val = 3 ∧ (macPort s m.val).rxShut = false ∧ (macPort s m.val).rxLast = false ∧ inCast s = false ∧
      s.test.inj = none ∧ (macPort s m.val).rxBuf - drained + (bytes.map (·.toNat)).length ≤ rxShare s.img m.val ∧
      fcsOk 0 (bytes.map (·.toNat)) = true ∧ 64 ≤ (bytes.map (·.toNat)).length ∧ (9600 < (bytes.map (·.toNat)).length
      ∨ (frameTagged (bytes.map (·.toNat)) && isTag (bytes.map (·.toNat)) 16) = true)) ∧
    (∃ (m : Fin 64) (bytes : List Byte) (drained : Nat) (s : Machine.State), portFormed s.img m.val = true ∧ macState
      s m.val = 3 ∧ (macPort s m.val).rxShut = false ∧ (macPort s m.val).rxLast = false ∧ inCast s = false ∧
      s.test.inj = none ∧ (fcsOk 0 (bytes.map (·.toNat)) = true ∧ 64 ≤ (bytes.map (·.toNat)).length ∧ (bytes.map
      (·.toNat)).length ≤ 9600 ∧ (frameTagged (bytes.map (·.toNat)) && isTag (bytes.map (·.toNat)) 16) = false ∧
      (macPort s m.val).rxBuf - drained + (bytes.map (·.toNat)).length ≤ rxShare s.img m.val) ∧ (¬(daUnicast
      (bytes.map (·.toNat)) = false ∨ List.take 6 (bytes.map (·.toNat)) = macAddr s m.val ∨ fbit s (Reg.MAC_CTRL
      m.val) Fld.MAC_CTRL_PROMISC = true))) ∧
    (∃ (m : Fin 64) (bytes : List Byte) (drained : Nat) (s : Machine.State), portFormed s.img m.val = true ∧ macState
      s m.val = 3 ∧ (macPort s m.val).rxShut = false ∧ (macPort s m.val).rxLast = false ∧ inCast s = false ∧
      s.test.inj = none ∧ (fcsOk 0 (bytes.map (·.toNat)) = true ∧ 64 ≤ (bytes.map (·.toNat)).length ∧ (bytes.map
      (·.toNat)).length ≤ 9600 ∧ (frameTagged (bytes.map (·.toNat)) && isTag (bytes.map (·.toNat)) 16) = false ∧
      (macPort s m.val).rxBuf - drained + (bytes.map (·.toNat)).length ≤ rxShare s.img m.val) ∧ (daUnicast (bytes.map
      (·.toNat)) = false ∨ List.take 6 (bytes.map (·.toNat)) = macAddr s m.val ∨ fbit s (Reg.MAC_CTRL m.val)
      Fld.MAC_CTRL_PROMISC = true) ∧ isPause s m.val (bytes.map (·.toNat)) = false ∧ etherType (bytes.map (·.toNat))
      = 34824) ∧
    (∃ (m : Fin 64) (bytes : List Byte) (drained : Nat) (s : Machine.State), portFormed s.img m.val = true ∧ macState
      s m.val = 3 ∧ (macPort s m.val).rxShut = false ∧ (macPort s m.val).rxLast = false ∧ inCast s = false ∧
      s.test.inj = none ∧ (fcsOk 0 (bytes.map (·.toNat)) = true ∧ 64 ≤ (bytes.map (·.toNat)).length ∧ (bytes.map
      (·.toNat)).length ≤ 9600 ∧ (frameTagged (bytes.map (·.toNat)) && isTag (bytes.map (·.toNat)) 16) = false ∧
      (macPort s m.val).rxBuf - drained + (bytes.map (·.toNat)).length ≤ rxShare s.img m.val) ∧ (daUnicast (bytes.map
      (·.toNat)) = false ∨ List.take 6 (bytes.map (·.toNat)) = macAddr s m.val ∨ fbit s (Reg.MAC_CTRL m.val)
      Fld.MAC_CTRL_PROMISC = true) ∧ isPause s m.val (bytes.map (·.toNat)) = true ∧ fbit s (Reg.MAC_CTRL m.val)
      Fld.MAC_CTRL_PAUSE_EN = true ∧ be16 (bytes.map (·.toNat)) 16 ≠ 0) ∧
    (∃ (m : Fin 64) (bytes : List Byte) (drained : Nat) (s : Machine.State), portFormed s.img m.val = true ∧ macState
      s m.val = 3 ∧ (macPort s m.val).rxShut = false ∧ (macPort s m.val).rxLast = false ∧ inCast s = false ∧
      s.test.inj = none ∧ (fcsOk 0 (bytes.map (·.toNat)) = true ∧ 64 ≤ (bytes.map (·.toNat)).length ∧ (bytes.map
      (·.toNat)).length ≤ 9600 ∧ (frameTagged (bytes.map (·.toNat)) && isTag (bytes.map (·.toNat)) 16) = false ∧
      (macPort s m.val).rxBuf - drained + (bytes.map (·.toNat)).length ≤ rxShare s.img m.val) ∧ (daUnicast (bytes.map
      (·.toNat)) = false ∨ List.take 6 (bytes.map (·.toNat)) = macAddr s m.val ∨ fbit s (Reg.MAC_CTRL m.val)
      Fld.MAC_CTRL_PROMISC = true) ∧ etherType (bytes.map (·.toNat)) ≠ 34824 ∧ isPtp (bytes.map (·.toNat)) = true ∧
      fbit s (Reg.MAC_EXC_Q_PTP m.val) Fld.MAC_EXC_Q_PTP_EN = false) ∧
    (∃ (m : Fin 64) (bytes : List Byte) (drained : Nat) (corr : Nat) (s : Machine.State), portFormed s.img m.val =
      true ∧ macState s m.val = 3 ∧ (macPort s m.val).rxShut = false ∧ (macPort s m.val).rxLast = false ∧ inCast s =
      false ∧ s.test.inj = none ∧ (fcsOk 0 (bytes.map (·.toNat)) = true ∧ 64 ≤ (bytes.map (·.toNat)).length ∧
      (bytes.map (·.toNat)).length ≤ 9600 ∧ (frameTagged (bytes.map (·.toNat)) && isTag (bytes.map (·.toNat)) 16) =
      false ∧ (macPort s m.val).rxBuf - drained + (bytes.map (·.toNat)).length ≤ rxShare s.img m.val) ∧ (daUnicast
      (bytes.map (·.toNat)) = false ∨ List.take 6 (bytes.map (·.toNat)) = macAddr s m.val ∨ fbit s (Reg.MAC_CTRL
      m.val) Fld.MAC_CTRL_PROMISC = true) ∧ etherType (bytes.map (·.toNat)) ≠ 34824 ∧ isPtp (bytes.map (·.toNat)) =
      true ∧ fbit s (Reg.MAC_EXC_Q_PTP m.val) Fld.MAC_EXC_Q_PTP_EN = true ∧ (roomFor 2 (fget s (Reg.MAC_EXC_Q_PTP
      m.val) Fld.MAC_EXC_Q_PTP_Q) (44 + (bytes.map (·.toNat)).length) (rxHanded m.val (bytes.map (·.toNat)).length
      (countN (rxDrain m.val drained s) (Reg.MAC_FEC_CORR m.val) corr))).1 = true) ∧
    (∃ (m : Fin 64) (bytes : List Byte) (drained : Nat) (s : Machine.State), portFormed s.img m.val = true ∧ macState
      s m.val = 3 ∧ (macPort s m.val).rxShut = false ∧ (macPort s m.val).rxLast = false ∧ inCast s = false ∧
      s.test.inj = none ∧ (fcsOk 0 (bytes.map (·.toNat)) = true ∧ 64 ≤ (bytes.map (·.toNat)).length ∧ (bytes.map
      (·.toNat)).length ≤ 9600 ∧ (frameTagged (bytes.map (·.toNat)) && isTag (bytes.map (·.toNat)) 16) = false ∧
      (macPort s m.val).rxBuf - drained + (bytes.map (·.toNat)).length ≤ rxShare s.img m.val) ∧ (daUnicast (bytes.map
      (·.toNat)) = false ∨ List.take 6 (bytes.map (·.toNat)) = macAddr s m.val ∨ fbit s (Reg.MAC_CTRL m.val)
      Fld.MAC_CTRL_PROMISC = true) ∧ etherType (bytes.map (·.toNat)) ≠ 34824 ∧ isPtp (bytes.map (·.toNat)) = false) :=
  ⟨⟨0, [1, 0, 94, 0, 0, 1, 2, 2, 2, 2, 2, 2, 8, 0, 69, 0, 0, 60, 0, 0, 0, 0, 64, 17, 120, 157, 9, 9, 9, 9, 239, 1, 1,
     1, 16, 0, 19, 136, 0, 40, 0, 0, 128, 96, 0, 1, 0, 0, 0, 1, 0, 0, 0, 9, 0, 1, 2, 3, 4, 5, 6, 7, 8, 9, 10, 11, 12,
     13, 14, 15, 16, 17, 18, 19, 81, 193, 170, 217], 0, mr5, by decide +kernel⟩,
   ⟨0, [1, 0, 94, 0, 0, 1, 2, 2, 2, 2, 2, 2, 8, 0, 69, 0, 0, 60, 0, 0, 0, 0, 64, 17, 120, 157, 9, 9, 9, 9, 239, 1, 1,
     1, 16, 0, 19, 136, 0, 40, 0, 0, 128, 96, 0, 1, 0, 0, 0, 1, 0, 0, 0, 9, 0, 1, 2, 3, 4, 5, 6, 7, 8, 9, 10, 11, 12,
     13, 14, 15, 16, 17, 18, 19, 81, 193, 170, 217], 0, mr, true, 0, by decide +kernel⟩,
   ⟨0, [1, 27, 25, 0, 0, 0, 2, 2, 2, 2, 2, 2, 136, 247, 7, 7, 7, 7, 7, 7, 7, 7, 7, 7, 7, 7, 7, 7, 7, 7, 7, 7, 7, 7,
     7, 7, 7, 7, 7, 7, 23, 94, 196, 239], 0, mr, by decide +kernel⟩,
   ⟨0, [1, 0, 94, 0, 0, 1, 2, 2, 2, 2, 2, 2, 129, 0, 0, 1, 129, 0, 7, 7, 7, 7, 7, 7, 7, 7, 7, 7, 7, 7, 7, 7, 7, 7, 7,
     7, 7, 7, 7, 7, 7, 7, 7, 7, 7, 7, 7, 7, 7, 7, 7, 7, 7, 7, 7, 7, 7, 7, 7, 7, 7, 7, 7, 7, 7, 7, 7, 7, 7, 7, 181,
     212, 155, 154], 0, mr, by decide +kernel⟩,
   ⟨0, [2, 9, 9, 9, 9, 9, 7, 7, 7, 7, 7, 7, 7, 7, 7, 7, 7, 7, 7, 7, 7, 7, 7, 7, 7, 7, 7, 7, 7, 7, 7, 7, 7, 7, 7, 7,
     7, 7, 7, 7, 7, 7, 7, 7, 7, 7, 7, 7, 7, 7, 7, 7, 7, 7, 7, 7, 7, 7, 7, 7, 43, 73, 102, 160], 0, mr,
     by decide +kernel⟩,
   ⟨0, [1, 128, 194, 0, 0, 1, 2, 2, 2, 2, 2, 2, 136, 8, 0, 2, 0, 9, 7, 7, 7, 7, 7, 7, 7, 7, 7, 7, 7, 7, 7, 7, 7, 7,
     7, 7, 7, 7, 7, 7, 7, 7, 7, 7, 7, 7, 7, 7, 7, 7, 7, 7, 7, 7, 7, 7, 7, 7, 7, 7, 253, 91, 156, 7], 0, mr,
     by decide +kernel⟩,
   ⟨0, [1, 128, 194, 0, 0, 1, 2, 2, 2, 2, 2, 2, 136, 8, 0, 1, 0, 9, 7, 7, 7, 7, 7, 7, 7, 7, 7, 7, 7, 7, 7, 7, 7, 7,
     7, 7, 7, 7, 7, 7, 7, 7, 7, 7, 7, 7, 7, 7, 7, 7, 7, 7, 7, 7, 7, 7, 7, 7, 7, 7, 104, 37, 87, 56], 0, mr4,
     by decide +kernel⟩,
   ⟨0, [1, 27, 25, 0, 0, 0, 2, 2, 2, 2, 2, 2, 136, 247, 7, 7, 7, 7, 7, 7, 7, 7, 7, 7, 7, 7, 7, 7, 7, 7, 7, 7, 7, 7,
     7, 7, 7, 7, 7, 7, 7, 7, 7, 7, 7, 7, 7, 7, 7, 7, 7, 7, 7, 7, 7, 7, 7, 7, 7, 7, 128, 197, 161, 50], 0, mr,
     by decide +kernel⟩,
   ⟨0, [1, 27, 25, 0, 0, 0, 2, 2, 2, 2, 2, 2, 136, 247, 7, 7, 7, 7, 7, 7, 7, 7, 7, 7, 7, 7, 7, 7, 7, 7, 7, 7, 7, 7,
     7, 7, 7, 7, 7, 7, 7, 7, 7, 7, 7, 7, 7, 7, 7, 7, 7, 7, 7, 7, 7, 7, 7, 7, 7, 7, 128, 197, 161, 50], 0, 0, mr2,
     by decide +kernel⟩,
   ⟨0, [1, 0, 94, 0, 0, 1, 2, 2, 2, 2, 2, 2, 8, 0, 69, 0, 0, 60, 0, 0, 0, 0, 64, 17, 120, 157, 9, 9, 9, 9, 239, 1, 1,
     1, 16, 0, 19, 136, 0, 40, 0, 0, 128, 96, 0, 1, 0, 0, 0, 1, 0, 0, 0, 9, 0, 1, 2, 3, 4, 5, 6, 7, 8, 9, 10, 11, 12,
     13, 14, 15, 16, 17, 18, 19, 81, 193, 170, 217], 0, mr, by decide +kernel⟩⟩def body (h : List Nat) (n : Nat) : List Nat := let b := h ++ List.replicate (n - h.length) 7; b ++ leBytes 4 (crc32 b)
def ipHead : List Nat := let h := [0x45,0,0,60,0,0,0,0,64,17,0,0,9,9,9,9,239,1,1,1]
  let s := 65535 - sum16 h; (h.take 10) ++ [s / 256, s % 256] ++ h.drop 12
def udpPk : List Nat := body ([1,0,0x5E,0,0,1,2,2,2,2,2,2,8,0] ++ ipHead ++ [0x10,0,0x13,0x88,0,40,0,0] ++ [0x80,96,0,1,0,0,0,1,0,0,0,9] ++ List.range 20) 74
def mr3 : Machine.State := { mr with flow := { legs := [(8, [1,0,0,0xEF010101,0x13880000,0,0,0x600000])] } }
def pkt : List Byte := udpPk.map (BitVec.ofNat 8)
/-- A frame of an enabled leg is claimed. -/
theorem witness_MacReceive_claimed : ∃ (s : Machine.State) (m : Fin 64) (bytes : List Byte) (drained corr : Nat),
    (portFormed s.img m.val = true ∧ macState s m.val = 3 ∧ (macPort s m.val).rxShut = false ∧
    (macPort s m.val).rxLast = false ∧ inCast s = false ∧ s.test.inj = none ∧
    (macPort s m.val).rxBuf - drained + (bytes.map (·.toNat)).length ≤ rxShare s.img m.val ∧
    fcsOk 0 (bytes.map (·.toNat)) = true ∧
    64 ≤ (bytes.map (·.toNat)).length ∧ (bytes.map (·.toNat)).length ≤ 9600 ∧
    (frameTagged (bytes.map (·.toNat)) && isTag (bytes.map (·.toNat)) 16) = false ∧
    daUnicast (bytes.map (·.toNat)) = false ∧ etherType (bytes.map (·.toNat)) ≠ 0x8808 ∧
    isPtp (bytes.map (·.toNat)) = false) ∧
    ∃ u, flowClaim m.val (bytes.map (·.toNat)) (rxHanded m.val (bytes.map (·.toNat)).length
      (countN (rxDrain m.val drained s) (Reg.MAC_FEC_CORR m.val) corr)) = some u :=
  ⟨mr3, 0, pkt, 0, 0, by decide +kernel, Option.isSome_iff_exists.mp (by decide +kernel)⟩

end MacReceive

namespace FlowCommits
def wf (_ _ _ : Nat) : Machine.State := (List.range 4).foldl (fun s l => rset (rset s (Reg.FLOW_LEG_CTX l 7) 0x600000) (Reg.FLOW_LEG_CTX l 3) 5) (svc 4 g0 [])
/-- The hypotheses of `Obligations.FlowCommits` are met together. -/
theorem witness_FlowCommits :
    (∃ (m : Fin 9) (l : BitVec 16) (s : Machine.State) (j : Nat), Reaches s m.val (Reg.FLOW_LEG_CTX l.toNat 0) ∧ j ≠
      l.toNat) ∧
    (∃ (m : Fin 9) (tx : Bool) (f : Fin 4096) (w : Word) (s : Machine.State), Reaches s m.val (if tx = true then
      Reg.FLOW_ATX_CFG f.val else Reg.FLOW_ARX_CFG f.val) ∧ (¬(16384 < bitsOf 29 16 (w.toNat) + audChannels (w.toNat)
      ∨ audChannels (w.toNat) = 0 ∨ (if bitOf 2 (w.toNat) = true then 64 else 8) < audChannels (w.toNat) ∨ tx = true
      ∧ audFmt (w.toNat) = 1 ∨ tx = false ∧ asrcBlocks s.img (1048576 + f.val) ≠ [] ∧ 16 * (asrcBlocks s.img (1048576
      + f.val)).length < audChannels (w.toNat)))) ∧
    (∃ (m : Fin 9) (tx : Bool) (f : Fin 4096) (w : Word) (s : Machine.State), Reaches s m.val (if tx = true then
      Reg.FLOW_ATX_CFG f.val else Reg.FLOW_ARX_CFG f.val) ∧ (16384 < bitsOf 29 16 (w.toNat) + audChannels (w.toNat) ∨
      audChannels (w.toNat) = 0 ∨ (if bitOf 2 (w.toNat) = true then 64 else 8) < audChannels (w.toNat) ∨ tx = true ∧
      audFmt (w.toNat) = 1 ∨ tx = false ∧ asrcBlocks s.img (1048576 + f.val) ≠ [] ∧ 16 * (asrcBlocks s.img (1048576 +
      f.val)).length < audChannels (w.toNat))) :=
  ⟨⟨8, 0, (wf 0 0 0), 1, ⟨by decide +kernel, by decide +kernel⟩, by decide +kernel⟩,
   ⟨8, false, 4095, 385, (wf 0 0 0), ⟨by decide +kernel, by decide +kernel⟩, by decide +kernel⟩,
   ⟨8, true, 4095, 0, (wf 0 0 0), ⟨by decide +kernel, by decide +kernel⟩, by decide +kernel⟩⟩
end FlowCommits

namespace FlowReceiveAndTransmit
def fx (f : RxFlow → RxFlow) : Machine.State := (List.range 6).foldl (fun s k => if k % 2 = 0 then setRx k 0 (f (rxFlow s k 0)) s else s) (svc 4 g0 [])
def wv : Machine.State := fx (fun v => { v with cur := some 100, cfg := 0xFFFFFFFF, frames := [{ ts := 100 }, { ts := 4000 }, { ts := 7 }], samples := [(3, [5, 6]), (99, [1, 1]), (200000, [1])], paths := { seen := [(1, 2, 3)], sum := 9000000, n := 2, live0 := true, live1 := true } })
/-- The hypotheses of `Obligations.FlowReceiveAndTransmit` are met together. -/
theorem witness_FlowReceiveAndTransmit :
    (∃ (i : Fin 1024) (ts : Word) (line : Nat) (s : Machine.State), flowExists s 0 i.val = true ∧ running s = true ∧
      srcFmt s.img (512 + i.val) ≠ 0 ∧ 1 ≤ line ∧ line ≤ rasterLines (rasterOf (srcFmt s.img (512 + i.val))) ∧ (line
      = 1 ∨ (rxFlow s 0 i.val).cur = some (BitVec.toNat ts)) ∧ line = rasterLines (rasterOf (srcFmt s.img (512 +
      i.val)))) ∧
    (∃ (audio : Bool) (f : Fin 4096) (s : Machine.State), flowExists s (if audio = true then 2 else 0) f.val = true ∧
      running s = true ∧ mergeOf (if audio = true then 2 else 0) (rxFlow s (if audio = true then 2 else 0) f.val).cfg
      = true ∧ (rxFlow s (if audio = true then 2 else 0) f.val).paths.n = 0) ∧
    (∃ (audio : Bool) (f : Fin 4096) (s : Machine.State), flowExists s (if audio = true then 2 else 0) f.val = true ∧
      running s = true ∧ mergeOf (if audio = true then 2 else 0) (rxFlow s (if audio = true then 2 else 0) f.val).cfg
      = true ∧ (rxFlow s (if audio = true then 2 else 0) f.val).paths.n ≠ 0) ∧
    (∃ (audio : Bool) (f : Fin 4096) (s : Machine.State) (r : Fin 2), flowExists s (if audio = true then 2 else 0)
      f.val = true ∧ running s = true ∧ mergeOf (if audio = true then 2 else 0) (rxFlow s (if audio = true then 2
      else 0) f.val).cfg = true ∧ r = 0) ∧
    (∃ (audio : Bool) (f : Fin 4096) (s : Machine.State) (r : Fin 2), flowExists s (if audio = true then 2 else 0)
      f.val = true ∧ running s = true ∧ mergeOf (if audio = true then 2 else 0) (rxFlow s (if audio = true then 2
      else 0) f.val).cfg = true ∧ (¬r = 0)) ∧
    (∃ (f : Fin 4096) (s : Machine.State), flowExists s 2 f.val = true ∧ running s = true) ∧
    (∃ (f : Fin 1024) (s : Machine.State), flowExists s 4 f.val = true ∧ running s = true) ∧
    (∃ (j : Fin 1024) (s : Machine.State), flowExists s 1 j.val = true ∧ destFmt s.img (512 + j.val) ≠ 0 ∧ inService
      s = true ∧ (have cfg := if (txFlow s 1 j.val).p = 0 then rgetN s (Reg.FLOW_VTX_CFG j.val) else (txFlow s 1
      j.val).cfg; hbrmt cfg = false ∨ hbrmtFmt (destFmt s.img (512 + j.val)) = true)) ∧
    (∃ (f : Fin 4096) (s : Machine.State), flowExists s 3 f.val = true ∧ inService s = true) ∧
    (∃ (f : Fin 1024) (s : Machine.State), flowExists s 5 f.val = true ∧ inService s = true) :=
  ⟨⟨0, 100, 1125, wv, by decide +kernel⟩,
   ⟨true, 0, (fx (fun v => { v with cfg := 0xFFFFFFFF })), by decide +kernel⟩,
   ⟨true, 0, wv, by decide +kernel⟩,
   ⟨true, 0, wv, 0, by decide +kernel⟩,
   ⟨true, 0, wv, 1, by decide +kernel⟩,
   ⟨1, wv, by decide +kernel⟩,
   ⟨1, wv, by decide +kernel⟩,
   ⟨0, wv, by decide +kernel⟩,
   ⟨1, wv, by decide +kernel⟩,
   ⟨1, wv, by decide +kernel⟩⟩
end FlowReceiveAndTransmit

namespace TakeRingAndSalvos
def ring (l : List Nat) (n : Nat) : Machine.State :=
  (l.zipIdx).foldl (fun s e => rset s (Reg.XP_TAKE_RING e.2) (w32 e.1)) (svc 4 g0 [(Reg.XP_TAKE_PI, BitVec.ofNat 32 n)])
def good : Machine.State := ring [0x00010000, 0, 0, 0, 0x00020001, 0x10042, 0, 0] 2
def at1 (v : Nat) : Machine.State := ring [0x00010000, 0x30042, v, 0] 1
def bad1 : Machine.State := ring [0x00010000, 0, 0, 0, 0xF0020001, 0x10042, 0, 0] 2
def open1 : Machine.State := ring [0x00010000, 0, 0, 0, 0x00020001, 0, 0, 0] 2
/-- The hypotheses of `Obligations.TakeRingAndSalvos` are met together. -/
theorem witness_TakeRingAndSalvos :
    (∃ (m : Fin 9) (w : Fin 16384) (s : Machine.State), Reaches s m.val (Reg.XP_TAKE_RING w.val) ∧ mayFeed s m.val =
      false) ∧
    (∃ (m : Fin 9) (w : Fin 16384) (s : Machine.State), Reaches s m.val (Reg.XP_TAKE_RING w.val) ∧ (¬mayFeed s m.val
      = false) ∧ (w.val / 4 + 4096 - takeCi s % 4096) % 4096 < takeOcc s) ∧
    (∃ (m : Fin 9) (w : Fin 16384) (s : Machine.State), Reaches s m.val (Reg.XP_TAKE_RING w.val) ∧ (¬mayFeed s m.val
      = false) ∧ (¬(w.val / 4 + 4096 - takeCi s % 4096) % 4096 < takeOcc s)) ∧
    (∃ (m : Fin 9) (s : Machine.State), Reaches s m.val Reg.XP_TAKE_PI ∧ mayFeed s m.val = false) ∧
    (∃ (m : Fin 9) (pi : BitVec 13) (s : Machine.State), Reaches s m.val Reg.XP_TAKE_PI ∧ (¬mayFeed s m.val = false)
      ∧ 4096 - takeOcc s < cntDist (takePi s) pi.toNat) ∧
    (∃ (m : Fin 9) (pi : BitVec 13) (s : Machine.State), Reaches s m.val Reg.XP_TAKE_PI ∧ (¬mayFeed s m.val = false)
      ∧ (¬4096 - takeOcc s < cntDist (takePi s) pi.toNat)) ∧
    (∃ (n : Nat) (s : Machine.State) (code : Nat) (i : Nat), inService s = true ∧ pairInUse s = false ∧
      s.xp.abandoned = [] ∧ takeRun s (cntDist s.xp.validated (takePi s)) s.xp.validated = some n ∧ checkRecs s
      s.xp.validated n n [] [] = Sum.inl (code, i) ∧ code < 256) ∧
    (∃ (n : Nat) (s : Machine.State) (t0 : List Take) (t1 : List Take), inService s = true ∧ pairInUse s = false ∧
      s.xp.abandoned = [] ∧ takeRun s (cntDist s.xp.validated (takePi s)) s.xp.validated = some n ∧ checkRecs s
      s.xp.validated n n [] [] = Sum.inr (t0, t1) ∧ (t0 ≠ [] ∨ t1 ≠ []) ∧ bitOf 17 (takeRec4 s (s.xp.validated + n -
      1)).2.1 = false) ∧
    (∃ (n : Nat) (s : Machine.State) (t0 : List Take), inService s = true ∧ pairInUse s = false ∧ s.xp.abandoned = []
      ∧ takeRun s (cntDist s.xp.validated (takePi s)) s.xp.validated = some n ∧ checkRecs s s.xp.validated n n [] []
      = Sum.inr (t0, []) ∧ t0 ≠ [] ∧ bitOf 17 (takeRec4 s (s.xp.validated + n - 1)).2.1 = true ∧ 1 ≤ ((takeRec4 s
      (s.xp.validated + n - 1)).2.2.1 + (takeRec4 s (s.xp.validated + n - 1)).2.2.2 % 65536 * 2 ^ 32 + 2 ^ 48 -
      planeFc s 0) % 2 ^ 48 ∧ ((takeRec4 s (s.xp.validated + n - 1)).2.2.1 + (takeRec4 s (s.xp.validated + n -
      1)).2.2.2 % 65536 * 2 ^ 32 + 2 ^ 48 - planeFc s 0) % 2 ^ 48 ≤ 256) ∧
    (∃ (n : Nat) (s : Machine.State) (t0 : List Take), inService s = true ∧ pairInUse s = false ∧ s.xp.abandoned = []
      ∧ takeRun s (cntDist s.xp.validated (takePi s)) s.xp.validated = some n ∧ checkRecs s s.xp.validated n n [] []
      = Sum.inr (t0, []) ∧ t0 ≠ [] ∧ bitOf 17 (takeRec4 s (s.xp.validated + n - 1)).2.1 = true ∧ 256 < ((takeRec4 s
      (s.xp.validated + n - 1)).2.2.1 + (takeRec4 s (s.xp.validated + n - 1)).2.2.2 % 65536 * 2 ^ 32 + 2 ^ 48 -
      planeFc s 0) % 2 ^ 48 ∧ ((takeRec4 s (s.xp.validated + n - 1)).2.2.1 + (takeRec4 s (s.xp.validated + n -
      1)).2.2.2 % 65536 * 2 ^ 32 + 2 ^ 48 - planeFc s 0) % 2 ^ 48 ≤ 2 ^ 47) ∧
    (∃ (s : Machine.State) (m : Fin 9), inService s = true ∧ pairInUse s = false ∧ s.xp.abandoned = [] ∧
      s.xp.validated < 8192 ∧ Reaches s m.val Reg.XP_TAKE_CTRL ∧ mayFeed s m.val = true ∧ cntDist s.xp.validated
      (takePi s) ≠ 0 ∧ takeRun s (cntDist s.xp.validated (takePi s)) s.xp.validated = none) :=
  ⟨⟨8, 16383, good, ⟨by decide +kernel, by decide +kernel⟩, by decide +kernel⟩,
   ⟨0, 4, good, ⟨by decide +kernel, by decide +kernel⟩, by decide +kernel⟩,
   ⟨0, 16383, good, ⟨by decide +kernel, by decide +kernel⟩, by decide +kernel⟩,
   ⟨8, good, ⟨by decide +kernel, by decide +kernel⟩, by decide +kernel⟩,
   ⟨0, 0, good, ⟨by decide +kernel, by decide +kernel⟩, by decide +kernel⟩,
   ⟨0, 2, good, ⟨by decide +kernel, by decide +kernel⟩, by decide +kernel⟩,
   ⟨_, bad1, _, _, by decide +kernel, by decide +kernel, by decide +kernel, rfl, rfl, by decide +kernel⟩,
   ⟨_, good, _, _, by decide +kernel, by decide +kernel, by decide +kernel, rfl, rfl, by decide +kernel⟩,
   ⟨_, (at1 5), _, by decide +kernel, by decide +kernel, by decide +kernel, rfl, rfl, by decide +kernel⟩,
   ⟨_, (at1 257), _, by decide +kernel, by decide +kernel, by decide +kernel, rfl, rfl, by decide +kernel⟩,
   ⟨open1, 0, by decide +kernel, by decide +kernel, by decide +kernel, by decide +kernel, ⟨by decide +kernel,
     by decide +kernel⟩, by decide +kernel⟩⟩
end TakeRingAndSalvos

namespace BatchOfPlane
def tk : Take := { dest := 0, src := some 2 }
def sal (p : Nat) (due : Option Nat) : Salvo := { first := 0, n := 1, tag := 7, parts := [{ plane := p, takes := [tk, { dest := 1, src := none }], due := due }] }
def wb : Machine.State := let s := svc 4 g0 [(Reg.XP_TAKE_PI, 3)]; { s with xp := { salvos := [sal 0 none, { sal 0 (some 1) with first := 1 }, { sal 1 none with first := 2 }], validated := 3 } }
def wb2 : Machine.State := match exec (.planeCutoff 0) wb with | .next t => t | _ => wb
/-- The hypotheses of `Obligations.BatchOfPlane` are met together. -/
theorem witness_BatchOfPlane :
    (∃ (p : Fin 2) (s : Machine.State) (d : Nat), planeUsed s.img p.val = true ∧ running s = true ∧ (∀ (v : Salvo), v
      ∈ s.xp.salvos → ∀ (u : Machine.Part), u ∈ v.parts → ∀ (k : Take), k ∈ u.takes → k.dest < 4096) ∧ d < 4096) ∧
    (∃ (p : Fin 2) (s : Machine.State), planeUsed s.img p.val = true ∧ running s = true ∧ (∀ (v : Salvo), v ∈
      s.xp.salvos → ∀ (u : Machine.Part), u ∈ v.parts → ∀ (k : Take), k ∈ u.takes → k.dest < 4096) ∧ batchOf s p.val
      ≠ []) ∧
    (∃ (p : Fin 2) (s : Machine.State), planeUsed s.img p.val = true ∧ running s = true ∧ (∀ (v : Salvo), v ∈
      s.xp.salvos → ∀ (u : Machine.Part), u ∈ v.parts → ∀ (k : Take), k ∈ u.takes → k.dest < 4096) ∧ batchOf s p.val
      = []) ∧
    (∃ (p : Fin 2) (s : Machine.State) (x : Salvo × Machine.Part), planeUsed s.img p.val = true ∧ running s = true ∧
      (∀ (v : Salvo), v ∈ s.xp.salvos → ∀ (u : Machine.Part), u ∈ v.parts → ∀ (k : Take), k ∈ u.takes → k.dest <
      4096) ∧ (batchOf s p.val).getLast? = some x) :=
  ⟨⟨1, wb, 0, by decide +kernel⟩,
   ⟨0, wb2, by decide +kernel⟩,
   ⟨1, wb, by decide +kernel⟩,
   ⟨0, wb2, _, by decide +kernel, by decide +kernel, by decide +kernel, rfl⟩⟩
end BatchOfPlane

namespace SwitchPoint
def tk : Take := { dest := 0, src := some 2 }
def sal (p : Nat) (due : Option Nat) : Salvo := { first := 0, n := 1, tag := 7, parts := [{ plane := p, takes := [tk, { dest := 1, src := none }], due := due }] }
def wb : Machine.State := let s := svc 4 g0 [(Reg.XP_TAKE_PI, 3)]; { s with xp := { salvos := [sal 0 none, { sal 0 (some 1) with first := 1 }, { sal 1 none with first := 2 }], validated := 3 } }
def wb2 : Machine.State := match exec (.planeCutoff 0) wb with | .next t => t | _ => wb
/-- The hypotheses of `Obligations.SwitchPoint` are met together. -/
theorem witness_SwitchPoint :
    (∃ (p : Fin 2) (s : Machine.State), planeUsed s.img p.val = true ∧ running s = true ∧ s.pair.copyIn = none) ∧
    (∃ (p : Fin 2) (s : Machine.State) (d : Nat), planeUsed s.img p.val = true ∧ running s = true ∧ inCast s = false
      ∧ d < 2816 ∧ destNames s.img d = true ∧ destPlane s.img d = p.val ∧ fbit s (Reg.XP_DEST_SRC d)
      Fld.XP_DEST_SRC_PEND_VALID = true) ∧
    (∃ (p : Fin 2) (s : Machine.State) (d : Nat), planeUsed s.img p.val = true ∧ running s = true ∧ inCast s = false
      ∧ d < 2816 ∧ destNames s.img d = true ∧ destPlane s.img d = p.val ∧ fbit s (Reg.XP_DEST_SRC d)
      Fld.XP_DEST_SRC_PEND_VALID = false) :=
  ⟨⟨1, wb, by decide +kernel⟩,
   ⟨0, wb2, 0, by decide +kernel⟩,
   ⟨0, wb, 0, by decide +kernel⟩⟩
end SwitchPoint

namespace DestinationsAndSourceTiming
/-- An image without queues, whose frame stores no hot slot names. -/
def gd : Img := { g0 with sections := g0.sections.filter (·.type != Sec.queue) }
def fs (f : Fsync) : Machine.State := setDest 1536 { fs := f } (setDest 0 { fs := f } (svc 4 gd []))
/-- Lane 1 receives in LOCKED, lane 0 transmits. -/
def lit : Machine.State := fset (fset (svc 4 g0 []) (Reg.VLANE_RX_STAT 1) Fld.VLANE_RX_STAT_STATE 3) (Reg.VLANE_TX_STAT 0) Fld.VLANE_TX_STAT_IDLE 0
/-- The hypotheses of `Obligations.DestinationsAndSourceTiming` are met together. -/
theorem witness_DestinationsAndSourceTiming :
    (∃ (d : Fin 4096) (s : Machine.State), destNames s.img d.val = true ∧ running s = true ∧ 512 ≤ d.val) ∧
    (∃ (d : Fin 4096) (s : Machine.State), destNames s.img d.val = true ∧ running s = true ∧ d.val < 512 ∧ sdiIdle s
      d.val = false ∧ s.test.jtagPins = false) ∧
    (∃ (d : Fin 4096) (s : Machine.State) (x : Nat), (destOf s d.val).fs.en = true ∧ (destOf s d.val).fs.wsrc = some
      x ∧ ((destOf s d.val).fs.spoiled || !(storeOp ((destSync s.img d.val).getD 0) s).1) = true) ∧
    (∃ (d : Fin 4096) (s : Machine.State) (x : Nat), (destOf s d.val).fs.en = true ∧ (destOf s d.val).fs.wsrc = some
      x ∧ (¬((destOf s d.val).fs.spoiled || !(storeOp ((destSync s.img d.val).getD 0) s).1) = true)) ∧
    (∃ (d : Fin 4096) (s : Machine.State), (destOf s d.val).fs.en = true ∧ (destOf s d.val).fs.timer = true ∧ (destOf
      s d.val).fs.held = true ∧ (destOf s d.val).fs.fresh = 0) ∧
    (∃ (x : Fin 2048), 512 ≤ x.val ∧ x.val < 1536) ∧
    (∃ (x : Fin 2048) (p : Fin 2) (s : Machine.State), running s = true ∧ srcNames s.img x.val = true ∧ planeUsed
      s.img p.val = true ∧ (x.val < 512 ∨ 1536 ≤ x.val) ∧ (x.val < 512 → laneRxq s.img x.val = false ∧ isQuad s.img
      (4 * (x.val / 4)) = false)) ∧
    (∃ (x : Fin 2048) (s : Machine.State) (y : Nat), running s = true ∧ srcNames s.img x.val = true ∧ (x.val < 512 ∨
      1536 ≤ x.val) ∧ rateMeasured s x.val = true ∧ y ≠ x.val) :=
  ⟨⟨1536, lit, by decide +kernel⟩,
   ⟨0, lit, by decide +kernel⟩,
   ⟨1536, (fs { en := true, wsrc := some 1, spoiled := true, shown := some {} }), _, by decide +kernel, rfl,
     by decide +kernel⟩,
   ⟨1536, (fs { en := true, wsrc := some 1, fresh := 3 }), _, by decide +kernel, rfl, by decide +kernel⟩,
   ⟨1536, (fs { en := true, timer := true, held := true }), by decide +kernel⟩,
   ⟨1125, by decide +kernel⟩,
   ⟨2, 1, lit, by decide +kernel⟩,
   ⟨1, lit, 0, by decide +kernel⟩⟩
end DestinationsAndSourceTiming

namespace ReceiverLockAndStream
/-- Lane 0's receiver in a state of Table 5.4, at a detected rate. -/
def rx (st rate : Nat) : Machine.State := fset (fset (setLane 0 { rate := 3, marks := [5], ins := [(1, {})] } (svc 4 g0 [])) (Reg.VLANE_RX_STAT 0) Fld.VLANE_RX_STAT_STATE st)
  (Reg.VLANE_RX_STAT 0) Fld.VLANE_RX_STAT_RATE_DET rate
/-- The hypotheses of `Obligations.ReceiverLockAndStream` are met together. -/
theorem witness_ReceiverLockAndStream :
    (∃ (v : Fin 512) (s : Machine.State), rxRuns s.img v.val = true ∧ rxState s v.val = 1) ∧
    (∃ (v : Fin 512) (s : Machine.State), rxRuns s.img v.val = true ∧ rxState s v.val = 2) ∧
    (∃ (v : Fin 512) (s : Machine.State), rxRuns s.img v.val = true ∧ rxState s v.val = 3 ∧ s.test.inj = none) :=
  ⟨⟨0, (rx 1 0), by decide +kernel⟩,
   ⟨0, (rx 2 3), by decide +kernel⟩,
   ⟨0, (rx 3 4), by decide +kernel⟩⟩
end ReceiverLockAndStream

namespace AncCapture
/-- An image with plane 0, one SDI source and queue groups alone. -/
def ga : Img := imgOf
  [(2, at_ 0 [0x68] ++ at_ 0x210 [0x68] ++ at_ 0x1210 [0x68]), (8, at_ 0 [0, 0, 0, 3, 8, 0, 0, 0, 100, 0, 0, 0, 10] ++ at_ 16 [8, 0, 0, 2, 8, 0, 0, 1, 100, 0, 0, 0, 10])] []
def rx (filt : List (Nat × Nat)) (room : Nat) : Machine.State :=
  let s := fset (setLane 0 { filt := filt } (svc 4 ga [])) (Reg.VLANE_RX_STAT 0) Fld.VLANE_RX_STAT_STATE 3
  { s with q := { queues := [(0, { cap := some room }), (9, { cap := some room })] } }
/-- The hypotheses of `Obligations.AncCapture` are met together. -/
theorem witness_AncCapture :
    (∃ (v : Fin 512) (line : Nat) (did : BitVec 8) (sdid : BitVec 8) (s : Machine.State), rxRuns s.img v.val = true ∧
      rxState s v.val = 3 ∧ s.test.inj = none ∧ ancMatch (laneSt (fcStep v.val line s) v.val) did.toNat sdid.toNat =
      none) ∧
    (∃ (v : Fin 512) (line : Nat) (hanc : Bool) (stream : Bool) (ok : Bool) (did : BitVec 8) (sdid : BitVec 8) (udw :
      List (BitVec 10)) (s : Machine.State) (n : Nat) (f : Nat) (q : Nat) (p : Nat), rxRuns s.img v.val = true ∧
      rxState s v.val = 3 ∧ s.test.inj = none ∧ ancMatch (laneSt (fcStep v.val line s) v.val) did.toNat sdid.toNat =
      some (n, f, q) ∧ (roomFor 3 (q % 2 ^ 20) (ancRecord line hanc stream (if laneRxq s.img v.val = true then v.val
      % 4 else 0) ok did.toNat sdid.toNat (laneSt (fcStep v.val line s) v.val).fc (List.map (fun (x : BitVec 10) ↦
      x.toNat) (List.take 255 udw))).length (fcStep v.val line s)).1 = true ∧ p ≠ q % 2 ^ 20) ∧
    (∃ (v : Fin 512) (line : Nat) (hanc : Bool) (stream : Bool) (ok : Bool) (did : BitVec 8) (sdid : BitVec 8) (udw :
      List (BitVec 10)) (s : Machine.State) (n : Nat) (f : Nat) (q : Nat), rxRuns s.img v.val = true ∧ rxState s
      v.val = 3 ∧ s.test.inj = none ∧ ancMatch (laneSt (fcStep v.val line s) v.val) did.toNat sdid.toNat = some (n,
      f, q) ∧ (¬(roomFor 3 (q % 2 ^ 20) (ancRecord line hanc stream (if laneRxq s.img v.val = true then v.val % 4
      else 0) ok did.toNat sdid.toNat (laneSt (fcStep v.val line s) v.val).fc (List.map (fun (x : BitVec 10) ↦
      x.toNat) (List.take 255 udw))).length (fcStep v.val line s)).1 = true)) :=
  ⟨⟨0, 1, 1, 1, (rx [] 10), by decide +kernel⟩,
   ⟨0, 1, true, true, true, 65, 97, [512, 353, 5, 7], (rx [(0, 0x80FF6141), (1, 0)] 90), _, _, _, 1,
     by decide +kernel, by decide +kernel, by decide +kernel, rfl, by decide +kernel⟩,
   ⟨0, 1, true, true, true, 65, 97, [512, 353, 5, 7], (rx [(6, 0xC0FF6141), (7, 9)] 10), _, _, _, by decide +kernel,
     by decide +kernel, by decide +kernel, rfl, by decide +kernel⟩⟩
end AncCapture

namespace DisplayPortLinks
def dp (st : Nat) (l : DpLink) : Machine.State :=
  fset (fset (setDp 0 l (svc 4 g0 [])) (Reg.VLANE_DP_STAT 0) Fld.VLANE_DP_STAT_STATE st) (Reg.VLANE_DP_CTRL 0) Fld.VLANE_DP_CTRL_EN 1
def busy (op r : Nat) : Machine.State := dp 3 { host := some (op, 0x100, 16, [1, 2]), sent := true, retries := r }
/-- The hypotheses of `Obligations.DisplayPortLinks` are met together. -/
theorem witness_DisplayPortLinks :
    (∃ (k : Fin 4) (s : Machine.State), dpPers s.img = true ∧ (dpSt s k.val).low = true ∧ dpState s k.val ≠ 0) ∧
    (∃ (k : Fin 4) (s : Machine.State) (lanes : Nat), dpPers s.img = true ∧ dpState s k.val = 2 ∧ lanes < 4) ∧
    (∃ (k : Fin 4) (s : Machine.State) (sinkRate : Nat) (lanes : Nat), dpPers s.img = true ∧ dpState s k.val = 2 ∧ 4
      ≤ lanes ∧ 30 ≤ dpMaxRate s.img k.val ∧ 30 ≤ sinkRate ∧ dpDepth s.img k.val 30 ≠ 0) ∧
    (∃ (k : Fin 4) (s : Machine.State) (m : Fin 9), dpPers s.img = true ∧ Reaches s m.val (Reg.VLANE_DP_CTRL k.val) ∧
      dpEn s k.val = true ∧ (dpState s k.val = 3 ∨ dpState s k.val = 4)) ∧
    (∃ (k : Fin 4) (s : Machine.State) (m : Fin 9), dpPers s.img = true ∧ Reaches s m.val (Reg.VLANE_DP_CTRL k.val) ∧
      dpState s k.val = 0 ∧ inService s = true) ∧
    (∃ (m : Fin 9) (k : Fin 4) (addr : BitVec 20) (len1 : Fin 16) (s : Machine.State), dpPers s.img = true ∧ Reaches
      s m.val (Reg.VLANE_DP_AUX_CMD k.val) ∧ (dpSt s k.val).host = none ∧ dpState s k.val ≠ 0 ∧ (511 < addr.toNat ∨
      addr.toNat + len1.val + 1 ≤ 256) ∧ (dpSt s k.val).reading = false ∧ dpState s k.val ≠ 2) ∧
    (∃ (k : Fin 4) (s : Machine.State) (op : Nat) (a : Nat) (n : Nat) (d : List Nat) (i : Nat), dpPers s.img = true ∧
      (dpSt s k.val).host = some (op, a, n, d) ∧ (dpSt s k.val).sent = true ∧ (dpSt s k.val).reading = false ∧ (dpSt
      s k.val).capRead = false ∧ i < 4 ∧ 4 * i < n ∧ op % 2 = 0) ∧
    (∃ (k : Fin 4) (s : Machine.State) (op : Nat) (a : Nat) (n : Nat) (d : List Nat), dpPers s.img = true ∧ (dpSt s
      k.val).host = some (op, a, n, d) ∧ (dpSt s k.val).sent = true ∧ (dpSt s k.val).reading = false ∧ (dpSt s
      k.val).capRead = false ∧ 7 ≤ (dpSt s k.val).retries) ∧
    (∃ (k : Fin 4) (s : Machine.State) (op : Nat) (a : Nat) (n : Nat) (d : List Nat), dpPers s.img = true ∧ (dpSt s
      k.val).host = some (op, a, n, d) ∧ (dpSt s k.val).sent = true ∧ (dpSt s k.val).reading = false ∧ (dpSt s
      k.val).capRead = false ∧ (dpSt s k.val).retries < 7) ∧
    (∃ (k : Fin 4) (s : Machine.State), dpPers s.img = true ∧ (dpSt s k.val).capRead = true ∧ (dpSt s
      k.val).readRetries < 7) ∧
    (∃ (k : Fin 4) (s : Machine.State), dpPers s.img = true ∧ (dpSt s k.val).capRead = true ∧ 7 ≤ (dpSt s
      k.val).readRetries) :=
  ⟨⟨0, (dp 1 { low := true }), by decide +kernel⟩,
   ⟨0, (dp 2 {}), 0, by decide +kernel⟩,
   ⟨0, (dp 2 {}), 30, 4, by decide +kernel⟩,
   ⟨0, (dp 3 {}), 8, by decide +kernel, ⟨by decide +kernel, by decide +kernel⟩, by decide +kernel⟩,
   ⟨3, (dp 1 { low := true }), 8, by decide +kernel, ⟨by decide +kernel, by decide +kernel⟩, by decide +kernel⟩,
   ⟨8, 0, 0, 15, (dp 1 { low := true }), by decide +kernel, ⟨by decide +kernel, by decide +kernel⟩,
     by decide +kernel⟩,
   ⟨0, (busy 0 0), _, _, _, _, 0, by decide +kernel, rfl, by decide +kernel⟩,
   ⟨0, (busy 1 7), _, _, _, _, by decide +kernel, rfl, by decide +kernel⟩,
   ⟨0, (busy 0 0), _, _, _, _, by decide +kernel, rfl, by decide +kernel⟩,
   ⟨0, (dp 2 { capWant := true, capRead := true }), by decide +kernel⟩,
   ⟨0, (dp 2 { capWant := true, capRead := true, readRetries := 7 }), by decide +kernel⟩⟩
end DisplayPortLinks

namespace AudioPorts
def ap (st : Nat) (v : SapPort) : Machine.State :=
  fset (fset (setSap 0 v (svc 4 g0 [])) (Reg.SAP_STAT 0) Fld.SAP_STAT_STATE st) (Reg.SAP_CTRL 0) Fld.SAP_CTRL_EN 1
/-- The hypotheses of `Obligations.AudioPorts` are met together. -/
theorem witness_AudioPorts :
    (∃ (m : Fin 9) (p : Fin 32) (s : Machine.State) (q : Nat), Reaches s m.val (Reg.SAP_MASK_COMMIT p.val) ∧ sapUsed
      s.img p.val = true ∧ q ≠ p.val) ∧
    (∃ (c : Fin 32) (s : Machine.State) (p : Nat), inService s = true ∧ p < 32 ∧ (sapUsed s.img p = true ∧ sapClkSrc
      s.img p = c.val) ∧ (sapPort s p).seen = true) ∧
    (∃ (c : Fin 32) (s : Machine.State) (p : Nat), inService s = true ∧ p < 32 ∧ (¬(sapUsed s.img p = true ∧
      sapClkSrc s.img p = c.val))) ∧
    (∃ (c : Fin 32) (s : Machine.State) (p : Nat), inService s = true ∧ p < 32 ∧ (sapUsed s.img p = true ∧ sapClkSrc
      s.img p = c.val ∧ sapState s p = 2)) ∧
    (∃ (c : Fin 32) (s : Machine.State) (p : Nat), inService s = true ∧ p < 32 ∧ (¬(sapUsed s.img p = true ∧
      sapClkSrc s.img p = c.val ∧ sapState s p = 2))) :=
  ⟨⟨8, 1, (ap 2 { seen := true, good := 1, rxPend := some 5 }), 0, ⟨by decide +kernel, by decide +kernel⟩,
     by decide +kernel⟩,
   ⟨0, (ap 2 { seen := true, good := 1, rxPend := some 5 }), 0, by decide +kernel⟩,
   ⟨31, (ap 2 { seen := true, good := 1, rxPend := some 5 }), 0, by decide +kernel⟩,
   ⟨0, (ap 2 { seen := true, good := 1, rxPend := some 5 }), 0, by decide +kernel⟩,
   ⟨31, (ap 2 { seen := true, good := 1, rxPend := some 5 }), 0, by decide +kernel⟩⟩
end AudioPorts

namespace StartGroups
def gr (ctrl st at_ : Nat) : Machine.State :=
  let s := fset (svc 4 g0 [(Reg.SAP_GRP_CTRL 0, BitVec.ofNat 32 ctrl), (Reg.SAP_GRP_AT_LO 0, BitVec.ofNat 32 at_)]) (Reg.SAP_GRP_STAT 0) Fld.SAP_GRP_STAT_STATE st
  { s with time := { tkA := 100 * 2 ^ 32, tkB := 7 } }
def atEn : Machine.State := fset (gr 1 1 200) (Reg.SAP_GRP_CTRL 0) Fld.SAP_GRP_CTRL_AT_EN 1
/-- The hypotheses of `Obligations.StartGroups` are met together. -/
theorem witness_StartGroups :
    (∃ (m : Fin 9) (k : Fin 16) (s : Machine.State), Reaches s m.val (Reg.SAP_GRP_CTRL k.val) ∧ grpUsed s.img k.val =
      true ∧ bitOf 2 (rgetN s (Reg.SAP_GRP_CTRL k.val)) = false) ∧
    (∃ (m : Fin 9) (k : Fin 16) (s : Machine.State) (j : Nat), Reaches s m.val (Reg.SAP_GRP_CTRL k.val) ∧ grpUsed
      s.img k.val = true ∧ j < 16 ∧ j ≠ k.val) ∧
    (∃ (m : Fin 9) (k : Fin 16) (s : Machine.State) (p : Nat), Reaches s m.val (Reg.SAP_GRP_CTRL k.val) ∧ grpUsed
      s.img k.val = true ∧ p ∈ grpMembers s.img k.val) ∧
    (∃ (m : Fin 9) (k : Fin 16) (s : Machine.State) (p : Nat), Reaches s m.val (Reg.SAP_GRP_CTRL k.val) ∧ grpUsed
      s.img k.val = true ∧ p ∉ grpMembers s.img k.val) ∧
    (∃ (m : Fin 9) (k : Fin 16) (s : Machine.State) (tk : Fin 4), Reaches s m.val (Reg.SAP_GRP_CTRL k.val) ∧ grpUsed
      s.img k.val = true ∧ bitOf 0 (rgetN s (Reg.SAP_GRP_CTRL k.val)) = true ∧ grpState s k.val = 1 ∧ (grpAt s k.val
      * 2 ^ 32 < if tk.val = 0 ∨ tk.val = 3 then otRaw s else tkRaw s (tk.val - 1))) ∧
    (∃ (m : Fin 9) (k : Fin 16) (s : Machine.State) (tk : Fin 4), Reaches s m.val (Reg.SAP_GRP_CTRL k.val) ∧ grpUsed
      s.img k.val = true ∧ bitOf 0 (rgetN s (Reg.SAP_GRP_CTRL k.val)) = true ∧ grpState s k.val = 1 ∧ (¬grpAt s k.val
      * 2 ^ 32 < if tk.val = 0 ∨ tk.val = 3 then otRaw s else tkRaw s (tk.val - 1))) ∧
    (∃ (s : Machine.State) (k : Nat), inService s = true ∧ k < 16 ∧ (grpUsed s.img k = true ∧ grpPinEn s.img k = true
      ∧ grpState s k = 1)) ∧
    (∃ (s : Machine.State) (k : Nat), inService s = true ∧ k < 16 ∧ (¬(grpUsed s.img k = true ∧ grpPinEn s.img k =
      true ∧ grpState s k = 1))) ∧
    (∃ (k : Fin 16) (s : Machine.State), inService s = true ∧ grpUsed s.img k.val = true ∧ grpState s k.val = 1 ∧
      fbit s (Reg.SAP_GRP_CTRL k.val) Fld.SAP_GRP_CTRL_AT_EN = true) :=
  ⟨⟨8, 0, (gr 1 1 100), ⟨by decide +kernel, by decide +kernel⟩, by decide +kernel⟩,
   ⟨8, 0, (gr 1 1 100), 1, ⟨by decide +kernel, by decide +kernel⟩, by decide +kernel⟩,
   ⟨8, 0, (gr 1 1 100), 0, ⟨by decide +kernel, by decide +kernel⟩, by decide +kernel⟩,
   ⟨8, 0, (gr 1 1 100), 1, ⟨by decide +kernel, by decide +kernel⟩, by decide +kernel⟩,
   ⟨8, 0, (gr 1 1 99), 3, ⟨by decide +kernel, by decide +kernel⟩, by decide +kernel⟩,
   ⟨8, 0, (gr 1 1 100), 3, ⟨by decide +kernel, by decide +kernel⟩, by decide +kernel⟩,
   ⟨(gr 1 1 100), 0, by decide +kernel⟩,
   ⟨(gr 1 1 100), 1, by decide +kernel⟩,
   ⟨0, atEn, by decide +kernel⟩⟩
end StartGroups

namespace AsrcAndNonAudio
def ab (st : Nat) (v : AsrcBlk) : Machine.State := fset (setAsrc 0 v (svc 4 g0 [])) (Reg.ASRC_STAT 0) Fld.ASRC_STAT_STATE st
def det (v0 v1 : NaDet) : Machine.State := setNa 1 v1 (setNa 0 v0 (svc 4 g0 [(Reg.SAP_NA_CH 0, 0)]))
def oneCh : Machine.State := det { line := [(0xA54E1F00, false, false), (0x96F87200, false, false)], block := some true } {}
def pairCh : Machine.State := det { line := [(0x96F87200, false, false)] } { line := [(0xA54E1F00, false, false)], block := some false, zeros := 9 }
def old (n : Nat) : Machine.State := fset (det { age := n } {}) (Reg.SAP_NA_CH 0) Fld.SAP_NA_CH_PRE_NA 1
/-- The hypotheses of `Obligations.AsrcAndNonAudio` are met together. -/
theorem witness_AsrcAndNonAudio :
    (∃ (b : Fin 256) (s : Machine.State) (c : Nat), inService s = true ∧ asrcState s b.val ≠ 0 ∧ c < 256 ∧ c ≠ b.val) ∧
    (∃ (b : Fin 256) (s : Machine.State), inService s = true ∧ 2 ≤ asrcState s b.val) ∧
    (∃ (b : Fin 256) (s : Machine.State), inService s = true ∧ asrcState s b.val = 2 ∧ (asrcBlk s b.val).steady =
      true) ∧
    (∃ (a : Fin 25600) (s : Machine.State) (bit1 : Bool), (naDet s a.val).block = some bit1) ∧
    (∃ (a : Fin 25600) (s : Machine.State) (c : Nat), naAlign (naSample s (a.val / 2 * 2) 0) (naSample s (a.val / 2 *
      2 + 1) 0) ≠ 0 ∧ (c = a.val / 2 * 2 ∨ c = a.val / 2 * 2 + 1)) ∧
    (∃ (a : Fin 25600) (s : Machine.State), (¬naAlign (naSample s (a.val / 2 * 2) 0) (naSample s (a.val / 2 * 2 + 1)
      0) ≠ 0) ∧ naAlign (naSample s a.val 1) (naSample s a.val 0) ≠ 0) ∧
    (∃ (a : Fin 25600) (s : Machine.State), (¬naAlign (naSample s (a.val / 2 * 2) 0) (naSample s (a.val / 2 * 2 + 1)
      0) ≠ 0) ∧ (¬naAlign (naSample s a.val 1) (naSample s a.val 0) ≠ 0)) ∧
    (∃ (a : Fin 25600) (s : Machine.State), (fbit s (Reg.SAP_NA_CH a.val) Fld.SAP_NA_CH_PRE_NA = true ∧ 8192 ≤ (naDet
      s a.val).age)) ∧
    (∃ (a : Fin 25600) (s : Machine.State), (¬(fbit s (Reg.SAP_NA_CH a.val) Fld.SAP_NA_CH_PRE_NA = true ∧ 8192 ≤
      (naDet s a.val).age))) :=
  ⟨⟨0, (ab 1 {}), 1, by decide +kernel⟩,
   ⟨0, (ab 2 { steady := true }), by decide +kernel⟩,
   ⟨0, (ab 2 { steady := true }), by decide +kernel⟩,
   ⟨0, oneCh, _, rfl⟩,
   ⟨1, pairCh, 0, by decide +kernel⟩,
   ⟨0, oneCh, by decide +kernel⟩,
   ⟨25599, (ab 1 {}), by decide +kernel⟩,
   ⟨0, (old 8192), by decide +kernel⟩,
   ⟨25599, (ab 1 {}), by decide +kernel⟩⟩
end AsrcAndNonAudio

namespace SdiAudio
def rx : Machine.State :=
  let s := fset (svc 4 g0 []) (Reg.VLANE_RX_STAT 0) Fld.VLANE_RX_STAT_STATE 3
  setDeemb 0 { groups := [0, 2], last := [(0, [1, 2, 3, 4])] } s
/-- The hypotheses of `Obligations.SdiAudio` are met together. -/
theorem witness_SdiAudio :
    (∃ (v : Fin 512) (g : Fin 8) (second : Bool) (s : Machine.State), rxRuns s.img v.val = true ∧ rxState s v.val = 3
      ∧ inService s = true ∧ deembs s v.val g.val second = false) ∧
    (∃ (v : Fin 512) (g : Fin 8) (second : Bool) (smp : List Nat) (s : Machine.State), rxRuns s.img v.val = true ∧
      rxState s v.val = 3 ∧ inService s = true ∧ deembs s v.val g.val second = true ∧ smp.length = 4) :=
  ⟨⟨0, 7, true, rx, by decide +kernel⟩,
   ⟨0, 3, true, [1, 2, 3, 4], rx, by decide +kernel⟩⟩
end SdiAudio

namespace AudioTakeRing
def ring (l : List Nat) (n : Nat) : Machine.State :=
  (l.zipIdx).foldl (fun s e => rset s (Reg.AUD_TAKE_RING e.2) (w32 e.1)) (svc 4 g0 [(Reg.AUD_TAKE_PI, BitVec.ofNat 32 n)])
def good : Machine.State := ring [0x00010000, 0, 0, 0, 0x00020001, 0x00420100, 0, 0] 2
def at1 (v : Nat) : Machine.State := ring [0x00010000, 0x00420300, v, 0] 1
def bad1 : Machine.State := ring [0x00010000, 0, 0, 0, 0x00020001, 0x00420103, 0, 0] 2
def open1 : Machine.State := ring [0x00010000, 0, 0, 0, 0x00020001, 0, 0, 0] 2
/-- The hypotheses of `Obligations.AudioTakeRing` are met together. -/
theorem witness_AudioTakeRing :
    (∃ (m : Fin 9) (w : Fin 8192) (s : Machine.State), Reaches s m.val (Reg.AUD_TAKE_RING w.val) ∧ mayFeed s m.val =
      false) ∧
    (∃ (m : Fin 9) (w : Fin 8192) (s : Machine.State), Reaches s m.val (Reg.AUD_TAKE_RING w.val) ∧ (¬mayFeed s m.val
      = false) ∧ (w.val / 4 + 2048 - audCi s % 2048) % 2048 < audOcc s) ∧
    (∃ (m : Fin 9) (w : Fin 8192) (s : Machine.State), Reaches s m.val (Reg.AUD_TAKE_RING w.val) ∧ (¬mayFeed s m.val
      = false) ∧ (¬(w.val / 4 + 2048 - audCi s % 2048) % 2048 < audOcc s)) ∧
    (∃ (m : Fin 9) (s : Machine.State), Reaches s m.val Reg.AUD_TAKE_PI ∧ mayFeed s m.val = false) ∧
    (∃ (m : Fin 9) (pi : BitVec 12) (s : Machine.State), Reaches s m.val Reg.AUD_TAKE_PI ∧ (¬mayFeed s m.val = false)
      ∧ 2048 - audOcc s < audDist (audPi s) pi.toNat) ∧
    (∃ (m : Fin 9) (pi : BitVec 12) (s : Machine.State), Reaches s m.val Reg.AUD_TAKE_PI ∧ (¬mayFeed s m.val = false)
      ∧ (¬2048 - audOcc s < audDist (audPi s) pi.toNat)) ∧
    (∃ (s : Machine.State) (n : Nat) (code : Nat) (i : Nat), inService s = true ∧ pairInUse s = false ∧
      s.aud.abandoned = [] ∧ audRun s (audDist s.aud.validated (audPi s)) s.aud.validated = some n ∧ audCheck s
      s.aud.validated n n [] = Sum.inl (code, i) ∧ code < 256) ∧
    (∃ (s : Machine.State) (n : Nat) (takes : List Take), inService s = true ∧ pairInUse s = false ∧ s.aud.abandoned
      = [] ∧ audRun s (audDist s.aud.validated (audPi s)) s.aud.validated = some n ∧ audCheck s s.aud.validated n n
      [] = Sum.inr takes ∧ takes ≠ [] ∧ bitOf 9 (audRec s (s.aud.validated + n - 1)).2.1 = false) ∧
    (∃ (s : Machine.State) (n : Nat) (takes : List Take), inService s = true ∧ pairInUse s = false ∧ s.aud.abandoned
      = [] ∧ audRun s (audDist s.aud.validated (audPi s)) s.aud.validated = some n ∧ audCheck s s.aud.validated n n
      [] = Sum.inr takes ∧ takes ≠ [] ∧ bitOf 9 (audRec s (s.aud.validated + n - 1)).2.1 = true ∧ (2 ^ 24 < scDist
      ((audRec s (s.aud.validated + n - 1)).2.2.1 + (audRec s (s.aud.validated + n - 1)).2.2.2 % 65536 * 2 ^ 32)
      (audSc s) ∧ scDist ((audRec s (s.aud.validated + n - 1)).2.2.1 + (audRec s (s.aud.validated + n - 1)).2.2.2 %
      65536 * 2 ^ 32) (audSc s) ≤ 2 ^ 47 ∧ bitsOf 1 0 (audRec s (s.aud.validated + n - 1)).2.1 ≠ 2)) ∧
    (∃ (s : Machine.State) (n : Nat) (takes : List Take), inService s = true ∧ pairInUse s = false ∧ s.aud.abandoned
      = [] ∧ audRun s (audDist s.aud.validated (audPi s)) s.aud.validated = some n ∧ audCheck s s.aud.validated n n
      [] = Sum.inr takes ∧ takes ≠ [] ∧ bitOf 9 (audRec s (s.aud.validated + n - 1)).2.1 = true ∧ (scDist ((audRec s
      (s.aud.validated + n - 1)).2.2.1 + (audRec s (s.aud.validated + n - 1)).2.2.2 % 65536 * 2 ^ 32) (audSc s) ≤ 2 ^
      24 ∨ 2 ^ 47 < scDist ((audRec s (s.aud.validated + n - 1)).2.2.1 + (audRec s (s.aud.validated + n - 1)).2.2.2 %
      65536 * 2 ^ 32) (audSc s) ∨ bitsOf 1 0 (audRec s (s.aud.validated + n - 1)).2.1 = 2)) ∧
    (∃ (m : Fin 9) (s : Machine.State), Reaches s m.val Reg.AUD_TAKE_CTRL ∧ mayFeed s m.val = true ∧ s.aud.abandoned
      = [] ∧ s.aud.validated < 4096 ∧ audDist s.aud.validated (audPi s) ≠ 0 ∧ audRun s (audDist s.aud.validated
      (audPi s)) s.aud.validated = none) :=
  ⟨⟨8, 8191, good, ⟨by decide +kernel, by decide +kernel⟩, by decide +kernel⟩,
   ⟨0, 4, good, ⟨by decide +kernel, by decide +kernel⟩, by decide +kernel⟩,
   ⟨0, 8191, good, ⟨by decide +kernel, by decide +kernel⟩, by decide +kernel⟩,
   ⟨8, good, ⟨by decide +kernel, by decide +kernel⟩, by decide +kernel⟩,
   ⟨0, 0, good, ⟨by decide +kernel, by decide +kernel⟩, by decide +kernel⟩,
   ⟨0, 2, good, ⟨by decide +kernel, by decide +kernel⟩, by decide +kernel⟩,
   ⟨bad1, _, _, _, by decide +kernel, by decide +kernel, by decide +kernel, rfl, rfl, by decide +kernel⟩,
   ⟨good, _, _, by decide +kernel, by decide +kernel, by decide +kernel, rfl, rfl, by decide +kernel⟩,
   ⟨(at1 (2 ^ 24 + 1)), _, _, by decide +kernel, by decide +kernel, by decide +kernel, rfl, rfl, by decide +kernel⟩,
   ⟨(at1 5), _, _, by decide +kernel, by decide +kernel, by decide +kernel, rfl, rfl, by decide +kernel⟩,
   ⟨0, open1, ⟨by decide +kernel, by decide +kernel⟩, by decide +kernel⟩⟩
end AudioTakeRing

namespace AudioSample
def gn : Img := { g0 with own := [] }
def sal : AudSalvo := { first := 0, n := 1, tag := 0x42, takes := [{ dest := 0, src := some 1 }, { dest := 1, src := none }] }
def sv (v : AudSalvo) : Machine.State := let s := svc 4 gn [(Reg.AUD_TAKE_PI, 1), (Reg.AUD_SC_LO, 0xFFFFFFFF)]; { s with aud := { s.aud with salvos := [v], validated := 1 } }
def castF : Machine.State := fset (svc 1 gn []) Reg.GLOBAL_MODE Fld.GLOBAL_MODE_CASTFORM 1
/-- The hypotheses of `Obligations.AudioSample` are met together. -/
theorem witness_AudioSample :
    (∃ (s : Machine.State), running s = true ∧ (∀ (e : Nat × AudDest), e ∈ s.aud.dests → e.1 < 32768) ∧ (∀ (e : Nat ×
      List Nat), e ∈ s.flow.txPos → e.1 < 16384) ∧ (∀ (v : AudSalvo), v ∈ s.aud.salvos → ∀ (k : Take), k ∈ v.takes →
      k.dest < 32768) ∧ (∀ (e : Nat × AsrcBlk), e ∈ s.aud.asrc → ∀ (c : Nat), c ∈ List.map (fun (x : Nat × List Nat)
      ↦ x.1) e.2.inputs ++ e.2.na → c < 16) ∧ (∀ (k c b : Nat), blockDest s.img k c = some b → c < 16 → b < 32768) ∧
      inService s = false) ∧
    (∃ (s : Machine.State) (k : Nat), running s = true ∧ (∀ (e : Nat × AudDest), e ∈ s.aud.dests → e.1 < 32768) ∧ (∀
      (e : Nat × List Nat), e ∈ s.flow.txPos → e.1 < 16384) ∧ (∀ (v : AudSalvo), v ∈ s.aud.salvos → ∀ (k : Take), k ∈
      v.takes → k.dest < 32768) ∧ (∀ (e : Nat × AsrcBlk), e ∈ s.aud.asrc → ∀ (c : Nat), c ∈ List.map (fun (x : Nat ×
      List Nat) ↦ x.1) e.2.inputs ++ e.2.na → c < 16) ∧ (∀ (k c b : Nat), blockDest s.img k c = some b → c < 16 → b <
      32768) ∧ inService s = true ∧ audBuses s.img ≤ 2048 ∧ audTones s.img ≤ 256 ∧ audMeters s.img ≤ 8192 ∧ k <
      audTones s.img) ∧
    (∃ (s : Machine.State) (v : AudSalvo) (k : Take), running s = true ∧ (∀ (e : Nat × AudDest), e ∈ s.aud.dests →
      e.1 < 32768) ∧ (∀ (e : Nat × List Nat), e ∈ s.flow.txPos → e.1 < 16384) ∧ (∀ (v : AudSalvo), v ∈ s.aud.salvos →
      ∀ (k : Take), k ∈ v.takes → k.dest < 32768) ∧ (∀ (e : Nat × AsrcBlk), e ∈ s.aud.asrc → ∀ (c : Nat), c ∈
      List.map (fun (x : Nat × List Nat) ↦ x.1) e.2.inputs ++ e.2.na → c < 16) ∧ (∀ (k c b : Nat), blockDest s.img k
      c = some b → c < 16 → b < 32768) ∧ inService s = true ∧ audBuses s.img ≤ 2048 ∧ audTones s.img ≤ 256 ∧
      audMeters s.img ≤ 8192 ∧ s.aud.salvos = [v] ∧ v.refused = false ∧ v.executed = false ∧ salvoReady s (nextSc
      s).1 v = true ∧ (∀ (k : Take), k ∈ v.takes → k.dest < 32768 ∧ ∀ (a : Nat), k.src = some a → a < 27904) ∧ k ∈
      lastTakes v.takes) :=
  ⟨⟨castF, by decide +kernel, by decide +kernel, by decide +kernel, by decide +kernel, by decide +kernel,
     noBlocks _ rfl, by decide +kernel⟩,
   ⟨(sv sal), 0, by decide +kernel, by decide +kernel, by decide +kernel, by decide +kernel, by decide +kernel,
     noBlocks _ rfl, by decide +kernel⟩,
   ⟨(sv sal), _, { dest := 0, src := some 1 }, by decide +kernel, by decide +kernel, by decide +kernel,
     by decide +kernel, by decide +kernel, noBlocks _ rfl, by decide +kernel, by decide +kernel, by decide +kernel,
     by decide +kernel, rfl, by decide +kernel⟩⟩
end AudioSample

namespace MixTonesAndMeters
def mtv (v : Machine.Meter) (h : Nat) : Machine.State := let s := svc 4 g0 [(Reg.AUD_MTR_HOLD 3, BitVec.ofNat 32 h), (Reg.AUD_MTR_DECAY 3, 0x8000)]; setMeter 3 v s
/-- The hypotheses of `Obligations.MixTonesAndMeters` are met together. -/
theorem witness_MixTonesAndMeters :
    (∃ (m : Fin 9) (b : Fin 2048) (i : Fin 64) (hi : Bool) (w : Word) (s : Machine.State), Reaches s m.val
      (Reg.AUD_MIX_W b.val (2 * i.val + b2n hi)) ∧ (b.val < audBuses s.img ∧ if hi = true then bitsOf 31 24 (w.toNat)
      = 0 else bitsOf 14 13 (w.toNat) = 0 ∧ bitsOf 31 16 (w.toNat) = 0 ∧ bitsOf 12 0 (w.toNat) ≤ 7167)) ∧
    (∃ (m : Fin 9) (b : Fin 2048) (i : Fin 64) (hi : Bool) (w : Word) (s : Machine.State), Reaches s m.val
      (Reg.AUD_MIX_W b.val (2 * i.val + b2n hi)) ∧ (¬(b.val < audBuses s.img ∧ if hi = true then bitsOf 31 24
      (w.toNat) = 0 else bitsOf 14 13 (w.toNat) = 0 ∧ bitsOf 31 16 (w.toNat) = 0 ∧ bitsOf 12 0 (w.toNat) ≤ 7167))) ∧
    (∃ (m : Fin 9) (k : Fin 256) (s : Machine.State) (j : Nat), Reaches s m.val (Reg.AUD_TONE_CTRL k.val) ∧ k.val <
      audTones s.img ∧ j ≠ k.val) ∧
    (∃ (m : Fin 8192) (s : Machine.State), inService s = true ∧ m.val < audMeters s.img ∧ mtrBlock s m.val ≤ (meter s
      m.val).n) ∧
    (∃ (m : Fin 8192) (s : Machine.State), inService s = true ∧ m.val < audMeters s.img ∧ (¬mtrBlock s m.val ≤ (meter
      s m.val).n)) ∧
    (∃ (m : Fin 9) (k : Fin 8192) (s : Machine.State), Reaches s m.val (Reg.AUD_MTR_DECAY k.val) ∧ k.val < audMeters
      s.img) :=
  ⟨⟨8, 3, 63, true, 0, (mtv { n := 144, sum := 144 * 10 ^ 10, bp := 5 } 100), ⟨by decide +kernel, by decide +kernel⟩,
     by decide +kernel⟩,
   ⟨8, 2047, 63, true, 0, (mtv { n := 144, sum := 144 * 10 ^ 10, bp := 5 } 100), ⟨by decide +kernel,
     by decide +kernel⟩, by decide +kernel⟩,
   ⟨8, 1, (mtv { n := 144, sum := 144 * 10 ^ 10, bp := 5 } 100), 0, ⟨by decide +kernel, by decide +kernel⟩,
     by decide +kernel⟩,
   ⟨3, (mtv { n := 144, sum := 144 * 10 ^ 10, bp := 5 } 100), by decide +kernel⟩,
   ⟨1, (mtv { n := 144, sum := 144 * 10 ^ 10, bp := 5 } 100), by decide +kernel⟩,
   ⟨8, 3, (mtv { n := 144, sum := 144 * 10 ^ 10, bp := 5 } 100), ⟨by decide +kernel, by decide +kernel⟩,
     by decide +kernel⟩⟩
end MixTonesAndMeters

namespace EngineTasks
def tk (u : Nat) : Task := { head := false, obj := 0, frame := 0, unit := u, kernel := 3, idx := 0, portable := true }
def wait (n fl : Nat) : Machine.State :=
  let s := svc 4 g0 []
  setInflight 0 fl { s with eng := { waiting := [(0, [tk 0])], deques := [(0, List.replicate n (tk 7))] } }
def ready (c : Nat) : Machine.State := let s := svc 4 g0 []; { s with eng := { deques := [(c, [tk 1, tk 2])] } }
def run : Machine.State := setRunning 5 (some (tk 3)) (svc 4 g0 [])
/-- The hypotheses of `Obligations.EngineTasks` are met together. -/
theorem witness_EngineTasks :
    (∃ (q : Fin 4) (k : Machine.Task) (s : Machine.State), cget [] s.eng.waiting q.val = [k] ∧ taskHome s.img k < 64
      ∧ ((dequeOf s (taskHome s.img k)).length < 256 ∧ (k.again = true ∨ inflight s q.val < 4096))) ∧
    (∃ (q : Fin 4) (k : Machine.Task) (s : Machine.State), cget [] s.eng.waiting q.val = [k] ∧ taskHome s.img k < 64
      ∧ (¬((dequeOf s (taskHome s.img k)).length < 256 ∧ (k.again = true ∨ inflight s q.val < 4096)))) ∧
    (∃ (e : Fin 1024) (since0 : Nat) (since1 : Nat) (s : Machine.State) (order : Nat) (c : Nat) (k : Machine.Task) (j
      : Nat), running s = true ∧ engState s e.val = 0 ∧ findTask s (fun (p : Nat) ↦ if p = 0 then since0 else since1)
      e.val = some (order, c, k) ∧ c < 64 ∧ cget [] s.eng.waiting (taskQuad s.img k) = [] ∧ fget s Reg.TEST_PERT_ENG
      Fld.TEST_PERT_ENG_QMASK = 0 ∧ j ≠ c) ∧
    (∃ (e : Fin 1024) (since0 : Nat) (since1 : Nat) (s : Machine.State) (order : Nat) (c : Nat) (k : Machine.Task),
      running s = true ∧ engState s e.val = 0 ∧ findTask s (fun (p : Nat) ↦ if p = 0 then since0 else since1) e.val =
      some (order, c, k) ∧ c < 64 ∧ cget [] s.eng.waiting (taskQuad s.img k) = [] ∧ fget s Reg.TEST_PERT_ENG
      Fld.TEST_PERT_ENG_QMASK = 0 ∧ order = 2) ∧
    (∃ (e : Fin 1024) (since0 : Nat) (since1 : Nat) (s : Machine.State) (order : Nat) (c : Nat) (k : Machine.Task),
      running s = true ∧ engState s e.val = 0 ∧ findTask s (fun (p : Nat) ↦ if p = 0 then since0 else since1) e.val =
      some (order, c, k) ∧ c < 64 ∧ cget [] s.eng.waiting (taskQuad s.img k) = [] ∧ fget s Reg.TEST_PERT_ENG
      Fld.TEST_PERT_ENG_QMASK = 0 ∧ 3 ≤ order) ∧
    (∃ (e : Fin 1024) (since0 : Nat) (since1 : Nat) (s : Machine.State), running s = true ∧ engState s e.val = 0 ∧
      findTask s (fun (p : Nat) ↦ if p = 0 then since0 else since1) e.val = none) ∧
    (∃ (e : Fin 1024) (k : Machine.Task) (s : Machine.State), runningOf s e.val = some k ∧ engState s e.val = 1 ∧
      taskHome s.img k < 64 ∧ k.obj < 256 ∧ (k.head = true → ∀ (i : LayerIn), i ∈ (headSt s k.obj).layers → i.l <
      1024) ∧ (∀ (x : Machine.Task), x ∈ cget [] s.eng.waiting (taskQuad s.img k) → taskHome s.img x < 64)) :=
  ⟨⟨0, _, (wait 0 0), rfl, by decide +kernel⟩,
   ⟨0, _, (wait 256 0), rfl, by decide +kernel⟩,
   ⟨1023, 0, 0, (ready 0), _, _, _, 5, by decide +kernel, by decide +kernel, rfl, by decide +kernel⟩,
   ⟨100, 0, 0, (ready 0), _, _, _, by decide +kernel, by decide +kernel, rfl, by decide +kernel⟩,
   ⟨1023, 0, 0, (ready 0), _, _, _, by decide +kernel, by decide +kernel, rfl, by decide +kernel⟩,
   ⟨1023, 0, 0, (wait 0 0), by decide +kernel⟩,
   ⟨5, _, run, rfl, by decide +kernel⟩⟩
end EngineTasks

namespace ProcessSlots
def fr (i d : List Nat) : SlotFrame := { fc := 3, fmt := 0x68, issued := i, done := d }
def sl (v : SlotSt) : Machine.State := setSlot 0 v (svc 4 g0 [])
/-- A slot whose chain is FSYNC alone. -/
def gf : Img := { g0 with bytes := (0xA0000, 1) :: g0.bytes }
/-- The hypotheses of `Obligations.ProcessSlots` are met together. -/
theorem witness_ProcessSlots :
    (∃ (n : Fin 256) (s : Machine.State) (b : Nat) (old : Bool) (f : SlotFrame), slotUsed s.img n.val = true ∧
      running s = true ∧ slotHome s.img n.val < 64 ∧ frameSel old (slotSt s n.val) = some f ∧ b < bandCount s.img
      n.val ∧ (b ∈ f.issued ∨ (old || bandHeld s n.val b f) = false)) ∧
    (∃ (n : Fin 256) (s : Machine.State) (b : Nat) (old : Bool) (f : SlotFrame), slotUsed s.img n.val = true ∧
      running s = true ∧ slotHome s.img n.val < 64 ∧ frameSel old (slotSt s n.val) = some f ∧ b < bandCount s.img
      n.val ∧ (¬(b ∈ f.issued ∨ (old || bandHeld s n.val b f) = false))) ∧
    (∃ (n : Fin 256) (s : Machine.State) (b : Nat) (f : SlotFrame) (L : Nat), slotUsed s.img n.val = true ∧ running s
      = true ∧ slotHome s.img n.val < 64 ∧ (slotSt s n.val).old = some f ∧ b < bandCount s.img n.val ∧ b ∈ f.done ∧ L
      ∈ bandLines s.img n.val b) ∧
    (∃ (n : Fin 256) (s : Machine.State) (b : Nat) (f : SlotFrame), slotUsed s.img n.val = true ∧ running s = true ∧
      slotHome s.img n.val < 64 ∧ (slotSt s n.val).old = some f ∧ b < bandCount s.img n.val ∧ b ∉ f.done ∧ (slotSt s
      n.val).hadOut = true) ∧
    (∃ (n : Fin 256) (s : Machine.State) (b : Nat) (f : SlotFrame) (L : Nat), slotUsed s.img n.val = true ∧ running s
      = true ∧ slotHome s.img n.val < 64 ∧ (slotSt s n.val).old = some f ∧ b < bandCount s.img n.val ∧ b ∉ f.done ∧
      (slotSt s n.val).hadOut = false ∧ L ∈ bandLines s.img n.val b) :=
  ⟨⟨0, { sl { cur := some (fr [] []), old := some (fr [] []) } with img := gf }, 0, false, _, by decide +kernel,
     by decide +kernel, by decide +kernel, rfl, by decide +kernel⟩,
   ⟨0, { sl { cur := some (fr [] []), old := some (fr [] []) } with img := gf }, 0, true, _, by decide +kernel,
     by decide +kernel, by decide +kernel, rfl, by decide +kernel⟩,
   ⟨0, (sl { cur := some (fr [0] []), old := some (fr [0] [0]) }), 0, _, 42, by decide +kernel, by decide +kernel,
     by decide +kernel, rfl, by decide +kernel⟩,
   ⟨0, (sl { old := some (fr [] []), hadOut := true, lateNow := true }), 0, _, by decide +kernel, by decide +kernel,
     by decide +kernel, rfl, by decide +kernel⟩,
   ⟨0, { sl { cur := some (fr [] []), old := some (fr [] []) } with img := gf }, 0, _, 42, by decide +kernel,
     by decide +kernel, by decide +kernel, rfl, by decide +kernel⟩⟩
end ProcessSlots

namespace EngineFaults
def tk : Task := { head := false, obj := 0, frame := 0, unit := 0, kernel := 3, idx := 0, portable := true }
def run : Machine.State := setRunning 5 (some tk) (svc 4 g0 [])
def un (n st : Nat) : Machine.State := fset (fset run (Reg.ENG_E_STAT 5) Fld.ENG_E_STAT_UNCORR n) (Reg.ENG_E_STAT 6) Fld.ENG_E_STAT_STATE st
def ab : Machine.State := { run with eng := { run.eng with aborting := [5], cycles := [(0, 123456789)] } }
/-- The hypotheses of `Obligations.EngineFaults` are met together. -/
theorem witness_EngineFaults :
    (∃ (s : Machine.State) (e : Fin 1024) (errs : Fin 3), (∀ (x : Nat × Machine.Task), x ∈ s.eng.running → taskHome
      s.img x.2 < 64) ∧ (∀ (q : Nat) (x : Machine.Task), x ∈ cget [] s.eng.waiting q → taskHome s.img x < 64) ∧
      (secded 3 e.val errs.val s).1 = 1) ∧
    (∃ (s : Machine.State) (e : Fin 1024) (errs : Fin 3), (∀ (x : Nat × Machine.Task), x ∈ s.eng.running → taskHome
      s.img x.2 < 64) ∧ (∀ (q : Nat) (x : Machine.Task), x ∈ cget [] s.eng.waiting q → taskHome s.img x < 64) ∧ 2 ≤
      (secded 3 e.val errs.val s).1 ∧ 1 ≤ fget s (Reg.ENG_E_STAT e.val) Fld.ENG_E_STAT_UNCORR) ∧
    (∃ (s : Machine.State) (c : Fin 64) (e : Fin 1024), (∀ (x : Nat × Machine.Task), x ∈ s.eng.running → taskHome
      s.img x.2 < 64) ∧ (∀ (q : Nat) (x : Machine.Task), x ∈ cget [] s.eng.waiting q → taskHome s.img x < 64) ∧
      clusterQuad c.val ≠ clusterQuad (engineCluster e.val)) ∧
    (∃ (s : Machine.State) (c : Fin 64) (e : Fin 1024) (errs : Fin 3), (∀ (x : Nat × Machine.Task), x ∈ s.eng.running
      → taskHome s.img x.2 < 64) ∧ (∀ (q : Nat) (x : Machine.Task), x ∈ cget [] s.eng.waiting q → taskHome s.img x <
      64) ∧ clusterQuad c.val = clusterQuad (engineCluster e.val) ∧ (secded 4 c.val errs.val s).1 = 1) ∧
    (∃ (s : Machine.State) (c : Fin 64) (gr : Fin 64) (e : Fin 1024) (errs : Fin 3) (i : Nat), (∀ (x : Nat ×
      Machine.Task), x ∈ s.eng.running → taskHome s.img x.2 < 64) ∧ (∀ (q : Nat) (x : Machine.Task), x ∈ cget []
      s.eng.waiting q → taskHome s.img x < 64) ∧ clusterQuad c.val = clusterQuad (engineCluster e.val) ∧ 2 ≤ (secded
      4 c.val errs.val s).1 ∧ ownClass s.img (resId 5 (64 * c.val + gr.val)) = 8 ∧ i ∈ clusterEngines c.val) ∧
    (∃ (s : Machine.State) (c : Fin 64) (gr : Fin 64) (e : Fin 1024) (errs : Fin 3), (∀ (x : Nat × Machine.Task), x ∈
      s.eng.running → taskHome s.img x.2 < 64) ∧ (∀ (q : Nat) (x : Machine.Task), x ∈ cget [] s.eng.waiting q →
      taskHome s.img x < 64) ∧ clusterQuad c.val = clusterQuad (engineCluster e.val) ∧ 2 ≤ (secded 4 c.val errs.val
      s).1 ∧ (¬ownClass s.img (resId 5 (64 * c.val + gr.val)) = 8)) ∧
    (∃ (s : Machine.State) (e : Fin 1024), (∀ (x : Nat × Machine.Task), x ∈ s.eng.running → taskHome s.img x.2 < 64)
      ∧ (∀ (q : Nat) (x : Machine.Task), x ∈ cget [] s.eng.waiting q → taskHome s.img x < 64) ∧ e.val ∈
      s.eng.aborting) ∧
    (∃ (s : Machine.State) (e : Fin 1024), (∀ (x : Nat × Machine.Task), x ∈ s.eng.running → taskHome s.img x.2 < 64)
      ∧ (∀ (q : Nat) (x : Machine.Task), x ∈ cget [] s.eng.waiting q → taskHome s.img x < 64) ∧ e.val ∉
      s.eng.aborting) ∧
    (∃ (s : Machine.State) (m : Fin 9) (e : Fin 1024), (∀ (x : Nat × Machine.Task), x ∈ s.eng.running → taskHome
      s.img x.2 < 64) ∧ (∀ (q : Nat) (x : Machine.Task), x ∈ cget [] s.eng.waiting q → taskHome s.img x < 64) ∧
      Reaches s m.val Reg.ENG_QUAR_CMD ∧ engState s e.val ≠ 2) ∧
    (∃ (s : Machine.State) (m : Fin 9) (e : Fin 1024) (j : Nat), (∀ (x : Nat × Machine.Task), x ∈ s.eng.running →
      taskHome s.img x.2 < 64) ∧ (∀ (q : Nat) (x : Machine.Task), x ∈ cget [] s.eng.waiting q → taskHome s.img x <
      64) ∧ Reaches s m.val Reg.ENG_QUAR_CMD ∧ j < 1024 ∧ j ≠ e.val) ∧
    (∃ (s : Machine.State) (m : Fin 9) (j : Nat), (∀ (x : Nat × Machine.Task), x ∈ s.eng.running → taskHome s.img x.2
      < 64) ∧ (∀ (q : Nat) (x : Machine.Task), x ∈ cget [] s.eng.waiting q → taskHome s.img x < 64) ∧ Reaches s m.val
      Reg.ENG_QUAR_CMD ∧ mode s = Mode.factory ∧ j < 1024) ∧
    (∃ (s : Machine.State) (m : Fin 9), (∀ (x : Nat × Machine.Task), x ∈ s.eng.running → taskHome s.img x.2 < 64) ∧
      (∀ (q : Nat) (x : Machine.Task), x ∈ cget [] s.eng.waiting q → taskHome s.img x < 64) ∧ Reaches s m.val
      Reg.ENG_QUAR_CMD ∧ (¬mode s = Mode.factory)) :=
  ⟨⟨run, 1023, 1, by decide +kernel, noWait _ (by decide +kernel), by decide +kernel⟩,
   ⟨(un 1 2), 5, 2, by decide +kernel, noWait _ (by decide +kernel), by decide +kernel⟩,
   ⟨run, 63, 64, by decide +kernel, noWait _ (by decide +kernel), by decide +kernel⟩,
   ⟨run, 63, 1023, 1, by decide +kernel, noWait _ (by decide +kernel), by decide +kernel⟩,
   ⟨run, 0, 0, 64, 2, 0, by decide +kernel, noWait _ (by decide +kernel), by decide +kernel⟩,
   ⟨run, 63, 63, 1023, 2, by decide +kernel, noWait _ (by decide +kernel), by decide +kernel⟩,
   ⟨ab, 5, by decide +kernel, noWait _ (by decide +kernel), by decide +kernel⟩,
   ⟨run, 1023, by decide +kernel, noWait _ (by decide +kernel), by decide +kernel⟩,
   ⟨run, 8, 1023, by decide +kernel, noWait _ (by decide +kernel), ⟨by decide +kernel, by decide +kernel⟩,
     by decide +kernel⟩,
   ⟨run, 8, 1023, 0, by decide +kernel, noWait _ (by decide +kernel), ⟨by decide +kernel, by decide +kernel⟩,
     by decide +kernel⟩,
   ⟨(setRunning 5 (some tk) (svc 5 g0 [])), 8, 0, by decide +kernel, noWait _ (by decide +kernel),
     ⟨by decide +kernel, by decide +kernel⟩, by decide +kernel⟩,
   ⟨run, 8, by decide +kernel, noWait _ (by decide +kernel), ⟨by decide +kernel, by decide +kernel⟩,
     by decide +kernel⟩⟩
end EngineFaults

namespace Composition
def hd : Machine.State := setHead 1 { k := some 3, tiles := [(0, [[]]), (5, [[⟨1,2,3,4⟩]])] } (svc 4 g0 [])
def bad : Machine.State := svc 4 g0 [(Reg.COMP_L_W 0 1, 0x8000)]
def frz : Machine.State := putQ 1046464 { frozen := true } (putQ 1046465 { frozen := true } (setHead 0 { k := some 3 } hd))
/-- The hypotheses of `Obligations.Composition` are met together. -/
theorem witness_Composition :
    (∃ (m : Fin 9) (l : Fin 1024) (s : Machine.State), Reaches s m.val (Reg.COMP_L_COMMIT l.val) ∧ layerUsed s.img
      l.val = true ∧ descBad s l.val (shadowWords s l.val) = true) ∧
    (∃ (m : Fin 9) (l : Fin 1024) (s : Machine.State), Reaches s m.val (Reg.COMP_L_COMMIT l.val) ∧ layerUsed s.img
      l.val = true ∧ (¬descBad s l.val (shadowWords s l.val) = true)) ∧
    (∃ (h : Fin 64) (s : Machine.State) (l : Nat), headUsed s.img h.val = true ∧ running s = true ∧ headHome s.img
      h.val < 64 ∧ (∀ (x : Machine.Task), x ∈ cget [] s.eng.waiting (clusterQuad (headHome s.img h.val)) → taskHome
      s.img x < 64) ∧ l ∈ headLayers s.img h.val) ∧
    (∃ (h : Fin 64) (s : Machine.State) (i : Nat), headUsed s.img h.val = true ∧ running s = true ∧ headHome s.img
      h.val < 64 ∧ (∀ (x : Machine.Task), x ∈ cget [] s.eng.waiting (clusterQuad (headHome s.img h.val)) → taskHome
      s.img x < 64) ∧ i < 9 * 16384) ∧
    (∃ (h : Fin 64) (s : Machine.State) (i : Nat), headUsed s.img h.val = true ∧ running s = true ∧ headHome s.img
      h.val < 64 ∧ (∀ (x : Machine.Task), x ∈ cget [] s.eng.waiting (clusterQuad (headHome s.img h.val)) → taskHome
      s.img x < 64) ∧ i < 8 * 1024) ∧
    (∃ (h : Fin 64) (s : Machine.State) (k : Nat), headUsed s.img h.val = true ∧ running s = true ∧ headHome s.img
      h.val < 64 ∧ (headSt s h.val).k = some k ∧ s.test.inj = none ∧ (getQ s (1046464 + h.val)).frozen = true) ∧
    (∃ (h : Fin 64) (s : Machine.State) (k : Nat), headUsed s.img h.val = true ∧ running s = true ∧ headHome s.img
      h.val < 64 ∧ (headSt s h.val).k = some k ∧ s.test.inj = none ∧ (¬(getQ s (1046464 + h.val)).frozen = true)) ∧
    (∃ (h : Fin 64) (s : Machine.State), headUsed s.img h.val = true ∧ running s = true ∧ headHome s.img h.val < 64 ∧
      (headSt s h.val).k = none) :=
  ⟨⟨8, 0, bad, ⟨by decide +kernel, by decide +kernel⟩, by decide +kernel⟩,
   ⟨8, 1023, frz, ⟨by decide +kernel, by decide +kernel⟩, by decide +kernel⟩,
   ⟨1, frz, 1, by decide +kernel⟩,
   ⟨1, frz, 0, by decide +kernel⟩,
   ⟨1, frz, 0, by decide +kernel⟩,
   ⟨1, frz, _, by decide +kernel, by decide +kernel, by decide +kernel, rfl, by decide +kernel⟩,
   ⟨1, hd, _, by decide +kernel, by decide +kernel, by decide +kernel, rfl, by decide +kernel⟩,
   ⟨1, bad, by decide +kernel⟩⟩
end Composition

namespace TablePorts
/-- The hypotheses of `Obligations.TablePorts` are met together. -/
theorem witness_TablePorts :
    (∃ (m : Fin 9) (s : Machine.State), Reaches s m.val Reg.ENG_TLUT_DATA ∧ tlutNamed (tlutKey s % 16384) = true) ∧
    (∃ (m : Fin 9) (s : Machine.State), Reaches s m.val Reg.ENG_TLUT_CTRL) ∧
    (∃ (m : Fin 9) (s : Machine.State), Reaches s m.val Reg.COMP_LUT_DATA ∧ lutNamed s = true) ∧
    (∃ (m : Fin 9) (s : Machine.State), Reaches s m.val Reg.COMP_LUT_CTRL) ∧
    (∃ (m : Fin 9) (s : Machine.State), Reaches s m.val Reg.COMP_SCL_DATA ∧ coefIdx s < 896 ∧ coefBank s ≤ 64) ∧
    (∃ (m : Fin 9) (bank : BitVec 7) (s : Machine.State), Reaches s m.val Reg.COMP_SCL_CTRL ∧ (bank.toNat < 64 ∧
      headUsed s.img bank.toNat = false)) ∧
    (∃ (m : Fin 9) (bank : BitVec 7) (s : Machine.State), Reaches s m.val Reg.COMP_SCL_CTRL ∧ (¬(bank.toNat < 64 ∧
      headUsed s.img bank.toNat = false))) :=
  ⟨⟨8, (svc 4 g0 []), ⟨by decide +kernel, by decide +kernel⟩, by decide +kernel⟩,
   ⟨8, (svc 4 g0 []), ⟨by decide +kernel, by decide +kernel⟩⟩,
   ⟨8, (svc 4 g0 []), ⟨by decide +kernel, by decide +kernel⟩, by decide +kernel⟩,
   ⟨8, (svc 4 g0 []), ⟨by decide +kernel, by decide +kernel⟩⟩,
   ⟨8, (svc 4 g0 []), ⟨by decide +kernel, by decide +kernel⟩, by decide +kernel⟩,
   ⟨8, 0, (svc 4 g0 []), ⟨by decide +kernel, by decide +kernel⟩, by decide +kernel⟩,
   ⟨8, 1, (svc 4 g0 []), ⟨by decide +kernel, by decide +kernel⟩, by decide +kernel⟩⟩
end TablePorts

namespace ReferenceInputs
def act (clk seen fp whole : List Nat) (cnt : Nat) : Machine.State :=
  let s := fset (fset (fset (svc 4 g0 []) (Reg.PLANE_ENT_STAT 0 0) Fld.PLANE_ENT_STAT_ACTIVE 1) (Reg.PLANE_ENT_STAT 0 0) Fld.PLANE_ENT_STAT_QUAL 1) (Reg.PLANE_ENT_STAT 0 0) Fld.PLANE_ENT_STAT_QUAL_CNT cnt
  { s with ref := { clk := clk, p0 := { seen := seen, fp := fp, whole := whole } } }
/-- The hypotheses of `Obligations.ReferenceInputs` are met together. -/
theorem witness_ReferenceInputs :
    (∃ (s : Machine.State) (x : Fin 4) (p : Nat) (e : Nat), running s = true ∧ hasSec s.img Sec.ref = true ∧ inFreq
      s.img x.val ≠ 0 ∧ x.val ∉ s.ref.clk ∧ p < 2 ∧ planeUsed s.img p = true ∧ e < 16 ∧ entUsed s.img p e = true ∧
      entActive s p e = true) ∧
    (∃ (s : Machine.State) (x : Fin 4) (p : Nat) (e : Nat), running s = true ∧ hasSec s.img Sec.ref = true ∧ inFreq
      s.img x.val ≠ 0 ∧ bitOf 0 (inFlags s.img x.val) = true ∧ p < 2 ∧ planeUsed s.img p = true ∧ e < 16 ∧ entUsed
      s.img p e = true ∧ entActive s p e = true) ∧
    (∃ (s : Machine.State) (x : Fin 4) (p : Nat), running s = true ∧ hasSec s.img Sec.ref = true ∧ inFreq s.img x.val
      ≠ 0 ∧ bitOf 0 (inFlags s.img x.val) = true ∧ p < 2 ∧ planeUsed s.img p = true ∧ x.val ∈ (refPl s p).seen) ∧
    (∃ (s : Machine.State) (p : Nat) (e : Nat), running s = true ∧ fget s Reg.TEST_PERT_MON Fld.TEST_PERT_MON_J = 0 ∧
      s.ref.win0.start = s.ref.win1.start ∧ p < 2 ∧ planeUsed s.img p = true ∧ e < 16 ∧ entUsed s.img p e = true ∧
      entKind s.img p e ≠ 8) ∧
    (∃ (s : Machine.State) (p : Nat) (e : Nat), running s = true ∧ s.ref.xoFail = false ∧ p < 2 ∧ e < 16 ∧ planeUsed
      s.img p = true ∧ entKind s.img p e = 8) :=
  ⟨⟨(act [0] [0] [0] [0] 9), 1, 0, 0, by decide +kernel⟩,
   ⟨(act [0] [0] [0] [0] 9), 0, 0, 0, by decide +kernel⟩,
   ⟨(act [0] [0] [0] [0] 9), 0, 0, by decide +kernel⟩,
   ⟨(act [0] [0] [0] [0] 9), 0, 0, by decide +kernel⟩,
   ⟨(act [0] [0] [0] [0] 9), 1, 0, by decide +kernel⟩⟩
end ReferenceInputs

namespace PlaneSelector
/-- Plane 0 in a state of Table 14.6, following entry 0, which is active and qualified. -/
def pl (st : Nat) (v : RefPl) : Machine.State :=
  let s := fset (svc 4 g0 []) (Reg.PLANE_STAT 0) Fld.PLANE_STAT_STATE st
  let s := [0, 1, 2].foldl (fun s e => fset (fset s (Reg.PLANE_ENT_STAT 0 e) Fld.PLANE_ENT_STAT_ACTIVE 1) (Reg.PLANE_ENT_STAT 0 e) Fld.PLANE_ENT_STAT_QUAL 1) s
  { s with ref := { p0 := v, clk := [0, 1] } }
/-- The hypotheses of `Obligations.PlaneSelector` are met together. -/
theorem witness_PlaneSelector :
    (∃ (m : Fin 9) (p : Fin 2) (s : Machine.State), Reaches s m.val (Reg.PLANE_LOCKOUT p.val) ∧ running s = true ∧
      planeUsed s.img p.val = true) ∧
    (∃ (m : Fin 9) (p : Fin 2) (s : Machine.State), Reaches s m.val (Reg.PLANE_CTRL p.val) ∧ planeUsed s.img p.val =
      true) ∧
    (∃ (p : Fin 2) (s : Machine.State), running s = true ∧ planeUsed s.img p.val = true ∧ planeState s p.val = 2 ∧
      (refPl s p.val).jump = false ∧ residNow s p.val = 0 ∧ bestRef s p.val = some (planeCur s p.val)) ∧
    (∃ (p : Fin 2) (s : Machine.State), running s = true ∧ planeUsed s.img p.val = true ∧ planeState s p.val = 4 ∧
      bestRef s p.val = some (planeCur s p.val)) ∧
    (∃ (p : Fin 2) (s : Machine.State), running s = true ∧ planeUsed s.img p.val = true ∧ planeState s p.val = 5 ∧
      refHoldMax s.img p.val ≠ 0) ∧
    (∃ (p : Fin 2) (s : Machine.State), running s = true ∧ planeUsed s.img p.val = true ∧ planeState s p.val = 2 ∧
      (refPl s p.val).jump = true ∧ s.pair.copyIn = none ∧ p = 0) :=
  ⟨⟨8, 1, (pl 1 {}), ⟨by decide +kernel, by decide +kernel⟩, by decide +kernel⟩,
   ⟨8, 1, (pl 1 {}), ⟨by decide +kernel, by decide +kernel⟩, by decide +kernel⟩,
   ⟨0, (pl 2 {}), by decide +kernel⟩,
   ⟨0, (pl 4 { resid := 500 }), by decide +kernel⟩,
   ⟨0, (pl 5 {}), by decide +kernel⟩,
   ⟨0, (pl 2 { jump := true }), by decide +kernel⟩⟩
end PlaneSelector

namespace PairRolesAndLink
def lk (md l : Nat) : Machine.State := fset (svc md g0 [(Reg.PAIR_CTRL, 1)]) Reg.PAIR_STAT Fld.PAIR_STAT_LINK l
/-- The hypotheses of `Obligations.PairRolesAndLink` are met together. -/
theorem witness_PairRolesAndLink :
    (∃ (s : Machine.State) (high : Bool), (∀ (v : Salvo), v ∈ s.xp.salvos → ∀ (u : Machine.Part), u ∈ v.parts → ∀ (k
      : Take), k ∈ u.takes → k.dest < 4096) ∧ (mode s = Mode.standby ∧ high = true ∨ mode s = Mode.active ∧ high =
      false) ∧ pairInUse s = true ∧ 3 ≤ linkState s) ∧
    (∃ (s : Machine.State) (high : Bool), (∀ (v : Salvo), v ∈ s.xp.salvos → ∀ (u : Machine.Part), u ∈ v.parts → ∀ (k
      : Take), k ∈ u.takes → k.dest < 4096) ∧ (¬(mode s = Mode.standby ∧ high = true ∨ mode s = Mode.active ∧ high =
      false))) ∧
    (∃ (s : Machine.State) (m : Fin 9) (en : Bool), Reaches s m.val Reg.PAIR_CTRL ∧ pairInUse s = en) ∧
    (∃ (s : Machine.State) (m : Fin 9) (en : Bool), Reaches s m.val Reg.PAIR_CTRL ∧ pairInUse s ≠ en) ∧
    (∃ (s : Machine.State) (quads : BitVec 4) (take : Bool) (plane0 : Bool) (plane1 : Bool) (probe : Bool), inRole s
      = true ∧ fbit s Reg.PAIR_STAT Fld.PAIR_STAT_BEAT_HOLD = false ∧ (quads = 15 ∧ take = true ∧ (plane0 = true ∨
      planeUsed s.img 0 = false) ∧ (plane1 = true ∨ planeUsed s.img 1 = false) ∧ probe = true)) ∧
    (∃ (s : Machine.State) (quads : BitVec 4) (take : Bool) (plane0 : Bool) (plane1 : Bool) (probe : Bool), inRole s
      = true ∧ fbit s Reg.PAIR_STAT Fld.PAIR_STAT_BEAT_HOLD = false ∧ (¬(quads = 15 ∧ take = true ∧ (plane0 = true ∨
      planeUsed s.img 0 = false) ∧ (plane1 = true ∨ planeUsed s.img 1 = false) ∧ probe = true))) ∧
    (∃ (s : Machine.State), inRole s = true ∧ planeUsed s.img (fget s Reg.PAIR_CTRL Fld.PAIR_CTRL_WIN_PLANE) = true) ∧
    (∃ (s : Machine.State), pairInUse s = true ∧ inRole s = true ∧ linkState s = 1) ∧
    (∃ (s : Machine.State), pairInUse s = true ∧ inRole s = true ∧ linkState s = 2) ∧
    (∃ (s : Machine.State), pairInUse s = true ∧ inRole s = true ∧ 1 ≤ linkState s) ∧
    (∃ (s : Machine.State) (n : Nat), pairInUse s = true ∧ inRole s = true ∧ 3 ≤ linkState s ∧ n ∈
      [Src.pairImageMismatch, Src.pairDualActive, Src.pairNoActive]) ∧
    (∃ (s : Machine.State), pairInUse s = true ∧ inRole s = true ∧ 3 ≤ linkState s ∧ mode s = Mode.standby) :=
  ⟨⟨(lk 3 3), true, by decide +kernel⟩,
   ⟨(lk 3 1), false, by decide +kernel⟩,
   ⟨(lk 3 1), 8, true, ⟨by decide +kernel, by decide +kernel⟩, by decide +kernel⟩,
   ⟨(lk 3 1), 8, false, ⟨by decide +kernel, by decide +kernel⟩, by decide +kernel⟩,
   ⟨(lk 3 1), 15, true, true, true, true, by decide +kernel⟩,
   ⟨(lk 3 1), 0, true, true, true, true, by decide +kernel⟩,
   ⟨(lk 3 1), by decide +kernel⟩,
   ⟨(lk 3 1), by decide +kernel⟩,
   ⟨(lk 3 2), by decide +kernel⟩,
   ⟨(lk 3 1), by decide +kernel⟩,
   ⟨(lk 3 3), 259, by decide +kernel⟩,
   ⟨(lk 3 3), by decide +kernel⟩⟩
end PairRolesAndLink

namespace PairHealthAndExchange
def lk (md l : Nat) (p : PairSt) : Machine.State := { fset (svc md g0 [(Reg.PAIR_CTRL, 0x1FF)]) Reg.PAIR_STAT Fld.PAIR_STAT_LINK l with pair := p }
def sig (o c : Nat) : PairSt := { sigs := [{ output := o, frame := 5, crc := c }], sigRun := [(o, 2)] }
def wr (n : Nat) : PairSt := { mirWrites := [⟨0, Reg.AUD_MIX_W 0 0, 5, n⟩, ⟨0, Reg.AUD_MIX_W 0 1, 6, 9⟩] }
def sc (s : Machine.State) : Machine.State := rset s Reg.AUD_SC_LO 7
def ex : PairSt := { execLog := [(3, 0, 9), (4, 1, 9)], unacked := [⟨3, 1, [5]⟩, ⟨7, 2, [6, 7]⟩], txSeq := 8, ofsHeld := [0, 1] }
/-- The hypotheses of `Obligations.PairHealthAndExchange` are met together. -/
theorem witness_PairHealthAndExchange :
    (∃ (s : Machine.State) (n : Nat) (u : MirrorTx), linkUp s = true ∧ List.find? (fun (x : MirrorTx) ↦ x.seq == n)
      s.pair.unacked = some u) ∧
    (∃ (s : Machine.State), linkUp s = true ∧ (checkFails 7 0 false s).1 = false ∧ mode s = Mode.active ∧ linkState s
      = 3) ∧
    (∃ (s : Machine.State), linkUp s = true ∧ (checkFails 7 0 false s).1 = false ∧ mode s = Mode.active ∧ linkState s
      = 4) ∧
    (∃ (s : Machine.State), linkUp s = true ∧ (checkFails 7 0 false s).1 = false ∧ mode s = Mode.active ∧ linkState s
      = 5) ∧
    (∃ (s : Machine.State) (p : Fin 2), linkUp s = true ∧ (checkFails 7 0 false s).1 = false ∧ mode s = Mode.standby
      ∧ planeUsed s.img p.val = true) ∧
    (∃ (s : Machine.State), linkUp s = true ∧ (checkFails 7 0 false s).1 = false ∧ mode s = Mode.standby ∧ linkState
      s = 4) ∧
    (∃ (s : Machine.State) (recs : List Nat) (i : Nat), linkUp s = true ∧ (checkFails 7 0 false s).1 = false ∧ mode s
      = Mode.standby ∧ 4 ≤ linkState s ∧ recs.length ≤ 16384 ∧ i < recs.length) ∧
    (∃ (s : Machine.State) (p : Fin 2) (first : Nat) (e : Nat × Nat × Nat), linkUp s = true ∧ (checkFails 7 0 false
      s).1 = false ∧ mode s = Mode.standby ∧ List.find? (fun (e : Nat × Nat × Nat) ↦ e.1 == first && e.2.1 == p.val)
      s.pair.execLog = some e) ∧
    (∃ (s : Machine.State) (p : Fin 2) (fc : BitVec 48) (x : Sig) (crc : BitVec 32), linkUp s = true ∧ (checkFails 7
      0 false s).1 = false ∧ mode s = Mode.standby ∧ sigsOn s = true ∧ s.pair.sigs = [x] ∧ s.pair.peerSigs = [] ∧
      x.frame = ownFrame s p.val fc.toNat ∧ x.output < 32768 ∧ sigOf s p.val x.output = true ∧ x.untimed = false ∧
      sigExcluded s x.output = false ∧ x.crc = crc.toNat) ∧
    (∃ (s : Machine.State) (p : Fin 2) (fc : BitVec 48) (x : Sig) (crc : BitVec 32), linkUp s = true ∧ (checkFails 7
      0 false s).1 = false ∧ mode s = Mode.standby ∧ sigsOn s = true ∧ s.pair.sigs = [x] ∧ s.pair.peerSigs = [] ∧
      x.frame = ownFrame s p.val fc.toNat ∧ x.output < 32768 ∧ sigOf s p.val x.output = true ∧ x.untimed = false ∧
      sigExcluded s x.output = false ∧ (¬x.crc = crc.toNat)) ∧
    (∃ (s : Machine.State), linkUp s = true ∧ mode s = Mode.standby ∧ (checkFails 7 0 false s).1 = false ∧
      s.test.jtagPins = false) ∧
    (∃ (s : Machine.State) (k : Nat), linkUp s = true ∧ mode s = Mode.standby ∧ (checkFails 7 0 false s).1 = false ∧
      k < 2) ∧
    (∃ (s : Machine.State) (w : MirWrite) (rest : List MirWrite), s.pair.mirWrites = w :: rest ∧ audSc s < w.sample) ∧
    (∃ (s : Machine.State) (w : MirWrite) (rest : List MirWrite), s.pair.mirWrites = w :: rest ∧ (¬audSc s <
      w.sample) ∧ mode s = Mode.standby ∧ w.sample < audSc s) ∧
    (∃ (s : Machine.State), mode s = Mode.standby ∧ pairInUse s = true ∧ fbit s Reg.PAIR_CTRL Fld.PAIR_CTRL_MARGIN_EN
      = true ∧ s.pair.marginPos < 576 ∧ scanLane s s.pair.marginPos = true) :=
  ⟨⟨(lk 4 3 ex), 3, _, by decide +kernel, rfl⟩,
   ⟨(lk 4 3 ex), by decide +kernel⟩,
   ⟨(lk 4 4 ex), by decide +kernel⟩,
   ⟨(lk 4 5 ex), by decide +kernel⟩,
   ⟨(lk 3 3 ex), 1, by decide +kernel⟩,
   ⟨(lk 3 4 ex), by decide +kernel⟩,
   ⟨(lk 3 4 ex), [1, 2, 3, 4], 0, by decide +kernel⟩,
   ⟨(lk 3 3 ex), 1, 4, ((4, 1, 9)), by decide +kernel⟩,
   ⟨(lk 3 5 (sig 0 9)), 0, 5, _, 9, by decide +kernel, by decide +kernel, by decide +kernel, by decide +kernel, rfl,
     by decide +kernel⟩,
   ⟨(lk 3 5 (sig 0 9)), 0, 5, _, 5, by decide +kernel, by decide +kernel, by decide +kernel, by decide +kernel, rfl,
     by decide +kernel⟩,
   ⟨(lk 3 3 ex), by decide +kernel⟩,
   ⟨(lk 3 3 ex), 0, by decide +kernel⟩,
   ⟨(sc (lk 3 5 (wr 8))), _, _, rfl, by decide +kernel⟩,
   ⟨(sc (lk 3 5 (wr 6))), _, _, rfl, by decide +kernel⟩,
   ⟨(lk 3 3 ex), by decide +kernel⟩⟩
end PairHealthAndExchange

namespace ResetAndPower
def heat : Machine.State := fset (svc 1 g0 []) Reg.GLOBAL_MODE Fld.GLOBAL_MODE_HEAT 1
def castF : Machine.State := fset (svc 1 g0 []) Reg.GLOBAL_MODE Fld.GLOBAL_MODE_CASTFORM 1
def down : Machine.State := { svc 0 {} [] with core := { supplyOk := 0x1FF, causes := 0x28 } }
/-- The hypotheses of `Obligations.ResetAndPower` are met together. -/
theorem witness_ResetAndPower :
    (∃ (s : Machine.State), mode s = Mode.reset) ∧
    (∃ (j : Nat), j < 9) ∧
    (∃ (s : Machine.State), mode s ≠ Mode.reset) ∧
    (∃ (s : Machine.State), (mode s = Mode.reset ∧ s.core.supplyOk = 511)) ∧
    (∃ (s : Machine.State), (¬(mode s = Mode.reset ∧ s.core.supplyOk = 511))) ∧
    (∃ (s : Machine.State) (m : Fin 9), Reaches s m.val Reg.GLOBAL_RESET_CTRL ∧ (inService s = true ∨ inCast s =
      true)) ∧
    (∃ (s : Machine.State) (m : Fin 9), Reaches s m.val Reg.GLOBAL_RESET_CTRL ∧ (¬(inService s = true ∨ inCast s =
      true)) ∧ mode s = Mode.boot ∧ (fbit s Reg.GLOBAL_MODE Fld.GLOBAL_MODE_HEAT = true ∨ fbit s Reg.GLOBAL_BOOT_STAT
      Fld.GLOBAL_BOOT_STAT_WAIT_HOST = true)) ∧
    (∃ (s : Machine.State) (m : Fin 9), Reaches s m.val Reg.GLOBAL_RESET_CTRL ∧ (¬(inService s = true ∨ inCast s =
      true)) ∧ mode s = Mode.boot ∧ (¬(fbit s Reg.GLOBAL_MODE Fld.GLOBAL_MODE_HEAT = true ∨ fbit s
      Reg.GLOBAL_BOOT_STAT Fld.GLOBAL_BOOT_STAT_WAIT_HOST = true))) ∧
    (∃ (s : Machine.State) (m : Fin 9), Reaches s m.val Reg.GLOBAL_RESET_CTRL ∧ (¬(inService s = true ∨ inCast s =
      true)) ∧ (¬mode s = Mode.boot)) :=
  ⟨⟨(svc 0 {} []), by decide +kernel⟩,
   ⟨0, by decide +kernel⟩,
   ⟨heat, by decide +kernel⟩,
   ⟨(svc 0 {} []), by decide +kernel⟩,
   ⟨{ down with core := { supplyOk := 0x1FE } }, by decide +kernel⟩,
   ⟨castF, 8, ⟨by decide +kernel, by decide +kernel⟩, by decide +kernel⟩,
   ⟨heat, 8, ⟨by decide +kernel, by decide +kernel⟩, by decide +kernel⟩,
   ⟨(svc 1 g0 []), 8, ⟨by decide +kernel, by decide +kernel⟩, by decide +kernel⟩,
   ⟨(svc 2 g0 []), 8, ⟨by decide +kernel, by decide +kernel⟩, by decide +kernel⟩⟩
end ResetAndPower

namespace BootStepsAndSensors
/-- BOOT in the cold form at a step, with the lowest temperature in eighths of a degree. -/
def bt (step tj : Nat) (c : Core) : Machine.State :=
  fset (fset { svc 1 g0 [] with core := c } Reg.GLOBAL_BOOT_STAT Fld.GLOBAL_BOOT_STAT_STEP step) Reg.GLOBAL_TJ Fld.GLOBAL_TJ_TJ_MIN tj
def dark : Machine.State := rset (bt 1 0 {}) 0x18 0
def heat (tj : Nat) : Machine.State := fset (bt 3 tj {}) Reg.GLOBAL_MODE Fld.GLOBAL_MODE_HEAT 1
/-- A well-formed image header with one section, in slot A. -/
def header : List Nat :=
  [0x41, 0x44, 0x4D, 0x54, 1, 0, 0, 0x10, 0, 4, 0x46, 0x56, 0, 1, 0, 0, 0x10, 0, 0, 0, 0, 0, 0, 0, 5, 0, 0, 0, 2]
    ++ List.replicate 15 0 ++ [1] ++ List.replicate 211 0 ++ [12, 0, 1, 0, 0, 0x10, 0, 0, 0, 6, 0, 0, 1] ++ List.replicate 3827 0
def headed : Machine.State :=
  { bt 5 0 {} with long := { flash := header.zipIdx.map (fun b => ⟨0x1000000 + b.2, BitVec.ofNat 8 b.1⟩) } }
def host (c : Core) : Machine.State := fset (bt 5 0 c) Reg.GLOBAL_BOOT_STAT Fld.GLOBAL_BOOT_STAT_WAIT_HOST 1
def br (n : Nat) : Machine.State := { svc 4 g0 [(Reg.GLOBAL_BRIDGE_STAT, 3)] with core := { bridgeN2S := n } }
/-- The hypotheses of `Obligations.BootStepsAndSensors` are met together. -/
theorem witness_BootStepsAndSensors :
    (∃ (s : Machine.State), inColdBoot s = true ∧ bootStep s = 1 ∧ ctlStuck s = false) ∧
    (∃ (s : Machine.State), inColdBoot s = true ∧ bootStep s = 1 ∧ fbit s Reg.GLOBAL_CLK_LOCK Fld.GLOBAL_CLK_LOCK_CTL
      = false) ∧
    (∃ (s : Machine.State), inColdBoot s = true ∧ heating s = true ∧ -160 ≤ sext 16 (fget s Reg.GLOBAL_TJ
      Fld.GLOBAL_TJ_TJ_MIN)) ∧
    (∃ (s : Machine.State), inColdBoot s = true ∧ heating s = true ∧ (¬-160 ≤ sext 16 (fget s Reg.GLOBAL_TJ
      Fld.GLOBAL_TJ_TJ_MIN))) ∧
    (∃ (s : Machine.State), inColdBoot s = true ∧ loading s = true ∧ s.core.hbmDone = false ∧ (s.core.safeReq = true
      ∨ s.core.loadQueue = [] ∧ ¬((s.core.load = LoadSrc.slotA ∨ s.core.load = LoadSrc.slotB) ∧ s.core.second =
      false))) ∧
    (∃ (s : Machine.State), inColdBoot s = true ∧ loading s = true ∧ s.core.hbmDone = false ∧ (¬(s.core.safeReq =
      true ∨ s.core.loadQueue = [] ∧ ¬((s.core.load = LoadSrc.slotA ∨ s.core.load = LoadSrc.slotB) ∧ s.core.second =
      false)))) ∧
    (∃ (s : Machine.State), inColdBoot s = true ∧ loading s = true ∧ s.core.hbmDone = false ∧ s.core.safeReq = false
      ∧ s.core.load = LoadSrc.host ∧ bootStep s = 5) ∧
    (∃ (s : Machine.State), inColdBoot s = true ∧ loading s = true ∧ s.core.load ≠ LoadSrc.host ∧ s.core.streamDone =
      false ∧ headerBad (rawOf (flashRun s (slotBase s.core.load)) (if s.core.load = LoadSrc.plinth then 4096 else
      12288)) (if s.core.load = LoadSrc.plinth then 4096 else 12288) = true ∧ (s.core.safeReq = true ∨
      s.core.loadQueue = [] ∧ ¬((s.core.load = LoadSrc.slotA ∨ s.core.load = LoadSrc.slotB) ∧ s.core.second =
      false))) ∧
    (∃ (s : Machine.State), inColdBoot s = true ∧ loading s = true ∧ s.core.load ≠ LoadSrc.host ∧ s.core.streamDone =
      false ∧ headerBad (rawOf (flashRun s (slotBase s.core.load)) (if s.core.load = LoadSrc.plinth then 4096 else
      12288)) (if s.core.load = LoadSrc.plinth then 4096 else 12288) = true ∧ (¬(s.core.safeReq = true ∨
      s.core.loadQueue = [] ∧ ¬((s.core.load = LoadSrc.slotA ∨ s.core.load = LoadSrc.slotB) ∧ s.core.second =
      false)))) ∧
    (∃ (s : Machine.State), inColdBoot s = true ∧ loading s = true ∧ s.core.load ≠ LoadSrc.host ∧ s.core.streamDone =
      false ∧ headerBad (rawOf (flashRun s (slotBase s.core.load)) (if s.core.load = LoadSrc.plinth then 4096 else
      12288)) (if s.core.load = LoadSrc.plinth then 4096 else 12288) = false ∧ s.core.safeReq = false) ∧
    (∃ (s : Machine.State) (m : Fin 9) (len : BitVec 14), inColdBoot s = true ∧ Reaches s m.val Reg.GLOBAL_HOST_BOOT
      ∧ fbit s Reg.GLOBAL_BOOT_STAT Fld.GLOBAL_BOOT_STAT_WAIT_HOST = true ∧ (len.toNat = 0 ∨ 12288 < len.toNat)) ∧
    (∃ (s : Machine.State) (m : Fin 9) (len : BitVec 14), inColdBoot s = true ∧ Reaches s m.val Reg.GLOBAL_HOST_BOOT
      ∧ fbit s Reg.GLOBAL_BOOT_STAT Fld.GLOBAL_BOOT_STAT_WAIT_HOST = true ∧ (¬(len.toNat = 0 ∨ 12288 < len.toNat))) ∧
    (∃ (s : Machine.State), inColdBoot s = true ∧ s.pending = []) ∧
    (∃ (s : Machine.State) (tmax : Int), mode s ≠ Mode.reset ∧ tmax < 1040) ∧
    (∃ (s : Machine.State) (tmax : Int), mode s ≠ Mode.reset ∧ 1040 ≤ tmax ∧ s.core.thermTrip ≠ Pin.low ∧ ctlStuck s
      = false) ∧
    (∃ (s : Machine.State) (i : Fin 9) (j : Nat), mode s ≠ Mode.reset ∧ bitOf i.val (rgetN s Reg.GLOBAL_CLK_LOCK) =
      true ∧ j < 9) ∧
    (∃ (s : Machine.State) (i : Fin 9), mode s ≠ Mode.reset ∧ bitOf i.val (rgetN s Reg.GLOBAL_CLK_LOCK) = true ∧
      faultSev s Src.clkUnlock ≠ 0) ∧
    (∃ (s : Machine.State) (d : Fin 2) (bad : Bool), bitOf d.val (rgetN s Reg.GLOBAL_BRIDGE_STAT) = true ∧
      (checkFails 6 d.val bad s).1 = true ∧ bridgeRun d.val s = 16) ∧
    (∃ (s : Machine.State) (d : Fin 2) (bad : Bool), bitOf d.val (rgetN s Reg.GLOBAL_BRIDGE_STAT) = true ∧
      (¬(checkFails 6 d.val bad s).1 = true)) ∧
    (∃ (j : Nat), j < 15) :=
  ⟨⟨(bt 1 0 {}), by decide +kernel⟩,
   ⟨dark, by decide +kernel⟩,
   ⟨(heat 0), by decide +kernel⟩,
   ⟨(heat 0xFF00), by decide +kernel⟩,
   ⟨(bt 5 0 { load := .plinth, loadQueue := [] }), by decide +kernel⟩,
   ⟨(bt 5 0 {}), by decide +kernel⟩,
   ⟨(bt 5 0 { load := .host, loadQueue := [] }), by decide +kernel⟩,
   ⟨(bt 5 0 { load := .plinth, loadQueue := [] }), by decide +kernel⟩,
   ⟨(bt 5 0 {}), by decide +kernel⟩,
   ⟨headed, by decide +kernel⟩,
   ⟨(host { load := .host, loadQueue := [.plinth] }), 8, 0, by decide +kernel, ⟨by decide +kernel,
     by decide +kernel⟩, by decide +kernel⟩,
   ⟨(host { load := .host, loadQueue := [.plinth] }), 8, 1, by decide +kernel, ⟨by decide +kernel,
     by decide +kernel⟩, by decide +kernel⟩,
   ⟨(bt 1 0 {}), by decide +kernel⟩,
   ⟨(bt 1 0 {}), 0, by decide +kernel⟩,
   ⟨(bt 1 0 {}), 1040, by decide +kernel⟩,
   ⟨(bt 1 0 {}), 8, 0, by decide +kernel⟩,
   ⟨(bt 1 0 {}), 8, by decide +kernel⟩,
   ⟨(br 16), 0, true, by decide +kernel⟩,
   ⟨(br 0), 1, false, by decide +kernel⟩,
   ⟨0, by decide +kernel⟩⟩
end BootStepsAndSensors

namespace FlashAndVerify
def fl (x : Nat) (o : Option (Nat × Nat)) : Machine.State := { svc 4 g0 [(Reg.IMG_FL_ADDR, BitVec.ofNat 32 x)] with upd := { flashOp := o }, long := { flash := [⟨0x1000000, 5⟩, ⟨0x1000103, 7⟩] } }
def busy : Machine.State := fset (fl 0x1000000 none) Reg.IMG_FL_STAT Fld.IMG_FL_STAT_BUSY 1
def ver (b : Nat) : Machine.State := { svc 4 g0 [] with upd := { verifying := some b } }
/-- The hypotheses of `Obligations.FlashAndVerify` are met together. -/
theorem witness_FlashAndVerify :
    (∃ (s : Machine.State) (m : Fin 9), Reaches s m.val Reg.IMG_FL_CTRL ∧ fbit s Reg.IMG_FL_STAT Fld.IMG_FL_STAT_BUSY
      = true) ∧
    (∃ (s : Machine.State) (m : Fin 9), Reaches s m.val Reg.IMG_FL_CTRL ∧ (¬fbit s Reg.IMG_FL_STAT
      Fld.IMG_FL_STAT_BUSY = true) ∧ (1 ≠ 3 ∧ flashWritable s (fget s Reg.IMG_FL_ADDR Fld.IMG_FL_ADDR_ADDR) = false)) ∧
    (∃ (s : Machine.State) (m : Fin 9), Reaches s m.val Reg.IMG_FL_CTRL ∧ (¬fbit s Reg.IMG_FL_STAT
      Fld.IMG_FL_STAT_BUSY = true) ∧ (¬(1 ≠ 3 ∧ flashWritable s (fget s Reg.IMG_FL_ADDR Fld.IMG_FL_ADDR_ADDR) =
      false))) ∧
    (∃ (s : Machine.State) (m : Fin 9), Reaches s m.val Reg.IMG_FL_CTRL ∧ (¬fbit s Reg.IMG_FL_STAT
      Fld.IMG_FL_STAT_BUSY = true) ∧ (2 ≠ 3 ∧ flashWritable s (fget s Reg.IMG_FL_ADDR Fld.IMG_FL_ADDR_ADDR) = false)) ∧
    (∃ (s : Machine.State) (m : Fin 9), Reaches s m.val Reg.IMG_FL_CTRL ∧ (¬fbit s Reg.IMG_FL_STAT
      Fld.IMG_FL_STAT_BUSY = true) ∧ (¬(2 ≠ 3 ∧ flashWritable s (fget s Reg.IMG_FL_ADDR Fld.IMG_FL_ADDR_ADDR) =
      false))) ∧
    (∃ (s : Machine.State) (m : Fin 9), Reaches s m.val Reg.IMG_FL_CTRL ∧ (¬fbit s Reg.IMG_FL_STAT
      Fld.IMG_FL_STAT_BUSY = true) ∧ (¬(3 ≠ 3 ∧ flashWritable s (fget s Reg.IMG_FL_ADDR Fld.IMG_FL_ADDR_ADDR) =
      false))) ∧
    (∃ (s : Machine.State) (op : Nat) (x : Nat), s.upd.flashOp = some (op, x) ∧ op = 1) ∧
    (∃ (s : Machine.State) (op : Nat) (x : Nat), s.upd.flashOp = some (op, x) ∧ op = 2) ∧
    (∃ (s : Machine.State) (op : Nat) (x : Nat) (i : Nat), s.upd.flashOp = some (op, x) ∧ op = 3 ∧ flashRegion x ≠ 3
      ∧ i < 64) ∧
    (∃ (s : Machine.State) (op : Nat) (x : Nat), s.upd.flashOp = some (op, x) ∧ (op = 1 ∨ op = 2) ∧ (flashRegion x =
      1 ∨ flashRegion x = 2)) ∧
    (∃ (s : Machine.State) (op : Nat) (x : Nat) (y : Nat), s.upd.flashOp = some (op, x) ∧ (op = 1 ∨ op = 2) ∧ y /
      65536 ≠ x / 65536) ∧
    (∃ (s : Machine.State) (m : Fin 9), Reaches s m.val Reg.IMG_UPD_CTRL ∧ updBusy s = true) ∧
    (∃ (s : Machine.State) (m : Fin 9), Reaches s m.val Reg.IMG_UPD_CTRL ∧ (¬updBusy s = true)) ∧
    (∃ (s : Machine.State) (b : Nat), s.upd.verifying = some b ∧ b < 2) :=
  ⟨⟨busy, 8, ⟨by decide +kernel, by decide +kernel⟩, by decide +kernel⟩,
   ⟨(fl 0xFFFFFF none), 8, ⟨by decide +kernel, by decide +kernel⟩, by decide +kernel⟩,
   ⟨(fl 0x1000000 none), 8, ⟨by decide +kernel, by decide +kernel⟩, by decide +kernel⟩,
   ⟨(fl 0xFFFFFF none), 8, ⟨by decide +kernel, by decide +kernel⟩, by decide +kernel⟩,
   ⟨(fl 0x1000000 none), 8, ⟨by decide +kernel, by decide +kernel⟩, by decide +kernel⟩,
   ⟨(fl 0x1000000 none), 8, ⟨by decide +kernel, by decide +kernel⟩, by decide +kernel⟩,
   ⟨(fl 0 (some (1, 0x1000000))), _, _, rfl, by decide +kernel⟩,
   ⟨(fl 0 (some (2, 0x1000000))), _, _, rfl, by decide +kernel⟩,
   ⟨(fl 0 (some (3, 0x1000100))), _, _, 0, rfl, by decide +kernel⟩,
   ⟨(fl 0 (some (1, 0x1000000))), _, _, rfl, by decide +kernel⟩,
   ⟨(fl 0 (some (1, 0x1000000))), _, _, 0, rfl, by decide +kernel⟩,
   ⟨(fl 0 (some (1, 0x1000000))), 8, ⟨by decide +kernel, by decide +kernel⟩, by decide +kernel⟩,
   ⟨(fl 0x1000000 none), 8, ⟨by decide +kernel, by decide +kernel⟩, by decide +kernel⟩,
   ⟨(ver 0), _, rfl, by decide +kernel⟩⟩
end FlashAndVerify

namespace CastAndConfirm
def vf (u : Update) : Machine.State := { svc 3 g0 [(Reg.IMG_UPD_STAT, 0xFFFF0000)] with upd := u, core := { arbHealth := 3 } }
def ver : Machine.State := fset (fset (vf {}) Reg.IMG_UPD_STAT Fld.IMG_UPD_STAT_VERIFIED_B 1) Reg.GLOBAL_MODE Fld.GLOBAL_MODE_SLOT 1
def castF (slot : Nat) (nc back : Bool) : Machine.State :=
  fset { svc 1 g0 [] with upd := { cast := some (slot, nc, back), preloaded := true } } Reg.GLOBAL_MODE Fld.GLOBAL_MODE_CASTFORM 1
/-- The hypotheses of `Obligations.CastAndConfirm` are met together. -/
theorem witness_CastAndConfirm :
    (∃ (s : Machine.State) (m : Fin 9) (b : Bool) (force : Bool), Reaches s m.val Reg.IMG_UPD_CTRL ∧ castCode s (1 +
      b2n b) force = 0) ∧
    (∃ (s : Machine.State) (m : Fin 9) (b : Bool) (force : Bool), Reaches s m.val Reg.IMG_UPD_CTRL ∧ castCode s (1 +
      b2n b) force ≠ 0) ∧
    (∃ (s : Machine.State) (slot : Nat) (nc : Bool) (back : Bool), s.upd.cast = some (slot, nc, back) ∧ inRole s =
      true ∧ s.upd.preloaded = false ∧ back = false) ∧
    (∃ (s : Machine.State) (m : Fin 9), Reaches s m.val Reg.IMG_UPD_CTRL ∧ confirmCode s = 0 ∧ s.long.protect = false
      ∧ s.long.mramBad = []) ∧
    (∃ (s : Machine.State) (m : Fin 9), Reaches s m.val Reg.IMG_UPD_CTRL ∧ (¬confirmCode s = 0)) ∧
    (∃ (s : Machine.State), s.upd.windowOpen = true ∧ inRole s = true ∧ faultSev s Src.fallback ≠ 0) ∧
    (∃ (s : Machine.State) (slot : Nat) (nc : Bool) (back : Bool), s.upd.cast = some (slot, nc, back) ∧ inRole s =
      true ∧ s.upd.preloaded = true) ∧
    (∃ (s : Machine.State) (slot : Nat) (nc : Bool) (back : Bool), s.upd.cast = some (slot, nc, back) ∧ inCast s =
      true ∧ Memory.wf s) :=
  ⟨⟨ver, 8, true, true, ⟨by decide +kernel, by decide +kernel⟩, by decide +kernel⟩,
   ⟨ver, 8, false, true, ⟨by decide +kernel, by decide +kernel⟩, by decide +kernel⟩,
   ⟨(vf { cast := some (2, false, false) }), _, _, _, rfl, by decide +kernel⟩,
   ⟨ver, 8, ⟨by decide +kernel, by decide +kernel⟩, by decide +kernel⟩,
   ⟨(vf { windowOpen := true, previous := 1 }), 8, ⟨by decide +kernel, by decide +kernel⟩, by decide +kernel⟩,
   ⟨(vf { windowOpen := true, previous := 1 }), by decide +kernel⟩,
   ⟨(vf { cast := some (2, false, false), preloaded := true }), _, _, _, rfl, by decide +kernel⟩,
   ⟨(castF 2 false false), _, _, _, rfl, by decide +kernel⟩⟩
end CastAndConfirm

namespace SettingsAndReadBack
def st (md len : Nat) (u : Update) : Machine.State := { svc md g0 [(Reg.IMG_SET_LEN, BitVec.ofNat 32 len), (Reg.IMG_SET_FMT, 7)] with upd := u, long := { settings := [{ kind := 0, key := 5, fmt := 7, seq := 0, data := [1, 2, 3] }, { kind := 1, key := 6, fmt := 7, seq := 1 }], setSeq := 2 } }
def busy : Machine.State := fset (st 4 0 {}) Reg.IMG_SET_STAT Fld.IMG_SET_STAT_BUSY 1
/-- The hypotheses of `Obligations.SettingsAndReadBack` are met together. -/
theorem witness_SettingsAndReadBack :
    (∃ (s : Machine.State) (m : Fin 9), Reaches s m.val Reg.IMG_SET_CTRL ∧ fbit s Reg.IMG_SET_STAT
      Fld.IMG_SET_STAT_BUSY = true) ∧
    (∃ (s : Machine.State) (m : Fin 9), Reaches s m.val Reg.IMG_SET_CTRL ∧ (¬fbit s Reg.IMG_SET_STAT
      Fld.IMG_SET_STAT_BUSY = true) ∧ mode s = Mode.boot) ∧
    (∃ (s : Machine.State) (m : Fin 9), Reaches s m.val Reg.IMG_SET_CTRL ∧ (¬fbit s Reg.IMG_SET_STAT
      Fld.IMG_SET_STAT_BUSY = true) ∧ (¬mode s = Mode.boot) ∧ (mode s = Mode.safe ∧ 1 ≠ 2)) ∧
    (∃ (s : Machine.State) (m : Fin 9), Reaches s m.val Reg.IMG_SET_CTRL ∧ (¬fbit s Reg.IMG_SET_STAT
      Fld.IMG_SET_STAT_BUSY = true) ∧ (¬mode s = Mode.boot) ∧ (¬(mode s = Mode.safe ∧ 1 ≠ 2)) ∧ (1 = 1 ∧ 4064 < fget
      s Reg.IMG_SET_LEN Fld.IMG_SET_LEN_LEN)) ∧
    (∃ (s : Machine.State) (m : Fin 9) (key : BitVec 16), Reaches s m.val Reg.IMG_SET_CTRL ∧ (¬fbit s
      Reg.IMG_SET_STAT Fld.IMG_SET_STAT_BUSY = true) ∧ (¬mode s = Mode.boot) ∧ (¬(mode s = Mode.safe ∧ 1 ≠ 2)) ∧ (¬(1
      = 1 ∧ 4064 < fget s Reg.IMG_SET_LEN Fld.IMG_SET_LEN_LEN)) ∧ (1 ≠ 2 ∧ key = 65535)) ∧
    (∃ (s : Machine.State) (m : Fin 9) (key : BitVec 16), Reaches s m.val Reg.IMG_SET_CTRL ∧ (¬fbit s
      Reg.IMG_SET_STAT Fld.IMG_SET_STAT_BUSY = true) ∧ (¬mode s = Mode.boot) ∧ (¬(mode s = Mode.safe ∧ 1 ≠ 2)) ∧ (¬(1
      = 1 ∧ 4064 < fget s Reg.IMG_SET_LEN Fld.IMG_SET_LEN_LEN)) ∧ (¬(1 ≠ 2 ∧ key = 65535))) ∧
    (∃ (s : Machine.State) (m : Fin 9) (key : BitVec 16), Reaches s m.val Reg.IMG_SET_CTRL ∧ (¬fbit s
      Reg.IMG_SET_STAT Fld.IMG_SET_STAT_BUSY = true) ∧ (¬mode s = Mode.boot) ∧ (¬(mode s = Mode.safe ∧ 2 ≠ 2)) ∧ (¬(2
      = 1 ∧ 4064 < fget s Reg.IMG_SET_LEN Fld.IMG_SET_LEN_LEN)) ∧ (¬(2 ≠ 2 ∧ key = 65535))) ∧
    (∃ (s : Machine.State) (m : Fin 9), Reaches s m.val Reg.IMG_SET_CTRL ∧ (¬fbit s Reg.IMG_SET_STAT
      Fld.IMG_SET_STAT_BUSY = true) ∧ (¬mode s = Mode.boot) ∧ (mode s = Mode.safe ∧ 3 ≠ 2)) ∧
    (∃ (s : Machine.State) (m : Fin 9) (key : BitVec 16), Reaches s m.val Reg.IMG_SET_CTRL ∧ (¬fbit s
      Reg.IMG_SET_STAT Fld.IMG_SET_STAT_BUSY = true) ∧ (¬mode s = Mode.boot) ∧ (¬(mode s = Mode.safe ∧ 3 ≠ 2)) ∧ (¬(3
      = 1 ∧ 4064 < fget s Reg.IMG_SET_LEN Fld.IMG_SET_LEN_LEN)) ∧ (3 ≠ 2 ∧ key = 65535)) ∧
    (∃ (s : Machine.State) (m : Fin 9) (key : BitVec 16), Reaches s m.val Reg.IMG_SET_CTRL ∧ (¬fbit s
      Reg.IMG_SET_STAT Fld.IMG_SET_STAT_BUSY = true) ∧ (¬mode s = Mode.boot) ∧ (¬(mode s = Mode.safe ∧ 3 ≠ 2)) ∧ (¬(3
      = 1 ∧ 4064 < fget s Reg.IMG_SET_LEN Fld.IMG_SET_LEN_LEN)) ∧ (¬(3 ≠ 2 ∧ key = 65535))) ∧
    (∃ (s : Machine.State) (m : Fin 9), Reaches s m.val Reg.IMG_SET_DATA) ∧
    (∃ (s : Machine.State) (op : Nat) (key : Nat), s.upd.setOp = some (op, key) ∧ op = 2) ∧
    (∃ (s : Machine.State) (op : Nat) (key : Nat), s.upd.setOp = some (op, key) ∧ op = 1) ∧
    (∃ (s : Machine.State) (m : Fin 9) (k : Nat), Reaches s m.val Reg.IMG_RB_DATA ∧ k ≠ 2 * m.val) ∧
    (∃ (s : Machine.State) (m : Fin 9), Reaches s m.val Reg.IMG_RB_DATA ∧ fbit s Reg.IMG_ACT_INFO
      Fld.IMG_ACT_INFO_VALID = false) :=
  ⟨⟨busy, 8, ⟨by decide +kernel, by decide +kernel⟩, by decide +kernel⟩,
   ⟨(st 1 0 {}), 8, ⟨by decide +kernel, by decide +kernel⟩, by decide +kernel⟩,
   ⟨(st 2 0 {}), 8, ⟨by decide +kernel, by decide +kernel⟩, by decide +kernel⟩,
   ⟨(st 4 4065 {}), 8, ⟨by decide +kernel, by decide +kernel⟩, by decide +kernel⟩,
   ⟨(st 4 4064 {}), 8, 65535, ⟨by decide +kernel, by decide +kernel⟩, by decide +kernel⟩,
   ⟨(st 4 4064 {}), 8, 0, ⟨by decide +kernel, by decide +kernel⟩, by decide +kernel⟩,
   ⟨(st 4 4065 {}), 8, 0, ⟨by decide +kernel, by decide +kernel⟩, by decide +kernel⟩,
   ⟨(st 2 0 {}), 8, ⟨by decide +kernel, by decide +kernel⟩, by decide +kernel⟩,
   ⟨(st 4 4065 {}), 8, 65535, ⟨by decide +kernel, by decide +kernel⟩, by decide +kernel⟩,
   ⟨(st 4 4065 {}), 8, 0, ⟨by decide +kernel, by decide +kernel⟩, by decide +kernel⟩,
   ⟨(st 4 4065 {}), 8, ⟨by decide +kernel, by decide +kernel⟩⟩,
   ⟨(st 4 0 { setOp := some (2, 5) }), _, _, rfl, by decide +kernel⟩,
   ⟨(st 4 8 { setOp := some (1, 5), setBuf := [(0, 0x04030201)] }), _, _, rfl, by decide +kernel⟩,
   ⟨(st 4 4065 {}), 8, 0, ⟨by decide +kernel, by decide +kernel⟩, by decide +kernel⟩,
   ⟨(st 4 4065 {}), 8, ⟨by decide +kernel, by decide +kernel⟩, by decide +kernel⟩⟩
end SettingsAndReadBack

namespace HostRegisterAccesses
def held : Machine.State := { svc 4 g0 [] with fab := { held := [{ master := 0, write := true, addr := Reg.TIME_OT_CTRL, data := 1 }] } }
def pair (md l : Nat) : Machine.State := fset (svc md g0 [(Reg.PAIR_CTRL, 1)]) Reg.PAIR_STAT Fld.PAIR_STAT_LINK l
def clr : Machine.State := svc 4 g0 [(Reg.XP_TAKE_STAT, 0x1F), (Reg.XP_TAKE_REFUSE_COUNT, 0xFFFFFFFF), (Reg.AUD_SC_LO, 5), (Reg.AUD_SC_HI, 7)]
def outs : Machine.State := { svc 4 g0 [(Reg.FABRIC_OUTST 3, 1)] with fab := { issued := [⟨3, false, 20⟩, ⟨4, true, 24⟩] } }
/-- The hypotheses of `Obligations.HostRegisterAccesses` are met together. -/
theorem witness_HostRegisterAccesses :
    (∃ (s : Machine.State) (m : Fin 9) (a : BitVec 26), Reaches s m.val a.toNat ∧ a.toNat % 4 = 0) ∧
    (∃ (s : Machine.State) (m : Fin 9) (a : BitVec 26) (len : Fin 257), linkGate s m.val (blockPort a.toNat) = none ∧
      holdCause s s.fab.held m.val true (blockPort a.toNat) = none ∧ (¬(len.val = 4 ∧ a.toNat % 4 = 0)) ∧ (¬(len.val
      = 8 ∧ a.toNat % 8 = 0))) ∧
    (∃ (s : Machine.State) (m : Fin 9), Reaches s m.val Reg.XP_TAKE_REFUSE_COUNT ∧ s.fab.latches = []) ∧
    (∃ (s : Machine.State) (m : Fin 9), Reaches s m.val Reg.XP_TAKE_STAT) ∧
    (∃ (s : Machine.State) (q : BitVec 20), inService s = true ∧ bar2Gate s true (128 * q.toNat + 48) true =
      Gate.pass ∧ qNamed s q.toNat = true ∧ s.test.inj = none) ∧
    (∃ (s : Machine.State) (m : Fin 9), Reaches s m.val Reg.AUD_SC_LO ∧ s.fab.latches = []) ∧
    (∃ (s : Machine.State) (r : HeldReq), s.fab.held = [r] ∧ s.fab.i2cPending = none ∧ r.port = 0 ∧ r.write = true ∧
      r.bad = false ∧ Reaches (grantTo (targetOf r) r.master
      { pending := s.pending, regs := s.regs, core := s.core, long := s.long, pat := s.pat, fab := have __src := s.fab; { config := __src.config, msixEnable := __src.msixEnable, msixMask := __src.msixMask, hung := __src.hung, issued := __src.issued, granted := __src.granted, latches := __src.latches, perMaster := __src.perMaster, mgmtAddr := __src.mgmtAddr, i2cStatus := __src.i2cStatus, i2cData := __src.i2cData, i2cPending := __src.i2cPending }, test := s.test, img := s.img, upd := s.upd, xp := s.xp, vl := s.vl, q := s.q, eng := s.eng, comp := s.comp, flow := s.flow, aud := s.aud, mac := s.mac, ref := s.ref, time := s.time, pair := s.pair, out := s.out, fresh := s.fresh })
      r.master r.addr) ∧
    (∃ (s : Machine.State) (port : Fin 30), port ≠ 0 ∧ s.fab.held = [] ∧ s.fab.i2cPending = none) ∧
    (∃ (s : Machine.State) (m : Fin 9) (w : Bool) (port : Fin 30), s.fab.held = [] ∧ s.fab.issued.contains
      { master := m.val, write := w, port := port.val } = true) ∧
    (∃ (s : Machine.State) (params : List Byte), s.fab.i2cPending = none ∧ m8Reach s = true ∧ i2cParam params 0 % 4 =
      0 ∧ Reaches s 8 (i2cParam params 0) ∧ 4 ≤ params.length) ∧
    (∃ (s : Machine.State) (params : List Byte), s.fab.i2cPending = none ∧ m8Reach s = true ∧ i2cParam params 0 % 4 =
      0 ∧ Reaches s 8 (i2cParam params 0) ∧ 8 ≤ params.length) ∧
    (∃ (m : Fin 9) (a : BitVec 26) (s : Machine.State), gate s m.val true a.toNat = Gate.pass ∧ a.toNat % 4 = 0 ∧
      mirroredReg a.toNat = true ∧ m ≠ 2 ∧ pairInUse s = true ∧ mode s = Mode.standby) ∧
    (∃ (m : Fin 9) (a : BitVec 26) (s : Machine.State), gate s m.val true a.toNat = Gate.pass ∧ a.toNat % 4 = 0 ∧
      mirroredReg a.toNat = true ∧ m ≠ 2 ∧ pairInUse s = true ∧ mode s = Mode.active ∧ linkState s = 5) ∧
    (∃ (m : Fin 9) (a : BitVec 26) (s : Machine.State), gate s m.val true a.toNat = Gate.pass ∧ a.toNat % 4 = 0 ∧
      mirroredReg a.toNat = true ∧ (m = 2 ∨ pairInUse s = false ∨ mode s = Mode.active ∧ linkState s ≠ 5)) :=
  ⟨⟨clr, 8, 0, ⟨by decide +kernel, by decide +kernel⟩, by decide +kernel⟩,
   ⟨clr, 8, 0, 256, by decide +kernel⟩,
   ⟨clr, 8, ⟨by decide +kernel, by decide +kernel⟩, by decide +kernel⟩,
   ⟨clr, 8, ⟨by decide +kernel, by decide +kernel⟩⟩,
   ⟨clr, 0, by decide +kernel⟩,
   ⟨clr, 8, ⟨by decide +kernel, by decide +kernel⟩, by decide +kernel⟩,
   ⟨held, _, rfl, by decide +kernel, by decide +kernel, by decide +kernel, by decide +kernel, ⟨by decide +kernel,
     by decide +kernel⟩⟩,
   ⟨clr, 29, by decide +kernel⟩,
   ⟨outs, 4, true, 24, by decide +kernel⟩,
   ⟨clr, [0, 0, 0, 0], by decide +kernel, by decide +kernel, by decide +kernel, ⟨by decide +kernel,
     by decide +kernel⟩, by decide +kernel⟩,
   ⟨clr, [0, 0, 0, 0, 1, 2, 3, 4], by decide +kernel, by decide +kernel, by decide +kernel, ⟨by decide +kernel,
     by decide +kernel⟩, by decide +kernel⟩,
   ⟨8, 36175872, (pair 3 5), by decide +kernel⟩,
   ⟨8, 36175872, (pair 4 5), by decide +kernel⟩,
   ⟨8, 36175872, clr, by decide +kernel⟩⟩
end HostRegisterAccesses

end Sys2Proof.Tests
end

section
/-! PROOF. O60, register accesses of every master: refuted. A request that the matrix makes later is made within a cycle of
the matrix (R476), at whose end no refusal of the cycle stands captured (03 R76); the write by itself would leave a capture
of before as it was. -/

namespace Sys2Proof.Proofs.HostRegisterAccesses

open Sys2Proof Sys2Proof.Machine

/-- A cycle that lies within no other ends with no refusal captured, whatever it did. -/
theorem cycleEnd_refusal {s : State} (h : s.core.vecs = none) (t : State) : (cycleEnd s t).core.refusal = none := by
  simp [cycleEnd, h]

/-- FABRIC_REQUEST_ADMIT is such a cycle. -/
theorem fabricRequestAdmit_refusal {s t : State} {done : List (Fin 9 × Bool × Fin 30)}
    {arrivals : List (Fin 9 × Bool × Fin 30 × BitVec 26 × Word)} (h : s.core.vecs = none)
    (ht : exec (.fabricRequestAdmit done arrivals) s = .next t) : t.core.refusal = none := by
  cases ht
  exact cycleEnd_refusal h _

/-- A write of FAULT_VEC is a plain write: it leaves the captures and everything else that is no register. -/
theorem regWrite_faultVec {m g : Nat} {w : Word} {s : State} (hg : g < 48) :
    regWrite m (Reg.FAULT_VEC g) w s = plainWrite (Reg.FAULT_VEC g) w s := by
  have hb : blockOf (Reg.FAULT_VEC g) = .fault := by
    unfold blockOf Reg.FAULT_VEC
    rw [if_neg (by omega), if_pos (by omega)]
  unfold regWrite
  simp only [hb]
  unfold faultWrite Reg.FAULT_VEC
  rw [if_neg (by omega), if_neg (by omega)]

/-- M8 writes 1 to the vector register of fault group 0. -/
def heldWrite : HeldReq := { master := 8, write := true, addr := Reg.FAULT_VEC 0, data := 1 }

/-- In BOOT with the ctl clock locked: the write waits in the matrix, and between two cycles the capture of an earlier
refusal, of M0 at FAULT_SEV 0, still stands. -/
def capturedState : State :=
  { regs := [(Reg.GLOBAL_CLK_LOCK, 1)], core := { refusal := some (0, Reg.FAULT_SEV 0) }, fab := { held := [heldWrite] } }

/-- The state in which the matrix makes the write. -/
def grantedState : State :=
  grantTo (targetOf heldWrite) heldWrite.master { capturedState with fab := { capturedState.fab with held := [] } }

/-- Nothing holds the write back any more. -/
theorem heldWrite_reaches : Reaches grantedState heldWrite.master heldWrite.addr :=
  ⟨by decide +kernel, .inr (.inl (by decide +kernel))⟩

/-- Refutes O60 by its clause on a request held that is made later: with `heldWrite` waiting in `capturedState`, the state
after the cycle has no refusal captured, while the state that the clause names keeps the capture. -/
theorem not_hostRegisterAccesses : ¬ Obligations.HostRegisterAccesses := by
  unfold Obligations.HostRegisterAccesses
  intro h
  obtain ⟨accesses, -⟩ := h
  obtain ⟨-, -, -, -, -, -, heldMade, -⟩ := accesses capturedState
  obtain ⟨t, ht, hw⟩ := heldMade heldWrite rfl rfl rfl rfl rfl heldWrite_reaches
  have hnone : t.core.refusal = none := fabricRequestAdmit_refusal rfl ht
  have hkept : t = plainWrite (Reg.FAULT_VEC 0) 1 grantedState := hw.trans (regWrite_faultVec (by decide))
  have hsome : t.core.refusal = some (0, Reg.FAULT_SEV 0) := by rw [hkept]; rfl
  rw [hnone] at hsome
  cases hsome

end Sys2Proof.Proofs.HostRegisterAccesses
end

section
/-! PROOF. O3 and O4: the state right after power-on, and the blocks that BOOT and SAFE do not list. -/

namespace Sys2Proof.Proofs.BootBlocks

open Sys2Proof.Machine Sys2Proof.Laws

/-- The register file of the reset state lists GLOBAL_RESET_CAUSE and PAT_STAT alone; every other register reads its
reset value. -/
theorem regsAtReset_reset : RegsAtReset State.reset := by
  refine ⟨by decide +kernel, fun a hcause hstat => ?_⟩
  show mapGet regDefault [(Reg.GLOBAL_RESET_CAUSE, 1), (Reg.PAT_STAT, 1)] a = regDefault a
  simp only [mapGet, if_neg (Ne.symm hcause), if_neg (Ne.symm hstat)]

/-- Settles O3: the reset state is a literal, so each part is read off it; the registers are those of
`regsAtReset_reset`. -/
theorem resetState : Obligations.ResetState := by
  unfold Obligations.ResetState
  refine ⟨rfl, rfl, ?_, ?_, regsAtReset_reset, ?_, ⟨rfl, rfl, rfl, rfl⟩, ?_, fun _ => ⟨rfl, rfl⟩⟩
  · decide +kernel
  · decide +kernel
  · decide +kernel
  · intro op x h
    cases h

/-- The blocks that are neither listed for BOOT and SAFE, nor a gap, nor beyond BAR0. -/
theorem bootBlock_unlisted {b : Block} (h : b ∉ [.global, .fault, .patina, .img, .fabric, .pinctl, .msix]) :
    bootBlock b = false := by
  cases b <;> simp [bootBlock] at h ⊢

theorem inService_boot_safe {s : State} (h : mode s = .boot ∨ mode s = .safe) : inService s = false := by
  rcases h with h | h <;> simp [inService, h]

variable {m : Fin 9} {a : Nat} {s : State}

/-- 02 R26: outside service an access that nothing holds back finds a block that Table 2.1 does not list silent. -/
theorem gate_silent {w : Bool} (hs : inService s = false) (hl : linkGate s m (blockPort a) = none)
    (hh : holdCause s s.fab.held m w (blockPort a) = none) (hgap : blockOf a ≠ .gap) (hbeyond : blockOf a ≠ .beyond)
    (hb : bootBlock (blockOf a) = false) : gate s m w a = .silent := by
  simp [gate, hl, hh, hgap, hbeyond, answers, hs, hb]

theorem hostWrite_silent (h : gate s m true a = .silent) (w : Word) (eff : State → State) : hostWrite m a w eff s = s := by
  simp [hostWrite, h]
theorem hostRead_silent (h : gate s m false a = .silent) (eff : State → Nat × State) :
    hostRead m a eff s = emit s (.readData m a 0) := by
  simp [hostRead, h]

/-- An aligned access of four bytes is one word's. -/
theorem accessWrite_word (hl : linkGate s m (blockPort a) = none) (ha : a % 4 = 0) (d : BitVec 64) :
    accessWrite m a 4 d s = writeWord m a (d.extractLsb' 0 32) s := by
  simp [accessWrite, hl, ha]
theorem accessRead_word (hl : linkGate s m (blockPort a) = none) (ha : a % 4 = 0) :
    accessRead m a 4 s = readWord m a s := by
  simp [accessRead, hl, ha]

/-- Settles O4: such an access meets the gate `silent`, for a write and for a read, whatever the block would have done. -/
theorem silentBlocks : Obligations.SilentBlocks := by
  unfold Obligations.SilentBlocks
  intro m a s hmode hl hh hgap hbeyond hb
  have hsilent (w : Bool) : gate s m w a = .silent :=
    gate_silent (inService_boot_safe hmode) hl (hh w) hgap hbeyond (bootBlock_unlisted hb)
  refine ⟨fun w eff => hostWrite_silent (hsilent true) w eff, fun eff => hostRead_silent (hsilent false) eff,
    fun w halign hlt => ?_⟩
  have ha : (BitVec.ofNat 26 a).toNat = a := by rw [BitVec.toNat_ofNat, Nat.mod_eq_of_lt hlt]
  constructor
  · refine ⟨_, rfl, ?_⟩
    show accessWrite m (BitVec.ofNat 26 a).toNat 4 _ s = s
    rw [ha, accessWrite_word hl halign]
    exact hostWrite_silent (hsilent true) ..
  · refine ⟨_, rfl, ?_⟩
    show accessRead m (BitVec.ofNat 26 a).toNat 4 s = _
    rw [ha, accessRead_word hl halign]
    exact hostRead_silent (hsilent false) ..

end Sys2Proof.Proofs.BootBlocks
end

section
/-! PROOF. What leaves the boot sequencer alone: for each operation of the model that the boot calls on the way, that it
writes no register of the GLOBAL block and none of the core's part of the boot. -/


set_option Elab.async false

namespace Sys2Proof.Proofs.BootSteady

open Sys2Proof.Machine Sys2Proof.Laws

/-- The core's part that the boot sequencer stands on: straps and filtered pins, the load attempt, a SAFE request, the
thermal trip, the die bridge. -/
def bootCtl (c : Core) : Nat × BitVec 15 × (LoadSrc × Bool × List LoadSrc × Bool) × Pin × Nat × Nat :=
  (c.modeSel, c.filtered, (c.load, c.safeReq, c.loadQueue, c.second), c.thermTrip, c.bridgeN2S, c.bridgeS2N)

/-- From s to t neither a register of the GLOBAL block nor the core's part of the boot has changed. -/
structure Steady (s t : State) : Prop where
  regs : OnlyRegs (0x100000 ≤ ·) s t
  ctl : bootCtl t.core = bootCtl s.core

variable {s t u : State}

protected theorem Steady.refl (s : State) : Steady s s := ⟨OnlyRegs.refl _ s, rfl⟩

/-- A register of another block. -/
theorem above_base {n k : Nat} (h : 0x100000 ≤ n) : 0x100000 ≤ n + k := Nat.le_add_right_of_le h

/-- Anything that leaves the register file and the core's part alone. -/
protected theorem Steady.upd {pending regs core long pat fab test img upd xp vl q eng comp flow aud mac ref time pair out fresh}
    (hr : regs = t.regs) (hc : bootCtl core = bootCtl t.core) (h : Steady s t) :
    Steady s (State.mk pending regs core long pat fab test img upd xp vl q eng comp flow aud mac ref time pair out fresh) :=
  ⟨h.regs.same hr, hc.trans h.ctl⟩
protected theorem Steady.rset {a : Nat} {w : Word} (h : Steady s t)
    (ha : 0x100000 ≤ a := by (repeat refine above_base ?_); decide) :
    Steady s (rset t a w) := ⟨h.regs.rset ha, h.ctl⟩
protected theorem Steady.rsetN {a n : Nat} (h : Steady s t)
    (ha : 0x100000 ≤ a := by (repeat refine above_base ?_); decide) :
    Steady s (rsetN t a n) := h.rset ha
protected theorem Steady.fset {a v : Nat} {f : FieldRow} (h : Steady s t)
    (ha : 0x100000 ≤ a := by (repeat refine above_base ?_); decide) :
    Steady s (fset t a f v) := h.rset ha
protected theorem Steady.count {a : Nat} (h : Steady s t)
    (ha : 0x100000 ≤ a := by (repeat refine above_base ?_); decide) :
    Steady s (count t a) := h.rset ha
protected theorem Steady.emit {o : Output} (h : Steady s t) : Steady s (emit t o) := ⟨h.regs.emit, by rw [emit_core]; exact h.ctl⟩
/-- A frame that names neither the registers nor the core. -/
protected theorem Steady.quiet {w : List Area} (hw : Within w t u) (h : Steady s t)
    (hr : Area.regs ∉ w := by decide) (hc : Area.core ∉ w := by decide) : Steady s u :=
  ⟨h.regs.same (hw.part .regs hr), (congrArg bootCtl (hw.part .core hc)).trans h.ctl⟩

protected theorem Steady.ite {c : Prop} [Decidable c] (ht : Steady s t) (hu : Steady s u) :
    Steady s (if c then t else u) := by
  split <;> assumption
protected theorem Steady.iteFst {α : Type} {c : Prop} [Decidable c] {a b : State × α} (ha : Steady s a.1)
    (hb : Steady s b.1) : Steady s (if c then a else b).1 := by
  split <;> assumption
protected theorem Steady.foldl {α : Type} {g : State → α → State} {l : List α} (h : Steady s t)
    (hg : ∀ v x, Steady s v → Steady s (g v x)) : Steady s (l.foldl g t) := by
  induction l generalizing t with
  | nil => exact h
  | cons x l ih => exact ih (hg t x h)
protected theorem Steady.foldlFst {α β : Type} {g : State × β → α → State × β} {l : List α} {r : State × β}
    (h : Steady s r.1) (hg : ∀ v x, Steady s v.1 → Steady s (g v x).1) : Steady s (l.foldl g r).1 := by
  induction l generalizing r with
  | nil => exact h
  | cons x l ih => exact ih (hg r x h)

/-! ### Raises, refusals, conditions, plain writes -/

protected theorem Steady.sendMsix {v} (h : Steady s t) : Steady s (sendMsix v t) := by
  unfold Machine.sendMsix
  exact .ite h (.ite (.rsetN h) (.emit h))
protected theorem Steady.refreshHealth (h : Steady s t) : Steady s (refreshHealth t) := by
  unfold Machine.refreshHealth
  exact .upd rfl rfl (.fset (.fset h))
protected theorem Steady.refreshPins (h : Steady s t) : Steady s (refreshPins t) := by
  unfold Machine.refreshPins
  exact .refreshHealth (.upd rfl rfl (.fset (.fset (.fset (.rsetN h)))))
protected theorem Steady.groupVector {g} (h : Steady s t) : Steady s (groupVector g t) := by
  unfold Machine.groupVector
  split
  · exact .sendMsix h
  · exact .ite h (.sendMsix (.upd rfl rfl h))
protected theorem Steady.raiseCounted {n} (h : Steady s t) : Steady s (raiseCounted n t) := by
  unfold Machine.raiseCounted
  exact .ite (.groupVector (.refreshPins (.fset (.fset (.count (.count (.rsetN h)))))))
    (.refreshPins (.fset (.fset (.count (.count (.rsetN h))))))
protected theorem Steady.raiseNoRecord {n} (h : Steady s t) : Steady s (raiseNoRecord n t) := by
  unfold Machine.raiseNoRecord
  exact .ite h (.raiseCounted h)
protected theorem Steady.queueRec {r} (h : Steady s t) : Steady s (queueRec r t) := by
  unfold Machine.queueRec
  exact .ite h (.ite (.upd rfl rfl h) (.ite (.raiseNoRecord (.upd rfl rfl (.count h))) (.upd rfl rfl (.fset h))))
protected theorem Steady.logEvent {e l} (h : Steady s t) : Steady s (logEvent e l t) := .queueRec h
protected theorem Steady.cycleBegin (h : Steady s t) : Steady s (cycleBegin t) := .upd rfl rfl h
protected theorem Steady.cycleEnd (h : Steady s t) : Steady s (cycleEnd u t) := by
  unfold Machine.cycleEnd
  exact .ite (.upd rfl rfl h) h
protected theorem Steady.raise {n l} (h : Steady s t) : Steady s (raise n l t) := by
  have counted : Steady s (raiseCounted n (Machine.cycleBegin t)) := .raiseCounted (.cycleBegin h)
  unfold Machine.raise
  exact .ite h (.cycleEnd (.ite (.queueRec counted) counted))
protected theorem Steady.refuse {m r i a} (h : Steady s t) : Steady s (refuse m r i a t) := by
  unfold Machine.refuse
  exact .raise (.count (.ite h (.ite (.upd rfl rfl (.rsetN (.rsetN (.fset (.fset (.fset h))))))
    (.rsetN (.rsetN (.fset (.fset (.fset h))))))))
protected theorem Steady.condBegin {n l} (h : Steady s t) : Steady s (condBegin n l t) := by
  unfold Machine.condBegin
  exact .ite h (.raise (.upd rfl rfl h))
protected theorem Steady.condEnd {n} (h : Steady s t) : Steady s (condEnd n t) := .upd rfl rfl h
protected theorem Steady.condSet {n b l} (h : Steady s t) : Steady s (condSet n b l t) := by
  unfold Machine.condSet
  exact .ite (.condBegin h) (.condEnd h)
protected theorem Steady.markDirty {k} (h : Steady s t) : Steady s (markDirty k t) := by
  unfold Machine.markDirty Machine.setBacklog
  exact .ite (.rsetN (.upd rfl rfl h)) h
protected theorem Steady.plainWrite {a w} (h : Steady s t)
    (ha : 0x100000 ≤ a := by (repeat refine above_base ?_); decide) :
    Steady s (plainWrite a w t) := .rsetN h ha

/-! ### The memories and the test facilities -/

protected theorem Steady.mramReport {c n} (h : Steady s t) : Steady s (mramReport c n t) := by
  unfold Machine.mramReport
  exact .foldl (.foldl h fun _ _ k => .raise (.count k)) fun _ _ k => .raise (.count k)
protected theorem Steady.mramScan {x n} (h : Steady s t) : Steady s (mramScan x n t) :=
  .mramReport (.quiet (mramHeal_within ..) h)
protected theorem Steady.refreshInj (h : Steady s t) : Steady s (refreshInj t) := by
  unfold Machine.refreshInj
  split <;> exact .fset (.fset h)
protected theorem Steady.injEnd {c} (h : Steady s t) : Steady s (injEnd c t) := by
  unfold Machine.injEnd
  split
  · exact h
  · exact .logEvent (.refreshInj (.upd rfl rfl h))
protected theorem Steady.observe {c i} (h : Steady s t) : Steady s (observe c i t).2 := by
  unfold Machine.observe
  split
  · exact h
  · split
    · exact .ite (.injEnd (.count (.refreshInj (.upd rfl rfl h)))) (.count (.refreshInj (.upd rfl rfl h)))
    · exact h
protected theorem Steady.clearPert (h : Steady s t) : Steady s (clearPert t) := by
  unfold Machine.clearPert Machine.refreshPert pertRegs
  exact .condSet (.fset (.upd rfl rfl (.rset (.rset (.rset (.rset (.rset h)))))))
protected theorem Steady.leaveTest (h : Steady s t) : Steady s (leaveTest t) := by
  have disarmed : Steady s (if injOk t then t else Machine.injEnd 2 t) := .ite h (.injEnd h)
  unfold Machine.leaveTest
  exact .fset (.fset (.ite disarmed (.clearPert disarmed)))

/-! ### The audio matrix (13) -/

protected theorem Steady.audFlag {f} (h : Steady s t) : Steady s (audFlag f t) := .fset h
protected theorem Steady.audPiWrite {m n} (h : Steady s t) : Steady s (audPiWrite m n t) := by
  unfold Machine.audPiWrite
  exact .ite (.audFlag h) (.ite h (.ite (.raise (.audFlag h)) (.ite (.upd rfl rfl (.fset h)) (.fset h))))
protected theorem Steady.audRingWrite {m n w} (h : Steady s t) : Steady s (audRingWrite m n w t) := by
  unfold Machine.audRingWrite
  exact .ite (.audFlag h) (.ite (.audFlag h) (.rset h))
protected theorem Steady.audReport {a b c d} (h : Steady s t) : Steady s (audReport a b c d t) := by
  unfold Machine.audReport
  exact .raise (.count (.fset (.fset (.audFlag h))))
protected theorem Steady.audFree (h : Steady s t) : Steady s (audFree t) := .fset (.upd rfl rfl h)
protected theorem Steady.audTakeCtrlWrite {m w} (h : Steady s t) : Steady s (audTakeCtrlWrite m w t) := by
  unfold Machine.audTakeCtrlWrite Machine.audAbandon
  exact .ite (.plainWrite h) (.ite (.ite (.plainWrite h) (.audFree (.quiet (audAbsorb_within _)
    (.audReport (.upd rfl rfl (.plainWrite h)))))) (.audFlag (.plainWrite h)))
protected theorem Steady.meterWrite {a w} (ha : 0x100000 ≤ a) (h : Steady s t) : Steady s (meterWrite a w t) := by
  have written : Steady s (Machine.plainWrite a w t) := .plainWrite h ha
  have clamped {c : Prop} [Decidable c] {f v} :
      Steady s (if c then Machine.fset (Machine.plainWrite a w t) a f v else Machine.plainWrite a w t) :=
    .ite (.fset written ha) written
  unfold Machine.meterWrite
  exact .ite (.ite clamped (.rsetN (.quiet (setMeter_within ..) clamped)))
    (.ite (.ite (.quiet (setMeter_within ..) written) written) written)
protected theorem Steady.mixWrite {m a w} (ha : 0x100000 ≤ a) (h : Steady s t) : Steady s (mixWrite m a w t) := by
  unfold Machine.mixWrite
  exact .ite (.refuse h) (.ite h (.markDirty (.rset h ha)))
protected theorem Steady.toneWrite {a w} (ha : 0x100000 ≤ a) (h : Steady s t) : Steady s (toneWrite a w t) := by
  unfold Machine.toneWrite
  exact .ite (.upd rfl rfl (.plainWrite h ha)) (.plainWrite h ha)
protected theorem Steady.audWrite {m a w} (ha : 0x100000 ≤ a) (h : Steady s t) : Steady s (audWrite m a w t) := by
  unfold Machine.audWrite
  exact .ite (.refuse h) (.ite (.audRingWrite h) (.ite (.audPiWrite h) (.ite (.audTakeCtrlWrite h)
    (.ite (.mixWrite ha h) (.ite (.meterWrite ha h) (.ite (.toneWrite ha h) (.plainWrite h ha)))))))
protected theorem Steady.setAudRoute {b r} (h : Steady s t) : Steady s (setAudRoute b r t) := .fset (.fset (.fset (.fset h)))

/-! ### Composition (10, 11) -/

protected theorem Steady.indexNext {a f} (h : Steady s t) (ha : 0x100000 ≤ a := by decide) :
    Steady s (indexNext a f t) := .fset h ha
protected theorem Steady.lutCtrlWrite {w} (h : Steady s t) : Steady s (lutCtrlWrite w t) := by
  unfold Machine.lutCtrlWrite
  exact .ite (.upd rfl rfl (.plainWrite h)) (.plainWrite h)
protected theorem Steady.lutWrite {w} (h : Steady s t) : Steady s (lutWrite w t) := by
  unfold Machine.lutWrite
  exact .indexNext (.ite (.upd rfl rfl h) h)
protected theorem Steady.coefCtrlWrite {m w} (h : Steady s t) : Steady s (coefCtrlWrite m w t) := by
  unfold Machine.coefCtrlWrite
  exact .ite (.refuse h) (.ite (.upd rfl rfl (.plainWrite h)) (.plainWrite h))
protected theorem Steady.coefWrite {w} (h : Steady s t) : Steady s (coefWrite w t) := by
  unfold Machine.coefWrite
  exact .indexNext (.ite (.upd rfl rfl h) h)
protected theorem Steady.layerCommit {m l} (h : Steady s t) : Steady s (layerCommit m l t) := by
  unfold Machine.layerCommit
  exact .ite (.refuse h) (.fset (.upd rfl rfl h))
protected theorem Steady.compWrite {m a w} (ha : 0x100000 ≤ a) (h : Steady s t) : Steady s (compWrite m a w t) := by
  unfold Machine.compWrite
  split
  · exact .refuse h
  · exact .ite (.lutCtrlWrite h) (.ite (.lutWrite h) (.ite (.coefCtrlWrite h) (.ite (.coefWrite h)
      (.ite (.ite (.layerCommit h) h) (.ite (.rset h ha) (.plainWrite h ha))))))

/-! ### The engines (09) -/

protected theorem Steady.refreshQuar {e} (h : Steady s t) : Steady s (refreshQuar e t) := .fset (.fset (.fset (.rsetN h)))
protected theorem Steady.setDeque {c l} (h : Steady s t) : Steady s (setDeque c l t) := .fset (.upd rfl rfl h)
protected theorem Steady.setInflight {q n} (h : Steady s t) : Steady s (setInflight q n t) := .fset h
protected theorem Steady.pushGo {q l k} (h : Steady s t) : Steady s (pushGo q l k t).2 := by
  induction l generalizing k t with
  | nil => exact h
  | cons x l ih =>
    unfold Machine.pushGo
    dsimp only
    split
    · exact ih h
    · split
      · exact ih (.setDeque h)
      · split
        · exact ih (.setInflight (.setDeque h))
        · exact ih (.ite h (.count h))
protected theorem Steady.pushAll {q} (h : Steady s t) : Steady s (pushAll q t) := .upd rfl rfl (.pushGo h)
protected theorem Steady.requeue {x} (h : Steady s t) : Steady s (requeue x t) := by
  unfold Machine.requeue
  exact .ite (.setInflight h) (.pushAll (.upd rfl rfl h))
protected theorem Steady.setRunning {e x} (h : Steady s t) : Steady s (setRunning e x t) := by
  unfold Machine.setRunning
  cases x with
  | some x => exact .fset (.fset (.upd rfl rfl h))
  | none => exact .ite (.fset (.fset (.upd rfl rfl h))) (.fset (.upd rfl rfl h))
protected theorem Steady.quarEngine {e c} (h : Steady s t) : Steady s (quarEngine e c t) := by
  unfold Machine.quarEngine
  refine .ite h (.refreshQuar (.upd rfl rfl (.fset (.fset ?_))))
  cases runningOf t e with
  | some x => exact .requeue (.setRunning h)
  | none => exact .setRunning h
protected theorem Steady.quarantine {l c} (h : Steady s t) : Steady s (quarantine l c t) := by
  unfold Machine.quarantine
  dsimp only
  split
  · exact h
  · exact .raise (.foldl h fun _ _ k => .quarEngine k)
protected theorem Steady.releaseEngine {e} (h : Steady s t) : Steady s (releaseEngine e t) := by
  unfold Machine.releaseEngine
  exact .ite h (.refreshQuar (.fset (.fset h)))
protected theorem Steady.quarCmd {w} (h : Steady s t) : Steady s (quarCmd w t) := by
  unfold Machine.quarCmd
  exact .ite h (.ite (.quarantine h) (.ite (.ite (.quarantine h) h)
    (.ite (.ite (.ite (.foldl h fun _ _ k => .releaseEngine k) h) (.releaseEngine h)) h)))
protected theorem Steady.engWrite {m a w} (ha : 0x100000 ≤ a) (h : Steady s t) : Steady s (engWrite m a w t) := by
  unfold Machine.engWrite Machine.tlutCtrlWrite Machine.tlutWrite
  exact .ite (.quarCmd h) (.ite (.ite (.upd rfl rfl (.plainWrite h)) (.plainWrite h))
    (.ite (.indexNext (.ite (.upd rfl rfl h) h)) (.plainWrite h ha)))

/-! ### Media flows (07) -/

protected theorem Steady.queueRegWrite {m k a w} (ha : 0x100000 ≤ a) (h : Steady s t) :
    Steady s (queueRegWrite m k a w t) := by
  unfold Machine.queueRegWrite
  exact .ite (.plainWrite h ha) (.refuse h)
protected theorem Steady.audCfgWrite {m a x w} (ha : 0x100000 ≤ a) (h : Steady s t) :
    Steady s (audCfgWrite m a x w t) := by
  unfold Machine.audCfgWrite
  exact .ite (.refuse h) (.plainWrite h ha)
protected theorem Steady.legCommit {m l w} (h : Steady s t) : Steady s (legCommit m l w t) := by
  unfold Machine.legCommit
  dsimp only
  split
  · exact .refuse h
  · refine .ite (.refuse h) (.ite (.refuse h) ?_)
    split
    · exact .refuse h
    · exact .rsetN (.upd rfl rfl h)
protected theorem Steady.flowWrite {m a w} (ha : 0x100000 ≤ a) (h : Steady s t) : Steady s (flowWrite m a w t) := by
  have delay : Steady s (delayWrite a w t) := .rsetN h ha
  unfold Machine.flowWrite
  exact .ite (.ite (.legCommit h) (.rsetN h ha)) (.ite (.ite delay (.plainWrite h ha))
    (.ite (.ite (.audCfgWrite ha h) (.ite delay (.plainWrite h ha))) (.ite (.ite (.audCfgWrite ha h) (.plainWrite h ha))
    (.ite (.ite (.queueRegWrite ha h) (.ite delay (.plainWrite h ha))) (.ite delay (.plainWrite h ha))))))

/-! ### The reference planes (14) -/

protected theorem Steady.refreshAlm (h : Steady s t) : Steady s (refreshAlm t) := by
  unfold Machine.refreshAlm
  exact .ite h (.upd rfl rfl (.fset (.fset h)))
protected theorem Steady.setPlaneState {p n} (h : Steady s t) : Steady s (setPlaneState p n t) := by
  unfold Machine.setPlaneState
  exact .refreshHealth (.refreshAlm (.quiet (planeClock_within ..)
    (.ite (.upd rfl rfl (.fset (.fset h))) (.upd rfl rfl (.fset (.fset h))))))
protected theorem Steady.setRefPl {p v} (h : Steady s t) : Steady s (setRefPl p v t) := .quiet (setRefPl_within ..) h
protected theorem Steady.setCur {p e} (h : Steady s t) : Steady s (setCur p e t) := .fset h
protected theorem Steady.setResid {p r} (h : Steady s t) : Steady s (setResid p r t) := .rsetN (.setRefPl h)
protected theorem Steady.planeEvent {p f} (h : Steady s t) : Steady s (planeEvent p f t) := .refreshAlm (.fset h)
protected theorem Steady.acquire {p e} (h : Steady s t) : Steady s (acquire p e t) := by
  unfold Machine.acquire
  exact .setPlaneState (.setCur (.setResid (.setRefPl h)))
protected theorem Steady.beginSwitch {p e} (h : Steady s t) : Steady s (beginSwitch p e t) := by
  unfold Machine.beginSwitch
  exact .raise (.planeEvent (.count (.setPlaneState (.setCur (.setResid (.setRefPl h))))))
protected theorem Steady.retarget {p e} (h : Steady s t) : Steady s (retarget p e t) := by
  unfold Machine.retarget
  exact .raise (.planeEvent (.count (.setCur (.setResid (.setRefPl h)))))
protected theorem Steady.holdover {p} (h : Steady s t) : Steady s (holdover p t) := by
  unfold Machine.holdover
  exact .raise (.planeEvent (.setPlaneState (.rsetN (.rsetN (.setRefPl h)))))
protected theorem Steady.refRefresh (h : Steady s t) : Steady s (refRefresh t) := by
  unfold Machine.refRefresh
  exact .foldl h fun _ _ k => .ite k (.ite (.rsetN (.ite (.rsetN k) k)) (.ite (.rsetN k) k))
protected theorem Steady.refDecide {p} (h : Steady s t) : Steady s (refDecide p t) := by
  unfold Machine.refDecide
  refine .ite h ?_
  cases bestRef t p with
  | none => exact .ite (.holdover h) h
  | some b => exact .ite (.acquire h) (.ite (.beginSwitch (.refRefresh h))
      (.ite (.ite (.beginSwitch h) (.ite (.retarget h) h)) (.ite (.ite (.beginSwitch h) h) (.ite (.ite (.retarget h) h) h))))
protected theorem Steady.entStat {p e f v} (h : Steady s t) : Steady s (entStat p e f v t) := .fset h
protected theorem Steady.setActive {p e b} (h : Steady s t) : Steady s (setActive p e b t) := by
  unfold Machine.setActive Machine.refReject
  extract_lets s1 v s2
  have h2 : Steady s s2 := .ite (.entStat h) (.setRefPl (.entStat h))
  exact .ite h (.ite (.raise (.planeEvent (.count (.entStat (.entStat h2))))) h2)
protected theorem Steady.refFollow (h : Steady s t) : Steady s (refFollow t) := by
  unfold Machine.refFollow
  exact .ite h (.cycleEnd (.foldl (.cycleBegin h) fun _ _ k =>
    .ite k (.ite k (.refDecide (.foldl k fun _ _ k => .ite (.setActive k) k)))))
protected theorem Steady.planeWrite {m a w} (ha : 0x100000 ≤ a) (h : Steady s t) : Steady s (planeWrite m a w t) := by
  have decided {p} : Steady s (refDecide p (Machine.plainWrite (Reg.PLANE_LOCKOUT p) w t)) := .refDecide (.plainWrite h)
  unfold Machine.planeWrite Machine.lockoutWrite Machine.freeRun
  exact .ite (.refuse h) (.ite (.ite (.ite (.raise (.setPlaneState (.refRefresh decided))) (.refRefresh decided)) decided)
    (.ite (.refreshAlm (.ite (.fset (.plainWrite h ha) ha) (.plainWrite h ha))) (.plainWrite h ha)))

/-! ### Serial audio ports (12) -/

protected theorem Steady.setGrpState {k n} (h : Steady s t) : Steady s (setGrpState k n t) := .fset h
protected theorem Steady.setSapState {p n} (h : Steady s t) : Steady s (setSapState p n t) := .fset h
protected theorem Steady.grpTrigger {k} (h : Steady s t) : Steady s (grpTrigger k t) := by
  unfold Machine.grpTrigger rset64
  exact .ite (.fset (.rsetN (.rsetN (.setGrpState h)))) h
protected theorem Steady.sapStop {p n} (h : Steady s t) : Steady s (sapStop p n t) := by
  unfold Machine.sapStop
  exact .setSapState (.upd rfl rfl (.ite (.foldl (.fset h) fun _ _ k => .upd rfl rfl k) (.fset h)))
protected theorem Steady.sapLostReact {p} (h : Steady s t) : Steady s (sapLostReact p t) := by
  unfold Machine.sapLostReact
  exact .ite (.ite (.sapStop h) (.ite (.sapStop h) h)) h
protected theorem Steady.grpCtrlWrite {k w} (h : Steady s t) : Steady s (grpCtrlWrite k w t) := by
  unfold Machine.grpCtrlWrite
  extract_lets a s0 s1 s2 tk raw s3
  have h0 : Steady s s0 := .plainWrite h
  have h1 : Steady s s1 := .ite (.foldl h0 fun _ _ k => .quiet (maskCommit_within ..) k) h0
  have h2 : Steady s s2 := .ite (.foldl (.setGrpState h1) fun _ _ k => .quiet (setSap_within ..) (.sapLostReact k))
    (.ite (.setGrpState h1) h1)
  have h3 : Steady s s3 := .ite (.grpTrigger (.raise (.fset h2))) h2
  exact .ite (.grpTrigger h3) h3
protected theorem Steady.sapWrite {m a w} (ha : 0x100000 ≤ a) (h : Steady s t) : Steady s (sapWrite m a w t) := by
  unfold Machine.sapWrite refreshNa
  exact .ite (.refuse h) (.ite (.ite (.sapLostReact (.plainWrite h ha))
    (.ite (.rsetN h ha) (.ite (.quiet (maskCommit_within ..) h) (.plainWrite h ha))))
    (.ite (.grpCtrlWrite h) (.ite (.ite (.fset (.plainWrite h ha)) h) (.plainWrite h ha))))

/-! ### Lanes and DisplayPort (05) -/

protected theorem Steady.auxCmdWrite {m k w} (h : Steady s t) : Steady s (auxCmdWrite m k w t) := by
  unfold Machine.auxCmdWrite
  exact .ite h (.ite (.refuse h) (.ite h (.quiet (auxStart_within ..) (.fset (.upd rfl rfl h)))))
protected theorem Steady.dpStat {k f v} (h : Steady s t) : Steady s (dpStat k f v t) := .fset h
protected theorem Steady.dpEnter {k n} (h : Steady s t) : Steady s (dpEnter k n t) := by
  unfold Machine.dpEnter
  extract_lets s1 s2 s3 s4
  have h1 : Steady s s1 := .dpStat h
  have h2 : Steady s s2 := .ite h1 (.dpStat (.dpStat h1))
  have h3 : Steady s s3 := .ite h2 (.dpStat h2)
  exact .quiet (auxStart_within ..) (.ite h3 (.upd rfl rfl h3))
protected theorem Steady.dpTrain {k} (h : Steady s t) : Steady s (dpTrain k t) := by
  unfold Machine.dpTrain
  exact .quiet (ownStart_within ..) (.upd rfl rfl (.dpEnter (.ite (.count h) h)))
protected theorem Steady.dpEnable {k} (h : Steady s t) : Steady s (dpEnable k t) := by
  have entered : Steady s
      (Machine.dpStat k Fld.VLANE_DP_STAT_NOVIDEO (b2n (dpHead t.img k).isNone) (Machine.dpEnter k 1 t)) :=
    .dpStat (.dpEnter h)
  unfold Machine.dpEnable
  exact .ite h (.ite (.dpTrain entered) entered)
protected theorem Steady.dpCtrlWrite {k w} (h : Steady s t) : Steady s (dpCtrlWrite k w t) := by
  have written : Steady s (Machine.plainWrite (Reg.VLANE_DP_CTRL k) w t) := .plainWrite h
  unfold Machine.dpCtrlWrite
  exact .ite (.ite written (.dpEnter written)) (.ite (.dpEnable written) (.ite (.dpTrain written) written))
protected theorem Steady.vlaneWrite {m a w} (ha : 0x100000 ≤ a) (h : Steady s t) : Steady s (vlaneWrite m a w t) := by
  unfold Machine.vlaneWrite
  exact .ite (.refuse h) (.ite (.ite (.queueRegWrite ha h) (.plainWrite h ha))
    (.ite (.dpCtrlWrite h) (.ite (.auxCmdWrite h) (.plainWrite h ha))))

/-! ### The video crosspoint (04) -/

protected theorem Steady.takeFlag {f} (h : Steady s t) : Steady s (takeFlag f t) := .fset h
protected theorem Steady.piWrite {m n} (h : Steady s t) : Steady s (piWrite m n t) := by
  unfold Machine.piWrite
  exact .ite (.takeFlag h) (.ite h (.ite (.raise (.takeFlag h)) (.ite (.upd rfl rfl (.fset h)) (.fset h))))
protected theorem Steady.ringWrite {m n w} (h : Steady s t) : Steady s (ringWrite m n w t) := by
  unfold Machine.ringWrite
  exact .ite (.takeFlag h) (.ite (.takeFlag h) (.rset h))
protected theorem Steady.fsyncWrite {m d w} (h : Steady s t) : Steady s (fsyncWrite m d w t) := by
  unfold Machine.fsyncWrite
  dsimp only
  split
  · exact .refuse h
  · exact .ite (.refuse h) (.ite (.fset (.plainWrite h)) (.plainWrite h))
protected theorem Steady.refuseReport {a b c d} (h : Steady s t) : Steady s (refuseReport a b c d t) := by
  unfold Machine.refuseReport
  exact .raise (.count (.fset (.fset (.takeFlag h))))
protected theorem Steady.takeFree (h : Steady s t) : Steady s (takeFree t) := by
  unfold Machine.takeFree Machine.refreshHeld
  exact .foldl (.fset (.upd rfl rfl h)) fun _ _ k => .fset k
protected theorem Steady.takeCtrlWrite {m w} (h : Steady s t) : Steady s (takeCtrlWrite m w t) := by
  unfold Machine.takeCtrlWrite Machine.abandonTail
  exact .ite (.plainWrite h) (.ite (.ite (.plainWrite h) (.takeFree (.quiet (absorbAbandoned_within _)
    (.refuseReport (.upd rfl rfl (.plainWrite h)))))) (.takeFlag (.plainWrite h)))
protected theorem Steady.xpWrite {m a w} (ha : 0x100000 ≤ a) (h : Steady s t) : Steady s (xpWrite m a w t) := by
  unfold Machine.xpWrite
  exact .ite (.ringWrite h) (.ite (.piWrite h) (.ite (.takeCtrlWrite h) (.ite (.fsyncWrite h) (.plainWrite h ha))))

theorem base_le_of_blockOf {a : Nat} (h : blockOf a ≠ .global) : 0x100000 ≤ a := by
  by_contra hlt
  exact h (if_pos (by omega))
/-- The table writes of an image reach the blocks of Table 16.5 alone. -/
protected theorem Steady.mirroredEffect {m a w} (h : Steady s t) : Steady s (mirroredEffect m a w t) := by
  have above {b} (hb : blockOf a = b) (hne : b ≠ .global) : 0x100000 ≤ a := base_le_of_blockOf (hb ▸ hne)
  unfold Machine.mirroredEffect
  split
  case h_1 hb => exact .xpWrite (above hb nofun) h
  case h_2 hb => exact .vlaneWrite (above hb nofun) h
  case h_3 hb => exact .flowWrite (above hb nofun) h
  case h_4 hb => exact .compWrite (above hb nofun) h
  case h_5 hb => exact .engWrite (above hb nofun) h
  case h_6 hb => exact .audWrite (above hb nofun) h
  case h_7 hb => exact .sapWrite (above hb nofun) h
  case h_8 hb => exact .planeWrite (above hb nofun) h
  case h_9 => exact h

/-! ### Step 8: the armature is applied (R62-R65) -/

protected theorem Steady.applyPins {g} (h : Steady s t) : Steady s (applyPins g t) := by
  unfold Machine.applyPins
  exact .foldl (.rsetN (.rsetN (.foldl h fun _ _ k => .rsetN k))) fun _ _ k => .rsetN k
protected theorem Steady.applyHeader {r g} (h : Steady s t) : Steady s (applyHeader r g t) := by
  unfold Machine.applyHeader rset64
  exact .rsetN (.rsetN (.rsetN (.foldl (.rsetN (.rsetN (.rsetN (.rsetN (.upd rfl rfl h))))) fun _ _ k => .rsetN k)))
protected theorem Steady.applyBlocks {g} (h : Steady s t) : Steady s (applyBlocks g t) := by
  unfold Machine.applyBlocks
  extract_lets eng s1 s2 s3 s4 s5 s6 s7 s8
  have h1 : Steady s s1 := .upd rfl rfl h
  have h2 : Steady s s2 := .foldl h1 fun _ _ k => .fset k
  have h3 : Steady s s3 := .foldl h2 fun _ d k => by
    dsimp only
    split
    · exact .fset k
    · exact .fset (.fset k)
  have h4 : Steady s s4 := .foldl h3 fun _ _ k => .ite (.fset k) k
  have h5 : Steady s s5 := .foldl h4 fun _ _ k => .fset k
  have h6 : Steady s s6 := .foldl h5 fun _ _ k => .fset k
  have h7 : Steady s s7 := .foldl h6 fun _ _ k => .foldl (.fset k) fun _ _ k => .entStat k
  have h8 : Steady s s8 := .foldl h7 fun _ _ k => .fset k
  exact .foldl h8 fun _ _ k => .fset k
protected theorem Steady.applyImage {r g} (h : Steady s t) : Steady s (applyImage r g t) := by
  have pins : Steady s (Machine.applyPins g (Machine.applyHeader r g t)) := .applyPins (.applyHeader h)
  unfold Machine.applyImage applyTables applyTime
  exact .ite pins (.foldl (.fset (.fset (.applyBlocks pins))) fun _ _ k => .mirroredEffect k)

/-! ### Step 9: the Keep region is restored (17 R437) -/

protected theorem Steady.patStat {f b} (h : Steady s t) : Steady s (patStat f b t) := .fset h
protected theorem Steady.restoreItem {v} (h : Steady s t) : Steady s (restoreItem v t).1 := by
  unfold Machine.restoreItem
  cases v.item with
  | video d => exact .iteFst h (.iteFst h (.fset (.fset h)))
  | audio b => exact .iteFst h (.iteFst (.setAudRoute h) h)
  | mix i => exact .iteFst h (.rsetN (.rsetN h))
protected theorem Steady.keepRestore (h : Steady s t) : Steady s (keepRestore t) := by
  unfold Machine.keepRestore
  extract_lets pat s1 s2 s3
  have h3 : Steady s s3 := .mramScan (.mramScan (.rsetN (.upd rfl rfl h)))
  split
  · exact .raise (.logEvent (.rsetN (.rsetN (.patStat (.patStat (.upd rfl rfl h3))))))
  · extract_lets r v src pat s4 s5 s6 s7 s8
    have hv : Steady s v.1 := .foldlFst (r := (s3, 0)) h3 fun _ _ k => .restoreItem k
    have h8 : Steady s s8 := .mramScan (.logEvent (.rsetN (.rsetN (.patStat (.patStat (.upd rfl rfl hv))))))
    exact .ite (.raise h8) h8

/-! ### Entry to service and to SAFE (R39-R46) -/

protected theorem Steady.macStat {m f v} (h : Steady s t) : Steady s (macStat m f v t) := .fset h
protected theorem Steady.macEnter {m n} (h : Steady s t) : Steady s (macEnter m n t) := by
  unfold Machine.macEnter pauseClear
  exact .ite (.raise (.count (.rsetN (.macStat (.macStat (.macStat h)))))) (.macStat h)
protected theorem Steady.macApplyEn {m} (h : Steady s t) : Steady s (macApplyEn m t) := by
  unfold Machine.macApplyEn
  exact .ite h (.ite (.ite (.macEnter (.upd rfl rfl h)) (.upd rfl rfl h)) (.ite h (.macEnter h)))
protected theorem Steady.srcStat {x f v} (h : Steady s t) : Steady s (srcStat x f v t) := .fset h
protected theorem Steady.setPresent {x b} (h : Steady s t) : Steady s (setPresent x b t) := by
  unfold Machine.setPresent refreshTimed
  exact .refFollow (.foldl (.ite (.srcStat h) (.foldl (.srcStat h) fun _ _ k =>
    .upd rfl rfl (.upd rfl rfl k))) fun _ _ k => .srcStat k)
protected theorem Steady.audioStart (h : Steady s t) : Steady s (audioStart t) := by
  unfold Machine.audioStart setAsrcState
  exact .foldl (.foldl h fun _ _ k => .ite (.setSapState k) k) fun _ _ k => .ite k (.fset (.fset k))
protected theorem Steady.rxStart {v} (h : Steady s t) : Steady s (rxStart v t) := by
  unfold Machine.rxStart rxStat
  exact .ite (.fset (.upd rfl rfl h)) h
protected theorem Steady.blocksStart (h : Steady s t) : Steady s (blocksStart t) := by
  unfold Machine.blocksStart presentMade
  exact .audioStart (.foldl (.foldl (.foldl (.foldl h fun _ _ k => .rxStart k) fun _ _ k => .macApplyEn k)
    fun _ _ k => .dpEnable k) fun _ _ k => .ite (.setPresent k) k)
protected theorem Steady.planeStart {p} (h : Steady s t) : Steady s (planeStart p t) := by
  unfold Machine.planeStart
  exact .setPlaneState (.foldl h fun _ _ k => .ite (.entStat k) k)
protected theorem Steady.otChoose (h : Steady s t) : Steady s (otChoose t) := by
  unfold Machine.otChoose
  exact .ite h (.raise (.count (.upd rfl rfl h)))
protected theorem Steady.clockCond (h : Steady s t) : Steady s (clockCond t) := by
  unfold Machine.clockCond
  split
  · exact .condEnd h
  · exact .ite (.condBegin h) (.condEnd h)
protected theorem Steady.setResult {n} (h : Steady s t) : Steady s (setResult n t) := .fset (.fset h)
protected theorem Steady.startWaiting (h : Steady s t) : Steady s (startWaiting t) := by
  unfold Machine.startWaiting setBegin
  split
  · exact .ite (.setResult (.upd rfl rfl h)) (.ite (.setResult (.upd rfl rfl h))
      (.ite (.setResult (.upd rfl rfl (.upd rfl rfl h))) (.fset (.upd rfl rfl (.upd rfl rfl h)))))
  · exact h
protected theorem Steady.heldClear (h : Steady s t) : Steady s (heldClear t) := .quiet (heldClear_within _) h
protected theorem Steady.bootDone (h : Steady s t) : Steady s (bootDone t) := .logEvent h
protected theorem Steady.readPointers (h : Steady s t) : Steady s (readPointers t) := by
  unfold Machine.readPointers
  extract_lets va vb s1 s2 s3 s4
  have h2 : Steady s s2 := .ite (.quiet (write3_within ..) (.mramScan h)) (.mramScan h)
  have h3 : Steady s s3 := .ite (.quiet (write3_within ..) h2) h2
  exact .ite (.raise (.rsetN (.rsetN h3))) (.rsetN (.rsetN h3))

end Sys2Proof.Proofs.BootSteady
end

section
/-! PROOF. The registers that show the boot (GLOBAL_MODE, GLOBAL_BOOT_STAT), field by field. -/

namespace Sys2Proof.Proofs.BootFields

open Sys2Proof.Machine Sys2Proof.Laws Sys2Proof.Proofs.BootSteady

variable {s t : State}

/-! ### What a steady change keeps -/

theorem steady_num (h : Steady s t) {a : Nat} (ha : ¬ 0x100000 ≤ a) : rgetN t a = rgetN s a := h.regs.num ha
theorem steady_field (h : Steady s t) {a : Nat} (f : FieldRow) (ha : ¬ 0x100000 ≤ a) : fget t a f = fget s a f :=
  h.regs.field ha f
theorem steady_bit (h : Steady s t) {a : Nat} (f : FieldRow) (ha : ¬ 0x100000 ≤ a) : fbit t a f = fbit s a f :=
  h.regs.bit ha f
theorem steady_mode (h : Steady s t) : mode t = mode s := congrArg modeOf (steady_field h _ (by decide))
theorem steady_bootStep (h : Steady s t) : bootStep t = bootStep s := steady_field h _ (by decide)
theorem steady_inColdBoot (h : Steady s t) : inColdBoot t = inColdBoot s := by
  simp only [inColdBoot, steady_mode h, steady_bit h (a := Reg.GLOBAL_MODE) _ (by decide)]
theorem steady_heating (h : Steady s t) : heating t = heating s := by
  simp only [heating, steady_inColdBoot h, steady_bit h (a := Reg.GLOBAL_MODE) _ (by decide)]
theorem steady_ctlStuck (h : Steady s t) : ctlStuck t = ctlStuck s := by
  simp only [ctlStuck, steady_inColdBoot h, steady_bootStep h, steady_field h (a := Reg.GLOBAL_BOOT_STAT) _ (by decide)]
theorem steady_modeSel (h : Steady s t) : t.core.modeSel = s.core.modeSel := congrArg (·.1) h.ctl
theorem steady_filtered (h : Steady s t) : t.core.filtered = s.core.filtered := congrArg (·.2.1) h.ctl
theorem steady_load (h : Steady s t) : t.core.load = s.core.load := congrArg (·.2.2.1.1) h.ctl
theorem steady_safeReq (h : Steady s t) : t.core.safeReq = s.core.safeReq := congrArg (·.2.2.1.2.1) h.ctl
theorem steady_thermTrip (h : Steady s t) : t.core.thermTrip = s.core.thermTrip := congrArg (·.2.2.2.1) h.ctl
theorem steady_bridgeRun (h : Steady s t) (d : Nat) : bridgeRun d t = bridgeRun d s := by
  have hn : t.core.bridgeN2S = s.core.bridgeN2S := congrArg (·.2.2.2.2.1) h.ctl
  have hs : t.core.bridgeS2N = s.core.bridgeS2N := congrArg (·.2.2.2.2.2) h.ctl
  simp only [bridgeRun, hn, hs]

/-! ### The fields of GLOBAL_BOOT_STAT and GLOBAL_MODE -/

/-- A state whose core alone is replaced: its registers read the same. -/
def withCore (s : State) (c : Core) : State := { s with core := c }
theorem fget_withCore (s : State) (c : Core) (a : Nat) (g : FieldRow) : fget (withCore s c) a g = fget s a g := rfl
theorem mode_withCore (s : State) (c : Core) : mode (withCore s c) = mode s := rfl
theorem ctlStuck_withCore (s : State) (c : Core) : ctlStuck (withCore s c) = ctlStuck s := rfl

theorem fget_setBoot_ne (s : State) {a : Nat} (f g : FieldRow) (v : Nat) (h : a ≠ Reg.GLOBAL_BOOT_STAT) :
    fget (setBoot f v s) a g = fget s a g := fget_fset_ne s f g v h
theorem fget_setBoot_field (s : State) (f g : FieldRow) (v : Nat) (hf : f.hi < 32) (hl : f.lo ≤ f.hi + 1)
    (h : f.hi < g.lo ∨ g.hi < f.lo) : fget (setBoot f v s) Reg.GLOBAL_BOOT_STAT g = fget s Reg.GLOBAL_BOOT_STAT g :=
  fget_fset_field s _ f g v hf hl h
theorem fget_setBoot_same (s : State) (f : FieldRow) (v : Nat) (hf : f.hi < 32) (hl : f.lo ≤ f.hi + 1) :
    fget (setBoot f v s) Reg.GLOBAL_BOOT_STAT f = v % 2 ^ (f.hi + 1 - f.lo) := fget_fset_same s _ f v hf hl
theorem mode_setBoot (f : FieldRow) (v : Nat) (s : State) : mode (setBoot f v s) = mode s :=
  congrArg modeOf (fget_setBoot_ne s f _ v (by decide))
theorem setBoot_regs (f : FieldRow) (v : Nat) {l : List Nat} (h : RegsWithin l s t) (hl : Reg.GLOBAL_BOOT_STAT ∈ l) :
    RegsWithin l s (setBoot f v t) := h.fset hl

theorem fget_setModeF_ne (s : State) {a : Nat} (f g : FieldRow) (v : Nat) (h : a ≠ Reg.GLOBAL_MODE) :
    fget (setModeF f v s) a g = fget s a g := fget_fset_ne s f g v h
theorem mode_setModeF (s : State) (f : FieldRow) (v : Nat) (hf : f.hi < 32) (hl : f.lo ≤ f.hi + 1) (h : 2 < f.lo) :
    mode (setModeF f v s) = mode s := congrArg modeOf (fget_fset_field s _ f _ v hf hl (.inr h))
theorem setModeF_core (f : FieldRow) (v : Nat) (s : State) : (setModeF f v s).core = s.core := rfl
theorem setModeF_img (f : FieldRow) (v : Nat) (s : State) : (setModeF f v s).img = s.img := rfl
theorem modeOf_modeCode (m : Mode) : modeOf (modeCode m % 2 ^ 3) = m := by cases m <;> decide
theorem setMode_regs (s : State) (m : Mode) :
    (setMode s m).regs = (fset s Reg.GLOBAL_MODE Fld.GLOBAL_MODE_MODE (modeCode m)).regs := by cases m <;> rfl
theorem mode_setMode (s : State) (m : Mode) : mode (setMode s m) = m := by
  unfold mode
  rw [fget_congr (setMode_regs s m), fget_fset_same _ _ _ _ (by decide) (by decide)]
  exact modeOf_modeCode m
theorem fget_setMode_ne (s : State) (m : Mode) {a : Nat} (g : FieldRow) (h : a ≠ Reg.GLOBAL_MODE) :
    fget (setMode s m) a g = fget s a g := (fget_congr (setMode_regs s m) a g).trans (fget_fset_ne s _ g _ h)

end Sys2Proof.Proofs.BootFields
end

section
/-! PROOF. Entry to SAFE and entry to service: the mode they end in, and what SAFE carries over from the boot. -/

namespace Sys2Proof.Proofs.BootEntries

open Sys2Proof.Machine Sys2Proof.Laws Sys2Proof.Proofs.BootSteady Sys2Proof.Proofs.BootFields

variable {s t u : State}

/-! ### Entry to SAFE (R36, R45, R46) -/

/-- What an entry to SAFE carries over from the BOOT before it: the reading of the temperature, the code of the last failed
attempt, the state of THERM_TRIP_N. -/
structure Carried (s t : State) : Prop where
  tj : rgetN t Reg.GLOBAL_TJ = rgetN s Reg.GLOBAL_TJ
  code : fget t Reg.GLOBAL_BOOT_STAT Fld.GLOBAL_BOOT_STAT_FAIL_CODE =
    fget s Reg.GLOBAL_BOOT_STAT Fld.GLOBAL_BOOT_STAT_FAIL_CODE
  trip : t.core.thermTrip = s.core.thermTrip

theorem Carried.trans (h : Carried s t) (k : Carried t u) : Carried s u :=
  ⟨k.tj.trans h.tj, k.code.trans h.code, k.trip.trans h.trip⟩
theorem Carried.steady (h : Carried s t) (k : Steady t u) : Carried s u :=
  h.trans ⟨steady_num k (by decide), steady_field k _ (by decide), steady_thermTrip k⟩
theorem Carried.upd (h : Carried s t) (hr : u.regs = t.regs) (hc : u.core.thermTrip = t.core.thermTrip) : Carried s u :=
  h.trans ⟨rgetN_congr hr _, fget_congr hr _ _, hc⟩
theorem Carried.setModeF (h : Carried s t) (f : FieldRow) (v : Nat) : Carried s (setModeF f v t) :=
  h.trans ⟨rgetN_fset_ne t f v (by decide), fget_setModeF_ne t f _ v (by decide), rfl⟩
theorem Carried.setMode (h : Carried s t) (m : Mode) : Carried s (setMode t m) :=
  h.trans ⟨(rgetN_congr (setMode_regs t m) _).trans (rgetN_fset_ne t _ _ (by decide)), fget_setMode_ne t m _ (by decide),
    congrArg Core.thermTrip (setMode_core t m)⟩
theorem Carried.setBoot (h : Carried s t) (f : FieldRow) (v : Nat) (hl : f.lo ≤ f.hi + 1) (hf : f.hi < 8) :
    Carried s (setBoot f v t) :=
  h.trans ⟨rgetN_fset_ne t f v (by decide), fget_setBoot_field t f _ v (by omega) hl (.inl hf), rfl⟩
/-- Registers that are kept read the same. -/
theorem rget_keepRegs (s : State) (p : Nat → Bool) {a : Nat} (h : p a = true) : rget (keepRegs p s) a = rget s a := by
  unfold rget keepRegs
  rw [mapGet_filter, if_pos h]
theorem Carried.keepRegs (h : Carried s t) (p : Nat → Bool) (htj : p Reg.GLOBAL_TJ = true)
    (hb : p Reg.GLOBAL_BOOT_STAT = true) : Carried s (keepRegs p t) :=
  h.trans ⟨congrArg BitVec.toNat (rget_keepRegs t p htj),
    congrArg (fun w : Word => bitsOf 15 8 w.toNat) (rget_keepRegs t p hb), rfl⟩
theorem Carried.mediaOff (h : Carried s t) : Carried s (mediaOff t) := by
  have k := h.keepRegs (fun a => bootBlock (blockOf a)) (by decide) (by decide)
  unfold Machine.mediaOff
  exact k.upd rfl rfl
theorem Carried.dropImage (h : Carried s t) : Carried s (dropImage t) := by
  unfold Machine.dropImage
  extract_lets s1
  have h1 : Carried s s1 := h.keepRegs _ (by decide) (by decide)
  exact h1.upd rfl rfl
theorem Carried.ite {c : Prop} [Decidable c] (ht : Carried s t) (hu : Carried s u) : Carried s (if c then t else u) := by
  split <;> assumption

theorem mode_field_setMode_safe (s : State) :
    mode (setModeF Fld.GLOBAL_MODE_HEAT 0 (setModeF Fld.GLOBAL_MODE_CASTFORM 0 (setMode s .safe))) = .safe := by
  rw [mode_setModeF _ _ _ (by decide) (by decide) (by decide), mode_setModeF _ _ _ (by decide) (by decide) (by decide),
    mode_setMode]

/-- SAFE is entered, from wherever. -/
theorem enterSafe_mode_carried (b : Bool) (s : State) : mode (enterSafe b s) = .safe ∧ Carried s (enterSafe b s) := by
  unfold enterSafe
  extract_lets s1 cold cast noimg s2 s3 s4 s5 us core upd s6 s7 s8
  have k1 : Steady s s1 := .foldl (.refl s) fun _ _ k => .ite (.macEnter k) k
  have c1 : Carried s s1 := Carried.steady ⟨rfl, rfl, rfl⟩ k1
  have c2 : Carried s s2 := c1.mediaOff
  have c3 : Carried s s3 := .ite ((c2.dropImage.setModeF _ _).setModeF _ _) c2
  have c4 : Carried s s4 := ((c3.setMode _).setModeF _ _).setModeF _ _
  have c5 : Carried s s5 := (Carried.ite c4 (c4.setBoot _ _ (by decide) (by decide))).setBoot _ _ (by decide) (by decide)
  have m5 : mode s5 = .safe := by
    show mode (setBoot _ _ _) = _
    rw [mode_setBoot, apply_ite mode, setStep, mode_setBoot, ite_self]
    exact mode_field_setMode_safe s3
  have m6 : mode s6 = .safe := m5
  have c6 : Carried s s6 := c5.upd rfl rfl
  have k7 : Steady s6 s7 := .leaveTest (.refl s6)
  have k8 : Steady s6 s8 := .ite (.heldClear (.bootDone k7)) (.ite (.heldClear (.logEvent k7)) k7)
  have k9 := k8.refreshPins.startWaiting
  exact ⟨(steady_mode k9).trans m6, c6.steady k9⟩

theorem mode_enterSafe (b : Bool) (s : State) : mode (enterSafe b s) = .safe := (enterSafe_mode_carried b s).1

/-! ### Entry to service (R39, R40) -/

theorem mode_bridgeCond (s : State) : mode (bridgeCond s) = mode s := by
  unfold bridgeCond
  have h (d : Bool) (l : List Nat) (t : State) (ht : mode t = mode s) : mode (condSet Src.bridgeFail d l t) = mode s :=
    (steady_mode (.condSet (.refl t))).trans ht
  refine h _ _ _ ?_
  split
  · exact congrArg modeOf (fget_fset_ne s _ _ _ (by decide))
  · rfl

theorem mode_enterService (m : Mode) (s : State) : mode (enterService m s) = m := by
  unfold enterService
  extract_lets s1 w ref s2 s3 s4 s5 s6
  have m1 : mode s1 = m := (mode_setBoot _ _ _).trans (mode_setMode s m)
  have k2 : Steady s1 s2 := .upd rfl rfl (.refl s1)
  have k5 : Steady s1 s5 := Steady.fset (.otChoose (.refFollow (.blocksStart (.foldl k2 fun _ _ k => .planeStart k))))
  have k6 : Steady s1 (clockCond (heldClear (leaveTest s5))) := .clockCond (.heldClear (.leaveTest k5))
  have m6 : mode s6 = m := ((mode_bridgeCond _).trans (steady_mode k6)).trans m1
  exact (steady_mode (.startWaiting (.bootDone (.refreshPins (.refl s6))))).trans m6

end Sys2Proof.Proofs.BootEntries
end

section
/-! PROOF. A load attempt that begins, and one that fails (02 R35-R37). -/

namespace Sys2Proof.Proofs.BootAttempts

open Sys2Proof.Machine Sys2Proof.Laws Sys2Proof.Proofs.BootSteady Sys2Proof.Proofs.BootFields Sys2Proof.Proofs.BootEntries

variable {s t : State}

/-! ### An attempt begins (R35-R37) -/

theorem inColdBoot_iff (s : State) :
    inColdBoot s = true ↔ mode s = .boot ∧ fbit s Reg.GLOBAL_MODE Fld.GLOBAL_MODE_CASTFORM = false := by
  simp [inColdBoot]
theorem mode_of_inColdBoot (h : inColdBoot s = true) : mode s = .boot := ((inColdBoot_iff s).1 h).1
theorem mode_of_loading (h : loading s = true) : mode s = .boot := by
  simp only [loading, Bool.and_eq_true] at h
  exact mode_of_inColdBoot h.1

theorem bootStep_setStep {n : Nat} (s : State) (h : n < 16) : bootStep (setStep n s) = n :=
  (fget_setBoot_same s _ n (by decide) (by decide)).trans (Nat.mod_eq_of_lt h)

/-- The host's turn shows in WAIT_HOST alone. -/
theorem hostTurn_core (s : State) : (hostTurn s).core = s.core := by
  unfold hostTurn
  split <;> rfl
theorem fget_hostTurn_ne (s : State) {a : Nat} (g : FieldRow) (h : a ≠ Reg.GLOBAL_BOOT_STAT) :
    fget (hostTurn s) a g = fget s a g := by
  unfold hostTurn
  split
  · exact fget_setBoot_ne s _ g 1 h
  · rfl
theorem fget_hostTurn_field (s : State) (g : FieldRow) (h : 4 < g.lo ∨ g.hi < 4) :
    fget (hostTurn s) Reg.GLOBAL_BOOT_STAT g = fget s Reg.GLOBAL_BOOT_STAT g := by
  unfold hostTurn
  split
  · exact fget_setBoot_field s _ g 1 (by decide) (by decide) h
  · rfl
theorem hostTurn_waits (s : State) (hl : s.core.load = .host) (hd : s.core.hbmDone = true) (h5 : bootStep s = 5) :
    fbit (hostTurn s) Reg.GLOBAL_BOOT_STAT Fld.GLOBAL_BOOT_STAT_WAIT_HOST = true := by
  simp only [hostTurn, hl, hd, h5, beq_self_eq_true, Bool.and_self, if_true, fbit,
    fget_setBoot_same _ Fld.GLOBAL_BOOT_STAT_WAIT_HOST _ (by decide) (by decide)]
  decide

section AttemptBegin
variable (src : LoadSrc) (second : Bool) (queue : List LoadSrc) (s : State)

theorem attemptBegin_core : (attemptBegin src second queue s).core =
    { s.core with load := src, second := second, loadQueue := queue, streamDone := false } := hostTurn_core _
/-- An attempt that begins writes STEP and ATTEMPTS of GLOBAL_BOOT_STAT; then it may be the host's turn. -/
def attemptMarks (s : State) : State :=
  setStep 5 (setBoot Fld.GLOBAL_BOOT_STAT_ATTEMPTS
    (min 255 (fget s Reg.GLOBAL_BOOT_STAT Fld.GLOBAL_BOOT_STAT_ATTEMPTS + 1)) s)
theorem attemptBegin_eq : attemptBegin src second queue s = hostTurn (withCore (attemptMarks s)
    { s.core with load := src, second := second, loadQueue := queue, streamDone := false }) := rfl
theorem fget_attemptBegin_ne {a : Nat} (g : FieldRow) (h : a ≠ Reg.GLOBAL_BOOT_STAT) :
    fget (attemptBegin src second queue s) a g = fget s a g := by
  rw [attemptBegin_eq, fget_hostTurn_ne _ g  h, fget_withCore]
  exact (fget_setBoot_ne _ _ g _ h).trans (fget_setBoot_ne s _ g _ h)
theorem fget_attemptBegin_marks (g : FieldRow) (h : 4 < g.lo ∨ g.hi < 4) :
    fget (attemptBegin src second queue s) Reg.GLOBAL_BOOT_STAT g = fget (attemptMarks s) Reg.GLOBAL_BOOT_STAT g := by
  rw [attemptBegin_eq, fget_hostTurn_field _ g h, fget_withCore]
theorem mode_attemptBegin : mode (attemptBegin src second queue s) = mode s :=
  congrArg modeOf (fget_attemptBegin_ne src second queue s _ (by decide))
theorem bootStep_attemptBegin : bootStep (attemptBegin src second queue s) = 5 :=
  (fget_attemptBegin_marks src second queue s _ (by decide)).trans (bootStep_setStep _ (by decide))
theorem attempts_attemptBegin :
    fget (attemptBegin src second queue s) Reg.GLOBAL_BOOT_STAT Fld.GLOBAL_BOOT_STAT_ATTEMPTS =
      min 255 (fget s Reg.GLOBAL_BOOT_STAT Fld.GLOBAL_BOOT_STAT_ATTEMPTS + 1) := calc
  _ = fget (attemptMarks s) _ _ := fget_attemptBegin_marks src second queue s _ (by decide)
  _ = _ := fget_setBoot_field _ _ _ _ (by decide) (by decide) (by decide)
  _ = _ := fget_setBoot_same s _ _ (by decide) (by decide)
  _ = _ := Nat.mod_eq_of_lt ((Nat.min_le_left ..).trans_lt (by decide))
theorem failCode_attemptBegin :
    fget (attemptBegin src second queue s) Reg.GLOBAL_BOOT_STAT Fld.GLOBAL_BOOT_STAT_FAIL_CODE =
      fget s Reg.GLOBAL_BOOT_STAT Fld.GLOBAL_BOOT_STAT_FAIL_CODE := calc
  _ = fget (attemptMarks s) _ _ := fget_attemptBegin_marks src second queue s _ (by decide)
  _ = _ := fget_setBoot_field _ _ _ _ (by decide) (by decide) (by decide)
  _ = _ := fget_setBoot_field s _ _ _ (by decide) (by decide) (by decide)

end AttemptBegin

/-! ### An attempt fails (R35, R36) -/

/-- What a failed attempt with code n leaves, seen from the state s in which it failed. -/
def FailedWith (s : State) (n : Nat) (t : State) : Prop :=
  fget t Reg.GLOBAL_BOOT_STAT Fld.GLOBAL_BOOT_STAT_FAIL_CODE = (if s.core.load = .plinth then 9 else n) ∧
  if s.core.safeReq = true ∨ (s.core.loadQueue = [] ∧
    ¬ ((s.core.load = .slotA ∨ s.core.load = .slotB) ∧ s.core.second = false))
  then mode t = .safe
  else mode t = .boot ∧ bootStep t = 5 ∧ fget t Reg.GLOBAL_BOOT_STAT Fld.GLOBAL_BOOT_STAT_ATTEMPTS =
    min 255 (fget s Reg.GLOBAL_BOOT_STAT Fld.GLOBAL_BOOT_STAT_ATTEMPTS + 1)

/-- In both states the same attempt is under way. -/
structure SameAttempt (s t : State) : Prop where
  core : (t.core.load, t.core.safeReq, t.core.loadQueue, t.core.second) =
    (s.core.load, s.core.safeReq, s.core.loadQueue, s.core.second)
  attempts : fget t Reg.GLOBAL_BOOT_STAT Fld.GLOBAL_BOOT_STAT_ATTEMPTS =
    fget s Reg.GLOBAL_BOOT_STAT Fld.GLOBAL_BOOT_STAT_ATTEMPTS

theorem SameAttempt.failedWith {n : Nat} {u : State} (h : SameAttempt s t) (k : FailedWith t n u) : FailedWith s n u := by
  obtain ⟨hl, hs, hq, h2⟩ := by simpa only [Prod.mk.injEq] using h.core
  simpa only [FailedWith, hl, hs, hq, h2, h.attempts] using k

theorem steady_sameAttempt (h : Steady s t) : SameAttempt s t :=
  ⟨congrArg (·.2.2.1) h.ctl, steady_field h _ (by decide)⟩

/-- The next source of a failed attempt starts in step 5. -/
theorem attemptBegin_next (src : LoadSrc) (second : Bool) (queue : List LoadSrc) {n a : Nat} (hm : mode s = .boot)
    (hn : fget s Reg.GLOBAL_BOOT_STAT Fld.GLOBAL_BOOT_STAT_FAIL_CODE = n)
    (ha : fget s Reg.GLOBAL_BOOT_STAT Fld.GLOBAL_BOOT_STAT_ATTEMPTS = a) :
    let t := attemptBegin src second queue s
    fget t Reg.GLOBAL_BOOT_STAT Fld.GLOBAL_BOOT_STAT_FAIL_CODE = n ∧ mode t = .boot ∧ bootStep t = 5 ∧
      fget t Reg.GLOBAL_BOOT_STAT Fld.GLOBAL_BOOT_STAT_ATTEMPTS = min 255 (a + 1) :=
  ⟨(failCode_attemptBegin ..).trans hn, (mode_attemptBegin ..).trans hm, bootStep_attemptBegin ..,
    ha ▸ attempts_attemptBegin ..⟩
theorem enterSafe_next {n : Nat} (hn : fget s Reg.GLOBAL_BOOT_STAT Fld.GLOBAL_BOOT_STAT_FAIL_CODE = n) :
    fget (enterSafe true s) Reg.GLOBAL_BOOT_STAT Fld.GLOBAL_BOOT_STAT_FAIL_CODE = n ∧ mode (enterSafe true s) = .safe :=
  ⟨(enterSafe_mode_carried true s).2.code.trans hn, mode_enterSafe true s⟩

theorem failedWith_attemptFail {n : Nat} (hm : mode s = .boot) (hn : n < 256) : FailedWith s n (attemptFail n s) := by
  unfold attemptFail
  extract_lets c s1 s2 s3 core s4
  have hcode : (if c.load == .plinth then 9 else n) < 256 := by split <;> omega
  have k3 : Steady s2 s3 := .logEvent (.refl s2)
  have f4 : fget s4 Reg.GLOBAL_BOOT_STAT Fld.GLOBAL_BOOT_STAT_FAIL_CODE = if c.load = .plinth then 9 else n := calc
    _ = fget s2 Reg.GLOBAL_BOOT_STAT Fld.GLOBAL_BOOT_STAT_FAIL_CODE := steady_field k3 _ (by decide)
    _ = fget s1 Reg.GLOBAL_BOOT_STAT Fld.GLOBAL_BOOT_STAT_FAIL_CODE :=
      fget_setBoot_field s1 _ _ _ (by decide) (by decide) (by decide)
    _ = _ := ((fget_setBoot_same s _ _ (by decide) (by decide)).trans (Nat.mod_eq_of_lt hcode)).trans (by simp)
  have a4 : fget s4 Reg.GLOBAL_BOOT_STAT Fld.GLOBAL_BOOT_STAT_ATTEMPTS =
      fget s Reg.GLOBAL_BOOT_STAT Fld.GLOBAL_BOOT_STAT_ATTEMPTS := calc
    _ = fget s2 Reg.GLOBAL_BOOT_STAT Fld.GLOBAL_BOOT_STAT_ATTEMPTS := steady_field k3 _ (by decide)
    _ = _ := (fget_setBoot_field s1 _ _ _ (by decide) (by decide) (by decide)).trans
      (fget_setBoot_field s _ _ _ (by decide) (by decide) (by decide))
  have m4 : mode s4 = .boot := ((steady_mode k3).trans ((mode_setBoot _ _ s1).trans (mode_setBoot _ _ s))).trans hm
  have next (src : LoadSrc) (second : Bool) (queue : List LoadSrc) := attemptBegin_next src second queue m4 f4 a4
  have safe := enterSafe_next f4
  have hc : s.core = c := rfl
  clear_value s4 c
  unfold FailedWith
  rw [hc]
  by_cases hs : c.safeReq = true
  · simpa only [hs, if_true, true_or] using safe
  by_cases h2 : (c.load = .slotA ∨ c.load = .slotB) ∧ c.second = false
  · simpa [hs, h2] using next c.load true c.loadQueue
  · cases hq : c.loadQueue with
    | nil => simpa [hs, h2] using safe
    | cons q rest => simpa [hs, h2] using next q false rest

end Sys2Proof.Proofs.BootAttempts
end

section
/-! PROOF. Steps 1 to 6 of a cold boot and the host's own image, by their commands (02 R33-R37, R41). -/

namespace Sys2Proof.Proofs.BootProgress

open Sys2Proof.Machine Sys2Proof.Laws Sys2Proof.Proofs.BootSteady Sys2Proof.Proofs.BootFields Sys2Proof.Proofs.BootEntries
  Sys2Proof.Proofs.BootAttempts

variable {s t : State}

/-! ### Steps 1 to 5 (R33, R34, R41) -/

theorem fbit_eq_true {a : Nat} {f : FieldRow} (h : fget s a f = 1) : fbit s a f = true := beq_iff_eq.2 h

theorem clocksLocked_spec (hc : inColdBoot s = true) (h1 : bootStep s = 1) (hs : ctlStuck s = false) :
    fbit (clocksLocked s) Reg.GLOBAL_CLK_LOCK Fld.GLOBAL_CLK_LOCK_CTL = true ∧
      fbit (clocksLocked s) Reg.GLOBAL_CLK_LOCK Fld.GLOBAL_CLK_LOCK_ENG = true ∧
      bootStep (clocksLocked s) = 2 ∧ RegsWithin [Reg.GLOBAL_CLK_LOCK, Reg.GLOBAL_BOOT_STAT] s (clocksLocked s) := by
  have e : clocksLocked s = setStep 2 (fset (fset s Reg.GLOBAL_CLK_LOCK Fld.GLOBAL_CLK_LOCK_CTL 1)
      Reg.GLOBAL_CLK_LOCK Fld.GLOBAL_CLK_LOCK_ENG 1) := by simp [clocksLocked, hc, h1, hs]
  rw [e]
  refine ⟨fbit_eq_true ?_, fbit_eq_true ?_, bootStep_setStep _ (by decide), ?_⟩
  · rw [setStep, fget_setBoot_ne _ _ _ _ (by decide), fget_fset_field _ _ _ _ _ (by decide) (by decide) (by decide),
      fget_fset_same _ _ _ _ (by decide) (by decide)]
    rfl
  · rw [setStep, fget_setBoot_ne _ _ _ _ (by decide), fget_fset_same _ _ _ _ (by decide) (by decide)]
    rfl
  · exact setBoot_regs _ _ (((OnlyRegs.refl _ s).fset (by simp)).fset (by simp)) (by simp)

theorem ctlTimeout_spec (hc : inColdBoot s = true) (h1 : bootStep s = 1)
    (hl : fbit s Reg.GLOBAL_CLK_LOCK Fld.GLOBAL_CLK_LOCK_CTL = false) :
    ctlStuck (ctlTimeout s) = true ∧ RegsWithin [Reg.GLOBAL_BOOT_STAT] s (ctlTimeout s) := by
  have e : ctlTimeout s = setBoot Fld.GLOBAL_BOOT_STAT_FAIL_CODE 1 s := by simp [ctlTimeout, hc, h1, hl]
  rw [e]
  refine ⟨?_, setBoot_regs _ _ (OnlyRegs.refl _ s) (by simp)⟩
  have hcode := fget_setBoot_same s Fld.GLOBAL_BOOT_STAT_FAIL_CODE 1 (by decide) (by decide)
  have hstep : bootStep (setBoot Fld.GLOBAL_BOOT_STAT_FAIL_CODE 1 s) = bootStep s :=
    fget_setBoot_field s _ _ _ (by decide) (by decide) (by decide)
  have hcold : inColdBoot (setBoot Fld.GLOBAL_BOOT_STAT_FAIL_CODE 1 s) = inColdBoot s := by
    simp only [inColdBoot, mode_setBoot, fbit, fget_setBoot_ne _ _ _ _ (show Reg.GLOBAL_MODE ≠ _ by decide)]
  rw [ctlStuck, hcold, hstep, hcode, hc, h1]
  rfl

/-- Step 5 begins: the mode register is left alone, and the straps choose the source. -/
theorem beginStep5_spec (s : State) :
    fget (beginStep5 s) Reg.GLOBAL_MODE Fld.GLOBAL_MODE_HEAT = fget s Reg.GLOBAL_MODE Fld.GLOBAL_MODE_HEAT ∧
      bootStep (beginStep5 s) = 5 ∧
      (beginStep5 s).core.load = (if s.core.modeSel = 0 then slotSrc (bootPtr s)
        else if s.core.modeSel = 3 then .plinth else .host) := by
  unfold beginStep5
  extract_lets other first r
  have k : Steady s r := .readPointers (.refl s)
  have spec (src : LoadSrc) (queue : List LoadSrc) :
      fget (attemptBegin src false queue r) Reg.GLOBAL_MODE Fld.GLOBAL_MODE_HEAT =
        fget s Reg.GLOBAL_MODE Fld.GLOBAL_MODE_HEAT ∧ bootStep (attemptBegin src false queue r) = 5 ∧
      (attemptBegin src false queue r).core.load = src :=
    ⟨(fget_attemptBegin_ne _ _ _ _ _ (by decide)).trans (steady_field k _ (by decide)), bootStep_attemptBegin ..,
      congrArg Core.load (attemptBegin_core ..)⟩
  rw [steady_modeSel k]
  split
  · exact spec _ _
  · split
    · exact spec _ _
    · exact spec _ _

theorem heatRead_cold (h : heating s = true)
    (ht : -160 ≤ sext 16 (fget s Reg.GLOBAL_TJ Fld.GLOBAL_TJ_TJ_MIN)) :
    heating (heatRead s) = false ∧ bootStep (heatRead s) = 5 := by
  have e : heatRead s = beginStep5 (setModeF Fld.GLOBAL_MODE_HEAT 0 s) := by simp [heatRead, h, ht]
  obtain ⟨hheat, hstep, -⟩ := beginStep5_spec (setModeF Fld.GLOBAL_MODE_HEAT 0 s)
  have hoff : fget (setModeF Fld.GLOBAL_MODE_HEAT 0 s) Reg.GLOBAL_MODE Fld.GLOBAL_MODE_HEAT = 0 :=
    fget_fset_same s _ _ 0 (by decide) (by decide)
  rw [e]
  exact ⟨by simp [heating, fbit, hheat, hoff], hstep⟩

theorem heatSlow_spec (h : heating s = true) :
    fbit (heatSlow s) Reg.GLOBAL_BOOT_STAT Fld.GLOBAL_BOOT_STAT_HEAT_SLOW = true ∧ heating (heatSlow s) = true := by
  unfold heatSlow
  rw [if_pos h]
  have k : Steady (setBoot Fld.GLOBAL_BOOT_STAT_HEAT_SLOW 1 (withCore s { s.core with heatPast := true }))
      (refreshPins (setBoot Fld.GLOBAL_BOOT_STAT_HEAT_SLOW 1 (withCore s { s.core with heatPast := true }))) :=
    .refreshPins (.refl _)
  refine ⟨(steady_bit k _ (by decide)).trans (fbit_eq_true ?_), (steady_heating k).trans ?_⟩
  · exact fget_setBoot_same _ _ 1 (by decide) (by decide)
  · simpa only [heating, inColdBoot, mode_setBoot, mode_withCore, fbit, fget_withCore,
      fget_setBoot_ne _ _ _ _ (show Reg.GLOBAL_MODE ≠ _ by decide)] using h

/-! ### The two halves of steps 5 and 6 (R35-R37) -/

/-- The source is not streamed yet: step 5 goes on. -/
theorem stepEnd_streaming (h : s.core.streamDone = false) : stepEnd s = s := by simp [stepEnd, h]
/-- The source is streamed, and no SAFE request waits: step 7 where HBM is ready, else step 6. -/
theorem stepEnd_streamed (h : s.core.streamDone = true) (hs : s.core.safeReq = false) :
    stepEnd s = setStep (if s.core.hbmDone then 7 else 6) s := by
  unfold stepEnd
  cases hd : s.core.hbmDone <;> simp [h, hs, hd]
theorem trainDone_fails (hl : loading s = true) (hd : s.core.hbmDone = false) (serdes : Bool) :
    FailedWith s 6 (trainDone false serdes s) := by
  have e : trainDone false serdes s = attemptFail 6 s := by simp [trainDone, hl, hd]
  rw [e]
  exact failedWith_attemptFail (mode_of_loading hl) (by decide)

/-- HBM reads as up in QM_HBM_STAT. -/
def hbmUp (s : State) : State := fset s Reg.QM_HBM_STAT Fld.QM_HBM_STAT_UP 15
theorem hbmUp_steady (s : State) : Steady s (hbmUp s) := .fset (.refl s)

theorem trainDone_serdes_fails (hl : loading s = true) (hd : s.core.hbmDone = false) :
    FailedWith s 7 (trainDone true false s) := by
  have e : trainDone true false s = attemptFail 7 (hbmUp s) := by simp [trainDone, hl, hd, hbmUp]
  rw [e]
  have k := hbmUp_steady s
  exact SameAttempt.failedWith (t := hbmUp s) ⟨rfl, steady_field k _ (by decide)⟩
    (failedWith_attemptFail ((steady_mode k).trans (mode_of_loading hl)) (by decide))

/-- HBM trained and SerDes calibrated. -/
def trained (s : State) : State := withCore (hbmUp s) { s.core with hbmDone := true }
theorem bootStep_trained (s : State) : bootStep (trained s) = bootStep s :=
  (fget_withCore (hbmUp s) _ _ _).trans (steady_bootStep (hbmUp_steady s))

theorem trainDone_eq (hl : loading s = true) (hd : s.core.hbmDone = false) (hs : s.core.safeReq = false) :
    trainDone true true s = if s.core.streamDone then setStep 7 (hostTurn (trained s)) else hostTurn (trained s) := by
  have e : trainDone true true s = stepEnd (hostTurn (trained s)) := by
    simp [trainDone, hl, hd, hs, trained, hbmUp, withCore]
  have ec : (hostTurn (trained s)).core = { s.core with hbmDone := true } := hostTurn_core _
  rw [e]
  cases h : s.core.streamDone with
  | false => exact stepEnd_streaming ((congrArg Core.streamDone ec).trans h)
  | true =>
    rw [stepEnd_streamed ((congrArg Core.streamDone ec).trans h) ((congrArg Core.safeReq ec).trans hs), ec]
    rfl

theorem trainDone_done (hl : loading s = true) (hd : s.core.hbmDone = false) (hs : s.core.safeReq = false) :
    let t := trainDone true true s
    t.core.hbmDone = true ∧ fget t Reg.QM_HBM_STAT Fld.QM_HBM_STAT_UP = 15 ∧
      bootStep t = (if s.core.streamDone then 7 else bootStep s) ∧
      (s.core.load = .host → bootStep s = 5 → fbit t Reg.GLOBAL_BOOT_STAT Fld.GLOBAL_BOOT_STAT_WAIT_HOST = true) := by
  intro t
  have hdone : (hostTurn (trained s)).core.hbmDone = true := congrArg Core.hbmDone (hostTurn_core _)
  have hup : fget (hostTurn (trained s)) Reg.QM_HBM_STAT Fld.QM_HBM_STAT_UP = 15 :=
    (fget_hostTurn_ne _ _ (by decide)).trans (fget_fset_same s _ _ 15 (by decide) (by decide))
  have hstep : bootStep (hostTurn (trained s)) = bootStep s :=
    (fget_hostTurn_field _ _ (by decide)).trans (bootStep_trained s)
  have hwait (h : s.core.load = .host) (h5 : bootStep s = 5) :
      fbit (hostTurn (trained s)) Reg.GLOBAL_BOOT_STAT Fld.GLOBAL_BOOT_STAT_WAIT_HOST = true :=
    hostTurn_waits _ h rfl ((bootStep_trained s).trans h5)
  have et : t = _ := trainDone_eq hl hd hs
  rw [et]
  split
  · refine ⟨hdone, (fget_setBoot_ne _ _ _ _ (by decide)).trans hup, bootStep_setStep _ (by decide), fun h h5 => ?_⟩
    rw [setStep, fbit, fget_setBoot_field _ _ _ _ (by decide) (by decide) (by decide)]
    exact hwait h h5
  · exact ⟨hdone, hup, hstep, hwait⟩

/-- The size in units of 4 KiB of the source that is streamed, and its image. -/
def streamUnits (s : State) : Nat := if s.core.load = .plinth then 4096 else 12288
def streamRaw (s : State) : List Nat := rawOf (flashRun s (slotBase s.core.load)) (streamUnits s)

/-- The source lies in the staging area, hashed. -/
def streamed (s : State) : State := stage (streamRaw s) (withCore s { s.core with streamDone := true })

theorem streamDone_eq (ok : Bool) (hl : loading s = true) (hh : s.core.load ≠ .host) (hd : s.core.streamDone = false) :
    streamDone ok s = if !ok || headerBad (streamRaw s) (streamUnits s) then attemptFail 2 s
      else stepEnd (streamed s) := by
  simp [streamDone, hl, hh, hd, streamed, streamRaw, streamUnits, withCore]

theorem streamDone_fails (ok : Bool) (hl : loading s = true) (hh : s.core.load ≠ .host) (hd : s.core.streamDone = false)
    (hb : ok = false ∨ headerBad (streamRaw s) (streamUnits s) = true) : FailedWith s 2 (streamDone ok s) := by
  rw [streamDone_eq ok hl hh hd, if_pos (by simpa using hb)]
  exact failedWith_attemptFail (mode_of_loading hl) (by decide)

theorem streamDone_done (hl : loading s = true) (hh : s.core.load ≠ .host) (hd : s.core.streamDone = false)
    (hb : headerBad (streamRaw s) (streamUnits s) = false) (hs : s.core.safeReq = false) :
    let t := streamDone true s
    t.core.streamDone = true ∧ mode t = .boot ∧ bootStep t = (if s.core.hbmDone then 7 else 6) ∧
      RegsWithin [Reg.GLOBAL_BOOT_STAT] s t := by
  intro t
  have et : t = setStep (if s.core.hbmDone then 7 else 6) (streamed s) :=
    ((streamDone_eq true hl hh hd).trans (if_neg (by simp [hb]))).trans (stepEnd_streamed rfl hs)
  have hm : mode (streamed s) = mode s := rfl
  rw [et]
  exact ⟨rfl, (mode_setBoot _ _ _).trans (hm.trans (mode_of_loading hl)), bootStep_setStep _ (by split <;> decide),
    setBoot_regs _ _ ((OnlyRegs.refl _ s).same rfl) (by simp)⟩

/-! ### The host's own image (R37, Table 2.13) -/

theorem hostBoot_len (len : BitVec 14) :
    bitOf 0 (len.toNat * 65536 + 1) = true ∧ bitsOf 29 16 (len.toNat * 65536 + 1) = len.toNat := by
  have := len.isLt
  constructor
  · simp only [bitOf, beq_iff_eq]
    omega
  · simp only [bitsOf]
    omega

/-- A GO of the host, seen by the boot sequencer. -/
theorem hostGo_spec (len : Nat) (hw : fbit s Reg.GLOBAL_BOOT_STAT Fld.GLOBAL_BOOT_STAT_WAIT_HOST = true) :
    if len = 0 ∨ 12288 < len then hostGo len s = s
    else bootStep (hostGo len s) = 7 ∧ fbit (hostGo len s) Reg.GLOBAL_BOOT_STAT Fld.GLOBAL_BOOT_STAT_WAIT_HOST = false ∧
      (hostGo len s).core.hostLen = len ∧ (hostGo len s).core.hashed = rawOf (stagingRun s) len ∧
      RegsWithin [Reg.GLOBAL_BOOT_STAT] s (hostGo len s) := by
  split
  case isTrue h => simp [hostGo, hw, h]
  case isFalse h =>
    have e : hostGo len s = setStep 7 (setBoot Fld.GLOBAL_BOOT_STAT_WAIT_HOST 0
        (withCore s { s.core with hostLen := len, hashed := rawOf (stagingRun s) len })) := by
      simp only [not_or] at h
      simp [hostGo, hw, h, withCore]
    rw [e]
    refine ⟨bootStep_setStep _ (by decide), ?_, rfl, rfl,
      setBoot_regs _ _ (setBoot_regs _ _ ((OnlyRegs.refl _ s).same rfl) (by simp)) (by simp)⟩
    rw [setStep, fbit, fget_setBoot_field _ _ _ _ (by decide) (by decide) (by decide),
      fget_setBoot_same _ _ _ (by decide) (by decide)]
    rfl

theorem hostBootWrite_go (len : BitVec 14) : hostBootWrite (len.toNat * 65536 + 1) s = hostGo len.toNat s := by
  obtain ⟨hgo, hlen⟩ := hostBoot_len len
  rw [hostBootWrite, if_pos hgo, hlen]

end Sys2Proof.Proofs.BootProgress
end

section
/-! PROOF. Steps 3 and 7 to 9 of a cold boot, which the sequencer itself ends (02 R33, R35, R38, R39, R45). -/

namespace Sys2Proof.Proofs.BootTicks

open Sys2Proof.Machine Sys2Proof.Laws Sys2Proof.Proofs.BootSteady Sys2Proof.Proofs.BootFields Sys2Proof.Proofs.BootEntries
  Sys2Proof.Proofs.BootAttempts Sys2Proof.Proofs.BootProgress

variable {s t u : State}

/-! ### One tick of the time clock -/

/-- The core after one tick. -/
def tickedCore (s : State) : Core :=
  { s.core with sinceReset := if mode s = .reset then s.core.sinceReset else s.core.sinceReset + 1 }

/-- From s to t only the clocks have moved on by a tick. -/
structure Ticked (s t : State) : Prop where
  regs : t.regs = s.regs
  core : t.core = tickedCore s
  long : t.long = s.long

theorem advanceTicks_ticked (s : State) : Ticked s (advanceTicks 1 s) := by
  unfold advanceTicks
  extract_lets core u
  have hu : Ticked s u := ⟨rfl, by simp [u, core, tickedCore], rfl⟩
  clear_value u
  split
  · exact hu
  · exact ⟨hu.regs, hu.core, hu.long⟩

section Ticked
variable (h : Ticked s u)
include h

theorem Ticked.field (a : Nat) (f : FieldRow) : fget u a f = fget s a f := fget_congr h.regs a f
theorem Ticked.bit (a : Nat) (f : FieldRow) : fbit u a f = fbit s a f := by unfold fbit; rw [h.field]
theorem Ticked.mode : mode u = mode s := congrArg modeOf (h.field ..)
theorem Ticked.bootStep : bootStep u = bootStep s := h.field ..
theorem Ticked.inColdBoot : inColdBoot u = inColdBoot s := by simp only [Machine.inColdBoot, h.mode, h.bit]
theorem Ticked.heating : heating u = heating s := by simp only [Machine.heating, h.inColdBoot, h.bit]
theorem Ticked.safeReq : u.core.safeReq = s.core.safeReq := (congrArg Core.safeReq h.core).trans rfl
theorem Ticked.modeSel : u.core.modeSel = s.core.modeSel := (congrArg Core.modeSel h.core).trans rfl
theorem Ticked.load : u.core.load = s.core.load := (congrArg Core.load h.core).trans rfl
theorem Ticked.filtered : u.core.filtered = s.core.filtered := (congrArg Core.filtered h.core).trans rfl
theorem Ticked.bootPtr : bootPtr u = bootPtr s := by
  have hb : mramBadIn u = mramBadIn s := by unfold mramBadIn; rw [h.long]
  have hv : mramBytes u = mramBytes s := by unfold mramBytes mramByte; rw [h.long]
  unfold Machine.bootPtr copiesOf4 copies
  rw [hb, hv]
theorem Ticked.attemptPurpose : attemptPurpose u = attemptPurpose s := by
  simp only [Machine.attemptPurpose, h.load, h.modeSel]
theorem Ticked.sameAttempt : SameAttempt s u := ⟨by rw [h.core]; rfl, h.field ..⟩

end Ticked

/-! ### Steps 2, 3 and the steps that a tick leaves alone (R33, R41, R46) -/

theorem bootTick_idle (h2 : bootStep s ≠ 2) (h3 : bootStep s ≠ 3) (h7 : bootStep s ≠ 7) (h8 : bootStep s ≠ 8)
    (h9 : bootStep s ≠ 9) : bootTick s = s := by
  unfold bootTick
  split
  · rfl
  · split
    · next h => exact absurd h h2
    · next h => exact absurd h h3
    · next h => exact absurd h h7
    · next h => exact absurd h h8
    · next h => exact absurd h h9
    · rfl

theorem readTj_spec (hc : inColdBoot s = true) (h3 : bootStep s = 3) :
    if s.core.safeReq then mode (readTj s) = .safe
    else if sext 16 (fget s Reg.GLOBAL_TJ Fld.GLOBAL_TJ_TJ_MIN) < -160
    then bootStep (readTj s) = 3 ∧ heating (readTj s) = true
    else bootStep (readTj s) = 5 ∧ (readTj s).core.load = (if s.core.modeSel = 0 then slotSrc (bootPtr s)
      else if s.core.modeSel = 3 then .plinth else .host) := by
  unfold readTj
  split
  · exact mode_enterSafe true s
  split
  · set u := withCore s { s.core with heatPast := false } with hu
    have hheat : fget (setModeF Fld.GLOBAL_MODE_HEAT 1 u) Reg.GLOBAL_MODE Fld.GLOBAL_MODE_HEAT = 1 :=
      fget_fset_same u _ _ 1 (by decide) (by decide)
    have hform : fget (setModeF Fld.GLOBAL_MODE_HEAT 1 u) Reg.GLOBAL_MODE Fld.GLOBAL_MODE_CASTFORM =
        fget s Reg.GLOBAL_MODE Fld.GLOBAL_MODE_CASTFORM :=
      fget_fset_field u _ _ _ 1 (by decide) (by decide) (by decide)
    have hm : mode (setModeF Fld.GLOBAL_MODE_HEAT 1 u) = mode s := mode_setModeF u _ _ (by decide) (by decide) (by decide)
    refine ⟨(fget_setModeF_ne u _ _ _ (by decide)).trans h3, ?_⟩
    show heating (setModeF Fld.GLOBAL_MODE_HEAT 1 u) = true
    rw [inColdBoot, fbit] at hc
    rw [heating, inColdBoot, hm, fbit, fbit, hform, hheat, hc]
    rfl
  · obtain ⟨-, hstep, hload⟩ := beginStep5_spec s
    exact ⟨hstep, hload⟩

/-! ### Steps 7 to 9 (R35, R38, R39, R45) -/

theorem imageFail_lt (s : State) (raw : List Nat) (units purpose count : Nat) :
    (imageFail s raw units purpose count).1 < 256 := by
  unfold imageFail
  dsimp only
  split
  · exact (by decide : 2 < 256)
  split
  · exact (by decide : 3 < 256)
  split
  · exact (by decide : 5 < 256)
  split
  · exact (by decide : 4 < 256)
  split
  · exact (by decide : 8 < 256)
  · exact (by decide : 0 < 256)

theorem checkStep_spec (hm : mode s = .boot) :
    if (attemptVerdict s).1 ≠ 0 ∧ (attemptVerdict s).1 ≠ 8 then FailedWith s (attemptVerdict s).1 (checkStep s)
    else if s.core.safeReq then mode (checkStep s) = .safe
    else mode (checkStep s) = .boot ∧ bootStep (checkStep s) = 8 := by
  unfold checkStep
  dsimp only
  split
  · exact failedWith_attemptFail hm (imageFail_lt ..)
  split
  · exact mode_enterSafe true s
  · exact ⟨(mode_setBoot _ _ s).trans hm, bootStep_setStep s (by decide)⟩

theorem applyHeader_img (raw : List Nat) (g : Img) (s : State) : (applyHeader raw g s).img = g := by
  have digest (l : List (List Nat × Nat)) (t : State) :
      (l.foldl (fun s e => rsetN s (Reg.IMG_ACT_DIGEST e.2) (leNat e.1)) t).img = t.img := by
    induction l generalizing t with
    | nil => rfl
    | cons e l ih => exact (ih _).trans (rsetN_img ..)
  simp only [applyHeader, rsetN_img, rset64_img, digest]

/-- The image that step 8 applies is the one that stands. -/
theorem applyImage_img (raw : List Nat) (g : Img) (s : State) : (applyImage raw g s).img = g := by
  have hp (t : State) : (applyPins g t).img = t.img := (applyPins_within g t).part .img (by decide)
  have hb (t : State) : (applyBlocks g t).img = t.img := (applyBlocks_within g t).part .img (by decide)
  have ht (t : State) : (applyTime g t).img = t.img := (applyTime_within g t).part .img (by decide)
  have hl (t : State) : (applyTables g t).img = t.img := (applyTables_within g t).part .img (by decide)
  unfold applyImage
  dsimp only
  split
  · rw [hp, applyHeader_img]
  · rw [hl, ht, hb, hp, applyHeader_img]

theorem loadCode_lt (x : LoadSrc) : loadCode x < 4 := by cases x <;> decide

theorem applyStep_spec (hm : mode s = .boot) :
    let v := attemptVerdict s
    if v.1 ≠ 0 then FailedWith s v.1 (applyStep s)
    else if s.core.load = .plinth ∨ s.core.safeReq then mode (applyStep s) = .safe
    else mode (applyStep s) = .boot ∧ bootStep (applyStep s) = 9 ∧ (applyStep s).img = v.2.2 ∧
      fget (applyStep s) Reg.GLOBAL_MODE Fld.GLOBAL_MODE_SLOT = loadCode s.core.load := by
  intro v
  unfold applyStep
  extract_lets a
  split
  · have k : Steady s (if v.1 = 8 then rsetN s Reg.IMG_ARM_STAT (v.2.1.1 % 65536 * 65536 + v.2.1.2 % 256 * 256) else s) :=
      .ite (.rsetN (.refl s)) (.refl s)
    exact SameAttempt.failedWith (steady_sameAttempt k)
      (failedWith_attemptFail ((steady_mode k).trans hm) (imageFail_lt ..))
  · have k : Steady s (applyImage s.core.hashed v.2.2 s) := .applyImage (.refl s)
    have hl : a.core.load = s.core.load := (congrArg Core.load (setModeF_core ..)).trans (steady_load k)
    have hs : a.core.safeReq = s.core.safeReq :=
      (congrArg Core.safeReq (setModeF_core ..)).trans (steady_safeReq k)
    have hma : mode a = .boot := ((mode_setModeF _ _ _ (by decide) (by decide) (by decide)).trans (steady_mode k)).trans hm
    have hslot : fget a Reg.GLOBAL_MODE Fld.GLOBAL_MODE_SLOT = loadCode s.core.load :=
      (fget_fset_same _ _ _ _ (by decide) (by decide)).trans (Nat.mod_eq_of_lt (loadCode_lt _))
    have himg : a.img = v.2.2 := (setModeF_img ..).trans (applyImage_img ..)
    clear_value a
    rw [hl, hs]
    simp only [Bool.or_eq_true, beq_iff_eq]
    split
    · exact mode_enterSafe false a
    · exact ⟨(mode_setBoot _ _ a).trans hma, bootStep_setStep a (by decide), himg,
        (fget_setBoot_ne _ _ _ _ (by decide)).trans hslot⟩

theorem restoreStep_spec (s : State) : if s.core.safeReq then mode (restoreStep s) = .safe
    else mode (restoreStep s) = (if attemptPurpose s = 1 then .factory
      else if bitOf 9 s.core.filtered.toNat then .active else .standby) := by
  unfold restoreStep
  extract_lets factory r
  have k : Steady s r := .ite (.refl s) (.keepRestore (.refl s))
  rw [steady_safeReq k, steady_filtered k]
  split
  · exact mode_enterSafe false r
  · rw [mode_enterService]
    simp [factory]

end Sys2Proof.Proofs.BootTicks
end

section
/-! PROOF. One tick in each step of a cold boot (02 R33, R46; log entry 70). -/

namespace Sys2Proof.Proofs.ColdBoot

open Sys2Proof.Machine Sys2Proof.Laws Sys2Proof.Proofs.BootSteady Sys2Proof.Proofs.BootFields Sys2Proof.Proofs.BootEntries
  Sys2Proof.Proofs.BootAttempts Sys2Proof.Proofs.BootProgress Sys2Proof.Proofs.BootTicks

variable {s : State}

/-! ### What a tick does in each step of a cold boot -/

theorem tick_step2 (hc : inColdBoot s = true) (h2 : bootStep s = 2) :
    if s.core.safeReq then mode (tick s) = .safe else mode (tick s) = .boot ∧ bootStep (tick s) = 3 := by
  have h := advanceTicks_ticked s
  have e : tick s = if s.core.safeReq then enterSafe true (advanceTicks 1 s) else setStep 3 (advanceTicks 1 s) := by
    simp [tick, bootTick, h.inColdBoot, h.bootStep, h.safeReq, hc, h2]
  rw [e]
  split
  · exact mode_enterSafe true _
  · exact ⟨(mode_setBoot _ _ _).trans (h.mode.trans (mode_of_inColdBoot hc)), bootStep_setStep _ (by decide)⟩

theorem tick_step3 (hc : inColdBoot s = true) (h3 : bootStep s = 3) :
    if heating s then heating (tick s) = true
    else if s.core.safeReq then mode (tick s) = .safe
    else if sext 16 (fget s Reg.GLOBAL_TJ Fld.GLOBAL_TJ_TJ_MIN) < -160
    then bootStep (tick s) = 3 ∧ heating (tick s) = true
    else bootStep (tick s) = 5 ∧ (tick s).core.load = (if s.core.modeSel = 0 then slotSrc (bootPtr s)
      else if s.core.modeSel = 3 then .plinth else .host) := by
  have h := advanceTicks_ticked s
  have e : tick s = if heating s then advanceTicks 1 s else readTj (advanceTicks 1 s) := by
    simp [tick, bootTick, h.inColdBoot, h.bootStep, h.heating, hc, h3]
  split
  case isTrue hheat => rw [e, if_pos hheat, h.heating, hheat]
  case isFalse hheat =>
    rw [e, if_neg hheat]
    simpa only [h.safeReq, h.field, h.modeSel, h.bootPtr] using
      readTj_spec (h.inColdBoot.trans hc) (h.bootStep.trans h3)

theorem tick_step7 (hc : inColdBoot s = true) (h7 : bootStep s = 7) :
    let v := attemptVerdict (advanceTicks 1 s)
    if v.1 ≠ 0 ∧ v.1 ≠ 8 then FailedWith s v.1 (tick s)
    else if s.core.safeReq then mode (tick s) = .safe else mode (tick s) = .boot ∧ bootStep (tick s) = 8 := by
  have h := advanceTicks_ticked s
  have e : tick s = checkStep (advanceTicks 1 s) := by simp [tick, bootTick, h.inColdBoot, h.bootStep, hc, h7]
  intro v
  have k := checkStep_spec (h.mode.trans (mode_of_inColdBoot hc))
  rw [e]
  rw [h.safeReq] at k
  split
  · next hv => exact h.sameAttempt.failedWith (by rwa [if_pos hv] at k)
  · next hv => rwa [if_neg hv] at k

theorem tick_step8 (hc : inColdBoot s = true) (h8 : bootStep s = 8) :
    let v := attemptVerdict (advanceTicks 1 s)
    if v.1 ≠ 0 then FailedWith s v.1 (tick s)
    else if s.core.load = .plinth ∨ s.core.safeReq then mode (tick s) = .safe
    else mode (tick s) = .boot ∧ bootStep (tick s) = 9 ∧ (tick s).img = v.2.2 ∧
      fget (tick s) Reg.GLOBAL_MODE Fld.GLOBAL_MODE_SLOT = loadCode s.core.load := by
  have h := advanceTicks_ticked s
  have e : tick s = applyStep (advanceTicks 1 s) := by simp [tick, bootTick, h.inColdBoot, h.bootStep, hc, h8]
  intro v
  have k := applyStep_spec (h.mode.trans (mode_of_inColdBoot hc))
  dsimp only at k
  rw [e]
  rw [h.safeReq, h.load] at k
  split
  · next hv => exact h.sameAttempt.failedWith (by rwa [if_pos hv] at k)
  · next hv => rwa [if_neg hv] at k

theorem tick_step9 (hc : inColdBoot s = true) (h9 : bootStep s = 9) :
    if s.core.safeReq then mode (tick s) = .safe
    else mode (tick s) = (if attemptPurpose s = 1 then .factory
      else if bitOf 9 s.core.filtered.toNat then .active else .standby) := by
  have h := advanceTicks_ticked s
  have e : tick s = restoreStep (advanceTicks 1 s) := by simp [tick, bootTick, h.inColdBoot, h.bootStep, hc, h9]
  rw [e]
  simpa only [h.safeReq, h.attemptPurpose, h.filtered] using restoreStep_spec (advanceTicks 1 s)

/-- In the other steps a tick moves the clocks alone. -/
theorem tick_idle (h2 : bootStep s ≠ 2) (h3 : bootStep s ≠ 3) (h7 : bootStep s ≠ 7) (h8 : bootStep s ≠ 8)
    (h9 : bootStep s ≠ 9) : Within [.time, .core] s (tick s) ∧ (tick s).core = tickedCore s := by
  have h := advanceTicks_ticked s
  have e : tick s = advanceTicks 1 s := by
    unfold tick
    exact bootTick_idle (by rwa [h.bootStep]) (by rwa [h.bootStep]) (by rwa [h.bootStep]) (by rwa [h.bootStep])
      (by rwa [h.bootStep])
  rw [e]
  exact ⟨(advanceTicks_within 1 s).mono rfl, h.core⟩

end Sys2Proof.Proofs.ColdBoot
end

section
/-! PROOF. The status bit of a fault source through a raise (17 R415). -/

namespace Sys2Proof.Proofs.FaultRaised

open Sys2Proof.Machine Sys2Proof.Laws

variable {s t : State}

/-! ### One bit of a register -/

theorem bitOf_eq_bitsOf (i n : Nat) : bitOf i n = (bitsOf i i n == 1) := by
  unfold bitOf bitsOf
  rw [show i + 1 - i = 1 by omega]
  rfl
/-- A bit that is written, and the bits beside it. -/
theorem bitOf_withBits (i j v n : Nat) : bitOf j (withBits i i v n) = if j = i then v % 2 == 1 else bitOf j n := by
  rw [bitOf_eq_bitsOf, bitOf_eq_bitsOf]
  split
  · next h =>
    subst h
    rw [bitsOf_withBits, show j + 1 - j = 1 by omega]
    rfl
  · next h =>
    rcases Nat.lt_or_gt_of_ne h with h | h
    · rw [bitsOf_withBits_below _ _ _ _ _ _ h]
    · rw [bitsOf_withBits_above _ _ _ _ _ _ h (by omega)]
theorem bitOf_rsetN_withBits (s : State) (a i j v : Nat) (hi : i < 32) :
    bitOf j (rgetN (rsetN s a (withBits i i v (rgetN s a))) a) = if j = i then v % 2 == 1 else bitOf j (rgetN s a) := by
  rw [rgetN_rsetN_same, Nat.mod_eq_of_lt (withBits_lt _ _ _ _ 32 hi (by omega) (rgetN_lt s a)), bitOf_withBits]

/-! ### A raise sets the status bit of its source (17 R415), and no raise clears one -/

/-- A status register that no write of FAULT_STAT reaches stays. -/
abbrev StatKept (g : Nat) (s t : State) : Prop := OnlyRegs (· ≠ Reg.FAULT_STAT g) s t

theorem StatKept.refl (g : Nat) (s : State) : StatKept g s s := OnlyRegs.refl _ s
theorem statKept_refreshHealth {g : Nat} (hg : g < 48) (h : StatKept g s t) : StatKept g s (refreshHealth t) := by
  have hpair : Reg.PAIR_STAT ≠ Reg.FAULT_STAT g := by simp only [Reg.PAIR_STAT, Reg.FAULT_STAT]; omega
  unfold refreshHealth
  exact ((h.fset (a := Reg.PAIR_STAT) hpair).fset (a := Reg.PAIR_STAT) hpair).same rfl
theorem statKept_refreshPins {g : Nat} (hg : g < 48) (h : StatKept g s t) : StatKept g s (refreshPins t) := by
  have hany : Reg.FAULT_ANY ≠ Reg.FAULT_STAT g := by simp only [Reg.FAULT_ANY, Reg.FAULT_STAT]; omega
  have hsum : Reg.FAULT_SUMMARY_LO ≠ Reg.FAULT_STAT g := by simp only [Reg.FAULT_SUMMARY_LO, Reg.FAULT_STAT]; omega
  unfold refreshPins
  exact statKept_refreshHealth hg (((((h.rsetN (a := Reg.FAULT_SUMMARY_LO) hsum).fset (a := Reg.FAULT_ANY) hany).fset
    (a := Reg.FAULT_ANY) hany).fset (a := Reg.FAULT_ANY) hany).same rfl)
theorem statKept_sendMsix {g v : Nat} (hg : g < 48) (h : StatKept g s t) : StatKept g s (sendMsix v t) := by
  unfold sendMsix
  split
  · exact h
  split
  · exact h.rsetN (by simp only [Reg.MSIX_PBA, Reg.FAULT_STAT]; omega)
  · exact h.emit
theorem statKept_groupVector {g k : Nat} (hg : g < 48) (h : StatKept g s t) : StatKept g s (groupVector k t) := by
  unfold groupVector
  split
  · exact statKept_sendMsix hg h
  · exact .ite h (statKept_sendMsix hg (h.same rfl))

theorem stat_raiseCounted {g : Nat} (n : Nat) (hg : g < 48) (s : State) :
    rgetN (raiseCounted n s) (Reg.FAULT_STAT g) = rgetN (rsetN s (Reg.FAULT_STAT (n / 32))
      (withBits (n % 32) (n % 32) 1 (rgetN s (Reg.FAULT_STAT (n / 32))))) (Reg.FAULT_STAT g) := by
  unfold raiseCounted
  extract_lets sev was a u v w x
  have hcnt : Reg.FAULT_CNT n ≠ Reg.FAULT_STAT g := by simp only [Reg.FAULT_CNT, Reg.FAULT_STAT]; omega
  have hrais : Reg.FAULT_RAISES ≠ Reg.FAULT_STAT g := by simp only [Reg.FAULT_RAISES, Reg.FAULT_STAT]; omega
  have hlast : Reg.FAULT_LAST ≠ Reg.FAULT_STAT g := by simp only [Reg.FAULT_LAST, Reg.FAULT_STAT]; omega
  have hx : StatKept g u x := statKept_refreshPins hg
    (((((StatKept.refl g u).count hcnt).count hrais).fset hlast).fset hlast)
  exact OnlyRegs.num (.ite (statKept_groupVector hg hx) hx) (by simp)

/-- A raise that is counted sets its own bit and leaves the others. -/
theorem faultStatus_raiseCounted {m n : Nat} (hm : m < 1536) (s : State) :
    faultStatus (raiseCounted n s) m = (faultStatus s m || decide (m = n)) := by
  unfold faultStatus
  rw [stat_raiseCounted n (by omega)]
  by_cases hg : m / 32 = n / 32
  · rw [hg, bitOf_rsetN_withBits _ _ _ _ _ (by omega)]
    by_cases h : m % 32 = n % 32
    · simp [show m = n by omega]
    · simp [h, show m ≠ n by rintro rfl; exact h rfl]
  · rw [rgetN_rsetN_ne _ _ (by simp only [Reg.FAULT_STAT]; omega)]
    simp [show m ≠ n by rintro rfl; exact hg rfl]

theorem faultStatus_congr (h : t.regs = s.regs) (m : Nat) : faultStatus t m = faultStatus s m :=
  congrArg (bitOf (m % 32)) (rgetN_congr h _)
theorem faultStatus_queueRec {m : Nat} (hm : m < 1536) (r : PatRec) (h : faultStatus s m = true) :
    faultStatus (queueRec r s) m = true := by
  have kept {t : State} (k : StatKept (m / 32) s t) : faultStatus t m = true :=
    (congrArg (bitOf (m % 32)) (k.num (by simp))).trans h
  have hdrop : Reg.PAT_DROPPED ≠ Reg.FAULT_STAT (m / 32) := by simp only [Reg.PAT_DROPPED, Reg.FAULT_STAT]; omega
  have htok : Reg.PAT_TOKENS ≠ Reg.FAULT_STAT (m / 32) := by simp only [Reg.PAT_TOKENS, Reg.FAULT_STAT]; omega
  unfold queueRec
  split
  · exact h
  split
  · exact (faultStatus_congr rfl m).trans h
  extract_lets tok s1 p s2 s3
  split
  · have h2 : faultStatus s2 m = true := kept (((StatKept.refl _ s).count hdrop).same rfl)
    unfold raiseNoRecord
    split
    · exact h2
    · rw [faultStatus_raiseCounted hm, h2, Bool.true_or]
  · exact kept (((StatKept.refl _ s).fset htok).same rfl)
/-- A source whose severity is not 0 stands in its status register after its raise. -/
theorem faultStatus_raise {n : Nat} (hn : n < 1536) (l : List Nat) (hs : faultSev s n ≠ 0) :
    faultStatus (raise n l s) n = true := by
  unfold raise
  extract_lets sev t
  rw [if_neg hs]
  have ht : faultStatus t n = true := by
    rw [faultStatus_raiseCounted hn, decide_eq_true rfl, Bool.or_true]
  have hend (u : State) (h : faultStatus u n = true) : faultStatus (cycleEnd s u) n = true := by
    unfold cycleEnd
    split
    · exact (faultStatus_congr rfl n).trans h
    · exact h
  exact hend _ (by split <;> [exact faultStatus_queueRec hn _ ht; exact ht])

end Sys2Proof.Proofs.FaultRaised
end

section
/-! PROOF. Temperature, synthesisers, die bridge, pin filters (01 R12, R18; 02 R47; 21 R510, R521). -/

namespace Sys2Proof.Proofs.BootSensors

open Sys2Proof.Machine Sys2Proof.Laws Sys2Proof.Proofs.BootSteady Sys2Proof.Proofs.BootFields Sys2Proof.Proofs.BootEntries
  Sys2Proof.Proofs.FaultRaised

variable {s t : State}

/-! ### Temperature (R47, 21 R521) -/

theorem lifeGet_lifeAdd (s : State) (k n : Nat) : lifeGet (lifeAdd s k n) k = (lifeGet s k + n) % 2 ^ 64 := by
  simp [lifeGet, lifeAdd, cget_cset]
/-- The trip: THERM_TRIP_N falls and is counted in the lifetime counters. -/
def tripped (s : State) : State :=
  emit (logEvent 4 [rgetN s Reg.GLOBAL_TJ] (lifeAdd (withCore s { s.core with thermTrip := .low }) 6 1))
    (.pin "THERM_TRIP_N" 0)
theorem thermalTrip_eq (h : s.core.thermTrip ≠ .low) :
    thermalTrip s = if mode (tripped s) == .safe || ctlStuck (tripped s) then tripped s
      else enterSafe false (tripped s) := by
  unfold thermalTrip
  rw [if_neg (by simpa using h)]
  rfl
theorem tripped_from (s : State) : Steady (withCore s { s.core with thermTrip := .low }) (tripped s) :=
  .emit (.logEvent (.upd rfl rfl (.refl _)))
theorem lifeGet_tripped (s : State) : lifeGet (tripped s) 6 = (lifeGet s 6 + 1) % 2 ^ 64 := by
  have hlog : lifeGet (tripped s) 6 = lifeGet (lifeAdd (withCore s { s.core with thermTrip := .low }) 6 1) 6 := by
    unfold tripped lifeGet
    rw [emit_long, (logEvent_within ..).part .life (by decide)]
  exact hlog.trans (lifeGet_lifeAdd _ 6 1)
theorem ctlStuck_tripped (s : State) : ctlStuck (tripped s) = ctlStuck s :=
  (steady_ctlStuck (tripped_from s)).trans (ctlStuck_withCore ..)

theorem rgetN_tj_thermalTrip (s : State) : rgetN (thermalTrip s) Reg.GLOBAL_TJ = rgetN s Reg.GLOBAL_TJ := by
  by_cases h : s.core.thermTrip = .low
  · simp [thermalTrip, h]
  · have k : rgetN (tripped s) Reg.GLOBAL_TJ = rgetN s Reg.GLOBAL_TJ := steady_num (tripped_from s) (by decide)
    rw [thermalTrip_eq h]
    split
    · exact k
    · exact (enterSafe_mode_carried false _).2.tj.trans k

theorem thermalTrip_spec (h : s.core.thermTrip ≠ .low) :
    (thermalTrip s).core.thermTrip = .low ∧ lifeGet (thermalTrip s) 6 = (lifeGet s 6 + 1) % 2 ^ 64 ∧
      (ctlStuck s = false → mode (thermalTrip s) = .safe) := by
  have htrip : (tripped s).core.thermTrip = .low := steady_thermTrip (tripped_from s)
  have hlife := lifeGet_tripped s
  rw [thermalTrip_eq h, ← ctlStuck_tripped s]
  split
  · next hd => exact ⟨htrip, hlife, fun hs => by simpa [hs] using hd⟩
  · obtain ⟨hm, hc⟩ := enterSafe_mode_carried false (tripped s)
    have hl : lifeGet (enterSafe false (tripped s)) 6 = lifeGet (tripped s) 6 := by
      unfold lifeGet
      rw [(enterSafe_within false _).part .life (by decide)]
    exact ⟨hc.trip.trans htrip, hl.trans hlife, fun _ => hm⟩

theorem ofInt_lt (w : Nat) (i : Int) : ofInt w i < 2 ^ w := by
  have hp : (0 : Int) < (2 ^ w : Nat) := by exact_mod_cast Nat.two_pow_pos w
  have h0 := Int.emod_nonneg i hp.ne'
  have h1 := Int.emod_lt_of_pos i hp
  unfold ofInt
  omega

/-- A reading goes to GLOBAL_TJ before anything that it sets off. -/
def tjRead (tmin tmax : Int) (s : State) : State :=
  rsetN { s with pat := { s.pat with bands := (bandNow s :: bandOf tmax :: s.pat.bands).eraseDups } } Reg.GLOBAL_TJ
    (ofInt 16 tmin * 65536 + ofInt 16 tmax)
theorem tjReading_eq (hm : mode s ≠ .reset) (tmin tmax : Int) :
    tjReading tmin tmax s = if 1040 ≤ tmax then thermalTrip (tjRead tmin tmax s) else tjRead tmin tmax s := by
  unfold tjReading
  rw [if_neg (by simpa using hm)]
  rfl
theorem rgetN_tjRead (tmin tmax : Int) (s : State) :
    rgetN (tjRead tmin tmax s) Reg.GLOBAL_TJ = ofInt 16 tmin * 65536 + ofInt 16 tmax := by
  have hmin := ofInt_lt 16 tmin
  have hmax := ofInt_lt 16 tmax
  rw [tjRead, rgetN_rsetN_same]
  omega
theorem ctlStuck_tjRead (tmin tmax : Int) (s : State) : ctlStuck (tjRead tmin tmax s) = ctlStuck s := by
  have h (a : Nat) (f : FieldRow) (ha : a ≠ Reg.GLOBAL_TJ) : fget (tjRead tmin tmax s) a f = fget s a f :=
    (fget_rsetN_ne _ f _ ha).trans (fget_congr rfl a f)
  simp only [ctlStuck, inColdBoot, mode, bootStep, fbit, h Reg.GLOBAL_MODE _ (by decide),
    h Reg.GLOBAL_BOOT_STAT _ (by decide)]

theorem tjReading_spec (hm : mode s ≠ .reset) (tmin tmax : Int) :
    let t := tjReading tmin tmax s
    rgetN t Reg.GLOBAL_TJ = ofInt 16 tmin * 65536 + ofInt 16 tmax ∧
      (tmax < 1040 → t.core = s.core ∧ RegsWithin [Reg.GLOBAL_TJ] s t) ∧
      (1040 ≤ tmax → s.core.thermTrip ≠ .low → t.core.thermTrip = .low ∧
        lifeGet t 6 = (lifeGet s 6 + 1) % 2 ^ 64 ∧
        (ctlStuck s = false → mode t = .safe)) := by
  intro t
  have et : t = _ := tjReading_eq hm tmin tmax
  by_cases hot : 1040 ≤ tmax
  · rw [if_pos hot] at et
    rw [et]
    refine ⟨(rgetN_tj_thermalTrip _).trans (rgetN_tjRead ..), fun h => absurd hot (not_le.2 h), fun _ htrip => ?_⟩
    rw [← ctlStuck_tjRead tmin tmax s]
    exact thermalTrip_spec (s := tjRead tmin tmax s) htrip
  · rw [if_neg hot] at et
    rw [et]
    exact ⟨rgetN_tjRead .., fun _ => ⟨rfl, OnlyRegs.rsetN (s := s) ((OnlyRegs.refl _ s).same rfl) (by simp)⟩,
      fun h => absurd h hot⟩

/-! ### The synthesisers' locks (01 R12) -/

/-- A GLOBAL register, alone but for those that report a raise. -/
theorem reported_rsetN {a n : Nat} {u : State} (h : OnlyRegs Alarm (rsetN s a n) u) : RegsReported [a] s u :=
  ((OnlyRegs.refl _ s).rsetN (.inr (by simp))).trans (h.mono fun _ => .inl)

/-- The lock bit of a synthesiser is written. -/
def setLock (i v : Nat) (s : State) : State := rsetN s Reg.GLOBAL_CLK_LOCK (withBits i i v (rgetN s Reg.GLOBAL_CLK_LOCK))
theorem bitOf_setLock (i j v : Nat) (s : State) (hi : i < 32) : bitOf j (rgetN (setLock i v s) Reg.GLOBAL_CLK_LOCK) =
    if j = i then v % 2 == 1 else bitOf j (rgetN s Reg.GLOBAL_CLK_LOCK) := bitOf_rsetN_withBits s _ i j v hi
/-- The condition of a clock that is unlocked begins, where it does not stand already. -/
def unlockBegun (s : State) : State :=
  if inService s && !(unlockedClocks s).isEmpty && !(Src.clkUnlock ∈ s.pat.conds) then
    { s with pat := { s.pat with conds := s.pat.conds ++ [Src.clkUnlock] } }
  else s
theorem unlockBegun_regs (s : State) : (unlockBegun s).regs = s.regs := by
  unfold unlockBegun
  split <;> rfl

theorem synthLoss_eq (hm : mode s ≠ .reset) {i : Nat} (hb : bitOf i (rgetN s Reg.GLOBAL_CLK_LOCK) = true) :
    synthLoss i s = raise Src.clkUnlock [i] (unlockBegun (setLock i 0 s)) := by
  have hc : ¬ (mode s == .reset || !bitOf i (rgetN s Reg.GLOBAL_CLK_LOCK)) = true := by simp [hm, hb]
  exact if_neg hc

theorem synthLoss_spec (hm : mode s ≠ .reset) {i : Nat} (hi : i < 9)
    (hb : bitOf i (rgetN s Reg.GLOBAL_CLK_LOCK) = true) :
    let t := synthLoss i s
    (∀ j, bitOf j (rgetN t Reg.GLOBAL_CLK_LOCK) = (bitOf j (rgetN s Reg.GLOBAL_CLK_LOCK) && decide (j ≠ i))) ∧
      (faultSev s Src.clkUnlock ≠ 0 → faultStatus t Src.clkUnlock = true) ∧
      RegsReported [Reg.GLOBAL_CLK_LOCK] s t := by
  intro t
  have et : t = _ := synthLoss_eq hm hb
  have hregs := unlockBegun_regs (setLock i 0 s)
  have k : Steady (unlockBegun (setLock i 0 s)) t := et ▸ .raise (.refl _)
  refine ⟨fun j => ?_, fun hs => ?_, ?_⟩
  · rw [steady_num k (by decide), rgetN_congr hregs, bitOf_setLock i j 0 s (by omega)]
    by_cases hj : j = i <;> simp [hj]
  · have e : faultSev (unlockBegun (setLock i 0 s)) Src.clkUnlock = faultSev s Src.clkUnlock :=
      (fget_congr hregs _ _).trans (fget_rsetN_ne s _ _ (by decide))
    rw [et]
    exact faultStatus_raise (by decide) _ (by rwa [e])
  · rw [et]
    exact reported_rsetN (raise_regs (by decide) ((OnlyRegs.refl _ (setLock i 0 s)).same hregs))

theorem clockCond_regs {u : State} (h : OnlyRegs Alarm u t) : OnlyRegs Alarm u (clockCond t) := by
  unfold clockCond
  split
  · exact condEnd_regs h
  · exact .ite (condBegin_regs (by decide) h) (condEnd_regs h)

theorem synthLock_eq (hm : mode s ≠ .reset) (i : Nat) : synthLock i s = clockCond (setLock i 1 s) :=
  if_neg (by simpa using hm)
theorem synthLock_spec (hm : mode s ≠ .reset) {i : Nat} (hi : i < 32) :
    let t := synthLock i s
    (∀ j, bitOf j (rgetN t Reg.GLOBAL_CLK_LOCK) = (bitOf j (rgetN s Reg.GLOBAL_CLK_LOCK) || decide (j = i))) ∧
      RegsReported [Reg.GLOBAL_CLK_LOCK] s t := by
  intro t
  have et : t = _ := synthLock_eq hm i
  have k : Steady (setLock i 1 s) t := et ▸ .clockCond (.refl _)
  refine ⟨fun j => ?_, ?_⟩
  · rw [steady_num k (by decide), bitOf_setLock i j 1 s hi]
    by_cases hj : j = i <;> simp [hj]
  · rw [et]
    exact reported_rsetN (clockCond_regs (OnlyRegs.refl _ _))

/-! ### The die bridge (01 R18) -/

theorem setBridgeRun_regs (d n : Nat) (s : State) : (setBridgeRun d n s).regs = s.regs := rfl
theorem bridgeRun_setBridgeRun (d n : Nat) (s : State) : bridgeRun d (setBridgeRun d n s) = n := by
  unfold bridgeRun setBridgeRun
  split <;> simp
theorem checkFails_steady (d : Nat) (bad : Bool) (s : State) : Steady s (checkFails 6 d bad s).2 := .observe (.refl s)

/-- A failed transfer is counted: in the run of its direction, and in GLOBAL_BRIDGE_RETRY. -/
def retried (d : Nat) (s : State) : State := count (setBridgeRun d (bridgeRun d s + 1) s) Reg.GLOBAL_BRIDGE_RETRY
theorem bridgeRun_retried (d : Nat) (s : State) : bridgeRun d (retried d s) = bridgeRun d s + 1 :=
  bridgeRun_setBridgeRun d _ s
theorem retry_retried (d : Nat) (s : State) : rgetN (retried d s) Reg.GLOBAL_BRIDGE_RETRY =
    min 0xFFFFFFFF (rgetN s Reg.GLOBAL_BRIDGE_RETRY + 1) := by
  rw [retried, rgetN_count_same, rgetN_congr (setBridgeRun_regs d _ s)]
/-- The bridge has failed: FAILED and its fault. -/
def bridgeFailed (s : State) : State :=
  raise Src.bridgeFail [0] (fset s Reg.GLOBAL_BRIDGE_STAT Fld.GLOBAL_BRIDGE_STAT_FAILED 1)
theorem bridgeFailed_from (s : State) :
    Steady (fset s Reg.GLOBAL_BRIDGE_STAT Fld.GLOBAL_BRIDGE_STAT_FAILED 1) (bridgeFailed s) := .raise (.refl _)

theorem bridgeTransfer_eq {d : Nat} (bad : Bool) (hb : bitOf d (rgetN s Reg.GLOBAL_BRIDGE_STAT) = true) :
    bridgeTransfer d bad s = if (checkFails 6 d bad s).1 then
        if bridgeRun d s = 16 then bridgeFailed (retried d (checkFails 6 d bad s).2)
        else retried d (checkFails 6 d bad s).2
      else setBridgeRun d 0 (checkFails 6 d bad s).2 := by
  have hrun := steady_bridgeRun (checkFails_steady d bad s) d
  unfold bridgeTransfer
  dsimp only
  rw [if_neg (by simp only [hb]; decide), hrun]
  cases (checkFails 6 d bad s).1 with
  | false => rfl
  | true => simp [bridgeFailed, retried, hrun]

theorem bridgeTransfer_spec {d : Nat} (bad : Bool) (hb : bitOf d (rgetN s Reg.GLOBAL_BRIDGE_STAT) = true) :
    let t := bridgeTransfer d bad s
    if (checkFails 6 d bad s).1 = true then bridgeRun d t = bridgeRun d s + 1 ∧
      rgetN t Reg.GLOBAL_BRIDGE_RETRY = min 0xFFFFFFFF (rgetN s Reg.GLOBAL_BRIDGE_RETRY + 1) ∧
      (bridgeRun d s = 16 → fbit t Reg.GLOBAL_BRIDGE_STAT Fld.GLOBAL_BRIDGE_STAT_FAILED = true)
    else bridgeRun d t = 0 ∧ rgetN t Reg.GLOBAL_BRIDGE_RETRY = rgetN s Reg.GLOBAL_BRIDGE_RETRY := by
  intro t
  have et : t = _ := bridgeTransfer_eq bad hb
  have k := checkFails_steady d bad s
  set u := (checkFails 6 d bad s).2
  have hrun : bridgeRun d (retried d u) = bridgeRun d s + 1 :=
    (bridgeRun_retried d u).trans (congrArg (· + 1) (steady_bridgeRun k d))
  have hretry : rgetN (retried d u) Reg.GLOBAL_BRIDGE_RETRY = min 0xFFFFFFFF (rgetN s Reg.GLOBAL_BRIDGE_RETRY + 1) := by
    rw [retry_retried, steady_num k (by decide)]
  rw [et]
  split
  · split
    · have kf := bridgeFailed_from (retried d u)
      refine ⟨(steady_bridgeRun kf d).trans hrun, ?_, fun _ => ?_⟩
      · rw [steady_num kf (by decide), rgetN_fset_ne _ _ _ (by decide), hretry]
      · rw [steady_bit kf _ (by decide), fbit, fget_fset_same _ _ _ _ (by decide) (by decide)]
        rfl
    · next h => exact ⟨hrun, hretry, fun h16 => absurd h16 h⟩
  · exact ⟨bridgeRun_setBridgeRun d 0 u, (rgetN_congr (setBridgeRun_regs d 0 u) _).trans (steady_num k (by decide))⟩

/-- What the condition of the bridge may set: FAILED, and its fault. -/
theorem bridgeCond_spec (s : State) :
    (∀ j, j < 2 → bitOf j (rgetN (bridgeCond s) Reg.GLOBAL_BRIDGE_STAT) = bitOf j (rgetN s Reg.GLOBAL_BRIDGE_STAT)) ∧
      (∀ d, bridgeRun d (bridgeCond s) = bridgeRun d s) ∧ RegsReported [Reg.GLOBAL_BRIDGE_STAT] s (bridgeCond s) := by
  unfold bridgeCond
  extract_lets b down
  have hset (u : State) : Steady u (condSet Src.bridgeFail down [0] u) := .condSet (.refl u)
  have hrep (u : State) : OnlyRegs Alarm u (condSet Src.bridgeFail down [0] u) :=
    condSet_regs (by decide) (OnlyRegs.refl _ u)
  split
  · refine ⟨fun j hj => ?_, fun d => steady_bridgeRun (hset _) d, reported_rsetN (hrep _)⟩
    rw [steady_num (hset _) (by decide)]
    exact (bitOf_rsetN_withBits s b 2 j 1 (by decide)).trans (if_neg (by omega))
  · exact ⟨fun j _ => by rw [steady_num (hset s) (by decide)], fun d => steady_bridgeRun (hset s) d,
      (hrep s).mono fun _ => .inl⟩

theorem bridgeTrained_eq (hm : mode s ≠ .reset) (d : Nat) : bridgeTrained d s = bridgeCond (setBridgeRun d 0
    (rsetN s Reg.GLOBAL_BRIDGE_STAT (withBits d d 1 (rgetN s Reg.GLOBAL_BRIDGE_STAT)))) :=
  if_neg (by simpa using hm)
theorem bridgeTrained_spec (hm : mode s ≠ .reset) {d : Nat} (hd : d < 2) :
    let t := bridgeTrained d s
    bitOf d (rgetN t Reg.GLOBAL_BRIDGE_STAT) = true ∧ bridgeRun d t = 0 ∧ RegsReported [Reg.GLOBAL_BRIDGE_STAT] s t := by
  intro t
  have et : t = _ := bridgeTrained_eq hm d
  obtain ⟨hbit, hrun, hreg⟩ := bridgeCond_spec (setBridgeRun d 0
    (rsetN s Reg.GLOBAL_BRIDGE_STAT (withBits d d 1 (rgetN s Reg.GLOBAL_BRIDGE_STAT))))
  rw [et]
  refine ⟨?_, (hrun d).trans (bridgeRun_setBridgeRun ..), OnlyRegs.trans ?_ hreg⟩
  · rw [hbit d hd, rgetN_congr (setBridgeRun_regs ..), bitOf_rsetN_withBits s _ d d 1 (by omega), if_pos rfl]
    rfl
  · exact ((OnlyRegs.refl _ s).rsetN (.inr (by simp))).same (setBridgeRun_regs ..)

/-! ### The pin filters (21 R510) -/

theorem bitOf_setFiltered (i j : Nat) (level : Bool) (s : State) (hi : i < 15) :
    bitOf j (setFiltered i level s).core.filtered.toNat =
      if j = i then level else bitOf j s.core.filtered.toNat := by
  have hw : withBits i i (b2n level) s.core.filtered.toNat < 2 ^ 15 :=
    withBits_lt _ _ _ _ 15 hi (by omega) s.core.filtered.isLt
  have e : (setFiltered i level s).core.filtered.toNat = withBits i i (b2n level) s.core.filtered.toNat :=
    Nat.mod_eq_of_lt hw
  rw [e, bitOf_withBits]
  cases level <;> rfl

end Sys2Proof.Proofs.BootSensors
end

section
/-! PROOF. O56, the steps of a cold boot and the sensors. -/

namespace Sys2Proof.Proofs.BootStepsAndSensors

open Sys2Proof.Machine Sys2Proof.Laws Sys2Proof.Proofs.BootFields Sys2Proof.Proofs.BootEntries
  Sys2Proof.Proofs.BootAttempts Sys2Proof.Proofs.BootProgress Sys2Proof.Proofs.BootTicks Sys2Proof.Proofs.ColdBoot
  Sys2Proof.Proofs.BootSensors

variable {s : State}

/-- A GO of the host through its register. -/
theorem hostBootGo_spec {m : Fin 9} (len : BitVec 14) (hr : Reaches s m Reg.GLOBAL_HOST_BOOT)
    (hw : fbit s Reg.GLOBAL_BOOT_STAT Fld.GLOBAL_BOOT_STAT_WAIT_HOST = true) :
    Answers (.hostBootGo m len) s (fun t =>
      if len.toNat = 0 ∨ 12288 < len.toNat then t = grantTo (blockPort Reg.GLOBAL_HOST_BOOT) m s
      else bootStep t = 7 ∧ fbit t Reg.GLOBAL_BOOT_STAT Fld.GLOBAL_BOOT_STAT_WAIT_HOST = false ∧
        t.core.hostLen = len.toNat ∧ t.core.hashed = rawOf (stagingRun s) len.toNat ∧
        RegsWithin [Reg.GLOBAL_BOOT_STAT] s t) := by
  refine ⟨_, rfl, ?_⟩
  rw [hostWrite_reaches hr, hostBootWrite_go]
  have k := hostGo_spec (s := grantTo (blockPort Reg.GLOBAL_HOST_BOOT) m s) len.toNat hw
  split
  · next h => rwa [if_pos h] at k
  · next h => rwa [if_neg h] at k

/-- What a tick does in a cold boot, whatever its step. -/
theorem tick_spec (hc : inColdBoot s = true) :
    let t := tick s
    let v := attemptVerdict (advanceTicks 1 s)
    if bootStep s = 2 then (if s.core.safeReq then mode t = .safe else mode t = .boot ∧ bootStep t = 3)
    else if bootStep s = 3 then (if heating s then heating t = true
      else if s.core.safeReq then mode t = .safe
      else if sext 16 (fget s Reg.GLOBAL_TJ Fld.GLOBAL_TJ_TJ_MIN) < -160 then bootStep t = 3 ∧ heating t = true
      else bootStep t = 5 ∧ t.core.load = (if s.core.modeSel = 0 then slotSrc (bootPtr s)
        else if s.core.modeSel = 3 then .plinth else .host))
    else if bootStep s = 7 then (if v.1 ≠ 0 ∧ v.1 ≠ 8 then FailedWith s v.1 t
      else if s.core.safeReq then mode t = .safe else mode t = .boot ∧ bootStep t = 8)
    else if bootStep s = 8 then (if v.1 ≠ 0 then FailedWith s v.1 t
      else if s.core.load = .plinth ∨ s.core.safeReq then mode t = .safe
      else mode t = .boot ∧ bootStep t = 9 ∧ t.img = v.2.2 ∧
        fget t Reg.GLOBAL_MODE Fld.GLOBAL_MODE_SLOT = loadCode s.core.load)
    else if bootStep s = 9 then (if s.core.safeReq then mode t = .safe
      else mode t = (if attemptPurpose s = 1 then .factory else if bitOf 9 s.core.filtered.toNat then .active else .standby))
    else Within [.time, .core] s t ∧ t.core = tickedCore s := by
  intro t v
  by_cases h2 : bootStep s = 2
  · rw [if_pos h2]
    exact tick_step2 hc h2
  rw [if_neg h2]
  by_cases h3 : bootStep s = 3
  · rw [if_pos h3]
    exact tick_step3 hc h3
  rw [if_neg h3]
  by_cases h7 : bootStep s = 7
  · rw [if_pos h7]
    exact tick_step7 hc h7
  rw [if_neg h7]
  by_cases h8 : bootStep s = 8
  · rw [if_pos h8]
    exact tick_step8 hc h8
  rw [if_neg h8]
  by_cases h9 : bootStep s = 9
  · rw [if_pos h9]
    exact tick_step9 hc h9
  rw [if_neg h9]
  exact tick_idle h2 h3 h7 h8 h9

/-- The heat phase ends at -20 °C. -/
theorem heatRead_spec (h : heating s = true) :
    if -160 ≤ sext 16 (fget s Reg.GLOBAL_TJ Fld.GLOBAL_TJ_TJ_MIN)
    then heating (heatRead s) = false ∧ bootStep (heatRead s) = 5 else heatRead s = s := by
  split
  · next hw => exact heatRead_cold h hw
  · next hw => simp [heatRead, hw]

/-- A filter that expires shows its level, in RESET the filter of POWER_FAIL_N alone. -/
theorem glitchFilter_spec (i : Fin 15) (level : Bool) : Answers (.glitchFilterExpire i level) s (fun t => t.regs = s.regs ∧
    ∀ j, j < 15 → bitOf j t.core.filtered.toNat = (if j = i.val ∧ (mode s ≠ .reset ∨ j = 10) then level
      else bitOf j s.core.filtered.toNat)) := by
  refine ⟨_, rfl, ?_⟩
  have hi10 : (i != 10) = decide (i.val ≠ 10) := by
    by_cases h : i = 10
    · simp [h]
    · simp [h, show i.val ≠ 10 from fun e => h (Fin.ext e)]
  rw [hi10]
  split
  · next h =>
    simp only [Bool.and_eq_true, beq_iff_eq, decide_eq_true_eq] at h
    refine ⟨rfl, fun j _ => (if_neg ?_).symm⟩
    rintro ⟨rfl, hm | h10⟩
    · exact hm h.1
    · exact h.2 h10
  · next h =>
    simp only [Bool.and_eq_true, beq_iff_eq, decide_eq_true_eq, not_and_or, not_not] at h
    refine ⟨rfl, fun j _ => (bitOf_setFiltered i j level s i.isLt).trans ?_⟩
    by_cases hj : j = i.val
    · rw [if_pos hj, if_pos ⟨hj, h.imp id hj.trans⟩]
    · rw [if_neg hj, if_neg fun k => hj k.1]

/-- Settles O56: step by step through the cold boot, then the sensors; an entry to SAFE and the failed attempt are the two
facts that most steps end in. -/
theorem bootStepsAndSensors : Obligations.BootStepsAndSensors := by
  unfold Obligations.BootStepsAndSensors
  refine ⟨fun s hc => ?_, fun s => ?_⟩
  · refine ⟨fun h1 hs => ⟨_, rfl, clocksLocked_spec hc h1 hs⟩, fun h1 hl => ⟨_, rfl, ctlTimeout_spec hc h1 hl⟩,
      fun hh => ⟨⟨_, rfl, heatRead_spec hh⟩, ⟨_, rfl, heatSlow_spec hh⟩⟩,
      fun hl hd => ?train, fun hl hh hd => ?stream,
      fun m len hr hw => hostBootGo_spec len hr hw, fun hp => ?tick⟩
    case train =>
      exact ⟨fun serdes => ⟨_, rfl, trainDone_fails hl hd serdes⟩, ⟨_, rfl, trainDone_serdes_fails hl hd⟩,
        fun hs => ⟨_, rfl, trainDone_done hl hd hs⟩⟩
    case stream =>
      exact ⟨⟨_, rfl, streamDone_fails false hl hh hd (.inl rfl)⟩,
        fun hb => ⟨_, rfl, streamDone_fails true hl hh hd (.inr hb)⟩,
        fun hb hs => ⟨_, rfl, streamDone_done hl hh hd hb hs⟩⟩
    case tick =>
      refine ⟨tick s, ?_, tick_spec hc⟩
      unfold step
      rw [hp]
  · exact ⟨fun hm tmin tmax => ⟨_, rfl, tjReading_spec hm tmin tmax⟩,
      fun hm i hb => ⟨_, rfl, (synthLoss_spec hm i.isLt hb).imp (fun h j _ => h j) id⟩,
      fun hm i => ⟨_, rfl, (synthLock_spec hm (show i.val + 2 < 32 by omega)).imp (fun h j _ => h j) id⟩,
      fun d bad hb => ⟨_, rfl, bridgeTransfer_spec bad hb⟩,
      fun hm d => ⟨_, rfl, bridgeTrained_spec hm d.isLt⟩,
      fun i level => glitchFilter_spec i level⟩

end Sys2Proof.Proofs.BootStepsAndSensors
end

section
/-! PROOF. O32, the take ring: its records, its producer count, the validation of a salvo (04 R93-R98, R101). -/

set_option Elab.async false

namespace Sys2Proof.Proofs.TakeRing

open Sys2Proof.Machine Sys2Proof.Laws

variable {s t : State}

/-! ### Bits and fields -/

/-- A field of one bit, set and read. -/
theorem fbit_fset_one (s : State) (a : Nat) (f : FieldRow) (hf : f.hi < 32) (hl : f.lo = f.hi) :
    fbit (fset s a f 1) a f = true := by
  unfold fbit
  rw [fget_fset_same _ _ _ _ hf (by omega), hl, Nat.add_sub_cancel_left]
  rfl
theorem fbit_fset_field (s : State) (a : Nat) (f g : FieldRow) (v : Nat) (hf : f.hi < 32) (hl : f.lo ≤ f.hi + 1)
    (h : f.hi < g.lo ∨ g.hi < f.lo) : fbit (fset s a f v) a g = fbit s a g := by
  unfold fbit
  rw [fget_fset_field _ _ _ _ _ hf hl h]
theorem fbit_fset_ne (s : State) {a b : Nat} (f g : FieldRow) (v : Nat) (h : b ≠ a) :
    fbit (fset s a f v) b g = fbit s b g := by
  unfold fbit
  rw [fget_fset_ne _ _ _ _ h]

/-! ### What a raise leaves -/

theorem raise_xp (n : Nat) (l : List Nat) (s : State) : (raise n l s).xp = s.xp :=
  (raise_within n l s).part .xp (by decide)
theorem raise_onlyAlarm {n : Nat} (hn : n < 1536) (l : List Nat) (s : State) : OnlyRegs Alarm s (raise n l s) :=
  raise_regs hn (OnlyRegs.refl _ s)

/-! ### Writes of the ring and of its producer count (R94, R95) -/

theorem takePi_lt (s : State) : takePi s < 8192 := bitsOf_lt 12 0 _

theorem takeFlag_set (f : FieldRow) (s : State) (hf : f.hi < 32 := by decide) (hl : f.lo = f.hi := by rfl) :
    fbit (takeFlag f s) Reg.XP_TAKE_STAT f = true := fbit_fset_one s _ f hf hl
theorem takeFlag_regs (f : FieldRow) (s : State) : RegsWithin [Reg.XP_TAKE_STAT] s (takeFlag f s) :=
  (OnlyRegs.refl _ s).fset (by simp)

section Ring
variable {m w : Nat} {v : Word}

/-- A word of the ring that holds a record not yet freed. -/
abbrev ringHeld (s : State) (w : Nat) : Prop := (w / 4 + 4096 - takeCi s % 4096) % 4096 < takeOcc s

theorem ringWrite_ignored (hm : mayFeed s m = false) : ringWrite m w v s = takeFlag Fld.XP_TAKE_STAT_IGNORED s := by
  simp [ringWrite, hm]
theorem ringWrite_overrun (hm : mayFeed s m = true) (h : ringHeld s w) :
    ringWrite m w v s = takeFlag Fld.XP_TAKE_STAT_OVERRUN s := by
  simp [ringWrite, hm, h]
theorem ringWrite_stored (hm : mayFeed s m = true) (h : ¬ ringHeld s w) :
    ringWrite m w v s = rset s (Reg.XP_TAKE_RING w) v := by
  simp [ringWrite, hm, h]

theorem ringWrite_spec (m w : Nat) (v : Word) (s : State) :
    let t := ringWrite m w v s
    t.xp = s.xp ∧
      if mayFeed s m = false then
        fbit t Reg.XP_TAKE_STAT Fld.XP_TAKE_STAT_IGNORED = true ∧ RegsWithin [Reg.XP_TAKE_STAT] s t
      else if ringHeld s w then
        fbit t Reg.XP_TAKE_STAT Fld.XP_TAKE_STAT_OVERRUN = true ∧ RegsWithin [Reg.XP_TAKE_STAT] s t
      else rget t (Reg.XP_TAKE_RING w) = v ∧ RegsWithin [Reg.XP_TAKE_RING w] s t := by
  intro t
  by_cases hm : mayFeed s m = false
  · have ht : t = _ := ringWrite_ignored hm
    rw [if_pos hm, ht]
    exact ⟨rfl, takeFlag_set _ s, takeFlag_regs _ s⟩
  rw [if_neg hm]
  rw [Bool.not_eq_false] at hm
  by_cases hh : ringHeld s w
  · have ht : t = _ := ringWrite_overrun hm hh
    rw [if_pos hh, ht]
    exact ⟨rfl, takeFlag_set _ s, takeFlag_regs _ s⟩
  · have ht : t = _ := ringWrite_stored hm hh
    rw [if_neg hh, ht]
    exact ⟨rfl, rget_rset_same .., (OnlyRegs.refl _ s).rset (by simp)⟩

end Ring

section Producer
variable {m n : Nat}

/-- A producer count that does not advance is the one that stands. -/
theorem eq_of_cntDist_eq_zero {a b : Nat} (ha : a < 8192) (hb : b < 8192) (h : cntDist a b = 0) : b = a := by
  unfold cntDist at h
  omega

/-- The producer count takes a value, of which the mirror agent's journal takes note. -/
def putPi (m n : Nat) (s : State) : State :=
  let u := fset s Reg.XP_TAKE_PI Fld.XP_TAKE_PI_PI n
  if m = 2 then { u with xp := { u.xp with journalTo := n } } else u
theorem putPi_regs (m n : Nat) (s : State) : (putPi m n s).regs = (fset s Reg.XP_TAKE_PI Fld.XP_TAKE_PI_PI n).regs := by
  unfold putPi
  split <;> rfl
theorem putPi_salvos (m n : Nat) (s : State) : (putPi m n s).xp.salvos = s.xp.salvos := by
  unfold putPi
  split <;> rfl

theorem piWrite_ignored (hm : mayFeed s m = false) : piWrite m n s = takeFlag Fld.XP_TAKE_STAT_IGNORED s := by
  simp [piWrite, hm]
theorem piWrite_still (hm : mayFeed s m = true) (hn : n < 8192) (h : cntDist (takePi s) n = 0) : piWrite m n s = s := by
  simp [piWrite, hm, Nat.mod_eq_of_lt hn, h]
theorem piWrite_overrun (hm : mayFeed s m = true) (hn : n < 8192) (h : 4096 - takeOcc s < cntDist (takePi s) n) :
    piWrite m n s = raise Src.takeOverrun [0] (takeFlag Fld.XP_TAKE_STAT_OVERRUN s) := by
  simp [piWrite, hm, Nat.mod_eq_of_lt hn, h, show cntDist (takePi s) n ≠ 0 by omega]
theorem piWrite_taken (hm : mayFeed s m = true) (hn : n < 8192) (h0 : cntDist (takePi s) n ≠ 0)
    (h : ¬ 4096 - takeOcc s < cntDist (takePi s) n) : piWrite m n s = putPi m n s := by
  simp [piWrite, putPi, hm, Nat.mod_eq_of_lt hn, h0, h]

theorem piWrite_spec (m : Nat) (hn : n < 8192) (s : State) :
    let t := piWrite m n s
    t.xp.salvos = s.xp.salvos ∧
      if mayFeed s m = false then
        takePi t = takePi s ∧ fbit t Reg.XP_TAKE_STAT Fld.XP_TAKE_STAT_IGNORED = true
      else if 4096 - takeOcc s < cntDist (takePi s) n then
        takePi t = takePi s ∧ fbit t Reg.XP_TAKE_STAT Fld.XP_TAKE_STAT_OVERRUN = true
      else takePi t = n ∧ RegsWithin [Reg.XP_TAKE_PI] s t := by
  intro t
  have kept (f : FieldRow) : takePi (takeFlag f s) = takePi s := fget_fset_ne _ _ _ _ (by decide)
  by_cases hm : mayFeed s m = false
  · have ht : t = _ := piWrite_ignored hm
    rw [if_pos hm, ht]
    exact ⟨rfl, kept _, takeFlag_set _ s⟩
  rw [if_neg hm]
  rw [Bool.not_eq_false] at hm
  by_cases hover : 4096 - takeOcc s < cntDist (takePi s) n
  · have ht : t = _ := piWrite_overrun hm hn hover
    have hr := raise_onlyAlarm (n := Src.takeOverrun) (by decide) [0] (takeFlag Fld.XP_TAKE_STAT_OVERRUN s)
    rw [if_pos hover, ht]
    exact ⟨congrArg XpSt.salvos (raise_xp ..), (hr.field (a := Reg.XP_TAKE_PI) (by decide) _).trans (kept _),
      (hr.bit (a := Reg.XP_TAKE_STAT) (by decide) _).trans (takeFlag_set _ s)⟩
  rw [if_neg hover]
  by_cases h0 : cntDist (takePi s) n = 0
  · have ht : t = s := piWrite_still hm hn h0
    rw [ht]
    exact ⟨rfl, (eq_of_cntDist_eq_zero (takePi_lt s) hn h0).symm, OnlyRegs.refl _ s⟩
  · have ht : t = _ := piWrite_taken hm hn h0 hover
    have hpi : fget (fset s Reg.XP_TAKE_PI Fld.XP_TAKE_PI_PI n) Reg.XP_TAKE_PI Fld.XP_TAKE_PI_PI = n :=
      (fget_fset_same _ _ _ _ (by decide) (by decide)).trans (Nat.mod_eq_of_lt hn)
    rw [ht]
    exact ⟨putPi_salvos .., (fget_congr (putPi_regs ..) _ _).trans hpi,
      ((OnlyRegs.refl _ s).fset (by simp)).same (putPi_regs ..)⟩

end Producer

/-! ### Validation reads the ring and the image alone -/

theorem takeRec4_congr (h : t.regs = s.regs) (c : Nat) : takeRec4 t c = takeRec4 s c := by
  simp only [takeRec4, rgetN_congr h]
theorem checkRecs_congr (h : t.regs = s.regs) (hi : t.img = s.img) (first n k : Nat) (t0 t1 : List Take) :
    checkRecs t first n k t0 t1 = checkRecs s first n k t0 t1 := by
  induction k generalizing t0 t1 with
  | zero => rfl
  | succ k ih => simp only [checkRecs, takeRec4_congr h, hi, ih]

/-- Without a run that ends with LAST, no record of the range has LAST. -/
theorem takeRun_none {k c : Nat} (h : takeRun s k c = none) {i : Nat} (hi : i < k) :
    bitOf 16 (takeRec4 s (c + i)).2.1 = false := by
  induction k generalizing c i with
  | zero => omega
  | succ k ih =>
    unfold takeRun at h
    split at h
    · cases h
    · next hbit =>
      cases i with
      | zero => simpa using hbit
      | succ i =>
        rw [show c + (i + 1) = c + 1 + i by omega]
        exact ih (Option.map_eq_none_iff.1 h) (by omega)

/-! ### Freeing (R103) and abandoned tails (R96) -/

theorem refreshHeld_xp (s : State) : (refreshHeld s).xp = s.xp := (refreshHeld_within s).part .xp (by decide)
theorem takeFree_xp (s : State) : (takeFree s).xp = { s.xp with salvos := s.xp.salvos.dropWhile salvoDone } :=
  refreshHeld_xp _
theorem takeFree_validated (s : State) : (takeFree s).xp.validated = s.xp.validated := by rw [takeFree_xp]
theorem takeFree_abandoned (s : State) : (takeFree s).xp.abandoned = s.xp.abandoned := by rw [takeFree_xp]
/-- The registers that show what is freed and held. -/
abbrev freedRegs : List Nat := [Reg.XP_TAKE_CI, Reg.XP_PLANE_EXEC 0, Reg.XP_PLANE_EXEC 1]
theorem takeFree_regs {P : Nat → Prop} (hP : ∀ a ∈ freedRegs, P a) (h : OnlyRegs P s t) : OnlyRegs P s (takeFree t) := by
  unfold takeFree refreshHeld
  exact (((h.same rfl).fset (hP _ (by simp))).fset (hP _ (by simp))).fset (hP _ (by simp))
/-- A salvo that is not finished stays in the ring. -/
theorem mem_takeFree {v : Salvo} (hv : v ∈ s.xp.salvos) (hd : salvoDone v = false) : v ∈ (takeFree s).xp.salvos := by
  rw [takeFree_xp]
  rw [← List.takeWhile_append_dropWhile (p := salvoDone) (l := s.xp.salvos)] at hv
  refine (List.mem_append.1 hv).resolve_left fun hw => ?_
  have := List.mem_takeWhile_imp hw
  simp [hd] at this

theorem absorbAbandoned_none (h : s.xp.abandoned = []) : absorbAbandoned s = s := by simp [absorbAbandoned, h]
/-- A tail abandoned where validation stands is freed in its turn, and validation goes on behind it. -/
theorem absorbAbandoned_next {n : Nat} (h : s.xp.abandoned = [(s.xp.validated, n)]) :
    (absorbAbandoned s).xp.validated = (s.xp.validated + n) % 8192 ∧ (absorbAbandoned s).regs = s.regs := by
  simp [absorbAbandoned, h, putRefused]

/-! ### A refusal (R97) -/

/-- A salvo of first count `first` has been refused with a code: the status, the count of refusals since s, the count up to
which the ring has been validated. -/
structure Refused (s t : State) (first code upTo : Nat) : Prop where
  flag : fbit t Reg.XP_TAKE_STAT Fld.XP_TAKE_STAT_REFUSED = true
  code : fget t Reg.XP_TAKE_STAT Fld.XP_TAKE_STAT_REF_CODE = code
  index : fget t Reg.XP_TAKE_STAT Fld.XP_TAKE_STAT_REF_INDEX = first % 8192
  count : rgetN t Reg.XP_TAKE_REFUSE_COUNT = min 0xFFFFFFFF (rgetN s Reg.XP_TAKE_REFUSE_COUNT + 1)
  validated : t.xp.validated = upTo

theorem refuseReport_xp (first tag code i : Nat) (s : State) : (refuseReport first tag code i s).xp = s.xp :=
  (refuseReport_within first tag code i s).part .xp (by decide)

theorem Refused.of_regs {u : State} {first code n : Nat} (h : Refused u t first code n) (hr : u.regs = s.regs) :
    Refused s t first code n :=
  ⟨h.flag, h.code, h.index, by rw [h.count, rgetN_congr hr], h.validated⟩
/-- Freeing leaves the report. -/
theorem Refused.takeFree {first code n : Nat} (h : Refused s t first code n) : Refused s (takeFree t) first code n := by
  have hf : OnlyRegs (· ∈ freedRegs) t (Machine.takeFree t) := takeFree_regs (fun _ h => h) (OnlyRegs.refl _ t)
  obtain ⟨hflag, hcode, hindex, hcount, hvalid⟩ := h
  exact ⟨(hf.bit (by decide) _).trans hflag, (hf.field (by decide) _).trans hcode, (hf.field (by decide) _).trans hindex,
    (hf.num (by decide)).trans hcount, (congrArg XpSt.validated (takeFree_xp t)).trans hvalid⟩

theorem refuseReport_refused (first tag i : Nat) {code : Nat} (hc : code < 256) (s : State) :
    Refused s (refuseReport first tag code i s) first code s.xp.validated := by
  have hr (u : State) (l : List Nat) : OnlyRegs Alarm u (raise Src.takeRefused l u) :=
    raise_onlyAlarm (by decide) l u
  unfold refuseReport
  extract_lets s1 s2 s3 c w0
  have hflag : fbit s3 Reg.XP_TAKE_STAT Fld.XP_TAKE_STAT_REFUSED = true := by
    rw [fbit, fget, rgetN_count_ne _ (by decide)]
    show fbit s2 _ _ = true
    rw [fbit_fset_field _ _ _ _ _ (by decide) (by decide) (by decide),
      fbit_fset_field _ _ _ _ _ (by decide) (by decide) (by decide)]
    exact fbit_fset_one _ _ _ (by decide) rfl
  have hcode : fget s3 Reg.XP_TAKE_STAT Fld.XP_TAKE_STAT_REF_CODE = code := by
    rw [fget, rgetN_count_ne _ (by decide)]
    show fget s2 _ _ = code
    rw [fget_fset_field _ _ _ _ _ (by decide) (by decide) (by decide),
      fget_fset_same _ _ _ _ (by decide) (by decide)]
    exact Nat.mod_eq_of_lt hc
  have hindex : fget s3 Reg.XP_TAKE_STAT Fld.XP_TAKE_STAT_REF_INDEX = first % 8192 := by
    rw [fget, rgetN_count_ne _ (by decide)]
    exact fget_fset_same _ _ _ _ (by decide) (by decide)
  have hcount : rgetN s3 Reg.XP_TAKE_REFUSE_COUNT = min 0xFFFFFFFF (rgetN s Reg.XP_TAKE_REFUSE_COUNT + 1) := by
    rw [rgetN_count_same, rgetN_fset_ne _ _ _ (by decide), rgetN_fset_ne _ _ _ (by decide)]
    exact congrArg (fun n => min 0xFFFFFFFF (n + 1)) (rgetN_fset_ne _ _ _ (by decide))
  exact ⟨((hr s3 _).bit (by decide) _).trans hflag, ((hr s3 _).field (by decide) _).trans hcode,
    ((hr s3 _).field (by decide) _).trans hindex, ((hr s3 _).num (by decide)).trans hcount,
    congrArg XpSt.validated (raise_xp _ _ s3)⟩

/-! ### The salvo whose validation ends (R96-R98, R101) -/

/-- The ring counts as validated up to c. -/
def validatedTo (c : Nat) (s : State) : State := { s with xp := { s.xp with validated := c } }
theorem validatedTo_regs (c : Nat) (s : State) : (validatedTo c s).regs = s.regs := rfl
theorem validatedTo_img (c : Nat) (s : State) : (validatedTo c s).img = s.img := rfl
theorem validatedTo_validated (c : Nat) (s : State) : (validatedTo c s).xp.validated = c := rfl
theorem validatedTo_abandoned (c : Nat) (s : State) : (validatedTo c s).xp.abandoned = s.xp.abandoned := rfl
/-- A salvo joins those that are committed. -/
def putSalvo (v : Salvo) (s : State) : State := { s with xp := { s.xp with salvos := s.xp.salvos ++ [v] } }
theorem putSalvo_regs (v : Salvo) (s : State) : (putSalvo v s).regs = s.regs := rfl
theorem putSalvo_validated (v : Salvo) (s : State) : (putSalvo v s).xp.validated = s.xp.validated := rfl
theorem putSalvo_abandoned (v : Salvo) (s : State) : (putSalvo v s).xp.abandoned = s.xp.abandoned := rfl
theorem mem_putSalvo (v : Salvo) (s : State) : v ∈ (putSalvo v s).xp.salvos := List.mem_append_right _ (by simp)
/-- The parts of a salvo with takes t0 of plane 0 and t1 of plane 1. -/
def salvoParts (t0 t1 : List Take) : List Part :=
  (if t0.isEmpty then [] else [{ plane := 0, takes := t0 }]) ++ (if t1.isEmpty then [] else [{ plane := 1, takes := t1 }])

/-- Outside a pair a salvo joins the ring as it stands. -/
theorem commitSalvo_single (hp : pairInUse s = false) (since0 since1 first n tag : Nat) (hostAt : Option Nat)
    (parts : List Part) : commitSalvo since0 since1 first n tag hostAt parts s =
      takeFree (putSalvo { first, n, tag, parts } s) := by
  simp [commitSalvo, putSalvo, hp]

section Validation

variable {n since0 since1 : Nat}
variable (hs : inService s = true) (hp : pairInUse s = false)
  (hrun : takeRun s (cntDist s.xp.validated (takePi s)) s.xp.validated = some n)

/-- The last record of a salvo of n records. -/
abbrev lastRec (s : State) (n : Nat) : Nat × Nat × Nat × Nat := takeRec4 s (s.xp.validated + n - 1)
/-- TAG of the salvo, from its last record. -/
abbrev salvoTag (s : State) (n : Nat) : Nat := bitsOf 15 0 (lastRec s n).2.1
/-- AT_FC of the salvo, from its last record. -/
abbrev salvoAt (s : State) (n : Nat) : Nat := (lastRec s n).2.2.1 + (lastRec s n).2.2.2 % 65536 * 2 ^ 32
/-- The state in which a salvo of n records has been validated. -/
abbrev pastSalvo (s : State) (n : Nat) : State := validatedTo ((s.xp.validated + n) % 8192) s
/-- A refusal of that salvo and a commit of it, each followed by the freeing of what is finished. -/
def refusedWith (code i n : Nat) (s : State) : State :=
  takeFree (absorbAbandoned (refuseSalvo s.xp.validated n (salvoTag s n) code i (pastSalvo s n)))
def committedWith (parts : List Part) (n : Nat) (s : State) : State :=
  takeFree (absorbAbandoned (takeFree
    (putSalvo { first := s.xp.validated, n, tag := salvoTag s n, parts } (pastSalvo s n))))
/-- A part with the execution frame that R101 gives it. -/
def judgedPart (j : Option Nat × Bool × Bool) (t : Part) : Part := { t with due := j.1, late := j.2.1 }
/-- The salvo's parts with the judgement of R101 on each. -/
def judgements (n : Nat) (s : State) (parts : List Part) : List (Part × Option Nat × Bool × Bool) :=
  parts.map (fun t => (t, atJudge (pastSalvo s n) t.plane (salvoAt s n)))
/-- What becomes of a salvo whose records pass, by its parts. -/
def partsEnd (n : Nat) (s : State) (parts : List Part) : State :=
  if bitOf 17 (lastRec s n).2.1 then
    if 1 < parts.length ∨ (judgements n s parts).any (fun j => j.2.2.2) then refusedWith 6 (n - 1) n s
    else committedWith ((judgements n s parts).map (fun j => judgedPart j.2 j.1)) n s
  else committedWith parts n s
/-- What becomes of the salvo, by what its records have been found to be. -/
def salvoEnd (n : Nat) (s : State) : (Nat × Nat) ⊕ (List Take × List Take) → State
  | .inl (code, i) => refusedWith code i n s
  | .inr (t0, t1) => partsEnd n s (salvoParts t0 t1)

include hs hp hrun

theorem salvoCommit_eq : salvoCommit since0 since1 s = salvoEnd n s (checkRecs s s.xp.validated n n [] []) := by
  have commit (hostAt : Option Nat) (parts : List Part) :
      takeFree (absorbAbandoned (commitSalvo since0 since1 s.xp.validated n (salvoTag s n) hostAt parts (pastSalvo s n))) =
        committedWith parts n s := by
    rw [commitSalvo_single (s := pastSalvo s n) hp, committedWith]
  have hc := checkRecs_congr (validatedTo_regs ((s.xp.validated + n) % 8192) s) (validatedTo_img _ s) s.xp.validated n n [] []
  unfold salvoCommit
  extract_lets first bound journal src
  have hb : min bound (cntDist first (takePi s)) = cntDist s.xp.validated (takePi s) := by
    simp [bound, first, hp]
  rw [if_neg (by simp [hs]), hb]
  change (match takeRun s (cntDist s.xp.validated (takePi s)) s.xp.validated with | none => s | some n => _) = _
  rw [hrun]
  dsimp -zeta only
  extract_lets l tag hostAt u
  have hu : u = pastSalvo s n := rfl
  have hj : journal = false := by simp [journal, hp]
  clear_value u
  subst hu
  rw [show checkRecs (pastSalvo s n) first n n [] [] = _ from hc]
  cases checkRecs s s.xp.validated n n [] [] with
  | inl e => rfl
  | inr e =>
    obtain ⟨t0, t1⟩ := e
    rw [salvoEnd, partsEnd]
    dsimp -zeta only
    rw [hj]
    by_cases hat : bitOf 17 (lastRec s n).2.1 = true
    · rw [show hostAt = some (salvoAt s n) from if_pos hat, if_pos hat]
      exact ite_congr rfl (fun _ => rfl) (fun _ => commit ..)
    · rw [show hostAt = none from if_neg hat, if_neg hat]
      exact commit ..

theorem salvoCommit_refused {code i : Nat} (hc : checkRecs s s.xp.validated n n [] [] = .inl (code, i)) :
    salvoCommit since0 since1 s = refusedWith code i n s := by
  rw [salvoCommit_eq hs hp hrun, hc, salvoEnd]
theorem salvoCommit_committed {t0 t1 : List Take} (hc : checkRecs s s.xp.validated n n [] [] = .inr (t0, t1))
    (hat : bitOf 17 (lastRec s n).2.1 = false) :
    salvoCommit since0 since1 s = committedWith (salvoParts t0 t1) n s := by
  rw [salvoCommit_eq hs hp hrun, hc, salvoEnd, partsEnd, hat, if_neg Bool.false_ne_true]
/-- With AT, a salvo of plane 0 alone follows the judgement of R101 on its frame. -/
theorem salvoCommit_at {t0 : List Take} (hc : checkRecs s s.xp.validated n n [] [] = .inr (t0, [])) (h0 : t0 ≠ [])
    (hat : bitOf 17 (lastRec s n).2.1 = true) :
    salvoCommit since0 since1 s =
      if (atJudge s 0 (salvoAt s n)).2.2 then refusedWith 6 (n - 1) n s
      else committedWith [judgedPart (atJudge s 0 (salvoAt s n)) { plane := 0, takes := t0 }] n s := by
  have hparts : salvoParts t0 [] = [{ plane := 0, takes := t0 }] := by simp [salvoParts, h0]
  have hj : judgements n s [{ plane := 0, takes := t0 }] =
      [({ plane := 0, takes := t0 }, atJudge s 0 (salvoAt s n))] := rfl
  rw [salvoCommit_eq hs hp hrun, hc, salvoEnd, partsEnd, hat, if_pos rfl, hparts, hj]
  simp only [List.length_singleton, Nat.lt_irrefl, false_or, List.any_cons, List.any_nil, Bool.or_false, List.map_cons,
    List.map_nil]

end Validation

theorem refusedWith_refused (hab : s.xp.abandoned = []) {code : Nat} (hc : code < 256) (i n : Nat) :
    Refused s (refusedWith code i n s) s.xp.validated code ((s.xp.validated + n) % 8192) := by
  have hr := refuseReport_refused s.xp.validated (salvoTag s n) i hc (putRefused s.xp.validated n (salvoTag s n) (pastSalvo s n))
  have hxp := refuseReport_xp s.xp.validated (salvoTag s n) code i (putRefused s.xp.validated n (salvoTag s n) (pastSalvo s n))
  unfold refusedWith refuseSalvo
  generalize refuseReport s.xp.validated (salvoTag s n) code i
    (putRefused s.xp.validated n (salvoTag s n) (pastSalvo s n)) = u at hr hxp ⊢
  rw [absorbAbandoned_none ((congrArg XpSt.abandoned hxp).trans hab)]
  exact (hr.of_regs (s := s) rfl).takeFree

theorem committedWith_spec (hab : s.xp.abandoned = []) {parts : List Part} (n : Nat)
    (hex : ∃ p ∈ parts, p.executed = false) :
    ({ first := s.xp.validated, n, tag := salvoTag s n, parts } : Salvo) ∈ (committedWith parts n s).xp.salvos ∧
      (committedWith parts n s).xp.validated = (s.xp.validated + n) % 8192 ∧ RegsWithin freedRegs s (committedWith parts n s) := by
  obtain ⟨p, hp, hpe⟩ := hex
  have hd : salvoDone { first := s.xp.validated, n, tag := salvoTag s n, parts } = false := by
    simp only [salvoDone, Bool.false_or]
    exact List.all_eq_false.2 ⟨p, hp, by simp [hpe]⟩
  unfold committedWith
  rw [absorbAbandoned_none (by rw [takeFree_abandoned, putSalvo_abandoned, validatedTo_abandoned, hab])]
  refine ⟨mem_takeFree (mem_takeFree (mem_putSalvo ..) hd) hd, ?_, ?_⟩
  · rw [takeFree_validated, takeFree_validated, putSalvo_validated, validatedTo_validated]
  · exact takeFree_regs (fun _ h => h) (takeFree_regs (fun _ h => h)
      ((OnlyRegs.refl _ s).same ((putSalvo_regs ..).trans (validatedTo_regs ..))))

/-! ### The parts of a salvo (R98) -/

theorem mem_salvoParts {t0 t1 : List Take} {p : Part} (h : p ∈ salvoParts t0 t1) :
    p.due = none ∧ p.executed = false ∧ p.takes = if p.plane = 0 then t0 else t1 := by
  have h' : (t0 ≠ [] ∧ p = { plane := 0, takes := t0 }) ∨ (t1 ≠ [] ∧ p = { plane := 1, takes := t1 }) := by
    simpa [salvoParts, List.mem_append] using h
  rcases h' with ⟨-, rfl⟩ | ⟨-, rfl⟩ <;> exact ⟨rfl, rfl, rfl⟩
theorem salvoParts_plane0 {t0 : List Take} (t1 : List Take) (h : t0 ≠ []) :
    ({ plane := 0, takes := t0 } : Part) ∈ salvoParts t0 t1 := by
  simp [salvoParts, h]
theorem salvoParts_plane1 (t0 : List Take) {t1 : List Take} (h : t1 ≠ []) :
    ({ plane := 1, takes := t1 } : Part) ∈ salvoParts t0 t1 := by
  simp [salvoParts, h]

/-! ### The judgement of AT_FC (R101) -/

theorem atJudge_near {p a : Nat} (h1 : 1 ≤ (a + 2 ^ 48 - planeFc s p) % 2 ^ 48)
    (h2 : (a + 2 ^ 48 - planeFc s p) % 2 ^ 48 ≤ 256) : atJudge s p a = (some a, false, false) := if_pos ⟨h1, h2⟩
theorem atJudge_far {p a : Nat} (h1 : 256 < (a + 2 ^ 48 - planeFc s p) % 2 ^ 48)
    (h2 : (a + 2 ^ 48 - planeFc s p) % 2 ^ 48 ≤ 2 ^ 47) : atJudge s p a = (none, false, true) := by
  unfold atJudge
  rw [if_neg (by omega), if_neg (by omega)]

/-! ### ABANDON (R96) -/

/-- A tail is noted as abandoned. -/
def putAbandoned (e : Nat × Nat) (s : State) : State :=
  { s with xp := { s.xp with abandoned := s.xp.abandoned ++ [e] } }
theorem putAbandoned_validated (e : Nat × Nat) (s : State) : (putAbandoned e s).xp.validated = s.xp.validated := rfl

/-- Without LAST in the ring, and without a tail abandoned before, the open tail begins where validation stands. -/
theorem tailAhead_open (hab : s.xp.abandoned = [])
    (hrun : takeRun s (cntDist s.xp.validated (takePi s)) s.xp.validated = none) : tailAhead s = 0 := by
  unfold tailAhead
  simp only [hab, List.foldl_nil]
  have key (l : List Nat) (h : ∀ i ∈ l, bitOf 16 (takeRec4 s (s.xp.validated + i)).2.1 = false) :
      l.foldl (fun a i => if bitOf 16 (takeRec4 s (s.xp.validated + i)).2.1 then i + 1 else a) 0 = 0 := by
    induction l with
    | nil => rfl
    | cons i l ih =>
      rw [List.foldl_cons, h i (by simp)]
      exact ih fun j hj => h j (by simp [hj])
  exact key _ fun i hi => takeRun_none hrun (List.mem_range.1 hi)

theorem abandonTail_refused (hab : s.xp.abandoned = []) (hv : s.xp.validated < 8192)
    (hn : cntDist s.xp.validated (takePi s) ≠ 0)
    (hrun : takeRun s (cntDist s.xp.validated (takePi s)) s.xp.validated = none) :
    Refused s (abandonTail s) s.xp.validated 8 ((s.xp.validated + cntDist s.xp.validated (takePi s)) % 8192) := by
  have hcut : abandonTail s = takeFree (absorbAbandoned (refuseReport s.xp.validated 0 8 0
      (putAbandoned (s.xp.validated, cntDist s.xp.validated (takePi s)) s))) := by
    unfold abandonTail putAbandoned
    simp only [tailAhead_open hab hrun, Nat.add_zero, Nat.sub_zero, Nat.mod_eq_of_lt hv]
    rw [if_neg (by omega)]
  rw [hcut]
  generalize cntDist s.xp.validated (takePi s) = n
  have hxp := refuseReport_xp s.xp.validated 0 8 0 (putAbandoned (s.xp.validated, n) s)
  obtain ⟨hflag, hcode, hindex, hcount, -⟩ :=
    refuseReport_refused s.xp.validated 0 0 (show 8 < 256 by decide) (putAbandoned (s.xp.validated, n) s)
  generalize refuseReport s.xp.validated 0 8 0 (putAbandoned (s.xp.validated, n) s) = u at hflag hcode hindex hcount hxp ⊢
  have hu : u.xp.validated = s.xp.validated := (congrArg XpSt.validated hxp).trans (putAbandoned_validated ..)
  have ha : u.xp.abandoned = [(s.xp.validated, n)] :=
    (congrArg XpSt.abandoned hxp).trans (by simp [putAbandoned, hab])
  obtain ⟨hnext, hregs⟩ := absorbAbandoned_next (s := u) (n := n) (hu ▸ ha)
  exact Refused.takeFree ⟨(congrArg (· == 1) (fget_congr hregs _ _)).trans hflag, (fget_congr hregs _ _).trans hcode,
    (fget_congr hregs _ _).trans hindex, (rgetN_congr hregs _).trans hcount, hnext.trans (by rw [hu])⟩

/-! ### A write of XP_TAKE_CTRL with ABANDON (R96) -/

theorem takeRun_congr (h : ∀ c, takeRec4 t c = takeRec4 s c) (k c : Nat) : takeRun t k c = takeRun s k c := by
  induction k generalizing c with
  | zero => rfl
  | succ k ih => simp only [takeRun, h, ih]

/-- What feeds the ring and what it holds do not rest on XP_TAKE_CTRL. -/
structure CtrlApart (s t : State) : Prop where
  xp : t.xp = s.xp
  regs : RegsWithin [Reg.XP_TAKE_CTRL] s t

theorem CtrlApart.takePi (h : CtrlApart s t) : takePi t = takePi s := h.regs.field (by decide) _
theorem CtrlApart.mayFeed (h : CtrlApart s t) (m : Nat) : mayFeed t m = mayFeed s m := by
  have hm : mode t = mode s := congrArg modeOf (h.regs.field (by decide) _)
  have hp : pairInUse t = pairInUse s := h.regs.bit (by decide) _
  simp only [Machine.mayFeed, hm, hp]
theorem CtrlApart.takeRun (h : CtrlApart s t) (k c : Nat) : takeRun t k c = takeRun s k c := by
  have ring (i : Nat) : rgetN t (Reg.XP_TAKE_RING i) = rgetN s (Reg.XP_TAKE_RING i) :=
    h.regs.num (by simp only [List.mem_singleton, Reg.XP_TAKE_RING, Reg.XP_TAKE_CTRL]; omega)
  exact takeRun_congr (fun c => by simp only [takeRec4, ring]) k c

/-- The word that sets ABANDON and keeps the other fields. -/
def abandonWord (s : State) : Word := w32 (rgetN s Reg.XP_TAKE_CTRL / 2 * 2 + 1)
theorem bitOf_abandonWord (s : State) : bitOf 0 (abandonWord s).toNat = true := by
  simp only [bitOf, abandonWord, w32, BitVec.toNat_ofNat, beq_iff_eq]
  omega
/-- The ring before the tail is cut: the fields of XP_TAKE_CTRL have been written. -/
abbrev ctrlWritten (m : Nat) (s : State) : State :=
  plainWrite Reg.XP_TAKE_CTRL (abandonWord s) (grantTo (blockPort Reg.XP_TAKE_CTRL) m s)
theorem ctrlWritten_apart (m : Nat) (s : State) : CtrlApart s (ctrlWritten m s) :=
  ⟨rfl, OnlyRegs.rsetN (s := s) ((OnlyRegs.refl _ s).same rfl) (by simp)⟩
theorem exec_takeAbandon {m : Fin 9} (h : Reaches s m Reg.XP_TAKE_CTRL) (hm : mayFeed s m = true) :
    exec (.takeAbandon m) s = .next (abandonTail (ctrlWritten m s)) := by
  show Host.Outcome.next (hostWrite m Reg.XP_TAKE_CTRL (abandonWord s) (takeCtrlWrite m (abandonWord s)) s) = _
  rw [hostWrite_reaches h, takeCtrlWrite]
  simp only [bitOf_abandonWord, (ctrlWritten_apart m s).mayFeed m, hm, Bool.not_true, if_false, if_true,
    Bool.false_eq_true]

/-! ### O32 -/

/-- Settles O32: a write of the ring or of its producer count by the cases of `ringWrite` and `piWrite`; a salvo by what
`checkRecs` finds (`salvoCommit_eq`), refused (`refusedWith_refused`) or committed (`committedWith_spec`); an open tail as a
refusal with code 8 (`abandonTail_refused`). -/
theorem takeRingAndSalvos : Obligations.TakeRingAndSalvos := by
  unfold Obligations.TakeRingAndSalvos
  refine ⟨⟨fun m w v s h => ?ring, fun m pi s h => ?pi⟩, fun n s hs hp hab => ⟨fun hrun since0 since1 => ⟨?refused, ?committed, ?frame⟩,
    fun m hv h hm hn hrun => ?abandon⟩⟩
  case ring =>
    refine ⟨_, congrArg Host.Outcome.next (hostWrite_reaches h), ?_⟩
    exact ringWrite_spec m w v (grantTo (blockPort (Reg.XP_TAKE_RING w)) m s)
  case pi =>
    refine ⟨_, congrArg Host.Outcome.next (hostWrite_reaches h), ?_⟩
    exact piWrite_spec m pi.isLt (grantTo (blockPort Reg.XP_TAKE_PI) m s)
  case refused =>
    intro code i hc hcode
    obtain ⟨hflag, hcode, hindex, hcount, hvalid⟩ := refusedWith_refused hab hcode i n
    exact ⟨_, congrArg Host.Outcome.next (salvoCommit_refused hs hp hrun hc), hflag, hcode, hindex, hcount, hvalid⟩
  case committed =>
    intro t0 t1 hc hne hat
    have hex : ∃ p ∈ salvoParts t0 t1, p.executed = false := by
      rcases hne with h0 | h1
      · exact ⟨_, salvoParts_plane0 t1 h0, rfl⟩
      · exact ⟨_, salvoParts_plane1 t0 h1, rfl⟩
    obtain ⟨hmem, hvalid, hregs⟩ := committedWith_spec hab n hex
    refine ⟨_, congrArg Host.Outcome.next (salvoCommit_committed hs hp hrun hc hat),
      ⟨_, hmem, rfl, rfl, rfl, rfl, fun p hp => mem_salvoParts hp, fun h0 => ?_, fun h1 => ?_⟩, hvalid, hregs⟩
    · exact ⟨_, salvoParts_plane0 t1 h0, rfl⟩
    · exact ⟨_, salvoParts_plane1 t0 h1, rfl⟩
  case frame =>
    intro t0 hc h0 hat
    have key := salvoCommit_at (since0 := since0) (since1 := since1) hs hp hrun hc h0 hat
    refine ⟨fun h1 h2 => ?_, fun h1 h2 => ?_⟩
    · have hj : atJudge s 0 (salvoAt s n) = (some (salvoAt s n), false, false) := atJudge_near h1 h2
      rw [hj] at key
      exact ⟨_, congrArg Host.Outcome.next key, _, (committedWith_spec hab n ⟨_, List.mem_singleton_self _, rfl⟩).1, rfl, rfl⟩
    · have hj : atJudge s 0 (salvoAt s n) = (none, false, true) := atJudge_far h1 h2
      rw [hj] at key
      exact ⟨_, congrArg Host.Outcome.next key, (refusedWith_refused hab (by decide) (n - 1) n).code⟩
  case abandon =>
    have hc := ctrlWritten_apart m s
    have hlen : cntDist (ctrlWritten m s).xp.validated (takePi (ctrlWritten m s)) =
        cntDist s.xp.validated (takePi s) := by rw [hc.xp, hc.takePi]
    have hr := abandonTail_refused (s := ctrlWritten m s) hab hv (hlen ▸ hn)
      (by rw [hlen, hc.takeRun]; exact hrun)
    rw [hlen] at hr
    exact ⟨_, exec_takeAbandon h hm, hr.flag, hr.code, hr.validated⟩

end Sys2Proof.Proofs.TakeRing
end

section
/-! PROOF. O34, the switch point of a plane: what fails of it (04 R83; 18 Table 18.3). -/

set_option Elab.async false

namespace Sys2Proof.Proofs.SwitchPoint

open Sys2Proof.Machine

/-- An image whose one section gives plane 0 1080p50 and plane 1 the format f. -/
def planesImg (f : Nat) : Img :=
  { sections := [{ type := Sec.plane, off := 0, len := 0x2000, arm := true }], bytes := [(0, 0x68), (4, f)] }

/-- After the resumption of plane 0 (STANDBY, no cast under way) plane 1 still carries black: a cast has changed its
format from 1080p50 to 1080p60, its pause is over, and PLANE_FC of plane 1 is 5. -/
def blackOne : State :=
  { img := planesImg 0x6A
    regs := [(Reg.GLOBAL_MODE, 3), (Reg.PLANE_FC_LO 1, 5)]
    core := { sinceReset := 60000000 }
    upd := { black := [1], applied := true, outgoing := planesImg 0x68 } }

/-- Plane 1 at its switch point after the pause: it goes from black to the image's content and restarts, which puts its
PLANE_FC back to 0 before the switch point advances it. -/
theorem planeFc_restarted : planeFc (switchPoint 1 (castSwitch 1 (cycleBegin blackOne))) 1 = 1 := by decide +kernel

/-- What a cycle's end clears is not PLANE_FC. -/
theorem planeFc_cycleEnd (s t : State) (p : Nat) : planeFc (cycleEnd s t) p = planeFc t p := by
  unfold cycleEnd
  split <;> rfl

/-- The switch point answers the state of that restart. -/
theorem planeFc_of_switchPoint {t : State} (h : exec (.planeSwitchPoint 1) blackOne = .next t) : planeFc t 1 = 1 := by
  have ht : cycleEnd blackOne (switchPoint 1 (castSwitch 1 (cycleBegin blackOne))) = t := Host.Outcome.next.inj h
  exact (congrArg (planeFc · 1) ht).symm.trans ((planeFc_cycleEnd _ _ _).trans planeFc_restarted)

/-- Refutes O34: its premise `inCast s = false` does not exclude plane 1 while it still carries black after plane 0 has
resumed and the cast form of BOOT is over. There plane 1 restarts at its switch point, and PLANE_FC becomes 1, not 6. -/
theorem not_switchPoint : ¬ Obligations.SwitchPoint := by
  unfold Obligations.SwitchPoint
  intro h
  obtain ⟨advances, -⟩ := h 1 blackOne (by decide) (by decide)
  obtain ⟨t, ht, hfc, -⟩ := advances rfl (Or.inl (by decide))
  have hone : planeFc t 1 = 1 := planeFc_of_switchPoint ht
  have hsix : (planeFc blackOne 1 + 1) % 2 ^ 48 = 6 := by decide
  rw [show ((1 : Fin 2) : Nat) = 1 from rfl, hone, hsix] at hfc
  cases hfc

end Sys2Proof.Proofs.SwitchPoint
end

section
/-! PROOF. O33, the batch of a plane from its cut-off to its record (04 R99, R102, Table 4.9). -/

set_option Elab.async false

namespace Sys2Proof.Proofs.PlaneBatch

open Sys2Proof.Machine Sys2Proof.Laws Sys2Proof.Proofs.TakeRing

variable {s t u : State} {p : Nat}

/-! ### The parts of a batch -/

/-- A part of plane p in the batch and not yet recorded. -/
abbrev openPart (p : Nat) (t : Part) : Bool := t.plane == p && t.inBatch && !t.executed
/-- A part of plane p that still waits for a batch. -/
abbrev freePart (p : Nat) (t : Part) : Bool := t.plane == p && !t.executed && !t.inBatch
/-- A part of plane p joins the batch; a part in the batch has been executed. -/
def takeIn (p : Nat) (t : Part) : Part := if t.plane = p then { t with inBatch := true } else t
def markDone (p : Nat) (t : Part) : Part := if t.plane = p && t.inBatch then { t with executed := true } else t
/-- The batch of plane p among salvos. -/
def batchIn (p : Nat) (l : List Salvo) : List (Salvo × Part) :=
  l.filterMap (fun v => (v.parts.find? (openPart p)).map (fun t => (v, t)))
/-- Takes of a batch. -/
abbrev takeSum (b : List (Salvo × Part)) : Nat := (b.map (fun x => x.2.takes.length)).sum

theorem batchOf_eq (s : State) (p : Nat) : batchOf s p = batchIn p s.xp.salvos := rfl
theorem batchOf_congr (h : t.xp.salvos = s.xp.salvos) (p : Nat) : batchOf t p = batchOf s p :=
  congrArg (batchIn p) h

theorem batchIn_eq_nil {l : List Salvo} : batchIn p l = [] ↔ ∀ v ∈ l, ∀ t ∈ v.parts, openPart p t = false := by
  simp [batchIn, List.filterMap_eq_nil_iff]
theorem batchIn_cons_none {v : Salvo} (l : List Salvo) (h : v.parts.find? (openPart p) = none) :
    batchIn p (v :: l) = batchIn p l := by
  simp [batchIn, h]
theorem batchIn_cons_some {v : Salvo} {t : Part} (l : List Salvo) (h : v.parts.find? (openPart p) = some t) :
    batchIn p (v :: l) = (v, t) :: batchIn p l := by
  simp [batchIn, h]

/-- What waits and joins the batch is what the batch then finds. -/
theorem openPart_takeIn {t : Part} (h : openPart p t = false) : openPart p (takeIn p t) = freePart p t := by
  unfold takeIn
  split
  · next hp =>
    have h' : t.inBatch = true → t.executed = true := by simpa [hp] using h
    cases hb : t.inBatch <;> simp_all [openPart, freePart]
  · next hp => simp [openPart, freePart, beq_eq_false_iff_ne.2 hp]
theorem find_openPart_takeIn {l : List Part} {t : Part} (h0 : ∀ u ∈ l, openPart p u = false)
    (h : l.find? (freePart p) = some t) : (l.map (takeIn p)).find? (openPart p) = some { t with inBatch := true } := by
  have hp : t.plane = p := by
    have := List.find?_some h
    rw [Bool.and_eq_true, Bool.and_eq_true, beq_iff_eq] at this
    exact this.1.1
  have hfind : l.find? (openPart p ∘ takeIn p) = l.find? (freePart p) :=
    List.find?_congr fun u hu => openPart_takeIn (h0 u hu)
  rw [List.find?_map, hfind, h, Option.map_some, takeIn, if_pos hp]

/-! ### The batch that the cut-off forms (R99) -/

section Form
variable {fc n : Nat} {v : Salvo} {l : List Salvo}

theorem formBatch_skip (h : v.parts.find? (freePart p) = none) :
    (formBatch p fc (v :: l) n).1 = v :: (formBatch p fc l n).1 := by
  simp [formBatch, h]
theorem formBatch_full {t : Part} (h : v.parts.find? (freePart p) = some t) (hn : 2048 < n + t.takes.length) :
    (formBatch p fc (v :: l) n).1 = v :: l := by
  simp [formBatch, h, hn]
theorem formBatch_wait {t : Part} (h : v.parts.find? (freePart p) = some t) (hd : t.due.any (fun f => fcAfter f fc) = true) :
    (formBatch p fc (v :: l) n).1 = v :: l := by
  simp only [formBatch, h]
  rw [if_pos hd]
  split <;> rfl
theorem formBatch_take {t : Part} (h : v.parts.find? (freePart p) = some t) (hn : ¬ 2048 < n + t.takes.length)
    (hd : t.due.any (fun f => fcAfter f fc) = false) :
    (formBatch p fc (v :: l) n).1 = { v with parts := v.parts.map (takeIn p) } :: (formBatch p fc l (n + t.takes.length)).1 := by
  simp [formBatch, h, hn, hd, takeIn]

/-- With no batch open, the batch formed after n takes stays within 2,048, and no part of it is due later. -/
theorem formBatch_spec (h0 : batchIn p l = []) (hn : n ≤ 2048) :
    n + takeSum (batchIn p (formBatch p fc l n).1) ≤ 2048 ∧
      ∀ x ∈ batchIn p (formBatch p fc l n).1, x.2.due.any (fun f => fcAfter f fc) = false := by
  induction l generalizing n with
  | nil => simpa [formBatch, batchIn, takeSum] using hn
  | cons v l ih =>
    have hv : ∀ t ∈ v.parts, openPart p t = false := batchIn_eq_nil.1 h0 v (by simp)
    have hvn : v.parts.find? (openPart p) = none := List.find?_eq_none.2 fun t ht => by simp [hv t ht]
    have hl : batchIn p l = [] := (batchIn_cons_none l hvn).symm.trans h0
    have hstop : n + takeSum (batchIn p (v :: l)) ≤ 2048 ∧
        ∀ x ∈ batchIn p (v :: l), x.2.due.any (fun f => fcAfter f fc) = false := by
      rw [h0]; simpa [takeSum] using hn
    cases hf : v.parts.find? (freePart p) with
    | none =>
      rw [formBatch_skip hf, batchIn_cons_none _ hvn]
      exact ih hl hn
    | some t =>
      by_cases hfull : 2048 < n + t.takes.length
      · rw [formBatch_full hf hfull]
        exact hstop
      by_cases hd : t.due.any (fun f => fcAfter f fc) = true
      · rw [formBatch_wait hf hd]
        exact hstop
      rw [Bool.not_eq_true] at hd
      obtain ⟨hsum, hdue⟩ := ih hl (n := n + t.takes.length) (by omega)
      rw [formBatch_take hf hfull hd,
        batchIn_cons_some (v := { v with parts := v.parts.map (takeIn p) }) _ (find_openPart_takeIn hv hf)]
      refine ⟨?_, List.forall_mem_cons.2 ⟨hd, hdue⟩⟩
      simp only [takeSum, List.map_cons, List.sum_cons] at hsum ⊢
      omega

end Form

/-! ### The loading of the batch (Table 4.9 step 2) -/

theorem destSrc_inj {d e : Nat} (h : Reg.XP_DEST_SRC d = Reg.XP_DEST_SRC e) : d = e := by
  unfold Reg.XP_DEST_SRC at h; omega

theorem loadPend_xp (k : Take) (s : State) : (loadPend k s).xp = s.xp := rfl
/-- A take loaded leaves the fields below PEND_SRC of every destination. -/
theorem loadPend_low (k : Take) (s : State) (a : Nat) (f : FieldRow) (hf : f.hi < 16) :
    fget (loadPend k s) a f = fget s a f := by
  unfold loadPend
  by_cases ha : a = Reg.XP_DEST_SRC k.dest
  · subst ha
    rw [fget_fset_field _ _ _ _ _ (by decide) (by decide) (.inr hf),
      fget_fset_field _ _ _ _ _ (by decide) (by decide) (.inr (by simp only [Fld.XP_DEST_SRC_PEND_BLACK]; omega)),
      fget_fset_field _ _ _ _ _ (by decide) (by decide) (.inr (by simp only [Fld.XP_DEST_SRC_PEND_VALID]; omega))]
  · rw [fget_fset_ne _ _ _ _ ha, fget_fset_ne _ _ _ _ ha, fget_fset_ne _ _ _ _ ha]

/-- Destination d waits for its switching line with a source. -/
abbrev pendValid (s : State) (d : Nat) : Bool := fbit s (Reg.XP_DEST_SRC d) Fld.XP_DEST_SRC_PEND_VALID

theorem pendValid_loadPend (k : Take) (s : State) (d : Nat) :
    pendValid (loadPend k s) d = (pendValid s d || decide (d = k.dest)) := by
  unfold loadPend
  by_cases hd : d = k.dest
  · subst hd
    rw [pendValid, fbit_fset_field _ _ _ _ _ (by decide) (by decide) (by decide),
      fbit_fset_field _ _ _ _ _ (by decide) (by decide) (by decide), fbit_fset_one _ _ _ (by decide) rfl]
    simp
  · have ha : Reg.XP_DEST_SRC d ≠ Reg.XP_DEST_SRC k.dest := fun h => hd (destSrc_inj h)
    rw [pendValid, fbit_fset_ne _ _ _ _ ha, fbit_fset_ne _ _ _ _ ha, fbit_fset_ne _ _ _ _ ha]
    simp [hd]

/-- Takes loaded one after the other. -/
def loadAll (l : List Take) (s : State) : State := l.foldl (fun s k => loadPend k s) s

theorem loadAll_xp (l : List Take) (s : State) : (loadAll l s).xp = s.xp := by
  induction l generalizing s with
  | nil => rfl
  | cons k l ih => exact (ih _).trans (loadPend_xp k s)
theorem loadAll_low (l : List Take) (s : State) (a : Nat) (f : FieldRow) (hf : f.hi < 16) :
    fget (loadAll l s) a f = fget s a f := by
  induction l generalizing s with
  | nil => rfl
  | cons k l ih => exact (ih _).trans (loadPend_low k s a f hf)
theorem pendValid_loadAll (l : List Take) (s : State) (d : Nat) :
    pendValid (loadAll l s) d = (pendValid s d || decide (d ∈ l.map Take.dest)) := by
  induction l generalizing s with
  | nil => simp [loadAll]
  | cons k l ih =>
    rw [show loadAll (k :: l) s = loadAll l (loadPend k s) from rfl, ih, pendValid_loadPend]
    simp [Bool.or_assoc]

/-! ### The cut-off -/

/-- The batch is formed: the salvos' parts and the mark of a batch at its limit. -/
def batchFormed (p : Nat) (s : State) : State :=
  let r := formBatch p ((planeFc s p + 1) % 2 ^ 48) s.xp.salvos 0
  let s := { s with xp := { s.xp with salvos := r.1 } }
  if p = 0 then { s with xp := { s.xp with full0 := r.2 } } else { s with xp := { s.xp with full1 := r.2 } }
theorem batchFormed_salvos (p : Nat) (s : State) :
    (batchFormed p s).xp.salvos = (formBatch p ((planeFc s p + 1) % 2 ^ 48) s.xp.salvos 0).1 := by
  unfold batchFormed
  split <;> rfl
theorem batchFormed_regs (p : Nat) (s : State) : (batchFormed p s).regs = s.regs := by
  unfold batchFormed
  split <;> rfl

/-- The acknowledgements that the batch misses (16 R404). -/
def acksMissed (p : Nat) (b : List (Salvo × Part)) (s : State) : State :=
  if mode s == .active && pairInUse s then
    b.foldl (fun s x => if x.1.fwd && !x.1.acked then raise Src.pairAckMiss [p] (count s Reg.PAIR_ACK_MISS) else s) s
  else s
/-- Registers of the alarms and of the pair. -/
abbrev Beside (a : Nat) : Prop := Alarm a ∨ (0x02800000 ≤ a ∧ a < 0x02A00000)
theorem destSrc_apart {d : Nat} (hd : d < 4096) : ¬ Beside (Reg.XP_DEST_SRC d) := by
  rw [Beside, alarm_iff, Reg.XP_DEST_SRC]
  omega
theorem raise_beside {n : Nat} (hn : n < 1536) (l : List Nat) {a : Nat} (ha : Beside a) (h : OnlyRegs Beside s t) :
    OnlyRegs Beside s (raise n l (count t a)) :=
  (h.count ha).trans ((raise_onlyAlarm hn l _).mono fun _ => .inl)
theorem acksMissed_regs (p : Nat) (b : List (Salvo × Part)) (s : State) : OnlyRegs Beside s (acksMissed p b s) := by
  unfold acksMissed
  refine OnlyRegs.ite (OnlyRegs.foldl (OnlyRegs.refl _ s) fun v x h => OnlyRegs.ite ?_ h) (OnlyRegs.refl _ s)
  exact raise_beside (by decide) _ (.inr (by decide)) h
theorem acksMissed_xp (p : Nat) (b : List (Salvo × Part)) (s : State) : (acksMissed p b s).xp = s.xp := by
  have hw : Within [.regs, .core, .pat] s (acksMissed p b s) := by
    unfold acksMissed
    refine Within.ite (Within.foldl (Within.refl _ s) fun v x h => Within.ite ?_ h) (Within.refl _ s)
    exact (h.then (count_within ..) rfl).then (raise_within ..) rfl
  exact hw.part .xp (by decide)

/-- The cut-off between the begin and the end of its cycle. -/
abbrev cutoffCycle (p : Nat) (s : State) : State := cycleEnd s (planeCutoff p (cycleBegin s))
theorem cutoffCycle_same (p : Nat) (s : State) :
    (cutoffCycle p s).xp = (planeCutoff p (cycleBegin s)).xp ∧ (cutoffCycle p s).regs = (planeCutoff p (cycleBegin s)).regs :=
  have hw := cycleEnd_within s (planeCutoff p (cycleBegin s))
  ⟨hw.part .xp (by decide), hw.part .regs (by decide)⟩

section Cutoff
variable (hu : planeUsed s.img p = true) (hr : running s = true)
include hu hr

theorem planeCutoff_open (hb : batchOf s p ≠ []) : planeCutoff p s = s := by
  simp [planeCutoff, hu, hr, hb]
theorem planeCutoff_formed (hb : batchOf s p = []) :
    planeCutoff p s = loadAll ((batchOf (batchFormed p s) p).flatMap (·.2.takes))
      (acksMissed p (batchOf (batchFormed p s) p) (batchFormed p s)) := by
  unfold planeCutoff
  rw [if_neg (by simp [hu, hr, hb]), loadAll, List.foldl_flatMap]
  rfl

/-- What a cut-off leaves of the sources in use and of the batch. -/
structure Cut (p : Nat) (s t : State) : Prop where
  salvos : t.xp.salvos = (formBatch p ((planeFc s p + 1) % 2 ^ 48) s.xp.salvos 0).1
  inUse : ∀ d, d < 4096 → curSrc t d = curSrc s d ∧ curBlack t d = curBlack s d
  loaded : ∀ x ∈ batchOf t p, ∀ k ∈ x.2.takes, pendValid t k.dest = true

theorem planeCutoff_cut (hb : batchOf s p = []) : Cut p s (planeCutoff p s) := by
  rw [planeCutoff_formed hu hr hb]
  set b := batchOf (batchFormed p s) p with hbdef
  set v := acksMissed p b (batchFormed p s) with hv
  have hxp : (loadAll (b.flatMap (·.2.takes)) v).xp = (batchFormed p s).xp :=
    (loadAll_xp ..).trans (acksMissed_xp ..)
  have low (d : Nat) (hd : d < 4096) (f : FieldRow) (hf : f.hi < 16) :
      fget (loadAll (b.flatMap (·.2.takes)) v) (Reg.XP_DEST_SRC d) f = fget s (Reg.XP_DEST_SRC d) f := by
    rw [loadAll_low _ _ _ _ hf, (acksMissed_regs p b _).field (destSrc_apart hd)]
    exact fget_congr (batchFormed_regs p s) _ f
  refine ⟨(congrArg XpSt.salvos hxp).trans (batchFormed_salvos p s), fun d hd =>
    ⟨low d hd _ (by decide), congrArg (· == 1) (low d hd _ (by decide))⟩, fun x hx k hk => ?_⟩
  rw [batchOf_congr (congrArg XpSt.salvos hxp) p] at hx
  rw [pendValid_loadAll, Bool.or_eq_true]
  exact .inr (decide_eq_true (List.mem_map_of_mem (List.mem_flatMap.2 ⟨x, hx, hk⟩)))

/-- A batch under way is left alone. -/
theorem cutoffCycle_open (hb : batchOf s p ≠ []) : (cutoffCycle p s).xp = s.xp ∧ (cutoffCycle p s).regs = s.regs := by
  have hs : planeCutoff p (cycleBegin s) = cycleBegin s := planeCutoff_open (s := cycleBegin s) hu hr hb
  have h := cutoffCycle_same p s
  rw [hs] at h
  exact h
theorem cutoffCycle_cut (hb : batchOf s p = []) : Cut p s (cutoffCycle p s) := by
  obtain ⟨hxp, hregs⟩ := cutoffCycle_same p s
  obtain ⟨hsalvos, hused, hloaded⟩ := planeCutoff_cut (s := cycleBegin s) hu hr hb
  have hbatch : batchOf (cutoffCycle p s) p = batchOf (planeCutoff p (cycleBegin s)) p :=
    batchOf_congr (congrArg XpSt.salvos hxp) p
  have hbit (a : Nat) (f : FieldRow) : fbit (cutoffCycle p s) a f = fbit (planeCutoff p (cycleBegin s)) a f :=
    congrArg (· == 1) (fget_congr hregs ..)
  refine ⟨(congrArg XpSt.salvos hxp).trans hsalvos, fun d hd => ?_, fun x hx k hk => ?_⟩
  · obtain ⟨hsrc, hblack⟩ := hused d hd
    exact ⟨(fget_congr hregs ..).trans hsrc, (hbit ..).trans hblack⟩
  · exact (hbit ..).trans (hloaded x (hbatch ▸ hx) k hk)

end Cutoff

/-! ### The record of a batch (Table 4.9 step 6) -/

theorem batchIn_markDone (l : List Salvo) :
    batchIn p (l.map (fun v => { v with parts := v.parts.map (markDone p) })) = [] := by
  refine batchIn_eq_nil.2 fun v hv t ht => ?_
  obtain ⟨w, -, rfl⟩ := List.mem_map.1 hv
  obtain ⟨u, -, rfl⟩ := List.mem_map.1 ht
  unfold markDone
  split
  · simp [openPart]
  · next h => cases hb : u.inBatch <;> simp_all [openPart]
theorem batchOf_takeFree (h : batchOf s p = []) : batchOf (takeFree s) p = [] := by
  rw [batchOf_eq, batchIn_eq_nil] at h ⊢
  rw [takeFree_xp]
  exact fun v hv => h v ((List.dropWhile_sublist _).subset hv)

/-- The routes that changed in plane p wait for Keep. -/
def changedLeft (p : Nat) (s : State) : State :=
  { s with xp := { s.xp with changed := s.xp.changed.filter (fun d => destPlane s.img d != p) } }
def changedMarked (p : Nat) (s : State) : State :=
  (s.xp.changed.filter (fun d => destPlane s.img d == p)).foldl (fun s d => markDirty (.video d) s) (changedLeft p s)
theorem changedLeft_salvos (p : Nat) (s : State) : (changedLeft p s).xp.salvos = s.xp.salvos := rfl
/-- XP_PLANE_EXEC shows the takes of the batch and whether it came to its limit. -/
def execShown (p takes : Nat) (s : State) : State :=
  fset (fset s (Reg.XP_PLANE_EXEC p) Fld.XP_PLANE_EXEC_TAKES_LAST takes) (Reg.XP_PLANE_EXEC p) Fld.XP_PLANE_EXEC_FULL_LAST
    (b2n (if p = 0 then s.xp.full0 else s.xp.full1))
/-- The last TAG of the batch, its frame and its late parts are shown. -/
def doneShown (p tag fc late : Nat) (s : State) : State :=
  countN (rset64 (fset s (Reg.XP_PLANE_DONE_TAG p) Fld.XP_PLANE_DONE_TAG_TAG tag) (Reg.XP_PLANE_DONE_FC_LO p)
    (Reg.XP_PLANE_DONE_FC_HI p) fc) (Reg.XP_PLANE_AT_LATE p) late
/-- The parts of plane p in the batch have been executed. -/
def partsDone (p : Nat) (s : State) : State :=
  { s with xp := { s.xp with salvos := s.xp.salvos.map (fun v => { v with parts := v.parts.map (markDone p) }) } }
theorem partsDone_regs (p : Nat) (s : State) : (partsDone p s).regs = s.regs := rfl
theorem batchOf_partsDone (p : Nat) (s : State) : batchOf (partsDone p s) p = [] := batchIn_markDone _
/-- The MSI-X message of an executed batch, and its Done message to the peer. -/
def doneSent (words : List Nat) (s : State) : State :=
  let s := if fbit s Reg.XP_TAKE_CTRL Fld.XP_TAKE_CTRL_DONE_MSI_EN then
      sendDone (fget s Reg.XP_TAKE_CTRL Fld.XP_TAKE_CTRL_DONE_VEC) s else s
  if mode s == .active && pairInUse s && decide (3 ≤ linkState s) then mirrorSend mkDone words s else s
/-- Parts of a batch that ran after their frame. -/
def lateParts (fc : Nat) (b : List (Salvo × Part)) : Nat :=
  (b.filter (fun x => x.2.late || x.2.due.any (fun f => fcAfter fc f))).length
theorem planeFc_lt (s : State) (p : Nat) : planeFc s p < 2 ^ 48 := Nat.mod_lt _ (by decide)
theorem takeSum_eq_foldl (b : List (Salvo × Part)) : b.foldl (fun n x => n + x.2.takes.length) 0 = takeSum b := by
  rw [takeSum, List.sum_eq_foldl, List.foldl_map]

/-- The batch has left the ring, and XP_PLANE_EXEC and XP_PLANE_DONE show it. -/
structure Recorded (p fc : Nat) (b : List (Salvo × Part)) (t : State) : Prop where
  batch : batchOf t p = []
  takes : fget t (Reg.XP_PLANE_EXEC p) Fld.XP_PLANE_EXEC_TAKES_LAST = takeSum b % 2 ^ 12
  done : ∀ x, b.getLast? = some x →
    fget t (Reg.XP_PLANE_DONE_TAG p) Fld.XP_PLANE_DONE_TAG_TAG = x.1.tag % 2 ^ 16 ∧
    rget64 t (Reg.XP_PLANE_DONE_FC_LO p) (Reg.XP_PLANE_DONE_FC_HI p) = fc

/-- The registers that show a record. -/
abbrev recordRegs (p : Nat) : List Nat :=
  [Reg.XP_PLANE_EXEC p, Reg.XP_PLANE_DONE_TAG p, Reg.XP_PLANE_DONE_FC_LO p, Reg.XP_PLANE_DONE_FC_HI p]
theorem recordRegs_apart (hp : p < 2) {a : Nat} (ha : a ∈ recordRegs p) : ¬ Beside a := by
  simp only [recordRegs, List.mem_cons, List.not_mem_nil, or_false, Reg.XP_PLANE_EXEC, Reg.XP_PLANE_DONE_TAG,
    Reg.XP_PLANE_DONE_FC_LO, Reg.XP_PLANE_DONE_FC_HI] at ha
  rw [Beside, alarm_iff]
  omega

/-- What changes neither the ring nor those registers keeps the record. -/
theorem Recorded.beside {fc : Nat} {b : List (Salvo × Part)} (hp : p < 2) (h : Recorded p fc b t) (hx : u.xp = t.xp)
    (hr : OnlyRegs Beside t u) : Recorded p fc b u := by
  obtain ⟨hbatch, htakes, hdone⟩ := h
  refine ⟨(batchOf_congr (congrArg XpSt.salvos hx) p).trans hbatch,
    (hr.field (recordRegs_apart hp (by simp)) _).trans htakes, fun x hl => ?_⟩
  obtain ⟨htag, hfc⟩ := hdone x hl
  refine ⟨(hr.field (recordRegs_apart hp (by simp)) _).trans htag, ?_⟩
  rw [rget64, hr.num (recordRegs_apart hp (by simp)), hr.num (recordRegs_apart hp (by simp))]
  exact hfc

theorem refreshHeld_takes (s : State) (p : Nat) :
    fget (refreshHeld s) (Reg.XP_PLANE_EXEC p) Fld.XP_PLANE_EXEC_TAKES_LAST =
      fget s (Reg.XP_PLANE_EXEC p) Fld.XP_PLANE_EXEC_TAKES_LAST := by
  have held (u : State) (q n : Nat) :
      fget (fset u (Reg.XP_PLANE_EXEC q) Fld.XP_PLANE_EXEC_HELD n) (Reg.XP_PLANE_EXEC p) Fld.XP_PLANE_EXEC_TAKES_LAST =
        fget u (Reg.XP_PLANE_EXEC p) Fld.XP_PLANE_EXEC_TAKES_LAST := by
    by_cases hq : Reg.XP_PLANE_EXEC p = Reg.XP_PLANE_EXEC q
    · rw [hq]
      exact fget_fset_field _ _ _ _ _ (by decide) (by decide) (by decide)
    · exact fget_fset_ne _ _ _ _ hq
  exact (held _ 1 _).trans (held _ 0 _)

/-- Freeing what has been executed keeps the record. -/
theorem Recorded.takeFree {fc : Nat} {b : List (Salvo × Part)} (hp : p < 2) (h : Recorded p fc b t) :
    Recorded p fc b (takeFree t) := by
  obtain ⟨hbatch, htakes, hdone⟩ := h
  have hf : OnlyRegs (· ∈ freedRegs) t (Machine.takeFree t) := takeFree_regs (fun _ h => h) (OnlyRegs.refl _ t)
  have apart {a : Nat} (ha : a ∈ (recordRegs p).tail) : a ∉ freedRegs := by
    simp only [recordRegs, List.tail_cons, List.mem_cons, List.not_mem_nil, or_false, freedRegs, Reg.XP_PLANE_DONE_TAG,
      Reg.XP_PLANE_DONE_FC_LO, Reg.XP_PLANE_DONE_FC_HI, Reg.XP_TAKE_CI, Reg.XP_PLANE_EXEC] at ha ⊢
    omega
  refine ⟨batchOf_takeFree hbatch, ?_, fun x hl => ?_⟩
  · refine (refreshHeld_takes _ p).trans ((fget_fset_ne _ _ _ _ ?_).trans htakes)
    simp only [Reg.XP_PLANE_EXEC, Reg.XP_TAKE_CI]
    omega
  · obtain ⟨htag, hfc⟩ := hdone x hl
    refine ⟨(hf.field (apart (by simp)) _).trans htag, ?_⟩
    rw [rget64, hf.num (apart (by simp)), hf.num (apart (by simp))]
    exact hfc

section Record
variable (hu : planeUsed s.img p = true) (hr : running s = true)
include hu hr

theorem batchRecord_empty (hb : batchOf s p = []) :
    batchRecord p s = takeFree (execShown p 0 (changedMarked p s)) := by
  unfold batchRecord
  rw [if_neg (by simp [hu, hr])]
  simp only [hb, List.foldl_nil, List.getLast?_nil]
  rfl
theorem batchRecord_last {x : Salvo × Part} (hb : (batchOf s p).getLast? = some x) :
    batchRecord p s = takeFree (doneSent ([0, p, lo32 (planeFc s p), hi32 (planeFc s p)] ++
      (batchOf s p).map (fun x => x.1.first)) (partsDone p (doneShown p x.1.tag (planeFc s p)
        (lateParts (planeFc s p) (batchOf s p)) (execShown p (takeSum (batchOf s p)) (changedMarked p s))))) := by
  unfold batchRecord
  rw [if_neg (by simp [hu, hr])]
  simp only [hb, takeSum_eq_foldl]
  rfl

end Record

theorem execShown_takes (p n : Nat) (s : State) :
    fget (execShown p n s) (Reg.XP_PLANE_EXEC p) Fld.XP_PLANE_EXEC_TAKES_LAST = n % 2 ^ 12 := by
  rw [execShown, fget_fset_field _ _ _ _ _ (by decide) (by decide) (by decide)]
  exact fget_fset_same _ _ _ _ (by decide) (by decide)
theorem doneShown_regs (p tag fc late : Nat) (s : State) : RegsWithin [Reg.XP_PLANE_DONE_TAG p, Reg.XP_PLANE_DONE_FC_LO p,
    Reg.XP_PLANE_DONE_FC_HI p, Reg.XP_PLANE_AT_LATE p] s (doneShown p tag fc late s) :=
  (((OnlyRegs.refl _ s).fset (by simp)).rset64 (by simp) (by simp)).countN (by simp)
theorem doneShown_takes (p tag fc late : Nat) (s : State) :
    fget (doneShown p tag fc late s) (Reg.XP_PLANE_EXEC p) Fld.XP_PLANE_EXEC_TAKES_LAST =
      fget s (Reg.XP_PLANE_EXEC p) Fld.XP_PLANE_EXEC_TAKES_LAST := by
  refine (doneShown_regs p tag fc late s).field ?_ _
  simp only [Reg.XP_PLANE_EXEC, Reg.XP_PLANE_DONE_TAG, Reg.XP_PLANE_DONE_FC_LO, Reg.XP_PLANE_DONE_FC_HI,
    Reg.XP_PLANE_AT_LATE, List.mem_cons, List.not_mem_nil, or_false]
  omega
theorem doneShown_tag (p tag fc late : Nat) (s : State) :
    fget (doneShown p tag fc late s) (Reg.XP_PLANE_DONE_TAG p) Fld.XP_PLANE_DONE_TAG_TAG = tag % 2 ^ 16 := by
  rw [doneShown, countN, fget_rsetN_ne, rset64, fget_rsetN_ne, fget_rsetN_ne]
  · exact fget_fset_same _ _ _ _ (by decide) (by decide)
  all_goals
    simp only [Reg.XP_PLANE_DONE_TAG, Reg.XP_PLANE_DONE_FC_LO, Reg.XP_PLANE_DONE_FC_HI, Reg.XP_PLANE_AT_LATE]
    omega
theorem doneShown_fc (p tag late : Nat) {fc : Nat} (hfc : fc < 2 ^ 48) (s : State) :
    rget64 (doneShown p tag fc late s) (Reg.XP_PLANE_DONE_FC_LO p) (Reg.XP_PLANE_DONE_FC_HI p) = fc := by
  have hlo : Reg.XP_PLANE_DONE_FC_LO p ≠ Reg.XP_PLANE_DONE_FC_HI p := by
    simp only [Reg.XP_PLANE_DONE_FC_LO, Reg.XP_PLANE_DONE_FC_HI]; omega
  have hlate : Reg.XP_PLANE_DONE_FC_LO p ≠ Reg.XP_PLANE_AT_LATE p := by
    simp only [Reg.XP_PLANE_DONE_FC_LO, Reg.XP_PLANE_AT_LATE]; omega
  have hlate' : Reg.XP_PLANE_DONE_FC_HI p ≠ Reg.XP_PLANE_AT_LATE p := by
    simp only [Reg.XP_PLANE_DONE_FC_HI, Reg.XP_PLANE_AT_LATE]; omega
  rw [rget64, doneShown, countN, rgetN_rsetN_ne _ _ hlate, rgetN_rsetN_ne _ _ hlate', rset64, rgetN_rsetN_same,
    rgetN_rsetN_ne _ _ hlo, rgetN_rsetN_same, lo32, hi32]
  omega

theorem changedMarked_salvos (p : Nat) (s : State) : (changedMarked p s).xp.salvos = s.xp.salvos := by
  have hw : Within [.regs, .pat] (changedLeft p s) (changedMarked p s) :=
    Within.foldl (Within.refl _ _) fun v x h => h.then (markDirty_within ..) rfl
  exact (congrArg XpSt.salvos (hw.part .xp (by decide))).trans (changedLeft_salvos p s)
theorem doneSent_regs (words : List Nat) (s : State) : OnlyRegs Beside s (doneSent words s) := by
  have hmsix (v : Nat) : OnlyRegs Alarm s (sendDone v s) :=
    sendMsix_regs (by split <;> omega) (OnlyRegs.refl _ s)
  have hmirror (u : State) : (mirrorSend mkDone words u).regs = u.regs :=
    (mirrorSend_within mkDone words u).part .regs (by decide)
  unfold doneSent
  extract_lets u
  have hu : OnlyRegs Beside s u := OnlyRegs.ite ((hmsix _).mono fun _ => .inl) (OnlyRegs.refl _ s)
  exact OnlyRegs.ite (hu.same (hmirror u)) hu
theorem doneSent_xp (words : List Nat) (s : State) : (doneSent words s).xp = s.xp := by
  have hw : Within [.regs, .pair] s (doneSent words s) := by
    unfold doneSent
    extract_lets u
    have hu : Within [.regs, .pair] s u := Within.ite ((sendDone_within ..).mono rfl) (Within.refl _ s)
    exact Within.ite (hu.then (mirrorSend_within ..) rfl) hu
  exact hw.part .xp (by decide)

/-- What is shown of a batch x ends, with the parts that it marks, in its record. -/
theorem partsDone_recorded {fc : Nat} (hfc : fc < 2 ^ 48) {b : List (Salvo × Part)} {x : Salvo × Part}
    (hx : b.getLast? = some x) (late : Nat) (s : State) :
    Recorded p fc b (partsDone p (doneShown p x.1.tag fc late (execShown p (takeSum b) s))) := by
  generalize hv : doneShown p x.1.tag fc late (execShown p (takeSum b) s) = v
  have htakes : fget v (Reg.XP_PLANE_EXEC p) Fld.XP_PLANE_EXEC_TAKES_LAST = takeSum b % 2 ^ 12 := by
    rw [← hv, doneShown_takes, execShown_takes]
  have htag : fget v (Reg.XP_PLANE_DONE_TAG p) Fld.XP_PLANE_DONE_TAG_TAG = x.1.tag % 2 ^ 16 := by rw [← hv, doneShown_tag]
  have hframe : rget64 v (Reg.XP_PLANE_DONE_FC_LO p) (Reg.XP_PLANE_DONE_FC_HI p) = fc := by rw [← hv, doneShown_fc _ _ _ hfc]
  clear hv
  have hr := partsDone_regs p v
  refine ⟨batchOf_partsDone p v, (fget_congr hr ..).trans htakes, fun y hy => ?_⟩
  obtain rfl : x = y := Option.some.inj (hx.symm.trans hy)
  refine ⟨(fget_congr hr ..).trans htag, ?_⟩
  rw [rget64, rgetN_congr hr, rgetN_congr hr]
  exact hframe

theorem batchRecord_recorded (hp : p < 2) (hu : planeUsed s.img p = true) (hr : running s = true) :
    Recorded p (planeFc s p) (batchOf s p) (batchRecord p s) := by
  cases hlast : (batchOf s p).getLast? with
  | none =>
    have hb : batchOf s p = [] := List.getLast?_eq_none_iff.1 hlast
    rw [batchRecord_empty hu hr hb, hb]
    refine Recorded.takeFree hp ⟨?_, execShown_takes .., fun x hx => by cases hx⟩
    exact (batchOf_congr (changedMarked_salvos p s) p).trans hb
  | some x =>
    rw [batchRecord_last hu hr hlast]
    exact ((partsDone_recorded (planeFc_lt s p) hlast _ _).beside hp (doneSent_xp ..) (doneSent_regs _ _)).takeFree hp

/-! ### What a pair adds to the record (16 R402, R405) -/

/-- A standby compares the frame of a salvo of the batch with the active device's, or keeps it until that is reported. -/
def frameCompared (p : Nat) (s : State) (x : Salvo × Part) : State :=
  match s.pair.doneAt.find? (fun e => e.1 == x.1.first && e.2.1 == p) with
  | some e =>
    let s := { s with pair := { s.pair with doneAt := s.pair.doneAt.filter (· != e) } }
    if fcAfter (planeFc s p) e.2.2 then takeLate s else s
  | none =>
    if x.1.fwd then { s with pair := { s.pair with execLog := s.pair.execLog ++ [(x.1.first, p, planeFc s p)] } } else s
def framesCompared (p : Nat) (b : List (Salvo × Part)) (s : State) : State :=
  if !(isStandby s && pairInUse s) then s else b.foldl (frameCompared p) s
/-- A copy of the state leaves after the record of plane 0. -/
def copyAfter (p : Nat) (s : State) : State := if p = 0 then copySend s else s

theorem batchDone_eq (hu : planeUsed s.img p = true) (hr : running s = true) :
    batchDone p s = framesCompared p (batchOf s p) (copyAfter p (batchRecord p s)) := by
  unfold batchDone
  simp only [hu, hr, Bool.and_self, if_true]
  rfl
theorem frameCompared_within (x : Salvo × Part) (h : Within [.regs, .core, .pat, .pair] s t) :
    Within [.regs, .core, .pat, .pair] s (frameCompared p t x) := by
  unfold frameCompared
  split
  · have hv (l) : Within [.regs, .core, .pat, .pair] s { t with pair := { t.pair with doneAt := l } } :=
      h.then (Within.upd (w := [.pair]) (h := Within.refl _ t)) rfl
    exact Within.ite ((hv _).then (takeLate_within _) rfl) (hv _)
  · exact Within.ite (h.then (Within.upd (w := [.pair]) (h := Within.refl _ t)) rfl) h
theorem frameCompared_regs (x : Salvo × Part) (h : OnlyRegs Beside s t) : OnlyRegs Beside s (frameCompared p t x) := by
  have late (v : State) (hv : OnlyRegs Beside s v) : OnlyRegs Beside s (takeLate v) :=
    raise_beside (by decide) _ (.inr (by decide)) hv
  unfold frameCompared
  split
  · exact OnlyRegs.ite (late _ (h.same rfl)) (h.same rfl)
  · exact OnlyRegs.ite (h.same rfl) h
theorem framesCompared_beside (p : Nat) (b : List (Salvo × Part)) (s : State) :
    (framesCompared p b s).xp = s.xp ∧ OnlyRegs Beside s (framesCompared p b s) := by
  have hw : Within [.regs, .core, .pat, .pair] s (framesCompared p b s) :=
    Within.ite (Within.refl _ s) (Within.foldl (Within.refl _ s) fun _ x h => frameCompared_within x h)
  exact ⟨hw.part .xp (by decide), OnlyRegs.ite (OnlyRegs.refl _ s)
    (OnlyRegs.foldl (OnlyRegs.refl _ s) fun _ x h => frameCompared_regs x h)⟩
theorem copyAfter_beside (p : Nat) (s : State) : (copyAfter p s).xp = s.xp ∧ OnlyRegs Beside s (copyAfter p s) := by
  unfold copyAfter
  split
  · have hw := copySend_within s
    exact ⟨hw.part .xp (by decide), (OnlyRegs.refl _ s).same (hw.part .regs (by decide))⟩
  · exact ⟨rfl, OnlyRegs.refl _ s⟩

theorem batchDone_recorded (hp : p < 2) (hu : planeUsed s.img p = true) (hr : running s = true) :
    Recorded p (planeFc s p) (batchOf s p) (batchDone p s) := by
  obtain ⟨hcx, hcr⟩ := copyAfter_beside p (batchRecord p s)
  obtain ⟨hfx, hfr⟩ := framesCompared_beside p (batchOf s p) (copyAfter p (batchRecord p s))
  rw [batchDone_eq hu hr]
  exact ((batchRecord_recorded hp hu hr).beside hp hcx hcr).beside hp hfx hfr

/-! ### O33 -/

/-- Settles O33: a batch under way makes the cut-off do nothing (`planeCutoff_open`), else it forms a batch within the bounds
of R99 (`formBatch_spec`) and loads it (`planeCutoff_cut`); the record follows what the executed batch shows
(`batchRecord_recorded`) through what a pair adds (`batchDone_recorded`). -/
theorem batchOfPlane : Obligations.BatchOfPlane := by
  unfold Obligations.BatchOfPlane
  intro p s hu hr _ fc
  refine ⟨?_, ?_⟩
  · by_cases hb : batchOf s p = []
    · obtain ⟨hsalvos, hused, hloaded⟩ := cutoffCycle_cut hu hr hb
      obtain ⟨hsum, hdue⟩ := formBatch_spec (fc := fc) (n := 0) hb (by omega)
      rw [← hsalvos, Nat.zero_add] at hsum
      rw [← hsalvos] at hdue
      exact ⟨_, rfl, hused, fun h => absurd hb h, fun _ => ⟨hsalvos, hsum, hdue, hloaded⟩⟩
    · obtain ⟨hxp, hregs⟩ := cutoffCycle_open hu hr hb
      exact ⟨_, rfl, fun d _ => ⟨fget_congr hregs .., congrArg (· == 1) (fget_congr hregs ..)⟩,
        fun _ => ⟨hxp, hregs⟩, fun h => absurd h hb⟩
  · obtain ⟨hbatch, htakes, hdone⟩ := batchDone_recorded p.isLt hu hr
    exact ⟨_, rfl, hbatch, htakes, hdone⟩

end Sys2Proof.Proofs.PlaneBatch
end

section
/-! PROOF. What reading a line, storing a frame and following the references leave alone: the modes, the registers of the
crosspoint's destinations, the transmitters' status, and whether the tester holds the pins. -/

set_option Elab.async false

namespace Sys2Proof.Proofs.LinePaths

open Sys2Proof.Machine Sys2Proof.Laws

variable {s t u : State}

/-! ### Registers far from the crosspoint -/

/-- The alarms, and the blocks from the planes' on: above GLOBAL, XP and VLANE. -/
abbrev Far (a : Nat) : Prop := Alarm a ∨ 0x00800000 ≤ a
/-- Those, and the status of a source. -/
abbrev FarOrSrc (a : Nat) : Prop := Far a ∨ (0x00230000 ≤ a ∧ a < 0x00240000)

theorem far_add {n k : Nat} (h : 0x00800000 ≤ n) : 0x00800000 ≤ n + k := Nat.le_add_right_of_le h

theorem farOrSrc_iff (a : Nat) : FarOrSrc a ↔
    (0x00100000 ≤ a ∧ a < 0x00200000) ∨ 0x00800000 ≤ a ∨ (0x00230000 ≤ a ∧ a < 0x00240000) := by
  rw [FarOrSrc, Far, alarm_iff]
  omega
theorem far_iff (a : Nat) : Far a ↔ (0x00100000 ≤ a ∧ a < 0x00200000) ∨ 0x00800000 ≤ a := by
  rw [Far, alarm_iff]
  omega

/-- From s to t only far registers have been written. -/
abbrev OnlyFar (s t : State) : Prop := OnlyRegs Far s t

theorem onlyFar_refl (s : State) : OnlyFar s s := OnlyRegs.refl _ s
theorem onlyFar_rsetN {a n : Nat} (h : OnlyFar s t)
    (ha : 0x00800000 ≤ a := by (repeat refine far_add ?_); decide) : OnlyFar s (rsetN t a n) := h.rsetN (.inr ha)
theorem onlyFar_count {a : Nat} (h : OnlyFar s t)
    (ha : 0x00800000 ≤ a := by (repeat refine far_add ?_); decide) : OnlyFar s (count t a) := h.count (.inr ha)
theorem onlyFar_fset {a v : Nat} {f : FieldRow} (h : OnlyFar s t)
    (ha : 0x00800000 ≤ a := by (repeat refine far_add ?_); decide) : OnlyFar s (fset t a f v) := h.fset (.inr ha)
theorem onlyFar_alarm (h : OnlyFar s t) (k : OnlyRegs Alarm t u) : OnlyFar s u := h.trans (k.mono fun _ => .inl)
theorem onlyFar_raise {n : Nat} {l : List Nat} (h : OnlyFar s t) (hn : n < 1536 := by decide) : OnlyFar s (raise n l t) :=
  onlyFar_alarm h (raise_regs hn (OnlyRegs.refl _ t))

/-- A frame that does not name the registers. -/
theorem onlyFar_within {w : List Area} (hw : Within w t u) (h : OnlyFar s t) (hr : Area.regs ∉ w := by decide) :
    OnlyFar s u := h.same (hw.part .regs hr)

/-! ### The references follow (14 R353-R363) -/

theorem refreshHealth_far (h : OnlyFar s t) : OnlyFar s (refreshHealth t) :=
  onlyFar_alarm h (refreshHealth_regs (OnlyRegs.refl _ t))
theorem refreshAlm_far (h : OnlyFar s t) : OnlyFar s (refreshAlm t) := by
  unfold refreshAlm
  exact OnlyRegs.ite h ((onlyFar_fset (onlyFar_fset h)).same rfl)
theorem planeEvent_far {p : Nat} {f : FieldRow} (h : OnlyFar s t) : OnlyFar s (planeEvent p f t) :=
  refreshAlm_far (onlyFar_fset h)
theorem setRefPl_far {p : Nat} {v : RefPl} (h : OnlyFar s t) : OnlyFar s (setRefPl p v t) :=
  onlyFar_within (setRefPl_within ..) h
theorem setPlaneState_far {p st : Nat} (h : OnlyFar s t) : OnlyFar s (setPlaneState p st t) := by
  unfold setPlaneState
  have hstat : OnlyFar s (fset (fset t (Reg.PLANE_STAT p) Fld.PLANE_STAT_STATE st) (Reg.PLANE_STAT p)
      Fld.PLANE_STAT_CUR_VALID (b2n (st == 2 || st == 3 || st == 4))) := onlyFar_fset (onlyFar_fset h)
  exact refreshHealth_far (refreshAlm_far (onlyFar_within (planeClock_within ..)
    (OnlyRegs.ite (hstat.same rfl) (hstat.same rfl))))
theorem setResid_far {p : Nat} {r : Int} (h : OnlyFar s t) : OnlyFar s (setResid p r t) := onlyFar_rsetN (setRefPl_far h)
theorem setCur_far {p e : Nat} (h : OnlyFar s t) : OnlyFar s (setCur p e t) := onlyFar_fset h
theorem acquire_far {p e : Nat} (h : OnlyFar s t) : OnlyFar s (acquire p e t) :=
  setPlaneState_far (setCur_far (setResid_far (setRefPl_far h)))
theorem beginSwitch_far {p e : Nat} (h : OnlyFar s t) : OnlyFar s (beginSwitch p e t) :=
  onlyFar_raise (planeEvent_far (onlyFar_count (setPlaneState_far (setCur_far (setResid_far (setRefPl_far h))))))
theorem retarget_far {p e : Nat} (h : OnlyFar s t) : OnlyFar s (retarget p e t) :=
  onlyFar_raise (planeEvent_far (onlyFar_count (setCur_far (setResid_far (setRefPl_far h)))))
theorem holdover_far {p : Nat} (h : OnlyFar s t) : OnlyFar s (holdover p t) :=
  onlyFar_raise (planeEvent_far (setPlaneState_far (onlyFar_rsetN (onlyFar_rsetN (setRefPl_far h)))))
theorem refRefresh_far (h : OnlyFar s t) : OnlyFar s (refRefresh t) := by
  unfold refRefresh
  refine OnlyRegs.foldl h fun v p hv => OnlyRegs.ite hv ?_
  extract_lets w
  have hw : OnlyFar s w := OnlyRegs.ite (onlyFar_rsetN hv) hv
  exact OnlyRegs.ite (onlyFar_rsetN hw) hw
/-- The selector's decision, one move of Table 14.6 at most. -/
theorem refDecide_far {p : Nat} (h : OnlyFar s t) : OnlyFar s (refDecide p t) := by
  unfold refDecide
  refine OnlyRegs.ite h ?_
  cases bestRef t p with
  | none => exact OnlyRegs.ite (holdover_far h) h
  | some b =>
    have hswitch : OnlyFar s (beginSwitch p b t) := beginSwitch_far h
    have hretarget : OnlyFar s (retarget p b t) := retarget_far h
    exact OnlyRegs.ite (acquire_far h) (OnlyRegs.ite (beginSwitch_far (refRefresh_far h))
      (OnlyRegs.ite (OnlyRegs.ite hswitch (OnlyRegs.ite hretarget h))
        (OnlyRegs.ite (OnlyRegs.ite hswitch h) (OnlyRegs.ite (OnlyRegs.ite hretarget h) h))))
theorem entStat_far {p e v : Nat} {f : FieldRow} (h : OnlyFar s t) : OnlyFar s (entStat p e f v t) := onlyFar_fset h
theorem refReject_far {p e : Nat} (h : OnlyFar s t) : OnlyFar s (refReject p e t) :=
  onlyFar_raise (planeEvent_far (onlyFar_count (entStat_far (entStat_far h))))
theorem setActive_far {p e : Nat} {on : Bool} (h : OnlyFar s t) : OnlyFar s (setActive p e on t) := by
  unfold setActive
  refine OnlyRegs.ite h ?_
  extract_lets u v w
  have hw : OnlyFar s w := OnlyRegs.ite (entStat_far h) (setRefPl_far (entStat_far h))
  exact OnlyRegs.ite (refReject_far hw) hw
theorem refFollow_far (h : OnlyFar s t) : OnlyFar s (refFollow t) := by
  unfold refFollow
  refine OnlyRegs.ite h (cycleEnd_regs (OnlyRegs.foldl (cycleBegin_regs h) fun v p hv => OnlyRegs.ite hv ?_))
  exact OnlyRegs.ite hv (refDecide_far (OnlyRegs.foldl hv fun w e hw => OnlyRegs.ite (setActive_far hw) hw))

/-! ### The audio of plane 1 (12 R327, R338, R343) -/

theorem meterEnd_far {m : Nat} (h : OnlyFar s t) : OnlyFar s (meterEnd m t) := by
  unfold meterEnd
  exact OnlyRegs.ite h (onlyFar_within (setMeter_within ..) (onlyFar_rsetN (onlyFar_fset h)))
theorem meterStep_far {n m : Nat} (h : OnlyFar s t) : OnlyFar s (meterStep n m t) := by
  unfold meterStep
  exact OnlyRegs.ite h (onlyFar_rsetN (onlyFar_within (setMeter_within ..) (meterEnd_far h)))
theorem plane1Audio_far (d : Nat) (s : State) : OnlyFar s (plane1Audio d s) := by
  unfold plane1Audio
  refine OnlyRegs.ite (onlyFar_refl s) (OnlyRegs.foldl ((onlyFar_refl s).same rfl) fun v i hv => OnlyRegs.foldl hv fun v j hv => ?_)
  refine onlyFar_within (embedLane_within ..) (OnlyRegs.foldl (OnlyRegs.foldl hv fun w c hw => ?_) fun w m hw => ?_)
  · exact OnlyRegs.ite (onlyFar_within (plane1Sample_within ..) hw) hw
  · exact OnlyRegs.ite (meterStep_far hw) hw


/-! ### A line is read: what it leaves alone -/

/-- From s to t only far registers and the status of sources have been written, and the tester's hold of the pins is the
same. -/
structure Apart (s t : State) : Prop where
  regs : OnlyRegs FarOrSrc s t
  pins : t.test.jtagPins = s.test.jtagPins

theorem Apart.refl (s : State) : Apart s s := ⟨OnlyRegs.refl _ s, rfl⟩
/-- A step that names no test facility writes registers of the kind. -/
theorem Apart.step {w : List Area} (h : Apart s t) (hw : Within w t u) (hr : OnlyRegs FarOrSrc t u)
    (ht : Area.test ∉ w := by decide) : Apart s u :=
  ⟨h.regs.trans hr, (congrArg Test.jtagPins (hw.part .test ht)).trans h.pins⟩
/-- A frame that names neither the registers nor the test facilities. -/
theorem Apart.within {w : List Area} (hw : Within w t u) (h : Apart s t) (hr : Area.regs ∉ w := by decide)
    (ht : Area.test ∉ w := by decide) : Apart s u :=
  h.step hw ((OnlyRegs.refl _ t).same (hw.part .regs hr)) ht
/-- An update that changes neither. -/
theorem Apart.upd {pending regs core long pat fab test img upd xp vl q eng comp flow aud mac ref time pair out fresh}
    (h : Apart s t) (hr : regs = t.regs) (ht : test.jtagPins = t.test.jtagPins) :
    Apart s (State.mk pending regs core long pat fab test img upd xp vl q eng comp flow aud mac ref time pair out fresh) :=
  ⟨h.regs.same hr, ht.trans h.pins⟩
theorem Apart.rsetN {a n : Nat} (h : Apart s t)
    (ha : 0x00800000 ≤ a := by (repeat refine far_add ?_); decide) : Apart s (rsetN t a n) :=
  ⟨h.regs.rsetN (.inl (.inr ha)), h.pins⟩
theorem Apart.fset {a v : Nat} {f : FieldRow} (h : Apart s t)
    (ha : 0x00800000 ≤ a := by (repeat refine far_add ?_); decide) : Apart s (fset t a f v) := h.rsetN ha
theorem Apart.count {a : Nat} (h : Apart s t)
    (ha : 0x00800000 ≤ a := by (repeat refine far_add ?_); decide) : Apart s (count t a) := h.rsetN ha
theorem Apart.ite {c : Prop} [Decidable c] (ht : Apart s t) (hu : Apart s u) : Apart s (if c then t else u) := by
  split <;> assumption
theorem Apart.foldl {α : Type} {g : State → α → State} {l : List α} (h : Apart s t)
    (hg : ∀ v x, Apart s v → Apart s (g v x)) : Apart s (l.foldl g t) := by
  induction l generalizing t with
  | nil => exact h
  | cons x l ih => exact ih (hg t x h)
theorem Apart.foldlSnd {α β : Type} {g : β × State → α → β × State} {l : List α} {r : β × State} (h : Apart s r.2)
    (hg : ∀ v x, Apart s v.2 → Apart s (g v x).2) : Apart s (l.foldl g r).2 := by
  induction l generalizing r with
  | nil => exact h
  | cons x l ih => exact ih (hg r x h)
theorem Apart.alarm {w : List Area} (h : Apart s t) (hw : Within w t u) (hr : OnlyRegs Alarm t u)
    (ht : Area.test ∉ w := by decide) : Apart s u := h.step hw (hr.mono fun _ ha => .inl (.inl ha)) ht
theorem Apart.raise {n : Nat} {l : List Nat} (h : Apart s t) (hn : n < 1536 := by decide) : Apart s (raise n l t) :=
  h.alarm (raise_within ..) (raise_regs hn (OnlyRegs.refl _ t))
theorem Apart.logEvent {e : Nat} {l : List Nat} (h : Apart s t) : Apart s (logEvent e l t) :=
  h.alarm (logEvent_within ..) (logEvent_regs (OnlyRegs.refl _ t))
theorem Apart.condBegin {n : Nat} {l : List Nat} (h : Apart s t) (hn : n < 1536 := by decide) :
    Apart s (condBegin n l t) := h.alarm (condBegin_within ..) (condBegin_regs hn (OnlyRegs.refl _ t))
theorem Apart.cycleBegin (h : Apart s t) : Apart s (cycleBegin t) := h.within (cycleBegin_within _)
theorem Apart.cycleEnd (h : Apart s t) : Apart s (cycleEnd u t) := h.within (cycleEnd_within ..)

/-! #### The checkers (08 R216-R219; 20 R493) -/

theorem Apart.refreshInj (h : Apart s t) : Apart s (refreshInj t) := by
  unfold Machine.refreshInj
  split <;> exact h.fset.fset
theorem Apart.injEnd {c : Nat} (h : Apart s t) : Apart s (injEnd c t) := by
  unfold Machine.injEnd
  split
  · exact h
  · exact .logEvent (.refreshInj (.upd h rfl rfl))
theorem Apart.observe {cls idx : Nat} (h : Apart s t) : Apart s (observe cls idx t).2 := by
  unfold Machine.observe
  split
  · exact h
  · split
    · exact Apart.ite (.injEnd (.count (.refreshInj (.upd h rfl rfl)))) (.count (.refreshInj (.upd h rfl rfl)))
    · exact h
theorem Apart.eccCorr {q : Option Nat} (h : Apart s t) : Apart s (eccCorr q t) := by
  unfold Machine.eccCorr
  refine Apart.raise ?_
  split
  · exact h.count.count
  · exact h.count
theorem Apart.eccUncorr {stack off : Nat} {sram : Bool} {q : Option Nat} (h : Apart s t) :
    Apart s (eccUncorr stack off sram q t) := h.count.rsetN.rsetN.raise
theorem Apart.wideCheck {cls idx stack off errs : Nat} {sram : Bool} {q : Option Nat} (h : Apart s t) :
    Apart s (wideCheck cls idx stack off errs sram q t).2 := by
  unfold Machine.wideCheck
  refine Apart.foldlSnd h fun r i hr => ?_
  extract_lets c
  have hc : Apart s c.2 := hr.observe
  split
  · exact hc
  · split
    · exact hc.eccCorr
    · exact hc.eccUncorr
theorem Apart.hbmRead {w : Nat × Nat} {n errs : Nat} {q : Option Nat} (h : Apart s t) :
    Apart s (hbmRead w n errs q t).2 := by
  unfold Machine.hbmRead
  split
  · exact h.wideCheck
  · exact Apart.foldlSnd h fun r i hr => hr.wideCheck
theorem Apart.touchQ {q : Nat} (h : Apart s t) : Apart s (touchQ q t) := by
  unfold Machine.touchQ
  extract_lets hot hit src u r
  have hu : Apart s u := Apart.ite h (.upd h rfl rfl)
  have hr : Apart s r.2 := by
    simp only [r]
    split
    · exact .wideCheck (.cycleBegin hu)
    · exact .wideCheck (.count (.cycleBegin hu))
  exact .cycleEnd (.ite (.condBegin (.upd hr rfl rfl)) hr)
/-- A frame store's operation uses its descriptor. -/
theorem Apart.storeOp {n : Nat} (h : Apart s t) : Apart s (storeOp n t).2 := .touchQ h

/-! #### The lanes of a quad-link source (R111) -/

theorem Apart.slipLane {x p v : Nat} (h : Apart s t) (hx : x < 1536) : Apart s (slipLane x p v t) := by
  have hsrc : FarOrSrc (Reg.XP_SRC_STAT x) := .inr (by simp only [Reg.XP_SRC_STAT]; omega)
  unfold Machine.slipLane
  extract_lets key a lanes u
  have hu : Apart s u := ⟨(h.regs.fset hsrc).fset hsrc, h.pins⟩
  exact .ite h (.raise (.upd hu rfl rfl))
theorem Apart.laneUnder {x p v : Nat} (h : Apart s t) (hx : x < 1536) : Apart s (laneUnder x p v t).2 := by
  unfold Machine.laneUnder
  split
  · exact .slipLane h hx
  · exact h
theorem Apart.quadLane {x p L v : Nat} (h : Apart s t) (hx : x < 1536) : Apart s (quadLane x p L v t).2 := by
  unfold Machine.quadLane
  extract_lets key got
  split
  · exact .upd h rfl rfl
  · exact .slipLane h hx
theorem Apart.lanesRead {f : Nat → State → List Nat × State} {vs : List Nat} (h : Apart s t)
    (hf : ∀ v u, Apart s u → Apart s (f v u).2) : Apart s (lanesRead f vs t).2 :=
  Apart.foldlSnd h fun r v hr => hf v r.2 hr
/-- The frame of a source that has just ended. -/
theorem Apart.wholeFrame {x p : Nat} (h : Apart s t) : Apart s (wholeFrame x p t).2 := by
  unfold Machine.wholeFrame
  extract_lets fr
  split
  · exact h
  · next hx => exact .foldl h fun v k hv => hv.laneUnder (by omega)

/-! #### The paths of a destination (04 R87, R88; 08 R218, R221) -/

theorem Apart.fifoRead {v p L errs : Nat} {goal : Option Nat} (h : Apart s t) :
    Apart s (fifoRead v p L errs goal t).2 := by
  unfold Machine.fifoRead
  extract_lets due f put
  split
  · exact h
  · split
    · exact .upd h rfl rfl
    · exact .upd (.hbmRead (.upd h rfl rfl)) rfl rfl
theorem Apart.madeFifoRead {x p L errs : Nat} (h : Apart s t) : Apart s (madeFifoRead x p L errs t).2 := by
  unfold Machine.madeFifoRead
  extract_lets n f
  split
  · exact h
  · exact .upd (.hbmRead (.upd h rfl rfl)) rfl rfl
theorem Apart.headRead {x L errs : Nat} (h : Apart s t) : Apart s (headRead x L errs t).2 := by
  unfold Machine.headRead
  exact .ite (.upd (.hbmRead (.upd h rfl rfl)) rfl rfl) (.hbmRead (.upd h rfl rfl))
theorem Apart.ringLine {x p L errs : Nat} (h : Apart s t) : Apart s (ringLine x p L errs t).2 := by
  unfold Machine.ringLine
  split
  · exact .headRead h
  · split
    · exact h
    · next hx =>
      split
      · exact .lanesRead h fun v u hu => hu.quadLane (by omega)
      · split
        · exact h
        · exact .upd h rfl rfl
theorem Apart.fifoLine {x p L errs : Nat} (h : Apart s t) : Apart s (fifoLine x p L errs t).2 := by
  unfold Machine.fifoLine
  split
  · exact .madeFifoRead h
  · next hx =>
    extract_lets u
    have hu : Apart s u := .foldl h fun v k hv => hv.laneUnder (by omega)
    split
    · exact .lanesRead hu fun v w hw => hw
    · extract_lets r n
      refine .lanesRead (.fifoRead hu) fun v w hw => ?_
      split
      · exact hw
      · split
        · exact hw
        · exact .fifoRead hw
theorem Apart.destLine {d L errs : Nat} (h : Apart s t) : Apart s (destLine d L errs t).2 := by
  unfold Machine.destLine
  extract_lets v x p black
  split
  · exact h
  · split
    · exact h
    · exact .ringLine h
    · exact .fifoLine h
    · split
      · split
        · exact h
        · extract_lets c ws
          have hc : Apart s c.2 := .hbmRead (.upd h rfl rfl)
          split
          · exact .within (setDest_within ..) hc
          · exact hc
      · exact h

end Sys2Proof.Proofs.LinePaths
end

section
/-! PROOF. O35, the lines of a destination, its synchroniser, and the timing of a source (04 R84, R85, R88, R89, R108,
R110). -/

set_option Elab.async false

namespace Sys2Proof.Proofs.DestLines

open Sys2Proof.Machine Sys2Proof.Laws Sys2Proof.Proofs.TakeRing Sys2Proof.Proofs.LinePaths

variable {s t u : State} {d : Nat}

/-- Far registers do not decide the mode. -/
theorem running_far (h : OnlyFar s t) : running t = running s := by
  have hfar : ¬ Far Reg.GLOBAL_MODE := by rw [far_iff, Reg.GLOBAL_MODE]; omega
  have hmode : mode t = mode s := congrArg modeOf (h.field hfar _)
  have hcast : fbit t Reg.GLOBAL_MODE Fld.GLOBAL_MODE_CASTFORM = fbit s Reg.GLOBAL_MODE Fld.GLOBAL_MODE_CASTFORM :=
    h.bit hfar _
  simp only [running, inService, inCast, hmode, hcast]

/-- The status of a source that the image names is no far register. -/
theorem srcStat_apart {g : Img} {x : Nat} (h : srcNames g x = true) : ¬ Far (Reg.XP_SRC_STAT x) := by
  simp only [srcNames, Bool.and_eq_true, decide_eq_true_eq] at h
  rw [far_iff, Reg.XP_SRC_STAT]
  omega

/-! ### The line that a destination keeps (R84, R88) -/

theorem destOf_congr (h : t.xp.dests = s.xp.dests) (d : Nat) : destOf t d = destOf s d := by
  unfold destOf
  rw [h]
theorem destOf_setDest (d : Nat) (v : Dest) (s : State) : destOf (setDest d v s) d = v := by
  show cget {} (cset {} s.xp.dests d v) d = v
  rw [cget_cset, if_pos rfl]

/-- The line that destination d has read stands in its state. -/
def lineKept (d : Nat) (l : Ln) (s : State) : State := setDest d { destOf s d with line := some l } s
theorem destOf_lineKept (d : Nat) (l : Ln) (s : State) : destOf (lineKept d l s) d = { destOf s d with line := some l } :=
  destOf_setDest ..

/-- The words that a flow, slot or layer takes of what a destination has read. -/
def pictureOf (d : Nat) (got : Bool × List (List Nat)) (s : State) : List Nat :=
  if got.1 then pictureWords (carriedFmt s d) (destSamp s d) (destOf s d).square (destOf s d).levelB got.2 else got.2.headD []
theorem pictureOf_lineKept (d : Nat) (got : Bool × List (List Nat)) (l : Ln) (s : State) :
    pictureOf d got (lineKept d l s) = pictureOf d got s := by
  have hfmt : carriedFmt (lineKept d l s) d = carriedFmt s d := by
    unfold carriedFmt
    rw [destOf_lineKept]
    rfl
  simp only [pictureOf, hfmt, destSamp, destOf_lineKept]

theorem destLineRead_eq {L errs : Nat} (hd : destNames s.img d = true) (hr : running s = true) :
    destLineRead d L errs s =
      let r := destLine d L errs s
      let v := lineKept d ⟨readNumber d L r.2, r.1.2.flatten⟩ r.2
      if d < 512 then sdiLine d L (readNumber d L r.2) r.1 v else pictureLine d (readNumber d L r.2) r.1 v := by
  simp only [destLineRead, hd, hr, Bool.not_true, Bool.or_self, Bool.false_eq_true, if_false]
  rfl

/-! #### A flow, slot or layer takes the line -/

theorem pictureLine_spec (hd : 512 ≤ d) (n : Nat) (got : Bool × List (List Nat)) (s : State) :
    let t := pictureLine d n got s
    t.xp.dests = s.xp.dests ∧ t.out = s.out ++ [.line d n (pictureOf d got s)] ∧
      cget [] (cget [] t.xp.destLines d) n = pictureOf d got s := by
  have hpins : (Output.line d n (pictureOf d got s)).onPins = false := decide_eq_false (by omega)
  intro t
  refine ⟨(congrArg XpSt.dests (emit_xp _ _)).trans rfl, emit_out _ _ hpins, ?_⟩
  have hlines : t.xp.destLines = cset [] s.xp.destLines d (cset [] (cget [] s.xp.destLines d) n (pictureOf d got s)) :=
    (congrArg XpSt.destLines (emit_xp _ _)).trans rfl
  rw [hlines, cget_cset, if_pos rfl, cget_cset, if_pos rfl]

/-! #### The lanes of an SDI output carry the line -/

theorem lanesRead_length (f : Nat → State → List Nat × State) (vs : List Nat) (s : State) :
    (lanesRead f vs s).1.length = vs.length := by
  have key (r : List (List Nat) × State) : (vs.foldl (fun acc v => let x := f v acc.2; (acc.1 ++ [x.1], x.2)) r).1.length =
      r.1.length + vs.length := by
    induction vs generalizing r with
    | nil => rfl
    | cons v vs ih =>
      rw [List.foldl_cons, ih, List.length_append, List.length_cons]
      simp only [List.length_cons, List.length_nil]
      omega
  exact (key ([], s)).trans (Nat.zero_add _)

/-- Lines leave one after the other. -/
def linesSent (d L : Nat) (l : List (List Nat × Nat)) (s : State) : State :=
  l.foldl (fun s e => emit s (.line (d + e.2) L e.1)) s
theorem linesSent_xp (d L : Nat) (l : List (List Nat × Nat)) (s : State) : (linesSent d L l s).xp = s.xp := by
  induction l generalizing s with
  | nil => rfl
  | cons e l ih => exact (ih _).trans (emit_xp ..)
theorem linesSent_out (d L : Nat) (l : List (List Nat × Nat)) {s : State} (hp : s.test.jtagPins = false) :
    (linesSent d L l s).out = s.out ++ l.map (fun e => .line (d + e.2) L e.1) := by
  induction l generalizing s with
  | nil => simp [linesSent]
  | cons e l ih =>
    have htest : (emit s (.line (d + e.2) L e.1)).test.jtagPins = false := by rw [emit_test, hp]
    rw [show linesSent d L (e :: l) s = linesSent d L l (emit s (.line (d + e.2) L e.1)) from rfl, ih htest,
      emit_out_free _ _ hp, List.append_assoc]
    rfl

/-- The frame signature of a lane takes its words; in a pair those of all lanes do (16 R408). -/
def signedLane (d : Nat) (s : State) (e : List Nat × Nat) : State :=
  let c := (e.1.flatMap (leBytes 2)).foldl crcByte (cget 0 s.xp.sdiCrc (d + e.2) ^^^ 0xFFFFFFFF) ^^^ 0xFFFFFFFF
  { s with xp := { s.xp with sdiCrc := cset 0 s.xp.sdiCrc (d + e.2) c } }
def signed (pair : Bool) (d : Nat) (l : List (List Nat × Nat)) (s : State) : State :=
  if pair then l.foldl (signedLane d) s else s
theorem signedLane_kept (d : Nat) (e : List Nat × Nat) (s : State) : (signedLane d s e).xp.dests = s.xp.dests ∧
    (signedLane d s e).out = s.out ∧ (signedLane d s e).test = s.test := ⟨rfl, rfl, rfl⟩
theorem signed_kept (pair : Bool) (d : Nat) (l : List (List Nat × Nat)) (s : State) :
    (signed pair d l s).xp.dests = s.xp.dests ∧ (signed pair d l s).out = s.out ∧ (signed pair d l s).test = s.test := by
  have key (s : State) : (l.foldl (signedLane d) s).xp.dests = s.xp.dests ∧ (l.foldl (signedLane d) s).out = s.out ∧
      (l.foldl (signedLane d) s).test = s.test := by
    induction l generalizing s with
    | nil => exact ⟨rfl, rfl, rfl⟩
    | cons e l ih =>
      obtain ⟨hdests, hout, htest⟩ := ih (signedLane d s e)
      obtain ⟨kdests, kout, ktest⟩ := signedLane_kept d e s
      exact ⟨hdests.trans kdests, hout.trans kout, htest.trans ktest⟩
  unfold signed
  split
  · exact key s
  · exact ⟨rfl, rfl, rfl⟩

/-- The lanes of an SDI output at one line. -/
def outLanes (d L : Nat) (got : Bool × List (List Nat)) (s : State) : List (List Nat) × State :=
  lanesRead (fun i s => laneLine d i L got s) (List.range (if laneTxq s.img d then 4 else 1)) s
theorem outLanes_within (d L : Nat) (got : Bool × List (List Nat)) (s : State) :
    Within [.regs, .vl, .fresh] s (outLanes d L got s).2 :=
  lanesRead_within rfl (Within.refl _ s) fun _ _ h => h.then (laneLine_within ..) rfl

theorem sdiLine_idle {L n : Nat} {got : Bool × List (List Nat)} (h : sdiIdle s d = true) : sdiLine d L n got s = s :=
  if_pos h
theorem sdiLine_eq {L n : Nat} {got : Bool × List (List Nat)} (h : sdiIdle s d = false) :
    sdiLine d L n got s = linesSent d L (outLanes d n got s).1.zipIdx
      (signed (pairInUse s) d (outLanes d n got s).1.zipIdx (outLanes d n got s).2) := by
  unfold sdiLine
  rw [if_neg (by simp [h])]
  rfl

theorem sdiLine_dests (d L n : Nat) (got : Bool × List (List Nat)) (s : State) :
    (sdiLine d L n got s).xp.dests = s.xp.dests := by
  cases h : sdiIdle s d with
  | true => rw [sdiLine_idle h]
  | false =>
    obtain ⟨hdests, -, -⟩ := signed_kept (pairInUse s) d (outLanes d n got s).1.zipIdx (outLanes d n got s).2
    rw [sdiLine_eq h, linesSent_xp, hdests, (outLanes_within d n got s).part .xp (by decide)]
theorem sdiLine_out {L n : Nat} {got : Bool × List (List Nat)} (h : sdiIdle s d = false) (hp : s.test.jtagPins = false) :
    ∃ l, (sdiLine d L n got s).out = s.out ++ l ∧
      ∀ i < (if laneTxq s.img d then 4 else 1), ∃ ws, .line (d + i) L ws ∈ l := by
  have hw := outLanes_within d n got s
  obtain ⟨before, hbefore⟩ := hw.out
  have hlen : (outLanes d n got s).1.length = if laneTxq s.img d then 4 else 1 :=
    (lanesRead_length ..).trans List.length_range
  obtain ⟨-, hout, htest⟩ := signed_kept (pairInUse s) d (outLanes d n got s).1.zipIdx (outLanes d n got s).2
  have hpins : (signed (pairInUse s) d (outLanes d n got s).1.zipIdx (outLanes d n got s).2).test.jtagPins = false := by
    rw [htest, hw.part .test (by decide), hp]
  refine ⟨before ++ (outLanes d n got s).1.zipIdx.map (fun e => .line (d + e.2) L e.1), ?_, fun i hi => ?_⟩
  · rw [sdiLine_eq h, linesSent_out _ _ _ hpins, hout, ← hbefore, List.append_assoc]
  · have hi' : i < (outLanes d n got s).1.length := hlen ▸ hi
    refine ⟨(outLanes d n got s).1[i], List.mem_append_right _ (List.mem_map.2 ⟨(_, i), ?_, rfl⟩)⟩
    exact List.mk_mem_zipIdx_iff_getElem?.2 (List.getElem?_eq_getElem hi')

/-! #### The line read, of any destination -/

section Read
variable {L errs : Nat}

/-- What destination d reads, with its audio of plane 1 before. -/
abbrev lineGot (d L errs : Nat) (s : State) : (Bool × List (List Nat)) × State := destLine d L errs (plane1Audio d s)
/-- The number in its source of the line that it has read. -/
abbrev numberGot (d L errs : Nat) (s : State) : Nat := readNumber d L (lineGot d L errs s).2

theorem plane1Audio_img (d : Nat) (s : State) : (plane1Audio d s).img = s.img :=
  (plane1Audio_within d s).part .img (by decide)

/-- The line kept, and the state in which it is passed on. -/
abbrev lineStands (d L errs : Nat) (s : State) : State :=
  lineKept d ⟨numberGot d L errs s, (lineGot d L errs s).1.2.flatten⟩ (lineGot d L errs s).2
theorem lineStands_within (d L errs : Nat) (s : State) :
    Within [.regs, .core, .pat, .test, .xp, .vl, .aud, .fresh] s (lineStands d L errs s) :=
  (((plane1Audio_within d s).mono rfl).then (destLine_within ..) rfl).then (setDest_within ..) rfl
theorem lineStands_apart (d L errs : Nat) (s : State) : Apart s (lineStands d L errs s) := by
  have haudio : Apart s (plane1Audio d s) :=
    (Apart.refl s).step (plane1Audio_within d s) ((plane1Audio_far d s).mono fun _ => .inl)
  exact haudio.destLine.within (setDest_within ..)

theorem exec_destLineRead (hd : destNames s.img d = true) (hr : running s = true) :
    destLineRead d L errs (plane1Audio d s) =
      if d < 512 then sdiLine d L (numberGot d L errs s) (lineGot d L errs s).1 (lineStands d L errs s)
      else pictureLine d (numberGot d L errs s) (lineGot d L errs s).1 (lineStands d L errs s) :=
  destLineRead_eq (by rw [plane1Audio_img, hd]) (by rw [running_far (plane1Audio_far d s), hr])

theorem destLineRead_line (hd : destNames s.img d = true) (hr : running s = true) :
    (destOf (destLineRead d L errs (plane1Audio d s)) d).line =
      some ⟨numberGot d L errs s, (lineGot d L errs s).1.2.flatten⟩ := by
  rw [exec_destLineRead hd hr]
  split
  · rw [destOf_congr (sdiLine_dests ..), destOf_lineKept]
  · next h =>
    obtain ⟨hdests, -, -⟩ := pictureLine_spec (Nat.le_of_not_lt h) (numberGot d L errs s) (lineGot d L errs s).1 (lineStands d L errs s)
    rw [destOf_congr hdests, destOf_lineKept]
theorem destLineRead_picture (hd : destNames s.img d = true) (hr : running s = true) (h512 : 512 ≤ d) :
    let t := destLineRead d L errs (plane1Audio d s)
    let ws := pictureOf d (lineGot d L errs s).1 (lineGot d L errs s).2
    (∃ l, t.out = l ++ [.line d (numberGot d L errs s) ws]) ∧
      cget [] (cget [] t.xp.destLines d) (numberGot d L errs s) = ws := by
  obtain ⟨-, hout, hlines⟩ := pictureLine_spec h512 (numberGot d L errs s) (lineGot d L errs s).1 (lineStands d L errs s)
  rw [pictureOf_lineKept] at hout hlines
  rw [exec_destLineRead hd hr, if_neg (by omega)]
  exact ⟨⟨_, hout⟩, hlines⟩
theorem destLineRead_sdi (hd : destNames s.img d = true) (hr : running s = true) (h512 : d < 512)
    (hidle : sdiIdle s d = false) (hpins : s.test.jtagPins = false) :
    ∃ l, (destLineRead d L errs (plane1Audio d s)).out = s.out ++ l ∧
      ∀ i < (if laneTxq s.img d then 4 else 1), ∃ ws, .line (d + i) L ws ∈ l := by
  have hw := lineStands_within d L errs s
  obtain ⟨hregs, htest⟩ := lineStands_apart d L errs s
  have hstat : ¬ FarOrSrc (Reg.VLANE_TX_STAT d) := by rw [farOrSrc_iff, Reg.VLANE_TX_STAT]; omega
  obtain ⟨before, hbefore⟩ := hw.out
  obtain ⟨l, hout, hmem⟩ := sdiLine_out (L := L) (n := numberGot d L errs s) (got := (lineGot d L errs s).1)
    ((hregs.bit hstat _).trans hidle) (htest.trans hpins)
  rw [hw.part .img (by decide)] at hmem
  refine ⟨before ++ l, ?_, fun i hi => ?_⟩
  · rw [exec_destLineRead hd hr, if_pos h512, hout, ← hbefore, List.append_assoc]
  · obtain ⟨ws, hws⟩ := hmem i hi
    exact ⟨ws, List.mem_append_right _ hws⟩

end Read

/-- A field of one bit takes a truth value. -/
theorem fbit_fset_bool (s : State) (a : Nat) (f : FieldRow) (hf : f.hi < 32) (hl : f.lo = f.hi) {b : Bool} :
    fbit (fset s a f (b2n b)) a f = b := by
  unfold fbit
  rw [fget_fset_same _ _ _ _ hf (by omega), hl, Nat.add_sub_cancel_left]
  cases b <;> rfl

/-! ### The synchroniser of a destination (R108, R110) -/

section Synchroniser

variable {f : Fsync} {x : Nat}

theorem fget_setDest (d : Nat) (v : Dest) (s : State) (a : Nat) (f : FieldRow) : fget (setDest d v s) a f = fget s a f := rfl
theorem fs_setDest (d : Nat) (f : Fsync) (s t : State) : (destOf (setDest d { destOf s d with fs := f } t) d).fs = f := by
  rw [destOf_setDest]
/-- An 8-bit count of the synchroniser, one more. -/
theorem fget_countF (a : Nat) (f : FieldRow) (s : State) (hf : f.hi < 32) (hw : f.hi + 1 - f.lo = 8) :
    fget (countF a f 1 s) a f = min 255 (fget s a f + 1) := by
  rw [countF, fget_fset_same _ _ _ _ hf (by omega), hw]
  exact Nat.mod_eq_of_lt (by omega)

/-- A closed frame that the reader has not taken is dropped, and counts. -/
def dropCounted (d : Nat) (drop : Bool) (s : State) : State :=
  if drop then countF (Reg.XP_DEST_FSYNC_STAT d) Fld.XP_DEST_FSYNC_STAT_DROPS 1 s else s
theorem fget_dropCounted (d : Nat) (drop : Bool) (s : State) :
    let n := fget s (Reg.XP_DEST_FSYNC_STAT d) Fld.XP_DEST_FSYNC_STAT_DROPS
    fget (dropCounted d drop s) (Reg.XP_DEST_FSYNC_STAT d) Fld.XP_DEST_FSYNC_STAT_DROPS =
      if drop then min 255 (n + 1) else n := by
  cases drop with
  | false => rfl
  | true => exact fget_countF _ _ _ (by decide) rfl

/-- The store of a destination's synchroniser works on its descriptor. -/
abbrev fsyncStore (d : Nat) (s : State) : Bool × State := storeOp ((destSync s.img d).getD 0) s

theorem fsyncComplete_spoiled (hen : (destOf s d).fs.en = true) (hx : (destOf s d).fs.wsrc = some x)
    (h : ((destOf s d).fs.spoiled || !(fsyncStore d s).1) = true) :
    (destOf (fsyncComplete d s) d).fs = { (destOf s d).fs with spoiled := false } := by
  simp only [fsyncComplete, hen, hx]
  rw [if_pos h]
  exact fs_setDest ..
/-- The frame that is complete becomes the newest. -/
def frameStored (d x : Nat) (s : State) : State :=
  let f := (destOf s d).fs
  let v := dropCounted d f.newest.isSome (fsyncStore d s).2
  let fr := wholeFrame x (destPlane v.img d) v
  setDest d { destOf fr.2 d with fs := { f with newest := some fr.1, fresh := f.fresh + 1 } } fr.2
theorem fsyncComplete_stored (hen : (destOf s d).fs.en = true) (hx : (destOf s d).fs.wsrc = some x)
    (h : ((destOf s d).fs.spoiled || !(fsyncStore d s).1) = false) : fsyncComplete d s = frameStored d x s := by
  simp only [fsyncComplete, frameStored, hen, hx]
  rw [if_neg (by simp [h])]
  rfl

theorem frameStored_fs (d x : Nat) (s : State) : ∃ fr, (destOf (frameStored d x s) d).fs =
    { (destOf s d).fs with newest := some fr, fresh := (destOf s d).fs.fresh + 1 } := ⟨_, fs_setDest ..⟩
theorem frameStored_drops (hd : d < 4096) (x : Nat) (s : State) :
    let n := fget s (Reg.XP_DEST_FSYNC_STAT d) Fld.XP_DEST_FSYNC_STAT_DROPS
    fget (frameStored d x s) (Reg.XP_DEST_FSYNC_STAT d) Fld.XP_DEST_FSYNC_STAT_DROPS =
      if (destOf s d).fs.newest.isSome then min 255 (n + 1) else n := by
  have hapart : ¬ FarOrSrc (Reg.XP_DEST_FSYNC_STAT d) := by rw [farOrSrc_iff, Reg.XP_DEST_FSYNC_STAT]; omega
  have hstore : Apart s (fsyncStore d s).2 := (Apart.refl s).storeOp
  have hframe (v : State) : Apart v (wholeFrame x (destPlane v.img d) v).2 := (Apart.refl v).wholeFrame
  refine (fget_setDest ..).trans (((hframe _).regs.field hapart _).trans ((fget_dropCounted ..).trans ?_))
  rw [hstore.regs.field hapart]

/-- The hold timer has run out and no frame has come: the source is lost. -/
abbrev lostFsync (d : Nat) (s : State) : Fsync := { (destOf s d).fs with lost := true, timer := false }
theorem fsyncExpire_eq (hen : (destOf s d).fs.en = true) (ht : (destOf s d).fs.timer = true)
    (hh : (destOf s d).fs.held = true) (hf : (destOf s d).fs.fresh = 0) :
    fsyncExpire d s = raise Src.fsyncLoss [d] (setFsync d (lostFsync d s) s) := by
  unfold fsyncExpire
  rw [if_pos (by simp [hen, ht, hh, hf])]
theorem setFsync_regs (d : Nat) (f : Fsync) (s : State) : RegsWithin [Reg.XP_DEST_STAT d] s (setFsync d f s) :=
  (((((OnlyRegs.refl _ s).same rfl).fset (by simp)).fset (by simp)).fset (by simp))
theorem setFsync_fs (d : Nat) (f : Fsync) (s : State) : (destOf (setFsync d f s) d).fs = f := fs_setDest ..
theorem setFsync_lost (d : Nat) (f : Fsync) (s : State) :
    fbit (setFsync d f s) (Reg.XP_DEST_STAT d) Fld.XP_DEST_STAT_SYNC_LOST = f.lost := fbit_fset_bool _ _ _ (by decide) rfl

end Synchroniser

/-! ### The arrival of the switching line (R85) -/

section Arrival
variable {x p : Nat}

theorem laneWin_setLaneWin (v p n : Nat) (s : State) (w q : Nat) (hp : p < 2) (hq : q < 2) :
    laneWin (setLaneWin v p n s) w q = if w = v ∧ q = p then n else laneWin s w q := by
  show cget 0 (cset 0 s.xp.inWin (2 * v + p) n) (2 * w + q) = _
  rw [cget_cset]
  exact ite_congr (propext ⟨fun h => by omega, fun ⟨hw, hq⟩ => by rw [hw, hq]⟩) (fun _ => rfl) fun _ => rfl

/-- A single-lane source at one plane: its arrival, judged against the alignment window. -/
def judged (x p : Nat) (d : Int) (s : State) : State :=
  if planeUsed s.img p then
    setLaneWin x p (if inWindow s.img p d && srcPresent s x then min 2 (laneWin s x p + 1) else 0)
      (fset s (Reg.XP_SRC_PHASE x) (if p = 0 then Fld.XP_SRC_PHASE_P0 else Fld.XP_SRC_PHASE_P1) (phaseUnits d))
  else s
theorem switchArrival_single (hn : srcNames s.img x = true) (hr : running s = true)
    (hq : x < 512 → isQuad s.img (4 * (x / 4)) = false) (d0 d1 : Int) :
    switchArrival x d0 d1 s = refreshTimed x (judged x 1 d1 (judged x 0 d0 s)) := by
  have hx : ¬ (x < 512 ∧ isQuad s.img (4 * (x / 4)) = true) := fun ⟨h, k⟩ => by simp [hq h] at k
  unfold switchArrival
  simp only [if_neg hx, hn, hr, Bool.not_true, Bool.or_self, Bool.false_eq_true, if_false]
  rfl

theorem srcLanes_single {g : Img} (hq : x < 512 → isQuad g (4 * (x / 4)) = false) : srcLanes g x = [x] := by
  refine if_neg fun h => ?_
  have h' := h
  simp only [isQuad, Bool.and_eq_true, decide_eq_true_eq, beq_iff_eq] at h'
  obtain ⟨⟨⟨hx, h4⟩, -⟩, -⟩ := h'
  rw [show x = 4 * (x / 4) by omega, hq hx] at h
  cases h

theorem judged_img (x p : Nat) (d : Int) (s : State) : (judged x p d s).img = s.img := by
  unfold judged
  split <;> rfl
theorem judged_present (x p : Nat) (d : Int) (s : State) : srcPresent (judged x p d s) x = srcPresent s x := by
  unfold judged
  split
  · exact fbit_fset_ne s _ _ _ (by simp only [Reg.XP_SRC_STAT, Reg.XP_SRC_PHASE]; omega)
  · rfl
theorem judged_win (hu : planeUsed s.img p = true) (hp : p < 2) (d : Int) : laneWin (judged x p d s) x p =
    if inWindow s.img p d && srcPresent s x then min 2 (laneWin s x p + 1) else 0 := by
  unfold judged
  rw [if_pos hu, laneWin_setLaneWin _ _ _ _ _ _ hp hp, if_pos ⟨rfl, rfl⟩]
theorem judged_other {q : Nat} (hp : p < 2) (hq : q < 2) (h : p ≠ q) (d : Int) (s : State) :
    laneWin (judged x q d s) x p = laneWin s x p := by
  unfold judged
  split
  · rw [laneWin_setLaneWin _ _ _ _ _ _ hq hp, if_neg fun k => h k.2]
    rfl
  · rfl

/-- Both planes judged: what each finds rests on the state before. -/
theorem judged_both (hp : p < 2) (hu : planeUsed s.img p = true) (d0 d1 : Int) :
    laneWin (judged x 1 d1 (judged x 0 d0 s)) x p =
      if inWindow s.img p (if p = 0 then d0 else d1) && srcPresent s x then min 2 (laneWin s x p + 1) else 0 := by
  obtain rfl | rfl : p = 0 ∨ p = 1 := by omega
  · rw [judged_other hp (by decide) (by decide), judged_win hu hp, if_pos rfl]
  · rw [judged_win (by rw [judged_img, hu]) hp, judged_img, judged_present, judged_other hp (by decide) (by decide),
      if_neg Nat.one_ne_zero]

/-- A source is timed for plane p: made in it, or PRESENT with a lane twice in the window. -/
def timedNow (s : State) (x p : Nat) : Bool :=
  madeIn s.img x == some p || (srcPresent s x && (srcLanes s.img x).any (fun v => decide (2 ≤ laneWin s v p)))
/-- TIMED of one plane follows. -/
def timedShown (x p : Nat) (s : State) : State := srcStat x (timedField p) (b2n (timedNow s x p)) s
theorem refreshTimed_eq (x : Nat) (s : State) : refreshTimed x s = timedShown x 1 (timedShown x 0 s) := rfl
theorem timedField_hi (p : Nat) : (timedField p).hi < 32 ∧ (timedField p).lo = (timedField p).hi := by
  unfold timedField
  split <;> decide
theorem timedNow_timedShown (x p q : Nat) (s : State) : timedNow (timedShown x p s) x q = timedNow s x q := by
  have hpresent : srcPresent (timedShown x p s) x = srcPresent s x := by
    refine fbit_fset_field _ _ _ _ _ (timedField_hi p).1 (by rw [(timedField_hi p).2]; omega) (.inr ?_)
    unfold timedField
    split <;> decide
  show (_ || (srcPresent (timedShown x p s) x && _)) = _
  rw [hpresent]
  rfl
theorem srcTimed_timedShown (x p : Nat) (s : State) : srcTimed (timedShown x p s) x p = timedNow s x p :=
  fbit_fset_bool _ _ _ (timedField_hi p).1 (timedField_hi p).2
theorem srcTimed_refreshTimed (hp : p < 2) (x : Nat) (s : State) : srcTimed (refreshTimed x s) x p = timedNow s x p := by
  rw [refreshTimed_eq]
  obtain rfl | rfl : p = 0 ∨ p = 1 := by omega
  · have hother : srcTimed (timedShown x 1 (timedShown x 0 s)) x 0 = srcTimed (timedShown x 0 s) x 0 :=
      fbit_fset_field _ _ _ _ _ (by decide) (by decide) (by decide)
    rw [hother, srcTimed_timedShown]
  · rw [srcTimed_timedShown, timedNow_timedShown]

/-- A phase error is written: nothing of the crosspoint changes. -/
theorem sdiPhase_kept (x p : Nat) (d : Int) (s : State) :
    (sdiPhase x p d s).xp = s.xp ∧ OnlyFar s (sdiPhase x p d s) := by
  refine ⟨(sdiPhase_within x p d s).part .xp (by decide), ?_⟩
  unfold sdiPhase setEntPhase
  exact OnlyRegs.foldl (onlyFar_refl s) fun _ _ h => onlyFar_rsetN h

/-- A source that is no packet source, and no lane of a quad-link source, arrives. -/
theorem arrival_spec (hr : running s = true) (hn : srcNames s.img x = true) (hp : p < 2) (hu : planeUsed s.img p = true)
    (hq : x < 512 → isQuad s.img (4 * (x / 4)) = false) (d0 d1 : Int) :
    let t := sdiPhase x 1 d1 (sdiPhase x 0 d0 (switchArrival x d0 d1 s))
    laneWin t x p = (if inWindow s.img p (if p = 0 then d0 else d1) && srcPresent s x then min 2 (laneWin s x p + 1) else 0) ∧
      srcTimed t x p = (madeIn s.img x == some p || (srcPresent s x && decide (2 ≤ laneWin t x p))) := by
  intro t
  set v := judged x 1 d1 (judged x 0 d0 s) with hv
  have harr : switchArrival x d0 d1 s = refreshTimed x v := switchArrival_single hn hr hq d0 d1
  obtain ⟨hxp0, hfar0⟩ := sdiPhase_kept x 0 d0 (switchArrival x d0 d1 s)
  obtain ⟨hxp1, hfar1⟩ := sdiPhase_kept x 1 d1 (sdiPhase x 0 d0 (switchArrival x d0 d1 s))
  have hstat := srcStat_apart hn
  have hwin : laneWin t x p = laneWin v x p := by
    have hxp : t.xp = v.xp := by
      rw [hxp1, hxp0, harr, (refreshTimed_within x v).part .xp (by decide)]
    rw [laneWin, hxp]
    rfl
  have htimed : srcTimed t x p = timedNow v x p := by
    rw [srcTimed, hfar1.bit hstat, hfar0.bit hstat, harr]
    exact srcTimed_refreshTimed hp x v
  have hpresent : srcPresent v x = srcPresent s x := (judged_present ..).trans (judged_present ..)
  have himg : v.img = s.img := (judged_img ..).trans (judged_img ..)
  refine ⟨hwin.trans (judged_both hp hu d0 d1), ?_⟩
  rw [htimed, timedNow, hpresent, himg, srcLanes_single hq, hwin]
  simp only [List.any_cons, List.any_nil, Bool.or_false]

end Arrival

/-! ### The measured rate of a source (R89) -/

section Rate
variable {x ps : Nat}

/-- The last eight frame periods of a source. -/
abbrev periodsWith (x ps : Nat) (s : State) : List Nat := (ps :: cget [] s.xp.periods x).take 8
/-- They stand, and with them whether the source is off its rate. -/
def rateShown (x : Nat) (l : List Nat) (s : State) : State :=
  srcStat x Fld.XP_SRC_STAT_OFF_RATE (b2n (offRate (srcFmt s.img x) l))
    { s with xp := { s.xp with periods := cset [] s.xp.periods x l } }
theorem rateShown_periods (x : Nat) (l : List Nat) (s : State) : (rateShown x l s).xp.periods = cset [] s.xp.periods x l := rfl
theorem rateShown_off (x : Nat) (l : List Nat) (s : State) : srcOffRate (rateShown x l s) x = offRate (srcFmt s.img x) l :=
  fbit_fset_bool _ _ _ (by decide) rfl

theorem frameMeasured_eq (hr : running s = true) (hn : srcNames s.img x = true) (hm : rateMeasured s x = true) :
    frameMeasured x ps s = refFollow (rateShown x (periodsWith x ps s) s) := by
  unfold frameMeasured
  rw [if_neg (by simp [hr, hn, hm])]
  rfl
theorem frameMeasured_spec (hr : running s = true) (hn : srcNames s.img x = true) (hm : rateMeasured s x = true) :
    let t := frameMeasured x ps s
    cget [] t.xp.periods x = periodsWith x ps s ∧ srcOffRate t x = offRate (srcFmt s.img x) (periodsWith x ps s) ∧
      ∀ y, y ≠ x → cget [] t.xp.periods y = cget [] s.xp.periods y := by
  intro t
  have ht : t = _ := frameMeasured_eq hr hn hm
  have hperiods : t.xp.periods = cset [] s.xp.periods x (periodsWith x ps s) := by
    rw [ht, (refFollow_within _).part .xp (by decide), rateShown_periods]
  have hstat := srcStat_apart hn
  refine ⟨by rw [hperiods, cget_cset, if_pos rfl], ?_, fun y hy => by rw [hperiods, cget_cset, if_neg hy]⟩
  rw [ht, srcOffRate, (refFollow_far (onlyFar_refl _)).bit hstat]
  exact rateShown_off ..

end Rate

/-! ### O35 -/

/-- A source that is no packet source is measured by the period given. -/
theorem exec_sourceFrameMeasured {x : Fin 2048} {ps : Nat} (hx : x.val < 512 ∨ 1536 ≤ x.val) :
    exec (.sourceFrameMeasured x ps) s = .next (frameMeasured x ps s) := by
  show Host.Outcome.next (frameMeasured x (if 512 ≤ x.val ∧ x.val < 1536 ∧ _ then _ else ps) s) = _
  rw [if_neg (by omega)]
theorem exec_sourceSwitchLineArrival {x : Fin 2048} {d0 d1 : Int} (hx : x.val < 512 ∨ 1536 ≤ x.val) :
    exec (.sourceSwitchLineArrival x d0 d1) s = .next (sdiPhase x 1 d1 (sdiPhase x 0 d0 (switchArrival x d0 d1 s))) := by
  show Host.Outcome.next (if 512 ≤ x.val ∧ x.val < 1536 then s else _) = _
  rw [if_neg (by omega)]

/-- Settles O35: a line read by `destLineRead_line`, `destLineRead_picture` and `destLineRead_sdi`; a synchroniser by what its
store answers (`fsyncComplete_spoiled`, `fsyncComplete_stored`) and by its hold timer (`fsyncExpire_eq`); an arrival by
`arrival_spec`, where the phase errors and the references that follow leave the crosspoint alone; a rate by
`frameMeasured_spec`. -/
theorem destinationsAndSourceTiming : Obligations.DestinationsAndSourceTiming := by
  unfold Obligations.DestinationsAndSourceTiming
  refine ⟨fun d s => ⟨fun line errs hd hr => ?line, fun x hen hx => ?frame, fun hen ht hh hf => ?expire⟩,
    fun x d0 d1 s h1 h2 => ?packet, fun x d0 d1 p s hr hn hu hx hq => ?arrival, fun x ps s hr hn hx hm => ?rate⟩
  case line =>
    refine ⟨_, rfl, destLineRead_line hd hr, fun h512 => destLineRead_picture hd hr h512, fun h512 hidle hpins => ?_⟩
    exact destLineRead_sdi hd hr h512 hidle hpins
  case frame =>
    cases h : (destOf s d).fs.spoiled || !(fsyncStore d s).1 with
    | true =>
      have hfs := fsyncComplete_spoiled hen hx h
      refine ⟨_, rfl, by rw [hfs], ?_⟩
      rw [if_pos h]
      exact hfs
    | false =>
      obtain ⟨fr, hfs⟩ := frameStored_fs d x s
      refine ⟨_, congrArg Host.Outcome.next (fsyncComplete_stored hen hx h), by rw [hfs], ?_⟩
      rw [if_neg (by rw [h]; decide), hfs]
      exact ⟨rfl, rfl, frameStored_drops d.isLt x s⟩
  case expire =>
    have hraise := raise_onlyAlarm (n := Src.fsyncLoss) (by decide) [d.val] (setFsync d (lostFsync d s) s)
    have hfs : (destOf (raise Src.fsyncLoss [d.val] (setFsync d (lostFsync d s) s)) d).fs = lostFsync d s := by
      rw [destOf_congr (congrArg XpSt.dests (raise_xp ..)), setFsync_fs]
    have hapart : ¬ Alarm (Reg.XP_DEST_STAT d) := by rw [alarm_iff, Reg.XP_DEST_STAT]; omega
    refine ⟨_, congrArg Host.Outcome.next (fsyncExpire_eq hen ht hh hf), by rw [hfs], by rw [hfs], ?_, ?_⟩
    · rw [hraise.bit hapart, setFsync_lost]
    · exact ((setFsync_regs d _ s).mono fun _ => .inr).trans (hraise.mono fun _ => .inl)
  case packet =>
    exact ⟨s, congrArg Host.Outcome.next (if_pos ⟨h1, h2⟩), rfl⟩
  case arrival =>
    have hplane : (if p = 0 then d0 else d1) = if p.val = 0 then d0 else d1 := if_congr Fin.ext_iff rfl rfl
    refine ⟨_, exec_sourceSwitchLineArrival hx, ?_⟩
    rw [hplane]
    exact arrival_spec hr hn p.isLt hu (fun h => (hq h).2) d0 d1
  case rate =>
    exact ⟨_, exec_sourceFrameMeasured hx, frameMeasured_spec hr hn hm⟩

end Sys2Proof.Proofs.DestLines
end

section
/-! PROOF. O37, the capture of an ancillary data packet: what fails of it (05 R136, R137; 08 R207, R208). -/

set_option Elab.async false

namespace Sys2Proof.Proofs.AncCapture

open Sys2Proof.Machine

/-- An image with a 1080p50 source on lane 0 and eight queues of kind ANC, from queue 0 on. -/
def ancImg : Img :=
  { sections := [{ type := Sec.plane, off := 0, len := 0x2000, arm := true },
      { type := Sec.queue, off := 0x2000, len := 0x2000, arm := true }]
    bytes := [(0, 0x68), (0x1210, 0x68), (0x2003, 3), (0x2004, 8)] }

/-- Queue 0 after a write that found no cell to hold, its capacity being 0, and after the host has then set its capacity to
ten cells: its open record is truncated, and there is room again. -/
def cutQueue : Queue := { qWrite 0 [0] {} with cap := some 10 }

/-- Lane 0 is locked; its filter 0 takes every packet to queue 0. -/
def lockedLane : State :=
  { img := ancImg, regs := [(Reg.VLANE_RX_STAT 0, 3)], vl := { lanes := [(0, { filt := [(0, 0xA0000000)] })] },
    q := { queues := [(0, cutQueue)] } }

/-- Each word of a captured packet is ignored, as the open record is truncated: the packet leaves no word in the queue. -/
theorem words_captured : (getQ (ancCapture 0 2 false false true 0 0 0 [] lockedLane) 0).words = [] := by decide +kernel

/-- What a command answers by a condition on the state before, where the condition holds. -/
theorem answers_if_pos {i : Instr} {s : State} {c : Prop} [Decidable c] {P Q : State → Prop} (hc : c)
    (h : Answers i s (fun t => if c then P t else Q t)) : Answers i s P := by
  simpa only [if_pos hc] using h

/-- Refutes O37 by its clause on a matching filter whose queue has room: where the queue's open record is already truncated
(08 R208), `cutQueue`, the words of the captured packet are ignored although there is room for them, and no record is
added. -/
theorem not_ancCapture : ¬ Obligations.AncCapture := by
  unfold Obligations.AncCapture
  intro h
  obtain ⟨-, captured⟩ := h 0 2 false false true 0 0 0 [] lockedLane (by decide +kernel) (by decide +kernel) rfl
  obtain ⟨t, ht, hqueue, -⟩ := answers_if_pos (by decide +kernel) (captured 0 0xA0000000 0 (by decide +kernel))
  have hcaptured : ancCapture 0 2 false false true 0 0 0 [] lockedLane = t := Host.Outcome.next.inj ht
  have hnone : (getQ t (0 % 2 ^ 20)).words = [] := hcaptured ▸ words_captured
  rw [hqueue] at hnone
  dsimp only at hnone
  exact absurd hnone (by decide +kernel)

end Sys2Proof.Proofs.AncCapture
end

section
/-! PROOF. O38, the AUX transactions of a DisplayPort link: what fails of it (05 R143, R145). -/

set_option Elab.async false

namespace Sys2Proof.Proofs.DisplayPortLinks

open Sys2Proof.Machine Sys2Proof.Laws

variable {s : State} {k : Nat}

theorem dpSt_setDp (k : Nat) (l : DpLink) (s : State) : dpSt (setDp k l s) k = l := by
  show cget {} (cset {} s.vl.dp k l) k = l
  rw [cget_cset, if_pos rfl]
theorem dpSt_congr {t : State} (h : t.vl = s.vl) (k : Nat) : dpSt t k = dpSt s k := by
  unfold dpSt
  rw [h]

/-- The link's own reads leave the count of the host's retries. -/
theorem ownStart_retries (k : Nat) (s : State) : (dpSt (ownStart k s) k).retries = (dpSt s k).retries := by
  unfold ownStart
  dsimp only
  split
  · rfl
  split
  · rw [dpSt_congr (emit_vl ..), dpSt_setDp]
  split
  · rw [dpSt_congr (emit_vl ..), dpSt_setDp]
  · rfl

/-- A host transaction that has ended has no retries. -/
theorem auxDone_retries (k reply : Nat) (s : State) : (dpSt (auxDone k reply s) k).retries = 0 := by
  unfold auxDone
  rw [ownStart_retries, dpSt_congr (fset_vl ..), dpSt_congr (fset_vl ..), dpSt_congr (fset_vl ..), dpSt_setDp]

/-- In OFF a DEFER ends the host's transaction without a retry. -/
theorem auxReply_defer_off {x : Nat × Nat × Nat × List Nat} (data : List Nat) (hoff : dpState s k = 0)
    (hhost : (dpSt s k).host = some x) (hsent : (dpSt s k).sent = true) (hread : (dpSt s k).reading = false)
    (hcap : (dpSt s k).capRead = false) : auxReply k 2 data s = auxDone k 2 s := by
  simp [auxReply, hoff, hhost, hsent, hread, hcap]

/-- An image whose lane group 31 serves DisplayPort. -/
def dpImg : Img := { sections := [{ type := Sec.lane, off := 0, len := 0x1000, arm := true }], bytes := [(31, 1)] }

/-- Link 0 is OFF, the host having cleared EN while its read of 16 bytes at 0x100 was under way. -/
def offLink : State := { img := dpImg, vl := { dp := [(0, { host := some (0, 0x100, 16, []), sent := true })] } }

/-- Refutes O38 by its clause on a reply DEFER with fewer than seven retries, which does not exclude a link in OFF: there
`offLink`'s transaction ends, and no retry is made or counted. -/
theorem not_displayPortLinks : ¬ Obligations.DisplayPortLinks := by
  unfold Obligations.DisplayPortLinks
  intro h
  obtain ⟨-, aux⟩ := h
  obtain ⟨-, ends, -⟩ := aux 0 0 0 0 offLink (by decide)
  obtain ⟨-, -, -, deferred, -⟩ := ends 0 0x100 16 [] rfl rfl rfl rfl
  obtain ⟨t, ht, -, hretries⟩ := deferred [] (by decide)
  have hended : auxReply 0 2 [] offLink = t := Host.Outcome.next.inj ht
  rw [auxReply_defer_off [] (by decide) rfl rfl rfl rfl] at hended
  have hnone : (dpSt t 0).retries = 0 := hended ▸ auxDone_retries 0 2 offLink
  exact absurd (hretries.symm.trans hnone) (Nat.succ_ne_zero _)

end Sys2Proof.Proofs.DisplayPortLinks
end

section
/-! PROOF. O42, the de-embedding of an SDI audio data packet (05 R132, R133). -/

set_option Elab.async false

namespace Sys2Proof.Proofs.SdiAudio

open Sys2Proof.Machine Sys2Proof.Laws Sys2Proof.Proofs.TakeRing Sys2Proof.Proofs.DestLines

variable {s t u : State} {v g phase : Nat} {second : Bool} {smp : List Nat}

/-! ### The de-embedding of a lane -/

theorem deemb_setDeemb (v : Nat) (d : Deemb) (s : State) : deemb (setDeemb v d s) v = d := by
  show cget {} (cset {} s.aud.deemb v d) v = d
  rw [cget_cset, if_pos rfl]
theorem deemb_congr (h : t.aud = s.aud) (v : Nat) : deemb t v = deemb s v := by
  unfold deemb
  rw [h]
theorem raise_aud (n : Nat) (l : List Nat) (s : State) : (raise n l s).aud = s.aud :=
  (raise_within n l s).part .aud (by decide)

/-! ### What collecting a group's samples leaves alone -/

/-- The registers by which a slip of the elastic store shows. -/
abbrev SlipReg (a : Nat) : Prop := Alarm a ∨ a = Reg.AUD_DEEMB_SLIP

/-- From s to t lane v keeps the last samples of its groups, and no register but those of a slip has changed. -/
structure LastKept (v : Nat) (s t : State) : Prop where
  last : (deemb t v).last = (deemb s v).last
  regs : OnlyRegs SlipReg s t

theorem LastKept.trans (h : LastKept v s t) (k : LastKept v t u) : LastKept v s u :=
  ⟨k.last.trans h.last, h.regs.trans k.regs⟩
theorem LastKept.refl (v : Nat) (s : State) : LastKept v s s := ⟨rfl, OnlyRegs.refl _ s⟩
theorem LastKept.setDeemb {d : Deemb} (h : d.last = (deemb s v).last) : LastKept v s (setDeemb v d s) :=
  ⟨by rw [deemb_setDeemb, h], (OnlyRegs.refl _ s).same rfl⟩
theorem lastKept_deembClose (v : Nat) (s : State) : LastKept v s (deembClose v s) := by
  unfold deembClose
  extract_lets d row d'
  split
  · exact .refl v s
  split
  · have hstored : LastKept v s (setDeemb v d' s) := .setDeemb rfl
    have hcounted : OnlyRegs SlipReg s (count (setDeemb v d' s) Reg.AUD_DEEMB_SLIP) := hstored.regs.count (.inr rfl)
    refine ⟨?_, hcounted.trans ((raise_onlyAlarm (by decide) _ _).mono fun _ => .inl)⟩
    rw [deemb_congr (raise_aud ..), deemb_congr (count_aud ..), hstored.last]
  · exact .setDeemb rfl

/-- A frame that holds every group of the frame before is complete, and closes. -/
def closeComplete (v : Nat) (s : State) : State :=
  let d := deemb s v
  if !d.groups.isEmpty && d.groups.all (fun k => d.acc.any (fun e => e.1 == k)) then deembClose v s else s
/-- A group's samples join the frame being collected; a group that comes again closes it first. -/
def joinFrame (v g : Nat) (smp : List Nat) (again : Bool) (s : State) : State :=
  let s := if again then deembClose v s else s
  setDeemb v { deemb s v with acc := (deemb s v).acc ++ [(g, smp)] } s
/-- Samples of group g are taken: they are the group's last, and join the frame. -/
def takeSamples (v g : Nat) (smp : List Nat) (d : Deemb) (s : State) : State :=
  closeComplete v (joinFrame v g smp (d.acc.any (fun e => e.1 == g))
    (setDeemb v { d with last := cset [0, 0, 0, 0] d.last g smp } s))

theorem closeComplete_kept (v : Nat) (s : State) : LastKept v s (closeComplete v s) := by
  unfold closeComplete
  dsimp only
  split
  · exact lastKept_deembClose v s
  · exact .refl v s
theorem joinFrame_kept (v g : Nat) (smp : List Nat) (again : Bool) (s : State) :
    LastKept v s (joinFrame v g smp again s) := by
  cases again with
  | false => exact .setDeemb rfl
  | true => exact (lastKept_deembClose v s).trans (.setDeemb rfl)
theorem takeSamples_kept (v g : Nat) (smp : List Nat) (d : Deemb) (s : State) :
    LastKept v (setDeemb v { d with last := cset [0, 0, 0, 0] d.last g smp } s) (takeSamples v g smp d s) :=
  (joinFrame_kept ..).trans (closeComplete_kept ..)

theorem takeSamples_last (v g : Nat) (smp : List Nat) (d : Deemb) (s : State) :
    cget [0, 0, 0, 0] (deemb (takeSamples v g smp d s) v).last g = smp := by
  rw [(takeSamples_kept ..).last, deemb_setDeemb, cget_cset, if_pos rfl]
theorem takeSamples_audErr (hv : v < 512) (g : Nat) (smp : List Nat) (d : Deemb) (s : State) :
    rgetN (takeSamples v g smp d s) (Reg.VLANE_RX_AUD_ERR v) = rgetN s (Reg.VLANE_RX_AUD_ERR v) := by
  have hapart : ¬ SlipReg (Reg.VLANE_RX_AUD_ERR v) := by
    rw [SlipReg, alarm_iff, Reg.VLANE_RX_AUD_ERR, Reg.AUD_DEEMB_SLIP]
    omega
  exact ((takeSamples_kept ..).regs.num hapart).trans (rgetN_congr rfl _)

/-! ### A packet by its outcome (R132, R133) -/

/-- AUD_ASYNC shows whether lane v has groups of asynchronous audio. -/
def showAsync (v : Nat) (l : List Nat) (s : State) : State := rxStat v Fld.VLANE_RX_STAT_AUD_ASYNC (b2n (!l.isEmpty)) s
theorem showAsync_audErr (v : Nat) (l : List Nat) (s : State) :
    rgetN (showAsync v l s) (Reg.VLANE_RX_AUD_ERR v) = rgetN s (Reg.VLANE_RX_AUD_ERR v) :=
  rgetN_fset_ne _ _ _ (by rw [Reg.VLANE_RX_AUD_ERR, Reg.VLANE_RX_STAT]; omega)

/-- The groups of asynchronous audio without group g. -/
abbrev asyncWithout (g : Nat) (s : State) (v : Nat) : List Nat := (deemb s v).asyncG.filter (· != g)
theorem not_mem_asyncWithout (g : Nat) (s : State) (v : Nat) : g ∉ asyncWithout g s v := by simp

/-- Group g leaves the frame; with the last group, everything that has been collected goes. -/
def dropGroup (g : Nat) (async : List Nat) (d : Deemb) : Deemb :=
  let d := { d with asyncG := async, acc := d.acc.filter (fun e => e.1 != g), groups := d.groups.filter (· != g) }
  if d.groups.isEmpty && d.acc.isEmpty then { asyncG := async } else d
theorem dropGroup_spec (g : Nat) (async : List Nat) (d : Deemb) :
    g ∉ (dropGroup g async d).groups ∧ (dropGroup g async d).asyncG = async := by
  unfold dropGroup
  dsimp only
  split <;> simp

/-- A packet without samples: the group's packets have stopped, or its audio is asynchronous. -/
def dropPacket (v g : Nat) (async : List Nat) (s : State) : State :=
  setDeemb v (dropGroup g async (deemb s v)) (showAsync v async s)
/-- A packet with samples, of a state in which it has been counted where it is uncorrectable. -/
def takePacket (v g : Nat) (smp : List Nat) (s t : State) : State :=
  takeSamples v g smp { deemb s v with asyncG := asyncWithout g s v } t

section Received
variable (hrx : rxRuns s.img v = true) (hst : rxState s v = 3) (hin : inService s = true)

theorem deembPacket_ignored (h : deembs s v g second = false) (o : Nat) (sync : Bool) :
    deembPacket v g second o sync phase smp s = s := by
  simp [deembPacket, h]

variable (hd : deembs s v g second = true)
include hrx hst hin hd

theorem deembPacket_stopped (sync : Bool) :
    deembPacket v g second 2 sync phase smp s = dropPacket v g (asyncWithout g s v) s := by
  simp [deembPacket, hrx, hst, hin, hd, dropPacket, dropGroup, showAsync, asyncWithout]
theorem deembPacket_async :
    deembPacket v g second 0 false phase smp s = dropPacket v g (g :: asyncWithout g s v) s := by
  simp [deembPacket, hrx, hst, hin, hd, dropPacket, dropGroup, showAsync, asyncWithout]
theorem deembPacket_good : deembPacket v g second 0 true phase smp s =
    takePacket v g ((smp.take 4).map (fun x => x % 2 ^ 36 / 256 * 256 + 2 ^ 37 + phase % 8192 * 2 ^ 38)) s
      (showAsync v (asyncWithout g s v) s) := by
  simp only [deembPacket, hrx, hst, hin, hd]
  rfl
theorem deembPacket_uncorrectable : deembPacket v g second 1 true phase smp s =
    takePacket v g (cget [0, 0, 0, 0] (deemb s v).last g) s
      (raise Src.sdiAudErr [v] (count (showAsync v (asyncWithout g s v) s) (Reg.VLANE_RX_AUD_ERR v))) := by
  simp only [deembPacket, hrx, hst, hin, hd]
  rfl

end Received

theorem dropPacket_deemb (v g : Nat) (async : List Nat) (s : State) :
    deemb (dropPacket v g async s) v = dropGroup g async (deemb s v) := deemb_setDeemb ..
theorem dropPacket_regs (v g : Nat) (async : List Nat) (s : State) :
    RegsWithin [Reg.VLANE_RX_STAT v] s (dropPacket v g async s) := ((OnlyRegs.refl _ s).fset (by simp)).same rfl
theorem dropPacket_audAsync (v g : Nat) (async : List Nat) (s : State) :
    fbit (dropPacket v g async s) (Reg.VLANE_RX_STAT v) Fld.VLANE_RX_STAT_AUD_ASYNC = !async.isEmpty :=
  fbit_fset_bool _ _ _ (by decide) rfl

/-! ### O42 -/

/-- Settles O42 by the forms of the packet: not de-embedded (`deembPacket_ignored`), with samples (`deembPacket_good`,
`deembPacket_uncorrectable`), where what the frame then does keeps the group's last samples (`takeSamples_kept`), and
without (`deembPacket_stopped`, `deembPacket_async`). -/
theorem sdiAudio : Obligations.SdiAudio := by
  unfold Obligations.SdiAudio
  intro v g second phase smp s hrx hst hin
  refine ⟨fun hd o sync => ⟨_, rfl, deembPacket_ignored hd o sync⟩,
    fun hd => ⟨fun hlen => ?good, ?uncorrectable, fun sync => ?stopped, ?async⟩⟩
  case good =>
    refine ⟨_, congrArg Host.Outcome.next (deembPacket_good hrx hst hin hd), ?_, ?_⟩
    · rw [takePacket, takeSamples_last, List.take_of_length_le hlen.le, Nat.mod_eq_of_lt phase.isLt]
    · rw [takePacket, takeSamples_audErr v.isLt, showAsync_audErr]
  case uncorrectable =>
    refine ⟨_, congrArg Host.Outcome.next (deembPacket_uncorrectable hrx hst hin hd), takeSamples_last .., ?_⟩
    have hapart : ¬ Alarm (Reg.VLANE_RX_AUD_ERR v) := by rw [alarm_iff, Reg.VLANE_RX_AUD_ERR]; omega
    rw [takePacket, takeSamples_audErr v.isLt, (raise_onlyAlarm (by decide) _ _).num hapart, rgetN_count_same,
      showAsync_audErr]
  case stopped =>
    refine ⟨_, congrArg Host.Outcome.next (deembPacket_stopped hrx hst hin hd sync), ?_, ?_, dropPacket_regs _ _ _ _⟩
    · rw [dropPacket_deemb]
      exact (dropGroup_spec ..).1
    · rw [dropPacket_deemb, (dropGroup_spec ..).2]
      exact not_mem_asyncWithout _ _ _
  case async =>
    refine ⟨_, congrArg Host.Outcome.next (deembPacket_async hrx hst hin hd), dropPacket_audAsync .., ?_⟩
    rw [dropPacket_deemb, (dropGroup_spec ..).2]
    exact List.mem_cons_self

end Sys2Proof.Proofs.SdiAudio
end

section
/-! PROOF. O36, the lock of an SDI receiver (05 R119-R121, Table 5.4): the status of a receiver field by field, and what
follows a change of PRESENT. -/

set_option Elab.async false

namespace Sys2Proof.Proofs.ReceiverLock

open Sys2Proof.Machine Sys2Proof.Laws Sys2Proof.Proofs.TakeRing Sys2Proof.Proofs.LinePaths Sys2Proof.Proofs.DestLines

variable {s t : State} {v : Nat}

theorem bne_eq_decide_ne {α : Type} [BEq α] [LawfulBEq α] [DecidableEq α] (a b : α) : (a != b) = decide (a ≠ b) := by
  rw [Bool.eq_iff_iff]
  simp

/-! ### A lane and its status -/

theorem laneSt_setLane (v : Nat) (l : Lane) (s : State) : laneSt (setLane v l s) v = l := by
  show cget {} (cset {} s.vl.lanes v l) v = l
  rw [cget_cset, if_pos rfl]
theorem fget_setLane (v : Nat) (l : Lane) (s : State) (a : Nat) (f : FieldRow) :
    fget (setLane v l s) a f = fget s a f := rfl
theorem laneSt_congr (h : t.vl = s.vl) (v : Nat) : laneSt t v = laneSt s v := by
  unfold laneSt
  rw [h]
theorem raise_vl (n : Nat) (l : List Nat) (s : State) : (raise n l s).vl = s.vl :=
  (raise_within n l s).part .vl (by decide)

/-- A field of the receiver's status reads as it was written, and the others as they were. -/
theorem fget_rxStat (v : Nat) (f : FieldRow) (n : Nat) (s : State) (hf : f.hi < 32 := by decide)
    (hl : f.lo ≤ f.hi + 1 := by decide) : fget (rxStat v f n s) (Reg.VLANE_RX_STAT v) f = n % 2 ^ (f.hi + 1 - f.lo) :=
  fget_fset_same _ _ _ _ hf hl
theorem fget_rxStat_field (v : Nat) (f g : FieldRow) (n : Nat) (s : State) (h : f.hi < g.lo ∨ g.hi < f.lo := by decide)
    (hf : f.hi < 32 := by decide) (hl : f.lo ≤ f.hi + 1 := by decide) :
    fget (rxStat v f n s) (Reg.VLANE_RX_STAT v) g = fget s (Reg.VLANE_RX_STAT v) g := fget_fset_field _ _ _ _ _ hf hl h
theorem fbit_rxStat (v : Nat) (f : FieldRow) (b : Bool) (s : State) (hf : f.hi < 32 := by decide)
    (hl : f.lo = f.hi := by rfl) : fbit (rxStat v f (b2n b) s) (Reg.VLANE_RX_STAT v) f = b := fbit_fset_bool _ _ _ hf hl
theorem fbit_rxStat_field (v : Nat) (f g : FieldRow) (n : Nat) (s : State) (h : f.hi < g.lo ∨ g.hi < f.lo := by decide)
    (hf : f.hi < 32 := by decide) (hl : f.lo ≤ f.hi + 1 := by decide) :
    fbit (rxStat v f n s) (Reg.VLANE_RX_STAT v) g = fbit s (Reg.VLANE_RX_STAT v) g := fbit_fset_field _ _ _ _ _ hf hl h
theorem rxStat_regs (v : Nat) (f : FieldRow) (n : Nat) (s : State) : RegsWithin [Reg.VLANE_RX_STAT v] s (rxStat v f n s) :=
  (OnlyRegs.refl _ s).fset (by simp)
theorem refreshNoproc_regs (v : Nat) (s : State) : RegsWithin [Reg.VLANE_RX_STAT v] s (refreshNoproc v s) :=
  rxStat_regs _ _ _ _

/-! ### PRESENT follows its lanes (R121; 04 R85) -/

theorem laneSource_le (g : Img) (v : Nat) : laneSource g v ≤ v := by
  unfold laneSource
  split <;> omega
theorem refreshTimed_regs {x : Nat} (hx : x < 1536) (h : OnlyRegs FarOrSrc s t) :
    OnlyRegs FarOrSrc s (refreshTimed x t) := by
  have hstat : FarOrSrc (Reg.XP_SRC_STAT x) := by rw [farOrSrc_iff, Reg.XP_SRC_STAT]; omega
  exact OnlyRegs.foldl h fun _ _ k => k.fset hstat
theorem setPresent_regs {x : Nat} (hx : x < 1536) (on : Bool) (h : OnlyRegs FarOrSrc s t) :
    OnlyRegs FarOrSrc s (setPresent x on t) := by
  have hstat : FarOrSrc (Reg.XP_SRC_STAT x) := by rw [farOrSrc_iff, Reg.XP_SRC_STAT]; omega
  have hshown : OnlyRegs FarOrSrc s (srcStat x Fld.XP_SRC_STAT_PRESENT (b2n on) t) := h.fset hstat
  unfold setPresent
  extract_lets s1 s2
  have hwin : OnlyRegs FarOrSrc s s2 := OnlyRegs.ite hshown (OnlyRegs.foldl hshown fun _ _ k => k.same rfl)
  exact (refreshTimed_regs hx hwin).trans ((refFollow_far (onlyFar_refl _)).mono fun _ => .inl)
theorem refreshPresent_regs (hv : v < 512) (s : State) : OnlyRegs FarOrSrc s (refreshPresent v s) := by
  have hx : laneSource s.img v < 1536 := by have := laneSource_le s.img v; omega
  have hwin : OnlyRegs FarOrSrc s (if lanePresent s v then s else setLaneWin v 0 0 (setLaneWin v 1 0 s)) :=
    OnlyRegs.ite (OnlyRegs.refl _ s) ((OnlyRegs.refl _ s).same rfl)
  exact OnlyRegs.ite (refreshTimed_regs hx hwin) (setPresent_regs hx _ hwin)
theorem refreshPresent_vl (v : Nat) (s : State) : (refreshPresent v s).vl = s.vl :=
  (refreshPresent_within v s).part .vl (by decide)

/-- A lane's own registers are none of those that follow PRESENT, nor do they report a raise. -/
theorem vlane_apart {a : Nat} (h : 0x00400000 ≤ a) (h' : a < 0x00800000) : ¬ FarOrSrc a := by
  rw [farOrSrc_iff]
  omega
theorem rxStat_apart (hv : v < 512) : ¬ FarOrSrc (Reg.VLANE_RX_STAT v) :=
  vlane_apart (by rw [Reg.VLANE_RX_STAT]; omega) (by rw [Reg.VLANE_RX_STAT]; omega)
theorem lockLoss_apart (hv : v < 512) : ¬ FarOrSrc (Reg.VLANE_RX_LOCK_LOSS v) :=
  vlane_apart (by rw [Reg.VLANE_RX_LOCK_LOSS]; omega) (by rw [Reg.VLANE_RX_LOCK_LOSS]; omega)
theorem farOrSrc_of_alarm {a : Nat} (h : Alarm a) : FarOrSrc a := .inl (.inl h)

/-! ### The steps of the search (Table 5.4 steps 2, 3, 5) -/

theorem rxNext_spec (v : Nat) (s : State) : let t := rxNext v s
    rxState t v = 1 ∧ (laneSt t v).rate = nextRate (laneSt s v).rate ∧
      fget t (Reg.VLANE_RX_STAT v) Fld.VLANE_RX_STAT_RATE_DET = 0 ∧ RegsWithin [Reg.VLANE_RX_STAT v] s t := by
  refine ⟨(fget_rxStat_field ..).trans (fget_rxStat ..), ?_, fget_rxStat .., ?_⟩
  · exact congrArg Lane.rate (laneSt_setLane v { laneSt s v with rate := nextRate (laneSt s v).rate } s)
  · exact (((OnlyRegs.refl _ s).same rfl).fset (by simp)).fset (by simp)

/-- The clock is recovered: ALIGN, at the rate of the search. -/
def clockFound (v : Nat) (s : State) : State :=
  rxStat v Fld.VLANE_RX_STAT_RATE_DET (laneSt s v).rate (rxStat v Fld.VLANE_RX_STAT_STATE 2 s)
theorem clockFound_spec (v : Nat) (s : State) : let t := clockFound v s
    rxState t v = 2 ∧ fget t (Reg.VLANE_RX_STAT v) Fld.VLANE_RX_STAT_RATE_DET = (laneSt s v).rate % 16 ∧ t.vl = s.vl ∧
      RegsWithin [Reg.VLANE_RX_STAT v] s t :=
  ⟨(fget_rxStat_field ..).trans (fget_rxStat ..), fget_rxStat .., rfl, ((OnlyRegs.refl _ s).fset (by simp)).fset (by simp)⟩

/-! ### Lock (step 4) -/

/-- The words that cover the next line go where the stream's level changes. -/
def levelTails (v : Nat) (levelB : Bool) (s : State) : State :=
  if fbit s (Reg.VLANE_RX_STAT v) Fld.VLANE_RX_STAT_LEVEL_B == levelB then s else setLane v { laneSt s v with tails := [] } s
theorem levelTails_regs (v : Nat) (levelB : Bool) (s : State) : (levelTails v levelB s).regs = s.regs := by
  unfold levelTails
  split <;> rfl

/-- LOCKED, with what the comparison of the received structure shows. -/
def lockShown (v : Nat) (rateBad strBad levelB : Bool) (s : State) : State :=
  rxStat v Fld.VLANE_RX_STAT_LEVEL_B (b2n levelB) (levelTails v levelB
    (rxStat v Fld.VLANE_RX_STAT_STRUCT_MISMATCH (b2n strBad) (rxStat v Fld.VLANE_RX_STAT_RATE_MISMATCH (b2n rateBad)
      (rxStat v Fld.VLANE_RX_STAT_STATE 3 s))))
theorem lockShown_state (v : Nat) (rateBad strBad levelB : Bool) (s : State) :
    rxState (lockShown v rateBad strBad levelB s) v = 3 :=
  (fget_rxStat_field ..).trans ((fget_congr (levelTails_regs ..) ..).trans
    ((fget_rxStat_field ..).trans ((fget_rxStat_field ..).trans (fget_rxStat ..))))
theorem lockShown_rate (v : Nat) (rateBad strBad levelB : Bool) (s : State) :
    fbit (lockShown v rateBad strBad levelB s) (Reg.VLANE_RX_STAT v) Fld.VLANE_RX_STAT_RATE_MISMATCH = rateBad :=
  (fbit_rxStat_field ..).trans ((congrArg (· == 1) (fget_congr (levelTails_regs ..) ..)).trans
    ((fbit_rxStat_field ..).trans (fbit_rxStat ..)))
theorem lockShown_struct (v : Nat) (rateBad strBad levelB : Bool) (s : State) :
    fbit (lockShown v rateBad strBad levelB s) (Reg.VLANE_RX_STAT v) Fld.VLANE_RX_STAT_STRUCT_MISMATCH = strBad :=
  (fbit_rxStat_field ..).trans ((congrArg (· == 1) (fget_congr (levelTails_regs ..) ..)).trans (fbit_rxStat ..))
theorem lockShown_level (v : Nat) (rateBad strBad levelB : Bool) (s : State) :
    fbit (lockShown v rateBad strBad levelB s) (Reg.VLANE_RX_STAT v) Fld.VLANE_RX_STAT_LEVEL_B = levelB := fbit_rxStat ..

/-- What follows a lock: the filters in force, NOPROC, PRESENT, and the raise of a structure that is not expected. -/
def lockFollowed (v : Nat) (bad : Bool) (s : State) : State :=
  let t := refreshPresent v (refreshNoproc v (latchFilt v s))
  if bad then raise Src.sdiRateMismatch [v] t else t
theorem lockFollowed_field (hv : v < 512) (bad : Bool) (s : State) (f : FieldRow) (hf : 10 < f.lo ∨ f.hi < 10 := by decide) :
    fget (lockFollowed v bad s) (Reg.VLANE_RX_STAT v) f = fget s (Reg.VLANE_RX_STAT v) f := by
  have hpresent := refreshPresent_regs hv (refreshNoproc v (latchFilt v s))
  have hraised : OnlyRegs FarOrSrc (refreshNoproc v (latchFilt v s)) (lockFollowed v bad s) :=
    OnlyRegs.ite (hpresent.trans ((raise_onlyAlarm (by decide) _ _).mono fun _ => farOrSrc_of_alarm)) hpresent
  exact (hraised.field (rxStat_apart hv) f).trans ((fget_rxStat_field _ _ _ _ _ hf).trans (fget_congr rfl _ _))
theorem lockFollowed_bit (hv : v < 512) (bad : Bool) (s : State) (f : FieldRow) (hf : 10 < f.lo ∨ f.hi < 10 := by decide) :
    fbit (lockFollowed v bad s) (Reg.VLANE_RX_STAT v) f = fbit s (Reg.VLANE_RX_STAT v) f :=
  congrArg (· == 1) (lockFollowed_field hv bad s f hf)

theorem rxAligned_eq (hrx : rxRuns s.img v = true) (hst : rxState s v = 2) (streams : List (Nat × Nat × Bool))
    (levelB : Bool) :
    let rateBad := fget s (Reg.VLANE_RX_STAT v) Fld.VLANE_RX_STAT_RATE_DET != linkCode (rxExpect s.img v)
    let strBad := streams != expectStreams (rxExpect s.img v) levelB
    rxAligned v streams levelB s = lockFollowed v (rateBad || strBad) (lockShown v rateBad strBad levelB s) := by
  simp only [rxAligned, hrx, hst]
  rfl
theorem rxAligned_spec (hv : v < 512) (hrx : rxRuns s.img v = true) (hst : rxState s v = 2)
    (streams : List (Nat × Nat × Bool)) (levelB : Bool) : let t := rxAligned v streams levelB s
    rxState t v = 3 ∧
      fbit t (Reg.VLANE_RX_STAT v) Fld.VLANE_RX_STAT_RATE_MISMATCH =
        decide (fget s (Reg.VLANE_RX_STAT v) Fld.VLANE_RX_STAT_RATE_DET ≠ linkCode (rxExpect s.img v)) ∧
      fbit t (Reg.VLANE_RX_STAT v) Fld.VLANE_RX_STAT_STRUCT_MISMATCH =
        decide (streams ≠ expectStreams (rxExpect s.img v) levelB) ∧
      fbit t (Reg.VLANE_RX_STAT v) Fld.VLANE_RX_STAT_LEVEL_B = levelB := by
  intro t
  rw [show t = _ from rxAligned_eq hrx hst streams levelB]
  exact ⟨(lockFollowed_field hv ..).trans (lockShown_state ..),
    (lockFollowed_bit hv ..).trans ((lockShown_rate ..).trans (bne_eq_decide_ne ..)),
    (lockFollowed_bit hv ..).trans ((lockShown_struct ..).trans (bne_eq_decide_ne ..)),
    (lockFollowed_bit hv ..).trans (lockShown_level ..)⟩

/-! ### Lock lost (step 6) -/

/-- The search begins again, and what the lane collected of the frame goes. -/
def lockDropped (v : Nat) (s : State) : State :=
  setLane v { laneSt s v with tails := [], marks := [], fcDone := false } (rxStat v Fld.VLANE_RX_STAT_AUD_ASYNC 0
    (rxStat v Fld.VLANE_RX_STAT_RATE_DET 0 (rxStat v Fld.VLANE_RX_STAT_STATE 1 s)))
theorem lockDropped_state (v : Nat) (s : State) : rxState (lockDropped v s) v = 1 :=
  (fget_setLane ..).trans ((fget_rxStat_field ..).trans ((fget_rxStat_field ..).trans (fget_rxStat ..)))
theorem lockDropped_regs (v : Nat) (s : State) : RegsWithin [Reg.VLANE_RX_STAT v] s (lockDropped v s) :=
  ((((OnlyRegs.refl _ s).fset (by simp)).fset (by simp)).fset (by simp)).same rfl

theorem rxLose_eq (hrx : rxRuns s.img v = true) (hst : rxState s v = 3) :
    rxLose v s = raise Src.sdiLockLoss [v] (count (refreshPresent v (lockDropped v s)) (Reg.VLANE_RX_LOCK_LOSS v)) := by
  simp only [rxLose, hrx, hst]
  rfl
theorem rxLose_spec (hv : v < 512) (hrx : rxRuns s.img v = true) (hst : rxState s v = 3) : let t := rxLose v s
    rxState t v = 1 ∧ (laneSt t v).rate = (laneSt s v).rate ∧
      rgetN t (Reg.VLANE_RX_LOCK_LOSS v) = min 0xFFFFFFFF (rgetN s (Reg.VLANE_RX_LOCK_LOSS v) + 1) := by
  intro t
  rw [show t = _ from rxLose_eq hrx hst]
  have hpresent := refreshPresent_regs hv (lockDropped v s)
  have hraised (u : State) : OnlyRegs FarOrSrc u (raise Src.sdiLockLoss [v] u) :=
    (raise_onlyAlarm (by decide) _ _).mono fun _ => farOrSrc_of_alarm
  have hne : Reg.VLANE_RX_STAT v ≠ Reg.VLANE_RX_LOCK_LOSS v := by rw [Reg.VLANE_RX_STAT, Reg.VLANE_RX_LOCK_LOSS]; omega
  refine ⟨?_, ?_, ?_⟩
  · rw [rxState, (hraised _).field (rxStat_apart hv), fget, rgetN_count_ne _ hne, ← fget, hpresent.field (rxStat_apart hv)]
    exact lockDropped_state v s
  · rw [laneSt_congr (raise_vl ..), laneSt_congr (count_vl ..), laneSt_congr (refreshPresent_vl ..), lockDropped,
      laneSt_setLane]
  · rw [(hraised _).num (lockLoss_apart hv), rgetN_count_same, hpresent.num (lockLoss_apart hv),
      (lockDropped_regs v s).num (by simpa using hne.symm)]

end Sys2Proof.Proofs.ReceiverLock
end

section
/-! PROOF. O36, a received line and the payload IDs (05 R122-R124, R135), with the steps of Table 5.4. -/

set_option Elab.async false

namespace Sys2Proof.Proofs.ReceiverStream

open Sys2Proof.Machine Sys2Proof.Laws Sys2Proof.Proofs.TakeRing Sys2Proof.Proofs.DestLines Sys2Proof.Proofs.ReceiverLock

variable {s t : State} {v ln : Nat} {words : List Nat}

/-! ### The frame count (R135) -/

theorem fcStep_regs (v ln : Nat) (s : State) : (fcStep v ln s).regs = s.regs := (fcStep_within ..).part .regs (by decide)
/-- The lane once line `ln` has advanced the frame count. -/
def fcLane (ln : Nat) (l : Lane) : Lane :=
  if ln = 1 ∧ l.fcDone = false then { l with fc := (l.fc + 1) % 256, fcDone := true } else l
theorem laneSt_fcStep (v ln : Nat) (s : State) : laneSt (fcStep v ln s) v = fcLane ln (laneSt s v) := by
  by_cases h : ln = 1 ∧ (laneSt s v).fcDone = false
  · simp [fcStep, fcLane, h, laneSt_setLane]
  · simp [fcStep, fcLane, h]
theorem fcLane_fc (ln : Nat) (l : Lane) :
    (fcLane ln l).fc = if ln = 1 ∧ l.fcDone = false then (l.fc + 1) % 256 else l.fc := by
  unfold fcLane
  split <;> rfl
/-- It is the frame count alone that has changed. -/
theorem fcLane_kept (ln : Nat) (l : Lane) :
    (fcLane ln l).tails = l.tails ∧ (fcLane ln l).marks = l.marks ∧ (fcLane ln l).ins = l.ins := by
  unfold fcLane
  split <;> exact ⟨rfl, rfl, rfl⟩

/-! ### The judgement of a line (R122) -/

/-- How a lane's data streams interleave, which of them a line belongs to, and the next free value: of the same image and
status. -/
theorem rxStreams_congr (hi : t.img = s.img) (hr : ∀ f, fget t (Reg.VLANE_RX_STAT v) f = fget s (Reg.VLANE_RX_STAT v) f) :
    rxStreams t v = rxStreams s v := by
  unfold rxStreams fbit
  rw [hi, hr, hr]
theorem lineErrored_fcStep (v ln : Nat) (words : List Nat) (mask : Nat) (s : State) :
    lineErrored (fcStep v ln s) v ln words mask = lineErrored s v ln words mask := by
  have hw := fcStep_within v ln s
  have himg : (fcStep v ln s).img = s.img := hw.part .img (by decide)
  have hfresh : (fcStep v ln s).fresh = s.fresh := hw.part .fresh (by decide)
  have hget (f : FieldRow) : fget (fcStep v ln s) (Reg.VLANE_RX_STAT v) f = fget s (Reg.VLANE_RX_STAT v) f :=
    fget_congr (fcStep_regs ..) ..
  have htails : (laneSt (fcStep v ln s) v).tails = (laneSt s v).tails := by rw [laneSt_fcStep, (fcLane_kept ..).1]
  simp only [lineErrored, rxStream, rxStreams_congr himg hget, htails, himg, fbit, hget, freeValue, hfresh]
/-- With no injection armed a CRC checker sees the received values as they are. -/
theorem crcObserved_none (h : s.test.inj = none) (cls idx : Nat) (ok : Nat → Bool) :
    crcObserved cls idx ok s = (!ok 0, s) := by
  simp [crcObserved, observe, h]

/-- A line with a CRC word that is wrong is counted; the first of a frame raises SDI_CRC and counts the frame. -/
def countErrors (v : Nat) (bad frameErr : Bool) (s : State) : State :=
  let s := if bad then count s (Reg.VLANE_RX_CRC_LINES v) else s
  if bad && !frameErr then raise Src.sdiCrc [v] (count s (Reg.VLANE_RX_CRC_FRAMES v)) else s

/-- The registers that a line may change but the count of lines. -/
abbrev CrcFrameReg (v a : Nat) : Prop := Alarm a ∨ a = Reg.VLANE_RX_CRC_FRAMES v
/-- The lines counted, before their frame is. -/
abbrev linesCounted (v : Nat) (bad : Bool) (s : State) : State := if bad then count s (Reg.VLANE_RX_CRC_LINES v) else s
theorem countErrors_regs (v : Nat) (bad frameErr : Bool) (s : State) :
    OnlyRegs (CrcFrameReg v) (linesCounted v bad s) (countErrors v bad frameErr s) :=
  OnlyRegs.ite (((OnlyRegs.refl _ _).count (.inr rfl)).trans ((raise_onlyAlarm (by decide) _ _).mono fun _ => .inl))
    (OnlyRegs.refl _ _)
theorem countErrors_lines (hv : v < 512) (bad frameErr : Bool) (s : State) :
    rgetN (countErrors v bad frameErr s) (Reg.VLANE_RX_CRC_LINES v) =
      if bad = true then min 0xFFFFFFFF (rgetN s (Reg.VLANE_RX_CRC_LINES v) + 1)
      else rgetN s (Reg.VLANE_RX_CRC_LINES v) := by
  have hapart : ¬ CrcFrameReg v (Reg.VLANE_RX_CRC_LINES v) := by
    rw [CrcFrameReg, alarm_iff, Reg.VLANE_RX_CRC_LINES, Reg.VLANE_RX_CRC_FRAMES]
    omega
  rw [(countErrors_regs v bad frameErr s).num hapart]
  cases bad with
  | false => rfl
  | true => exact rgetN_count_same ..
theorem countErrors_stat (hv : v < 512) (bad frameErr : Bool) (s : State) (f : FieldRow) :
    fget (countErrors v bad frameErr s) (Reg.VLANE_RX_STAT v) f = fget s (Reg.VLANE_RX_STAT v) f := by
  have hapart : ¬ CrcFrameReg v (Reg.VLANE_RX_STAT v) := by
    rw [CrcFrameReg, alarm_iff, Reg.VLANE_RX_STAT, Reg.VLANE_RX_CRC_FRAMES]
    omega
  have hne : Reg.VLANE_RX_STAT v ≠ Reg.VLANE_RX_CRC_LINES v := by rw [Reg.VLANE_RX_STAT, Reg.VLANE_RX_CRC_LINES]; omega
  rw [(countErrors_regs v bad frameErr s).field hapart]
  cases bad with
  | false => rfl
  | true => exact congrArg _ (rgetN_count_ne _ hne)
theorem countErrors_same (v : Nat) (bad frameErr : Bool) (s : State) :
    (countErrors v bad frameErr s).vl = s.vl ∧ (countErrors v bad frameErr s).img = s.img := by
  have hw : Within [.regs, .core, .pat] s (countErrors v bad frameErr s) := by
    have hlines : Within [.regs, .core, .pat] s (linesCounted v bad s) :=
      Within.ite ((count_within ..).mono rfl) (Within.refl _ s)
    exact Within.ite ((hlines.then (count_within ..) rfl).then (raise_within ..) rfl) hlines
  exact ⟨hw.part .vl (by decide), hw.part .img (by decide)⟩

/-! ### The line goes to the crosspoint (04 R87) -/

theorem getLast?_lastN_concat {α : Type} (n : Nat) (l : List α) (x : α) : (lastN (n + 1) (l ++ [x])).getLast? = some x := by
  unfold lastN
  rw [List.drop_append_of_le_length (by simp), List.getLast?_concat]
/-- The FIFOs of the planes take the line beside the ring. -/
theorem foldl_src {l : List Nat} {g : State → Nat → State} (h : ∀ t p, (g t p).xp.src = t.xp.src) (s : State) :
    (l.foldl g s).xp.src = s.xp.src := by
  induction l generalizing s with
  | nil => rfl
  | cons p l ih => exact (ih (g s p)).trans (h s p)
theorem pushLine_ring (v : Nat) (l : Ln) (s : State) : (srcLines (pushLine v l s) v).ring.getLast? = some l := by
  unfold pushLine
  extract_lets x r b r'
  dsimp only
  rw [srcLines, foldl_src]
  · rw [cget_cset, if_pos rfl]
    exact getLast?_lastN_concat 1 r.ring l
  · intro t p
    split <;> rfl

/-! ### A line in LOCKED -/

/-- The lane's words cover the next line; its frame ends with line 1. -/
def lineLane (ln : Nat) (l : Lane) : Lane := if ln = 1 then { l with frameErr := false, fcDone := false } else l
theorem lineLane_kept (ln : Nat) (l : Lane) :
    (lineLane ln l).fc = l.fc ∧ (lineLane ln l).marks = l.marks ∧ (lineLane ln l).ins = l.ins := by
  unfold lineLane
  split <;> exact ⟨rfl, rfl, rfl⟩
/-- The state in which the line's own words cover the next one. -/
def tailsKept (v ln : Nat) (words : List Nat) (s : State) : State := keepTails v ln words (spend (fcStep v ln s))
/-- The line is judged, the lane's marks have gone, and the filters written since are in force. -/
def lineJudged (v ln : Nat) (words : List Nat) (bad : Bool) (s : State) : State :=
  let l := lineLane ln (laneSt (tailsKept v ln words s) v)
  latchFilt v (setLane v { l with frameErr := l.frameErr || bad, marks := [] }
    (countErrors v bad l.frameErr (tailsKept v ln words s)))

theorem tailsKept_lane (v ln : Nat) (words : List Nat) (s : State) :
    ∃ tails, laneSt (tailsKept v ln words s) v = { fcLane ln (laneSt s v) with tails } := by
  rw [← laneSt_fcStep]
  exact ⟨_, laneSt_setLane ..⟩
theorem tailsKept_regs (v ln : Nat) (words : List Nat) (s : State) : (tailsKept v ln words s).regs = s.regs := fcStep_regs ..
theorem lineJudged_lane (v ln : Nat) (words : List Nat) (bad : Bool) (s : State) :
    (laneSt (lineJudged v ln words bad s) v).fc = (fcLane ln (laneSt s v)).fc ∧
      (laneSt (lineJudged v ln words bad s) v).marks = [] ∧
      (laneSt (lineJudged v ln words bad s) v).ins = (laneSt s v).ins := by
  obtain ⟨tails, hlane⟩ := tailsKept_lane v ln words s
  obtain ⟨hfc, -, hins⟩ := lineLane_kept ln (laneSt (tailsKept v ln words s) v)
  rw [lineJudged, latchFilt, laneSt_setLane, laneSt_setLane]
  exact ⟨by rw [hfc, hlane], rfl, by rw [hins, hlane]; exact (fcLane_kept ..).2.2⟩

theorem lineReceived_eq (hrx : rxRuns s.img v = true) (hst : rxState s v = 3) (hinj : s.test.inj = none) :
    lineReceived v ln words s =
      let t := lineJudged v ln words (lineErrored s v ln words 0) s
      let marks := (lineLane ln (laneSt (tailsKept v ln words s) v)).marks
      pushLine v ⟨ln, marks.foldl (markPacket (rxStreams t v)) words⟩ t := by
  have hfree : (fcStep v ln s).test.inj = none := by
    rw [show (fcStep v ln s).test = s.test from (fcStep_within ..).part .test (by decide)]
    exact hinj
  simp only [lineReceived, hrx, hst, crcObserved_none hfree, lineErrored_fcStep, Bool.not_not]
  rfl

theorem lineReceived_spec (hv : v < 512) (hrx : rxRuns s.img v = true) (hst : rxState s v = 3) (hinj : s.test.inj = none) :
    let t := lineReceived v ln words s
    rgetN t (Reg.VLANE_RX_CRC_LINES v) = (if lineErrored s v ln words 0 = true
        then min 0xFFFFFFFF (rgetN s (Reg.VLANE_RX_CRC_LINES v) + 1) else rgetN s (Reg.VLANE_RX_CRC_LINES v)) ∧
      (srcLines t v).ring.getLast? = some ⟨ln, (laneSt s v).marks.foldl (markPacket (rxStreams s v)) words⟩ ∧
      (laneSt t v).fc = (if ln = 1 ∧ (laneSt s v).fcDone = false then ((laneSt s v).fc + 1) % 256 else (laneSt s v).fc) ∧
      (laneSt t v).marks = [] ∧ (laneSt t v).ins = (laneSt s v).ins := by
  intro t
  have ht : t = _ := lineReceived_eq hrx hst hinj
  set j := lineJudged v ln words (lineErrored s v ln words 0) s with hj
  have hpushed (l : Ln) : (pushLine v l j).regs = j.regs ∧ (pushLine v l j).vl = j.vl :=
    ⟨(pushLine_within v l j).part .regs (by decide), (pushLine_within v l j).part .vl (by decide)⟩
  have hlines : rgetN j (Reg.VLANE_RX_CRC_LINES v) = _ := countErrors_lines hv (lineErrored s v ln words 0) _ _
  have hstreams : rxStreams j v = rxStreams s v :=
    rxStreams_congr ((countErrors_same ..).2.trans ((fcStep_within ..).part .img (by decide)))
      fun f => (countErrors_stat hv ..).trans (fget_congr (tailsKept_regs ..) _ f)
  have hmarks : (lineLane ln (laneSt (tailsKept v ln words s) v)).marks = (laneSt s v).marks := by
    obtain ⟨tails, hlane⟩ := tailsKept_lane v ln words s
    rw [(lineLane_kept ..).2.1, hlane]
    exact (fcLane_kept ..).2.1
  obtain ⟨hfc, hnone, hins⟩ := lineJudged_lane v ln words (lineErrored s v ln words 0) s
  rw [ht, laneSt_congr (hpushed _).2, rgetN_congr (hpushed _).1, hlines, pushLine_ring, hstreams, hmarks]
  refine ⟨?_, rfl, hfc.trans (fcLane_fc ..), hnone, hins⟩
  rw [rgetN_congr (tailsKept_regs ..)]

/-! ### Payload IDs (R123, R124) -/

/-- A valid payload ID has been received. -/
def pidTaken (v : Nat) (pid : Word) (s : State) : State :=
  rxStat v Fld.VLANE_RX_STAT_PID_VALID 1 (rset (setLane v { laneSt s v with pidSeen := true } s) (Reg.VLANE_RX_PID v) pid)
theorem pid_apart (v : Nat) : Reg.VLANE_RX_PID v ≠ Reg.VLANE_RX_STAT v := by
  rw [Reg.VLANE_RX_PID, Reg.VLANE_RX_STAT]
  omega
theorem pidTaken_valid (v : Nat) (pid : Word) (s : State) :
    fbit (pidTaken v pid s) (Reg.VLANE_RX_STAT v) Fld.VLANE_RX_STAT_PID_VALID = true := fbit_rxStat v _ true _
theorem pidTaken_pid (v : Nat) (pid : Word) (s : State) : rget (pidTaken v pid s) (Reg.VLANE_RX_PID v) = pid :=
  (rget_rset_ne _ _ (pid_apart v)).trans (rget_rset_same ..)
theorem pidTaken_regs (v : Nat) (pid : Word) (s : State) :
    RegsWithin [Reg.VLANE_RX_STAT v, Reg.VLANE_RX_PID v] s (pidTaken v pid s) :=
  ((OnlyRegs.refl _ s).same rfl).rset (by simp) |>.fset (by simp)

/-- NOPROC of a valid payload ID: its structure, or the expected format of raster 0x9. -/
theorem refreshNoproc_noproc (v : Nat) (s : State) :
    fbit (refreshNoproc v s) (Reg.VLANE_RX_STAT v) Fld.VLANE_RX_STAT_NOPROC =
      (fbit s (Reg.VLANE_RX_STAT v) Fld.VLANE_RX_STAT_PID_VALID && !pidProcessable (rgetN s (Reg.VLANE_RX_PID v)) ||
        rasterOf (rxExpect s.img v) == 9) := fbit_rxStat ..
theorem refreshNoproc_valid (v : Nat) (s : State) :
    fbit (refreshNoproc v s) (Reg.VLANE_RX_STAT v) Fld.VLANE_RX_STAT_PID_VALID =
      fbit s (Reg.VLANE_RX_STAT v) Fld.VLANE_RX_STAT_PID_VALID := fbit_rxStat_field ..
theorem refreshNoproc_pid (v : Nat) (s : State) :
    rget (refreshNoproc v s) (Reg.VLANE_RX_PID v) = rget s (Reg.VLANE_RX_PID v) := rget_rset_ne _ _ (pid_apart v)

theorem pidPacket_valid (hrx : rxRuns s.img v = true) (hst : rxState s v = 3) (pid : Word) :
    pidPacket v pid true s = refreshNoproc v (pidTaken v pid s) := by
  simp only [pidPacket, hrx, hst]
  rfl
theorem pidPacket_spec (hrx : rxRuns s.img v = true) (hst : rxState s v = 3) (pid : Word) : let t := pidPacket v pid true s
    rget t (Reg.VLANE_RX_PID v) = pid ∧ fbit t (Reg.VLANE_RX_STAT v) Fld.VLANE_RX_STAT_PID_VALID = true ∧
      fbit t (Reg.VLANE_RX_STAT v) Fld.VLANE_RX_STAT_NOPROC =
        (!pidProcessable pid.toNat || rasterOf (rxExpect s.img v) == 9) ∧ (laneSt t v).pidSeen = true ∧
      RegsWithin [Reg.VLANE_RX_STAT v, Reg.VLANE_RX_PID v] s t := by
  intro t
  rw [show t = _ from pidPacket_valid hrx hst pid]
  refine ⟨(refreshNoproc_pid ..).trans (pidTaken_pid ..), (refreshNoproc_valid ..).trans (pidTaken_valid ..), ?_, ?_, ?_⟩
  · rw [refreshNoproc_noproc, pidTaken_valid, rgetN, pidTaken_pid, Bool.true_and]
    rfl
  · exact congrArg Lane.pidSeen (laneSt_setLane v { laneSt s v with pidSeen := true } s)
  · exact (pidTaken_regs v pid s).fset (by simp)

/-! ### O36 -/

/-- Settles O36: the steps of the search by `rxNext_spec` and `clockFound_spec`, lock by `rxAligned_spec`, its loss by
`rxLose_spec`, where what follows PRESENT leaves the lane's own registers alone (`refreshPresent_regs`); a line by
`lineReceived_spec`; payload IDs by `pidPacket_spec` and the timeout, which clears PID_VALID alone. -/
theorem receiverLockAndStream : Obligations.ReceiverLockAndStream := by
  unfold Obligations.ReceiverLockAndStream
  refine ⟨fun v s hrx => ⟨fun hst => ⟨?rate, ?clock⟩, fun hst => ⟨?align, fun streams levelB => ?lock⟩,
      fun hst => ⟨?cdr, ?eav⟩⟩,
    fun v s hrx hst => ⟨fun line words hinj => ?line, fun pid => ?pid, fun pid => ?checksum, ?timeout⟩⟩
  case rate => exact ⟨rxNext v s, congrArg Host.Outcome.next (if_pos (by simp [hrx, hst])), rxNext_spec v s⟩
  case clock => exact ⟨clockFound v s, congrArg Host.Outcome.next (if_pos (by simp [hrx, hst])), clockFound_spec v s⟩
  case align =>
    obtain ⟨hstate, hrate, -, hregs⟩ := rxNext_spec v s
    exact ⟨rxNext v s, congrArg Host.Outcome.next (if_pos (by simp [hrx, hst])), hstate, hrate, hregs⟩
  case lock => exact ⟨_, rfl, rxAligned_spec v.isLt hrx hst streams levelB⟩
  case cdr => exact ⟨_, rfl, rxLose_spec v.isLt hrx hst⟩
  case eav => exact ⟨_, rfl, rxLose_spec v.isLt hrx hst⟩
  case line => exact ⟨_, rfl, lineReceived_spec v.isLt hrx hst hinj⟩
  case pid => exact ⟨_, rfl, pidPacket_spec hrx hst pid⟩
  case checksum => exact ⟨s, congrArg Host.Outcome.next (if_pos (by simp)), rfl⟩
  case timeout =>
    have hcleared : RegsWithin [Reg.VLANE_RX_STAT v] s (rxStat v Fld.VLANE_RX_STAT_PID_VALID 0 s) := rxStat_regs _ _ _ _
    refine ⟨_, congrArg Host.Outcome.next (if_pos hrx), ?_, ?_, hcleared.trans (refreshNoproc_regs _ _)⟩
    · exact (refreshNoproc_valid ..).trans (fbit_rxStat v _ false s)
    · exact (refreshNoproc_pid ..).trans (rget_rset_ne _ _ (pid_apart v))

end Sys2Proof.Proofs.ReceiverStream
end

section
/-! PROOF. The packet ports: what a port holds, the fields of its status, its counters, and what the transmit queues, the
link states and the device queues leave alone (06 R150-R157; 08 R204-R214). -/

set_option Elab.async false

namespace Sys2Proof.Proofs.MacPorts

open Sys2Proof.Machine Sys2Proof.Laws Sys2Proof.Proofs.TakeRing Sys2Proof.Proofs.DestLines

variable {s t u : State} {m i k : Nat} {l : List Nat}

/-! ### The registers of a port -/

/-- The alarms, and the blocks from the flow engine's on: no register of a packet port. -/
abbrev AboveMac (a : Nat) : Prop := Alarm a ∨ 0x01000000 ≤ a
/-- Those, and the registers l of port m, named as port 0 has them. -/
abbrev PortReg (m : Nat) (l : List Nat) (a : Nat) : Prop := AboveMac a ∨ ∃ k ∈ l, a = k + 0x1000 * m

theorem aboveMac_iff (a : Nat) : AboveMac a ↔ (0x00100000 ≤ a ∧ a < 0x00200000) ∨ 0x01000000 ≤ a := by
  rw [AboveMac, alarm_iff]
  omega
theorem aboveMac_add {n k : Nat} (h : 0x01000000 ≤ n) : 0x01000000 ≤ n + k := Nat.le_add_right_of_le h
theorem port_notAbove {a : Nat} (hm : m < 64) (ha : a = k + 0x1000 * m := by rfl)
    (hk : 0x00C00000 ≤ k ∧ k < 0x00C01000 := by decide) : ¬ AboveMac a := by
  rw [aboveMac_iff]
  omega
/-- Another register of the port. -/
theorem port_apart {a : Nat} (hm : m < 64) (ha : a = k + 0x1000 * m := by rfl)
    (hk : (0x00C00000 ≤ k ∧ k < 0x00C01000) ∧ k ∉ l := by decide) : ¬ PortReg m l a := by
  rintro (habove | ⟨j, hj, heq⟩)
  · exact port_notAbove hm ha hk.1 habove
  · exact hk.2 (Nat.add_right_cancel (heq.symm.trans ha) ▸ hj)
theorem port_own (hk : k ∈ l := by decide) : PortReg m l (k + 0x1000 * m) := .inr ⟨k, hk, rfl⟩
theorem port_ne {a b : Nat} (h : a ≠ b := by decide) : a + 0x1000 * m ≠ b + 0x1000 * m :=
  fun e => h (Nat.add_right_cancel e)
theorem mode_notAbove : ¬ AboveMac Reg.GLOBAL_MODE := by rw [aboveMac_iff, Reg.GLOBAL_MODE]; omega

theorem mode_notPort (hl : ∀ k ∈ l, 0x00C00000 ≤ k := by decide) : ¬ PortReg m l Reg.GLOBAL_MODE := by
  rintro (habove | ⟨k, hk, heq⟩)
  · exact mode_notAbove habove
  · have := hl k hk
    rw [Reg.GLOBAL_MODE] at heq
    omega

/-- What does not write GLOBAL_MODE keeps the mode. -/
theorem inCast_kept {P : Nat → Prop} (h : OnlyRegs P s t) (hP : ¬ P Reg.GLOBAL_MODE) : inCast t = inCast s := by
  have hmode : mode t = mode s := congrArg modeOf (h.field hP _)
  rw [inCast, inCast, hmode, h.bit hP]
theorem raise_above {n : Nat} (hn : n < 1536) (l : List Nat) (s : State) : OnlyRegs AboveMac s (raise n l s) :=
  (raise_onlyAlarm hn l s).mono fun _ => .inl
theorem onlyRegs_port (h : OnlyRegs AboveMac s t) : OnlyRegs (PortReg m l) s t := h.mono fun _ => .inl

/-! ### What a port holds -/

theorem macPort_congr (h : t.mac = s.mac) (m : Nat) : macPort t m = macPort s m := by
  unfold macPort
  rw [h]
theorem macPort_setMac (m : Nat) (p : MacPort) (s : State) (k : Nat) :
    macPort (setMac m p s) k = if k = m then p else macPort s k := cget_cset ..
@[simp] theorem macPort_setMac_same (m : Nat) (p : MacPort) (s : State) : macPort (setMac m p s) m = p := by
  rw [macPort_setMac, if_pos rfl]
theorem macPort_setMac_ne (m : Nat) (p : MacPort) (s : State) (h : k ≠ m) : macPort (setMac m p s) k = macPort s k := by
  rw [macPort_setMac, if_neg h]
@[simp] theorem setMac_img (m : Nat) (p : MacPort) (s : State) : (setMac m p s).img = s.img := rfl
@[simp] theorem macState_setMac (m : Nat) (p : MacPort) (s : State) (k : Nat) : macState (setMac m p s) k = macState s k := rfl
theorem raise_mac (n : Nat) (l : List Nat) (s : State) : (raise n l s).mac = s.mac :=
  (raise_within n l s).part .mac (by decide)
theorem txQueue_congr (h : t.mac = s.mac) (m i : Nat) : txQueue t m i = txQueue s m i := by
  unfold txQueue
  rw [macPort_congr h]
/-- Queue i of the port as it is set, and the others as they were. -/
theorem txQueue_setMac (p : MacPort) (fs : List TxFrame) (s : State) (j : Nat) :
    txQueue (setMac m { p with txq := cset [] p.txq i fs } s) m j = if j = i then fs else cget [] p.txq j := by
  rw [txQueue, macPort_setMac_same]
  exact cget_cset ..

/-! ### The status of a port, field by field -/

theorem fget_macStat (m : Nat) (f : FieldRow) (n : Nat) (s : State) (hf : f.hi < 32 := by decide)
    (hl : f.lo ≤ f.hi + 1 := by decide) : fget (macStat m f n s) (Reg.MAC_STAT m) f = n % 2 ^ (f.hi + 1 - f.lo) :=
  fget_fset_same _ _ _ _ hf hl
theorem fget_macStat_field (m : Nat) (f g : FieldRow) (n : Nat) (s : State) (h : f.hi < g.lo ∨ g.hi < f.lo := by decide)
    (hf : f.hi < 32 := by decide) (hl : f.lo ≤ f.hi + 1 := by decide) :
    fget (macStat m f n s) (Reg.MAC_STAT m) g = fget s (Reg.MAC_STAT m) g := fget_fset_field _ _ _ _ _ hf hl h
theorem fbit_macStat (m : Nat) (f : FieldRow) (b : Bool) (s : State) (hf : f.hi < 32 := by decide)
    (hl : f.lo = f.hi := by rfl) : fbit (macStat m f (b2n b) s) (Reg.MAC_STAT m) f = b := fbit_fset_bool _ _ _ hf hl
theorem fbit_macStat_field (m : Nat) (f g : FieldRow) (n : Nat) (s : State) (h : f.hi < g.lo ∨ g.hi < f.lo := by decide)
    (hf : f.hi < 32 := by decide) (hl : f.lo ≤ f.hi + 1 := by decide) :
    fbit (macStat m f n s) (Reg.MAC_STAT m) g = fbit s (Reg.MAC_STAT m) g := fbit_fset_field _ _ _ _ _ hf hl h
/-- A field of the status other than STATE leaves the link state. -/
theorem macState_macStat (m : Nat) (f : FieldRow) (n : Nat) (s : State) (h : 2 < f.lo := by decide)
    (hf : f.hi < 32 := by decide) (hl : f.lo ≤ f.hi + 1 := by decide) : macState (macStat m f n s) m = macState s m :=
  fget_macStat_field m f _ n s (.inr h) hf hl
theorem macStat_regs (m : Nat) (f : FieldRow) (n : Nat) (s : State) : RegsWithin [Reg.MAC_STAT m] s (macStat m f n s) :=
  (OnlyRegs.refl _ s).fset (by simp)
/-- What writes no status register keeps the link state. -/
theorem macState_kept {P : Nat → Prop} (h : OnlyRegs P s t) (hP : ¬ P (Reg.MAC_STAT m)) : macState t m = macState s m :=
  h.field hP _

/-! ### 64-bit counters -/

theorem rget64_lt (s : State) (lo hi : Nat) : rget64 s lo hi < 2 ^ 64 := by
  have hlo := rgetN_lt s lo
  have hhi := rgetN_lt s hi
  unfold rget64
  omega
theorem rget64_count64 (s : State) {lo hi : Nat} (n : Nat) (h : lo ≠ hi) :
    rget64 (count64 lo hi n s) lo hi = (rget64 s lo hi + n) % 2 ^ 64 := by
  rw [rget64, count64, rset64, rgetN_rsetN_same, rgetN_rsetN_ne _ _ h, rgetN_rsetN_same, lo32, hi32]
  omega
theorem rget64_kept {P : Nat → Prop} (h : OnlyRegs P s t) {lo hi : Nat} (hlo : ¬ P lo) (hhi : ¬ P hi) :
    rget64 t lo hi = rget64 s lo hi := by
  rw [rget64, rget64, h.num hlo, h.num hhi]
theorem rget64_congr (h : t.regs = s.regs) (lo hi : Nat) : rget64 t lo hi = rget64 s lo hi := by
  rw [rget64, rget64, rgetN_congr h, rgetN_congr h]
theorem count64_regs {P : Nat → Prop} {lo hi n : Nat} (h : OnlyRegs P s t) (hlo : P lo) (hhi : P hi) :
    OnlyRegs P s (count64 lo hi n t) := h.rset64 hlo hhi

/-- Another counter of the port. -/
theorem rget64_count64_port {a b c d : Nat} (n : Nat) (s : State)
    (h : c ∉ [a, b] ∧ d ∉ [a, b] := by decide) :
    rget64 (count64 (a + 0x1000 * m) (b + 0x1000 * m) n s) (c + 0x1000 * m) (d + 0x1000 * m) =
      rget64 s (c + 0x1000 * m) (d + 0x1000 * m) := by
  have hregs : RegsWithin [a + 0x1000 * m, b + 0x1000 * m] s (count64 (a + 0x1000 * m) (b + 0x1000 * m) n s) :=
    count64_regs (OnlyRegs.refl _ s) (by simp) (by simp)
  exact rget64_kept hregs (by simpa using h.1) (by simpa using h.2)

/-! ### The transmit queues (R156, R157) -/

theorem txRefill_above (m i : Nat) (s : State) : OnlyRegs AboveMac s (txRefill m i s) := by
  unfold txRefill
  extract_lets p
  split
  · exact OnlyRegs.refl _ s
  · next w _ =>
    have hcount : AboveMac (Reg.FLOW_LEG_PKTS w.leg) := .inr (aboveMac_add (by decide))
    exact OnlyRegs.ite (OnlyRegs.refl _ s) (((OnlyRegs.refl _ s).same rfl).count hcount)
theorem txRefill_idle (h : (macPort s m).waiting = []) (i : Nat) : txRefill m i s = s := by simp [txRefill, h]
theorem txPop_above (m i : Nat) (s : State) : OnlyRegs AboveMac s (txPop m i s).2 := by
  unfold txPop
  split
  · exact OnlyRegs.refl _ s
  · exact OnlyRegs.trans ((OnlyRegs.refl _ s).same rfl) (txRefill_above _ _ _)
theorem txStart_above (m : Nat) (s : State) : OnlyRegs AboveMac s (txStart m s) := by
  unfold txStart
  refine OnlyRegs.ite (OnlyRegs.refl _ s) ?_
  split
  · exact OnlyRegs.refl _ s
  · next i _ =>
    have hpop := txPop_above m i s
    split
    · next hp => rwa [hp] at hpop
    · next hp =>
      rw [hp] at hpop
      exact hpop.same rfl
theorem txStart_idle (h : txReady s m = false) : txStart m s = s := by simp [txStart, h]
theorem dropTop_regs (m : Nat) (s : State) : OnlyRegs (PortReg m [Reg.MAC_TX_DISCARD 0]) s (dropTop m s) := by
  unfold dropTop
  split
  · exact OnlyRegs.refl _ s
  · next i _ =>
    have hpop := onlyRegs_port (m := m) (l := [Reg.MAC_TX_DISCARD 0]) (txPop_above m i s)
    split
    · next hp => rwa [hp] at hpop
    · next hp =>
      rw [hp] at hpop
      exact hpop.count port_own
theorem txReturn_regs (m : Nat) (s : State) : OnlyRegs (PortReg m [Reg.MAC_TX_DISCARD 0]) s (txReturn m s) :=
  (OnlyRegs.foldl (OnlyRegs.refl _ s) fun v _ h => h.trans (dropTop_regs m v)).trans (onlyRegs_port (txStart_above _ _))
/-- The frame at the head of the highest queue goes; nothing waits for its room. -/
theorem dropTop_head {f : TxFrame} {fs : List TxFrame} (htop : txTop s m = some i) (hq : txQueue s m i = f :: fs)
    (hw : (macPort s m).waiting = []) :
    dropTop m s = count (setMac m { macPort s m with txq := cset [] (macPort s m).txq i fs } s) (Reg.MAC_TX_DISCARD m) := by
  have hpop : txPop m i s = (some f, setMac m { macPort s m with txq := cset [] (macPort s m).txq i fs } s) := by
    simp only [txPop, hq]
    rw [txRefill_idle (by rw [macPort_setMac_same]; exact hw)]
  simp only [dropTop, htop, hpop]

/-! ### The link states (R150, R151, R159) -/

/-- The registers that show a link state and an exit from UP. -/
abbrev linkRegs : List Nat := [Reg.MAC_STAT 0, Reg.MAC_PAUSE_STAT 0, Reg.MAC_LINK_DOWN 0]

theorem pauseClear_spec (m : Nat) (s : State) :
    fbit (pauseClear m s) (Reg.MAC_STAT m) Fld.MAC_STAT_PAUSED = false ∧ rgetN (pauseClear m s) (Reg.MAC_PAUSE_STAT m) = 0 ∧
      macState (pauseClear m s) m = macState s m := by
  have hne : Reg.MAC_STAT m ≠ Reg.MAC_PAUSE_STAT m := port_ne
  refine ⟨?_, rgetN_rsetN_same .., ?_⟩
  · rw [pauseClear, fbit, fget_rsetN_ne _ _ _ hne]
    exact fbit_macStat m _ false s
  · exact (fget_rsetN_ne _ _ _ hne).trans (macState_macStat ..)
/-- RF is a field of its own. -/
theorem pauseClear_rf (m : Nat) (s : State) : fbit (pauseClear m s) (Reg.MAC_STAT m) Fld.MAC_STAT_RF =
    fbit s (Reg.MAC_STAT m) Fld.MAC_STAT_RF := by
  rw [pauseClear, fbit, fget_rsetN_ne _ _ _ (show Reg.MAC_STAT m ≠ Reg.MAC_PAUSE_STAT m from port_ne)]
  exact fbit_macStat_field ..

theorem macEnter_of_ne {st : Nat} (h : macState s m ≠ 3) : macEnter m st s = macStat m Fld.MAC_STAT_STATE st s :=
  if_neg fun c => h c.1
/-- The link is down: RF and the PAUSE timer clear, and the exit from UP is counted. -/
def linkDropped (m st : Nat) (s : State) : State :=
  count (pauseClear m (macStat m Fld.MAC_STAT_RF 0 (macStat m Fld.MAC_STAT_STATE st s))) (Reg.MAC_LINK_DOWN m)
theorem macEnter_of_up {st : Nat} (h : macState s m = 3) (hst : st ≠ 3) :
    macEnter m st s = raise Src.macLinkDown [m] (linkDropped m st s) := if_pos ⟨h, hst⟩
theorem linkDropped_stat (m st : Nat) (s : State) (f : FieldRow) : fget (linkDropped m st s) (Reg.MAC_STAT m) f =
    fget (pauseClear m (macStat m Fld.MAC_STAT_RF 0 (macStat m Fld.MAC_STAT_STATE st s))) (Reg.MAC_STAT m) f :=
  congrArg _ (rgetN_count_ne _ port_ne)

theorem macEnter_state {st : Nat} (hm : m < 64) (hst : st < 8) (s : State) : macState (macEnter m st s) m = st := by
  have hshown : macState (macStat m Fld.MAC_STAT_STATE st s) m = st := (fget_macStat ..).trans (Nat.mod_eq_of_lt hst)
  by_cases hup : macState s m = 3 ∧ st ≠ 3
  · rw [macEnter_of_up hup.1 hup.2]
    refine (macState_kept (raise_above (by decide) _ _) (port_notAbove hm)).trans ((linkDropped_stat ..).trans ?_)
    exact (pauseClear_spec ..).2.2.trans ((macState_macStat ..).trans hshown)
  · rwa [macEnter, if_neg hup]
/-- An exit from UP is counted, and clears RF and the PAUSE timer. -/
theorem macEnter_down {st : Nat} (hm : m < 64) (hup : macState s m = 3) (hst : st ≠ 3) : let t := macEnter m st s
    rgetN t (Reg.MAC_LINK_DOWN m) = min 0xFFFFFFFF (rgetN s (Reg.MAC_LINK_DOWN m) + 1) ∧
      fbit t (Reg.MAC_STAT m) Fld.MAC_STAT_RF = false ∧ rgetN t (Reg.MAC_PAUSE_STAT m) = 0 := by
  intro t
  rw [show t = _ from macEnter_of_up hup hst]
  have hraised := raise_above (n := Src.macLinkDown) (by decide) [m] (linkDropped m st s)
  refine ⟨(hraised.num (port_notAbove hm)).trans ?count, (hraised.bit (port_notAbove hm) _).trans ?remote,
    (hraised.num (port_notAbove hm)).trans ?pause⟩
  case count =>
    have hpause : Reg.MAC_LINK_DOWN m ≠ Reg.MAC_PAUSE_STAT m := port_ne
    have hstat : Reg.MAC_LINK_DOWN m ≠ Reg.MAC_STAT m := port_ne
    rw [linkDropped, rgetN_count_same, pauseClear, rgetN_rsetN_ne _ _ hpause]
    simp only [macStat, rgetN_fset_ne _ _ _ hstat]
  case remote =>
    exact (congrArg (· == 1) (linkDropped_stat ..)).trans ((pauseClear_rf ..).trans (fbit_macStat m _ false _))
  case pause => exact (rgetN_count_ne _ port_ne).trans (pauseClear_spec ..).2.1
theorem macEnter_mac (m st : Nat) (s : State) : (macEnter m st s).mac = s.mac :=
  (macEnter_within ..).part .mac (by decide)
theorem macEnter_regs (m st : Nat) (s : State) : OnlyRegs (PortReg m linkRegs) s (macEnter m st s) := by
  have hshown : OnlyRegs (PortReg m linkRegs) s (macStat m Fld.MAC_STAT_STATE st s) := (OnlyRegs.refl _ s).fset port_own
  have hdown : OnlyRegs (PortReg m linkRegs) s (linkDropped m st s) :=
    (((hshown.fset port_own).fset port_own).rsetN port_own).count port_own
  exact OnlyRegs.ite (hdown.trans (onlyRegs_port (raise_above (by decide) _ _))) hshown
theorem macApplyEn_regs (m : Nat) (s : State) : OnlyRegs (PortReg m linkRegs) s (macApplyEn m s) := by
  have hnone : OnlyRegs (PortReg m linkRegs) s s := OnlyRegs.refl _ s
  unfold macApplyEn
  extract_lets p u
  have hu : OnlyRegs (PortReg m linkRegs) s u := hnone.same rfl
  exact OnlyRegs.ite hnone (OnlyRegs.ite (OnlyRegs.ite (hu.trans (macEnter_regs _ _ _)) hu)
    (OnlyRegs.ite hnone (macEnter_regs _ _ _)))
/-- A frame under way keeps EN from taking effect. -/
theorem macApplyEn_waits (h : ((macPort s m).cur.isSome || (macPort s m).rxLast) = true) : macApplyEn m s = s :=
  if_pos (by rw [Bool.or_assoc, h, Bool.or_true])

end Sys2Proof.Proofs.MacPorts
end

section
/-! PROOF. O27, the link states of a packet port and a change of EN (06 R150, R151). -/

set_option Elab.async false

namespace Sys2Proof.Proofs.MacLinkStates

open Sys2Proof.Machine Sys2Proof.Laws Sys2Proof.Proofs.MacPorts

variable {s : State} {m : Nat}

/-! ### The moves of Table 6.4 (R150) -/

/-- Short of UP, a move writes the status of the port alone. -/
theorem macEnter_seen {st : Nat} (p : MacPort) (h : macState s m ≠ 3) :
    RegsWithin [Reg.MAC_STAT m] s (macEnter m st (setMac m p s)) := by
  rw [macEnter_of_ne (s := setMac m p s) h]
  exact OnlyRegs.trans ((OnlyRegs.refl _ s).same rfl) (macStat_regs _ _ _ _)

/-- A loss takes a port that is UP to `st`, and leaves any other state. -/
theorem leaveUp_state {st : Nat} (hm : m < 64) (hst : st < 8) (s : State) :
    macState (if macState s m = 3 then macEnter m st s else s) m = if macState s m = 3 then st else macState s m := by
  split
  · exact macEnter_state hm hst s
  · rfl

/-- The port has come UP, and its stale frames have gone. -/
theorem aligned_spec (hm : m < 64) (s : State) :
    let t := txReturn m (macStat m Fld.MAC_STAT_LF 0 (macEnter m 3 s))
    macState t m = 3 ∧ fbit t (Reg.MAC_STAT m) Fld.MAC_STAT_LF = false := by
  intro t
  have hkept := txReturn_regs m (macStat m Fld.MAC_STAT_LF 0 (macEnter m 3 s))
  exact ⟨(macState_kept hkept (port_apart hm)).trans ((macState_macStat ..).trans (macEnter_state hm (by decide) s)),
    (hkept.bit (port_apart hm) _).trans (fbit_macStat m _ false _)⟩

/-- The fault sequences have stopped. -/
def faultsOver (m : Nat) (s : State) : State := macStat m Fld.MAC_STAT_LF 0 (macStat m Fld.MAC_STAT_RF 0 s)
theorem faultsOver_spec (hm : m < 64) (resume : Bool) (s : State) :
    let t := if resume then txReturn m (faultsOver m s) else faultsOver m s
    macState t m = macState s m ∧ fbit t (Reg.MAC_STAT m) Fld.MAC_STAT_RF = false ∧
      fbit t (Reg.MAC_STAT m) Fld.MAC_STAT_LF = false := by
  intro t
  have hkept : OnlyRegs (PortReg m [Reg.MAC_TX_DISCARD 0]) (faultsOver m s) t :=
    OnlyRegs.ite (txReturn_regs _ _) (OnlyRegs.refl _ _)
  refine ⟨(macState_kept hkept (port_apart hm)).trans ((macState_macStat ..).trans (macState_macStat ..)),
    (hkept.bit (port_apart hm) _).trans ?_, (hkept.bit (port_apart hm) _).trans (fbit_macStat m _ false _)⟩
  exact (fbit_macStat_field ..).trans (fbit_macStat m _ false _)

/-- Fault sequences are received, or have stopped. -/
abbrev faultSeen (m : Nat) (b : Bool) (s : State) : State := setMac m { macPort s m with fault := b } s
/-- What a port that is UP does of each kind of fault sequence. -/
theorem exec_macFaultSequence {m : Fin 64} (hf : portFormed s.img m = true) (hst : macState s m = 3) (kind : Fin 3) :
    let u := faultSeen m (kind.val != 2) s
    exec (.macFaultSequence m kind) s = .next (
      if kind.val = 0 then macStat m Fld.MAC_STAT_LF 1 (macEnter m 2 u)
      else if kind.val = 1 then macStat m Fld.MAC_STAT_RF 1 u
      else if fbit s (Reg.MAC_STAT m) Fld.MAC_STAT_RF then txReturn m (faultsOver m u) else faultsOver m u) := by
  intro u
  have hu : macState u m = 3 := hst
  have hup : macState (faultsOver m u) m = 3 := (macState_macStat ..).trans ((macState_macStat ..).trans hu)
  have hdown : ¬ (!portFormed u.img m || decide (macState u m < 2)) = true := by simp [hu, u, hf]
  refine congrArg Host.Outcome.next ((if_neg hdown).trans ?_)
  rw [if_pos hu, if_pos hu]
  split
  · rfl
  · split
    · rfl
    · show (if (fbit u (Reg.MAC_STAT m) Fld.MAC_STAT_RF && macState (faultsOver m u) m == 3) = true then _ else _) = _
      rw [hup, beq_self_eq_true, Bool.and_true]
      rfl

/-! ### A change of EN (R151) -/

/-- The port as EN leaves it: each direction at a frame boundary is open or shut by EN. -/
abbrev enPort (s : State) (m : Nat) (rx : Bool) : MacPort :=
  { macPort s m with rxLast := rx, rxShut := !rx && !macEn s m, txShut := !macEn s m }

/-- Where EN takes effect: into OFF or out of it. -/
theorem macApplyEn_state (hm : m < 64) (hf : portFormed s.img m = true) (hcur : (macPort s m).cur = none)
    (hlast : (macPort s m).rxLast = false) : macState (macApplyEn m s) m = if macEn s m && inService s then
      (if macState s m = 0 then (if (macPort s m).cdr then 2 else 1) else macState s m)
      else if macEn s m && inCast s then macState s m else 0 := by
  have hnot : ¬ (!portFormed s.img m || (macPort s m).cur.isSome || (macPort s m).rxLast) = true := by simp [hf, hcur, hlast]
  unfold macApplyEn
  rw [if_neg hnot]
  by_cases hen : (macEn s m && inService s) = true
  · rw [if_pos hen, if_pos hen]
    by_cases h0 : macState s m = 0
    · simp only [macState_setMac, h0, if_true]
      exact macEnter_state hm (by split <;> decide) _
    · simp only [macState_setMac, h0, if_false]
  · rw [if_neg hen, if_neg hen]
    cases hcast : macEn s m && inCast s with
    | true => simp
    | false =>
      by_cases h0 : macState s m = 0
      · simp [h0]
      · simp [h0, macEnter_state hm]

/-- Where both directions stand as EN says, EN changes the link state alone. -/
theorem macApplyEn_ports (hrx : (macPort s m).rxShut = !macEn s m) (htx : (macPort s m).txShut = !macEn s m) (k : Nat) :
    macPort (macApplyEn m s) k = macPort s k := by
  have hopen : macEn s m = true → { macPort s m with rxShut := false, txShut := false } = macPort s m := by
    intro hen
    rw [hen] at hrx htx
    cases hp : macPort s m
    simp_all
  unfold macApplyEn
  extract_lets p u
  have hu (hen : macEn s m = true) : macPort u k = macPort s k := by
    rw [macPort_setMac, hopen hen]
    split
    · next hk => rw [hk]
    · rfl
  split
  · rfl
  · split
    · next hen =>
      have hen : macEn s m = true := (Bool.and_eq_true_iff.1 hen).1
      split
      · exact (macPort_congr (macEnter_mac ..) k).trans (hu hen)
      · exact hu hen
    · split
      · rfl
      · exact macPort_congr (macEnter_mac ..) k

/-! ### O27 -/

/-- Settles O27: the moves of Table 6.4 by `macEnter_state` and `macEnter_down`, a port that comes UP or can send again by
`aligned_spec` and `faultsOver_spec`, a change of EN by `macApplyEn_state` and `macApplyEn_ports`, and one that finds a
frame under way by `macApplyEn_waits`. -/
theorem macLinkStates : Obligations.MacLinkStates := by
  unfold Obligations.MacLinkStates
  intro m s hf
  have hm : m.val < 64 := m.isLt
  refine ⟨fun hst => ?lock, fun hst => ?loss, fun hst => ?expire, fun lf hst => ?align,
    fun hst => ⟨?localFault, ?remoteFault, ?faultsStop⟩, fun hcur => ?change, fun rx hrx => ?waits⟩
  case lock =>
    have hne : macState s m ≠ 3 := by omega
    refine ⟨_, congrArg Host.Outcome.next (if_pos (by simp [hf, hst])), macEnter_state hm (by decide) _, ?_,
      macEnter_seen _ hne⟩
    exact congrArg MacPort.cdr ((macPort_congr (macEnter_mac ..) _).trans (macPort_setMac_same ..))
  case loss =>
    refine ⟨_, congrArg Host.Outcome.next (if_pos (by simp [hf, hst])), macEnter_state hm (by decide) _, ?_,
      fun hup => macEnter_down hm hup (by decide)⟩
    exact congrArg MacPort.cdr ((macPort_congr (macEnter_mac ..) _).trans (macPort_setMac_same ..))
  case expire =>
    cases hfault : (macPort s m).fault with
    | true => exact ⟨s, congrArg Host.Outcome.next (if_neg (by simp [hfault])), rfl⟩
    | false =>
      exact ⟨_, congrArg Host.Outcome.next (if_pos (by simp [hf, hst, hfault])), aligned_spec hm s⟩
  case align =>
    refine ⟨_, congrArg Host.Outcome.next (if_pos (by simp [hf, hst])), ?_, fbit_macStat ..⟩
    exact (macState_macStat ..).trans (leaveUp_state hm (by decide) s)
  case localFault =>
    refine ⟨_, exec_macFaultSequence hf hst 0, ?_, fbit_macStat _ _ true _⟩
    exact (macState_macStat ..).trans (macEnter_state hm (by decide) _)
  case remoteFault =>
    exact ⟨_, exec_macFaultSequence hf hst 1, (macState_macStat ..).trans hst, fbit_macStat _ _ true _,
      OnlyRegs.trans ((OnlyRegs.refl _ s).same rfl) (macStat_regs _ _ _ _)⟩
  case faultsStop =>
    obtain ⟨hstate, hbits⟩ := faultsOver_spec hm (fbit s (Reg.MAC_STAT m) Fld.MAC_STAT_RF) (faultSeen m false s)
    exact ⟨_, exec_macFaultSequence hf hst 2, hstate.trans hst, hbits⟩
  case change =>
    have hport : macPort (setMac m (enPort s m false) s) m = enPort s m false := macPort_setMac_same ..
    have hkept := macApplyEn_ports (s := setMac m (enPort s m false) s) (m := m) (by rw [hport]; rfl) (by rw [hport]; rfl)
    refine ⟨_, rfl, ?_, (hkept m).trans hport, fun k hk => (hkept k).trans (macPort_setMac_ne _ _ _ hk)⟩
    refine (macApplyEn_state (s := setMac m (enPort s m false) s) hm hf (by rw [hport]; exact hcur) (by rw [hport])).trans ?_
    rw [hport]
    rfl
  case waits => exact ⟨_, rfl, macApplyEn_waits (by rw [macPort_setMac_same]; simpa [Bool.or_comm] using hrx)⟩

end Sys2Proof.Proofs.MacLinkStates
end

section
/-! PROOF. What the operations of the device queues leave alone: the registers of the packet ports, and which ports a test
stalls (08 R204-R219; 20 R493). -/

set_option Elab.async false

namespace Sys2Proof.Proofs.QueueSteps

open Sys2Proof.Machine Sys2Proof.Laws Sys2Proof.Proofs.MacPorts

variable {s t u : State}

/-- From s to t only registers above the packet ports' have been written, and the same ports are stalled. -/
structure PortsApart (s t : State) : Prop where
  regs : OnlyRegs AboveMac s t
  stalled : t.test.stalled = s.test.stalled

namespace PortsApart

theorem refl (s : State) : PortsApart s s := ⟨OnlyRegs.refl _ s, rfl⟩
/-- An update that changes neither. -/
theorem upd {pending regs core long pat fab test img upd xp vl q eng comp flow aud mac ref time pair out fresh}
    (h : PortsApart s t) (hr : regs = t.regs) (ht : test.stalled = t.test.stalled) :
    PortsApart s (State.mk pending regs core long pat fab test img upd xp vl q eng comp flow aud mac ref time pair out fresh) :=
  ⟨h.regs.same hr, ht.trans h.stalled⟩
/-- A step that names no test facility and writes registers of the kind. -/
theorem step {w : List Area} (h : PortsApart s t) (hw : Within w t u) (hr : OnlyRegs AboveMac t u)
    (ht : Area.test ∉ w := by decide) : PortsApart s u :=
  ⟨h.regs.trans hr, (congrArg Test.stalled (hw.part .test ht)).trans h.stalled⟩
/-- A frame that names neither the registers nor the test facilities. -/
theorem within {w : List Area} (hw : Within w t u) (h : PortsApart s t) (hr : Area.regs ∉ w := by decide)
    (ht : Area.test ∉ w := by decide) : PortsApart s u := h.step hw ((OnlyRegs.refl _ t).same (hw.part .regs hr)) ht
theorem rsetN {a n : Nat} (h : PortsApart s t)
    (ha : 0x01000000 ≤ a := by (repeat refine aboveMac_add ?_); decide) : PortsApart s (rsetN t a n) :=
  ⟨h.regs.rsetN (.inr ha), h.stalled⟩
theorem fset {a v : Nat} {f : FieldRow} (h : PortsApart s t)
    (ha : 0x01000000 ≤ a := by (repeat refine aboveMac_add ?_); decide) : PortsApart s (fset t a f v) := h.rsetN ha
theorem count {a : Nat} (h : PortsApart s t)
    (ha : 0x01000000 ≤ a := by (repeat refine aboveMac_add ?_); decide) : PortsApart s (count t a) := h.rsetN ha
theorem ite {c : Prop} [Decidable c] (ht : PortsApart s t) (hu : PortsApart s u) : PortsApart s (if c then t else u) := by
  split <;> assumption
theorem foldl {α : Type} {g : State → α → State} {l : List α} (h : PortsApart s t)
    (hg : ∀ v x, PortsApart s v → PortsApart s (g v x)) : PortsApart s (l.foldl g t) := by
  induction l generalizing t with
  | nil => exact h
  | cons x l ih => exact ih (hg t x h)
theorem foldlSnd {α β : Type} {g : β × State → α → β × State} {l : List α} {r : β × State} (h : PortsApart s r.2)
    (hg : ∀ v x, PortsApart s v.2 → PortsApart s (g v x).2) : PortsApart s (l.foldl g r).2 := by
  induction l generalizing r with
  | nil => exact h
  | cons x l ih => exact ih (hg r x h)
theorem alarm {w : List Area} (h : PortsApart s t) (hw : Within w t u) (hr : OnlyRegs Alarm t u)
    (ht : Area.test ∉ w := by decide) : PortsApart s u := h.step hw (hr.mono fun _ => .inl) ht
theorem raise {n : Nat} {l : List Nat} (h : PortsApart s t) (hn : n < 1536 := by decide) : PortsApart s (raise n l t) :=
  h.alarm (raise_within ..) (raise_regs hn (OnlyRegs.refl _ t))
theorem logEvent {e : Nat} {l : List Nat} (h : PortsApart s t) : PortsApart s (logEvent e l t) :=
  h.alarm (logEvent_within ..) (logEvent_regs (OnlyRegs.refl _ t))
theorem freezeQ {q : Nat} (h : PortsApart s t) : PortsApart s (freezeQ q t) :=
  .alarm (.upd h rfl rfl) (condBegin_within ..) (condBegin_regs (by decide) (OnlyRegs.refl _ _))

/-! ### The checkers (08 R216-R219; 20 R493) -/

theorem refreshInj (h : PortsApart s t) : PortsApart s (refreshInj t) := by
  unfold Machine.refreshInj
  split <;> exact h.fset.fset
theorem injEnd {c : Nat} (h : PortsApart s t) : PortsApart s (injEnd c t) := by
  unfold Machine.injEnd
  split
  · exact h
  · exact .logEvent (.refreshInj (.upd h rfl rfl))
theorem observe {cls idx : Nat} (h : PortsApart s t) : PortsApart s (observe cls idx t).2 := by
  unfold Machine.observe
  split
  · exact h
  · split
    · exact .ite (.injEnd (.count (.refreshInj (.upd h rfl rfl)))) (.count (.refreshInj (.upd h rfl rfl)))
    · exact h
theorem eccCorr {q : Option Nat} (h : PortsApart s t) : PortsApart s (eccCorr q t) := by
  unfold Machine.eccCorr
  refine .raise ?_
  split
  · exact h.count.count
  · exact h.count
theorem eccUncorr {stack off : Nat} {sram : Bool} {q : Option Nat} (h : PortsApart s t) :
    PortsApart s (eccUncorr stack off sram q t) := h.count.rsetN.rsetN.raise
theorem wideCheck {cls idx stack off errs : Nat} {sram : Bool} {q : Option Nat} (h : PortsApart s t) :
    PortsApart s (wideCheck cls idx stack off errs sram q t).2 := by
  unfold Machine.wideCheck
  refine .foldlSnd h fun r i hr => ?_
  extract_lets c
  have hc : PortsApart s c.2 := hr.observe
  split
  · exact hc
  · split
    · exact hc.eccCorr
    · exact hc.eccUncorr
theorem sideCheck {w : Nat × Nat} {q : Option Nat} (h : PortsApart s t) : PortsApart s (sideCheck w q t).2 := by
  unfold Machine.sideCheck
  extract_lets c
  have hc : PortsApart s c.2 := h.observe
  split
  · exact hc
  · split
    · exact hc.eccCorr
    · exact hc.eccUncorr

/-! ### The descriptor and the words of a queue (08 R204, R205) -/

theorem touchQ {q : Nat} (h : PortsApart s t) : PortsApart s (touchQ q t) := by
  unfold Machine.touchQ
  extract_lets hot hit src u r
  have hu : PortsApart s u := .ite h (.upd h rfl rfl)
  have hr : PortsApart s r.2 := by
    simp only [r]
    split
    · exact .wideCheck (.upd hu rfl rfl)
    · exact .wideCheck (.count (.upd hu rfl rfl))
  exact .within (cycleEnd_within ..) (.ite hr.freezeQ hr)
theorem fetchCell {q j errs : Nat} {w : Nat × Nat} {cell : Option Nat} (h : PortsApart s t) :
    PortsApart s (fetchCell q j errs w cell t) := by
  unfold Machine.fetchCell
  extract_lets base r d
  have hr : PortsApart s r.2 := .foldlSnd h fun v i hv => hv.wideCheck
  exact .upd (.sideCheck hr) rfl rfl
theorem dataCheck {q k errs : Nat} (h : PortsApart s t) : PortsApart s (dataCheck q k errs t).2 := by
  unfold Machine.dataCheck
  extract_lets w v
  split
  · exact .wideCheck (.ite h.fetchCell (.ite (.upd h rfl rfl) h))
  · exact .sideCheck h.wideCheck
theorem syncCells {q : Nat} (h : PortsApart s t) : PortsApart s (syncCells q t) := .within (syncCells_within ..) h
theorem qOp {q : Nat} {f : Queue → Queue} (h : PortsApart s t) : PortsApart s (qOp q f t) :=
  .ite (.syncCells (.upd h.touchQ rfl rfl)) h
theorem queueWrite {q : Nat} {bs : List Nat} (h : PortsApart s t) : PortsApart s (queueWrite q bs t) := by
  unfold Machine.queueWrite
  extract_lets v part u
  exact .qOp (.ite h.wideCheck h)
theorem queueRead {q errs : Nat} (h : PortsApart s t) : PortsApart s (queueRead q errs t).2 := by
  unfold Machine.queueRead
  split
  · exact h
  · extract_lets u v c r
    split
    · exact h.touchQ
    · exact .upd h.touchQ.dataCheck rfl rfl

/-! ### Records (08 R209, R214) -/

theorem roomFor {kind q n : Nat} (h : PortsApart s t) : PortsApart s (roomFor kind q n t).2 := by
  unfold Machine.roomFor
  split
  · exact h.touchQ
  · exact h
theorem putRecord {q : Nat} {bs : List Nat} (h : PortsApart s t) : PortsApart s (putRecord q bs t) :=
  .qOp (.foldl h fun _ _ hv => hv.queueWrite)
theorem takeRecord {q : Nat} (h : PortsApart s t) : PortsApart s (takeRecord q t).2 := by
  unfold Machine.takeRecord
  split
  · exact h
  · extract_lets u v n r
    split
    · exact h.touchQ
    · exact .foldlSnd h.touchQ fun _ _ hv => hv.queueRead
theorem queueRelease {q : Nat} (h : PortsApart s t) : PortsApart s (queueRelease q t) := h.qOp

end PortsApart

end Sys2Proof.Proofs.QueueSteps
end

section
/-! PROOF. O28, the frames a port sends, the end of a PAUSE, discards, and the injection queue (06 R152, R157, R159, R164,
R165). -/

set_option Elab.async false

namespace Sys2Proof.Proofs.MacTransmit

open Sys2Proof.Machine Sys2Proof.Laws Sys2Proof.Proofs.MacPorts Sys2Proof.Proofs.QueueSteps

variable {s : State} {m : Nat}

/-! ### The end of a frame (R157, R165) -/

theorem leBytes_length (n v : Nat) : (leBytes n v).length = n := by
  induction n generalizing v with
  | zero => rfl
  | succ n ih => simp [leBytes, ih]
/-- Padded to 60 bytes, with four of FCS. -/
theorem wireFrame_length (bs : List Nat) : (wireFrame bs).length = max 60 bs.length + 4 := by
  simp only [wireFrame, List.length_append, List.length_replicate, leBytes_length]
  omega

/-- The frame has left, and is counted. -/
def frameSent (m : Nat) (f : TxFrame) (s : State) : State :=
  count64 (Reg.MAC_TX_BYTES_LO m) (Reg.MAC_TX_BYTES_HI m) (wireFrame f.bytes).length
    (count64 (Reg.MAC_TX_FRAMES_LO m) (Reg.MAC_TX_FRAMES_HI m) 1
      (emit (setMac m { macPort s m with cur := none } s) (.macFrame m (wireFrame f.bytes))))
/-- What follows it: the completion, EN, and the next frame. -/
def frameFollowed (m : Nat) (f : TxFrame) (ts : List Nat) (s : State) : State :=
  txStart m (macApplyEn m (match f.tsTag with | some t => tsComplete m t ts s | none => s))
theorem txEnd_eq {f : TxFrame} (h : (macPort s m).cur = some f) : txEnd m s = frameFollowed m f
    (bothStamps s m (wireFrame f.bytes).length (fget s (Reg.MAC_TS_TX_ADJ m) Fld.MAC_TS_TX_ADJ_ADJ)) (frameSent m f s) := by
  simp only [txEnd, h]
  rfl

theorem frameSent_out (m : Nat) (f : TxFrame) (hp : s.test.jtagPins = false) :
    (frameSent m f s).out = s.out ++ [.macFrame m (wireFrame f.bytes)] := emit_out_free _ _ hp
theorem frameSent_frames (m : Nat) (f : TxFrame) (s : State) :
    rget64 (frameSent m f s) (Reg.MAC_TX_FRAMES_LO m) (Reg.MAC_TX_FRAMES_HI m) =
      (rget64 s (Reg.MAC_TX_FRAMES_LO m) (Reg.MAC_TX_FRAMES_HI m) + 1) % 2 ^ 64 := by
  have hsent : rget64 (emit (setMac m { macPort s m with cur := none } s) (.macFrame m (wireFrame f.bytes)))
      (Reg.MAC_TX_FRAMES_LO m) (Reg.MAC_TX_FRAMES_HI m) = _ := rget64_congr (emit_regs ..) ..
  exact (rget64_count64_port ..).trans ((rget64_count64 _ _ port_ne).trans (congrArg (fun n => (n + 1) % 2 ^ 64) hsent))
theorem frameSent_bytes (m : Nat) (f : TxFrame) (s : State) :
    rget64 (frameSent m f s) (Reg.MAC_TX_BYTES_LO m) (Reg.MAC_TX_BYTES_HI m) =
      (rget64 s (Reg.MAC_TX_BYTES_LO m) (Reg.MAC_TX_BYTES_HI m) + max 60 f.bytes.length + 4) % 2 ^ 64 := by
  have hsent : rget64 (emit (setMac m { macPort s m with cur := none } s) (.macFrame m (wireFrame f.bytes)))
      (Reg.MAC_TX_BYTES_LO m) (Reg.MAC_TX_BYTES_HI m) = _ := rget64_congr (emit_regs ..) ..
  refine (rget64_count64 _ _ port_ne).trans ?_
  rw [Nat.add_assoc, ← wireFrame_length]
  exact congrArg (fun n => (n + (wireFrame f.bytes).length) % 2 ^ 64) ((rget64_count64_port ..).trans hsent)

/-- The registers of the port that what follows a frame may write. -/
abbrev followRegs : List Nat := Reg.MAC_TS_DROP 0 :: linkRegs
theorem tsComplete_regs (m tag : Nat) (ts : List Nat) (s : State) :
    OnlyRegs (PortReg m followRegs) s (tsComplete m tag ts s) := by
  unfold tsComplete
  extract_lets r q c
  have hc : PortsApart s c.2 := by
    simp only [c]
    split
    · exact .roomFor (.refl s)
    · exact .refl s
  split
  · exact onlyRegs_port hc.putRecord.regs
  · exact (onlyRegs_port hc.regs).count port_own
theorem frameFollowed_regs (m : Nat) (f : TxFrame) (ts : List Nat) (s : State) :
    OnlyRegs (PortReg m followRegs) s (frameFollowed m f ts s) := by
  have hen (u : State) : OnlyRegs (PortReg m followRegs) u (txStart m (macApplyEn m u)) :=
    ((macApplyEn_regs m u).mono fun a ha => ha.imp_right fun ⟨k, hk, h⟩ => ⟨k, List.mem_cons_of_mem _ hk, h⟩).trans
      (onlyRegs_port (txStart_above _ _))
  unfold frameFollowed
  split
  · exact (tsComplete_regs _ _ _ _).trans (hen _)
  · exact hen s
theorem frameFollowed_out (m : Nat) (f : TxFrame) (ts : List Nat) (s : State) : s.out <+: (frameFollowed m f ts s).out := by
  have hen (u : State) : u.out <+: (txStart m (macApplyEn m u)).out :=
    (macApplyEn_within m u).out.trans (txStart_within m _).out
  unfold frameFollowed
  split
  · exact (tsComplete_within ..).out.trans (hen _)
  · exact hen s

theorem txEnd_spec {f : TxFrame} (hm : m < 64) (h : (macPort s m).cur = some f) : let t := txEnd m s
    (s.test.jtagPins = false → s.out ++ [.macFrame m (wireFrame f.bytes)] <+: t.out) ∧
      rget64 t (Reg.MAC_TX_FRAMES_LO m) (Reg.MAC_TX_FRAMES_HI m) =
        (rget64 s (Reg.MAC_TX_FRAMES_LO m) (Reg.MAC_TX_FRAMES_HI m) + 1) % 2 ^ 64 ∧
      rget64 t (Reg.MAC_TX_BYTES_LO m) (Reg.MAC_TX_BYTES_HI m) =
        (rget64 s (Reg.MAC_TX_BYTES_LO m) (Reg.MAC_TX_BYTES_HI m) + max 60 f.bytes.length + 4) % 2 ^ 64 := by
  intro t
  rw [show t = _ from txEnd_eq h]
  have hkept := frameFollowed_regs m f
    (bothStamps s m (wireFrame f.bytes).length (fget s (Reg.MAC_TS_TX_ADJ m) Fld.MAC_TS_TX_ADJ_ADJ)) (frameSent m f s)
  refine ⟨fun hp => frameSent_out m f hp ▸ frameFollowed_out .., ?_, ?_⟩
  · exact (rget64_kept hkept (port_apart hm) (port_apart hm)).trans (frameSent_frames ..)
  · exact (rget64_kept hkept (port_apart hm) (port_apart hm)).trans (frameSent_bytes ..)

/-! ### The end of a PAUSE, and a discard (R152, R159) -/

theorem pauseEnd_spec (hm : m < 64) (s : State) : let t := txStart m (pauseClear m s)
    fbit t (Reg.MAC_STAT m) Fld.MAC_STAT_PAUSED = false ∧ rgetN t (Reg.MAC_PAUSE_STAT m) = 0 ∧
      macState t m = macState s m := by
  obtain ⟨hpaused, hleft, hstate⟩ := pauseClear_spec m s
  have hkept := txStart_above m (pauseClear m s)
  exact ⟨(hkept.bit (port_notAbove hm) _).trans hpaused, (hkept.num (port_notAbove hm)).trans hleft,
    (macState_kept hkept (port_notAbove hm)).trans hstate⟩

theorem txDiscard_spec {i : Nat} {f : TxFrame} {fs : List TxFrame} (hst : macState s m ≠ 3) (htop : txTop s m = some i)
    (hq : txQueue s m i = f :: fs) (hw : (macPort s m).waiting = []) : let t := txDiscard m s
    txQueue t m i = fs ∧ (∀ j, j ≠ i → txQueue t m j = txQueue s m j) ∧
      rgetN t (Reg.MAC_TX_DISCARD m) = min 0xFFFFFFFF (rgetN s (Reg.MAC_TX_DISCARD m) + 1) ∧
      RegsWithin [Reg.MAC_TX_DISCARD m] s t := by
  intro t
  have ht : t = _ := (if_neg fun h => hst h.1).trans (dropTop_head htop hq hw)
  have hqueue (j : Nat) : txQueue t m j = if j = i then fs else txQueue s m j := by
    rw [ht, txQueue_congr (count_mac ..), txQueue_setMac]
    rfl
  refine ⟨(hqueue i).trans (if_pos rfl), fun j hj => (hqueue j).trans (if_neg hj), ?_, ?_⟩
  · rw [ht, rgetN_count_same]
    rfl
  · rw [ht]
    exact ((OnlyRegs.refl _ s).same rfl).count (by simp)

/-! ### The injection reader (R164) -/

/-- The queue from which port m injects. -/
abbrev injQueue (s : State) (m : Nat) : Nat := fget s (Reg.MAC_INJ_Q m) Fld.MAC_INJ_Q_Q
/-- The record has been taken and released. -/
def recordGone (m : Nat) (s : State) : State := queueRelease (injQueue s m) (takeRecord (injQueue s m) s).2
theorem recordGone_apart (m : Nat) (s : State) : PortsApart s (recordGone m s) := .queueRelease (.takeRecord (.refl s))
theorem recordGone_mac (m : Nat) (s : State) : (recordGone m s).mac = s.mac :=
  ((queueRelease_within ..).part .mac (by decide)).trans ((takeRecord_within ..).part .mac (by decide))

/-- LEN of a record, the queue its class is sent by, and whether the reader releases it unsent. -/
abbrev recLen (bs : List Nat) : Nat := leNat (bs.take 4) % 2 ^ 14
abbrev recQueue (s : State) (m : Nat) (bs : List Nat) : Nat := txClass s m (b2n (bitOf 14 (leNat (bs.take 4))))
abbrev recFrame (bs : List Nat) : TxFrame :=
  ⟨bs.drop 16, if bitOf 15 (leNat (bs.take 4)) then some (leNat (bs.take 4) / 65536) else none⟩

/-- The frame stands behind the queue i. -/
abbrev queuedFrame (m i : Nat) (f : TxFrame) (s : State) : State :=
  setMac m { macPort s m with txq := cset [] (macPort s m).txq i (txQueue s m i ++ [f]) } s
theorem txPlace_idle {i : Nat} {f : TxFrame} (h : txReady (queuedFrame m i f s) m = false) :
    txPlace m i f s = queuedFrame m i f s := txStart_idle h
/-- Whether the transmitter may start a frame: of the same status, with the same frame in transmission. -/
theorem txReady_apart {t : State} (hm : m < 64) (h : PortsApart s t) (hshut : (macPort t m).txShut = (macPort s m).txShut)
    (hcur : (macPort t m).cur = (macPort s m).cur) : txReady t m = txReady s m := by
  have hbit (f : FieldRow) : fbit t (Reg.MAC_STAT m) f = fbit s (Reg.MAC_STAT m) f := h.regs.bit (port_notAbove hm) f
  have hstate : macState t m = macState s m := macState_kept h.regs (port_notAbove hm)
  rw [txReady, txReady, inCast_kept h.regs mode_notAbove, hshut, hcur, hstate, hbit, hbit, h.stalled]

section Reader

variable {bs : List Nat} {bad : Bool}
variable (hf : portFormed s.img m = true) (hin : inService s = true)
  (hen : fbit s (Reg.MAC_INJ_Q m) Fld.MAC_INJ_Q_EN = true) (hrec : (takeRecord (injQueue s m) s).1 = some (bs, bad))
include hf hin hen hrec

theorem injectRecord_eq : injectRecord m s =
    if bad || recLen bs < 14 || 9596 < recLen bs || bs.length ≠ 16 + recLen bs then
      count (recordGone m s) (Reg.MAC_INJ_BAD m)
    else if !txRoom s m (recQueue s m bs) then s
    else txPlace m (recQueue s m bs) (recFrame bs) (recordGone m s) := by
  have htaken : takeRecord (injQueue s m) s = (some (bs, bad), (takeRecord (injQueue s m) s).2) := Prod.ext hrec rfl
  have hnot : ¬ (!portFormed s.img m || !inService s || !fbit s (Reg.MAC_INJ_Q m) Fld.MAC_INJ_Q_EN) = true := by
    simp [hf, hin, hen]
  unfold injectRecord
  extract_lets r q
  rw [if_neg hnot, show takeRecord q s = _ from htaken]
  rfl

theorem injectRecord_bad (hm : m < 64)
    (h : bad = true ∨ recLen bs < 14 ∨ 9596 < recLen bs ∨ bs.length ≠ 16 + recLen bs) : let t := injectRecord m s
    rgetN t (Reg.MAC_INJ_BAD m) = min 0xFFFFFFFF (rgetN s (Reg.MAC_INJ_BAD m) + 1) ∧ t.mac = s.mac := by
  intro t
  have ht : t = count (recordGone m s) (Reg.MAC_INJ_BAD m) :=
    (injectRecord_eq hf hin hen hrec).trans (if_pos (by simpa [or_assoc] using h))
  have hkept : rgetN (recordGone m s) (Reg.MAC_INJ_BAD m) = rgetN s (Reg.MAC_INJ_BAD m) :=
    (recordGone_apart m s).regs.num (port_notAbove hm)
  rw [ht, rgetN_count_same, hkept]
  exact ⟨rfl, (count_mac ..).trans (recordGone_mac m s)⟩

theorem injectRecord_good (hm : m < 64) (hbad : bad = false) (hlo : 14 ≤ recLen bs) (hhi : recLen bs ≤ 9596)
    (hlen : bs.length = 16 + recLen bs) (hroom : txRoom s m (recQueue s m bs) = true) (hready : txReady s m = false) :
    let t := injectRecord m s
    let i := recQueue s m bs
    txQueue t m i = txQueue s m i ++ [recFrame bs] ∧ ∀ j, j ≠ i → txQueue t m j = txQueue s m j := by
  intro t i
  have hfits : ¬ (bad || recLen bs < 14 || 9596 < recLen bs || bs.length ≠ 16 + recLen bs) = true := by
    simp [hbad, hlo, hhi, hlen]
  have hplaced : t = txPlace m i (recFrame bs) (recordGone m s) := by
    rw [show t = _ from injectRecord_eq hf hin hen hrec, if_neg hfits, if_neg (by simp [hroom])]
  have hmac := recordGone_mac m s
  have hidle : txReady (queuedFrame m i (recFrame bs) (recordGone m s)) m = false := by
    rw [txReady_apart hm (t := queuedFrame m i (recFrame bs) (recordGone m s)) ((recordGone_apart m s).upd rfl rfl)]
    · exact hready
    · rw [queuedFrame, macPort_setMac_same, macPort_congr hmac]
    · rw [queuedFrame, macPort_setMac_same, macPort_congr hmac]
  have hqueue (j : Nat) : txQueue t m j = if j = i then txQueue s m i ++ [recFrame bs] else txQueue s m j := by
    rw [hplaced, txPlace_idle hidle, queuedFrame, txQueue_setMac, txQueue_congr hmac, macPort_congr hmac]
    rfl
  exact ⟨(hqueue i).trans (if_pos rfl), fun j hj => (hqueue j).trans (if_neg hj)⟩

end Reader

/-! ### O28 -/

/-- Settles O28: the end of a frame by `txEnd_spec`, where what follows it leaves the counts alone; PAUSE by
`pauseEnd_spec`, a discard by `txDiscard_spec`, the injection reader by `injectRecord_bad` and `injectRecord_good`. -/
theorem macTransmitAndInjection : Obligations.MacTransmitAndInjection := by
  unfold Obligations.MacTransmitAndInjection
  refine ⟨fun m s => ⟨fun f hcur => ⟨_, rfl, txEnd_spec m.isLt hcur⟩, ⟨_, rfl, pauseEnd_spec m.isLt s⟩,
      fun i f fs hst htop hq hw => ⟨_, rfl, txDiscard_spec hst htop hq hw⟩⟩,
    fun m bs bad s hf hin hen hrec _ => ⟨fun h => ⟨_, rfl, injectRecord_bad hf hin hen hrec m.isLt h⟩,
      fun hbad hlo hhi hlen hroom hready => ?_⟩⟩
  obtain ⟨hplaced, hothers⟩ := injectRecord_good hf hin hen hrec m.isLt hbad hlo hhi hlen hroom hready
  exact ⟨_, rfl, recFrame bs, hplaced, rfl, rfl, hothers⟩

end Sys2Proof.Proofs.MacTransmit
end

section
/-! PROOF. O29, the outcome of a received frame: the rows of Table 6.5, the codewords, PAUSE, and the exception records (06
R153-R155, R158, R163, R166). -/

set_option Elab.async false

namespace Sys2Proof.Proofs.MacReceive

open Sys2Proof.Machine Sys2Proof.Laws Sys2Proof.Proofs.MacPorts Sys2Proof.Proofs.QueueSteps
  Sys2Proof.Proofs.ReceiverStream

variable {s t u v : State} {m : Nat} {bs : List Nat} {claim : List Nat → State → Option State}

/-! ### Codewords (R166) -/

/-- A codeword that cannot be corrected is counted and raised. -/
abbrev uncorrSeen (m : Nat) (s : State) : State := raise Src.macFecUncorr [m] (count s (Reg.MAC_FEC_UNCORR m))
/-- The codewords of a stretch, with what the consumers have drained before it. -/
def fecSeen (m drained corr uncorr : Nat) (s : State) : State := fecCount m corr uncorr (rxDrain m drained s)

theorem uncorrSeen_num (hm : m < 64) (s : State) :
    rgetN (uncorrSeen m s) (Reg.MAC_FEC_UNCORR m) = min 0xFFFFFFFF (rgetN s (Reg.MAC_FEC_UNCORR m) + 1) :=
  ((raise_above (by decide) _ _).num (port_notAbove hm)).trans (rgetN_count_same ..)
theorem foldl_uncorrSeen (hm : m < 64) {n : Nat} (l : List Nat) (hs : rgetN s (Reg.MAC_FEC_UNCORR m) = min 0xFFFFFFFF n) :
    rgetN (l.foldl (fun s _ => uncorrSeen m s) s) (Reg.MAC_FEC_UNCORR m) = min 0xFFFFFFFF (n + l.length) := by
  induction l generalizing s n with
  | nil => exact hs
  | cons x l ih =>
    have hone : rgetN (uncorrSeen m s) (Reg.MAC_FEC_UNCORR m) = min 0xFFFFFFFF (n + 1) := by
      rw [uncorrSeen_num hm, hs]
      omega
    rw [List.foldl_cons, ih hone, List.length_cons]
    omega
theorem uncorrSeen_reported (l : List Nat) (s : State) :
    RegsReported (Reg.MAC_FEC_UNCORR m :: l) s (uncorrSeen m s) :=
  ((OnlyRegs.refl _ s).count (.inr List.mem_cons_self)).trans ((raise_regs (by decide) (OnlyRegs.refl _ _)).mono fun _ => .inl)
theorem fecSeen_reported (m drained corr n : Nat) (s : State) :
    RegsReported [Reg.MAC_FEC_CORR m, Reg.MAC_FEC_UNCORR m] s (fecSeen m drained corr n s) := by
  have hcorr : RegsReported [Reg.MAC_FEC_CORR m, Reg.MAC_FEC_UNCORR m] s
      (countN (rxDrain m drained s) (Reg.MAC_FEC_CORR m) corr) := ((OnlyRegs.refl _ s).same rfl).countN (by simp)
  exact OnlyRegs.foldl hcorr fun w _ hw => hw.trans ((uncorrSeen_reported [] w).mono fun a ha => by
    simp only [List.mem_cons, List.not_mem_nil, or_false] at ha ⊢
    tauto)
/-- Nothing but the counts of codewords among the port's registers. -/
theorem fecSeen_regs (m drained corr n : Nat) (s : State) :
    OnlyRegs (PortReg m [Reg.MAC_FEC_CORR 0, Reg.MAC_FEC_UNCORR 0]) s (fecSeen m drained corr n s) := by
  refine (fecSeen_reported m drained corr n s).mono fun a ha => ?_
  simp only [List.mem_cons, List.not_mem_nil, or_false] at ha
  rcases ha with ha | rfl | rfl
  · exact .inl (.inl ha)
  · exact port_own
  · exact port_own
theorem fecSeen_counts (hm : m < 64) (drained corr n : Nat) (s : State) :
    rgetN (fecSeen m drained corr n s) (Reg.MAC_FEC_CORR m) = min 0xFFFFFFFF (rgetN s (Reg.MAC_FEC_CORR m) + corr) ∧
      rgetN (fecSeen m drained corr n s) (Reg.MAC_FEC_UNCORR m) = min 0xFFFFFFFF (rgetN s (Reg.MAC_FEC_UNCORR m) + n) := by
  have hraised (w : State) : OnlyRegs (PortReg m [Reg.MAC_FEC_UNCORR 0]) w
      ((List.range n).foldl (fun s _ => uncorrSeen m s) w) :=
    OnlyRegs.foldl (OnlyRegs.refl _ w) fun x _ hx => (hx.count port_own).trans (onlyRegs_port (raise_above (by decide) _ _))
  refine ⟨((hraised _).num (port_apart hm)).trans (rgetN_countN_same ..), ?_⟩
  have hstart : rgetN (countN (rxDrain m drained s) (Reg.MAC_FEC_CORR m) corr) (Reg.MAC_FEC_UNCORR m) =
      min 0xFFFFFFFF (rgetN s (Reg.MAC_FEC_UNCORR m)) := by
    have hlt := rgetN_lt s (Reg.MAC_FEC_UNCORR m)
    exact (rgetN_countN_ne _ _ port_ne).trans (Nat.min_eq_right (Nat.le_of_lt_succ hlt)).symm
  exact (foldl_uncorrSeen hm (List.range n) hstart).trans (by rw [List.length_range])
theorem fecSeen_within (m drained corr n : Nat) (s : State) :
    Within [.regs, .core, .pat] (rxDrain m drained s) (fecSeen m drained corr n s) := fecCount_within ..
/-- What the codewords leave of the port, the queues, the flows and the test facilities. -/
theorem fecSeen_same (m drained corr n : Nat) (s : State) : let w := fecSeen m drained corr n s
    w.mac = (rxDrain m drained s).mac ∧ w.q = s.q ∧ w.flow = s.flow ∧ w.test = s.test ∧ w.img = s.img := by
  have hw := fecSeen_within m drained corr n s
  exact ⟨hw.part .mac (by decide), hw.part .q (by decide), hw.part .flow (by decide), hw.part .test (by decide),
    hw.part .img (by decide)⟩

/-! ### A frame that reaches Table 6.5 (R153, R154) -/

/-- Port m is UP and takes frames; no change of EN waits for one, no cast pauses the port, no injection is armed. -/
structure Receives (s : State) (m : Nat) : Prop where
  formed : portFormed s.img m = true
  up : macState s m = 3
  opened : (macPort s m).rxShut = false
  noLast : (macPort s m).rxLast = false
  noCast : inCast s = false
  noInj : s.test.inj = none

theorem rxBoundary_none (h : (macPort s m).rxLast = false) : rxBoundary m s = s := if_pos (by rw [h]; rfl)
theorem rxDrain_port (m n : Nat) (s : State) :
    macPort (rxDrain m n s) m = { macPort s m with rxBuf := (macPort s m).rxBuf - n } := macPort_setMac_same ..

theorem fecSeen_port (m drained corr n : Nat) (s : State) :
    macPort (fecSeen m drained corr n s) m = { macPort s m with rxBuf := (macPort s m).rxBuf - drained } :=
  (macPort_congr (fecSeen_same m drained corr n s).1 m).trans (rxDrain_port ..)

namespace Receives

/-- The port is open to what arrives. -/
theorem isOpen (h : Receives s m) (drained : Nat) :
    ¬ (decide (macState (rxDrain m drained s) m = 0) || (macPort (rxDrain m drained s) m).rxShut) = true := by
  rw [rxDrain_port, rxDrain, macState_setMac, h.up, h.opened]
  decide
/-- A stretch without a byte counts its codewords alone. -/
theorem rxFrame_none (h : Receives s m) (drained : Nat) (pcsErr : Bool) (corr n : Nat) :
    rxFrame claim m [] drained pcsErr corr n s = fecSeen m drained corr n s := by
  unfold rxFrame
  rw [if_neg (by simp [h.formed])]
  exact (if_neg (h.isOpen drained)).trans (if_pos rfl)
/-- A frame takes its outcome behind its codewords. -/
theorem rxFrame_eq (h : Receives s m) (hbs : bs ≠ []) (drained : Nat) (pcsErr : Bool) (corr n : Nat) :
    rxFrame claim m bs drained pcsErr corr n s = rxBoundary m (rxOutcome claim m bs
      (decide (rxShare s.img m < (macPort s m).rxBuf - drained + bs.length)) (pcsErr || n != 0)
      (fecSeen m drained corr n s)) := by
  have hcounts : ¬ (bs.isEmpty || !(macState (rxDrain m drained s) m == 3) && !pcsErr) = true := by
    rw [rxDrain, macState_setMac, h.up]
    simpa using hbs
  have hcast : ¬ inCast (fecSeen m drained corr n s) = true := by
    rw [inCast_kept (fecSeen_regs m drained corr n s) mode_notPort, h.noCast]
    decide
  obtain ⟨-, -, -, -, himg⟩ := fecSeen_same m drained corr n s
  have hbuf : (macPort (fecSeen m drained corr n s) m).rxBuf = (macPort s m).rxBuf - drained := by rw [fecSeen_port]
  unfold rxFrame
  rw [if_neg (by simp [h.formed]), ← himg, ← hbuf]
  exact (if_neg (h.isOpen drained)).trans ((if_neg hcounts).trans (if_neg hcast))

end Receives

/-! ### The rows of Table 6.5 (R154, R155) -/

/-- Rows 6 to 10, of a frame that the port takes. -/
def rxAccepted (claim : List Nat → State → Option State) (m : Nat) (bs : List Nat) (s : State) : State :=
  if isPause s m bs then pauseSeen m (be16 bs 16) s
  else if etherType bs = 0x8808 then count s (Reg.MAC_RX_CTRL_OTHER m)
  else if isPtp bs then excRecord m true bs (rxHanded m bs.length s)
  else match claim bs (rxHanded m bs.length s) with
    | some s => s
    | none => excRecord m false bs (rxHanded m bs.length s)

section Rows

variable {lost bad : Bool} (hinj : v.test.inj = none)
include hinj

theorem rxOutcome_lost : rxOutcome claim m bs true bad v =
    raise Src.macRxOverflow [m] (count v (Reg.MAC_RX_OVERFLOW m)) := by
  simp only [rxOutcome, crcObserved_none hinj, if_true]
theorem rxOutcome_damaged (h : fcsOk 0 bs = false ∨ bad = true) :
    rxOutcome claim m bs false bad v = count v (Reg.MAC_RX_FCS_ERR m) := by
  have hbad : (!(!bad && fcsOk 0 bs)) = true := by rcases h with h | h <;> simp [h]
  simp only [rxOutcome, crcObserved_none hinj, hbad, if_true, if_false, Bool.false_eq_true]

variable (hfcs : fcsOk 0 bs = true)
include hfcs

theorem rxOutcome_short (h : bs.length < 64) : rxOutcome claim m bs false false v = count v (Reg.MAC_RX_RUNT m) := by
  simp [rxOutcome, crcObserved_none hinj, hfcs, h]
/-- A good frame of 64 bytes at least: its length and tags, then its address. -/
theorem rxOutcome_whole (h : 64 ≤ bs.length) : rxOutcome claim m bs false false v =
    if 9600 < bs.length ∨ (frameTagged bs && isTag bs 16) = true then count v (Reg.MAC_RX_OVERSIZE m)
    else if (daUnicast bs && bs.take 6 != macAddr v m && !fbit v (Reg.MAC_CTRL m) Fld.MAC_CTRL_PROMISC) = true then
      count v (Reg.MAC_RX_DA_DROP m)
    else rxAccepted claim m bs v := by
  simp only [rxOutcome, crcObserved_none hinj, hfcs, Nat.not_lt.2 h, if_false, Bool.false_eq_true, Bool.not_false,
    Bool.and_self, Bool.not_true]
  rfl

end Rows

/-! ### A frame that leaves a count (rows 1 to 5 and 7) -/

/-- The frame has gone and left a count at a, beside its codewords. -/
abbrev Counted (m drained a : Nat) (s t : State) : Prop :=
  rgetN t a = min 0xFFFFFFFF (rgetN s a + 1) ∧ t.mac = (rxDrain m drained s).mac ∧ t.q = s.q ∧ t.flow = s.flow ∧
    RegsReported [a, Reg.MAC_FEC_CORR m, Reg.MAC_FEC_UNCORR m] s t

theorem counted_fecSeen {a k : Nat} (hm : m < 64) (drained corr n : Nat) (s : State) (ha : a = k + 0x1000 * m := by rfl)
    (hk : (0x00C00000 ≤ k ∧ k < 0x00C01000) ∧ k ∉ [Reg.MAC_FEC_CORR 0, Reg.MAC_FEC_UNCORR 0] := by decide) :
    Counted m drained a s (count (fecSeen m drained corr n s) a) := by
  obtain ⟨hmac, hq, hflow, -, -⟩ := fecSeen_same m drained corr n s
  refine ⟨?_, hmac, hq, hflow, OnlyRegs.count ((fecSeen_reported m drained corr n s).mono fun b hb => ?_) (by simp)⟩
  · rw [rgetN_count_same, (fecSeen_regs m drained corr n s).num (port_apart hm ha hk)]
  · exact hb.imp_right (List.mem_cons_of_mem _)
theorem Counted.raise {a k n drained : Nat} {l : List Nat} (hm : m < 64) (hn : n < 1536) (h : Counted m drained a s t)
    (ha : a = k + 0x1000 * m := by rfl) (hk : 0x00C00000 ≤ k ∧ k < 0x00C01000 := by decide) :
    Counted m drained a s (raise n l t) := by
  obtain ⟨hcount, hmac, hq, hflow, hregs⟩ := h
  have hw := raise_within n l t
  exact ⟨((raise_above hn l t).num (port_notAbove hm ha hk)).trans hcount, (hw.part .mac (by decide)).trans hmac,
    (hw.part .q (by decide)).trans hq, (hw.part .flow (by decide)).trans hflow,
    hregs.trans ((raise_regs hn (OnlyRegs.refl _ t)).mono fun _ => .inl)⟩

namespace Receives

/-- No change of EN waits for the end of this frame. -/
theorem counted_boundary {a drained : Nat} (h : Receives s m) (hc : Counted m drained a s t) :
    Counted m drained a s (rxBoundary m t) := by
  rwa [rxBoundary_none]
  rw [macPort_congr hc.2.1, rxDrain_port]
  exact h.noLast
theorem seen_noInj (h : Receives s m) (drained corr n : Nat) : (fecSeen m drained corr n s).test.inj = none := by
  rw [(fecSeen_same m drained corr n s).2.2.2.1]
  exact h.noInj

end Receives
theorem ne_nil_of_fcsOk {mask : Nat} (h : fcsOk mask bs = true) : bs ≠ [] := by
  rintro rfl
  simp [fcsOk] at h

/-- The frame is neither lost nor damaged. -/
theorem Receives.rxFrame_good {drained : Nat} (h : Receives s m)
    (hfits : (macPort s m).rxBuf - drained + bs.length ≤ rxShare s.img m) (hfcs : fcsOk 0 bs = true) (corr : Nat) :
    rxFrame claim m bs drained false corr 0 s =
      rxBoundary m (rxOutcome claim m bs false false (fecSeen m drained corr 0 s)) := by
  rw [h.rxFrame_eq (ne_nil_of_fcsOk hfcs), decide_eq_false (by omega)]
  rfl

section Frame

variable {drained corr n : Nat} {pcsErr : Bool} (hm : m < 64) (h : Receives s m)
include hm h

/-- Row 1. -/
theorem counted_lost (hbs : bs ≠ []) (hlost : ¬ (macPort s m).rxBuf - drained + bs.length ≤ rxShare s.img m) :
    Counted m drained (Reg.MAC_RX_OVERFLOW m) s (rxFrame claim m bs drained pcsErr corr n s) := by
  rw [h.rxFrame_eq hbs, decide_eq_true (by omega), rxOutcome_lost (h.seen_noInj ..)]
  exact h.counted_boundary ((counted_fecSeen hm ..).raise hm (by decide))

variable (hfits : (macPort s m).rxBuf - drained + bs.length ≤ rxShare s.img m)
include hfits

/-- Row 2. -/
theorem counted_damaged (hbs : bs ≠ []) (hbad : fcsOk 0 bs = false ∨ pcsErr = true ∨ n ≠ 0) :
    Counted m drained (Reg.MAC_RX_FCS_ERR m) s (rxFrame claim m bs drained pcsErr corr n s) := by
  rw [h.rxFrame_eq hbs, decide_eq_false (by omega), rxOutcome_damaged (h.seen_noInj ..) (by simpa using hbad)]
  exact h.counted_boundary (counted_fecSeen hm ..)

variable (hfcs : fcsOk 0 bs = true)
include hfcs

/-- Row 3. -/
theorem counted_short (hlen : bs.length < 64) :
    Counted m drained (Reg.MAC_RX_RUNT m) s (rxFrame claim m bs drained false corr 0 s) := by
  rw [h.rxFrame_good hfits hfcs, rxOutcome_short (h.seen_noInj ..) hfcs hlen]
  exact h.counted_boundary (counted_fecSeen hm ..)
/-- Row 4. -/
theorem counted_long (h64 : 64 ≤ bs.length) (hlong : 9600 < bs.length ∨ (frameTagged bs && isTag bs 16) = true) :
    Counted m drained (Reg.MAC_RX_OVERSIZE m) s (rxFrame claim m bs drained false corr 0 s) := by
  rw [h.rxFrame_good hfits hfcs, rxOutcome_whole (h.seen_noInj ..) hfcs h64, if_pos hlong]
  exact h.counted_boundary (counted_fecSeen hm ..)

end Frame

/-! ### A sound frame, by its address (rows 5 to 10) -/

/-- A good frame of a legal length and at most one tag that finds room. -/
abbrev Sound (s : State) (m drained : Nat) (bs : List Nat) : Prop :=
  fcsOk 0 bs = true ∧ 64 ≤ bs.length ∧ bs.length ≤ 9600 ∧ (frameTagged bs && isTag bs 16) = false ∧
    (macPort s m).rxBuf - drained + bs.length ≤ rxShare s.img m
/-- The port takes the address. -/
abbrev Ours (s : State) (m : Nat) (bs : List Nat) : Prop :=
  daUnicast bs = false ∨ bs.take 6 = macAddr s m ∨ fbit s (Reg.MAC_CTRL m) Fld.MAC_CTRL_PROMISC = true

theorem macAddr_fecSeen (hm : m < 64) (drained corr n : Nat) (s : State) :
    macAddr (fecSeen m drained corr n s) m = macAddr s m := by
  have hlo := (fecSeen_regs m drained corr n s).num (a := Reg.MAC_ADDR_LO m) (port_apart hm)
  have hhi := (fecSeen_regs m drained corr n s).num (a := Reg.MAC_ADDR_HI m) (port_apart hm)
  rw [macAddr, macAddr, hlo, hhi]
theorem isPause_fecSeen (hm : m < 64) (drained corr n : Nat) (s : State) (bs : List Nat) :
    isPause (fecSeen m drained corr n s) m bs = isPause s m bs := by
  rw [isPause, isPause, macAddr_fecSeen hm]

section Sound

variable {drained corr : Nat} (hm : m < 64) (h : Receives s m) (hsound : Sound s m drained bs)
include hm h hsound

theorem rxFrame_sound : rxFrame claim m bs drained false corr 0 s = rxBoundary m
    (if Ours s m bs then rxAccepted claim m bs (fecSeen m drained corr 0 s)
     else count (fecSeen m drained corr 0 s) (Reg.MAC_RX_DA_DROP m)) := by
  obtain ⟨hfcs, h64, h9600, htag, hfits⟩ := hsound
  have hpromisc : fbit (fecSeen m drained corr 0 s) (Reg.MAC_CTRL m) Fld.MAC_CTRL_PROMISC =
      fbit s (Reg.MAC_CTRL m) Fld.MAC_CTRL_PROMISC := 
    (fecSeen_regs m drained corr 0 s).bit (port_apart hm) _
  rw [h.rxFrame_good hfits hfcs, rxOutcome_whole (h.seen_noInj ..) hfcs h64, if_neg (by simp [htag]; omega),
    macAddr_fecSeen hm, hpromisc]
  congr 1
  by_cases hours : Ours s m bs
  · rw [if_pos hours, if_neg]
    rcases hours with hda | hda | hda <;> simp [hda]
  · rw [if_neg hours, if_pos]
    simpa [Ours, and_assoc] using hours

/-- Row 5. -/
theorem counted_others (hours : ¬ Ours s m bs) :
    Counted m drained (Reg.MAC_RX_DA_DROP m) s (rxFrame claim m bs drained false corr 0 s) := by
  rw [rxFrame_sound hm h hsound, if_neg hours]
  exact h.counted_boundary (counted_fecSeen hm ..)
/-- Row 7. -/
theorem counted_control (hours : Ours s m bs) (hpause : isPause s m bs = false) (htype : etherType bs = 0x8808) :
    Counted m drained (Reg.MAC_RX_CTRL_OTHER m) s (rxFrame claim m bs drained false corr 0 s) := by
  rw [rxFrame_sound hm h hsound, if_pos hours, rxAccepted, isPause_fecSeen hm, hpause, if_neg Bool.false_ne_true,
    if_pos htype]
  exact h.counted_boundary (counted_fecSeen hm ..)

end Sound

/-! ### PAUSE (row 6; R158, R159) -/

/-- The PAUSE timer is loaded with q quanta. -/
def pauseLoaded (m q : Nat) (s : State) : State :=
  fset (fset (macStat m Fld.MAC_STAT_PAUSED 1 s) (Reg.MAC_PAUSE_STAT m) Fld.MAC_PAUSE_STAT_PAUSED 1) (Reg.MAC_PAUSE_STAT m)
    Fld.MAC_PAUSE_STAT_REMAIN q
theorem pauseSeen_loads {q : Nat} (hen : fbit s (Reg.MAC_CTRL m) Fld.MAC_CTRL_PAUSE_EN = true) (hq : q ≠ 0) :
    pauseSeen m q s = pauseLoaded m q (count s (Reg.MAC_RX_PAUSE m)) := by
  have hne : Reg.MAC_CTRL m ≠ Reg.MAC_RX_PAUSE m := port_ne
  have hkept : fbit (count s (Reg.MAC_RX_PAUSE m)) (Reg.MAC_CTRL m) Fld.MAC_CTRL_PAUSE_EN = true := by
    rw [fbit, fget, rgetN_count_ne _ hne]
    exact hen
  simp only [pauseSeen, hkept, hq]
  rfl
theorem pauseLoaded_spec (m q : Nat) (s : State) : let t := pauseLoaded m q s
    rgetN t (Reg.MAC_RX_PAUSE m) = rgetN s (Reg.MAC_RX_PAUSE m) ∧ fbit t (Reg.MAC_STAT m) Fld.MAC_STAT_PAUSED = true ∧
      fget t (Reg.MAC_PAUSE_STAT m) Fld.MAC_PAUSE_STAT_REMAIN = q % 65536 := by
  have hstat : Reg.MAC_STAT m ≠ Reg.MAC_PAUSE_STAT m := port_ne
  refine ⟨?_, ?_, fget_fset_same _ _ _ _ (by decide) (by decide)⟩
  · exact (rgetN_fset_ne _ _ _ port_ne).trans ((rgetN_fset_ne _ _ _ port_ne).trans (rgetN_fset_ne _ _ _ port_ne))
  · rw [pauseLoaded, fbit, fget_fset_ne _ _ _ _ hstat, fget_fset_ne _ _ _ _ hstat]
    exact fbit_macStat m _ true s

/-! ### Exception records (rows 8 and 10; R163) -/

/-- The register that names the queue of an exception record, and the look for room in that queue. -/
abbrev excReg (m : Nat) (ptp : Bool) : Nat := if ptp then Reg.MAC_EXC_Q_PTP m else Reg.MAC_EXC_Q_GEN m
def excRoom (m : Nat) (ptp : Bool) (bs : List Nat) (s : State) : Bool × State :=
  if bitOf 31 (rgetN s (excReg m ptp)) then
    roomFor 2 (rgetN s (excReg m ptp) % 2 ^ 20) (48 + (bs.take (bs.length - 4)).length) s
  else (false, s)
/-- A queue whose EN is 0 has no room. -/
theorem excRoom_ptp (m : Nat) (h64 : 64 ≤ bs.length) (s : State) : excRoom m true bs s =
    if fbit s (Reg.MAC_EXC_Q_PTP m) Fld.MAC_EXC_Q_PTP_EN then
      roomFor 2 (fget s (Reg.MAC_EXC_Q_PTP m) Fld.MAC_EXC_Q_PTP_Q) (44 + bs.length) s
    else (false, s) := by
  have hen : fbit s (Reg.MAC_EXC_Q_PTP m) Fld.MAC_EXC_Q_PTP_EN = bitOf 31 (rgetN s (Reg.MAC_EXC_Q_PTP m)) := by
    simp [fbit, fget, bitsOf, bitOf, Fld.MAC_EXC_Q_PTP_EN]
  have hq : fget s (Reg.MAC_EXC_Q_PTP m) Fld.MAC_EXC_Q_PTP_Q = rgetN s (Reg.MAC_EXC_Q_PTP m) % 2 ^ 20 := by
    simp [fget, bitsOf, Fld.MAC_EXC_Q_PTP_Q]
  have hlen : 48 + (bs.take (bs.length - 4)).length = 44 + bs.length := by
    rw [List.length_take]
    omega
  rw [excRoom, hen, hq, hlen]
  rfl
theorem excRoom_apart (m : Nat) (ptp : Bool) (bs : List Nat) (s : State) : PortsApart s (excRoom m ptp bs s).2 := by
  unfold excRoom
  split
  · exact .roomFor (.refl s)
  · exact .refl s
theorem excRoom_mac (m : Nat) (ptp : Bool) (bs : List Nat) (s : State) : (excRoom m ptp bs s).2.mac = s.mac := by
  unfold excRoom
  split
  · exact (roomFor_within ..).part .mac (by decide)
  · rfl
/-- The port has written one record more. -/
abbrev excNext (m : Nat) (s : State) : State := setMac m { macPort s m with excSeq := ((macPort s m).excSeq + 1) % 2 ^ 32 } s
theorem excRecord_written {ptp : Bool} (h : (excRoom m ptp bs s).1 = true) :
    ∃ q rec, excRecord m ptp bs s = putRecord q rec (excNext m (excRoom m ptp bs s).2) := ⟨_, _, if_pos h⟩
theorem excRecord_dropped {ptp : Bool} (h : (excRoom m ptp bs s).1 = false) :
    excRecord m ptp bs s = raise Src.macExcDrop [m] (count (excRoom m ptp bs s).2 (Reg.MAC_RX_EXC_DROP m)) :=
  if_neg fun hroom => Bool.false_ne_true (h.symm.trans hroom)

theorem excRecord_regs (m : Nat) (ptp : Bool) (bs : List Nat) (s : State) :
    OnlyRegs (PortReg m [Reg.MAC_RX_EXC_DROP 0]) s (excRecord m ptp bs s) := by
  have hroom := onlyRegs_port (m := m) (l := [Reg.MAC_RX_EXC_DROP 0]) (excRoom_apart m ptp bs s).regs
  cases h : (excRoom m ptp bs s).1 with
  | true =>
    obtain ⟨q, rec, hrec⟩ := excRecord_written h
    rw [hrec]
    exact (hroom.same rfl).trans (onlyRegs_port (PortsApart.putRecord (.refl _)).regs)
  | false =>
    rw [excRecord_dropped h]
    exact (hroom.count port_own).trans (onlyRegs_port (raise_above (by decide) _ _))
/-- SEQ moves on with a record written; nothing else of the port. -/
theorem excRecord_port (m : Nat) (ptp : Bool) (bs : List Nat) (s : State) : macPort (excRecord m ptp bs s) m =
    if (excRoom m ptp bs s).1 then { macPort s m with excSeq := ((macPort s m).excSeq + 1) % 2 ^ 32 } else macPort s m := by
  have hroom := macPort_congr (excRoom_mac m ptp bs s) m
  cases h : (excRoom m ptp bs s).1 with
  | true =>
    obtain ⟨q, rec, hrec⟩ := excRecord_written h
    rw [hrec, macPort_congr ((putRecord_within ..).part .mac (by decide)), macPort_setMac_same, hroom]
    rfl
  | false =>
    rw [excRecord_dropped h, macPort_congr (raise_mac ..), macPort_congr (count_mac ..), hroom]
    rfl
theorem excRecord_drop_count (hm : m < 64) {ptp : Bool} (h : (excRoom m ptp bs s).1 = false) :
    rgetN (excRecord m ptp bs s) (Reg.MAC_RX_EXC_DROP m) = min 0xFFFFFFFF (rgetN s (Reg.MAC_RX_EXC_DROP m) + 1) := by
  have hkept : rgetN (excRoom m ptp bs s).2 (Reg.MAC_RX_EXC_DROP m) = _ := (excRoom_apart m ptp bs s).regs.num (port_notAbove hm)
  rw [excRecord_dropped h, ← hkept]
  exact ((raise_above (by decide) _ _).num (port_notAbove hm)).trans (rgetN_count_same ..)

/-! ### A frame handed on (rows 8 to 10; R153, R154) -/

theorem rxHanded_port (m n : Nat) (s : State) :
    macPort (rxHanded m n s) m = { macPort s m with rxBuf := (macPort s m).rxBuf + n } := macPort_setMac_same ..
theorem rxHanded_frames (m n : Nat) (s : State) :
    rget64 (rxHanded m n s) (Reg.MAC_RX_FRAMES_LO m) (Reg.MAC_RX_FRAMES_HI m) =
      (rget64 s (Reg.MAC_RX_FRAMES_LO m) (Reg.MAC_RX_FRAMES_HI m) + 1) % 2 ^ 64 :=
  (rget64_count64_port ..).trans (rget64_count64 _ _ port_ne)
/-- The counters of frames and bytes alone. -/
theorem rxHanded_regs (m n : Nat) (s : State) : OnlyRegs (PortReg m [Reg.MAC_RX_FRAMES_LO 0, Reg.MAC_RX_FRAMES_HI 0,
    Reg.MAC_RX_BYTES_LO 0, Reg.MAC_RX_BYTES_HI 0]) s (rxHanded m n s) :=
  count64_regs (count64_regs ((OnlyRegs.refl _ s).same rfl) port_own port_own) port_own port_own

/-- The frame is handed on, behind its codewords. -/
abbrev handed (m drained corr : Nat) (bs : List Nat) (s : State) : State :=
  rxHanded m bs.length (countN (rxDrain m drained s) (Reg.MAC_FEC_CORR m) corr)
theorem handed_eq (m drained corr : Nat) (bs : List Nat) (s : State) :
    handed m drained corr bs s = rxHanded m bs.length (fecSeen m drained corr 0 s) := rfl
theorem handed_port (m drained corr : Nat) (bs : List Nat) (s : State) : macPort (handed m drained corr bs s) m =
    { macPort s m with rxBuf := (macPort s m).rxBuf - drained + bs.length } := by
  rw [handed_eq, rxHanded_port, fecSeen_port]
theorem handed_frames (hm : m < 64) (drained corr : Nat) (bs : List Nat) (s : State) :
    rget64 (handed m drained corr bs s) (Reg.MAC_RX_FRAMES_LO m) (Reg.MAC_RX_FRAMES_HI m) =
      (rget64 s (Reg.MAC_RX_FRAMES_LO m) (Reg.MAC_RX_FRAMES_HI m) + 1) % 2 ^ 64 := by
  have hkept : rget64 (fecSeen m drained corr 0 s) (Reg.MAC_RX_FRAMES_LO m) (Reg.MAC_RX_FRAMES_HI m) = _ :=
    rget64_kept (fecSeen_regs m drained corr 0 s) (port_apart hm) (port_apart hm)
  rw [handed_eq, rxHanded_frames, hkept]
/-- A register that counts neither codewords nor what is handed on. -/
theorem handed_num {a k : Nat} (hm : m < 64) (drained corr : Nat) (bs : List Nat) (s : State)
    (ha : a = k + 0x1000 * m := by rfl)
    (hh : (0x00C00000 ≤ k ∧ k < 0x00C01000) ∧ k ∉ [Reg.MAC_RX_FRAMES_LO 0, Reg.MAC_RX_FRAMES_HI 0,
      Reg.MAC_RX_BYTES_LO 0, Reg.MAC_RX_BYTES_HI 0] := by decide)
    (hf : (0x00C00000 ≤ k ∧ k < 0x00C01000) ∧ k ∉ [Reg.MAC_FEC_CORR 0, Reg.MAC_FEC_UNCORR 0] := by decide) :
    rgetN (handed m drained corr bs s) a = rgetN s a :=
  ((rxHanded_regs m bs.length _).num (port_apart hm ha hh)).trans ((fecSeen_regs m drained corr 0 s).num (port_apart hm ha hf))

section Taken

variable {drained corr : Nat} (hm : m < 64) (h : Receives s m) (hsound : Sound s m drained bs) (hours : Ours s m bs)
include hm h hsound hours

/-- Row 6. -/
theorem rxFrame_pause (hpause : isPause s m bs = true) (hen : fbit s (Reg.MAC_CTRL m) Fld.MAC_CTRL_PAUSE_EN = true)
    (hq : be16 bs 16 ≠ 0) : let t := rxFrame claim m bs drained false corr 0 s
    rgetN t (Reg.MAC_RX_PAUSE m) = min 0xFFFFFFFF (rgetN s (Reg.MAC_RX_PAUSE m) + 1) ∧
      fbit t (Reg.MAC_STAT m) Fld.MAC_STAT_PAUSED = true ∧
      fget t (Reg.MAC_PAUSE_STAT m) Fld.MAC_PAUSE_STAT_REMAIN = be16 bs 16 % 65536 ∧
      t.mac = (rxDrain m drained s).mac ∧ t.flow = s.flow := by
  intro t
  have hen' : fbit (fecSeen m drained corr 0 s) (Reg.MAC_CTRL m) Fld.MAC_CTRL_PAUSE_EN = true :=
    ((fecSeen_regs m drained corr 0 s).bit (port_apart hm) _).trans hen
  obtain ⟨hcount, hmac, -, hflow, -⟩ := counted_fecSeen (a := Reg.MAC_RX_PAUSE m) hm drained corr 0 s
  obtain ⟨hseen, hpaused, hleft⟩ := pauseLoaded_spec m (be16 bs 16) (count (fecSeen m drained corr 0 s) (Reg.MAC_RX_PAUSE m))
  have ht : t = pauseLoaded m (be16 bs 16) (count (fecSeen m drained corr 0 s) (Reg.MAC_RX_PAUSE m)) := by
    rw [show t = _ from rxFrame_sound hm h hsound, if_pos hours, rxAccepted, isPause_fecSeen hm, hpause, if_pos rfl,
      pauseSeen_loads hen' hq]
    refine rxBoundary_none ?_
    exact (congrArg MacPort.rxLast ((macPort_congr hmac m).trans (rxDrain_port ..))).trans h.noLast
  rw [ht]
  exact ⟨hseen.trans hcount, hpaused, hleft, hmac, hflow⟩

variable (htype : etherType bs ≠ 0x8808)
include htype

/-- Rows 8 to 10. -/
theorem rxFrame_handed : rxFrame claim m bs drained false corr 0 s = rxBoundary m
    (if isPtp bs then excRecord m true bs (handed m drained corr bs s)
     else match claim bs (handed m drained corr bs s) with
      | some s => s
      | none => excRecord m false bs (handed m drained corr bs s)) := by
  have hpause : isPause (fecSeen m drained corr 0 s) m bs = false := by simp [isPause, htype]
  rw [rxFrame_sound hm h hsound, if_pos hours, rxAccepted, hpause, if_neg Bool.false_ne_true, if_neg htype]
  rfl

/-- Row 8. -/
theorem rxFrame_ptp (hptp : isPtp bs = true) :
    rxFrame claim m bs drained false corr 0 s = excRecord m true bs (handed m drained corr bs s) := by
  rw [rxFrame_handed hm h hsound hours htype, if_pos hptp]
  refine rxBoundary_none ?_
  rw [excRecord_port, handed_port]
  split <;> exact h.noLast
theorem rxFrame_ptp_spec (hptp : isPtp bs = true) : let t := rxFrame claim m bs drained false corr 0 s
    rget64 t (Reg.MAC_RX_FRAMES_LO m) (Reg.MAC_RX_FRAMES_HI m) =
        (rget64 s (Reg.MAC_RX_FRAMES_LO m) (Reg.MAC_RX_FRAMES_HI m) + 1) % 2 ^ 64 ∧ t.flow = s.flow ∧
      (macPort t m).rxBuf = (macPort s m).rxBuf - drained + bs.length ∧
      (fbit s (Reg.MAC_EXC_Q_PTP m) Fld.MAC_EXC_Q_PTP_EN = false →
        rgetN t (Reg.MAC_RX_EXC_DROP m) = min 0xFFFFFFFF (rgetN s (Reg.MAC_RX_EXC_DROP m) + 1)) ∧
      (fbit s (Reg.MAC_EXC_Q_PTP m) Fld.MAC_EXC_Q_PTP_EN = true →
        (roomFor 2 (fget s (Reg.MAC_EXC_Q_PTP m) Fld.MAC_EXC_Q_PTP_Q) (44 + bs.length) (handed m drained corr bs s)).1 = true →
        (macPort t m).excSeq = ((macPort s m).excSeq + 1) % 2 ^ 32) := by
  intro t
  have ⟨_, h64, _⟩ := hsound
  have hreg : rgetN (handed m drained corr bs s) (Reg.MAC_EXC_Q_PTP m) = _ := handed_num hm drained corr bs s
  have hroom : excRoom m true bs (handed m drained corr bs s) =
      if fbit s (Reg.MAC_EXC_Q_PTP m) Fld.MAC_EXC_Q_PTP_EN then
        roomFor 2 (fget s (Reg.MAC_EXC_Q_PTP m) Fld.MAC_EXC_Q_PTP_Q) (44 + bs.length) (handed m drained corr bs s)
      else (false, handed m drained corr bs s) := by
    rw [excRoom_ptp m h64, fbit, fget, fget, hreg]
    rfl
  have hflow : (handed m drained corr bs s).flow = s.flow := (fecSeen_same m drained corr 0 s).2.2.1
  rw [show t = _ from rxFrame_ptp hm h hsound hours htype hptp]
  refine ⟨?frames, ((excRecord_within ..).part .flow (by decide)).trans hflow, ?buffer, fun hen => ?dropped, fun hen hput => ?seq⟩
  case frames =>
    have hkept := excRecord_regs m true bs (handed m drained corr bs s)
    exact (rget64_kept hkept (port_apart hm) (port_apart hm)).trans (handed_frames hm ..)
  case buffer =>
    rw [excRecord_port, handed_port]
    split <;> rfl
  case dropped =>
    have hnone : (excRoom m true bs (handed m drained corr bs s)).1 = false := by rw [hroom, hen, if_neg Bool.false_ne_true]
    exact (excRecord_drop_count hm hnone).trans (congrArg (fun n => min 0xFFFFFFFF (n + 1)) (handed_num hm drained corr bs s))
  case seq =>
    rw [excRecord_port, hroom, if_pos hen, if_pos hput, handed_port]

end Taken

/-! ### O29 -/

/-- Settles O29: codewords by `fecSeen_counts`, rows 1 to 5 and 7 by the lemmas `counted_…`, row 6 by `rxFrame_pause`, row 8
by `rxFrame_ptp_spec`, rows 9 and 10 by `rxFrame_handed`. -/
theorem macReceive : Obligations.MacReceive := by
  unfold Obligations.MacReceive
  intro m bytes drained corr s hformed hup hopened hlast hcast hinj
  have hm : m.val < 64 := m.isLt
  have h : Receives s m := ⟨hformed, hup, hopened, hlast, hcast, hinj⟩
  refine ⟨fun n => ?none, fun pcsErr n hbytes => ⟨fun hlost => ?lost, fun hfits hbad => ?damaged⟩,
    fun hfits hfcs hlen => ⟨_, rfl, counted_short hm h hfits hfcs hlen⟩,
    fun hfits hfcs h64 hlong => ⟨_, rfl, counted_long hm h hfits hfcs h64 hlong⟩,
    fun hsound hours => ⟨_, rfl, counted_others hm h hsound hours⟩,
    fun hsound hours hpause htype => ⟨_, rfl, counted_control hm h hsound hours hpause htype⟩,
    fun hsound hours hpause hen hq => ⟨_, rfl, rxFrame_pause hm h hsound hours hpause hen hq⟩,
    fun hsound hours htype => ⟨fun hptp => ⟨_, rfl, rxFrame_ptp_spec hm h hsound hours htype hptp⟩, fun hptp => ?handed⟩⟩
  case none =>
    obtain ⟨hcorr, huncorr⟩ := fecSeen_counts hm drained corr n s
    exact ⟨_, congrArg Host.Outcome.next (h.rxFrame_none drained false corr n), hcorr, huncorr,
      (fecSeen_same m drained corr n s).1, fecSeen_reported m drained corr n s⟩
  case lost => exact ⟨_, rfl, counted_lost hm h (by simpa using hbytes) hlost⟩
  case damaged => exact ⟨_, rfl, counted_damaged hm h hfits (by simpa using hbytes) hbad⟩
  case handed =>
    refine ⟨_, congrArg Host.Outcome.next (rxFrame_handed hm h hsound hours htype), ?_⟩
    rw [hptp, if_neg Bool.false_ne_true]
    cases flowClaim m (bytes.map (·.toNat)) (handed m drained corr (bytes.map (·.toNat)) s) <;> rfl

end Sys2Proof.Proofs.MacReceive
end

section
/-! PROOF. What a refusal of a block reports, and what it leaves alone (03 R74, R76). -/

set_option Elab.async false

namespace Sys2Proof.Proofs.RefusalCapture

open Sys2Proof.Machine Sys2Proof.Laws

variable {s t : State}

/-! ### A raise leaves the captures of the last refusal -/

/-- A register other than IMG_REFUSE_INFO, _RES, _ADDR and _COUNT. -/
abbrev NotCapture (a : Nat) : Prop := a < Reg.IMG_REFUSE_INFO ∨ Reg.IMG_REFUSE_COUNT < a
/-- From s to t the captures have not changed. -/
abbrev CapturesKept (s t : State) : Prop := OnlyRegs NotCapture s t

theorem capturesKept_sendMsix (v : Nat) (h : CapturesKept s t) : CapturesKept s (sendMsix v t) := by
  unfold sendMsix
  exact .ite h (.ite (h.rsetN (.inr (by simp only [Reg.MSIX_PBA, Reg.IMG_REFUSE_COUNT]; omega))) h.emit)
theorem capturesKept_refreshHealth (h : CapturesKept s t) : CapturesKept s (refreshHealth t) := by
  have hpair : NotCapture Reg.PAIR_STAT := by decide
  unfold refreshHealth
  exact ((h.fset hpair).fset hpair).same rfl
theorem capturesKept_refreshPins (h : CapturesKept s t) : CapturesKept s (refreshPins t) := by
  have hany : NotCapture Reg.FAULT_ANY := by decide
  unfold refreshPins
  exact capturesKept_refreshHealth
    (((((h.rsetN (a := Reg.FAULT_SUMMARY_LO) (by decide)).fset hany).fset hany).fset hany).same rfl)
theorem capturesKept_groupVector (g : Nat) (h : CapturesKept s t) : CapturesKept s (groupVector g t) := by
  unfold groupVector
  split
  · exact capturesKept_sendMsix _ h
  · exact .ite h (capturesKept_sendMsix _ (h.same rfl))
theorem capturesKept_raiseCounted {n : Nat} (hn : n < 1536) (h : CapturesKept s t) : CapturesKept s (raiseCounted n t) := by
  have hstat : NotCapture (Reg.FAULT_STAT (n / 32)) := .inl (by simp only [Reg.FAULT_STAT, Reg.IMG_REFUSE_INFO]; omega)
  have hcnt : NotCapture (Reg.FAULT_CNT n) := .inl (by simp only [Reg.FAULT_CNT, Reg.IMG_REFUSE_INFO]; omega)
  have hlast : NotCapture Reg.FAULT_LAST := by decide
  unfold raiseCounted
  extract_lets sev was a u v w x
  have hx : CapturesKept s x := capturesKept_refreshPins
    (((((h.rsetN hstat).count hcnt).count (a := Reg.FAULT_RAISES) (by decide)).fset hlast).fset hlast)
  exact .ite (capturesKept_groupVector _ hx) hx
theorem capturesKept_queueRec (r : PatRec) (h : CapturesKept s t) : CapturesKept s (queueRec r t) := by
  have hdropped : CapturesKept s (count t Reg.PAT_DROPPED) := h.count (by decide)
  unfold queueRec raiseNoRecord
  exact .ite h (.ite (h.same rfl) (.ite
    (.ite (hdropped.same rfl) (capturesKept_raiseCounted (by decide) (hdropped.same rfl)))
    ((h.fset (a := Reg.PAT_TOKENS) (by decide)).same rfl)))
theorem capturesKept_raise {n : Nat} (hn : n < 1536) (l : List Nat) (h : CapturesKept s t) :
    CapturesKept s (raise n l t) := by
  have hcounted : CapturesKept s (raiseCounted n (cycleBegin t)) := capturesKept_raiseCounted hn (cycleBegin_regs h)
  unfold raise
  exact .ite h (cycleEnd_regs (.ite (capturesKept_queueRec _ hcounted) hcounted))

/-! ### A refusal -/

theorem refuse_flow (m reason rid a : Nat) (s : State) : (refuse m reason rid a s).flow = s.flow :=
  (refuse_within m reason rid a s).part .flow (by decide)
/-- A register that reports no refusal keeps its value. -/
theorem rgetN_refuse {b : Nat} (hb : ¬ Alarm b) (m reason rid a : Nat) (s : State) :
    rgetN (refuse m reason rid a s) b = rgetN s b :=
  (refuse_regs (OnlyRegs.refl _ s)).num hb

theorem fget_count_ne (s : State) {a b : Nat} {f : FieldRow} (h : b ≠ a) : fget (count s a) b f = fget s b f :=
  congrArg (bitsOf f.hi f.lo) (rgetN_count_ne s h)

/-- The captures as a refusal of master m at offset a writes them: the reason reads as it was given. -/
theorem captured_reason {reason : Nat} (hr : reason < 4) (m rid a : Nat) (s : State) :
    fget (rsetN (rsetN (fset (fset (fset s Reg.IMG_REFUSE_INFO Fld.IMG_REFUSE_INFO_MASTER m)
      Reg.IMG_REFUSE_INFO Fld.IMG_REFUSE_INFO_REASON reason) Reg.IMG_REFUSE_INFO Fld.IMG_REFUSE_INFO_VALID 1)
      Reg.IMG_REFUSE_RES rid) Reg.IMG_REFUSE_ADDR a) Reg.IMG_REFUSE_INFO Fld.IMG_REFUSE_INFO_REASON = reason := by
  rw [fget_rsetN_ne _ _ _ (by decide), fget_rsetN_ne _ _ _ (by decide),
    fget_fset_field _ _ _ _ _ (by decide) (by decide) (by decide), fget_fset_same _ _ _ _ (by decide) (by decide)]
  exact Nat.mod_eq_of_lt hr

/-- The first refusal of a cycle is captured with its reason (03 R74, R76). -/
theorem refuse_refusedFor {reason : Nat} (hr : reason < 4) (m rid a : Nat) (s : State) :
    RefusedFor s (refuse m reason rid a s) reason := by
  intro hfirst
  have hcaptured := captured_reason hr m rid a s
  unfold refuse
  dsimp only
  refine ((capturesKept_raise (by decide) _ (OnlyRegs.refl _ _)).field (by decide) _).trans ?_
  rw [fget_count_ne _ (by decide), if_neg (by simp [hfirst])]
  generalize rsetN (rsetN _ Reg.IMG_REFUSE_RES rid) Reg.IMG_REFUSE_ADDR a = t at hcaptured ⊢
  refine Eq.trans (fget_congr ?_ _ _) hcaptured
  split
  · rfl
  · rfl

end Sys2Proof.Proofs.RefusalCapture
end

section
/-! PROOF. O30, the commits of the flow engine: a leg context and the configuration of an audio flow (07 R172, R173,
R187). -/

set_option Elab.async false

namespace Sys2Proof.Proofs.FlowCommits

open Sys2Proof.Machine Sys2Proof.Laws Sys2Proof.Proofs.FaultRaised Sys2Proof.Proofs.RefusalCapture

variable {s : State} {m l : Nat} {w : Word}

/-! ### A write granted, and then refused or stored -/

theorem legCtx_congr {t : State} (h : t.flow = s.flow) (j : Nat) : legCtx t j = legCtx s j := by
  unfold legCtx
  rw [h]

section Refused
variable {t : State} {p reason rid a : Nat} (ht : t = refuse m reason rid a (grantTo p m s)) (hr : reason < 4)
include ht hr

/-- A write of master m, granted at port p, is refused: nothing of the flow engine changes, and the reason is reported. -/
theorem refused_spec : t.flow = s.flow ∧ RefusedFor s t reason := by
  subst ht
  exact ⟨refuse_flow .., refuse_refusedFor hr m rid a (grantTo p m s)⟩
theorem refused_leg (l : Nat) : legCtx t l = legCtx s l ∧ RefusedFor s t reason :=
  (refused_spec ht hr).imp_left fun h => legCtx_congr h l
theorem refused_reg {b : Nat} (hb : ¬ Alarm b) : rgetN t b = rgetN s b ∧ RefusedFor s t reason := by
  refine ⟨?_, (refused_spec ht hr).2⟩
  rw [ht, rgetN_refuse hb]
  exact rgetN_congr rfl b

end Refused

/-- Such a write is stored by the fields of its register. -/
theorem stored_spec {t : State} {p a : Nat} (ht : t = plainWrite a w (grantTo p m s)) :
    t.flow = s.flow ∧ rgetN t a = plainValue a (rgetN s a) w.toNat % 2 ^ 32 ∧ RegsWithin [a] s t := by
  subst ht
  have hold : rgetN (grantTo p m s) a = rgetN s a := rgetN_congr rfl a
  refine ⟨rfl, ?_, ((OnlyRegs.refl _ s).same rfl).rsetN (by simp)⟩
  rw [plainWrite, rgetN_rsetN_same, hold]

/-! ### A write of word 0 of a leg context (R172, R173) -/

/-- The context that a write of word 0 of leg l commits: that word without its reserved bits, and the words staged. -/
abbrev legWords (s : State) (l : Nat) (w : Word) : List Nat :=
  (w.toNat &&& legMask s.img l 0) :: (List.range 7).map (fun i => rgetN s (Reg.FLOW_LEG_CTX l (i + 1)))
/-- A leg of kind k with context c is an enabled receive leg, and so is another leg with the same key. -/
abbrev LegClash (s : State) (l k : Nat) (c : List Nat) : Prop :=
  kindRx k = true ∧ ctxEn c = true ∧ ∃ e ∈ s.flow.legs, e.1 ≠ l ∧ ctxEn e.2 = true ∧ sameKey e.2 c = true ∧
    ∃ x, legIs s.img e.1 = some x ∧ kindRx x.1 = true

theorem flowWrite_leg (hl : l < 65536) : flowWrite m (Reg.FLOW_LEG_CTX l 0) w s = legCommit m l w s := by
  have hoff : Reg.FLOW_LEG_CTX l 0 - Base.flowBase = 0x100000 + 32 * l := by
    simp only [Reg.FLOW_LEG_CTX, Base.flowBase]
    omega
  simp only [flowWrite, hoff]
  rw [if_pos (by omega), if_pos (by omega), show (0x100000 + 32 * l - 0x100000) / 32 = l by omega]

theorem legCommit_noLeg (hleg : legIs s.img l = none) :
    legCommit m l w s = refuse m 2 (resId 0x11 l) (Reg.FLOW_LEG_CTX l 0) s := by
  simp only [legCommit, hleg]

section Leg
variable {k : Nat} {x : Nat × Nat} (hleg : legIs s.img l = some (k, x))
include hleg

theorem legCommit_portless (hport : portFormed s.img (ctxMac (legWords s l w)) = false) :
    legCommit m l w s = refuse m 3 (resId 0x11 l) (Reg.FLOW_LEG_CTX l 0) s := by
  simp only [legCommit, hleg]
  rw [if_pos (by rw [hport]; rfl)]

variable (hport : portFormed s.img (ctxMac (legWords s l w)) = true)
include hport

theorem legCommit_badPt (hpt : ctxPt (legWords s l w) < 96) :
    legCommit m l w s = refuse m 2 (resId 0x11 l) (Reg.FLOW_LEG_CTX l 0) s := by
  simp only [legCommit, hleg]
  rw [if_neg (by rw [hport]; decide), if_pos hpt]

variable (hpt : ¬ ctxPt (legWords s l w) < 96)
include hpt

theorem legCommit_clash (hclash : LegClash s l k (legWords s l w)) :
    ∃ e, legCommit m l w s = refuse m 1 (resId 0x11 e) (Reg.FLOW_LEG_CTX l 0) s := by
  obtain ⟨hrx, hen, e, he, hne, heen, hkey, y, hy, hyrx⟩ := hclash
  simp only [legCommit, hleg]
  rw [if_neg (by rw [hport]; decide), if_neg hpt]
  split
  · exact ⟨_, rfl⟩
  · next hnone =>
    refine (hnone _ ?_ (Option.some_get (List.find?_isSome.2 ⟨e, he, ?_⟩)).symm).elim
    · exact Bool.and_eq_true_iff.2 ⟨hrx, hen⟩
    · rw [hy, heen, hkey, bne_iff_ne.2 hne]
      exact hyrx

theorem legCommit_taken (hclash : ¬ LegClash s l k (legWords s l w)) :
    legCommit m l w s = rsetN { s with flow := { s.flow with legs := cset [] s.flow.legs l (legWords s l w) } }
      (Reg.FLOW_LEG_CTX l 0) (w.toNat &&& legMask s.img l 0) := by
  simp only [legCommit, hleg]
  rw [if_neg (by rw [hport]; decide), if_neg hpt]
  split
  · next e hrx hfound =>
    obtain ⟨hrx, hen⟩ := Bool.and_eq_true_iff.1 hrx
    have he := List.find?_some hfound
    simp only [Bool.and_eq_true, bne_iff_ne] at he
    obtain ⟨⟨⟨hne, heen⟩, hkey⟩, hother⟩ := he
    refine (hclash ⟨hrx, hen, e, List.mem_of_find?_eq_some hfound, hne, heen, hkey, ?_⟩).elim
    split at hother
    · next hx => exact ⟨_, hx, hother⟩
    · cases hother
  · rfl

end Leg

/-- What a commit that is granted and taken leaves. -/
theorem taken_spec {t : State} {p a n : Nat} {c : List Nat}
    (ht : t = rsetN { grantTo p m s with flow := { (grantTo p m s).flow with legs := cset [] s.flow.legs l c } } a n) :
    legCtx t l = c ∧ RegsWithin [a] s t := by
  subst ht
  exact ⟨(cget_cset ..).trans (if_pos rfl), ((OnlyRegs.refl _ s).same rfl).rsetN (by simp)⟩

/-- No commit touches another leg. -/
theorem legCommit_others {j : Nat} (hj : j ≠ l) : legCtx (legCommit m l w s) j = legCtx s j := by
  have hrefused (reason rid a : Nat) : legCtx (refuse m reason rid a s) j = legCtx s j :=
    legCtx_congr (refuse_flow ..) j
  cases hleg : legIs s.img l with
  | none => rw [legCommit_noLeg hleg, hrefused]
  | some x =>
    cases hport : portFormed s.img (ctxMac (legWords s l w)) with
    | false => rw [legCommit_portless hleg hport, hrefused]
    | true =>
      by_cases hpt : ctxPt (legWords s l w) < 96
      · rw [legCommit_badPt hleg hport hpt, hrefused]
      by_cases hclash : LegClash s l x.1 (legWords s l w)
      · obtain ⟨e, he⟩ := legCommit_clash (m := m) hleg hport hpt hclash
        rw [he, hrefused]
      · rw [legCommit_taken hleg hport hpt hclash]
        exact (cget_cset ..).trans (if_neg hj)

/-! ### A write of the configuration of an audio flow (R187) -/

/-- A mask that has all the bits of a field leaves it. -/
theorem bitsOf_and_ones {hi lo n k : Nat} (h : bitsOf hi lo k = 2 ^ (hi + 1 - lo) - 1) :
    bitsOf hi lo (n &&& k) = bitsOf hi lo n := by
  unfold bitsOf at h ⊢
  rw [Nat.and_div_two_pow, Nat.and_mod_two_pow, h, Nat.and_two_pow_sub_one_eq_mod, Nat.mod_mod]

/-- The word that a write of ATX_CFG (tx) or ARX_CFG stores: without MERGE on transmit (log entry 148). -/
abbrev audWord (tx : Bool) (w : Word) : Word := if tx then w &&& 0xFFFFFFF7 else w

/-- Every field but MERGE is as it is written. -/
theorem bitsOf_audWord {hi lo : Nat} (h : bitsOf hi lo 0xFFFFFFF7 = 2 ^ (hi + 1 - lo) - 1) (tx : Bool) (w : Word) :
    bitsOf hi lo (audWord tx w).toNat = bitsOf hi lo w.toNat := by
  cases tx with
  | false => rfl
  | true => exact (congrArg (bitsOf hi lo) (BitVec.toNat_and ..)).trans (bitsOf_and_ones h)
theorem audChannels_audWord (tx : Bool) (w : Word) : audChannels (audWord tx w).toNat = audChannels w.toNat :=
  bitsOf_audWord (by decide) tx w
theorem ptime_audWord (tx : Bool) (w : Word) : bitOf 2 (audWord tx w).toNat = bitOf 2 w.toNat := by
  rw [bitOf_eq_bitsOf, bitOf_eq_bitsOf, bitsOf_audWord (by decide)]
theorem audFmt_audWord (tx : Bool) (w : Word) : audFmt (audWord tx w).toNat = audFmt w.toNat := by
  unfold audFmt
  rw [bitsOf_audWord (by decide)]

/-- The register of CFG of an audio flow. -/
abbrev audCfgReg (tx : Bool) (f : Nat) : Nat := if tx then Reg.FLOW_ATX_CFG f else Reg.FLOW_ARX_CFG f
/-- A configuration that R187 and 13 R327 refuse. -/
abbrev BadAudCfg (g : Img) (tx : Bool) (f n : Nat) : Prop :=
  16384 < bitsOf 29 16 n + audChannels n ∨ audChannels n = 0 ∨ (if bitOf 2 n then 64 else 8) < audChannels n ∨
    (tx = true ∧ audFmt n = 1) ∨ (tx = false ∧ asrcBlocks g (0x00100000 + f) ≠ [] ∧
      16 * (asrcBlocks g (0x00100000 + f)).length < audChannels n)

theorem flowWrite_audCfg (tx : Bool) {f : Nat} (hf : f < 4096) :
    flowWrite m (audCfgReg tx f) w s = audCfgWrite m (audCfgReg tx f) tx w s := by
  cases tx with
  | false =>
    have hoff : Reg.FLOW_ARX_CFG f - Base.flowBase = 0x30000 + 0x10 * f := by
      simp only [Reg.FLOW_ARX_CFG, Base.flowBase]
      omega
    simp only [audCfgReg, Bool.false_eq_true, if_false, flowWrite, hoff]
    rw [if_neg (by omega), if_neg (by omega), if_pos (by omega), if_pos (by omega)]
  | true =>
    have hoff : Reg.FLOW_ATX_CFG f - Base.flowBase = 0x40000 + 0x10 * f := by
      simp only [Reg.FLOW_ATX_CFG, Base.flowBase]
      omega
    simp only [audCfgReg, if_true, flowWrite, hoff]
    rw [if_neg (by omega), if_neg (by omega), if_neg (by omega), if_pos (by omega), if_pos (by omega)]
theorem audCfgReg_notAlarm (tx : Bool) {f : Nat} (hf : f < 4096) : ¬ Alarm (audCfgReg tx f) := by
  rw [alarm_iff]
  unfold audCfgReg Reg.FLOW_ARX_CFG Reg.FLOW_ATX_CFG
  split <;> omega

theorem audCfgWrite_eq (tx : Bool) (f : Nat) : audCfgWrite m (audCfgReg tx f) tx w s =
    if BadAudCfg s.img tx f w.toNat then refuse m 2 (ridReg (audCfgReg tx f)) (audCfgReg tx f) s
    else plainWrite (audCfgReg tx f) (audWord tx w) s := by
  unfold audCfgWrite
  dsimp only
  rw [audChannels_audWord, ptime_audWord, audFmt_audWord, bitsOf_audWord (by decide)]
  refine if_congr ?_ rfl rfl
  cases tx with
  | false =>
    have hflow : (audCfgReg false f - Reg.FLOW_ARX_CFG 0) / 0x10 = f := by
      simp only [audCfgReg, Bool.false_eq_true, if_false, Reg.FLOW_ARX_CFG]
      omega
    simp [BadAudCfg, hflow]
  | true => simp [BadAudCfg]

/-! ### O30 -/

/-- Settles O30: a leg context is refused by `legCommit_noLeg`, `legCommit_portless`, `legCommit_badPt` and
`legCommit_clash`, else taken by `legCommit_taken`; an audio flow's configuration is refused or stored by `audCfgWrite_eq`,
where `refuse_refusedFor` gives the reason. -/
theorem flowCommits : Obligations.FlowCommits := by
  unfold Obligations.FlowCommits
  refine ⟨fun m l w s hr => ⟨legCommit m l.toNat w (grantTo _ m s),
      congrArg Host.Outcome.next ((hostWrite_reaches hr).trans (flowWrite_leg l.isLt)),
      fun j hj => legCommit_others hj, ?leg⟩,
    fun m tx f w s hr => ⟨audCfgWrite m (audCfgReg tx f) tx w (grantTo (blockPort (audCfgReg tx f)) m s),
      congrArg Host.Outcome.next ((hostWrite_reaches hr).trans (flowWrite_audCfg tx f.isLt)), ?audio⟩⟩
  case leg =>
    split
    · next hleg => exact refused_leg (legCommit_noLeg hleg) (by decide) _
    next k x y hleg =>
    split
    · next hport => exact refused_leg (legCommit_portless hleg hport) (by decide) _
    next hport =>
    rw [Bool.not_eq_false] at hport
    split
    · next hpt => exact refused_leg (legCommit_badPt hleg hport hpt) (by decide) _
    next hpt =>
    refine ⟨fun hclash => ?_, fun hclash => ?_⟩
    · obtain ⟨e, he⟩ := legCommit_clash (m := m) (s := grantTo _ m s) hleg hport hpt hclash
      exact refused_leg he (by decide) _
    · exact taken_spec (legCommit_taken hleg hport hpt hclash)
  case audio =>
    have hwrite := audCfgWrite_eq (m := m) (w := w) (s := grantTo (blockPort (audCfgReg tx f)) m s) tx f
    by_cases hbad : BadAudCfg s.img tx f w.toNat
    · have hrefused := hwrite.trans (if_pos hbad)
      obtain ⟨hflow, -⟩ := refused_spec hrefused (by decide)
      have hreg := refused_reg hrefused (by decide) (audCfgReg_notAlarm tx f.isLt)
      exact ⟨hflow, fun h => absurd hbad h, fun _ => hreg⟩
    · obtain ⟨hflow, hstored⟩ := stored_spec (hwrite.trans (if_neg hbad))
      exact ⟨hflow, fun _ => hstored, fun h => absurd h hbad⟩

end Sys2Proof.Proofs.FlowCommits
end

section
/-! PROOF. The canonical form of the byte memories (08 R196; 17 R423; 18 R443): how it follows from frames, and what the
operations on the memories themselves keep of it. -/

set_option Elab.async false

namespace Sys2Proof.Proofs.CanonicalMemories

open Sys2Proof.Machine Sys2Proof.Laws

variable {s t u : State}

/-- Every byte memory is in its canonical form: `Memory.wf` with its parts named. -/
structure Canonical (s : State) : Prop where
  mram : mapWf (fun _ => (0 : BitVec 8)) s.long.mram = true
  flash : mapWf (fun _ => (0xFF : BitVec 8)) s.long.flash = true
  staging : mapWf (hbmDefault s 0) s.q.staging = true
  surf : mapWf (hbmDefault s 1) s.q.surf = true

theorem canonical_iff_wf : Canonical s ↔ Memory.wf s :=
  ⟨fun ⟨hm, hf, hs, hu⟩ => ⟨hm, hf, hs, hu⟩, fun ⟨hm, hf, hs, hu⟩ => ⟨hm, hf, hs, hu⟩⟩

/-- What the canonical form speaks of: the MRAM, the flash array, the staging area, the SURF region, and what an unwritten
byte of the last two reads. -/
def memories (l : Long) (q : QueueSt) : List Host.Cell × List Host.Cell × List Host.Cell × List Host.Cell × Nat :=
  (l.mram, l.flash, q.staging, q.surf, q.lost)

theorem Canonical.congr (h : Canonical s) (hm : memories t.long t.q = memories s.long s.q) : Canonical t := by
  obtain ⟨hmram, hflash, hstaging, hsurf⟩ := h
  simp only [memories, Prod.mk.injEq] at hm
  obtain ⟨em, ef, es, eu, el⟩ := hm
  have hd (k : Nat) : hbmDefault t k = hbmDefault s k := by funext x; simp only [hbmDefault, el]
  exact ⟨em ▸ hmram, ef ▸ hflash, by rw [hd, es]; exact hstaging, by rw [hd, eu]; exact hsurf⟩

/-- An update that leaves the memories alone. -/
protected theorem Canonical.upd
    {pending regs core long pat fab test img upd xp vl q eng comp flow aud mac ref time pair out fresh}
    (_hp : pending = t.pending) (hm : memories long q = memories t.long t.q) (h : Canonical t) :
    Canonical (State.mk pending regs core long pat fab test img upd xp vl q eng comp flow aud mac ref time pair out fresh) :=
  h.congr hm

/-- A frame that names none of the memories' areas. -/
protected theorem Canonical.quiet {w : List Area} (hw : Within w t u) (h : Canonical t) (hm : Area.mram ∉ w := by decide)
    (hf : Area.flash ∉ w := by decide) (hq : Area.q ∉ w := by decide) : Canonical u := by
  obtain ⟨em, -⟩ := hw.part .mram hm
  have ef : u.long.flash = t.long.flash := hw.part .flash hf
  have eq : u.q = t.q := hw.part .q hq
  exact h.congr (by rw [memories, em, ef, eq, memories])

/-! ### Branches and loops -/

protected theorem Canonical.ite {c : Prop} [Decidable c] (ht : Canonical t) (hu : Canonical u) :
    Canonical (if c then t else u) := by
  split <;> assumption
protected theorem Canonical.iteSnd {α : Type} {c : Prop} [Decidable c] {a b : α × State} (ha : Canonical a.2)
    (hb : Canonical b.2) : Canonical (if c then a else b).2 := by
  split <;> assumption
protected theorem Canonical.foldl {α : Type} {g : State → α → State} {l : List α} (h : Canonical t)
    (hg : ∀ v x, Canonical v → Canonical (g v x)) : Canonical (l.foldl g t) := by
  induction l generalizing t with
  | nil => exact h
  | cons x l ih => exact ih (hg t x h)
protected theorem Canonical.foldlSnd {α β : Type} {g : β × State → α → β × State} {l : List α} {r : β × State}
    (h : Canonical r.2) (hg : ∀ v x, Canonical v.2 → Canonical (g v x).2) : Canonical (l.foldl g r).2 := by
  induction l generalizing r with
  | nil => exact h
  | cons x l ih => exact ih (hg r x h)

/-! ### Operations that touch no memory and stand in many others -/

protected theorem Canonical.rsetN {a n} (h : Canonical t) : Canonical (rsetN t a n) := .quiet (rsetN_within ..) h
protected theorem Canonical.fset {a f v} (h : Canonical t) : Canonical (fset t a f v) := .quiet (fset_within ..) h
protected theorem Canonical.count {a} (h : Canonical t) : Canonical (count t a) := .quiet (count_within ..) h
protected theorem Canonical.emit {o} (h : Canonical t) : Canonical (emit t o) := .quiet (emit_within ..) h
protected theorem Canonical.raise {n l} (h : Canonical t) : Canonical (raise n l t) := .quiet (raise_within ..) h
protected theorem Canonical.logEvent {e l} (h : Canonical t) : Canonical (logEvent e l t) := .quiet (logEvent_within ..) h
protected theorem Canonical.cycleBegin (h : Canonical t) : Canonical (cycleBegin t) := .quiet (cycleBegin_within ..) h
protected theorem Canonical.cycleEnd (h : Canonical t) : Canonical (cycleEnd u t) := .quiet (cycleEnd_within ..) h
protected theorem Canonical.spend (h : Canonical t) : Canonical (spend t) := .quiet (spend_within ..) h
protected theorem Canonical.setMode {m} (h : Canonical t) : Canonical (setMode t m) := .quiet (setMode_within ..) h
protected theorem Canonical.setModeF {f v} (h : Canonical t) : Canonical (setModeF f v t) := .quiet (setModeF_within ..) h
protected theorem Canonical.setBoot {f v} (h : Canonical t) : Canonical (setBoot f v t) := .quiet (setBoot_within ..) h
protected theorem Canonical.setStep {n} (h : Canonical t) : Canonical (setStep n t) := .quiet (setStep_within ..) h
protected theorem Canonical.patStat {f b} (h : Canonical t) : Canonical (patStat f b t) := .quiet (patStat_within ..) h
protected theorem Canonical.pairStat {f v} (h : Canonical t) : Canonical (pairStat f v t) := .quiet (pairStat_within ..) h
protected theorem Canonical.setBacklog (h : Canonical t) : Canonical (setBacklog t) := .quiet (setBacklog_within ..) h
protected theorem Canonical.refreshPins (h : Canonical t) : Canonical (refreshPins t) := .quiet (refreshPins_within ..) h
protected theorem Canonical.leaveTest (h : Canonical t) : Canonical (leaveTest t) := .quiet (leaveTest_within ..) h
protected theorem Canonical.startWaiting (h : Canonical t) : Canonical (startWaiting t) := .quiet (startWaiting_within ..) h
protected theorem Canonical.condSet {n b l} (h : Canonical t) : Canonical (condSet n b l t) := .quiet (condSet_within ..) h

/-! ### Accesses of a master: the effect is the block's -/

protected theorem Canonical.hostRead {m a} {eff : State → Nat × State} (heff : ∀ v, Canonical v → Canonical (eff v).2)
    (h : Canonical t) : Canonical (hostRead m a eff t) := by
  unfold Machine.hostRead
  split
  · exact .emit (heff _ (.quiet (grantTo_within ..) h))
  · exact h
  · exact .emit h
  · exact .quiet (holdReq_within ..) h
  · exact .emit h
  · exact .quiet (hangOn_within ..) h
protected theorem Canonical.mirroredWrite {m a w} {eff : State → State} (heff : ∀ v, Canonical v → Canonical (eff v))
    (h : Canonical t) : Canonical (mirroredWrite m a w eff t) := by
  unfold Machine.mirroredWrite
  exact .ite (heff _ h) (.ite (.count h) (.ite (.upd rfl rfl (.quiet (mirrorSend_within ..) h)) (heff _ h)))
protected theorem Canonical.hostWrite {m a w} {eff : State → State} (heff : ∀ v, Canonical v → Canonical (eff v))
    (h : Canonical t) : Canonical (hostWrite m a w eff t) := by
  unfold Machine.hostWrite
  split
  · exact .mirroredWrite heff (.quiet (grantTo_within ..) h)
  · exact h
  · exact .emit h
  · exact .quiet (holdReq_within ..) h
  · exact h
  · exact .quiet (hangOn_within ..) h
protected theorem Canonical.bar2Write {mapped a bs} {eff : State → State} (heff : ∀ v, Canonical v → Canonical (eff v))
    (h : Canonical t) : Canonical (bar2Write mapped a bs eff t) := by
  unfold Machine.bar2Write
  split
  · exact heff _ (.quiet (grantTo_within ..) h)
  · exact .emit h
  · exact .quiet (holdReq_within ..) h
  · exact h

/-! ### The memories -/

protected theorem Canonical.mramWrite {x bs} (h : Canonical t) : Canonical (mramWrite t x bs) :=
  canonical_iff_wf.2 (mramWrite_wf _ _ _ (canonical_iff_wf.1 h))
protected theorem Canonical.flashPut {x bs} (h : Canonical t) : Canonical (flashPut t x bs) :=
  canonical_iff_wf.2 (flashPut_wf _ _ _ (canonical_iff_wf.1 h))
protected theorem Canonical.flashClear {x n} (h : Canonical t) : Canonical (flashClear t x n) :=
  canonical_iff_wf.2 (flashClear_wf _ _ _ (canonical_iff_wf.1 h))
protected theorem Canonical.stage {bs} (h : Canonical t) : Canonical (stage bs t) :=
  canonical_iff_wf.2 (stage_wf _ _ (canonical_iff_wf.1 h))
protected theorem Canonical.mramHeal {x n} (h : Canonical t) : Canonical (mramHeal x n t) := .upd rfl rfl h
protected theorem Canonical.mramCheck {i} (h : Canonical t) : Canonical (mramCheck i t) := by
  have checked {e} : Canonical (secded 5 0 e t).2 := .quiet (secded_within ..) h
  unfold Machine.mramCheck
  exact .ite h (.ite checked (.ite (.quiet (mramCorrected_within ..) (.mramHeal checked))
    (.quiet (mramUncorr_within ..) checked)))
protected theorem Canonical.mramRead {x n} (h : Canonical t) : Canonical (mramRead x n t).2 :=
  .foldl h fun _ _ k => .ite (.mramCheck k) k
protected theorem Canonical.mramScan {x n} (h : Canonical t) : Canonical (mramScan x n t) :=
  .quiet (mramReport_within ..) (.mramHeal h)
/-- A burst into the staging area or the SURF region. -/
protected theorem Canonical.stagingPut {x bs} (h : Canonical t) :
    Canonical { t with q := { t.q with staging := cellsPut (hbmDefault t 0) t.q.staging x bs } } :=
  ⟨h.mram, h.flash, mapWf_cellsPut _ _ _ _ h.staging, h.surf⟩
protected theorem Canonical.surfPut {x bs} (h : Canonical t) :
    Canonical { t with q := { t.q with surf := cellsPut (hbmDefault t 1) t.q.surf x bs } } :=
  ⟨h.mram, h.flash, h.staging, mapWf_cellsPut _ _ _ _ h.surf⟩
/-- A loss of what HBM held: nothing is written there any more. -/
protected theorem Canonical.hbmLost
    {pending regs core long pat fab test img upd xp vl q eng comp flow aud mac ref time pair out fresh}
    (_hp : pending = t.pending) (hm : long.mram = t.long.mram) (hf : long.flash = t.long.flash) (hs : q.staging = [])
    (hu : q.surf = []) (h : Canonical t) :
    Canonical (State.mk pending regs core long pat fab test img upd xp vl q eng comp flow aud mac ref time pair out fresh) :=
  ⟨hm ▸ h.mram, hf ▸ h.flash, hs ▸ rfl, hu ▸ rfl⟩

end Sys2Proof.Proofs.CanonicalMemories
end

section
/-! PROOF. The operations on queues, the host's windows and the scrubber keep the byte memories canonical (08 R193-R226). -/

set_option Elab.async false

namespace Sys2Proof.Proofs.CanonicalMemories

open Sys2Proof.Machine Sys2Proof.Laws

variable {s t u : State}

/-! ### One queue -/

protected theorem Canonical.putQ {q v} (h : Canonical t) : Canonical (putQ q v t) := .upd rfl rfl h
protected theorem Canonical.freezeQ {q} (h : Canonical t) : Canonical (freezeQ q t) := .quiet (condBegin_within ..) (.putQ h)
protected theorem Canonical.hbmCheck {w e q} (h : Canonical t) : Canonical (hbmCheck w e q t).2 :=
  .quiet (hbmCheck_within ..) h
protected theorem Canonical.hbmRead {w n e q} (h : Canonical t) : Canonical (hbmRead w n e q t).2 :=
  .quiet (hbmRead_within ..) h
protected theorem Canonical.sideCheck {w q} (h : Canonical t) : Canonical (sideCheck w q t).2 :=
  .quiet (sideCheck_within ..) h
protected theorem Canonical.touchQ {q} (h : Canonical t) : Canonical (touchQ q t) := by
  unfold Machine.touchQ
  extract_lets hot hit src u r
  have hu : Canonical u := .ite h (.upd rfl rfl h)
  have hr : Canonical r.2 := .iteSnd (.quiet (wideCheck_within ..) (.cycleBegin hu)) (.hbmCheck (.count (.cycleBegin hu)))
  exact .cycleEnd (.ite (.freezeQ hr) hr)
protected theorem Canonical.touchBlock {q} (h : Canonical t) : Canonical (touchBlock q t) := .ite (.touchQ h) h
protected theorem Canonical.fetchCell {q j errs w cell} (h : Canonical t) : Canonical (fetchCell q j errs w cell t) := by
  unfold Machine.fetchCell
  exact .putQ (.sideCheck (.foldlSnd h fun _ _ k => .hbmCheck k))
protected theorem Canonical.dataCheck {q k errs} (h : Canonical t) : Canonical (dataCheck q k errs t).2 := by
  unfold Machine.dataCheck
  exact .iteSnd (.quiet (wideCheck_within ..) (.ite (.fetchCell h) (.ite (.putQ h) h))) (.sideCheck (.hbmCheck h))
protected theorem Canonical.syncCells {q} (h : Canonical t) : Canonical (syncCells q t) :=
  .putQ (.quiet (freeCells_within ..) h)
protected theorem Canonical.qOp {q f} (h : Canonical t) : Canonical (qOp q f t) := .ite (.syncCells (.putQ (.touchQ h))) h
protected theorem Canonical.queueWrite {q bs} (h : Canonical t) : Canonical (queueWrite q bs t) := by
  unfold Machine.queueWrite
  exact .qOp (.ite (.hbmCheck h) h)
protected theorem Canonical.queueRead {q errs} (h : Canonical t) : Canonical (queueRead q errs t).2 := by
  unfold Machine.queueRead
  exact .iteSnd h (.iteSnd (.touchQ h) (.putQ (.dataCheck (.touchQ h))))
protected theorem Canonical.queueMark {q} (h : Canonical t) : Canonical (queueMark q t) := .qOp h
protected theorem Canonical.queueRewind {q} (h : Canonical t) : Canonical (queueRewind q t) := .qOp h
protected theorem Canonical.queueRelease {q} (h : Canonical t) : Canonical (queueRelease q t) := .qOp h

/-! ### Records -/

protected theorem Canonical.roomFor {kind q n} (h : Canonical t) : Canonical (roomFor kind q n t).2 := .iteSnd (.touchQ h) h
protected theorem Canonical.putRecord {q bs} (h : Canonical t) : Canonical (putRecord q bs t) :=
  .qOp (.foldl h fun _ _ k => .queueWrite k)
protected theorem Canonical.takeRecord {q} (h : Canonical t) : Canonical (takeRecord q t).2 := by
  unfold Machine.takeRecord
  exact .iteSnd h (.iteSnd (.touchQ h) (.foldlSnd (.touchQ h) fun _ _ k => .queueRead k))
protected theorem Canonical.readRecords {q n} (h : Canonical t) : Canonical (readRecords q n t).2 := by
  induction n generalizing t with
  | zero => exact h
  | succ n ih =>
    have taken : Canonical (takeRecord q t).2 := .takeRecord h
    unfold Machine.readRecords
    split
    · next heq => rw [heq] at taken; exact taken
    · next heq => rw [heq] at taken; exact ih taken
protected theorem Canonical.storeOp {n} (h : Canonical t) : Canonical (storeOp n t).2 := .touchQ h
protected theorem Canonical.storeTake {n} (h : Canonical t) : Canonical (storeTake n t) := .upd rfl rfl h

/-! ### The host's windows (R224, R225) -/

protected theorem Canonical.portWrite {q off bs} (h : Canonical t) : Canonical (portWrite q off bs t) := by
  unfold Machine.portWrite
  exact .ite (.count h) (.ite (.queueWrite h) (.ite (.foldl h fun _ _ k => .queueWrite k) (.count h)))
protected theorem Canonical.portRead {q errs whole} (h : Canonical t) : Canonical (portRead q errs whole t) := by
  unfold Machine.portRead
  exact .ite (.emit (.count h)) (.emit (.queueRead h))
protected theorem Canonical.capWrite {q c} (h : Canonical t) : Canonical (capWrite q c t) := by
  have refused {r i a} : Canonical (refuse 0 r i a (spend t)) := .quiet (refuse_within ..) (.spend h)
  unfold Machine.capWrite
  dsimp only
  refine .ite refused ?_
  split
  · exact h
  · exact .ite refused (.putQ (.touchQ h))
protected theorem Canonical.hostOp {q code} (h : Canonical t) : Canonical (hostOp q code t) := by
  unfold Machine.hostOp
  exact .ite (.quiet (blockReset_within ..) (.qOp h)) (.qOp h)
protected theorem Canonical.qOpWrite {q code} (h : Canonical t) : Canonical (qOpWrite q code t) :=
  .bar2Write (fun _ => .hostOp) h
protected theorem Canonical.qStatClear {q w} (h : Canonical t) : Canonical (qStatClear q w t) := by
  unfold Machine.qStatClear
  exact .ite (.putQ (.touchQ h)) h
protected theorem Canonical.windowPut {q o bs} (h : Canonical t) : Canonical (windowPut q o bs t) := by
  unfold Machine.windowPut
  exact .ite (.portWrite h) (.ite (.count h) (.ite (.hostOp h) (.ite (.capWrite h) (.ite (.qStatClear h) h))))
protected theorem Canonical.burstWrite {a bs} (h : Canonical t) : Canonical (burstWrite a bs t) := by
  unfold Machine.burstWrite
  exact .ite (.bar2Write (fun _ => .windowPut) h) (.ite (.bar2Write (fun _ => .stagingPut) h)
    (.bar2Write (fun _ => .surfPut) h))
protected theorem Canonical.piecesWrite {k a bs} (h : Canonical t) : Canonical (piecesWrite k a bs t) :=
  .foldl h fun _ _ k => .burstWrite k
protected theorem Canonical.windowWrite {a bs} (h : Canonical t) : Canonical (windowWrite a bs t) :=
  .ite (.emit h) (.piecesWrite h)
protected theorem Canonical.windowRead {a n errs} (h : Canonical t) : Canonical (windowRead a n errs t).2 := by
  unfold Machine.windowRead
  extract_lets zeros staged q touched x size read
  have htouched : Canonical touched := .ite (.touchQ h) h
  have hstaged : Canonical staged.2 := .hbmRead h
  have hread : Canonical read.2 := .hbmRead h
  exact .iteSnd hstaged (.iteSnd htouched (.iteSnd (.mramRead h) (.iteSnd (.iteSnd h hread) h)))
protected theorem Canonical.burstRead {a n errs} (h : Canonical t) : Canonical (burstRead a n errs t) := by
  have granted : Canonical (grantTo (bar2Port t a) 0 t) := .quiet (grantTo_within ..) h
  unfold Machine.burstRead
  split
  · exact .ite (.ite (.portRead granted) (.emit (.count (.windowRead granted)))) (.emit (.windowRead granted))
  · exact .emit h
  · exact .quiet (holdReq_within ..) h
  · exact h
protected theorem Canonical.bar2Read {a n errs} (h : Canonical t) : Canonical (bar2Read a n errs t) :=
  .ite (.emit h) (.foldl h fun _ _ k => .burstRead k)

/-! ### HBM requests and the scrubber (R197, R220) -/

protected theorem Canonical.admitOne {st} (h : Canonical t) : Canonical (admitOne st t) := by
  unfold Machine.admitOne
  dsimp only
  refine .ite h ?_
  split
  · exact h
  · exact .fset (.upd rfl rfl h)
protected theorem Canonical.admitAll {st n} (h : Canonical t) : Canonical (admitAll st n t) := by
  induction n generalizing t with
  | zero => exact h
  | succ n ih => exact ih (.admitOne h)
protected theorem Canonical.hbmAdmit {st l fin} (h : Canonical t) : Canonical (hbmAdmit st l fin t) := by
  unfold Machine.hbmAdmit
  exact .quiet (countN_within ..) (.admitAll (.upd rfl rfl (.admitAll (.fset h))))
protected theorem Canonical.scrubNext (h : Canonical t) : Canonical (scrubNext t) := by
  unfold Machine.scrubNext
  exact .ite (.upd rfl rfl h) (.ite (.upd rfl rfl h) (.fset (.upd rfl rfl h)))
protected theorem Canonical.scrubRead {errs q} (h : Canonical t) : Canonical (scrubRead errs q t) := by
  unfold Machine.scrubRead
  extract_lets st off desc q1 rg q2 r uncorr v
  have hr : Canonical r.2 := .quiet (secded_within ..) (.cycleBegin h)
  have hu : Canonical uncorr := .quiet (eccUncorr_within ..) hr
  refine .ite h (.scrubNext (.cycleEnd (.ite hr (.ite (.quiet (eccCorr_within ..) hr) ?_))))
  cases desc with
  | some d => exact .ite (.freezeQ hu) hu
  | none => exact hu

end Sys2Proof.Proofs.CanonicalMemories
end

section
/-! PROOF. The media blocks keep the byte memories canonical: switching and synchronisers (04), lanes (05), packet ports
(06), flows (07), engines (09), composition (10), and the switch point, which runs them all. -/

set_option Elab.async false

namespace Sys2Proof.Proofs.CanonicalMemories

open Sys2Proof.Machine Sys2Proof.Laws

variable {s t u : State}

/-! ### Frame synchronisers and destinations (04 R84, R105-R110) -/

protected theorem Canonical.setFsync {d f} (h : Canonical t) : Canonical (setFsync d f t) := .quiet (setFsync_within ..) h
protected theorem Canonical.setDest {d v} (h : Canonical t) : Canonical (setDest d v t) := .quiet (setDest_within ..) h
protected theorem Canonical.fsyncLose {d f} (h : Canonical t) : Canonical (fsyncLose d f t) := .quiet (fsyncLose_within ..) h
protected theorem Canonical.fsyncTake {d new} (h : Canonical t) : Canonical (fsyncTake d new t) := by
  unfold Machine.fsyncTake
  extract_lets f o take taken shown set
  have htaken : Canonical taken := .ite (.storeTake (.storeOp h)) (.storeOp h)
  have hset : Canonical set := .setFsync htaken
  exact .ite h (.ite hset (.quiet (fsyncRepeat_within ..) hset))
protected theorem Canonical.fsyncSelect {d} (h : Canonical t) : Canonical (fsyncSelect d t) := by
  unfold Machine.fsyncSelect
  dsimp only
  split
  · split
    · exact .ite (.fsyncLose (.storeTake (.storeOp h))) (.setFsync (.storeTake (.storeOp h)))
    · exact .quiet (fsyncRepeat_within ..) (.ite (.fsyncLose (.storeOp h)) (.setFsync (.storeOp h)))
  · exact h
protected theorem Canonical.fsyncSwitch {d} (h : Canonical t) : Canonical (fsyncSwitch d t) := by
  have settled : Canonical (fsyncSettings d t) := .quiet (fsyncSettings_within ..) h
  unfold Machine.fsyncSwitch
  dsimp only
  split
  · exact .fsyncTake settled
  · exact .fsyncSelect settled
protected theorem Canonical.fsyncComplete {d} (h : Canonical t) : Canonical (fsyncComplete d t) := by
  unfold Machine.fsyncComplete
  dsimp only
  split
  · exact .ite (.setDest (.storeOp h)) (.setDest (.quiet (wholeFrame_within ..)
      (.ite (.quiet (countF_within ..) (.storeOp h)) (.storeOp h))))
  · exact h
protected theorem Canonical.applyPend {d} (h : Canonical t) : Canonical (applyPend d t) := by
  unfold Machine.applyPend
  extract_lets a black x same new taken xp changed
  have htaken : Canonical taken := .ite h (.fsyncTake h)
  have hchanged : Canonical changed := .ite htaken (.upd rfl rfl htaken)
  exact .ite h (.quiet (clearPend_within ..) (.fset (.fset hchanged)))
protected theorem Canonical.destSwitchRead {p} (h : Canonical t) : Canonical (destSwitchRead p t) := by
  unfold Machine.destSwitchRead
  exact .ite h (.foldl (.quiet (realign_within ..) h) fun _ _ k => .quiet (choosePath_within ..) (.applyPend k))

/-! ### Lanes (05 R135-R139) -/

protected theorem Canonical.setLane {v l} (h : Canonical t) : Canonical (setLane v l t) := .quiet (setLane_within ..) h
protected theorem Canonical.ancCapture {v line hanc stream ok did sdid pos udw} (h : Canonical t) :
    Canonical (ancCapture v line hanc stream ok did sdid pos udw t) := by
  have stepped {b} : Canonical (fcStep v line (checkFails 10 v b t).2) :=
    .quiet (fcStep_within ..) (.quiet (checkFails_within ..) h)
  unfold Machine.ancCapture
  dsimp only
  refine .ite h ?_
  split
  · exact stepped
  · exact .ite (.putRecord (.ite (.setLane (.roomFor stepped)) (.roomFor stepped))) (.raise (.count (.roomFor stepped)))
protected theorem Canonical.insSwitch {v n} (h : Canonical t) : Canonical (insSwitch v n t) := by
  unfold Machine.insSwitch
  extract_lets l o ctrl q was src put
  have hsrc : Canonical src := .ite (.queueRelease h) h
  have hput {set w} (hw : Canonical w) : Canonical (put set w) := .setLane hw
  exact .ite (hput hsrc) (.ite (hput (.readRecords hsrc)) (.ite
    (.ite (hput (.readRecords (.queueMark (.queueRelease hsrc)))) (hput (.readRecords (.queueRewind hsrc))))
    (hput (.readRecords (.queueMark hsrc)))))
protected theorem Canonical.laneSwitch {v} (h : Canonical t) : Canonical (laneSwitch v t) := by
  unfold Machine.laneSwitch
  exact .ite (.fset (.setLane h))
    (.quiet (laneRecords_within ..) (.foldl (.fset (.setLane h)) fun _ _ k => .insSwitch k))
protected theorem Canonical.vlaneSwitch {p} (h : Canonical t) : Canonical (vlaneSwitch p t) :=
  .foldl h fun _ _ k => .laneSwitch k

/-! ### Packet ports (06 R154-R165) -/

protected theorem Canonical.txStart {m} (h : Canonical t) : Canonical (txStart m t) := .quiet (txStart_within ..) h
protected theorem Canonical.setMac {m p} (h : Canonical t) : Canonical (setMac m p t) := .quiet (setMac_within ..) h
protected theorem Canonical.tsComplete {m tag ts} (h : Canonical t) : Canonical (tsComplete m tag ts t) := by
  unfold Machine.tsComplete
  extract_lets r q c
  have hc : Canonical c.2 := .iteSnd (.roomFor h) h
  exact .ite (.putRecord hc) (.count hc)
protected theorem Canonical.txEnd {m} (h : Canonical t) : Canonical (txEnd m t) := by
  unfold Machine.txEnd
  dsimp only
  split
  · exact .txStart h
  · refine .txStart (.quiet (macApplyEn_within ..) ?_)
    split
    · exact .tsComplete (.quiet (count64_within ..) (.quiet (count64_within ..) (.emit (.setMac h))))
    · exact .quiet (count64_within ..) (.quiet (count64_within ..) (.emit (.setMac h)))
protected theorem Canonical.excRecord {m ptp bs} (h : Canonical t) : Canonical (excRecord m ptp bs t) := by
  unfold Machine.excRecord
  extract_lets r q body c src p w0 ts placed
  have hc : Canonical c.2 := .iteSnd (.roomFor h) h
  exact .ite (.putRecord (.setMac hc)) (.raise (.count hc))
protected theorem Canonical.rxOutcome {m bs lost bad} {claim : List Nat → State → Option State}
    (hclaim : ∀ l v w, claim l v = some w → Canonical v → Canonical w) (h : Canonical t) :
    Canonical (rxOutcome claim m bs lost bad t) := by
  unfold Machine.rxOutcome
  extract_lets f src handed
  have hf : Canonical src := .quiet (crcObserved_within ..) h
  have hhanded : Canonical handed := .quiet (rxHanded_within ..) hf
  refine .ite (.raise (.count hf)) (.ite (.count hf) (.ite (.count hf) (.ite (.count hf) (.ite (.count hf)
    (.ite (.quiet (pauseSeen_within ..) hf) (.ite (.count hf) (.ite (.excRecord hhanded) ?_)))))))
  split
  · next hw => exact hclaim _ _ _ hw hhanded
  · exact .excRecord hhanded
protected theorem Canonical.rxFrame {m bs drained pcsErr corr uncorr} {claim : List Nat → State → Option State}
    (hclaim : ∀ l v w, claim l v = some w → Canonical v → Canonical w) (h : Canonical t) :
    Canonical (rxFrame claim m bs drained pcsErr corr uncorr t) := by
  unfold Machine.rxFrame
  extract_lets shared up counted lost
  have hshared : Canonical shared := .quiet (rxDrain_within ..) h
  have hcounted : Canonical counted := .quiet (fecCount_within ..) hshared
  exact .ite h (.ite hshared (.ite hcounted (.ite (.quiet (rxBoundary_within ..) hcounted)
    (.quiet (rxBoundary_within ..) (.rxOutcome hclaim hcounted)))))
protected theorem Canonical.injectRecord {m} (h : Canonical t) : Canonical (injectRecord m t) := by
  unfold Machine.injectRecord
  extract_lets r q
  have taken : Canonical (takeRecord q t).2 := .takeRecord h
  refine .ite h ?_
  split
  · exact h
  · next heq =>
    rw [heq] at taken
    exact .ite (.count (.queueRelease taken)) (.ite h (.quiet (txPlace_within ..) (.queueRelease taken)))

/-! ### ANC flows (07 R189, R190) -/

protected theorem Canonical.ancClose {f ts} (h : Canonical t) : Canonical (ancClose f ts t) := by
  unfold Machine.ancClose
  extract_lets latched v tk k moved fr set
  have hset : Canonical set := .quiet (setRx_within ..) (.quiet (advanceTo_within ..) (.quiet (rxLatch_within ..) h))
  refine .ite h ?_
  cases fr with
  | none => exact .quiet (groupSlip_within ..) hset
  | some x => exact .ite hset (.foldl hset fun _ _ k => .ite (.putRecord (.roomFor k)) (.count (.roomFor k)))
protected theorem Canonical.ancTxSwitch {f} (h : Canonical t) : Canonical (ancTxSwitch f t) := by
  unfold Machine.ancTxSwitch
  extract_lets tx o cfg q rep was put src
  have hsrc : Canonical src := .ite (.queueRelease h) h
  have hput {set w} (hw : Canonical w) : Canonical (put set w) := .quiet (setTx_within ..) hw
  exact .ite (hput (.readRecords hsrc)) (.ite
    (.ite (hput (.readRecords (.queueMark (.queueRelease hsrc)))) (hput (.readRecords (.queueRewind hsrc))))
    (hput (.readRecords (.queueMark hsrc))))
protected theorem Canonical.ancTxSwitchAll {p} (h : Canonical t) : Canonical (ancTxSwitchAll p t) :=
  .foldl h fun _ _ k => .ite (.ancTxSwitch k) k

/-! ### Slots of the engines (09 R242-R250) -/

protected theorem Canonical.slotRead {x errs} (h : Canonical t) : Canonical (slotRead x errs t) := by
  unfold Machine.slotRead
  extract_lets q st touched c v kept
  have hc : Canonical c.2 := .hbmCheck (.spend (.touchQ h))
  have hkept : Canonical kept := .ite (.putQ hc) hc
  exact .ite h (.ite (.quiet (onFrame_within ..) hkept) hkept)
protected theorem Canonical.bandDeadline {n b} (h : Canonical t) : Canonical (bandDeadline n b t) := by
  unfold Machine.bandDeadline
  extract_lets v x put q
  have hput {w u} (hu : Canonical u) : Canonical (put w u) := .upd rfl rfl hu
  cases v.old with
  | none => exact h
  | some f =>
    refine .ite h ?_
    extract_lets cancelled ended black shown counted sl late
    have hended : Canonical ended := .touchBlock (.quiet (setSlot_within ..) (.quiet (cancelTasks_within ..) h))
    have hlate : Canonical late := .quiet (setSlot_within ..) (.count (.ite hended (hput hended)))
    exact .ite (hput hended) (.ite hlate (.raise hlate))

/-! ### Composition (10 R257-R275) -/

protected theorem Canonical.setHead {x v} (h : Canonical t) : Canonical (setHead x v t) := .quiet (setHead_within ..) h
protected theorem Canonical.surfRead {ws errs k} (h : Canonical t) : Canonical (surfRead ws errs k t).2 :=
  .quiet (surfRead_within ..) h
protected theorem Canonical.surfFail {l n} (h : Canonical t) : Canonical (surfFail l n t) := .quiet (surfFail_within ..) h
protected theorem Canonical.lStat {l f b} (h : Canonical t) : Canonical (lStat l f b t) := .quiet (lStat_within ..) h
protected theorem Canonical.setLayer {l v} (h : Canonical t) : Canonical (setLayer l v t) := .quiet (setLayer_within ..) h
protected theorem Canonical.gessoDone {x n l errs k} (h : Canonical t) : Canonical (gessoDone x n l errs k t) := by
  unfold Machine.gessoDone
  dsimp only
  split
  · exact h
  · exact .surfFail (.setHead (.surfRead (.touchBlock h)))
protected theorem Canonical.layerRead {x n errs k i} (h : Canonical t) : Canonical (layerRead x n errs k i t) := by
  unfold Machine.layerRead
  extract_lets z p o px c m rows r v
  have hc : Canonical c.2 := .hbmRead (.spend (.storeOp h))
  exact .ite (.ite (.quiet (frameLost_within ..) hc) hc) (.ite (.surfFail (.setHead (.surfRead h))) (.touchBlock h))
protected theorem Canonical.scaleDone {x n l errs k} (h : Canonical t) : Canonical (scaleDone x n l errs k t) := by
  unfold Machine.scaleDone
  dsimp only
  split
  · exact h
  · exact .setHead (.layerRead h)
protected theorem Canonical.composeDone {x n errs k} (h : Canonical t) : Canonical (composeDone x n errs k t) :=
  .setHead (.foldl h fun _ _ k => .layerRead k)
protected theorem Canonical.headTaskDone {x errs k} (h : Canonical t) : Canonical (headTaskDone x errs k t) := by
  unfold Machine.headTaskDone
  extract_lets hd done v n set
  have hset : Canonical set := .setHead (.ite (.gessoDone h) (.scaleDone h))
  exact .ite h (.ite (.composeDone h) (.ite (.quiet (issue_within ..) hset) hset))
protected theorem Canonical.taskComplete {e cycles errs k} (h : Canonical t) :
    Canonical (taskComplete e cycles errs k t) := by
  have freed {x q n} : Canonical (setInflight q n (count (setRunning e x t) (Reg.ENG_E_TASKS e))) :=
    .quiet (setInflight_within ..) (.count (.quiet (setRunning_within ..) h))
  unfold Machine.taskComplete
  dsimp only
  split
  · exact h
  · exact .quiet (pushAll_within ..) (.ite (.headTaskDone (.upd rfl rfl freed))
      (.quiet (slotTaskDone_within ..) (.slotRead (.upd rfl rfl freed))))
protected theorem Canonical.layerSelect {l} (h : Canonical t) : Canonical (layerSelect l t) := by
  unfold Machine.layerSelect
  dsimp only
  split
  · exact .lStat (.lStat (.setLayer (.storeTake (.storeOp h))))
  · exact .raise (.count (.lStat (.lStat (.storeOp h))))
protected theorem Canonical.layerCut {l} (h : Canonical t) : Canonical (layerCut l t).2 := by
  unfold Machine.layerCut
  extract_lets v0 v cut w chosen fr field i r set last
  have hcut : Canonical cut := .lStat (.setLayer h)
  have hchosen : Canonical chosen := .ite (.layerSelect hcut) (.lStat hcut)
  exact .iteSnd (.lStat hchosen) (.lStat (.setLayer (.quiet (layerDecide_within ..) hchosen)))
protected theorem Canonical.compCutoff {x} (h : Canonical t) : Canonical (compCutoff x t) := by
  unfold Machine.compCutoff
  extract_lets k lo comp tables ctrl hd begun r ls lin stat cut ts left hd' set
  have hbegun : Canonical begun := .setHead (.upd rfl rfl h)
  have hr : Canonical r.2 := .foldlSnd (r := ([], begun)) hbegun fun _ _ k => .layerCut k
  exact .ite h (.quiet (issue_within ..) (.setHead (.quiet (rset64_within ..) (.fset hr))))
protected theorem Canonical.compDeadline {x} (h : Canonical t) : Canonical (compDeadline x t) := by
  have counted {q p n v} : Canonical (Machine.fset (countN (cancelTasks q p t) (Reg.COMP_H_TILE_LATE x) n)
      (Reg.COMP_H_STAT x) Fld.COMP_H_STAT_LATE_TILES v) :=
    .fset (.quiet (countN_within ..) (.quiet (cancelTasks_within ..) h))
  unfold Machine.compDeadline
  dsimp only
  split
  · exact h
  · exact .ite h (.ite (.setHead (.storeOp counted)) (.raise (.setHead (.storeOp counted))))
protected theorem Canonical.headSelect {x} (h : Canonical t) : Canonical (headSelect x t) := by
  unfold Machine.headSelect
  extract_lets g r o v shown f
  have hshown : Canonical shown := by
    simp only [shown]
    split
    · exact .upd rfl rfl (.storeTake (.setHead (.storeOp h)))
    · exact .storeOp h
  exact .foldl hshown fun _ _ k => .ite (.quiet (headLink_within ..) k) k
protected theorem Canonical.compSwitch {p} (h : Canonical t) : Canonical (compSwitch p t) := by
  unfold Machine.compSwitch
  refine .foldl (.foldl h fun _ _ k => ?_) fun _ _ k => .headSelect k
  exact .ite k (.upd rfl rfl (.ite (.setLayer (.storeOp k)) (.storeOp k)))

/-! ### The switch point and the switching line (04 R84, R89) -/

protected theorem Canonical.switchSettings {p} (h : Canonical t) : Canonical (switchSettings p t) := by
  have tpg : Canonical (tpgApply p t) := .quiet (tpgApply_within ..) h
  have synced : Canonical ((planeDests (tpgApply p t).img p).foldl
      (fun s d => if (destSync s.img d).isSome then fsyncSwitch d s else s) (tpgApply p t)) :=
    .foldl tpg fun _ _ k => .ite (.fsyncSwitch k) k
  unfold Machine.switchSettings
  extract_lets s1 s2 s3 s4 s5
  have h4 : Canonical s4 := .quiet (groupsRealign_within ..) (.compSwitch (.ancTxSwitchAll (.vlaneSwitch synced)))
  exact .ite h (.quiet (copyApply_within ..) (.ite (.quiet (audFrameBoundary_within ..) h4) h4))
protected theorem Canonical.switchPoint {p} (h : Canonical t) : Canonical (switchPoint p t) := by
  unfold Machine.switchPoint
  extract_lets pair s1 xp s2 s3 s4 s5
  have h1 : Canonical s1 := .ite (.upd rfl rfl h) h
  have h3 : Canonical s3 := .quiet (framePulse_within ..) (.quiet (fcAdvance_within ..) (.upd rfl rfl h1))
  have h4 : Canonical s4 := .ite (.quiet (sigAudio_within ..) h3) h3
  have h5 : Canonical s5 := .quiet (tkPhase_within ..) (.quiet (tkPhase_within ..) (.switchSettings h4))
  exact .ite h (.quiet (markerSend_within ..) (.ite (.quiet (wclkPlane1_within ..) h5) h5))
protected theorem Canonical.switchLineRead {p} (h : Canonical t) : Canonical (switchLineRead p t) := by
  have closed : Canonical (sigClose p (framePulse p false t)) :=
    .quiet (sigClose_within ..) (.quiet (framePulse_within ..) h)
  unfold Machine.switchLineRead
  exact .ite h (.ite (.quiet (castBlack_within ..) closed) (.quiet (sdiFrames_within ..) (.destSwitchRead closed)))
protected theorem Canonical.planeJump {p} (h : Canonical t) : Canonical (planeJump p t) := by
  unfold Machine.planeJump
  extract_lets v half ahead pl set jumped
  have hset : Canonical set := .quiet (setRefPl_within ..) (.quiet (setResid_within ..) (.quiet (advanceTicks_within ..) h))
  have hjumped : Canonical jumped := .quiet (planeEvent_within ..) (.switchPoint (.quiet (wclkJump_within ..) hset))
  exact .ite h (.ite (.upd rfl rfl hjumped) hjumped)

end Sys2Proof.Proofs.CanonicalMemories
end

section
/-! PROOF. The MRAM's writers keep the byte memories canonical: the Patina journal, the lifetime counters, the Keep region
(17 R423-R441). -/

set_option Elab.async false

namespace Sys2Proof.Proofs.CanonicalMemories

open Sys2Proof.Machine Sys2Proof.Laws

variable {s t u : State}

/-! ### Votes, lifetime counters, the journal -/

protected theorem Canonical.write3 {base v} (h : Canonical t) : Canonical (write3 t base v) :=
  .foldl h fun _ _ k => .mramWrite k
protected theorem Canonical.setArbCount {v} (h : Canonical t) : Canonical (setArbCount v t) := .ite h (.write3 h)
protected theorem Canonical.setBootPtr {v} (h : Canonical t) : Canonical (setBootPtr v t) := .write3 h
protected theorem Canonical.writeLife (h : Canonical t) : Canonical (writeLife t) := .foldl h fun _ _ k => .mramWrite k
protected theorem Canonical.lifeAdd {k n} (h : Canonical t) : Canonical (lifeAdd t k n) := .quiet (lifeAdd_within ..) h
protected theorem Canonical.loadLife (h : Canonical t) : Canonical (loadLife t) := by
  unfold Machine.loadLife
  extract_lets votes long s1 va vb bad sum seen soft s2 s3 s4 s5
  clear_value votes
  have h1 : Canonical s1 := .upd rfl rfl h
  have h2 : Canonical s2 := .mramHeal (.foldl h1 fun _ _ k => .mramHeal k)
  have h3 : Canonical s3 := .ite (.writeLife h2) h2
  have h4 : Canonical s4 := .ite (.write3 h3) h3
  have h5 : Canonical s5 := .ite (.write3 h4) h4
  exact .upd rfl rfl h5
protected theorem Canonical.lifeUpdate {adds} (h : Canonical t) : Canonical (lifeUpdate adds t) :=
  .writeLife (.upd rfl rfl (.foldl h fun _ _ k => .ite (.lifeAdd k) k))
protected theorem Canonical.writeRec {upto} (h : Canonical t) : Canonical (writeRec upto t) := by
  unfold Machine.writeRec
  dsimp only
  split
  · exact h
  · exact .ite h (.upd rfl rfl (.mramWrite h))
protected theorem Canonical.findHead (h : Canonical t) : Canonical (findHead t) := by
  unfold Machine.findHead
  extract_lets next ready sound torn r pat found
  have hready : Canonical ready := .fset (.quiet (setPatSeq_within ..) h)
  exact .mramScan (.ite hready (.upd rfl rfl (.fset (.lifeAdd hready))))

/-! ### The Keep region -/

protected theorem Canonical.snapBegin {b g vs} (h : Canonical t) : Canonical (snapBegin b g vs t) := .upd rfl rfl h
protected theorem Canonical.writeSnap {b g vs} (h : Canonical t) : Canonical (writeSnap b g vs t) :=
  .upd rfl rfl (.mramWrite (.mramWrite (.mramWrite h)))
protected theorem Canonical.logWrite {x i v0 v1} (h : Canonical t) : Canonical (logWrite x i v0 v1 t) := by
  unfold Machine.logWrite
  split
  · exact h
  · exact .upd rfl rfl (.mramWrite h)
protected theorem Canonical.logItems {vs} (h : Canonical t) : Canonical (logItems vs t) := .foldl h fun _ _ k => .logWrite k
protected theorem Canonical.logEnd {vs final} (h : Canonical t) : Canonical (logEnd vs final t) := .upd rfl rfl (.logWrite h)
protected theorem Canonical.logFlush {vs final} (h : Canonical t) : Canonical (logFlush vs final t) := .logEnd (.logItems h)
protected theorem Canonical.snapEnd {j} (h : Canonical t) : Canonical (snapEnd j t) := .upd rfl rfl (.writeSnap h)
protected theorem Canonical.keepWork {n left} (h : Canonical t) : Canonical (keepWork n left t) := by
  induction n generalizing left t with
  | zero => exact h
  | succ n ih =>
    unfold Machine.keepWork
    split
    · exact .ite (ih (.snapEnd h)) (.upd rfl rfl h)
    · split
      · exact .ite (ih (.snapBegin h)) (.ite (ih (.logEnd (.upd rfl rfl (.logItems h)))) (.upd rfl rfl (.logItems h)))
      · exact h
protected theorem Canonical.keepRun {pace} (h : Canonical t) : Canonical (keepRun pace t) := by
  unfold Machine.keepRun
  exact .ite h (.setBacklog (.keepWork (.quiet (takeDirty_within ..) (.ite (.snapBegin (.upd rfl rfl h)) h))))
protected theorem Canonical.keepCastFlush (h : Canonical t) : Canonical (keepCastFlush t) := by
  unfold Machine.keepCastFlush
  extract_lets pat begun worked vs pat' drained
  have hdrained : Canonical drained := .upd rfl rfl (.keepWork (.ite (.snapBegin (.upd rfl rfl h)) h))
  refine .ite h (.setBacklog ?_)
  split
  · exact hdrained
  · exact .ite hdrained (.ite (.writeSnap (.upd rfl rfl hdrained)) (.logFlush hdrained))
protected theorem Canonical.clearWhole (h : Canonical t) : Canonical (clearWhole t) := by
  unfold Machine.clearWhole
  split
  · exact .writeSnap h
  · split <;> exact .writeSnap h
protected theorem Canonical.clearNow (h : Canonical t) : Canonical (clearNow t) := by
  have stopped : Canonical { t with pat := { t.pat with snapJob := none, needSnap := false } } := .upd rfl rfl h
  unfold Machine.clearNow
  refine .ite ?_ (.upd rfl rfl (.clearWhole stopped))
  split <;> exact .snapBegin stopped
protected theorem Canonical.keepCtrlWrite {w} (h : Canonical t) : Canonical (keepCtrlWrite w t) :=
  .ite h (.ite (.upd rfl rfl h) (.clearNow h))
protected theorem Canonical.heldClear (h : Canonical t) : Canonical (heldClear t) := .ite h (.clearNow (.upd rfl rfl h))
protected theorem Canonical.keepRestore (h : Canonical t) : Canonical (keepRestore t) := by
  unfold Machine.keepRestore
  extract_lets pat dropped none_ scanned
  have hscanned : Canonical scanned := .mramScan (.mramScan (.rsetN (.upd rfl rfl h)))
  split
  · exact .raise (.logEvent (.rsetN (.rsetN (.patStat (.patStat (.upd rfl rfl hscanned))))))
  · extract_lets r v src pat' restored shown counted logged checked
    have hv : Canonical v.1 := .quiet (restoreAll_within ..) hscanned
    have hchecked : Canonical checked :=
      .mramScan (.logEvent (.rsetN (.rsetN (.patStat (.patStat (.upd rfl rfl hv))))))
    exact .ite (.raise hchecked) hchecked

/-! ### Power failure (R430-R432) -/

protected theorem Canonical.powerFail (h : Canonical t) : Canonical (powerFail t) := by
  have counted : Canonical (Machine.lifeAdd (setFiltered 10 false t) 5 1) :=
    .lifeAdd (.quiet (setFiltered_within ..) h)
  unfold Machine.powerFail
  exact .ite (.upd rfl rfl (.writeLife counted)) (.logEvent (.setBacklog (.fset (.upd rfl rfl counted))))
protected theorem Canonical.finalFlush (h : Canonical t) : Canonical (finalFlush t) := by
  unfold Machine.finalFlush
  extract_lets life vs room pat opened begun pat' flushed
  have hflushed : Canonical flushed :=
    .ite h (.ite (.upd rfl rfl h) (.ite (.upd rfl rfl (.logWrite h)) (.logFlush (.logWrite h))))
  exact .ite (.upd rfl rfl (.writeLife h)) (.ite h
    (.upd rfl rfl (.writeLife (.fset (.setBacklog (.upd rfl rfl hflushed))))))

end Sys2Proof.Proofs.CanonicalMemories
end

section
/-! PROOF. The boot, the resets and the update keep the byte memories canonical (02; 18). -/

set_option Elab.async false

namespace Sys2Proof.Proofs.CanonicalMemories

open Sys2Proof.Machine Sys2Proof.Laws

variable {s t u : State}

/-! ### Entry to service and to SAFE (02 R39-R46) -/

protected theorem Canonical.macEnter {m st} (h : Canonical t) : Canonical (macEnter m st t) := .quiet (macEnter_within ..) h
protected theorem Canonical.bootDone (h : Canonical t) : Canonical (bootDone t) := .quiet (bootDone_within ..) h
protected theorem Canonical.keepRegs {p} (h : Canonical t) : Canonical (keepRegs p t) := .quiet (keepRegs_within ..) h
protected theorem Canonical.enterService {m} (h : Canonical t) : Canonical (enterService m t) := by
  unfold Machine.enterService
  extract_lets moded w ref windowed planes chosen pinned conds
  have hplanes : Canonical planes :=
    .foldl (.upd rfl rfl (.setStep (.setMode h))) fun _ _ k => .quiet (planeStart_within ..) k
  have hchosen : Canonical chosen :=
    .quiet (otChoose_within ..) (.quiet (refFollow_within ..) (.quiet (blocksStart_within ..) hplanes))
  have hconds : Canonical conds :=
    .quiet (bridgeCond_within ..) (.quiet (clockCond_within ..) (.heldClear (.leaveTest (.pairStat hchosen))))
  exact .startWaiting (.bootDone (.refreshPins hconds))
protected theorem Canonical.mediaOff (h : Canonical t) : Canonical (mediaOff t) := .upd rfl rfl (.keepRegs h)
protected theorem Canonical.enterSafe {noimg} (h : Canonical t) : Canonical (enterSafe noimg t) := by
  unfold Machine.enterSafe
  extract_lets ports cold cast noimg' off dropped moded stepped us core upd stopped left cleared
  have hports : Canonical ports := .foldl h fun _ _ k => .ite (.macEnter k) k
  have hoff : Canonical off := .mediaOff hports
  have hdropped : Canonical dropped := .ite (.setModeF (.setModeF (.quiet (dropImage_within ..) hoff))) hoff
  have hmoded : Canonical moded := .setModeF (.setModeF (.setMode hdropped))
  have hstepped : Canonical stepped := .setBoot (.ite hmoded (.setStep hmoded))
  have hleft : Canonical left := .leaveTest (.upd rfl rfl hstepped)
  exact .startWaiting (.refreshPins (.ite (.heldClear (.bootDone hleft)) (.ite (.heldClear (.logEvent hleft)) hleft)))
protected theorem Canonical.safeRequest (h : Canonical t) : Canonical (safeRequest t) := by
  unfold Machine.safeRequest
  exact .ite (.enterSafe h) (.ite h (.ite (.enterSafe h) (.upd rfl rfl h)))

/-! ### The load attempts of a boot (02 R35-R38) -/

protected theorem Canonical.attemptBegin {src second queue} (h : Canonical t) :
    Canonical (attemptBegin src second queue t) := .quiet (attemptBegin_within ..) h
protected theorem Canonical.readPointers (h : Canonical t) : Canonical (readPointers t) := by
  unfold Machine.readPointers
  extract_lets va vb scanned arb ptr shown
  have harb : Canonical arb := .ite (.write3 (.mramScan h)) (.mramScan h)
  have hshown : Canonical shown := .rsetN (.rsetN (.ite (.write3 harb) harb))
  exact .ite (.raise hshown) hshown
protected theorem Canonical.beginStep5 (h : Canonical t) : Canonical (beginStep5 t) := by
  unfold Machine.beginStep5
  exact .ite (.attemptBegin (.readPointers h)) (.ite (.attemptBegin (.readPointers h)) (.attemptBegin (.readPointers h)))
protected theorem Canonical.attemptFail {code} (h : Canonical t) : Canonical (attemptFail code t) := by
  unfold Machine.attemptFail
  extract_lets c failed unhosted logged core ended
  have hended : Canonical ended := .upd rfl rfl (.logEvent (.setBoot (.setBoot h)))
  refine .ite (.enterSafe hended) (.ite (.attemptBegin hended) ?_)
  split
  · exact .attemptBegin hended
  · exact .enterSafe hended
protected theorem Canonical.checkStep (h : Canonical t) : Canonical (checkStep t) := by
  unfold Machine.checkStep
  exact .ite (.attemptFail h) (.ite (.enterSafe h) (.setStep h))
protected theorem Canonical.applyStep (h : Canonical t) : Canonical (applyStep t) := by
  have applied {r g v} : Canonical (Machine.setModeF Fld.GLOBAL_MODE_SLOT v (applyImage r g t)) :=
    .setModeF (.quiet (applyImage_within ..) h)
  unfold Machine.applyStep
  exact .ite (.attemptFail (.ite (.rsetN h) h)) (.ite (.enterSafe applied) (.setStep applied))
protected theorem Canonical.restoreStep (h : Canonical t) : Canonical (restoreStep t) := by
  unfold Machine.restoreStep
  extract_lets factory restored
  have hrestored : Canonical restored := .ite h (.keepRestore h)
  exact .ite (.enterSafe hrestored) (.enterService hrestored)
protected theorem Canonical.stepEnd (h : Canonical t) : Canonical (stepEnd t) := by
  unfold Machine.stepEnd
  exact .ite (.enterSafe h) (.ite (.setStep h) (.ite (.setStep h) h))
protected theorem Canonical.streamDone {ok} (h : Canonical t) : Canonical (streamDone ok t) := by
  unfold Machine.streamDone
  exact .ite h (.ite (.attemptFail h) (.stepEnd (.stage (.upd rfl rfl h))))
protected theorem Canonical.trainDone {hbm serdes} (h : Canonical t) : Canonical (trainDone hbm serdes t) := by
  unfold Machine.trainDone
  extract_lets up core done
  have hdone : Canonical done := .upd rfl rfl (.fset h)
  exact .ite h (.ite (.attemptFail h) (.ite (.attemptFail (.fset h))
    (.ite (.enterSafe hdone) (.stepEnd (.quiet (hostTurn_within ..) hdone)))))
protected theorem Canonical.readTj (h : Canonical t) : Canonical (readTj t) := by
  unfold Machine.readTj
  exact .ite (.enterSafe h) (.ite (.setModeF (.upd rfl rfl h)) (.beginStep5 h))
protected theorem Canonical.heatRead (h : Canonical t) : Canonical (heatRead t) := by
  unfold Machine.heatRead
  exact .ite (.beginStep5 (.setModeF h)) h
protected theorem Canonical.bootTick (h : Canonical t) : Canonical (bootTick t) := by
  unfold Machine.bootTick
  refine .ite h ?_
  split
  · exact .ite (.enterSafe h) (.setStep h)
  · exact .ite h (.readTj h)
  · exact .checkStep h
  · exact .applyStep h
  · exact .restoreStep h
  · exact h
protected theorem Canonical.tick (h : Canonical t) : Canonical (tick t) := .bootTick (.quiet (advanceTicks_within ..) h)

/-! ### Resets and power (02 R46-R52): a soft reset, a reset or power-on loses what HBM held -/

protected theorem Canonical.flashApply {op x} (h : Canonical t) : Canonical (flashApply op x t) := by
  unfold Machine.flashApply
  exact .ite (.flashClear h) (.ite (.flashPut h) h)
protected theorem Canonical.flashEffect (h : Canonical t) : Canonical (flashEffect t) := by
  unfold Machine.flashEffect
  split
  · exact .flashApply h
  · exact h
protected theorem Canonical.resetBlocks {p} (h : Canonical t) : Canonical (resetBlocks p t) :=
  .upd rfl rfl (.mediaOff (.keepRegs (.quiet (setCut_within ..) (.flashEffect h))))
protected theorem Canonical.softReset (h : Canonical t) : Canonical (softReset t) := by
  have blocks : Canonical (Machine.resetBlocks softKeeps (Machine.leaveTest (Machine.setMode t .boot))) :=
    .resetBlocks (.leaveTest (.setMode h))
  unfold Machine.softReset
  exact .ite h (.quiet (coldEntry_within ..) (.quiet (refreshOutst_within ..)
    (.hbmLost rfl rfl rfl rfl rfl (.patStat (.patStat (.fset (.rsetN blocks)))))))
protected theorem Canonical.enterReset (h : Canonical t) : Canonical (enterReset t) := by
  unfold Machine.enterReset
  exact .refreshPins (.rsetN (.setMode (.hbmLost rfl rfl rfl rfl rfl
    (.resetBlocks (.quiet (masterReset_within ..) h)))))
protected theorem Canonical.intoReset (h : Canonical t) : Canonical (intoReset t) := .ite h (.enterReset h)
protected theorem Canonical.supplyOut {i} (h : Canonical t) : Canonical (supplyOut i t) :=
  .intoReset (.quiet (noteCause_within ..) (.upd rfl rfl h))
protected theorem Canonical.resetLow (h : Canonical t) : Canonical (resetLow t) :=
  .intoReset (.quiet (noteCause_within ..) (.upd rfl rfl h))
protected theorem Canonical.powerOn {addr bad} (h : Canonical t) : Canonical (powerOn addr bad t) := by
  unfold Machine.powerOn
  exact .loadLife (.upd rfl rfl (.setMode (.upd rfl rfl (.hbmLost rfl rfl rfl rfl rfl h))))
protected theorem Canonical.resetRelease {sel addr} (h : Canonical t) : Canonical (resetRelease sel addr t) := by
  unfold Machine.resetRelease
  extract_lets cause long fab core released tokens core' driven found pat voted
  have htokens : Canonical tokens := .rsetN (.patStat (.patStat (.upd rfl rfl h)))
  have hfound : Canonical found :=
    .findHead (.quiet (coldEntry_within ..) (.writeLife (.lifeAdd (.upd rfl rfl htokens))))
  exact .ite h (.quiet (mramReport_within ..) (.upd rfl rfl (.ite (.raise (.upd rfl rfl hfound)) hfound)))
protected theorem Canonical.thermalTrip (h : Canonical t) : Canonical (thermalTrip t) := by
  unfold Machine.thermalTrip
  extract_lets core tripped logged
  have hlogged : Canonical logged := .emit (.logEvent (.lifeAdd (.upd rfl rfl h)))
  exact .ite h (.ite hlogged (.enterSafe hlogged))
protected theorem Canonical.tjReading {tmin tmax} (h : Canonical t) : Canonical (tjReading tmin tmax t) := by
  unfold Machine.tjReading
  exact .ite h (.ite (.thermalTrip (.rsetN (.upd rfl rfl h))) (.rsetN (.upd rfl rfl h)))
protected theorem Canonical.resetCtrlWrite {w} (h : Canonical t) : Canonical (resetCtrlWrite w t) :=
  .ite h (.ite (.safeRequest h) (.ite (.softReset h) h))

/-! ### The flash and the update (18 R443-R458) -/

protected theorem Canonical.flStat {f v} (h : Canonical t) : Canonical (flStat f v t) := .quiet (flStat_within ..) h
protected theorem Canonical.flashDone {ok} (h : Canonical t) : Canonical (flashDone ok t) := by
  have idle {b} : Canonical (Machine.flStat Fld.IMG_FL_STAT_BUSY b { t with upd := { t.upd with flashOp := none } }) :=
    .flStat (.upd rfl rfl h)
  unfold Machine.flashDone
  dsimp only
  split
  · exact h
  · exact .ite (.flStat (.quiet (flashLoad_within ..) idle)) (.ite
      (.flStat (.flashApply (.quiet (setVerified_within ..) idle)))
      (.raise (.flStat (.flashPut (.spend (.quiet (setVerified_within ..) idle))))))
protected theorem Canonical.preloadDone {ok} (h : Canonical t) : Canonical (preloadDone ok t) := by
  have judged {n} : Canonical (updFail n t) := .quiet (updFail_within ..) h
  unfold Machine.preloadDone
  dsimp only
  split
  · exact h
  · exact .ite h (.ite (.stage (.upd rfl rfl judged)) (.ite (.raise (.upd rfl rfl judged))
      (.raise (.quiet (updResult_within ..) (.upd rfl rfl judged)))))
protected theorem Canonical.confirm (h : Canonical t) : Canonical (confirm t) := by
  unfold Machine.confirm
  extract_lets c told slot before upd closed kept shown
  have htold : Canonical told := .quiet (updResult_within ..) h
  have hshown : Canonical shown := .rsetN (.rsetN (.setArbCount (.setBootPtr (.upd rfl rfl htold))))
  exact .ite htold (.logEvent (.quiet (putMarker_within ..) hshown))
protected theorem Canonical.updCtrlWrite {w} (h : Canonical t) : Canonical (updCtrlWrite w t) := by
  unfold Machine.updCtrlWrite
  exact .ite h (.ite (.quiet (verifyStart_within ..) h) (.ite (.quiet (castStart_within ..) h) (.ite (.confirm h) h)))
protected theorem Canonical.imgWrite {m a w} (h : Canonical t) : Canonical (imgWrite m a w t) := by
  unfold Machine.imgWrite
  exact .ite (.upd rfl rfl h) (.ite (.upd rfl rfl h) (.ite (.quiet (flCtrlWrite_within ..) h) (.ite (.updCtrlWrite h)
    (.ite (.quiet (setCtrlWrite_within ..) h) (.ite (.quiet (setDataWrite_within ..) h)
    (.quiet (plainWrite_within ..) h))))))

/-! ### The cast (18 R446-R451, Table 18.4) -/

protected theorem Canonical.castConds (h : Canonical t) : Canonical (castConds t) :=
  .condSet (.condSet (.condSet (.upd rfl rfl h)))
protected theorem Canonical.castPause (h : Canonical t) : Canonical (castPause t) := by
  unfold Machine.castPause
  split
  · exact h
  · refine .ite h ?_
    extract_lets raw old new rej flushed boot caused pat conds core pulses pins logged marked upd told refused ports
    have hcaused : Canonical caused := .quiet (setCause_within ..) (.lifeAdd (.setModeF (.setMode (.keepCastFlush h))))
    have hconds : Canonical conds := .castConds (.foldl (.upd rfl rfl hcaused) fun _ _ k => .rsetN k)
    have hlogged : Canonical logged :=
      .logEvent (.refreshPins (.leaveTest (.quiet (castPulses_within ..) (.upd rfl rfl hconds))))
    have htold : Canonical told := .rsetN (.upd rfl rfl (.ite hlogged (.quiet (putMarker_within ..) hlogged)))
    have hrefused : Canonical refused := .quiet (audRefuseHeld_within ..) (.quiet (refuseHeld_within ..) htold)
    exact .quiet (setLink_within ..) (.foldl hrefused fun _ _ k => .ite k (.macEnter k))
/-- What the cast keeps of HBM: both memories as they were, or neither. -/
protected theorem Canonical.castBlocks {old new} (h : Canonical t) : Canonical (castBlocks old new t) := by
  unfold Machine.castBlocks
  by_cases hk : surfKept old new = true
  · simp only [hk, if_true]
    exact .upd rfl rfl h
  · simp only [hk]
    exact .hbmLost rfl rfl rfl rfl rfl h
protected theorem Canonical.castApply (h : Canonical t) : Canonical (castApply t) := by
  unfold Machine.castApply
  split
  · exact h
  · refine .ite h ?_
    extract_lets was raw old new from_ cleared headed tabled restored carried both upd ended
    have hcleared : Canonical cleared :=
      .quiet (condEnd_within ..) (.castBlocks (.quiet (castRegs_within ..) h))
    have hheaded : Canonical headed := .ite (.setModeF (.quiet (applyHeader_within ..) hcleared)) hcleared
    have htabled : Canonical tabled :=
      .quiet (applyTables_within ..) (.quiet (applyBlocks_within ..) (.quiet (applyPins_within ..) (.rsetN hheaded)))
    have hrestored : Canonical restored := .keepRestore htabled
    have hcarried : Canonical carried := by
      simp only [carried]
      split
      · exact .quiet (applyCarried_within ..) hrestored
      · exact hrestored
    have hended : Canonical ended := .upd rfl rfl hcarried
    exact .ite hended (.quiet (castPlane_within ..) hended)
protected theorem Canonical.castSwitch {p} (h : Canonical t) : Canonical (castSwitch p t) := by
  unfold Machine.castSwitch
  exact .ite h (.ite (.ite (.upd rfl rfl h) h) (.ite h
    (.ite (.quiet (castPlane_within ..) (.upd rfl rfl (.castApply h))) (.castApply h))))
protected theorem Canonical.castResume {us} (h : Canonical t) : Canonical (castResume us t) := by
  unfold Machine.castResume
  split
  · exact h
  · refine .ite h ?_
    extract_lets ahead pause applied rej old moded role upd planed run told upd' stated conds beat logged
    have happlied : Canonical applied := .castApply (.quiet (advanceTicks_within ..) h)
    have hplaned : Canonical planed :=
      .quiet (castPlane_within ..) (.upd rfl rfl (.pairStat (.setModeF (.setMode happlied))))
    have hrun : Canonical run :=
      .quiet (castPair_within ..) (.quiet (refFollow_within ..) (.quiet (castRun_within ..) hplaned))
    have htold : Canonical told := .ite (.raise (.quiet (updResult_within ..) hrun)) hrun
    have hstated : Canonical stated := .rsetN (.upd rfl rfl htold)
    have hconds : Canonical conds := .condSet (.quiet (bridgeCond_within ..)
      (.quiet (clockCond_within ..) (.heldClear (.leaveTest hstated))))
    exact .startWaiting (.refreshPins (.logEvent (.condSet hconds)))

end Sys2Proof.Proofs.CanonicalMemories
end

section
/-! PROOF. O11: register accesses, requests of the fabric, and every command keep the byte memories canonical. -/

set_option Elab.async false

namespace Sys2Proof.Proofs.CanonicalMemories

open Sys2Proof.Machine Sys2Proof.Laws

variable {s t u : State}

/-! ### Register writes and reads -/

protected theorem Canonical.plainWrite {a w} (h : Canonical t) : Canonical (plainWrite a w t) := .rsetN h
protected theorem Canonical.globalWrite {a w} (h : Canonical t) : Canonical (globalWrite a w t) := by
  unfold Machine.globalWrite
  extract_lets written warmed
  have hwritten : Canonical written := .plainWrite h
  have hwarmed : Canonical warmed := .ite (.setBoot hwritten) hwritten
  exact .ite (.resetCtrlWrite h) (.ite (.quiet (hostBootWrite_within ..) h) (.refreshPins (.ite (.fset hwarmed) hwarmed)))
protected theorem Canonical.patinaWrite {m a w} (h : Canonical t) : Canonical (patinaWrite m a w t) :=
  .ite (.quiet (hostEvtWrite_within ..) h) (.ite (.keepCtrlWrite h) (.plainWrite h))
/-- A register write: of all blocks, GLOBAL, PATINA and IMG alone can change a byte memory. -/
protected theorem Canonical.regWrite {m a w} (h : Canonical t) : Canonical (regWrite m a w t) := by
  unfold Machine.regWrite
  split
  case h_1 => exact .globalWrite h
  case h_2 => exact .quiet (faultWrite_within ..) h
  case h_3 => exact .quiet (timeWrite_within ..) h
  case h_4 => exact .quiet (macWrite_within ..) h
  case h_5 => exact .quiet (pairWrite_within ..) h
  case h_6 => exact .patinaWrite h
  case h_7 => exact .imgWrite h
  case h_8 => exact .ite (.quiet (mresetWrite_within ..) h) (.plainWrite h)
  case h_9 => exact .quiet (testWrite_within ..) h
  case h_10 => exact .quiet (refuse_within ..) h
  case h_11 => exact .quiet (msixWrite_within ..) h
  case h_12 => exact .plainWrite h
  case h_13 | h_14 => exact h
  all_goals exact .quiet (mirroredEffect_within ..) h
protected theorem Canonical.writeWord {m a w} (h : Canonical t) : Canonical (writeWord m a w t) :=
  .hostWrite (fun _ => .regWrite) h
protected theorem Canonical.accessWrite {m a len data} (h : Canonical t) : Canonical (accessWrite m a len data t) :=
  .ite (.emit h) (.ite (.writeWord h) (.ite (.writeWord (.writeWord h)) (.quiet (badSize_within ..) h)))
/-- A write or a read whose block leaves the memories alone. -/
protected theorem Canonical.hostWriteQuiet {m a w} {eff : State → State} {l : List Area} (heff : ∀ v, Within l v (eff v))
    (h : Canonical t) (hm : Area.mram ∉ l := by decide) (hf : Area.flash ∉ l := by decide)
    (hq : Area.q ∉ l := by decide) : Canonical (hostWrite m a w eff t) :=
  .hostWrite (fun v k => .quiet (heff v) k hm hf hq) h
protected theorem Canonical.hostReadQuiet {m a} {eff : State → Nat × State} {l : List Area}
    (heff : ∀ v, Within l v (eff v).2) (h : Canonical t) (hm : Area.mram ∉ l := by decide)
    (hf : Area.flash ∉ l := by decide) (hq : Area.q ∉ l := by decide) : Canonical (hostRead m a eff t) :=
  .hostRead (fun v k => .quiet (heff v) k hm hf hq) h

/-! ### Requests of the fabric and of the management I2C target (19 R476-R488) -/

protected theorem Canonical.i2cEnd {n d} (h : Canonical t) : Canonical (i2cEnd n d t) := .upd rfl rfl h
protected theorem Canonical.i2cAccess {r} (h : Canonical t) : Canonical (i2cAccess r t) := by
  have granted : Canonical (grantTo (blockPort r.addr) 8 t) := .quiet (grantTo_within ..) h
  unfold Machine.i2cAccess
  dsimp only
  split
  · exact .quiet (hangOn_within ..) (.upd rfl rfl h)
  · exact .quiet (holdReq_within ..) (.upd rfl rfl h)
  · exact .ite (.i2cEnd (.mirroredWrite (fun _ => .regWrite) granted)) (.i2cEnd (.quiet (regRead_within ..) granted))
  · exact .i2cEnd h
protected theorem Canonical.grant {r} (h : Canonical t) : Canonical (grant r t) := by
  unfold Machine.grant
  exact .ite (.quiet (badSize_within ..) h) (.ite (.i2cAccess h) (.ite
    (.ite (.writeWord h) (.quiet (readWord_within ..) h)) (.ite (.burstWrite h) (.ite (.burstRead h)
    (.quiet (issueReq_within ..) (.quiet (grantTo_within ..) h))))))
protected theorem Canonical.admitHeld {n} (h : Canonical t) : Canonical (admitHeld n t) := by
  induction n generalizing t with
  | zero => exact h
  | succ n ih =>
    unfold Machine.admitHeld
    split
    · exact h
    · exact ih (.upd rfl rfl (.grant (.upd rfl rfl h)))
protected theorem Canonical.admitFabric {done arrivals} (h : Canonical t) : Canonical (admitFabric done arrivals t) := by
  unfold Machine.admitFabric
  exact .cycleEnd (.foldl (.admitHeld (.foldl (.cycleBegin h) fun _ _ k => .quiet (answerReq_within ..) k))
    fun _ _ k => .ite (.grant k) (.quiet (holdReq_within ..) k))
protected theorem Canonical.i2cMram {params n} (h : Canonical t) : Canonical (i2cMram params n t) := by
  unfold Machine.i2cMram
  exact .ite (.quiet (i2cCut_within ..) h) (.quiet (i2cReply_within ..) (.mramRead h))
protected theorem Canonical.i2cCommand {write a w} (h : Canonical t) : Canonical (i2cCommand write a w t) := by
  unfold Machine.i2cCommand
  exact .ite (.quiet (i2cReply_within ..) h) (.ite (.quiet (i2cReply_within ..) (.i2cEnd h))
    (.quiet (i2cResult_within ..) (.ite (.i2cEnd (.count h)) (.i2cAccess h))))

/-! ### Commands with a body of their own -/

protected theorem Canonical.mirrorRecv {ack} {eff : State → State} (heff : ∀ v, Canonical v → Canonical (eff v))
    (h : Canonical t) : Canonical (mirrorRecv ack eff t) := by
  have checked : Canonical (checkFails 7 0 false t).2 := .quiet (checkFails_within ..) h
  unfold Machine.mirrorRecv
  exact .ite h (.ite checked (heff _ (.upd rfl rfl (.emit checked))))
theorem mirrorAckTimeout_canonical (n : Nat) (h : Canonical s) : Answers (.mirrorAckTimeout n) s Canonical := by
  refine ⟨_, rfl, ?_⟩
  split
  · exact .ite (.emit (.count h)) h
  · exact h
theorem macFaultSequence_canonical (m : Fin 64) (kind : Fin 3) (h : Canonical s) :
    Answers (.macFaultSequence m kind) s Canonical := by
  have noted {p} : Canonical (setMac m p s) := .setMac h
  have cleared {v w p} : Canonical (macStat m Fld.MAC_STAT_LF v (macStat m Fld.MAC_STAT_RF w (setMac m p s))) :=
    .quiet (macStat_within ..) (.quiet (macStat_within ..) noted)
  exact ⟨_, rfl, .ite noted (.ite (.quiet (macStat_within ..) (.ite (.macEnter noted) noted))
    (.ite (.ite (.quiet (macStat_within ..) noted) noted) (.ite (.quiet (txReturn_within ..) cleared) cleared)))⟩

/-! ### O11 -/

/-- Every command ends with canonical memories where it starts with them. -/
theorem exec_canonical (c : Instr) (h : Canonical s) : Answers c s Canonical :=
  match c with
  | .aonPowerOn .. => ⟨_, rfl, .powerOn h⟩
  | .supplyOutOfLimits .. => ⟨_, rfl, .supplyOut h⟩
  | .supplyWithinLimits .. => ⟨_, rfl, .quiet (supplyIn_within ..) h⟩
  | .resetNLow => ⟨_, rfl, .resetLow h⟩
  | .resetRelease .. => ⟨_, rfl, .resetRelease h⟩
  | .bootClocksLocked => ⟨_, rfl, .quiet (clocksLocked_within ..) h⟩
  | .ctlLockTimeout => ⟨_, rfl, .quiet (ctlTimeout_within ..) h⟩
  | .heatTjRead => ⟨_, rfl, .heatRead h⟩
  | .heatSlowTimeout => ⟨_, rfl, .quiet (heatSlow_within ..) h⟩
  | .hbmTrainDone .. => ⟨_, rfl, .trainDone h⟩
  | .imageStreamDone .. => ⟨_, rfl, .streamDone h⟩
  | .hostBootGo .. => ⟨_, rfl, .hostWriteQuiet (fun _ => hostBootWrite_within ..) h⟩
  | .stagingAreaWrite .. => ⟨_, rfl, .windowWrite h⟩
  | .hostSafeRequest .. => ⟨_, rfl, .hostWrite (fun _ => .resetCtrlWrite) h⟩
  | .softReset .. => ⟨_, rfl, .hostWrite (fun _ k => .resetCtrlWrite (.upd rfl rfl k)) h⟩
  | .tjSensorReading .. => ⟨_, rfl, .tjReading h⟩
  | .synthLossOfLock .. => ⟨_, rfl, .quiet (synthLoss_within ..) h⟩
  | .bridgeTransfer .. => ⟨_, rfl, .quiet (bridgeTransfer_within ..) h⟩
  | .registerWrite .. | .mirroredWrite .. => ⟨_, rfl, .accessWrite h⟩
  | .readClearCounter .. | .read64Low .. => ⟨_, rfl, .quiet (accessRead_within ..) h⟩
  | .w1cStatusClear m a none w => ⟨_, rfl, .accessWrite h⟩
  | .w1cStatusClear m a (some q) w => ⟨_, rfl, .bar2Write (fun _ => .qStatClear) h⟩
  | .imgRbDataRead .. => ⟨_, rfl, .hostReadQuiet (fun _ => rbRead_within ..) h⟩
  | .takeRecordWrite .. => ⟨_, rfl, .hostWriteQuiet (fun _ => ringWrite_within ..) h⟩
  | .takePiWrite .. => ⟨_, rfl, .hostWriteQuiet (fun _ => piWrite_within ..) h⟩
  | .salvoCommit .. => ⟨_, rfl, .quiet (salvoCommit_within ..) h⟩
  | .takeAbandon .. => ⟨_, rfl, .hostWriteQuiet (fun _ => takeCtrlWrite_within ..) h⟩
  | .planeCutoff .. => ⟨_, rfl, .cycleEnd (.quiet (planeCutoff_within ..) (.cycleBegin h))⟩
  | .planeSwitchPoint .. => ⟨_, rfl, .cycleEnd (.switchPoint (.castSwitch (.cycleBegin h)))⟩
  | .destSwitchLineRead .. => ⟨_, rfl, .switchLineRead h⟩
  | .destLineRead .. => ⟨_, rfl, .quiet (destLineRead_within ..) (.quiet (plane1Audio_within ..) h)⟩
  | .batchRecord .. => ⟨_, rfl, .quiet (batchDone_within ..) h⟩
  | .sourceSwitchLineArrival .. =>
    ⟨_, rfl, .ite h (.quiet (sdiPhase_within ..) (.quiet (sdiPhase_within ..) (.quiet (switchArrival_within ..) h)))⟩
  | .sourceFrameMeasured .. => ⟨_, rfl, .quiet (frameMeasured_within ..) h⟩
  | .fsyncFrameComplete .. => ⟨_, rfl, .fsyncComplete h⟩
  | .fsyncHoldExpire .. => ⟨_, rfl, .quiet (fsyncExpire_within ..) h⟩
  | .vlaneRateSearchTimeout .. | .vlaneAlignTimeout .. => ⟨_, rfl, .ite (.quiet (rxNext_within ..) h) h⟩
  | .vlaneCdrLock .. => ⟨_, rfl, .ite (.quiet (rxStat_within ..) (.quiet (rxStat_within ..) h)) h⟩
  | .vlaneFrameAligned .. => ⟨_, rfl, .quiet (rxAligned_within ..) h⟩
  | .vlaneCdrLoss .. | .vlaneEavMissing .. => ⟨_, rfl, .quiet (rxLose_within ..) h⟩
  | .vlaneLineReceived .. => ⟨_, rfl, .quiet (lineReceived_within ..) h⟩
  | .vlanePidPacket .. => ⟨_, rfl, .quiet (pidPacket_within ..) h⟩
  | .vlanePidTimeout .. => ⟨_, rfl, .ite (.quiet (refreshNoproc_within ..) (.quiet (rxStat_within ..) h)) h⟩
  | .sdiAudioPacket .. => ⟨_, rfl, .quiet (deembPacket_within ..) h⟩
  | .ancPacketCapture .. => ⟨_, rfl, .ancCapture h⟩
  | .dpHpdRise .. => ⟨_, rfl, .quiet (hpdRise_within ..) h⟩
  | .dpHpdFall .. => ⟨_, rfl, .quiet (hpdFall_within ..) h⟩
  | .dpUnplugTimeout .. => ⟨_, rfl, .quiet (hpdUnplug_within ..) h⟩
  | .dpTrainDone .. => ⟨_, rfl, .quiet (dpTrainDone_within ..) h⟩
  | .dpRetrain .. | .dpLinkEnableWrite .. | .dpAuxNativeRead .. | .dpAuxNativeWrite .. | .dpAuxI2cRead .. | .dpAuxI2cWrite .. =>
    ⟨_, rfl, .hostWriteQuiet (fun _ => vlaneWrite_within ..) h⟩
  | .dpAuxReply .. => ⟨_, rfl, .quiet (auxReply_within ..) h⟩
  | .dpAuxTimeout .. => ⟨_, rfl, .quiet (auxTimeout_within ..) h⟩
  | .macCdrLock .. | .macCdrLoss .. =>
    ⟨_, rfl, .ite (.macEnter (.quiet (setMac_within ..) h)) (.quiet (setMac_within ..) h)⟩
  | .macAlignTimerExpire .. => ⟨_, rfl, .ite (.quiet (txReturn_within ..) (.quiet (macStat_within ..) (.macEnter h))) h⟩
  | .macAlignLoss .. => ⟨_, rfl, .ite (.quiet (macStat_within ..) (.ite (.macEnter h) h)) h⟩
  | .macFaultSequence m kind => macFaultSequence_canonical m kind h
  | .macRxFrame .. => ⟨_, rfl, .rxFrame (fun _ _ _ hc k => .quiet (flowClaim_within hc) k) h⟩
  | .macPauseExpire .. => ⟨_, rfl, .txStart (.quiet (pauseClear_within ..) h)⟩
  | .macTxFrameEnd .. => ⟨_, rfl, .txEnd h⟩
  | .macTxDiscard .. => ⟨_, rfl, .quiet (txDiscard_within ..) h⟩
  | .macInjectRecord .. => ⟨_, rfl, .injectRecord h⟩
  | .macEnChange .. => ⟨_, rfl, .quiet (macEnChange_within ..) h⟩
  | .legContextCommit .. | .flowAudioCfgCommit .. => ⟨_, rfl, .hostWriteQuiet (fun _ => flowWrite_within ..) h⟩
  | .flowLineRead .. => ⟨_, rfl, .quiet (flowLineRead_within ..) h⟩
  | .flowSkewWindow .. => ⟨_, rfl, .quiet (skewWindow_within ..) h⟩
  | .flowPathSilentTimeout .. => ⟨_, rfl, .quiet (pathSilent_within ..) h⟩
  | .flowTxPacketDue .. => ⟨_, rfl, .quiet (videoPacketDue_within ..) h⟩
  | .flowAudioDelivery .. => ⟨_, rfl, .quiet (ownDeliver_within ..) (.quiet (audioDeliver_within ..) h)⟩
  | .flowAudioTxPacket .. => ⟨_, rfl, .quiet (audioPacket_within ..) h⟩
  | .flowAncRxClose .. => ⟨_, rfl, .ancClose h⟩
  | .flowAncTxSend .. => ⟨_, rfl, .quiet (ancSend_within ..) h⟩
  | .queueWrite .. => ⟨_, rfl, .bar2Write (fun _ => .portWrite) h⟩
  | .queueCapWrite .. => ⟨_, rfl, .bar2Write (fun _ => .capWrite) h⟩
  | .queueClose .. | .queueMark .. | .queueRewind .. | .queueRelease .. | .queueReset .. => ⟨_, rfl, .qOpWrite h⟩
  | .queueRead .. => ⟨_, rfl, .bar2Read h⟩
  | .hbmRequestAdmit .. => ⟨_, rfl, .hbmAdmit h⟩
  | .scrubRead .. => ⟨_, rfl, .scrubRead h⟩
  | .taskPush .. => ⟨_, rfl, .quiet (pushAll_within ..) h⟩
  | .slotBandIssue .. => ⟨_, rfl, .quiet (bandIssue_within ..) h⟩
  | .engineTakeTask .. => ⟨_, rfl, .ite (.quiet (takeTasks_within ..) h) h⟩
  | .taskComplete .. => ⟨_, rfl, .taskComplete h⟩
  | .slotBandDeadline .. => ⟨_, rfl, .bandDeadline h⟩
  | .slotInputFrameStart .. => ⟨_, rfl, .quiet (slotFrameStart_within ..) h⟩
  | .engineMemoryError .. =>
    ⟨_, rfl, .cycleEnd (.ite (.quiet (clusterError_within ..) (.cycleBegin h)) (.quiet (localError_within ..) (.cycleBegin h)))⟩
  | .engineAbortTimeout .. => ⟨_, rfl, .ite (.cycleEnd (.raise (.quiet (quarantine_within ..) (.cycleBegin h)))) h⟩
  | .engQuarantineEngine .. | .engQuarantineCluster .. | .engQuarantineRelease .. | .tlutDataWrite .. | .tlutCommit .. =>
    ⟨_, rfl, .hostWriteQuiet (fun _ => engWrite_within ..) h⟩
  | .quadLoadSecond .. => ⟨_, rfl, .fset (.upd rfl rfl h)⟩
  | .tlutDataRead .. => ⟨_, rfl, .hostReadQuiet (fun _ => tlutRead_within ..) h⟩
  | .compCutoff .. => ⟨_, rfl, .cycleEnd (.compCutoff (.cycleBegin h))⟩
  | .compDeadline .. => ⟨_, rfl, .compDeadline h⟩
  | .layerDescriptorCommit .. | .compLutDataWrite .. | .compLutCommit .. | .scalerCoefDataWrite .. | .scalerCoefCommit .. =>
    ⟨_, rfl, .hostWriteQuiet (fun _ => compWrite_within ..) h⟩
  | .compLutDataRead .. => ⟨_, rfl, .hostReadQuiet (fun _ => lutRead_within ..) h⟩
  | .scalerCoefDataRead .. => ⟨_, rfl, .hostReadQuiet (fun _ => coefRead_within ..) h⟩
  | .sapFrameSync .. => ⟨_, rfl, .quiet (sapFsEdge_within ..) h⟩
  | .sapClkLossTimeout .. => ⟨_, rfl, .quiet (sapClockLost_within ..) h⟩
  | .sapMaskCommit .. => ⟨_, rfl, .hostWriteQuiet (fun _ => sapWrite_within ..) h⟩
  | .sapGroupMaskCommit .. | .sapGroupArm .. | .sapGroupDisarm .. | .sapGroupStartNow .. | .sapGroupAtEnable .. =>
    ⟨_, rfl, .quiet (grpHostWrite_within ..) h⟩
  | .audStartEdge => ⟨_, rfl, .quiet (audStart_within ..) h⟩
  | .sapGroupAtReached .. => ⟨_, rfl, .quiet (grpAtReached_within ..) h⟩
  | .asrcWindowEnd .. => ⟨_, rfl, .quiet (asrcWindow_within ..) h⟩
  | .asrcClockLossTimeout .. => ⟨_, rfl, .quiet (asrcClockLoss_within ..) h⟩
  | .asrcAcquireTimer .. => ⟨_, rfl, .quiet (asrcAcquired_within ..) h⟩
  | .naCsBlock .. => ⟨_, rfl, .quiet (naBlock_within ..) h⟩
  | .naPreambleDetect .. => ⟨_, rfl, .quiet (naScan_within ..) h⟩
  | .naPreambleTimeout .. => ⟨_, rfl, .quiet (naTimeout_within ..) h⟩
  | .audSample => ⟨_, rfl, .quiet (audStep_within ..) h⟩
  | .audTakeRecordWrite .. => ⟨_, rfl, .hostWriteQuiet (fun _ => audRingWrite_within ..) h⟩
  | .audTakePiWrite .. => ⟨_, rfl, .hostWriteQuiet (fun _ => audPiWrite_within ..) h⟩
  | .audSalvoCommit => ⟨_, rfl, .quiet (audSalvoCommit_within ..) h⟩
  | .audTakeAbandon .. => ⟨_, rfl, .hostWriteQuiet (fun _ => audTakeCtrlWrite_within ..) h⟩
  | .mixEntryWrite .. | .toneModeWrite .. | .meterClear .. => ⟨_, rfl, .hostWriteQuiet (fun _ => audWrite_within ..) h⟩
  | .meterBlockEnd .. => ⟨_, rfl, .ite (.quiet (meterEnd_within ..) h) h⟩
  | .refFramePulse .. => ⟨_, rfl, .quiet (refPulse_within ..) h⟩
  | .refActivityExpire .. => ⟨_, rfl, .quiet (refExpire_within ..) h⟩
  | .refMeasureWindowEnd .. => ⟨_, rfl, .quiet (windowEnd_within ..) h⟩
  | .xoHoldActivityExpire => ⟨_, rfl, .ite (.quiet (setXoFail_within ..) h) h⟩
  | .planeLockoutWrite .. | .planeBwWrite .. => ⟨_, rfl, .hostWriteQuiet (fun _ => planeWrite_within ..) h⟩
  | .planeJump .. => ⟨_, rfl, .planeJump h⟩
  | .planeLockTimer .. => ⟨_, rfl, .quiet (lockTimer_within ..) h⟩
  | .switchResidualZero .. => ⟨_, rfl, .quiet (residZero_within ..) h⟩
  | .holdoverLimitExpire .. => ⟨_, rfl, .quiet (holdLimit_within ..) h⟩
  | .tkSet .. | .tkAdj .. | .tkLockSet .. | .tkLockClr .. =>
    ⟨_, rfl, .hostWriteQuiet (fun _ => tkCtrlWrite_within ..) h⟩
  | .tkIncrWrite .. => ⟨_, rfl, .hostWriteQuiet (fun _ => tkIncrWrite_within ..) h⟩
  | .tkLockTimeout .. => ⟨_, rfl, .ite (.quiet (tkUnlockNow_within ..) (.quiet (advanceTicks_within ..) h)) h⟩
  | .otSelectWrite .. | .otSnap .. => ⟨_, rfl, .hostWriteQuiet (fun _ => otCtrlWrite_within ..) h⟩
  | .tpoCommit .. | .tpoDisable .. => ⟨_, rfl, .hostWriteQuiet (fun _ => tpoCtrlWrite_within ..) h⟩
  | .tpoTargetReached .. => ⟨_, rfl, .quiet (tpoFire_within ..) h⟩
  | .tpoPulseEnd .. => ⟨_, rfl, .quiet (tpoFall_within ..) h⟩
  | .tciEdge .. => ⟨_, rfl, .quiet (tciEdgeNow_within ..) h⟩
  | .tciTsRead .. => ⟨_, rfl, .hostReadQuiet (fun _ => tciReadNow_within ..) h⟩
  | .timeSnapshot .. => ⟨_, rfl, .hostWriteQuiet (fun _ => snapshotNow_within ..) h⟩
  | .arbRoleChange .. => ⟨_, rfl, .quiet (arbRole_within ..) h⟩
  | .pairEnableWrite .. => ⟨_, rfl, .hostWriteQuiet (fun _ => pairWrite_within ..) h⟩
  | .arbBeatInterval .. => ⟨_, rfl, .quiet (beat_within ..) h⟩
  | .switchWinEdge .. => ⟨_, rfl, .quiet (switchWin_within ..) h⟩
  | .mirrorHealthSend => ⟨_, rfl, .quiet (healthSend_within ..) h⟩
  | .mirrorHealthMsg .. => ⟨_, rfl, .mirrorRecv (fun _ k => .cycleEnd (.quiet (healthMsg_within ..) (.cycleBegin k))) h⟩
  | .mirrorMarkerMsg .. => ⟨_, rfl, .mirrorRecv (fun _ k => .quiet (markerMsg_within ..) k) h⟩
  | .mirrorJournalMsg .. => ⟨_, rfl, .mirrorRecv (fun _ k => .quiet (journalMsg_within ..) k) h⟩
  | .mirrorDoneMsg .. => ⟨_, rfl, .mirrorRecv (fun _ k => .quiet (doneMsg_within ..) k) h⟩
  | .mirrorAckMsg .. => ⟨_, rfl, .mirrorRecv (fun _ k => .quiet (ackMsg_within ..) k) h⟩
  | .mirrorSignaturesMsg .. => ⟨_, rfl, .mirrorRecv (fun _ k => .quiet (sigMsg_within ..) k) h⟩
  | .mirrorCopyMsg .. => ⟨_, rfl, .mirrorRecv (fun _ k => .quiet (copyMsg_within ..) k) h⟩
  | .mirrorAckTimeout n => mirrorAckTimeout_canonical n h
  | .mirrorSilenceTimeout | .mirrorAlignDone => ⟨_, rfl, .ite (.quiet (setLink_within ..) h) h⟩
  | .mirrorLanesLocked | .mirrorLaneLockLoss .. => ⟨_, rfl, .ite (.quiet (setLink_within ..) (.upd rfl rfl h)) h⟩
  | .mirroredWritePresent => ⟨_, rfl, .quiet (presentWrite_within ..) h⟩
  | .marginScanDwell .. => ⟨_, rfl, .quiet (marginDwell_within ..) h⟩
  | .pairNoActiveTimeout => ⟨_, rfl, .ite (.quiet (condBegin_within ..) (.pairStat h)) h⟩
  | .faultStatusClear .. => ⟨_, rfl, .hostWriteQuiet (fun _ => clearFaults_within ..) h⟩
  | .faultSevWrite .. => ⟨_, rfl, .hostWriteQuiet (fun _ => faultSevWrite_within ..) h⟩
  | .patinaRecordWrite .. =>
    ⟨_, rfl, .ite h (.quiet (reportDrops_within ..) (.writeRec (.quiet (takeRec_within ..) h)))⟩
  | .patinaTokenTick => ⟨_, rfl, .quiet (tokenTick_within ..) h⟩
  | .patinaHostRecord .. => ⟨_, rfl, .hostWriteQuiet (fun _ => hostEvtWrite_within ..) h⟩
  | .powerFail => ⟨_, rfl, .powerFail h⟩
  | .keepFinalFlush => ⟨_, rfl, .finalFlush h⟩
  | .powerRestore .. => ⟨_, rfl, .quiet (powerRestore_within ..) h⟩
  | .keepBoundary => ⟨_, rfl, .keepRun h⟩
  | .keepClear .. => ⟨_, rfl, .hostWrite (fun _ => .keepCtrlWrite) h⟩
  | .lifetimeCounterUpdate .. => ⟨_, rfl, .lifeUpdate h⟩
  | .flashErase .. | .flashProgram .. | .flashRead .. => ⟨_, rfl, .hostWriteQuiet (fun _ => flCtrlWrite_within ..) h⟩
  | .flashOpDone .. => ⟨_, rfl, .flashDone h⟩
  | .maqVerify .. | .cast .. | .confirm .. => ⟨_, rfl, .hostWrite (fun _ => .updCtrlWrite) h⟩
  | .maqVerifyDone .. => ⟨_, rfl, .quiet (verifyDone_within ..) h⟩
  | .castPreloadDone .. => ⟨_, rfl, .preloadDone h⟩
  | .castPauseStart => ⟨_, rfl, .castPause h⟩
  | .castResume .. => ⟨_, rfl, .castResume h⟩
  | .confirmWindowExpire => ⟨_, rfl, .quiet (windowExpire_within ..) h⟩
  | .settingsWrite .. | .settingsRead .. | .settingsDelete .. =>
    ⟨_, rfl, .hostWriteQuiet (fun _ => setCtrlWrite_within ..) h⟩
  | .settingsDataAccess m (some w) => ⟨_, rfl, .hostWriteQuiet (fun _ => setDataWrite_within ..) h⟩
  | .settingsDataAccess m none => ⟨_, rfl, .hostReadQuiet (fun _ => setDataRead_within ..) h⟩
  | .pcieReset flr none => ⟨_, rfl, .ite h (.quiet (pcieReset_within ..) h)⟩
  | .pcieReset flr (some (a, bs)) => ⟨_, rfl, .ite h (.quiet (pcieReset_within ..) (.piecesWrite h))⟩
  | .pciePowerStateChange .. => ⟨_, rfl, .ite (.fset h) h⟩
  | .msixUnmask .. => ⟨_, rfl, .hostWriteQuiet (fun _ => msixCtrlWrite_within ..) h⟩
  | .fabricRequestAdmit .. => ⟨_, rfl, .admitFabric h⟩
  | .decodeHangExpire .. => ⟨_, rfl, .quiet (hangExpire_within ..) h⟩
  | .fabricMasterReset .. => ⟨_, rfl, .hostWriteQuiet (fun _ => mresetWrite_within ..) h⟩
  | .i2cMramRead .. => ⟨_, rfl, .i2cMram (.quiet (i2cExtra_within ..) h)⟩
  | .i2cRegRead .. | .i2cRegWrite .. =>
    ⟨_, rfl, .ite (.quiet (i2cCut_within ..) h) (.i2cCommand (.quiet (i2cExtra_within ..) h))⟩
  | .i2cRegResult .. => ⟨_, rfl, .quiet (i2cResult_within ..) (.quiet (i2cExtra_within ..) h)⟩
  | .i2cStatus .. => ⟨_, rfl, .ite (.quiet (i2cReply_within ..) (.quiet (i2cExtra_within ..) h)) (.ite h (.emit h))⟩
  | .i2cResetM8 [] => ⟨_, rfl, .quiet (i2cCut_within ..) h⟩
  | .i2cResetM8 (b :: r) => ⟨_, rfl, .quiet (i2cReply_within ..) (.quiet (i2cExtra_within ..)
      (.ite (.quiet (masterReset_within ..) h) h))⟩
  | .i2cSclTimeout => ⟨_, rfl, .emit h⟩
  | .testInjectArm .. | .testInjectDisarm .. => ⟨_, rfl, .hostWriteQuiet (fun _ => injCtrlWrite_within ..) h⟩
  | .testPertWrite .. | .testMacStall .. => ⟨_, rfl, .hostWriteQuiet (fun _ => pertWrite_within ..) h⟩
  | .testMacStallExpire .. => ⟨_, rfl, .txStart (.upd rfl rfl h)⟩
  | .jtagInstruction .. =>
    ⟨_, rfl, .quiet (jtagDrive_within ..) (.quiet (jtagScan_within ..) (.quiet (jtagLoad_within ..) h))⟩
  | .jtagTrst => ⟨_, rfl, .quiet (jtagReset_within ..) h⟩
  | .glitchFilterExpire .. => ⟨_, rfl, .ite h (.quiet (setFiltered_within ..) h)⟩
  | .synthesiserLock .. => ⟨_, rfl, .quiet (synthLock_within ..) h⟩
  | .bridgeDirectionTrained .. => ⟨_, rfl, .quiet (bridgeTrained_within ..) h⟩
  | .refclkEdgeReturn .. => ⟨_, rfl, .quiet (refEdge_within ..) h⟩
  | .mirrorTimeMarker .. => ⟨_, rfl, .quiet (timeMarker_within ..) h⟩
  | .pcieLinkUp .. => ⟨_, rfl, .ite h (.quiet (pcieConfigure_within ..) (.fset (.fset (.fset h))))⟩
  | .settingsOpDone => ⟨_, rfl, .quiet (setDone_within ..) h⟩
  | .otResidualZero => ⟨_, rfl, .quiet (advanceTicks_within ..) h⟩

theorem step_canonical (h : Canonical s) (hs : step s = .next t) : Canonical t := by
  unfold step at hs
  split at hs
  · cases hs
    exact .tick h
  · next c rest _ =>
    obtain ⟨u, hu, hcanonical⟩ := exec_canonical c (s := { s with pending := rest }) (h.congr rfl)
    cases hs.symm.trans hu
    exact hcanonical

/-- Settles O11: a step is a tick or a command, and each operation that they are made of keeps the canonical form, by the
frame it has or by the memory operation it makes. -/
theorem memoryCanonical : Obligations.MemoryCanonical := by
  unfold Obligations.MemoryCanonical
  exact fun s t hwf hs => canonical_iff_wf.1 (step_canonical (canonical_iff_wf.2 hwf) hs)

end Sys2Proof.Proofs.CanonicalMemories
end

section
/-! PROOF. The operations of a queue by themselves: which cells they name, and how the queue's list of cells follows
(08 R203-R212). -/

set_option Elab.async false

namespace Sys2Proof.Proofs.QueueTakes

open Sys2Proof.Machine Sys2Proof.Laws

variable {s t : State}

/-! ### The queue as data: an operation leaves the list of cells (R203, R212) -/

theorem qAppend_cells (bs : List Nat) (q : Queue) : (qAppend bs q).cells = q.cells := by
  induction bs generalizing q with
  | nil => rfl
  | cons b bs ih =>
    rw [qAppend, ih]
    split
    · split
      · split <;> rfl
      · rfl
    · rfl
theorem qWrite_cells (cap : Nat) (bs : List Nat) (q : Queue) : (qWrite cap bs q).cells = q.cells := by
  unfold qWrite
  split
  · rfl
  · split
    · rfl
    · dsimp only
      split
      · rfl
      · exact qAppend_cells bs q
theorem qClose_cells (q : Queue) : (qClose q).cells = q.cells := by
  unfold qClose
  split
  · rfl
  · dsimp only
    split <;> rfl
theorem qMark_cells (q : Queue) : (qMark q).cells = q.cells := by
  unfold qMark
  split <;> rfl
theorem qRewind_cells (q : Queue) : (qRewind q).cells = q.cells := by
  unfold qRewind
  split <;> rfl
theorem qRelease_cells (q : Queue) : (qRelease q).cells = q.cells := by
  unfold qRelease
  split <;> rfl
theorem qReset_cells (q : Queue) : (qReset q).cells = q.cells := by
  unfold qReset
  split <;> rfl

/-! ### A queue in the state -/

theorem getQ_congr (h : t.q.queues = s.q.queues) (q : Nat) : getQ t q = getQ s q := by
  unfold getQ
  rw [h]
theorem getQ_putQ_same (q : Nat) (v : Queue) (s : State) : getQ (putQ q v s) q = v := (cget_cset ..).trans (if_pos rfl)
theorem getQ_putQ_ne {p q : Nat} (h : p ≠ q) (v : Queue) (s : State) : getQ (putQ q v s) p = getQ s p :=
  (cget_cset ..).trans (if_neg h)

theorem freeCells_length (size n : Nat) (s : State) : (freeCells size n s).1.length = n := by
  induction n generalizing s with
  | zero => rfl
  | succ n ih => exact congrArg (· + 1) (ih _)

/-- The list of cells follows the cells in use, the first of them as they were: freed from the head, new at the tail. -/
theorem syncCells_same (q : Nat) (s : State) : ∃ cells,
    getQ (syncCells q s) q = { getQ s q with cells := cells } ∧ cells.length = qCells (getQ s q) ∧
    (getQ s q).cells.drop ((getQ s q).cells.length - qCells (getQ s q)) <+: cells := by
  refine ⟨_, getQ_putQ_same .., ?_, List.prefix_append ..⟩
  rw [List.length_append, List.length_drop, freeCells_length]
  omega
theorem syncCells_ne {p q : Nat} (h : p ≠ q) (s : State) : getQ (syncCells q s) p = getQ s p :=
  (getQ_putQ_ne h ..).trans (getQ_congr (congrArg QueueSt.queues ((freeCells_within ..).part .q (by decide))) p)
theorem syncCells_regs (q : Nat) (s : State) : (syncCells q s).regs = s.regs := (syncCells_within ..).part .regs (by decide)

/-! ### Without an injection the descriptor passes its check (R204, R216; 20 R493) -/

section Clean
variable (h : s.test.inj = none)
include h

theorem secded_clean (cls idx : Nat) : secded cls idx 0 s = (0, s) := by
  simp only [secded, observe, h]
  rfl
theorem wideCheck_clean (cls idx stack off : Nat) (sram : Bool) (q : Option Nat) :
    wideCheck cls idx stack off 0 sram q s = (false, s) := by
  simp only [wideCheck, ite_self]
  have hstep (l : List Nat) : l.foldl (fun (r : Bool × State) i =>
      if (secded cls idx 0 r.2).1 = 0 then (r.1, (secded cls idx 0 r.2).2)
      else if (secded cls idx 0 r.2).1 = 1 then (r.1, eccCorr q (secded cls idx 0 r.2).2)
      else (true, eccUncorr stack (off + 8 * i) sram q (secded cls idx 0 r.2).2)) (false, s) = (false, s) := by
    induction l with
    | nil => rfl
    | cons i l ih => simpa only [List.foldl_cons, secded_clean h, if_true] using ih
  exact hstep _

/-- What the use of a descriptor then leaves: the queues, and every register but the count of misses. -/
theorem touchQ_clean (q : Nat) :
    (touchQ q s).q.queues = s.q.queues ∧ RegsWithin [Reg.QM_DCACHE_MISS] s (touchQ q s) := by
  have hend {u v : State} (hv : v.q.queues = s.q.queues ∧ RegsWithin [Reg.QM_DCACHE_MISS] s v) :
      (cycleEnd u v).q.queues = s.q.queues ∧ RegsWithin [Reg.QM_DCACHE_MISS] s (cycleEnd u v) :=
    ⟨(congrArg _ ((cycleEnd_within u v).part .q (by decide))).trans hv.1, cycleEnd_regs hv.2⟩
  unfold touchQ
  extract_lets hot hit src u r
  have hu : u.test.inj = none ∧ u.q.queues = s.q.queues ∧ u.regs = s.regs := by
    simp only [u]
    split
    · exact ⟨h, rfl, rfl⟩
    · exact ⟨h, rfl, rfl⟩
  obtain ⟨hinj, hqueues, hregs⟩ := hu
  have hsame : RegsWithin [Reg.QM_DCACHE_MISS] s u := (OnlyRegs.refl _ s).same hregs
  have hr : r.1 = false ∧ r.2.q.queues = s.q.queues ∧ RegsWithin [Reg.QM_DCACHE_MISS] s r.2 := by
    simp only [r, hbmCheck]
    split
    · rw [wideCheck_clean (s := cycleBegin u) hinj]
      exact ⟨rfl, hqueues, cycleBegin_regs hsame⟩
    · rw [wideCheck_clean (s := count (cycleBegin u) Reg.QM_DCACHE_MISS) hinj]
      exact ⟨rfl, hqueues, (cycleBegin_regs hsame).count (by simp)⟩
  rw [hr.1, if_neg (by decide)]
  exact hend hr.2

/-! ### An operation on a queue of a group (R204, R207, R208, R212) -/

/-- From s to t queue q has taken the operation f, its list of cells has followed, no other queue has changed, and of the
registers only the count of descriptor misses and the reports. -/
def Took (q : Nat) (f : Queue → Queue) (s t : State) : Prop :=
  getQ t q = { f (getQ s q) with cells := (getQ t q).cells } ∧
  (getQ t q).cells.length = qCells (f (getQ s q)) ∧
  (getQ s q).cells.drop ((getQ s q).cells.length - qCells (f (getQ s q))) <+: (getQ t q).cells ∧
  (∀ p, p ≠ q → getQ t p = getQ s p) ∧ RegsReported [Reg.QM_DCACHE_MISS] s t

theorem qOp_eq {q : Nat} (f : Queue → Queue) (hq : qNamed s q = true) :
    qOp q f s = syncCells q (putQ q (f (getQ s q)) (touchQ q s)) := by
  unfold qOp
  rw [if_pos hq, ← getQ_congr (touchQ_clean h q).1 q]

/-- An operation that leaves the list of cells is taken. -/
theorem qOp_took {q : Nat} {f : Queue → Queue} (hq : qNamed s q = true) (hf : ∀ v, (f v).cells = v.cells) :
    Took q f s (qOp q f s) := by
  obtain ⟨hqueues, hregs⟩ := touchQ_clean h q
  obtain ⟨cells, hsame, hlength, hprefix⟩ := syncCells_same q (putQ q (f (getQ s q)) (touchQ q s))
  rw [getQ_putQ_same] at hsame hlength hprefix
  rw [hf] at hprefix
  rw [qOp_eq h f hq]
  unfold Took
  rw [hsame]
  refine ⟨rfl, hlength, hprefix, fun p hp => ?_, (hregs.mono fun _ => .inr).same (syncCells_regs ..)⟩
  rw [syncCells_ne hp, getQ_putQ_ne hp, getQ_congr hqueues]

/-- The host's operation does no more to the queues, whatever it frees of a block (R215). -/
theorem hostOp_took {q code : Nat} (hq : qNamed s q = true) (hf : ∀ v, (qOpCode code v).cells = v.cells) :
    Took q (qOpCode code) s (hostOp q code s) := by
  have htook := qOp_took h hq hf
  unfold hostOp
  dsimp only
  split <;> exact htook

/-- A narrow write reads the word it does not start, which passes its check, and is then taken (R205, R206). -/
theorem queueWrite_took {q : Nat} (hq : qNamed s q = true) (bs : List Nat) :
    Took q (qWrite (qCap s q) bs) s (queueWrite q bs s) := by
  unfold queueWrite
  simp only [hbmCheck, wideCheck_clean h, ite_self]
  exact qOp_took h hq (qWrite_cells _ bs)

end Clean

/-! ### What the host makes of it at the queue's window (R225) -/

theorem bar2Write_pass {mapped : Bool} {a : Nat} (h : bar2Gate s true a mapped = .pass) (bs : List Nat)
    (eff : State → State) : bar2Write mapped a bs eff s = eff (grantTo (bar2Port s a) 0 s) := by
  unfold bar2Write
  rw [h]

/-- A narrow write at the write port: whole, and within it. -/
theorem portWrite_narrow {q off : Nat} {bs : List Nat} (hq : qNamed s q = true) (hopen : hostBarred s q = false)
    (hlen : bs.length ∈ [1, 2, 4, 8]) (hoff : off < 32) (hdvd : off % bs.length = 0) :
    portWrite q off bs s = queueWrite q bs s := by
  have hwhole : bs.length = 1 ∨ bs.length = 2 ∨ bs.length = 4 ∨ bs.length = 8 := by simpa using hlen
  have hfits : off + bs.length ≤ 32 := by
    rcases hwhole with hn | hn | hn | hn <;> rw [hn] at hdvd ⊢ <;> omega
  unfold portWrite
  rw [if_neg (by simp [hopen, hq])]
  exact if_pos ⟨hwhole, hdvd, hfits⟩

/-! ### O23 -/

/-- Settles O23: behind its gate each command is granted, which leaves the queues; the five operations of QM_Q_OP are then
taken by `hostOp_took`, a narrow write by `queueWrite_took`. -/
theorem queueOperations : Obligations.QueueOperations := by
  unfold Obligations.QueueOperations
  intro q s hgate hq hinj
  dsimp only
  have hop {code : Nat} (hf : ∀ v, (qOpCode code v).cells = v.cells) :
      Took q.toNat (qOpCode code) s (qOpWrite q.toNat code s) := by
    unfold qOpWrite
    rw [bar2Write_pass (hgate 0x20 (by decide))]
    exact hostOp_took (s := grantTo _ 0 s) hinj hq hf
  refine ⟨⟨_, rfl, hop (code := 1) qClose_cells⟩, ⟨_, rfl, hop (code := 2) qMark_cells⟩,
    ⟨_, rfl, hop (code := 3) qRewind_cells⟩, ⟨_, rfl, hop (code := 4) qRelease_cells⟩,
    ⟨_, rfl, hop (code := 5) qReset_cells⟩, fun off bytes hopen hlen hdvd => ⟨_, rfl, ?_⟩⟩
  rw [bar2Write_pass (hgate off (by omega)), portWrite_narrow (s := grantTo _ 0 s) hq hopen (by simpa using hlen) off.isLt
    (by simpa using hdvd)]
  exact queueWrite_took (s := grantTo _ 0 s) hinj hq _

end Sys2Proof.Proofs.QueueTakes
end

section
/-! PROOF. O24: the positions of a queue as data, and its capacity as the host writes it (08 R207, R210, R212). -/

set_option Elab.async false

namespace Sys2Proof.Proofs.QueueCapacity

open Sys2Proof.Machine Sys2Proof.Laws Sys2Proof.Proofs.RefusalCapture Sys2Proof.Proofs.QueueTakes

variable {s : State} {q c g : Nat}

/-! ### Positions (R207, R212) -/

/-- A frozen queue takes no operation. -/
theorem frozen_keeps {v : Queue} (h : v.frozen = true) :
    qClose v = v ∧ qMark v = v ∧ qRewind v = v ∧ qRelease v = v ∧ qReset v = v := by
  simp [qClose, qMark, qRewind, qRelease, qReset, h]

section Open
variable {v : Queue} (h : v.frozen = false)
include h

theorem qRewind_qMark : qRewind (qMark v) = { v with mark := some v.rd } := by
  simp [qRewind, qMark, h]
theorem qRewind_unmarked (hmark : v.mark = none) : (qRewind v).rd = 0 := by
  simp [qRewind, h, hmark]
theorem qRelease_open : (qRelease v).words = v.words.drop v.rd ∧ (qRelease v).rd = 0 := by
  simp [qRelease, h]
theorem qReset_open : (qReset v).words = [] ∧ (qReset v).opn = false ∧ (qReset v).cap = v.cap := by
  simp [qReset, h]

/-- CLOSE ends an open record that holds a word: its last word takes END. -/
theorem qClose_open {w : QWord} (hopn : v.opn = true) (hwords : v.openWords ≠ 0) (hlast : v.words.getLast? = some w) :
    qClose v = { v with
      opn := false, openWords := 0, trunc := false
      words := v.words.dropLast ++ [{ w with last := true, trunc := v.trunc }] } := by
  simp [qClose, h, hopn, hwords, hlast]
theorem qClose_records {w : QWord} (hopn : v.opn = true) (hwords : v.openWords ≠ 0) (hlast : v.words.getLast? = some w) :
    qClosed (qClose v) = v.words.length ∧ qRecords (qClose v) = qRecords { v with words := v.words.dropLast } + 1 := by
  have hne : v.words ≠ [] := by
    rintro hnil
    simp [hnil] at hlast
  have hpos : 0 < v.words.length := List.length_pos_iff.2 hne
  rw [qClose_open h hopn hwords hlast]
  constructor
  · simp [qClosed]
    omega
  · simp [qRecords]

end Open

/-! ### A capacity refused (R210; 03 R74) -/

/-- The captures as a refusal writes them leave the count. -/
theorem captured_count (m reason rid a : Nat) (s : State) :
    rgetN (rsetN (rsetN (fset (fset (fset s Reg.IMG_REFUSE_INFO Fld.IMG_REFUSE_INFO_MASTER m)
      Reg.IMG_REFUSE_INFO Fld.IMG_REFUSE_INFO_REASON reason) Reg.IMG_REFUSE_INFO Fld.IMG_REFUSE_INFO_VALID 1)
      Reg.IMG_REFUSE_RES rid) Reg.IMG_REFUSE_ADDR a) Reg.IMG_REFUSE_COUNT = rgetN s Reg.IMG_REFUSE_COUNT := by
  rw [rgetN_rsetN_ne _ _ (by decide), rgetN_rsetN_ne _ _ (by decide), rgetN_fset_ne _ _ _ (by decide),
    rgetN_fset_ne _ _ _ (by decide), rgetN_fset_ne _ _ _ (by decide)]

/-- A refusal counts, whether or not it is the first of its cycle. -/
theorem refuse_count (m reason rid a : Nat) (s : State) :
    rgetN (refuse m reason rid a s) Reg.IMG_REFUSE_COUNT = min 0xFFFFFFFF (rgetN s Reg.IMG_REFUSE_COUNT + 1) := by
  have hcaptured := captured_count m reason rid a s
  unfold refuse
  dsimp only
  rw [(capturesKept_raise (by decide) _ (OnlyRegs.refl _ _)).num (by decide), rgetN_count_same]
  generalize rsetN (rsetN _ Reg.IMG_REFUSE_RES rid) Reg.IMG_REFUSE_ADDR a = t at hcaptured ⊢
  congr 2
  split
  · rfl
  · refine Eq.trans (rgetN_congr ?_ _) hcaptured
    split <;> rfl

/-- A refusal of the host is reported with its reason, and leaves the queues. -/
def Refused (s t : State) (reason : Nat) : Prop :=
  t.q = s.q ∧ rgetN t Reg.IMG_REFUSE_COUNT = min 0xFFFFFFFF (rgetN s Reg.IMG_REFUSE_COUNT + 1) ∧ RefusedFor s t reason

theorem refuse_refused {reason : Nat} (hr : reason < 4) (m rid a : Nat) (s : State) :
    Refused s (refuse m reason rid a s) reason :=
  ⟨(refuse_within ..).part .q (by decide), refuse_count .., refuse_refusedFor hr m rid a s⟩

/-! ### The capacity of a queue of a group (R202, R210) -/

/-- What the other queues of group g hold of its quota. -/
abbrev othersCap (s : State) (g q : Nat) : Nat := (List.range (qgCount s.img g)).foldl (fun acc i =>
  if qgFirst s.img g + i = q then acc else acc + qCap s (qgFirst s.img g + i)) 0

theorem capWrite_barred (h : hostBarred s q = true) : Refused s (capWrite q c s) 3 := by
  unfold capWrite
  rw [if_pos h]
  exact refuse_refused (by decide) _ _ _ (spend s)

section Grouped
variable (hopen : hostBarred s q = false) (hgroup : qGroup s.img q = some g)
include hopen hgroup

theorem capWrite_above (h : ¬ c + othersCap s g q ≤ qgQuota s.img g) : Refused s (capWrite q c s) 2 := by
  unfold capWrite
  simp only [hopen, hgroup]
  rw [if_neg (by decide), if_pos (Nat.not_le.1 h)]
  exact refuse_refused (by decide) _ _ _ (spend s)
theorem capWrite_within_quota (h : c + othersCap s g q ≤ qgQuota s.img g) :
    capWrite q c s = putQ q { getQ (touchQ q s) q with cap := some c } (touchQ q s) := by
  unfold capWrite
  simp only [hopen, hgroup]
  rw [if_neg (by decide), if_neg (Nat.not_lt.2 h)]

end Grouped

/-- The capacity of a queue that the host reaches is the one it has set. -/
theorem qCap_set (hopen : hostBarred s q = false) (h : (getQ s q).cap = some c) : qCap s q = c := by
  simp only [hostBarred, isFrameStore, blockQueue, Bool.or_eq_false_iff, Option.isSome_eq_false_iff,
    Option.isNone_iff_eq_none] at hopen
  obtain ⟨hstore, hblock⟩ := hopen
  simp only [qCap, hstore, hblock, h]

/-- A capacity taken is the queue's, with nothing else of the queue changed. -/
theorem capWrite_taken (hopen : hostBarred s q = false) (hgroup : qGroup s.img q = some g) (hinj : s.test.inj = none)
    (h : c + othersCap s g q ≤ qgQuota s.img g) :
    getQ (capWrite q c s) q = { getQ s q with cap := some c } ∧ qCap (capWrite q c s) q = c := by
  have hset : getQ (capWrite q c s) q = { getQ s q with cap := some c } := by
    rw [capWrite_within_quota hopen hgroup h, getQ_putQ_same, getQ_congr (touchQ_clean hinj q).1]
  have himg : (capWrite q c s).img = s.img := (capWrite_within ..).part .img (by decide)
  refine ⟨hset, qCap_set ?_ (by rw [hset])⟩
  rw [hostBarred, himg]
  exact hopen

/-! ### O24 -/

/-- Settles O24: the positions by the equations of the operations, and the capacity by the three answers of `capWrite`, where
the grant behind the gate leaves the queues. -/
theorem queuePositionsAndCapacity : Obligations.QueuePositionsAndCapacity := by
  unfold Obligations.QueuePositionsAndCapacity
  refine ⟨fun v => ⟨frozen_keeps, fun h => ?positions⟩, fun q cap g s hgate hgroup hinj => ⟨_, rfl, ?capacity⟩⟩
  case positions =>
    obtain ⟨hreleased, hrd⟩ := qRelease_open h
    exact ⟨qRewind_qMark h, qRewind_unmarked h, hreleased, hrd, fun hopn hwords _ => qClose_records h hopn hwords,
      qReset_open h⟩
  case capacity =>
    rw [bar2Write_pass hgate]
    generalize bar2Port s (128 * q.toNat + 0x2C) = p
    cases hopen : hostBarred s q.toNat with
    | true =>
      rw [if_neg (by simp), if_pos rfl]
      exact capWrite_barred (s := grantTo p 0 s) hopen
    | false =>
      split
      · next h => exact capWrite_taken (s := grantTo p 0 s) hopen hgroup hinj h.2
      · next h =>
        rw [if_neg (by decide)]
        exact capWrite_above (s := grantTo p 0 s) hopen hgroup fun hle => h ⟨rfl, hle⟩

end Sys2Proof.Proofs.QueueCapacity
end

section
/-! PROOF. O26, a host write to the staging area: what fails of it (08 R224; 19 R476, Table 19.4). A write that runs on
past the staging area for so long that it reaches the window of another port can be held there, which is counted. -/

set_option Elab.async false

namespace Sys2Proof.Proofs.StagingWrites

open Sys2Proof.Machine Sys2Proof.Laws Sys2Proof.Proofs.QueueTakes

variable {s t : State} {n : Nat}

/-! ### The pieces of a write (19 R477) -/

/-- Every multiple of 64 within a write begins a piece of it. -/
theorem exists_piece {x : Nat} (hx : x % 64 = 0) (fuel a n : Nat) (ha : a ≤ x) (hn : x < a + n) (hfuel : n < fuel) :
    ∃ p ∈ pieces 64 fuel a n, p.1 = x := by
  induction fuel generalizing a n with
  | zero => omega
  | succ fuel ih =>
    rw [pieces, if_neg (by omega)]
    rcases Nat.eq_or_lt_of_le ha with rfl | hlt
    · exact ⟨_, List.mem_cons_self, rfl⟩
    · obtain ⟨p, hp, hpx⟩ := ih (a + min n (64 - a % 64)) (n - min n (64 - a % 64)) (by omega) (by omega) (by omega)
      exact ⟨p, List.mem_cons_of_mem _ hp, hpx⟩

/-! ### A port that a held write blocks (19 R476) -/

/-- A write of the host that waits for port 21. -/
def waiting : HeldReq := { master := 0, write := true, addr := 0, port := 21 }

/-- The device is in BOOT, its link is up, `waiting` is held, and n requests at least are counted as held for order. -/
structure Blocked (n : Nat) (t : State) : Prop where
  boot : mode t = .boot
  up : fbit t Reg.FABRIC_PCIE_STAT Fld.FABRIC_PCIE_STAT_UP = true
  notD3hot : fbit t Reg.FABRIC_PCIE_STAT Fld.FABRIC_PCIE_STAT_D3HOT = false
  waits : waiting ∈ t.fab.held
  counted : n ≤ rgetN t Reg.FABRIC_HOLD_ORDER

namespace Blocked

/-- A change of other parts of the state. -/
theorem same (h : Blocked n s) (hregs : t.regs = s.regs) (hheld : waiting ∈ t.fab.held) : Blocked n t where
  boot := (congrArg modeOf (fget_congr hregs ..)).trans h.boot
  up := (congrArg (· == 1) (fget_congr hregs ..)).trans h.up
  notD3hot := (congrArg (· == 1) (fget_congr hregs ..)).trans h.notD3hot
  waits := hheld
  counted := (rgetN_congr hregs _) ▸ h.counted

/-- A count of a held request. -/
theorem count (h : Blocked n s) {a : Nat} (ha : a = Reg.FABRIC_HOLD_ORDER ∨ a = Reg.FABRIC_HOLD_DEADLOCK) :
    Blocked n (count s a) := by
  have hkept : OnlyRegs (· ∈ [Reg.FABRIC_HOLD_ORDER, Reg.FABRIC_HOLD_DEADLOCK]) s (Machine.count s a) :=
    (OnlyRegs.refl _ s).count (by simpa using ha)
  refine ⟨(congrArg modeOf (hkept.field (by decide) _)).trans h.boot, (hkept.bit (by decide) _).trans h.up,
    (hkept.bit (by decide) _).trans h.notD3hot, h.waits, ?_⟩
  have hlt := rgetN_lt s Reg.FABRIC_HOLD_ORDER
  have hn := h.counted
  rcases ha with rfl | rfl
  · rw [rgetN_count_same]
    omega
  · rwa [rgetN_count_ne _ (by decide)]

theorem holdReq (h : Blocked n s) (r : HeldReq) : Blocked n (holdReq r s) := by
  have hheld : Blocked n { s with fab := { s.fab with held := s.fab.held ++ [r] } } :=
    h.same rfl (List.mem_append_left _ h.waits)
  unfold Machine.holdReq
  dsimp only
  split
  · exact hheld.count (.inl rfl)
  · exact hheld.count (.inr rfl)
  · exact hheld

/-- A write whose effect is on the contents of a memory. -/
theorem bar2Write {mapped : Bool} {a : Nat} {bs : List Nat} {eff : State → State} (h : Blocked n s)
    (heff : ∀ v, (eff v).regs = v.regs ∧ (eff v).fab = v.fab) : Blocked n (bar2Write mapped a bs eff s) := by
  unfold Machine.bar2Write
  split
  · obtain ⟨hregs, hfab⟩ := heff (grantTo (bar2Port s a) 0 s)
    exact h.same hregs (hfab ▸ h.waits)
  · exact h.same (emit_regs ..) (by rw [emit_fab]; exact h.waits)
  · exact h.holdReq _
  · exact h

theorem notInService (h : Blocked n s) : inService s = false := by
  rw [inService, h.boot]
  rfl
theorem burstWrite (h : Blocked n s) (a : Nat) (bs : List Nat) : Blocked n (burstWrite a bs s) := by
  unfold Machine.burstWrite
  rw [if_neg (by simp [h.notInService])]
  split
  · exact h.bar2Write fun _ => ⟨rfl, rfl⟩
  · exact h.bar2Write fun _ => ⟨rfl, rfl⟩

/-- A write to the window of port 21 follows `waiting`, and is held and counted. -/
theorem burstWrite_counted (h : Blocked n s) {a : Nat} (hlo : 0x10000000 ≤ a) (hhi : a < 0x20000000) (bs : List Nat) :
    Blocked 1 (Machine.burstWrite a bs s) := by
  have hport : bar2Port s a = 21 := by
    rw [bar2Port, if_neg (by omega), if_pos hhi]
  have hcause : holdCause s s.fab.held 0 true 21 = some .order := by
    have hfollows : (s.fab.held.filter (fun r => r.master == 0)).any (fun r => mustFollow 0 true 21 r.write (targetOf r)) :=
      List.any_eq_true.2 ⟨waiting, List.mem_filter.2 ⟨h.waits, rfl⟩, rfl⟩
    simp only [holdCause, hfollows, Bool.or_true, Bool.true_or, if_true]
  have hgate (mapped : Bool) : bar2Gate s true a mapped = .held := by
    simp [bar2Gate, h.boot, h.up, h.notD3hot, hport, hcause]
  have hburst : Machine.burstWrite a bs s =
      Machine.holdReq { master := 0, write := true, addr := a, port := 21, bytes := bs } s := by
    simp only [Machine.burstWrite, h.notInService, Bool.false_and, Bool.false_eq_true, if_false, if_pos hhi,
      Machine.bar2Write, hgate, hport]
  have hcount : Machine.holdReq { master := 0, write := true, addr := a, port := 21, bytes := bs } s =
      Machine.count { s with fab := { s.fab with held := s.fab.held ++
        [{ master := 0, write := true, addr := a, port := 21, bytes := bs }] } } Reg.FABRIC_HOLD_ORDER := by
    unfold Machine.holdReq
    simp only [targetOf, if_neg (show (21 : Nat) ≠ 0 by decide), hcause]
  refine { h.burstWrite a bs with counted := ?_ }
  rw [hburst, hcount, rgetN_count_same]
  omega

/-- So do the bursts of a whole write. -/
theorem bursts {α : Type} {at_ : α → Nat} {bytes : α → List Nat} (h : Blocked n s) (l : List α) :
    Blocked n (l.foldl (fun s p => Machine.burstWrite (at_ p) (bytes p) s) s) := by
  induction l generalizing s with
  | nil => exact h
  | cons p l ih => exact ih (h.burstWrite _ _)

end Blocked

/-- A write one of whose pieces begins in the window of port 21 is counted there. -/
theorem piecesWrite_counted {a : Nat} {bs : List Nat} (h : Blocked 0 s) (ha : a ≤ 0x10000000)
    (hlen : 0x10000000 < a + bs.length) : Blocked 1 (piecesWrite 64 a bs s) := by
  obtain ⟨p, hp, hpx⟩ :=
    exists_piece (x := 0x10000000) (by decide) (bs.length + 1) a bs.length ha hlen (Nat.lt_succ_self _)
  obtain ⟨before, after, hsplit⟩ := List.append_of_mem hp
  unfold piecesWrite
  rw [hsplit, List.foldl_append, List.foldl_cons, hpx]
  exact ((h.bursts before).burstWrite_counted (by decide) (by decide) _).bursts after

/-! ### O26 -/

/-- In BOOT with the staging area mapped and the link up, `waiting` is held. -/
def stagingState : State :=
  { core := { modeSel := 1 }, regs := [(Reg.FABRIC_PCIE_STAT, 1)], fab := { held := [waiting] } }

theorem stagingState_blocked : Blocked 0 stagingState :=
  ⟨by decide +kernel, by decide +kernel, by decide +kernel, List.mem_singleton.2 rfl, Nat.zero_le _⟩

/-- Refutes O26 by its clause on a host write to the staging area: a write from offset 0 that runs on to offset 0x1000_0000
meets there the port that `waiting` blocks, so a piece of it is held and counted in FABRIC_HOLD_ORDER, where the clause
lets no register change. -/
theorem not_hbmScrubAndStaging : ¬ Obligations.HbmScrubAndStaging := by
  unfold Obligations.HbmScrubAndStaging
  intro h
  obtain ⟨-, -, staging⟩ := h
  obtain ⟨bytes, hlen⟩ : ∃ bytes : List Byte, bytes.length = 0x10000001 :=
    ⟨List.replicate 0x10000001 0, List.length_replicate⟩
  obtain ⟨t, ht, hregs, -⟩ := staging 0 bytes stagingState (by decide +kernel) (by decide)
  have hwritten : windowWrite 0 (bytes.map (·.toNat)) stagingState = t := Host.Outcome.next.inj ht
  have hcounted : Blocked 1 t := by
    rw [← hwritten, windowWrite, if_neg (by decide +kernel)]
    exact piecesWrite_counted stagingState_blocked (by decide) (by rw [List.length_map, hlen]; decide)
  have hzero : rgetN t Reg.FABRIC_HOLD_ORDER = 0 := (rgetN_congr hregs _).trans (by decide +kernel)
  exact absurd hcounted.counted (by rw [hzero]; decide)

end Sys2Proof.Proofs.StagingWrites
end

section
/-! PROOF. O48, the memory errors of engines and clusters: what fails of it (09 R228; 03 R76). An error that a cluster of
another quadrant reports reaches no memory, yet the cycle in which it is observed ends with the capture of a refusal that
stood before it let go. -/

set_option Elab.async false

namespace Sys2Proof.Proofs.EngineFaults

open Sys2Proof.Machine Sys2Proof.Proofs.HostRegisterAccesses

/-- Between cycles, a refusal of master 0 at offset 0 stands captured. -/
def refusalState : State := { core := { refusal := some (0, 0) } }

/-- No engine reaches the memory of another quadrant (R228). -/
theorem clusterError_otherQuad {c e : Nat} (h : clusterQuad c ≠ clusterQuad (engineCluster e)) (gr errs : Nat) (s : State) :
    clusterError c gr e errs s = s := if_pos h

/-- Refutes O48 by its clause on an error of a cluster in another quadrant than the engine's, cluster 0 and engine 1023: it
asks for an unchanged state, where the end of the cycle clears the refusal that `refusalState` holds. -/
theorem not_engineFaults : ¬ Obligations.EngineFaults := by
  unfold Obligations.EngineFaults
  intro h
  obtain ⟨memory, -⟩ := h refusalState (fun x hx => nomatch hx) (fun q x hx => nomatch hx)
  obtain ⟨-, -, otherQuad, -⟩ := memory 0 0 1023 0
  have hquad : clusterQuad 0 ≠ clusterQuad (engineCluster 1023) := by decide
  obtain ⟨t, ht, hsame⟩ := otherQuad hquad
  have hcycle : cycleEnd refusalState (clusterError 0 0 1023 0 (cycleBegin refusalState)) = t := Host.Outcome.next.inj ht
  have hcleared := cycleEnd_refusal (s := refusalState) rfl (cycleBegin refusalState)
  rw [clusterError_otherQuad hquad, hsame] at hcycle
  rw [hcycle] at hcleared
  exact absurd hcleared (by decide)

end Sys2Proof.Proofs.EngineFaults
end

section
/-! PROOF. O50, the data ports of the shadowed tables and their commits (09 R235, R243; 10 R259, R267; 11 R294). -/

set_option Elab.async false

namespace Sys2Proof.Proofs.TablePorts

open Sys2Proof.Machine Sys2Proof.Laws Sys2Proof.Proofs.RefusalCapture

variable {s t : State} {m : Nat}

/-! ### A range of a table is copied -/

/-- The keys of a table that `p` picks, then a table that lists none of them. -/
theorem mapGet_part {d : Nat → Nat} {k : Nat} (p : Nat → Bool) (a : List (Nat × Nat)) {b : List (Nat × Nat)}
    (hb : p k = true → mapGet d b k = d k) :
    mapGet d (a.filter (fun e => p e.1) ++ b) k = if p k then mapGet d a k else mapGet d b k := by
  have hpart := mapGet_filter d p a k
  rw [mapGet_append]
  cases hp : p k with
  | false => rw [if_neg fun hmem => by simp [hp] at hmem]; rfl
  | true =>
    rw [hp] at hpart
    split
    · exact hpart
    · next hmem => exact (hb hp).trans ((mapGet_absent d _ k hmem).symm.trans hpart)

/-- Inside the range a copy reads the source, outside it the table copied into. -/
theorem mapGet_copyRange (d : Nat → Nat) {lo hi : Nat} (hlo : lo ≤ hi) (a b : List (Nat × Nat)) (k : Nat) :
    mapGet d (copyRange lo hi a b) k = mapGet d (if lo ≤ k ∧ k < hi then a else b) k := by
  have above := mapGet_filter d (fun x => decide (hi ≤ x)) b k
  have between := mapGet_part (d := d) (k := k) (fun x => decide (lo ≤ x) && decide (x < hi)) a
    (b := b.filter (fun e => decide (hi ≤ e.1))) fun h => above.trans (if_neg (by simp at h ⊢; omega))
  have whole := mapGet_part (d := d) (k := k) (fun x => decide (x < lo)) b
    (b := a.filter (fun e => decide (lo ≤ e.1) && decide (e.1 < hi)) ++ b.filter (fun e => decide (hi ≤ e.1)))
    fun h => by
      have hk : k < lo := of_decide_eq_true h
      exact between.trans ((if_neg (by simp; omega)).trans (above.trans (if_neg (by simp; omega))))
  unfold copyRange
  rw [whole, between, above]
  grind

/-! ### Control registers -/

/-- An index advances by one, and no other register changes. -/
theorem indexNext_index (a : Nat) (f : FieldRow) (h : t.regs = s.regs) (hf : f.hi < 32 := by decide)
    (hl : f.lo ≤ f.hi + 1 := by decide) : fget (indexNext a f t) a f = (fget s a f + 1) % 2 ^ (f.hi + 1 - f.lo) := by
  rw [← fget_congr h]
  exact fget_fset_same _ _ _ _ hf hl
theorem indexNext_regs (a : Nat) (f : FieldRow) (h : t.regs = s.regs) : RegsWithin [a] s (indexNext a f t) :=
  ((OnlyRegs.refl _ s).same h).fset (by simp)

section PlainWrite
variable {old w n : Nat} {f g : FieldRow} {fs : List FieldRow}

/-- The field lies in a word. -/
abbrev InWord (f : FieldRow) : Prop := f.hi < 32 ∧ f.lo ≤ f.hi + 1

theorem writeField_lt (hg : InWord g) (hn : n < 2 ^ 32) : writeField old w g n < 2 ^ 32 := by
  unfold writeField
  split
  · exact withBits_lt _ _ _ _ _ hg.1 hg.2 hn
  · exact withBits_lt _ _ _ _ _ hg.1 hg.2 hn
  · exact withBits_lt _ _ _ _ _ hg.1 hg.2 hn
  all_goals exact hn
theorem writeFields_lt (hfs : ∀ g ∈ fs, InWord g) (hn : n < 2 ^ 32) :
    fs.foldl (fun acc g => writeField old w g acc) n < 2 ^ 32 := by
  induction fs generalizing n with
  | nil => exact hn
  | cons g fs ih =>
    exact ih (fun x hx => hfs x (List.mem_cons_of_mem _ hx)) (writeField_lt (hfs g List.mem_cons_self) hn)

/-- A field that takes the bits written, and one that lies apart from it. -/
theorem bitsOf_writeField_rw (hf : f.acc = .rw) : bitsOf f.hi f.lo (writeField old w f n) = bitsOf f.hi f.lo w := by
  simp only [writeField, hf, bitsOf_withBits]
  exact Nat.mod_mod _ _
theorem bitsOf_writeField_apart (hg : InWord g) (h : f.hi < g.lo ∨ g.hi < f.lo) :
    bitsOf f.hi f.lo (writeField old w g n) = bitsOf f.hi f.lo n := by
  have kept (v : Nat) : bitsOf f.hi f.lo (withBits g.hi g.lo v n) = bitsOf f.hi f.lo n :=
    h.elim (bitsOf_withBits_below _ _ _ _ _ _) (fun h => bitsOf_withBits_above _ _ _ _ _ _ h hg.2)
  unfold writeField
  split
  · exact kept _
  · exact kept _
  · exact kept _
  all_goals rfl
theorem bitsOf_writeFields_apart (hfs : ∀ g ∈ fs, InWord g ∧ (f.hi < g.lo ∨ g.hi < f.lo)) :
    bitsOf f.hi f.lo (fs.foldl (fun acc g => writeField old w g acc) n) = bitsOf f.hi f.lo n := by
  induction fs generalizing n with
  | nil => rfl
  | cons g fs ih =>
    obtain ⟨hg, hapart⟩ := hfs g List.mem_cons_self
    exact (ih fun x hx => hfs x (List.mem_cons_of_mem _ hx)).trans (bitsOf_writeField_apart hg hapart)

end PlainWrite

/-- A plain write stores what it names of a RW field f, of a row whose fields after f lie apart from it. -/
theorem fget_plainWrite {a : Nat} {f : FieldRow} {r : RegRow} (w : Word) (s : State) (before after : List FieldRow)
    (hrow : findRow a = some r := by rfl) (hfields : r.fields = before ++ f :: after := by rfl)
    (hword : ∀ g ∈ before ++ f :: after, InWord g := by decide) (hrw : f.acc = .rw := by rfl)
    (hapart : ∀ g ∈ after, InWord g ∧ (f.hi < g.lo ∨ g.hi < f.lo) := by decide) :
    fget (plainWrite a w s) a f = bitsOf f.hi f.lo w.toNat := by
  have hvalue : plainValue a (rgetN s a) w.toNat =
      (before ++ f :: after).foldl (fun acc g => writeField (rgetN s a) w.toNat g acc) (rgetN s a) := by
    simp only [plainValue, hrow, hfields]
  unfold fget plainWrite
  rw [hvalue, rgetN_rsetN_same, Nat.mod_eq_of_lt (writeFields_lt hword (rgetN_lt s a)), List.foldl_append, List.foldl_cons,
    bitsOf_writeFields_apart hapart, bitsOf_writeField_rw hrw]
theorem plainWrite_regs (a : Nat) (w : Word) (s : State) : RegsWithin [a] s (plainWrite a w s) :=
  (OnlyRegs.refl _ s).rsetN (by simp)

/-- The number of a word that is given as a sum of its fields. -/
theorem w32_toNat {n : Nat} (h : n < 2 ^ 32) : (w32 n).toNat = n := by
  rw [w32, BitVec.toNat_ofNat, Nat.mod_eq_of_lt h]

/-- A command that writes, or reads, a register that answers: its block's effect, once granted, is what it does. -/
theorem answers_write {c : Instr} {P : State → Prop} {a : Nat} {w : Word} {eff f : State → State} (hr : Reaches s m a)
    (hc : exec c s = .next (hostWrite m a w eff s)) (hf : eff = f) (h : P (f (grantTo (blockPort a) m s))) :
    Answers c s P :=
  ⟨_, hc.trans (congrArg _ (hostWrite_reaches hr)), hf ▸ h⟩
theorem answers_read {c : Instr} {P : State → Prop} {a : Nat} {eff : State → Nat × State} (hr : Reaches s m a)
    (hc : exec c s = .next (hostRead m a eff s))
    (h : P (emit (eff (grantTo (blockPort a) m s)).2 (.readData m a (w32 (eff (grantTo (blockPort a) m s)).1)))) :
    Answers c s P :=
  ⟨_, hc.trans (congrArg _ (hostRead_reaches (hr.gate false))), h⟩

/-! ### The TLUT (09 R235, R243) -/

/-- A word at the data port is stored in the shadow where the index names an entry; then the index advances. -/
theorem tlutWrite_spec (w : Nat) (s : State) :
    let u := tlutWrite w s
    fget u Reg.ENG_TLUT_CTRL Fld.ENG_TLUT_CTRL_INDEX = (fget s Reg.ENG_TLUT_CTRL Fld.ENG_TLUT_CTRL_INDEX + 1) % 2 ^ 14 ∧
      RegsWithin [Reg.ENG_TLUT_CTRL] s u ∧ u.eng.tlut = s.eng.tlut ∧
      ∀ k, mapGet tlutDefault u.eng.tlutSh k = (if k = tlutKey s ∧ tlutNamed (k % 16384) = true then w % 65536
        else mapGet tlutDefault s.eng.tlutSh k) := by
  unfold tlutWrite
  extract_lets key eng u
  have hregs : u.regs = s.regs := by unfold u; split <;> rfl
  have hcom : u.eng.tlut = s.eng.tlut := by unfold u; split <;> rfl
  refine ⟨indexNext_index _ _ hregs, indexNext_regs _ _ hregs, hcom, fun k => ?_⟩
  change mapGet tlutDefault u.eng.tlutSh k = _
  unfold u
  split
  · next hnamed => exact (mapGet_mapSet ..).trans (if_congr ⟨fun h => ⟨h, h ▸ hnamed⟩, And.left⟩ rfl rfl)
  · next hnamed => exact (if_neg fun ⟨h, hk⟩ => hnamed (show tlutNamed (tlutKey s % 16384) = true from h ▸ hk)).symm

/-- A write that commits a set copies its 16,384 keys. -/
theorem tlutCtrlWrite_commit {w : Word} {set : Nat} (s : State) (hcommit : bitOf 31 w.toNat = true)
    (hset : bitsOf 16 14 w.toNat = set) :
    let u := tlutCtrlWrite w s
    u.eng.tlutSh = s.eng.tlutSh ∧ RegsWithin [Reg.ENG_TLUT_CTRL] s u ∧
      ∀ k, mapGet tlutDefault u.eng.tlut k =
        mapGet tlutDefault (if k / 16384 = set then s.eng.tlutSh else s.eng.tlut) k := by
  have hfield : fget (plainWrite Reg.ENG_TLUT_CTRL w s) Reg.ENG_TLUT_CTRL Fld.ENG_TLUT_CTRL_SET = set :=
    (fget_plainWrite w s [Fld.ENG_TLUT_CTRL_COMMIT] [Fld.ENG_TLUT_CTRL_INDEX]).trans hset
  unfold tlutCtrlWrite
  rw [if_pos hcommit, hfield]
  refine ⟨rfl, (plainWrite_regs _ _ s).same rfl, fun k => (mapGet_copyRange _ (by omega) ..).trans ?_⟩
  exact congrArg (mapGet tlutDefault · k) (if_congr (by omega) rfl rfl)

/-! ### The LUTs of the heads (10 R259, R267) -/

theorem lutWrite_spec (w : Nat) (s : State) :
    let u := lutWrite w s
    fget u Reg.COMP_LUT_CTRL Fld.COMP_LUT_CTRL_INDEX = (fget s Reg.COMP_LUT_CTRL Fld.COMP_LUT_CTRL_INDEX + 1) % 2 ^ 14 ∧
      RegsWithin [Reg.COMP_LUT_CTRL] s u ∧ u.comp.lutCom = s.comp.lutCom ∧
      ∀ k, mapGet lutDefault u.comp.lutSh k = (if k = lutCur s ∧ lutNamed s = true then
        w % (if lutTable s = 8 then 4096 else 65536) else mapGet lutDefault s.comp.lutSh k) := by
  unfold lutWrite
  extract_lets v comp u
  have hv : v = w % (if lutTable s = 8 then 4096 else 65536) := by unfold v; split <;> rfl
  have hregs : u.regs = s.regs := by unfold u; split <;> rfl
  have hcom : u.comp.lutCom = s.comp.lutCom := by unfold u; split <;> rfl
  refine ⟨indexNext_index _ _ hregs, indexNext_regs _ _ hregs, hcom, fun k => ?_⟩
  rw [← hv]
  change mapGet lutDefault u.comp.lutSh k = _
  unfold u
  split
  · next hnamed => exact (mapGet_mapSet ..).trans (if_congr (and_iff_left hnamed).symm rfl rfl)
  · next hnamed => exact (if_neg fun h => hnamed h.2).symm

/-- A write that commits a table of a head copies its 16,384 keys, where there is such a table. -/
theorem lutCtrlWrite_commit {w : Word} {head table : Nat} (s : State) (hcommit : bitOf 31 w.toNat = true)
    (hhead : bitsOf 29 24 w.toNat = head) (htable : bitsOf 19 16 w.toNat = table) :
    let u := lutCtrlWrite w s
    u.comp.lutSh = s.comp.lutSh ∧ RegsWithin [Reg.COMP_LUT_CTRL] s u ∧
      ∀ k, mapGet lutDefault u.comp.lutCom k = mapGet lutDefault
        (if table < 9 ∧ lutKey head table 0 ≤ k ∧ k < lutKey head table 0 + 16384 then s.comp.lutSh
          else s.comp.lutCom) k := by
  have hregs := plainWrite_regs Reg.COMP_LUT_CTRL w s
  have hheadField : fget (plainWrite Reg.COMP_LUT_CTRL w s) Reg.COMP_LUT_CTRL Fld.COMP_LUT_CTRL_HEAD = head :=
    (fget_plainWrite w s [Fld.COMP_LUT_CTRL_COMMIT] [Fld.COMP_LUT_CTRL_TABLE, Fld.COMP_LUT_CTRL_INDEX]).trans hhead
  have htableField : lutTable (plainWrite Reg.COMP_LUT_CTRL w s) = table :=
    (fget_plainWrite w s [Fld.COMP_LUT_CTRL_COMMIT, Fld.COMP_LUT_CTRL_HEAD] [Fld.COMP_LUT_CTRL_INDEX]).trans htable
  unfold lutCtrlWrite
  dsimp only
  rw [hcommit, hheadField, htableField, Bool.true_and]
  by_cases h9 : table < 9
  · rw [decide_eq_true h9, if_pos rfl]
    refine ⟨rfl, hregs.same rfl, fun k => (mapGet_copyRange _ (by omega) ..).trans ?_⟩
    exact congrArg (mapGet lutDefault · k) (if_congr (and_iff_right h9).symm rfl rfl)
  · rw [decide_eq_false h9, if_neg (by decide)]
    refine ⟨rfl, hregs, fun k => ?_⟩
    rw [if_neg fun h => h9 h.1]
    rfl

/-! ### The coefficients of the scalers (11 R294) -/

theorem coefWrite_spec (w : Nat) (s : State) :
    let u := coefWrite w s
    coefIdx u = (coefIdx s + 1) % 2 ^ 10 ∧ RegsWithin [Reg.COMP_SCL_CTRL] s u ∧ u.comp.coefCom = s.comp.coefCom ∧
      ∀ k, mapGet coefDefault u.comp.coefSh k = (if k = coefKey s + coefIdx s ∧ coefIdx s < 896 ∧ coefBank s ≤ 64
        then w % 2048 else mapGet coefDefault s.comp.coefSh k) := by
  unfold coefWrite
  extract_lets comp u
  have hregs : u.regs = s.regs := by unfold u; split <;> rfl
  have hcom : u.comp.coefCom = s.comp.coefCom := by unfold u; split <;> rfl
  refine ⟨indexNext_index _ _ hregs, indexNext_regs _ _ hregs, hcom, fun k => ?_⟩
  change mapGet coefDefault u.comp.coefSh k = _
  unfold u
  split
  · next hnamed => exact (mapGet_mapSet ..).trans (if_congr (and_iff_left hnamed).symm rfl rfl)
  · next hnamed => exact (if_neg fun h => hnamed h.2).symm

/-- The bank of a head that is not in use. -/
abbrev BankUnused (g : Img) (bank : Nat) : Prop := bank < 64 ∧ headUsed g bank = false

section CoefCommit
variable {w : Word} {bank set : Nat} (s : State) (hcommit : bitOf 31 w.toNat = true) (hbank : bitsOf 30 24 w.toNat = bank)
include hcommit hbank

theorem coefCtrlWrite_refused (h : BankUnused s.img bank) :
    coefCtrlWrite m w s = refuse m 2 (ridReg Reg.COMP_SCL_CTRL) Reg.COMP_SCL_CTRL s := by
  obtain ⟨hlt, hunused⟩ := h
  simp only [coefCtrlWrite, hcommit, hbank, decide_eq_true hlt, hunused]
  rfl

/-- A write that commits a bank and is not refused copies the 1,024 keys of its set, where there is such a bank. -/
theorem coefCtrlWrite_commit (hset : bitsOf 18 16 w.toNat = set) (h : ¬ BankUnused s.img bank) :
    let u := coefCtrlWrite m w s
    let k0 := (8 * bank + set) * 1024
    u.comp.coefSh = s.comp.coefSh ∧ RegsWithin [Reg.COMP_SCL_CTRL] s u ∧
      ∀ k, mapGet coefDefault u.comp.coefCom k = mapGet coefDefault
        (if bank ≤ 64 ∧ k0 ≤ k ∧ k < k0 + 1024 then s.comp.coefSh else s.comp.coefCom) k := by
  have hused : ¬ (decide (bank < 64) && !headUsed s.img bank) = true := by
    rw [Bool.and_eq_true, decide_eq_true_eq, Bool.not_eq_true']
    exact h
  have hregs := plainWrite_regs Reg.COMP_SCL_CTRL w s
  have hbankField : coefBank (plainWrite Reg.COMP_SCL_CTRL w s) = bank :=
    (fget_plainWrite w s [Fld.COMP_SCL_CTRL_COMMIT] [Fld.COMP_SCL_CTRL_SET, Fld.COMP_SCL_CTRL_INDEX]).trans hbank
  have hsetField : fget (plainWrite Reg.COMP_SCL_CTRL w s) Reg.COMP_SCL_CTRL Fld.COMP_SCL_CTRL_SET = set :=
    (fget_plainWrite w s [Fld.COMP_SCL_CTRL_COMMIT, Fld.COMP_SCL_CTRL_BANK] [Fld.COMP_SCL_CTRL_INDEX]).trans hset
  have hkey : coefKey (plainWrite Reg.COMP_SCL_CTRL w s) = (8 * bank + set) * 1024 := by
    rw [coefKey, hbankField, hsetField]
  unfold coefCtrlWrite
  dsimp only
  rw [hcommit, hbank, Bool.true_and, Bool.true_and, if_neg hused, hkey]
  by_cases h64 : bank ≤ 64
  · rw [decide_eq_true h64, if_pos rfl]
    refine ⟨rfl, hregs.same rfl, fun k => (mapGet_copyRange _ (by omega) ..).trans ?_⟩
    exact congrArg (mapGet coefDefault · k) (if_congr (and_iff_right h64).symm rfl rfl)
  · rw [decide_eq_false h64, if_neg (by decide)]
    refine ⟨rfl, hregs, fun k => ?_⟩
    rw [if_neg fun h => h64 h.1]
    rfl

theorem coefCtrlWrite_spec (hset : bitsOf 18 16 w.toNat = set) :
    let u := coefCtrlWrite m w s
    u.comp.coefSh = s.comp.coefSh ∧
      let k0 := (8 * bank + set) * 1024
      if BankUnused s.img bank then u.comp = s.comp ∧ RefusedFor s u 2 ∧ RegsReported [] s u
      else RegsWithin [Reg.COMP_SCL_CTRL] s u ∧ ∀ k, mapGet coefDefault u.comp.coefCom k = mapGet coefDefault
        (if bank ≤ 64 ∧ k0 ≤ k ∧ k < k0 + 1024 then s.comp.coefSh else s.comp.coefCom) k := by
  by_cases h : BankUnused s.img bank
  · have hrefused := coefCtrlWrite_refused (m := m) s hcommit hbank h
    have hcomp : (coefCtrlWrite m w s).comp = s.comp := by
      rw [hrefused]
      exact (refuse_within ..).part .comp (by decide)
    refine ⟨congrArg CompSt.coefSh hcomp, ?_⟩
    rw [if_pos h]
    refine ⟨hcomp, ?_⟩
    rw [hrefused]
    exact ⟨refuse_refusedFor (by decide) _ _ _ s, (refuse_regs (OnlyRegs.refl _ s)).mono fun _ => .inl⟩
  · obtain ⟨hshadow, hcommitted⟩ := coefCtrlWrite_commit (m := m) s hcommit hbank hset h
    refine ⟨hshadow, ?_⟩
    rw [if_neg h]
    exact hcommitted

end CoefCommit

/-! ### O50 -/

/-- Which of a block's writes the registers of its tables take. -/
theorem engWrite_tlutCtrl (w : Word) : engWrite m Reg.ENG_TLUT_CTRL w = tlutCtrlWrite w := rfl
theorem engWrite_tlutData (w : Word) : engWrite m Reg.ENG_TLUT_DATA w = tlutWrite w.toNat := rfl
theorem compWrite_lutCtrl (w : Word) : compWrite m Reg.COMP_LUT_CTRL w = lutCtrlWrite w := rfl
theorem compWrite_lutData (w : Word) : compWrite m Reg.COMP_LUT_DATA w = lutWrite w.toNat := rfl
theorem compWrite_sclCtrl (w : Word) : compWrite m Reg.COMP_SCL_CTRL w = coefCtrlWrite m w := rfl
theorem compWrite_sclData (w : Word) : compWrite m Reg.COMP_SCL_DATA w = coefWrite w.toNat := rfl

/-- Settles O50: behind the gate each access is its table's write, read or commit; a word written by `tlutWrite_spec`,
`lutWrite_spec` and `coefWrite_spec`, a commit by `tlutCtrlWrite_commit`, `lutCtrlWrite_commit`, `coefCtrlWrite_commit`,
and of the bank of an unused head by `refuse_refusedFor`. -/
theorem tablePorts : Obligations.TablePorts := by
  unfold Obligations.TablePorts
  refine ⟨fun m s hr => ⟨fun w => answers_write hr rfl (engWrite_tlutData w) (tlutWrite_spec w.toNat (grantTo _ m s)),
      answers_read hr rfl ?tlutRead⟩,
    fun m set index s hr => answers_write hr rfl (engWrite_tlutCtrl _)
      (tlutCtrlWrite_commit (grantTo _ m s) ?tlutCommit ?tlutSet),
    fun m s hr => ⟨fun w => answers_write hr rfl (compWrite_lutData w) (lutWrite_spec w.toNat (grantTo _ m s)),
      answers_read hr rfl ?lutRead⟩,
    fun m head table index s hr => answers_write hr rfl (compWrite_lutCtrl _)
      (lutCtrlWrite_commit (grantTo _ m s) ?lutCommit ?lutHead ?lutTable),
    fun m s hr => ⟨fun w => answers_write hr rfl (compWrite_sclData w) (coefWrite_spec w.toNat (grantTo _ m s)),
      answers_read hr rfl ?coefRead⟩,
    fun m bank set index s hr => answers_write hr rfl (compWrite_sclCtrl _)
      (coefCtrlWrite_spec (grantTo _ m s) ?coefCommit ?coefBank ?coefSet)⟩
  case tlutRead =>
    refine ⟨emit_eng .., fun hnamed => (emit_out _ _ rfl).trans ?_,
      (fget_congr (emit_regs ..) _ _).trans (indexNext_index _ _ rfl)⟩
    exact congrArg (fun v => s.out ++ [.readData m Reg.ENG_TLUT_DATA (w32 v)]) (if_pos hnamed)
  case lutRead =>
    refine ⟨emit_comp .., fun hnamed => (emit_out _ _ rfl).trans ?_,
      (fget_congr (emit_regs ..) _ _).trans (indexNext_index _ _ rfl)⟩
    exact congrArg (fun v => s.out ++ [.readData m Reg.COMP_LUT_DATA (w32 v)]) (if_pos hnamed)
  case coefRead =>
    refine ⟨emit_comp .., (fget_congr (emit_regs ..) _ _).trans (indexNext_index _ _ rfl), fun hidx hbank =>
      (emit_out _ _ rfl).trans ?_⟩
    exact congrArg (fun v => s.out ++ [.readData m Reg.COMP_SCL_DATA (w32 v)]) (if_pos (And.intro hidx hbank))
  case tlutCommit => rw [w32_toNat (by omega), bitOf, beq_iff_eq]; omega
  case tlutSet => rw [w32_toNat (by omega), bitsOf]; omega
  case lutCommit => rw [w32_toNat (by omega), bitOf, beq_iff_eq]; omega
  case lutHead => rw [w32_toNat (by omega), bitsOf]; omega
  case lutTable => rw [w32_toNat (by omega), bitsOf]; omega
  case coefCommit => rw [w32_toNat (by omega), bitOf, beq_iff_eq]; omega
  case coefBank => rw [w32_toNat (by omega), bitsOf]; omega
  case coefSet => rw [w32_toNat (by omega), bitsOf]; omega

end Sys2Proof.Proofs.TablePorts
end

section
/-! PROOF. What the blocks' work in queues, frame stores and surfaces leaves alone of the engines: no register of the ENG
block is written (08 R204-R219; 10 R270-R275; 20 R493). -/

set_option Elab.async false

namespace Sys2Proof.Proofs.EngineRegs

open Sys2Proof.Machine Sys2Proof.Laws

variable {s t u : State}

/-! ### Registers outside the ENG block -/

/-- No register of the ENG block. -/
abbrev NotEng (a : Nat) : Prop := a < 0x01800000 ∨ 0x01C00000 ≤ a
/-- From s to t no register of the ENG block has been written. -/
abbrev EngKept (s t : State) : Prop := OnlyRegs NotEng s t

theorem notEng_of_alarm {a : Nat} (h : Alarm a) : NotEng a := by
  rw [alarm_iff] at h
  unfold NotEng
  omega

namespace EngKept

theorem alarm (h : EngKept s t) (k : OnlyRegs Alarm t u) : EngKept s u := h.trans (k.mono fun _ => notEng_of_alarm)
/-- A frame that does not name the registers. -/
theorem within {w : List Area} (hw : Within w t u) (h : EngKept s t) (hr : Area.regs ∉ w := by decide) : EngKept s u :=
  h.same (hw.part .regs hr)
theorem raise {n : Nat} {l : List Nat} (h : EngKept s t) (hn : n < 1536 := by decide) : EngKept s (raise n l t) :=
  alarm h (raise_regs hn (OnlyRegs.refl _ t))
theorem logEvent {e : Nat} {l : List Nat} (h : EngKept s t) : EngKept s (logEvent e l t) :=
  alarm h (logEvent_regs (OnlyRegs.refl _ t))
theorem test (h : EngKept s t) (v : Test) : EngKept s { t with test := v } := h.same rfl
theorem foldlSnd {α β : Type} {g : β × State → α → β × State} {l : List α} {r : β × State} (h : EngKept s r.2)
    (hg : ∀ v x, EngKept s v.2 → EngKept s (g v x).2) : EngKept s (l.foldl g r).2 := by
  induction l generalizing r with
  | nil => exact h
  | cons x l ih => exact ih (hg r x h)
theorem iteSnd {β : Type} {c : Prop} [Decidable c] {a b : β × State} (ha : EngKept s a.2) (hb : EngKept s b.2) :
    EngKept s (if c then a else b).2 := by split <;> assumption

/-! ### The checkers (08 R216-R219; 20 R493) -/

theorem refreshInj (h : EngKept s t) : EngKept s (refreshInj t) := by
  have hstat : NotEng Reg.TEST_STAT := by decide
  unfold Machine.refreshInj
  split <;> exact (h.fset hstat).fset hstat
theorem injEnd {c : Nat} (h : EngKept s t) : EngKept s (injEnd c t) := by
  unfold Machine.injEnd
  split
  · exact h
  · exact logEvent (refreshInj (h.test _))
theorem observe {cls idx : Nat} (h : EngKept s t) : EngKept s (observe cls idx t).2 := by
  unfold Machine.observe
  split
  · exact h
  · next j _ =>
    have hseen (v : Test) : EngKept s (Machine.count (Machine.refreshInj { t with test := v }) Reg.TEST_INJ_DONE) :=
      (refreshInj (h.test v)).count (by decide)
    exact iteSnd (OnlyRegs.ite (injEnd (hseen _)) (hseen _)) h

/-- A queue's group is one of the 1,024 (08 R200). -/
theorem qGroupGo_lt {g : Img} {q n k c : Nat} (h : qGroupGo g q n k = some c) : c < k + n := by
  induction n generalizing k with
  | zero => cases h
  | succ n ih =>
    unfold qGroupGo at h
    split at h
    · cases h; omega
    · have := ih h; omega
theorem qGroup_lt {g : Img} {q c : Nat} (h : qGroup g q = some c) : c < 1024 := by
  unfold qGroup at h
  split at h
  · have := qGroupGo_lt h; omega
  · cases h

theorem eccCorr {q : Option Nat} (h : EngKept s t) : EngKept s (eccCorr q t) := by
  have hcorr : EngKept s (Machine.count t Reg.QM_ECC_CORR) := h.count (by decide)
  unfold Machine.eccCorr
  refine raise ?_
  split
  · next g hg =>
    obtain ⟨q', -, hgroup⟩ := Option.bind_eq_some_iff.1 hg
    exact hcorr.count (.inl (by have := qGroup_lt hgroup; simp only [Reg.QM_GRP_CORR]; omega))
  · exact hcorr
theorem eccUncorr {stack off : Nat} {sram : Bool} {q : Option Nat} (h : EngKept s t) :
    EngKept s (eccUncorr stack off sram q t) :=
  raise (((h.count (a := Reg.QM_ECC_UNCORR) (by decide)).rsetN (a := Reg.QM_ECC_LAST_LO) (by decide)).rsetN
    (a := Reg.QM_ECC_LAST_HI) (by decide))
theorem wideCheck {cls idx stack off errs : Nat} {sram : Bool} {q : Option Nat} (h : EngKept s t) :
    EngKept s (wideCheck cls idx stack off errs sram q t).2 := by
  refine foldlSnd h fun r i hr => ?_
  have hc : EngKept s (Machine.observe cls idx r.2).2 := observe hr
  exact iteSnd hc (iteSnd (eccCorr hc) (eccUncorr hc))
theorem hbmRead {w : Nat × Nat} {n errs : Nat} {q : Option Nat} (h : EngKept s t) : EngKept s (hbmRead w n errs q t).2 := by
  unfold Machine.hbmRead
  exact iteSnd (wideCheck h) (foldlSnd h fun r i hr => wideCheck hr)

/-! ### Descriptors of queues and frame stores (08 R204, R219) -/

theorem freezeQ {q : Nat} (h : EngKept s t) : EngKept s (freezeQ q t) :=
  alarm (h.same rfl) (condBegin_regs (by decide) (OnlyRegs.refl _ _))
theorem touchQ {q : Nat} (h : EngKept s t) : EngKept s (touchQ q t) := by
  unfold Machine.touchQ
  extract_lets hot hit src u r
  have hu : EngKept s u := OnlyRegs.ite h (h.same rfl)
  have hr : EngKept s r.2 :=
    iteSnd (wideCheck (cycleBegin_regs hu)) (wideCheck ((cycleBegin_regs hu).count (a := Reg.QM_DCACHE_MISS) (by decide)))
  exact cycleEnd_regs (OnlyRegs.ite (freezeQ hr) hr)
theorem storeOp {n : Nat} (h : EngKept s t) : EngKept s (storeOp n t).2 := touchQ h
theorem touchBlock {q : Nat} (h : EngKept s t) : EngKept s (touchBlock q t) := OnlyRegs.ite (touchQ h) h

/-! ### The tasks of a head read and write (10 R270-R275) -/

theorem surfFail {l n : Nat} (h : EngKept s t) : EngKept s (surfFail l n t) := by
  have hstat : NotEng (Reg.COMP_L_STAT l) := .inr (by simp only [Reg.COMP_L_STAT]; omega)
  have hcount : NotEng (Reg.COMP_L_SURF_ERR l) := .inr (by simp only [Reg.COMP_L_SURF_ERR]; omega)
  unfold Machine.surfFail
  exact OnlyRegs.ite h (OnlyRegs.foldl ((h.countN hcount).fset hstat) fun v _ hv => raise hv)
theorem surfRead {ws : List Nat} {errs k : Nat} (h : EngKept s t) : EngKept s (surfRead ws errs k t).2 := by
  unfold Machine.surfRead
  exact foldlSnd h fun r e hr => iteSnd hr (wideCheck hr)
theorem gessoDone {hd tl l errs k : Nat} (h : EngKept s t) : EngKept s (gessoDone hd tl l errs k t) := by
  unfold Machine.gessoDone
  split
  · exact h
  · exact surfFail (within (setHead_within ..) (surfRead (touchBlock h)))
theorem layerRead {hd tl errs k : Nat} {i : LayerIn} (h : EngKept s t) : EngKept s (layerRead hd tl errs k i t) := by
  unfold Machine.layerRead
  extract_lets z p o px c m rows c' v
  have hc : EngKept s c.2 := hbmRead (storeOp h).spend
  exact OnlyRegs.ite (OnlyRegs.ite (within (frameLost_within ..) hc) hc)
    (OnlyRegs.ite (surfFail (within (setHead_within ..) (surfRead h))) (touchBlock h))
theorem scaleDone {hd tl l errs k : Nat} (h : EngKept s t) : EngKept s (scaleDone hd tl l errs k t) := by
  unfold Machine.scaleDone
  split
  · exact h
  · exact within (setHead_within ..) (layerRead h)
theorem composeDone {hd tl errs k : Nat} (h : EngKept s t) : EngKept s (composeDone hd tl errs k t) :=
  within (setHead_within ..) (OnlyRegs.foldl h fun v e hv => layerRead hv)

/-! ### A task of a slot reads (08 R214, R218, R219) -/

theorem slotRead {k : Task} {errs : Nat} (h : EngKept s t) : EngKept s (slotRead k errs t) := by
  unfold Machine.slotRead
  extract_lets q st u c w v
  have hc : EngKept s c.2 := wideCheck (touchQ h).spend
  have hv : EngKept s v := OnlyRegs.ite (within (putQ_within ..) hc) hc
  exact OnlyRegs.ite h (OnlyRegs.ite (within (onFrame_within ..) hv) hv)

end EngKept

end Sys2Proof.Proofs.EngineRegs
end

section
/-! PROOF. Pushing, taking and completing engine tasks (09 R245-R247, R251). -/

set_option Elab.async false

namespace Sys2Proof.Proofs.EngineTasks

open Sys2Proof.Machine Sys2Proof.Laws
open Sys2Proof.Proofs.EngineRegs (EngKept NotEng)

variable {s t u : State}

/-! ### What a push changes (R245) -/

/-- The registers of quadrants and clusters. -/
abbrev PushReg (a : Nat) : Prop := 0x01800000 ≤ a ∧ a < 0x01802000

theorem pushReg_clusterStat {c : Nat} (h : c < 64) : PushReg (Reg.ENG_CLU_STAT c) := by
  simp only [PushReg, Reg.ENG_CLU_STAT]; omega
theorem pushReg_inflight {q : Nat} (h : q < 4) : PushReg (Reg.ENG_QUAD_INFLIGHT q) := by
  simp only [PushReg, Reg.ENG_QUAD_INFLIGHT]; omega
theorem pushReg_held {q : Nat} (h : q < 4) : PushReg (Reg.ENG_QUAD_HELD q) := by
  simp only [PushReg, Reg.ENG_QUAD_HELD]; omega

/-- Every task of a list has one of the 64 clusters as its home. -/
abbrev Homed (g : Img) (ts : List Task) : Prop := ∀ x ∈ ts, taskHome g x < 64

/-- Of the engines' state a push changes the deques. -/
theorem pushGo_eng (q : Nat) (ts kept : List Task) (s : State) :
    ∃ d, (pushGo q ts kept s).2.eng = { s.eng with deques := d } := by
  fun_induction pushGo q ts kept s with
  | case1 => exact ⟨_, rfl⟩
  | case2 t rest kept s _ ih => exact ih
  | case3 t rest kept s c _ _ ih => exact ih
  | case4 t rest kept s c _ _ _ ih => exact ih
  | case5 t rest kept s c _ _ _ ih =>
    rwa [show (if t.held then s else count s (Reg.ENG_QUAD_HELD q)).eng = s.eng by split <;> rfl] at ih

/-- Of the engines' state the pushes of a quadrant change the deques and the tasks that wait. -/
theorem pushAll_eng (q : Nat) (s : State) : ∃ d w, (pushAll q s).eng = { s.eng with deques := d, waiting := w } := by
  obtain ⟨d, hd⟩ := pushGo_eng q (cget [] s.eng.waiting q) [] s
  exact ⟨d, cset [] (pushGo q (cget [] s.eng.waiting q) [] s).2.eng.waiting q (pushGo q (cget [] s.eng.waiting q) [] s).1,
    by simp only [pushAll, hd]⟩
theorem issue_eng (q : Nat) (ts : List Task) (s : State) :
    ∃ d w, (issue q ts s).eng = { s.eng with deques := d, waiting := w } := pushAll_eng q _

theorem pushGo_regs {q : Nat} {ts kept : List Task} (hq : q < 4) (h : Homed s.img ts) :
    OnlyRegs PushReg s (pushGo q ts kept s).2 := by
  fun_induction pushGo q ts kept s with
  | case1 => exact .refl _ _
  | case2 t rest kept s _ ih => exact ih (List.forall_mem_of_forall_mem_cons h)
  | case3 t rest kept s c _ _ ih =>
    exact (OnlyRegs.fset (.same (.refl _ s) rfl) (pushReg_clusterStat (h t (.head _)))).trans
      (ih (List.forall_mem_of_forall_mem_cons h))
  | case4 t rest kept s c _ _ _ ih =>
    exact (OnlyRegs.fset (.fset (.same (.refl _ s) rfl) (pushReg_clusterStat (h t (.head _)))) (pushReg_inflight hq)).trans
      (ih (List.forall_mem_of_forall_mem_cons h))
  | case5 t rest kept s c _ _ _ ih =>
    have hi : (if t.held then s else count s (Reg.ENG_QUAD_HELD q)).img = s.img := by split <;> rfl
    exact ((OnlyRegs.refl _ s).ite ((OnlyRegs.refl _ s).count (pushReg_held hq))).trans
      (ih (hi ▸ List.forall_mem_of_forall_mem_cons h))

/-- The tasks held back are among those given, but for HELD. -/
theorem pushGo_homed {g : Img} {q : Nat} {ts kept : List Task} (h : Homed g ts) (hk : Homed g kept) :
    Homed g (pushGo q ts kept s).1 := by
  fun_induction pushGo q ts kept s with
  | case1 => exact hk
  | case2 t rest kept s _ ih =>
    obtain ⟨ht, hr⟩ := List.forall_mem_cons.1 h
    exact ih hr (List.forall_mem_append.2 ⟨hk, List.forall_mem_singleton.2 ht⟩)
  | case3 t rest kept s c _ _ ih => exact ih (List.forall_mem_cons.1 h).2 hk
  | case4 t rest kept s c _ _ _ ih => exact ih (List.forall_mem_cons.1 h).2 hk
  | case5 t rest kept s c _ _ _ ih =>
    obtain ⟨ht, hr⟩ := List.forall_mem_cons.1 h
    exact ih hr (List.forall_mem_append.2 ⟨hk, List.forall_mem_singleton.2 ht⟩)

theorem pushAll_img (q : Nat) (s : State) : (pushAll q s).img = s.img := (pushAll_within q s).part .img (by decide)

theorem pushAll_regs {q : Nat} (hq : q < 4) (h : Homed s.img (cget [] s.eng.waiting q)) :
    OnlyRegs PushReg s (pushAll q s) := (pushGo_regs hq h).same rfl

/-- What the pushes of a quadrant hold back waits there. -/
theorem pushAll_waiting (q : Nat) (s : State) :
    cget [] (pushAll q s).eng.waiting q = (pushGo q (cget [] s.eng.waiting q) [] s).1 := by
  simp only [pushAll, cget_cset, if_true]

theorem pushAll_homed {q : Nat} (h : Homed s.img (cget [] s.eng.waiting q)) :
    Homed (pushAll q s).img (cget [] (pushAll q s).eng.waiting q) := by
  rw [pushAll_waiting, pushAll_img]
  exact pushGo_homed h (List.forall_mem_nil _)

/-! ### One push (R245, R251) -/

theorem dequeOf_setDeque (c j : Nat) (l : List Task) (s : State) :
    dequeOf (setDeque c l s) j = if j = c then l else dequeOf s j := cget_cset _ _ _ _ _
theorem inflight_setInflight (q n : Nat) (s : State) : inflight (setInflight q n s) q = n % 2 ^ 13 :=
  fget_fset_same _ _ _ _ (by decide) (by decide)
theorem inflight_setDeque {q : Nat} (hq : q < 4) (c : Nat) (l : List Task) (s : State) :
    inflight (setDeque c l s) q = inflight s q :=
  fget_fset_ne { s with eng := { s.eng with deques := cset [] s.eng.deques c l } } _ _ _
    (by simp only [Reg.ENG_QUAD_INFLIGHT, Reg.ENG_CLU_STAT]; omega)

/-- A single task that waits is pushed where its deque has room and, where it is new, its quadrant too. -/
theorem pushGo_singleton (q : Nat) (k : Task) (s : State) : pushGo q [k] [] s =
    if k.again ∧ (dequeOf s (taskHome s.img k)).length < 256 then
      ([], setDeque (taskHome s.img k) ({ k with held := false } :: dequeOf s (taskHome s.img k)) s)
    else if !k.again ∧ (dequeOf s (taskHome s.img k)).length < 256 ∧ inflight s q < 4096 then
      ([], setInflight q (inflight s q + 1)
        (setDeque (taskHome s.img k) (dequeOf s (taskHome s.img k) ++ [{ k with held := false }]) s))
    else ([{ k with held := true }], if k.held then s else count s (Reg.ENG_QUAD_HELD q)) := by
  simp only [pushGo, List.any_nil, Bool.false_eq_true, if_false, List.nil_append]

/-- TASK_PUSH of a quadrant where one task waits. -/
theorem taskPush_singleton (q : Fin 4) (k : Task) (s : State) (hw : cget [] s.eng.waiting q = [k]) :
    let c := taskHome s.img k
    Answers (.taskPush q) s (fun t =>
      if (dequeOf s c).length < 256 ∧ (k.again = true ∨ inflight s q < 4096) then
        dequeOf t c =
          (if k.again then { k with held := false } :: dequeOf s c else dequeOf s c ++ [{ k with held := false }]) ∧
        cget [] t.eng.waiting q = [] ∧ inflight t q = (if k.again then inflight s q else inflight s q + 1) ∧
        RegsWithin [Reg.ENG_CLU_STAT c, Reg.ENG_QUAD_INFLIGHT q] s t
      else t.eng.deques = s.eng.deques ∧ cget [] t.eng.waiting q = [{ k with held := true }] ∧
        rgetN t (Reg.ENG_QUAD_HELD q) =
          (if k.held then rgetN s (Reg.ENG_QUAD_HELD q) else min 0xFFFFFFFF (rgetN s (Reg.ENG_QUAD_HELD q) + 1))) := by
  intro c
  refine ⟨_, rfl, ?_⟩
  have hstat (l : List Task) : RegsWithin [Reg.ENG_CLU_STAT c, Reg.ENG_QUAD_INFLIGHT q] s (setDeque c l s) :=
    OnlyRegs.fset (.same (.refl _ s) rfl) (by simp)
  beta_reduce
  rw [pushAll_waiting, hw]
  simp only [pushAll, hw]
  rw [pushGo_singleton]
  by_cases hcond : (dequeOf s c).length < 256 ∧ (k.again = true ∨ inflight s q < 4096)
  · rw [if_pos hcond]
    obtain ⟨hroom, hq⟩ := hcond
    cases ha : k.again
    case true =>
      simp only [hroom, c, true_and, if_true]
      exact ⟨(dequeOf_setDeque ..).trans (if_pos rfl), inflight_setDeque q.isLt .., (hstat _).same rfl⟩
    case false =>
      simp only [ha, Bool.false_eq_true, false_or] at hq
      simp only [hroom, hq, c, Bool.false_eq_true, Bool.not_false, false_and, and_self, if_true, if_false, true_and]
      exact ⟨(dequeOf_setDeque ..).trans (if_pos rfl), (inflight_setInflight ..).trans (Nat.mod_eq_of_lt (by omega)),
        ((hstat _).fset (by simp)).same rfl⟩
  · have hfull : ¬(!k.again ∧ (dequeOf s c).length < 256 ∧ inflight s q < 4096) :=
      fun ⟨_, hr, hi⟩ => hcond ⟨hr, .inr hi⟩
    rw [if_neg hcond, if_neg (fun h => hcond ⟨h.2, .inl h.1⟩), if_neg hfull]
    cases k.held
    case false => exact ⟨rfl, rfl, rgetN_count_same ..⟩
    case true => exact ⟨rfl, rfl, rfl⟩

/-! ### A task is taken (R246-R248) -/

theorem runningOf_setRunning_some (e : Nat) (k : Task) (s : State) : runningOf (setRunning e (some k) s) e = some k := by
  have hnone : (s.eng.running.filter (fun x => x.1 != e)).find? (fun x => x.1 == e) = none := by simp
  simp only [runningOf, setRunning, fset, rsetN, rset, List.find?_append, hnone]
  simp
theorem engState_setRunning_some (e : Nat) (k : Task) (s : State) : engState (setRunning e (some k) s) e = 1 :=
  (fget_fset_field _ _ Fld.ENG_E_STAT_KERNEL Fld.ENG_E_STAT_STATE _ (by decide) (by decide) (by decide)).trans
    (fget_fset_same _ _ _ _ (by decide) (by decide))
theorem setRunning_regs (e : Nat) (k : Option Task) (s : State) : RegsWithin [Reg.ENG_E_STAT e] s (setRunning e k s) := by
  cases k with
  | some k => exact OnlyRegs.fset (.fset (.same (.refl _ s) rfl) (.head _)) (.head _)
  | none =>
    have hkernel : RegsWithin [Reg.ENG_E_STAT e] s (fset { s with eng := { s.eng with
        running := s.eng.running.filter (fun x => x.1 != e) } } (Reg.ENG_E_STAT e) Fld.ENG_E_STAT_KERNEL 0) :=
      .fset (.same (.refl _ s) rfl) (.head _)
    exact .ite (hkernel.fset (.head _)) hkernel

/-- Nothing waits: the pushes of a quadrant find nothing to do. -/
theorem pushAll_nil {q : Nat} {s : State} (h : cget [] s.eng.waiting q = []) :
    pushAll q s = { s with eng := { s.eng with waiting := cset [] s.eng.waiting q [] } } := by
  simp only [pushAll, h, pushGo]

/-- A grant counts a stolen task at its thief's cluster. -/
def countSteal (e order : Nat) (s : State) : State :=
  if order = 2 then count s (Reg.ENG_CLU_STEAL_IN (engineCluster e))
  else if 3 ≤ order then count s (Reg.ENG_CLU_STEAL_XQ (engineCluster e)) else s
theorem countSteal_within (e order : Nat) (s : State) : Within [.regs] s (countSteal e order s) :=
  .ite (count_within ..) (.ite (count_within ..) (.refl _ _))
theorem countSteal_regs (e order : Nat) (s : State) :
    RegsWithin [Reg.ENG_CLU_STEAL_IN (engineCluster e), Reg.ENG_CLU_STEAL_XQ (engineCluster e)] s (countSteal e order s) :=
  .ite ((OnlyRegs.refl _ s).count (by simp)) (.ite ((OnlyRegs.refl _ s).count (by simp)) (.refl _ _))

/-- Engine e runs a task of deque c, which no longer holds it. -/
def takenBy (e c : Nat) (k : Task) (s : State) : State :=
  let s := setRunning e (some k) (setDeque c ((dequeOf s c).erase k) s)
  { s with eng := { s.eng with aborting := s.eng.aborting.filter (· != e) } }
theorem takenBy_regs (e c : Nat) (k : Task) (s : State) :
    RegsWithin [Reg.ENG_CLU_STAT c, Reg.ENG_E_STAT e] s (takenBy e c k s) := by
  have hdeque : RegsWithin [Reg.ENG_CLU_STAT c, Reg.ENG_E_STAT e] s (setDeque c ((dequeOf s c).erase k) s) :=
    .fset (.same (.refl _ s) rfl) (by simp)
  exact (hdeque.trans ((setRunning_regs e (some k) _).mono (by simp))).same rfl

/-- A grant where no task waits for the home quadrant: its registers are those of the taken and counted task. -/
theorem grantTask_eq {e order c : Nat} {k : Task} (hw : cget [] s.eng.waiting (taskQuad s.img k) = []) :
    grantTask e order c k s = { countSteal e order (takenBy e c k s) with
      eng := { (takenBy e c k s).eng with waiting := cset [] s.eng.waiting (taskQuad s.img k) [] } } := by
  have hwithin := countSteal_within e order (takenBy e c k s)
  have heng : (countSteal e order (takenBy e c k s)).eng = (takenBy e c k s).eng := hwithin.part .eng (by decide)
  have himg : (countSteal e order (takenBy e c k s)).img = s.img := hwithin.part .img (by decide)
  have hnone : cget [] (countSteal e order (takenBy e c k s)).eng.waiting (taskQuad s.img k) = [] := by rw [heng]; exact hw
  have hpush : grantTask e order c k s = pushAll (taskQuad s.img k) (countSteal e order (takenBy e c k s)) :=
    himg ▸ rfl
  rw [hpush, pushAll_nil hnone, heng]
  rfl

/-- What a grant leaves behind, where no task waits for the home quadrant. -/
theorem grantTask_effect {e order c : Nat} {k : Task}
    (hw : cget [] s.eng.waiting (taskQuad s.img k) = []) :
    let t := grantTask e order c k s
    engState t e = 1 ∧ runningOf t e = some k ∧ dequeOf t c = (dequeOf s c).erase k ∧
      (∀ j, j ≠ c → dequeOf t j = dequeOf s j) ∧ t.xp = s.xp ∧ t.comp = s.comp ∧
      (order = 2 → rgetN t (Reg.ENG_CLU_STEAL_IN (engineCluster e)) =
        min 0xFFFFFFFF (rgetN s (Reg.ENG_CLU_STEAL_IN (engineCluster e)) + 1)) ∧
      (3 ≤ order → rgetN t (Reg.ENG_CLU_STEAL_XQ (engineCluster e)) =
        min 0xFFFFFFFF (rgetN s (Reg.ENG_CLU_STEAL_XQ (engineCluster e)) + 1)) := by
  have hwithin := countSteal_within e order (takenBy e c k s)
  have hstat : fget (countSteal e order (takenBy e c k s)) (Reg.ENG_E_STAT e) Fld.ENG_E_STAT_STATE = 1 := by
    rw [(countSteal_regs e order _).field]
    · exact engState_setRunning_some ..
    · simp [Reg.ENG_E_STAT, Reg.ENG_CLU_STEAL_IN, Reg.ENG_CLU_STEAL_XQ, engineCluster]
      omega
  have hin : rgetN (takenBy e c k s) (Reg.ENG_CLU_STEAL_IN (engineCluster e)) =
      rgetN s (Reg.ENG_CLU_STEAL_IN (engineCluster e)) := (takenBy_regs e c k s).num (by
    simp [Reg.ENG_E_STAT, Reg.ENG_CLU_STEAL_IN, Reg.ENG_CLU_STAT, engineCluster]
    omega)
  have hxq : rgetN (takenBy e c k s) (Reg.ENG_CLU_STEAL_XQ (engineCluster e)) =
      rgetN s (Reg.ENG_CLU_STEAL_XQ (engineCluster e)) := (takenBy_regs e c k s).num (by
    simp [Reg.ENG_E_STAT, Reg.ENG_CLU_STEAL_XQ, Reg.ENG_CLU_STAT, engineCluster]
    omega)
  intro t
  have ht : t = _ := grantTask_eq hw
  rw [ht]
  refine ⟨hstat, runningOf_setRunning_some .., ?_, fun j hj => ?_, hwithin.part .xp (by decide),
    hwithin.part .comp (by decide), fun ho => ?_, fun ho => ?_⟩
  · exact (dequeOf_setDeque c c ((dequeOf s c).erase k) s).trans (if_pos rfl)
  · exact (dequeOf_setDeque c j ((dequeOf s c).erase k) s).trans (if_neg hj)
  · rw [← hin, ← rgetN_count_same, countSteal, if_pos ho]; rfl
  · rw [← hxq, ← rgetN_count_same, countSteal, if_neg (by omega), if_pos ho]; rfl

/-- One engine asks, and no quadrant is stopped: it is granted what it finds. -/
theorem takeTasks_singleton {e : Nat} {since : Nat → Nat} (hidle : engState s e = 0)
    (hq : fget s Reg.TEST_PERT_ENG Fld.TEST_PERT_ENG_QMASK = 0) {order c : Nat} {k : Task}
    (hf : findTask s since e = some (order, c, k)) : ∃ al, takeTasks [e] since s =
      grantTask e order c k { s with eng := { s.eng with aborting := al } } := by
  have hfree (q : Nat) : engDenied s q = false := by simp [engDenied, hq, bitOf]
  refine ⟨s.eng.aborting.filter (fun x => !(x ∈ [e])), ?_⟩
  simp [takeTasks, hidle, hf, hfree, hq]
/-- One engine asks and finds nothing. -/
theorem takeTasks_none {e : Nat} {since : Nat → Nat} (hidle : engState s e = 0) (hf : findTask s since e = none) :
    (takeTasks [e] since s).regs = s.regs ∧ (takeTasks [e] since s).eng.deques = s.eng.deques ∧
      (takeTasks [e] since s).eng.running = s.eng.running := by
  have hasks : [e].filterMap (fun e => (findTask s since e).map (fun r => (e, r))) = [] := by simp [hf]
  simp only [takeTasks, List.filter_cons, hidle, beq_self_eq_true, if_true, List.filter_nil, hasks, List.foldl_nil]
  split <;> exact ⟨rfl, rfl, rfl⟩

/-! ### A task completes (R245) -/

/-- From s to t the running engines, the cycles of the quadrants and the registers of the single engines stay, and the tasks
that wait for quadrant q keep having homes. -/
structure EngineKept (q : Nat) (s t : State) : Prop where
  img : t.img = s.img
  regs : OnlyRegs (fun a => PushReg a ∨ NotEng a) s t
  running : t.eng.running = s.eng.running
  cycles : t.eng.cycles = s.eng.cycles
  homed : Homed t.img (cget [] t.eng.waiting q)

namespace EngineKept

variable {q : Nat}

theorem refl (h : Homed s.img (cget [] s.eng.waiting q)) : EngineKept q s s := ⟨rfl, .refl _ s, rfl, rfl, h⟩

/-- A step that changes of the engines' state the slots alone, and no register of the ENG block. -/
theorem step {v : List (Nat × SlotSt)} (h : EngineKept q s t) (hi : u.img = t.img) (hr : EngKept t u)
    (he : u.eng = { t.eng with slots := v }) : EngineKept q s u := by
  refine ⟨hi.trans h.img, h.regs.trans (hr.mono fun _ => .inr), ?_, ?_, ?_⟩
  · rw [he]; exact h.running
  · rw [he]; exact h.cycles
  · rw [he, hi]; exact h.homed
/-- A step that leaves the engines' state alone, and no register of the ENG block. -/
theorem within {w : List Area} (h : EngineKept q s t) (hw : Within w t u) (hr : EngKept t u)
    (hn : Area.eng ∉ w ∧ Area.img ∉ w := by decide) : EngineKept q s u :=
  h.step (hw.part .img hn.2) hr (hw.part .eng hn.1)
theorem setSlot {n : Nat} {v : SlotSt} (h : EngineKept q s t) : EngineKept q s (setSlot n v t) :=
  h.step rfl (.same (.refl _ t) rfl) rfl
theorem setHead {n : Nat} {v : HeadSt} (h : EngineKept q s t) : EngineKept q s (setHead n v t) :=
  h.within (setHead_within ..) (.same (.refl _ t) rfl)

theorem pushAll (hq : q < 4) (h : EngineKept q s t) : EngineKept q s (pushAll q t) := by
  obtain ⟨d, w, he⟩ := pushAll_eng q t
  refine ⟨(pushAll_img q t).trans h.img, h.regs.trans ((pushAll_regs hq h.homed).mono fun _ => .inl), ?_, ?_,
    pushAll_homed h.homed⟩
  · rw [he]; exact h.running
  · rw [he]; exact h.cycles
theorem issue {ts : List Task} (hq : q < 4) (h : EngineKept q s t) (hts : Homed s.img ts) :
    EngineKept q s (issue q ts t) := by
  refine pushAll hq ⟨h.img, h.regs.same rfl, h.running, h.cycles, ?_⟩
  rw [cget_cset, if_pos rfl]
  exact List.forall_mem_append.2 ⟨h.homed, h.img ▸ hts⟩

theorem ite {c : Prop} [Decidable c] {x y : State} (hx : EngineKept q s x) (hy : EngineKept q s y) :
    EngineKept q s (if c then x else y) := by split <;> assumption

/-- A task of a slot reads (08 R214, R218, R219). -/
theorem slotRead {k : Task} {errs : Nat} (h : EngineKept q s t) : EngineKept q s (slotRead k errs t) := by
  unfold Machine.slotRead
  extract_lets n st u c w v
  have hu : EngineKept q s u := h.within (touchQ_within ..) (EngKept.touchQ (.refl _ t))
  have hc : EngineKept q s c.2 :=
    (hu.within (spend_within u) (.spend (.refl _ u))).within (hbmCheck_within ..) (EngKept.wideCheck (.refl _ _))
  have hv : EngineKept q s v := ite (hc.within (putQ_within ..) (EngKept.within (putQ_within ..) (.refl _ _))) hc
  exact ite h (ite hv.setSlot hv)

/-- The last kernel of a band, or the one before another (09 R245). -/
theorem slotTaskDone {k : Task} (hq : q < 4) (h : EngineKept q s t) (hk : k.head = false) (hkq : taskQuad s.img k = q)
    (hhome : taskHome s.img k < 64) : EngineKept q s (slotTaskDone k t) := by
  have hnext {i : Nat} {f : SlotFrame} {k' : Task} (h' : slotTask t.img k.obj k.unit i f = some k') :
      taskHome s.img k' = taskHome s.img k := by
    simp only [slotTask, Option.map_eq_some_iff] at h'
    obtain ⟨_, -, rfl⟩ := h'
    simp [taskHome, hk]
  unfold Machine.slotTaskDone
  dsimp only
  split
  · exact h
  · refine ite h ?_
    split
    · next k' hk' =>
      have hquad : taskQuad t.img k' = q := by rw [← hkq, taskQuad, taskQuad, h.img, hnext hk']
      rw [hquad]
      exact h.issue hq (List.forall_mem_singleton.2 (hnext hk' ▸ hhome))
    · exact ite h h.setSlot

/-- A task of a head, and the COMPOSE task that the last one of its tile lets issue (10 R270). -/
theorem headTaskDone {k : Task} {errs w : Nat} (hq : q < 4) (h : EngineKept q s t) (hk : k.head = true)
    (hkq : taskQuad s.img k = q) (hhome : taskHome s.img k < 64) : EngineKept q s (headTaskDone k errs w t) := by
  have hhead : taskHome s.img k = headHome s.img k.obj := by simp [taskHome, hk]
  have hlayer (u : State) (hu : EngineKept q s u) (ls : List LayerIn) (n : Nat) (v : HeadSt) : EngineKept q s
      (if n = 1 then Machine.issue (clusterQuad (headHome (Machine.setHead k.obj v u).img k.obj))
        [composeTask (Machine.setHead k.obj v u).img k.obj k.frame k.unit ls] (Machine.setHead k.obj v u)
       else Machine.setHead k.obj v u) := by
    have hv : EngineKept q s (Machine.setHead k.obj v u) := hu.setHead
    have hquad : clusterQuad (headHome (Machine.setHead k.obj v u).img k.obj) = q := by
      rw [hv.img, ← hhead]; exact hkq
    rw [hquad]
    have hcompose (g : Img) : taskHome s.img (composeTask g k.obj k.frame k.unit ls) < 64 := hhead.symm.trans_lt hhome
    exact ite (hv.issue hq (List.forall_mem_singleton.2 (hcompose _))) hv
  unfold Machine.headTaskDone
  refine ite h (ite (h.within (composeDone_within ..) (EngKept.composeDone (.refl _ t))) (hlayer _ (ite ?_ ?_) ..))
  · exact h.within (gessoDone_within ..) (EngKept.gessoDone (.refl _ t))
  · exact h.within (scaleDone_within ..) (EngKept.scaleDone (.refl _ t))

end EngineKept

/-- An engine that ran a task becomes idle. -/
theorem engState_setRunning_none {e : Nat} (h : engState s e = 1) : engState (setRunning e none s) e = 0 := by
  have hk : fget (fset { s with eng := { s.eng with running := s.eng.running.filter (fun x => x.1 != e) } }
      (Reg.ENG_E_STAT e) Fld.ENG_E_STAT_KERNEL 0) (Reg.ENG_E_STAT e) Fld.ENG_E_STAT_STATE = 1 :=
    (fget_fset_field _ _ _ _ _ (by decide) (by decide) (by decide)).trans h
  simp only [setRunning, engState, hk, if_true]
  exact fget_fset_same _ _ _ _ (by decide) (by decide)
theorem setRunning_none_eng (e : Nat) (s : State) :
    (setRunning e none s).eng = { s.eng with running := s.eng.running.filter (fun x => x.1 != e) } := by
  simp only [setRunning]
  split <;> rfl

/-- Engine e has ended its task of quadrant q: freed and counted, before the task's own work. -/
def freed (e q cycles : Nat) (s : State) : State :=
  let t := setInflight q (inflight s q - 1) (count (setRunning e none s) (Reg.ENG_E_TASKS e))
  { t with eng := { t.eng with cycles := cset 0 t.eng.cycles q (cget 0 t.eng.cycles q + cycles) } }

theorem taskComplete_eq {e cycles errs w : Nat} {k : Task} (h : runningOf s e = some k) : taskComplete e cycles errs w s =
    pushAll (taskQuad s.img k) (if k.head then headTaskDone k errs w (freed e (taskQuad s.img k) cycles s)
      else slotTaskDone k (slotRead k errs (freed e (taskQuad s.img k) cycles s))) := by
  unfold taskComplete
  rw [h]
  rfl
theorem freed_img (e q cycles : Nat) (s : State) : (freed e q cycles s).img = s.img :=
  (setRunning_within e none s).part .img (by decide)
theorem freed_eng (e q cycles : Nat) (s : State) : (freed e q cycles s).eng = { s.eng with
    running := s.eng.running.filter (fun x => x.1 != e)
    cycles := cset 0 s.eng.cycles q (cget 0 s.eng.cycles q + cycles) } := by
  have h := setRunning_none_eng e s
  simp only [freed, setInflight, fset, rsetN, rset, count, countN, h]
/-- Once the engine is idle and its task counted, the quadrant's tasks in flight are all that is written. -/
theorem freed_regs (e q cycles : Nat) (s : State) : RegsWithin [Reg.ENG_QUAD_INFLIGHT q]
    (count (setRunning e none s) (Reg.ENG_E_TASKS e)) (freed e q cycles s) :=
  .same (.fset (.refl _ _) (.head _)) rfl
theorem freed_idle {e q cycles : Nat} (h : engState s e = 1) (hq : q < 4) : engState (freed e q cycles s) e = 0 := by
  have hfar : Reg.ENG_E_STAT e ≠ Reg.ENG_QUAD_INFLIGHT q := by simp only [Reg.ENG_E_STAT, Reg.ENG_QUAD_INFLIGHT]; omega
  have hcount : Reg.ENG_E_STAT e ≠ Reg.ENG_E_TASKS e := by simp only [Reg.ENG_E_STAT, Reg.ENG_E_TASKS]; omega
  calc engState (freed e q cycles s) e
    _ = engState (count (setRunning e none s) (Reg.ENG_E_TASKS e)) e :=
        (freed_regs e q cycles s).field (by simpa using hfar) _
    _ = engState (setRunning e none s) e := OnlyRegs.field (P := (· = Reg.ENG_E_TASKS e)) (.count (.refl _ _) rfl) hcount _
    _ = 0 := engState_setRunning_none h
theorem freed_counted {e q cycles : Nat} : rgetN (freed e q cycles s) (Reg.ENG_E_TASKS e) =
    min 0xFFFFFFFF (rgetN s (Reg.ENG_E_TASKS e) + 1) := by
  have hfar : Reg.ENG_E_TASKS e ≠ Reg.ENG_QUAD_INFLIGHT q := by simp only [Reg.ENG_E_TASKS, Reg.ENG_QUAD_INFLIGHT]; omega
  have hstat : Reg.ENG_E_TASKS e ≠ Reg.ENG_E_STAT e := by simp only [Reg.ENG_E_STAT, Reg.ENG_E_TASKS]; omega
  rw [(freed_regs e q cycles s).num (by simpa using hfar), rgetN_count_same,
    (setRunning_regs e none s).num (by simpa using hstat)]

/-- The task's own work, and the pushes that follow it, keep what freeing the engine has left. -/
theorem taskComplete_kept {e cycles errs w : Nat} {k : Task} (h : runningOf s e = some k) (hk : taskHome s.img k < 64)
    (hw : Homed s.img (cget [] s.eng.waiting (taskQuad s.img k))) : EngineKept (taskQuad s.img k)
      (freed e (taskQuad s.img k) cycles s) (taskComplete e cycles errs w s) := by
  have hq : taskQuad s.img k < 4 := by simp only [taskQuad, clusterQuad]; omega
  have himg := freed_img e (taskQuad s.img k) cycles s
  have hstart : EngineKept (taskQuad s.img k) (freed e (taskQuad s.img k) cycles s) (freed e (taskQuad s.img k) cycles s) :=
    .refl (by rw [himg, freed_eng]; exact hw)
  rw [taskComplete_eq h]
  refine .pushAll hq ?_
  cases hhead : k.head
  case true => exact hstart.headTaskDone hq hhead (by rw [himg]) (by rwa [himg])
  case false => exact hstart.slotRead.slotTaskDone hq hhead (by rw [himg]) (by rwa [himg])

/-- Settles O46: by cases on the room for a push, by the one request of a grant, and for a completed task by what its work
and the pushes leave of the engines' state. -/
theorem engineTasks : Obligations.EngineTasks := by
  refine ⟨fun q k s hw _ => taskPush_singleton q k s hw, fun e since0 since1 s hrun hidle => ⟨?_, ?_⟩, ?_⟩
  · intro order c k hf _ hw hmask
    refine ⟨_, congrArg Host.Outcome.next (if_pos hrun), ?_⟩
    obtain ⟨al, ht⟩ := takeTasks_singleton hidle hmask hf
    rw [List.map_singleton, ht]
    exact grantTask_effect (s := { s with eng := { s.eng with aborting := al } }) hw
  · intro hf
    exact ⟨_, congrArg Host.Outcome.next (if_pos hrun), takeTasks_none hidle hf⟩
  · intro e cycles errs word k s hr hone hk _ _ hw
    refine ⟨_, rfl, ?_⟩
    have hq : taskQuad s.img k < 4 := by simp only [taskQuad, clusterQuad]; omega
    obtain ⟨-, hregs, hrunning, hcycles, -⟩ := taskComplete_kept (cycles := cycles) (errs := errs) (w := word) hr hk hw
    have hstat : ¬(PushReg (Reg.ENG_E_STAT e) ∨ NotEng (Reg.ENG_E_STAT e)) := by
      simp only [Reg.ENG_E_STAT, PushReg, NotEng]; omega
    have htasks : ¬(PushReg (Reg.ENG_E_TASKS e) ∨ NotEng (Reg.ENG_E_TASKS e)) := by
      simp only [Reg.ENG_E_TASKS, PushReg, NotEng]; omega
    refine ⟨?_, (hregs.field hstat _).trans (freed_idle hone hq), (hregs.num htasks).trans freed_counted, ?_⟩
    · rw [runningOf, hrunning, freed_eng]
      simp
    · rw [hcycles, freed_eng, cget_cset, if_pos rfl]

end Sys2Proof.Proofs.EngineTasks
end

section
/-! PROOF. Input frame, bands and deadlines of a process slot (09 R243-R245, R249, R250). -/

set_option Elab.async false

namespace Sys2Proof.Proofs.ProcessSlots

open Sys2Proof.Machine Sys2Proof.Laws
open Sys2Proof.Proofs.EngineRegs (EngKept NotEng)
open Sys2Proof.Proofs.EngineTasks (setRunning_regs setRunning_none_eng issue_eng)

variable {s t u : State} {n b : Nat} {old : Bool} {f : SlotFrame}

theorem slotSt_setSlot (n : Nat) (v : SlotSt) (s : State) : slotSt (setSlot n v s) n = v := by
  rw [slotSt, setSlot, cget_cset, if_pos rfl]
theorem slotSt_congr {m : Nat} (h : t.eng.slots = s.eng.slots) : slotSt t m = slotSt s m := by rw [slotSt, h, slotSt]

/-! ### The input frame (R243) -/

/-- What an input frame brings into force, and what becomes of the frame before. -/
theorem slotFrameStart_effect (hu : slotUsed s.img n = true) (hr : running s = true) :
    let t := slotFrameStart n s
    (∃ f, (slotSt t n).cur = some f ∧ f.fc = planeFc s (destPlane s.img (1536 + n)) ∧
      f.ctrl = rgetN s (Reg.ENG_SLOT_CTRL n) ∧ f.issued = [] ∧ f.done = []) ∧
    (slotSt t n).old = (slotSt s n).cur.map (fun c => { c with lines := cget [] s.xp.destLines (1536 + n) }) ∧
    (slotSt t n).lateNow = false ∧
    fbit t (Reg.ENG_SLOT_STAT n) Fld.ENG_SLOT_STAT_LATE_LAST = (slotSt s n).lateNow := by
  unfold slotFrameStart
  rw [if_neg (by simp [hu, hr])]
  extract_lets v d ctrl scl set tl co f r had old w x t
  refine ⟨?_, ?_, ?_, ?_⟩
  · rw [slotSt_setSlot]
    exact ⟨_, rfl, rfl, rfl, rfl, rfl⟩
  · rw [slotSt_setSlot]
  · rw [slotSt_setSlot]
  · exact Proofs.DestLines.fbit_fset_bool r.2 _ _ (by decide) (by decide)

/-! ### A band is issued (R245) -/

theorem frameSel_putFrameSel (old : Bool) (f : SlotFrame) (v : SlotSt) : frameSel old (putFrameSel old f v) = some f := by
  cases old <;> rfl
theorem slotSt_issue {q m : Nat} {ts : List Task} : slotSt (issue q ts s) m = slotSt s m := by
  obtain ⟨d, w, he⟩ := issue_eng q ts s
  exact slotSt_congr (by rw [he])

theorem bandIssue_effect (hu : slotUsed s.img n = true) (hr : running s = true) (hf : frameSel old (slotSt s n) = some f)
    (hb : b < bandCount s.img n) :
    let t := bandIssue n b old s
    if b ∈ f.issued ∨ (old || bandHeld s n b f) = false then t = s
    else ∃ f', frameSel old (slotSt t n) = some f' ∧ f'.issued = f.issued ++ [b] ∧
      (slotTask s.img n b 0 f = none → f'.done = f.done ++ [b]) ∧
      (slotTask s.img n b 0 f ≠ none → f'.done = f.done) := by
  have hguard : (!slotUsed s.img n || !running s || bandCount s.img n ≤ b || b ∈ f.issued ||
      !(old || bandHeld s n b f)) = true ↔ b ∈ f.issued ∨ (old || bandHeld s n b f) = false := by
    simp [hu, hr, Nat.not_le.2 hb]
  simp only [bandIssue, hf, hguard]
  split
  · rfl
  · split
    · next hnone =>
      rw [slotSt_setSlot]
      exact ⟨_, frameSel_putFrameSel .., rfl, fun _ => rfl, fun h => absurd hnone h⟩
    · next k hsome =>
      rw [slotSt_issue, slotSt_setSlot]
      refine ⟨_, frameSel_putFrameSel .., rfl, fun h => ?_, fun _ => rfl⟩
      exact nomatch h.symm.trans hsome

/-! ### Tasks of a band are cancelled at its deadline (R249) -/

/-- The registers of quadrants, clusters and single engines. -/
abbrev EngineReg (a : Nat) : Prop := 0x01800000 ≤ a ∧ a < 0x01808000

/-- From s to t no slot has changed, nor any register but those of quadrants, clusters and single engines. -/
structure SlotsKept (s t : State) : Prop where
  slots : t.eng.slots = s.eng.slots
  regs : OnlyRegs EngineReg s t

namespace SlotsKept

theorem refl (s : State) : SlotsKept s s := ⟨rfl, .refl _ s⟩
theorem upd (h : SlotsKept s t) (hr : u.regs = t.regs) (he : u.eng.slots = t.eng.slots) : SlotsKept s u :=
  ⟨he.trans h.slots, h.regs.same hr⟩
theorem foldl {α : Type} {g : State → α → State} {l : List α} (h : SlotsKept s t)
    (hg : ∀ v, ∀ x ∈ l, SlotsKept s v → SlotsKept s (g v x)) : SlotsKept s (l.foldl g t) :=
  List.foldlRecOn l g h fun v hv x hx => hg v x hx hv
theorem setDeque {c : Nat} {l : List Task} (hc : c < 64) (h : SlotsKept s t) : SlotsKept s (setDeque c l t) := by
  have hreg : EngineReg (Reg.ENG_CLU_STAT c) := by simp only [EngineReg, Reg.ENG_CLU_STAT]; omega
  exact ⟨h.slots, .fset (h.regs.same rfl) hreg⟩
theorem setInflight {q m : Nat} (hq : q < 4) (h : SlotsKept s t) : SlotsKept s (setInflight q m t) := by
  have hreg : EngineReg (Reg.ENG_QUAD_INFLIGHT q) := by simp only [EngineReg, Reg.ENG_QUAD_INFLIGHT]; omega
  exact ⟨h.slots, h.regs.fset hreg⟩
theorem countLate {q m : Nat} (hq : q < 4) (h : SlotsKept s t) : SlotsKept s (countN t (Reg.ENG_QUAD_LATE q) m) := by
  have hreg : EngineReg (Reg.ENG_QUAD_LATE q) := by simp only [EngineReg, Reg.ENG_QUAD_LATE]; omega
  exact ⟨h.slots, h.regs.countN hreg⟩
theorem abortEngine {e : Nat} (he : e < 1024) (h : SlotsKept s t) : SlotsKept s (abortEngine e t) := by
  have hreg : EngineReg (Reg.ENG_E_STAT e) := by simp only [EngineReg, Reg.ENG_E_STAT]; omega
  have hslots : (setRunning e none t).eng.slots = t.eng.slots := by rw [setRunning_none_eng]
  have hregs : OnlyRegs EngineReg t (setRunning e none t) :=
    (setRunning_regs e none t).mono fun a ha => by rwa [List.mem_singleton.1 ha]
  exact upd ⟨hslots.trans h.slots, h.regs.trans hregs⟩ rfl rfl

theorem cancelTasks {q : Nat} {p : Task → Bool} (hq : q < 4) (h : SlotsKept s t) : SlotsKept s (cancelTasks q p t) := by
  unfold Machine.cancelTasks
  extract_lets c v back w run x
  have hv : SlotsKept s v := h.foldl fun v d hd hv => by
    obtain ⟨i, hi, rfl⟩ := List.mem_map.1 hd
    have hc : 16 * q + i < 64 := by have := List.mem_range.1 hi; omega
    dsimp only
    split
    · exact hv
    · exact ((hv.setDeque hc).setInflight hq).countLate hq
  have hw : SlotsKept s w := (hv.setInflight hq).countLate hq
  have hx : SlotsKept s x := hw.foldl fun v y hy hv => by
    obtain ⟨-, hsel⟩ := List.mem_filter.1 hy
    obtain ⟨-, he⟩ := Bool.and_eq_true_iff.1 hsel
    replace he := of_decide_eq_true he
    exact ((hv.abortEngine he).setInflight hq).countLate hq
  clear_value x
  exact hx.upd rfl rfl

end SlotsKept

/-! ### A band's deadline (R249, R250) -/

/-- The band's tasks are cancelled and none is issued any more, and its queue is touched. -/
def closeBand (n b : Nat) (f : SlotFrame) (s : State) : State :=
  let t := cancelTasks (clusterQuad (slotHome s.img n))
    (fun k => !k.head && k.obj == n && k.frame == f.fc && k.unit == b) s
  touchBlock (slotOutQ t.img n)
    (setSlot n { slotSt s n with old := some { f with issued := b :: f.issued.filter (· != b) } } t)

theorem closeBand_within (n b : Nat) (f : SlotFrame) (s : State) :
    Within [.regs, .core, .pat, .test, .q, .eng] s (closeBand n b f s) :=
  (((cancelTasks_within ..).mono (w := [.regs, .core, .pat, .test, .q, .eng]) rfl).then (setSlot_within ..) rfl).then
    (touchBlock_within ..) rfl
theorem closeBand_slot (n b : Nat) (f : SlotFrame) (s : State) : slotSt (closeBand n b f s) n =
    { slotSt s n with old := some { f with issued := b :: f.issued.filter (· != b) } } :=
  (slotSt_congr (congrArg _ ((touchBlock_within ..).part .eng (by decide)))).trans (slotSt_setSlot ..)
theorem closeBand_late (b : Nat) (f : SlotFrame) {s : State} (hn : n < 256) (hh : slotHome s.img n < 64) :
    rgetN (closeBand n b f s) (Reg.ENG_SLOT_LATE n) = rgetN s (Reg.ENG_SLOT_LATE n) := by
  have hq : clusterQuad (slotHome s.img n) < 4 := by rw [clusterQuad]; omega
  have heng : ¬ EngineReg (Reg.ENG_SLOT_LATE n) := by simp only [EngineReg, Reg.ENG_SLOT_LATE]; omega
  have hslot : ¬ NotEng (Reg.ENG_SLOT_LATE n) := by simp only [NotEng, Reg.ENG_SLOT_LATE]; omega
  unfold closeBand
  extract_lets t
  have ht : SlotsKept s t := (SlotsKept.refl s).cancelTasks hq
  clear_value t
  have htouch (i : Nat) (v : SlotSt) : EngKept t (touchBlock i (setSlot n v t)) := EngKept.touchBlock (.same (.refl _ t) rfl)
  exact ((htouch _ _).num hslot).trans (ht.regs.num heng)

/-- The words of a band's timing lines stand in the source's picture. -/
def putLines (x : Nat) (ls : List Nat) (w : Nat → List Nat) (s : State) : State :=
  { s with xp := { s.xp with
      made := cset [] s.xp.made x (ls.foldl (fun m L => cset [] m L (w L)) (cget [] s.xp.made x)) } }

/-- Lines written one after another hold what was written for each. -/
theorem cget_foldl_cset {ls : List Nat} {w : Nat → List Nat} {L : Nat} (m : List (Nat × List Nat))
    (h : L ∈ ls ∨ cget [] m L = w L) : cget [] (ls.foldl (fun m L => cset [] m L (w L)) m) L = w L := by
  induction ls generalizing m with
  | nil => exact h.resolve_left (List.not_mem_nil)
  | cons K ls ih =>
    refine ih _ ?_
    rw [cget_cset]
    rcases h with h | h
    · rcases List.mem_cons.1 h with rfl | h
      · exact .inr (if_pos rfl)
      · exact .inl h
    · right
      split
      · next e => rw [e]
      · exact h
theorem putLines_made {x L : Nat} {ls : List Nat} (w : Nat → List Nat) (s : State) (h : L ∈ ls) :
    cget [] (cget [] (putLines x ls w s).xp.made x) L = w L := by
  rw [putLines, cget_cset, if_pos rfl]
  exact cget_foldl_cset _ (.inl h)

/-- A late band is counted. -/
def countLateBand (n : Nat) (raised : Bool) (s : State) : State :=
  let t := count s (Reg.ENG_SLOT_LATE n)
  let t := setSlot n { slotSt t n with lateNow := true } t
  if raised then t else raise Src.engSlotLate [n] t

theorem countLateBand_within (n : Nat) (raised : Bool) (s : State) :
    Within [.regs, .core, .pat, .eng] s (countLateBand n raised s) := by
  have h (v : SlotSt) : Within [.regs, .core, .pat, .eng] s (setSlot n v (count s (Reg.ENG_SLOT_LATE n))) :=
    ((count_within ..).mono rfl).then (setSlot_within ..) rfl
  exact .ite (h _) ((h _).then (raise_within ..) rfl)
theorem countLateBand_slot (n : Nat) (raised : Bool) (s : State) :
    slotSt (countLateBand n raised s) n = { slotSt s n with lateNow := true } := by
  unfold countLateBand
  extract_lets t u
  split
  · exact slotSt_setSlot ..
  · exact (slotSt_congr (congrArg _ ((raise_within ..).part .eng (by decide)))).trans (slotSt_setSlot ..)
theorem countLateBand_count {raised : Bool} {s : State} (hn : n < 256) :
    rgetN (countLateBand n raised s) (Reg.ENG_SLOT_LATE n) = min 0xFFFFFFFF (rgetN s (Reg.ENG_SLOT_LATE n) + 1) := by
  have hslot : ¬ NotEng (Reg.ENG_SLOT_LATE n) := by simp only [NotEng, Reg.ENG_SLOT_LATE]; omega
  have hkept : EngKept (count s (Reg.ENG_SLOT_LATE n)) (countLateBand n raised s) := by
    have h (v : SlotSt) : EngKept (count s (Reg.ENG_SLOT_LATE n)) (setSlot n v (count s (Reg.ENG_SLOT_LATE n))) :=
      .same (.refl _ _) rfl
    exact .ite (h _) (EngKept.raise (h _))
  rw [hkept.num hslot, rgetN_count_same]

/-- A finished band is presented; another is counted late, and replaced by black where no frame was out before. -/
def presentBand (n b : Nat) (f : SlotFrame) (v : SlotSt) (s : State) : State :=
  let black := blackWords (srcFmt s.img (1664 + n)) (slotSamp s.img n f)
  let put (w : Nat → List Nat) : State := putLines (1664 + n) (bandLines s.img n b) w s
  if b ∈ f.done then put (fun L => if f.row = 1 ∨ f.row = 4 then black else slotLine s.img n f L)
  else countLateBand n v.lateNow (if v.hadOut then s else put (fun _ => black))

theorem bandDeadline_eq (hu : slotUsed s.img n = true) (hr : running s = true) (hf : (slotSt s n).old = some f)
    (hb : b < bandCount s.img n) : bandDeadline n b s = presentBand n b f (slotSt s n) (closeBand n b f s) := by
  unfold bandDeadline
  dsimp only
  rw [hf]
  dsimp only
  rw [if_neg (by simp [hu, hr, hb])]
  simp only [presentBand, countLateBand, putLines, closeBand]

/-- What is presented of a band that is closed. -/
theorem presentBand_effect (hn : n < 256) {v : SlotSt} {f' : SlotFrame} (hs : slotSt s n = { v with old := some f' }) :
    let t := presentBand n b f v s
    (slotSt t n).old = some f' ∧
      if b ∈ f.done then rgetN t (Reg.ENG_SLOT_LATE n) = rgetN s (Reg.ENG_SLOT_LATE n) ∧
        ∀ L ∈ bandLines s.img n b, cget [] (cget [] t.xp.made (1664 + n)) L =
          (if f.row = 1 ∨ f.row = 4 then blackWords (srcFmt s.img (1664 + n)) (slotSamp s.img n f)
            else slotLine s.img n f L)
      else rgetN t (Reg.ENG_SLOT_LATE n) = min 0xFFFFFFFF (rgetN s (Reg.ENG_SLOT_LATE n) + 1) ∧
        (slotSt t n).lateNow = true ∧
        (v.hadOut = true → t.xp.made = s.xp.made) ∧
        (v.hadOut = false → ∀ L ∈ bandLines s.img n b,
          cget [] (cget [] t.xp.made (1664 + n)) L = blackWords (srcFmt s.img (1664 + n)) (slotSamp s.img n f)) := by
  unfold presentBand
  extract_lets black put t
  by_cases hdone : b ∈ f.done
  · rw [if_pos hdone, show t = put _ from if_pos hdone]
    exact ⟨congrArg SlotSt.old hs, rfl, fun L hL => putLines_made _ s hL⟩
  · rw [if_neg hdone, show t = countLateBand n v.lateNow (if v.hadOut then s else put (fun _ => black)) from if_neg hdone]
    have hxp (u : State) : (countLateBand n v.lateNow u).xp = u.xp := (countLateBand_within ..).part .xp (by decide)
    rw [countLateBand_slot, countLateBand_count hn, hxp]
    cases v.hadOut
    case true => exact ⟨congrArg SlotSt.old hs, rfl, rfl, fun _ => rfl, nofun⟩
    case false => exact ⟨congrArg SlotSt.old hs, rfl, rfl, nofun, fun _ L hL => putLines_made _ s hL⟩

/-- Settles O47: the start of an input frame sets the slot's frames, an issue reads back the frame it puts, and a deadline
closes the band, which touches no slot's count, and then presents it or counts it late. -/
theorem processSlots : Obligations.ProcessSlots := by
  refine fun n s hu hr hh => ⟨⟨_, rfl, slotFrameStart_effect hu hr⟩,
    fun b old f hf hb => ⟨_, rfl, bandIssue_effect hu hr hf hb⟩, fun b f hf hb => ⟨_, rfl, ?_⟩⟩
  have hwithin := closeBand_within n b f s
  obtain ⟨hold, hpresent⟩ := presentBand_effect (b := b) (f := f) n.isLt (closeBand_slot n b f s)
  rw [hwithin.part .img (by decide), hwithin.part .xp (by decide), closeBand_late b f n.isLt hh] at hpresent
  beta_reduce
  rw [bandDeadline_eq hu hr hf hb]
  exact ⟨⟨_, hold, .head _⟩, hpresent⟩

end Sys2Proof.Proofs.ProcessSlots
end

section
/-! PROOF. The registers that the use of a descriptor may write (08 R204, R216-R219; 20 R493): those of the checkers, and
the reports. The set is exact, so that it is disjoint from any block's own registers. -/

set_option Elab.async false

namespace Sys2Proof.Proofs.CheckerRegs

open Sys2Proof.Machine Sys2Proof.Laws
open Sys2Proof.Proofs.EngineRegs.EngKept (qGroup_lt)

variable {P : Nat → Prop} {s t u : State}

theorem onlyRegs_iteSnd {β : Type} {c : Prop} [Decidable c] {x y : β × State} (hx : OnlyRegs P s x.2)
    (hy : OnlyRegs P s y.2) : OnlyRegs P s (if c then x else y).2 := by split <;> assumption
theorem onlyRegs_foldlSnd {α β : Type} {g : β × State → α → β × State} {l : List α} {r : β × State} (h : OnlyRegs P s r.2)
    (hg : ∀ v x, OnlyRegs P s v.2 → OnlyRegs P s (g v x).2) : OnlyRegs P s (l.foldl g r).2 :=
  List.foldlRecOn l g (motive := fun v => OnlyRegs P s v.2) h fun v hv x _ => hg v x hv

/-- The registers of the QM block, those that show an injection, and the reports. -/
abbrev CheckReg (a : Nat) : Prop :=
  Alarm a ∨ (0x01400000 ≤ a ∧ a < 0x01800000) ∨ a = Reg.TEST_STAT ∨ a = Reg.TEST_INJ_DONE
/-- From s to t no other register has been written. -/
abbrev OnlyChecks (s t : State) : Prop := OnlyRegs CheckReg s t

theorem onlyChecks_alarm (h : OnlyChecks s t) (k : OnlyRegs Alarm t u) : OnlyChecks s u :=
  h.trans (k.mono fun _ => .inl)
theorem onlyChecks_refreshInj (h : OnlyChecks s t) : OnlyChecks s (refreshInj t) := by
  have hstat : CheckReg Reg.TEST_STAT := .inr (.inr (.inl rfl))
  unfold refreshInj
  split
  · exact (h.fset hstat).fset hstat
  · exact (h.fset hstat).fset hstat
theorem onlyChecks_injEnd {c : Nat} (h : OnlyChecks s t) : OnlyChecks s (injEnd c t) := by
  unfold injEnd
  split
  · exact h
  · have hended (v : Test) : OnlyChecks s (refreshInj { t with test := v }) := onlyChecks_refreshInj (h.same rfl)
    exact onlyChecks_alarm (hended _) (logEvent_regs (.refl _ _))
theorem onlyChecks_observe {cls idx : Nat} (h : OnlyChecks s t) : OnlyChecks s (observe cls idx t).2 := by
  have hdone : CheckReg Reg.TEST_INJ_DONE := .inr (.inr (.inr rfl))
  unfold observe
  split
  · exact h
  · have hseen (v : Test) : OnlyChecks s (count (refreshInj { t with test := v }) Reg.TEST_INJ_DONE) :=
      OnlyRegs.count (onlyChecks_refreshInj (h.same rfl)) hdone
    exact onlyRegs_iteSnd (.ite (onlyChecks_injEnd (hseen _)) (hseen _)) h
theorem onlyChecks_eccCorr {q : Option Nat} (h : OnlyChecks s t) : OnlyChecks s (eccCorr q t) := by
  have hcorr : OnlyChecks s (count t Reg.QM_ECC_CORR) := h.count (.inr (.inl (by decide)))
  unfold eccCorr
  refine onlyChecks_alarm ?_ (raise_regs (by decide) (.refl _ _))
  split
  · next g hg =>
    obtain ⟨q', -, hgroup⟩ := Option.bind_eq_some_iff.1 hg
    have hlt := qGroup_lt hgroup
    exact hcorr.count (.inr (.inl (by simp only [Reg.QM_GRP_CORR]; omega)))
  · exact hcorr
theorem onlyChecks_eccUncorr {stack off : Nat} {sram : Bool} {q : Option Nat} (h : OnlyChecks s t) :
    OnlyChecks s (eccUncorr stack off sram q t) := by
  have hqm {a : Nat} (ha : 0x01400000 ≤ a ∧ a < 0x01800000) : CheckReg a := .inr (.inl ha)
  exact onlyChecks_alarm (((h.count (a := Reg.QM_ECC_UNCORR) (hqm (by decide))).rsetN (a := Reg.QM_ECC_LAST_LO)
    (hqm (by decide))).rsetN (a := Reg.QM_ECC_LAST_HI) (hqm (by decide))) (raise_regs (by decide) (.refl _ _))
theorem onlyChecks_wideCheck {cls idx stack off errs : Nat} {sram : Bool} {q : Option Nat} (h : OnlyChecks s t) :
    OnlyChecks s (wideCheck cls idx stack off errs sram q t).2 := by
  refine onlyRegs_foldlSnd h fun r i hr => ?_
  have hseen : OnlyChecks s (observe cls idx r.2).2 := onlyChecks_observe hr
  exact onlyRegs_iteSnd hseen (onlyRegs_iteSnd (onlyChecks_eccCorr hseen) (onlyChecks_eccUncorr hseen))
theorem onlyChecks_touchQ {q : Nat} (h : OnlyChecks s t) : OnlyChecks s (touchQ q t) := by
  unfold touchQ
  extract_lets hot hit src u r
  have hu : OnlyChecks s u := .ite h (h.same rfl)
  have hr : OnlyChecks s r.2 := onlyRegs_iteSnd (onlyChecks_wideCheck (cycleBegin_regs hu))
    (onlyChecks_wideCheck ((cycleBegin_regs hu).count (a := Reg.QM_DCACHE_MISS) (.inr (.inl (by decide)))))
  exact cycleEnd_regs (.ite (onlyChecks_alarm (hr.same rfl) (condBegin_regs (by decide) (.refl _ _))) hr)
/-- A frame store's own operation uses its descriptor. -/
theorem storeOp_regs (n : Nat) (s : State) : OnlyChecks s (storeOp n s).2 := onlyChecks_touchQ (.refl _ s)

end Sys2Proof.Proofs.CheckerRegs
end

section
/-! PROOF. O49, the commit of a descriptor, and the cut-off and the deadline of a head (10 R257-R261, R271). -/

set_option Elab.async false

namespace Sys2Proof.Proofs.Composition

open Sys2Proof.Machine Sys2Proof.Laws
open Sys2Proof.Proofs.CheckerRegs
open Sys2Proof.Proofs.DestLines (fbit_fset_bool)
open Sys2Proof.Proofs.EngineTasks (Homed PushReg pushAll_regs)
open Sys2Proof.Proofs.MacPorts (rget64_kept)
open Sys2Proof.Proofs.PlaneBatch (planeFc_lt)
open Sys2Proof.Proofs.ProcessSlots (EngineReg SlotsKept)
open Sys2Proof.Proofs.QueueTakes (getQ_congr touchQ_clean)
open Sys2Proof.Proofs.RefusalCapture (refuse_refusedFor)
open Sys2Proof.Proofs.TablePorts (mapGet_copyRange)
open Sys2Proof.Proofs.TakeRing (fbit_fset_field fbit_fset_ne)

variable {s t u : State} {h l : Nat}

/-! ### Heads and layers in the state -/

theorem layerSt_setLayer (l j : Nat) (v : LayerSt) (s : State) :
    layerSt (setLayer l v s) j = if j = l then v else layerSt s j := cget_cset ..
theorem headSt_setHead (h : Nat) (v : HeadSt) (s : State) : headSt (setHead h v s) h = v :=
  (cget_cset ..).trans (if_pos rfl)

/-! ### The commit of a descriptor (R260, R261) -/

/-- A write of 1 to the commit register of a layer in use is the commit. -/
theorem compWrite_commit (m : Nat) (hl : l < 1024) (hu : layerUsed s.img l = true) :
    compWrite m (Reg.COMP_L_COMMIT l) 1 s = layerCommit m l s := by
  have hlayer : (Reg.COMP_L_COMMIT l - 0x01C10000) / 0x40 = l := by simp only [Reg.COMP_L_COMMIT]; omega
  have hplace : 0x01C10000 ≤ Reg.COMP_L_COMMIT l ∧ Reg.COMP_L_COMMIT l < 0x01C20000 ∧ Reg.COMP_L_COMMIT l % 0x40 = 0x20 := by
    simp only [Reg.COMP_L_COMMIT]; omega
  have hpresent : compAbsent s.img (Reg.COMP_L_COMMIT l) = none := by
    unfold compAbsent
    dsimp only
    rw [if_neg (by omega), if_pos ⟨hplace.1, hplace.2.1⟩, hlayer, if_pos hu]
  unfold compWrite
  rw [hpresent]
  dsimp only
  rw [if_neg, if_neg, if_neg, if_neg, if_pos hplace, hlayer]
  · rfl
  all_goals
    simp only [Reg.COMP_LUT_CTRL, Reg.COMP_LUT_DATA, Reg.COMP_SCL_CTRL, Reg.COMP_SCL_DATA]
    omega

/-- A commit is refused, with reason 2, or takes all eight words of the shadow. -/
theorem layerCommit_effect (m l : Nat) (s : State) :
    let t := layerCommit m l s
    if descBad s l (shadowWords s l) = true then layerSt t l = layerSt s l ∧ RefusedFor s t 2 ∧ RegsReported [] s t
    else (layerSt t l).committed = shadowWords s l ∧ (layerSt t l).force = (layerSt s l).force ∧
      fbit t (Reg.COMP_L_STAT l) Fld.COMP_L_STAT_PEND = true ∧ RegsWithin [Reg.COMP_L_STAT l] s t := by
  unfold layerCommit
  dsimp only
  split
  · have hcomp : (refuse m 2 (0x12000000 + l) (Reg.COMP_L_COMMIT l) s).comp = s.comp :=
      (refuse_within ..).part .comp (by decide)
    refine ⟨?_, refuse_refusedFor (by decide) _ _ _ s, (refuse_regs (.refl _ s)).mono fun _ => .inl⟩
    rw [layerSt, hcomp, layerSt]
  · have hput (v : LayerSt) : layerSt (lStat l Fld.COMP_L_STAT_PEND true (setLayer l v s)) l = v :=
      (layerSt_setLayer l l v s).trans (if_pos rfl)
    rw [hput]
    exact ⟨rfl, rfl, fbit_fset_bool _ _ _ (by decide) rfl, OnlyRegs.fset (.same (.refl _ s) rfl) (.head _)⟩

/-! ### A layer at its head's cut-off (R258-R260) -/

/-- The registers that the selection of a layer's frame and the decision on its line buffer write, but for its status. -/
abbrev SelectReg (l a : Nat) : Prop :=
  CheckReg a ∨ a ∈ [Reg.COMP_L_LATE l, Reg.COMP_SCL_L_STAT l, Reg.COMP_SCL_L_SHORT l]
/-- Those, and the layer's status. -/
abbrev LayerReg (l a : Nat) : Prop := a = Reg.COMP_L_STAT l ∨ SelectReg l a

theorem not_selectReg_stat {j : Nat} (hl : l < 1024) : ¬ SelectReg j (Reg.COMP_L_STAT l) := by
  simp only [SelectReg, CheckReg, alarm_iff, List.mem_cons, List.not_mem_nil, or_false, Reg.COMP_L_LATE, Reg.COMP_L_STAT,
    Reg.COMP_SCL_L_STAT, Reg.COMP_SCL_L_SHORT, Reg.TEST_STAT, Reg.TEST_INJ_DONE]
  omega

theorem not_layerReg_stat {j : Nat} (hl : l < 1024) (hne : l ≠ j) : ¬ LayerReg j (Reg.COMP_L_STAT l) := by
  refine not_or.2 ⟨?_, not_selectReg_stat hl⟩
  simp only [Reg.COMP_L_STAT]
  omega

/-- From s to t the composition's state has changed in layer l alone, whose descriptor in force and PEND are the same. -/
structure LayerFollows (l : Nat) (s t : State) : Prop where
  regs : OnlyRegs (LayerReg l) s t
  comp : ∃ v, t.comp = { s.comp with layers := v }
  others : ∀ j, j ≠ l → layerSt t j = layerSt s j
  force : (layerSt t l).force = (layerSt s l).force
  pend : fbit t (Reg.COMP_L_STAT l) Fld.COMP_L_STAT_PEND = fbit s (Reg.COMP_L_STAT l) Fld.COMP_L_STAT_PEND

namespace LayerFollows

theorem refl (l : Nat) (s : State) : LayerFollows l s s := ⟨.refl _ s, ⟨_, rfl⟩, fun _ _ => rfl, rfl, rfl⟩
/-- A step that leaves the composition's state, and the status of the layer. -/
theorem select (h : LayerFollows l s t) (hl : l < 1024) (hc : u.comp = t.comp) (hr : OnlyRegs (SelectReg l) t u) :
    LayerFollows l s u := by
  have hlayer (j : Nat) : layerSt u j = layerSt t j := by rw [layerSt, hc, layerSt]
  exact ⟨h.regs.trans (hr.mono fun _ => .inr), hc ▸ h.comp, fun j hj => (hlayer j).trans (h.others j hj),
    (congrArg _ (hlayer l)).trans h.force, (hr.bit (not_selectReg_stat hl) _).trans h.pend⟩
theorem lStat {f : FieldRow} {b : Bool} (h : LayerFollows l s t) (hf : 0 < f.lo ∧ f.lo ≤ f.hi ∧ f.hi < 32 := by decide) :
    LayerFollows l s (lStat l f b t) :=
  ⟨h.regs.fset (.inl rfl), h.comp, h.others, h.force,
    (fbit_fset_field _ _ _ _ _ hf.2.2 (by omega) (.inr hf.1)).trans h.pend⟩
theorem setLayer {v : LayerSt} (h : LayerFollows l s t) (hv : v.force = (layerSt t l).force) :
    LayerFollows l s (setLayer l v t) := by
  obtain ⟨w, hw⟩ := h.comp
  refine ⟨h.regs.same rfl, ⟨_, by rw [Machine.setLayer, hw]⟩, fun j hj => ?_, ?_, h.pend⟩
  · rw [layerSt_setLayer, if_neg hj, h.others j hj]
  · rw [layerSt_setLayer, if_pos rfl, hv, h.force]
theorem raise {n : Nat} {p : List Nat} (h : LayerFollows l s t) (hl : l < 1024) (hn : n < 1536 := by decide) :
    LayerFollows l s (raise n p t) :=
  h.select hl ((raise_within ..).part .comp (by decide)) ((raise_regs hn (.refl _ t)).mono fun _ ha => .inl (.inl ha))
theorem count {a : Nat} (h : LayerFollows l s t) (hl : l < 1024) (ha : SelectReg l a) : LayerFollows l s (count t a) :=
  h.select hl rfl (OnlyRegs.count (.refl _ t) ha)
theorem storeOp {n : Nat} (h : LayerFollows l s t) (hl : l < 1024) : LayerFollows l s (storeOp n t).2 :=
  h.select hl ((storeOp_within ..).part .comp (by decide)) ((storeOp_regs n t).mono fun _ => .inl)

/-- The selection of a layer's frame (R258). -/
theorem layerSelect (h : LayerFollows l s t) (hl : l < 1024) : LayerFollows l s (layerSelect l t) := by
  unfold Machine.layerSelect
  extract_lets o v u
  have ho : LayerFollows l s o.2 := h.storeOp hl
  split
  · have htake : LayerFollows l s (storeTake (1024 + l) o.2) := ho.select hl rfl (.same (.refl _ _) rfl)
    exact (htake.setLayer (v := { v with closed := none, shown := some _ }) rfl).lStat.lStat
  · have hlate : LayerFollows l s (Machine.lStat l Fld.COMP_L_STAT_LATE_LAST true
        (Machine.lStat l Fld.COMP_L_STAT_NOFRAME v.shown.isNone u)) := ho.lStat.lStat
    exact (hlate.count hl (.inr (.head _))).raise hl

end LayerFollows

/-- The decision on a layer's line buffer (11 R289, R290). -/
theorem layerDecide_regs (i : LayerIn) (prev : Nat) (s : State) :
    OnlyRegs (SelectReg i.l) s (layerDecide i prev s).2 := by
  have hstat : SelectReg i.l (Reg.COMP_SCL_L_STAT i.l) := .inr (by simp)
  have hshort : SelectReg i.l (Reg.COMP_SCL_L_SHORT i.l) := .inr (by simp)
  have hraise {n : Nat} {p : List Nat} {t : State} (h : OnlyRegs (SelectReg i.l) s t) (hn : n < 1536 := by decide) :
      OnlyRegs (SelectReg i.l) s (raise n p t) := h.trans ((raise_regs hn (.refl _ t)).mono fun _ ha => .inl (.inl ha))
  unfold layerDecide
  extract_lets g l il inH pass held need row a shown range fallback counted reported
  have hshown : OnlyRegs (SelectReg i.l) s fallback :=
    ((((((OnlyRegs.refl _ s).fset hstat).fset hstat).fset hstat).fset hstat).fset hstat).fset hstat
  have hcounted : OnlyRegs (SelectReg i.l) s counted := .ite (hshown.count hshort) hshown
  have hreported : OnlyRegs (SelectReg i.l) s reported := .ite (hraise hcounted) hcounted
  exact .ite (hraise hreported) hreported

/-- A layer with its committed descriptor in force, where one is pending (R259, R260). -/
def forced (l : Nat) (s : State) : LayerSt :=
  if fbit s (Reg.COMP_L_STAT l) Fld.COMP_L_STAT_PEND then { layerSt s l with force := (layerSt s l).committed }
  else layerSt s l
theorem forced_force (l : Nat) (s : State) : (forced l s).force =
    if fbit s (Reg.COMP_L_STAT l) Fld.COMP_L_STAT_PEND then (layerSt s l).committed else (layerSt s l).force := by
  unfold forced
  split <;> rfl
/-- The descriptor of layer l is brought into force. -/
def descForced (l : Nat) (s : State) : State := lStat l Fld.COMP_L_STAT_PEND false (setLayer l (forced l s) s)

/-- The rest of a layer's cut-off leaves its descriptor alone. -/
theorem layerCut_follows (hl : l < 1024) (s : State) : LayerFollows l (descForced l s) (layerCut l s).2 := by
  unfold layerCut
  extract_lets v0 v cut w chosen fr field i r set last
  have hcut : LayerFollows l (descForced l s) cut := .refl l cut
  have hchosen : LayerFollows l (descForced l s) chosen := by
    simp only [chosen]
    split
    · exact hcut.layerSelect hl
    · exact hcut.lStat
  split
  · exact hchosen.lStat
  · have hr : LayerFollows l (descForced l s) r.2 :=
      hchosen.select hl ((layerDecide_within ..).part .comp (by decide)) (layerDecide_regs i v.row chosen)
    exact (hr.setLayer (v := { layerSt r.2 l with row := r.1 }) rfl).lStat

/-- What a layer's cut-off leaves: of the composition's state it changes this layer, whose descriptor is in force. -/
theorem layerCut_effect (hl : l < 1024) (s : State) :
    let t := (layerCut l s).2
    OnlyRegs (LayerReg l) s t ∧ (∃ v, t.comp = { s.comp with layers := v }) ∧
      (∀ j, j ≠ l → layerSt t j = layerSt s j) ∧ (layerSt t l).force = (forced l s).force ∧
      fbit t (Reg.COMP_L_STAT l) Fld.COMP_L_STAT_PEND = false := by
  obtain ⟨hregs, ⟨v, hcomp⟩, hothers, hforce, hpend⟩ := layerCut_follows hl s
  have hput (j : Nat) : layerSt (descForced l s) j = if j = l then forced l s else layerSt s j := layerSt_setLayer ..
  have hdesc : OnlyRegs (LayerReg l) s (descForced l s) := .fset (.same (.refl _ s) rfl) (.inl rfl)
  refine ⟨hdesc.trans hregs, ⟨v, hcomp⟩, fun j hj => ?_, ?_, hpend.trans (fbit_fset_bool _ _ _ (by decide) rfl)⟩
  · rw [hothers j hj, hput, if_neg hj]
  · rw [hforce, hput, if_pos rfl]

/-! ### The layers of a head at its cut-off -/

/-- The layers ls are brought to the cut-off, one after another. -/
def layersCut (ls : List Nat) (s : State) : State := ls.foldl (fun t l => (layerCut l t).2) s

/-- The registers of layers, the checkers' and the reports. -/
abbrev LayersReg (a : Nat) : Prop := CheckReg a ∨ (0x01C10000 ≤ a ∧ a < 0x01C46000)

theorem layersReg_of_layer (hl : l < 1024) {a : Nat} (h : LayerReg l a) : LayersReg a := by
  have hown {b : Nat} (hb : 0x01C10000 ≤ b ∧ b < 0x01C46000) (ha : a = b) : LayersReg a := .inr (ha ▸ hb)
  rcases h with ha | ha | ha
  · exact hown (by simp only [Reg.COMP_L_STAT]; omega) ha
  · exact .inl ha
  · simp only [List.mem_cons, List.not_mem_nil, or_false] at ha
    rcases ha with ha | ha | ha
    · exact hown (by simp only [Reg.COMP_L_LATE]; omega) ha
    · exact hown (by simp only [Reg.COMP_SCL_L_STAT]; omega) ha
    · exact hown (by simp only [Reg.COMP_SCL_L_SHORT]; omega) ha

theorem layersCut_within (ls : List Nat) (s : State) :
    Within [.regs, .core, .pat, .test, .q, .comp] s (layersCut ls s) :=
  Within.foldl (.refl _ s) fun _ _ hv => hv.then (layerCut_within ..) rfl
theorem layersCut_frame {ls : List Nat} (hls : ∀ l ∈ ls, l < 1024) (s : State) :
    OnlyRegs LayersReg s (layersCut ls s) ∧ ∃ v, (layersCut ls s).comp = { s.comp with layers := v } := by
  induction ls generalizing s with
  | nil => exact ⟨.refl _ s, _, rfl⟩
  | cons l ls ih =>
    obtain ⟨hl, hls⟩ := List.forall_mem_cons.1 hls
    obtain ⟨hregs, ⟨v, hcomp⟩, -⟩ := layerCut_effect hl s
    obtain ⟨hregs', w, hcomp'⟩ := ih hls (layerCut l s).2
    exact ⟨(hregs.mono fun _ => layersReg_of_layer hl).trans hregs', w, hcomp'.trans (by rw [hcomp])⟩

/-- The cut-off of other layers leaves a layer alone. -/
theorem layersCut_other {ls : List Nat} (hls : ∀ j ∈ ls, j < 1024) (hl : l < 1024) (hmem : l ∉ ls) (s : State) :
    layerSt (layersCut ls s) l = layerSt s l ∧
      fbit (layersCut ls s) (Reg.COMP_L_STAT l) Fld.COMP_L_STAT_PEND =
        fbit s (Reg.COMP_L_STAT l) Fld.COMP_L_STAT_PEND := by
  induction ls generalizing s with
  | nil => exact ⟨rfl, rfl⟩
  | cons j ls ih =>
    obtain ⟨hj, hls⟩ := List.forall_mem_cons.1 hls
    obtain ⟨hne, hmem⟩ := not_or.1 (mt List.mem_cons.2 hmem)
    obtain ⟨hregs, -, hothers, -⟩ := layerCut_effect hj s
    obtain ⟨hsame, hpend⟩ := ih hls hmem (layerCut j s).2
    exact ⟨hsame.trans (hothers l hne), hpend.trans (hregs.bit (not_layerReg_stat hl hne) _)⟩

/-- Each layer has its committed descriptor in force, where one was pending, and none pending. -/
theorem layersCut_forced {ls : List Nat} (hls : ∀ j ∈ ls, j < 1024) (hnodup : ls.Nodup) (hmem : l ∈ ls) (s : State) :
    fbit (layersCut ls s) (Reg.COMP_L_STAT l) Fld.COMP_L_STAT_PEND = false ∧
      (layerSt (layersCut ls s) l).force = (forced l s).force := by
  induction ls generalizing s with
  | nil => cases hmem
  | cons j ls ih =>
    obtain ⟨hj, hlt⟩ := List.forall_mem_cons.1 hls
    obtain ⟨hfresh, hnodup⟩ := List.nodup_cons.1 hnodup
    obtain ⟨hregs, -, hothers, hforce, hpend⟩ := layerCut_effect hj s
    rcases List.mem_cons.1 hmem with hlj | hmem
    · subst hlj
      obtain ⟨hsame, hkept⟩ := layersCut_other hlt hj hfresh (layerCut l s).2
      exact ⟨hkept.trans hpend, (congrArg LayerSt.force hsame).trans hforce⟩
    · have hne : l ≠ j := fun e => hfresh (e ▸ hmem)
      have hstat : ¬ LayerReg j (Reg.COMP_L_STAT l) := not_layerReg_stat (hlt l hmem) hne
      obtain ⟨hbrought, hforced⟩ := ih hlt hnodup hmem (layerCut j s).2
      refine ⟨hbrought, hforced.trans ?_⟩
      rw [forced, forced, hregs.bit hstat, hothers l hne]

theorem headLayers_lt (g : Img) (h : Nat) : ∀ l ∈ headLayers g h, l < 1024 :=
  fun _ hl => List.mem_range.1 (List.mem_filter.1 hl).1
theorem headLayers_nodup (g : Img) (h : Nat) : (headLayers g h).Nodup := List.nodup_range.filter _

/-! ### The cut-off of a head (R257, R259, R265) -/

/-- The tasks that a cut-off issues: of each tile those before its COMPOSE, or else its COMPOSE (R270). -/
def headTasks (g : Img) (h k : Nat) (ls : List LayerIn) : List Task :=
  ((List.range (tileCount g h)).map (fun t => (t, tileTasks g h k t ls))).flatMap
    (fun x => if x.2.isEmpty then [composeTask g h k x.1 ls] else x.2)

theorem headTasks_homed {g : Img} (hh : headHome g h < 64) (k : Nat) (ls : List LayerIn) : Homed g (headTasks g h k ls) := by
  intro x hx
  obtain ⟨y, hy, hx⟩ := List.mem_flatMap.1 hx
  obtain ⟨t, -, rfl⟩ := List.mem_map.1 hy
  have hown : taskHome g x = headHome g h := by
    dsimp only at hx
    split at hx
    · rw [List.mem_singleton.1 hx]
      rfl
    · simp only [tileTasks, List.mem_append, List.mem_map] at hx
      rcases hx with ⟨i, -, rfl⟩ | ⟨i, -, rfl⟩
      · rfl
      · rfl
  rwa [hown]

/-- Tasks that have homes are issued: of the registers those of quadrants and clusters are written. -/
theorem issue_regs {q : Nat} {ts : List Task} (hq : q < 4) (hw : Homed s.img (cget [] s.eng.waiting q))
    (hts : Homed s.img ts) : OnlyRegs PushReg s (issue q ts s) := by
  refine OnlyRegs.trans (.same (.refl _ s) rfl) (pushAll_regs hq ?_)
  rw [cget_cset, if_pos rfl]
  exact List.forall_mem_append.2 ⟨hw, hts⟩

/-- The tables in force and the head's frame as a cut-off begins it. -/
def headBegun (h : Nat) (s : State) : State :=
  setHead h { headSt s h with
    k := some (planeFc s (headPlane s.img h)), ctrl := rgetN s (Reg.COMP_H_CTRL h), bg := rgetN s (Reg.COMP_H_BG h)
    tiles := [], left := [], work := [], pool := [], bad := [] } { s with comp := { s.comp with
      lut := copyRange (lutKey h 0 0) (lutKey h 0 0 + 9 * 16384) s.comp.lutCom s.comp.lut
      coef := copyRange (8 * h * 1024) (8 * (h + 1) * 1024) s.comp.coefCom s.comp.coef } }

/-- The colour path and the number of the frame are shown, and the head keeps its path, its layers and its tasks left. -/
def headShown (h k : Nat) (lin : Bool) (ls : List LayerIn) (left : List (Nat × Nat)) (s : State) : State :=
  let s := rset64 (fset s (Reg.COMP_H_STAT h) Fld.COMP_H_STAT_LIN_LAST (b2n lin))
    (Reg.COMP_H_CUT_FC_LO h) (Reg.COMP_H_CUT_FC_HI h) k
  setHead h { headSt s h with lin, layers := ls, left } s

/-- A cut-off begins the head's frame, brings its layers to it, shows it, and issues its tasks. -/
theorem compCutoff_eq (hu : headUsed s.img h = true) (hr : running s = true) : ∃ lin ls left,
    let k := planeFc s (headPlane s.img h)
    let t := headShown h k lin ls left (layersCut (headLayers s.img h) (headBegun h s))
    compCutoff h s = issue (clusterQuad (headHome t.img h)) (headTasks t.img h k ls) t := by
  unfold compCutoff
  rw [if_neg (by simp [hu, hr])]
  extract_lets k lo comp tables ctrl hd begun r ls lin stat cut ts left hd' set
  have hlayers : r.2 = layersCut (headLayers s.img h) (headBegun h s) :=
    (List.foldl_hom Prod.snd fun _ _ => rfl).symm
  refine ⟨lin, ls, left, ?_⟩
  clear_value r
  rw [← hlayers]
  rfl

/-- The number of a frame that is shown reads back. -/
theorem headShown_cut {k : Nat} (hk : k < 2 ^ 48) (lin : Bool) (ls : List LayerIn) (left : List (Nat × Nat)) (s : State) :
    rget64 (headShown h k lin ls left s) (Reg.COMP_H_CUT_FC_LO h) (Reg.COMP_H_CUT_FC_HI h) = k := by
  have hne : Reg.COMP_H_CUT_FC_LO h ≠ Reg.COMP_H_CUT_FC_HI h := by
    simp only [Reg.COMP_H_CUT_FC_LO, Reg.COMP_H_CUT_FC_HI]; omega
  change rget64 (rset64 _ _ _ k) _ _ = k
  rw [rget64, rset64, rgetN_rsetN_ne _ _ hne, rgetN_rsetN_same, rgetN_rsetN_same, lo32, hi32]
  omega
theorem headShown_regs (h k : Nat) (lin : Bool) (ls : List LayerIn) (left : List (Nat × Nat)) (s : State) :
    RegsWithin [Reg.COMP_H_STAT h, Reg.COMP_H_CUT_FC_LO h, Reg.COMP_H_CUT_FC_HI h] s (headShown h k lin ls left s) :=
  OnlyRegs.same (((OnlyRegs.refl _ s).fset (by simp)).rset64 (by simp) (by simp)) rfl

/-- What the cut-off of head h in s has brought into force in t. -/
structure CutoffDone (h : Nat) (s t : State) : Prop where
  frame : (headSt t h).k = some (planeFc s (headPlane s.img h))
  ctrl : (headSt t h).ctrl = rgetN s (Reg.COMP_H_CTRL h)
  shown : rget64 t (Reg.COMP_H_CUT_FC_LO h) (Reg.COMP_H_CUT_FC_HI h) = planeFc s (headPlane s.img h)
  layers : ∀ l ∈ headLayers s.img h, fbit t (Reg.COMP_L_STAT l) Fld.COMP_L_STAT_PEND = false ∧
    (layerSt t l).force = (if fbit s (Reg.COMP_L_STAT l) Fld.COMP_L_STAT_PEND then (layerSt s l).committed
      else (layerSt s l).force)
  lut : ∀ i, i < 9 * 16384 →
    mapGet lutDefault t.comp.lut (lutKey h 0 0 + i) = mapGet lutDefault s.comp.lutCom (lutKey h 0 0 + i)
  coef : ∀ i, i < 8 * 1024 →
    mapGet coefDefault t.comp.coef (8 * h * 1024 + i) = mapGet coefDefault s.comp.coefCom (8 * h * 1024 + i)

/-- Registers of quadrants and clusters have no part in it. -/
theorem CutoffDone.kept (hd : CutoffDone h s t) (hc : u.comp = t.comp) (hr : OnlyRegs PushReg t u) :
    CutoffDone h s u := by
  obtain ⟨hframe, hctrl, hshown, hlayers, hlut, hcoef⟩ := hd
  have hhead : headSt u h = headSt t h := by rw [headSt, hc, headSt]
  have hlayer (l : Nat) : layerSt u l = layerSt t l := by rw [layerSt, hc, layerSt]
  have hstat {l : Nat} (hl : l < 1024) : ¬ PushReg (Reg.COMP_L_STAT l) := by
    simp only [PushReg, Reg.COMP_L_STAT]; omega
  refine ⟨hhead ▸ hframe, hhead ▸ hctrl, (rget64_kept hr ?_ ?_).trans hshown, fun l hl => ?_, hc ▸ hlut, hc ▸ hcoef⟩
  · simp only [PushReg, Reg.COMP_H_CUT_FC_LO]; omega
  · simp only [PushReg, Reg.COMP_H_CUT_FC_HI]; omega
  · rw [hr.bit (hstat (headLayers_lt _ _ l hl)), hlayer]
    exact hlayers l hl

/-- Once the head's frame is begun, its layers are brought to the cut-off and the frame is shown, all is in force. -/
theorem headShown_done (h : Nat) (lin : Bool) (ls : List LayerIn) (left : List (Nat × Nat)) (s : State) :
    CutoffDone h s (headShown h (planeFc s (headPlane s.img h)) lin ls left
      (layersCut (headLayers s.img h) (headBegun h s))) := by
  have hls := headLayers_lt s.img h
  obtain ⟨-, v, hcomp⟩ := layersCut_frame hls (headBegun h s)
  have hlayers {l : Nat} (hl : l ∈ headLayers s.img h) :=
    layersCut_forced hls (headLayers_nodup s.img h) hl (headBegun h s)
  generalize layersCut (headLayers s.img h) (headBegun h s) = c at hcomp hlayers
  have hregs := headShown_regs h (planeFc s (headPlane s.img h)) lin ls left c
  have hhead : headSt (headShown h (planeFc s (headPlane s.img h)) lin ls left c) h =
      { headSt (headBegun h s) h with lin, layers := ls, left } := by
    have hkept : headSt c h = headSt (headBegun h s) h := by rw [headSt, hcomp, headSt]
    rw [← hkept]
    exact headSt_setHead ..
  have hbegun : headSt (headBegun h s) h = { headSt s h with
    k := some (planeFc s (headPlane s.img h)), ctrl := rgetN s (Reg.COMP_H_CTRL h), bg := rgetN s (Reg.COMP_H_BG h)
    tiles := [], left := [], work := [], pool := [], bad := [] } := headSt_setHead ..
  refine ⟨by rw [hhead, hbegun], by rw [hhead, hbegun], headShown_cut (planeFc_lt ..) .., fun l hl => ?_, fun i hi => ?_,
    fun i hi => ?_⟩
  · have hstat : Reg.COMP_L_STAT l ∉ [Reg.COMP_H_STAT h, Reg.COMP_H_CUT_FC_LO h, Reg.COMP_H_CUT_FC_HI h] := by
      simp only [List.mem_cons, List.not_mem_nil, or_false, Reg.COMP_L_STAT, Reg.COMP_H_STAT, Reg.COMP_H_CUT_FC_LO,
        Reg.COMP_H_CUT_FC_HI]
      omega
    obtain ⟨hpend, hforce⟩ := hlayers hl
    exact ⟨(hregs.bit hstat _).trans hpend, hforce.trans (forced_force l (headBegun h s))⟩
  · change mapGet lutDefault c.comp.lut _ = _
    rw [hcomp]
    exact (mapGet_copyRange _ (by omega) _ _ _).trans (by rw [if_pos (by omega)])
  · change mapGet coefDefault c.comp.coef _ = _
    rw [hcomp]
    exact (mapGet_copyRange _ (by omega) _ _ _).trans (by rw [if_pos (by omega)])

theorem compCutoff_done (hu : headUsed s.img h = true) (hr : running s = true)
    (hh : headHome s.img h < 64) (hw : Homed s.img (cget [] s.eng.waiting (clusterQuad (headHome s.img h)))) :
    CutoffDone h s (compCutoff h s) := by
  obtain ⟨lin, ls, left, heq⟩ := compCutoff_eq hu hr
  have hcuts := layersCut_within (headLayers s.img h) (headBegun h s)
  have hdone := headShown_done h lin ls left s
  have hq : clusterQuad (headHome s.img h) < 4 := by rw [clusterQuad]; omega
  dsimp only at heq
  generalize hcut : layersCut (headLayers s.img h) (headBegun h s) = c at heq hcuts hdone
  generalize hshown : headShown h (planeFc s (headPlane s.img h)) lin ls left c = v at heq hdone
  have himg : v.img = s.img := hshown ▸ hcuts.part .img (by decide)
  have heng : v.eng = s.eng := hshown ▸ hcuts.part .eng (by decide)
  rw [heq, himg]
  refine hdone.kept ((issue_within ..).part .comp (by decide)) (issue_regs hq ?_ ?_)
  · rwa [himg, heng]
  · rw [himg]
    exact headTasks_homed hh _ _

/-! ### The deadline of a head (R271) -/

theorem compDeadline_idle (hk : (headSt s h).k = none) : compDeadline h s = s := by
  simp only [compDeadline, hk]

/-- The tiles of head h, in state v, that are not finished. -/
def lateTiles (g : Img) (h : Nat) (v : HeadSt) : List Nat :=
  (List.range (tileCount g h)).filter (fun i => (cget [] v.tiles i).isEmpty)
/-- The head's tiles with the late ones replaced: the first 64 by the frame shown, the others by the background. -/
def tilesFilled (h : Nat) (v : HeadSt) (s : State) : List (Nat × List (List Px)) :=
  (lateTiles s.img h v).zipIdx.foldl (fun m x =>
    let bg := tilePixels s h x.1 (fun _ _ => bgPx v)
    cset [] m x.1 (if x.2 < 64 then (v.shown.map (fun f => cget [] f.2 x.1)).getD bg else bg)) v.tiles
/-- The tasks of frame k of head h are cancelled. -/
def frameCancelled (h k : Nat) (s : State) : State :=
  cancelTasks (clusterQuad (headHome s.img h)) (fun t => t.head && t.obj == h && t.frame == k) s
/-- Late tiles are shown and counted. -/
def lateCounted (h n : Nat) (s : State) : State :=
  fset (countN s (Reg.COMP_H_TILE_LATE h) n) (Reg.COMP_H_STAT h) Fld.COMP_H_STAT_LATE_TILES (min 4095 n)
/-- The head's store takes frame k, where it delivers. -/
def frameClosed (h k : Nat) (v : HeadSt) (tiles : List (Nat × List (List Px))) (s : State) : State :=
  setHead h { v with
    tiles := [], left := [], layers := [], work := [], pool := [], bad := []
    closed := if (storeOp (2048 + h) s).1 then some (k, tiles) else v.closed } (storeOp (2048 + h) s).2

/-- A deadline cancels the frame's tasks, counts its late tiles, closes it, and raises COMP_TILE_LATE where some are late. -/
theorem compDeadline_eq {k : Nat} (hu : headUsed s.img h = true) (hr : running s = true) (hk : (headSt s h).k = some k) :
    let v := headSt s h
    let c := frameCancelled h k s
    let n := (lateTiles c.img h v).length
    let t := frameClosed h k v (tilesFilled h v c) (lateCounted h n c)
    compDeadline h s = if n = 0 then t else raise Src.compTileLate [h] t := by
  unfold compDeadline
  extract_lets w v c n t
  split
  · next hnone => exact nomatch hk.symm.trans hnone
  · next j hj =>
    obtain rfl : k = j := Option.some.inj (hk.symm.trans hj)
    rw [if_neg (by simp [hu, hr])]
    rfl

/-- A key that is not written keeps its value. -/
theorem cget_foldl_cset_absent {α β : Type} [DecidableEq α] (d : α) {l : List β} {key : β → Nat} {val : β → α} {i : Nat}
    (h : ∀ x ∈ l, key x ≠ i) (m : List (Nat × α)) :
    cget d (l.foldl (fun m x => cset d m (key x) (val x)) m) i = cget d m i :=
  List.foldlRecOn l _ (motive := fun n => cget d n i = cget d m i) rfl fun n hn x hx => by
    rw [cget_cset, if_neg (h x hx).symm, hn]
/-- A finished tile stays. -/
theorem tilesFilled_finished {v : HeadSt} {i : Nat} (s : State) (hi : cget [] v.tiles i ≠ []) :
    cget [] (tilesFilled h v s) i = cget [] v.tiles i := by
  refine cget_foldl_cset_absent [] (fun x hx e => hi ?_) v.tiles
  have hlate : x.1 ∈ lateTiles s.img h v := List.fst_mem_of_mem_zipIdx hx
  exact List.isEmpty_iff.1 (e ▸ (List.mem_filter.1 hlate).2)

/-- Without an injection, a frame store delivers unless its descriptor is frozen (08 R204, R219). -/
theorem storeOp_clean (hinj : s.test.inj = none) (h : Nat) :
    (storeOp (2048 + h) s).1 = !(getQ s (0xFF7C0 + h)).frozen := by
  have hplace : 0xFF7C0 + (2048 + h - 2048) = 0xFF7C0 + h := by omega
  unfold storeOp
  rw [if_neg (by omega), if_neg (by omega), hplace]
  exact congrArg (fun v => !Queue.frozen v) (getQ_congr (touchQ_clean hinj _).1 _)

theorem frameClosed_closed {k : Nat} (hinj : s.test.inj = none) (v : HeadSt) (tiles : List (Nat × List (List Px))) :
    (headSt (frameClosed h k v tiles s) h).closed =
      if (getQ s (0xFF7C0 + h)).frozen then v.closed else some (k, tiles) := by
  rw [frameClosed, headSt_setHead, storeOp_clean hinj]
  cases (getQ s (0xFF7C0 + h)).frozen
  case true => rfl
  case false => rfl

/-- The status and the count of late tiles are no registers of the checkers, nor of engines. -/
theorem headReg_apart (hlt : h < 64) {a : Nat} (ha : a = Reg.COMP_H_STAT h ∨ a = Reg.COMP_H_TILE_LATE h) :
    ¬ CheckReg a ∧ ¬ EngineReg a := by
  simp only [CheckReg, alarm_iff, EngineReg, Reg.TEST_STAT, Reg.TEST_INJ_DONE]
  simp only [Reg.COMP_H_STAT, Reg.COMP_H_TILE_LATE] at ha
  omega
theorem lateCounted_stat (h n : Nat) (s : State) :
    fget (lateCounted h n s) (Reg.COMP_H_STAT h) Fld.COMP_H_STAT_LATE_TILES = min 4095 n :=
  (fget_fset_same _ _ _ _ (by decide) (by decide)).trans (Nat.mod_eq_of_lt (by simp only [Fld.COMP_H_STAT_LATE_TILES]; omega))
theorem lateCounted_count (h n : Nat) (s : State) :
    rgetN (lateCounted h n s) (Reg.COMP_H_TILE_LATE h) = min 0xFFFFFFFF (rgetN s (Reg.COMP_H_TILE_LATE h) + n) :=
  (rgetN_fset_ne _ _ _ (by simp only [Reg.COMP_H_TILE_LATE, Reg.COMP_H_STAT]; omega)).trans (rgetN_countN_same ..)

theorem compDeadline_effect {k : Nat} (hlt : h < 64) (hu : headUsed s.img h = true) (hr : running s = true)
    (hh : headHome s.img h < 64) (hk : (headSt s h).k = some k) (hinj : s.test.inj = none) :
    let t := compDeadline h s
    let late := (lateTiles s.img h (headSt s h)).length
    (if (getQ s (0xFF7C0 + h)).frozen then (headSt t h).closed = (headSt s h).closed
      else ∃ ts, (headSt t h).closed = some (k, ts) ∧
        ∀ i, cget [] (headSt s h).tiles i ≠ [] → cget [] ts i = cget [] (headSt s h).tiles i) ∧
    fget t (Reg.COMP_H_STAT h) Fld.COMP_H_STAT_LATE_TILES = min 4095 late ∧
    rgetN t (Reg.COMP_H_TILE_LATE h) = min 0xFFFFFFFF (rgetN s (Reg.COMP_H_TILE_LATE h) + late) := by
  have hwithin : Within [.regs, .eng] s (frameCancelled h k s) := cancelTasks_within ..
  have hcancelled : OnlyRegs EngineReg s (frameCancelled h k s) :=
    ((SlotsKept.refl s).cancelTasks (by rw [clusterQuad]; omega)).regs
  have heq := compDeadline_eq hu hr hk
  dsimp only at heq
  generalize frameCancelled h k s = c at heq hwithin hcancelled
  rw [hwithin.part .img (by decide)] at heq
  intro t late
  have hq : c.q = s.q := hwithin.part .q (by decide)
  have hinj' : c.test.inj = none := (congrArg Test.inj (hwithin.part .test (by decide))).trans hinj
  have hclosed := frameClosed_closed (s := lateCounted h late c) (h := h) (k := k) hinj' (headSt s h)
    (tilesFilled h (headSt s h) c)
  generalize hv : frameClosed h k (headSt s h) (tilesFilled h (headSt s h) c) (lateCounted h late c) = v at heq hclosed
  have hchecks : OnlyChecks (lateCounted h late c) v := hv ▸ (storeOp_regs (2048 + h) _).same rfl
  have hkept : OnlyChecks v t ∧ t.comp = v.comp := by
    rw [show t = _ from heq]
    split
    · exact ⟨.refl _ v, rfl⟩
    · exact ⟨onlyChecks_alarm (.refl _ v) (raise_regs (by decide) (.refl _ v)), (raise_within ..).part .comp (by decide)⟩
  obtain ⟨hreports, hcomp⟩ := hkept
  have hregs : OnlyChecks (lateCounted h late c) t := hchecks.trans hreports
  have hhead : headSt t h = headSt v h := by rw [headSt, hcomp, headSt]
  have hstat := headReg_apart hlt (a := Reg.COMP_H_STAT h) (.inl rfl)
  have hcount := headReg_apart hlt (a := Reg.COMP_H_TILE_LATE h) (.inr rfl)
  refine ⟨?_, (hregs.field hstat.1 _).trans (lateCounted_stat ..), ?_⟩
  · rw [hhead, hclosed, getQ_congr (t := lateCounted h late c) (s := s) (congrArg _ hq)]
    split
    · rfl
    · exact ⟨_, rfl, fun i hi => tilesFilled_finished c hi⟩
  · rw [hregs.num hcount.1, lateCounted_count, hcancelled.num hcount.2]

/-! ### O49 -/

/-- Settles O49: a commit is `layerCommit_effect` behind its gate, a cut-off `compCutoff_done` within its cycle, and a
deadline `compDeadline_effect`. -/
theorem composition : Obligations.Composition := by
  refine ⟨fun m l s hreach hu => ?_, fun h s hu hr hh hw => ?_, fun h s hu hr hh =>
    ⟨fun k hk hinj => ⟨_, rfl, compDeadline_effect h.isLt hu hr hh hk hinj⟩, fun hk => ⟨_, rfl, compDeadline_idle hk⟩⟩⟩
  · refine ⟨_, congrArg Host.Outcome.next (hostWrite_reaches hreach), ?_⟩
    rw [compWrite_commit (s := grantTo _ m s) m l.isLt hu]
    exact layerCommit_effect m l (grantTo _ m s)
  · have hdone := compCutoff_done (h := h) (s := cycleBegin s) hu hr hh hw
    obtain ⟨hframe, hctrl, hshown, hlayers, hlut, hcoef⟩ :=
      hdone.kept ((cycleEnd_within s _).part .comp (by decide)) (cycleEnd_regs (.refl _ _))
    exact ⟨_, rfl, hframe, hctrl, hshown, hlayers, hlut, hcoef⟩

end Sys2Proof.Proofs.Composition
end

section
/-! PROOF. O39, the serial audio ports: what fails of it (12 R305). -/

set_option Elab.async false

namespace Sys2Proof.Proofs.AudioPorts

open Sys2Proof.Machine

/-- An image with one serial audio port: port 0, of two slots, on its own pins, in SYNC mode, the member of start group 0. -/
def portImg : Img :=
  { sections := [{ type := Sec.audio, off := 0, len := 0x1000, arm := true }], bytes := [(0, 1), (1, 2)] }

/-- In STANDBY, group 0 has started and its port runs. -/
def started : State :=
  { img := portImg
    regs := [(Reg.GLOBAL_MODE, 3), (Reg.SAP_STAT 0, 2), (Reg.SAP_GRP_CTRL 0, 1), (Reg.SAP_GRP_STAT 0, 8)] }

/-- Before the port's next FS the host disarms the group, then arms it and starts it again. -/
def restarted : State := grpCtrlWrite 0 3 (grpCtrlWrite 0 0 started)

/-- So the port, still running, has a return of its group to IDLE to meet although its group lets it run, and without an FS it
meets that at once: it waits for its start instead of being in CLK_LOST. -/
theorem restarted_clockLost : (sapPort restarted 0).idle = true ∧ grpLets restarted 0 = true ∧
    sapState (sapClockLost 0 restarted) 0 = 1 := by decide +kernel

/-- Refutes O39 by its clause on the loss of the clock: a return of the group to IDLE takes effect at the port's next FS, and
on loss of the clock at once (12 R305), even where the group has started again by then, `restarted`; the clause puts that
port in CLK_LOST. -/
theorem not_audioPorts : ¬ Obligations.AudioPorts := by
  unfold Obligations.AudioPorts
  rintro ⟨-, -, hloss⟩
  obtain ⟨t, ht, hports⟩ := hloss 0 restarted (by decide +kernel)
  have hlost : sapClockLost 0 restarted = t := Host.Outcome.next.inj ht
  have hport := hports 0 (by decide)
  rw [if_pos (by decide +kernel), ← hlost] at hport
  obtain ⟨hstate, -⟩ := hport
  obtain ⟨-, -, hwaits⟩ := restarted_clockLost
  rw [hwaits] at hstate
  exact absurd hstate (by decide +kernel)

end Sys2Proof.Proofs.AudioPorts
end

section
/-! PROOF. O40, the triggers of a start group, and the masks of its members' ports (12 R304, R306, R308). -/

set_option Elab.async false

namespace Sys2Proof.Proofs.StartTriggers

open Sys2Proof.Machine Sys2Proof.Laws Sys2Proof.Proofs.TakeRing Sys2Proof.Proofs.MacPorts

variable {s t u : State} {j k p : Nat}

/-! ### The registers of a group -/

/-- The registers that a start group writes. -/
abbrev groupRegs (k : Nat) : List Nat :=
  [Reg.SAP_GRP_CTRL k, Reg.SAP_GRP_STAT k, Reg.SAP_GRP_START_SC_LO k, Reg.SAP_GRP_START_SC_HI k]
/-- Those, the status of the ports, and the reports: what a write of SAP_GRP_CTRL may write. -/
abbrev StartReg (k a : Nat) : Prop := Alarm a ∨ a ∈ groupRegs k ∨ ∃ p, p < 32 ∧ a = Reg.SAP_STAT p

theorem groupRegs_iff (k a : Nat) : a ∈ groupRegs k ↔
    a = 0x02604000 + 0x20 * k ∨ a = 0x02604004 + 0x20 * k ∨ a = 0x02604010 + 0x20 * k ∨ a = 0x02604014 + 0x20 * k := by
  simp [groupRegs, Reg.SAP_GRP_CTRL, Reg.SAP_GRP_STAT, Reg.SAP_GRP_START_SC_LO, Reg.SAP_GRP_START_SC_HI]
theorem grpStat_other (h : j ≠ k) : Reg.SAP_GRP_STAT j ∉ groupRegs k := by
  rw [groupRegs_iff, Reg.SAP_GRP_STAT]
  omega
theorem grpStat_quiet (hk : k < 16) : ¬ Alarm (Reg.SAP_GRP_STAT k) := by
  rw [alarm_iff, Reg.SAP_GRP_STAT]
  omega
theorem grpStat_notPort (hp : p < 32) : Reg.SAP_GRP_STAT k ≠ Reg.SAP_STAT p := by
  rw [Reg.SAP_GRP_STAT, Reg.SAP_STAT]
  omega
theorem grpStat_notStart (hj : j < 16) (h : j ≠ k) : ¬ StartReg k (Reg.SAP_GRP_STAT j) := by
  rintro (halarm | hgroup | ⟨p, hp, hport⟩)
  · exact grpStat_quiet hj halarm
  · exact grpStat_other h hgroup
  · exact grpStat_notPort hp hport

/-- The sample counter lies in another block. -/
theorem audSc_group (h : OnlyRegs (· ∈ groupRegs k) s t) : audSc t = audSc s := by
  refine rget64_kept h ?_ ?_ <;> rw [groupRegs_iff] <;> simp only [Reg.AUD_SC_LO, Reg.AUD_SC_HI] <;> omega
theorem audSc_alarm (h : OnlyRegs Alarm s t) : audSc t = audSc s :=
  rget64_kept h (by decide) (by decide)
theorem grpState_alarm (hk : k < 16) (h : OnlyRegs Alarm s t) : grpState t k = grpState s k :=
  h.field (grpStat_quiet hk) _

theorem grpState_setGrpState (k n : Nat) (s : State) (hn : n < 4) : grpState (setGrpState k n s) k = n :=
  (fget_fset_same _ _ _ _ (by decide) (by decide)).trans (Nat.mod_eq_of_lt hn)

/-! ### A trigger (R306, R308) -/

/-- The group is STARTED, with n captured, and its timed start is off. -/
structure Started (k n : Nat) (t : State) : Prop where
  state : grpState t k = 2
  capture : rget64 t (Reg.SAP_GRP_START_SC_LO k) (Reg.SAP_GRP_START_SC_HI k) = n
  atEn : fbit t (Reg.SAP_GRP_CTRL k) Fld.SAP_GRP_CTRL_AT_EN = false

theorem rget64_rset64 {lo hi : Nat} (h : lo ≠ hi) (v : Nat) (s : State) : rget64 (rset64 s lo hi v) lo hi = v % 2 ^ 64 := by
  rw [rget64, rset64, rgetN_rsetN_same, rgetN_rsetN_ne _ _ h, rgetN_rsetN_same, lo32, hi32]
  omega

/-- The state of the group and the sample counter that its start captures, before the timed start is off. -/
def startCaptured (k : Nat) (s : State) : State :=
  rset64 (setGrpState k 2 s) (Reg.SAP_GRP_START_SC_LO k) (Reg.SAP_GRP_START_SC_HI k) (audSc s)
theorem grpTrigger_armed (h : grpState s k = 1) :
    grpTrigger k s = fset (startCaptured k s) (Reg.SAP_GRP_CTRL k) Fld.SAP_GRP_CTRL_AT_EN 0 := if_pos h
theorem grpTrigger_ignored (h : grpState s k ≠ 1) : grpTrigger k s = s := if_neg h
theorem grpTrigger_regs (k : Nat) (s : State) : OnlyRegs (· ∈ groupRegs k) s (grpTrigger k s) := by
  by_cases h : grpState s k = 1
  · rw [grpTrigger_armed h]
    exact (((OnlyRegs.refl _ s).fset (by simp)).rset64 (by simp) (by simp)).fset (by simp)
  · rw [grpTrigger_ignored h]
    exact .refl _ s
theorem grpTrigger_started (h : grpState s k = 1) : Started k (audSc s) (grpTrigger k s) := by
  rw [grpTrigger_armed h]
  have hcapture : RegsWithin [Reg.SAP_GRP_START_SC_LO k, Reg.SAP_GRP_START_SC_HI k] (setGrpState k 2 s)
      (startCaptured k s) := (OnlyRegs.refl _ _).rset64 (by simp) (by simp)
  have hctrl := (OnlyRegs.refl (· ∈ [Reg.SAP_GRP_CTRL k]) (startCaptured k s)).fset (a := Reg.SAP_GRP_CTRL k)
    (f := Fld.SAP_GRP_CTRL_AT_EN) (v := 0) (by simp)
  have hlo : Reg.SAP_GRP_START_SC_LO k ∉ [Reg.SAP_GRP_CTRL k] := by
    simp [Reg.SAP_GRP_START_SC_LO, Reg.SAP_GRP_CTRL]
  have hhi : Reg.SAP_GRP_START_SC_HI k ∉ [Reg.SAP_GRP_CTRL k] := by
    simp [Reg.SAP_GRP_START_SC_HI, Reg.SAP_GRP_CTRL]
  have hapart : Reg.SAP_GRP_START_SC_LO k ≠ Reg.SAP_GRP_START_SC_HI k := by
    simp [Reg.SAP_GRP_START_SC_LO, Reg.SAP_GRP_START_SC_HI]
  have hstat : Reg.SAP_GRP_STAT k ∉ [Reg.SAP_GRP_CTRL k] := by simp [Reg.SAP_GRP_STAT, Reg.SAP_GRP_CTRL]
  have hstat' : Reg.SAP_GRP_STAT k ∉ [Reg.SAP_GRP_START_SC_LO k, Reg.SAP_GRP_START_SC_HI k] := by
    simp [Reg.SAP_GRP_STAT, Reg.SAP_GRP_START_SC_LO, Reg.SAP_GRP_START_SC_HI]
  refine ⟨?_, ?_, ?_⟩
  · rw [grpState, hctrl.field hstat, hcapture.field hstat']
    exact grpState_setGrpState k 2 s (by decide)
  · rw [rget64_kept hctrl hlo hhi, startCaptured, rget64_rset64 hapart]
    exact Nat.mod_eq_of_lt (rget64_lt ..)
  · rw [fbit, fget_fset_same _ _ _ _ (by decide) (by decide)]
    rfl
/-- LATE stands beside STATE. -/
theorem grpTrigger_late (k : Nat) (s : State) :
    fbit (grpTrigger k s) (Reg.SAP_GRP_STAT k) Fld.SAP_GRP_STAT_LATE =
      fbit s (Reg.SAP_GRP_STAT k) Fld.SAP_GRP_STAT_LATE := by
  by_cases h : grpState s k = 1
  · have hbeside : RegsWithin [Reg.SAP_GRP_CTRL k, Reg.SAP_GRP_START_SC_LO k, Reg.SAP_GRP_START_SC_HI k]
        (setGrpState k 2 s) (grpTrigger k s) := by
      rw [grpTrigger_armed h]
      exact ((OnlyRegs.refl _ _).rset64 (by simp) (by simp)).fset (by simp)
    rw [hbeside.bit (by simp [Reg.SAP_GRP_STAT, Reg.SAP_GRP_CTRL, Reg.SAP_GRP_START_SC_LO, Reg.SAP_GRP_START_SC_HI])]
    exact fbit_fset_field _ _ _ _ _ (by decide) (by decide) (.inr (by decide))
  · rw [grpTrigger_ignored h]

/-! ### The members' ports (R304, R305) -/

theorem sapPort_setSap (p : Nat) (v : SapPort) (s : State) (q : Nat) :
    sapPort (setSap p v s) q = if q = p then v else sapPort s q := cget_cset ..
theorem sapPort_congr (h : t.aud.ports = s.aud.ports) (q : Nat) : sapPort t q = sapPort s q := by
  rw [sapPort, h, sapPort]
theorem mem_grpMembers {g : Img} (h : p ∈ grpMembers g k) : p < 32 :=
  List.mem_range.1 (List.mem_filter.1 h).1

/-- Both shadow masks of port p are put in wait. -/
def bothPending (s : State) (p : Nat) (v : SapPort) : SapPort :=
  { v with rxPend := some (rgetN s (Reg.SAP_RX_MASK_SH p)), txPend := some (rgetN s (Reg.SAP_TX_MASK_SH p)) }
theorem maskCommit_both (p : Nat) (s : State) : maskCommit p true true s = setSap p (bothPending s p (sapPort s p)) s := rfl
/-- Each port of a list has both its masks put in wait, once and for all. -/
theorem sapPort_masksCommitted (l : List Nat) (s : State) (q : Nat) :
    sapPort (l.foldl (fun s p => maskCommit p true true s) s) q =
      if q ∈ l then bothPending s q (sapPort s q) else sapPort s q := by
  induction l generalizing s with
  | nil => rfl
  | cons p l ih =>
    rw [List.foldl_cons, ih, maskCommit_both, sapPort_setSap]
    by_cases hq : q = p
    · subst hq
      simp only [if_true, List.mem_cons_self]
      exact ite_self (c := q ∈ l) _
    · simp only [hq, if_false, List.mem_cons, false_or]
      rfl

/-- From s to t the masks in wait are the same, and the ports outside l are too. -/
structure MasksKept (l : List Nat) (s t : State) : Prop where
  pending : ∀ q, (sapPort t q).rxPend = (sapPort s q).rxPend ∧ (sapPort t q).txPend = (sapPort s q).txPend
  other : ∀ q, q ∉ l → sapPort t q = sapPort s q

theorem MasksKept.of_ports {l : List Nat} (h : t.aud.ports = s.aud.ports) : MasksKept l s t :=
  ⟨fun q => by rw [sapPort_congr h]; exact ⟨rfl, rfl⟩, fun q _ => sapPort_congr h q⟩
theorem MasksKept.trans {l : List Nat} (h : MasksKept l s t) (g : MasksKept l t u) : MasksKept l s u :=
  ⟨fun q => ⟨(g.pending q).1.trans (h.pending q).1, (g.pending q).2.trans (h.pending q).2⟩,
    fun q hq => (g.other q hq).trans (h.other q hq)⟩
/-- A port of the list is set, to a record with the same masks in wait. -/
theorem MasksKept.setSap {l : List Nat} {v : SapPort} (hp : p ∈ l) (hrx : v.rxPend = (sapPort s p).rxPend)
    (htx : v.txPend = (sapPort s p).txPend) : MasksKept l s (setSap p v s) := by
  refine ⟨fun q => ?_, fun q hq => ?_⟩
  · rw [sapPort_setSap]
    by_cases h : q = p
    · subst h
      rw [if_pos rfl]
      exact ⟨hrx, htx⟩
    · rw [if_neg h]
      exact ⟨rfl, rfl⟩
  · exact (sapPort_setSap p v s q).trans (if_neg fun h : q = p => hq (h ▸ hp))
theorem MasksKept.foldl {l : List Nat} {g : State → Nat → State} (hg : ∀ v, ∀ p ∈ l, MasksKept l v (g v p)) (s : State) :
    MasksKept l s (l.foldl g s) :=
  List.foldlRecOn l g (motive := fun v => MasksKept l s v) (.of_ports rfl) fun _ hv p hp => hv.trans (hg _ p hp)

end Sys2Proof.Proofs.StartTriggers
end

section
/-! PROOF. O40, the start groups: a write of SAP_GRP_CTRL, step by step, and the triggers that are no write (12 R304, R306,
R308). -/

set_option Elab.async false

namespace Sys2Proof.Proofs.StartGroups

open Sys2Proof.Machine Sys2Proof.Laws Sys2Proof.Proofs.FaultRaised Sys2Proof.Proofs.TakeRing Sys2Proof.Proofs.MacPorts
  Sys2Proof.Proofs.TablePorts Sys2Proof.Proofs.StartTriggers

variable {s t u : State} {j k m p w : Nat}

/-! ### A write of SAP_GRP_CTRL, step by step -/

/-- MASK_COMMIT: both masks of every member. -/
def masksWritten (k : Nat) (on : Bool) (s : State) : State :=
  if on then (grpMembers s.img k).foldl (fun s p => maskCommit p true true s) s else s
/-- ARM. -/
def armWritten (k : Nat) (on : Bool) (s : State) : State :=
  if !on then (grpMembers s.img k).foldl (fun s p => sapGrpIdle p s) (setGrpState k 0 s)
  else if grpState s k = 0 then setGrpState k 1 s else s
/-- The raw count of a time by its code in TK: the output time, or a timekeeper. -/
def groupTime (s : State) (tk : Nat) : Nat := if tk = 0 then otRaw s else tkRaw s (tk - 1)
theorem groupTime_congr (h : t.time = s.time) (tk : Nat) : groupTime t tk = groupTime s tk := by
  simp only [groupTime, otRaw, tkRaw, h]
/-- A target in the past is shown. -/
def lateShown (k : Nat) (s : State) : State :=
  raise Src.sapStartLate [k] (fset s (Reg.SAP_GRP_STAT k) Fld.SAP_GRP_STAT_LATE 1)
/-- AT_EN: a target in the past triggers at once. -/
def atWritten (k : Nat) (on : Bool) (s : State) : State :=
  if on && decide (grpAt s k * 2 ^ 32 < groupTime s (grpTk s k)) then grpTrigger k (lateShown k s) else s
/-- START_NOW. -/
def nowWritten (k : Nat) (on : Bool) (s : State) : State := if on then grpTrigger k s else s

/-- A bit that is 0 asks for nothing, but for ARM. -/
theorem masksWritten_off (k : Nat) (s : State) : masksWritten k false s = s := rfl
theorem atWritten_off (k : Nat) (s : State) : atWritten k false s = s := rfl
theorem nowWritten_off (k : Nat) (s : State) : nowWritten k false s = s := rfl

theorem grpCtrlWrite_eq (k w : Nat) (s : State) : grpCtrlWrite k w s =
    nowWritten k (bitOf 1 w) (atWritten k (bitOf 2 w) (armWritten k (bitOf 0 w) (masksWritten k (bitOf 3 w)
      (plainWrite (Reg.SAP_GRP_CTRL k) (w32 w) s)))) := rfl

/-! ### MASK_COMMIT and ARM -/

theorem masksWritten_regs (k : Nat) (on : Bool) (s : State) : (masksWritten k on s).regs = s.regs := by
  unfold masksWritten
  split
  · exact List.foldlRecOn _ _ (motive := fun v : State => v.regs = s.regs) rfl fun _ hv _ _ => hv
  · rfl
theorem masksWritten_img (k : Nat) (on : Bool) (s : State) : (masksWritten k on s).img = s.img := by
  unfold masksWritten
  split
  · exact List.foldlRecOn _ _ (motive := fun v : State => v.img = s.img) rfl fun _ hv _ _ => hv
  · rfl

theorem sapStop_regs (p n : Nat) (s : State) : RegsWithin [Reg.SAP_STAT p] s (sapStop p n s) := by
  unfold sapStop
  extract_lets v u w
  have hu : RegsWithin [Reg.SAP_STAT p] s u := (OnlyRegs.refl _ s).fset (by simp)
  have hw : RegsWithin [Reg.SAP_STAT p] s w := OnlyRegs.ite (hu.foldl fun _ _ hv => hv.same rfl) hu
  exact (hw.same rfl).fset (by simp)
theorem sapStop_masks {l : List Nat} (hp : p ∈ l) (n : Nat) (s : State) : MasksKept l s (sapStop p n s) := by
  unfold sapStop
  extract_lets v u w
  have hw : w.aud.ports = s.aud.ports := by
    unfold w
    split
    · exact List.foldlRecOn _ _ (motive := fun v : State => v.aud.ports = s.aud.ports) rfl fun _ hv _ _ => hv
    · rfl
  have hport : sapPort w p = v := sapPort_congr hw p
  have hset : MasksKept l w (setSap p { v with rx := [], rxCur := [], tx := [], txCur := [], good := 0 } w) :=
    .setSap hp (by rw [hport]) (by rw [hport])
  exact (MasksKept.of_ports hw).trans (hset.trans (.of_ports rfl))

theorem sapLostReact_regs (p : Nat) (s : State) : RegsWithin [Reg.SAP_STAT p] s (sapLostReact p s) := by
  unfold sapLostReact
  exact .ite (.ite (sapStop_regs p 0 s) (.ite (sapStop_regs p 1 s) (.refl _ s))) (.refl _ s)
theorem sapLostReact_masks {l : List Nat} (hp : p ∈ l) (s : State) : MasksKept l s (sapLostReact p s) := by
  unfold sapLostReact
  repeat' split
  · exact sapStop_masks hp 0 s
  · exact sapStop_masks hp 1 s
  · exact .of_ports rfl
  · exact .of_ports rfl
theorem sapGrpIdle_regs (p : Nat) (s : State) : RegsWithin [Reg.SAP_STAT p] s (sapGrpIdle p s) :=
  (sapLostReact_regs p s).same rfl
theorem sapGrpIdle_masks {l : List Nat} (hp : p ∈ l) (s : State) : MasksKept l s (sapGrpIdle p s) :=
  (sapLostReact_masks hp s).trans (.setSap hp rfl rfl)

/-- The members meet the return of their group to IDLE. -/
theorem membersIdle_regs (k : Nat) (g : Img) (s : State) :
    OnlyRegs (fun a => ∃ p, p < 32 ∧ a = Reg.SAP_STAT p) s ((grpMembers g k).foldl (fun s p => sapGrpIdle p s) s) :=
  List.foldlRecOn _ _ (motive := fun v => OnlyRegs (fun a => ∃ p, p < 32 ∧ a = Reg.SAP_STAT p) s v) (.refl _ s)
    fun v hv p hp => hv.trans ((sapGrpIdle_regs p v).mono fun _ ha => ⟨p, mem_grpMembers hp, List.mem_singleton.1 ha⟩)

theorem armWritten_on (k : Nat) (s : State) :
    armWritten k true s = if grpState s k = 0 then setGrpState k 1 s else s := rfl
theorem armWritten_armed (h : grpState s k = 1) : armWritten k true s = s := by
  rw [armWritten_on, if_neg (by omega)]
theorem armWritten_off_state (k : Nat) (s : State) : grpState (armWritten k false s) k = 0 := by
  have hidle : grpState (setGrpState k 0 s) k = 0 := grpState_setGrpState k 0 s (by decide)
  refine ((membersIdle_regs k s.img (setGrpState k 0 s)).field ?_ _).trans hidle
  rintro ⟨p, hp, h⟩
  exact grpStat_notPort hp h
theorem armWritten_regs (k : Nat) (on : Bool) (s : State) : OnlyRegs (StartReg k) s (armWritten k on s) := by
  have hstate (n : Nat) : OnlyRegs (StartReg k) s (setGrpState k n s) := (OnlyRegs.refl _ s).fset (.inr (.inl (by simp)))
  cases on with
  | false => exact (hstate 0).trans ((membersIdle_regs k s.img _).mono fun _ ha => .inr (.inr ha))
  | true =>
    rw [armWritten_on]
    exact .ite (hstate 1) (.refl _ s)
theorem armWritten_masks (k : Nat) (on : Bool) (s : State) : MasksKept (grpMembers s.img k) s (armWritten k on s) := by
  cases on with
  | false =>
    have hidle : MasksKept (grpMembers s.img k) s (setGrpState k 0 s) := .of_ports rfl
    exact hidle.trans (MasksKept.foldl (fun v p hp => sapGrpIdle_masks hp v) _)
  | true =>
    rw [armWritten_on]
    split <;> exact .of_ports rfl

/-! ### A timed start, and START_NOW -/

theorem lateShown_regs (k : Nat) (s : State) : OnlyRegs (fun a => Alarm a ∨ a ∈ groupRegs k) s (lateShown k s) :=
  ((OnlyRegs.refl _ s).fset (.inr (by simp))).trans ((raise_onlyAlarm (by decide) _ _).mono fun _ => .inl)
theorem lateShown_state (hk : k < 16) (s : State) : grpState (lateShown k s) k = grpState s k :=
  (grpState_alarm hk (raise_onlyAlarm (by decide) _ _)).trans
    (fget_fset_field _ _ _ _ _ (by decide) (by decide) (.inl (by decide)))
theorem lateShown_late (hk : k < 16) (s : State) :
    fbit (lateShown k s) (Reg.SAP_GRP_STAT k) Fld.SAP_GRP_STAT_LATE = true :=
  ((raise_onlyAlarm (by decide) _ _).bit (grpStat_quiet hk) _).trans (fbit_fset_one _ _ _ (by decide) rfl)
theorem lateShown_audSc (k : Nat) (s : State) : audSc (lateShown k s) = audSc s :=
  (audSc_alarm (raise_onlyAlarm (by decide) _ _)).trans
    (audSc_group (k := k) ((OnlyRegs.refl _ s).fset (by simp)))
theorem lateShown_aud (k : Nat) (s : State) : (lateShown k s).aud = s.aud :=
  (raise_within ..).part .aud (by decide)
theorem grpTrigger_aud (k : Nat) (s : State) : (grpTrigger k s).aud = s.aud := (grpTrigger_within ..).part .aud (by decide)

theorem atWritten_regs (k : Nat) (on : Bool) (s : State) :
    OnlyRegs (fun a => Alarm a ∨ a ∈ groupRegs k) s (atWritten k on s) :=
  .ite ((lateShown_regs k s).trans ((grpTrigger_regs k _).mono fun _ => .inr)) (.refl _ s)
theorem atWritten_aud (k : Nat) (on : Bool) (s : State) : (atWritten k on s).aud = s.aud := by
  unfold atWritten
  split
  · exact (grpTrigger_aud ..).trans (lateShown_aud k s)
  · rfl
theorem atWritten_on (k : Nat) (s : State) : atWritten k true s =
    if grpAt s k * 2 ^ 32 < groupTime s (grpTk s k) then grpTrigger k (lateShown k s) else s := by
  simp only [atWritten, Bool.true_and, decide_eq_true_eq]
/-- In IDLE a timed start is ignored. -/
theorem atWritten_idle (hk : k < 16) (on : Bool) (h : grpState s k = 0) : grpState (atWritten k on s) k = 0 := by
  unfold atWritten
  have hlate : grpState (lateShown k s) k = 0 := (lateShown_state hk s).trans h
  split
  · rw [grpTrigger_ignored (by omega)]
    exact hlate
  · exact h
/-- In ARMED the group starts, or its timed start goes on. -/
theorem lateShown_started (hk : k < 16) (h : grpState s k = 1) : Started k (audSc s) (grpTrigger k (lateShown k s)) := by
  rw [← lateShown_audSc k s]
  exact grpTrigger_started ((lateShown_state hk s).trans h)
theorem nowWritten_regs (k : Nat) (on : Bool) (s : State) : OnlyRegs (· ∈ groupRegs k) s (nowWritten k on s) :=
  .ite (grpTrigger_regs k s) (.refl _ s)
theorem nowWritten_started (hk : k < 16) (on : Bool) (h : grpState s k = 1) :
    Started k (audSc s) (nowWritten k true (atWritten k on s)) := by
  show Started k (audSc s) (grpTrigger k (atWritten k on s))
  unfold atWritten
  split
  · have hlate := lateShown_started hk h
    rw [grpTrigger_ignored (s := grpTrigger k (lateShown k s)) (by rw [hlate.state]; decide)]
    exact hlate
  · exact grpTrigger_started h

theorem grpCtrlWrite_regs (k w : Nat) (s : State) : OnlyRegs (StartReg k) s (grpCtrlWrite k w s) := by
  have hgroup {u v : State} (h : OnlyRegs (fun a => Alarm a ∨ a ∈ groupRegs k) u v) : OnlyRegs (StartReg k) u v :=
    h.mono fun _ ha => ha.elim .inl (fun h => .inr (.inl h))
  have hplain : OnlyRegs (StartReg k) s (plainWrite (Reg.SAP_GRP_CTRL k) (w32 w) s) :=
    (OnlyRegs.refl _ s).rsetN (.inr (.inl (by simp)))
  have hmasks := hplain.same (masksWritten_regs k (bitOf 3 w) _)
  rw [grpCtrlWrite_eq]
  exact (hmasks.trans (armWritten_regs k (bitOf 0 w) _)).trans (hgroup ((atWritten_regs k (bitOf 2 w) _).trans
    ((nowWritten_regs k (bitOf 1 w) _).mono fun _ => .inr)))

/-! ### The register (Table 12.10) -/

theorem findRow_grpCtrl (k : Fin 16) : findRow (Reg.SAP_GRP_CTRL k) = some ⟨"SAP_GRP_CTRL", 0x02604000, [(0x20, 16)],
    [Fld.SAP_GRP_CTRL_TK, Fld.SAP_GRP_CTRL_MASK_COMMIT, Fld.SAP_GRP_CTRL_AT_EN, Fld.SAP_GRP_CTRL_START_NOW,
      Fld.SAP_GRP_CTRL_ARM], false⟩ := by
  fin_cases k <;> rfl

/-- What a write of the register stores in TK and in AT_EN. -/
theorem plainWrite_tk (k : Fin 16) (w : Word) (s : State) :
    fget (plainWrite (Reg.SAP_GRP_CTRL k) w s) (Reg.SAP_GRP_CTRL k) Fld.SAP_GRP_CTRL_TK = bitsOf 5 4 w.toNat :=
  fget_plainWrite w s [] [Fld.SAP_GRP_CTRL_MASK_COMMIT, Fld.SAP_GRP_CTRL_AT_EN, Fld.SAP_GRP_CTRL_START_NOW,
    Fld.SAP_GRP_CTRL_ARM] (findRow_grpCtrl k)
theorem plainWrite_atEn (k : Fin 16) (w : Word) (s : State) :
    fbit (plainWrite (Reg.SAP_GRP_CTRL k) w s) (Reg.SAP_GRP_CTRL k) Fld.SAP_GRP_CTRL_AT_EN = bitOf 2 w.toNat := by
  rw [bitOf_eq_bitsOf, fbit, fget_plainWrite w s [Fld.SAP_GRP_CTRL_TK, Fld.SAP_GRP_CTRL_MASK_COMMIT]
    [Fld.SAP_GRP_CTRL_START_NOW, Fld.SAP_GRP_CTRL_ARM] (findRow_grpCtrl k)]
  rfl

/-- What a command writes: the register as it reads, with a field changed. -/
theorem grpCtrl_lt (s : State) (k : Nat) : grpCtrl s k < 2 ^ 32 :=
  withBits_lt _ _ _ _ _ (by decide) (by decide) (withBits_lt _ _ _ _ _ (by decide) (by decide) (rgetN_lt s _))
theorem bitOf_grpCtrl (j : Nat) (s : State) (k : Nat) : bitOf j (grpCtrl s k) =
    if j = 3 ∨ j = 1 then false else bitOf j (rgetN s (Reg.SAP_GRP_CTRL k)) := by
  rw [grpCtrl, bitOf_withBits, bitOf_withBits]
  by_cases h3 : j = 3 <;> by_cases h1 : j = 1 <;> simp [h3, h1]
/-- One bit of it is written. -/
abbrev withBit (i : Nat) (on : Bool) (s : State) (k : Nat) : Nat := withBits i i (b2n on) (grpCtrl s k)
theorem withBit_lt {i : Nat} (hi : i < 32) (on : Bool) (s : State) (k : Nat) : withBit i on s k < 2 ^ 32 :=
  withBits_lt _ _ _ _ _ hi (by omega) (grpCtrl_lt s k)
theorem bitOf_withBit (i j : Nat) (on : Bool) (s : State) (k : Nat) : bitOf j (withBit i on s k) =
    if j = i then on else if j = 3 ∨ j = 1 then false else bitOf j (rgetN s (Reg.SAP_GRP_CTRL k)) := by
  rw [bitOf_withBits, bitOf_grpCtrl]
  cases on <;> rfl
/-- AT_EN is written 1, with the time that TK names. -/
abbrev withAt (tk : Nat) (s : State) (k : Nat) : Nat := withBits 5 4 tk (withBit 2 true s k)
theorem withAt_lt (tk : Nat) (s : State) (k : Nat) : withAt tk s k < 2 ^ 32 :=
  withBits_lt _ _ _ _ _ (by decide) (by decide) (withBit_lt (by decide) true s k)
theorem bitOf_withAt (hj : j < 4) (tk : Nat) (s : State) (k : Nat) : bitOf j (withAt tk s k) =
    bitOf j (withBit 2 true s k) := by
  rw [bitOf_eq_bitsOf, bitsOf_withBits_below _ _ _ _ _ _ hj, ← bitOf_eq_bitsOf]

theorem sapWrite_grpCtrl (m : Nat) (hk : k < 16) (hu : grpUsed s.img k = true) (hw : w < 2 ^ 32) :
    sapWrite m (Reg.SAP_GRP_CTRL k) (w32 w) s = grpCtrlWrite k w s := by
  have hoff : Reg.SAP_GRP_CTRL k - Base.sapBase = 0x4000 + 0x20 * k := by
    rw [Reg.SAP_GRP_CTRL, Base.sapBase]
    omega
  have hindex : (0x4000 + 0x20 * k - 0x4000) / 0x20 = k := by omega
  have hhigh : ¬ 0x4000 + 0x20 * k < 0x2000 := by omega
  have hrange : 0x4000 ≤ 0x4000 + 0x20 * k ∧ 0x4000 + 0x20 * k < 0x4200 := by omega
  have hstart : (0x4000 + 0x20 * k) % 0x20 = 0 := by omega
  have hthere : sapAbsent s.img (Reg.SAP_GRP_CTRL k) = false := by
    simp only [sapAbsent, hoff, hindex, if_neg hhigh, if_pos hrange, hu, Bool.not_true]
  rw [sapWrite, hthere, hoff]
  simp only [Bool.false_eq_true, if_false, if_neg hhigh, hrange, hstart, and_self, if_true, hindex, w32_toNat hw]

/-- A command that writes SAP_GRP_CTRL of a group in use: once granted, what the write does. -/
theorem answers_group {c : Instr} {P : State → Prop} (hr : Reaches s m (Reg.SAP_GRP_CTRL k)) (hk : k < 16)
    (hu : grpUsed s.img k = true) (hw : w < 2 ^ 32) (hc : exec c s = .next (grpHostWrite m k w s))
    (h : P (grpCtrlWrite k w (grantTo (blockPort (Reg.SAP_GRP_CTRL k)) m s))) : Answers c s P := by
  refine ⟨_, hc.trans (congrArg Host.Outcome.next ?_), h⟩
  rw [grpHostWrite, hostWrite_reaches hr, sapWrite_grpCtrl (s := grantTo _ m s) m hk hu hw]

/-! ### What each command's write does -/

/-- A write of SAP_GRP_CTRL, before what its bits ask for. -/
abbrev ctrlStored (k w : Nat) (s : State) : State := plainWrite (Reg.SAP_GRP_CTRL k) (w32 w) s
theorem ctrlStored_regs (k w : Nat) (s : State) : RegsWithin [Reg.SAP_GRP_CTRL k] s (ctrlStored k w s) :=
  plainWrite_regs _ _ _
theorem ctrlStored_state (k w : Nat) (s : State) : grpState (ctrlStored k w s) k = grpState s k :=
  (ctrlStored_regs k w s).field (by simp [Reg.SAP_GRP_STAT, Reg.SAP_GRP_CTRL]) _
theorem ctrlStored_audSc (k w : Nat) (s : State) : audSc (ctrlStored k w s) = audSc s :=
  audSc_group (k := k) ((ctrlStored_regs k w s).mono fun _ ha => by simp_all)

theorem groupArmed (h0 : bitOf 0 w = true) (h1 : bitOf 1 w = false) (h2 : bitOf 2 w = false) (h3 : bitOf 3 w = false)
    (s : State) :
    let t := grpCtrlWrite k w s
    grpState t k = (if grpState s k = 0 then 1 else grpState s k) ∧ t.aud = s.aud ∧
      RegsWithin [Reg.SAP_GRP_CTRL k, Reg.SAP_GRP_STAT k] s t := by
  intro t
  have ht : t = armWritten k true (ctrlStored k w s) := by
    simp only [t, grpCtrlWrite_eq, h0, h1, h2, h3, masksWritten_off, atWritten_off, nowWritten_off]
  have hstored : RegsWithin [Reg.SAP_GRP_CTRL k, Reg.SAP_GRP_STAT k] s (ctrlStored k w s) :=
    (OnlyRegs.refl _ s).rsetN (by simp)
  rw [armWritten_on, ctrlStored_state] at ht
  by_cases hidle : grpState s k = 0
  · rw [if_pos hidle] at ht ⊢
    rw [ht]
    exact ⟨grpState_setGrpState k 1 _ (by decide), rfl, hstored.fset (by simp)⟩
  · rw [if_neg hidle] at ht ⊢
    rw [ht]
    exact ⟨ctrlStored_state k w s, rfl, hstored⟩

theorem groupDisarmed (hk : k < 16) (h0 : bitOf 0 w = false) (h1 : bitOf 1 w = false) (s : State) :
    let t := grpCtrlWrite k w s
    grpState t k = 0 ∧ ∀ j, j < 16 → j ≠ k → grpState t j = grpState s j := by
  refine ⟨?_, fun j hj hne => (grpCtrlWrite_regs k w s).field (grpStat_notStart hj hne) _⟩
  rw [grpCtrlWrite_eq, h0, h1, nowWritten_off]
  exact atWritten_idle hk _ (armWritten_off_state k _)

theorem groupStarted (hk : k < 16) (h0 : bitOf 0 w = true) (h1 : bitOf 1 w = true) (h3 : bitOf 3 w = false)
    (h : grpState s k = 1) : Started k (audSc s) (grpCtrlWrite k w s) := by
  have harmed : grpState (ctrlStored k w s) k = 1 := (ctrlStored_state k w s).trans h
  have ht : grpCtrlWrite k w s = nowWritten k true (atWritten k (bitOf 2 w) (armWritten k true (ctrlStored k w s))) := by
    rw [grpCtrlWrite_eq, h0, h1, h3, masksWritten_off]
  rw [ht, armWritten_armed harmed, ← ctrlStored_audSc k w s]
  exact nowWritten_started hk _ harmed

theorem groupMasks (h1 : bitOf 1 w = false) (h3 : bitOf 3 w = true) (s : State) (p : Nat) :
    let t := grpCtrlWrite k w s
    if p ∈ grpMembers s.img k then
      (sapPort t p).rxPend = some (rgetN s (Reg.SAP_RX_MASK_SH p)) ∧
      (sapPort t p).txPend = some (rgetN s (Reg.SAP_TX_MASK_SH p))
    else sapPort t p = sapPort s p := by
  intro t
  have ht : t = atWritten k (bitOf 2 w) (armWritten k (bitOf 0 w) (masksWritten k true (ctrlStored k w s))) := by
    simp only [t, grpCtrlWrite_eq, h1, h3, nowWritten_off]
  generalize hu : masksWritten k true (ctrlStored k w s) = u at ht
  have hports : t.aud.ports = (armWritten k (bitOf 0 w) u).aud.ports := by rw [ht, atWritten_aud]
  have himg : u.img = s.img := hu ▸ masksWritten_img ..
  have hkept : MasksKept (grpMembers s.img k) u t :=
    (himg ▸ armWritten_masks k (bitOf 0 w) u).trans (.of_ports hports)
  have hmasked : sapPort u p = if p ∈ grpMembers s.img k then bothPending (ctrlStored k w s) p (sapPort s p)
      else sapPort s p := hu ▸ sapPort_masksCommitted (grpMembers s.img k) (ctrlStored k w s) p
  split
  · next hp =>
    rw [if_pos hp] at hmasked
    have hp32 := mem_grpMembers hp
    have hshadow (a : Nat) (ha : a < 0x02604000) : rgetN (ctrlStored k w s) a = rgetN s a :=
      (ctrlStored_regs k w s).num (by simp [Reg.SAP_GRP_CTRL]; omega)
    obtain ⟨hrx, htx⟩ := hkept.pending p
    rw [hrx, htx, hmasked]
    refine ⟨congrArg some (hshadow _ ?_), congrArg some (hshadow _ ?_)⟩
    · rw [Reg.SAP_RX_MASK_SH]
      omega
    · rw [Reg.SAP_TX_MASK_SH]
      omega
  · next hp =>
    rw [if_neg hp] at hmasked
    rw [hkept.other p hp, hmasked]

/-- The timekeeper that TK names; 3 is treated as 0 (Table 12.10). -/
abbrev tkNamed (tk : Nat) : Nat := if tk = 3 then 0 else tk

theorem groupTime_named (tk : Nat) (s : State) :
    groupTime s (tkNamed tk) = if tk = 0 ∨ tk = 3 then otRaw s else tkRaw s (tk - 1) := by
  by_cases h : tk = 3 <;> simp [groupTime, tkNamed, h]

theorem grpCtrlWrite_at (h0 : bitOf 0 w = true) (h1 : bitOf 1 w = false) (h2 : bitOf 2 w = true) (h3 : bitOf 3 w = false)
    (h : grpState (ctrlStored k w s) k = 1) : grpCtrlWrite k w s = atWritten k true (ctrlStored k w s) := by
  rw [grpCtrlWrite_eq, h0, h1, h2, h3, masksWritten_off, nowWritten_off, armWritten_armed h]
theorem groupTimed {k : Fin 16} {tk : Nat} (htk : bitsOf 5 4 w = tk) (hw : w < 2 ^ 32) (h0 : bitOf 0 w = true)
    (h1 : bitOf 1 w = false) (h2 : bitOf 2 w = true) (h3 : bitOf 3 w = false) (h : grpState s k = 1) :
    let t := grpCtrlWrite k w s
    if grpAt s k * 2 ^ 32 < groupTime s (tkNamed tk) then
      fbit t (Reg.SAP_GRP_STAT k) Fld.SAP_GRP_STAT_LATE = true ∧ grpState t k = 2
    else grpState t k = 1 ∧ grpTk t k = tkNamed tk ∧
      fbit t (Reg.SAP_GRP_CTRL k) Fld.SAP_GRP_CTRL_AT_EN = true ∧ RegsWithin [Reg.SAP_GRP_CTRL k] s t := by
  intro t
  have harmed : grpState (ctrlStored k w s) k = 1 := (ctrlStored_state k w s).trans h
  have hregs := ctrlStored_regs k w s
  have hnamed : grpTk (ctrlStored k w s) k = tkNamed tk := by
    rw [grpTk, plainWrite_tk, w32_toNat hw, htk]
  have hat : grpAt (ctrlStored k w s) k = grpAt s k :=
    rget64_kept hregs (by simp [Reg.SAP_GRP_AT_LO, Reg.SAP_GRP_CTRL]) (by simp [Reg.SAP_GRP_AT_HI, Reg.SAP_GRP_CTRL])
  have hatEn : fbit (ctrlStored k w s) (Reg.SAP_GRP_CTRL k) Fld.SAP_GRP_CTRL_AT_EN = true :=
    (plainWrite_atEn k (w32 w) s).trans ((congrArg (bitOf 2) (w32_toNat hw)).trans h2)
  have ht : t = _ := grpCtrlWrite_at h0 h1 h2 h3 harmed
  have htime : groupTime (ctrlStored k w s) (tkNamed tk) = groupTime s (tkNamed tk) :=
    groupTime_congr ((plainWrite_within ..).part .time (by decide)) _
  rw [atWritten_on, hnamed, hat, htime] at ht
  by_cases hlate : grpAt s k * 2 ^ 32 < groupTime s (tkNamed tk)
  · rw [if_pos hlate] at ht ⊢
    rw [ht, grpTrigger_late]
    exact ⟨lateShown_late k.isLt _, (lateShown_started k.isLt harmed).state⟩
  · rw [if_neg hlate] at ht ⊢
    rw [ht]
    exact ⟨harmed, hnamed, hatEn, hregs⟩

/-! ### The start edge and the time that has come (R306, R308) -/

/-- A trigger of group k where c holds of it. -/
def triggeredIf (c : Nat → Bool) (s : State) (k : Nat) : State := if c k then grpTrigger k s else s
theorem triggeredIf_regs (c : Nat → Bool) (s : State) (k : Nat) : OnlyRegs (· ∈ groupRegs k) s (triggeredIf c s k) :=
  .ite (grpTrigger_regs k s) (.refl _ s)

/-- Registers of other groups than k. -/
abbrev OtherGroup (k a : Nat) : Prop := ∃ j, j ≠ k ∧ a ∈ groupRegs j

theorem otherGroup_quiet (ha : a ∈ groupRegs k) : ¬ OtherGroup k a := by
  rintro ⟨j, hj, haj⟩
  rw [groupRegs_iff] at ha haj
  omega
theorem othersTriggered_regs (c : Nat → Bool) {l : List Nat} (hk : k ∉ l) (s : State) :
    OnlyRegs (OtherGroup k) s (l.foldl (triggeredIf c) s) :=
  List.foldlRecOn l _ (motive := fun v => OnlyRegs (OtherGroup k) s v) (.refl _ s) fun v hv j hj =>
    hv.trans ((triggeredIf_regs c v j).mono fun _ ha => ⟨j, fun h => hk (h ▸ hj), ha⟩)
theorem audSc_otherGroup (h : OnlyRegs (OtherGroup k) s t) : audSc t = audSc s := by
  refine rget64_kept h ?_ ?_ <;> rintro ⟨j, -, hj⟩ <;> rw [groupRegs_iff] at hj <;>
    simp only [Reg.AUD_SC_LO, Reg.AUD_SC_HI] at hj <;> omega
theorem started_kept {n : Nat} (hs : Started k n s) (h : OnlyRegs (OtherGroup k) s t) : Started k n t := by
  have hquiet {a : Nat} (ha : a ∈ groupRegs k) : ¬ OtherGroup k a := otherGroup_quiet ha
  obtain ⟨hstate, hcapture, hatEn⟩ := hs
  exact ⟨(h.field (hquiet (by simp)) _).trans hstate,
    (rget64_kept h (hquiet (by simp)) (hquiet (by simp))).trans hcapture, (h.bit (hquiet (by simp)) _).trans hatEn⟩

/-- Of several groups each is triggered by itself. -/
theorem groupsTriggered (c : Nat → Bool) {l : List Nat} (hl : l.Nodup) (hk : k ∈ l) (s : State) :
    let t := l.foldl (triggeredIf c) s
    if c k = true ∧ grpState s k = 1 then Started k (audSc s) t else grpState t k = grpState s k := by
  intro t
  obtain ⟨before, after, rfl⟩ := List.append_of_mem hk
  obtain ⟨-, hafter, hbefore⟩ := List.nodup_append.1 hl
  have hnb : k ∉ before := fun h => hbefore k h k List.mem_cons_self rfl
  have hb := othersTriggered_regs c hnb s
  have ha := othersTriggered_regs c (List.nodup_cons.1 hafter).1 (triggeredIf c (before.foldl (triggeredIf c) s) k)
  have ht : t = after.foldl (triggeredIf c) (triggeredIf c (before.foldl (triggeredIf c) s) k) := List.foldl_append ..
  rw [← ht] at ha
  have hstat : ¬ OtherGroup k (Reg.SAP_GRP_STAT k) := otherGroup_quiet (by simp)
  generalize before.foldl (triggeredIf c) s = u at hb ha
  have hstate : grpState u k = grpState s k := hb.field hstat _
  split
  · next h =>
    obtain ⟨hc, harmed⟩ := h
    rw [triggeredIf, if_pos hc] at ha
    rw [← audSc_otherGroup hb]
    exact started_kept (grpTrigger_started (hstate.trans harmed)) ha
  · next h =>
    have hsame : triggeredIf c u k = u := by
      unfold triggeredIf
      split
      · next hc => exact grpTrigger_ignored fun harmed => h ⟨hc, hstate.symm.trans harmed⟩
      · rfl
    rw [hsame] at ha
    exact (ha.field hstat _).trans hstate

/-- Which groups the pin starts is fixed by the image. -/
abbrev pinStarts (g : Img) (k : Nat) : Bool := grpUsed g k && grpPinEn g k
theorem grpTrigger_img (k : Nat) (s : State) : (grpTrigger k s).img = s.img := (grpTrigger_within ..).part .img (by decide)
theorem foldl_pinStarts (l : List Nat) (s : State) :
    l.foldl (fun s k => if pinStarts s.img k then grpTrigger k s else s) s = l.foldl (triggeredIf (pinStarts s.img)) s := by
  induction l generalizing s with
  | nil => rfl
  | cons k l ih =>
    have himg : (triggeredIf (pinStarts s.img) s k).img = s.img := by
      unfold triggeredIf
      split
      · exact grpTrigger_img k s
      · rfl
    rw [List.foldl_cons, List.foldl_cons, ih]
    exact congrArg (fun g => l.foldl (triggeredIf (pinStarts g)) (triggeredIf (pinStarts s.img) s k)) himg
theorem audStart_eq (hin : inService s = true) :
    audStart s = (List.range 16).foldl (triggeredIf (pinStarts s.img)) (setFiltered 4 true s) := by
  have hserves : inService (setFiltered 4 true s) = true := hin
  rw [audStart, hserves]
  exact foldl_pinStarts (List.range 16) (setFiltered 4 true s)

theorem advanceTo_regs (tk ns : Nat) (s : State) : (advanceTo tk ns s).regs = s.regs :=
  (advanceTicks_within _ _).part .regs (by decide)
theorem grpAtReached_eq (hin : inService s = true) (hu : grpUsed s.img k = true)
    (hat : fbit s (Reg.SAP_GRP_CTRL k) Fld.SAP_GRP_CTRL_AT_EN = true) :
    grpAtReached k s = grpTrigger k (advanceTo (grpTk s k) (grpAt s k) s) := by
  simp [grpAtReached, hin, hu, hat]

/-! ### O40 -/

/-- Settles O40: a write of SAP_GRP_CTRL by what its bits ask for (`groupArmed`, `groupDisarmed`, `groupStarted`,
`groupMasks`, `groupTimed`), and the triggers from the pin and from the time by `groupsTriggered` and
`grpTrigger_started`. -/
theorem startGroups : Obligations.StartGroups := by
  unfold Obligations.StartGroups
  refine ⟨fun m k s hr hu => ⟨fun h2 => ?arm, ?disarm, fun h0 h => ?now, ?masks, fun tk h0 h => ?timed⟩,
    fun s hin => ?edge, fun k s hin hu h hat => ?reached⟩
  case arm =>
    refine answers_group hr k.isLt hu (withBit_lt (by decide) true s k) rfl (groupArmed ?_ ?_ ?_ ?_ _)
    all_goals simp [bitOf_withBit, h2]
  case disarm =>
    refine answers_group hr k.isLt hu (withBit_lt (by decide) false s k) rfl (groupDisarmed k.isLt ?_ ?_ _)
    all_goals simp [bitOf_withBit]
  case now =>
    refine answers_group hr k.isLt hu (withBit_lt (by decide) true s k) rfl ?_
    obtain ⟨hstate, hcapture, hatEn⟩ := groupStarted (w := withBit 1 true s k) (s := grantTo (blockPort _) m s) k.isLt
      (by simp [bitOf_withBit, h0]) (by simp [bitOf_withBit]) (by simp [bitOf_withBit]) h
    exact ⟨hstate, hcapture, hatEn⟩
  case masks =>
    refine answers_group hr k.isLt hu (withBit_lt (by decide) true s k) rfl fun p => groupMasks ?_ ?_ (grantTo _ m s) p
    all_goals simp [bitOf_withBit]
  case timed =>
    have hnamed : bitsOf 5 4 (withAt tk s k) = tk := (bitsOf_withBits ..).trans (Nat.mod_eq_of_lt tk.isLt)
    have htimed := groupTimed (s := grantTo (blockPort (Reg.SAP_GRP_CTRL k)) m s) hnamed (withAt_lt tk s k)
      (by simp [bitOf_withAt, bitOf_withBit, h0]) (by simp [bitOf_withAt, bitOf_withBit])
      (by simp [bitOf_withAt, bitOf_withBit]) (by simp [bitOf_withAt, bitOf_withBit]) h
    rw [groupTime_congr (s := s) (t := grantTo _ m s) rfl, groupTime_named] at htimed
    exact answers_group hr k.isLt hu (withAt_lt tk s k) rfl htimed
  case edge =>
    refine ⟨_, congrArg Host.Outcome.next (audStart_eq hin), fun k hk => ?_⟩
    have hgroup := groupsTriggered (pinStarts s.img) List.nodup_range (List.mem_range.2 hk) (setFiltered 4 true s)
    have hstarts : pinStarts s.img k = true ∧ grpState (setFiltered 4 true s) k = 1 ↔
        grpUsed s.img k = true ∧ grpPinEn s.img k = true ∧ grpState s k = 1 := by
      rw [Bool.and_eq_true, and_assoc]
      rfl
    split
    · next h =>
      rw [if_pos (hstarts.2 h)] at hgroup
      obtain ⟨hstate, hcapture, -⟩ := hgroup
      exact ⟨hstate, hcapture⟩
    · next h =>
      rw [if_neg (mt hstarts.1 h)] at hgroup
      exact hgroup
  case reached =>
    have hregs := advanceTo_regs (grpTk s k) (grpAt s k) s
    have harmed : grpState (advanceTo (grpTk s k) (grpAt s k) s) k = 1 := (fget_congr hregs _ _).trans h
    obtain ⟨hstate, hcapture, hatEn⟩ := grpTrigger_started harmed
    refine ⟨_, congrArg Host.Outcome.next (grpAtReached_eq hin hu hat), hstate, hatEn, ?_⟩
    rw [hcapture, audSc_group (grpTrigger_regs k _)]

end Sys2Proof.Proofs.StartGroups
end

section
/-! PROOF. O41, the states of an ASRC block: its window, the loss of its clock, its acquisition (12 R311, R312). -/

set_option Elab.async false

namespace Sys2Proof.Proofs.AsrcBlocks

open Sys2Proof.Machine Sys2Proof.Laws Sys2Proof.Proofs.TakeRing

variable {s t u : State} {b c : Nat}

/-! ### The registers of the blocks -/

/-- The registers of the ASRC blocks lie apart from those that report a raise. -/
theorem asrcReg_quiet (hb : b < 256) : ¬ Alarm (Reg.ASRC_STAT b) ∧ ¬ Alarm (Reg.ASRC_UNLOCKS b) := by
  rw [alarm_iff, alarm_iff, Reg.ASRC_STAT, Reg.ASRC_UNLOCKS]
  omega
theorem asrcStat_inj (h : c ≠ b) : Reg.ASRC_STAT c ≠ Reg.ASRC_STAT b := by
  rw [Reg.ASRC_STAT, Reg.ASRC_STAT]
  omega
theorem asrcStat_ne_unlocks (c b : Nat) : Reg.ASRC_STAT c ≠ Reg.ASRC_UNLOCKS b := by
  rw [Reg.ASRC_STAT, Reg.ASRC_UNLOCKS]
  omega
theorem asrcStat_ne_ratio (c b : Nat) : Reg.ASRC_STAT c ≠ Reg.ASRC_RATIO b := by
  rw [Reg.ASRC_STAT, Reg.ASRC_RATIO]
  omega
theorem asrcUnlocks_ne_ratio (c b : Nat) : Reg.ASRC_UNLOCKS c ≠ Reg.ASRC_RATIO b := by
  rw [Reg.ASRC_UNLOCKS, Reg.ASRC_RATIO]
  omega

theorem asrcState_setAsrcState (b n : Nat) (s : State) (hn : n < 4) : asrcState (setAsrcState b n s) b = n :=
  (fget_fset_same _ _ _ _ (by decide) (by decide)).trans (Nat.mod_eq_of_lt hn)
theorem asrcState_setAsrcState_ne (n : Nat) (s : State) (h : c ≠ b) :
    asrcState (setAsrcState b n s) c = asrcState s c := fget_fset_ne _ _ _ _ (asrcStat_inj h)
theorem unlocks_setAsrcState (b n : Nat) (s : State) :
    rgetN (setAsrcState b n s) (Reg.ASRC_UNLOCKS b) = rgetN s (Reg.ASRC_UNLOCKS b) :=
  rgetN_fset_ne _ _ _ (asrcStat_ne_unlocks b b).symm

/-! ### What leaves the states alone -/

/-- From s to t every ASRC block keeps its state, and block b its count. -/
structure StatesKept (b : Nat) (s t : State) : Prop where
  state : ∀ c, c < 256 → asrcState t c = asrcState s c
  unlocks : rgetN t (Reg.ASRC_UNLOCKS b) = rgetN s (Reg.ASRC_UNLOCKS b)

theorem StatesKept.trans (h : StatesKept b s t) (k : StatesKept b t u) : StatesKept b s u :=
  ⟨fun c hc => (k.state c hc).trans (h.state c hc), k.unlocks.trans h.unlocks⟩
theorem StatesKept.of_regs {P : Nat → Prop} (h : OnlyRegs P s t) (hstat : ∀ c, c < 256 → ¬ P (Reg.ASRC_STAT c))
    (hunlocks : ¬ P (Reg.ASRC_UNLOCKS b)) : StatesKept b s t :=
  ⟨fun c hc => h.field (hstat c hc) _, h.num hunlocks⟩
/-- The fill is shown. -/
theorem statesKept_fill (b n : Nat) (s : State) : StatesKept b s (fset s (Reg.ASRC_STAT b) Fld.ASRC_STAT_FILL n) := by
  refine ⟨fun c _ => ?_, rgetN_fset_ne _ _ _ (asrcStat_ne_unlocks b b).symm⟩
  by_cases h : c = b
  · subst h
    exact fget_fset_field _ _ _ _ _ (by decide) (by decide) (.inr (by decide))
  · exact fget_fset_ne _ _ _ _ (asrcStat_inj h)
/-- A slip of a start group's member is reported in the group's own register. -/
theorem groupSlipped_regs (p : Nat) (s : State) :
    OnlyRegs (fun a => Alarm a ∨ ∃ k, k < 16 ∧ a = Reg.SAP_GRP_STAT k) s (groupSlipped p s) := by
  unfold groupSlipped
  split
  · next hp =>
    have hstat : Alarm (Reg.SAP_GRP_STAT (sapGroup s.img p)) ∨
        ∃ k, k < 16 ∧ Reg.SAP_GRP_STAT (sapGroup s.img p) = Reg.SAP_GRP_STAT k := .inr ⟨_, of_decide_eq_true hp, rfl⟩
    exact (((OnlyRegs.refl _ s).fset hstat).fset hstat).trans ((raise_onlyAlarm (by decide) _ _).mono fun _ => .inl)
  · exact .refl _ s
theorem statesKept_groupSlipped (hb : b < 256) (p : Nat) (s : State) : StatesKept b s (groupSlipped p s) := by
  refine .of_regs (groupSlipped_regs p s) (fun c hc => ?_) ?_
  · rintro (h | ⟨k, hk, h⟩)
    · exact (asrcReg_quiet hc).1 h
    · rw [Reg.ASRC_STAT, Reg.SAP_GRP_STAT] at h
      omega
  · rintro (h | ⟨k, hk, h⟩)
    · exact (asrcReg_quiet hb).2 h
    · rw [Reg.ASRC_UNLOCKS, Reg.SAP_GRP_STAT] at h
      omega

/-! ### A block enters UNLOCKED -/

/-- UNLOCKED is shown, before the loss of a lock is counted. -/
def unlockShown (b : Nat) (s : State) : State := setAsrc b { asrcBlk s b with steady := false } (setAsrcState b 1 s)
theorem asrcUnlock_eq (b : Nat) (s : State) : asrcUnlock b s =
    if asrcState s b = 3 then raise Src.asrcUnlock [b] (count (unlockShown b s) (Reg.ASRC_UNLOCKS b))
    else unlockShown b s := rfl
theorem unlockShown_regs (b : Nat) (s : State) : RegsReported [Reg.ASRC_STAT b, Reg.ASRC_UNLOCKS b] s (unlockShown b s) :=
  ((OnlyRegs.refl _ s).fset (.inr (by simp))).same rfl
theorem asrcUnlock_regs (b : Nat) (s : State) :
    RegsReported [Reg.ASRC_STAT b, Reg.ASRC_UNLOCKS b] s (asrcUnlock b s) := by
  rw [asrcUnlock_eq]
  split
  · exact ((unlockShown_regs b s).count (.inr (by simp))).trans ((raise_onlyAlarm (by decide) _ _).mono fun _ => .inl)
  · exact unlockShown_regs b s
theorem asrcUnlock_state (hb : b < 256) (s : State) : asrcState (asrcUnlock b s) b = 1 := by
  have hshown : asrcState (unlockShown b s) b = 1 := asrcState_setAsrcState b 1 s (by decide)
  rw [asrcUnlock_eq]
  split
  · rw [asrcState, (raise_onlyAlarm (by decide) _ _).field (asrcReg_quiet hb).1]
    exact (fget_rsetN_ne _ _ _ (asrcStat_ne_unlocks b b)).trans hshown
  · exact hshown
theorem asrcUnlock_other (hc : c < 256) (h : c ≠ b) (s : State) : asrcState (asrcUnlock b s) c = asrcState s c := by
  refine (asrcUnlock_regs b s).field ?_ _
  rintro (halarm | hlisted)
  · exact (asrcReg_quiet hc).1 halarm
  · simp [asrcStat_inj h, asrcStat_ne_unlocks] at hlisted
theorem asrcUnlock_unlocks (hb : b < 256) (s : State) : rgetN (asrcUnlock b s) (Reg.ASRC_UNLOCKS b) =
    if asrcState s b = 3 then min 0xFFFFFFFF (rgetN s (Reg.ASRC_UNLOCKS b) + 1) else rgetN s (Reg.ASRC_UNLOCKS b) := by
  have hshown : rgetN (unlockShown b s) (Reg.ASRC_UNLOCKS b) = rgetN s (Reg.ASRC_UNLOCKS b) := unlocks_setAsrcState b 1 s
  rw [asrcUnlock_eq]
  split
  · rw [(raise_onlyAlarm (by decide) _ _).num (asrcReg_quiet hb).2, rgetN_count_same, hshown]
  · exact hshown

/-! ### The end of a window -/

/-- The ratio that a window of w units of 1/256 aud cycle measures, in Q2.30, and whether it lies within 0.45 to 1.02. -/
def measuredRatio (w : Nat) : Nat := if w = 0 then 2 ^ 32 - 1 else min (2 ^ 32 - 1) (2 ^ 55 / w)
def ratioGood (w : Nat) : Bool :=
  decide (45 * 2 ^ 30 ≤ 100 * measuredRatio w) && decide (100 * measuredRatio w ≤ 102 * 2 ^ 30)
/-- A phase error beyond four input samples. -/
abbrev phaseFar (phase : Int) : Bool := decide (1024 < phase.natAbs)

/-- The window's ratio and fill are shown. -/
def windowShown (b : Nat) (phase : Int) (s : State) : State :=
  fset (spend (rsetN s (Reg.ASRC_RATIO b) (freeValue s))) (Reg.ASRC_STAT b) Fld.ASRC_STAT_FILL (asrcFill phase)
/-- Block b notes whether the phase error lay within a quarter sample. -/
def phaseNoted (b : Nat) (phase : Int) (v : AsrcBlk) (s : State) : State :=
  setAsrc b { v with steady := decide (phase.natAbs ≤ 64) } s
/-- The FIFO is re-centred: at once, or for the port of a start group at the frame boundary (R312). -/
def fifoRecentred (b : Nat) (s : State) : State :=
  let p := ownInst s.img (resId 6 b)
  let grouped := ownClass s.img (resId 6 b) == 0x0E && sapGrouped s.img p
  let s := setAsrc b { asrcBlk s b with recentre := grouped } s
  if grouped then groupSlipped p s else fset s (Reg.ASRC_STAT b) Fld.ASRC_STAT_FILL 4

/-- What the end of a window does to a block, once its ratio and fill are shown. -/
theorem asrcWindow_eq (h0 : asrcState s b ≠ 0) (hin : inService s = true) (w : Nat) (phase : Int) :
    let u := windowShown b phase s
    asrcWindow b w phase s =
      if asrcState u b = 1 then
        if ratioGood w && !(asrcBlk u b).recentre then phaseNoted b phase (asrcBlk u b) (setAsrcState b 2 u) else u
      else if !ratioGood w || phaseFar phase then
        if phaseFar phase then fifoRecentred b (asrcUnlock b u) else asrcUnlock b u
      else phaseNoted b phase (asrcBlk u b) u := by
  simp only [asrcWindow, h0, hin, false_or, Bool.not_true, Bool.false_eq_true, if_false]
  rfl

theorem windowShown_kept (b : Nat) (phase : Int) (s : State) : StatesKept b s (windowShown b phase s) := by
  have hratio : StatesKept b s (spend (rsetN s (Reg.ASRC_RATIO b) (freeValue s))) :=
    ⟨fun c _ => fget_rsetN_ne _ _ _ (asrcStat_ne_ratio c b), rgetN_rsetN_ne _ _ (asrcUnlocks_ne_ratio b b)⟩
  exact hratio.trans (statesKept_fill ..)
theorem fifoRecentred_kept (hb : b < 256) (s : State) : StatesKept b s (fifoRecentred b s) := by
  unfold fifoRecentred
  extract_lets p grouped v u
  have hu : StatesKept b s u := ⟨fun _ _ => rfl, rfl⟩
  split
  · exact hu.trans (statesKept_groupSlipped hb p u)
  · exact hu.trans (statesKept_fill b 4 u)

/-- The state of block b after a window, and what it counts: from UNLOCKED to ACQUIRE on a ratio within range, to UNLOCKED
on a ratio or a phase out of range. -/
def stateAfter (good far recentre : Bool) (st : Nat) : Nat :=
  if st = 1 then (if good && !recentre then 2 else 1) else if !good || far then 1 else st
def unlocksAfter (good : Bool) (phase : Int) (st n : Nat) : Nat :=
  if st = 3 ∧ (good = false ∨ 1024 < phase.natAbs) then min 0xFFFFFFFF (n + 1) else n

theorem unlocksAfter_of_ne {st : Nat} (good : Bool) (phase : Int) (n : Nat) (h : st ≠ 3) : unlocksAfter good phase st n = n :=
  if_neg fun hlost => h hlost.1
theorem unlocksAfter_of_lost {good : Bool} {phase : Int} (st n : Nat) (h : (!good || phaseFar phase) = true) :
    unlocksAfter good phase st n = if st = 3 then min 0xFFFFFFFF (n + 1) else n := by
  have hlost : good = false ∨ 1024 < phase.natAbs := by simpa using h
  simp only [unlocksAfter, hlost, and_true]
theorem unlocksAfter_of_kept {good : Bool} {phase : Int} (st n : Nat) (h : ¬ (!good || phaseFar phase) = true) :
    unlocksAfter good phase st n = n :=
  if_neg fun hlost => h (by simpa using hlost.2)

theorem asrcWindow_spec (hb : b < 256) (h0 : asrcState s b ≠ 0) (hin : inService s = true) (w : Nat) (phase : Int) :
    let t := asrcWindow b w phase s
    asrcState t b = stateAfter (ratioGood w) (phaseFar phase) (asrcBlk s b).recentre (asrcState s b) ∧
      rgetN t (Reg.ASRC_UNLOCKS b) =
        unlocksAfter (ratioGood w) phase (asrcState s b) (rgetN s (Reg.ASRC_UNLOCKS b)) ∧
      ∀ c, c < 256 → c ≠ b → asrcState t c = asrcState s c := by
  intro t
  have ht : t = _ := asrcWindow_eq h0 hin w phase
  have hkept := windowShown_kept b phase s
  have hblk : asrcBlk (windowShown b phase s) b = asrcBlk s b := rfl
  rw [hblk] at ht
  generalize windowShown b phase s = u at ht hkept
  obtain ⟨hstate, hunlocks⟩ := hkept
  have hown : asrcState u b = asrcState s b := hstate b hb
  have hothers (c : Nat) (hc : c < 256) (_ : c ≠ b) : asrcState u c = asrcState s c := hstate c hc
  rw [hown] at ht
  unfold stateAfter
  by_cases h1 : asrcState s b = 1
  · rw [if_pos h1] at ht ⊢
    rw [unlocksAfter_of_ne _ _ _ (by omega)]
    by_cases hacquire : (ratioGood w && !(asrcBlk s b).recentre) = true
    · rw [ht, if_pos hacquire, if_pos hacquire]
      exact ⟨asrcState_setAsrcState b 2 u (by decide), (unlocks_setAsrcState b 2 u).trans hunlocks,
        fun c hc hne => (asrcState_setAsrcState_ne 2 u hne).trans (hothers c hc hne)⟩
    · rw [ht, if_neg hacquire, if_neg hacquire]
      exact ⟨hown.trans h1, hunlocks, hothers⟩
  rw [if_neg h1] at ht ⊢
  by_cases hlost : (!ratioGood w || phaseFar phase) = true
  · have hunlocked : StatesKept b (asrcUnlock b u) t := by
      rw [ht, if_pos hlost]
      split
      · exact fifoRecentred_kept hb _
      · exact ⟨fun _ _ => rfl, rfl⟩
    rw [if_pos hlost, unlocksAfter_of_lost _ _ hlost, hunlocked.state b hb, hunlocked.unlocks, asrcUnlock_unlocks hb,
      hown, hunlocks]
    exact ⟨asrcUnlock_state hb u, rfl, fun c hc hne =>
      (hunlocked.state c hc).trans ((asrcUnlock_other hc hne u).trans (hothers c hc hne))⟩
  · rw [if_neg hlost, unlocksAfter_of_kept _ _ hlost, ht, if_neg hlost]
    exact ⟨hown, hunlocks, hothers⟩

/-! ### The loss of the clock, and the end of the acquisition -/

theorem asrcClockLoss_eq (h : 2 ≤ asrcState s b) (hin : inService s = true) : asrcClockLoss b s = asrcUnlock b s := by
  have hrun : ¬ asrcState s b ≤ 1 := by omega
  simp [asrcClockLoss, hrun, hin]
theorem asrcAcquired_eq (h : asrcState s b = 2) (hsteady : (asrcBlk s b).steady = true) (hin : inService s = true) :
    asrcAcquired b s = setAsrcState b 3 s := by
  simp [asrcAcquired, h, hsteady, hin]
theorem setAsrcState_regs (b n : Nat) (s : State) : RegsWithin [Reg.ASRC_STAT b] s (setAsrcState b n s) :=
  (OnlyRegs.refl _ s).fset (by simp)

end Sys2Proof.Proofs.AsrcBlocks
end

section
/-! PROOF. O41, how a channel comes to be flagged non-audio and how the flag clears (12 R315, R316). -/

set_option Elab.async false

namespace Sys2Proof.Proofs.AsrcAndNonAudio

open Sys2Proof.Machine Sys2Proof.Laws Sys2Proof.Proofs.TakeRing Sys2Proof.Proofs.DestLines Sys2Proof.Proofs.AsrcBlocks

variable {s t u : State} {a c : Nat}

/-! ### A detector and the register of its channel -/

theorem naDet_setNa (a : Nat) (v : NaDet) (s : State) (c : Nat) :
    naDet (setNa a v s) c = if c = a then v else naDet s c := cget_cset ..
theorem naDet_setNa_same (a : Nat) (v : NaDet) (s : State) : naDet (setNa a v s) a = v := by
  rw [naDet_setNa, if_pos rfl]
theorem naChannel_inj (h : c ≠ a) : Reg.SAP_NA_CH c ≠ Reg.SAP_NA_CH a := by
  rw [Reg.SAP_NA_CH, Reg.SAP_NA_CH]
  omega

/-- A field of the channel's register other than NA. -/
abbrev BesideNa (f : FieldRow) : Prop := Fld.SAP_NA_CH_NA.hi < f.lo ∨ f.hi < Fld.SAP_NA_CH_NA.lo

section Field
variable {f g : FieldRow}

theorem naSet_regs (a : Nat) (f : FieldRow) (n : Nat) (s : State) : RegsWithin [Reg.SAP_NA_CH a] s (naSet a f n s) :=
  ((OnlyRegs.refl _ s).fset (by simp)).fset (by simp)
theorem fget_refreshNa (a : Nat) (s : State) (hf : BesideNa f) :
    fget (refreshNa a s) (Reg.SAP_NA_CH a) f = fget s (Reg.SAP_NA_CH a) f :=
  fget_fset_field _ _ _ _ _ (by decide) (by decide) hf
theorem fbit_refreshNa (a : Nat) (s : State) (hf : BesideNa f) :
    fbit (refreshNa a s) (Reg.SAP_NA_CH a) f = fbit s (Reg.SAP_NA_CH a) f := by
  rw [fbit, fget_refreshNa _ _ hf, fbit]
theorem fbit_refreshNa_na (a : Nat) (s : State) : fbit (refreshNa a s) (Reg.SAP_NA_CH a) Fld.SAP_NA_CH_NA =
    naOf (naMode s a) (fbit s (Reg.SAP_NA_CH a) Fld.SAP_NA_CH_PRE_NA || fbit s (Reg.SAP_NA_CH a) Fld.SAP_NA_CH_CS_NA) :=
  fbit_fset_bool _ _ _ (by decide) rfl
/-- Another field, but for NA. -/
theorem fget_naSet_field (a : Nat) (f g : FieldRow) (n : Nat) (s : State) (hg : BesideNa g := by decide)
    (h : f.hi < g.lo ∨ g.hi < f.lo := by decide) (hword : f.hi < 32 ∧ f.lo ≤ f.hi + 1 := by decide) :
    fget (naSet a f n s) (Reg.SAP_NA_CH a) g = fget s (Reg.SAP_NA_CH a) g :=
  (fget_refreshNa _ _ hg).trans (fget_fset_field _ _ _ _ _ hword.1 hword.2 h)
theorem fbit_naSet_field (a : Nat) (f g : FieldRow) (n : Nat) (s : State) (hg : BesideNa g := by decide)
    (h : f.hi < g.lo ∨ g.hi < f.lo := by decide) (hword : f.hi < 32 ∧ f.lo ≤ f.hi + 1 := by decide) :
    fbit (naSet a f n s) (Reg.SAP_NA_CH a) g = fbit s (Reg.SAP_NA_CH a) g := by
  rw [fbit, fget_naSet_field a f g n s hg h hword, fbit]
/-- The field that is set. -/
theorem fbit_naSet (a : Nat) (f : FieldRow) (b : Bool) (s : State) (hf : BesideNa f := by decide)
    (hword : f.hi < 32 := by decide) (hbit : f.lo = f.hi := by rfl) :
    fbit (naSet a f (b2n b) s) (Reg.SAP_NA_CH a) f = b :=
  (fbit_refreshNa _ _ hf).trans (fbit_fset_bool _ _ _ hword hbit)
/-- NA follows what the detector has found, by MODE. -/
theorem fbit_naSet_na (a : Nat) (f : FieldRow) (n : Nat) (s : State)
    (h : f.hi < Fld.SAP_NA_CH_MODE.lo ∨ Fld.SAP_NA_CH_MODE.hi < f.lo := by decide)
    (hword : f.hi < 32 ∧ f.lo ≤ f.hi + 1 := by decide) :
    let t := naSet a f n s
    fbit t (Reg.SAP_NA_CH a) Fld.SAP_NA_CH_NA = naOf (naMode s a)
      (fbit t (Reg.SAP_NA_CH a) Fld.SAP_NA_CH_PRE_NA || fbit t (Reg.SAP_NA_CH a) Fld.SAP_NA_CH_CS_NA) := by
  have hmode : naMode (fset s (Reg.SAP_NA_CH a) f n) a = naMode s a := fget_fset_field _ _ _ _ _ hword.1 hword.2 h
  dsimp only [naSet]
  rw [fbit_refreshNa_na, hmode, fbit_refreshNa a _ (by decide), fbit_refreshNa a _ (by decide)]

end Field

/-! ### A block of channel status is judged -/

/-- The block in hand is judged, with n blocks in a row by now that show 0. -/
def blockJudged (a n : Nat) (s : State) : State := setNa a { naDet s a with block := none, zeros := n } s
theorem blockJudged_det (a n : Nat) (s : State) : (naDet (blockJudged a n s) a).block = none := by
  rw [blockJudged, naDet_setNa_same]

theorem naBlock_one (h : (naDet s a).block = some true) :
    naBlock a s = naSet a Fld.SAP_NA_CH_CS_NA (b2n true) (blockJudged a 0 s) := by
  simp only [naBlock, h]
  rfl
theorem naBlock_zero (h : (naDet s a).block = some false) :
    naBlock a s = if 1 ≤ (naDet s a).zeros
      then naSet a Fld.SAP_NA_CH_CS_NA (b2n false) (blockJudged a ((naDet s a).zeros + 1) s)
      else blockJudged a ((naDet s a).zeros + 1) s := by
  simp only [naBlock, h]
  rfl

theorem naBlock_spec {bit1 : Bool} (h : (naDet s a).block = some bit1) :
    let t := naBlock a s
    let r := Reg.SAP_NA_CH a
    (naDet t a).block = none ∧ RegsWithin [r] s t ∧
      fbit t r Fld.SAP_NA_CH_CS_NA = (bit1 || (fbit s r Fld.SAP_NA_CH_CS_NA && decide ((naDet s a).zeros = 0))) ∧
      (fbit t r Fld.SAP_NA_CH_CS_NA ≠ fbit s r Fld.SAP_NA_CH_CS_NA → fbit t r Fld.SAP_NA_CH_NA =
        naOf (naMode s a) (fbit t r Fld.SAP_NA_CH_PRE_NA || fbit t r Fld.SAP_NA_CH_CS_NA)) := by
  intro t r
  have hset (n : Nat) (b : Bool) (ht : t = naSet a Fld.SAP_NA_CH_CS_NA (b2n b) (blockJudged a n s)) :
      (naDet t a).block = none ∧ RegsWithin [r] s t ∧ fbit t r Fld.SAP_NA_CH_CS_NA = b ∧
      fbit t r Fld.SAP_NA_CH_NA =
        naOf (naMode s a) (fbit t r Fld.SAP_NA_CH_PRE_NA || fbit t r Fld.SAP_NA_CH_CS_NA) := by
    rw [ht]
    exact ⟨blockJudged_det a n s, naSet_regs a _ _ _, fbit_naSet .., fbit_naSet_na ..⟩
  cases bit1 with
  | true =>
    obtain ⟨hblock, hregs, hcs, hna⟩ := hset 0 true (naBlock_one h)
    exact ⟨hblock, hregs, hcs, fun _ => hna⟩
  | false =>
    have ht : t = _ := naBlock_zero h
    by_cases hz : 1 ≤ (naDet s a).zeros
    · rw [if_pos hz] at ht
      obtain ⟨hblock, hregs, hcs, hna⟩ := hset _ false ht
      have hmore : (naDet s a).zeros ≠ 0 := by omega
      exact ⟨hblock, hregs, by simp [hcs, hmore], fun _ => hna⟩
    · rw [if_neg hz] at ht
      have hfirst : (naDet s a).zeros = 0 := by omega
      have hcs : fbit t r Fld.SAP_NA_CH_CS_NA = fbit s r Fld.SAP_NA_CH_CS_NA := by rw [ht]; rfl
      refine ⟨?_, ?_, by simp [hcs, hfirst], fun h => absurd hcs h⟩
      · rw [ht, blockJudged_det]
      · rw [ht]
        exact .refl _ s

/-! ### A preamble is found -/

theorem naAlign_lt (x y : Nat) : naAlign x y < 4 := by
  unfold naAlign
  dsimp only
  repeat' split
  all_goals decide

/-- The channel with the alignment and the detector's line that a preamble leaves, before PRE_NA is set. -/
def alignShown (a al depth : Nat) (s : State) : State :=
  let v := naDet s a
  let l := (v.line.take depth).map (fun e => (e.1, true, e.2.2)) ++ v.line.drop depth
  fset (setNa a { v with line := l, age := 0 } s) (Reg.SAP_NA_CH a) Fld.SAP_NA_CH_ALIGN al
theorem naFound_eq (a al depth : Nat) (s : State) :
    naFound a al depth s = naSet a Fld.SAP_NA_CH_PRE_NA (b2n true) (alignShown a al depth s) := rfl
theorem alignShown_mode (a al depth : Nat) (s : State) : naMode (alignShown a al depth s) a = naMode s a :=
  fget_fset_field _ _ _ _ _ (by decide) (by decide) (.inr (by decide))
theorem naFound_regs (a al depth : Nat) (s : State) : RegsWithin [Reg.SAP_NA_CH a] s (naFound a al depth s) :=
  OnlyRegs.trans ((OnlyRegs.refl _ s).fset (by simp)) (naSet_regs a Fld.SAP_NA_CH_PRE_NA 1 (alignShown a al depth s))

/-- Channel c shows a preamble of this alignment; NA follows it by a MODE. -/
def Flagged (al mode : Nat) (t : State) (c : Nat) : Prop :=
  fbit t (Reg.SAP_NA_CH c) Fld.SAP_NA_CH_PRE_NA = true ∧ fget t (Reg.SAP_NA_CH c) Fld.SAP_NA_CH_ALIGN = al ∧
    fbit t (Reg.SAP_NA_CH c) Fld.SAP_NA_CH_NA = naOf mode true

theorem naFound_flagged {al : Nat} (hal : al < 4) (a depth : Nat) (s : State) :
    Flagged al (naMode s a) (naFound a al depth s) a := by
  have hpre : fbit (naFound a al depth s) (Reg.SAP_NA_CH a) Fld.SAP_NA_CH_PRE_NA = true := fbit_naSet a _ true _
  have halign : fget (alignShown a al depth s) (Reg.SAP_NA_CH a) Fld.SAP_NA_CH_ALIGN = al :=
    (fget_fset_same _ _ _ _ (by decide) (by decide)).trans (Nat.mod_eq_of_lt hal)
  refine ⟨hpre, (fget_naSet_field ..).trans halign, ?_⟩
  have hna := fbit_naSet_na a Fld.SAP_NA_CH_PRE_NA (b2n true) (alignShown a al depth s)
  dsimp only at hna
  rw [← naFound_eq, hpre, Bool.true_or, alignShown_mode] at hna
  exact hna
/-- What is found in another channel leaves a channel flagged. -/
theorem Flagged.kept {al mode depth x : Nat} (h : Flagged al mode s c) (hne : c ≠ a) :
    Flagged al mode (naFound a x depth s) c := by
  have hregs := naFound_regs a x depth s
  have hout : Reg.SAP_NA_CH c ∉ [Reg.SAP_NA_CH a] := by simp [naChannel_inj hne]
  obtain ⟨hpre, halign, hna⟩ := h
  exact ⟨(hregs.bit hout _).trans hpre, (hregs.field hout _).trans halign, (hregs.bit hout _).trans hna⟩

/-- From s to t the modes of the channels and the samples in their detectors are the same. -/
structure Detecting (s t : State) : Prop where
  mode : ∀ c, naMode t c = naMode s c
  sample : ∀ c i, naSample t c i = naSample s c i

/-- The entries of a line with their marks set hold the same samples. -/
theorem samples_marked (l : List (Nat × Bool × Bool)) (depth : Nat) :
    ((l.take depth).map (fun e => (e.1, true, e.2.2)) ++ l.drop depth).map (·.1) = l.map (·.1) := by
  rw [List.map_append, List.map_map]
  exact List.map_append.symm.trans (congrArg _ (List.take_append_drop depth l))
theorem naSample_eq (s : State) (c i : Nat) : naSample s c i = ((((naDet s c).line.map (·.1))[i]?)).getD 0 := by
  rw [naSample, List.getElem?_map]
theorem naFound_detecting (a al depth : Nat) (s : State) : Detecting s (naFound a al depth s) := by
  refine ⟨fun c => ?_, fun c i => ?_⟩
  · by_cases hc : c = a
    · subst hc
      exact (fget_naSet_field ..).trans (alignShown_mode c al depth s)
    · exact (naFound_regs a al depth s).field (by simp [naChannel_inj hc]) _
  · rw [naSample_eq, naSample_eq]
    have hdet : naDet (naFound a al depth s) c = naDet (alignShown a al depth s) c := rfl
    have hshown : (naDet (alignShown a al depth s) c).line.map (·.1) = (naDet s c).line.map (·.1) := by
      show (naDet (setNa a _ s) c).line.map (·.1) = _
      rw [naDet_setNa]
      split
      · next h => rw [h, samples_marked]
      · rfl
    rw [hdet, hshown]
theorem naScanOne_detecting (a : Nat) (s : State) : Detecting s (naScanOne a s) := by
  unfold naScanOne
  dsimp only
  split
  · exact naFound_detecting ..
  · exact ⟨fun _ => rfl, fun _ _ => rfl⟩

/-- The alignment of a preamble in channel a, and across the pair that begins at channel e. -/
abbrev alignOne (s : State) (a : Nat) : Nat := naAlign (naSample s a 1) (naSample s a 0)
abbrev alignPair (s : State) (e : Nat) : Nat := naAlign (naSample s e 0) (naSample s (e + 1) 0)

theorem naScanOne_eq (a : Nat) (s : State) :
    naScanOne a s = if alignOne s a ≠ 0 then naFound a (alignOne s a) 2 s else s := rfl
theorem naScanPair_eq (a : Nat) (s : State) : naScanPair a s =
    if alignPair s (a / 2 * 2) ≠ 0 then naFound (a / 2 * 2 + 1) (alignPair s (a / 2 * 2)) 1
      (naFound (a / 2 * 2) (alignPair s (a / 2 * 2)) 1 s) else s := rfl

theorem naScan_spec (a : Nat) (s : State) :
    let t := naScan a s
    let e := a / 2 * 2
    if alignPair s e ≠ 0 then ∀ c, c = e ∨ c = e + 1 → Flagged (alignPair s e) (naMode s c) t c
    else if alignOne s a ≠ 0 then Flagged (alignOne s a) (naMode s a) t a ∧ RegsWithin [Reg.SAP_NA_CH a] s t
    else t = s := by
  intro t e
  have hdet := naScanOne_detecting a s
  have hpair : alignPair (naScanOne a s) e = alignPair s e := by rw [alignPair, hdet.sample, hdet.sample]
  have ht : t = _ := naScanPair_eq a (naScanOne a s)
  rw [hpair] at ht
  by_cases htwo : alignPair s e ≠ 0
  · rw [if_pos htwo] at ht ⊢
    have hal : alignPair s e < 4 := naAlign_lt _ _
    rintro c (rfl | rfl)
    · rw [ht, ← hdet.mode]
      exact (naFound_flagged hal _ _ _).kept (by omega)
    · rw [ht, ← hdet.mode, ← (naFound_detecting e (alignPair s e) 1 (naScanOne a s)).mode]
      exact naFound_flagged hal _ _ _
  · rw [if_neg htwo, naScanOne_eq] at ht
    rw [if_neg htwo]
    split
    · next hone =>
      rw [if_pos hone] at ht
      rw [ht]
      exact ⟨naFound_flagged (naAlign_lt _ _) _ _ _, naFound_regs _ _ _ _⟩
    · next hone => rw [ht, if_neg hone]

/-! ### No preamble for 8,192 samples -/

theorem naTimeout_spec (a : Nat) (s : State) :
    let t := naTimeout a s
    let r := Reg.SAP_NA_CH a
    if fbit s r Fld.SAP_NA_CH_PRE_NA = true ∧ 8192 ≤ (naDet s a).age then
      fbit t r Fld.SAP_NA_CH_PRE_NA = false ∧ fbit t r Fld.SAP_NA_CH_CS_NA = fbit s r Fld.SAP_NA_CH_CS_NA ∧
      fbit t r Fld.SAP_NA_CH_NA = naOf (naMode s a) (fbit s r Fld.SAP_NA_CH_CS_NA) ∧ RegsWithin [r] s t
    else t = s := by
  intro t r
  have ht : t = if fbit s r Fld.SAP_NA_CH_PRE_NA = true ∧ 8192 ≤ (naDet s a).age
      then naSet a Fld.SAP_NA_CH_PRE_NA (b2n false) s else s := by
    simp only [t, naTimeout, r, Bool.and_eq_true, decide_eq_true_eq]
    rfl
  split
  · next h =>
    rw [if_pos h] at ht
    have hpre : fbit t r Fld.SAP_NA_CH_PRE_NA = false := ht ▸ fbit_naSet a _ false s
    have hcs : fbit t r Fld.SAP_NA_CH_CS_NA = fbit s r Fld.SAP_NA_CH_CS_NA := ht ▸ fbit_naSet_field ..
    have hna : fbit t r Fld.SAP_NA_CH_NA = naOf (naMode s a)
        (fbit t r Fld.SAP_NA_CH_PRE_NA || fbit t r Fld.SAP_NA_CH_CS_NA) := ht ▸ fbit_naSet_na ..
    rw [hpre, hcs, Bool.false_or] at hna
    exact ⟨hpre, hcs, hna, ht ▸ naSet_regs _ _ _ _⟩
  · next h => rw [ht, if_neg h]

/-! ### O41 -/

/-- Settles O41: a window by `asrcWindow_spec`, the loss of the clock by the lemmas of `asrcUnlock`, and the non-audio flag
by what judges a block (`naBlock_spec`), finds a preamble (`naScan_spec`) and lets it lapse (`naTimeout_spec`). -/
theorem asrcAndNonAudio : Obligations.AsrcAndNonAudio := by
  unfold Obligations.AsrcAndNonAudio
  refine ⟨fun b s hin => ⟨fun w phase h0 => ⟨_, rfl, asrcWindow_spec b.isLt h0 hin w phase⟩, fun hrun => ?loss,
    fun hacquire hsteady => ?acquired⟩, fun a s => ⟨fun bit1 hblock => ⟨_, rfl, naBlock_spec hblock⟩, ?preamble,
    ⟨_, rfl, naTimeout_spec a s⟩⟩⟩
  case loss =>
    exact ⟨_, congrArg Host.Outcome.next (asrcClockLoss_eq hrun hin), asrcUnlock_state b.isLt s,
      asrcUnlock_unlocks b.isLt s, asrcUnlock_regs b s⟩
  case acquired =>
    exact ⟨_, congrArg Host.Outcome.next (asrcAcquired_eq hacquire hsteady hin),
      asrcState_setAsrcState b 3 s (by decide), rfl, setAsrcState_regs b 3 s⟩
  case preamble =>
    exact ⟨_, rfl, by simpa only [Flagged, and_assoc] using naScan_spec a s⟩

end Sys2Proof.Proofs.AsrcAndNonAudio
end
